-- ==== Sys2Proof/Word.lean ====
section
/-! DEFINITION. The word types of the Octaragon and the one container for sparse, indexed state. -/

namespace Sys2Proof

/-- A byte of memory, of a frame or of a file (R23: multi-byte fields are little-endian). -/
abbrev Byte := BitVec 8
/-- A register is 64 bits wide (R16). -/
abbrev Word64 := BitVec 64
/-- A wide register, a queue word, a descriptor word (R17, R389). -/
abbrev Word128 := BitVec 128

/-- Sparse state by index (legs, sources, queues, lanes ...): pairs of an index and a value, kept in
rising order of index by `Tab.set`. An index that is not listed has the default its reader names. -/
structure Tab (α : Type) where
  cells : List (Nat × α)
  deriving DecidableEq, Repr, Inhabited

end Sys2Proof
end

