-- ==== Sys2Proof/Syntax.lean ====
section
/-! DEFINITION. The commands of the block: one constructor per row of spec/opcode_table.json, in the table's order,
except that the commands with no operand stand last. -/

namespace Sys2Proof

/-- Where a descriptor command comes from: the front packet of a host command queue (R403), or the command
port of a control core with the four descriptor words its firmware writes (R406). -/
inductive CmdSrc where
  | queue (q : Nat)
  | port (core : Nat) (w0 w1 w2 w3 : BitVec 128)
  deriving DecidableEq, Repr

/-- The kinds of identifier and of plain number that serve a quarantine (R9). -/
inductive IdKind where
  | leg | source | sub | slot | work | queue | decCtx | encCtx | output | audioIn
  deriving DecidableEq, Repr

/-- One AES3 subframe as the receiver has it: which preamble, the 24 sample bits, the validity bit, the
channel-status bit, and whether parity and preamble checked (R314). -/
structure AesSub where
  sample : BitVec 24
  validity : Bool
  csBit : Bool
  parityOk : Bool
  preambleOk : Bool
  deriving DecidableEq, Repr

/-- A command: a register access, a descriptor command, or an event of the spec's table. Its operands are
what the outside world or the event brings; a descriptor's own fields are read from the descriptor. -/
inductive Instr where
  /-- REGISTER_WRITE (R18). A write to a register that has no row of its own takes effect according to
  the access codes of its fields. -/
  | registerWrite (who off : Nat) (v : BitVec 64)
  /-- WIDE_LOW_WRITE (R17). A write of the low half of a wide register is held separately for the
  writing master until that master writes the high half. -/
  | wideLowWrite (who off : Nat) (v : BitVec 64)
  /-- WIDE_LOW_READ (R17). A read of the low half of a wide register latches the high half for the
  reading master. -/
  | wideLowRead (who off : Nat)
  /-- RC_COUNTER_READ (R21). A read of an RC counter returns its value and clears it, racing any
  increment. -/
  | rcCounterRead (who off : Nat)
  /-- UNDEFINED_OPCODE (R15). A descriptor with a reserved or undefined opcode completes with
  ACCESS_REFUSED, reason BAD_OPCODE, and progress 0. -/
  | undefinedOpcode (src : CmdSrc)
  /-- QUARANTINE_END (R9). The quarantine period of a released identifier expires, and the identifier
  becomes free for allocation. -/
  | quarantineEnd (kind : IdKind) (index : Nat)
  /-- DL_BLOCK_RX (R28). A die-to-die link receiver takes a block, checks its CRC and sequence number,
  and releases it, drops it as a duplicate, or requests a replay. -/
  | dlBlockRx (link dir : Nat) (sent got : List (BitVec 128)) (seq : Nat) (crc : BitVec 32)
  /-- DL_REPLAY_REQUEST (R28). A link transmitter receives a replay request and resends from the
  requested block onward, in order. -/
  | dlReplayRequest (link dir seq : Nat)
  /-- DL_RETRAIN_END (R30). A link retrain ends, either taking the link UP or counting a failure that
  can leave the link DOWN. -/
  | dlRetrainEnd (link : Nat) (ok : Bool)
  /-- RETRAIN (R34). A write of RETRAIN to BODY_DL_CTRL starts a link retrain and clears
  RETRAIN_FAILS. -/
  | retrain (who link : Nat)
  /-- HOLD_DOWN (R34). A write of HOLD_DOWN to BODY_DL_CTRL holds the link DOWN and reroutes its
  traffic, in the debug-enabled state only. -/
  | holdDown (who link : Nat) (on : Bool)
  /-- ANTENNA_MEASURE (R45). An island's antenna monitor measures its loop time every 10 µs and
  updates its slack. -/
  | antennaMeasure (island loopPs : Nat) (tempC : Int)
  /-- VOLTAGE_LOOP_PASS (R47). Every 50 µs the power manager sets each island's target voltage from
  its slack, posture, power limit and temperature. -/
  | voltageLoopPass (inputW : Nat) (caseC : Int)
  /-- POSTURE (R49). A write to PWR_POSTURE changes the posture at the next loop pass of the 50 µs
  grid. -/
  | posture (who : Nat) (v : BitVec 64)
  /-- FAB_STORE_IMAGE (R71). Copies a Fabric Image from host memory into an image store slot after
  checking its signature and header. -/
  | fabStoreImage (src : CmdSrc)
  /-- FAB_LOAD_FULL (R83). Replaces the whole fabric configuration while forwarding continues. -/
  | fabLoadFull (src : CmdSrc)
  /-- FAB_RELOAD_PART (R80). Replaces one partition's configuration in steps while other partitions
  keep working. -/
  | fabReloadPart (src : CmdSrc)
  /-- FAB_ABORT (R82). Stops a reload that is still draining and restores the old configuration. -/
  | fabAbort (src : CmdSrc)
  /-- FAB_ENROLL_KEY (R70). Writes an owner image key hash into a fuse slot on an owner-signed token. -/
  | fabEnrollKey (src : CmdSrc)
  /-- DRAIN_END (R80). The committed load of a reloading partition reaches 0 in every role, and the
  reload continues at step 4. -/
  | drainEnd (badTiles : List Nat)
  /-- DRAIN_TIMEOUT (R81). FAB_DRAIN_MS expires before the drain ends, and the reload stops with
  TIMEOUT or, with FORCE, abandons the partition's work. -/
  | drainTimeout (badTiles : List Nat)
  /-- ETH_FRAME_RX (R329). An Ethernet port receives a frame, discards it on a bad FCS or a runt, and
  otherwise hands it to the forward plane. -/
  | ethFrameRx (lane : Nat) (frame : List Byte)
  /-- RX_CIPHER_RELEASE (R165). A receive gang finishes the replay and tag checks of a packet and
  releases the plaintext, or drops the packet. -/
  | rxCipherRelease (op : Nat)
  /-- JITTER_DEADLINE (R114). An access unit's playout deadline expires, and the unit is released
  marked INCOMPLETE. -/
  | jitterDeadline (source : Nat)
  /-- KF_HOLD_END (R137). A source's keyframe hold ends, and a pending request is sent upstream. -/
  | kfHoldEnd (source : Nat)
  /-- KEYFRAME_NEEDED (R137). No switch point arrives within 3 × KF_HOLD_MS of the first unanswered
  request, and a work item is posted. -/
  | keyframeNeeded (source : Nat)
  /-- FB_TIMEOUT (R131). FB_TIMEOUT_MS passes with no feedback, EST is halved and the state becomes
  NO_FEEDBACK. -/
  | fbTimeout (leg : Nat)
  /-- LAYER_SELECTION (R132). Every 50 ms, or after a change of EST or bounds, the leg Wing chooses
  target layers for each leg's subscriptions. -/
  | layerSelection (leg : Nat)
  /-- SCHEDULE_SELECT (R142). A port's scheduler picks the eligible leg with the smallest start tag,
  encrypts and sends its head copy, and advances the tags. -/
  | scheduleSelect (port : Nat)
  /-- GATE_ENTRY (R145). A port's gate list advances to its next entry or starts a new list at its
  start instant. -/
  | gateEntry (port : Nat)
  /-- LEG_ROOM_CLAIM (R117). Gives a free room to a function with its weight, bridge SSRC and keyframe
  hold. -/
  | legRoomClaim (src : CmdSrc)
  /-- LEG_ROOM_FREE (R118). Frees a room that nothing names. -/
  | legRoomFree (src : CmdSrc)
  /-- LEG_CREATE (R120). Creates a leg and returns its handle. -/
  | legCreate (src : CmdSrc)
  /-- LEG_BOUNDS (R121). Sets a leg's rate bounds, headroom, priority and pin. -/
  | legBounds (src : CmdSrc)
  /-- LEG_SHAPE (R139). Sets a leg's shaper parameters. -/
  | legShape (src : CmdSrc)
  /-- LEG_EST_PARAM (R128). Sets a leg's estimator parameters. -/
  | legEstParam (src : CmdSrc)
  /-- LEG_READ (R122). Writes a 128-byte image of a leg to host memory. -/
  | legRead (src : CmdSrc)
  /-- LEG_STATS (R148). Writes a leg's eight counters to host memory, optionally clearing them. -/
  | legStats (src : CmdSrc)
  /-- LEG_RELEASE (R125). Releases a leg's subscriptions, drops its queued copies and quarantines its
  handle. -/
  | legRelease (src : CmdSrc)
  /-- SUB_CREATE (R123). Creates a subscription of a leg to a source and returns its handle. -/
  | subCreate (src : CmdSrc)
  /-- SUB_BOUNDS (R123). Sets a subscription's layer bounds, priority and pause. -/
  | subBounds (src : CmdSrc)
  /-- SUB_READ (R119). Writes a 64-byte image of a subscription to host memory. -/
  | subRead (src : CmdSrc)
  /-- SUB_RELEASE (R125). Releases a subscription once its frame in progress ends. -/
  | subRelease (src : CmdSrc)
  /-- LEG_KEYFRAME (R137). Enters a keyframe request for a source into the merge. -/
  | legKeyframe (src : CmdSrc)
  /-- LEG_GATE_LIST (R144). Installs or removes a port's gate list, starting it at BASE or at a later
  cycle. -/
  | legGateList (src : CmdSrc)
  /-- ING_SRC_CREATE (R97). Creates a source with its match key and returns its handle. -/
  | ingSrcCreate (src : CmdSrc)
  /-- ING_SRC_POLICE (R98). Sets a source's policing buckets and fills them. -/
  | ingSrcPolice (src : CmdSrc)
  /-- ING_SRC_HISTORY (R110). Allocates a new history ring for a source and frees the old one. -/
  | ingSrcHistory (src : CmdSrc)
  /-- ING_SRC_JITTER (R111). Enables, changes or frees a source's jitter buffer. -/
  | ingSrcJitter (src : CmdSrc)
  /-- ING_SRC_READ (R99). Writes a 128-byte image of a source to host memory. -/
  | ingSrcRead (src : CmdSrc)
  /-- ING_SRC_STATS (R100). Writes a source's eight counters to host memory, optionally clearing them. -/
  | ingSrcStats (src : CmdSrc)
  /-- ING_SRC_RELEASE (R115). Removes a source's match key, frees its ring and buffer, and quarantines
  its handle. -/
  | ingSrcRelease (src : CmdSrc)
  /-- KEY_PROVISION (R155). Fuses the device root key and owner authority key hash and moves BLANK to
  DEPLOYED. -/
  | keyProvision (src : CmdSrc)
  /-- KEY_TOKEN (R174). Applies an owner-signed DEBUG_ENABLE or RETIRE token to change the lifecycle
  state. -/
  | keyToken (src : CmdSrc)
  /-- KEY_KEK_INSTALL (R157). Unwraps and installs a tenant key-encryption key. -/
  | keyKekInstall (src : CmdSrc)
  /-- KEY_KEK_ERASE (R173). Zeroes a tenant key-encryption key entry. -/
  | keyKekErase (src : CmdSrc)
  /-- KEY_SLOT_ALLOC (R159). Allocates a key slot, optionally loading a session blob, and returns its
  handle. -/
  | keySlotAlloc (src : CmdSrc)
  /-- KEY_SLOT_LOAD (R163). Loads new session keys into a slot's shadow, which swaps in at the slot's
  arbiter. -/
  | keySlotLoad (src : CmdSrc)
  /-- KEY_SLOT_ERASE (R164). Sets a slot ERASING and zeroes it once its started operations end. -/
  | keySlotErase (src : CmdSrc)
  /-- KEY_SLOT_RELEASE (R160). Erases and releases a key slot into quarantine. -/
  | keySlotRelease (src : CmdSrc)
  /-- KEY_CTX_SAVE (R168). Writes a slot's context to host memory, optionally freezing the slot. -/
  | keyCtxSave (src : CmdSrc)
  /-- KEY_CTX_RESTORE (R170). Allocates a slot and makes it ACTIVE from a saved context. -/
  | keyCtxRestore (src : CmdSrc)
  /-- KEY_SLOT_READ (R175). Writes a slot's state and counters to host memory, optionally clearing the
  counters. -/
  | keySlotRead (src : CmdSrc)
  /-- KEY_TOKEN_RETIRE_CHECK (R174). Completes with the lifecycle state and changes nothing. -/
  | keyTokenRetireCheck (src : CmdSrc)
  /-- ERASE_ZEROING_DONE (R164). Once every started operation on an erasing slot ends, its keys are
  zeroed and it becomes EMPTY. -/
  | eraseZeroingDone (slot : Nat)
  /-- CONTEXT_SNAPSHOT (R168). Once started operations end on a freezing slot, its context snapshot is
  taken. -/
  | contextSnapshot (slot : Nat)
  /-- RX_GRACE_END (R163). The receive grace after a rewrite ends, and PREVIOUS is zeroed. -/
  | rxGraceEnd (slot : Nat)
  /-- RESTORED_RECORD_DROP (R170). A restored index record that no entry has taken within one
  quarantine period is dropped. -/
  | restoredRecordDrop (slot : Nat)
  /-- VID_POOL_SET (R186). Creates, resizes or frees a function's frame pool on a Wing. -/
  | vidPoolSet (src : CmdSrc)
  /-- VID_DEC_CREATE (R182). Creates a decode context on a chosen VD tile after its checks and
  admission. -/
  | vidDecCreate (src : CmdSrc)
  /-- VID_DEC_RESET (R204). Clears a context's reference and output marks and requests a keyframe. -/
  | vidDecReset (src : CmdSrc)
  /-- VID_DEC_READ (R205). Writes a decode context's counters to host memory, optionally clearing
  them. -/
  | vidDecRead (src : CmdSrc)
  /-- VID_DEC_RELEASE (R205). Ends a decode context after its picture in progress finishes. -/
  | vidDecRelease (src : CmdSrc)
  /-- DECODE_PICTURE_START (R193). A VD tile takes the next released access unit and starts decoding
  it into a free buffer. -/
  | decodePictureStart (ctx : Nat)
  /-- BAND_PUBLISH (R191). A decoded band whose in-loop filters have finished is published. -/
  | bandPublish (ctx : Nat)
  /-- DECODE_PICTURE_END (R206). A picture finishes or is abandoned, takes its marks and pushes its
  record. -/
  | decodePictureEnd (ctx : Nat)
  /-- LATE_REPAIR (R199). Late packets that complete a reference unit make the tile decode the picture
  again into a fresh buffer. -/
  | lateRepair (ctx : Nat)
  /-- VID_OUT_CREATE (R209). Creates a composed or stitched output on a chosen tile after admission. -/
  | vidOutCreate (src : CmdSrc)
  /-- VID_OUT_LAYER (R211). Writes a layer's settings into the output's shadow. -/
  | vidOutLayer (src : CmdSrc)
  /-- VID_OUT_MATRIX (R217). Writes a layer's custom colour matrix into the shadow. -/
  | vidOutMatrix (src : CmdSrc)
  /-- VID_OUT_COMMIT (R211). Copies the output's shadow into pending, to become active at the next
  boundary. -/
  | vidOutCommit (src : CmdSrc)
  /-- VID_OUT_READ (R234). Writes an output's image, counters and active settings to host memory. -/
  | vidOutRead (src : CmdSrc)
  /-- VID_OUT_RELEASE (R234). Ends an output after its frame in progress and quarantines its number. -/
  | vidOutRelease (src : CmdSrc)
  /-- FRAME_BOUNDARY (R210). At an output's frame boundary, pending settings become active, layers
  latch pictures and stitch cells take queued pictures. -/
  | frameBoundary (output : Nat)
  /-- PX_BAND_HANDOFF (R218). A PX tile composes a ready band and hands it to the VE route. -/
  | pxBandHandoff (output : Nat)
  /-- INPUT_WAIT_EXPIRE (R219). An input band still unpublished at boundary + WAIT_US leaves its layer
  out of the band. -/
  | inputWaitExpire (output layer : Nat)
  /-- ST_FRAME_EMIT (R233). An ST tile emits a composite frame to the forward plane. -/
  | stFrameEmit (output : Nat)
  /-- STITCH_KF_WINDOW_END (R231). The keyframe window ends and the composite switch point is emitted
  with grey tiles where cells lack an intra picture. -/
  | stitchKfWindowEnd (output : Nat)
  /-- CELL_GREY (R230). A BROKEN cell that gets no intra picture within 3 × KF_HOLD_MS carries an
  intra grey tile once. -/
  | cellGrey (output cell : Nat)
  /-- VID_ENC_CREATE (R238). Creates an encode context and its local source on a chosen VE tile. -/
  | vidEncCreate (src : CmdSrc)
  /-- VID_ENC_RATE (R252). Replaces an encode context's rate fields and clears its debt. -/
  | vidEncRate (src : CmdSrc)
  /-- VID_ENC_KEYFRAME (R253). Sets KEY_PENDING so that the next picture is a keyframe. -/
  | vidEncKeyframe (src : CmdSrc)
  /-- VID_ENC_READ (R259). Writes an encode context's word and counters to host memory. -/
  | vidEncRead (src : CmdSrc)
  /-- VID_ENC_RELEASE (R259). Ends an encode context after its picture in progress. -/
  | vidEncRelease (src : CmdSrc)
  /-- VE_BAND_CODED (R246). A VE tile codes a band and hands its packets to the forward plane. -/
  | veBandCoded (ctx : Nat)
  /-- KF_INTERVAL (R253). KF_INTERVAL × 100 ms passes since the last keyframe and KEY_PENDING is set. -/
  | kfInterval (ctx : Nat)
  /-- AUD_ROOM_SETUP (R271). Gives a room a mixer on a home AU tile with channels, talker limit and
  profiles. -/
  | audRoomSetup (src : CmdSrc)
  /-- AUD_ROOM_SET (R280). Writes room settings or a channel's floor gain into the shadow. -/
  | audRoomSet (src : CmdSrc)
  /-- AUD_GROUP_CREATE (R275). Creates a mix group with its encoders and local source. -/
  | audGroupCreate (src : CmdSrc)
  /-- AUD_IN_ATTACH (R265). Attaches a participant source or AES3 subframe to a room as an input. -/
  | audInAttach (src : CmdSrc)
  /-- AUD_IN_SET (R280). Writes an input's settings into the room's shadow. -/
  | audInSet (src : CmdSrc)
  /-- AUD_LISTEN (R276). Binds or unbinds a subscription to the input it speaks for. -/
  | audListen (src : CmdSrc)
  /-- AUD_SAFELOAD (R280). Moves the room's changed shadow entries into the active set at the next
  block start. -/
  | audSafeload (src : CmdSrc)
  /-- AUD_IN_READ (R284). Writes an input's detection state and counters to host memory. -/
  | audInRead (src : CmdSrc)
  /-- AUD_ROOM_READ (R284). Writes a room's state, talker set and counters to host memory. -/
  | audRoomRead (src : CmdSrc)
  /-- AUD_IN_RELEASE (R284). Fades an input out, frees its slots, lowers load and quarantines its
  number. -/
  | audInRelease (src : CmdSrc)
  /-- AUD_GROUP_RELEASE (R284). Releases a mix group and its local source. -/
  | audGroupRelease (src : CmdSrc)
  /-- AUD_ROOM_RELEASE (R284). Releases a room mixer that has no inputs or groups. -/
  | audRoomRelease (src : CmdSrc)
  /-- AUD_BUS_SET (R281). Sets a program bus's subframe sources, gains, park and tap. -/
  | audBusSet (src : CmdSrc)
  /-- AUD_BUS_READ (R284). Writes a bus's state and counters to host memory. -/
  | audBusRead (src : CmdSrc)
  /-- AUD_ROOM_NOTIFY (R284). Enables or disables talker-change work items for a room. -/
  | audRoomNotify (src : CmdSrc)
  /-- AUDIO_DECODE (R267). A released audio unit is decoded, concealed or discarded and its blocks
  join the input FIFO. -/
  | audioDecode (input : Nat)
  /-- GROUP_FRAME_CODED (R279). A group frame's variants are coded and their packets handed to the
  forward plane. -/
  | groupFrameCoded (source : Nat)
  /-- BUS_PARK (R282). A bus silent for PARK_MS parks its port. -/
  | busPark (bus : Nat)
  /-- LINE_MEASURE (R311). An AES3 port measures its line every 10 ms and changes LINE after 3
  agreeing measurements. -/
  | lineMeasure (port ohms : Nat) (legAtGround : Bool)
  /-- AES_LOCK (R313). An enabled AES3 input locks to a valid signal. -/
  | aesLock (port rate : Nat) (inverted aligned : Bool)
  /-- UNLOCK (R313). After 8 frames in a row with no valid preamble the input is unlocked. -/
  | aesUnlock (port : Nat)
  /-- CS_BLOCK_RX (R314). An AES3 input receives a channel-status block and latches it when its CRCC
  checks. -/
  | csBlockRx (port : Nat) (bytes : List Byte)
  /-- AES_OUT_FRAME_DUE (R318). An output frame is due and is sent from the buffer or as a fill frame. -/
  | aesOutFrameDue (port : Nat)
  /-- SHORT_TRIP_RETRY (R312). A shorted AES3 output driver retries every 100 ms. -/
  | shortTripRetry (port : Nat) (short : Bool)
  /-- AES_CS_BLOCK_START (R321). At a channel-status block start, new output channel status and group
  slot masks take effect. -/
  | aesCsBlockStart (port : Nat)
  /-- AES_GROUP_MASK (R321). A write of the slot mask to the shadow of AES_GROUP_MASK. -/
  | aesGroupMask (who group : Nat) (v : BitVec 64)
  /-- AES_OUT_CS (R317). A write of output channel-status bytes to the shadow. -/
  | aesOutCs (who port word : Nat) (v : BitVec 64)
  /-- LANE_GROUP_CFG (R326). A write that changes a lane group's personality, width or medium, refused
  while sources or legs use it. -/
  | laneGroupCfg (who group : Nat) (v : BitVec 64)
  /-- LOS (R346). Loss of signal on a lane takes an Ethernet port DOWN or a Tremund lane back to
  bring-up. -/
  | laneLos (lane : Nat)
  /-- LOL (R346). Loss of lock on a lane or group PLL takes the lanes out of service. -/
  | laneLol (lane : Nat) (pll : Bool)
  /-- PORT_STATE (R330). An Ethernet port completes auto-negotiation and training and goes UP. -/
  | portState (port inverted : Nat)
  /-- TM_BLOCK_RX (R341). A Tremund lane receives a block, releases it in sequence or requests a
  replay, and parses its frames. -/
  | tmBlockRx (lane : Nat) (header : BitVec 128) (words : List (BitVec 128)) (crc : BitVec 32)
  /-- TM_NAK_REPEAT (R341). A replay request not yet served 1 µs later is repeated. -/
  | tmNakRepeat (lane : Nat)
  /-- TM_BRINGUP_STEP (R343). A Tremund lane completes a bring-up step and moves to the next, reaching
  UP after the identity check. -/
  | tmBringupStep (lane : Nat) (header : BitVec 128) (inverted : Bool)
  /-- TM_STEP_TIMEOUT (R343). A bring-up step misses its bound and the lane returns to step 1. -/
  | tmStepTimeout (lane : Nat)
  /-- TM_RETRY_WAIT_END (R343). The 100 ms wait after repeated failed attempts ends and bring-up
  starts again. -/
  | tmRetryWaitEnd (lane : Nat)
  /-- DOZE (R345). A transmit direction with no frame queued for DOZE_US enters DOZE. -/
  | tmDoze (lane : Nat)
  /-- IDLE (R345). A direction in DOZE for IDLE_MS enters electrical idle. -/
  | tmIdle (lane : Nat)
  /-- TM_WAKE (R345). A dozing or idle direction returns to ACTIVE on a frame, an acknowledgement or
  WAKE_REQ. -/
  | tmWake (lane : Nat)
  /-- REFRESH (R345). A dozing direction sends a REFRESH block every 1 µs. -/
  | tmRefresh (lane : Nat)
  /-- TM_STREAM_HOLD_END (R339). A stream held for a returning lane is released when its old blocks
  are acknowledged or 20 µs pass. -/
  | tmStreamHoldEnd (port stream : Nat)
  /-- FAULT_SHORT (R348). A shorted transmit leg is limited, the lane leaves service and a record is
  written. -/
  | faultShort (lane : Nat)
  /-- FAULT_SHORT_RETRY (R348). A shorted transmitter retries every 100 ms and clears FAULT_SHORT when
  the short is gone. -/
  | faultShortRetry (lane : Nat) (short : Bool)
  /-- LANE_RETRAIN (R352). A write of RETRAIN to LANE_CTRL restarts bring-up or auto-negotiation. -/
  | laneRetrain (who lane : Nat)
  /-- LANE_HOLD_DOWN (R352). A write of HOLD_DOWN to LANE_CTRL holds the lane out of service. -/
  | laneHoldDown (who lane : Nat) (on : Bool)
  /-- LANE_TEST (R350). A write to LANE_TEST sets a loop and pattern, taking the lane out of service
  or back to bring-up. -/
  | laneTest (who lane : Nat) (v : BitVec 64)
  /-- TIME_ADJUST (R356). Slews, steps or sets the time base. -/
  | timeAdjust (src : CmdSrc)
  /-- TIME_PTP_SEND (R361). Sends a PTP frame with a transmit timestamp or one-step insertion. -/
  | timePtpSend (src : CmdSrc)
  /-- TIME_PTP_BIND (R365). Binds a record queue and domain number for received PTP messages. -/
  | timePtpBind (src : CmdSrc)
  /-- PPS_IN (R363). A 1PPS-in edge is timestamped and latched. -/
  | ppsIn (falling : Bool)
  /-- PPS_SHORT (R364). A short on a 1PPS line limits its current and writes a record. -/
  | ppsShort (line : Nat)
  /-- PPS_SHORT_RETRY (R364). A shorted timing line retries every 100 ms. -/
  | ppsShortRetry (line : Nat) (short : Bool)
  /-- DRAM_REQUEST (R372). A read or write to a stack is checked against the region's access table,
  queued and served. -/
  | dramRequest (master stack addr : Nat) (write : Option (List Byte)) (crcFails : Nat)
  /-- RH_WINDOW_START (R373). A new 32 ms window restarts every activation count. -/
  | rhWindowStart (stack : Nat)
  /-- SELF_REFRESH (R379). A stack with no request for 1 ms enters self-refresh. -/
  | selfRefresh (stack : Nat)
  /-- RUN (R371). A write of RUN to MEM_STACK_CTRL in INIT sets the stack to RUN. -/
  | memRun (who stack : Nat)
  /-- PARK (R380). A write of PARK to MEM_STACK_CTRL parks the stack once its queues are empty. -/
  | memPark (who stack : Nat) (on : Bool)
  /-- MEM_HASH (R371). A write of a hash mask, accepted only in INIT and when valid. -/
  | memHash (who stack : Nat) (bank : Bool) (index : Nat) (v : BitVec 64)
  /-- ACC_WRITE (R386). A write to ACC_WRITE changes one access-table entry and latches the result for
  the writer. -/
  | accWrite (who : Nat) (v : BitVec 64)
  /-- ACC_QUERY (R388). A write to ACC_QUERY selects a table for the writer's query reads. -/
  | accQuery (who : Nat) (v : BitVec 64)
  /-- HQ_PUSH (R390). A host push of a queue word opens, extends or closes a packet, or is refused. -/
  | hqPush (who queue : Nat) (hi : BitVec 64)
  /-- HQ_POP (R391). A pop returns the next visible queue word or NOT_VALID. -/
  | hqPop (who queue : Nat)
  /-- HQ_CFG (R396). A write to HQ_CFG enables, releases or configures a queue. -/
  | hqCfg (who queue : Nat) (v : BitVec 64)
  /-- FLUSH (R394). A write of FLUSH to HQ_CTRL discards packets at the producer's next packet
  boundary. -/
  | flush (who queue hardMs : Nat)
  /-- HARD_FLUSH (R395). A packet still open HARD_MS after a flush is discarded and QGEN rises. -/
  | hardFlush (queue : Nat)
  /-- RESUME (R405). A write of RESUME to HQ_CTRL resumes a halted command queue at NEXT. -/
  | resume (who queue : Nat)
  /-- ARM (R400). A write of ARM to HQ_CTRL arms the queue interrupt and sends it at once if its
  condition holds. -/
  | arm (who queue : Nat)
  /-- HQ_MIRROR_CONS (R399). A write of CONSUMED frees ring words for the mirror engine. -/
  | hqMirrorCons (who queue : Nat) (v : BitVec 64)
  /-- MIRROR_DRAIN (R399). The queue engine pops a packet into the host ring once the ring has room
  and writes PRODUCED. -/
  | mirrorDrain (queue : Nat)
  /-- QUEUE_IRQ_TIMEOUT (R400). The oldest packet of an armed queue waits TIME_US and the vector is
  sent. -/
  | queueIrqTimeout (queue : Nat)
  /-- NOP (R413). Completes with OK and progress 1. -/
  | nop (src : CmdSrc)
  /-- DISP_POST (R413). Posts a HOST work item and returns its handle. -/
  | dispPost (src : CmdSrc)
  /-- DISP_CANCEL (R411). Cancels a work item that has not yet been dispatched. -/
  | dispCancel (src : CmdSrc)
  /-- WORK_ITEM_DISPATCH (R410). A free control core takes the head item of the most urgent non-empty
  level. -/
  | workItemDispatch (core : Nat)
  /-- WORK_ITEM_END (R410). A control core runs a work item to its end. -/
  | workItemEnd (core : Nat)
  /-- WATCHDOG (R412). An item running longer than WATCHDOG_MS stops and restarts its core. -/
  | watchdog (core : Nat)
  /-- HELLO (R422). A HELLO is sent on each Tremund port at its interval. -/
  | hello (port : Nat)
  /-- HELLO_RX (R422). A received HELLO records a neighbour. -/
  | helloRx (port : Nat) (msg : List Byte)
  /-- LINK_STATE (R422). A received LINK_STATE updates the table and is flooded once per SERIAL and
  SEQ. -/
  | linkState (port : Nat) (msg : List Byte)
  /-- COMPAT (R427). The coordinator checks a member's COMPAT message and accepts it or marks it
  INCOMPATIBLE. -/
  | compat (port : Nat) (msg : List Byte)
  /-- JOIN (R424). A received JOIN makes the member JOINED and enables its routes. -/
  | domJoin (port : Nat) (msg : List Byte)
  /-- LEAVE (R422). A received LEAVE removes the member from the domain. -/
  | domLeave (port : Nat) (msg : List Byte)
  /-- NEIGHBOUR_LOST (R423). Three HELLO intervals without a HELLO lose the neighbour. -/
  | neighbourLost (port : Nat)
  /-- MEMBER_LOST (R423). A member whose LINK_STATE is not refreshed for 300 ms is lost and its routes
  withdrawn. -/
  | memberLost (serial : Nat)
  /-- ISOLATED_TIME (R426). An offset above 200 ns for 1 s sends the member to ISOLATED_TIME. -/
  | isolatedTime (offsetNs : Int)
  /-- DOM_CFG (R430). A write to BODY_DOM_CFG, ignored while enabled unless it clears ENABLE, which
  floods LEAVE. -/
  | domCfg (who : Nat) (v : BitVec 64)
  /-- PHASE (R438). A write of 1 or 2 to EVR_PHASE changes the recorder phase. -/
  | phase (who : Nat) (v : BitVec 64)
  /-- LAST_GASP_CLEAR (R454). A write of CLEAR to EVR_LG_CTRL empties the last-gasp bank. -/
  | lastGaspClear (who : Nat) (v : BitVec 64)
  /-- EVR_READ (R452). Writes records of the current epoch, or the mirror, to host memory. -/
  | evrRead (src : CmdSrc)
  /-- EVR_WRITE (R452). Writes a host or firmware record after checking its CRC. -/
  | evrWrite (src : CmdSrc)
  /-- EVR_CLEAR (R441). Clears the recorder on an owner-signed token and writes CLEARED. -/
  | evrClear (src : CmdSrc)
  /-- EVR_DUMP_COPY (R452). Copies part of the DRAM dump or flash summary to host memory. -/
  | evrDumpCopy (src : CmdSrc)
  /-- EVR_DUMP_RELEASE (R452). Empties the DRAM dump, the flash summary or both. -/
  | evrDumpRelease (src : CmdSrc)
  /-- UPD_STAGE (R459). Copies a Moult into staging and checks it. -/
  | updStage (src : CmdSrc)
  /-- UPD_APPLY (R460). Builds the target image in the inactive bank and checks its hash and floor. -/
  | updApply (src : CmdSrc)
  /-- UPD_SCHEDULE (R462). Schedules an activation with its health end and fall-back instant. -/
  | updSchedule (src : CmdSrc)
  /-- UPD_CANCEL (R462). Removes a pending activation. -/
  | updCancel (src : CmdSrc)
  /-- UPD_COMMIT (R465). Commits a TRIAL bank in commit mode 1 when the conditions hold. -/
  | updCommit (src : CmdSrc)
  /-- UPD_FALLBACK (R466). Falls back to the previous bank at once or at an instant. -/
  | updFallback (src : CmdSrc)
  /-- SUPPLY_BAND (R473). The input voltage changes band and starts or ends the ride-through. -/
  | supplyBand (centivolts : Nat)
  /-- POWER_LOSS (R484). The input falls below 33 V, POWER_LOSS is recorded and the module stops. -/
  | powerLoss (centivolts : Nat)
  /-- CASE_OVER (R484). The case stays above 105 °C for 1 s, setting CASE_OVER. -/
  | caseOver (caseC : Int)
  /-- CASE_TEMP (R484). The case stays above 115 °C for 100 ms and Safe Hold is entered. -/
  | caseTemp (caseC : Int)
  /-- EXIT (R489). A write of EXIT to BODY_SAFE_HOLD starts a warm reset when every cause's exit
  condition holds. -/
  | exitSafeHold (who : Nat)
  /-- CBL_PWR (R480). A cable supply above 2 A is limited, FAULT is set and the output retries every
  100 ms. -/
  | cblPwr (connector : Nat)
  /-- CBL_PWR_RETRY (R480). A limited cable supply retries every 100 ms. -/
  | cblPwrRetry (connector : Nat) (exceeds : Bool)
  /-- COLD_BOOT (R491). The input passing 40 V starts the cold boot sequence through firmware, DRAM,
  settings, lanes and the Fabric Image. -/
  | coldBoot (badTiles badStacks : List Nat)
  /-- COLD (R490). A write of COLD to BODY_RESET starts a cold reset. -/
  | coldWrite (who : Nat)
  /-- WARM (R490). A write of WARM to BODY_RESET starts a warm reset. -/
  | warmWrite (who : Nat)
  /-- RECOVERY_LOAD (R492). A write of the high half of BODY_RECOVERY in NO_FIRMWARE Safe Hold copies
  and checks an image into bank A. -/
  | recoveryLoad (who : Nat) (v : BitVec 64)
  /-- TILE_DSP_DOORBELL (R308). A doorbell write pushes a value into a core's mailbox and raises MAIL,
  or is dropped when the mailbox is full. -/
  | tileDspDoorbell (who tile core : Nat) (v : BitVec 64)
  /-- PIPE (R303). A pipeline block of the tile delivers data for a core and raises PIPE. -/
  | pipe (tile core : Nat)
  /-- INTERRUPT_ENTRY (R304). A core takes a pending enabled interrupt, drains results, saves IPC and
  ISTAT and jumps to the vector. -/
  | interruptEntry (tile core : Nat)
  /-- DSP_NOP (R301). DSP NOP does nothing. -/
  | dspNop (tile core : Nat)
  /-- BR (R301). Branches when COND holds. -/
  | dspBr (tile core : Nat)
  /-- CALL (R301). Saves the return address in P15 and branches. -/
  | dspCall (tile core : Nat)
  /-- RET (R301). Returns to the address in P15. -/
  | dspRet (tile core : Nat)
  /-- RETI (R305). Restores PC from IPC and STATUS from ISTAT. -/
  | dspReti (tile core : Nat)
  /-- LOOP (R299). Pushes a loop stack entry, or skips the body for COUNT 0. -/
  | dspLoop (tile core : Nat)
  /-- WAIT (R301). Stops issue until an enabled source is pending. -/
  | dspWait (tile core : Nat)
  /-- HALT (R301). Stops the core. -/
  | dspHalt (tile core : Nat)
  /-- MVLS (R301). Copies a loop stack entry into a vector. -/
  | mvls (tile core : Nat)
  /-- MVSL (R301). Writes a loop stack entry from a vector. -/
  | mvsl (tile core : Nat)
  /-- MVSV (R301). Copies a special register into a vector, popping the mailbox for MAIL_IN. -/
  | mvsv (tile core : Nat)
  /-- MVVS (R301). Writes a special register from a vector, including mailbox pushes and interrupt
  acknowledgement. -/
  | mvvs (tile core : Nat)
  /-- VLD (R301). Loads a vector and post-modifies the pointer. -/
  | vld (tile core : Nat)
  /-- VST (R301). Stores a vector and post-modifies the pointer. -/
  | vst (tile core : Nat)
  /-- VLDB (R301). Loads a word into every lane and post-modifies the pointer. -/
  | vldb (tile core : Nat)
  /-- PSET (R301). Writes the low half of a pointer, base or length register. -/
  | pset (tile core : Nat)
  /-- PSETH (R301). Writes the high half of a pointer, base or length register. -/
  | pseth (tile core : Nat)
  /-- PADD (R301). Adds a signed immediate to a pointer. -/
  | padd (tile core : Nat)
  /-- VALU (R301). Performs the vector ALU function FN. -/
  | valu (tile core : Nat)
  /-- VMAC (R297). Adds lane products to an accumulator with saturation. -/
  | vmac (tile core : Nat)
  /-- VMSU (R297). Subtracts lane products from an accumulator with saturation. -/
  | vmsu (tile core : Nat)
  /-- VMUL (R297). Writes lane products to a cleared accumulator. -/
  | vmul (tile core : Nat)
  /-- FTAP (R300). Multiplies and accumulates a delay-line tap and moves the sample along the line. -/
  | ftap (tile core : Nat)
  /-- ACCRND (R298). Rounds, shifts and saturates accumulator lanes into a vector. -/
  | accrnd (tile core : Nat)
  /-- ACCCLR (R301). Clears an accumulator. -/
  | accclr (tile core : Nat)
  /-- ACCSV (R298). Copies part of an accumulator into a vector. -/
  | accsv (tile core : Nat)
  /-- ACCLD (R298). Writes part of an accumulator from a vector. -/
  | accld (tile core : Nat)
  /-- ACCCPY (R301). Copies one accumulator to another. -/
  | acccpy (tile core : Nat)
  /-- AES_IN_FRAME_RX (R314). An AES3 input receives a frame, checks each subframe's parity, validity
  and preamble, and writes its samples into the converter buffer, counting OVERRUN when it is
  full. -/
  | aesInFrameRx (port : Nat) (a b : AesSub)
  /-- LOS_CLEARED (R346). The received amplitude on a lane stays above 70 mV for 10 µs, and LOS
  clears. -/
  | losCleared (lane : Nat)
  /-- PLL_LOCK (R343). A lane group's PLL locks, which clears LOL for its lanes and starts Tremund
  bring-up at step 1. -/
  | pllLock (group : Nat)
  /-- CBL_PRES_CHANGE (R480). CBL_PRES# of a lane connector changes as a cable is inserted or removed,
  turning CBL_PWR on or off according to its ENABLE bit. -/
  | cblPresChange (connector : Nat) (present : Bool)
  /-- TIME_ALIGNED (R426). A member's offset to the coordinator has stayed within 50 ns for 100 ms, so
  it is aligned and start-up goes on to the compatibility check. -/
  | timeAligned (offsetNs : Int)
  /-- MIX_BLOCK_START (R263). At each 1 ms block start the mixers choose talker sets, apply safe-loads
  and compute the block from the input FIFOs. -/
  | mixBlockStart
  /-- SLEW_DONE (R355). The remaining offset reaches 0 and SLEW_DONE is set. -/
  | slewDone
  /-- PPS_OUT (R364). 1PPS out rises at each whole second of the time base. -/
  | ppsOut
  /-- HEARTBEAT (R408). The dispatcher posts a HEARTBEAT item 20 ms after the previous one ran. -/
  | heartbeat
  /-- CORES_LOST (R444). 100 ms pass with no HEARTBEAT completed and a fatal error is declared. -/
  | coresLost
  /-- LINK_STATE_SEND (R422). A member sends LINK_STATE every 100 ms and on each change of neighbours. -/
  | linkStateSend
  /-- ELECTION (R425). After the table has been unchanged for 20 ms the member elects the coordinator. -/
  | election
  /-- DOMAIN_STEP_TIMEOUT (R424). A start-up step misses its bound and restarts. -/
  | domainStepTimeout
  /-- FATAL_ERROR (R444). A fatal error writes FATAL, halts command queues, enters RECOVERY and starts
  the dump. -/
  | fatalError
  /-- DRAM_DUMP_DONE (R445). The DRAM dump header is written, DRAM_STATE reads VALID and vector 0 is
  raised. -/
  | dramDumpDone
  /-- FLASH_SUMMARY_DONE (R445). The summary is written to the flash dump slot. -/
  | flashSummaryDone
  /-- ACTIVATE_AT (R463). At ACTIVATE_AT the queues halt and a warm reset starts the new bank on
  trial. -/
  | activateAt
  /-- TRIAL_COMMIT (R465). In commit mode 0, the firmware commits once every trial condition holds. -/
  | trialCommit
  /-- FALLBACK_INSTANT (R466). The fall-back instant passes with the bank still TRIAL and the previous
  bank restarts. -/
  | fallbackInstant
  /-- RIDE_THROUGH_END (R485). The input is out of range for 10 ms and Safe Hold is entered with cause
  SUPPLY. -/
  | rideThroughEnd
  /-- FUSE_OPEN (R475). The input fuse opens on overcurrent, which is a power loss. -/
  | fuseOpen
  /-- BODY_INTEGRITY (R486). A Body integrity check fails and Safe Hold is entered. -/
  | bodyIntegrity
  /-- PERST (R490). PERST# starts a cold reset that keeps the stacks in self-refresh. -/
  | perst
  /-- SERVICE_RESET (R490). SERVICE_RESET# held low for 10 ms starts a cold reset. -/
  | serviceReset
  deriving DecidableEq, Repr

end Sys2Proof
end

