-- ==== Sys2Proof/Decode.lean ====
section
/-! DEFINITION. The command that a word spells by the opcode table's bits: the table gives no row any bits, so no word
spells one. -/

namespace Sys2Proof

/-- No row of the opcode table gives its command an encoding of its own; descriptors are read from their queues. -/
def decodeTableWord (_nbits _w : Nat) : Option Instr := none

end Sys2Proof
end

