-- ==== Sys2Proof/Config.lean ====
section
/-! DEFINITION. What one module or one implementation fixes, and the free values: constants with no body, so that
nothing can evaluate them and no proof can see a value of them. -/

namespace Sys2Proof.Config

/-- A free value: what the spec leaves open, at the fresh number the step supplies (log entry 2). -/
opaque free : Nat → Nat

/-- The fused serial number, before it is brought into the range of R36. -/
opaque serialRaw : Nat
/-- SERIAL, 48 bits, from 1 upward (R36). -/
def serial : Nat := 1 + serialRaw % (2 ^ 48 - 1)
opaque steppingRaw : Nat
/-- STEPPING, counting from 1 (R36). -/
def stepping : Nat := 1 + steppingRaw % 255
opaque rxLatRaw : Nat → Nat
opaque txLatRaw : Nat → Nat
/-- RX_LAT_PS and TX_LAT_PS of a lane: fused, 1,000 to 5,000 (R359). -/
def rxLatPs (lane : Nat) : Nat := 1000 + rxLatRaw lane % 4001
def txLatPs (lane : Nat) : Nat := 1000 + txLatRaw lane % 4001
/-- The module's fused base MAC address, its first byte the most significant (R352). -/
opaque macBase : Nat
/-- The fused hashes of Grenmet's image key and firmware key (R69, R455). -/
opaque grenmetImageKey : List Byte
opaque grenmetFirmwareKey : List Byte

/-- The converter of an AES3 input (R315) and the interpolators of the outputs (R316): their filters are not given.
Operands: the rate code, the phase, and the last samples, latest first. -/
opaque convertIn : Nat → Nat → List Int → Int
opaque convertOut : Nat → Nat → List Int → Int
/-- The steering of an input's converter as a function of its buffer (R315), before its bound of ±1,000 ppm. -/
opaque steerIn : Nat → Int

/-- The features of a picture that R179 names as refused. -/
inductive Feature where
  | fieldPicture
  | mbaff
  | fmo
  | aso
  | redundantSlices
  | spSlice
  | siSlice
  | depthAbove8
  | chromaFormat
  | rangeExtension
  | screenContent
  | multiview
  | scalable
  | seqProfile1
  | seqProfile2
  | largeScaleTile
  deriving DecidableEq, Repr

/-- What a decoder finds in an access unit: the codecs' standards are not restated by the spec, so the decoder is a function
of the codec, of what it remembers of the stream, and of the unit's NAL units or OBUs. For H.264 and H.265 positions count the
context's earlier pictures still kept, latest first, and a position beyond them is a picture that was never received; for AV1
they are reference slots. -/
structure PicInfo where
  /-- every header, parameter set and sequence header that the picture needs is there -/
  headers : Bool
  /-- features of R179 that the picture uses -/
  features : List Feature
  width : Nat
  height : Nat
  tenBit : Bool
  mono : Bool
  grain : Bool
  /-- IDR, IRAP or AV1 key frame -/
  key : Bool
  /-- the picture is a short-term, or a long-term, reference (H.264, H.265); refresh_frame_flags (AV1) -/
  reference : Bool
  longRef : Bool
  refresh : Nat
  /-- max_num_reorder_frames, or sps_max_num_reorder_pics of the highest sub-layer (H.264, H.265) -/
  reorder : Nat
  /-- the bumping process outputs the picture as it ends (H.264, H.265); show_frame (AV1) -/
  shown : Bool
  /-- the unit only shows the frame that a slot holds: show_existing_frame (AV1) -/
  existing : Bool
  /-- colour code of R217, where the stream signals one -/
  colour : Option Nat
  order : Nat
  /-- positions that it references, that keep their marks, that become long-term, that it makes output, in order -/
  refs : List Nat
  keep : List Nat
  longs : List Nat
  outputs : List Nat
  /-- bins and syntax elements counted; the band at which a syntax error stands, and at which a write leaves the window -/
  bins : Nat
  elements : Nat
  syntaxAt : Option Nat
  windowAt : Option Nat
  /-- what the decoder remembers afterwards -/
  memory : Nat
  deriving DecidableEq, Repr, Inhabited

/-- Codec, operating point, memory, the unit's elements. -/
opaque picture : Nat → Nat → Nat → List (List Byte) → PicInfo
/-- operating_point_idc of an AV1 operating point, as the decoder remembers it or finds it in the unit. -/
opaque operatingIdc : Nat → Nat → List (List Byte) → Nat
/-- A sample that a decoder reconstructs for picture n: component and place. -/
opaque decodedSample : Nat → Nat → Nat → Nat → Nat
/-- The luma place belongs to a block that the elements present do not carry (R198). -/
opaque missingBlock : Nat → Nat → Nat → Bool

/-- The filter of the scaler of R215, whose coefficients are not given: component, the phases across and down (0 to 63), the crop
and destination sizes, and the samples under its taps, row by row. -/
opaque scalerFilter : Nat → Nat → Nat → List Nat → List Nat → Nat

/-- What the stitch check of R228 finds in a picture as it parses the headers and entropy-decodes the data. -/
structure StitchInfo where
  width : Nat
  height : Nat
  /-- a conformance window (H.265), or a render size other than the frame's (AV1) -/
  windowed : Bool
  /-- Main or Main 10 (H.265), Main (AV1); 10 bits -/
  mainProfile : Bool
  tenBit : Bool
  /-- the SPS fields but size, IDs and VUI; the sequence header but size and timing -/
  params : List Nat
  /-- the picture delivers a parameter set -/
  delivers : Bool
  /-- 64 × 64 CTBs or superblocks; slice segments or tiles; tiles_enabled_flag; entropy_coding_sync_enabled_flag; intra block copy -/
  units64 : Bool
  segments : Nat
  tiles : Bool
  wavefront : Bool
  blockCopy : Bool
  /-- intra picture; its one reference is the previous picture (LAST); reordering; temporal motion vectors; skip_mode -/
  intra : Bool
  previousOnly : Bool
  reordering : Bool
  temporalMv : Bool
  skipMode : Bool
  /-- every prediction block, with 4 samples of margin, is inside the picture; warped motion -/
  motionInside : Bool
  warped : Bool
  /-- cu_qp_delta or delta_q_present; weighted prediction; scaling lists; primary_ref_frame; end-of-frame update; segmentation -/
  qpDelta : Bool
  weighted : Bool
  scaling : Bool
  primaryRef : Bool
  frameEndUpdate : Bool
  segmentation : Bool
  /-- loop filter level above 0, CDEF, restoration, film grain -/
  filtered : Bool
  qidx : Nat
  deriving DecidableEq, Repr, Inhabited

opaque stitchCheck : Nat → List (List Byte) → StitchInfo
/-- Bytes of a slice NAL unit, or of a unit that holds tile data, before its data: codec, the unit. -/
opaque sliceHeadLen : Nat → List Byte → Nat
/-- A header that the ST tile writes (R229): codec, kind, and the values that it states. -/
opaque stitchHeader : Nat → Nat → List Nat → List Byte
/-- The data of precomputed tiles: codec, kind 0 skip, 1 intra grey, 2 background; width, height, 10 bits. -/
opaque stitchTile : Nat → Nat → Nat → Nat → Bool → List Byte

/-- A prediction block: its place and size in its coding unit, and its motion vector in eighths of a sample (R243). -/
structure Block where
  x : Nat
  y : Nat
  w : Nat
  h : Nat
  dx : Int
  dy : Int
  deriving DecidableEq, Repr, Inhabited

/-- What an encoder makes of a coding unit: its bits in normal coding and its prediction blocks. -/
structure UnitCode where
  bits : Nat
  blocks : List Block
  deriving DecidableEq, Repr, Inhabited

/-- The encoder's choices are its own (R249): for a unit, from a number, the unit, the QP, the samples of the unit and those of the
reference window, as luma, Cb and Cr rows; the bytes of a coded band, from the samples of the band; a QP; the samples that it
reconstructs; the bodies of parameter sets, sequence and frame headers, from a kind and the values that the spec states. -/
opaque codeUnit : Nat → Nat → Nat → List (List (List Nat)) → List (List (List Nat)) → UnitCode
opaque codedByte : Nat → List (List (List Nat)) → Nat → Byte
opaque encoderQp : Nat → Nat → Nat
opaque reconSample : Nat → Nat → Nat → Nat → Nat
opaque headerBody : Nat → Nat → List Nat → List Byte
/-- A sample of the fixed 2:1 filter of R245, whose taps are not given: rows of the feeding bands, place in the result. -/
opaque halveFilter : List (List Nat) → Nat → Nat → Nat

/-- What an audio decoder gives for a frame: 16-bit samples at the codec's own rate (Opus: 48 kHz), and what it remembers. -/
structure AudioFrame where
  stereo : Bool
  left : List Int
  right : List Int
  memory : Nat
  deriving DecidableEq, Repr, Inhabited

/-- The audio decoders, whose standards the spec names and does not restate: what the decoder remembers and the payload. An
Opus frame is decoded in mode 0, from the FEC data of the payload in mode 1, and by loss concealment in mode 2. -/
opaque opusDecode : Nat → Nat → List Byte → AudioFrame
/-- The payload holds FEC data for the frame before it. -/
opaque opusHasFec : List Byte → Bool
/-- The 64 kbit/s mode of G.722. -/
opaque g722Decode : Nat → List Byte → AudioFrame
/-- The upsamplers and decimation filters of R266 and R279, whose taps are not given: factor, phase, last samples, latest
first. -/
opaque upsample : Nat → Nat → List Int → Int
/-- Whether the filter of R269 rounds up here, as its precision is not given: HPF code, x(n), x(n-1), x(n-2), y(n-1), y(n-2). -/
opaque filterUp : Nat → Int → Int → Int → Int → Int → Bool
/-- The audio encoders: codec, bit rate and FEC, what the encoder remembers, the frame's samples at 48 kHz. -/
opaque audioEncode : Nat → Nat → Nat → List Int → List Byte × Nat

/-- What a tile configuration stream (R65, R287) gives tile t of its group, whose inner structure the spec leaves to Fiurtil: the
instructions of core c, its window as BASE and SIZE in 64 KiB, and the contents of the tile's SRAM. -/
opaque dspCode : List Byte → Nat → Nat → List (BitVec 32)
opaque dspWindow : List Byte → Nat → Nat → Nat × Nat
opaque tileSram : List Byte → Nat → List Byte

/-- The memory key that the n-th cold boot makes from on-die entropy (R161): 32 bytes. -/
opaque memoryKeyRaw : Nat → Nat
def memoryKey (n : Nat) : List Byte := (List.range 32).map (fun i => BitVec.ofNat 8 (memoryKeyRaw n / 256 ^ i))

/-- What the entropy source gives for KEY_CHALLENGE after a number of accepted tokens and cold resets (R156). -/
opaque challenge : Nat → Nat

/-- The deadline period of an island in ps for its present load, each piece of work as (kind, number, load, geometry words) (R45);
the replica factor K in 1/1,000 (R44). -/
opaque deadlineRaw : Nat → List (List Nat) → Nat
def deadlinePs (island : Nat) (works : List (List Nat)) : Nat := 1 + deadlineRaw island works
opaque kFactor : Nat → Nat
/-- Arbitrations that took longer than 2 ns since the loop pass before (R41). -/
opaque slowArbs : Nat → Nat
/-- Symbol errors or FEC codewords that a lane has counted since its counter was read. -/
opaque lineErrors : Nat → Nat
/-- The measured capacity factor of a partition and role, before the bounds of R56. -/
opaque factorRaw : Nat → Nat → Nat → Nat
/-- Bytes of the dump's FIRMWARE part at an offset (R448), as the firmware release documents them, at a free number. -/
opaque firmwareDump : Nat → Nat → Byte
/-- The layouts that R448 leaves open: the MEDIA part as a function of its entries (kind, number, owner, state, last PIC_SEQ or
frame), and the row-retirement journal as one of its mappings (stack, bank, row). -/
opaque mediaDump : List (List Nat) → Nat → Byte
opaque retireJournal : List (Nat × Nat × Nat) → Nat → Byte
/-- Where the boot firmware has put the entry of a source (1), leg (2) or subscription (3): stack and segment (R368). -/
opaque entryHomeRaw : Nat → Nat → Nat
/-- Whether a region, by its target index, and a burst, by its module address, hold part k of a structure of a kind (R368). -/
opaque regionHolds : Nat → Nat → Nat → Nat → Bool
opaque burstHolds : Nat → Nat → Nat → Nat → Bool
/-- Stack × 8 + segment. -/
def entryHome (kind idx : Nat) : Nat := entryHomeRaw kind idx % 64
/-- The record of an enrolment (R70): R435 gives it no code and R506 no payload. -/
opaque enrolCodeRaw : Nat
/-- Its code, of the range of the Fabric chapter. -/
def enrolCode : Nat := 0x0300 + enrolCodeRaw % 256
opaque enrolPayload : Nat → List Byte

end Sys2Proof.Config
end

