-- ==== Sys2Proof/Machine/Bits.lean ====
section
/-! DEFINITION. Bit fields, byte order, sign, saturation and the cyclic checks of the spec. -/

namespace Sys2Proof

/-- Bits [hi:lo] of a word, as a number. -/
def fld {n : Nat} (w : BitVec n) (hi lo : Nat) : Nat := (w.toNat >>> lo) % 2 ^ (hi + 1 - lo)

/-- Bit `i` of a word. -/
def bitOf {n : Nat} (w : BitVec n) (i : Nat) : Bool := w.getLsbD i

def b2n (b : Bool) : Nat := if b then 1 else 0

/-- A word from fields: (lowest bit, width, value); a value is cut to its width. -/
def packNat : List (Nat × Nat × Nat) → Nat
  | [] => 0
  | (lo, wd, v) :: r => (v % 2 ^ wd) <<< lo ||| packNat r

def pack64 (fs : List (Nat × Nat × Nat)) : Word64 := BitVec.ofNat 64 (packNat fs)
def pack128 (fs : List (Nat × Nat × Nat)) : Word128 := BitVec.ofNat 128 (packNat fs)

/-- Two's complement of `v` in `n` bits. -/
def toTwos (n : Nat) (v : Int) : Nat := (v % (2 ^ n : Nat)).toNat

/-- The signed value of the `n`-bit pattern `v`. -/
def ofTwos (n : Nat) (v : Nat) : Int :=
  let m := v % 2 ^ n
  if m < 2 ^ (n - 1) then (m : Int) else (m : Int) - (2 ^ n : Nat)

def clampInt (v lo hi : Int) : Int := if v < lo then lo else if hi < v then hi else v

/-- `ceil(a / b)`. -/
def ceilDiv (a b : Nat) : Nat := (a + b - 1) / b

/-- A saturating sum of an `n`-bit counter (R20). -/
def satAdd (n v k : Nat) : Nat := min (v + k) (2 ^ n - 1)

/-- The little-endian number of some bytes (R23). -/
def leNat : List Byte → Nat
  | [] => 0
  | b :: r => b.toNat + 256 * leNat r

/-- The big-endian (network order) number of some bytes. -/
def beNat (bs : List Byte) : Nat := bs.foldl (fun a b => a * 256 + b.toNat) 0

/-- `n` bytes of a number, low byte first. -/
def leBytes : Nat → Nat → List Byte
  | 0, _ => []
  | n + 1, v => BitVec.ofNat 8 v :: leBytes n (v / 256)

/-- `n` bytes of a number, high byte first. -/
def beBytes (n v : Nat) : List Byte := (leBytes n v).reverse

/-- `n` bytes of a file or frame from offset `o`; bytes past its end are missing. -/
def slice (bs : List Byte) (o n : Nat) : List Byte := (bs.drop o).take n

def leAt (bs : List Byte) (o n : Nat) : Nat := leNat (slice bs o n)
def beAt (bs : List Byte) (o n : Nat) : Nat := beNat (slice bs o n)
def byteAt (bs : List Byte) (o : Nat) : Nat := (bs.getD o 0).toNat

/-- The 16 bytes of a 128-bit word, byte 0 first. -/
def bytesOf128 (w : Word128) : List Byte := leBytes 16 w.toNat
def bytesOf64 (w : Word64) : List Byte := leBytes 8 w.toNat
def bytesOfWords (ws : List Word128) : List Byte := ws.flatMap bytesOf128

def crcBit (poly c : BitVec 32) : BitVec 32 :=
  if c.getLsbD 0 then (c >>> 1) ^^^ poly else c >>> 1

def crcByte (poly c : BitVec 32) (b : Byte) : BitVec 32 :=
  let x := c ^^^ (b.zeroExtend 32)
  crcBit poly (crcBit poly (crcBit poly (crcBit poly
    (crcBit poly (crcBit poly (crcBit poly (crcBit poly x)))))))

/-- A reflected CRC-32: initial value all ones, each byte least significant bit first, complemented. -/
def crcOf (poly : BitVec 32) (bs : List Byte) : BitVec 32 :=
  ~~~ (bs.foldl (crcByte poly) (BitVec.allOnes 32))

/-- The CRC-32 of IEEE 802.3, polynomial 0x04C1_1DB7 (R27, R335, R375). -/
def crc32 (bs : List Byte) : BitVec 32 := crcOf 0xEDB88320 bs

/-- CRC-32C, polynomial 0x1EDC_6F41 (R432). -/
def crc32c (bs : List Byte) : BitVec 32 := crcOf 0x82F63B78 bs

end Sys2Proof
end

