-- ==== Sys2Proof/Machine/Parts/Aes.lean ====
section
/-! DEFINITION. State of the AES3 ports and their groups. -/

namespace Sys2Proof.Machine

/-- A line as a port senses it (R310, R311): the last Z, LINE, and the class that the last measurements agree on. -/
structure AesLine where
  ohms : Nat := 4095
  line : Nat := 0
  cand : Nat := 0
  agree : Nat := 0
  deriving DecidableEq, Repr, Inhabited

/-- An AES3 input (R313-R315, R322, R324). Samples are pairs of subframes A and B. `mute` is 0 while its samples are used,
2 while it contributes zero, 3 while it waits to ramp in. -/
structure AesIn where
  term : Nat := 0
  autoRate : Bool := true
  rate : Nat := 1
  enable : Bool := false
  sense : AesLine := {}
  rateDet : Nat := 0
  misaligned : Bool := false
  nonAudio : Bool := false
  consumer : Bool := false
  rateErr : Bool := false
  locked : Bool := false
  reversed : Bool := false
  cs : List (BitVec 8) := List.replicate 24 0
  last : Int × Int := (0, 0)
  badFrames : Nat := 0
  /-- the converter: its last input samples, latest first, its phase, its steering, its output buffer with the zeros at its head
  that stand for the time away, the last sample delivered -/
  hist : List (Int × Int) := []
  phase : Nat := 0
  steer : Int := 0
  buf : List (Int × Int) := []
  pad : Nat := 0
  given : Int × Int := (0, 0)
  underSince : Option Nat := none
  mute : Nat := 2
  /-- samples repeated in a group that are still to be discarded, and the totals of this realignment (R322) -/
  owed : Nat := 0
  filled : Nat := 0
  dropped : Nat := 0
  deriving DecidableEq, Repr, Inhabited

/-- An AES3 output (R316-R319, R324). `frame` counts in the channel-status block; `err` is e of the last block start. -/
structure AesOut where
  term : Nat := 0
  rate : Nat := 1
  enable : Bool := false
  sense : AesLine := {}
  state : Nat := 0
  tripAt : Nat := 0
  steer : Int := 0
  err : Int := 0
  buf : List (Int × Int) := []
  frame : Nat := 0
  cs : List (BitVec 8) := List.replicate 24 0
  csa : List (BitVec 8) := List.replicate 24 0
  last : Int × Int := (0, 0)
  hist : List (Int × Int) := []
  phase : Nat := 0
  underSince : Option Nat := none
  owed : Nat := 0
  filled : Nat := 0
  dropped : Nat := 0
  deriving DecidableEq, Repr, Inhabited

/-- An aligned group (R320, R321, R324). -/
structure AesGroup where
  members : Nat := 0
  dirOut : Bool := false
  enable : Bool := false
  mask : Nat := 0xFFFFFFFF
  active : Nat := 0xFFFFFFFF
  csBlock : Nat := 0
  blocks : Nat := 0
  deriving DecidableEq, Repr, Inhabited

structure Aes where
  ins : Tab AesIn := ⟨[]⟩
  outs : Tab AesOut := ⟨[]⟩
  groups : Tab AesGroup := ⟨[]⟩
  cfgErr : Bool := false
  realign : Nat := 0
  outLine : Nat := 0
  inLine : Nat := 0
  deriving DecidableEq, Repr, Inhabited

end Sys2Proof.Machine
end

