-- ==== Sys2Proof/Machine/Parts/Control.lean ====
section
/-! DEFINITION. State of the identifiers, the host queues, the command engines, the dispatcher and the control cores. -/

namespace Sys2Proof.Machine

/-- An identifier (R6, R9): its generation and whether it is allocated; `quarUntil` is the elapsed time in ns at which
its quarantine ends, 0 when it serves none, and `quarMs` the period that its last release took from `BODY_QUARANTINE` (R11). -/
structure Ident where
  gen : Nat := 0
  used : Bool := false
  quarUntil : Nat := 0
  quarMs : Nat := 0
  deriving DecidableEq, Repr, Inhabited

/-- A visible packet: its DATA words, whole, and the elapsed ns at which it became visible. -/
structure Packet where
  words : List Word128
  at_ : Nat
  deriving DecidableEq, Repr, Inhabited

/-- The open packet of a host producer (R390): the DATA words held, oldest first, how many were pushed, and
whether a refused push has broken it (R392). -/
structure OpenPacket where
  words : List Word128 := []
  broken : Bool := false
  deriving DecidableEq, Repr, Inhabited

/-- A command that the engine has taken: the number of the taking (unique in a run), SEQ and QGEN at taking, the
descriptor, the steps reached and the handle or number it has allocated (R403, R405, R449). -/
structure Taken where
  op : Nat := 0
  seq : Nat := 0
  qgen : Nat := 0
  w0 : Word128 := 0
  w1 : Word128 := 0
  w2 : Word128 := 0
  w3 : Word128 := 0
  progress : Nat := 0
  handle : Nat := 0
  deriving DecidableEq, Repr, Inhabited

/-- What a command that waits leaves in the object it waits for, so that its completion can be written later. -/
structure Ticket where
  op : Nat := 0
  fw : Bool := false
  core : Nat := 0
  queue : Nat := 0
  qgen : Nat := 0
  seq : Nat := 0
  opcode : Nat := 0
  tag : Nat := 0
  quiet : Bool := false
  deriving DecidableEq, Repr, Inhabited

/-- A completion (R404). -/
structure Completion where
  queue : Nat
  qgen : Nat
  seq : Nat
  opcode : Nat
  status : Nat
  progress : Nat
  detail : Nat
  tag : Nat
  deriving DecidableEq, Repr, Inhabited

/-- One host queue (R389-R405, R415). -/
structure Queue where
  cq : Nat := 0
  depthLog2 : Nat := 8
  mirror : Bool := false
  kind : Nat := 0
  enable : Bool := false
  /-- enabled at least once since cold reset (R396) -/
  everEnabled : Bool := false
  qgen : Nat := 0
  /-- elapsed ns of the last change of QGEN (R395) -/
  qgenAt : Option Nat := none
  quarUntil : Nat := 0
  /-- the period of that quarantine (R11) -/
  quarMs : Nat := 0
  visible : List Packet := []
  begun : List Word128 := []
  opened : Option OpenPacket := none
  cfgErr : Bool := false
  halted : Bool := false
  armed : Bool := false
  flushPending : Bool := false
  hardAt : Option Nat := none
  /-- FLUSHED completions that wait for room in the CQ (R394) -/
  owed : List Completion := []
  busy : Option Taken := none
  part : Option Taken := none
  lastDone : Nat := 16777215
  next : Nat := 0
  /-- SEQs that completed ahead of LAST_DONE + 1 (R405) -/
  doneAhead : List Nat := []
  timeUs : Nat := 0
  count : Nat := 1
  irqEn : Bool := false
  vector : Nat := 0
  ringAddr : Nat := 0
  ringLog2 : Nat := 11
  indexAddr : Nat := 0
  produced : Nat := 0
  consumed : Nat := 0
  /-- packets in the host ring: PRODUCED at their end, and the elapsed ns at which each was written -/
  ring : List (Nat × Nat) := []
  deriving DecidableEq, Repr, Inhabited

/-- A work item (R407). -/
structure WorkItem where
  handle : Nat := 0
  posted : Nat := 0
  param : Nat := 0
  forFn : Nat := 0
  poster : Nat := 0
  host : Bool := false
  prio : Nat := 0
  type : Nat := 0
  w2 : Word128 := 0
  w3 : Word128 := 0
  deriving DecidableEq, Repr, Inhabited

/-- A control core: the item it runs and when it started in elapsed ns; `DISP_CORE_ITEM` and `DISP_CORE_START`. -/
structure Core where
  running : Option WorkItem := none
  startNs : Nat := 0
  itemHandle : Nat := 0
  startCmp : Nat := 0
  deriving DecidableEq, Repr, Inhabited

/-- The dispatcher (R408-R416). `ready` holds the items in the order of their posts. -/
structure Disp where
  watchdogMs : Nat := 100
  prio : Tab Nat := ⟨[]⟩
  ready : List WorkItem := []
  cores : Tab Core := ⟨[]⟩
  evFull : Bool := false
  evWatchdog : Bool := false
  hbCount : Nat := 0
  /-- elapsed ns at which the next HEARTBEAT item is to be posted -/
  hbDue : Option Nat := none
  /-- elapsed ns from which the 100 ms of R444 count -/
  hbWatch : Option Nat := none
  /-- work items that have ended and whose index has not been allocated again (R411) -/
  ended : Tab WorkItem := ⟨[]⟩
  deriving DecidableEq, Repr, Inhabited

end Sys2Proof.Machine
end

