-- ==== Sys2Proof/Machine/Parts/Media.lean ====
section
/-! DEFINITION. State of rooms, sources, legs, subscriptions, copies and ports. -/

namespace Sys2Proof.Machine

/-- A room (R117). -/
structure Room where
  held : Bool := false
  owner : Nat := 0
  weight : Nat := 1
  bridgeSsrc : Nat := 0
  kfHoldMs : Nat := 100
  deriving DecidableEq, Repr, Inhabited

/-- Layer identity and flags of a packet (R103, R104). -/
structure Layer where
  s : Nat := 0
  t : Nat := 0
  q : Nat := 0
  first : Bool := false
  last : Bool := false
  switch : Bool := false
  discardable : Bool := false
  /-- end_of_frame of the packet's dependency descriptor, which R126 goes by -/
  frameEnd : Bool := false
  deriving DecidableEq, Repr, Inhabited

/-- An authenticated packet: extended sequence number, arrival compare word, layer, RTP bytes in the clear, frame length,
whether it came after its unit's deadline, and whether it is outside the bound of R3 (R146). -/
structure MediaPkt where
  ext : Nat
  arrival : Nat := 0
  layer : Layer := {}
  bytes : List (BitVec 8) := []
  frameLen : Nat := 0
  late : Bool := false
  outside : Bool := false
  deriving DecidableEq, Repr, Inhabited

/-- An access unit in a jitter buffer, or released to a decoder (R112, R114). -/
structure AccessUnit where
  ts : Nat := 0
  pkts : List MediaPkt := []
  deadline : Nat := 0
  incomplete : Bool := false
  deriving DecidableEq, Repr, Inhabited

/-- A jitter buffer (R111-R114): the anchor, its units in order, the highest packet held, the extended sequence number
after the last unit released, that unit's timestamp, whether its end was never seen, and the target in force. -/
structure Jitter where
  anchor : Option (Nat × Nat) := none
  units : List AccessUnit := []
  highest : Option Nat := none
  nextExt : Option Nat := none
  relTs : Option Nat := none
  tailOpen : Bool := false
  targetUs : Nat := 0
  deriving DecidableEq, Repr, Inhabited

/-- A template of an AV1 dependency descriptor: S, T, whether it depends on no frame, and whether later frames depend on
it. -/
structure Template where
  s : Nat
  t : Nat
  noDeps : Bool
  discardable : Bool
  deriving DecidableEq, Repr, Inhabited

/-- Bytes of one layer in one 50 ms bin (R132). -/
structure LayerBin where
  bin : Nat
  s : Nat
  t : Nat
  q : Nat
  bytes : Nat
  deriving DecidableEq, Repr, Inhabited

/-- A source (R97-R100). `w1` to `w3` as the create command gave them; a local source (R238) has `isLocal` set and no match
key. Times are elapsed ns except where a compare word is named. -/
structure Source where
  fn : Nat := 0
  isLocal : Bool := false
  w1 : Word128 := 0
  w2 : Word128 := 0
  w3 : Word128 := 0
  wPol : Word128 := 0
  wJit : Word128 := 0
  log2Slots : Nat := 0
  bucketC : Nat := 0
  bucketP : Nat := 0
  bucketT : Nat := 0
  /-- source MAC address of the last authenticated packet, to which upstream reports go (log entry 25) -/
  mac : Nat := 0
  ext : Option Nat := none
  lastS : Nat := 0
  lastT : Nat := 0
  lastQ : Nat := 0
  lastTs : Option Nat := none
  srSeen : Bool := false
  srNtp : Nat := 0
  srTs : Nat := 0
  lastArrival : Nat := 0
  /-- RFC 3550 jitter in 1/16 RTP clock unit -/
  jitter16 : Nat := 0
  /-- PKTS, BYTES, POLICE_DROP, BAD_PT, DUPLICATE, LATE, JIT_DISCARD, HIST_NOFIT (R100) -/
  ctrs : List Nat := [0, 0, 0, 0, 0, 0, 0, 0]
  ring : Tab MediaPkt := ⟨[]⟩
  jit : Option Jitter := none
  templates : List (Nat × Template) := []
  /-- decode targets of the latest template structure -/
  ddTargets : Nat := 0
  /-- RTP timestamps already met, latest first (R104, log entry 139) -/
  seenTs : List Nat := []
  /-- timestamp and identity of the last NAL unit whose first fragment came (R103) -/
  fragment : Option (Nat × Nat × Nat × Nat × Bool) := none
  /-- video decode contexts and audio inputs that read the source (R115) -/
  readers : Nat := 0
  kfHoldUntil : Nat := 0
  kfPending : Bool := false
  kfFir : Bool := false
  firSeq : Nat := 0
  kfFirst : Option Nat := none
  kfPosted : Bool := false
  /-- KEY_PENDING of the encoder of a local source (R253) -/
  localKey : Bool := false
  /-- the last audio level extension (R104, R266) -/
  audioLevel : Nat := 0
  upNacks : List (Nat × Nat) := []
  bins : List LayerBin := []
  deriving DecidableEq, Repr, Inhabited

/-- A copy in a leg's queue (R126): the handles it bears, its frame bytes as sent before the leg's cipher, its length for
scheduling, and the packet buffer it points at. -/
structure Copy where
  sub : Nat
  leg : Nat
  rtcp : Bool := false
  rtx : Bool := false
  /-- RTP or RTCP packet in the clear, and its SSRC -/
  packet : List (BitVec 8)
  ssrc : Nat
  ext : Nat
  buffer : Nat
  len : Nat
  stream : Nat := 0
  deriving DecidableEq, Repr, Inhabited

/-- A departure as the leg Wing logs it (R128): SSRC, sequence number, departure compare word, length. -/
structure Departure where
  ssrc : Nat
  seq : Nat
  cmp : Nat
  len : Nat
  deriving DecidableEq, Repr, Inhabited

/-- A leg (R120-R131, R139-R142). -/
structure Leg where
  fn : Nat := 0
  w1 : Word128 := 0
  w2 : Word128 := 0
  w3 : Word128 := 0
  wBounds : Word128 := 0
  wEst : Word128 := 0
  wShape : Word128 := 0
  est : Nat := 0
  estState : Nat := 0
  fbMode : Nat := 0
  fbLate : Bool := false
  rttUs : Nat := 0
  qUs : Int := 0
  gPm : Int := 0
  /-- arrival in µs and departure compare word of the last packet of the last group, when that group was complete -/
  lastGroup : Option (Nat × Nat) := none
  lastReport : Nat := 0
  /-- bytes of media copies sent since the last report -/
  sentSince : Nat := 0
  /-- sender reports sent: their SSRC, the middle 32 bits of their NTP time, and the elapsed ns -/
  srSent : List (Nat × Nat × Nat) := []
  fbTimer : Nat := 0
  timedOut : Bool := false
  selAt : Nat := 0
  selDue : Bool := true
  pressure : Nat := 0
  bucketC : Nat := 0
  bucketP : Nat := 0
  bucketT : Nat := 0
  queue : List Copy := []
  /-- start tag and whether the leg takes part in its port's scheduling (R142) -/
  start : Nat := 0
  active : Bool := false
  log : List Departure := []
  /-- (elapsed ns, bytes) of RTX copies sent -/
  rtxSent : List (Nat × Nat) := []
  /-- COPIES, BYTES, QDROP, RTX_SENT, NACK_MISS, FB_LATE, KF_REQ, SPILL_DROP (R148) -/
  ctrs : List Nat := [0, 0, 0, 0, 0, 0, 0, 0]
  deriving DecidableEq, Repr, Inhabited

/-- A frame that a subscription has met (R133, R134): its timestamp, the layer choice and the pause at its start, and whether a copy of
it was refused: 1 by the leg's queue (R141), 2 for spill (R143). -/
structure FrameRec where
  ts : Nat
  cur : Option (Nat × Nat × Nat)
  paused : Bool
  refused : Nat := 0
  deriving DecidableEq, Repr, Inhabited

/-- A subscription (R119, R123, R127, R133). A layer is S, T, Q; none is OFF. `highest` is the highest packet met, `sent` the highest
forwarded. -/
structure Sub where
  fn : Nat := 0
  leg : Nat := 0
  source : Nat := 0
  w1 : Word128 := 0
  w2 : Word128 := 0
  w3 : Word128 := 0
  skip : Nat := 0
  highest : Option Nat := none
  sent : Option Nat := none
  /-- index from which the first copy goes on, where a restored record was taken (R170) -/
  startAt : Option Nat := none
  /-- change points, latest first: from extended sequence number on, SKIP -/
  changes : List (Nat × Nat) := [(0, 0)]
  cur : Option (Nat × Nat × Nat) := none
  target : Option (Nat × Nat × Nat) := none
  /-- 0 none, 2 pending down, 3 pending up -/
  pend : Nat := 0
  pausedNow : Bool := false
  upSince : Option Nat := none
  inFrame : Bool := false
  frameTs : Option Nat := none
  /-- the frames met last, latest first (log entry 140) -/
  frames : List FrameRec := []
  /-- its minimum does not fit, which the leg owner's firmware has been told (R132) -/
  starved : Bool := false
  packets : Nat := 0
  octets : Nat := 0
  rtxSeq : Nat := 0
  rtxDone : List (Nat × Nat) := []
  releasing : Option Ticket := none
  deriving DecidableEq, Repr, Inhabited

/-- A packet buffer of a Wing (R143): bytes, elapsed ns of arrival, copies that wait, whether it is in the spill area. -/
structure PktBuf where
  wing : Nat
  bytes : Nat
  at_ : Nat
  copies : Nat
  spilled : Bool := false
  /-- a copy of its packet has left, from this Wing or another -/
  sent : Bool := false
  /-- the packet, which the buffers of several Wings may hold; 0 for a copy that the module made (R146) -/
  packet : Nat := 0
  deriving DecidableEq, Repr, Inhabited

/-- A node of the scheduler: virtual time, start tag, active (R142). -/
structure Node where
  v : Nat := 0
  start : Nat := 0
  active : Bool := false
  deriving DecidableEq, Repr, Inhabited

/-- A gate list (R144, R145): entries are INTERVAL_NS and OPEN; `start` is a compare word. -/
structure GateList where
  start : Nat
  n : Nat
  entries : List (Nat × Nat)
  deriving DecidableEq, Repr, Inhabited

/-- An egress port: the gate list in force, the entry in force, the list that waits to start; since when the backlog has
exceeded 200 µs, and whether it has reached 50 µs since the last pass (R135). -/
structure Egress where
  gate : Option GateList := none
  entry : Nat := 0
  entryAt : Nat := 0
  nextGate : Option GateList := none
  /-- after a step of the time base: the cycle start at which the list resumes (R357) -/
  restart : Option Nat := none
  nLast : Nat := 0
  overSince : Option Nat := none
  reached50 : Bool := false
  deriving DecidableEq, Repr, Inhabited

/-- A local address of a Wing (R116). -/
structure LocalAddr where
  addr : Nat := 0
  owner : Nat := 0
  valid : Bool := false
  deriving DecidableEq, Repr, Inhabited

/-- The Wing registers of ingress and egress (R116, R147). Tables are keyed Wing × size + index. -/
structure Media where
  rooms : Tab Room := ⟨[]⟩
  sources : Tab Source := ⟨[]⟩
  legs : Tab Leg := ⟨[]⟩
  subs : Tab Sub := ⟨[]⟩
  buffers : Tab PktBuf := ⟨[]⟩
  nextBuf : Nat := 1
  /-- scheduler nodes: ports by lane, tenants by lane × 64 + function, rooms by (lane × 64 + function) × 8,192 + room -/
  ports : Tab Node := ⟨[]⟩
  tenants : Tab Node := ⟨[]⟩
  roomNodes : Tab Node := ⟨[]⟩
  egress : Tab Egress := ⟨[]⟩
  laddrs : Tab LocalAddr := ⟨[]⟩
  excRate : Tab (Nat × Nat) := ⟨[]⟩
  /-- exception bucket: tokens in 1/10^6 item and the elapsed ns of the last refill -/
  excBucket : Tab (Nat × Nat) := ⟨[]⟩
  poolGib : Tab Nat := ⟨[]⟩
  tmOwner : Tab (Nat × Bool) := ⟨[]⟩
  overhead : Tab Nat := ⟨[]⟩
  tenantWt : Tab Nat := ⟨[]⟩
  spillMark : Tab Nat := ⟨[]⟩
  spillRate : Tab Nat := ⟨[]⟩
  /-- spill bucket in bits and the elapsed ns of the last refill -/
  spillBucket : Tab (Nat × Nat) := ⟨[]⟩
  transitMax : Tab Nat := ⟨[]⟩
  nextPacket : Nat := 1
  /-- frames copied into firmware buffers, by buffer number (R91) -/
  fwBuffers : Tab (List (BitVec 8)) := ⟨[]⟩
  nextFwBuf : Nat := 0
  deriving DecidableEq, Repr, Inhabited

end Sys2Proof.Machine
end

