-- ==== Sys2Proof/Machine/Parts/Audio.lean ====
section
/-! DEFINITION. State of audio inputs, room mixers, mix groups and program buses (R263-R286). -/

namespace Sys2Proof.Machine

/-- A released unit at an input: its packet, or none where it was released empty, and the payload of the next packet where
that was held at the release (R267). -/
structure AudUnit where
  pkt : Option MediaPkt
  next : Option (List (BitVec 8)) := none
  deriving DecidableEq, Repr, Inhabited

/-- An audio input (R265-R274). `cfg` is the input settings word in force. A source's input has its handle in `source`; an AES3
feed has its port and subframe in `aes`. Levels are in 1/16 dB. -/
structure AudIn where
  room : Nat := 0
  source : Nat := 0
  aes : Option (Nat × Nat) := none
  part : Nat := 0
  tile : Nat := 0
  load : Nat := 0
  cfg : Nat := 0
  /-- released units that wait for the decoder -/
  units : List AudUnit := []
  /-- the decoder: what it remembers, the extended sequence number of the last unit with a packet when none was lost since,
  the RTP timestamp at the last unit's end, its length in mix samples, the last 10 ms, and how far concealment has come -/
  memory : Nat := 0
  lastExt : Option Nat := none
  endTs : Option Nat := none
  lastLen : Nat := 0
  lastTen : List Int := []
  fade : Nat := 0
  /-- the upsampler's last samples, latest first -/
  upHist : List Int := []
  /-- decoded samples short of a block, and the FIFO -/
  carry : List Int := []
  fifo : List (List Int) := []
  /-- filter: x(n-1), x(n-2), y(n-1), y(n-2) -/
  filt : Int × Int × Int × Int := (0, 0, 0, 0)
  ls : Int := -2032
  floor : Int := -2032
  floorRun : Nat := 0
  onRun : Nat := 0
  offRun : Nat := 0
  active : Bool := false
  /-- the contribution at the end of the last block: 0 none, 1 as a talker, 2 + c as a feed of channel c; and its gain -/
  place : Nat := 0
  gain : Nat := 0
  /-- PLC, FEC, UNDERRUN, OVERRUN, LATE, CLIP -/
  ctrs : List Nat := [0, 0, 0, 0, 0, 0]
  deriving DecidableEq, Repr, Inhabited

/-- A room mixer (R271-R274, R280). `cfg` is the room settings word in force, `gains` the floor gains in force and `gainsWas`
those of the last block. Shadow entries are keyed 0 for the room settings, c for the floor gain of channel c, 64 + input for
an input's settings; `loading` waits for the block start. -/
structure AudRoom where
  part : Nat := 0
  tile : Nat := 0
  channels : Nat := 1
  profiles : Word128 := 0
  cfg : Nat := 0
  gains : List Nat := []
  gainsWas : List Nat := []
  shadow : Tab Nat := ⟨[]⟩
  loading : Tab Nat := ⟨[]⟩
  loads : List Ticket := []
  lastLoad : Nat := 0
  /-- the 16 talker positions -/
  talkers : List (Option Nat) := List.replicate 16 none
  notify : Bool := false
  /-- inputs released since the last block start, which fade out in the next block -/
  fading : List (Nat × AudIn) := []
  /-- the common mix of each channel in the present block -/
  mixes : List (List Int) := []
  /-- SWAP, SLOT_SHORT, CLIP, SAFELOADS -/
  ctrs : List Nat := [0, 0, 0, 0]
  deriving DecidableEq, Repr, Inhabited

/-- A minus-self variant slot (R276, R278): its input, and the block at which it is freed once its input has left. -/
structure AudVar where
  input : Nat
  until_ : Option Nat := none
  deriving DecidableEq, Repr, Inhabited

/-- A group frame (R277): its first block, the blocks mixed into it, the common variant's samples, the minus-self variants, the
inputs that contributed to it, and the bindings at its beginning. -/
structure AudFrame where
  first : Nat
  blocks : Nat := 0
  common : List Int := []
  vars : List (Nat × List Int) := []
  heard : List Nat := []
  binds : List (Nat × Nat) := []
  deriving DecidableEq, Repr, Inhabited

/-- A mix group (R275-R279), keyed by the index of its source. `binds` are subscription handles with their inputs; `mems`
what the minus-self encoders remember. -/
structure AudGroup where
  room : Nat := 0
  chan : Nat := 0
  profile : Nat := 0
  slots : Nat := 0
  part : Nat := 0
  tile : Nat := 0
  load : Nat := 0
  ts0 : Nat := 0
  created : Nat := 0
  binds : List (Nat × Nat) := []
  vars : List AudVar := []
  frame : Option AudFrame := none
  done : List AudFrame := []
  rtpSeq : Nat := 0
  memory : Nat := 0
  mems : List (Nat × Nat) := []
  deriving DecidableEq, Repr, Inhabited

/-- A program bus (R281-R283). `cfg` and `was` are word 2 of AUD_BUS_SET in the present and the last block; `set` waits for
the block start. `block` is the block being mixed, with its number. -/
structure AudBus where
  cfg : Word128 := 0
  was : Word128 := 0
  parkMs : Nat := 0
  silDb : Nat := 70
  tap : Bool := false
  tapQueue : Nat := 0
  set : Option (Word128 × Word128) := none
  parked : Bool := false
  silent : Nat := 0
  wake : Nat := 0
  block : Option (Nat × List (Int × Int)) := none
  /-- the last block mixed, which the PARKED record shows -/
  lastBlock : Nat × List (Int × Int) := (0, [])
  /-- PARKS, WAKES, CLIP, TAP_DROP -/
  ctrs : List Nat := [0, 0, 0, 0]
  deriving DecidableEq, Repr, Inhabited

structure Audio where
  ins : Tab AudIn := ⟨[]⟩
  rooms : Tab AudRoom := ⟨[]⟩
  groups : Tab AudGroup := ⟨[]⟩
  buses : Tab AudBus := ⟨[]⟩
  /-- the mix block started last -/
  last : Option Nat := none
  deriving DecidableEq, Repr, Inhabited

end Sys2Proof.Machine
end

