-- ==== Sys2Proof/Machine/Parts/Body.lean ====
section
/-! DEFINITION. State of the die links, the supply islands, the module's inputs and of Safe Hold. -/

namespace Sys2Proof.Machine

/-- One direction of a die link (R27-R32): the transmitter's replay buffer (blocks not acknowledged, oldest first) and
next sequence number; the receiver's next sequence number, whether it discards until a replay, the sequence number that its
outstanding replay request bears, and the failures in a row of that block; and the sequence number of each resend of a block
that still waits for its release. -/
structure DlDir where
  buffer : List (Nat × List Word128) := []
  txNext : Nat := 0
  rxNext : Nat := 0
  discarding : Bool := false
  wanted : Option Nat := none
  fails : Nat := 0
  resent : List Nat := []
  deriving DecidableEq, Repr, Inhabited

/-- A die-to-die link (R34). `cause` is the direction byte of the retrain in progress. -/
structure DlLink where
  state : Nat := 1
  via : Nat := 0
  retrainFails : Nat := 0
  retrains : Nat := 0
  holdDown : Bool := false
  cause : Nat := 255
  d0 : DlDir := {}
  d1 : DlDir := {}
  deriving DecidableEq, Repr, Inhabited

/-- A supply island (R44-R54, PWR_ANT). `seen` says that its antenna monitor has made its first measurement; `ceiling` is the
ceiling that the power limit has left it and `heatCeiling` the one that its junction has, in mV; `aboveSince` the elapsed ns
since which its slack has stayed above its band; `lastWork` when work last entered it. -/
structure Island where
  loopPs : Nat := 0
  voltMv : Nat := 800
  slack : Int := 0
  tempC : Int := 0
  seen : Bool := false
  ceiling : Nat := 900
  heatCeiling : Nat := 900
  aboveSince : Option Nat := none
  lastWork : Nat := 0
  hot : Bool := false
  alarmed : Bool := false
  deriving DecidableEq, Repr, Inhabited

/-- The power manager (R44-R59). `committed` is keyed partition × 8 + role, `factors` by partition in the order VD,
VE, PX, AU, ST; `work` counts the work that commands have placed on a tile (R44). `loopFrom` is the elapsed ns at which the loop
began, none before it has, and `nextPass` that of the next pass of its 50 µs grid (R49). -/
structure Power where
  posture : Nat := 1
  active : Nat := 1
  limitW : Nat := 1300
  inputW : Nat := 0
  caseC : Int := 0
  evCapDrop : Bool := false
  evLimitBind : Bool := false
  limitUnmet : Bool := false
  evSlack : Bool := false
  islands : Tab Island := ⟨[]⟩
  committed : Tab Nat := ⟨[]⟩
  factors : Tab (List Nat) := ⟨[]⟩
  overcommit : List Nat := []
  work : Tab Nat := ⟨[]⟩
  loopFrom : Option Nat := none
  nextPass : Nat := 0
  deriving DecidableEq, Repr, Inhabited

/-- Supply, cables, Safe Hold and resets (R473-R497). -/
structure Body where
  powered : Bool := false
  inputCv : Nat := 0
  inputCa : Nat := 0
  band : Nat := 0
  pg : Bool := false
  /-- elapsed ns at which the input left the range; none while it is in range -/
  outSince : Option Nat := none
  extremeCv : Nat := 0
  /-- the ride-through of the present stay out of range has ended (R485) -/
  rideDone : Bool := false
  inSince : Nat := 0
  faultDip : Bool := false
  faultCbl : Bool := false
  faultCase : Bool := false
  cblEnable : Nat := 65535
  cblFault : Nat := 0
  cblPresent : Nat := 0
  cblTrip : Tab Nat := ⟨[]⟩
  hold : Bool := false
  causes : Nat := 0
  firstCause : Nat := 0
  /-- the stacks park once the dump of this Safe Hold has been written (R487) -/
  parkDue : Bool := false
  warmCount : Nat := 0
  lastWarm : Nat := 0
  coldCause : Nat := 1
  booted : Bool := false
  quarantineMs : Nat := 2000
  deriving DecidableEq, Repr, Inhabited

end Sys2Proof.Machine
end

