-- ==== Sys2Proof/Machine/Parts/Domain.lean ====
section
/-! DEFINITION. State of the bridge domain. -/

namespace Sys2Proof.Machine

/-- A neighbour on a Tremund port (R422, R423): identity and elapsed ns of its last HELLO. -/
structure Neighbour where
  serial : Nat
  index : Nat
  prio : Nat
  at_ : Nat
  deriving DecidableEq, Repr, Inhabited

/-- A member's entry in the link-state table: its last SEQ, when it was refreshed, and the SERIALs of its neighbours. -/
structure LinkEntry where
  serial : Nat
  index : Nat
  prio : Nat
  seq : Nat
  at_ : Nat
  neighbours : List Nat
  deriving DecidableEq, Repr, Inhabited

/-- What BODY_DOM_MEMBER shows of member m (R430). -/
structure Member where
  serial : Nat := 0
  nextLane : Nat := 0
  hops : Nat := 0
  state : Nat := 0
  deriving DecidableEq, Repr, Inhabited

/-- The device's part in its domain (R417-R430). Times are elapsed ns. `changed` is the last change of the table that no
election has followed; `seen` the flooded messages met last, by SERIAL and SEQ; `goodSince` and `badSince` since when the offset
has stayed within 50 ns, and above 200 ns; `joined` and `refused` the members that the coordinator has answered so. -/
structure Domain where
  domainId : Nat := 0
  prio : Nat := 128
  index : Nat := 0
  enable : Bool := false
  state : Nat := 0
  reason : Nat := 0
  step : Nat := 0
  hops : Nat := 0
  coordIndex : Nat := 0
  coordSerial : Option Nat := none
  coordChanges : Nat := 0
  offset : Int := 0
  members : Tab Member := ⟨[]⟩
  neighbours : Tab Neighbour := ⟨[]⟩
  table : List LinkEntry := []
  seq : Nat := 0
  seen : List (Nat × Nat) := []
  stepAt : Nat := 0
  changed : Option Nat := none
  sentAt : Nat := 0
  dirty : Bool := false
  helloAt : Tab Nat := ⟨[]⟩
  /-- DOMAIN_ID that the peer of a port bears, as its last HELLO said (R417) -/
  peerDomain : Tab Nat := ⟨[]⟩
  goodSince : Option Nat := none
  badSince : Option Nat := none
  joined : List Nat := []
  refused : List Nat := []
  deriving DecidableEq, Repr, Inhabited

end Sys2Proof.Machine
end

