-- ==== Sys2Proof/Machine/Parts/Dsp.lean ====
section
/-! DEFINITION. State of the DSP cores of the AU tiles (R287-R308). -/

namespace Sys2Proof.Machine

/-- A loop stack entry (R289). -/
structure LoopEntry where
  start : BitVec 14 := 0
  end_ : BitVec 14 := 0
  count : BitVec 32 := 0
  deriving DecidableEq, Repr, Inhabited

/-- Where a result in flight goes. -/
inductive DspDest where
  | v (i : Nat) | p (i : Nat) | b (i : Nat) | l (i : Nat) | a (i : Nat) | ovf | ls (i : Nat) | special (i : Nat) | sat
  deriving DecidableEq, Repr, Inhabited

/-- A result that reaches its register at slot `due` (R291). -/
structure DspFlight where
  due : Nat
  dest : DspDest
  value : Nat
  deriving DecidableEq, Repr, Inhabited

/-- RUN of `TILE_DSP_STATE`. -/
inductive DspRun where
  | halted | running | waiting | faulted
  deriving DecidableEq, Repr, Inhabited

/-- A core. `v` to `ovf` are what an instruction outside the accumulator class reads; `accNow` and `ovfNow` are the
accumulators and flags in the class's own order (R296). -/
structure DspCore where
  code : Tab (BitVec 32) := ⟨[]⟩
  base : Nat := 0
  size : Nat := 0
  run : DspRun := .halted
  fault : Nat := 0
  pc : BitVec 14 := 0
  v : List Word128 := List.replicate 32 0
  acc : List (BitVec 288) := List.replicate 4 0
  p : List (BitVec 32) := List.replicate 16 0
  b : List (BitVec 32) := List.replicate 8 0
  l : List (BitVec 32) := List.replicate 8 0
  ls : List LoopEntry := List.replicate 4 {}
  lsp : Nat := 0
  ie : Bool := false
  sat : Bool := false
  imask : BitVec 3 := 0
  ipend : BitVec 3 := 0
  ovf : BitVec 32 := 0
  ipc : BitVec 14 := 0
  istat : BitVec 32 := 0
  mail : List (BitVec 32) := []
  accNow : List (BitVec 288) := List.replicate 4 0
  ovfNow : BitVec 32 := 0
  /-- the number of the next slot, and the results in flight in the order of issue -/
  slot : Nat := 0
  flight : List DspFlight := []
  blockMiss : Nat := 0
  mailDrop : Nat := 0
  deriving DecidableEq, Repr, Inhabited

structure Dsp where
  /-- keyed tile × 4 + core -/
  cores : Tab DspCore := ⟨[]⟩
  /-- tile SRAM by tile -/
  sram : Tab (List Host.Cell) := ⟨[]⟩
  deriving DecidableEq, Repr, Inhabited

end Sys2Proof.Machine
end

