-- ==== Sys2Proof/Machine/Parts/Fabric.lean ====
section
/-! DEFINITION. State of the Fabric Image: tile groups, partitions, image store, load in progress. -/

namespace Sys2Proof.Machine

/-- A tile group (R60, FAB_TG): `state` 0 PARKED, 1 ACTIVE, 2 RELOADING, 3 FAILED; `fenced` one bit per tile;
`pipeline` its tile configuration stream (R65). -/
structure TileGroup where
  role : Nat := 0
  partition : Nat := 0
  state : Nat := 0
  fenced : Nat := 0
  pipeline : List Byte := []
  deriving DecidableEq, Repr, Inhabited

/-- A partition (R67, R68, FAB_PART). `closed` while a reload holds its live capacity at 0 (R80 step 2). -/
structure Partition where
  owner : Nat := 0
  tenantReload : Bool := false
  state : Nat := 1
  tgMask : Nat := 0
  declared : List Nat := []
  decCtx : Nat := 0
  encCtx : Nat := 0
  closed : Bool := false
  deriving DecidableEq, Repr, Inhabited

/-- A load that drains (R80 step 3): `op` 2 full, 3 partition; the image it read; its drain deadline in elapsed ns. -/
structure FabLoad where
  op : Nat
  slot : Nat
  force : Bool
  part : Nat
  image : List Byte
  deadline : Nat
  ticket : Ticket
  deriving DecidableEq, Repr, Inhabited

structure Fab where
  activeSlot : Nat := 15
  noImage : Bool := true
  activeId : Nat := 0
  activeVer : Nat := 0
  activeFormat : Nat := 0
  frameHash : List Byte := []
  bootOrder : Nat := 0xFFFFFF10
  drainMs : Nat := 5000
  groups : Tab TileGroup := ⟨[]⟩
  parts : Tab Partition := ⟨[]⟩
  /-- routes of the running configuration: SRC, DST, BW (R66) -/
  routes : List (Nat × Nat × Nat) := []
  /-- the image store (R71) -/
  store : Tab (List Byte) := ⟨[]⟩
  /-- slots whose flash read fails after its retry (R84): the world's choice, as no command changes it (log entry 130) -/
  readBad : List Nat := []
  load : Option FabLoad := none
  /-- OP_STEP (FAB_STATUS) -/
  opStep : Nat := 0
  /-- fused hashes of the enrolled owner image keys, slots 1 to 4 (R70) -/
  ownerKeys : Tab (List Byte) := ⟨[]⟩
  deriving DecidableEq, Repr, Inhabited

end Sys2Proof.Machine
end

