-- ==== Sys2Proof/Machine/Parts/Keys.lean ====
section
/-! DEFINITION. State of the key store and of the cipher clusters. -/

namespace Sys2Proof.Machine

/-- The index record of an SSRC under a slot (R166, R167, R170). `index` is the highest accepted or used; bit k of `window` is packet
index − k. A restored record is `held` until an entry takes it, or until `deadline` (elapsed ns). A transmit record whose entry has gone
is an `orphan`: it stays so that no index is used twice under the key. -/
structure IdxRec where
  ssrc : Nat
  tx : Bool
  rtcp : Bool
  index : Nat
  window : Nat := 1
  held : Bool := false
  deadline : Nat := 0
  orphan : Bool := false
  deriving DecidableEq, Repr, Inhabited

/-- Receive keys as an operation takes them: the number of their load, their profile, the derived keys, and the master key and salt
that they were derived from. -/
structure RxKeys where
  gen : Nat
  profile : Nat
  keys : List (BitVec 8)
  master : List (BitVec 8) := []
  deriving DecidableEq, Repr, Inhabited

/-- A KEY_CTX_SAVE that waits for its snapshot (R168). -/
structure SaveReq where
  ticket : Ticket
  addr : Nat
  len : Nat
  clear : Bool
  kek : Nat
  deriving DecidableEq, Repr, Inhabited

/-- A key slot (R160-R170, R175). State: 0 FREE, 1 EMPTY, 2 ACTIVE, 3 ERASING. Keys that are not loaded are empty lists; the masters are
the 32 bytes of key and 16 of salt that they were derived from. `prev` is PREVIOUS with the elapsed ns at which its grace ends. `drain`
holds the records of contexts that are gone while operations started under them have not ended. `writes` is the write count of the slot's
record in DRAM. -/
structure Slot where
  state : Nat := 0
  owner : Nat := 0
  profile : Nat := 0
  rxGen : Nat := 0
  rxKeys : List (BitVec 8) := []
  txKeys : List (BitVec 8) := []
  rxMaster : List (BitVec 8) := []
  txMaster : List (BitVec 8) := []
  recs : List IdxRec := []
  prev : Option (RxKeys × Nat) := none
  prevRecs : List IdxRec := []
  drain : List (Nat × List IdxRec) := []
  writes : Nat := 0
  frozen : Bool := false
  rekeyPosted : Bool := false
  indexWarn : Bool := false
  authFail : Nat := 0
  replay : Nat := 0
  nonceEx : Nat := 0
  keyErased : Nat := 0
  lastLoad : Nat := 0
  erasers : List Ticket := []
  releasing : Bool := false
  save : Option SaveReq := none
  deriving DecidableEq, Repr, Inhabited

/-- A tenant key-encryption key (R173). -/
structure Kek where
  valid : Bool := false
  epoch : Nat := 0
  key : List (BitVec 8) := []
  deriving DecidableEq, Repr, Inhabited

structure Keys where
  /-- 0 BLANK, 1 DEPLOYED, 2 DEBUG_ENABLED, 3 RETIRED (R155) -/
  life : Nat := 0
  rootKey : List (BitVec 8) := []
  ownerHash : List (BitVec 8) := []
  /-- accepted tokens and cold boots so far, which number the values of `KEY_CHALLENGE` -/
  challenges : Nat := 0
  ctxNext : Nat := 0
  /-- context counter values up to here are reserved in MRAM (R172) -/
  ctxReserved : Nat := 0
  keks : Tab Kek := ⟨[]⟩
  slots : Tab Slot := ⟨[]⟩
  loads : Nat := 0
  /-- DEBUG_ENABLE tokens that wait for the erases of every slot (R155) -/
  debugWait : List Ticket := []
  /-- number of the memory key, which each cold boot makes anew (R161) -/
  memKeyNo : Nat := 0
  /-- elapsed ps at which each hash unit of a cluster is free, by cluster: Wing × 2, + 1 for transmit (R153) -/
  hashBusy : Tab (List Nat) := ⟨[]⟩
  /-- slots in the cache of each Wing, the one used latest first (R162) -/
  cache : Tab (List Nat) := ⟨[]⟩
  deriving DecidableEq, Repr, Inhabited

/-- The transport of an SRTP association as a packet shows it (R93): port, VLAN, local address index, UDP ports, peer. -/
structure Transport where
  port : Nat
  vlan : Option Nat
  laddr : Nat
  lport : Nat
  peer : Nat
  pport : Nat
  deriving DecidableEq, Repr, Inhabited

/-- A packet at a receive cluster (R151, R165): the operation has `started` when a gang has taken it, with `tries` the
keys to try. `source` is its source's handle for RTP, 0 for RTCP. A packet that waits for a hash unit has it at `hashAt` (elapsed ps, 0
where it did not wait). -/
structure RxOp where
  id : Nat
  wing : Nat
  started : Bool := false
  hashAt : Nat := 0
  slot : Nat
  tries : List RxKeys := []
  rtcp : Bool
  source : Nat
  transport : Transport
  mac : Nat := 0
  bytes : List (BitVec 8)
  frameLen : Nat
  arrival : Nat
  /-- the frame as it arrived, kept for a compound that may go to firmware (R90, R91) -/
  frame : List (BitVec 8) := []
  deriving DecidableEq, Repr, Inhabited

end Sys2Proof.Machine
end

