-- ==== Sys2Proof/Machine/Parts/Lanes.lean ====
section
/-! DEFINITION. State of the lanes and lane groups. -/

namespace Sys2Proof.Machine

/-- A Tremund frame (R337): FTYPE, STREAM, EXT_SEQ and body. -/
structure TmFrame where
  ftype : Nat
  stream : Nat := 0
  ext : Nat := 0
  body : List (BitVec 8) := []
  deriving DecidableEq, Repr, Inhabited

/-- A DATA block in a transmitter's replay buffer (R341): SEQ, FRAME_PTR, payload words, and the stream it carries. -/
structure TmBlock where
  seq : Nat
  ptr : Nat
  words : List Word128
  stream : Option Nat
  deriving DecidableEq, Repr, Inhabited

/-- The transmitter of a Tremund lane (R332, R333, R341, R345). Times are elapsed ns. -/
structure LaneTx where
  next : Nat := 0
  buffer : List TmBlock := []
  /-- frames that wait for the lane: a wake, a held stream (R339) or room in the replay buffer -/
  queue : List TmFrame := []
  power : Nat := 0
  lastFrame : Nat := 0
  dozeAt : Nat := 0
  refreshAt : Nat := 0
  wakeDue : Bool := false
  /-- the last 58 scrambled bits, the latest in bit 0, and the run of identical symbols -/
  scr : Nat := 0
  runSym : Nat := 0
  runLen : Nat := 0
  deriving DecidableEq, Repr, Inhabited

/-- The receiver of a Tremund lane (R341, R345, R346). `partialWords` are the words of a frame that a later block ends;
`lost` says that the parse waits for a FRAME_PTR. -/
structure LaneRx where
  next : Nat := 0
  discarding : Bool := false
  /-- the latest block discarded while a replay is awaited, and whether the words at hand came in a replayed block (R146) -/
  replayTo : Option Nat := none
  replayed : Bool := false
  fails : Nat := 0
  /-- a NAK that the next header is to carry; the elapsed ns of the last one sent -/
  nakDue : Bool := false
  nakAt : Nat := 0
  badSync : Nat := 0
  power : Nat := 0
  partialWords : List Word128 := []
  lost : Bool := false
  deriving DecidableEq, Repr, Inhabited

/-- A lane (R343-R352). `state` as `LANE_STATUS` codes it; `step` of R343; `attempts` failed in a row. -/
structure Lane where
  state : Nat := 0
  los : Bool := true
  lol : Bool := false
  short : Bool := false
  shortAt : Nat := 0
  inverted : Bool := false
  holdDown : Bool := false
  pattern : Nat := 0
  check : Bool := false
  loop : Nat := 0
  retrains : Nat := 0
  peerPos : Nat := 0
  peerLane : Nat := 0
  peerSerial : Nat := 0
  peerWidth : Nat := 0
  step : Nat := 1
  stepAt : Nat := 0
  attempts : Nat := 0
  waitUntil : Option Nat := none
  upAt : Nat := 0
  tx : LaneTx := {}
  rx : LaneRx := {}
  /-- a MAC address written over the fused one -/
  mac : Option Nat := none
  deriving DecidableEq, Repr, Inhabited

/-- A lane group (R325, R352). -/
structure LaneGroup where
  personality : Nat := 0
  width : Nat := 0
  medium : Nat := 0
  pllLock : Bool := false
  idleMs : Nat := 10
  dozeUs : Nat := 20
  sleep : Bool := true
  deriving DecidableEq, Repr, Inhabited

structure Lanes where
  lanes : Tab Lane := ⟨[]⟩
  groups : Tab LaneGroup := ⟨[]⟩
  /-- `LANE_EVENT` of each Wing: STATE_CHG bits and CFG_ERR -/
  changed : Tab Nat := ⟨[]⟩
  cfgErr : Tab Nat := ⟨[]⟩
  deriving DecidableEq, Repr, Inhabited

end Sys2Proof.Machine
end

