-- ==== Sys2Proof/Machine/Parts/Memory.lean ====
section
/-! DEFINITION. State of the stacked memory and of the access tables. -/

namespace Sys2Proof.Machine

/-- The activation counter of a row group with its candidate master (R373). -/
structure ActCount where
  count : Nat := 0
  cand : Nat := 0
  weight : Nat := 0
  deriving DecidableEq, Repr, Inhabited

/-- A throttled master in a bank (R374): the window in which the throttle ends and the master's last activation. -/
structure Throttle where
  bank : Nat
  master : Nat
  lastWindow : Nat
  lastAct : Nat
  deriving DecidableEq, Repr, Inhabited

/-- One stack and its controller (R367-R380, R387). A bank is numbered pseudo-channel × 64 + BK. -/
structure Stack where
  state : Nat := 0
  cfgErr : Bool := false
  park : Bool := false
  writeAgeUs : Nat := 20
  highWm : Nat := 48
  lowWm : Nat := 16
  rowHitPass : Nat := 16
  thresh : Nat := 4096
  gapNs : Nat := 1000
  keep : Nat := 128
  hashPc : Tab Nat := ⟨[]⟩
  hashBank : Tab Nat := ⟨[]⟩
  failedRegions : List Nat := []
  /-- spare rows used, by bank -/
  sparesUsed : Tab Nat := ⟨[]⟩
  /-- retired rows: (bank, row), journaled in MRAM -/
  retired : List (Nat × Nat) := []
  /-- addresses of poisoned bursts -/
  poison : List Nat := []
  openRow : Tab Nat := ⟨[]⟩
  acts : Tab ActCount := ⟨[]⟩
  throttles : List Throttle := []
  /-- (window, master) pairs whose throttle has been recorded -/
  recorded : List (Nat × Nat) := []
  window : Nat := 0
  windowStart : Nat := 0
  lastRequest : Nat := 0
  /-- segments whose contents were given up at park entry -/
  lost : Nat := 0
  /-- segments given up since the module entered Safe Hold (R489) -/
  gone : Nat := 0
  deriving DecidableEq, Repr, Inhabited

/-- A target's refusals (R385): count, master of the last one, elapsed ns of the refusal that wrote the last record. -/
structure Refusals where
  count : Nat := 0
  last : Nat := 0
  recAt : Option Nat := none
  deriving DecidableEq, Repr, Inhabited

/-- The access tables (R382-R388). An entry that is not listed has the bits of cold reset or of the boot grants. -/
structure Acc where
  entries : Tab Nat := ⟨[]⟩
  booted : Bool := false
  refusals : Tab Refusals := ⟨[]⟩
  /-- ACC_RESULT by master: STATUS × 256 + REASON -/
  result : Tab Nat := ⟨[]⟩
  /-- ACC_QUERY selection by master: KIND × 65,536 + INDEX -/
  query : Tab Nat := ⟨[]⟩
  deriving DecidableEq, Repr, Inhabited

end Sys2Proof.Machine
end

