-- ==== Sys2Proof/Machine/Parts/Recorder.lean ====
section
/-! DEFINITION. State of the event recorder and of the fatal dump. -/

namespace Sys2Proof.Machine

/-- An event record (R431). -/
structure Record where
  seq : Nat := 0
  boot : Nat := 0
  sec : Nat := 0
  ns : Nat := 0
  code : Nat := 0
  origin : Nat := 0
  master : Nat := 0
  repeats : Nat := 0
  phase : Nat := 0
  payload : List Byte := []
  check : Nat := 0
  deriving DecidableEq, Repr, Inhabited

/-- The token bucket of one code (R440): tokens in units of 1/10^9 record, when it was last filled (elapsed ns),
and the records suppressed since it last admitted one. -/
structure Bucket where
  tokens : Nat := 0
  at_ : Nat := 0
  suppressed : Nat := 0
  deriving DecidableEq, Repr, Inhabited

/-- One entry of the MRAM dump index (R446). -/
structure DumpEntry where
  boot : Nat
  seq : Nat
  cause : Nat
  dram : Nat
  flash : Nat
  deriving DecidableEq, Repr, Inhabited

/-- The recorder (R431-R446, R454). -/
structure Evr where
  nextSeq : Nat := 0
  clearSeq : Nat := 0
  n : Nat := 0
  boot : Nat := 0
  phase : Nat := 0
  failed : Bool := false
  lastGasp : Bool := false
  /-- pinned slots 0 to 4,095, then circulating slots from 4,096 on (R436) -/
  slots : Tab Record := ⟨[]⟩
  /-- slot of the record with the highest SEQ, its CODE and ORIGIN (R439) -/
  last : Option (Nat × Nat × Nat) := none
  burst : Nat := 64
  rate : Nat := 16
  buckets : Tab Bucket := ⟨[]⟩
  lg : List Record := []
  lgMirror : List Record := []
  /-- the world's: MRAM slots whose records fail their read-back twice (R443) -/
  badSlots : List Nat := []
  /-- the world's: the MRAM units of the last-gasp mirror do not verify (R443) -/
  mirrorBad : Bool := false
  deriving DecidableEq, Repr, Inhabited

/-- The fatal dump (R444-R449, R454). -/
structure Dump where
  dramState : Nat := 0
  flashState : Nat := 0
  seq : Nat := 0
  cause : Nat := 0
  writer : Nat := 0
  cmp : Nat := 0
  /-- index entries, newest first -/
  index : List DumpEntry := []
  /-- the flash dump slot's bytes -/
  flash : List (Nat × BitVec 8) := []
  /-- the flash summary: SEQ, cause, writer and compare word of its fatal error; whether it is still to be started
  once the DRAM dump is written; and whether it takes its sections from the live state (R445) -/
  flashSeq : Nat := 0
  flashCause : Nat := 0
  flashWriter : Nat := 0
  flashCmp : Nat := 0
  summaryDue : Bool := false
  /-- the stack that holds the dump region: 3, or 5 where stack 3 had FAILED at boot (R368) -/
  stack : Nat := 3
  liveSummary : Bool := false
  deriving DecidableEq, Repr, Inhabited

end Sys2Proof.Machine
end

