-- ==== Sys2Proof/Machine/Parts/Time.lean ====
section
/-! DEFINITION. State of the time base and of the timing connector. -/

namespace Sys2Proof.Machine

/-- A timestamp: SECONDS, NANOSECONDS, FRACTION (R353). -/
structure Stamp where
  sec : Nat := 0
  ns : Nat := 0
  frac : Nat := 0
  deriving DecidableEq, Repr, Inhabited

/-- The time base (R353-R366). `sub` is the part below the nanosecond in units of 2^-48 ns; `rem` is REM_NS in units
of 10^-10 ns. -/
structure TimeBase where
  sec : Nat := 0
  ns : Nat := 0
  sub : Nat := 0
  freqPpb : Int := 0
  slewMaxPpm : Nat := 100
  jumpUs : Nat := 1000
  rem : Int := 0
  isSet : Bool := false
  evSlewDone : Bool := false
  evJump : Bool := false
  evStepped : Bool := false
  evPpsIn : Bool := false
  evPpsShort : Bool := false
  widthMs : Nat := 100
  inEdge : Bool := false
  inEn : Bool := false
  tenEn : Bool := false
  outEn : Bool := false
  ppsInTs : Stamp := {}
  /-- forced steps so far, and the compare word of the last one (R357) -/
  steps : Nat := 0
  stepCmp : Nat := 0
  /-- the resonator cycle in which the last forced step took effect -/
  stepRes : Option Nat := none
  /-- compare word at which the pulse on 1PPS out ends; none while it is low -/
  ppsHigh : Option Nat := none
  /-- 1PPS lines under short limit: line 0 PPS_OUT, 1 TENMHZ_OUT, with the elapsed ns of the last trip or retry -/
  shorts : Tab Nat := ⟨[]⟩
  rxTrim : Tab Nat := ⟨[]⟩
  txTrim : Tab Nat := ⟨[]⟩
  ptpQueue : Nat := 0
  ptpDomain : Nat := 0
  ptpEnable : Bool := false
  deriving DecidableEq, Repr, Inhabited

end Sys2Proof.Machine
end

