-- ==== Sys2Proof/Machine/Parts/Update.lean ====
section
/-! DEFINITION. State of the firmware banks, the update journal and the settings. -/

namespace Sys2Proof.Machine

/-- A firmware bank (R455, R456). `state`: 0 EMPTY, 1 WRITING, 2 READY, 3 TRIAL, 4 COMMITTED, 5 REJECTED,
6 SUPERSEDED. `sigOk` is what checking the signature over these bytes gives. -/
structure Bank where
  state : Nat := 0
  bytes : List Byte := []
  sigOk : Bool := false
  ownsCopy : Nat := 0
  deriving DecidableEq, Repr, Inhabited

/-- The registers that the settings hold (R467): BODY_DOM_CFG, the ENABLE bits of BODY_CBL_PWR, FAB_BOOT_ORDER, the lane groups'
configuration by lane group, and the stacks' hash masks by stack × 16 + register. -/
structure SettingsBody where
  domCfg : Word64 := 0x800000
  cblEnable : Nat := 65535
  bootOrder : Nat := 0xFFFFFF10
  laneGroups : Tab (Word64 × Word64) := ⟨[]⟩
  hash : Tab Nat := ⟨[]⟩
  deriving DecidableEq, Repr, Inhabited

/-- A settings copy (R467); `crcOk` is what the CRC-32C over its body gives. -/
structure SettingsCopy where
  version : Nat := 0
  writer : Nat := 0
  gen : Nat := 0
  crcOk : Bool := false
  body : SettingsBody := {}
  deriving DecidableEq, Repr, Inhabited

structure Upd where
  bankA : Bank := {}
  bankB : Bank := {}
  active : Nat := 0
  floor : Nat := 0
  staging : List Byte := []
  pending : Bool := false
  activateAt : Nat := 0
  healthEnd : Nat := 0
  fallbackAt : Nat := 0
  commitMode : Bool := false
  unreadable : Bool := false
  /-- a fatal error or a watchdog has ended the trial: the next boot starts the previous bank (R466) -/
  trialOver : Bool := false
  /-- UPD_FALLBACK has set the fall-back instant -/
  ownerFall : Bool := false
  /-- the world's: a write of the NOR flash fails, and fails again on its retry (R471) -/
  flashBad : Bool := false
  copy0 : SettingsCopy := {}
  copy1 : SettingsCopy := {}
  deriving DecidableEq, Repr, Inhabited

end Sys2Proof.Machine
end

