-- ==== Sys2Proof/Machine/Parts/Video.lean ====
section
/-! DEFINITION. State of video decode, composition, stitching and video encode. -/

namespace Sys2Proof.Machine

/-- A frame pool (R186), keyed Wing × 64 + function: how many buffers are wanted, the buffers it holds by index, the regions that
it lies in, by target index, and the buffers of earlier geometries that composers still hold, with their regions. -/
structure Pool where
  want : Nat := 0
  bufW : Nat := 0
  bufH : Nat := 0
  deep : Bool := false
  held : List Nat := []
  regions : List Nat := []
  was : List (List Nat × List Nat) := []
  deriving DecidableEq, Repr, Inhabited

/-- A frame buffer, keyed pool × 16,384 + index: its marks (R188), its geometry, the picture in it, and the elapsed ns at which
each of its bands was published. `holders` are the outputs that hold it for a frame, `lingers` those that hold it from the last
band of a frame to the next boundary (R214); `awaits` keeps a decoded picture until it is output (log entry 27); `encoder` says
that an encode context holds the buffer (R238). The samples lie in the stacks. -/
structure FrameBuf where
  decoding : Bool := false
  shortRef : Bool := false
  longRef : Bool := false
  outputPending : Bool := false
  holders : List Nat := []
  lingers : List Nat := []
  awaits : Bool := false
  encoder : Bool := false
  ctx : Option Nat := none
  bufW : Nat := 0
  bufH : Nat := 0
  deep : Bool := false
  width : Nat := 0
  height : Nat := 0
  colour : Nat := 0
  order : Nat := 0
  concealed : Bool := false
  published : List Nat := []
  deriving DecidableEq, Repr, Inhabited

/-- A unit at a VD tile: its number, its packets. -/
structure DecUnit where
  seq : Nat
  unit : AccessUnit
  deriving DecidableEq, Repr, Inhabited

/-- A picture in progress: the unit, the buffer, what the decoder finds and remembered before, the content number, whether it has
been output, the buffer that it reads for each reference that it names (none where a mid-grey picture stands in), whether one of
them was never received, and the nearest available reference, which fills what is missing (R195-R198). -/
structure DecWork where
  unit : DecUnit
  buf : Nat
  info : Config.PicInfo
  memory : Nat := 0
  content : Nat
  output : Bool := false
  refs : List (Option Nat) := []
  missing : Bool := false
  fill : Option Nat := none
  deriving DecidableEq, Repr, Inhabited

/-- A decode context (R182-R206). `kept` are its buffers, the one decoded last first; `slots` the eight reference slots of AV1;
`born` tells its uses of one number apart (R213). -/
structure DecCtx where
  fn : Nat := 0
  part : Nat := 0
  wing : Nat := 0
  tile : Nat := 0
  source : Nat := 0
  codec : Nat := 0
  format : Nat := 0
  born : Nat := 0
  w2 : Word128 := 0
  load : Nat := 0
  recQueue : Nat := 0
  memory : Nat := 0
  nextSeq : Nat := 0
  waiting : List DecUnit := []
  work : Option DecWork := none
  kept : List Nat := []
  slots : List (Option Nat) := List.replicate 8 none
  current : Option Nat := none
  /-- output pictures that a newer one has superseded (R188) -/
  superseded : Nat := 0
  /-- the picture that a late repair may still complete -/
  repair : Option DecWork := none
  lates : List MediaPkt := []
  tainted : Bool := false
  asked : Bool := false
  waitKey : Bool := false
  /-- rate bucket in luma samples × 10^9, and the elapsed ns of its last refill -/
  bucket : Nat := 0
  bucketAt : Nat := 0
  /-- PICTURES, DAMAGED, CONCEALED, LATE_REPAIR, LATE_REPAIR_FAIL, FULL, DROPPED, REC_DROP -/
  ctrs : List Nat := [0, 0, 0, 0, 0, 0, 0, 0]
  releasing : Option Ticket := none
  discarded : Nat := 0
  deriving DecidableEq, Repr, Inhabited

/-- Settings of a layer or cell (R211): SRC_TYPE, words 2 and 3 of VID_OUT_LAYER and of VID_OUT_MATRIX. -/
structure LayerCfg where
  typ : Nat := 0
  w2 : Word128 := 0
  w3 : Word128 := 0
  m2 : Word128 := 0
  m3 : Word128 := 0
  /-- `born` of the decode context that the write named (R213) -/
  born : Nat := 0
  deriving DecidableEq, Repr, Inhabited

/-- A composed frame in work (R214-R220): the settings and buffers it was built from; `left` are (layer, band) pairs left
out, `off` the layers that draw nothing because of their geometry (R215). -/
structure FrameWork where
  n : Nat
  boundary : Nat
  startNs : Nat
  layers : Tab LayerCfg
  latched : List (Nat × Nat)
  band : Nat := 0
  handedNs : Nat := 0
  left : List (Nat × Nat) := []
  off : List Nat := []
  flags : Nat := 0
  deriving DecidableEq, Repr, Inhabited

/-- A complete input picture of a cell: its NAL units or OBUs. -/
structure StPic where
  intra : Bool
  units : List (List (BitVec 8))
  deriving DecidableEq, Repr, Inhabited

/-- What a cell of a composite frame carries. -/
inductive CellContent where
  | background
  | skip
  | grey
  | pic (p : StPic)
  deriving DecidableEq, Repr

/-- A stitch cell at work (R230-R232). -/
structure Cell where
  queue : List StPic := []
  /-- the picture that arrives: its packets, latest first, and whether it is still whole -/
  parts : List MediaPkt := []
  whole : Bool := true
  broken : Bool := false
  brokenAt : Nat := 0
  greyDue : Bool := false
  greyDone : Bool := false
  altInUse : Bool := false
  altWanted : Bool := false
  /-- parameters that its source has delivered, and base_q_idx of its last picture (R228) -/
  params : Option (List Nat) := none
  qidx : Nat := 0
  deriving DecidableEq, Repr, Inhabited

/-- An output (R208-R236). `staged` is the frame that waits for the one in work (R220). -/
structure Output where
  fn : Nat := 0
  part : Nat := 0
  wing : Nat := 0
  tile : Nat := 0
  w1 : Word128 := 0
  w2 : Word128 := 0
  w3 : Word128 := 0
  load : Nat := 0
  source : Nat := 0
  shadow : Tab LayerCfg := ⟨[]⟩
  pending : Option (Tab LayerCfg) := none
  /-- pending carries a commit of every layer (SCOPE 0), which names every cell's source again -/
  whole : Bool := false
  active : Tab LayerCfg := ⟨[]⟩
  commits : List Ticket := []
  /-- commits whose settings are active for a frame that has not started -/
  owedCommits : List Ticket := []
  next : Nat := 0
  /-- steps of the time base that `next` has followed (R357) -/
  stepSeen : Nat := 0
  work : Option FrameWork := none
  staged : Option FrameWork := none
  /-- FRAMES, CONCEALED, BEHIND, COMMITS, REFUSED, SKIP, GREY -/
  ctrs : List Nat := [0, 0, 0, 0, 0, 0, 0]
  cells : Tab Cell := ⟨[]⟩
  /-- a composite frame that waits to be emitted: its number, its cells, whether it is a switch point, whether a commit came
  with it -/
  emit : Option (Nat × List CellContent × Bool × Bool) := none
  /-- cells refused since the last frame, and the highest constraint code -/
  refused : List Nat := []
  refusedCode : Nat := 0
  /-- parameters for which composite parameter sets have been sent -/
  headed : Option (List Nat) := none
  /-- elapsed ns at which the keyframe window ends -/
  window : Option Nat := none
  /-- next RTP sequence number of the local source -/
  rtpSeq : Nat := 0
  recDrop : Nat := 0
  releasing : Option Ticket := none
  deriving DecidableEq, Repr, Inhabited

/-- A composed band handed to a VE tile: frame, band, luma rows, and interleaved chroma. -/
structure PxBand where
  frame : Nat
  band : Nat
  luma : List Nat := []
  chroma : List Nat := []
  /-- flags of its frame so far, and the elapsed ns at which it came -/
  flags : Nat := 0
  at_ : Nat := 0
  deriving DecidableEq, Repr, Inhabited

/-- One spatial layer of a picture in work (R248-R251). `qp` is that of the band coded last, `qpSum` the sum over its areas; `window`
is the reference window of its last unit: luma, Cb and Cr rows (R244); `vectors` are the prediction blocks of each unit of its
last band, unit row by unit row (R243). -/
structure EncLayer where
  target : Nat
  cap : Nat
  allot : Nat
  p : Nat
  spent : Nat := 0
  capped : Bool := false
  /-- areas of the layer coded so far -/
  areas : Nat := 0
  qp : Nat := 0
  qpSum : Nat := 0
  bands : List Nat := []
  budget : Nat := 0
  window : List (List (List Nat)) := []
  vectors : List (List (List Config.Block)) := []
  deriving DecidableEq, Repr, Inhabited

/-- A picture in work: its frame, type and T, how many of its bands are coded, the output bands that have arrived, and the
bound of its last band in elapsed ns (R246); which of the three buffers of each layer it refers to and which it reconstructs
into (R238, R241); the number of its first frame (R242). -/
structure EncWork where
  frame : Nat
  key : Bool
  t : Nat
  coded : Nat := 0
  inputs : List PxBand := []
  boundNs : Nat := 0
  layers : List EncLayer := []
  capBand : Nat := 63
  flags : Nat := 0
  ref : Option Nat := none
  cur : Nat := 2
  frameNo : Nat := 0
  deriving DecidableEq, Repr, Inhabited

/-- An encode context (R238-R261). `bufs` are three to a layer; `refT0` and `refT1` are those of the previous T0 and T1, and `t1Newer`
says that the T1 is the more recent (R241). `costs` are the bits of each band of the last picture, by layer, T and type. -/
structure EncCtx where
  fn : Nat := 0
  output : Nat := 0
  part : Nat := 0
  tile : Nat := 0
  w1 : Word128 := 0
  rate : Word128 := 0
  /-- the fields of a VID_ENC_RATE that wait for the picture in work to end (R252) -/
  nextRate : Option Word128 := none
  w3 : Word128 := 0
  load : Nat := 0
  source : Nat := 0
  pool : Nat := 0
  bufs : List Nat := []
  refT0 : Nat := 0
  refT1 : Nat := 1
  t1Newer : Bool := false
  /-- number of the next coded frame in dependency descriptors -/
  frameNo : Nat := 0
  pending : Bool := true
  lastKey : Nat := 0
  pos : Nat := 0
  debts : List Int := [0, 0, 0]
  queue : List PxBand := []
  work : Option EncWork := none
  costs : Tab (List Nat) := ⟨[]⟩
  rateWait : List Ticket := []
  rtpSeq : Nat := 0
  /-- PICTURES, CAPPED, PARTIAL, NOT_STARTED, KEYFRAMES, REC_DROP -/
  ctrs : List Nat := [0, 0, 0, 0, 0, 0]
  releasing : Option Ticket := none
  deriving DecidableEq, Repr, Inhabited

structure Video where
  pools : Tab Pool := ⟨[]⟩
  bufs : Tab FrameBuf := ⟨[]⟩
  decs : Tab DecCtx := ⟨[]⟩
  outs : Tab Output := ⟨[]⟩
  encs : Tab EncCtx := ⟨[]⟩
  /-- next content number of pictures -/
  nextContent : Nat := 1
  /-- next number of a decode context's `born` -/
  nextBorn : Nat := 1
  deriving DecidableEq, Repr, Inhabited

end Sys2Proof.Machine
end

