-- ==== Sys2Proof/Machine/State.lean ====
section
/-! DEFINITION. The state of the Octaragon: plain data, every piece of state that the spec gives the module, and
the queue of commands that wait. -/

namespace Sys2Proof.Machine

/-- What leaves the module. -/
inductive Out where
  /-- an MSI-X vector of a function (R414) -/
  | msix (fn vector : Nat)
  /-- a frame sent on an Ethernet lane (R358) -/
  | frame (lane : Nat) (bytes : List Byte)
  /-- a Tremund block sent: its header word and payload words (R334) -/
  | tmBlock (lane : Nat) (header : Word128) (words : List Word128)
  /-- a replay request that a die-link receiver sends, with the failed sequence number (R28) -/
  | dlRequest (link dir seq : Nat)
  /-- a block resent by a die-link transmitter (R28) -/
  | dlResend (link dir seq : Nat)
  /-- words released by a die-link receiver (R28) -/
  | dlRelease (link dir seq : Nat)
  /-- an AES3 frame sent: its place in the channel-status block, and the two subframes, each with its sample in bits
  23:0, validity in bit 24 and channel status in bit 26 (R317, R318) -/
  | aes (port frame : Nat) (a b : Nat)
  /-- a level of the timing connector (R364) -/
  | pps (high : Bool)
  deriving DecidableEq, Repr

/-- No command of this block stops the machine with a fault: the spec gives every refusal, error and failure an
effect, and the model takes it. The type is there for the host's interface; nothing raises it, which is safe. -/
inductive Fault where
  /-- Raised by no command. Safe. -/
  | none
  deriving DecidableEq, Repr

/-- Why a command has no next state. -/
inductive Refusal where
  /-- A constructor whose meaning is not written yet. Raised by `exec`'s arms alone. Safe. -/
  | notModelled (mnemonic : String)
  /-- An operand names nothing that the module has: lane 128, queue 8,192, master 200 as the writer of a register.
  Such a command is no command of the table. Raised by every meaning through `onWf`. Safe. -/
  | illFormed
  deriving DecidableEq, Repr

structure State where
  /-- the commands that wait, first in, first out -/
  pending : List Instr := []
  /-- resonator cycles of 6.4 ns that have passed (R37): the elapsed resonator time -/
  res : Nat := 0
  /-- the MODEL's own counter: each free value is `Config` applied to a fresh number (log entry 2) -/
  free : Nat := 0
  /-- the number that the next command taken gets -/
  nextOp : Nat := 0
  out : List Out := []
  /-- the value that the last register read or pop returned -/
  readData : Nat := 0
  /-- the bytes that the last burst read returned, and its poison mark -/
  burst : List Byte := []
  burstPoison : Bool := false
  hostMem : List Host.Cell := []
  dram : List Host.Cell := []
  /-- held low halves and read latches of wide registers, by register offset × 256 + master (R17) -/
  lowHeld : Tab Nat := ⟨[]⟩
  latch : Tab Nat := ⟨[]⟩
  /-- every RC counter, by its BAR0 offset in the owner view (R18, R20) -/
  ctr : Tab Nat := ⟨[]⟩
  ids : Tab Ident := ⟨[]⟩
  hq : Tab Queue := ⟨[]⟩
  disp : Disp := {}
  /-- firmware commands in progress, and the completions returned to firmware, newest first (R406) -/
  fwOps : List Nat := []
  fwDone : List (Nat × Completion) := []
  evr : Evr := {}
  dump : Dump := {}
  dramStacks : Tab Stack := ⟨[]⟩
  acc : Acc := {}
  time : TimeBase := {}
  links : Tab DlLink := ⟨[]⟩
  power : Power := {}
  body : Body := {}
  fab : Fab := {}
  upd : Upd := {}
  dom : Domain := {}
  keys : Keys := {}
  lanes : Lanes := {}
  aes : Aes := {}
  /-- packets at the receive clusters, in the order they came -/
  rxOps : List RxOp := []
  media : Media := {}
  video : Video := {}
  audio : Audio := {}
  dsp : Dsp := {}
  deriving DecidableEq, Repr

/-- The firmware image that bank A holds in the model's reset state (log entry 7): a header of R455 with VERSION 1 and
settings version 1, and a signature block of zeros. -/
def factoryImage : List Byte :=
  [0x47, 0x46, 0x57, 0x49, 1, 0, 0x50, 0x80, 1, 0, 0, 0, 0, 0, 1, 0, 1, 0, 0, 0, 0xDA, 0, 0, 0] ++ List.replicate 194 0

/-- The machine right after a cold reset, before COLD_BOOT runs the boot sequence. -/
def State.reset : State :=
  { upd := { bankA := { state := 4, bytes := factoryImage, sigOk := true },
             copy0 := { version := 1, writer := 1, gen := 1, crcOk := true } } }

end Sys2Proof.Machine
end

