-- ==== Sys2Proof/Machine/Tab.lean ====
section
/-! DEFINITION. Reading and writing the sparse tables (`Tab`) and the byte memories (`Mem`) of the state. -/

namespace Sys2Proof

def Tab.empty {α : Type} : Tab α := ⟨[]⟩

def cellsFind {α : Type} : List (Nat × α) → Nat → Option α
  | [], _ => none
  | (a, b) :: r, k => if k = a then some b else cellsFind r k

def cellsSet {α : Type} : List (Nat × α) → Nat → α → List (Nat × α)
  | [], k, v => [(k, v)]
  | (a, b) :: r, k, v =>
    if k < a then (k, v) :: (a, b) :: r
    else if k = a then (k, v) :: r
    else (a, b) :: cellsSet r k v

def cellsDel {α : Type} : List (Nat × α) → Nat → List (Nat × α)
  | [], _ => []
  | (a, b) :: r, k => if k = a then cellsDel r k else (a, b) :: cellsDel r k

/-- The listed value at index `k`, if there is one. -/
def Tab.find? {α : Type} (t : Tab α) (k : Nat) : Option α := cellsFind t.cells k

/-- The value at index `k`; `d` where none is listed. -/
def Tab.get {α : Type} (t : Tab α) (k : Nat) (d : α) : α := (t.find? k).getD d

/-- The table with `v` at index `k`. -/
def Tab.set {α : Type} (t : Tab α) (k : Nat) (v : α) : Tab α := ⟨cellsSet t.cells k v⟩

/-- The table with index `k` no longer listed. -/
def Tab.del {α : Type} (t : Tab α) (k : Nat) : Tab α := ⟨cellsDel t.cells k⟩

/-- Change the value at index `k`, starting from `d` where none is listed. -/
def Tab.upd {α : Type} (t : Tab α) (k : Nat) (d : α) (f : α → α) : Tab α := t.set k (f (t.get k d))

def Tab.toList {α : Type} (t : Tab α) : List (Nat × α) := t.cells

def Tab.size {α : Type} (t : Tab α) : Nat := t.cells.length

def Tab.mapVals {α β : Type} (t : Tab α) (f : Nat → α → β) : Tab β :=
  ⟨t.cells.map (fun c => (c.1, f c.1 c.2))⟩

def Tab.filterVals {α : Type} (t : Tab α) (p : Nat → α → Bool) : Tab α :=
  ⟨t.cells.filter (fun c => p c.1 c.2)⟩

/-- The first index from `n` on, below `cap`, that `busy` does not hold; it looks at `fuel` indexes. -/
def firstFree (busy : Nat → Bool) (cap : Nat) : Nat → Nat → Option Nat
  | 0, _ => none
  | fuel + 1, n =>
    if cap ≤ n then none else if busy n then firstFree busy cap fuel (n + 1) else some n

/-- A byte memory: `Host.Cell`s at strictly rising addresses, none of them 0, which is what an
unlisted address reads as (log entry 6). -/
abbrev Mem := List Host.Cell

/-- The canonical form of a byte memory, from address `lo` on. -/
def memOk : Nat → Mem → Bool
  | _, [] => true
  | lo, (a, b) :: r => decide (lo ≤ a) && decide (b ≠ 0) && memOk (a + 1) r

def Mem.wf (m : Mem) : Bool := memOk 0 m

/-- One byte; an unlisted address reads 0. -/
def Mem.read : Mem → Nat → Byte
  | [], _ => 0
  | (a, b) :: r, k => if k = a then b else if k < a then 0 else Mem.read r k

/-- Store one byte. Storing 0 removes the entry, so that equal memories are equal lists. -/
def Mem.write : Mem → Nat → Byte → Mem
  | [], k, v => if v = 0 then [] else [(k, v)]
  | (a, b) :: r, k, v =>
    if k < a then (if v = 0 then (a, b) :: r else (k, v) :: (a, b) :: r)
    else if k = a then (if v = 0 then r else (a, v) :: r)
    else (a, b) :: Mem.write r k v

/-- `n` bytes from address `a` on. -/
def Mem.readBytes (m : Mem) : Nat → Nat → List Byte
  | _, 0 => []
  | a, n + 1 => m.read a :: m.readBytes (a + 1) n

/-- Store bytes from address `a` on. -/
def Mem.writeBytes (m : Mem) : Nat → List Byte → Mem
  | _, [] => m
  | a, b :: bs => (m.write a b).writeBytes (a + 1) bs

end Sys2Proof
end

