-- ==== Sys2Proof/Machine/Operands.lean ====
section
/-! DEFINITION. Status codes, handles, and the fields of descriptors. -/

namespace Sys2Proof.Machine

/-! Status codes (R12). -/
def stOk : Nat := 0x00
def stPartial : Nat := 0x01
def stNotStarted : Nat := 0x02
def stCancelled : Nat := 0x03
def stTooLate : Nat := 0x04
def stRefused : Nat := 0x05
def stStale : Nat := 0x06
def stTimeout : Nat := 0x07
def stArrived : Nat := 0x08
def stLateAfterTimeout : Nat := 0x09
def stNonceExhausted : Nat := 0x0A
def stKeyErased : Nat := 0x0B
def stAuthFail : Nat := 0x0C
def stFlushed : Nat := 0x0D
def stDamaged : Nat := 0x0E
def stConcealed : Nat := 0x0F
def stCapped : Nat := 0x10
def stFull : Nat := 0x11
def stDegraded : Nat := 0x12
def stStartedLate : Nat := 0x13
def stUnreadable : Nat := 0x14
def stCapacity : Nat := 0x15
def stNotStitch : Nat := 0x16
def stCocoon : Nat := 0x17

/-- All ones, what a refused register read returns (R385). -/
def allOnes64 : Nat := 2 ^ 64 - 1

/-- KIND codes of handles (R6); the numbers above 6 name the plain numbers that serve a quarantine. -/
def kindCode : IdKind → Nat
  | .leg => 1
  | .source => 2
  | .sub => 3
  | .slot => 4
  | .work => 5
  | .queue => 6
  | .decCtx => 7
  | .encCtx => 8
  | .output => 9
  | .audioIn => 10

/-- A handle: KIND [63:56], GEN [43:32], INDEX [31:0] (the table before R6). -/
def handleOf (k : IdKind) (gen idx : Nat) : Nat := kindCode k * 2 ^ 56 + gen % 4096 * 2 ^ 32 + idx
def handleKind (h : Nat) : Nat := h / 2 ^ 56 % 256
def handleGen (h : Nat) : Nat := h / 2 ^ 32 % 4096
def handleIdx (h : Nat) : Nat := h % 2 ^ 32
/-- A handle from outside without its reserved bits, which are ignored on input and 0 on output. -/
def handleIn (h : Nat) : Nat := handleKind h * 2 ^ 56 + handleGen h * 2 ^ 32 + handleIdx h

/-- A command as its chapter sees it: who asks (`fn` is the host function; 0 for firmware, which is accepted wherever
PF0 is, R406), the master ID, the descriptor words, and where its completion goes. -/
structure Req where
  fn : Nat
  fw : Bool
  master : Nat
  w0 : Word128
  w1 : Word128
  w2 : Word128
  w3 : Word128
  tk : Ticket
  deriving DecidableEq, Repr, Inhabited

/-- The requester is PF0 or firmware (R406). -/
def Req.owner (r : Req) : Bool := r.fw || r.fn == 0

/-- STATUS, PROGRESS and DETAIL of a completion (R404). -/
structure Reply where
  st : Nat
  prog : Nat
  det : Nat
  deriving DecidableEq, Repr, Inhabited

/-- OK with progress 1 (R404). -/
def okWith (det : Nat) : Reply := ⟨stOk, 1, det⟩
/-- A refusal: progress 0, the reason in the low byte of DETAIL (R404). -/
def refuse (st reason : Nat) : Reply := ⟨st, 0, reason⟩

/-- What a command's chapter answers: the state, and the reply, or none while the command waits. -/
abbrev Answer := State × Option Reply

def answer (s : State) (r : Reply) : Answer := (s, some r)

/-- Bits [hi:lo] of the 512-bit descriptor's word. -/
abbrev df (w : Word128) (hi lo : Nat) : Nat := fld w hi lo

end Sys2Proof.Machine
end

