-- ==== Sys2Proof/WellFormed.lean ====
section
/-! DEFINITION. Which commands name something that the module has: every operand within the range that the spec gives it. -/

namespace Sys2Proof

/-- A descriptor command comes from one of 8,192 queues or from the port of one of 64 cores. -/
def CmdSrc.wf : CmdSrc → Bool
  | .queue q => decide (q < 8192)
  | .port core _ _ _ _ => decide (core < 64)

/-- The count of each kind of identifier (R2, R182, R238, R265). -/
def IdKind.cap : IdKind → Nat
  | .leg => 1048576
  | .source => 131072
  | .sub => 4194304
  | .slot => 2097152
  | .work => 1048576
  | .queue => 8192
  | .decCtx => 32768
  | .encCtx => 32768
  | .output => 8192
  | .audioIn => 65536

/-- Every operand of the command lies in its range. -/
def Instr.wf : Instr → Bool
  | .registerWrite who off _ => decide (who < 128) && decide (off < 134217728)
  | .wideLowWrite who off _ => decide (who < 128) && decide (off < 134217728)
  | .wideLowRead who off => decide (who < 128) && decide (off < 134217728)
  | .rcCounterRead who off => decide (who < 128) && decide (off < 134217728)
  | .undefinedOpcode src => src.wf
  | .quarantineEnd kind index => decide (index < kind.cap)
  | .dlBlockRx link dir sent got seq _ => decide (link < 10) && decide (dir < 2) && decide (seq < 1024) &&
      decide (sent.length = 16) && decide (got.length = 16)
  | .dlReplayRequest link dir seq => decide (link < 10) && decide (dir < 2) && decide (seq < 1024)
  | .dlRetrainEnd link _ => decide (link < 10)
  | .retrain who link => decide (who < 128) && decide (link < 10)
  | .holdDown who link _ => decide (who < 128) && decide (link < 10)
  | .antennaMeasure island _ _ => decide (island < 96)
  | .voltageLoopPass _ _ => true
  | .posture who _ => decide (who < 128)
  | .fabStoreImage src => src.wf
  | .fabLoadFull src => src.wf
  | .fabReloadPart src => src.wf
  | .fabAbort src => src.wf
  | .fabEnrollKey src => src.wf
  | .drainEnd _ => true
  | .drainTimeout _ => true
  | .ethFrameRx lane _ => decide (lane < 128)
  | .rxCipherRelease _ => true
  | .jitterDeadline source => decide (source < 131072)
  | .kfHoldEnd source => decide (source < 131072)
  | .keyframeNeeded source => decide (source < 131072)
  | .fbTimeout leg => decide (leg < 1048576)
  | .layerSelection leg => decide (leg < 1048576)
  | .scheduleSelect port => decide (port < 128)
  | .gateEntry port => decide (port < 128)
  | .legRoomClaim src => src.wf
  | .legRoomFree src => src.wf
  | .legCreate src => src.wf
  | .legBounds src => src.wf
  | .legShape src => src.wf
  | .legEstParam src => src.wf
  | .legRead src => src.wf
  | .legStats src => src.wf
  | .legRelease src => src.wf
  | .subCreate src => src.wf
  | .subBounds src => src.wf
  | .subRead src => src.wf
  | .subRelease src => src.wf
  | .legKeyframe src => src.wf
  | .legGateList src => src.wf
  | .ingSrcCreate src => src.wf
  | .ingSrcPolice src => src.wf
  | .ingSrcHistory src => src.wf
  | .ingSrcJitter src => src.wf
  | .ingSrcRead src => src.wf
  | .ingSrcStats src => src.wf
  | .ingSrcRelease src => src.wf
  | .keyProvision src => src.wf
  | .keyToken src => src.wf
  | .keyKekInstall src => src.wf
  | .keyKekErase src => src.wf
  | .keySlotAlloc src => src.wf
  | .keySlotLoad src => src.wf
  | .keySlotErase src => src.wf
  | .keySlotRelease src => src.wf
  | .keyCtxSave src => src.wf
  | .keyCtxRestore src => src.wf
  | .keySlotRead src => src.wf
  | .keyTokenRetireCheck src => src.wf
  | .eraseZeroingDone slot => decide (slot < 2097152)
  | .contextSnapshot slot => decide (slot < 2097152)
  | .rxGraceEnd slot => decide (slot < 2097152)
  | .restoredRecordDrop slot => decide (slot < 2097152)
  | .vidPoolSet src => src.wf
  | .vidDecCreate src => src.wf
  | .vidDecReset src => src.wf
  | .vidDecRead src => src.wf
  | .vidDecRelease src => src.wf
  | .decodePictureStart ctx => decide (ctx < 65536)
  | .bandPublish ctx => decide (ctx < 65536)
  | .decodePictureEnd ctx => decide (ctx < 65536)
  | .lateRepair ctx => decide (ctx < 65536)
  | .vidOutCreate src => src.wf
  | .vidOutLayer src => src.wf
  | .vidOutMatrix src => src.wf
  | .vidOutCommit src => src.wf
  | .vidOutRead src => src.wf
  | .vidOutRelease src => src.wf
  | .frameBoundary output => decide (output < 8192)
  | .pxBandHandoff output => decide (output < 8192)
  | .inputWaitExpire output layer => decide (output < 8192) && decide (layer < 65)
  | .stFrameEmit output => decide (output < 8192)
  | .stitchKfWindowEnd output => decide (output < 8192)
  | .cellGrey output cell => decide (output < 8192) && decide (cell < 64)
  | .vidEncCreate src => src.wf
  | .vidEncRate src => src.wf
  | .vidEncKeyframe src => src.wf
  | .vidEncRead src => src.wf
  | .vidEncRelease src => src.wf
  | .veBandCoded ctx => decide (ctx < 65536)
  | .kfInterval ctx => decide (ctx < 65536)
  | .audRoomSetup src => src.wf
  | .audRoomSet src => src.wf
  | .audGroupCreate src => src.wf
  | .audInAttach src => src.wf
  | .audInSet src => src.wf
  | .audListen src => src.wf
  | .audSafeload src => src.wf
  | .audInRead src => src.wf
  | .audRoomRead src => src.wf
  | .audInRelease src => src.wf
  | .audGroupRelease src => src.wf
  | .audRoomRelease src => src.wf
  | .audBusSet src => src.wf
  | .audBusRead src => src.wf
  | .audRoomNotify src => src.wf
  | .audioDecode input => decide (input < 65536)
  | .mixBlockStart => true
  | .groupFrameCoded source => decide (source < 131072)
  | .busPark bus => decide (bus < 16)
  | .lineMeasure port _ _ => decide (port < 32)
  | .aesLock port _ _ _ => decide (port < 16)
  | .aesUnlock port => decide (port < 16)
  | .csBlockRx port bytes => decide (port < 16) && decide (bytes.length = 24)
  | .aesOutFrameDue port => decide (port < 16)
  | .shortTripRetry port _ => decide (port < 16)
  | .aesCsBlockStart port => decide (port < 32)
  | .aesGroupMask who group _ => decide (who < 128) && decide (group < 8)
  | .aesOutCs who port word _ => decide (who < 128) && decide (port < 16) && decide (word < 3)
  | .laneGroupCfg who group _ => decide (who < 128) && decide (group < 16)
  | .laneLos lane => decide (lane < 128)
  | .laneLol lane _ => decide (lane < 128)
  | .portState port inverted => decide (port < 128) && decide (inverted < 256)
  | .tmBlockRx lane _ words _ => decide (lane < 128) && decide (words.length = 64)
  | .tmNakRepeat lane => decide (lane < 128)
  | .tmBringupStep lane _ _ => decide (lane < 128)
  | .tmStepTimeout lane => decide (lane < 128)
  | .tmRetryWaitEnd lane => decide (lane < 128)
  | .tmDoze lane => decide (lane < 128)
  | .tmIdle lane => decide (lane < 128)
  | .tmWake lane => decide (lane < 128)
  | .tmRefresh lane => decide (lane < 128)
  | .tmStreamHoldEnd port stream => decide (port < 128) && decide (stream < 1048576)
  | .faultShort lane => decide (lane < 128)
  | .faultShortRetry lane _ => decide (lane < 128)
  | .laneRetrain who lane => decide (who < 128) && decide (lane < 128)
  | .laneHoldDown who lane _ => decide (who < 128) && decide (lane < 128)
  | .laneTest who lane _ => decide (who < 128) && decide (lane < 128)
  | .timeAdjust src => src.wf
  | .timePtpSend src => src.wf
  | .timePtpBind src => src.wf
  | .slewDone => true
  | .ppsIn _ => true
  | .ppsOut => true
  | .ppsShort line => decide (line < 2)
  | .ppsShortRetry line _ => decide (line < 2)
  | .dramRequest master stack addr write _ => decide (master < 210) && decide (stack < 8) &&
      decide (addr < 68719476736) && decide (addr % 64 = 0) &&
      (match write with | none => true | some bs => decide (bs.length = 64))
  | .rhWindowStart stack => decide (stack < 8)
  | .selfRefresh stack => decide (stack < 8)
  | .memRun who stack => decide (who < 128) && decide (stack < 8)
  | .memPark who stack _ => decide (who < 128) && decide (stack < 8)
  | .memHash who stack _ index _ => decide (who < 128) && decide (stack < 8) && decide (index < 6)
  | .accWrite who _ => decide (who < 128)
  | .accQuery who _ => decide (who < 128)
  | .hqPush who queue _ => decide (who < 128) && decide (queue < 8192)
  | .hqPop who queue => decide (who < 128) && decide (queue < 8192)
  | .hqCfg who queue _ => decide (who < 128) && decide (queue < 8192)
  | .flush who queue hardMs => decide (who < 128) && decide (queue < 8192) && decide (hardMs < 65536)
  | .hardFlush queue => decide (queue < 8192)
  | .resume who queue => decide (who < 128) && decide (queue < 8192)
  | .arm who queue => decide (who < 128) && decide (queue < 8192)
  | .hqMirrorCons who queue _ => decide (who < 128) && decide (queue < 8192)
  | .mirrorDrain queue => decide (queue < 8192)
  | .queueIrqTimeout queue => decide (queue < 8192)
  | .nop src => src.wf
  | .dispPost src => src.wf
  | .dispCancel src => src.wf
  | .workItemDispatch core => decide (core < 64)
  | .workItemEnd core => decide (core < 64)
  | .watchdog core => decide (core < 64)
  | .heartbeat => true
  | .coresLost => true
  | .hello port => decide (port < 128)
  | .helloRx port _ => decide (port < 128)
  | .linkState port _ => decide (port < 128)
  | .linkStateSend => true
  | .compat port _ => decide (port < 128)
  | .domJoin port _ => decide (port < 128)
  | .domLeave port _ => decide (port < 128)
  | .neighbourLost port => decide (port < 128)
  | .memberLost _ => true
  | .election => true
  | .isolatedTime _ => true
  | .domainStepTimeout => true
  | .domCfg who _ => decide (who < 128)
  | .phase who _ => decide (who < 128)
  | .lastGaspClear who _ => decide (who < 128)
  | .evrRead src => src.wf
  | .evrWrite src => src.wf
  | .evrClear src => src.wf
  | .evrDumpCopy src => src.wf
  | .evrDumpRelease src => src.wf
  | .fatalError => true
  | .dramDumpDone => true
  | .flashSummaryDone => true
  | .updStage src => src.wf
  | .updApply src => src.wf
  | .updSchedule src => src.wf
  | .updCancel src => src.wf
  | .updCommit src => src.wf
  | .updFallback src => src.wf
  | .activateAt => true
  | .trialCommit => true
  | .fallbackInstant => true
  | .supplyBand _ => true
  | .rideThroughEnd => true
  | .powerLoss _ => true
  | .fuseOpen => true
  | .caseOver _ => true
  | .caseTemp _ => true
  | .bodyIntegrity => true
  | .exitSafeHold who => decide (who < 128)
  | .cblPwr connector => decide (connector < 16)
  | .cblPwrRetry connector _ => decide (connector < 16)
  | .coldBoot _ _ => true
  | .perst => true
  | .serviceReset => true
  | .coldWrite who => decide (who < 128)
  | .warmWrite who => decide (who < 128)
  | .recoveryLoad who _ => decide (who < 128)
  | .tileDspDoorbell who tile core _ => decide (who < 128) && decide (tile < 512) && decide (core < 4)
  | .pipe tile core => decide (tile < 512) && decide (core < 4)
  | .interruptEntry tile core => decide (tile < 512) && decide (core < 4)
  | .dspNop tile core => decide (tile < 512) && decide (core < 4)
  | .dspBr tile core => decide (tile < 512) && decide (core < 4)
  | .dspCall tile core => decide (tile < 512) && decide (core < 4)
  | .dspRet tile core => decide (tile < 512) && decide (core < 4)
  | .dspReti tile core => decide (tile < 512) && decide (core < 4)
  | .dspLoop tile core => decide (tile < 512) && decide (core < 4)
  | .dspWait tile core => decide (tile < 512) && decide (core < 4)
  | .dspHalt tile core => decide (tile < 512) && decide (core < 4)
  | .mvls tile core => decide (tile < 512) && decide (core < 4)
  | .mvsl tile core => decide (tile < 512) && decide (core < 4)
  | .mvsv tile core => decide (tile < 512) && decide (core < 4)
  | .mvvs tile core => decide (tile < 512) && decide (core < 4)
  | .vld tile core => decide (tile < 512) && decide (core < 4)
  | .vst tile core => decide (tile < 512) && decide (core < 4)
  | .vldb tile core => decide (tile < 512) && decide (core < 4)
  | .pset tile core => decide (tile < 512) && decide (core < 4)
  | .pseth tile core => decide (tile < 512) && decide (core < 4)
  | .padd tile core => decide (tile < 512) && decide (core < 4)
  | .valu tile core => decide (tile < 512) && decide (core < 4)
  | .vmac tile core => decide (tile < 512) && decide (core < 4)
  | .vmsu tile core => decide (tile < 512) && decide (core < 4)
  | .vmul tile core => decide (tile < 512) && decide (core < 4)
  | .ftap tile core => decide (tile < 512) && decide (core < 4)
  | .accrnd tile core => decide (tile < 512) && decide (core < 4)
  | .accclr tile core => decide (tile < 512) && decide (core < 4)
  | .accsv tile core => decide (tile < 512) && decide (core < 4)
  | .accld tile core => decide (tile < 512) && decide (core < 4)
  | .acccpy tile core => decide (tile < 512) && decide (core < 4)
  | .aesInFrameRx port _ _ => decide (port < 16)
  | .losCleared lane => decide (lane < 128)
  | .pllLock group => decide (group < 16)
  | .cblPresChange connector _ => decide (connector < 16)
  | .timeAligned _ => true

end Sys2Proof
end

