-- ==== Sys2Proof/Machine/Ops.lean ====
section
/-! DEFINITION. The named operations that every family shares: outcome, elapsed time and compare words, output,
counters, identifiers, interrupt vectors and event records. -/

namespace Sys2Proof.Machine

abbrev Outcome := Host.Outcome State Fault Refusal

/-- A command whose operands name something that the module has takes its next state; any other is refused. -/
def onWf (i : Instr) (t : State) : Outcome := if i.wf then .next t else .refused .illFormed

/-- `f s` where `c` holds, `s` where it does not. -/
def doIf (c : Bool) (f : State → State) (s : State) : State := if c then f s else s

/-! ## Time -/

/-- Elapsed resonator time in ns: 6.4 ns a cycle (R37). -/
def nowNs (s : State) : Nat := s.res * 32 / 5

/-- The compare word of the time base (R23). -/
def cmpNow (s : State) : Nat := s.time.sec % 2 ^ 32 * 1000000000 + s.time.ns

/-- The difference d of two compare words (R23). -/
def cmpDiff (a b : Nat) : Int :=
  let d : Int := (a : Int) - b
  let h : Int := 2 ^ 31 * 1000000000
  if h ≤ d then d - 2 * h else if d < -h then d + 2 * h else d

/-- The compare word `k` ns after `a`. -/
def cmpAdd (a k : Nat) : Nat := (a + k) % (2 ^ 32 * 1000000000)

/-- Compare word `a` is at or past `b`. -/
def cmpReached (now due : Nat) : Bool := decide (0 ≤ cmpDiff now due)

/-- The time base as a timestamp: FRACTION is the top 16 bits of the part below the nanosecond (R354). -/
def stampNow (s : State) : Stamp := ⟨s.time.sec, s.time.ns, s.time.sub / 2 ^ 32⟩

/-! ## Free values -/

/-- A fresh number for a free value. -/
def fresh (s : State) : Nat × State := (s.free, { s with free := s.free + 1 })

/-! ## Output and interrupt vectors -/

def emit (o : Out) (s : State) : State := { s with out := o :: s.out }

/-- An MSI-X vector of PF0 (R414). -/
def pfVector (v : Nat) (s : State) : State := emit (.msix 0 v) s

/-! ## Counters -/

/-- Add `k` to the 64-bit RC counter at owner-view offset `off`; it saturates (R20). -/
def count (off k : Nat) (s : State) : State :=
  { s with ctr := s.ctr.upd off 0 (fun v => satAdd 64 v k) }

def ctrGet (off : Nat) (s : State) : Nat := s.ctr.get off 0

/-- Clear the counters whose offset lies in [lo, hi). -/
def ctrClear (lo hi : Nat) (s : State) : State :=
  { s with ctr := s.ctr.filterVals (fun k _ => decide (k < lo || hi ≤ k)) }

/-! ## Identifiers -/

def idKey (k : IdKind) (i : Nat) : Nat := kindCode k * 2 ^ 32 + i
def identOf (k : IdKind) (i : Nat) (s : State) : Ident := s.ids.get (idKey k i) {}

/-- In quarantine at the present elapsed time (R9). -/
def Ident.quarantined (d : Ident) (now : Nat) : Bool := decide (now < d.quarUntil)

/-- Not allocatable: in use, or in quarantine (R9). -/
def idBusy (k : IdKind) (i : Nat) (s : State) : Bool :=
  let d := identOf k i s
  d.used || d.quarantined (nowNs s)

/-- The lowest index from `lo` on, below `hi`, that is free and out of quarantine (R9). -/
def lowestFree (k : IdKind) (lo hi : Nat) (s : State) : Option Nat :=
  firstFree (fun i => idBusy k i s) hi (s.ids.size + 1) lo

/-- Put identifier `i` into use; its generation stays. -/
def allocId (k : IdKind) (i : Nat) (s : State) : State :=
  { s with ids := s.ids.upd (idKey k i) {} (fun d => { d with used := true, quarUntil := 0 }) }

/-- Release identifier `i`: its generation rises by 1 modulo 4,096 and its quarantine begins (R6, R9). -/
def releaseId (k : IdKind) (i : Nat) (s : State) : State :=
  { s with ids := s.ids.upd (idKey k i) {} (fun d =>
      { gen := (d.gen + 1) % 4096, used := false,
        quarUntil := nowNs s + s.body.quarantineMs * 1000000, quarMs := s.body.quarantineMs }) }

/-- The handle of the present use of identifier `i`. -/
def handleFor (k : IdKind) (i : Nat) (s : State) : Nat := handleOf k (identOf k i s).gen i

/-- What a handle names: nothing that exists, an old use, or the identifier in use (R7, R8). -/
inductive Named where
  | refused
  | stale
  | ok (i : Nat)
  deriving DecidableEq, Repr

/-- R7 and R8: KIND and INDEX first, then the generation, then whether the identifier is in use. -/
def resolve (k : IdKind) (h : Nat) (s : State) : Named :=
  if handleKind h ≠ kindCode k ∨ k.cap ≤ handleIdx h then .refused
  else if handleGen h ≠ (identOf k (handleIdx h) s).gen then .stale
  else if (identOf k (handleIdx h) s).used then .ok (handleIdx h)
  else .refused

/-! ## Event records -/

/-- PAYLOAD items, each (bytes, value), packed from offset 0x1C without gaps (R434). -/
def payload (items : List (Nat × Nat)) : List Byte := items.flatMap (fun p => leBytes p.1 p.2)

/-- Bytes 0x00 to 0x17 of a record (R431). -/
def recHead (r : Record) : List Byte :=
  leBytes 4 r.seq ++ leBytes 4 r.boot ++ leBytes 8 r.sec ++ leBytes 4 r.ns ++ leBytes 2 r.code
    ++ leBytes 1 r.origin ++ leBytes 1 r.master

/-- Bytes 0x1A to 0x3B. -/
def recTail (r : Record) : List Byte :=
  leBytes 1 r.phase ++ [0] ++ (r.payload ++ List.replicate (32 - r.payload.length) 0).take 32

/-- The 64 bytes of a record. -/
def recBytes (r : Record) : List Byte :=
  recHead r ++ leBytes 2 r.repeats ++ recTail r ++ leBytes 4 r.check

/-- The valid mark of hardware records. -/
def validMark : Nat := 0x5AC33CA5

/-- CHECK of a record (R432): the valid mark for hardware records, the CRC-32C for the others. -/
def recCheck (r : Record) : Nat :=
  if r.origin = 0 then validMark else (crc32c (recHead r ++ recTail r)).toNat

/-- A record's CHECK verifies (R432). -/
def recGood (r : Record) : Bool := r.check == recCheck r

/-- MRAM slot of the record that receives count n: pinned, then circulating (R437). -/
def slotOf (n : Nat) : Nat := if n < 4096 then n else 4096 + (n - 4096) % 65536

def evrWrittenOff : Nat := 0x400200
def evrFoldedOff : Nat := 0x400208
def evrSuppressedOff : Nat := 0x400210
def evrTornOff : Nat := 0x400218
def evrLgDropOff : Nat := 0x400220

/-- The next record: SEQ and time at the recorder arbiter (R433). -/
def newRecord (code origin master : Nat) (pl : List Byte) (s : State) : Record :=
  let r : Record := { seq := s.evr.nextSeq, boot := s.evr.boot, sec := s.time.sec, ns := s.time.ns, code := code,
                      origin := origin, master := master, phase := s.evr.phase, payload := pl }
  { r with check := recCheck r }

def takeSeq (s : State) : State :=
  count evrWrittenOff 1 { s with evr := { s.evr with nextSeq := (s.evr.nextSeq + 1) % 2 ^ 32 } }

/-- A record into the last-gasp bank, which keeps its first 16 (R443). The bank's places are numbered from 200,000 on
where the last record is named. -/
def lastGaspRecord (r : Record) (s : State) : State :=
  let s := takeSeq s
  let at_ := 200000 + s.evr.lg.length
  let s := { s with evr := { s.evr with last := some (at_, r.code, r.origin) } }
  if s.evr.lg.length < 16 then { s with evr := { s.evr with lg := s.evr.lg ++ [r] } }
  else count evrLgDropOff 1 s

/-- Write a record to its slot. A slot whose read-back fails twice moves recording to the last-gasp bank (R443). -/
def storeRecord (code origin master : Nat) (pl : List Byte) (s : State) : State :=
  let r := newRecord code origin master pl s
  if s.evr.failed then lastGaspRecord r s
  else
    let slot := slotOf s.evr.n
    let bad := s.evr.badSlots.contains slot
    let kept : Record := if bad then { r with check := 0 } else r
    let s := takeSeq s
    let s := { s with evr := { s.evr with slots := s.evr.slots.set slot kept, n := s.evr.n + 1,
                                          last := some (slot, code, origin) } }
    if bad then
      let s := { s with evr := { s.evr with failed := true, lastGasp := true } }
      pfVector 1 (lastGaspRecord (newRecord 7 0 208 (payload [(4, slot * 64), (1, 2)]) s) s)
    else s

def bumpRepeat (r : Record) : Record := { r with repeats := min (r.repeats + 1) 65535 }

/-- Fold a further occurrence into the record at `slot` (R439). -/
def foldInto (slot : Nat) (s : State) : State :=
  if slot < 200000 then { s with evr := { s.evr with slots := s.evr.slots.upd slot {} bumpRepeat } }
  else { s with evr := { s.evr with lg := s.evr.lg.modify (slot - 200000) bumpRepeat } }

/-- The bucket of a code at the present elapsed time: full when first met, refilled at RATE a second up to BURST (R440). -/
def bucketNow (code : Nat) (s : State) : Bucket :=
  match s.evr.buckets.find? code with
  | none => ⟨s.evr.burst * 1000000000, nowNs s, 0⟩
  | some b => ⟨min (b.tokens + (nowNs s - b.at_) * s.evr.rate) (s.evr.burst * 1000000000), nowNs s, b.suppressed⟩

/-- Order a record (R433, R439, R440): it is folded, suppressed or written. Answers its SEQ when it is written. -/
def evrWrite (code origin master : Nat) (pl : List Byte) (s : State) : State × Option Nat :=
  if code < 256 then (storeRecord code origin master pl s, some s.evr.nextSeq)
  else if s.evr.phase = 1 then
    let b := bucketNow code s
    if b.tokens < 1000000000 then
      let s := { s with evr := { s.evr with buckets := s.evr.buckets.set code { b with suppressed := b.suppressed + 1 } } }
      (count evrSuppressedOff 1 s, none)
    else
      let s := { s with evr := { s.evr with buckets := s.evr.buckets.set code ⟨b.tokens - 1000000000, b.at_, 0⟩ } }
      let s := if b.suppressed = 0 then s
               else storeRecord 4 0 208 (payload [(2, code), (4, min b.suppressed (2 ^ 32 - 1))]) s
      (storeRecord code origin master pl s, some s.evr.nextSeq)
  else
    match s.evr.last with
    | some (slot, c, o) =>
      if c = code ∧ o = origin then (count evrFoldedOff 1 (foldInto slot s), none)
      else (storeRecord code origin master pl s, some s.evr.nextSeq)
    | none => (storeRecord code origin master pl s, some s.evr.nextSeq)

/-- A hardware record whose rule names no master (R431). -/
def record (code : Nat) (items : List (Nat × Nat)) (s : State) : State :=
  (evrWrite code 0 208 (payload items) s).1

/-- A hardware record that names a master. -/
def recordBy (master code : Nat) (items : List (Nat × Nat)) (s : State) : State :=
  (evrWrite code 0 master (payload items) s).1

/-- A record of the memory chapter also raises PF0 vector 6 (R387). -/
def memRecord (master code : Nat) (items : List (Nat × Nat)) (s : State) : State :=
  pfVector 6 (recordBy master code items s)

/-- Change the recorder's phase; every change writes a PHASE record (R438), and every bucket is full at each entry to
SERVICE (R440). -/
def setPhase (p : Nat) (s : State) : State :=
  if s.evr.phase = p then s
  else
    let old := s.evr.phase
    let s := { s with evr := { s.evr with phase := p, buckets := if p = 1 then Tab.empty else s.evr.buckets } }
    record 5 [(1, old), (1, p)] s

end Sys2Proof.Machine
end

