-- ==== Sys2Proof/Machine/DspLoad.lean ====
section
/-! DEFINITION. The DSP cores: access, and what a load of the Fabric Image does to them (R287). -/

namespace Sys2Proof.Machine

def dspKey (tile core : Nat) : Nat := tile * 4 + core
def dspCore? (tile core : Nat) (s : State) : Option DspCore := s.dsp.cores.find? (dspKey tile core)
def setDspCore (tile core : Nat) (c : DspCore) (s : State) : State :=
  { s with dsp := { s.dsp with cores := s.dsp.cores.set (dspKey tile core) c } }
def updDspCore (tile core : Nat) (f : DspCore → DspCore) (s : State) : State :=
  match dspCore? tile core s with
  | some c => setDspCore tile core (f c) s
  | none => s
def sramOf (tile : Nat) (s : State) : Mem := s.dsp.sram.get tile []
def setSram (tile : Nat) (m : Mem) (s : State) : State := { s with dsp := { s.dsp with sram := s.dsp.sram.set tile m } }

/-- A core right after its load: at instruction 0, every register 0 (R287). -/
def freshCore (stream : List Byte) (t core : Nat) : DspCore :=
  let code := (Config.dspCode stream t core).take 16384
  let w := Config.dspWindow stream t core
  { code := ⟨code.zipIdx.map (fun x => (x.2, x.1))⟩, base := w.1 % 32 * 65536, size := min (w.2 % 33) (32 - w.1 % 32) * 65536, run := .running }

/-- The cores and SRAM of the groups in `mask` are cleared; those of an AU group, role 4, are loaded and started. -/
def loadCores (mask : Nat) (roles : List Nat) (streams : Nat → List Byte) (s : State) : State :=
  let keep := fun (t : Nat) => !mask.testBit (t / 8)
  let s := { s with dsp := { cores := s.dsp.cores.filterVals (fun k _ => keep (k / 4)), sram := s.dsp.sram.filterVals (fun t _ => keep t) } }
  ((List.range 512).filter (fun t => mask.testBit (t / 8) && roles.getD (t / 8) 0 == 4)).foldl (fun s t =>
    let st := streams (t / 8)
    let s := setSram t (Mem.writeBytes [] 0 ((Config.tileSram st (t % 8)).take 2097152)) s
    (List.range 4).foldl (fun s c => setDspCore t c (freshCore st (t % 8) c) s) s) s

end Sys2Proof.Machine
end

