-- ==== Sys2Proof/Machine/Digest.lean ====
section
/-! DEFINITION. SHA-1, HMAC-SHA-1 and SHA-384, which the spec names by their standards (R64, R149, R156): FIPS 180-4 and RFC 2104
(log entry 141). -/

namespace Sys2Proof.Machine

/-- The message with its padding: a 1 bit, zeros, and the length in bits in the last `lenBytes` of blocks of `block` bytes. -/
def hashPad (block lenBytes : Nat) (bs : List Byte) : List Byte :=
  let used := (bs.length + 1 + lenBytes) % block
  bs ++ [0x80] ++ List.replicate ((block - used) % block) 0 ++ beBytes lenBytes (8 * bs.length)

/-- A message in blocks of n bytes. -/
def byteBlocks (n : Nat) (bs : List Byte) : List (List Byte) := (List.range (ceilDiv bs.length n)).map (fun i => slice bs (n * i) n)

/-! ## SHA-1 -/

abbrev Five := BitVec 32 × BitVec 32 × BitVec 32 × BitVec 32 × BitVec 32

/-- The 80 words of a block's schedule, latest first. -/
def sha1Schedule : Nat → List (BitVec 32) → List (BitVec 32)
  | 0, ws => ws
  | n + 1, ws => sha1Schedule n (((ws.getD 2 0 ^^^ ws.getD 7 0 ^^^ ws.getD 13 0 ^^^ ws.getD 15 0).rotateLeft 1) :: ws)

def sha1Round (v : Five) (x : BitVec 32 × Nat) : Five :=
  let (a, b, c, d, e) := v
  let t := x.2 / 20
  let f := if t = 0 then (b &&& c) ||| (~~~b &&& d) else if t = 2 then (b &&& c) ||| (b &&& d) ||| (c &&& d) else b ^^^ c ^^^ d
  let k : BitVec 32 := if t = 0 then 0x5A827999 else if t = 1 then 0x6ED9EBA1 else if t = 2 then 0x8F1BBCDC else 0xCA62C1D6
  (a.rotateLeft 5 + f + e + k + x.1, a, b.rotateLeft 30, c, d)

def sha1Block (h : Five) (bs : List Byte) : Five :=
  let ws := (sha1Schedule 64 ((byteBlocks 4 bs).map (fun w => BitVec.ofNat 32 (beNat w))).reverse).reverse
  let (a, b, c, d, e) := ws.zipIdx.foldl sha1Round h
  (h.1 + a, h.2.1 + b, h.2.2.1 + c, h.2.2.2.1 + d, h.2.2.2.2 + e)

def sha1 (bs : List Byte) : List Byte :=
  let (a, b, c, d, e) := (byteBlocks 64 (hashPad 64 8 bs)).foldl sha1Block (0x67452301, 0xEFCDAB89, 0x98BADCFE, 0x10325476, 0xC3D2E1F0)
  [a, b, c, d, e].flatMap (fun w => beBytes 4 w.toNat)

/-- HMAC-SHA-1 with a key of at most 64 bytes. -/
def hmacSha1 (key bs : List Byte) : List Byte :=
  let k := key ++ List.replicate (64 - key.length) 0
  sha1 (k.map (· ^^^ 0x5C) ++ sha1 (k.map (· ^^^ 0x36) ++ bs))

/-! ## SHA-384 -/

/-- The largest number below 2^n whose k-th power is at most x. -/
def rootBelow (k x : Nat) : Nat → Nat → Nat
  | 0, a => a
  | n + 1, a => rootBelow k x n (if (a + 2 ^ n) ^ k ≤ x then a + 2 ^ n else a)

def isPrime (p : Nat) : Bool := decide (2 ≤ p) && (List.range 21).all (fun d => d < 2 || p ≤ d || p % d != 0)
/-- The first 80 primes. -/
def primes80 : List Nat := (List.range 410).filter isPrime

/-- The constants: the first 64 bits of the fractional parts of the cube roots of the first 80 primes, and of the square roots of the
ninth to the sixteenth. -/
def sha512K : List (BitVec 64) := primes80.map (fun p => BitVec.ofNat 64 (rootBelow 3 (p * 2 ^ 192) 68 0))
def sha384Init : List (BitVec 64) := ((primes80.drop 8).take 8).map (fun p => BitVec.ofNat 64 (rootBelow 2 (p * 2 ^ 128) 68 0))

def sha512Schedule : Nat → List (BitVec 64) → List (BitVec 64)
  | 0, ws => ws
  | n + 1, ws =>
    let x := ws.getD 14 0
    let y := ws.getD 1 0
    sha512Schedule n ((((y.rotateRight 19) ^^^ (y.rotateRight 61) ^^^ (y >>> 6)) + ws.getD 6 0
      + ((x.rotateRight 1) ^^^ (x.rotateRight 8) ^^^ (x >>> 7)) + ws.getD 15 0) :: ws)

def sha512Round (v : List (BitVec 64)) (x : BitVec 64 × BitVec 64) : List (BitVec 64) :=
  match v with
  | [a, b, c, d, e, f, g, h] =>
    let t1 := h + ((e.rotateRight 14) ^^^ (e.rotateRight 18) ^^^ (e.rotateRight 41)) + ((e &&& f) ^^^ (~~~e &&& g)) + x.2 + x.1
    let t2 := ((a.rotateRight 28) ^^^ (a.rotateRight 34) ^^^ (a.rotateRight 39)) + ((a &&& b) ^^^ (a &&& c) ^^^ (b &&& c))
    [t1 + t2, a, b, c, d + t1, e, f, g]
  | _ => v

def sha512Block (h : List (BitVec 64)) (bs : List Byte) : List (BitVec 64) :=
  let ws := (sha512Schedule 64 ((byteBlocks 8 bs).map (fun w => BitVec.ofNat 64 (beNat w))).reverse).reverse
  List.zipWith (· + ·) h ((ws.zip sha512K).foldl sha512Round h)

def sha384 (bs : List Byte) : List Byte :=
  (((byteBlocks 128 (hashPad 128 16 bs)).foldl sha512Block sha384Init).take 6).flatMap (fun w => beBytes 8 w.toNat)

end Sys2Proof.Machine
end

