-- ==== Sys2Proof/Machine/Curve.lean ====
section
/-! DEFINITION. ECDSA on the curve P-384 with SHA-384, which the spec names by its standard (R64, R156, R455): FIPS 186-4, SEC 1 (log
entry 141). -/

namespace Sys2Proof.Machine

def p384 : Nat := 2 ^ 384 - 2 ^ 128 - 2 ^ 96 + 2 ^ 32 - 1
/-- The coefficient b, the order, and the base point. -/
def p384B : Nat := 0xb3312fa7e23ee7e4988e056be3f82d19181d9c6efe8141120314088f5013875ac656398d8a2ed19d2a85c8edd3ec2aef
def p384N : Nat := 0xffffffffffffffffffffffffffffffffffffffffffffffffc7634d81f4372ddf581a0db248b0a77aecec196accc52973
def p384G : Nat × Nat :=
  (0xaa87ca22be8b05378eb1c71ef320ad746e1d3b628ba79b9859f741e082542a385502f25dbf55296c3a545e3872760ab7,
   0x3617de4a96262c6f5d9e98bf9292dc29f8f41dbd289a147ce9da3113b5f0b8c00a60b1ce1d7e819d7a431d7c90ea0e5f)

/-- a^e modulo m over the low n bits of e. -/
def powMod (m : Nat) : Nat → Nat → Nat → Nat
  | 0, _, _ => 1
  | n + 1, a, e => let r := powMod m n (a * a % m) (e / 2); if e % 2 = 1 then a * r % m else r

/-- The inverse modulo a prime above 2. -/
def invMod (m a : Nat) : Nat := powMod m 384 a (m - 2)
def subMod (m a b : Nat) : Nat := (a + m - b % m) % m

/-- A point of the curve; none is the point at infinity. -/
abbrev Point := Option (Nat × Nat)

def addPoint (a b : Point) : Point :=
  match a, b with
  | none, q => q
  | q, none => q
  | some (x1, y1), some (x2, y2) =>
    if x1 = x2 ∧ (y1 + y2) % p384 = 0 then none
    else
      let l := if x1 = x2 then (3 * x1 * x1 + p384 - 3) * invMod p384 (2 * y1 % p384) % p384
               else subMod p384 y2 y1 * invMod p384 (subMod p384 x2 x1) % p384
      let x := subMod p384 (l * l) (x1 + x2)
      some (x, subMod p384 (l * subMod p384 x1 x) y1)

/-- k times a point, over the low n bits of k. -/
def mulPoint : Nat → Nat → Point → Point
  | 0, _, _ => none
  | n + 1, k, a => let r := mulPoint n (k / 2) (addPoint a a); if k % 2 = 1 then addPoint a r else r

def onCurve (q : Nat × Nat) : Bool :=
  decide (q.1 < p384) && decide (q.2 < p384) && q.2 * q.2 % p384 == (q.1 * q.1 * q.1 + p384B + 3 * (p384 - q.1)) % p384

/-- ECDSA P-384 with SHA-384: the uncompressed public key, the message, r and s. -/
def ecdsaP384 (key msg rs ss : List Byte) : Bool :=
  let q := (beAt key 1 48, beAt key 49 48)
  let r := beNat rs
  let s := beNat ss
  if key.length = 97 ∧ byteAt key 0 = 4 ∧ onCurve q ∧ 1 ≤ r ∧ r < p384N ∧ 1 ≤ s ∧ s < p384N then
    let w := invMod p384N s
    let e := beNat (sha384 msg)
    match addPoint (mulPoint 384 (e * w % p384N) (some p384G)) (mulPoint 384 (r * w % p384N) (some q)) with
    | none => false
    | some x => x.1 % p384N == r
  else false

end Sys2Proof.Machine
end

