-- ==== Sys2Proof/Machine/Access.lean ====
section
/-! DEFINITION. The access tables: who may do what at a target, and what a refusal leaves (R382-R386). -/

namespace Sys2Proof.Machine

/-! Target kinds (R382). -/
def tgRegion : Nat := 1
def tgPage : Nat := 2
def tgKeyBank : Nat := 3
def tgQueue : Nat := 4
def tgPartition : Nat := 5
def tgRecorder : Nat := 6
def tgCocoon : Nat := 7

/-! Bits of an entry (R382). -/
def bitRead : Nat := 1
def bitWrite : Nat := 2
def bitControl : Nat := 4
def bitLock : Nat := 8

/-- How many targets of a kind exist (R382); 0 for a reserved kind. -/
def targetCount (kind : Nat) : Nat :=
  if kind = tgRegion then 32768 else if kind = tgPage then 20480 else if kind = tgKeyBank then 512
  else if kind = tgQueue then 8192 else if kind = tgPartition then 64 else if kind = tgRecorder then 1
  else if kind = tgCocoon then 1 else 0

def targetKey (kind idx : Nat) : Nat := kind * 65536 + idx
def entryKey (kind idx master : Nat) : Nat := targetKey kind idx * 256 + master

/-- A control core's master ID (R381). -/
def isCore (m : Nat) : Bool := decide (64 ≤ m) && decide (m < 128)

/-- Bits that cold reset gives an entry (R384). -/
def coldBits (kind master : Nat) : Nat :=
  if isCore master then 7 else if kind = tgPage ∧ master = 0 then 7 else 0

/-- The register pages behind the ranges that every VF may read (R503): identity, die links, PWR, TIME, KEY, FAB, the
stacks' pages and the lanes' pages. -/
def vfReadPage (p : Nat) : Bool :=
  p == 0 || p == 1 || p == 8 || p == 10 || p == 0x600 || p == 0xC00 || p == 0xE00 ||
  (decide (0x1000 ≤ p) && decide (p < 0x5000) &&
    (p % 0x1000 == 0x700 || p % 0x1000 == 0x701 || p % 0x1000 == 1 || p % 0x1000 == 2))

/-- The region is one of the key regions, 4,088 to 4,095 of a stack (R368). -/
def keyRegion (idx : Nat) : Bool := decide (4088 ≤ idx % 4096)

/-- Bits that the boot firmware leaves in an entry (R161, R384, R393, R503). The grants of the general regions to the
forward planes, the DMA engines, the recorder writer and the update engine, and the Read and Write of a function on its
own queue pages, are the model's (log entry 8). -/
def bootBits (kind idx master : Nat) : Nat :=
  if kind = tgRegion then
    if keyRegion idx then
      bitLock + (if decide (200 ≤ master) && decide (master < 208) then bitRead + bitWrite else 0)
    else if isCore master then 7
    else if decide (192 ≤ master) && decide (master < 210) then bitRead + bitWrite else 0
  else if kind = tgPage then
    if isCore master || master == 0 then 7
    else if decide (master < 64) then
      if decide (0x200 + 4 * master ≤ idx) && decide (idx < 0x204 + 4 * master) then bitRead + bitWrite
      else if vfReadPage idx then bitRead else 0
    else 0
  else if kind = tgQueue then
    if isCore master then 7
    else if master = idx / 128 then 7 else if master = 0 then bitControl else 0
  else if kind = tgCocoon then
    bitLock + (if isCore master then 7 else if master = 0 then bitRead + bitControl else 0)
  else if kind = tgKeyBank ∨ kind = tgRecorder then
    if isCore master || master == 0 then 7 else 0
  else coldBits kind master

/-- The frame pool that lies in a region, by its key Wing × 64 + function (R186). -/
def poolOfRegion (idx : Nat) (s : State) : Option Nat :=
  (s.video.pools.toList.find? (fun c => c.2.regions.contains idx || c.2.was.any (fun w => w.2.contains idx))).map (·.1)

/-- A tile group of a partition that the function owns. -/
def ownGroup (fn g : Nat) (s : State) : Bool := s.fab.parts.toList.any (fun p => p.2.owner == fn && p.2.tgMask.testBit g)

/-- A region of a frame pool grants Read and Write to the function's tile groups, to the PX groups that the image routes from them,
and to PF0, and to no other master; the control cores keep Control (R186, log entry 145). -/
def poolBits (fn master : Nat) (s : State) : Nat :=
  if master = 0 then bitRead + bitWrite
  else if isCore master then bitControl
  else if decide (128 ≤ master) && decide (master < 192)
      && (ownGroup fn (master - 128) s
        || ((s.fab.groups.get (master - 128) {}).role == 3 && s.fab.routes.any (fun r => r.2.1 == master - 128 && ownGroup fn r.1 s)))
    then bitRead + bitWrite
  else 0

/-- The bits of a region's entry that nothing has written. -/
def regionBits (idx master : Nat) (s : State) : Nat :=
  match poolOfRegion idx s with
  | some k => poolBits (k % 64) master s
  | none => bootBits tgRegion idx master

/-- The bits of one entry. -/
def accBits (kind idx master : Nat) (s : State) : Nat :=
  s.acc.entries.get (entryKey kind idx master)
    (if !s.acc.booted then coldBits kind master
     else if kind = tgRegion then regionBits idx master s
     else bootBits kind idx master)

/-- The entry holds the bit that the request needs (R382). -/
def accHas (kind idx master bit : Nat) (s : State) : Bool := accBits kind idx master s &&& bit != 0

/-- `ACC_REFUSED` of a kind (R388). -/
def accRefusedOff (kind : Nat) : Nat := 0x800100 + kind * 8

/-- A refusal at a target (R385): it is counted, the master is kept, and a record is written when no refusal at that
target has written one in the preceding second. -/
def accRefuse (kind idx master : Nat) (s : State) : State :=
  let key := targetKey kind idx
  let r := s.acc.refusals.get key {}
  let due := match r.recAt with
    | none => true
    | some t => decide (t + 1000000000 ≤ nowNs s)
  let r' : Refusals := ⟨satAdd 16 r.count 1, master, if due then some (nowNs s) else r.recAt⟩
  let s := count (accRefusedOff kind) 1 { s with acc := { s.acc with refusals := s.acc.refusals.set key r' } }
  if due then memRecord master 0x0C04 [(1, kind), (2, idx), (1, master)] s else s

/-- Check a request: on a refusal, the state with the refusal counted. -/
def accCheck (kind idx master bit : Nat) (s : State) : Bool × State :=
  if accHas kind idx master bit s then (true, s) else (false, accRefuse kind idx master s)

end Sys2Proof.Machine
end

