-- ==== Sys2Proof/Machine/QueueOps.lean ====
section
/-! DEFINITION. Host queues as every family uses them: packets, completions, the command engine, the halt. -/

namespace Sys2Proof.Machine

def queueOf (q : Nat) (s : State) : Queue := s.hq.get q {}
def setQueue (q : Nat) (u : Queue) (s : State) : State := { s with hq := s.hq.set q u }
def updQueue (q : Nat) (f : Queue → Queue) (s : State) : State := setQueue q (f (queueOf q s)) s

def hqRefusedOff (q : Nat) : Nat := 0x200060 + q * 0x80
def hqStaleOff (q : Nat) : Nat := 0x200068 + q * 0x80
def hqDiscardedOff (q : Nat) : Nat := 0x200070 + q * 0x80

/-! ## Words -/

def tagData : Nat := 1
def tagLength : Nat := 2
def tagOf (w : Word128) : Nat := fld w 127 120
def payloadOf (w : Word128) : Nat := fld w 119 0
def dataWord (p : Nat) : Word128 := BitVec.ofNat 128 (tagData * 2 ^ 120 + p % 2 ^ 120)
/-- The LENGTH word (R389). -/
def lengthWord (qgen len : Nat) : Word128 := pack128 [(120, 8, tagLength), (108, 12, qgen), (0, 16, len)]

/-- Words held, open and visible: each visible packet with its LENGTH word, the words of the begun packet still to pop,
and the open packet with its slot (R392, WORDS). -/
def Queue.words (u : Queue) : Nat :=
  (u.visible.map (fun p => p.words.length + 1)).sum + u.begun.length +
    (match u.opened with | none => 0 | some o => o.words.length + 1)

def Queue.capacity (u : Queue) : Nat := 2 ^ u.depthLog2

/-- The commands in progress whose completions must still find room in record queue `r`: 3 words each (R403). -/
def reservedWords (r : Nat) (s : State) : Nat :=
  3 * (s.hq.toList.filter (fun c => c.1 / 128 == r / 128 && c.2.enable && c.2.kind == 0 && c.2.busy.isSome
        && c.2.cq == r % 128)).length

/-- A packet of `len` DATA words fits beside what is held and what is kept for completions in progress. -/
def hasRoom (r len : Nat) (s : State) : Bool :=
  let u := queueOf r s
  decide (u.words + reservedWords r s + len + 1 ≤ u.capacity)

/-! ## Interrupts -/

/-- The packets whose vector R400 counts: visible ones, or in mirror mode those in the ring beyond CONSUMED; each by
the elapsed ns at which it came. -/
def Queue.waiting (u : Queue) : List Nat :=
  if u.mirror && u.kind == 1 then (u.ring.filter (fun p => decide (u.consumed < p.1))).map (·.2) else u.visible.map (·.at_)

/-- The condition of R400. -/
def Queue.irqDue (u : Queue) (now : Nat) : Bool :=
  match u.waiting with
  | [] => false
  | t :: _ => decide (u.count ≤ u.waiting.length) || decide (t + u.timeUs * 1000 ≤ now)

/-- Send the vector of an armed queue whose condition holds; sending clears ARMED (R400). -/
def queueIrq (q : Nat) (s : State) : State :=
  let u := queueOf q s
  if u.irqEn && u.armed && u.irqDue (nowNs s) then
    emit (.msix (q / 128) u.vector) (setQueue q { u with armed := false } s)
  else s

/-! ## Device producers -/

/-- Put a whole packet into a queue (R391). -/
def storePacket (q : Nat) (words : List Word128) (s : State) : State :=
  queueIrq q (updQueue q (fun u => { u with visible := u.visible ++ [⟨words, nowNs s⟩] }) s)

/-- The handle of queue `q` at its present generation. -/
def queueHandle (q : Nat) (s : State) : Nat := handleOf .queue (queueOf q s).qgen q

/-- What became of a device producer's push. -/
inductive Pushed where
  | stored
  | full
  | stale
  deriving DecidableEq, Repr

/-- A device producer's push under the handle it holds (R391, R398). -/
def devicePush (handle : Nat) (payloads : List Nat) (s : State) : Pushed × State :=
  let q := handleIdx handle
  let u := queueOf q s
  if ¬ u.enable ∨ u.qgen ≠ handleGen handle then (.stale, count (hqStaleOff q) (payloads.length + 1) s)
  else if hasRoom q payloads.length s then (.stored, storePacket q (payloads.map dataWord) s)
  else (.full, s)

/-- A command that names a queue handle accepts an enabled record queue of the requester; PF0 and firmware name any
(R397, R7). -/
inductive QueueNamed where
  | ok
  | bad
  | stale
  deriving DecidableEq, Repr

def resolveQueue (r : Req) (h : Nat) (s : State) : QueueNamed :=
  let q := handleIdx h
  let u := queueOf q s
  if handleKind h ≠ 6 ∨ 8192 ≤ q then .bad
  else if handleGen h ≠ u.qgen then .stale
  else if u.enable && u.kind == 1 && (r.owner || q / 128 == r.fn) then .ok
  else .bad

/-- A command that queue handle `h` refuses with `x`: a stale one is counted in the queue's `HQ_STALE` (R7). -/
def queueRefused (h : Nat) (x : Reply) (s : State) : Answer :=
  answer (if x.st = stStale then count (hqStaleOff (handleIdx h)) 1 s else s) x

/-! ## Work over a rerouted link (R31) -/

/-- The link between two different Wings. -/
def wingLink (a b : Nat) : Nat :=
  let lo := min a b
  let hi := max a b
  if lo = 0 then (if hi = 1 then 4 else if hi = 2 then 8 else 7)
  else if lo = 1 then (if hi = 2 then 5 else 9) else 6

/-- The traffic of a link takes an alternate route: it is DOWN or RETRAINING. -/
def linkRerouted (n : Nat) (s : State) : Bool :=
  let l := s.links.get n {}
  l.state == 0 || l.state == 3

/-- The traffic between the Body and Wing `w` is rerouted. -/
def wingRerouted (w : Nat) (s : State) : Bool := linkRerouted w s

/-- The traffic between two Wings is rerouted. -/
def pairRerouted (a b : Nat) (s : State) : Bool := a != b && linkRerouted (wingLink a b) s

/-- An answer whose OK is DEGRADED where `c` holds. -/
def degradedIf (c : Bool) (a : Answer) : Answer :=
  (a.1, a.2.map (fun r => if c && r.st = stOk then { r with st := stDegraded } else r))

/-- An answer of work that joins Wings `x` and `y`. -/
def viaPair (x y : Nat) (a : Answer) : Answer := degradedIf (pairRerouted x y a.1) a

/-- The completion of work that is done on Wing `w` (R31): DEGRADED while its traffic is rerouted. -/
def okVia (w det : Nat) (s : State) : Reply := if wingRerouted w s then ⟨stDegraded, 1, det⟩ else okWith det

/-- An answer of work on Wing `w`, whose OK is DEGRADED while the Wing's traffic is rerouted. -/
def viaWing (w : Nat) (a : Answer) : Answer :=
  (a.1, a.2.map (fun r => if r.st = stOk then { okVia w r.det a.1 with prog := r.prog } else r))

/-! ## Completions -/

/-- The two payloads of a completion packet (R404). -/
def completionWords (time : Nat) (c : Completion) : List Word128 :=
  [dataWord (packNat [(56, 64, time), (44, 12, c.qgen), (31, 13, c.queue), (7, 24, c.seq)]),
   dataWord (packNat [(56, 64, c.detail), (48, 8, c.opcode), (40, 8, c.status), (32, 8, c.progress), (0, 32, c.tag)])]

/-- The record queue that a command queue names as its CQ. -/
def cqOf (q : Nat) (s : State) : Nat := q / 128 * 128 + (queueOf q s).cq

/-- The CQ names an enabled record queue of the same function; otherwise CQ_ERR reads 1 (R396). -/
def cqValid (q : Nat) (s : State) : Bool :=
  let u := queueOf q s
  let r := queueOf (cqOf q s) s
  decide (u.cq < 128) && r.enable && r.kind == 1

def writeCompletion (c : Completion) (s : State) : State :=
  storePacket (cqOf c.queue s) (completionWords (cmpNow s) c) s

/-- LAST_DONE moves up over every SEQ in `ahead` that follows it (R405). -/
def advanceDone : Nat → Nat → List Nat → Nat × List Nat
  | 0, last, ahead => (last, ahead)
  | n + 1, last, ahead =>
    let nx := (last + 1) % 16777216
    if ahead.contains nx then advanceDone n nx (ahead.erase nx) else (last, ahead)

/-- The command of `seq` has completed. -/
def Queue.markDone (u : Queue) (seq : Nat) : Queue :=
  let ahead := seq :: u.doneAhead
  let r := advanceDone ahead.length u.lastDone ahead
  { u with lastDone := r.1, doneAhead := r.2 }

/-- End a command: its completion is written, unless QUIET is set and the status is OK (R402, R404). A command that a
halt left possibly partial has no completion (R405). -/
def complete (t : Ticket) (r : Reply) (s : State) : State :=
  let c : Completion := ⟨t.queue, t.qgen, t.seq, t.opcode, r.st, r.prog, r.det, t.tag⟩
  if t.fw then
    if s.fwOps.contains t.op then
      { s with fwOps := s.fwOps.erase t.op, fwDone := (t.core, c) :: s.fwDone }
    else s
  else
    match (queueOf t.queue s).busy with
    | none => s
    | some b =>
      if b.op = t.op then
        let s := updQueue t.queue (fun u => { u with busy := none }.markDone t.seq) s
        if r.st = stOk && t.quiet then s else writeCompletion c s
      else s

/-- The command of `t` is still in progress. -/
def inProgress (t : Ticket) (s : State) : Bool :=
  if t.fw then s.fwOps.contains t.op
  else match (queueOf t.queue s).busy with | none => false | some b => b.op == t.op

/-- Note the steps that a waiting command has reached (R448). -/
def setProgress (t : Ticket) (p : Nat) (s : State) : State :=
  if t.fw then s
  else updQueue t.queue (fun u =>
    { u with busy := u.busy.map (fun b => if b.op = t.op then { b with progress := p } else b) }) s

/-! ## FLUSHED completions -/

/-- Write the FLUSHED completions of a command queue as its CQ has room; FLUSH_PENDING clears with the last (R394). -/
def writeOwed : Nat → Nat → State → State
  | 0, _, s => s
  | n + 1, q, s =>
    match (queueOf q s).owed with
    | [] => s
    | c :: rest =>
      if cqValid q s && hasRoom (cqOf q s) 2 s then
        writeOwed n q (writeCompletion c (updQueue q (fun u => { u with owed := rest }.markDone c.seq) s))
      else s

/-- After words have left record queue `r`: the command queues that name it write what they owe. -/
def roomFreed (r : Nat) (s : State) : State :=
  let qs := (s.hq.toList.filter (fun c => c.1 / 128 == r / 128 && c.2.kind == 0 && c.2.cq == r % 128
              && !c.2.owed.isEmpty)).map (·.1)
  qs.foldl (fun s q => writeOwed (queueOf q s).owed.length q s) s

/-! ## The command engine -/

/-- The opcodes that the chapters define (R14, R15). -/
def opcodeDefined (op : Nat) : Bool :=
  let r := fun lo hi => decide (lo ≤ op) && decide (op ≤ hi)
  r 0x00 0x02 || r 0x20 0x26 || r 0x40 0x4E || r 0x60 0x6B || r 0x70 0x7F || r 0x80 0x8E || r 0xA0 0xA2
    || r 0xB0 0xB4 || r 0xC0 0xC5 || r 0xD0 0xD4

/-- The engine may take a descriptor of queue `q`: enabled, a command queue, not halted, CQ_ERR 0, nothing in progress,
and room in the CQ for a completion (R396, R403, R405). -/
def engineReady (q : Nat) (s : State) : Bool :=
  let u := queueOf q s
  u.enable && u.kind == 0 && !u.halted && u.busy.isNone && cqValid q s && hasRoom (cqOf q s) 2 s

/-- The leading visible packets whose LENGTH is not 5, and what follows them (R401). -/
def splitBad : List Packet → Nat × List Packet
  | [] => (0, [])
  | p :: ps =>
    if p.words.length = 5 then (0, p :: ps)
    else
      let r := splitBad ps
      (r.1 + p.words.length + 1, r.2)

/-- The engine discards the packets at the front whose LENGTH is not 5 (R401). -/
def dropBad (q : Nat) (s : State) : State :=
  if engineReady q s then
    let r := splitBad (queueOf q s).visible
    let s := updQueue q (fun u => { u with visible := r.2 }) s
    if r.1 = 0 then s else count (hqDiscardedOff q) r.1 s
  else s

/-- The 512 bits of a descriptor: bit b is payload bit b mod 120 of DATA word floor(b / 120) (R401). -/
def descriptorOf (ws : List Word128) : Nat :=
  (ws.zipIdx.map (fun p => payloadOf p.1 * 2 ^ (120 * p.2))).foldl (· + ·) 0

/-- The reserved payload bits of DATA word 4 are 0 (R401). -/
def tailClear (ws : List Word128) : Bool := payloadOf (ws.getD 4 0) / 2 ^ 32 == 0

def descWord (d j : Nat) : Word128 := BitVec.ofNat 128 (d >>> (128 * j))

/-- The reserved bits of word 0 are 0 (R402). -/
def commonClear (w0 : Word128) : Bool := fld w0 127 48 == 0 && fld w0 15 9 == 0

/-- Checks 1 to 3 of R402: BAD_COMMON, BAD_OPCODE, SAFE_HOLD. None where the chapter's own checks are next. -/
def commonCheck (w0 : Word128) (tail : Bool) (s : State) : Option Reply :=
  let op := fld w0 7 0
  if !(commonClear w0 && tail) then some (refuse stNotStarted 0xF0)
  else if !opcodeDefined op then some (refuse stRefused 0xF1)
  else if s.body.hold && !(op == 0 || (decide (0xD0 ≤ op) && decide (op ≤ 0xD4))) then
    some (refuse stNotStarted 0xF3)
  else none

/-- Take the descriptor at the front of queue `q` (R403): its SEQ, NEXT, BUSY. -/
def takeFront (q : Nat) (ws : List Word128) (rest : List Packet) (s : State) : Req × State :=
  let u := queueOf q s
  let d := descriptorOf ws
  let w0 := descWord d 0
  let tk : Ticket := { op := s.nextOp, queue := q, qgen := u.qgen, seq := u.next, opcode := fld w0 7 0,
                       tag := fld w0 47 16, quiet := bitOf w0 8 }
  let taken : Taken := ⟨s.nextOp, u.next, u.qgen, w0, descWord d 1, descWord d 2, descWord d 3, 0, 0⟩
  (⟨q / 128, false, q / 128, w0, descWord d 1, descWord d 2, descWord d 3, tk⟩,
   { setQueue q { u with visible := rest, next := (u.next + 1) % 16777216, busy := some taken } s with
     nextOp := s.nextOp + 1 })

/-- Run the checks of R402, then the command's own meaning, and complete it when it has answered. -/
def runReq (r : Req) (tail : Bool) (body : Req → State → Answer) (s : State) : State :=
  match commonCheck r.w0 tail s with
  | some rep => complete r.tk rep s
  | none =>
    let a := body r s
    match a.2 with
    | some rep => complete r.tk rep a.1
    | none => a.1

/-- The command at the front of a queue, or on a core's command port, when its opcode is one that `mine` accepts; where
the engine may take no such command, nothing happens (log entry 3). -/
def runCmd (mine : Nat → Bool) (body : Req → State → Answer) (src : CmdSrc) (s : State) : State :=
  match src with
  | .queue q =>
    let s1 := dropBad q s
    if engineReady q s1 then
      match (queueOf q s1).visible with
      | [] => s1
      | p :: rest =>
        if mine (fld (descWord (descriptorOf p.words) 0) 7 0) then
          let t := takeFront q p.words rest s1
          runReq t.1 (tailClear p.words) body t.2
        else s1
    else s1
  | .port core w0 w1 w2 w3 =>
    if mine (fld w0 7 0) then
      let tk : Ticket := { op := s.nextOp, fw := true, core := core, opcode := fld w0 7 0, tag := fld w0 47 16,
                           quiet := bitOf w0 8 }
      runReq ⟨0, true, 64 + core, w0, w1, w2, w3, tk⟩ true body
        { s with nextOp := s.nextOp + 1, fwOps := s.nextOp :: s.fwOps }
    else s

/-- A row of the opcode table: the command whose opcode is `op`. -/
def command (op : Nat) (body : Req → State → Answer) (src : CmdSrc) (s : State) : State :=
  runCmd (· == op) body src s

/-! ## Reserved bits of words 1 to 3 -/

/-- The bits of the fields [hi:lo] that a chapter names in a word. -/
def fieldMask (fs : List (Nat × Nat)) : Nat := (fs.map (fun f => 2 ^ (f.1 + 1) - 2 ^ f.2)).sum

/-- Every bit of a word that no field names is 0. -/
def onlyFields (w : Word128) (fs : List (Nat × Nat)) : Bool := w.toNat &&& fieldMask fs == w.toNat

/-- The fields of words 1, 2 and 3 of a command. -/
abbrev Layout := List (Nat × Nat) × List (Nat × Nat) × List (Nat × Nat)

def reservedZero (l : Layout) (r : Req) : Bool := onlyFields r.w1 l.1 && onlyFields r.w2 l.2.1 && onlyFields r.w3 l.2.2

/-- A chapter whose reserved bits are 0: a command that it would accept, with a reserved bit set, completes with NOT_STARTED,
reason BAD_PARAM, and changes nothing; any other refusal stands (log entry 119). -/
def strictly (l : Layout) (body : Req → State → Answer) (r : Req) (s : State) : Answer :=
  let a := body r s
  if reservedZero l r then a
  else match a.2 with
    | some x => if x.prog = 0 then a else answer s (refuse stNotStarted 0x01)
    | none => answer s (refuse stNotStarted 0x01)

/-! ## Halt -/

/-- Halt one command queue: the command in progress becomes possibly partial (R405), and its record is written when
PARTIAL_VALID reads 1 (R449). -/
def haltQueue (q : Nat) (s : State) : State :=
  let u := queueOf q s
  if u.enable && u.kind == 0 then
    let part := match u.busy with | some b => some b | none => u.part
    let s := setQueue q { u with halted := true, busy := none, part := part } s
    match part with
    | none => s
    | some b => record 6 [(2, q), (4, b.seq), (1, fld b.w0 7 0), (1, b.progress), (8, b.handle), (4, fld b.w0 47 16)] s
  else s

/-- Every command queue halts (R405). -/
def haltQueues (s : State) : State := (s.hq.toList.map (·.1)).foldl (fun s q => haltQueue q s) s

end Sys2Proof.Machine
end

