-- ==== Sys2Proof/Machine/Fatal.lean ====
section
/-! DEFINITION. The fatal error that every cause shares (R444-R446), and the end of a firmware trial it brings. -/

namespace Sys2Proof.Machine

/-- A bank is TRIAL (R463). -/
def trialRunning (s : State) : Bool :=
  (if s.upd.active = 0 then s.upd.bankA.state else s.upd.bankB.state) == 3

/-- A fatal error or a watchdog while the bank is TRIAL ends the trial (R466). -/
def endTrial (s : State) : State :=
  if trialRunning s then { s with upd := { s.upd with trialOver := true } } else s

/-- The newest entry of the dump index bears the states of both places as they stand (R445, R446, log entry 35). -/
def noteDump (s : State) : State :=
  match s.dump.index with
  | [] => s
  | e :: r =>
    { s with dump := { s.dump with index := { e with dram := s.dump.dramState, flash := s.dump.flashState } :: r } }

/-- Start the dump of a fatal error whose FATAL record has SEQ `seq` (R445, R446). -/
def startDump (cause seq : Nat) (s : State) : State :=
  let writer := if cause = 3 then 1 else 0
  let skipD := s.dump.dramState != 0
  let skipF := s.dump.flashState != 0 || s.dump.summaryDue
  let keptD := s.dump.seq
  let keptF := s.dump.flashSeq
  let s := if skipD then s else
    { s with dump := { s.dump with dramState := 1, seq := seq, cause := cause, writer := writer, cmp := cmpNow s } }
  let s := if skipF then s else
    { s with dump := { s.dump with flashSeq := seq, flashCause := cause, flashWriter := writer, flashCmp := cmpNow s,
                                   summaryDue := !skipD, liveSummary := skipD,
                                   flashState := if skipD then 1 else 0 } }
  let e : DumpEntry := ⟨s.evr.boot, seq, cause, s.dump.dramState, s.dump.flashState⟩
  let s := { s with dump := { s.dump with index := (e :: s.dump.index).take 64 } }
  let s := if skipD then record 8 [(1, cause), (4, keptD)] s else s
  if skipF then record 8 [(1, cause), (4, keptF)] s else s

/-- A fatal error (R444): the FATAL record, the halt of every command queue with its PARTIAL_COMMAND records, the
phase RECOVERY, and the dump. Causes: 1 Safe Hold, 2 firmware, 3 cores lost (R447). -/
def fatalError (cause : Nat) (s : State) : State :=
  let seq := s.evr.nextSeq
  let s := endTrial (setPhase 3 (haltQueues (record 3 [(1, cause)] s)))
  startDump cause seq s

end Sys2Proof.Machine
end

