-- ==== Sys2Proof/Machine/Queues.lean ====
section
/-! DEFINITION. The host-queue rows: HQ_PUSH, HQ_POP, HQ_CFG, FLUSH, HARD_FLUSH, RESUME, ARM, HQ_MIRROR_CONS,
MIRROR_DRAIN and QUEUE_IRQ_TIMEOUT (R389-R400, R405, R415). -/

namespace Sys2Proof.Machine

/-- Owner-view offset of an HQ register. -/
def hqOff (q r : Nat) : Nat := 0x200000 + q * 0x80 + r

/-- A register write reaches its block: the page's table holds Write for the writer, and a VF reaches through its
window only the HQ registers of its own queues (R382, R501, R502). Writes that a VF's window does not carry are
dropped uncounted. -/
def writeGate (who off : Nat) (s : State) : Bool × State :=
  let inWindow := who == 0 || decide (64 ≤ who) ||
    (decide (0x200000 + who * 0x4000 ≤ off) && decide (off < 0x204000 + who * 0x4000))
  if inWindow then accCheck tgPage (off / 4096) who bitWrite s else (false, s)

/-- A read passes the page's table. -/
def readGate (who off : Nat) (s : State) : Bool × State := accCheck tgPage (off / 4096) who bitRead s

/-- The queue's own table refused an access, or an owner's access is one that is dropped: one count per word (R393). -/
def hqRefuse (q : Nat) (s : State) : State := count (hqRefusedOff q) 1 s

/-- The held low half of a wide register for a master, which the high-half write takes and returns to 0 (R17). -/
def takeLow (off who : Nat) (s : State) : Nat × State :=
  (s.lowHeld.get (off * 256 + who) 0, { s with lowHeld := s.lowHeld.del (off * 256 + who) })

/-! ## Flush -/

/-- The FLUSHED completions of the discarded commands: each packet of LENGTH 5 takes the next SEQ (R394). -/
def flushedOf (q qgen : Nat) : Nat → List Packet → Nat × List Completion
  | nx, [] => (nx, [])
  | nx, p :: ps =>
    if p.words.length = 5 then
      let w0 := descWord (descriptorOf p.words) 0
      let r := flushedOf q qgen ((nx + 1) % 16777216) ps
      (r.1, ⟨q, qgen, nx, fld w0 7 0, stFlushed, 0, 0, fld w0 47 16⟩ :: r.2)
    else flushedOf q qgen nx ps

/-- The flush takes effect (R394): every visible packet is discarded, the begun one stays. -/
def flushNow (q : Nat) (s : State) : State :=
  let u := queueOf q s
  let n := (u.visible.map (fun p => p.words.length + 1)).sum
  let owes := u.kind == 0 && u.enable && cqValid q s
  let f := if owes then flushedOf q u.qgen u.next u.visible else (u.next, [])
  let s := setQueue q { u with visible := [], flushPending := false, hardAt := none, next := f.1,
                               owed := u.owed ++ f.2 } s
  let s := if n = 0 then s else count (hqDiscardedOff q) n s
  roomFreed q (writeOwed (queueOf q s).owed.length q s)

/-- A packet has closed: a pending flush takes effect (R394); else the queue's vector may be due. -/
def packetClosed (q : Nat) (s : State) : State :=
  if (queueOf q s).flushPending then flushNow q s else queueIrq q s

/-! ## Push and pop -/

/-- A DATA word from a host producer (R390, R392). -/
def pushData (q : Nat) (w : Word128) (s : State) : State :=
  let u := queueOf q s
  match u.opened with
  | none =>
    if u.words + 2 ≤ u.capacity then setQueue q { u with opened := some ⟨[w], false⟩ } s else hqRefuse q s
  | some o =>
    if u.words + 1 ≤ u.capacity then setQueue q { u with opened := some ⟨o.words ++ [w], o.broken⟩ } s
    else hqRefuse q (setQueue q { u with opened := some ⟨o.words, true⟩ } s)

/-- A LENGTH word from a host producer: it closes the packet (R390). QGEN is checked first. -/
def pushLength (q : Nat) (w : Word128) (s : State) : State :=
  let u := queueOf q s
  let stale := fld w 119 108 != u.qgen
  match u.opened with
  | none => count (if stale then hqStaleOff q else hqDiscardedOff q) 1 s
  | some o =>
    let n := o.words.length
    let s := setQueue q { u with opened := none } s
    if stale then packetClosed q (count (hqStaleOff q) (n + 1) s)
    else if o.broken || fld w 15 0 != n || decide (1024 < n) then
      packetClosed q (count (hqDiscardedOff q) (n + 1) s)
    else
      packetClosed q (updQueue q (fun u => { u with visible := u.visible ++ [⟨o.words, nowNs s⟩] }) s)

/-- A push that the tables let through. -/
def pushWord (who q : Nat) (w : Word128) (s : State) : State :=
  let u := queueOf q s
  if u.kind == 1 && who == q / 128 then hqRefuse q s
  else if tagOf w ≠ tagData ∧ tagOf w ≠ tagLength then hqRefuse q s
  else if !u.enable then hqRefuse q s
  else if tagOf w = tagData then pushData q w s
  else pushLength q w s

/-- HQ_PUSH: the high half of `HQ_PUSH` is written, and the word of the two halves is pushed (R17, R415). -/
def hqPushDo (who q : Nat) (hi : Word64) (s : State) : State :=
  let g := writeGate who (hqOff q 0x20) s
  if g.1 then
    let l := takeLow (hqOff q 0x20) who g.2
    let w : Word128 := BitVec.ofNat 128 (hi.toNat * 2 ^ 64 + l.1)
    let c := accCheck tgQueue q who bitWrite l.2
    if c.1 then pushWord who q w c.2 else hqRefuse q c.2
  else g.2

def execHqPush (who queue : Nat) (hi : BitVec 64) (s : State) : Outcome :=
  onWf (.hqPush who queue hi) (hqPushDo who queue hi s)

/-- What a pop of a record queue returns, and the queue after it (R391). -/
def popQueue (u : Queue) : Word128 × Queue :=
  match u.begun with
  | w :: r => (w, { u with begun := r })
  | [] =>
    match u.visible with
    | [] => (0, u)
    | p :: r => (lengthWord u.qgen p.words.length, { u with visible := r, begun := p.words })

/-- The low half of a pop is returned, the high half latched (R17, R415). -/
def popResult (who q : Nat) (w : Word128) (s : State) : State :=
  { s with readData := w.toNat % 2 ^ 64, latch := s.latch.set (hqOff q 0x30 * 256 + who) (w.toNat / 2 ^ 64) }

def hqPopDo (who q : Nat) (s : State) : State :=
  let off := hqOff q 0x30
  let reach := who == 0 || decide (64 ≤ who) || who == q / 128
  if !reach then { s with readData := allOnes64 }
  else
    let g := readGate who off s
    if !g.1 then { g.2 with readData := allOnes64 }
    else
      let c := accCheck tgQueue q who bitRead g.2
      if !c.1 then popResult who q 0 (hqRefuse q c.2)
      else
        let u := queueOf q c.2
        if u.kind == 0 && who == q / 128 then popResult who q 0 (hqRefuse q c.2)
        else if u.mirror && u.kind == 1 then popResult who q 0 c.2
        else
          let p := popQueue u
          roomFreed q (popResult who q p.1 (setQueue q p.2 c.2))

def execHqPop (who queue : Nat) (s : State) : Outcome := onWf (.hqPop who queue) (hqPopDo who queue s)

/-! ## Configuration -/

/-- Words of the pool in use (HQ_POOL). -/
def poolUsed (s : State) : Nat :=
  ((s.hq.toList.filter (fun c => c.2.enable)).map (fun c => c.2.capacity)).sum

def cfgError (q : Nat) (s : State) : State := updQueue q (fun u => { u with cfgErr := true }) s

/-- An enabled command queue of the same function names record queue `q` as its CQ (R398). -/
def namedAsCq (q : Nat) (s : State) : Bool :=
  s.hq.toList.any (fun c => c.1 / 128 == q / 128 && c.2.enable && c.2.kind == 0 && c.2.cq == q % 128)

/-- A write to `HQ_CFG` of an enabled queue: only clearing ENABLE acts (R396, R398). -/
def cfgEnabled (q : Nat) (v : Word64) (s : State) : State :=
  let u := queueOf q s
  if bitOf v 0 then cfgError q s
  else if decide (0 < u.words) || u.busy.isSome || (u.kind == 1 && namedAsCq q s) then cfgError q s
  else setQueue q { u with enable := false, quarUntil := nowNs s + s.body.quarantineMs * 1000000, quarMs := s.body.quarantineMs } s

/-- The queue starts a new use (R396): its generation rises at each enable after the first since cold reset. -/
def enableQueue (u : Queue) (s : State) : Queue :=
  { u with enable := true, everEnabled := true,
           qgen := if u.everEnabled then (u.qgen + 1) % 4096 else u.qgen,
           qgenAt := if u.everEnabled then some (nowNs s) else u.qgenAt,
           halted := u.kind == 0 && s.body.hold, part := none, next := 0, lastDone := 16777215, doneAhead := [],
           visible := [], begun := [], opened := none, owed := [], flushPending := false, hardAt := none,
           armed := false }

/-- A write to `HQ_CFG` of a disabled queue. -/
def cfgDisabled (q : Nat) (v : Word64) (s : State) : State :=
  let u := queueOf q s
  let depth := fld v 19 16
  let kind := fld v 2 1
  if decide (depth < 4) || decide (16 < depth) || decide (2 ≤ kind) then cfgError q s
  else if bitOf v 0 && decide (nowNs s < u.quarUntil) then s
  else
    let u' : Queue := { u with cq := fld v 31 24, depthLog2 := depth, mirror := bitOf v 3, kind := kind }
    if bitOf v 0 then
      if poolUsed s + 2 ^ depth ≤ 2097152 then setQueue q (enableQueue u' s) s
      else setQueue q { u' with cfgErr := true } s
    else setQueue q u' s

/-- A register of a queue that needs the Control bit of its table (R393): configuration and `HQ_CTRL`. -/
def controlled (who q r : Nat) (f : State → State) (s : State) : State :=
  let g := writeGate who (hqOff q r) s
  if g.1 then
    let c := accCheck tgQueue q who bitControl g.2
    if c.1 then f c.2 else hqRefuse q c.2
  else g.2

/-- A write to `HQ_CFG` that the tables let through. -/
def hqCfgDo (q : Nat) (v : Word64) (s : State) : State :=
  if (queueOf q s).enable then cfgEnabled q v s else cfgDisabled q v s

def execHqCfg (who queue : Nat) (v : BitVec 64) (s : State) : Outcome :=
  onWf (.hqCfg who queue v) (controlled who queue 0 (hqCfgDo queue v) s)

/-- FLUSH in `HQ_CTRL` (R394, R395). -/
def flushDo (q hardMs : Nat) (s : State) : State :=
  let u := queueOf q s
  match u.opened with
  | none => flushNow q s
  | some _ =>
    setQueue q { u with flushPending := true,
                        hardAt := if hardMs = 0 then u.hardAt else some (nowNs s + hardMs * 1000000) } s

def execFlush (who queue hardMs : Nat) (s : State) : Outcome :=
  onWf (.flush who queue hardMs) (controlled who queue 0x10 (flushDo queue hardMs) s)

/-- Two changes of a queue's QGEN lie at least the quarantine period apart (R395). -/
def qgenMayChange (u : Queue) (s : State) : Bool :=
  match u.qgenAt with
  | none => true
  | some t => decide (t + s.body.quarantineMs * 1000000 ≤ nowNs s)

/-- The hard flush (R395): the open packet is discarded, the flush takes effect, and QGEN rises by 1. -/
def hardFlushDo (q : Nat) (s : State) : State :=
  let u := queueOf q s
  match u.opened, u.hardAt with
  | some o, some t =>
    if u.flushPending && decide (t ≤ nowNs s) && qgenMayChange u s then
      let s := count (hqDiscardedOff q) o.words.length (setQueue q { u with opened := none } s)
      let s := flushNow q s
      updQueue q (fun u => { u with qgen := (u.qgen + 1) % 4096, qgenAt := some (nowNs s) }) s
    else s
  | _, _ => s

def execHardFlush (queue : Nat) (s : State) : Outcome := onWf (.hardFlush queue) (hardFlushDo queue s)

/-- ARM in `HQ_CTRL` (R400). -/
def armDo (q : Nat) (s : State) : State := queueIrq q (updQueue q (fun u => { u with armed := true }) s)

def execArm (who queue : Nat) (s : State) : Outcome :=
  onWf (.arm who queue) (controlled who queue 0x10 (armDo queue) s)

/-- CONSUMED is written (R399). -/
def mirrorConsDo (q : Nat) (v : Word64) (s : State) : State :=
  updQueue q (fun u => { u with consumed := v.toNat, ring := u.ring.filter (fun p => decide (v.toNat < p.1)) }) s

def execHqMirrorCons (who queue : Nat) (v : BitVec 64) (s : State) : Outcome :=
  onWf (.hqMirrorCons who queue v) (controlled who queue 0x58 (mirrorConsDo queue v) s)

/-- Write a packet's words to the ring from index `i` on; a packet may wrap at the ring's end (R399). -/
def ringWrite (addr log2 : Nat) : Nat → List Word128 → Mem → Mem
  | _, [], m => m
  | i, w :: ws, m => ringWrite addr log2 (i + 1) ws (m.writeBytes (addr + i % 2 ^ log2 * 16) (bytesOf128 w))

/-- The mirror engine pops one packet into the host ring (R399). -/
def mirrorDrainDo (q : Nat) (s : State) : State :=
  let u := queueOf q s
  match u.visible with
  | [] => s
  | p :: rest =>
    let n := p.words.length + 1
    if u.enable && u.kind == 1 && u.mirror && decide (u.produced + n ≤ u.consumed + 2 ^ u.ringLog2) then
      let m := ringWrite u.ringAddr u.ringLog2 u.produced (lengthWord u.qgen p.words.length :: p.words) s.hostMem
      let m := m.writeBytes u.indexAddr (leBytes 8 (u.produced + n))
      let s := setQueue q { u with visible := rest, produced := u.produced + n,
                                   ring := u.ring ++ [(u.produced + n, nowNs s)] } { s with hostMem := m }
      roomFreed q (queueIrq q s)
    else s

def execMirrorDrain (queue : Nat) (s : State) : Outcome := onWf (.mirrorDrain queue) (mirrorDrainDo queue s)

/-- The oldest packet of an armed queue has waited TIME_US (R400). -/
def execQueueIrqTimeout (queue : Nat) (s : State) : Outcome := onWf (.queueIrqTimeout queue) (queueIrq queue s)

end Sys2Proof.Machine
end

