-- ==== Sys2Proof/Machine/Dispatcher.lean ====
section
/-! DEFINITION. Work items, the dispatcher and the control cores (R407-R413), and the control commands. -/

namespace Sys2Proof.Machine

def dispPostedOff : Nat := 0x100800
def dispDropOff : Nat := 0x100808
def dispCancelledOff : Nat := 0x100810
def dispWatchdogOff : Nat := 0x100818
def dispStaleOff : Nat := 0x100820

/-- Default priorities of types 0x01 to 0x0E (R408). -/
def defaultPrio (t : Nat) : Nat := [0, 4, 2, 3, 5, 1, 1, 3, 6, 1, 1, 0, 0, 1, 0].getD t 0

def typePrio (t : Nat) (s : State) : Nat := s.disp.prio.get t (defaultPrio t)

/-- Items that count toward the ready-list limit: HEARTBEAT does not (R408). -/
def readyCount (s : State) : Nat := (s.disp.ready.filter (fun w => handleIdx w.handle != 0)).length

/-- A post of a whole item at the tail of its level (R409): `none` where no handle is free. -/
def putItem (w : WorkItem) (s : State) : Option (Nat × State) :=
  match lowestFree .work 1 1048576 s with
  | none => none
  | some i =>
    let h := handleFor .work i s
    let s := allocId .work i s
    let s := { s with disp := { s.disp with ready := s.disp.ready ++ [{ w with handle := h, posted := cmpNow s }],
                                            ended := s.disp.ended.del i } }
    some (h, count dispPostedOff 1 s)

/-- An engine's post (R409) and whether the item was posted: refused, it is dropped and counted, FULL is set, and PF0 vector 7 is
raised. -/
def enginePostTell (type poster forFn param : Nat) (w2 w3 : Word128) (s : State) : Bool × State :=
  let w : WorkItem := { param := param, forFn := forFn, poster := poster, prio := typePrio type s, type := type,
                        w2 := w2, w3 := w3 }
  let dropped := fun (s : State) =>
    pfVector 7 (count dispDropOff 1 { s with disp := { s.disp with evFull := true } })
  if 262144 ≤ readyCount s then (false, dropped s)
  else match putItem w s with
    | none => (false, dropped s)
    | some r => (true, r.2)

def enginePost (type poster forFn param : Nat) (w2 w3 : Word128) (s : State) : State :=
  (enginePostTell type poster forFn param w2 w3 s).2

/-! ## Commands -/

/-- NOP (R413). -/
def nopBody (_ : Req) (s : State) : Answer := answer s (okWith 0)
def execNop (src : CmdSrc) (s : State) : Outcome := onWf (.nop src) (command 0x00 nopBody src s)

/-- DISP_POST (R409, R413). -/
def dispPostBody (r : Req) (s : State) : Answer :=
  let type := df r.w1 7 0
  let prio := df r.w1 11 8
  if type < 0x20 ∨ 0x3F < type ∨ prio < 4 then answer s (refuse stNotStarted 0x01)
  else if 262144 ≤ readyCount s then answer s ⟨stFull, 0, 0⟩
  else
    match putItem { forFn := r.fn, poster := r.master, host := true, prio := prio, type := type, w2 := r.w2, w3 := r.w3 } s with
    | none => answer s ⟨stCapacity, 0, 0⟩
    | some p => answer p.2 (okWith p.1)

def execDispPost (src : CmdSrc) (s : State) : Outcome := onWf (.dispPost src) (command 0x01 dispPostBody src s)

/-- The function that posted a HOST item, PF0 and firmware may cancel (R411). -/
def mayCancel (r : Req) (w : WorkItem) : Bool := r.owner || (w.host && w.poster == r.master)

/-- The work item that runs under a handle. -/
def runningItem (h : Nat) (s : State) : Option WorkItem :=
  (s.disp.cores.toList.filterMap (fun c => c.2.running)).find? (fun w => w.handle == h)

/-- DISP_CANCEL (R411). -/
def dispCancelBody (r : Req) (s : State) : Answer :=
  let h := handleIn (df r.w1 63 0)
  let i := handleIdx h
  let gen := (identOf .work i s).gen
  let notOwned := refuse stRefused 0x02
  if handleKind h ≠ 5 ∨ 1048576 ≤ i then answer s (refuse stRefused 0)
  else if i = 0 then answer s notOwned
  else
    match s.disp.ended.find? i with
    | some w =>
      if w.handle = h then answer s (if mayCancel r w then ⟨stTooLate, 0, 0⟩ else notOwned)
      else if handleGen h ≠ gen then answer (count dispStaleOff 1 s) ⟨stStale, 0, 0⟩
      else answer s (refuse stRefused 0)
    | none =>
      if handleGen h ≠ gen then answer (count dispStaleOff 1 s) ⟨stStale, 0, 0⟩
      else
        match s.disp.ready.find? (fun w => w.handle == h) with
        | some w =>
          if mayCancel r w then
            let s := { s with disp := { s.disp with ready := s.disp.ready.filter (fun w => w.handle != h) } }
            answer (count dispCancelledOff 1 (releaseId .work i s)) ⟨stCancelled, 1, 0⟩
          else answer s notOwned
        | none =>
          match runningItem h s with
          | some w => answer s (if mayCancel r w then ⟨stTooLate, 0, 0⟩ else notOwned)
          | none => answer s (refuse stRefused 0)

def execDispCancel (src : CmdSrc) (s : State) : Outcome := onWf (.dispCancel src) (command 0x02 dispCancelBody src s)

/-- A descriptor whose opcode is reserved or not defined: checks 1 and 2 of R402 answer it (R15). -/
def execUndefinedOpcode (src : CmdSrc) (s : State) : Outcome :=
  onWf (.undefinedOpcode src)
    (runCmd (fun op => !opcodeDefined op) (fun _ s => answer s (refuse stRefused 0xF1)) src s)

/-! ## Cores -/

def coreOf (c : Nat) (s : State) : Core := s.disp.cores.get c {}
def setCore (c : Nat) (v : Core) (s : State) : State :=
  { s with disp := { s.disp with cores := s.disp.cores.set c v } }

/-- The head item of the most urgent level that is not empty (R410). -/
def headItem : List WorkItem → Option WorkItem
  | [] => none
  | w :: r => match headItem r with
    | none => some w
    | some v => if v.prio < w.prio then some v else some w

/-- The control cores run firmware: the module is powered and booted, and not in Safe Hold without firmware (R487). -/
def coresRun (s : State) : Bool := s.body.booted && s.body.firstCause != 5

/-- WORK_ITEM_DISPATCH (R410): a free core takes the head item. -/
def workDispatchDo (c : Nat) (s : State) : State :=
  let k := coreOf c s
  match k.running, headItem s.disp.ready with
  | none, some w =>
    if coresRun s then
      let s := { s with disp := { s.disp with ready := s.disp.ready.erase w } }
      setCore c ⟨some w, nowNs s, w.handle, cmpNow s⟩ s
    else s
  | _, _ => s

def execWorkItemDispatch (core : Nat) (s : State) : Outcome :=
  onWf (.workItemDispatch core) (workDispatchDo core s)

/-- An item has ended: a HEARTBEAT item completes, which R444 watches, and the next is due 20 ms later (R408); any other
releases its handle. -/
def itemEnded (w : WorkItem) (s : State) : State :=
  if handleIdx w.handle = 0 then
    { s with disp := { s.disp with hbDue := some (nowNs s + 20000000), hbWatch := some (nowNs s) } }
  else
    let s := releaseId .work (handleIdx w.handle) s
    { s with disp := { s.disp with ended := s.disp.ended.set (handleIdx w.handle) w } }

/-- WORK_ITEM_END (R410): the core has run its item to its end. -/
def workItemEndDo (c : Nat) (s : State) : State :=
  let k := coreOf c s
  match k.running with
  | none => s
  | some w => itemEnded w (setCore c { k with running := none } s)

def execWorkItemEnd (core : Nat) (s : State) : Outcome := onWf (.workItemEnd core) (workItemEndDo core s)

/-- WATCHDOG (R412): an item that has run longer than WATCHDOG_MS is stopped with its core and ends with TIMEOUT. A
HEARTBEAT item stopped so has not run to its end, so no completion is noted and no further one falls due (R408). -/
def watchdogDo (c : Nat) (s : State) : State :=
  let k := coreOf c s
  match k.running with
  | none => s
  | some w =>
    if k.startNs + s.disp.watchdogMs * 1000000 < nowNs s then
      let s := setCore c { k with running := none } s
      let s := if handleIdx w.handle = 0 then s else itemEnded w s
      let s := record 0x0D01 [(1, c), (8, w.handle), (1, w.type)] s
      let s := count dispWatchdogOff 1 { s with disp := { s.disp with evWatchdog := true } }
      endTrial (pfVector 7 s)
    else s

def execWatchdog (core : Nat) (s : State) : Outcome := onWf (.watchdog core) (watchdogDo core s)

/-- Post the HEARTBEAT item, KIND 0x05, INDEX 0, GEN 0 (R408); the first post starts the watch of R444. -/
def postHeartbeat (s : State) : State :=
  let w : WorkItem := { handle := handleOf .work 0 0, posted := cmpNow s, prio := typePrio 0x0E s, type := 0x0E,
                        w2 := BitVec.ofNat 128 (s.disp.hbCount % 2 ^ 32) }
  count dispPostedOff 1
    { s with disp := { s.disp with ready := s.disp.ready ++ [w], hbCount := s.disp.hbCount + 1, hbDue := none,
                                   hbWatch := some (s.disp.hbWatch.getD (nowNs s)) } }

/-- HEARTBEAT: 20 ms after the previous item ran to its end (R408). -/
def heartbeatDo (s : State) : State :=
  match s.disp.hbDue with
  | none => s
  | some t => if t ≤ nowNs s then postHeartbeat s else s

def execHeartbeat (s : State) : Outcome := onWf .heartbeat (heartbeatDo s)

/-- CORES_LOST: 100 ms without a HEARTBEAT completed is a fatal error (R444). The watch starts again with the next
completion or the next post after a reset. -/
def coresLostDo (s : State) : State :=
  match s.disp.hbWatch with
  | none => s
  | some t =>
    if t + 100000000 ≤ nowNs s then
      fatalError 3 { s with disp := { s.disp with hbWatch := none } }
    else s

def execCoresLost (s : State) : Outcome := onWf .coresLost (coresLostDo s)

/-- FATAL_ERROR: a fatal declared by firmware, cause 2 (R444, R447). Entry to Safe Hold and the loss of the cores
declare theirs in their own steps. -/
def execFatalError (s : State) : Outcome := onWf .fatalError (fatalError 2 s)

end Sys2Proof.Machine
end

