-- ==== Sys2Proof/Machine/LaneBase.lean ====
section
/-! DEFINITION. Lanes and ports: access to their state, the registers' offsets, changes of STATE and what they report (R325, R330,
R349, R352). -/

namespace Sys2Proof.Machine

def laneOf (l : Nat) (s : State) : Lane := s.lanes.lanes.get l {}
def setLane (l : Nat) (v : Lane) (s : State) : State := { s with lanes := { s.lanes with lanes := s.lanes.lanes.set l v } }
def updLane (l : Nat) (f : Lane → Lane) (s : State) : State := setLane l (f (laneOf l s)) s
def groupCfg (g : Nat) (s : State) : LaneGroup := s.lanes.groups.get g {}
def setGroupCfg (g : Nat) (v : LaneGroup) (s : State) : State :=
  { s with lanes := { s.lanes with groups := s.lanes.groups.set g v } }
def laneGroup (l : Nat) (s : State) : LaneGroup := groupCfg (l / 8) s

def isEth (l : Nat) (s : State) : Bool := (laneGroup l s).personality == 1
def isTremund (l : Nat) (s : State) : Bool := (laneGroup l s).personality == 2

/-! ## Ports (R325) -/

def portWidth (l : Nat) (s : State) : Nat := 2 ^ (laneGroup l s).width
/-- The first lane of the port that holds a lane. -/
def portOf (l : Nat) (s : State) : Nat := l / portWidth l s * portWidth l s
def portLanes (p : Nat) (s : State) : List Nat := (List.range (portWidth p s)).map (p + ·)
/-- `p` is the first lane of a configured port. -/
def isPort (p : Nat) (s : State) : Bool :=
  decide (p < 128) && (laneGroup p s).personality != 0 && portOf p s == p

/-- Owner-view offsets of the LANE registers (R352). -/
def laneOff (l r : Nat) : Nat := 0x01001000 + l / 32 * 0x01000000 + l % 32 * 0x100 + r
def laneGroupOff (g r : Nat) : Nat := 0x01000000 + g / 4 * 0x01000000 + g % 4 * 0x40 + r
/-- Lane counter c, as R352 numbers them: 0 TX_FRAMES / TM_GOOD ... 7 TM_DOWN_DROP. -/
def laneCtr (l c : Nat) : Nat := laneOff l (0x40 + c * 8)

/-- A change of STATE sets the lane's bit of `LANE_EVENT` and raises PF0 vector 4 (R352, R414). -/
def setLaneState (l st : Nat) (s : State) : State :=
  if (laneOf l s).state = st then s
  else
    let s := updLane l (fun v => { v with state := st }) s
    pfVector 4 { s with lanes := { s.lanes with changed := s.lanes.changed.upd (l / 32) 0 (· ||| 2 ^ (l % 32)) } }

def laneUp (l : Nat) (s : State) : Bool := (laneOf l s).state == 3

def upLanes (p : Nat) (s : State) : List Nat := (portLanes p s).filter (fun l => laneUp l s)

/-- UP lanes of a port by position, one bit each. -/
def upMask (p : Nat) (s : State) : Nat := ((upLanes p s).map (fun l => 2 ^ (l - p))).sum

/-- A Tremund port has lost or regained a lane (R349). -/
def tremundChanged (p : Nat) (s : State) : State :=
  let m := upMask p s
  if m = 0 then enginePost 0x0B 208 0 0 (BitVec.ofNat 128 p) 0 s
  else if (upLanes p s).length < portWidth p s then
    enginePost 0x0A 208 0 0 (pack128 [(0, 7, p), (16, 8, m)]) 0 s
  else s

/-- An Ethernet port changes between UP and DOWN (R330). -/
def ethChanged (p : Nat) (up : Bool) (s : State) : State :=
  record 0x0A01 [(1, p), (1, b2n up)] (enginePost 0x09 208 0 0 (pack128 [(0, 7, p), (8, 1, b2n up)]) 0 s)

end Sys2Proof.Machine
end

