-- ==== Sys2Proof/Machine/StackBase.lean ====
section
/-! DEFINITION. The stacks: access to their state, addresses and offsets, and park entry, also the one that ends a Safe Hold's entry
(R367, R380, R387, R445). -/

namespace Sys2Proof.Machine

def stackOf (k : Nat) (s : State) : Stack := s.dramStacks.get k {}
def setStack (k : Nat) (v : Stack) (s : State) : State := { s with dramStacks := s.dramStacks.set k v }
def updStack (k : Nat) (f : Stack → Stack) (s : State) : State := setStack k (f (stackOf k s)) s

/-- Base of the MEM registers of stack k (R387). -/
def memBase (k : Nat) : Nat := 0x01700000 + k / 2 * 0x01000000 + k % 2 * 0x1000
def memOff (k r : Nat) : Nat := memBase k + r

/-- Bytes of a stack and of a region (R367). -/
def stackBytes : Nat := 36 * 2 ^ 30
def regionBytes : Nat := 9437184
def regionOf (k a : Nat) : Nat := k * 4096 + a / regionBytes
def segmentOf (a : Nat) : Nat := a / regionBytes / 512

/-- Address of a byte of a stack in the model's one DRAM memory. -/
def dramAt (k a : Nat) : Nat := k * 2 ^ 36 + a

/-- Segments that KEEP does not keep. -/
def notKept (u : Stack) : Nat := 255 - u.keep % 256

/-- Park entry with empty queues: only the segments in KEEP are refreshed from here on (R380). -/
def parkNow (k : Nat) (s : State) : State :=
  updStack k (fun u => if u.state = 1 ∨ u.state = 2 then
      { u with state := 3, lost := u.lost ||| notKept u, gone := if s.body.hold then u.gone ||| notKept u else u.gone } else u) s

/-- Park every stack once the dump of Safe Hold is written (R380, R487). -/
def parkAll (s : State) : State := (List.range 8).foldl (fun s k => parkNow k s) s

/-- Step 5 of a dump: in Safe Hold the stacks park once nothing more is to be written (R445, R487). -/
def settlePark (s : State) : State :=
  if s.body.parkDue && s.dump.dramState != 1 && s.dump.flashState != 1 then
    parkAll { s with body := { s.body with parkDue := false } }
  else s

end Sys2Proof.Machine
end

