-- ==== Sys2Proof/Machine/SafeHold.lean ====
section
/-! DEFINITION. Entry to Safe Hold (R486, R487). -/

namespace Sys2Proof.Machine

/-- A lane's transmitter goes to electrical idle: a powered lane that is neither shorted nor under test reads DOWN, and the blocks
that have not been acknowledged are dropped and counted (R349). -/
def quietLane (l : Nat) (s : State) : State :=
  let v := laneOf l s
  if (laneGroup l s).personality = 0 then s
  else
    let n := v.tx.buffer.length
    let s := if n = 0 then s else count (laneCtr l 3) n s
    let s := setLane l { v with tx := {}, rx := {}, step := 1, attempts := 0, waitUntil := none } s
    if v.state = 5 ∨ v.state = 6 then s else setLaneState l 4 s

/-- What the ports that leave service report (R330, R349). -/
def portLost (s : State) (p : Nat) : State := if isEth p s then ethChanged p false s else tremundChanged p s

/-- The ports in service. -/
def servingPorts (s : State) : List Nat := (List.range 128).filter (fun p => isPort p s && !(upLanes p s).isEmpty)

/-- Step 1 of R487: lanes at electrical idle, AES3 outputs at 0 V, tile groups stopped and parked at 0.55 V. -/
def stopOutputs (s : State) : State :=
  let ports := servingPorts s
  let s := (List.range 128).foldl (fun s l => quietLane l s) s
  let s := { s with aes := { s.aes with outs := s.aes.outs.mapVals (fun _ v => { v with state := 0 }) } }
  let s := { s with power := { s.power with
      islands := (List.range 64).foldl (fun t i => t.upd i {} (fun v => { v with voltMv := 550 })) s.power.islands } }
  ports.foldl portLost s

/-- Enter Safe Hold for a cause, or add a cause to one in force (R486, R487). For cause 5, NO_FIRMWARE, no control core
runs, no dump is written and only the bank rejections are recorded. -/
def enterSafeHold (cause : Nat) (s : State) : State :=
  let causes := s.body.causes ||| 2 ^ (cause - 1)
  if s.body.hold then { s with body := { s.body with causes := causes } }
  else
    let s := { s with body := { s.body with hold := true, causes := causes, firstCause := cause, parkDue := cause != 5 } }
    let s := pfVector 0 (stopOutputs s)
    if cause = 5 then
      { haltQueues s with evr := { s.evr with phase := 3 } }
    else settlePark (fatalError 1 (record 0x1002 [(1, cause), (1, causes)] s))

end Sys2Proof.Machine
end

