-- ==== Sys2Proof/Machine/Memory.lean ====
section
/-! DEFINITION. The stacked memory: DRAM_REQUEST, RH_WINDOW_START, SELF_REFRESH, RUN, PARK, MEM_HASH (R367-R380).
A request is queued and served in one step, so the queues of R372 are empty between steps (log entry 9). -/

namespace Sys2Proof.Machine

/-! ## Hashing (R369, R370) -/

def parityOf (w : Nat) : Nat → Nat
  | 0 => 0
  | n + 1 => (w % 2 + parityOf (w / 2) n) % 2

def hashPcMask (u : Stack) (j : Nat) : Nat := u.hashPc.get j (2 ^ (10 + j))
def hashBankMask (u : Stack) (i : Nat) : Nat := u.hashBank.get i (2 ^ (16 + i))

def hashBits (mask : Nat → Nat) (a : Nat) : Nat :=
  ((List.range 6).map (fun j => parityOf (a &&& mask j) 36 * 2 ^ j)).sum

/-- Pseudo-channel × 64 + bank (R370). -/
def bankOf (u : Stack) (a : Nat) : Nat := hashBits (hashPcMask u) a * 64 + hashBits (hashBankMask u) a

/-- Row A[35:22] (R369). -/
def rowOf (a : Nat) : Nat := a / 2 ^ 22 % 2 ^ 14

/-- A mask is valid: its home bit, other bits only in A[9:6] or A[35:22] (R370). -/
def maskValid (home : Nat) (v : Nat) : Bool :=
  decide (v < 2 ^ 36) && v.testBit home
    && (v &&& (2 ^ 36 - 1 - 2 ^ home - 0x3C0 - (2 ^ 36 - 2 ^ 22)) == 0)

/-! ## Activations (R373, R374) -/

/-- Masters 200 to 207 are never throttled. -/
def exempt (m : Nat) : Bool := decide (200 ≤ m) && decide (m < 208)

/-- A throttled master whose next activation in the bank may not come yet waits at its gap (R374). -/
def mustWait (u : Stack) (bank m now : Nat) : Bool :=
  u.throttles.any (fun t => t.bank == bank && t.master == m && decide (u.window ≤ t.lastWindow)
    && decide (now < t.lastAct + u.gapNs))

/-- The counter's rule on an activation by `m` (R373). -/
def countAct (c : ActCount) (m : Nat) : ActCount :=
  let c := { c with count := c.count + 1 }
  if m = c.cand then { c with weight := c.weight + 1 }
  else if c.weight = 0 then { c with cand := m, weight := 1 }
  else { c with weight := c.weight - 1 }

/-- A crossing of the threshold: the refresh management command is issued and counted, and the candidate throttled to
the end of the window that follows; the first throttle of a master in a window is recorded (R373, R374). -/
def crossing (k bank group cand : Nat) (s : State) : State :=
  let s := count (memOff k 0x130) 1 s
  let u := stackOf k s
  let first := !u.recorded.contains (u.window, cand)
  let s := setStack k { u with
      recorded := if first then (u.window, cand) :: u.recorded else u.recorded,
      throttles := if exempt cand then u.throttles
                   else ⟨bank, cand, u.window + 1, nowNs s⟩
                        :: u.throttles.filter (fun t => t.bank != bank || t.master != cand) } s
  if first then
    let s := if exempt cand then s else count (memOff k 0x128) 1 s
    memRecord cand 0x0C01 [(1, k), (2, bank), (1, group), (1, cand)] s
  else s

/-- Open the row that a request needs, counting the activation when another row is open. -/
def activate (k a m : Nat) (s : State) : State :=
  let u := stackOf k s
  let bank := bankOf u a
  let row := rowOf a
  if u.openRow.get bank 65535 = row then s
  else
    let group := row / 64
    let c := countAct (u.acts.get (bank * 256 + group) {}) m
    let s := setStack k { u with
        openRow := u.openRow.set bank row, acts := u.acts.set (bank * 256 + group) c,
        throttles := u.throttles.map (fun t => if t.bank = bank ∧ t.master = m then { t with lastAct := nowNs s } else t) } s
    if c.count % u.thresh = 0 then crossing k bank group c.cand s else s

/-! ## Retirement and failure (R375-R377) -/

/-- Stacks that are FAILED. -/
def failedStacks (s : State) : Nat := (s.dramStacks.toList.filter (fun c => c.2.state == 5)).length

/-- A stack becomes FAILED, and a second one brings Safe Hold, cause TWO_STACKS (R377, R486). -/
def failStack (k : Nat) (s : State) : State :=
  if (stackOf k s).state = 5 then s
  else
    let s := updStack k (fun u => { u with state := 5 }) s
    if 2 ≤ failedStacks s then enterSafeHold 3 s else s

/-- A region becomes FAILED: firmware is told, and the 32nd fails the stack (R377). -/
def failRegion (k idx : Nat) (s : State) : State :=
  let s := updStack k (fun u =>
    { u with failedRegions := if u.failedRegions.contains idx then u.failedRegions else idx :: u.failedRegions }) s
  let s := enginePost 0x0C 208 0 0 (BitVec.ofNat 128 idx) 0 s
  if 32 ≤ (stackOf k s).failedRegions.length then failStack k s else s

/-- A persistent error on the burst at `a`: its row goes to a spare, a burst that could not be read is poisoned; with no
spare left the region fails (R376, R377). -/
def retireRow (k a : Nat) (reading : Bool) (s : State) : State :=
  let u := stackOf k s
  let bank := bankOf u a
  let row := rowOf a
  let used := u.sparesUsed.get bank 0
  if used < 32 then
    let s := setStack k { u with sparesUsed := u.sparesUsed.set bank (used + 1), retired := u.retired ++ [(bank, row)],
                                 poison := if reading then a :: u.poison.erase a else u.poison } s
    memRecord 208 0x0C02 [(1, k), (2, bank), (2, row), (1, b2n reading)] (count (memOff k 0x118) 1 s)
  else failRegion k (regionOf k a) s

/-- Spare rows left in the bank that has fewest (SPARES_MIN). -/
def sparesMin (u : Stack) : Nat := 32 - (u.sparesUsed.toList.map (·.2)).foldl max 0

/-! ## Power states (R379, R380) -/

/-- The bytes of the segments in `mask` read 0 (R380). -/
def zeroSegments (k mask : Nat) (m : Mem) : Mem :=
  m.filter (fun c => !(c.1 / 2 ^ 36 == k && mask.testBit (segmentOf (c.1 % 2 ^ 36))))

/-- A request wakes the stack: each segment that was not kept is filled with zeros first, and a record names them. -/
def wake (k : Nat) (s : State) : State :=
  let u := stackOf k s
  if u.state = 2 ∨ u.state = 3 then
    let mask := u.lost
    let s := setStack k { u with state := 1, lost := 0, openRow := Tab.empty,
                                 poison := u.poison.filter (fun a => !mask.testBit (segmentOf a)) } s
    if mask = 0 then s
    else memRecord 208 0x0C03 [(1, k), (1, mask)] { s with dram := zeroSegments k mask s.dram }
  else s

/-! ## Requests -/

/-- A read that returns poison or is refused: all-ones data (R377, R378, R385). -/
def lostBurst (s : State) : State := { s with burst := List.replicate 64 0xFF, burstPoison := true }

/-- The region of `a` or its whole stack is FAILED. -/
def regionFailed (k a : Nat) (s : State) : Bool :=
  let u := stackOf k s
  u.state == 5 || u.failedRegions.contains (regionOf k a)

/-- Serve a burst that the channel has carried (R376, R378). -/
def serveBurst (k a : Nat) (write : Option (List Byte)) (s : State) : State :=
  let u := stackOf k s
  match write with
  | none =>
    if regionFailed k a s || u.poison.contains a then lostBurst (count (memOff k 0x120) 1 s)
    else { s with burst := Mem.readBytes s.dram (dramAt k a) 64, burstPoison := false }
  | some bs =>
    if regionFailed k a s then count (memOff k 0x138) 1 s
    else { setStack k { u with poison := u.poison.erase a } s with dram := Mem.writeBytes s.dram (dramAt k a) bs }

/-- Carry the burst over the channel: `fails` of its transfers fail their CRC, the fifth in a row is a persistent error
(R375). -/
def carryBurst (k a fails : Nat) (reading : Bool) (s : State) : State :=
  let s := if fails = 0 then s else count (memOff k 0x110) (min fails 4) (count (memOff k 0x108) (min fails 5) s)
  if fails ≤ 4 then count (memOff k 0x100) 1 s else retireRow k a reading s

/-- After a request a stack with PARK set parks again (R380). -/
def repark (k : Nat) (s : State) : State := if (stackOf k s).park then parkNow k s else s

/-- A request that the region's table lets through. -/
def requestDo (m k a : Nat) (write : Option (List Byte)) (fails : Nat) (s : State) : State :=
  let st := (stackOf k s).state
  if st = 0 then s
  else if regionFailed k a s then serveBurst k a write s
  else if mustWait (stackOf k s) (bankOf (stackOf k s) a) m (nowNs s)
      && (stackOf k s).openRow.get (bankOf (stackOf k s) a) 65535 != rowOf a then s
  else
    let s := activate k a m (wake k s)
    let s := serveBurst k a write (carryBurst k a fails write.isNone s)
    repark k (updStack k (fun u => { u with lastRequest := nowNs s }) s)

/-- DRAM_REQUEST: checked against the region's table, then served (R367, R372, R382, R385). -/
def dramRequestDo (m k a : Nat) (write : Option (List Byte)) (fails : Nat) (s : State) : State :=
  if stackBytes ≤ a then (if write.isNone then lostBurst s else s)
  else
    let c := accCheck tgRegion (regionOf k a) m (if write.isNone then bitRead else bitWrite) s
    if c.1 then requestDo m k a write fails c.2
    else if write.isNone then lostBurst c.2 else c.2

/-- A new 32 ms window restarts every activation count (R373); throttles of the window before end (R374). -/
def rhWindowDo (k : Nat) (s : State) : State :=
  let u := stackOf k s
  if u.windowStart + 32000000 ≤ nowNs s then
    setStack k { u with window := u.window + 1, windowStart := nowNs s, acts := Tab.empty, recorded := [],
                        throttles := u.throttles.filter (fun t => decide (u.window + 1 ≤ t.lastWindow)) } s
  else s

def execRhWindowStart (stack : Nat) (s : State) : Outcome := onWf (.rhWindowStart stack) (rhWindowDo stack s)

/-- A stack with no request for 1 ms enters self-refresh (R379). -/
def selfRefreshDo (k : Nat) (s : State) : State :=
  let u := stackOf k s
  if u.state = 1 ∧ u.lastRequest + 1000000 ≤ nowNs s then setStack k { u with state := 2 } s else s

def execSelfRefresh (stack : Nat) (s : State) : Outcome := onWf (.selfRefresh stack) (selfRefreshDo stack s)

/-- A write that passes the page's table acts on its block. -/
def gated (who off : Nat) (f : State → State) (s : State) : State :=
  let g := writeGate who off s
  if g.1 then f g.2 else g.2

/-- RUN in `MEM_STACK_CTRL`: acts in INIT only (R371, R387). -/
def runDo (k : Nat) (s : State) : State :=
  if (stackOf k s).state = 0 then repark k (updStack k (fun u => { u with state := 1, lastRequest := nowNs s }) s) else s

def execMemRun (who stack : Nat) (s : State) : Outcome :=
  onWf (.memRun who stack) (gated who (memOff stack 8) (runDo stack) s)

/-- PARK in `MEM_STACK_CTRL` (R380). -/
def parkDo (k : Nat) (on : Bool) (s : State) : State :=
  if (stackOf k s).park = on then s
  else
    let s := updStack k (fun u => { u with park := on }) s
    if on then parkNow k s else s

def execMemPark (who stack : Nat) (on : Bool) (s : State) : Outcome :=
  onWf (.memPark who stack on) (gated who (memOff stack 8) (parkDo stack on) s)

/-- A hash mask (R370, R371): accepted in INIT when valid; otherwise ignored, and CFG_ERR is set. -/
def memHashDo (k : Nat) (bank : Bool) (j : Nat) (v : Word64) (s : State) : State :=
  updStack k (fun u =>
    let home := if bank then 16 + j else 10 + j
    let m := fld v 35 0
    if u.state = 0 && maskValid home m then
      if bank then { u with hashBank := u.hashBank.set j m } else { u with hashPc := u.hashPc.set j m }
    else { u with cfgErr := true }) s

def execMemHash (who stack : Nat) (bank : Bool) (index : Nat) (v : BitVec 64) (s : State) : Outcome :=
  onWf (.memHash who stack bank index v)
    (gated who (memOff stack ((if bank then 0x70 else 0x40) + index * 8)) (memHashDo stack bank index v) s)

end Sys2Proof.Machine
end

