-- ==== Sys2Proof/Machine/Time.lean ====
section
/-! DEFINITION. The time base: its advance, slew, steps, the timing connector and PTP binding (R353-R366). -/

namespace Sys2Proof.Machine

def timePtpDropOff : Nat := 0x600050

/-- Change the domain's STATE; every change writes a record (R428). -/
def domSetState (st reason : Nat) (s : State) : State :=
  if s.dom.state = st then { s with dom := { s.dom with reason := reason } }
  else
    let old := s.dom.state
    let s := { s with dom := { s.dom with state := st, reason := reason } }
    record 0x0E01 [(1, old), (1, st), (1, reason), (1, s.dom.coordIndex)] s

/-! ## The advance (R354, R355) -/

/-- The slew bound in ppb. -/
def slewBound (t : TimeBase) : Int := t.slewMaxPpm * 1000
/-- f_ppb, the frequency part in use (R355). -/
def freqPart (t : TimeBase) : Int := clampInt t.freqPpb (-(slewBound t)) (slewBound t)
def signOf (v : Int) : Int := if v < 0 then -1 else if v = 0 then 0 else 1
/-- r_ppb, the rate in force (R355). -/
def ratePpb (t : TimeBase) : Int :=
  if t.rem = 0 then freqPart t
  else clampInt (freqPart t + signOf t.rem * slewBound t) (-(slewBound t)) (slewBound t)

/-- REM_NS as the register shows it: whole ns, cut toward 0. -/
def remNs (t : TimeBase) : Int := Int.tdiv t.rem 10000000000

/-- The correction of one cycle, in units of 10^-10 ns: 6.4 ns × (r − f) × 10^-9. -/
def cycleCorr (t : TimeBase) : Int := 64 * (ratePpb t - freqPart t)

/-- The next cycle is the last before REM_NS reaches 0 (R355). -/
def slewEnds (t : TimeBase) : Bool := t.rem != 0 && decide (t.rem.natAbs ≤ (cycleCorr t).natAbs)

/-- The correction applied in the next cycle: reduced in the last one so that REM_NS ends at exactly 0. -/
def appliedCorr (t : TimeBase) : Int := if slewEnds t then t.rem else cycleCorr t

/-- The increment of a cycle in units of 2^-48 ns, rounded to the nearest unit (R354). -/
def increment (t : TimeBase) : Nat :=
  let num : Int := (64 * (1000000000 + freqPart t) + appliedCorr t) * 2 ^ 48
  ((num + 5000000000) / 10000000000).toNat

/-- Add units of 2^-48 ns to the value, with the carries of R353. -/
def addSub (n : Nat) (t : TimeBase) : TimeBase :=
  let sub := t.sub + n
  let ns := t.ns + sub / 2 ^ 48
  { t with sub := sub % 2 ^ 48, ns := ns % 1000000000, sec := (t.sec + ns / 1000000000) % 2 ^ 48 }

/-- Set a bit of `TIME_EVENT`, which raises PF0 vector 5 (R366). -/
def timeEvent (f : TimeBase → TimeBase) (s : State) : State := pfVector 5 { s with time := f s.time }

/-- The pulse on 1PPS out ends PPS_WIDTH_MS after its rise (R364). -/
def ppsFall (s : State) : State :=
  match s.time.ppsHigh with
  | none => s
  | some d => if cmpReached (cmpNow s) d then emit (.pps false) { s with time := { s.time with ppsHigh := none } } else s

/-- One resonator cycle: elapsed time and the time base advance, and REM_NS falls (R354, R355). -/
def tick (s : State) : State :=
  let t := s.time
  let ends := slewEnds t
  let t' := { addSub (increment t) t with rem := t.rem - appliedCorr t }
  let s := { s with res := s.res + 1, time := t' }
  let s := if ends then timeEvent (fun t => { t with evSlewDone := true }) s else s
  ppsFall s

/-- SLEW_DONE: the cycle at whose end REM_NS is 0; on any other cycle it has not happened. -/
def execSlewDone (s : State) : Outcome := onWf .slewDone (if slewEnds s.time then tick s else s)

/-! ## TIME_ADJUST (R356, R357, R365) -/

/-- First point of a grid at or after now. -/
def gridNext (now start period : Nat) : Nat := cmpAdd now ((cmpDiff start now) % (max period 1 : Nat)).toNat

/-- Mix blocks and gate-list cycles resume at their first point at or after the new time (R357); output frames do so where
their boundaries are met. -/
def resumeGrids (s : State) : State :=
  let now := cmpNow s
  let eg := s.media.egress.mapVals (fun _ e =>
    { e with restart := e.gate.map (fun g => gridNext now g.start (g.entries.map (·.1)).sum) })
  { s with
    media := { s.media with egress := eg },
    audio := { s.audio with last := if now % 1000000 = 0 then none else some (now / 1000000) } }

/-- A forced step has taken effect: STEPPED, the TIME_STEP record, and the end of ISOLATED_TIME (R356, R426). -/
def stepTo (sec ns sub : Nat) (s : State) : State :=
  let o := s.time
  let s := timeEvent (fun t => { t with sec := sec, ns := ns, sub := sub, rem := 0, evStepped := true, steps := t.steps + 1 }) s
  let s := resumeGrids { s with time := { s.time with stepCmp := cmpNow s, stepRes := some s.res } }
  let s := record 2 [(8, o.sec), (4, o.ns), (8, sec), (4, ns), (8, cmpNow s)] s
  if s.dom.state = 4 then
    let s := domSetState 1 0 s
    { s with dom := { s.dom with step := 4, stepAt := nowNs s, goodSince := none, badSince := none } }
  else s

/-- OFFSET as a signed number. -/
def offsetOf (w : Word128) : Int := ofTwos 64 (fld w 63 0)

def timeAdjustBody (r : Req) (s : State) : Answer :=
  if !r.owner then answer s (refuse stRefused 0)
  else
    let mode := df r.w1 1 0
    let off := offsetOf r.w2
    if mode = 0 then
      if off.natAbs ≤ s.time.jumpUs * 1000 then
        answer { s with time := { s.time with rem := off * 10000000000 } } (okWith 0)
      else
        let s := timeEvent (fun t => { t with evJump := true }) s
        answer (record 0x0B01 [(8, toTwos 64 off), (4, s.time.jumpUs)] s) (refuse stNotStarted 0x02)
    else if mode = 1 then
      let total : Int := ((s.time.sec * 1000000000 + s.time.ns : Nat) : Int) + off
      let v := (total % ((2 ^ 48 * 1000000000 : Nat) : Int)).toNat
      answer (stepTo (v / 1000000000) (v % 1000000000) s.time.sub s) (okWith 0)
    else if mode = 2 then
      let ns := df r.w2 77 48
      if 1000000000 ≤ ns then answer s (refuse stNotStarted 0x01)
      else
        let s := { s with time := { s.time with isSet := true } }
        answer (stepTo (df r.w2 47 0) ns (df r.w2 93 78 * 2 ^ 32) s) (okWith 0)
    else answer s (refuse stNotStarted 0x01)

def execTimeAdjust (src : CmdSrc) (s : State) : Outcome :=
  onWf (.timeAdjust src) (command 0xA0 timeAdjustBody src s)

/-- TIME_PTP_BIND (R362, R365, R397). -/
def ptpBindBody (r : Req) (s : State) : Answer :=
  if !r.owner then answer s (refuse stRefused 0)
  else
    let h := df r.w1 63 0
    let put := fun (s : State) =>
      { s with time := { s.time with ptpQueue := h, ptpDomain := df r.w1 71 64, ptpEnable := bitOf r.w1 72 } }
    if bitOf r.w1 72 then
      match resolveQueue r h s with
      | .ok => answer (put s) (okWith 0)
      | .bad => answer s (refuse stRefused 0xF2)
      | .stale => queueRefused h ⟨stStale, 0, 0⟩ s
    else answer (put s) (okWith 0)

def execTimePtpBind (src : CmdSrc) (s : State) : Outcome :=
  onWf (.timePtpBind src) (command 0xA2 ptpBindBody src s)

/-! ## The timing connector (R363, R364) -/

/-- An edge on PPS_IN of the polarity that IN_EDGE selects is timestamped and latched. -/
def ppsInDo (falling : Bool) (s : State) : State :=
  if s.time.inEn && s.time.inEdge == falling then
    timeEvent (fun t => { t with ppsInTs := ⟨t.sec, t.ns, t.sub / 2 ^ 32⟩, evPpsIn := true }) s
  else s

def execPpsIn (falling : Bool) (s : State) : Outcome := onWf (.ppsIn falling) (ppsInDo falling s)

/-- The value has passed a whole second in the cycle just taken; after a step in it, the value stands at one (R357). -/
def atSecond (s : State) : Bool :=
  let u := s.time.ns * 2 ^ 48 + s.time.sub
  if s.time.stepRes = some s.res then u == 0 else decide (u < increment s.time)

/-- 1PPS out rises at a whole second and stays high for PPS_WIDTH_MS. -/
def ppsOutDo (s : State) : State :=
  if s.time.outEn && atSecond s && s.time.ppsHigh.isNone then
    emit (.pps true) { s with time := { s.time with ppsHigh := some (cmpAdd (cmpNow s) (s.time.widthMs * 1000000)) } }
  else s

def execPpsOut (s : State) : Outcome := onWf .ppsOut (ppsOutDo s)

/-- A short on a timing output: its current is limited, PPS_SHORT is set and a record written. -/
def ppsShortDo (line : Nat) (s : State) : State :=
  record 0x0B02 [(1, line)]
    (timeEvent (fun t => { t with shorts := t.shorts.set line (nowNs s), evPpsShort := true }) s)

def execPpsShort (line : Nat) (s : State) : Outcome := onWf (.ppsShort line) (ppsShortDo line s)

/-- The line retries every 100 ms; it is limited again while the short stays. -/
def ppsRetryDo (line : Nat) (short : Bool) (s : State) : State :=
  match s.time.shorts.find? line with
  | none => s
  | some t =>
    if t + 100000000 ≤ nowNs s then
      { s with time := { s.time with
          shorts := if short then s.time.shorts.set line (nowNs s) else s.time.shorts.del line } }
    else s

def execPpsShortRetry (line : Nat) (short : Bool) (s : State) : Outcome :=
  onWf (.ppsShortRetry line short) (ppsRetryDo line short s)

end Sys2Proof.Machine
end

