-- ==== Sys2Proof/Machine/Links.lean ====
section
/-! DEFINITION. The die-to-die links: blocks, replay, retraining and rerouting (R26-R34). -/

namespace Sys2Proof.Machine

def linkOf (n : Nat) (s : State) : DlLink := s.links.get n {}
def setLink (n : Nat) (v : DlLink) (s : State) : State := { s with links := s.links.set n v }
def updLink (n : Nat) (f : DlLink → DlLink) (s : State) : State := setLink n (f (linkOf n s)) s

def DlLink.side (l : DlLink) (d : Nat) : DlDir := if d = 0 then l.d0 else l.d1
def DlLink.setSide (l : DlLink) (d : Nat) (v : DlDir) : DlLink := if d = 0 then { l with d0 := v } else { l with d1 := v }

/-- Guard counter c of direction d (R33, R34): 0 GOOD, 1 CRC, 2 REPLAY, 3 OVERTIME. -/
def dlCtr (n d c : Nat) : Nat := 0x1040 + n * 0x80 + d * 0x20 + c * 8

/-! ## Routes (R26, R31) -/

/-- The Wings that a Wing–Wing link joins. -/
def wingsOf (n : Nat) : Nat × Nat := [(0, 1), (1, 2), (2, 3), (3, 0), (0, 2), (1, 3)].getD (n - 4) (0, 1)

def linkUp (n : Nat) (s : State) : Bool := (linkOf n s).state == 2

/-- The die that carries the traffic of link n, as VIA codes it; 0 where no route remains (R31). -/
def alternate (n : Nat) (s : State) : Nat :=
  if n < 4 then
    match [(n + 1) % 4, (n + 2) % 4, (n + 3) % 4].find? (fun w => linkUp w s && linkUp (wingLink w n) s) with
    | some w => 2 + w
    | none => 0
  else
    let p := wingsOf n
    if linkUp p.1 s && linkUp p.2 s then 1
    else match [0, 1, 2, 3].find? (fun c => c != p.1 && c != p.2 && linkUp (wingLink p.1 c) s && linkUp (wingLink p.2 c) s) with
      | some c => 2 + c
      | none => 0

/-- A link whose traffic is rerouted: DOWN or RETRAINING. -/
def rerouted (l : DlLink) : Bool := l.state == 0 || l.state == 3

/-- Every rerouted link takes its route of the present; with no route left between the Body and a Wing the Body's
integrity checks fail (R31, R486). -/
def reroute (s : State) : State :=
  let s := (List.range 10).foldl (fun s n =>
    updLink n (fun l => { l with via := if rerouted l then alternate n s else 0 }) s) s
  if (List.range 4).any (fun n => rerouted (linkOf n s) && (linkOf n s).via == 0) then enterSafeHold 4 s else s

/-- Blocks still in a replay buffer are resent on the alternate route: each not released yet is delivered once, each
already released is dropped as a duplicate (R30, R32). DESIGN CHOICE (log entry 134): no GOOD counter takes the blocks that
the alternate route delivers, since the spec names no link for them. -/
def moveBuffer (n d : Nat) (s : State) : State :=
  let v := (linkOf n s).side d
  let isDup := fun (b : Nat × List Word128) => decide (0 < (v.rxNext + 1024 - b.1) % 1024)
    && decide ((v.rxNext + 1024 - b.1) % 1024 ≤ 512)
  let dups := (v.buffer.filter isDup).length
  let live := v.buffer.filter (fun b => !isDup b)
  let s := if dups = 0 then s else count (dlCtr n d 2) dups s
  let s := live.foldl (fun s b => emit (.dlRelease n d b.1) s) s
  updLink n (fun l => l.setSide d { v with buffer := [], rxNext := v.txNext, discarding := false, wanted := none, fails := 0, resent := [] }) s

/-- Start a retrain (R30): it is counted and recorded, PF0 vector 8 is raised, and the traffic is rerouted. `cause` is
the direction whose block failed, or 0xFF for a requested retrain (R506). -/
def retrain (n cause : Nat) (s : State) : State :=
  let s := updLink n (fun l => { l with state := 3, retrains := min (l.retrains + 1) 255, cause := cause }) s
  let s := record 0x0101 [(1, n), (1, cause), (1, (linkOf n s).retrains)] s
  reroute (moveBuffer n 1 (moveBuffer n 0 (pfVector 8 s)))

/-- The link goes DOWN (R30). -/
def linkDown (n : Nat) (s : State) : State :=
  let s := updLink n (fun l => { l with state := 0 }) s
  let s := reroute (moveBuffer n 1 (moveBuffer n 0 s))
  let l := linkOf n s
  pfVector 8 (record 0x0102 [(1, n), (1, l.retrainFails), (1, l.via)] s)

/-! ## Blocks (R27, R28) -/

/-- The CRC-32 of a block: its 16 words, then the sequence number as two bytes. -/
def blockCrc (words : List Word128) (seq : Nat) : BitVec 32 := crc32 (bytesOfWords words ++ leBytes 2 seq)

/-- The transmitter puts a new block into its replay buffer of 256 (R28). -/
def sendBlock (v : DlDir) (sent : List Word128) (seq : Nat) : DlDir :=
  if seq = v.txNext ∧ v.buffer.length < 256 then
    { v with buffer := v.buffer ++ [(seq, sent)], txNext := (v.txNext + 1) % 1024 }
  else v

/-- The receiver cannot release the awaited block: it discards until the replay, which it requests (R28). -/
def awaitReplay (v : DlDir) : DlDir := { v with discarding := true, wanted := some v.rxNext, fails := v.fails + 1 }

/-- The block was released before: it is one of the 512 numbers behind the receiver's next sequence number (R32). DESIGN CHOICE
(log entry 134): the spec gives the 10-bit numbers no window. -/
def released (v : DlDir) (seq : Nat) : Bool :=
  decide (0 < (v.rxNext + 1024 - seq % 1024) % 1024) && decide ((v.rxNext + 1024 - seq % 1024) % 1024 ≤ 512)

/-- A block crosses an UP link (R27-R30, R32). DESIGN CHOICE (log entry 134): a block that fails its CRC counts as a failure of the
awaited block, whatever sequence number it bears, and one that fails among the blocks discarded until the replay counts nothing. -/
def dlBlockDo (n d : Nat) (sent got : List Word128) (seq : Nat) (crc : BitVec 32) (s : State) : State :=
  if !linkUp n s then s
  else
    let v := sendBlock ((linkOf n s).side d) sent seq
    let put := fun (v : DlDir) (s : State) => updLink n (fun l => l.setSide d v) s
    if blockCrc got seq != crc then
      if v.discarding && seq != v.rxNext then put v s else
      let v := awaitReplay v
      let s := emit (.dlRequest n d v.rxNext) (count (dlCtr n d 1) 1 (put v s))
      if v.fails = 8 then retrain n d s else s
    else if seq = v.rxNext then
      let s := if 2 ≤ v.resent.count seq then count (dlCtr n d 3) 1 s else s
      let v := { v with rxNext := (seq + 1) % 1024, discarding := false, wanted := none, fails := 0,
                        resent := v.resent.filter (fun b => b != seq), buffer := v.buffer.filter (fun b => b.1 != seq) }
      emit (.dlRelease n d seq) (count (dlCtr n d 0) 1 (put v s))
    else if released v seq then count (dlCtr n d 2) 1 (put v s)
    else if v.discarding then put v s
    -- a block ahead of the awaited one, with none failed: it is discarded, and the awaited one requested (log entry 134)
    else emit (.dlRequest n d v.rxNext) (put { v with discarding := true, wanted := some v.rxNext } s)

def execDlBlockRx (link dir : Nat) (sent got : List (BitVec 128)) (seq : Nat) (crc : BitVec 32) (s : State) : Outcome :=
  onWf (.dlBlockRx link dir sent got seq crc) (dlBlockDo link dir sent got seq crc s)

/-- The transmitter serves the receiver's replay request: it resends from the requested block onward, in order (R28, R33). -/
def dlReplayDo (n d seq : Nat) (s : State) : State :=
  let v := (linkOf n s).side d
  if linkUp n s && v.wanted == some seq && v.buffer.any (fun b => b.1 == seq) then
    let again := v.buffer.dropWhile (fun b => b.1 != seq)
    let s := again.foldl (fun s b => emit (.dlResend n d b.1) s) s
    count (dlCtr n d 2) 1 (updLink n (fun l => l.setSide d { v with wanted := none, resent := v.resent ++ again.map (·.1) }) s)
  else s

def execDlReplayRequest (link dir seq : Nat) (s : State) : Outcome :=
  onWf (.dlReplayRequest link dir seq) (dlReplayDo link dir seq s)

/-- A retrain ends (R30): UP, or a failure; the third in a row leaves the link DOWN, and before it the link tries again. -/
def dlRetrainEndDo (n : Nat) (ok : Bool) (s : State) : State :=
  let l := linkOf n s
  if l.state ≠ 3 then s
  else if ok then reroute (setLink n { l with state := 2, retrainFails := 0 } s)
  else
    let s := setLink n { l with retrainFails := l.retrainFails + 1 } s
    if 3 ≤ l.retrainFails + 1 then linkDown n s else retrain n l.cause s

def execDlRetrainEnd (link : Nat) (ok : Bool) (s : State) : Outcome :=
  onWf (.dlRetrainEnd link ok) (dlRetrainEndDo link ok s)

/-- RETRAIN in `BODY_DL_CTRL` (R34). A link that HOLD_DOWN holds stays DOWN. -/
def retrainDo (n : Nat) (s : State) : State :=
  let s := updLink n (fun l => { l with retrainFails := 0 }) s
  if (linkOf n s).holdDown then s else retrain n 255 s

def execRetrain (who link : Nat) (s : State) : Outcome :=
  onWf (.retrain who link) (gated who (0x1008 + link * 0x80) (retrainDo link) s)

/-- A link is let go of by HOLD_DOWN: it retrains (log entry 10), but one that 3 failed retrains have left DOWN stays DOWN until
RETRAIN is written (R30). -/
def letGo (n : Nat) (s : State) : State :=
  let s := updLink n (fun l => { l with holdDown := false }) s
  if 3 ≤ (linkOf n s).retrainFails then s else retrain n 255 s

/-- HOLD_DOWN in `BODY_DL_CTRL`: in DEBUG_ENABLED only (R34). A link that is DOWN already makes no transition (R30). -/
def holdDownDo (n : Nat) (on : Bool) (s : State) : State :=
  if s.keys.life ≠ 2 ∨ (linkOf n s).holdDown = on then s
  else if on then
    let s := updLink n (fun l => { l with holdDown := true }) s
    if (linkOf n s).state = 0 then s else linkDown n s
  else letGo n s

def execHoldDown (who link : Nat) (on : Bool) (s : State) : Outcome :=
  onWf (.holdDown who link on) (gated who (0x1008 + link * 0x80) (holdDownDo link on) s)

end Sys2Proof.Machine
end

