-- ==== Sys2Proof/Machine/Supply.lean ====
section
/-! DEFINITION. The antenna monitors, the voltage loop, live capacity and admission (R44-R59). -/

namespace Sys2Proof.Machine

def islandOf (i : Nat) (s : State) : Island := s.power.islands.get i {}
def setIsland (i : Nat) (v : Island) (s : State) : State :=
  { s with power := { s.power with islands := s.power.islands.set i v } }

/-- 0 tile, 1 forward, 2 Body (R44). -/
def islandGroup (i : Nat) : Nat := if i < 64 then 0 else if i < 80 then 1 else 2

/-- Work that commands have placed on a tile, and on the tiles of a group (R44). -/
def workOn (t : Nat) (s : State) : Nat := s.power.work.get t 0
def groupWork (g : Nat) (s : State) : Nat := ((List.range 8).map (fun k => workOn (g * 8 + k) s)).sum
def addWork (t : Nat) (s : State) : State :=
  let s := { s with power := { s.power with work := s.power.work.upd t 0 (· + 1) } }
  setIsland (t / 8) { islandOf (t / 8) s with lastWork := nowNs s } s
/-- DESIGN CHOICE (log entry 136): the 1 ms without work of R47 counts anew from a release of work too. -/
def dropWork (t : Nat) (s : State) : State :=
  let s := { s with power := { s.power with work := s.power.work.upd t 0 (· - 1) } }
  setIsland (t / 8) { islandOf (t / 8) s with lastWork := nowNs s } s

/-- Work that enters the islands of the tile groups in `mask` without committed load: a self-test (R47). -/
def testWork (mask : Nat) (s : State) : State :=
  (List.range 64).foldl (fun s g => if mask.testBit g then setIsland g { islandOf g s with lastWork := nowNs s } s else s) s

/-- The work that commands have placed on the tiles of a group: kind, number, load, and what sets its work units (R44, R45). -/
def groupLoad (g : Nat) (s : State) : List (List Nat) :=
  (s.video.decs.toList.filter (fun c => c.2.tile / 8 == g)).map (fun c => [0, c.1, c.2.load, c.2.w2.toNat])
    ++ (s.video.encs.toList.filter (fun c => c.2.tile / 8 == g)).map (fun c => [1, c.1, c.2.load, c.2.w1.toNat, c.2.rate.toNat])
    ++ (s.video.outs.toList.filter (fun c => c.2.tile / 8 == g)).map (fun c => [2, c.1, c.2.load, c.2.w1.toNat, c.2.w2.toNat])
    ++ (s.audio.ins.toList.filter (fun c => c.2.tile / 8 == g)).map (fun c => [3, c.1, c.2.load])
    ++ (s.audio.groups.toList.filter (fun c => c.2.tile / 8 == g)).map (fun c => [4, c.1, c.2.load, c.2.profile, c.2.slots])
    ++ (s.audio.rooms.toList.filter (fun c => c.2.tile / 8 == g)).map (fun c => [5, c.1, c.2.channels])

/-- The load that an island's deadline period follows: a tile island's work; forward and Body islands have one of their own. -/
def loadOf (i : Nat) (s : State) : List (List Nat) := if i < 64 then groupLoad i s else []

/-- Margins and ceilings (R46), in ‰ and mV. -/
def marginPm (i posture : Nat) : Int :=
  if islandGroup i = 0 then (if posture = 0 then 300 else if posture = 1 then 150 else 80)
  else if islandGroup i = 1 then 200
  else if posture = 2 then 100 else 150
def ceilingMv (i posture : Nat) : Nat :=
  if posture = 2 then (if islandGroup i = 0 then 800 else if islandGroup i = 1 then 900 else 850) else 900

/-- Forward and Body islands always have committed load; a tile island while a tile of its group holds work (R44). -/
def islandLoaded (i : Nat) (s : State) : Bool := decide (64 ≤ i) || decide (0 < groupWork i s)

/-- R45: the slack in per-mille, floored; K is in 1/1,000. -/
def slackPm (tdl k loopPs : Nat) : Int :=
  clampInt (Int.fdiv (1000 * (tdl : Int) - (k : Int) * loopPs) tdl) (-2048) 2047

/-- Since when the slack of an island with committed load has stayed above m + 50 (R47). -/
def aboveBand (i : Nat) (slack : Int) (s : State) : Option Nat :=
  if marginPm i s.power.active + 50 < slack && islandLoaded i s then some ((islandOf i s).aboveSince.getD (nowNs s)) else none

/-- ANTENNA_MEASURE: loop time, temperature and, with committed load, slack (R45). Island 95 has no deadline. -/
def antennaDo (i loopPs : Nat) (tempC : Int) (s : State) : State :=
  let slack := if islandLoaded i s && i != 95 then slackPm (Config.deadlinePs i (loadOf i s)) (Config.kFactor i) loopPs else 0
  setIsland i { islandOf i s with loopPs := loopPs % 65536, tempC := tempC, slack := slack, seen := true,
                                  aboveSince := aboveBand i slack s } s

def execAntennaMeasure (island loopPs : Nat) (tempC : Int) (s : State) : Outcome :=
  onWf (.antennaMeasure island loopPs tempC) (antennaDo island loopPs tempC s)

/-! ## The loop of R47 -/

/-- `raise_step` (R47). -/
def raiseStep (d : Int) : Nat := min (5 * ceilDiv d.toNat 20) 100

/-- The target voltage of R47, without the ceiling of the power limit; 0.55 V for a tile island in Safe Hold (R487). -/
def targetMv (i : Nat) (s : State) : Nat :=
  let v := islandOf i s
  let p := s.power.active
  let m := marginPm i p
  if s.body.hold && islandGroup i == 0 then 550
  else if islandGroup i = 1 ∧ p = 0 then 900
  else if !islandLoaded i s then
    if v.lastWork + 1000000 ≤ nowNs s then 550 else v.voltMv
  else if v.slack < m then min (v.voltMv + raiseStep (m - v.slack)) (ceilingMv i p)
  else match v.aboveSince with
    | none => v.voltMv
    | some t => if t + 10000000 ≤ nowNs s then max (v.voltMv - 5) 550 else v.voltMv

/-- A forward island whose slack is below 0 with the case above 105 °C is kept at 0.90 V (R52). -/
def alarmed (i : Nat) (s : State) : Bool :=
  islandGroup i == 1 && decide ((islandOf i s).slack < 0) && decide (105 < s.power.caseC)

/-- One island's pass (R47, R48): a raise at once, a lowering by one 5 mV step. -/
def islandPass (i : Nat) (s : State) : State :=
  let v := { islandOf i s with aboveSince := aboveBand i (islandOf i s).slack s }
  let s := setIsland i v s
  let t := if alarmed i s then 900 else targetMv i s
  let t := if islandGroup i = 0 then min t (min v.ceiling v.heatCeiling) else t
  let volt := if v.voltMv < t then t else if t < v.voltMv then v.voltMv - 5 else v.voltMv
  setIsland i { v with voltMv := volt } s

/-- Junctions and slack alarms of one island (R52, R54). -/
def islandWatch (i : Nat) (s : State) : State :=
  let v := islandOf i s
  let hot := if 125 ≤ v.tempC then true else if v.tempC ≤ 122 then false else v.hot
  let al := alarmed i s
  let s := if hot && !v.hot && islandGroup i != 0 then
      record 0x0202 [(1, i), (1, toTwos 8 v.tempC), (1, islandGroup i)] s else s
  let s := if al && !v.alarmed then
      record 0x0201 [(1, i), (2, toTwos 16 v.slack), (1, toTwos 8 s.power.caseC)]
        (pfVector 2 { s with power := { s.power with evSlack := true } })
    else s
  setIsland i { v with hot := hot, alarmed := al } s

/-- The largest slack among the tile islands that the power limit can still lower. DESIGN CHOICE (log entry 137): a tile island
without committed load ranks at slack 0, which SLACK_PM reads, and all islands that tie for the most slack are lowered in one
pass. -/
def mostSlack (s : State) : Option Int :=
  (((List.range 64).filter (fun i => decide (550 < (islandOf i s).ceiling))).map (fun i => (islandOf i s).slack)).foldl
    (fun m x => match m with | none => some x | some y => some (max x y)) none

/-- The ceilings of a tile island after a pass: 5 mV down while the power limit takes it, or its junction is hot, 5 mV back up
otherwise (R53, R54; the way back is the model's, log entry 11). DESIGN CHOICE (log entry 137): both ceilings start at 0.90 V in
every posture and whatever the island's voltage, so that the first steps may lower no voltage. -/
def ceilingPass (exceeds : Bool) (most : Option Int) (i : Nat) (s : State) : State :=
  let v := islandOf i s
  setIsland i { v with
    ceiling := if exceeds then (if most == some v.slack then max (v.ceiling - 5) 550 else v.ceiling) else min (v.ceiling + 5) 900,
    heatCeiling := if v.hot then max (v.heatCeiling - 5) 550 else min (v.heatCeiling + 5) 900 } s

/-- The power limit (R53). DESIGN CHOICE (log entry 137): every pass on which the limit binds sets LIMIT_BIND and raises the
vector, also where the bit reads 1 already. -/
def limitPass (s : State) : State :=
  let exceeds := decide (s.power.limitW < s.power.inputW)
  let most := mostSlack s
  let s := (List.range 64).foldl (fun s i => ceilingPass exceeds most i s) s
  if exceeds then
    let s := if most.isSome then pfVector 2 { s with power := { s.power with evLimitBind := true } } else s
    if (List.range 64).all (fun i => decide ((islandOf i s).voltMv ≤ 550)) then
      (if s.power.limitUnmet then s else pfVector 2 { s with power := { s.power with limitUnmet := true } })
    else s
  else if s.power.inputW < s.power.limitW then { s with power := { s.power with limitUnmet := false } }
  else s

/-! ## Capacity (R55-R58) -/

/-- Factor index of a role: roles 3 and 4 share the AU factor. -/
def factorIdx (r : Nat) : Nat := [0, 1, 2, 3, 3, 4].getD r 0

/-- R56's table: rows at 85, 95 and 105 °C by posture and factor. -/
def factorTable (posture f : Nat) : List Nat :=
  if posture = 0 then [[820, 770, 705], [820, 754, 680], [820, 779, 721], [820, 795, 762], [820, 787, 738]].getD f []
  else if posture = 1 then
    [[1000, 940, 860], [1000, 920, 830], [1000, 950, 880], [1000, 970, 930], [1000, 960, 900]].getD f []
  else [[800, 752, 688], [800, 736, 664], [800, 760, 704], [800, 776, 744], [800, 768, 720]].getD f []

/-- The least factor at a case temperature: straight lines between the rows, rounded up; none above 105 °C (R56). -/
def factorMin (posture f : Nat) (caseC : Int) : Nat :=
  let t := factorTable posture f
  let a := t.getD 0 0
  let b := t.getD 1 0
  let c := t.getD 2 0
  if caseC ≤ 85 then a
  else if caseC ≤ 95 then a - (a - b) * (caseC - 85).toNat / 10
  else if caseC ≤ 105 then b - (b - c) * (caseC - 95).toNat / 10
  else 0

/-- The measured factor, a free value between its bounds (R56). -/
def measured (lo hi p f n : Nat) : Nat := max lo (min (min hi 1000) (Config.factorRaw n p f))

/-- The power limit binds: it is exceeded, or still holds a tile ceiling down. -/
def limitBinds (s : State) : Bool :=
  decide (s.power.limitW < s.power.inputW) || s.power.islands.toList.any (fun c => decide (c.1 < 64) && decide (c.2.ceiling < 900))

/-- A tile group of role factor f in partition p, among those that `cut` picks. -/
def cutHere (cut : Nat → Bool) (p f : Nat) (s : State) : Bool :=
  s.fab.groups.toList.any (fun c => c.2.partition == p && c.2.role == f + 1 && cut c.1)

/-- The factors of a partition at the present posture and temperature (R56). Where the power limit or heat has lowered the ceiling
of a tile group, which `cut` picks, the factor of its role does not rise: live capacity falls to match (R53, R54). -/
def newFactors (cut : Nat → Bool) (p : Nat) (s : State) : List Nat :=
  (List.range 5).map (fun f =>
    measured (if limitBinds s then 0 else factorMin s.power.active f s.power.caseC)
      (if cutHere cut p f s then (s.power.factors.get p []).getD f 1000 else 1000) p f (s.free * 5 + f))

def partOf? (p : Nat) (s : State) : Option Partition := s.fab.parts.find? p

/-- floor(declared × factor / 1000) (R55). -/
def factorLive (p r : Nat) (s : State) : Nat :=
  match partOf? p s with
  | none => 0
  | some v => v.declared.getD r 0 * (s.power.factors.get p []).getD (factorIdx r) 0 / 1000

/-- The live capacity that `PWR_PLOAD` reports: 0 while a reload has closed admission (R58, R80). -/
def liveOf (p r : Nat) (s : State) : Nat :=
  match partOf? p s with
  | none => 0
  | some v => if v.closed then 0 else factorLive p r s

def committedOf (p r : Nat) (s : State) : Nat := s.power.committed.get (p * 8 + r) 0

/-- R57: admit load L of role r, or the live figure it was checked against. -/
def fits (p r load : Nat) (s : State) : Bool := decide (committedOf p r s + load ≤ liveOf p r s)

/-- OVERCOMMIT clears when committed load is within live capacity in every role (R58). -/
def withinAll (p : Nat) (s : State) : Bool :=
  (List.range 6).all (fun r => decide (committedOf p r s ≤ factorLive p r s))

def settleOver (p : Nat) (s : State) : State :=
  if withinAll p s then { s with power := { s.power with overcommit := s.power.overcommit.erase p } } else s

def addLoad (p r load : Nat) (s : State) : State :=
  { s with power := { s.power with committed := s.power.committed.upd (p * 8 + r) 0 (· + load) } }

def dropLoad (p r load : Nat) (s : State) : State :=
  settleOver p { s with power := { s.power with committed := s.power.committed.upd (p * 8 + r) 0 (· - load) } }

/-- Live capacity is at or above committed load in one role. -/
def within (p r : Nat) (s : State) : Bool := decide (committedOf p r s ≤ factorLive p r s)

/-- A partition's factors are recomputed. A fall below committed load in a role sets OVERCOMMIT and CAP_DROP and posts a work item
to the owner's firmware, also where another role has the partition overcommitted already (R58). DESIGN CHOICE (log entry 137): the
item's poster is 208, since R381 gives the power manager no master ID. -/
def updateFactors (cut : Nat → Bool) (p : Nat) (s : State) : State :=
  let fs := newFactors cut p s
  let was := s
  let s := { s with free := s.free + 1, power := { s.power with factors := s.power.factors.set p fs } }
  if withinAll p s then settleOver p s
  else if s.power.overcommit.contains p && (List.range 6).all (fun r => within p r s || !within p r was) then s
  else
    let s := { s with power := { s.power with overcommit := p :: s.power.overcommit.erase p, evCapDrop := true } }
    enginePost 0x06 208 ((partOf? p s).map (·.owner) |>.getD 0) 0 (BitVec.ofNat 128 p) 0 (pfVector 2 s)

/-- A pass of the loop is due: at the instant at which every antenna monitor has made its first measurement, and then once at or
after each point of the 50 µs grid that begins there (R47, R49, R50). -/
def passDue (s : State) : Bool :=
  match s.power.loopFrom with
  | none => (List.range 96).all (fun i => (islandOf i s).seen)
  | some _ => decide (s.power.nextPass ≤ nowNs s)

/-- The first pass begins the grid. DESIGN CHOICE (log entry 136): the 1 ms without work of a tile island counts from it. -/
def beginLoop (s : State) : State :=
  match s.power.loopFrom with
  | none => testWork (2 ^ 64 - 1) { s with power := { s.power with loopFrom := some (nowNs s), nextPass := nowNs s + 50000 } }
  | some t => { s with power := { s.power with nextPass := t + ((nowNs s - t) / 50000 + 1) * 50000 } }

/-- The pass: the posture in force, the limit, every island except 95, and live capacity (R47-R58). Arbitrations that took too long
are counted with it (R41, log entry 136). -/
def loopPass (inputW : Nat) (caseC : Int) (s : State) : State :=
  let s := { s with power := { s.power with active := s.power.posture, inputW := inputW % 65536, caseC := caseC } }
  let s := (List.range 96).foldl (fun s i => islandWatch i s) s
  let was := fun (i : Nat) => min (islandOf i s).ceiling (islandOf i s).heatCeiling
  let s := limitPass s
  let cut := fun (i : Nat) => decide (min (islandOf i s).ceiling (islandOf i s).heatCeiling < was i)
  let s := (List.range 95).foldl (fun s i => islandPass i s) s
  let s := (s.fab.parts.toList.map (·.1)).foldl (fun s p => updateFactors cut p s) s
  count 0x8020 (Config.slowArbs s.free) { s with free := s.free + 1 }

/-- VOLTAGE_LOOP_PASS. -/
def loopPassDo (inputW : Nat) (caseC : Int) (s : State) : State := if passDue s then loopPass inputW caseC (beginLoop s) else s

def execVoltageLoopPass (inputW : Nat) (caseC : Int) (s : State) : Outcome :=
  onWf (.voltageLoopPass inputW caseC) (loopPassDo inputW caseC s)

/-- A write to `PWR_POSTURE`: 3 is ignored; the posture acts at the next pass (R49). -/
def postureDo (v : Word64) (s : State) : State :=
  if fld v 1 0 = 3 then s else { s with power := { s.power with posture := fld v 1 0 } }

def execPosture (who : Nat) (v : BitVec 64) (s : State) : Outcome :=
  onWf (.posture who v) (gated who 0x8000 (postureDo v) s)

end Sys2Proof.Machine
end

