-- ==== Sys2Proof/Machine/FabricImage.lean ====
section
/-! DEFINITION. The Fabric Image file: its parts and the checks that R61 to R69 and R78 make. -/

namespace Sys2Proof.Machine

/-! Reason codes (R84). -/
def fabSignature : Nat := 0x01
def fabFamily : Nat := 0x02
def fabStepping : Nat := 0x03
def fabFirmware : Nat := 0x04
def fabArch : Nat := 0x05
def fabFormat : Nat := 0x06
def fabRoleRule : Nat := 0x07
def fabRouteRule : Nat := 0x08
def fabOverCeiling : Nat := 0x09
def fabFrame : Nat := 0x0A
def fabBusy : Nat := 0x0B
def fabSlotEmpty : Nat := 0x0C
def fabFlashRead : Nat := 0x0D
def fabDrainTimeout : Nat := 0x0E
def fabSelfTest : Nat := 0x0F
def fabTokenInvalid : Nat := 0x10
def fabSlotUsed : Nat := 0x11

/-- The fused hash that KEY_INDEX names (R69). -/
def imageKeyHash (k : Nat) (s : State) : Option (List Byte) :=
  if k = 0 then some Config.grenmetImageKey else if k ≤ 4 then s.fab.ownerKeys.find? k else none

/-- A signature block of 194 bytes at the end of a file, under a key whose hash is `hash` (R69, R455). -/
def blockVerifies (file : List Byte) (hash : Option (List Byte)) : Bool :=
  let n := file.length - 194
  let blk := file.drop n
  match hash with
  | none => false
  | some h => decide (194 ≤ file.length) && sha384 (slice blk 1 97) == h
      && ecdsaP384 (slice blk 1 97) (file.take n) (slice blk 0x62 48) (slice blk 0x92 48)

def imageSigned (img : List Byte) (s : State) : Bool :=
  blockVerifies img (imageKeyHash (byteAt img (img.length - 194)) s)

/-! ## Header and sections (R64, R65) -/

def imgKind (img : List Byte) : Nat := byteAt img 6
def imgFrameHash (img : List Byte) : List Byte := slice img 0x20 48
def imgTarget (img : List Byte) : Nat := leAt img 0x50 2

/-- Section table entries: TYPE, offset, length. -/
def imgSections (img : List Byte) : List (Nat × Nat × Nat) :=
  (List.range (leAt img 0x52 2)).map (fun k =>
    let e := leAt img 0x54 4 + k * 16
    (leAt img e 2, leAt img (e + 4) 4, leAt img (e + 8) 4))

def imgPart (img : List Byte) (type : Nat) : List Byte :=
  match (imgSections img).find? (fun e => e.1 == type) with
  | none => []
  | some e => slice img e.2.1 e.2.2

/-- Two sections do not overlap. -/
def apart (a b : Nat × Nat × Nat) : Bool := decide (a.2.1 + a.2.2 ≤ b.2.1) || decide (b.2.1 + b.2.2 ≤ a.2.1)

def pairwiseApart : List (Nat × Nat × Nat) → Bool
  | [] => true
  | e :: r => r.all (apart e) && pairwiseApart r

/-- The section types that a kind of image holds (R65). -/
def wantedTypes (kind : Nat) : List Nat := if kind = 1 then [1, 2, 3, 4, 5, 6, 0xF] else [1, 2, 3, 5, 6, 0xF]

/-- The section table, and the sections that have a fixed form (R65). -/
def sectionsOk (img : List Byte) : Bool :=
  let n := leAt img 0x52 2
  let es := imgSections img
  let want := wantedTypes (imgKind img)
  decide (2 ≤ n) && decide (n ≤ 16) && decide (leAt img 0x54 4 + n * 16 ≤ img.length)
    && (List.range n).all (fun k => leAt img (leAt img 0x54 4 + k * 16 + 2) 2 == 0
          && leAt img (leAt img 0x54 4 + k * 16 + 12) 4 == 0)
    && es.all (fun e => decide (e.2.1 + e.2.2 ≤ img.length) && want.contains e.1) && pairwiseApart es
    && es.length == want.length && want.all (fun t => es.any (fun e => e.1 == t))
    && es.all (fun e => e.1 != 0xF || (e.2.1 + e.2.2 == img.length && e.2.2 == 194))
    && (imgPart img 1).length == 64 && (imgPart img 3).length % 16 == 0 && (imgPart img 5).length % 32 == 0
    && (imgKind img != 1 || (imgPart img 4).length == 1024)

/-- PIPELINE records: group, stream; none where a record is cut or over 192 KiB (R65). The fuel is the section's bytes. -/
def pipelines : Nat → List Byte → Option (List (Nat × List Byte))
  | 0, bs => if bs.isEmpty then some [] else none
  | n + 1, bs =>
    if bs.isEmpty then some []
    else
      let len := leAt bs 4 4
      if bs.length < 8 + len ∨ 196608 < len ∨ leAt bs 2 2 ≠ 0 then none
      else (pipelines n (bs.drop (8 + len))).map (fun r => (leAt bs 0 2, slice bs 8 len) :: r)

def imgPipelines (img : List Byte) : Option (List (Nat × List Byte)) :=
  pipelines (imgPart img 2).length (imgPart img 2)

/-- Role code of group g in the image (0xFF: left alone). -/
def imgRole (img : List Byte) (g : Nat) : Nat := byteAt (imgPart img 1) g

/-- One pipeline record for each group that the image defines and does not park. -/
def pipelinesOk (img : List Byte) : Bool :=
  match imgPipelines img with
  | none => false
  | some ps =>
    (List.range 64).all (fun g =>
      let n := (ps.filter (fun p => p.1 == g)).length
      let r := imgRole img g
      if r == 0 || r == 0xFF then n == 0 else n == 1) && ps.all (fun p => decide (p.1 < 64))

/-- The fields of the header that R64 checks, but for those with a reason of their own. -/
def imgHeaderOk (img : List Byte) : Bool :=
  leAt img 0 4 == 0x49465850 && leAt img 4 2 == 1 && (imgKind img == 1 || imgKind img == 2)
    && leAt img 0x1C 4 == img.length && decide (img.length ≤ 16777216)
    && decide (2 ≤ leAt img 0x52 2) && decide (leAt img 0x52 2 ≤ 16) && (slice img 0x58 40).all (· == 0)
    && (if imgKind img = 1 then imgTarget img == 0xFFFF else decide (imgTarget img < 64))

/-- The partitions that the CAPACITY section declares, in its order. -/
def capacityParts (img : List Byte) : List Nat :=
  let c := imgPart img 5
  (List.range (c.length / 32)).map (fun k => leAt c (k * 32) 4)

/-- The partitions that an image defines: those of PARTITIONS, or the target. -/
def definedParts (img : List Byte) : List Nat :=
  if imgKind img = 1 then (List.range 64).filter (fun p => byteAt (imgPart img 4) (p * 16 + 1) == 1) else [imgTarget img]

/-- CAPACITY holds one declaration for each defined partition (R65). -/
def capacityOk (img : List Byte) : Bool :=
  let ds := capacityParts img
  ds.length == (definedParts img).length && (definedParts img).all (fun p => ds.contains p)

/-- The contents that a load checks for their form (R64, R65). -/
def imgFormatOk (img : List Byte) : Bool :=
  sectionsOk img && pipelinesOk img && capacityOk img
    && (List.range 64).all (fun g => let r := imgRole img g; decide (r ≤ 5) || (r == 0xFF && imgKind img == 2))
    && (imgKind img != 1 || sha384 (imgPart img 4) == imgFrameHash img)

/-- VERSION of the running firmware (R455). -/
def firmwareVersion (s : State) : Nat := leAt (if s.upd.active = 0 then s.upd.bankA.bytes else s.upd.bankB.bytes) 8 4

/-- Signature and header, which FAB_STORE_IMAGE checks (R71), in the order of R84: the first reason that applies. -/
def headerCheck (img : List Byte) (s : State) : Option Nat :=
  if !imageSigned img s then some fabSignature
  else if byteAt img 7 ≠ 0x50 ∨ byteAt img 8 ≠ 0x80 then some fabFamily
  else if Config.stepping < byteAt img 9 then some fabStepping
  else if firmwareVersion s < leAt img 0xC 4 then some fabFirmware
  else if leAt img 0xA 2 ≠ 1 then some fabArch
  else if !imgHeaderOk img then some fabFormat
  else none

/-! ## The configuration that would result (R62, R66-R68) -/

structure FabPlan where
  roles : List Nat
  parts : List (Nat × Partition)
  routes : List (Nat × Nat × Nat)
  deriving DecidableEq, Repr

def imgRoutes (img : List Byte) : List (Nat × Nat × Nat) :=
  let r := imgPart img 3
  (List.range (r.length / 16)).map (fun k => (leAt r (k * 16) 2, leAt r (k * 16 + 2) 2, leAt r (k * 16 + 4) 2))

/-- The declaration of partition p: six roles, decode and encode contexts (R68). -/
def imgDeclared (img : List Byte) (p : Nat) : Option (List Nat × Nat × Nat) :=
  let c := imgPart img 5
  ((List.range (c.length / 32)).find? (fun k => leAt c (k * 32) 4 == p)).map (fun k =>
    ((List.range 6).map (fun r => leAt c (k * 32 + 4 + r * 4) 4), leAt c (k * 32 + 0x1C) 2, leAt c (k * 32 + 0x1E) 2))

def imgPartitions (img : List Byte) : List (Nat × Partition) :=
  let t := imgPart img 4
  (List.range 64).filterMap (fun p =>
    let e := p * 16
    if byteAt t (e + 1) = 1 then
      let d := (imgDeclared img p).getD ([], 0, 0)
      some (p, { owner := byteAt t (e + 2), tenantReload := byteAt t (e + 3) % 2 == 1, tgMask := leAt t (e + 8) 8,
                 declared := d.1, decCtx := d.2.1, encCtx := d.2.2 })
    else none)

/-- The entries of PARTITIONS are well formed (R67). -/
def partEntriesOk (img : List Byte) : Bool :=
  let t := imgPart img 4
  (List.range 64).all (fun p =>
    let e := p * 16
    if byteAt t (e + 1) = 1 then
      byteAt t e == p && decide (byteAt t (e + 2) < 64) && decide (byteAt t (e + 3) < 2) && leAt t (e + 4) 4 == 0
        && (imgDeclared img p).isSome
    else (slice t e 16).all (· == 0))

def fullPlan (img : List Byte) : FabPlan := ⟨(List.range 64).map (imgRole img), imgPartitions img, imgRoutes img⟩

/-- An endpoint code is defined (R66). -/
def endpointOk (c : Nat) : Bool := decide (c < 64) || (decide (0x100 ≤ c) && decide (c < 0x104)) || c == 0x200

/-- The Wing of an endpoint; 4 for the Body. -/
def endpointWing (c : Nat) : Nat := if c < 64 then c / 16 else if c = 0x200 then 4 else c - 0x100

/-- The partition of group g in a plan. -/
def planPart (pl : FabPlan) (g : Nat) : Option (Nat × Partition) := pl.parts.find? (fun p => p.2.tgMask.testBit g)

def planOwner (pl : FabPlan) (g : Nat) : Option Nat := (planPart pl g).map (fun p => p.2.owner)

/-- The plan after a PARTITION image for p: its groups' roles, routes and declaration replaced (R78). -/
def partPlan (img : List Byte) (p : Nat) (s : State) : FabPlan :=
  let old := partOf? p s
  let mask := (old.map (·.tgMask)).getD 0
  let inP := fun c => decide (c < 64) && mask.testBit c
  let kept := s.fab.routes.filter (fun r => !(inP r.1 || inP r.2.1))
  let d := (imgDeclared img p).getD ([], 0, 0)
  ⟨(List.range 64).map (fun g => if mask.testBit g then imgRole img g else (s.fab.groups.get g {}).role),
   s.fab.parts.toList.map (fun c =>
     if c.1 = p then (p, { c.2 with declared := d.1, decCtx := d.2.1, encCtx := d.2.2, state := 1, closed := false }) else c),
   kept ++ (imgRoutes img).filter (fun r => inP r.1 || inP r.2.1)⟩

/-- Rules 1 to 3 of R62. -/
def roleRules (pl : FabPlan) : Bool :=
  (List.range 64).all (fun g =>
    let n := (pl.parts.filter (fun p => p.2.tgMask.testBit g)).length
    if pl.roles.getD g 0 = 0 then n == 0 else n == 1)
  && pl.parts.all (fun p => p.2.tgMask != 0)
  && (List.range 64).all (fun g => pl.roles.getD g 0 != 2 ||
      pl.routes.any (fun r => r.2.1 == g && decide (r.1 < 64) && pl.roles.getD r.1 0 == 3 && r.1 / 16 == g / 16
        && planOwner pl r.1 == planOwner pl g))

/-- Gbit/s that the routes from Wing a to Wing b reserve. -/
def crossing5 (pl : FabPlan) (a b : Nat) : Nat :=
  ((pl.routes.filter (fun r => endpointWing r.1 == a && endpointWing r.2.1 == b)).map (fun r => r.2.2)).sum

/-- Gbit/s that the routes from the tile groups of Wing a to the Body, or the other way, reserve. -/
def toBody (pl : FabPlan) (a : Nat) : Nat :=
  ((pl.routes.filter (fun r => decide (r.1 < 64) && r.1 / 16 == a && r.2.1 == 0x200)).map (fun r => r.2.2)).sum
def fromBody (pl : FabPlan) (a : Nat) : Nat :=
  ((pl.routes.filter (fun r => r.1 == 0x200 && decide (r.2.1 < 64) && r.2.1 / 16 == a)).map (fun r => r.2.2)).sum

/-- Rules 4 to 7 of R62, and R66. -/
def routeRules (pl : FabPlan) : Bool :=
  decide (pl.routes.length ≤ 1024)
  && pl.routes.all (fun r => endpointOk r.1 && endpointOk r.2.1 && decide (1 ≤ r.2.2) && decide (r.2.2 ≤ 1600)
      && (!(decide (r.1 < 64) && decide (r.2.1 < 64)) || (planOwner pl r.1 == planOwner pl r.2.1 && (planOwner pl r.1).isSome)))
  && (List.range 4).all (fun a => (List.range 4).all (fun b => a == b || decide (crossing5 pl a b ≤ 1600)))
  && (List.range 4).all (fun a => decide (toBody pl a ≤ 100) && decide (fromBody pl a ≤ 100))

/-- Role code and per-tile ceiling of role quantity r (R61). -/
def roleOfQty (r : Nat) : Nat := [1, 2, 3, 4, 4, 5].getD r 0
def ceilingOf (r : Nat) : Nat := [2000, 1000, 4000, 512, 256, 40000].getD r 0

/-- Tile groups of a role in a partition. -/
def groupsOfRole (pl : FabPlan) (v : Partition) (role : Nat) : Nat :=
  ((List.range 64).filter (fun g => v.tgMask.testBit g && pl.roles.getD g 0 == role)).length

/-- R61 and R68: no figure above its ceiling. -/
def ceilingRules (pl : FabPlan) : Bool :=
  pl.parts.all (fun p =>
    p.2.declared.length == 6
    && (List.range 6).all (fun r => decide (p.2.declared.getD r 0 ≤ ceilingOf r * 8 * groupsOfRole pl p.2 (roleOfQty r)))
    && decide (p.2.decCtx ≤ 128 * 8 * groupsOfRole pl p.2 1) && decide (p.2.encCtx ≤ 32 * 8 * groupsOfRole pl p.2 2))

/-- The reserved bytes of the route entries are 0 (R66). -/
def routeBytesOk (img : List Byte) : Bool :=
  (List.range ((imgPart img 3).length / 16)).all (fun k => (slice (imgPart img 3) (k * 16 + 6) 10).all (· == 0))

/-- The rules on the configuration that would result, in the order of R84; `entries` says that the image's route entries keep R66. -/
def planCheck (entries : Bool) (pl : FabPlan) : Option Nat :=
  if !roleRules pl then some fabRoleRule
  else if !(entries && routeRules pl) then some fabRouteRule
  else if !ceilingRules pl then some fabOverCeiling
  else none

/-- R78: the image belongs to the running FULL image and stays within its target partition. -/
def frameOk (img : List Byte) (p : Nat) (s : State) : Bool :=
  match partOf? p s with
  | none => false
  | some v => imgFrameHash img == s.fab.frameHash && imgTarget img == p
      && (List.range 64).all (fun g => if v.tgMask.testBit g then imgRole img g != 0xFF else imgRole img g == 0xFF)

/-- Each route of a PARTITION image has an endpoint in the target partition, and one to a group outside it runs already (R66). -/
def partRoutesOk (img : List Byte) (p : Nat) (s : State) : Bool :=
  let mask := ((partOf? p s).map (·.tgMask)).getD 0
  let inP := fun c => decide (c < 64) && mask.testBit c
  (imgRoutes img).all (fun r => (inP r.1 || inP r.2.1)
    && (s.fab.routes.any (fun o => o.1 == r.1 && o.2.1 == r.2.1) || (inP r.1 || decide (64 ≤ r.1)) && (inP r.2.1 || decide (64 ≤ r.2.1))))

/-- Every check of a FULL image (R73, steps 2 and 3). -/
def fullCheck (img : List Byte) (s : State) : Option Nat :=
  match headerCheck img s with
  | some r => some r
  | none =>
    if imgKind img ≠ 1 ∨ !imgFormatOk img ∨ !partEntriesOk img then some fabFormat else planCheck (routeBytesOk img) (fullPlan img)

/-- Every check of a PARTITION image for p (R80, step 1). -/
def partCheck (img : List Byte) (p : Nat) (s : State) : Option Nat :=
  match headerCheck img s with
  | some r => some r
  | none =>
    if imgKind img ≠ 2 ∨ !imgFormatOk img then some fabFormat
    else if !frameOk img p s then some fabFrame
    else planCheck (routeBytesOk img && partRoutesOk img p s) (partPlan img p s)

end Sys2Proof.Machine
end

