-- ==== Sys2Proof/Machine/Fabric.lean ====
section
/-! DEFINITION. The fabric commands and loads: FAB_STORE_IMAGE, FAB_LOAD_FULL, FAB_RELOAD_PART, FAB_ABORT, DRAIN_END,
and the load at boot (R70-R86). -/

namespace Sys2Proof.Machine

def fabRejectOff : Nat := 0xE00020

def groupOf (g : Nat) (s : State) : TileGroup := s.fab.groups.get g {}

/-- A refused load, store or enrolment is counted and recorded (R84, R506). -/
def fabRefused (reason opcode slot part : Nat) (s : State) : State :=
  record 0x0302 [(1, reason), (1, opcode), (1, slot), (1, part)] (count fabRejectOff 1 s)

def fabRefuse (st reason opcode slot part : Nat) (s : State) : Answer :=
  answer (fabRefused reason opcode slot part s) (refuse st reason)

/-! ## Access entries of a partition (R74, R503) -/

/-- An entry written by the module itself; a locked entry stays (R383). -/
def putEntry (kind idx master bits : Nat) (s : State) : State :=
  if accHas kind idx master bitLock s then s
  else { s with acc := { s.acc with entries := s.acc.entries.set (entryKey kind idx master) bits } }

/-- BAR0 page of a tile (R500). -/
def tilePage (t : Nat) : Nat := 0x1000 * (t / 128 + 1) + 0x800 + t % 128

/-- Tile groups joined by a route to a group of the mask (R74). -/
def joined (routes : List (Nat × Nat × Nat)) (mask g : Nat) : Bool :=
  routes.any (fun r => (r.1 == g && decide (r.2.1 < 64) && mask.testBit r.2.1)
    || (r.2.1 == g && decide (r.1 < 64) && mask.testBit r.1))

/-- Drop every written entry of partition p and of its tiles' pages. -/
def dropPartEntries (p mask : Nat) (s : State) : State :=
  let mine := fun (k : Nat) =>
    let target := k / 256
    target == targetKey tgPartition p ||
      (target / 65536 == tgPage && (List.range 64).any (fun g => mask.testBit g
        && (List.range 8).any (fun t => tilePage (g * 8 + t) == target % 65536)))
  { s with acc := { s.acc with entries := s.acc.entries.filterVals (fun k b => !mine k || b &&& bitLock != 0) } }

/-- DEDUCED (log entry 138): the control cores keep the bits that cold reset gave them, since R74 says which bits a load gives and
takes none of those away. R74: PF0 and OWNER_FN get Read, Write and Control on the partition, its tile groups and those joined by a route Read
and Write; R503: the owner gets Read and Write on its tiles' pages. -/
def grantPart (p : Nat) (v : Partition) (routes : List (Nat × Nat × Nat)) (s : State) : State :=
  let s := dropPartEntries p v.tgMask s
  let s := putEntry tgPartition p v.owner 7 (putEntry tgPartition p 0 7 s)
  let s := ((List.range 64).filter (fun g => v.tgMask.testBit g || joined routes v.tgMask g)).foldl
    (fun s g => putEntry tgPartition p (128 + g) (bitRead + bitWrite) s) s
  if v.owner = 0 then s
  else ((List.range 512).filter (fun t => v.tgMask.testBit (t / 8))).foldl
    (fun s t => putEntry tgPage (tilePage t) v.owner (bitRead + bitWrite) s) s

/-! ## Applying a plan (R73 steps 4 to 6, R75, R80 steps 4 to 7) -/

/-- The fence bits that the self-test leaves on group g. -/
def fenceMask (bad : List Nat) (g : Nat) : Nat :=
  ((List.range 8).filter (fun t => bad.contains (g * 8 + t))).foldl (fun m t => m + 2 ^ t) 0

/-- The state of a loaded group: PARKED, ACTIVE, or FAILED when all 8 tiles failed; every tile is tested, those of a parked group
too (R73, R75). -/
def loadedGroup (pl : FabPlan) (bad : List Nat) (pipes : List (Nat × List Byte)) (g : Nat) : TileGroup :=
  let role := pl.roles.getD g 0
  let f := fenceMask bad g
  { role := role, partition := ((planPart pl g).map (·.1)).getD 0,
    state := if f = 255 then 3 else if role = 0 then 0 else 1, fenced := f,
    pipeline := ((pipes.find? (fun p => p.1 == g)).map (·.2)).getD [] }

/-- Fenced tiles of a role in a partition. -/
def fencedOf (pl : FabPlan) (bad : List Nat) (v : Partition) (role : Nat) : Nat :=
  ((List.range 512).filter (fun t => v.tgMask.testBit (t / 8) && pl.roles.getD (t / 8) 0 == role && bad.contains t)).length

/-- Every tile of the partition failed its self-test (R82). -/
def allFailed (bad : List Nat) (v : Partition) : Bool :=
  (List.range 512).all (fun t => !v.tgMask.testBit (t / 8) || bad.contains t)

/-- The declaration that is published: each fenced tile takes its ceiling share, of contexts too (R61, R75); none when every tile
failed (R82). -/
def published (pl : FabPlan) (bad : List Nat) (v : Partition) : Partition :=
  if allFailed bad v then { v with declared := List.replicate 6 0, decCtx := 0, encCtx := 0, state := 3, closed := false }
  else { v with declared := (List.range 6).map (fun r =>
           v.declared.getD r 0 - ceilingOf r * fencedOf pl bad v (roleOfQty r)),
                 decCtx := v.decCtx - 128 * fencedOf pl bad v 1, encCtx := v.encCtx - 32 * fencedOf pl bad v 2,
                 state := 1, closed := false }

/-- The tile whose page holds an owner-view offset, if one does (R500). -/
def tileAt (off : Nat) : Option Nat :=
  let o := off % 0x1000000
  if decide (0x1000000 ≤ off) && decide (off < 0x5000000) && decide (0x800000 ≤ o) && decide (o < 0x880000) then
    some ((off / 0x1000000 - 1) * 128 + (o - 0x800000) / 0x1000)
  else none

/-- The counters of a tile page start from 0 under a new role (log entry 34). -/
def clearTileCounters (mask : Nat) (roles : List Nat) (s : State) : State :=
  let kept := fun (off : Nat) =>
    match tileAt off with
    | none => true
    | some t => !(mask.testBit (t / 8) && (groupOf (t / 8) s).role != roles.getD (t / 8) 0)
  { s with ctr := s.ctr.filterVals (fun k _ => kept k) }

/-- Load the groups in `mask` and publish the partitions in `ps`. -/
def applyPlan (pl : FabPlan) (mask : Nat) (ps : List Nat) (pipes : List (Nat × List Byte)) (bad : List Nat) (s : State) : State :=
  let s := clearTileCounters mask pl.roles s
  let s := loadCores mask pl.roles (fun g => ((pipes.find? (fun p => p.1 == g)).map (·.2)).getD []) s
  let groups := (List.range 64).foldl (fun (t : Tab TileGroup) g =>
    if mask.testBit g then t.set g (loadedGroup pl bad pipes g) else t) s.fab.groups
  let parts := pl.parts.foldl (fun (t : Tab Partition) p =>
    if ps.contains p.1 then t.set p.1 (published pl bad p.2) else t) s.fab.parts
  let s := { s with fab := { s.fab with groups := groups, parts := parts, routes := pl.routes } }
  let s := pl.parts.foldl (fun s p => if ps.contains p.1 then grantPart p.1 p.2 pl.routes s else s) s
  ps.foldl (fun s p => updateFactors (fun _ => false) p s) (testWork mask s)

/-- A FULL image becomes the running one (R73, R83): partitions of the old image alone lose their entries. -/
def applyFull (img : List Byte) (slot : Nat) (bad : List Nat) (s : State) : State :=
  let pl := fullPlan img
  let s := s.fab.parts.toList.foldl (fun s c => dropPartEntries c.1 c.2.tgMask s) s
  let s := { s with fab := { s.fab with parts := Tab.empty, activeSlot := slot, noImage := false,
                                        activeId := leAt img 0x10 8, activeVer := leAt img 0x18 4,
                                        activeFormat := leAt img 4 2, frameHash := imgFrameHash img } }
  applyPlan pl (2 ^ 64 - 1) (pl.parts.map (·.1)) ((imgPipelines img).getD []) bad s

/-- Tiles that the load tests and that fail: those of the groups in `mask`. -/
def badLoaded (mask : Nat) (bad : List Nat) : Bool := bad.any (fun t => decide (t < 512) && mask.testBit (t / 8))

/-! ## Commands -/

/-- Bytes of host memory. -/
def hostBytes (addr len : Nat) (s : State) : List Byte := Mem.readBytes s.hostMem addr len

/-- FAB_STORE_IMAGE (R71, R77, R79). -/
def fabStoreBody (r : Req) (s : State) : Answer :=
  let slot := df r.w2 2 0
  if !r.owner then answer s (refuse stRefused 0)
  else if s.fab.load.isSome then fabRefuse stNotStarted fabBusy 0xB0 slot 0xFF s
  else
    let len := df r.w1 95 64
    if 16777216 < len then fabRefuse stNotStarted fabFormat 0xB0 slot 0xFF s
    else
      let img := hostBytes (df r.w1 63 0) len s
      match headerCheck img s with
      | some reason => fabRefuse stNotStarted reason 0xB0 slot 0xFF s
      | none => answer { s with fab := { s.fab with store := s.fab.store.set slot img } } (okWith 0)

def execFabStoreImage (src : CmdSrc) (s : State) : Outcome :=
  onWf (.fabStoreImage src) (command 0xB0 fabStoreBody src s)

/-- Close admission in the partitions that `who` picks (R80 step 2), or open it again; a partition whose groups have all FAILED
stays closed. -/
def closeParts (pick : Nat → Bool) (on : Bool) (s : State) : State :=
  let dead := fun (v : Partition) => (List.range 64).all (fun g => !v.tgMask.testBit g || (groupOf g s).state == 3)
  { s with fab := { s.fab with parts := s.fab.parts.mapVals (fun p v =>
      if !pick p then v
      else if on then { v with closed := true, state := 2 }
      else { v with closed := dead v, state := if dead v then 3 else 1 }) } }

def closeGroups (mask : Nat) (on : Bool) (s : State) : State :=
  { s with fab := { s.fab with groups := s.fab.groups.mapVals (fun g v =>
      if mask.testBit g && v.role != 0 && v.state != 3 then { v with state := if on then 2 else 1 } else v) } }

/-- The partitions that a load drains, and their groups. -/
def loadPicks (l : FabLoad) (p : Nat) : Bool := l.op == 2 || l.part == p
def loadMask (l : FabLoad) (s : State) : Nat :=
  if l.op = 2 then 2 ^ 64 - 1 else ((partOf? l.part s).map (·.tgMask)).getD 0

/-- Step 1 has passed: admission closes and the drain begins (R80 steps 2 and 3). -/
def beginDrain (op slot : Nat) (force : Bool) (part : Nat) (img : List Byte) (tk : Ticket) (s : State) : Answer :=
  let l : FabLoad := ⟨op, slot, force, part, img, nowNs s + s.fab.drainMs * 1000000, tk⟩
  let s := closeGroups (loadMask l s) true (closeParts (loadPicks l) true s)
  (setProgress tk 2 { s with fab := { s.fab with load := some l, opStep := 3 } }, none)

/-- What the flash read of a slot gives: its image, or the reason of a refusal (R73 step 1, R84). -/
def readSlot (slot : Nat) (s : State) : Nat ⊕ List Byte :=
  match s.fab.store.find? slot with
  | none => .inl fabSlotEmpty
  | some img => if s.fab.readBad.contains slot then .inl fabFlashRead else .inr img

/-- FAB_LOAD_FULL (R83). -/
def fabLoadFullBody (r : Req) (s : State) : Answer :=
  let slot := df r.w1 2 0
  if !r.owner then answer s (refuse stRefused 0)
  else if s.fab.load.isSome then fabRefuse stNotStarted fabBusy 0xB1 slot 0xFF s
  else
    match readSlot slot s with
    | .inl reason => fabRefuse stNotStarted reason 0xB1 slot 0xFF s
    | .inr img =>
      match fullCheck img s with
      | some reason => fabRefuse stNotStarted reason 0xB1 slot 0xFF s
      | none => beginDrain 2 slot (bitOf r.w1 8) 0xFF img r.tk s

def execFabLoadFull (src : CmdSrc) (s : State) : Outcome :=
  onWf (.fabLoadFull src) (command 0xB1 fabLoadFullBody src s)

/-- FAB_RELOAD_PART is accepted from PF0, and from the owner function with TENANT_RELOAD and the Control bit (R79). -/
def mayReload (r : Req) (p : Nat) (s : State) : Bool × State :=
  if r.owner then (true, s)
  else
    match partOf? p s with
    | none => (false, s)
    | some v => if v.owner == r.fn && v.tenantReload then accCheck tgPartition p r.master bitControl s else (false, s)

def fabReloadBody (r : Req) (s : State) : Answer :=
  let slot := df r.w1 2 0
  let p := df r.w1 21 16
  let m := mayReload r p s
  let s := m.2
  if !m.1 then answer s (refuse stRefused 0)
  else if s.fab.load.isSome then fabRefuse stNotStarted fabBusy 0xB2 slot p s
  else
    match readSlot slot s with
    | .inl reason => fabRefuse stNotStarted reason 0xB2 slot p s
    | .inr img =>
      match partCheck img p s with
      | some reason => fabRefuse stNotStarted reason 0xB2 slot p s
      | none => beginDrain 3 slot (bitOf r.w1 8) p img r.tk s

def execFabReloadPart (src : CmdSrc) (s : State) : Outcome :=
  onWf (.fabReloadPart src) (command 0xB2 fabReloadBody src s)

/-- The old configuration and its live capacity return; the load's command completes (R81, R82). -/
def stopLoad (l : FabLoad) (rep : Reply) (s : State) : State :=
  let s := closeGroups (loadMask l s) false (closeParts (loadPicks l) false s)
  complete l.ticket rep { s with fab := { s.fab with load := none, opStep := 0 } }

/-- FAB_ABORT (R82): it stops a load that drains; with none draining it is too late. -/
def fabAbortBody (r : Req) (s : State) : Answer :=
  match s.fab.load with
  | none => answer s ⟨stTooLate, 0, 0⟩
  | some l =>
    if r.owner || (l.op == 3 && ((partOf? l.part s).map (·.owner)) == some r.fn) then
      answer (stopLoad l ⟨stCancelled, 2, 0⟩ s) (okWith 0)
    else answer s (refuse stRefused 0)

def execFabAbort (src : CmdSrc) (s : State) : Outcome := onWf (.fabAbort src) (command 0xB3 fabAbortBody src s)

/-! ## The end of the drain -/

/-- Committed load of every role is 0 in the partitions that the load drains. -/
def drained (l : FabLoad) (s : State) : Bool :=
  s.fab.parts.toList.all (fun c => !loadPicks l c.1 || (List.range 6).all (fun r => committedOf c.1 r s == 0))

/-- Steps 4 to 7 with the tiles `bad` failing their self-test, and the load's completion (R80, R75, R82, R83). -/
def finishLoad (l : FabLoad) (bad : List Nat) (s : State) : State :=
  let pl := if l.op = 2 then fullPlan l.image else partPlan l.image l.part s
  let mask := loadMask l s
  let s := if l.op = 2 then applyFull l.image l.slot bad s
    else applyPlan pl mask [l.part] ((imgPipelines l.image).getD []) bad s
  let dead := pl.parts.any (fun p => loadPicks l p.1 && allFailed bad p.2)
  let rep : Reply := if dead then ⟨stDegraded, 6, fabSelfTest⟩
    else if badLoaded mask bad then ⟨stDegraded, 7, fabSelfTest⟩
    -- a group loaded over a rerouted link (R31)
    else if (List.range 64).any (fun g => mask.testBit g && wingRerouted (g / 16) s) then ⟨stDegraded, 7, 0⟩ else ⟨stOk, 7, 0⟩
  complete l.ticket rep { s with fab := { s.fab with load := none, opStep := 0 } }

/-- DRAIN_END (R80). -/
def drainEndDo (bad : List Nat) (s : State) : State :=
  match s.fab.load with
  | none => s
  | some l => if drained l s then finishLoad l bad s else s

def execDrainEnd (badTiles : List Nat) (s : State) : Outcome := onWf (.drainEnd badTiles) (drainEndDo badTiles s)

/-! ## The load at boot (R72, R73, R76) -/

/-- The slots of `FAB_BOOT_ORDER` in the order tried. DESIGN CHOICE (log entry 138): an entry of 8 to 0xE, which is neither a slot nor
0xF, ends the list as 0xF does. -/
def bootSlots (order : Nat) : List Nat :=
  ((List.range 8).map (fun k => order / 16 ^ k % 16)).takeWhile (fun v => decide (v < 8))

/-- Try the slots in turn. A refused load is counted and recorded, as FAB_LOAD_FULL's is (R84, log entry 22); what was tried, with
its reason, gathers for the record of R76. -/
def bootTry (bad : List Nat) : List Nat → List (Nat × Nat) → State → State
  | [], tried, s =>
    record 0x0301 ((1, tried.length) :: tried.flatMap (fun t => [(1, t.1), (1, t.2)])) s
  | slot :: rest, tried, s =>
    match readSlot slot s with
    | .inl reason => bootTry bad rest (tried ++ [(slot, reason)]) (fabRefused reason 0xB1 slot 0xFF s)
    | .inr img =>
      match fullCheck img s with
      | some reason => bootTry bad rest (tried ++ [(slot, reason)]) (fabRefused reason 0xB1 slot 0xFF s)
      | none => applyFull img slot bad s

def bootLoad (bad : List Nat) (s : State) : State := bootTry bad (bootSlots s.fab.bootOrder) [] s

end Sys2Proof.Machine
end

