-- ==== Sys2Proof/Machine/Poison.lean ====
section
/-! DEFINITION. What poison does to the structures that the stacks hold (R376-R378). Where the boot firmware has put them is
`Config.burstHolds` (log entry 128): kind 1 source, 2 leg, 3 subscription entries; 4 history ring slots (source, slot); 5 jitter
entries (source, packet mod 256); 6 frame buffers; 7 spilled packet buffers. -/

namespace Sys2Proof.Machine

/-- Part k of structure `idx` lies in a burst of stack `stack` at A. -/
def burstHas (stack a kind idx k : Nat) : Bool :=
  Config.regionHolds (regionOf stack a) kind idx k && Config.burstHolds (dramAt stack a) kind idx k

/-- A read of the structure meets poison in this stack: a poisoned burst, or a FAILED region (R376, R377). -/
def stackLost (stack : Nat) (u : Stack) (kind idx k : Nat) : Bool :=
  u.poison.any (fun a => burstHas stack a kind idx k)
    || u.failedRegions.any (fun r => Config.regionHolds r kind idx k)
    || (u.state == 5 && (List.range 4096).any (fun r => Config.regionHolds (stack * 4096 + r) kind idx k))

/-- The stack in which a read of the structure meets poison. -/
def lostIn (kind idx k : Nat) (s : State) : Option Nat :=
  (s.dramStacks.toList.find? (fun c => stackLost c.1 c.2 kind idx k)).map (·.1)

/-- Read the structure: whether it is lost, with the poisoned read counted in its stack (R378). -/
def readHeld (kind idx k : Nat) (s : State) : Bool × State :=
  match lostIn kind idx k s with
  | some stack => (true, count (memOff stack 0x120) 1 s)
  | none => (false, s)

/-- A poisoned burst becomes clean when it is written (R376). -/
def writeHeld (kind idx k : Nat) (s : State) : State :=
  { s with dramStacks := s.dramStacks.mapVals (fun c u => { u with poison := u.poison.filter (fun a => !burstHas c a kind idx k) }) }

/-- A command has named an entry whose state is poisoned: it completes with DEGRADED, and a work item names the entry (R378). -/
def viaEntry (kind idx w handle : Nat) (s : State) (a : Answer) : Answer :=
  match lostIn kind idx 0 s with
  | none => a
  | some stack =>
    (enginePost 0x0D (200 + 2 * w) 0 0 (BitVec.ofNat 128 handle) 0 (count (memOff stack 0x120) 1 a.1),
     a.2.map (fun r => if r.st = stOk then { r with st := stDegraded } else r))

end Sys2Proof.Machine
end

