-- ==== Sys2Proof/Machine/Frames.lean ====
section
/-! DEFINITION. Frame pools and their buffers in the stacks: regions, the layout of a buffer, its samples, poison (R186, R187,
R192, R197, R378). -/

namespace Sys2Proof.Machine

/-! ## Pools and buffers -/

def poolKey (w fn : Nat) : Nat := w * 64 + fn
def poolAt (k : Nat) (s : State) : Pool := s.video.pools.get k {}
def setPool (k : Nat) (v : Pool) (s : State) : State := { s with video := { s.video with pools := s.video.pools.set k v } }
def bufKey (pool i : Nat) : Nat := pool * 16384 + i
def bufAt (b : Nat) (s : State) : FrameBuf := s.video.bufs.get b {}
def setBuf (b : Nat) (v : FrameBuf) (s : State) : State := { s with video := { s.video with bufs := s.video.bufs.set b v } }
def updBuf (b : Nat) (f : FrameBuf → FrameBuf) (s : State) : State := setBuf b (f (bufAt b s)) s

/-- Every mark is clear (R188). -/
def FrameBuf.isFree (v : FrameBuf) : Bool :=
  !v.decoding && !v.shortRef && !v.longRef && !v.outputPending && v.holders.isEmpty && v.lingers.isEmpty && !v.awaits && !v.encoder

def freeBufs (k : Nat) (s : State) : List Nat := (poolAt k s).held.filter (fun i => (bufAt (bufKey k i) s).isFree)

/-- Bytes of one buffer, rounded up to 64 KiB (R186). -/
def sizeOfBuf (w h : Nat) (deep : Bool) : Nat := ceilDiv (w * h * 3 / 2 * (if deep then 2 else 1)) 65536 * 65536
def bufBytes (v : Pool) : Nat := sizeOfBuf v.bufW v.bufH v.deep

/-! ## Regions (R186, R368) -/

/-- Regions of a stack that boot firmware allocates (R368). -/
def generalRegions (k : Nat) (s : State) : Nat :=
  let dead := fun j => (stackOf j s).state == 5
  if dead k then 0
  else if k = 0 ∨ k = 3 ∨ (k = 6 ∧ dead 0) ∨ (k = 5 ∧ dead 3) then 3860 else 3974

/-- The regions of a Wing's stacks that frame pools may take, in the order in which they are taken: the general regions but those
of ING_POOL, the highest first (log entry 28). -/
def poolRegions (w : Nat) (s : State) : List Nat :=
  let of := fun k => (List.range (generalRegions k s)).map (k * 4096 + ·)
  ((of (2 * w) ++ of (2 * w + 1)).drop (ceilDiv (s.media.poolGib.get w 16 * 2 ^ 30) regionBytes)).reverse

/-- Those that no pool lies in. -/
def freeRegions (w : Nat) (s : State) : List Nat := (poolRegions w s).filter (fun r => (poolOfRegion r s).isNone)

/-- Bytes still free in a Wing's stacks for frame pools. -/
def poolRoom (w : Nat) (s : State) : Nat := (freeRegions w s).length * regionBytes

/-- Regions that the buffers of a pool span: buffer i lies at i times its size. -/
def regionsFor (v : Pool) : Nat :=
  ceilDiv (match v.held with | [] => 0 | i :: r => (r.foldl max i + 1) * bufBytes v) regionBytes

/-- Forget the entries of an access table that were written while the region was not a pool's. -/
def clearRegion (r : Nat) (s : State) : State :=
  { s with acc := { s.acc with entries := s.acc.entries.filterVals (fun k _ => k / 256 != targetKey tgRegion r) } }

/-- The pool takes the regions that its buffers need (R186). -/
def takeRegions (k : Nat) (s : State) : State :=
  let v := poolAt k s
  let more := (freeRegions (k / 64) s).take (regionsFor v - v.regions.length)
  setPool k { v with regions := v.regions ++ more } (more.foldl (fun s r => clearRegion r s) s)

/-- Buffers beyond what is wanted, and those of earlier geometries, are freed as they return to the free list, and regions with them
(R186). -/
def trimPool (k : Nat) (s : State) : State :=
  let v := poolAt k s
  let gone := (freeBufs k s).reverse.take (v.held.length - v.want)
  let was := v.was.map (fun w => (w.1.filter (fun i => !(bufAt (bufKey k i) s).isFree), w.2))
  let dead := gone ++ (v.was.flatMap (·.1)).filter (fun i => (bufAt (bufKey k i) s).isFree)
  let u := { v with held := v.held.filter (fun i => !gone.contains i), was := was.filter (fun w => !w.1.isEmpty) }
  dead.foldl (fun s i => setBuf (bufKey k i) {} s) (setPool k { u with regions := u.regions.take (regionsFor u) } s)

/-- The pool's buffers stay, with their regions, until the composers that hold them are done; it begins anew. -/
def retireGeometry (k : Nat) (s : State) : State :=
  let v := poolAt k s
  trimPool k (setPool k { v with want := 0, held := [], regions := [], was := v.was ++ [(v.held, v.regions)] } s)

/-- The regions that hold buffer i of a pool. -/
def bufRegions (k i : Nat) (s : State) : List Nat :=
  let v := poolAt k s
  if v.held.contains i then v.regions else ((v.was.find? (fun w => w.1.contains i)).map (·.2)).getD []

/-! ## Samples (R187)

Component 0 is luma, 1 and 2 are Cb and Cr at half the size. A buffer holds the luma plane, then the plane of interleaved Cb and
Cr samples, each row BUF_W samples from the next. -/

/-- Place of a sample in its buffer, in samples. -/
def samplePlace (f : FrameBuf) (k x y : Nat) : Nat :=
  if k = 0 then y * f.bufW + x else f.bufW * f.bufH + y * f.bufW + 2 * x + (k - 1)

/-- DRAM address of byte n of a buffer. -/
def bufByteAt (b n : Nat) (s : State) : Nat :=
  let f := bufAt b s
  let off := b % 16384 * sizeOfBuf f.bufW f.bufH f.deep + n
  let r := (bufRegions (b / 16384) (b % 16384) s).getD (off / regionBytes) 0
  dramAt (r / 4096) (r % 4096 * regionBytes + off % regionBytes)

/-- The stored value of a sample: one byte, or a 16-bit little-endian container. -/
def rawSample (b k x y : Nat) (s : State) : Nat :=
  let f := bufAt b s
  let n := samplePlace f k x y
  if f.deep then (Mem.read s.dram (bufByteAt b (2 * n) s)).toNat + 256 * (Mem.read s.dram (bufByteAt b (2 * n + 1) s)).toNat
  else (Mem.read s.dram (bufByteAt b n s)).toNat

/-- A sample as composition reads it: 10 bits, an 8-bit buffer shifted left by 2. -/
def readSample (b k x y : Nat) (s : State) : Nat :=
  if (bufAt b s).deep then rawSample b k x y s % 1024 else rawSample b k x y s * 4

/-- Store a value of a buffer's own depth. -/
def writeSample (b k x y v : Nat) (s : State) : State :=
  let f := bufAt b s
  let n := samplePlace f k x y
  if f.deep then
    { s with dram := Mem.write (Mem.write s.dram (bufByteAt b (2 * n) s) (BitVec.ofNat 8 (v % 1024))) (bufByteAt b (2 * n + 1) s)
                       (BitVec.ofNat 8 (v % 1024 / 256)) }
  else { s with dram := Mem.write s.dram (bufByteAt b n s) (BitVec.ofNat 8 v) }

/-- Mid-grey (R197). -/
def midGrey (f : FrameBuf) : Nat := if f.deep then 512 else 128

/-- The places of band j of a picture: component, x, y. -/
def bandPlaces (f : FrameBuf) (j : Nat) : List (Nat × Nat × Nat) :=
  let rows := min 64 (f.height - 64 * j)
  let plane := fun (k w y0 n : Nat) => (List.range n).flatMap (fun y => (List.range w).map (fun x => (k, x, y0 + y)))
  plane 0 f.width (64 * j) rows ++ plane 1 (ceilDiv f.width 2) (32 * j) (ceilDiv rows 2) ++ plane 2 (ceilDiv f.width 2) (32 * j) (ceilDiv rows 2)

/-- Write a band of a buffer's picture. -/
def writeBand (b j : Nat) (sample : Nat → Nat → Nat → Nat) (s : State) : State :=
  (bandPlaces (bufAt b s) j).foldl (fun s p => writeSample b p.1 p.2.1 p.2.2 (sample p.1 p.2.1 p.2.2) s) s

/-! ## Poison (R376-R378) -/

/-- A byte range of a region, from `o` on, meets buffer b. -/
def bufMeets (b r o n : Nat) (s : State) : Bool :=
  let f := bufAt b s
  let size := sizeOfBuf f.bufW f.bufH f.deep
  (bufRegions (b / 16384) (b % 16384) s).zipIdx.any (fun x =>
    x.1 == r && decide (x.2 * regionBytes + o < (b % 16384 + 1) * size) && decide (b % 16384 * size < x.2 * regionBytes + o + n))

/-- The stack in which a read of the buffer meets poison: a poisoned burst, or a FAILED region. -/
def bufLost (b : Nat) (s : State) : Option Nat :=
  (s.dramStacks.toList.find? (fun c =>
    c.2.poison.any (fun a => bufMeets b (regionOf c.1 a) (a % regionBytes) 64 s)
      || c.2.failedRegions.any (fun r => bufMeets b r 0 regionBytes s)
      || (c.2.state == 5 && (bufRegions (b / 16384) (b % 16384) s).any (fun r => r / 4096 == c.1 && bufMeets b r 0 regionBytes s)))).map (·.1)

/-- Read a buffer as a reference: the poisoned read is counted in its stack. -/
def readBuf (b : Nat) (s : State) : State :=
  match bufLost b s with
  | some stack => count (memOff stack 0x120) 1 s
  | none => s

/-- A poisoned burst of the buffer becomes clean as it is written. -/
def cleanBuf (b : Nat) (s : State) : State :=
  { s with dramStacks := s.dramStacks.mapVals (fun c u =>
      { u with poison := u.poison.filter (fun a => !bufMeets b (regionOf c a) (a % regionBytes) 64 s) }) }

end Sys2Proof.Machine
end

