-- ==== Sys2Proof/Machine/Update.lean ====
section
/-! DEFINITION. Firmware banks, Moults, the trial and its commit, and the settings copies (R455-R471); the steps that
bring a warm reset are in `UpdateRows`. -/

namespace Sys2Proof.Machine

def bankOfIdx (b : Nat) (s : State) : Bank := if b = 0 then s.upd.bankA else s.upd.bankB
def setBank (b : Nat) (v : Bank) (s : State) : State :=
  if b = 0 then { s with upd := { s.upd with bankA := v } } else { s with upd := { s.upd with bankB := v } }
def activeBank (s : State) : Bank := bankOfIdx s.upd.active s
def inactive (s : State) : Nat := 1 - s.upd.active
def inactiveBank (s : State) : Bank := bankOfIdx (inactive s) s

/-! Header fields (R455). -/
def fwVersion (b : Bank) : Nat := leAt b.bytes 8 4
def fwFloorStep (b : Bank) : Nat := byteAt b.bytes 0xC
def fwSettings (b : Bank) : Nat := leAt b.bytes 0xE 2
def fwMinSettings (b : Bank) : Nat := leAt b.bytes 0x10 2

/-- R456: the first check that a bank fails: 1 signature, 2 FAMILY or MEMBER, 3 floor. -/
def bankCheck (b : Bank) (floor : Nat) : Option Nat :=
  if !b.sigOk then some 1
  else if byteAt b.bytes 6 ≠ 0x50 ∨ byteAt b.bytes 7 ≠ 0x80 then some 2
  else if fwFloorStep b < floor then some 3
  else none

/-- A firmware image with the result of its signature check (R455). -/
def bankWith (state : Nat) (bytes : List Byte) (owns : Nat) : Bank :=
  ⟨state, bytes, leAt bytes 0 4 == 0x49574647 && leAt bytes 4 2 == 1 && leAt bytes 0x14 4 == bytes.length
     && byteAt bytes (bytes.length - 194) == 0 && blockVerifies bytes (some Config.grenmetFirmwareKey), owns⟩

/-! ## Moults (R457, R458) -/

/-- The target bytes that difference records build from offset `at_` on; none where the structure of R458 is broken. -/
def buildTarget (base : List Byte) : Nat → List Byte → Nat → Option (List Byte)
  | 0, bs, _ => if bs.isEmpty then some [] else none
  | n + 1, bs, at_ =>
    let op := byteAt bs 0
    let len := leAt bs 8 4
    let src := leAt bs 0xC 4
    if bs.length < 16 ∨ (slice bs 1 3).any (· != 0) ∨ leAt bs 4 4 ≠ at_ ∨ len = 0 then none
    else if op = 1 then
      if src + len ≤ base.length then
        (buildTarget base n (bs.drop 16) (at_ + len)).map (slice base src len ++ ·) else none
    else if op = 2 then
      let padded := (len + 15) / 16 * 16
      if src ≠ 0 ∨ bs.length < 16 + padded ∨ (slice bs (16 + len) (padded - len)).any (· != 0) then none
      else (buildTarget base n (bs.drop (16 + padded)) (at_ + len)).map (slice bs 16 len ++ ·)
    else if op = 3 then
      if 256 ≤ src then none
      else (buildTarget base n (bs.drop 16) (at_ + len)).map (List.replicate len (BitVec.ofNat 8 src) ++ ·)
    else none

def moultTarget (m : List Byte) (s : State) : Option (List Byte) :=
  buildTarget (activeBank s).bytes (leAt m 0x74 4) (m.drop 256) 0

/-- R459: the first reason that a Moult is refused for. -/
def moultCheck (m : List Byte) (s : State) : Option Nat :=
  let structureOk := match moultTarget m s with
    | none => false
    | some t => t.length == leAt m 0x70 4
  if m.length < 256 ∨ leAt m 0 4 ≠ 0x544C4F4D ∨ leAt m 4 2 ≠ 1 ∨ byteAt m 6 ≠ 0x50 ∨ byteAt m 7 ≠ 0x80
      ∨ leAt m 0x78 4 ≠ m.length ∨ leAt m 0x74 4 = 0 ∨ (slice m 0x7C 132).any (· != 0) ∨ 100663296 < leAt m 0x70 4 then
    some 0x02
  else if leAt m 8 4 ≠ fwVersion (activeBank s) ∨ slice m 0x10 48 ≠ sha384 (activeBank s).bytes then some 0x03
  else if leAt m 0xC 4 ≤ fwVersion (activeBank s) then some 0x04
  else if !structureOk then some 0x02
  else none

/-- Stage and apply are refused while an activation is pending or a bank is TRIAL (R471). -/
def updBusy (s : State) : Bool := s.upd.pending || trialRunning s

/-- A reserved bit of words 1 to 3 is not 0 (R471; log entry 119). -/
def updReserved (l : Layout) (r : Req) : Bool := !reservedZero l r

/-- UPD_STAGE (R459, R461). -/
def updStageBody (r : Req) (s : State) : Answer :=
  let len := df r.w1 95 64
  if !r.owner then answer s (refuse stRefused 0)
  else if updReserved ([(95, 0)], [], []) r then answer s (refuse stNotStarted 0x01)
  else if updBusy s then answer s (refuse stNotStarted 0x07)
  else if 67108864 < len then answer s (refuse stNotStarted 0x01)
  else if s.upd.flashBad then answer s (refuse stNotStarted 0x0C)
  else
    let m := hostBytes (df r.w1 63 0) len s
    let s := if (inactiveBank s).state = 1 then setBank (inactive s) { inactiveBank s with state := 0, bytes := [] } s else s
    match moultCheck m s with
    | some reason => answer { s with upd := { s.upd with staging := [] } } (refuse stNotStarted reason)
    | none => answer { s with upd := { s.upd with staging := m } } (okWith 0)

def execUpdStage (src : CmdSrc) (s : State) : Outcome := onWf (.updStage src) (command 0xC0 updStageBody src s)

/-- UPD_APPLY (R460): the whole build is one step of the model, so it is never interrupted (log entry 12). -/
def updApplyBody (r : Req) (s : State) : Answer :=
  if !r.owner then answer s (refuse stRefused 0)
  else if updReserved ([], [], []) r then answer s (refuse stNotStarted 0x01)
  else if updBusy s then answer s (refuse stNotStarted 0x07)
  else if s.upd.staging.isEmpty then answer s (refuse stNotStarted 0x09)
  else if s.upd.flashBad then answer s (refuse stNotStarted 0x0C)
  else
    let bytes := (moultTarget s.upd.staging s).getD []
    let owns := (inactiveBank s).ownsCopy
    let empty := fun (s : State) => setBank (inactive s) { ownsCopy := owns } s
    if sha384 bytes ≠ slice s.upd.staging 0x40 48 then answer (empty s) (refuse stNotStarted 0x06)
    else if byteAt bytes 0xC < s.upd.floor then answer (empty s) (refuse stNotStarted 0x05)
    else answer (setBank (inactive s) (bankWith 2 bytes owns) s) ⟨stOk, 100, 0⟩

def execUpdApply (src : CmdSrc) (s : State) : Outcome := onWf (.updApply src) (command 0xC1 updApplyBody src s)

/-- UPD_SCHEDULE (R462). -/
def updScheduleBody (r : Req) (s : State) : Answer :=
  let t := df r.w1 63 0
  let health := df r.w2 15 0
  let fall := df r.w2 31 16
  if !r.owner then answer s (refuse stRefused 0)
  else if updReserved ([(63, 0)], [(32, 0)], []) r then answer s (refuse stNotStarted 0x01)
  else if health < 10 ∨ fall < health + 10 then answer s (refuse stNotStarted 0x01)
  else if s.upd.pending then answer s (refuse stNotStarted 0x07)
  else if (inactiveBank s).state ≠ 2 then answer s (refuse stNotStarted 0x09)
  else if cmpDiff t (cmpNow s) < 1000000000 then answer s (refuse stNotStarted 0x08)
  else
    answer { s with upd := { s.upd with pending := true, activateAt := t, healthEnd := cmpAdd t (health * 1000000000),
                                        fallbackAt := cmpAdd t (fall * 1000000000), commitMode := bitOf r.w2 32,
                                        ownerFall := false } } (okWith 0)

def execUpdSchedule (src : CmdSrc) (s : State) : Outcome :=
  onWf (.updSchedule src) (command 0xC2 updScheduleBody src s)

/-- UPD_CANCEL (R462). Once the instant has passed it is too late, as it is for an activation in trial; with neither there is none
to remove. -/
def updCancelBody (r : Req) (s : State) : Answer :=
  if !r.owner then answer s (refuse stRefused 0)
  else if updReserved ([], [], []) r then answer s (refuse stNotStarted 0x01)
  else if s.upd.pending && cmpReached (cmpNow s) s.upd.activateAt then answer s ⟨stTooLate, 0, 0⟩
  else if s.upd.pending then
    answer { s with upd := { s.upd with pending := false, activateAt := 0, fallbackAt := 0, healthEnd := 0 } } (okWith 0)
  else if trialRunning s then answer s ⟨stTooLate, 0, 0⟩
  else answer s (refuse stNotStarted 0x09)

def execUpdCancel (src : CmdSrc) (s : State) : Outcome := onWf (.updCancel src) (command 0xC3 updCancelBody src s)

/-- The conditions of R465 that do not name the settings. -/
def trialHealthy (s : State) : Bool :=
  cmpReached (cmpNow s) s.upd.healthEnd && !s.upd.trialOver && (!s.dom.enable || s.dom.state == 2)

/-- The fall-back instant has passed with the bank still TRIAL (R466). -/
def fallBackDue (s : State) : Bool := trialRunning s && s.upd.fallbackAt != 0 && cmpReached (cmpNow s) s.upd.fallbackAt

/-- The commit of R465. -/
def commitTrial (s : State) : State :=
  let old := s.upd.floor
  let new := min 127 (max old (fwFloorStep (activeBank s)))
  let s := setBank s.upd.active { activeBank s with state := 4 } s
  let s := setBank (inactive s) { inactiveBank s with state := 6 } s
  record 0x0F03 [(1, old), (1, new)]
    { s with upd := { s.upd with floor := new, fallbackAt := 0, activateAt := 0, healthEnd := 0 } }

/-- UPD_COMMIT (R465, R469). -/
def updCommitBody (r : Req) (s : State) : Answer :=
  if !r.owner then answer s (refuse stRefused 0)
  else if updReserved ([], [], []) r then answer s (refuse stNotStarted 0x01)
  else if !trialRunning s then answer s (refuse stNotStarted 0x0A)
  else if fallBackDue s then answer s ⟨stTooLate, 0, 0⟩
  else if s.upd.unreadable then answer s (refuse stUnreadable 0x0D)
  else if trialHealthy s then answer (commitTrial s) (okWith 0)
  else answer s (refuse stNotStarted 0x0E)

def execUpdCommit (src : CmdSrc) (s : State) : Outcome := onWf (.updCommit src) (command 0xC4 updCommitBody src s)

/-- TRIAL_COMMIT: in commit mode 0, the first instant at which every condition of R465 holds. -/
def trialCommitDo (s : State) : State :=
  if trialRunning s && !fallBackDue s && !s.upd.commitMode && !s.upd.unreadable && trialHealthy s then commitTrial s else s

def execTrialCommit (s : State) : Outcome := onWf .trialCommit (trialCommitDo s)

/-! ## Settings (R467-R469) -/

def copyOf (c : Nat) (s : State) : SettingsCopy := if c = 0 then s.upd.copy0 else s.upd.copy1
def setCopy (c : Nat) (v : SettingsCopy) (s : State) : State :=
  if c = 0 then { s with upd := { s.upd with copy0 := v } } else { s with upd := { s.upd with copy1 := v } }

/-- `LANE_GROUP_CFG` and `LANE_TM_CFG` of a group as words (R352). -/
def laneGroupWord (c : LaneGroup) : Word64 := pack64 [(8, 1, c.medium), (4, 2, c.width), (0, 2, c.personality)]
def laneTmWord (c : LaneGroup) : Word64 := pack64 [(28, 14, c.idleMs), (16, 10, c.dozeUs), (0, 1, b2n c.sleep)]

/-- The hash masks of the stacks (R370), by stack × 16 + register: pseudo-channel masks from 0 on, bank masks from 6 on. -/
def hashesNow (s : State) : Tab Nat :=
  s.dramStacks.toList.foldl (fun t c =>
    let t := c.2.hashPc.toList.foldl (fun t e => t.set (c.1 * 16 + e.1) e.2) t
    c.2.hashBank.toList.foldl (fun t e => t.set (c.1 * 16 + 6 + e.1) e.2) t) Tab.empty

/-- The settings body of the running configuration (R467). -/
def settingsNow (s : State) : SettingsBody :=
  { domCfg := pack64 [(32, 32, s.dom.domainId), (16, 8, s.dom.prio), (8, 5, s.dom.index), (0, 1, b2n s.dom.enable)],
    cblEnable := s.body.cblEnable, bootOrder := s.fab.bootOrder,
    laneGroups := s.lanes.groups.mapVals (fun _ c => (laneGroupWord c, laneTmWord c)), hash := hashesNow s }

/-- The firmware saves a change (R467, R468, R469): outside a trial into the copy it does not own, which it then owns;
in a trial into its own copy; nothing while the settings are unreadable. -/
def saveSettings (s : State) : State :=
  if s.upd.unreadable then s
  else
    let b := activeBank s
    let own := b.ownsCopy
    let c : SettingsCopy := ⟨fwSettings b, fwVersion b, (copyOf own s).gen + 1, true, settingsNow s⟩
    if trialRunning s then setCopy own c s
    else setBank s.upd.active { b with ownsCopy := 1 - own } (setCopy (1 - own) c s)

/-- A change is saved; what leaves the settings as they are is not. -/
def saving (f : State → State) (s : State) : State :=
  let t := f s
  if settingsNow t = settingsNow s then t else saveSettings t

/-- The new firmware's first start: it migrates the previous bank's copy, or finds it unreadable (R468, R469). -/
def migrateSettings (prev : Bank) (s : State) : State :=
  let b := activeBank s
  let c := copyOf prev.ownsCopy s
  if c.crcOk && decide (fwMinSettings b ≤ c.version) && decide (c.version ≤ fwSettings b) then
    let copy := 1 - prev.ownsCopy
    let s := setCopy copy { c with version := fwSettings b, writer := fwVersion b, gen := c.gen + 1 } s
    record 0x0F07 [(2, c.version), (2, fwSettings b)] (setBank s.upd.active { b with ownsCopy := copy } s)
  else
    record 0x0F05 [(2, if c.crcOk then c.version else 0), (2, fwMinSettings b), (2, fwSettings b)]
      { s with upd := { s.upd with unreadable := true } }

end Sys2Proof.Machine
end

