-- ==== Sys2Proof/Machine/Lanes.lean ====
section
/-! DEFINITION. The lanes: ports, the Tremund transmitter, loss and return of service, bring-up, power states, shorts
and the lane controls (R325-R350, R352). -/

namespace Sys2Proof.Machine

/-! ## Tremund frames and blocks (R332-R337) -/

def packFrameHeader (f : TmFrame) : Word128 :=
  pack128 [(124, 4, f.ftype), (112, 12, f.body.length), (92, 20, f.stream), (60, 32, f.ext)]

/-- Bytes as whole words, the last one padded with zero bytes. -/
def wordsOf : Nat → List Byte → List Word128
  | 0, _ => []
  | n + 1, bs => BitVec.ofNat 128 (leNat (bs.take 16)) :: wordsOf n (bs.drop 16)

/-- Header word and body words (R337). -/
def frameWords (f : TmFrame) : List Word128 := packFrameHeader f :: wordsOf (ceilDiv f.body.length 16) f.body

/-- The one-word fill frame. -/
def fillWord : Word128 := 0

/-- Payload of a block that begins with `ws`, padded with fill frames. -/
def padBlock (ws : List Word128) : List Word128 := ws ++ List.replicate (64 - ws.length) fillWord

/-- The blocks of a frame: it begins its first block, and what is left of it begins the second (log entry 21). Pairs of
FRAME_PTR and payload words. -/
def frameBlocks (f : TmFrame) : List (Nat × List Word128) :=
  let ws := frameWords f
  if ws.length ≤ 64 then [(0, padBlock ws)]
  else
    let r := ws.drop 64
    [(0, ws.take 64), (if r.length < 64 then r.length else 127, padBlock r)]

def carries (f : TmFrame) : Option Nat := if f.ftype = 1 ∨ f.ftype = 2 then some f.stream else none

/-- The CRC of a block (R335). -/
def tmCrc (h : Word128) (ws : List Word128) : BitVec 32 := crc32 (bytesOfWords (h :: ws))

/-- One scrambled bit (R332). -/
def scramble (scr : Nat) (d : Bool) : Nat × Bool :=
  let b := (d != scr.testBit 38) != scr.testBit 57
  ((2 * scr + b2n b) % 2 ^ 58, b)

/-- A symbol on the line and the stuffing after it (R331, R333): the run that it leaves and the symbols stuffed. Symbols
are the bit pairs of the Gray code: 0 −3, 1 −1, 3 +1, 2 +3. -/
def lineSymbol (sym runSym runLen : Nat) : Nat × Nat × Nat :=
  let n := if sym = runSym then runLen + 1 else 1
  if 23 ≤ n then (if 2 ≤ sym then 0 else 2, 1, 1) else (sym, n, 0)

/-- Scramble and map pairs of bits of `d`; the transmitter after them, and the stuffed symbols. -/
def linePairs : Nat → Nat → LaneTx → Nat → LaneTx × Nat
  | 0, _, t, k => (t, k)
  | n + 1, d, t, k =>
    let a := scramble t.scr (d.testBit 0)
    let b := scramble a.1 (d.testBit 1)
    let y := lineSymbol (b2n a.2 + 2 * b2n b.2) t.runSym t.runLen
    linePairs n (d / 4) { t with scr := b.1, runSym := y.1, runLen := y.2.1 } (k + y.2.2)

/-- A block goes through the scrambler and the stuffing: the transmitter after it, and the symbols stuffed. -/
def lineBlock (h : Word128) (ws : List Word128) (t : LaneTx) : LaneTx × Nat :=
  let r := (h :: ws).foldl (fun (p : LaneTx × Nat) w => linePairs 64 w.toNat p.1 p.2) (t, 0)
  linePairs 16 (tmCrc h ws).toNat r.1 r.2

/-- The header of the next block that lane `l` sends (R334). WAKE_REQ stays 0 (log entry 21). -/
def tmHeader (l kind seq ptr plan : Nat) (s : State) : Word128 :=
  let v := laneOf l s
  pack128 [(112, 16, 0x7E5A), (108, 4, kind), (96, 12, seq), (84, 12, v.rx.next + 4095), (83, 1, b2n v.rx.nakDue),
    (71, 12, if v.rx.nakDue then v.rx.next else 0), (69, 2, plan), (68, 1, 0),
    (61, 7, ptr), (58, 3, (laneGroup l s).width), (55, 3, l - portOf l s), (48, 7, portOf l s), (0, 48, Config.serial)]

/-- Send one block on a lane: the NAK that is due goes with it, and stuffed symbols are counted (R336, R341). -/
def sendTm (l kind seq ptr plan : Nat) (ws : List Word128) (s : State) : State :=
  let h := tmHeader l kind seq ptr plan s
  let r := lineBlock h ws (laneOf l s).tx
  let s := updLane l (fun v =>
    { v with tx := r.1, rx := { v.rx with nakDue := false, nakAt := if v.rx.nakDue then nowNs s else v.rx.nakAt } }) s
  let s := if r.2 = 0 then s else count (laneCtr l 5) r.2 s
  emit (.tmBlock l h ws) s

/-- A REFRESH (2) or TRAIN (3) block: only fill frames, never stored. -/
def sendIdleBlock (l kind plan : Nat) (s : State) : State :=
  let s := updLane l (fun v => { v with tx := { v.tx with refreshAt := nowNs s } }) s
  sendTm l kind 0 0 plan (padBlock []) s

/-- A DATA block enters the replay buffer and is sent (R341). -/
def sendDataBlock (l plan : Nat) (stream : Option Nat) (b : Nat × List Word128) (s : State) : State :=
  let t := (laneOf l s).tx
  let s := updLane l (fun v => { v with tx := { v.tx with
      buffer := v.tx.buffer ++ [⟨t.next, b.1, b.2, stream⟩], next := (t.next + 1) % 4096 } }) s
  sendTm l 1 t.next b.1 plan b.2 s

/-- A DATA block of fill frames; a REFRESH block while 256 blocks are unacknowledged (R341). -/
def sendFill (l plan : Nat) (s : State) : State :=
  if (laneOf l s).tx.buffer.length < 256 then sendDataBlock l plan none (0, padBlock []) s
  else sendIdleBlock l 2 plan s

/-! ## Streams and lanes (R339) -/

/-- The lane that carries a stream: its home when UP, else the next UP lane in ascending position, wrapping. -/
def laneForStream (p stream : Nat) (s : State) : Option Nat :=
  let w := portWidth p s
  ((List.range w).map (fun k => p + (stream + k) % w)).find? (fun l => laneUp l s)

/-- Another lane of the port still has a block of the stream that has not been acknowledged, or a frame of it. -/
def carriedElsewhere (l stream : Nat) (s : State) : Bool :=
  (portLanes (portOf l s) s).any (fun k => k != l &&
    ((laneOf k s).tx.buffer.any (fun b => b.stream == some stream)
      || (laneOf k s).tx.queue.any (fun f => carries f == some stream)))

/-- A frame is held on a lane that has returned to UP within 20 µs (R339). -/
def held (l : Nat) (f : TmFrame) (s : State) : Bool :=
  match carries f with
  | none => false
  | some x => decide (nowNs s < (laneOf l s).upAt + 20000) && carriedElsewhere l x s

/-- Send the waiting frames in order while the replay buffer has room; those of a held stream stay (R339, R341). -/
def pumpFrames : Nat → Nat → List TmFrame → State → State
  | 0, _, _, s => s
  | _, _, [], s => s
  | n + 1, l, f :: fs, s =>
    let bs := frameBlocks f
    if 256 < (laneOf l s).tx.buffer.length + bs.length then s
    else if !held l f s then
      let s := updLane l (fun v => { v with tx := { v.tx with queue := v.tx.queue.erase f, lastFrame := nowNs s } }) s
      pumpFrames n l fs (bs.foldl (fun s b => sendDataBlock l 0 (carries f) b s) s)
    else pumpFrames n l fs s

def pump (l : Nat) (s : State) : State :=
  let v := laneOf l s
  if v.state = 3 ∧ v.tx.power = 0 ∧ !s.body.hold then pumpFrames v.tx.queue.length l v.tx.queue s else s

/-- Give a frame to a lane; a direction that sleeps is due to wake (R345). -/
def queueFrame (l : Nat) (f : TmFrame) (s : State) : State :=
  pump l (updLane l (fun v => { v with tx := { v.tx with queue := v.tx.queue ++ [f],
                                                         wakeDue := v.tx.wakeDue || v.tx.power != 0 } }) s)

/-- The lane of a port that a frame takes: by stream, DOMAIN on the lowest UP position (R339). -/
def laneForFrame (p : Nat) (f : TmFrame) (s : State) : Option Nat :=
  match carries f with
  | some x => laneForStream p x s
  | none => (upLanes p s).head?

/-- The peer of a port bears another DOMAIN_ID (R417). -/
def otherDomain (p : Nat) (s : State) : Bool :=
  s.dom.enable && (match s.dom.peerDomain.find? p with | some d => d != s.dom.domainId | none => false)

/-- What a port carries: DOMAIN frames always; TIME frames where the peer is of this domain; media and feedback where the device is
also JOINED, or in no domain (R417, R424, R426, R427). -/
def portCarries (p ftype : Nat) (s : State) : Bool :=
  ftype == 4 || (!otherDomain p s && (ftype == 3 || s.dom.state == 0 || s.dom.state == 2))

/-- Send a frame on a Tremund port; with no lane UP, or none that may carry it, it is discarded and counted (R349); one that a peer of
another domain keeps off the port counts as a bad frame (R417). -/
def sendFrame (p : Nat) (f : TmFrame) (s : State) : State :=
  match (if portCarries p f.ftype s then laneForFrame p f s else none) with
  | some l => queueFrame l f s
  | none => count (laneCtr p (if f.ftype != 4 && otherDomain p s then 4 else 7)) 1 s

/-! ## Loss and return of service -/

/-- Every lane of an Ethernet port leaves UP (R330). A lane that is held, shorted or under test keeps its own state. -/
def ethDown (p : Nat) (s : State) : State :=
  let was := (portLanes p s).any (fun l => laneUp l s)
  let s := (portLanes p s).foldl (fun s l =>
    if laneUp l s || (laneOf l s).state == 1 then setLaneState l 4 s else s) s
  if was then ethChanged p false s else s

/-- The lane's blocks that have not been acknowledged are dropped and counted (R342, R349), its waiting frames go to the
port's other lanes, and its receiver starts afresh. -/
def clearLane (l : Nat) (s : State) : State :=
  let v := laneOf l s
  let n := v.tx.buffer.length
  let s := if n = 0 then s else count (laneCtr l 3) n s
  let s := setLane l { v with tx := { v.tx with buffer := [], queue := [], next := 0, power := 0, wakeDue := false },
                              rx := {}, step := 1, stepAt := nowNs s } s
  v.tx.queue.foldl (fun s f => sendFrame (portOf l s) f s) s

/-- A Tremund lane leaves service for `st`. -/
def tremundLeave (l st : Nat) (s : State) : State :=
  let was := laneUp l s
  let s := clearLane l (setLaneState l st s)
  if was then tremundChanged (portOf l s) s else s

/-- A lane leaves service, whichever its personality; `st` is what its STATE then reads. -/
def leaveService (l st : Nat) (s : State) : State :=
  if isTremund l s then tremundLeave l st s
  else if isEth l s then setLaneState l st (ethDown (portOf l s) s)
  else s

/-- The lane may run bring-up: not shorted, held down or under test, and the module not in Safe Hold (R487). -/
def mayTrain (l : Nat) (s : State) : Bool :=
  let v := laneOf l s
  !v.short && !v.holdDown && v.loop == 0 && !s.body.hold

/-- Loss of signal or lock (R346): a Tremund lane returns to step 1, an Ethernet port goes DOWN. -/
def loseLane (l : Nat) (s : State) : State :=
  if !mayTrain l s then s
  else if isTremund l s then tremundLeave l 1 s
  else if isEth l s then ethDown (portOf l s) s
  else s

/-- LOS (R346). One that the far end's IDLE explains is no fault (R345). -/
def losDo (l : Nat) (s : State) : State :=
  if (laneGroup l s).personality = 0 then s
  else
    let expected := isTremund l s && (laneOf l s).rx.power == 2
    let s := updLane l (fun v => { v with los := true }) s
    if expected then s else loseLane l s

def execLaneLos (lane : Nat) (s : State) : Outcome := onWf (.laneLos lane) (losDo lane s)

/-- The signal is back: step 1 counts from here (R343, R346). -/
def losClearedDo (l : Nat) (s : State) : State :=
  if (laneGroup l s).personality = 0 then s
  else updLane l (fun v => { v with los := false, stepAt := if v.los then nowNs s else v.stepAt }) s

def execLosCleared (lane : Nat) (s : State) : Outcome := onWf (.losCleared lane) (losClearedDo lane s)

def loseLock (l : Nat) (s : State) : State := loseLane l (updLane l (fun v => { v with lol := true }) s)

/-- LOL of one lane, or of the eight of a group whose PLL has lost lock (R346). -/
def lolDo (l : Nat) (pll : Bool) (s : State) : State :=
  if (laneGroup l s).personality = 0 then s
  else if pll then
    let s := setGroupCfg (l / 8) { laneGroup l s with pllLock := false } s
    (List.range 8).foldl (fun s k => loseLock (l / 8 * 8 + k) s) s
  else loseLock l s

def execLaneLol (lane : Nat) (pll : Bool) (s : State) : Outcome := onWf (.laneLol lane pll) (lolDo lane pll s)

/-- Begin bring-up: step 1 of R343, or auto-negotiation. -/
def beginTraining (l : Nat) (s : State) : State :=
  if mayTrain l s && (laneGroup l s).personality != 0 then
    updLane l (fun v => { v with step := 1, stepAt := nowNs s, waitUntil := none }) (setLaneState l 1 s)
  else s

/-- PLL_LOCK (R343, R346): LOL clears and bring-up starts. -/
def pllLockDo (g : Nat) (s : State) : State :=
  let c := groupCfg g s
  if c.personality = 0 ∨ c.pllLock then s
  else
    let s := setGroupCfg g { c with pllLock := true } s
    (List.range 8).foldl (fun s k => beginTraining (g * 8 + k) (updLane (g * 8 + k) (fun v => { v with lol := false }) s)) s

def execPllLock (group : Nat) (s : State) : Outcome := onWf (.pllLock group) (pllLockDo group s)

/-- The pair is reversed: one record per lock (R347, R506). -/
def noteReversed (l : Nat) (inv : Bool) (s : State) : State :=
  let s := updLane l (fun v => { v with inverted := inv }) s
  if inv then record 0x0A05 [(1, l), (1, (laneGroup l s).personality)] s else s

/-- PORT_STATE: an Ethernet port completes auto-negotiation and training and goes UP (R327, R330); bit k of `inv` says that the pair
of its lane k is reversed (R347). -/
def portStateDo (p inv : Nat) (s : State) : State :=
  let ready := (portLanes p s).all (fun l => mayTrain l s && !(laneOf l s).los && !laneUp l s)
  if isPort p s && isEth p s && (laneGroup p s).pllLock && ready then
    let s := (portLanes p s).foldl (fun s l => setLaneState l 3 (updLane l (fun v => { v with lol := false }) s)) s
    ethChanged p true ((portLanes p s).foldl (fun s l => noteReversed l (inv.testBit (l - p)) s) s)
  else s

def execPortState (port inverted : Nat) (s : State) : Outcome :=
  onWf (.portState port inverted) (portStateDo port inverted s)

/-! ## Bring-up (R343, R344) -/

/-- The identity in a header differs from that of another UP lane of the port (R344). -/
def miswired (l : Nat) (h : Word128) (s : State) : Bool :=
  (upLanes (portOf l s) s).any (fun k => k != l &&
    ((laneOf k s).peerSerial != fld h 47 0 || (laneOf k s).peerLane != fld h 54 48 || (laneOf k s).peerWidth != fld h 60 58))

/-- The far end's identity, as a header gives it. -/
def notePeer (l : Nat) (h : Word128) (s : State) : State :=
  updLane l (fun v => { v with peerPos := fld h 57 55, peerLane := fld h 54 48, peerSerial := fld h 47 0, peerWidth := fld h 60 58 }) s

/-- The lane is held MISWIRED (R344, R506). -/
def holdMiswired (l : Nat) (h : Word128) (s : State) : State :=
  record 0x0A04 [(1, l), (1, fld h 54 48), (1, fld h 60 58), (8, fld h 47 0)] (clearLane l (setLaneState l 7 s))

def nextStep (l : Nat) (s : State) : State := updLane l (fun v => { v with step := v.step + 1, stepAt := nowNs s }) s

/-- A lane becomes UP (R343, R349). The port's other lanes hand over the frames of streams that move back. -/
def goUp (l : Nat) (s : State) : State :=
  let s := updLane l (fun v => { v with attempts := 0, upAt := nowNs s, tx := { v.tx with lastFrame := nowNs s } })
    (setLaneState l 3 s)
  let s := if (upLanes (portOf l s) s).length < portWidth l s then tremundChanged (portOf l s) s else s
  pump l s

/-- A header that checks: SYNC and KIND (R335). -/
def headerOk (h : Word128) : Bool := fld h 127 112 == 0x7E5A && decide (1 ≤ fld h 111 108) && decide (fld h 111 108 ≤ 3)

/-- The lane's present step completes. A wait after failed attempts, LOS and a PLL out of lock keep it in step 1. -/
def bringupDo (l : Nat) (h : Word128) (inv : Bool) (s : State) : State :=
  let v := laneOf l s
  if !(isTremund l s && (laneGroup l s).pllLock && mayTrain l s && !v.los && v.waitUntil.isNone && headerOk h
       && (v.state == 1 || v.state == 2)) then s
  else if v.step = 1 then nextStep l (updLane l (fun v => { v with lol := false }) s)
  else if v.step = 2 then
    let s := notePeer l h (noteReversed l inv s)
    if miswired l h s then holdMiswired l h s
    else
      let s := updLane l (fun v => { v with rx := {}, tx := { v.tx with next := 0, buffer := [] } }) s
      sendFill l 0 (nextStep l (setLaneState l 2 s))
  else if v.step = 3 then (if fld h 111 108 = 1 then nextStep l s else s)
  else
    let s := notePeer l h s
    if miswired l h s then holdMiswired l h s else goUp l s

def execTmBringupStep (lane : Nat) (header : BitVec 128) (inverted : Bool) (s : State) : Outcome :=
  onWf (.tmBringupStep lane header inverted) (bringupDo lane header inverted s)

/-- Bounds of the four steps in ns. -/
def stepBound (step : Nat) : Nat := [10000000, 5000000, 1000000, 4000000].getD (step - 1) 0

/-- A step misses its bound (R343): back to step 1, and after 3 failures in a row a wait of 100 ms. -/
def stepTimeoutDo (l : Nat) (s : State) : State :=
  let v := laneOf l s
  if isTremund l s && (laneGroup l s).pllLock && (v.state == 1 || v.state == 2) && !v.los && v.waitUntil.isNone
      && decide (v.stepAt + stepBound v.step ≤ nowNs s) then
    let n := v.attempts + 1
    let s := record 0x0A03 [(1, l), (1, v.step), (1, min n 255)] s
    let s := clearLane l (setLaneState l 1 s)
    updLane l (fun v => { v with attempts := n, waitUntil := if 3 ≤ n then some (nowNs s + 100000000) else none }) s
  else s

def execTmStepTimeout (lane : Nat) (s : State) : Outcome := onWf (.tmStepTimeout lane) (stepTimeoutDo lane s)

def retryWaitDo (l : Nat) (s : State) : State :=
  match (laneOf l s).waitUntil with
  | none => s
  | some t => if t ≤ nowNs s then updLane l (fun v => { v with waitUntil := none, stepAt := nowNs s }) s else s

def execTmRetryWaitEnd (lane : Nat) (s : State) : Outcome := onWf (.tmRetryWaitEnd lane) (retryWaitDo lane s)

/-- A DATA block has failed 8 times in a row (R342). -/
def tmRetrain (l : Nat) (s : State) : State :=
  let s := updLane l (fun v => { v with retrains := min (v.retrains + 1) 255 }) s
  tremundLeave l 1 (record 0x0A02 [(1, l), (1, (laneOf l s).retrains)] s)

/-! ## Replay requests and held streams -/

/-- A request not served 1 µs later is repeated (R341): in the next header, at once where the direction dozes. -/
def nakRepeatDo (l : Nat) (s : State) : State :=
  let v := laneOf l s
  if isTremund l s && (v.state == 2 || v.state == 3) && v.rx.discarding && decide (v.rx.nakAt + 1000 ≤ nowNs s) then
    let s := updLane l (fun v => { v with rx := { v.rx with nakDue := true } }) s
    if v.tx.power = 0 then sendFill l 0 s else if v.tx.power = 1 then sendIdleBlock l 2 1 s else s
  else s

def execTmNakRepeat (lane : Nat) (s : State) : Outcome := onWf (.tmNakRepeat lane) (nakRepeatDo lane s)

/-- A held stream is released when its old blocks are acknowledged or after 20 µs (R339). -/
def streamHoldDo (p stream : Nat) (s : State) : State :=
  if isTremund p s then
    match laneForStream p stream s with
    | some l => pump l s
    | none => s
  else s

def execTmStreamHoldEnd (port stream : Nat) (s : State) : Outcome :=
  onWf (.tmStreamHoldEnd port stream) (streamHoldDo port stream s)

/-! ## Power states (R345) -/

/-- DOZE: after DOZE_US with no frame queued, when SLEEP is 1. -/
def dozeDo (l : Nat) (s : State) : State :=
  let v := laneOf l s
  let g := laneGroup l s
  if isTremund l s && v.state == 3 && v.tx.power == 0 && g.sleep && v.tx.queue.isEmpty
      && decide (v.tx.lastFrame + g.dozeUs * 1000 ≤ nowNs s) then
    let s := sendFill l 1 s
    updLane l (fun v => { v with tx := { v.tx with power := 1, dozeAt := nowNs s, refreshAt := nowNs s } }) s
  else s

def execTmDoze (lane : Nat) (s : State) : Outcome := onWf (.tmDoze lane) (dozeDo lane s)

/-- IDLE: after IDLE_MS in DOZE. -/
def idleDo (l : Nat) (s : State) : State :=
  let v := laneOf l s
  let g := laneGroup l s
  if isTremund l s && v.state == 3 && v.tx.power == 1 && g.sleep && g.idleMs != 0
      && decide (v.tx.dozeAt + g.idleMs * 1000000 ≤ nowNs s) then
    let s := sendIdleBlock l 2 2 s
    updLane l (fun v => { v with tx := { v.tx with power := 2 } }) s
  else s

def execTmIdle (lane : Nat) (s : State) : Outcome := onWf (.tmIdle lane) (idleDo lane s)

/-- A direction returns to ACTIVE; an exit from IDLE sends a TRAIN burst and is counted. The waiting frames follow, or a
DATA block of fill frames. -/
def wakeLane (l : Nat) (s : State) : State :=
  let v := laneOf l s
  let s := if v.tx.power = 2 then sendIdleBlock l 3 0 (count (laneCtr l 6) 1 s) else s
  let s := updLane l (fun v => { v with tx := { v.tx with power := 0, wakeDue := false, lastFrame := nowNs s } }) s
  if v.tx.queue.isEmpty then sendFill l 0 s else pump l s

def wakeDo (l : Nat) (s : State) : State :=
  let v := laneOf l s
  if isTremund l s && v.state == 3 && v.tx.power != 0 && (v.tx.wakeDue || !v.tx.queue.isEmpty) then wakeLane l s else s

def execTmWake (lane : Nat) (s : State) : Outcome := onWf (.tmWake lane) (wakeDo lane s)

/-- A dozing direction sends a REFRESH block every 1 µs. -/
def refreshDo (l : Nat) (s : State) : State :=
  let v := laneOf l s
  if isTremund l s && v.state == 3 && v.tx.power == 1 && decide (v.tx.refreshAt + 1000 ≤ nowNs s) then
    sendIdleBlock l 2 1 s
  else s

def execTmRefresh (lane : Nat) (s : State) : Outcome := onWf (.tmRefresh lane) (refreshDo lane s)

/-! ## Shorts and controls (R348, R350, R352) -/

/-- A transmit leg is shorted (R348). -/
def faultShortDo (l : Nat) (s : State) : State :=
  if (laneGroup l s).personality = 0 ∨ (laneOf l s).short then s
  else
    let s := leaveService l 5 s
    record 0x0A06 [(1, l)] (updLane l (fun v => { v with short := true, shortAt := nowNs s }) s)

def execFaultShort (lane : Nat) (s : State) : Outcome := onWf (.faultShort lane) (faultShortDo lane s)

/-- The transmitter retries every 100 ms. -/
def shortRetryDo (l : Nat) (short : Bool) (s : State) : State :=
  let v := laneOf l s
  if v.short && decide (v.shortAt + 100000000 ≤ nowNs s) then
    if short then setLane l { v with shortAt := nowNs s } s
    else
      let s := setLane l { v with short := false } s
      if v.loop ≠ 0 then setLaneState l 6 s else if v.holdDown then setLaneState l 4 s else beginTraining l s
  else s

def execFaultShortRetry (lane : Nat) (short : Bool) (s : State) : Outcome :=
  onWf (.faultShortRetry lane short) (shortRetryDo lane short s)

/-- RETRAIN in `LANE_CTRL` restarts bring-up or auto-negotiation (R352). -/
def laneRetrainDo (l : Nat) (s : State) : State :=
  if mayTrain l s then beginTraining l (leaveService l 1 s) else s

def execLaneRetrain (who lane : Nat) (s : State) : Outcome :=
  onWf (.laneRetrain who lane) (gated who (laneOff lane 0x10) (laneRetrainDo lane) s)

/-- HOLD_DOWN in `LANE_CTRL` (R352). -/
def laneHoldDo (l : Nat) (on : Bool) (s : State) : State :=
  let v := laneOf l s
  if v.holdDown = on then s
  else if on then
    let s := if v.short || v.loop != 0 then s else leaveService l 4 s
    updLane l (fun v => { v with holdDown := true }) s
  else beginTraining l (setLane l { v with holdDown := false } s)

def execLaneHoldDown (who lane : Nat) (on : Bool) (s : State) : Outcome :=
  onWf (.laneHoldDown who lane on) (gated who (laneOff lane 0x10) (laneHoldDo lane on) s)

/-- `LANE_TEST` (R350, R352): a set loop takes the lane out of service, a cleared one brings it back to bring-up. A write
of a reserved PATTERN or LOOP is ignored whole (R505). -/
def laneTestDo (l : Nat) (w : Word64) (s : State) : State :=
  let v := laneOf l s
  let loop := fld w 2 0
  if 3 < loop ∨ fld w 5 4 = 3 then s
  else
    let s := if loop ≠ 0 ∧ v.loop = 0 ∧ !v.short then leaveService l 6 s else s
    let s := updLane l (fun v => { v with loop := loop, check := bitOf w 3, pattern := fld w 5 4 }) s
    if loop = 0 ∧ v.loop ≠ 0 then
      if v.short then s else if v.holdDown || s.body.hold then setLaneState l 4 s else beginTraining l s
    else s

def execLaneTest (who lane : Nat) (v : BitVec 64) (s : State) : Outcome :=
  onWf (.laneTest who lane v) (gated who (laneOff lane 0x18) (laneTestDo lane v) s)

end Sys2Proof.Machine
end

