-- ==== Sys2Proof/Machine/Aes3.lean ====
section
/-! DEFINITION. The AES3 ports: line sensing, inputs and their converters, outputs and their clocks, aligned groups
(R309-R324). A port is numbered 0 to 15 for AI00 to AI15 and 16 to 31 for AO00 to AO15 where both kinds are meant. -/

namespace Sys2Proof.Machine

def aesIn (i : Nat) (s : State) : AesIn := s.aes.ins.get i {}
def setAesIn (i : Nat) (v : AesIn) (s : State) : State := { s with aes := { s.aes with ins := s.aes.ins.set i v } }
def updAesIn (i : Nat) (f : AesIn → AesIn) (s : State) : State := setAesIn i (f (aesIn i s)) s
def aesOut (o : Nat) (s : State) : AesOut := s.aes.outs.get o {}
def setAesOut (o : Nat) (v : AesOut) (s : State) : State := { s with aes := { s.aes with outs := s.aes.outs.set o v } }
def updAesOut (o : Nat) (f : AesOut → AesOut) (s : State) : State := setAesOut o (f (aesOut o s)) s
def aesGroup (g : Nat) (s : State) : AesGroup := s.aes.groups.get g {}
def setAesGroup (g : Nat) (v : AesGroup) (s : State) : State := { s with aes := { s.aes with groups := s.aes.groups.set g v } }

/-- Owner-view offsets (R324). Counter c of the order of the table. -/
def aesInOff (i r : Nat) : Nat := 0x700000 + i * 0x80 + r
def aesOutOff (o r : Nat) : Nat := 0x700800 + o * 0x80 + r
def aesInCtr (i c : Nat) : Nat := aesInOff i (0x40 + c * 8)
def aesOutCtr (o c : Nat) : Nat := aesOutOff o (0x40 + c * 8)
def aesGroupOff (g r : Nat) : Nat := 0x701000 + g * 0x20 + r

/-- Change `AES_EVENT`, which raises PF0 vector 3 (R324, R414). -/
def aesEvent (f : Aes → Aes) (s : State) : State := pfVector 3 { s with aes := f s.aes }

/-! ## Groups (R320, R321) -/

/-- The enabled group of a port, if it has one. -/
def groupOfPort (out : Bool) (p : Nat) (s : State) : Option Nat :=
  (List.range 8).find? (fun g => (aesGroup g s).enable && (aesGroup g s).dirOut == out && (aesGroup g s).members.testBit p)

def groupPorts (g : Nat) (s : State) : List Nat := (List.range 16).filter (fun p => (aesGroup g s).members.testBit p)

/-- The reference of an input group: its lowest-numbered locked member. -/
def inReference (g : Nat) (s : State) : Option Nat := (groupPorts g s).find? (fun p => (aesIn p s).locked)
/-- The member whose oscillator an output group shares: the lowest-numbered one that runs. -/
def outReference (g : Nat) (s : State) : Option Nat := (groupPorts g s).find? (fun p => (aesOut p s).state == 1)

/-- Subframe s of port p is live (R321). -/
def subLive (out : Bool) (p sub : Nat) (s : State) : Bool :=
  match groupOfPort out p s with
  | none => true
  | some g => (aesGroup g s).active.testBit (2 * p + sub)

/-- A port belongs to no more than one group of its direction, and a group's members share one RATE. -/
def groupsOk (s : State) : Bool :=
  let gs := s.aes.groups.toList
  gs.all (fun a =>
    gs.all (fun b => a.1 == b.1 || a.2.dirOut != b.2.dirOut || (a.2.members &&& b.2.members) == 0) &&
    (let ps := (List.range 16).filter (fun p => a.2.members.testBit p)
     let rates := ps.map (fun p => if a.2.dirOut then (aesOut p s).rate else (aesIn p s).rate)
     rates.all (fun r => rates.head? == some r)))

/-- A write that would break the rules of R320 is ignored, and CFG_ERR is set. -/
def keepGroups (old new : State) : State :=
  if groupsOk new then new else aesEvent (fun a => { a with cfgErr := true }) old

/-! ## Line sensing (R310-R312) -/

/-- The class of a measurement: 0 OPEN, 1 BAL_110, 2 UNBAL_75, 3 SHORT. -/
def lineClass (ohms : Nat) (legAtGround : Bool) : Nat :=
  if ohms < 20 then 3 else if 1000 < ohms then 0 else if legAtGround then 2 else 1

def measureLine (v : AesLine) (ohms cls : Nat) : AesLine :=
  let v := { v with ohms := min ohms 4095 }
  if cls = v.line then { v with agree := 0 }
  else if cls = v.cand ∧ 0 < v.agree then { v with agree := v.agree + 1 }
  else { v with cand := cls, agree := 1 }

/-- Three measurements in a row agree on a new class. -/
def lineMoves (v : AesLine) : Bool := decide (3 ≤ v.agree)
def moveLine (v : AesLine) : AesLine := { v with line := v.cand, agree := 0 }

/-- The output's driver trips (R312). -/
def tripOut (o : Nat) (s : State) : State :=
  count (aesOutCtr o 3) 1 (updAesOut o (fun v => { v with state := 3, tripAt := nowNs s }) s)

def senseOf (port : Nat) (s : State) : AesLine := if port < 16 then (aesIn port s).sense else (aesOut (port - 16) s).sense
def setSense (port : Nat) (l : AesLine) (s : State) : State :=
  if port < 16 then updAesIn port (fun v => { v with sense := l }) s
  else updAesOut (port - 16) (fun v => { v with sense := l }) s

/-- An input on a line that is SHORT or OPEN has no lock, and its feeds contribute zero (R312). -/
def dropLock (v : AesIn) : AesIn :=
  if v.locked then { v with locked := false, rateDet := 0, badFrames := 0, mute := 2, buf := [], pad := 0 } else v

/-- LINE changes: the port's bit of `AES_EVENT` and a record; a short trips a running output's driver. -/
def lineMeasureDo (port ohms : Nat) (leg : Bool) (s : State) : State :=
  let l := measureLine (senseOf port s) ohms (lineClass ohms leg)
  if lineMoves l then
    let old := l.line
    let l := moveLine l
    let s := aesEvent (fun a => if port < 16 then { a with inLine := a.inLine ||| 2 ^ port }
                                else { a with outLine := a.outLine ||| 2 ^ (port - 16) }) (setSense port l s)
    let s := record 0x0901 [(1, port), (1, old), (1, l.line)] s
    if port < 16 then (if l.line = 0 ∨ l.line = 3 then updAesIn port dropLock s else s)
    else if l.line = 3 ∧ (aesOut (port - 16) s).state = 1 then tripOut (port - 16) s else s
  else setSense port l s

def execLineMeasure (port ohms : Nat) (legAtGround : Bool) (s : State) : Outcome :=
  onWf (.lineMeasure port ohms legAtGround) (lineMeasureDo port ohms legAtGround s)

/-- The driver retries every 100 ms and counts each trip (R312). -/
def shortTripDo (o : Nat) (short : Bool) (s : State) : State :=
  let v := aesOut o s
  if v.state = 3 ∧ v.tripAt + 100000000 ≤ nowNs s then
    if short then tripOut o s else setAesOut o { v with state := 1 } s
  else s

def execShortTripRetry (port : Nat) (short : Bool) (s : State) : Outcome :=
  onWf (.shortTripRetry port short) (shortTripDo port short s)

/-! ## Inputs (R313-R315) -/

/-- A locked member of an input group is within the tolerance of the reference or outside it (R320). One that comes within it takes
the reference's phase and fill, so that samples of one frame have one index: samples that the reference holds beyond its own are
zeros of the time away (R322). -/
def alignIn (i : Nat) (aligned : Bool) (s : State) : State :=
  let v := aesIn i s
  match (groupOfPort false i s).bind (fun g => inReference g s) with
  | none => s
  | some r =>
    if r = i then setAesIn i { v with misaligned := false } s
    else if !aligned then setAesIn i { v with misaligned := true } s
    else
      let u := aesIn r s
      let more := u.buf.length - v.buf.length
      setAesIn i { v with misaligned := false, phase := u.phase, pad := v.pad + more,
                          buf := (List.replicate more (0, 0) ++ v.buf).drop (v.buf.length - u.buf.length) } s

/-- AES_LOCK: an enabled input with a line locks to a rate that it accepts; a code above 2 is a signal at no rate of R309. Of an
input that is locked, it says whether the frames are within the tolerance of R320. -/
def aesLockDo (i rate : Nat) (inverted aligned : Bool) (s : State) : State :=
  let v := aesIn i s
  if !v.enable || v.sense.line == 0 || v.sense.line == 3 then s
  else if v.locked then (if v.misaligned == aligned then alignIn i aligned s else s)
  else if !v.autoRate && rate != v.rate then setAesIn i { v with rateErr := true } s
  else if 2 < rate then s
  else
    alignIn i aligned (setAesIn i { v with
        rateErr := false, locked := true, rateDet := rate + 1, reversed := inverted,
        badFrames := 0, hist := [], phase := 0, buf := [], pad := 0, underSince := none, mute := 3, owed := 0, filled := 0,
        dropped := 0, misaligned := false } s)

def execAesLock (port rate : Nat) (inverted aligned : Bool) (s : State) : Outcome :=
  onWf (.aesLock port rate inverted aligned) (aesLockDo port rate inverted aligned s)

/-- UNLOCK: 8 frames in a row have had no valid preamble (R313). -/
def aesUnlockDo (i : Nat) (s : State) : State :=
  let v := aesIn i s
  if v.locked && decide (8 ≤ v.badFrames) then
    count (aesInCtr i 4) 1 (setAesIn i { v with locked := false, rateDet := 0, badFrames := 0 } s)
  else s

def execAesUnlock (port : Nat) (s : State) : Outcome := onWf (.aesUnlock port) (aesUnlockDo port s)

/-- The sample of a subframe: the previous one on a parity error or without a preamble (R314). -/
def subSample (b : AesSub) (prev : Int) : Int :=
  if b.parityOk && b.preambleOk then ofTwos 24 b.sample.toNat else prev

def rateHz (r : Nat) : Nat := [44100, 48000, 96000].getD r 48000

/-- The port whose ratio an input's converter uses: its own, or in a group the reference's when it is aligned (R320). -/
def ratioPort (i : Nat) (s : State) : Nat :=
  match groupOfPort false i s with
  | none => i
  | some g => if (aesIn i s).misaligned then i else (inReference g s).getD i

/-- Converter phase per input frame: 48,000 mix samples a second for the input's rate, as steered at the last start(k). -/
def phaseStep (i : Nat) (s : State) : Nat :=
  (48000 + (aesIn (ratioPort i s) s).steer).toNat

def clamp24 (v : Int) : Int := clampInt v (-8388608) 8388607

/-- Put `n` converted samples into the converter buffer of 192; the newest are lost on a full one (R315). -/
def convertPush : Nat → AesIn → Nat → AesIn × Nat
  | 0, v, lost => (v, lost)
  | n + 1, v, lost =>
    let y := (clamp24 (Config.convertIn (v.rateDet - 1) (v.phase + n) (v.hist.map (·.1))),
              clamp24 (Config.convertIn (v.rateDet - 1) (v.phase + n) (v.hist.map (·.2))))
    if v.buf.length < 192 then convertPush n { v with buf := v.buf ++ [y] } lost else convertPush n v (lost + 1)

/-- AES_IN_FRAME_RX (R313-R315). -/
def aesFrameDo (i : Nat) (a b : AesSub) (s : State) : State :=
  let v := aesIn i s
  if !(v.enable && v.locked) then s
  else
    let s := if a.parityOk && b.parityOk then s else count (aesInCtr i 2) 1 s
    let s := if a.validity || b.validity then count (aesInCtr i 3) 1 s else s
    let x := (subSample a v.last.1, subSample b v.last.2)
    let ph := v.phase + phaseStep i s
    let hz := rateHz (v.rateDet - 1)
    let v := { v with last := x, hist := (x :: v.hist).take 64, phase := ph % hz,
                      badFrames := if a.preambleOk || b.preambleOk then 0 else v.badFrames + 1 }
    let r := convertPush (ph / hz) v 0
    let s := setAesIn i r.1 s
    if r.2 = 0 then s else count (aesInCtr i 1) r.2 s

def execAesInFrameRx (port : Nat) (a b : AesSub) (s : State) : Outcome :=
  onWf (.aesInFrameRx port a b) (aesFrameDo port a b s)

/-- One bit of the CRCC of professional channel status: x^8 + x^4 + x^3 + x^2 + 1, least significant bit first. -/
def crccBit (c : BitVec 8) : BitVec 8 := if c.getLsbD 0 then (c >>> 1) ^^^ 0xB8 else c >>> 1
def crccByte (c b : BitVec 8) : BitVec 8 :=
  crccBit (crccBit (crccBit (crccBit (crccBit (crccBit (crccBit (crccBit (c ^^^ b))))))))
def crcc (bs : List Byte) : Byte := bs.foldl crccByte 0xFF

/-- CS_BLOCK_RX (R314). -/
def csBlockDo (i : Nat) (bytes : List Byte) (s : State) : State :=
  let v := aesIn i s
  if !(v.enable && v.locked) then s
  else
    let pro := byteAt bytes 0 % 2 == 1
    if pro && crcc (bytes.take 23) != bytes.getD 23 0 then count (aesInCtr i 5) 1 s
    else setAesIn i { v with cs := bytes, consumer := !pro, nonAudio := byteAt bytes 0 / 2 % 2 == 1 } s

def execCsBlockRx (port : Nat) (bytes : List Byte) (s : State) : Outcome :=
  onWf (.csBlockRx port bytes) (csBlockDo port bytes s)

/-- A realignment of a group member is complete (R322). -/
def realigned (out : Bool) (p filled dropped : Nat) (s : State) : State :=
  match groupOfPort out p s with
  | none => s
  | some g => record 0x0902 [(1, g), (1, if out then 16 + p else p), (4, filled), (4, dropped)]
                (aesEvent (fun a => { a with realign := a.realign ||| 2 ^ g }) s)

/-- What a member that repeated samples discards when its data returns (R322). -/
def inDiscard (i : Nat) (s : State) : State :=
  let v := aesIn i s
  let n := min v.owed v.buf.length
  if n = 0 then s
  else
    let s := count (aesInCtr i 6) n (setAesIn i { v with buf := v.buf.drop n, owed := v.owed - n, dropped := v.dropped + n } s)
    if n = v.owed then
      updAesIn i (fun v => { v with filled := 0, dropped := 0 }) (realigned false i v.filled (v.dropped + n) s)
    else s

/-- How an input's block enters the mix (R315). -/
inductive InMode where
  | live | rampOut | zero | rampIn
  deriving DecidableEq, Repr

/-- The converter steers its ratio by the samples that a start(k) has left in its buffer (R315). -/
def steerIn (v : AesIn) : AesIn := { v with steer := clampInt (Config.steerIn v.buf.length) (-48) 48 }

/-- The 48 samples that start(k) reads from an input (R315, R322): zeros while it is silent, or its samples are of the time away. -/
def aesTake (i : Nat) (s : State) : InMode × List (Int × Int) × State :=
  let s := updAesIn i steerIn (inDiscard i s)
  let v := aesIn i s
  if v.mute = 2 then (.zero, [], s)
  else if 48 ≤ v.pad then (.zero, [], setAesIn i { v with buf := v.buf.drop 48, pad := v.pad - 48 } s)
  else if v.mute = 3 then
    if v.buf.length < 48 + (if v.pad = 0 then 48 else 0) then (.zero, [], s)
    else
      let v := { v with pad := 0 }
      let xs := v.buf.take 48
      (.rampIn, xs, setAesIn i { v with mute := 0, buf := v.buf.drop 48, given := xs.getLastD (0, 0) } s)
  else
    let xs := v.buf.take 48
    let last := xs.getLastD v.given
    let miss := 48 - xs.length
    let ys := xs ++ List.replicate miss last
    let v := { v with buf := v.buf.drop 48, given := last }
    if miss = 0 then (.live, ys, setAesIn i { v with underSince := none } s)
    else
      let since := v.underSince.getD (nowNs s)
      let exceeds := decide (since + 2000000 ≤ nowNs s)
      let grouped := (groupOfPort false i s).isSome
      let v := { v with underSince := some since, mute := if exceeds then 2 else 0,
                        owed := if grouped then v.owed + miss else 0, filled := if grouped then v.filled + miss else 0 }
      (if exceeds then .rampOut else .live, ys, count (aesInCtr i 0) miss (setAesIn i v s))

/-! ## Outputs (R316-R319) -/

def bufCap (rate : Nat) : Nat := [176, 192, 384].getD rate 192
def fillTarget (rate : Nat) : Nat := bufCap rate / 2

/-- The frames that one mix sample makes at a rate, in 1/160 (R316). -/
def rateNum (rate : Nat) : Nat := [147, 160, 320].getD rate 160

/-- One mix sample through the output's converter: unchanged at 48 kHz. -/
def interpolate (v : AesOut) (x : Int × Int) : AesOut × List (Int × Int) :=
  let v := { v with hist := (x :: v.hist).take 64 }
  if v.rate = 1 then (v, [x])
  else
    let ph := v.phase + rateNum v.rate
    let y := fun k => (clamp24 (Config.convertOut v.rate (v.phase + k) (v.hist.map (·.1))),
                       clamp24 (Config.convertOut v.rate (v.phase + k) (v.hist.map (·.2))))
    ({ v with phase := ph % 160 }, (List.range (ph / 160)).map y)

def interpolateAll : AesOut → List (Int × Int) → AesOut × List (Int × Int)
  | v, [] => (v, [])
  | v, x :: xs =>
    let r := interpolate v x
    let q := interpolateAll r.1 xs
    (q.1, r.2 ++ q.2)

/-- A bus block is written to the output's buffer: frames owed for fill frames go first, and what does not fit is lost
(R318, R322). -/
def aesOutBlock (o : Nat) (block : List (Int × Int)) (s : State) : State :=
  let v := aesOut o s
  if v.state ≠ 1 ∧ v.state ≠ 3 then s
  else
    let r := interpolateAll v block
    let v := r.1
    let n := min v.owed r.2.length
    let frames := r.2.drop n
    let room := bufCap v.rate - v.buf.length
    let lost := frames.length - room
    let done := decide (0 < n) && n == v.owed
    let s := setAesOut o { v with
        buf := v.buf ++ frames.take room, owed := v.owed - n,
        filled := if done then 0 else v.filled, dropped := if done then 0 else v.dropped + n,
        underSince := if frames.isEmpty then v.underSince else none } s
    let s := if n = 0 then s else count (aesOutCtr o 2) n s
    let s := if lost = 0 then s else count (aesOutCtr o 1) lost s
    if done then realigned true o v.filled (v.dropped + n) s else s

/-- The steering of R316, just after the block has been written. -/
def aesSteer (o : Nat) (s : State) : State :=
  let v := aesOut o s
  if v.state ≠ 1 ∧ v.state ≠ 3 then s
  else
    let own := match groupOfPort true o s with
      | none => o
      | some g => (outReference g s).getD o
    if own = o then
      let e : Int := (v.buf.length : Int) - fillTarget v.rate
      setAesOut o { v with err := e, steer := clampInt (v.steer + 50 * e) (-200000) 200000 } s
    else setAesOut o { v with err := (aesOut own s).err, steer := (aesOut own s).steer } s

/-- f_nco of R316 in 1/10^9 Hz. -/
def fNco (v : AesOut) : Int := rateHz v.rate * (1000000000 + (v.steer + 400 * v.err))

/-- A subframe as it leaves: sample, validity, channel-status bit (R317, R321). -/
def subOut (x : Int) (live invalid cbit : Bool) : Nat :=
  toTwos 24 (if live then x else 0) + b2n (invalid || !live) * 2 ^ 24 + b2n cbit * 2 ^ 26

/-- Send a frame; while Safe Hold stops the outputs the line stays at 0 V. -/
def sendAes (o : Nat) (x : Int × Int) (invalid : Bool) (s : State) : State :=
  let v := aesOut o s
  let c := (byteAt v.csa (v.frame / 8)).testBit (v.frame % 8)
  let s' := setAesOut o { v with frame := (v.frame + 1) % 192 } s
  if s.body.hold then s'
  else emit (.aes o v.frame (subOut x.1 (subLive true o 0 s) invalid c) (subOut x.2 (subLive true o 1 s) invalid c)) s'

/-- AES_OUT_FRAME_DUE (R318). -/
def frameDueDo (o : Nat) (s : State) : State :=
  let v := aesOut o s
  if v.state ≠ 1 ∧ v.state ≠ 3 then s
  else
    match v.buf with
    | x :: xs => sendAes o x false (setAesOut o { v with buf := xs, last := x } s)
    | [] =>
      let since := v.underSince.getD (nowNs s)
      let long := decide (since + 10000000 ≤ nowNs s)
      let s := setAesOut o { v with underSince := some since, owed := v.owed + 1, filled := v.filled + 1 } s
      sendAes o (if long then (0, 0) else v.last) long (count (aesOutCtr o 0) 1 s)

def execAesOutFrameDue (port : Nat) (s : State) : Outcome := onWf (.aesOutFrameDue port) (frameDueDo port s)

/-- The bits of channel-status byte k that a write reaches: those that the hardware does not set (R317). -/
def csOpen (rate k : Nat) : Byte :=
  if k = 0 then 0x3C else if k = 2 then 0xC0 else if k = 4 ∧ rate = 2 then 0x87 else if k = 23 then 0 else 0xFF

/-- The channel-status bytes sent: the shadow with the bits that the hardware sets (R317). The codes of IEC 60958-4 are
log entry 23. -/
def csSent (rate : Nat) (cs : List Byte) : List Byte :=
  let b0 : Byte := (cs.getD 0 0 &&& csOpen rate 0) ||| 0x01 ||| (if rate = 0 then 0x40 else if rate = 1 then 0x80 else 0)
  let b2 : Byte := (cs.getD 2 0 &&& csOpen rate 2) ||| 0x2C
  let b4 : Byte := if rate = 2 then (cs.getD 4 0 &&& csOpen rate 4) ||| 0x10 else cs.getD 4 0
  let bs := (((cs.set 0 b0).set 2 b2).set 4 b4).take 23
  bs ++ [crcc bs]

/-- A group's channel-status block start: the shadow mask takes effect (R321). -/
def groupBlockStart (g : Nat) (s : State) : State :=
  let v := aesGroup g s
  let n := (v.blocks + 1) % 2 ^ 32
  setAesGroup g { v with blocks := n, active := v.mask, csBlock := if v.active = v.mask then v.csBlock else n } s

/-- AES_CS_BLOCK_START: an output that runs begins a block of 192 frames with its shadow's bytes; the start of a group's
reference is the group's. -/
def csStartDo (port : Nat) (s : State) : State :=
  let o := port - 16
  let out := decide (16 ≤ port)
  let p := if out then o else port
  let goes := if out then (aesOut o s).state != 0 && (aesOut o s).state != 2 && (aesOut o s).frame == 0
              else (aesIn port s).locked
  if !goes then s
  else
    let s := if out then updAesOut o (fun v => { v with csa := csSent v.rate v.cs }) s else s
    match groupOfPort out p s with
    | none => s
    | some g =>
      if (if out then outReference g s else inReference g s) = some p then groupBlockStart g s else s

def execAesCsBlockStart (port : Nat) (s : State) : Outcome := onWf (.aesCsBlockStart port) (csStartDo port s)

/-- Start an output: nominal frequency with the steer it has, an empty buffer, and the frame its group has reached, or a
new channel-status block (R319, R324). Into a line that is SHORT the driver trips at once (R312). -/
def startOut (o : Nat) (s : State) : State :=
  let v := aesOut o s
  let fr := match groupOfPort true o s with
    | none => 0
    | some g => match outReference g s with
      | none => 0
      | some r => (aesOut r s).frame
  let s := setAesOut o { v with state := 1, err := 0, buf := [], underSince := none, owed := 0, filled := 0, dropped := 0, frame := fr,
                                csa := csSent v.rate v.cs } s
  if v.sense.line = 3 then tripOut o s else s

/-- A parked bus parks its output, and a bus that wakes wakes it (R319). -/
def parkOut (o : Nat) (s : State) : State :=
  if (aesOut o s).state = 1 ∨ (aesOut o s).state = 3 then updAesOut o (fun v => { v with state := 2 }) s else s
def wakeOut (o : Nat) (s : State) : State := if (aesOut o s).state = 2 then startOut o s else s

/-! ## Register writes -/

/-- `AES_IN_CFG`; a write of a reserved RATE or TERM is ignored whole (R505). -/
def aesInCfgDo (i : Nat) (w : Word64) (s : State) : State :=
  let v := aesIn i s
  if fld w 2 1 = 3 ∨ fld w 5 4 = 3 then s
  else
    let v' := { v with enable := bitOf w 0, rate := fld w 2 1, autoRate := bitOf w 3, term := fld w 5 4 }
    let v' := if v'.enable then v' else { v' with locked := false, rateDet := 0, mute := 2, buf := [], pad := 0 }
    keepGroups s (setAesIn i v' s)

/-- `AES_OUT_CFG`: an output that is enabled starts, or stays parked with its bus; one that is not holds its line at 0 V. -/
def aesOutCfgDo (o : Nat) (w : Word64) (s : State) : State :=
  let v := aesOut o s
  if fld w 2 1 = 3 ∨ fld w 5 4 = 3 then s
  else
    let v' := { v with enable := bitOf w 0, rate := fld w 2 1, term := fld w 5 4 }
    let s' := setAesOut o v' s
    if groupsOk s' then
      if !v'.enable then updAesOut o (fun v => { v with state := 0, buf := [] }) s'
      else if (s.audio.buses.get o {}).parked then updAesOut o (fun v => { v with state := 2 }) s'
      else if v.state = 0 ∨ v'.rate ≠ v.rate then startOut o s'
      else s'
    else aesEvent (fun a => { a with cfgErr := true }) s

/-- `AES_GROUP_CFG`; the block count runs since ENABLE (R324). -/
def aesGroupCfgDo (g : Nat) (w : Word64) (s : State) : State :=
  let v := aesGroup g s
  let on := bitOf w 0
  keepGroups s (setAesGroup g { v with
      members := fld w 31 16, dirOut := bitOf w 1, enable := on,
      blocks := if on && !v.enable then 0 else v.blocks, csBlock := if on && !v.enable then 0 else v.csBlock } s)

/-- `AES_GROUP_MASK` (R321). -/
def aesMaskDo (g : Nat) (v : Word64) (s : State) : State := setAesGroup g { aesGroup g s with mask := fld v 31 0 } s

def execAesGroupMask (who group : Nat) (v : BitVec 64) (s : State) : Outcome :=
  onWf (.aesGroupMask who group v) (gated who (aesGroupOff group 8) (aesMaskDo group v) s)

/-- `AES_OUT_CS` (R317): bytes 8n to 8n + 7 of the shadow. -/
def aesOutCsDo (o n : Nat) (v : Word64) (s : State) : State :=
  updAesOut o (fun u => { u with cs := u.cs.zipIdx.map (fun b =>
    if 8 * n ≤ b.2 ∧ b.2 < 8 * n + 8 then
      (b.1 &&& ~~~ csOpen u.rate b.2) ||| ((bytesOf64 v).getD (b.2 - 8 * n) 0 &&& csOpen u.rate b.2)
    else b.1) }) s

def execAesOutCs (who port word : Nat) (v : BitVec 64) (s : State) : Outcome :=
  onWf (.aesOutCs who port word v) (gated who (aesOutOff port (0x10 + word * 8)) (aesOutCsDo port word v) s)

end Sys2Proof.Machine
end

