-- ==== Sys2Proof/Machine/Cipher.lean ====
section
/-! DEFINITION. AES and what the spec builds on it, by the standards that it names: counter mode and GCM (R149, R161, R169), CMAC with the
counter-mode KDF of SP 800-108 (R169), and AES Key Wrap with Padding (R157). FIPS 197, NIST SP 800-38B, 38D and 38F, RFC 5649 (log entry
141). -/

namespace Sys2Proof.Machine

/-! ## The block cipher -/

/-- Twice an element of GF(2^8). -/
def gfTwice (a : Nat) : Nat := if 128 ≤ a then (2 * a - 256) ^^^ 0x1B else 2 * a
/-- The product over the low n bits of b. -/
def gfMul : Nat → Nat → Nat → Nat
  | 0, _, _ => 0
  | n + 1, a, b => (if b % 2 = 1 then a else 0) ^^^ gfMul n (gfTwice a) (b / 2)
def gfMul8 (a b : Nat) : Nat := gfMul 8 a b
/-- a^254, the inverse where there is one. -/
def gfInv (a : Nat) : Nat :=
  let a2 := gfMul8 a a
  let a4 := gfMul8 a2 a2
  let a8 := gfMul8 a4 a4
  let a16 := gfMul8 a8 a8
  let a32 := gfMul8 a16 a16
  let a64 := gfMul8 a32 a32
  gfMul8 (gfMul8 (gfMul8 a2 a4) (gfMul8 a8 a16)) (gfMul8 (gfMul8 a32 a64) (gfMul8 a64 a64))

def sboxOf (a : Nat) : Nat :=
  let b : BitVec 8 := BitVec.ofNat 8 (gfInv a)
  (b ^^^ b.rotateLeft 1 ^^^ b.rotateLeft 2 ^^^ b.rotateLeft 3 ^^^ b.rotateLeft 4 ^^^ 0x63).toNat
def sboxTable : List Nat := (List.range 256).map sboxOf
def sboxInverse : List Nat := (List.range 256).map (fun b => sboxTable.idxOf b)

/-- XOR of two strings, of the shorter's length. -/
def xorBytes (a b : List Byte) : List Byte := List.zipWith (· ^^^ ·) a b

def subBytes (t : List Nat) (s : List Byte) : List Byte := s.map (fun b => BitVec.ofNat 8 (t.getD b.toNat 0))
/-- The rows of the state shift left by k places times their number. -/
def shiftRows (k : Nat) (s : List Byte) : List Byte :=
  (List.range 16).map (fun i => s.getD (4 * ((i / 4 + k * (i % 4)) % 4) + i % 4) 0)
/-- The columns times the circulant matrix of a column. -/
def mixColumns (m : List Nat) (s : List Byte) : List Byte :=
  (List.range 16).map (fun i =>
    BitVec.ofNat 8 (((List.range 4).map (fun j => gfMul8 ((s.getD (4 * (i / 4) + j) 0).toNat) (m.getD ((j + 4 - i % 4) % 4) 0))).foldl (· ^^^ ·) 0))

/-- The schedule of a key: words of four bytes, latest first; `nk` words of key, `i` the next word's number. -/
def keyWords (nk : Nat) : Nat → Nat → Nat → List (List Byte) → List (List Byte)
  | 0, _, _, ws => ws
  | n + 1, i, rcon, ws =>
    let prev := ws.headD []
    let t := if i % nk = 0 then xorBytes (subBytes sboxTable (prev.drop 1 ++ prev.take 1)) [BitVec.ofNat 8 rcon, 0, 0, 0]
             else if 6 < nk ∧ i % nk = 4 then subBytes sboxTable prev else prev
    keyWords nk n (i + 1) (if i % nk = 0 then gfTwice rcon else rcon) (xorBytes (ws.getD (nk - 1) []) t :: ws)

/-- The round keys of a key of 16 or 32 bytes. -/
def roundKeys (key : List Byte) : List (List Byte) :=
  let nk := key.length / 4
  let ws := (keyWords nk (4 * (nk + 7) - nk) nk 1 (byteBlocks 4 key).reverse).reverse
  (List.range (nk + 7)).map (fun r => ((ws.drop (4 * r)).take 4).flatMap id)

/-- Encrypt a block under round keys. -/
def aesRounds : List (List Byte) → List Byte → List Byte
  | [], s => s
  | [k], s => xorBytes (shiftRows 1 (subBytes sboxTable s)) k
  | k :: ks, s => aesRounds ks (xorBytes (mixColumns [2, 3, 1, 1] (shiftRows 1 (subBytes sboxTable s))) k)
def aesWith (rk : List (List Byte)) (b : List Byte) : List Byte := aesRounds rk.tail (xorBytes b (rk.headD []))
def aesBlock (key b : List Byte) : List Byte := aesWith (roundKeys key) b

/-- Decrypt a block: the round keys in reverse. -/
def aesUnrounds : List (List Byte) → List Byte → List Byte
  | [], s => s
  | [k], s => xorBytes (subBytes sboxInverse (shiftRows 3 s)) k
  | k :: ks, s => aesUnrounds ks (mixColumns [14, 11, 13, 9] (xorBytes (subBytes sboxInverse (shiftRows 3 s)) k))
def aesUnblock (rk : List (List Byte)) (b : List Byte) : List Byte :=
  let r := rk.reverse
  aesUnrounds r.tail (xorBytes b (r.headD []))

/-! ## Counter mode and GCM -/

/-- n bytes of keystream from a counter block on, its low 32 bits counting. -/
def keystream (key : List Byte) (ctr n : Nat) : List Byte :=
  let rk := roundKeys key
  ((List.range (ceilDiv n 16)).flatMap (fun i => aesWith rk (beBytes 16 (ctr / 2 ^ 32 * 2 ^ 32 + (ctr + i) % 2 ^ 32)))).take n

/-- The product of GCM's field over the high n bits of x; both numbers have their first bit highest. -/
def ghashMul : Nat → Nat → Nat → Nat
  | 0, _, _ => 0
  | n + 1, x, v =>
    (if x.testBit n then v else 0) ^^^ ghashMul n x (if v % 2 = 1 then v / 2 ^^^ 0xE1 * 2 ^ 120 else v / 2)

def ghash (h : Nat) (blocks : List (List Byte)) : Nat :=
  blocks.foldl (fun y b => ghashMul 128 (y ^^^ beNat (b ++ List.replicate (16 - b.length) 0)) h) 0

/-- The tag over additional data and ciphertext, with a 96-bit nonce. -/
def gcmTag (key nonce ad ct : List Byte) : List Byte :=
  let h := beNat (aesBlock key (List.replicate 16 0))
  let s := ghash h (byteBlocks 16 ad ++ byteBlocks 16 ct ++ [beBytes 8 (8 * ad.length) ++ beBytes 8 (8 * ct.length)])
  xorBytes (beBytes 16 s) (aesBlock key (nonce ++ [0, 0, 0, 1]))

/-- AES-GCM: ciphertext and tag. -/
def gcmSeal (key nonce ad text : List Byte) : List Byte :=
  let ct := xorBytes text (keystream key (beNat nonce * 2 ^ 32 + 2) text.length)
  ct ++ gcmTag key nonce ad ct

/-- The text, where the last 16 bytes are its tag. -/
def gcmOpen (key nonce ad sealed : List Byte) : Option (List Byte) :=
  let n := sealed.length - 16
  let ct := sealed.take n
  if 16 ≤ sealed.length ∧ sealed.drop n = gcmTag key nonce ad ct then
    some (xorBytes ct (keystream key (beNat nonce * 2 ^ 32 + 2) n))
  else none

/-! ## CMAC and the context key -/

/-- Twice a block's number in CMAC's field. -/
def cmacTwice (a : Nat) : Nat := if 2 ^ 127 ≤ a then (2 * a - 2 ^ 128) ^^^ 0x87 else 2 * a

def cmac (key bs : List Byte) : List Byte :=
  let rk := roundKeys key
  let k1 := cmacTwice (beNat (aesWith rk (List.replicate 16 0)))
  let blocks := if bs.isEmpty then [[]] else byteBlocks 16 bs
  let last := blocks.getLastD []
  let fin := if last.length = 16 then xorBytes last (beBytes 16 k1)
             else xorBytes (last ++ [0x80] ++ List.replicate (15 - last.length) 0) (beBytes 16 (cmacTwice k1))
  (blocks.dropLast ++ [fin]).foldl (fun y b => aesWith rk (xorBytes y b)) (List.replicate 16 0)

/-- The KDF in counter mode with a 32-bit counter, a zero byte after the label, the context, and the length in bits: the key of a
wrapped context, of 256 bits, label "PXCTX", from the writer's SERIAL (R169). -/
def contextKey (kek : List Byte) (serial : Nat) : List Byte :=
  let fixed := [0x50, 0x58, 0x43, 0x54, 0x58, 0x00] ++ leBytes 8 serial ++ beBytes 4 256
  cmac kek (beBytes 4 1 ++ fixed) ++ cmac kek (beBytes 4 2 ++ fixed)

/-! ## Key wrap with padding -/

/-- The unwrapping steps: t of them are left, `a` the integrity register, `rs` the semiblocks, `n` their number. -/
def unwrapSteps (rk : List (List Byte)) (n : Nat) : Nat → Nat × List (List Byte) → Nat × List (List Byte)
  | 0, x => x
  | t + 1, (a, rs) =>
    let i := t % n
    let b := aesUnblock rk (beBytes 8 (a ^^^ (t + 1)) ++ rs.getD i [])
    unwrapSteps rk n t (beNat (b.take 8), rs.set i (b.drop 8))

/-- RFC 5649 unwrap of a wrap of 3 semiblocks or more: the plaintext, where the integrity value, the length and the padding check. -/
def keyUnwrap (key wrapped : List Byte) : Option (List Byte) :=
  let n := wrapped.length / 8 - 1
  let r := unwrapSteps (roundKeys key) n (6 * n) (beAt wrapped 0 8, byteBlocks 8 (wrapped.drop 8))
  let text := r.2.flatMap id
  let mli := r.1 % 2 ^ 32
  if 2 ≤ n ∧ wrapped.length = 8 * n + 8 ∧ r.1 / 2 ^ 32 = 0xA65959A6 ∧ 8 * (n - 1) < mli ∧ mli ≤ 8 * n ∧ (text.drop mli).all (· == 0) then
    some (text.take mli)
  else none

end Sys2Proof.Machine
end

