-- ==== Sys2Proof/Machine/Srtp.lean ====
section
/-! DEFINITION. SRTP and SRTCP under the profiles of R149, by the standards that it names: key derivation, protection and unprotection of
one packet. RFC 3711, RFC 7714 (log entry 141). -/

namespace Sys2Proof.Machine

def isGcm (profile : Nat) : Bool := profile == 7 || profile == 8
/-- Lengths of a profile's cipher key and salt. -/
def cipherKeyLen (profile : Nat) : Nat := if profile = 8 then 32 else 16
def saltLen (profile : Nat) : Nat := if isGcm profile then 12 else 14

/-- A session key from a master key and a salt of 14 bytes, by its label (RFC 3711 section 4.3, key derivation rate 0). -/
def sessionKey (key salt : List Byte) (label n : Nat) : List Byte :=
  keystream key ((beNat salt ^^^ label * 2 ^ 48) * 2 ^ 16) n

/-- The session keys of one direction: SRTP cipher key and salt, SRTCP cipher key and salt, and for the HMAC profiles the two
authentication keys of 20 bytes. The 12-byte salt of an AEAD profile has two zero bytes after it in the derivation. -/
def deriveKeys (profile : Nat) (key salt : List Byte) : List Byte :=
  let k := key.take (cipherKeyLen profile)
  let x := salt.take (saltLen profile) ++ List.replicate (14 - saltLen profile) 0
  let part := sessionKey k x
  part 0 (cipherKeyLen profile) ++ part 2 (saltLen profile) ++ part 3 (cipherKeyLen profile) ++ part 5 (saltLen profile)
    ++ (if isGcm profile then [] else part 1 20 ++ part 4 20)

/-! Parts of the session keys, for RTP or RTCP. -/
def sessCipher (profile : Nat) (rtcp : Bool) (ks : List Byte) : List Byte :=
  slice ks (if rtcp then cipherKeyLen profile + saltLen profile else 0) (cipherKeyLen profile)
def sessSalt (profile : Nat) (rtcp : Bool) (ks : List Byte) : List Byte :=
  slice ks ((if rtcp then cipherKeyLen profile + saltLen profile else 0) + cipherKeyLen profile) (saltLen profile)
def sessAuth (profile : Nat) (rtcp : Bool) (ks : List Byte) : List Byte :=
  slice ks (2 * (cipherKeyLen profile + saltLen profile) + (if rtcp then 20 else 0)) 20

/-- Bytes of a packet that stay in the clear: the RTP header with its extension, or the first 8 bytes of RTCP. -/
def clearLen (rtcp : Bool) (p : List Byte) : Nat :=
  if rtcp then 8
  else
    let n := 12 + 4 * (byteAt p 0 % 16)
    if byteAt p 0 / 16 % 2 = 1 then n + 4 + 4 * beAt p (n + 2) 2 else n

def packetSsrc (rtcp : Bool) (p : List Byte) : Nat := beAt p (if rtcp then 4 else 8) 4

/-- The first counter block of AES-CM for a packet index. -/
def cmBlock (profile : Nat) (rtcp : Bool) (ks : List Byte) (ssrc idx : Nat) : Nat :=
  (beNat (sessSalt profile rtcp ks) * 2 ^ 16) ^^^ (ssrc * 2 ^ 64) ^^^ (idx * 2 ^ 16)

/-- The nonce of AES-GCM for a packet index. -/
def gcmNonce (profile : Nat) (rtcp : Bool) (ks : List Byte) (ssrc idx : Nat) : List Byte :=
  xorBytes (sessSalt profile rtcp ks) (beBytes 12 (ssrc * 2 ^ 48 + idx))

/-- The HMAC tag of a packet: over the packet and its rollover counter for SRTP, over the packet and its index word for SRTCP. -/
def hmacTag (profile : Nat) (rtcp : Bool) (ks bs : List Byte) (idx : Nat) : List Byte :=
  (hmacSha1 (sessAuth profile rtcp ks) (if rtcp then bs else bs ++ beBytes 4 (idx / 65536))).take (if profile = 2 ∧ !rtcp then 4 else 10)

/-- The index word of an encrypted SRTCP packet: E is 1 (R150). -/
def srtcpWord (idx : Nat) : List Byte := beBytes 4 (2 ^ 31 + idx % 2 ^ 31)

/-- Protect a packet under session keys; outgoing SRTCP is always encrypted (R150). -/
def srtpSeal (profile : Nat) (ks : List Byte) (rtcp : Bool) (idx : Nat) (p : List Byte) : List Byte :=
  let n := clearLen rtcp p
  let hd := p.take n
  let text := p.drop n
  let ssrc := packetSsrc rtcp p
  let word := if rtcp then srtcpWord idx else []
  let key := sessCipher profile rtcp ks
  if isGcm profile then hd ++ gcmSeal key (gcmNonce profile rtcp ks ssrc idx) (hd ++ word) text ++ word
  else
    let bs := hd ++ xorBytes text (keystream key (cmBlock profile rtcp ks ssrc idx) text.length) ++ word
    bs ++ hmacTag profile rtcp ks bs idx

/-- Unprotect a packet under session keys; incoming SRTCP may have E at 0 (R150). -/
def srtpOpen (profile : Nat) (ks : List Byte) (rtcp : Bool) (idx : Nat) (p : List Byte) : Option (List Byte) :=
  let n := clearLen rtcp p
  let ssrc := packetSsrc rtcp p
  let key := sessCipher profile rtcp ks
  if isGcm profile then
    let m := p.length - (if rtcp then 4 else 0)
    let word := p.drop m
    let body := p.take m
    let nonce := gcmNonce profile rtcp ks ssrc idx
    if m < n + 16 then none
    else if rtcp && byteAt word 0 < 128 then
      (gcmOpen key nonce (body.take (m - 16) ++ word) (body.drop (m - 16))).map (fun _ => body.take (m - 16))
    else (gcmOpen key nonce (body.take n ++ word) (body.drop n)).map (fun t => body.take n ++ t)
  else
    let tag := if profile = 2 ∧ !rtcp then 4 else 10
    let m := p.length - tag
    let bs := p.take m
    let e := m - (if rtcp then 4 else 0)
    if m < n + (if rtcp then 4 else 0) ∨ p.drop m ≠ hmacTag profile rtcp ks bs idx then none
    else if rtcp && byteAt bs e < 128 then some (bs.take e)
    else some (bs.take n ++ xorBytes (slice bs n (e - n)) (keystream key (cmBlock profile rtcp ks ssrc idx) (e - n)))

end Sys2Proof.Machine
end

