-- ==== Sys2Proof/Machine/Keys.lean ====
section
/-! DEFINITION. The key store: lifecycle, tokens, blobs, slots, contexts, and the key commands (R149-R178). -/

namespace Sys2Proof.Machine

def slotAt (k : Nat) (s : State) : Slot := s.keys.slots.get k {}
def setSlot (k : Nat) (v : Slot) (s : State) : State := { s with keys := { s.keys with slots := s.keys.slots.set k v } }
def updSlot (k : Nat) (f : Slot → Slot) (s : State) : State := setSlot k (f (slotAt k s)) s

def keyUnwrapFailOff : Nat := 0xC00018
def keyStaleOff : Nat := 0xC00020
/-- Wing counter c of R178. -/
def cipCtr (w c : Nat) : Nat := 0x01601000 + w * 0x01000000 + c * 8

def hostPut (addr : Nat) (bs : List Byte) (s : State) : State := { s with hostMem := Mem.writeBytes s.hostMem addr bs }

/-- The function a record names as the requester; firmware counts as PF0 (R406). -/
def reqFn (r : Req) : Nat := if r.owner then 0 else r.fn

def wrongState (s : State) : Answer := answer s (refuse stNotStarted 0x04)
def notOwned5 (s : State) : Answer := answer s (refuse stRefused 0x05)

/-- In BLANK only KEY_PROVISION and KEY_SLOT_READ are accepted (R155). -/
def notBlank (body : Req → State → Answer) (r : Req) (s : State) : Answer :=
  if s.keys.life = 0 then wrongState s else body r s

/-- The slot that a command names, for its owner and PF0 (R7, R8, R159). -/
def withSlot (h : Nat) (r : Req) (s : State) (f : Nat → Answer) : Answer :=
  match resolve .slot h s with
  | .refused => answer s (refuse stRefused 0)
  | .stale => answer (count keyStaleOff 1 s) ⟨stStale, 0, 0⟩
  | .ok i => if r.owner || (slotAt i s).owner == r.fn then f i else notOwned5 s

/-! ## Who binds a slot -/

/-- Active sources (their handle or local ones excepted) and legs that bind slot k (R160, R175). -/
def srcBinds (k : Nat) (v : Source) : Bool :=
  !v.isLocal && fld v.w2 119 118 == 0 && handleIdx (fld v.w3 63 0) == k
def legBinds (k : Nat) (v : Leg) : Bool := fld v.w2 119 118 == 0 && handleIdx (fld v.w3 63 0) == k

def sourceList (s : State) : List (Nat × Source) := s.media.sources.toList.filter (fun c => (identOf .source c.1 s).used)
def legList (s : State) : List (Nat × Leg) := s.media.legs.toList.filter (fun c => (identOf .leg c.1 s).used)

def binds (k : Nat) (s : State) : Nat :=
  ((sourceList s).filter (fun c => srcBinds k c.2)).length + ((legList s).filter (fun c => legBinds k c.2)).length

/-- The slots pinned in a Wing's cache: those that its active sources bind (R162). -/
def pinned (w : Nat) (s : State) : List Nat :=
  (((sourceList s).filter (fun c => !c.2.isLocal && fld c.2.w2 119 118 == 0 && fld c.2.w2 126 120 / 32 == w)).map
    (fun c => handleIdx (fld c.2.w3 63 0))).eraseDups

/-! ## The cache and the sealed records (R161, R162) -/

/-- DRAM address of a slot's 256-byte record: stack k mod 8, in the key regions 4,088 to 4,095. -/
def slotRecord (k : Nat) : Nat := 4088 * regionBytes + k / 8 * 256

def pad (n : Nat) (bs : List Byte) : List Byte := (bs ++ List.replicate (n - bs.length) 0).take n

/-- The 224-byte slot body; its inner layout is the model's (log entry 24): profiles, flags, grace left in ms, and for the receive,
the transmit and the previous keys the master key and salt that they are derived from. -/
def ctxBody (v : Slot) (now : Nat) : List Byte :=
  let pr := match v.prev with | none => (0, [], 0) | some p => (p.1.profile, p.1.master, (p.2 - now) / 1000000)
  leBytes 1 v.profile ++ leBytes 1 pr.1
    ++ leBytes 2 (b2n (v.rxKeys != []) + 2 * b2n (v.txKeys != []) + 4 * b2n v.prev.isSome) ++ leBytes 4 pr.2.2
    ++ pad 72 v.rxMaster ++ pad 72 v.txMaster ++ pad 72 pr.2.1

/-- The nonce of a slot's record: its INDEX and its write count (R161). -/
def recordNonce (k writes : Nat) : List Byte := beBytes 8 k ++ beBytes 4 writes

/-- The sealed record of a slot: its write count, the slot's body under the memory key, and the tag. -/
def sealedRecord (k : Nat) (v : Slot) (s : State) : List Byte :=
  leBytes 16 v.writes ++ gcmSeal (Config.memoryKey s.keys.memKeyNo) (recordNonce k v.writes) [] (ctxBody v (nowNs s))

/-- The four bursts of a slot's record. -/
def recordBursts (k : Nat) : List Nat := (List.range 4).map (fun i => slotRecord k + 64 * i)

/-- Write a slot's record, with a new write count: a FAILED region drops it, a poisoned burst becomes clean (R161, R376, R377). -/
def writeRecord (k : Nat) (s : State) : State :=
  let s := updSlot k (fun v => { v with writes := (v.writes + 1) % 2 ^ 32 }) s
  let bs := sealedRecord k (slotAt k s) s
  (recordBursts k).zipIdx.foldl (fun s x => serveBurst (k % 8) x.1 (some (slice bs (64 * x.2) 64)) s) (wake (k % 8) s)

/-- The record's bytes are lost: a poisoned burst or a FAILED region. -/
def recordLost (k : Nat) (s : State) : Bool :=
  (recordBursts k).any (fun a => regionFailed (k % 8) a s || (stackOf (k % 8) s).poison.contains a)

/-- The seal of the slot's record fails to verify. -/
def sealBroken (k : Nat) (s : State) : Bool :=
  recordLost k s ||
    (let bs := Mem.readBytes s.dram (dramAt (k % 8) (slotRecord k)) 256
     (gcmOpen (Config.memoryKey s.keys.memKeyNo) (recordNonce k (leAt bs 0 16)) [] (bs.drop 16)).isNone)

/-- The record used least recently among those not pinned leaves a full cache. -/
def trimCache (pins c : List Nat) : List Nat :=
  if c.length ≤ 65536 then c
  else match c.reverse.find? (fun k => !pins.contains k) with
    | some k => c.erase k
    | none => c

/-- A slot whose seal fails becomes EMPTY, and a record names it (R161). -/
def breakSlot (k : Nat) (s : State) : State :=
  record 0x0602 [(4, k)] (updSlot k (fun v =>
    { v with state := 1, rxKeys := [], txKeys := [], rxMaster := [], txMaster := [], recs := [], prev := none, prevRecs := [] }) s)

/-- A fetch of the slot's record from DRAM into a Wing's cache (R161, R162, R378): a slot whose seal is broken becomes EMPTY. -/
def fetchSlot (w k : Nat) (s : State) : State :=
  let s := wake (k % 8) { s with keys := { s.keys with cache := s.keys.cache.set w (trimCache (pinned w s) (k :: s.keys.cache.get w [])) } }
  let s := if recordLost k s then count (memOff (k % 8) 0x120) 1 s else s
  if ((slotAt k s).state == 1 || (slotAt k s).state == 2) && sealBroken k s then breakSlot k s else s

/-- A slot that a new source binds is in the cache from then on (R162). -/
def pinSlot (w k : Nat) (s : State) : State := if (s.keys.cache.get w []).contains k then s else fetchSlot w k s

/-- A cluster looks a slot up: a hit, or a fetch of the record from DRAM (R154, R162). -/
def lookupSlot (w k : Nat) (s : State) : State :=
  let c := s.keys.cache.get w []
  if c.contains k then
    count (cipCtr w 6) 1 { s with keys := { s.keys with cache := s.keys.cache.set w (k :: c.erase k) } }
  else fetchSlot w k (count (cipCtr w 7) 1 s)

/-! ## Hash units (R153) -/

/-- ps that a packet of so many bytes takes a hash unit: 2.56 ns for each 64-byte block. -/
def hashPs (len : Nat) : Nat := 2560 * ceilDiv len 64
def nowPs (s : State) : Nat := nowNs s * 1000

/-- The units of a cluster: the elapsed ps at which each is free. -/
def hashUnits (c : Nat) (s : State) : List Nat := s.keys.hashBusy.get c (List.replicate 16 0)

/-- No unit of cluster c is free now, for a packet under a profile that needs one. -/
def mustHash (profile c : Nat) (s : State) : Bool := !isGcm profile && (hashUnits c s).all (fun t => decide (nowPs s < t))

/-- A packet of cluster c (Wing × 2, + 1 for transmit) takes the hash unit that is free first; one that waits is counted. The elapsed ps
at which it has the unit, 0 where it did not wait or needs none. -/
def takeHash (profile c len : Nat) (s : State) : Nat × State :=
  if isGcm profile then (0, s)
  else
    let us := hashUnits c s
    let t := us.min?.getD 0
    let at_ := max t (nowPs s)
    let s1 := { s with keys := { s.keys with hashBusy := s.keys.hashBusy.set c ((at_ + hashPs len) :: us.erase t) } }
    if mustHash profile c s then (at_, count (cipCtr (c / 2) 8) 1 s1) else (0, s1)

/-! ## Index records (R166, R167) -/

/-- The index estimate of RFC 3711 section 3.3.1; a rollover count of −1 is taken as 0 (R166). -/
def estimateIndex (high : Option Nat) (seq : Nat) : Nat :=
  match high with
  | none => seq
  | some h =>
    let sl := h % 65536
    let roc := h / 65536
    if sl < 32768 then (if 32768 < (seq : Int) - sl then (roc - 1) * 65536 + seq else roc * 65536 + seq)
    else if seq < sl - 32768 then (roc + 1) * 65536 + seq
    else roc * 65536 + seq

def findRec (ssrc : Nat) (tx rtcp : Bool) (rs : List IdxRec) : Option IdxRec :=
  rs.find? (fun r => r.ssrc == ssrc && r.tx == tx && r.rtcp == rtcp)
def putRec (v : IdxRec) (rs : List IdxRec) : List IdxRec :=
  v :: rs.filter (fun r => !(r.ssrc == v.ssrc && r.tx == v.tx && r.rtcp == v.rtcp))

/-- The replay check of a context (R166, R167): passes when the index is usable, not more than 127 below the highest,
and not marked. -/
def replayOk (r : Option IdxRec) (rtcp : Bool) (idx : Nat) : Bool :=
  decide (idx < (if rtcp then 2 ^ 31 else 2 ^ 48)) &&
    match r with
    | none => true
    | some v => if v.index < idx then true
                else decide (v.index - idx ≤ 127) && !v.window.testBit (v.index - idx)

/-- The window and the highest index after a packet is accepted. -/
def acceptIndex (r : Option IdxRec) (ssrc : Nat) (rtcp : Bool) (idx : Nat) : IdxRec :=
  match r with
  | none => { ssrc := ssrc, tx := false, rtcp := rtcp, index := idx, window := 1 }
  | some v =>
    if v.index < idx then { v with index := idx, window := (v.window * 2 ^ (idx - v.index) + 1) % 2 ^ 128 }
    else { v with window := v.window ||| 2 ^ (v.index - idx) }

/-! ## Transmit operations (R164, R167, R168) -/

/-- Thresholds Rekey and Warn of R167, and the last usable index. -/
def idxRekey (rtcp : Bool) : Nat := if rtcp then 2 ^ 30 else 2 ^ 47
def idxWarn (rtcp : Bool) : Nat := if rtcp then 2 ^ 31 - 2 ^ 16 else 2 ^ 48 - 2 ^ 16
def idxLast (rtcp : Bool) : Nat := if rtcp then 2 ^ 31 - 1 else 2 ^ 48 - 1

/-- The index passes the Rekey or the Warn threshold in the transmit cluster of Wing w. -/
def indexThresholds (w k ssrc : Nat) (rtcp : Bool) (old : Option Nat) (idx : Nat) (s : State) : State :=
  let past := fun t => decide (t ≤ idx) && (match old with | none => true | some o => decide (o < t))
  let v := slotAt k s
  let s := if past (idxRekey rtcp) then
      enginePost 0x05 (201 + 2 * w) v.owner 0 (BitVec.ofNat 128 (handleFor .slot k s))
        (pack128 [(0, 32, ssrc), (32, 1, 1), (33, 1, b2n rtcp)]) (updSlot k (fun v => { v with rekeyPosted := true }) s)
    else s
  if past (idxWarn rtcp) then
    record 0x0603 [(8, handleFor .slot k s), (4, ssrc), (1, b2n rtcp)] (updSlot k (fun v => { v with indexWarn := true }) s)
  else s

/-- The index has been used under the key, or may have been: at or below the highest, and marked or below what the window holds. -/
def indexUsed (r : Option IdxRec) (idx : Nat) : Bool :=
  match r with
  | none => false
  | some v => decide (idx ≤ v.index) && (decide (65536 ≤ v.index - idx) || v.window.testBit (v.index - idx))

/-- The transmit record after an index is used, its window 65,536 indices deep. -/
def useIndex (r : Option IdxRec) (ssrc : Nat) (rtcp : Bool) (idx : Nat) : IdxRec :=
  match r with
  | none => { ssrc := ssrc, tx := true, rtcp := rtcp, index := idx, window := 1 }
  | some v =>
    if v.index < idx then { v with index := idx, window := (v.window * 2 ^ (idx - v.index) + 1) % 2 ^ 65536 }
    else { v with window := v.window ||| 2 ^ (v.index - idx) }

/-- The index that a packet takes: RFC 3711's estimate for SRTP, the next one for SRTCP. -/
def txIndex (v : Slot) (ssrc : Nat) (rtcp : Bool) (seq : Nat) : Nat :=
  let r := (findRec ssrc true rtcp v.recs).map (·.index)
  if rtcp then (match r with | none => 0 | some x => x + 1) else estimateIndex r seq

/-- That index has been used under the key. -/
def indexTaken (v : Slot) (ssrc : Nat) (rtcp : Bool) (seq : Nat) : Bool :=
  indexUsed (findRec ssrc true rtcp v.recs) (txIndex v ssrc rtcp seq)

/-- Protect one packet on Wing w: none where the operation is refused (R164, R167, R168), and where its index has been used under the key
(R167). `seq` is the RTP sequence number; SRTCP takes the next index of its SSRC. -/
def protect (w k ssrc : Nat) (rtcp : Bool) (seq : Nat) (packet : List Byte) (s : State) : Option (List Byte) × State :=
  let s := lookupSlot w k s
  let v := slotAt k s
  if v.state ≠ 2 ∨ v.txKeys = [] then
    (none, count (cipCtr w 4) 1 (updSlot k (fun v => { v with keyErased := satAdd 64 v.keyErased 1 }) s))
  else if v.frozen then (none, count (cipCtr w 10) 1 s)
  else
    let r := findRec ssrc true rtcp v.recs
    let idx := txIndex v ssrc rtcp seq
    if indexTaken v ssrc rtcp seq then (none, s)
    else if idxLast rtcp < idx then
      (none, count (cipCtr w 5) 1 (updSlot k (fun v => { v with nonceEx := satAdd 64 v.nonceEx 1 }) s))
    else
      let s := setSlot k { v with recs := putRec (useIndex r ssrc rtcp idx) v.recs } s
      let s := indexThresholds w k ssrc rtcp (r.map (·.index)) idx s
      (some (srtpSeal v.profile v.txKeys rtcp idx packet), count (cipCtr w 1) 1 (takeHash v.profile (2 * w + 1) packet.length s).2)

/-! ## Receive operations (R151, R163-R166) -/

/-- A gang takes a packet: refused by the slot's state, or started with the keys of the moment. -/
def startOp (o : RxOp) (s : State) : Option RxOp × State :=
  let s := lookupSlot o.wing o.slot s
  let v := slotAt o.slot s
  if v.state ≠ 2 then
    (none, count (cipCtr o.wing 4) 1 (updSlot o.slot (fun v => { v with keyErased := satAdd 64 v.keyErased 1 }) s))
  else if v.frozen then (none, count (cipCtr o.wing 10) 1 s)
  else
    let now : List RxKeys := if v.rxKeys = [] then [] else [⟨v.rxGen, v.profile, v.rxKeys, v.rxMaster⟩]
    let old := match v.prev with | none => [] | some p => [p.1]
    let h := takeHash v.profile (2 * o.wing) o.bytes.length s
    (some { o with started := true, tries := now ++ old, hashAt := h.1 }, h.2)

/-- The Wing's ten gangs take the packets that wait, in order (R151). -/
def startOps : List RxOp → State → State
  | [], s => s
  | o :: rest, s =>
    if o.started || decide (10 ≤ (s.rxOps.filter (fun x => x.wing == o.wing && x.started)).length) then startOps rest s
    else
      let r := startOp o s
      match r.1 with
      | some o' => startOps rest { r.2 with rxOps := r.2.rxOps.map (fun x => if x.id = o.id then o' else x) }
      | none => startOps rest { r.2 with rxOps := r.2.rxOps.filter (fun x => x.id != o.id) }

/-- Hand a packet to its Wing's receive cluster. -/
def enterCipher (o : RxOp) (s : State) : State :=
  let o := { o with id := s.nextOp }
  let s := { s with nextOp := s.nextOp + 1, rxOps := s.rxOps ++ [o] }
  startOps s.rxOps s

/-- Operations that a gang has started with the slot's keys. -/
def opsOn (k : Nat) (s : State) : Nat := (s.rxOps.filter (fun o => o.started && o.slot == k)).length

/-- The SRTCP index word of a packet: E flag and 31-bit index. It stands before the HMAC tag, or last (RFC 3711, RFC
7714). -/
def srtcpIndex (profile : Nat) (bs : List Byte) : Nat :=
  (if profile = 7 ∨ profile = 8 then beAt bs (bs.length - 4) 4 else beAt bs (bs.length - 14) 4) % 2 ^ 31

/-- What trying a packet under one context gives. -/
inductive Tried where
  | replay
  | auth
  | ok (idx : Nat) (plain : List Byte)
  deriving DecidableEq, Repr

/-- The index records of a context: those in force, those of PREVIOUS, or those of a context that is gone. -/
def recsOf (gen : Nat) (v : Slot) : List IdxRec :=
  if gen = v.rxGen then v.recs
  else if v.prev.any (fun p => p.1.gen == gen) then v.prevRecs
  else ((v.drain.find? (fun d => d.1 == gen)).map (·.2)).getD []

def tryKeys (o : RxOp) (k : RxKeys) (v : Slot) : Tried :=
  let ssrc := if o.rtcp then leAt o.bytes 4 4 else leAt o.bytes 8 4
  let r := findRec ssrc false o.rtcp (recsOf k.gen v)
  let idx := if o.rtcp then srtcpIndex k.profile o.bytes else estimateIndex (r.map (·.index)) (beAt o.bytes 2 2)
  if !replayOk r o.rtcp idx then .replay
  else match srtpOpen k.profile k.keys o.rtcp idx o.bytes with
    | none => .auth
    | some p => .ok idx p

/-- Update the window of the context under which a packet passed. -/
def acceptUnder (o : RxOp) (gen idx : Nat) (v : Slot) : Slot :=
  let ssrc := if o.rtcp then leAt o.bytes 4 4 else leAt o.bytes 8 4
  let f := fun (rs : List IdxRec) => putRec (acceptIndex (findRec ssrc false o.rtcp rs) ssrc o.rtcp idx) rs
  if gen = v.rxGen then { v with recs := f v.recs }
  else if v.prev.any (fun p => p.1.gen == gen) then { v with prevRecs := f v.prevRecs }
  else { v with drain := v.drain.map (fun d => if d.1 = gen then (d.1, f d.2) else d) }

/-- Contexts that are gone are forgotten once no started operation remains on the slot. -/
def settleDrain (k : Nat) (s : State) : State :=
  if opsOn k s = 0 ∧ (slotAt k s).drain ≠ [] then updSlot k (fun v => { v with drain := [] }) s else s

/-- Try the contexts in order (R165): the generation and the plaintext of the first that accepts, or the last refusal. -/
def tryAll (o : RxOp) (v : Slot) : List RxKeys → Tried → Option (Nat × Nat × List Byte) × Tried
  | [], t => (none, t)
  | k :: ks, _ =>
    match tryKeys o k v with
    | .ok idx p => (some (k.gen, idx, p), .ok idx p)
    | t => tryAll o v ks t

/-- The gang ends an operation (R165): the plaintext and its index, or nothing when no context accepts the packet. -/
def endOp (o : RxOp) (s : State) : Option (Nat × List Byte) × State :=
  let s := { s with rxOps := s.rxOps.filter (fun x => x.id != o.id) }
  let v := slotAt o.slot s
  let r := tryAll o v o.tries .auth
  match r.1 with
  | some (gen, idx, p) =>
    let s := setSlot o.slot (acceptUnder o gen idx v) s
    -- it failed under the keys in force when it started, and passed under PREVIOUS
    let s := if o.tries.head?.any (fun t => t.gen == gen) then s else count (cipCtr o.wing 9) 1 s
    let s := settleDrain o.slot s
    (some (idx, p), startOps s.rxOps (count (cipCtr o.wing 0) 1 s))
  | none =>
    let s := match r.2 with
      | .replay => count (cipCtr o.wing 3) 1 (setSlot o.slot { v with replay := satAdd 64 v.replay 1 } s)
      | _ => count (cipCtr o.wing 2) 1 (setSlot o.slot { v with authFail := satAdd 64 v.authFail 1 } s)
    let s := settleDrain o.slot s
    (none, startOps s.rxOps s)

/-! ## Lifecycle and tokens (R155, R156) -/

/-- The first of v, v + 1, ... that is none of the values used. -/
def freshValue (v : Nat) (used : List Nat) : Nat :=
  (((List.range (used.length + 1)).map (fun i => (v + i) % 2 ^ 64)).find? (fun x => !used.contains x)).getD (v % 2 ^ 64)

/-- The values of `KEY_CHALLENGE` up to the n-th, latest first: each is new (R156). -/
def challengeValues : Nat → List Nat
  | 0 => [Config.challenge 0 % 2 ^ 64]
  | n + 1 => freshValue (Config.challenge (n + 1)) (challengeValues n) :: challengeValues n

/-- `KEY_CHALLENGE`. -/
def challengeNow (s : State) : Nat := (challengeValues s.keys.challenges).headD 0

def tokPurpose (t : List Byte) : Nat := leAt t 4 2
def tokPayloadLen (t : List Byte) : Nat := leAt t 6 2
def tokPayload (t : List Byte) : List Byte := slice t 0x79 (tokPayloadLen t)

/-- An owner-signed token passes R156. -/
def tokenOk (t : List Byte) (s : State) : Bool :=
  let n := tokPayloadLen t
  let key := slice t 0x18 97
  leAt t 0 4 == 0x4E4B544F && decide (1 ≤ tokPurpose t) && decide (tokPurpose t ≤ 4) && decide (n ≤ 1024)
    && t.length == 0x79 + n + 96 && sha384 key == s.keys.ownerHash && leAt t 8 8 == Config.serial
    && leAt t 16 8 == challengeNow s
    && ecdsaP384 key (t.take (0x79 + n)) (slice t (0x79 + n) 48) (slice t (0x79 + n + 48) 48)

/-- An accepted token makes `KEY_CHALLENGE` take a new value. -/
def consumeToken (s : State) : State := { s with keys := { s.keys with challenges := s.keys.challenges + 1 } }

/-- KEY_PROVISION (R155, R174). -/
def keyProvisionBody (r : Req) (s : State) : Answer :=
  if !r.owner then notOwned5 s
  else if s.keys.life ≠ 0 then wrongState s
  else
    answer { s with keys := { s.keys with life := 1, rootKey := bytesOf128 r.w1 ++ bytesOf128 r.w2,
                                          ownerHash := hostBytes (df r.w3 63 0) 48 s } } (okWith 0)

def execKeyProvision (src : CmdSrc) (s : State) : Outcome :=
  onWf (.keyProvision src) (command 0x60 (strictly ([(127, 0)], [(127, 0)], [(63, 0)]) keyProvisionBody) src s)

/-- Set ERASING at the slot's arbiter (R164 step 1). -/
def setErasing (k : Nat) (s : State) : State :=
  updSlot k (fun v => if v.state = 1 ∨ v.state = 2 then { v with state := 3 } else v) s

/-- Every KEK entry is zeroed. -/
def eraseKeks (s : State) : State := { s with keys := { s.keys with keks := Tab.empty } }

/-- DEBUG_ENABLED is entered once no slot is ERASING (R155); a slot loaded meanwhile is erased first. The waiting commands complete: with
WRONG_STATE where a RETIRE token has come between, from whose state there is no such transition. -/
def settleDebug (s : State) : State :=
  let ts := s.keys.debugWait
  let are := fun (n : Nat) => (s.keys.slots.toList.map (·.1)).filter (fun k => (slotAt k s).state == n)
  if ts.isEmpty || !(are 3).isEmpty then s
  else
    let done := { s with keys := { s.keys with debugWait := [] } }
    if s.keys.life ≠ 1 then ts.foldl (fun s t => complete t (refuse stNotStarted 0x04) s) done
    else if !(are 2).isEmpty then (are 2).foldl (fun s k => setErasing k s) s
    else ts.foldl (fun s t => complete t (okWith 0) s) { eraseKeks done with keys := { (eraseKeks done).keys with life := 2 } }

/-- KEY_TOKEN (R155, R174). A DEBUG_ENABLE token sets every slot ERASING, and completes when all are EMPTY. -/
def keyTokenBody (r : Req) (s : State) : Answer :=
  let t := hostBytes (df r.w1 63 0) (df r.w1 79 64) s
  let p := tokPurpose t
  let bad := answer s (refuse stRefused 0x0A)
  if p = 2 ∨ p = 3 then answer s (refuse stNotStarted 0x01)
  else if (p = 1 ∧ s.keys.life ≠ 1) ∨ (p = 4 ∧ s.keys.life = 3) then wrongState s
  else if !(tokenOk t s) then bad
  else
    let s := consumeToken s
    if p = 4 then
      answer { s with keys := { s.keys with life := 3, rootKey := List.replicate 32 0xFF } } (okWith 0)
    else
      let ks := (s.keys.slots.toList.filter (fun c => c.2.state != 0)).map (·.1)
      if ks.isEmpty then answer { eraseKeks s with keys := { (eraseKeks s).keys with life := 2 } } (okWith 0)
      else
        let s := ks.foldl (fun s k => setErasing k s) s
        ({ s with keys := { s.keys with debugWait := s.keys.debugWait ++ [r.tk] } }, none)

def execKeyToken (src : CmdSrc) (s : State) : Outcome :=
  onWf (.keyToken src) (command 0x61 (notBlank (strictly ([(79, 0)], [], []) keyTokenBody)) src s)

/-- KEY_TOKEN_RETIRE_CHECK (R174). -/
def retireCheckBody (_ : Req) (s : State) : Answer := answer s (okWith s.keys.life)

def execKeyTokenRetireCheck (src : CmdSrc) (s : State) : Outcome :=
  onWf (.keyTokenRetireCheck src) (command 0x6B (notBlank (strictly ([], [], []) retireCheckBody)) src s)

/-! ## Blobs (R157, R158) -/

def kekKey (f k : Nat) : Nat := f * 4 + k
def kekOf (f k : Nat) (s : State) : Kek := s.keys.keks.get (kekKey f k) {}

def blobLen (kind : Nat) : Nat := if kind = 1 then 88 else 152

/-- The checks of the clear header alone (R157). -/
def headerFine (kind : Nat) (h : List Byte) : Bool :=
  leAt h 0 2 == 0x4B57 && byteAt h 2 == 1 && byteAt h 3 == kind && leAt h 8 4 == blobLen kind
    && (byteAt h 4 == 0xFF || decide (byteAt h 4 ≤ 63)) && decide (byteAt h 5 ≤ 3) && (byteAt h 4 != 0xFF || byteAt h 5 == 0)
    && decide (byteAt h 6 ≤ 63) && (if kind = 1 then decide (byteAt h 7 ≤ 3) else byteAt h 7 == 0)
    && (kind != 2 || leAt h 12 4 == 0)

/-- The key that a header names as its wrapping key: none where the KEK entry is empty. -/
def wrapKey (h : List Byte) (s : State) : Option (List Byte) :=
  if byteAt h 4 = 0xFF then some s.keys.rootKey
  else if (kekOf (byteAt h 4) (byteAt h 5) s).valid then some (kekOf (byteAt h 4) (byteAt h 5) s).key else none

/-- A failed unwrap: counted and recorded (R158, R170, R506). -/
def unwrapFail (r : Req) (h : List Byte) (s : State) : Answer :=
  let s := count keyUnwrapFailOff 1 s
  answer (recordBy r.master 0x0601 [(1, fld r.w0 7 0), (1, reqFn r), (1, byteAt h 3), (1, byteAt h 4), (1, byteAt h 5), (1, byteAt h 6)] s)
    (refuse stNotStarted 0x02)

/-- Unwrap a blob: in RETIRED every unwrap fails (R155); the header copy and the wrapping key are checked (R158). -/
def unwrapBlob (bs key : List Byte) (s : State) : Option (List Byte) :=
  if s.keys.life = 3 then none
  else match keyUnwrap key (bs.drop 16) with
    | none => none
    | some p =>
      let allowed := if byteAt bs 3 = 1 then byteAt bs 4 == 0xFF else byteAt bs 4 == byteAt bs 6
      if p.take 16 = bs.take 16 ∧ p.length = (if byteAt bs 3 = 1 then 64 else 128) ∧ allowed then some p else none

/-- KEY_KEK_INSTALL (R157, R158, R173, R174). -/
def kekInstallBody (r : Req) (s : State) : Answer :=
  let a := df r.w1 63 0
  let h := hostBytes a 16 s
  if !r.owner then notOwned5 s
  else if !headerFine 1 h then answer s (refuse stNotStarted 0x01)
  else match wrapKey h s with
    | none => answer s (refuse stNotStarted 0x03)
    | some key =>
      match unwrapBlob (hostBytes a 88 s) key s with
      | none => unwrapFail r h s
      | some p =>
        let f := byteAt h 6
        let t := byteAt h 7
        if !(slice p 48 16).all (· == 0) then answer s (refuse stNotStarted 0x01)
        else if leAt h 12 4 ≤ (kekOf f t s).epoch then answer s (refuse stNotStarted 0x06)
        else answer { s with keys := { s.keys with keks := s.keys.keks.set (kekKey f t) ⟨true, leAt h 12 4, slice p 16 32⟩ } } (okWith 0)

def execKeyKekInstall (src : CmdSrc) (s : State) : Outcome :=
  onWf (.keyKekInstall src) (command 0x62 (notBlank (strictly ([(63, 0)], [], []) kekInstallBody)) src s)

/-- KEY_KEK_ERASE (R173, R174). -/
def kekEraseBody (r : Req) (s : State) : Answer :=
  if !r.owner then notOwned5 s
  else answer { s with keys := { s.keys with keks := s.keys.keks.set (kekKey (df r.w1 5 0) (df r.w1 9 8)) {} } } (okWith 0)

def execKeyKekErase (src : CmdSrc) (s : State) : Outcome :=
  onWf (.keyKekErase src) (command 0x63 (notBlank (strictly ([(5, 0), (9, 8)], [], []) kekEraseBody)) src s)

/-! ## Slots (R159, R160, R163, R164) -/

/-- The options of R150 and the layout of a SESSION plaintext (R158): its key and salt lengths by profile. -/
def sessionFine (p : List Byte) : Bool :=
  let prof := leAt p 0x10 2
  let klen := if prof = 8 then 32 else 16
  let slen := if prof = 7 ∨ prof = 8 then 12 else 14
  let zero := fun o n => (slice p o n).all (· == 0)
  (prof == 1 || prof == 2 || prof == 7 || prof == 8) && decide (1 ≤ byteAt p 0x12) && decide (byteAt p 0x12 ≤ 3) && zero 0x13 13
    && zero (0x20 + klen) (32 - klen) && zero (0x40 + slen) (16 - slen) && zero (0x50 + klen) (32 - klen)
    && zero (0x70 + slen) (16 - slen)

/-- The master keys with their salts, and the session keys derived from them at the load (R150). -/
def masterKeys (profile : Nat) (master : List Byte) : List Byte := deriveKeys profile (master.take 32) (master.drop 32)
def sessionRx (p : List Byte) : List Byte :=
  if byteAt p 0x12 % 2 = 1 then slice p 0x20 48 else []
def sessionTx (p : List Byte) : List Byte :=
  if 2 ≤ byteAt p 0x12 then slice p 0x50 48 else []

/-- Read and unwrap a SESSION blob for owner function `f` (R157, R158, R174). -/
def readSession (r : Req) (a f : Nat) (s : State) (k : List Byte → Answer) : Answer :=
  let h := hostBytes a 16 s
  if !headerFine 2 h then answer s (refuse stNotStarted 0x01)
  else if byteAt h 6 ≠ f then notOwned5 s
  else match wrapKey h s with
    | none => answer s (refuse stNotStarted 0x03)
    | some key =>
      match unwrapBlob (hostBytes a 152 s) key s with
      | none => unwrapFail r h s
      | some p => if sessionFine p then k p else answer s (refuse stNotStarted 0x01)

/-- Load a session into a slot (R163): each valid direction starts a new context, and the old receive keys become
PREVIOUS for the grace. -/
def loadSession (k : Nat) (p : List Byte) (graceMs : Nat) (s : State) : State :=
  let v := slotAt k s
  let n := s.keys.loads + 1
  let rx := sessionRx p
  let tx := sessionTx p
  let prof := leAt p 0x10 2
  let hasRx := byteAt p 0x12 % 2 == 1
  let hasTx := decide (2 ≤ byteAt p 0x12)
  let keepOld := hasRx && v.rxKeys != [] && graceMs != 0
  let rxRecs := v.recs.filter (fun r => !r.tx)
  let lost := if hasRx then (if keepOld then [] else [(v.rxGen, rxRecs)]) ++ (match v.prev with | none => [] | some q => [(q.1.gen, v.prevRecs)]) else []
  let v' := { v with
    state := 2, profile := prof, lastLoad := cmpNow s, drain := if opsOn k s = 0 then [] else lost ++ v.drain,
    rxGen := if hasRx then n else v.rxGen, rxKeys := if hasRx then masterKeys prof rx else v.rxKeys, rxMaster := if hasRx then rx else v.rxMaster,
    txKeys := if hasTx then masterKeys prof tx else v.txKeys, txMaster := if hasTx then tx else v.txMaster,
    recs := v.recs.filter (fun r => if r.tx then !hasTx else !hasRx),
    prev := if hasRx then (if keepOld then some (⟨v.rxGen, v.profile, v.rxKeys, v.rxMaster⟩, nowNs s + graceMs * 1000000) else none) else v.prev,
    prevRecs := if hasRx then (if keepOld then rxRecs else []) else v.prevRecs,
    rekeyPosted := v.rekeyPosted && !hasTx, indexWarn := v.indexWarn && !hasTx }
  writeRecord k (setSlot k v' { s with keys := { s.keys with loads := n } })

/-- The lowest free slot in a bank where the requester holds Control (R159). -/
def freeSlot (r : Req) (s : State) : Option Nat :=
  (List.range 512).findSome? (fun b =>
    if accHas tgKeyBank b r.master bitControl s then lowestFree .slot (b * 4096) ((b + 1) * 4096) s else none)

def takeSlot (k f : Nat) (s : State) : State :=
  writeRecord k (setSlot k { state := 1, owner := f, writes := (slotAt k s).writes } (allocId .slot k s))

/-- KEY_SLOT_ALLOC (R159, R174). -/
def slotAllocBody (r : Req) (s : State) : Answer :=
  let a := df r.w1 63 0
  let f := df r.w2 5 0
  let grace := df r.w2 31 16
  let full := answer s (refuse stCapacity 0x07)
  if 10000 < grace then answer s (refuse stNotStarted 0x01)
  else if a = 0 then
    match freeSlot r s with
    | none => full
    | some k => answer (takeSlot k f s) (okWith (handleFor .slot k s))
  else
    readSession r a f s (fun p =>
      match freeSlot r s with
      | none => full
      | some k => answer (loadSession k p grace (takeSlot k f s)) (okWith (handleFor .slot k s)))

def execKeySlotAlloc (src : CmdSrc) (s : State) : Outcome :=
  onWf (.keySlotAlloc src) (command 0x64 (notBlank (strictly ([(63, 0)], [(5, 0), (31, 16)], []) slotAllocBody)) src s)

/-- KEY_SLOT_LOAD (R160, R163, R174). -/
def slotLoadBody (r : Req) (s : State) : Answer :=
  withSlot (df r.w1 63 0) r s (fun k =>
    let v := slotAt k s
    if v.state ≠ 1 ∧ v.state ≠ 2 then wrongState s
    else if 10000 < df r.w3 15 0 then answer s (refuse stNotStarted 0x01)
    else readSession r (df r.w2 63 0) v.owner s (fun p =>
      if v.state = 2 ∧ byteAt p 0x12 ≠ 3 ∧ leAt p 0x10 2 ≠ v.profile then answer s (refuse stNotStarted 0x01)
      else answer (loadSession k p (df r.w3 15 0) s) (okWith 0)))

def execKeySlotLoad (src : CmdSrc) (s : State) : Outcome :=
  onWf (.keySlotLoad src) (command 0x65 (notBlank (strictly ([(63, 0)], [(63, 0)], [(15, 0)]) slotLoadBody)) src s)

/-- KEY_SLOT_ERASE (R164): completes when the zeroing ends. -/
def slotEraseBody (r : Req) (s : State) : Answer :=
  withSlot (df r.w1 63 0) r s (fun k =>
    (setProgress r.tk 1 (updSlot k (fun v => { v with erasers := v.erasers ++ [r.tk] }) (setErasing k s)), none))

def execKeySlotErase (src : CmdSrc) (s : State) : Outcome :=
  onWf (.keySlotErase src) (command 0x66 (notBlank (strictly ([(63, 0)], [], []) slotEraseBody)) src s)

/-- The slot leaves use: FREE, its handle in quarantine. -/
def freeSlotNow (k : Nat) (s : State) : State := releaseId .slot k (setSlot k { writes := (slotAt k s).writes } s)

/-- KEY_SLOT_RELEASE (R160): an EMPTY slot is released at once, any other is erased first. -/
def slotReleaseBody (r : Req) (s : State) : Answer :=
  withSlot (df r.w1 63 0) r s (fun k =>
    if 0 < binds k s then answer s (refuse stNotStarted 0x0B)
    else if (slotAt k s).state = 1 then answer (freeSlotNow k s) (okWith 0)
    else (updSlot k (fun v => { v with erasers := v.erasers ++ [r.tk], releasing := true }) (setErasing k s), none))

def execKeySlotRelease (src : CmdSrc) (s : State) : Outcome :=
  onWf (.keySlotRelease src) (command 0x67 (notBlank (strictly ([(63, 0)], [], []) slotReleaseBody)) src s)

/-- ERASE_ZEROING_DONE (R164 steps 2 and 3): once every started operation has ended, keys, PREVIOUS and index records are
zeroed, and the commands that wait complete. -/
def zeroingDo (k : Nat) (s : State) : State :=
  let v := slotAt k s
  if v.state = 3 ∧ opsOn k s = 0 then
    let v' : Slot := {
      state := 1, owner := v.owner, authFail := v.authFail, replay := v.replay, nonceEx := v.nonceEx,
                       keyErased := v.keyErased, lastLoad := v.lastLoad, writes := v.writes }
    let s := writeRecord k (setSlot k v' s)
    let s := if v.releasing then freeSlotNow k s else s
    let s := match v.save with | some q => complete q.ticket ⟨stKeyErased, 0, 0⟩ s | none => s
    settleDebug (v.erasers.foldl (fun s t => complete t (okWith 0) s) s)
  else s

def execEraseZeroingDone (slot : Nat) (s : State) : Outcome := onWf (.eraseZeroingDone slot) (zeroingDo slot s)

/-- RX_GRACE_END (R163): PREVIOUS is zeroed. -/
def graceEndDo (k : Nat) (s : State) : State :=
  match (slotAt k s).prev with
  | none => s
  | some p =>
    if p.2 ≤ nowNs s then
      writeRecord k (updSlot k (fun v => { v with
        prev := none, prevRecs := [], drain := if opsOn k s = 0 then v.drain else (p.1.gen, v.prevRecs) :: v.drain }) s)
    else s

def execRxGraceEnd (slot : Nat) (s : State) : Outcome := onWf (.rxGraceEnd slot) (graceEndDo slot s)

/-! ## Contexts (R168-R172) -/

/-- An index record as a context holds it (R169). -/
def ctxRec (r : IdxRec) : List Byte :=
  leBytes 4 r.ssrc ++ leBytes 1 (b2n r.tx + 2 * b2n r.rtcp) ++ [0, 0, 0] ++ leBytes 8 r.index ++ leBytes 16 (r.window % 2 ^ 128)

/-- The records of the SSRCs that the slot serves (R169). -/
def ctxRecs (v : Slot) : List IdxRec := (v.recs.filter (fun r => !r.orphan)).take 160
/-- The nonce of a wrapped context (R169). -/
def ctxNonce (ctr : Nat) : List Byte := beBytes 12 ctr
def ctxLen (v : Slot) : Nat := 256 + 32 * (ctxRecs v).length + 16

/-- Take a context counter value, reserving 4,096 more when the reserved ones are used up (R172). -/
def takeCounter (s : State) : Nat × State :=
  let n := s.keys.ctxNext
  (n, { s with keys := { s.keys with ctxNext := n + 1,
                                     ctxReserved := if n < s.keys.ctxReserved then s.keys.ctxReserved else n + 4096 } })

/-- The context of a slot as it leaves (R169). -/
def ctxImage (v : Slot) (q : SaveReq) (ctr : Nat) (s : State) : List Byte :=
  let hd := leBytes 2 0x4B57 ++ leBytes 1 1 ++ leBytes 1 (if q.clear then 4 else 3) ++ leBytes 1 v.owner ++ leBytes 1 q.kek
    ++ leBytes 1 v.owner ++ leBytes 1 0 ++ leBytes 4 (ctxLen v) ++ leBytes 4 0 ++ leBytes 8 Config.serial ++ leBytes 8 ctr
  let body := ctxBody v (nowNs s) ++ (ctxRecs v).flatMap ctxRec
  if q.clear then hd ++ body ++ List.replicate 16 0
  else hd ++ pad (body.length + 16) (gcmSeal (contextKey (kekOf v.owner q.kek s).key Config.serial) (ctxNonce ctr) (hd.take 16) body)

/-- Write a slot's snapshot to host memory. -/
def writeSnapshot (k : Nat) (q : SaveReq) (s : State) : State :=
  let v := slotAt k s
  if q.clear then hostPut q.addr (ctxImage v q s.keys.ctxNext s) s
  else
    let c := takeCounter s
    hostPut q.addr (ctxImage v q c.1 c.2) c.2

/-- The refusals of KEY_CTX_SAVE that its slot and its buffer give (R169, R172, R176). -/
def saveRefusal (k : Nat) (q : SaveReq) (s : State) : Option Reply :=
  let v := slotAt k s
  if v.state ≠ 2 then some (refuse stNotStarted 0x04)
  else if !q.clear && !(kekOf v.owner q.kek s).valid then some (refuse stNotStarted 0x03)
  else if !q.clear && decide (2 ^ 64 ≤ s.keys.ctxNext) then some (refuse stNonceExhausted 0x08)
  else if q.len < ctxLen v then some (refuse stNotStarted (0x09 + ctxLen v * 256))
  else none

/-- KEY_CTX_SAVE (R168, R171). With FREEZE the slot refuses new operations, and CONTEXT_SNAPSHOT takes the snapshot. -/
def ctxSaveBody (r : Req) (s : State) : Answer :=
  withSlot (df r.w1 63 0) r s (fun k =>
    let q : SaveReq := ⟨r.tk, df r.w2 63 0, df r.w2 95 64, bitOf r.w3 0, df r.w3 9 8⟩
    if q.clear && !(r.owner && s.keys.life == 2) then answer s (refuse stRefused 0x04)
    else match saveRefusal k q s with
      | some x => answer s x
      | none =>
        if bitOf r.w3 1 then
          match (slotAt k s).save with
          | some _ => wrongState s
          | none => (updSlot k (fun v => { v with frozen := true, save := some q }) s, none)
        else answer (writeSnapshot k q s) (okWith 0))

def execKeyCtxSave (src : CmdSrc) (s : State) : Outcome :=
  onWf (.keyCtxSave src) (command 0x68 (notBlank (strictly ([(63, 0)], [(95, 0)], [(1, 0), (9, 8)]) ctxSaveBody)) src s)

/-- CONTEXT_SNAPSHOT (R168): every started operation on the freezing slot has ended. -/
def snapshotDo (k : Nat) (s : State) : State :=
  match (slotAt k s).save with
  | none => s
  | some q =>
    if 0 < opsOn k s ∨ (slotAt k s).state = 3 then s
    else
      let s := updSlot k (fun v => { v with save := none }) s
      match saveRefusal k q s with
      | some x => complete q.ticket x s
      | none => complete q.ticket (okWith 0) (writeSnapshot k q s)

def execContextSnapshot (slot : Nat) (s : State) : Outcome := onWf (.contextSnapshot slot) (snapshotDo slot s)

/-- An index record read from a context. -/
def recFrom (bs : List Byte) (until_ : Nat) : IdxRec :=
  { ssrc := leAt bs 0 4, tx := byteAt bs 4 % 2 == 1, rtcp := byteAt bs 4 / 2 % 2 == 1, index := leAt bs 8 8,
    window := leAt bs 16 16, held := true, deadline := until_ }

/-- A record of an RTCP-only SSRC is taken by the slot at once (R170). -/
def takeRtcpOnly (rs : List IdxRec) : List IdxRec :=
  rs.map (fun r => if r.rtcp && !rs.any (fun x => x.ssrc == r.ssrc && !x.rtcp) then { r with held := false } else r)

/-- Load a context's body into a new slot. -/
def restoreInto (k f : Nat) (body : List Byte) (n : Nat) (s : State) : State :=
  let fl := leAt body 2 2
  let g := s.keys.loads + 2
  let until_ := nowNs s + s.body.quarantineMs * 1000000
  let recs := takeRtcpOnly ((List.range n).map (fun i => recFrom (slice body (224 + 32 * i) 32) until_))
  let part := fun (bit o : Nat) => if fl / 2 ^ bit % 2 = 1 then slice body o 48 else []
  let keys := fun (prof : Nat) (m : List Byte) => if m.isEmpty then [] else masterKeys prof m
  let v : Slot := {
      state := 2, owner := f, profile := byteAt body 0, rxGen := g, writes := (slotAt k s).writes,
      rxMaster := part 0 8, txMaster := part 1 80, rxKeys := keys (byteAt body 0) (part 0 8), txKeys := keys (byteAt body 0) (part 1 80),
      prev := if fl / 4 % 2 = 1 then
          some (⟨g - 1, byteAt body 1, keys (byteAt body 1) (part 2 152), part 2 152⟩, nowNs s + leAt body 4 4 * 1000000) else none,
      recs := recs, lastLoad := cmpNow s }
  writeRecord k (setSlot k v { allocId .slot k s with keys := { s.keys with loads := g } })

/-- KEY_CTX_RESTORE (R169-R171). -/
def ctxRestoreBody (r : Req) (s : State) : Answer :=
  let a := df r.w1 63 0
  let len := df r.w1 95 64
  let f := df r.w2 13 8
  let clear := bitOf r.w2 0
  let bs := hostBytes a len s
  let hd := bs.take 32
  let n := (leAt hd 8 4 - 272) / 32
  let fine := leAt hd 0 2 == 0x4B57 && byteAt hd 2 == 1 && byteAt hd 3 == (if clear then 4 else 3) && decide (byteAt hd 4 ≤ 63)
    && decide (byteAt hd 5 ≤ 3) && leAt hd 8 4 == 272 + 32 * n && decide (n ≤ 160) && len == leAt hd 8 4 && decide (32 ≤ len)
  let put := fun (body : List Byte) =>
    match freeSlot r s with
    | none => answer s (refuse stCapacity 0x07)
    | some k => answer (restoreInto k f body n s) (okWith (handleFor .slot k s))
  if clear && !(r.owner && s.keys.life == 2) then answer s (refuse stRefused 0x04)
  else if !fine then answer s (refuse stNotStarted 0x01)
  else if byteAt hd 6 ≠ f then notOwned5 s
  else if clear then put (slice bs 32 (224 + 32 * n))
  else if !(kekOf (byteAt hd 4) (byteAt hd 5) s).valid then answer s (refuse stNotStarted 0x03)
  else if s.keys.life = 3 then unwrapFail r hd s
  else match gcmOpen (contextKey (kekOf (byteAt hd 4) (byteAt hd 5) s).key (leAt hd 16 8)) (ctxNonce (leAt hd 24 8)) (hd.take 16) (bs.drop 32) with
    | none => unwrapFail r hd s
    | some body => put body

def execKeyCtxRestore (src : CmdSrc) (s : State) : Outcome :=
  onWf (.keyCtxRestore src) (command 0x69 (notBlank (strictly ([(95, 0)], [(0, 0), (13, 8)], []) ctxRestoreBody)) src s)

/-- RESTORED_RECORD_DROP (R170): records that no entry has taken within one quarantine period. -/
def restoredDropDo (k : Nat) (s : State) : State :=
  updSlot k (fun v => { v with recs := v.recs.filter (fun r => !(r.held && decide (r.deadline ≤ nowNs s))) }) s

def execRestoredRecordDrop (slot : Nat) (s : State) : Outcome := onWf (.restoredRecordDrop slot) (restoredDropDo slot s)

/-- An entry takes the records held for its SSRCs and direction (R170). -/
def takeRecords (k : Nat) (tx : Bool) (ssrcs : List Nat) (s : State) : State :=
  updSlot k (fun v => { v with recs := v.recs.map (fun r =>
    if r.tx = tx ∧ ssrcs.contains r.ssrc then { r with held := false, orphan := false } else r) }) s

/-! ## KEY_SLOT_READ (R175) -/

/-- The image of a slot. -/
def slotImage (k : Nat) (s : State) : List Word128 :=
  let v := slotAt k s
  let flags := b2n v.rekeyPosted + 2 * b2n v.indexWarn + 4 * b2n v.frozen + 8 * b2n v.prev.isSome
  let high := ((v.recs.filter (fun r => r.tx && !r.rtcp)).map (·.index)).foldl max 0
  [pack128 [(64, 64, handleFor .slot k s), (56, 8, v.state), (40, 16, v.profile), (32, 8, v.owner), (24, 8, flags), (0, 24, binds k s)],
   pack128 [(64, 64, v.authFail), (0, 64, v.replay)], pack128 [(64, 64, v.nonceEx), (0, 64, v.keyErased)],
   pack128 [(64, 64, high), (0, 64, v.lastLoad)]]

def slotReadBody (r : Req) (s : State) : Answer :=
  withSlot (df r.w1 63 0) r s (fun k =>
    let s' := hostPut (df r.w2 63 0) (bytesOfWords (slotImage k s)) s
    answer (if bitOf r.w3 0 then updSlot k (fun v => { v with authFail := 0, replay := 0, nonceEx := 0, keyErased := 0 }) s' else s')
      (okWith 0))

def execKeySlotRead (src : CmdSrc) (s : State) : Outcome :=
  onWf (.keySlotRead src) (command 0x6A (strictly ([(63, 0)], [(63, 0)], [(0, 0)]) slotReadBody) src s)

end Sys2Proof.Machine
end

