-- ==== Sys2Proof/Machine/Sources.lean ====
section
/-! DEFINITION. Source streams: the ingress commands, ownership, policing, pools and history rings (R92-R102, R108-R111,
R115, R116). -/

namespace Sys2Proof.Machine

def sourceAt (i : Nat) (s : State) : Source := s.media.sources.get i {}
def setSource (i : Nat) (v : Source) (s : State) : State := { s with media := { s.media with sources := s.media.sources.set i v } }
def updSource (i : Nat) (f : Source → Source) (s : State) : State := setSource i (f (sourceAt i s)) s

/-! Fields of the create command (R97). -/
def Source.lane (v : Source) : Nat := fld v.w2 126 120
def Source.wing (v : Source) : Nat := v.lane / 32
def Source.kind (v : Source) : Nat := fld v.w2 119 118
def Source.rtxValid (v : Source) : Bool := bitOf v.w2 117
def Source.rtxSsrc (v : Source) : Nat := fld v.w2 63 32
def Source.ssrc (v : Source) : Nat := fld v.w2 31 0
def Source.forwardOnly (v : Source) : Bool := bitOf v.w3 107 || bitOf v.w3 106
def Source.levelId (v : Source) : Nat := fld v.w3 105 102
def Source.ddId (v : Source) : Nat := fld v.w3 101 98
def Source.rtxPt (v : Source) : Nat := fld v.w3 93 87
def Source.pt (v : Source) : Nat := fld v.w3 86 80
/-- A payload type that R100 does not drop. -/
def Source.takesPt (v : Source) (pt : Nat) : Bool := pt == v.pt || pt == v.rtxPt
def Source.format (v : Source) : Nat := fld v.w3 79 77
def Source.room (v : Source) : Nat := fld v.w3 76 64
def Source.slot (v : Source) : Nat := handleIdx (fld v.w3 63 0)
def Source.transport (v : Source) : Transport :=
  { port := v.lane, vlan := if bitOf v.w2 116 then some (fld v.w2 115 104) else none, laddr := fld v.w2 103 96,
    lport := fld v.w2 95 80, peer := v.w1.toNat, pport := fld v.w2 79 64 }
/-- RTP clock: 90,000 Hz for video, 48,000 for Opus, 8,000 for G.711 and G.722 (R112). -/
def Source.clock (v : Source) : Nat := if v.format ≤ 3 then 90000 else if v.format = 4 then 48000 else 8000
def Source.isAudio (v : Source) : Bool := decide (4 ≤ v.format)

/-- Wing counter c of R116. -/
def ingCtr (w c : Nat) : Nat := 0x01203000 + w * 0x01000000 + c * 8
def ingOff (w r : Nat) : Nat := 0x01200000 + w * 0x01000000 + r

def roomAt (r : Nat) (s : State) : Room := s.media.rooms.get r {}
def laddrAt (w a : Nat) (s : State) : LocalAddr := s.media.laddrs.get (w * 256 + a) {}

/-- The room is held by function `f`. -/
def holdsRoom (f r : Nat) (s : State) : Bool := (roomAt r s).held && (roomAt r s).owner == f

/-- R95: PF0 and firmware are not checked; another function needs its name in the Wing's stream ownership table. -/
def ownsStream (r : Req) (w stream : Nat) (s : State) : Bool :=
  r.owner || (let e := s.media.tmOwner.get (w * 4096 + stream / 256 % 4096) (0, false); e.2 && e.1 == r.fn)

/-- R94: the local addresses on which a function may create sources. -/
def ownsLaddr (r : Req) (w a : Nat) (s : State) : Bool := r.owner || (laddrAt w a s).owner == r.fn

/-- The source that a command names, for its function and PF0 (R7, R8, R94). -/
def withSource (h : Nat) (r : Req) (s : State) (f : Nat → Answer) : Answer :=
  match resolve .source h s with
  | .refused => answer s (refuse stRefused 0)
  | .stale => answer (count (ingCtr (sourceAt (handleIdx h) s).wing 9) 1 s) ⟨stStale, 0, 0⟩
  | .ok i => if r.owner || (sourceAt i s).fn == r.fn then viaEntry 1 i (sourceAt i s).wing h s (viaWing (sourceAt i s).wing (f i))
    else answer s (refuse stRefused 0x06)

/-- The source of a mix group, which only AUD_GROUP_RELEASE ends (R275). -/
def Source.isGroup (v : Source) : Bool := v.isLocal && v.isAudio

def badParam (s : State) : Answer := answer s (refuse stNotStarted 0x01)

/-! ## Match keys (R93) -/

/-- The SSRCs that a source holds on its transport. -/
def Source.ssrcs (v : Source) : List Nat := if v.rtxValid && v.kind == 0 then [v.ssrc, v.rtxSsrc] else [v.ssrc]

/-- Two sources would hold one match key. -/
def sameMatch (a b : Source) : Bool :=
  !a.isLocal && !b.isLocal && a.kind == b.kind &&
    (if a.kind = 1 then a.lane == b.lane && a.ssrc == b.ssrc
     else a.transport == b.transport && a.ssrcs.any (fun x => b.ssrcs.contains x))

/-! ## Pools (R108, R110, R111, R116) -/

def ringBytes (n : Nat) : Nat := if n = 0 then 0 else 2 ^ n * 1536
def jitBytes : Nat := 256 * 1536
def ingPoolUsed (w : Nat) (s : State) : Nat :=
  (((sourceList s).filter (fun c => c.2.wing == w)).map (fun c => ringBytes c.2.log2Slots + (if c.2.jit.isSome then jitBytes else 0))).sum
def ingPoolMib (w : Nat) (s : State) : Nat := ceilDiv (ingPoolUsed w s) (2 ^ 20)
def poolFits (w more : Nat) (s : State) : Bool := decide (ingPoolUsed w s + more ≤ s.media.poolGib.get w 16 * 2 ^ 30)

/-! ## Commands (R96-R101) -/

/-- Default policing of a new source (R98). -/
def defaultPolice : Word128 := pack128 [(72, 24, 65536), (48, 24, 1048576), (24, 24, 200000), (0, 24, 50000)]

def fillBuckets (v : Source) (now : Nat) : Source :=
  { v with bucketC := fld v.wPol 71 48 * 65536, bucketP := fld v.wPol 95 72 * 65536, bucketT := now }

/-- The fields of ING_SRC_CREATE that a reserved or outlying value spoils (R97, R101). -/
def createFine (v : Source) (s : State) : Bool :=
  decide (v.kind ≤ 1) && v.format != 7 && decide (v.levelId ≤ 14) && decide (v.ddId ≤ 14) && isPort v.lane s
    && (if v.kind = 1 then decide (v.ssrc < 2 ^ 20) && v.w1 == 0
        else !bitOf v.w2 116 || (decide (1 ≤ fld v.w2 115 104) && decide (fld v.w2 115 104 ≤ 4094)))

/-- The key slot that a create command names must be held by its requester (R97, R120): what refuses it. -/
def keyRefusal (r : Req) (h : Nat) (reason : Nat) (s : State) : Option Reply :=
  match resolve .slot h s with
  | .refused => some (refuse stRefused 0)
  | .stale => some ⟨stStale, 0, 0⟩
  | .ok k => if (slotAt k s).owner = reqFn r then none else some (refuse stRefused reason)

/-- A create command that its key handle refuses with `x`: a stale one is counted in `KEY_STALE` (R7, R176). -/
def keyRefused (x : Reply) (s : State) : Answer := answer (if x.st = stStale then count keyStaleOff 1 s else s) x

/-- Put a new source into use. -/
def addSource (i : Nat) (v : Source) (s : State) : State :=
  let s := writeHeld 1 i 0 (setSource i (fillBuckets v (cmpNow s)) (allocId .source i s))
  if v.isLocal ∨ v.kind = 1 then s else pinSlot v.wing v.slot (takeRecords v.slot false v.ssrcs s)

def srcCreateBody (r : Req) (s : State) : Answer :=
  let v : Source := { fn := reqFn r, w1 := r.w1, w2 := r.w2, w3 := r.w3, wPol := defaultPolice }
  if !createFine v s then badParam s
  else match (if v.kind = 0 then keyRefusal r (fld v.w3 63 0) 0x06 s else none) with
    | some x => keyRefused x s
    | none =>
      if !(holdsRoom (reqFn r) v.room s) || (v.kind == 0 && !ownsLaddr r v.wing (fld v.w2 103 96) s)
          || (v.kind == 1 && !ownsStream r v.wing v.ssrc s) then answer s (refuse stRefused 0x06)
      else if (sourceList s).any (fun c => sameMatch v c.2) then answer s (refuse stNotStarted 0x02)
      else if v.kind = 0 ∧ !(pinned v.wing s).contains v.slot ∧ 49152 ≤ (pinned v.wing s).length then
        answer s (refuse stCapacity 0x07)
      else match lowestFree .source 0 131072 s with
        | none => answer s ⟨stCapacity, 0, 0⟩
        | some i => answer (addSource i v s) (okVia v.wing (handleFor .source i s) s)

def execIngSrcCreate (src : CmdSrc) (s : State) : Outcome :=
  onWf (.ingSrcCreate src) (command 0x20 (strictly ([(127, 0)], [(126, 0)], [(107, 98), (93, 0)]) srcCreateBody) src s)

/-- ING_SRC_POLICE (R98). -/
def policeFine (w : Word128) : Bool :=
  fld w 23 0 == 0 || (decide (fld w 23 0 ≤ fld w 47 24) && decide (2048 ≤ fld w 71 48) && decide (2048 ≤ fld w 95 72))

def srcPoliceBody (r : Req) (s : State) : Answer :=
  withSource (df r.w1 63 0) r s (fun i =>
    if policeFine r.w2 then answer (updSource i (fun v => fillBuckets { v with wPol := r.w2 } (cmpNow s)) s) (okWith 0)
    else badParam s)

def execIngSrcPolice (src : CmdSrc) (s : State) : Outcome :=
  onWf (.ingSrcPolice src) (command 0x21 (strictly ([(63, 0)], [(95, 0)], []) srcPoliceBody) src s)

/-- ING_SRC_HISTORY (R108, R110). -/
def srcHistoryBody (r : Req) (s : State) : Answer :=
  withSource (df r.w1 63 0) r s (fun i =>
    let n := df r.w2 3 0
    if (sourceAt i s).isGroup then badParam s
    else if n ≠ 0 ∧ (n < 6 ∨ 13 < n) then badParam s
    else if n ≠ 0 ∧ !poolFits (sourceAt i s).wing (ringBytes n) s then answer s (refuse stCapacity 0x04)
    else answer (updSource i (fun v => { v with log2Slots := n, ring := Tab.empty }) s) (okWith 0))

def execIngSrcHistory (src : CmdSrc) (s : State) : Outcome :=
  onWf (.ingSrcHistory src) (command 0x22 (strictly ([(63, 0)], [(3, 0)], []) srcHistoryBody) src s)

/-- ING_SRC_JITTER (R111). -/
def jitterFine (w : Word128) : Bool :=
  decide (fld w 19 0 ≤ 500000) && decide (fld w 19 0 ≤ fld w 39 20) && decide (fld w 39 20 ≤ 1000000)

def srcJitterBody (r : Req) (s : State) : Answer :=
  withSource (df r.w1 63 0) r s (fun i =>
    let v := sourceAt i s
    if !jitterFine r.w2 || v.isGroup then badParam s
    else if v.forwardOnly then answer s (refuse stNotStarted 0x03)
    else if bitOf r.w2 41 then
      match v.jit with
      | some j => answer (setSource i { v with wJit := r.w2, jit := some { j with targetUs := df r.w2 19 0 } } s) (okWith 0)
      | none =>
        if poolFits v.wing jitBytes s then
          answer (setSource i { v with wJit := r.w2, jit := some { targetUs := df r.w2 19 0 } } s) (okWith 0)
        else answer s (refuse stCapacity 0x04)
    else answer (setSource i { v with wJit := r.w2, jit := none } s) (okWith 0))

def execIngSrcJitter (src : CmdSrc) (s : State) : Outcome :=
  onWf (.ingSrcJitter src) (command 0x23 (strictly ([(63, 0)], [(41, 0)], []) srcJitterBody) src s)

/-- The 128-byte image of a source (R99). -/
def sourceImage (i : Nat) (s : State) : List Word128 :=
  let v := sourceAt i s
  [v.w1, v.w2, v.w3, v.wPol,
   pack128 [(72, 20, match v.jit with | some j => j.targetUs | none => 0), (64, 4, v.log2Slots), (0, 42, fld v.wJit 41 0)],
   pack128 [(104, 1, b2n v.srSeen), (101, 2, v.lastQ), (98, 3, v.lastT), (96, 2, v.lastS), (64, 32, v.ext.getD 0),
            (0, 64, handleFor .source i s)],
   pack128 [(64, 64, v.srNtp), (0, 64, v.lastArrival)], pack128 [(32, 32, v.jitter16 / 16), (0, 32, v.srTs)]]

def srcReadBody (r : Req) (s : State) : Answer :=
  withSource (df r.w1 63 0) r s (fun i => answer (hostPut (df r.w2 63 0) (bytesOfWords (sourceImage i s)) s) (okWith 0))

def execIngSrcRead (src : CmdSrc) (s : State) : Outcome :=
  onWf (.ingSrcRead src) (command 0x24 (strictly ([(63, 0)], [(63, 0)], []) srcReadBody) src s)

/-- ING_SRC_STATS (R100). -/
def srcStatsBody (r : Req) (s : State) : Answer :=
  withSource (df r.w1 63 0) r s (fun i =>
    let v := sourceAt i s
    let s := hostPut (df r.w2 63 0) (v.ctrs.flatMap (leBytes 8)) s
    answer (if bitOf r.w3 0 then setSource i { v with ctrs := List.replicate 8 0 } s else s) (okWith 0))

def execIngSrcStats (src : CmdSrc) (s : State) : Outcome :=
  onWf (.ingSrcStats src) (command 0x25 (strictly ([(63, 0)], [(63, 0)], [(0, 0)]) srcStatsBody) src s)

/-- A source leaves use: no match key, no ring, no buffer, and its handle in quarantine (R115). The records of its SSRCs
leave its slot. -/
def removeSource (i : Nat) (s : State) : State :=
  let v := sourceAt i s
  let s := if v.isLocal ∨ v.kind = 1 then s else updSlot v.slot (fun k =>
    { k with recs := k.recs.filter (fun r => r.tx || !v.ssrcs.contains r.ssrc) }) s
  releaseId .source i (setSource i { v with ring := Tab.empty, log2Slots := 0, jit := none } s)

/-- A stitch cell names the source in settings that are active or will be (R115). -/
def stitchReads (h : Nat) (s : State) : Bool :=
  let names := fun (t : Tab LayerCfg) => t.toList.any (fun c =>
    (c.2.typ != 0 && (fld c.2.w2 63 0 == h || fld c.2.w2 127 64 == h)) || (c.1 == 64 && bitOf c.2.w2 33 && fld c.2.w3 63 0 == h))
  s.video.outs.toList.any (fun c => (identOf .output c.1 s).used && bitOf c.2.w1 10 &&
    (names c.2.active || (match c.2.pending with | some t => names t | none => false)))

/-- ING_SRC_RELEASE (R115). A local source leaves only with its encoder, output or mix (R239). -/
def srcReleaseBody (r : Req) (s : State) : Answer :=
  withSource (df r.w1 63 0) r s (fun i =>
    if (sourceAt i s).isLocal then badParam s
    else if 0 < (sourceAt i s).readers || stitchReads (handleFor .source i s) s then answer s (refuse stNotStarted 0x05)
    else answer (removeSource i s) (okWith 0))

def execIngSrcRelease (src : CmdSrc) (s : State) : Outcome :=
  onWf (.ingSrcRelease src) (command 0x26 (strictly ([(63, 0)], [], []) srcReleaseBody) src s)

/-! ## Counters and policing of a packet -/

/-- Add to counter c of R100. -/
def srcCount (i c k : Nat) (s : State) : State :=
  updSource i (fun v => { v with ctrs := v.ctrs.set c (satAdd 64 (v.ctrs.getD c 0) k) }) s

/-- The token arithmetic of R102, which the shaper of R140 shares: refill by `dt` ns, in units of 1/65,536 byte. -/
def refill (tokens kbps dt bytes : Nat) : Nat := min (tokens + kbps * dt * 65536 / 8000000) (bytes * 65536)

def dtOf (now t : Nat) : Nat := (cmpDiff now t).toNat

/-- R102: police a packet of `len` bytes with arrival compare word `a`. -/
def police (i len a : Nat) (s : State) : Bool × State :=
  let v := sourceAt i s
  let cir := fld v.wPol 23 0
  if cir = 0 then (true, s)
  else
    let dt := dtOf a v.bucketT
    let c := refill v.bucketC cir dt (fld v.wPol 71 48)
    let p := refill v.bucketP (fld v.wPol 47 24) dt (fld v.wPol 95 72)
    if len * 65536 ≤ c ∧ len * 65536 ≤ p then
      (true, setSource i { v with bucketC := c - len * 65536, bucketP := p - len * 65536, bucketT := a } s)
    else
      (false, count (ingCtr v.wing 10) 1 (srcCount i 2 1 (setSource i { v with bucketC := c, bucketP := p, bucketT := a } s)))

/-! ## History rings (R108, R109) -/

/-- A lookup finds a packet only where its slot holds its extended sequence number. -/
def historyFind (v : Source) (n : Nat) : Option MediaPkt :=
  if v.log2Slots = 0 then none
  else match v.ring.find? (n % 2 ^ v.log2Slots) with
    | some p => if p.ext = n then some p else none
    | none => none

/-- Store an authenticated packet; one longer than 1,472 bytes is not stored, and counted. -/
def historyWrite (i : Nat) (p : MediaPkt) (s : State) : State :=
  let v := sourceAt i s
  if v.log2Slots = 0 then s
  else if 1472 < p.bytes.length then srcCount i 7 1 s
  else writeHeld 4 i (p.ext % 2 ^ v.log2Slots) (setSource i { v with ring := v.ring.set (p.ext % 2 ^ v.log2Slots) p } s)

/-- A lookup for a NACK: a packet whose slot reads as poison is not available (R109, R378). -/
def historyRead (i n : Nat) (s : State) : Option MediaPkt × State :=
  match historyFind (sourceAt i s) n with
  | none => (none, s)
  | some p =>
    let r := readHeld 4 i (n % 2 ^ (sourceAt i s).log2Slots) s
    (if r.1 then none else some p, r.2)

end Sys2Proof.Machine
end

