-- ==== Sys2Proof/Machine/Rtp.lean ====
section
/-! DEFINITION. Bytes on the wire: Ethernet, IP and UDP frames, RTP packets and their header extensions, and the layer
identity of a packet (R87-R90, R103, R104, R126). -/

namespace Sys2Proof.Machine

/-! ## Checksums and frames -/

/-- Ones' complement sum of 16-bit network words, an odd last byte padded with 0. -/
def sum16 : Nat → List Byte → Nat
  | 0, _ => 0
  | _, [] => 0
  | _, [a] => a.toNat * 256
  | n + 1, a :: b :: r => a.toNat * 256 + b.toNat + sum16 n r

def foldSum (v : Nat) : Nat :=
  let a := v % 65536 + v / 65536
  let b := a % 65536 + a / 65536
  b % 65536 + b / 65536
def checksum (bs : List Byte) : Nat := 65535 - foldSum (sum16 (bs.length + 1) bs)

/-- Bytes of a number whose first byte lies in its lowest bits (network order fields of descriptors, R97). -/
def fieldBytes (n v : Nat) : List Byte := leBytes n v

/-- An IPv4 address in the mapped form ::FFFF:a.b.c.d. -/
def isMapped (a : Nat) : Bool := a % 2 ^ 96 == 0xFFFF * 2 ^ 80
def v4Bytes (a : Nat) : List Byte := (fieldBytes 16 a).drop 12

def udpDatagram (src dst sport dport : Nat) (body : List Byte) : List Byte :=
  let len := 8 + body.length
  let ps := if isMapped dst then v4Bytes src ++ v4Bytes dst ++ [0, 17] ++ beBytes 2 len
            else fieldBytes 16 src ++ fieldBytes 16 dst ++ beBytes 4 len ++ [0, 0, 0, 17]
  let hd := fieldBytes 2 sport ++ fieldBytes 2 dport ++ beBytes 2 len
  let c := checksum (ps ++ hd ++ [0, 0] ++ body)
  hd ++ beBytes 2 (if c = 0 then 0xFFFF else c) ++ body

/-- The IP packet of R126: hop limit 64; IPv4 with identification 0 and DF set. -/
def ipPacket (src dst dscp : Nat) (dg : List Byte) : List Byte :=
  if isMapped dst then
    let h := [0x45, BitVec.ofNat 8 (dscp * 4)] ++ beBytes 2 (20 + dg.length) ++ [0, 0, 0x40, 0, 64, 17]
    let a := v4Bytes src ++ v4Bytes dst
    h ++ beBytes 2 (checksum (h ++ [0, 0] ++ a)) ++ a ++ dg
  else beBytes 4 (0x60000000 + dscp * 2 ^ 22) ++ beBytes 2 dg.length ++ [17, 64] ++ fieldBytes 16 src ++ fieldBytes 16 dst ++ dg

/-- The MAC address of a port: `LANE_MAC_ADDR` of its first lane. -/
def fusedMac (l : Nat) : Nat := leNat (beBytes 6 ((Config.macBase + l) % 2 ^ 48))
def portMac (p : Nat) (s : State) : Nat := ((laneOf p s).mac.getD (fusedMac p)) % 2 ^ 48

/-- An Ethernet frame with its FCS, padded to 64 bytes. -/
def ethFrame (dst src : Nat) (vlan : Option Nat) (ethertype : Nat) (body : List Byte) : List Byte :=
  let h := fieldBytes 6 dst ++ fieldBytes 6 src ++
    (match vlan with | none => [] | some v => [0x81, 0x00] ++ beBytes 2 v) ++ beBytes 2 ethertype ++ body
  let h := h ++ List.replicate (60 - h.length) 0
  h ++ leBytes 4 (crc32 h).toNat

def udpFrame (dmac smac : Nat) (vlan : Option Nat) (src dst sport dport dscp : Nat) (body : List Byte) : List Byte :=
  ethFrame dmac smac vlan (if isMapped dst then 0x0800 else 0x86DD) (ipPacket src dst dscp (udpDatagram src dst sport dport body))

/-! ## RTP -/

def rtpCsrcLen (p : List Byte) : Nat := 4 * (byteAt p 0 % 16)
def rtpHasExt (p : List Byte) : Bool := byteAt p 0 / 16 % 2 == 1
def rtpExtLen (p : List Byte) : Nat := if rtpHasExt p then 4 + 4 * beAt p (12 + rtpCsrcLen p + 2) 2 else 0
def rtpHdrLen (p : List Byte) : Nat := 12 + rtpCsrcLen p + rtpExtLen p
def rtpOk (p : List Byte) : Bool := decide (12 ≤ p.length) && byteAt p 0 / 64 == 2 && decide (rtpHdrLen p ≤ p.length)
def rtpMarker (p : List Byte) : Bool := decide (128 ≤ byteAt p 1)
def rtpPt (p : List Byte) : Nat := byteAt p 1 % 128
def rtpSeq (p : List Byte) : Nat := beAt p 2 2
def rtpTs (p : List Byte) : Nat := beAt p 4 4
def rtpPad (p : List Byte) : Nat := if byteAt p 0 / 32 % 2 = 1 then (p.getLastD 0).toNat else 0
/-- The payload without padding. -/
def rtpPayload (p : List Byte) : List Byte := (p.drop (rtpHdrLen p)).take (p.length - rtpHdrLen p - rtpPad p)

def setSeq (p : List Byte) (seq : Nat) : List Byte := p.take 2 ++ beBytes 2 (seq % 65536) ++ p.drop 4
def setPt (p : List Byte) (pt : Nat) : List Byte :=
  p.take 1 ++ [BitVec.ofNat 8 (byteAt p 1 / 128 * 128 + pt)] ++ p.drop 2
def setMarker (p : List Byte) (m : Bool) : List Byte := p.take 1 ++ [BitVec.ofNat 8 (b2n m * 128 + rtpPt p)] ++ p.drop 2
def setSsrc (p : List Byte) (ssrc : Nat) : List Byte := p.take 8 ++ fieldBytes 4 ssrc ++ p.drop 12

/-- Elements of a header extension in the one-byte or two-byte form of RFC 8285. -/
def extElems (two : Bool) : Nat → List Byte → List (Nat × List Byte)
  | 0, _ => []
  | _, [] => []
  | n + 1, b :: r =>
    if b = 0 then extElems two n r
    else if two then
      match r with
      | [] => []
      | l :: r => (b.toNat, r.take l.toNat) :: extElems two n (r.drop l.toNat)
    else if b.toNat / 16 = 15 then []
    else (b.toNat / 16, r.take (b.toNat % 16 + 1)) :: extElems two n (r.drop (b.toNat % 16 + 1))

def extProfile (p : List Byte) : Nat := if rtpHasExt p then beAt p (12 + rtpCsrcLen p) 2 else 0
def extTwo (p : List Byte) : Bool := extProfile p / 16 == 0x100
def extKnown (p : List Byte) : Bool := extProfile p == 0xBEDE || extTwo p
def rtpExts (p : List Byte) : List (Nat × List Byte) :=
  if extKnown p then
    let bs := (p.drop (16 + rtpCsrcLen p)).take (rtpExtLen p - 4)
    extElems (extTwo p) bs.length bs
  else []

def extData (id : Nat) (p : List Byte) : Option (List Byte) :=
  if id = 0 then none else ((rtpExts p).find? (fun e => e.1 == id)).map (·.2)

def encodeElem (two : Bool) (e : Nat × List Byte) : List Byte :=
  if two then BitVec.ofNat 8 e.1 :: BitVec.ofNat 8 e.2.length :: e.2
  else BitVec.ofNat 8 (e.1 * 16 + (e.2.length - 1)) :: e.2

/-- The packet with other extension elements in its own form; with none left it has no extension. -/
def setExts (p : List Byte) (es : List (Nat × List Byte)) : List Byte :=
  let n := 12 + rtpCsrcLen p
  let rest := p.drop (rtpHdrLen p)
  let b0 := byteAt p 0
  if es.isEmpty then [BitVec.ofNat 8 (b0 - b0 / 16 % 2 * 16)] ++ (p.take n).drop 1 ++ rest
  else
    let body := es.flatMap (encodeElem (extTwo p))
    let body := body ++ List.replicate ((4 - body.length % 4) % 4) 0
    p.take n ++ beBytes 2 (extProfile p) ++ beBytes 2 (body.length / 4) ++ body ++ rest

/-! ## Layer identity (R103, R104) -/

/-- A NAL unit or OBU as the layer rules see it: S, T, Q, switch point, fragment start, discardable. -/
structure Unit3 where
  s : Nat := 0
  t : Nat := 0
  q : Nat := 0
  switch : Bool := false
  start : Bool := false
  disc : Bool := false
  deriving DecidableEq, Repr, Inhabited

/-- The NAL units of an aggregation packet: 16-bit sizes and units. -/
def aggregated : Nat → List Byte → List (List Byte)
  | 0, _ => []
  | n + 1, bs => if bs.length < 3 then [] else slice bs 2 (beAt bs 0 2) :: aggregated n (bs.drop (2 + beAt bs 0 2))

def h264Units (p : List Byte) : List (List Byte × Bool) :=
  let t := byteAt p 0 % 32
  if t = 24 then (aggregated p.length (p.drop 1)).map (fun u => (u, false))
  else if t = 28 then
    [(BitVec.ofNat 8 (byteAt p 0 / 32 * 32 + byteAt p 1 % 32) :: p.drop 2, decide (128 ≤ byteAt p 1))]
  else [(p, false)]

/-- The units of a packet, each coded slice with the prefix NAL unit (type 14) that stands before it. -/
def withPrefix (pre : Option (List Byte)) : List (List Byte × Bool) → List (List Byte × Bool × Option (List Byte))
  | [] => []
  | u :: r =>
    let t := byteAt u.1 0 % 32
    if t = 14 then (u.1, u.2, none) :: withPrefix (some u.1) r
    else if t = 1 ∨ t = 5 then (u.1, u.2, pre) :: withPrefix none r
    else (u.1, u.2, none) :: withPrefix pre r

/-- H.264 and H.264 SVC: the header extension of NAL types 14 and 20, the unit's own or that of the prefix before it. -/
def h264Unit (svc : Bool) (u : List Byte × Bool × Option (List Byte)) : Unit3 :=
  let n := u.1
  let t := byteAt n 0 % 32
  let disc := byteAt n 0 / 32 % 4 == 0
  match (if t == 14 || (svc && t == 20) then some n else u.2.2) with
  | none => { switch := t == 5, start := u.2.1, disc := disc }
  | some x =>
    { s := if svc then min (byteAt x 2 / 16 % 8) 3 else 0, t := byteAt x 3 / 32, q := if svc then min (byteAt x 2 % 16) 3 else 0,
      switch := t == 5 || (svc && byteAt x 1 / 64 % 2 == 1), start := u.2.1, disc := disc }

/-- A later fragment of a NAL unit of type 20: its header extension came with the first. -/
def laterFragment (p : List Byte) : Bool :=
  byteAt p 0 % 32 == 28 && byteAt p 1 % 32 == 20 && decide (byteAt p 1 < 128)

def h265Units (p : List Byte) : List (List Byte × Bool) :=
  let t := byteAt p 0 / 2 % 64
  if t = 48 then (aggregated p.length (p.drop 2)).map (fun u => (u, false))
  else if t = 49 then
    [(BitVec.ofNat 8 (byteAt p 0 / 128 * 128 + byteAt p 2 % 64 * 2 + byteAt p 0 % 2) :: (p.drop 1).take 1 ++ p.drop 3,
      decide (128 ≤ byteAt p 2))]
  else [(p, false)]

def h265Unit (u : List Byte × Bool) : Unit3 :=
  let n := u.1
  let t := byteAt n 0 / 2 % 64
  { s := min (byteAt n 0 % 2 * 32 + byteAt n 1 / 8) 3, t := byteAt n 1 % 8 - 1, switch := decide (16 ≤ t) && decide (t ≤ 23),
    start := u.2, disc := decide (t < 16) && t % 2 == 0 }

/-- The lowest S, T and Q of the units (R103). -/
def lowest (us : List Unit3) : Unit3 :=
  match us with
  | [] => {}
  | u :: r => r.foldl (fun a b => { s := min a.s b.s, t := min a.t b.t, q := min a.q b.q, switch := a.switch || b.switch,
                                    start := a.start || b.start, disc := a.disc && b.disc }) u

/-! ### The AV1 dependency descriptor -/

def bitsOf (bs : List Byte) : List Bool := bs.flatMap (fun b => (List.range 8).map (fun i => b.getLsbD (7 - i)))
def readBits (n : Nat) (bs : List Bool) : Nat := (bs.take n).foldl (fun a b => 2 * a + b2n b) 0

/-- Spatial and temporal ID of each template: next_layer_idc 0 same, 1 next T, 2 next S, 3 end. -/
def templateLayers : Nat → Nat → Nat → List Bool → List (Nat × Nat) × List Bool
  | 0, _, _, bs => ([], bs)
  | n + 1, s, t, bs =>
    let r := fun (s' t' : Nat) => let x := templateLayers n s' t' (bs.drop 2); ((s, t) :: x.1, x.2)
    match readBits 2 bs with
    | 0 => r s t
    | 1 => r s (t + 1)
    | 2 => r (s + 1) 0
    | _ => ([(s, t)], bs.drop 2)

/-- A template's frame differences: whether it lists none, and what follows them. -/
def skipDiffs : Nat → List Bool → List Bool
  | 0, bs => bs
  | n + 1, bs => if bs.headD false then skipDiffs n (bs.drop 5) else bs.drop 1

def templateDiffs : Nat → List Bool → List Bool × List Bool
  | 0, bs => ([], bs)
  | n + 1, bs => let r := templateDiffs n (skipDiffs bs.length bs); ((!bs.headD false) :: r.1, r.2)

/-- Decode target indications: discardable where none is Switch or Required and one is Discardable. -/
def dtiDiscardable (ds : List Nat) : Bool := ds.all (fun d => decide (d < 2)) && ds.contains 1
def readDtis (dts : Nat) (bs : List Bool) : List Nat := (List.range dts).map (fun d => readBits 2 (bs.drop (2 * d)))

/-- A number below n in AV1's form ns(n). -/
def readNs (n : Nat) (bs : List Bool) : Nat × List Bool :=
  let w := n.log2 + 1
  let v := readBits (w - 1) bs
  if v < 2 ^ w - n then (v, bs.drop (w - 1)) else (2 * v + readBits 1 (bs.drop (w - 1)) - (2 ^ w - n), bs.drop w)
def skipNs (n : Nat) : Nat → List Bool → List Bool
  | 0, bs => bs
  | k + 1, bs => skipNs n k (readNs n bs).2

/-- What follows the chains and the resolutions of a template structure with `dts` decode targets, `n` templates and `layers`
spatial layers. -/
def skipChains (dts n layers : Nat) (bs : List Bool) : List Bool :=
  let c := readNs (dts + 1) bs
  let bs := if c.1 = 0 then c.2 else (skipNs c.1 dts c.2).drop (4 * n * c.1)
  if bs.headD false then bs.drop (1 + 32 * layers) else bs.drop 1

/-- A template structure, numbered from its offset: the templates, the number of decode targets, and what follows. -/
def readTemplates (bs : List Bool) : List (Nat × Template) × Nat × List Bool :=
  let off := readBits 6 bs
  let dts := readBits 5 (bs.drop 6) + 1
  let l := templateLayers 64 0 0 (bs.drop 11)
  let n := l.1.length
  let f := templateDiffs n (l.2.drop (2 * n * dts))
  ((List.range n).map (fun i =>
    ((off + i) % 64, ⟨min (l.1.getD i (0, 0)).1 3, min (l.1.getD i (0, 0)).2 7, f.1.getD i false,
                      dtiDiscardable (readDtis dts (l.2.drop (2 * i * dts)))⟩)),
   dts, skipChains dts n ((l.1.map (fun x => x.1)).foldl max 0 + 1) f.2)

/-- The extended fields of a descriptor, after its 3 mandatory bytes: the templates and the decode targets after it, those that it
carries or the latest ones, and the decode target indications that it gives its own frame. -/
def readDescriptor (d : List Byte) (old : List (Nat × Template)) (targets : Nat) : List (Nat × Template) × Nat × Option (List Nat) :=
  let bs := bitsOf (d.drop 3)
  let flag := fun i => bs.getD i false
  let r := if flag 0 then readTemplates (bs.drop 5) else (old, targets, bs.drop 5)
  let rest := if flag 1 then r.2.2.drop r.2.1 else r.2.2
  (r.1, r.2.1, if flag 2 then some (readDtis r.2.1 rest) else none)

def av1WithDescriptor (d payload : List Byte) (ts : List (Nat × Template)) (own : Option (List Nat)) : Unit3 :=
  match ts.find? (fun x => x.1 == byteAt d 0 % 64) with
  | none => {}
  | some x => { s := x.2.s, t := x.2.t, switch := byteAt payload 0 / 8 % 2 == 1 || x.2.noDeps,
                disc := match own with | some ds => dtiDiscardable ds | none => x.2.discardable }

/-- A leb128 number and its bytes. -/
def leb128 : Nat → List Byte → Nat × Nat
  | 0, _ => (0, 0)
  | _, [] => (0, 0)
  | n + 1, b :: r =>
    if 128 ≤ b.toNat then let x := leb128 n r; (b.toNat - 128 + 128 * x.1, x.2 + 1) else (b.toNat, 1)

/-- The OBU elements after the aggregation header: `w` of them, the last without a size, or as many as there are where `w` is 0. -/
def obuElems : Nat → Nat → List Byte → List (List Byte)
  | 0, _, _ => []
  | n + 1, w, bs =>
    if bs.isEmpty then []
    else if w = 1 then [bs]
    else
      let z := leb128 8 bs
      slice bs z.2 z.1 :: obuElems n (w - 1) (bs.drop (z.2 + z.1))

/-- An OBU's identity from its extension header, where it has one. -/
def obuUnit (o : List Byte) : Unit3 :=
  if byteAt o 0 / 4 % 2 = 1 then { s := byteAt o 1 / 8 % 4, t := byteAt o 1 / 32 } else {}

/-- AV1 without a descriptor: the lowest identity of the OBUs; a continued fragment has no header, so it gives 0. -/
def av1FromObu (payload : List Byte) : Unit3 :=
  let a := byteAt payload 0
  let us := (obuElems payload.length (a / 16 % 4) (payload.drop 1)).map obuUnit
  { lowest (if 128 ≤ a then {} :: us.drop 1 else us) with switch := a / 8 % 2 == 1 }

/-- What a fragment's first packet leaves for the later ones, and what a later one takes: its own identity, or that of the last
first fragment under its timestamp. -/
def fragmentOf (v : Source) (p : List Byte) (u : Unit3) : Unit3 × Option (Nat × Nat × Nat × Nat × Bool) :=
  if v.format = 1 ∧ laterFragment (rtpPayload p) then
    match v.fragment with
    | some (ts, a, b, c, sw) =>
      (if ts = rtpTs p then { u with s := a, t := b, q := c, switch := sw } else { u with s := 0, t := 0, q := 0, switch := false }, v.fragment)
    | none => ({ u with s := 0, t := 0, q := 0, switch := false }, none)
  else (u, if u.start then some (rtpTs p, u.s, u.t, u.q, u.switch) else v.fragment)

/-- The layer identity and the flags of a released packet (R103, R104), and the source with what it keeps of them. -/
def layerOf (v : Source) (p : List Byte) : Layer × Source :=
  let pl := rtpPayload p
  let ts := rtpTs p
  let newTs := !v.seenTs.contains ts
  let v' := if newTs then { v with seenTs := (ts :: v.seenTs).take 256 } else v
  let mk := fun (u : Unit3) (start fin : Bool) =>
    ({ s := u.s, t := u.t, q := u.q, first := start || newTs, last := fin || rtpMarker p, switch := u.switch,
       discardable := u.disc, frameEnd := fin } : Layer)
  if v.isAudio then (mk { switch := true } false false, v')
  else if v.format = 3 then
    match extData v.ddId p with
    | some d =>
      let r := readDescriptor d v.templates v.ddTargets
      (mk (av1WithDescriptor d pl r.1 r.2.2) (decide (128 ≤ byteAt d 0)) (byteAt d 0 / 64 % 2 == 1),
       { v' with templates := r.1, ddTargets := r.2.1 })
    | none => (mk (av1FromObu pl) false false, v')
  else
    let u := lowest (if v.format = 2 then (h265Units pl).map h265Unit else (withPrefix none (h264Units pl)).map (h264Unit (v.format == 1)))
    let r := fragmentOf v p u
    (mk r.1 r.1.start false, { v' with fragment := r.2 })

/-! ## RTCP packets that the module writes (R138) -/

def rtcpPli (sender media : Nat) : List Byte := [0x81, 206] ++ beBytes 2 2 ++ fieldBytes 4 sender ++ fieldBytes 4 media
def rtcpFir (sender media seq : Nat) : List Byte :=
  [0x84, 206] ++ beBytes 2 4 ++ fieldBytes 4 sender ++ [0, 0, 0, 0] ++ fieldBytes 4 media ++ leBytes 1 seq ++ [0, 0, 0]
def rtcpNack (sender media seq : Nat) : List Byte :=
  [0x81, 205] ++ beBytes 2 3 ++ fieldBytes 4 sender ++ fieldBytes 4 media ++ beBytes 2 (seq % 65536) ++ [0, 0]
/-- A reduced-size sender report (RFC 5506). -/
def rtcpSr (ssrc ntp ts packets octets : Nat) : List Byte :=
  [0x80, 200] ++ beBytes 2 6 ++ fieldBytes 4 ssrc ++ beBytes 8 ntp ++ beBytes 4 ts ++ beBytes 4 packets ++ beBytes 4 octets

end Sys2Proof.Machine
end

