-- ==== Sys2Proof/Machine/Legs.lean ====
section
/-! DEFINITION. Rooms, legs and subscriptions: the commands of the 0x40 range but for LEG_ROOM_FREE, LEG_KEYFRAME and the
releases (R117-R124, R128, R139, R144, R147, R148). -/

namespace Sys2Proof.Machine

def legAt (i : Nat) (s : State) : Leg := s.media.legs.get i {}
def setLeg (i : Nat) (v : Leg) (s : State) : State := { s with media := { s.media with legs := s.media.legs.set i v } }
def updLeg (i : Nat) (f : Leg → Leg) (s : State) : State := setLeg i (f (legAt i s)) s
def subAt (i : Nat) (s : State) : Sub := s.media.subs.get i {}
def setSub (i : Nat) (v : Sub) (s : State) : State := { s with media := { s.media with subs := s.media.subs.set i v } }
def updSub (i : Nat) (f : Sub → Sub) (s : State) : State := setSub i (f (subAt i s)) s

def subList (s : State) : List (Nat × Sub) := s.media.subs.toList.filter (fun c => (identOf .sub c.1 s).used)
def legSubs (l : Nat) (s : State) : List (Nat × Sub) := (subList s).filter (fun c => c.2.leg == l)

/-- The source of a subscription while it is in use. -/
def subSource (j : Nat) (s : State) : Option Nat :=
  match resolve .source (subAt j s).source s with
  | .ok i => some i
  | _ => none

/-! Fields of LEG_CREATE (R120). -/
def Leg.lane (v : Leg) : Nat := fld v.w2 126 120
def Leg.wing (v : Leg) : Nat := v.lane / 32
def Leg.kind (v : Leg) : Nat := fld v.w2 119 118
def Leg.vlan (v : Leg) : Option Nat := if bitOf v.w2 116 then some (fld v.w2 115 104) else none
def Leg.laddr (v : Leg) : Nat := fld v.w2 103 96
def Leg.lport (v : Leg) : Nat := fld v.w2 95 80
def Leg.pport (v : Leg) : Nat := fld v.w2 79 64
def Leg.encap (v : Leg) : Nat := fld v.w2 63 56
def Leg.dscp (v : Leg) : Nat := fld v.w2 55 50
def Leg.nexthop (v : Leg) : Nat := fld v.w2 47 0
def Leg.room (v : Leg) : Nat := fld v.w3 127 115
def Leg.gateClass (v : Leg) : Nat := fld v.w3 114 113
def Leg.weight (v : Leg) : Nat := fld v.w3 111 96
def Leg.slot (v : Leg) : Nat := handleIdx (fld v.w3 63 0)
def Leg.transport (v : Leg) : Transport :=
  { port := v.lane, vlan := v.vlan, laddr := v.laddr, lport := v.lport, peer := v.w1.toNat, pport := v.pport }

/-! Fields of LEG_BOUNDS (R121), LEG_EST_PARAM (R128), LEG_SHAPE (R139). -/
def Leg.upHold (v : Leg) : Nat := fld v.wBounds 127 120
def Leg.rtxPm (v : Leg) : Nat := fld v.wBounds 118 109
def Leg.headroom (v : Leg) : Nat := fld v.wBounds 108 99
def Leg.prio (v : Leg) : Nat := fld v.wBounds 98 97
def Leg.pin (v : Leg) : Bool := bitOf v.wBounds 96
def Leg.pinKbps (v : Leg) : Nat := fld v.wBounds 95 72
def Leg.startKbps (v : Leg) : Nat := fld v.wBounds 71 48
def Leg.maxKbps (v : Leg) : Nat := fld v.wBounds 47 24
def Leg.minKbps (v : Leg) : Nat := fld v.wBounds 23 0
/-- EST: PIN_KBPS while PIN is set. -/
def Leg.estKbps (v : Leg) : Nat := if v.pin then v.pinKbps else v.est
def Leg.qmaxMs (v : Leg) : Nat := fld v.wShape 52 42
def Leg.pbs (v : Leg) : Nat := fld v.wShape 41 22
def Leg.cbs (v : Leg) : Nat := max (v.estKbps * fld v.wShape 21 12 / 8) 4096
def Leg.pir (v : Leg) : Nat := v.estKbps * fld v.wShape 11 0 / 1000
def Leg.queued (v : Leg) : Nat := (v.queue.map (·.len)).sum

def defaultBounds : Word128 :=
  pack128 [(120, 8, 20), (109, 10, 250), (99, 10, 100), (97, 2, 1), (48, 24, 1000), (24, 24, 20000), (0, 24, 100)]
def defaultEst : Word128 :=
  pack128 [(112, 8, 50), (103, 9, 20), (94, 9, 100), (85, 9, 80), (75, 10, 850), (57, 18, 5000), (39, 18, 30000), (30, 9, 20),
           (27, 3, 3), (13, 14, 2000), (0, 13, 500)]
def defaultShape : Word128 := pack128 [(42, 11, 1000), (22, 20, 16384), (12, 10, 50), (0, 12, 1500)]

def boundsFine (w : Word128) : Bool :=
  let lo := fld w 23 0
  let hi := fld w 47 24
  let within := fun v => decide (lo ≤ v) && decide (v ≤ hi)
  decide (fld w 127 120 ≤ 200) && decide (fld w 118 109 ≤ 1000) && decide (fld w 108 99 ≤ 500) && decide (8 ≤ lo)
    && decide (lo ≤ hi) && within (fld w 71 48) && (within (fld w 95 72) || (fld w 95 72 == 0 && !bitOf w 96))

def estFine (w : Word128) : Bool :=
  let r := fun v lo hi => decide (lo ≤ v) && decide (v ≤ hi)
  r (fld w 119 112) 10 200 && decide (fld w 111 103 ≤ fld w 102 94) && r (fld w 102 94) 10 500 && r (fld w 93 85) 10 500
    && r (fld w 84 75) 500 950 && decide (fld w 74 57 ≤ fld w 56 39) && r (fld w 56 39) 1000 200000 && r (fld w 38 30) 1 500
    && r (fld w 29 27) 1 6 && r (fld w 26 13) 500 10000 && r (fld w 12 0) 100 5000

def shapeFine (w : Word128) : Bool :=
  let r := fun v lo hi => decide (lo ≤ v) && decide (v ≤ hi)
  r (fld w 52 42) 10 2000 && r (fld w 41 22) 4096 1048575 && r (fld w 21 12) 1 1000 && r (fld w 11 0) 1000 4000

/-- Wing counter c of R147. -/
def legCtr (w c : Nat) : Nat := 0x01403000 + w * 0x01000000 + c * 8
def legOff (w r : Nat) : Nat := 0x01400000 + w * 0x01000000 + r
/-- Add to counter c of R148. -/
def legCount (i c k : Nat) (s : State) : State :=
  updLeg i (fun v => { v with ctrs := v.ctrs.set c (satAdd 64 (v.ctrs.getD c 0) k) }) s

/-- The leg, or the subscription, that a command names, for its function and PF0 (R7, R8, R124). -/
def withLeg (h : Nat) (r : Req) (s : State) (f : Nat → Answer) : Answer :=
  match resolve .leg h s with
  | .refused => answer s (refuse stRefused 0)
  | .stale => answer (count (legCtr (legAt (handleIdx h) s).wing 11) 1 s) ⟨stStale, 0, 0⟩
  | .ok i => if r.owner || (legAt i s).fn == r.fn then viaEntry 2 i (legAt i s).wing h s (viaWing (legAt i s).wing (f i)) else notOwned5 s

def withSub (h : Nat) (r : Req) (s : State) (f : Nat → Answer) : Answer :=
  match resolve .sub h s with
  | .refused => answer s (refuse stRefused 0)
  | .stale => answer (count (legCtr (legAt (subAt (handleIdx h) s).leg s).wing 11) 1 s) ⟨stStale, 0, 0⟩
  | .ok i =>
    let l := legAt (subAt i s).leg s
    if r.owner || l.fn == r.fn then viaEntry 3 i l.wing h s (viaWing l.wing (f i)) else notOwned5 s

/-! ## Rooms -/

/-- LEG_ROOM_CLAIM (R117, R119). -/
def roomClaimBody (r : Req) (s : State) : Answer :=
  let room := df r.w1 12 0
  let f := df r.w1 85 80
  if df r.w1 31 16 = 0 ∨ df r.w1 79 64 < 100 ∨ 10000 < df r.w1 79 64 then badParam s
  else if !r.owner && f != r.fn then notOwned5 s
  else if (roomAt room s).held then answer s (refuse stNotStarted 0x03)
  else
    let v : Room := ⟨true, f, df r.w1 31 16, df r.w1 63 32, df r.w1 79 64⟩
    answer { s with media := { s.media with rooms := s.media.rooms.set room v } } (okWith 0)

def execLegRoomClaim (src : CmdSrc) (s : State) : Outcome :=
  onWf (.legRoomClaim src) (command 0x40 (strictly ([(12, 0), (63, 16), (79, 64), (85, 80)], [], []) roomClaimBody) src s)

/-! ## Legs -/

def legFine (v : Leg) (s : State) : Bool :=
  decide (v.kind ≤ 1) && isPort v.lane s && v.weight != 0
    && (!bitOf v.w2 116 || (decide (1 ≤ fld v.w2 115 104) && decide (fld v.w2 115 104 ≤ 4094)))

/-- Full shaping buckets (R140). -/
def fillShaper (v : Leg) (now : Nat) : Leg :=
  { v with bucketC := v.cbs * 65536, bucketP := v.pbs * 65536, bucketT := now }

/-- Two legs of one transport (R124). -/
def sameLeg (a b : Leg) : Bool :=
  a.kind == 0 && b.kind == 0 && a.wing == b.wing && a.vlan == b.vlan && a.laddr == b.laddr && a.lport == b.lport && a.w1 == b.w1
    && a.pport == b.pport

/-- LEG_CREATE (R120, R124). -/
def legCreateBody (r : Req) (s : State) : Answer :=
  let v : Leg := { fn := reqFn r, w1 := r.w1, w2 := r.w2, w3 := r.w3, wBounds := defaultBounds, wEst := defaultEst,
                   wShape := defaultShape, est := 1000, fbTimer := nowNs s, lastReport := nowNs s }
  if !legFine v s then badParam s
  else match (if v.kind = 0 then keyRefusal r (fld v.w3 63 0) 0x05 s else none) with
    | some x => keyRefused x s
    | none =>
      if !(holdsRoom (reqFn r) v.room s) || (v.kind == 0 && !ownsLaddr r v.wing v.laddr s) then notOwned5 s
      else if (legList s).any (fun c => sameLeg v c.2) then answer s (refuse stNotStarted 0x02)
      else match lowestFree .leg 0 1048576 s with
        | none => answer s ⟨stCapacity, 0, 0⟩
        | some i => answer (writeHeld 2 i 0 (setLeg i (fillShaper v (cmpNow s)) (allocId .leg i s))) (okVia v.wing (handleFor .leg i s) s)

def execLegCreate (src : CmdSrc) (s : State) : Outcome :=
  onWf (.legCreate src) (command 0x42 (strictly ([(127, 0)], [(126, 118), (116, 50), (47, 0)], [(127, 113), (111, 96), (63, 0)]) legCreateBody) src s)

/-- LEG_BOUNDS (R121): START_KBPS is the estimate until the first feedback. A selection is due (R132). -/
def legBoundsBody (r : Req) (s : State) : Answer :=
  withLeg (df r.w1 63 0) r s (fun i =>
    if boundsFine r.w2 then
      answer (updLeg i (fun v => { v with wBounds := r.w2, selDue := true,
                                          est := if v.fbMode = 0 then fld r.w2 71 48 else v.est }) s) (okWith 0)
    else badParam s)

def execLegBounds (src : CmdSrc) (s : State) : Outcome :=
  onWf (.legBounds src) (command 0x43 (strictly ([(63, 0)], [(127, 120), (118, 0)], []) legBoundsBody) src s)

/-- LEG_SHAPE (R139). -/
def legShapeBody (r : Req) (s : State) : Answer :=
  withLeg (df r.w1 63 0) r s (fun i =>
    if shapeFine r.w2 then answer (updLeg i (fun v => { v with wShape := r.w2 }) s) (okWith 0) else badParam s)

def execLegShape (src : CmdSrc) (s : State) : Outcome :=
  onWf (.legShape src) (command 0x44 (strictly ([(63, 0)], [(52, 0)], []) legShapeBody) src s)

/-- LEG_EST_PARAM (R128). -/
def legEstBody (r : Req) (s : State) : Answer :=
  withLeg (df r.w1 63 0) r s (fun i =>
    if estFine r.w2 then answer (updLeg i (fun v => { v with wEst := r.w2 }) s) (okWith 0) else badParam s)

def execLegEstParam (src : CmdSrc) (s : State) : Outcome :=
  onWf (.legEstParam src) (command 0x45 (strictly ([(63, 0)], [(119, 0)], []) legEstBody) src s)

/-- The 128-byte image of a leg (R122). -/
def legImage (i : Nat) (s : State) : List Word128 :=
  let v := legAt i s
  [v.w1, v.w2, v.w3, v.wBounds, v.wEst, v.wShape,
   pack128 [(96, 8, (legSubs i s).length), (94, 2, v.estState), (92, 2, v.fbMode), (88, 1, b2n v.fbLate), (64, 24, v.estKbps),
            (32, 32, v.rttUs), (0, 32, v.qUs.toNat)],
   pack128 [(64, 64, v.queued), (0, 64, handleFor .leg i s)]]

def legReadBody (r : Req) (s : State) : Answer :=
  withLeg (df r.w1 63 0) r s (fun i => answer (hostPut (df r.w2 63 0) (bytesOfWords (legImage i s)) s) (okWith 0))

def execLegRead (src : CmdSrc) (s : State) : Outcome :=
  onWf (.legRead src) (command 0x46 (strictly ([(63, 0)], [(63, 0)], []) legReadBody) src s)

/-- LEG_STATS (R148). -/
def legStatsBody (r : Req) (s : State) : Answer :=
  withLeg (df r.w1 63 0) r s (fun i =>
    let v := legAt i s
    let s := hostPut (df r.w2 63 0) (v.ctrs.flatMap (leBytes 8)) s
    answer (if bitOf r.w3 0 then setLeg i { v with ctrs := List.replicate 8 0 } s else s) (okWith 0))

def execLegStats (src : CmdSrc) (s : State) : Outcome :=
  onWf (.legStats src) (command 0x47 (strictly ([(63, 0)], [(63, 0)], [(0, 0)]) legStatsBody) src s)

/-! ## Subscriptions (R123) -/

def Sub.paused (v : Sub) : Bool := bitOf v.w2 98
def Sub.maxL (v : Sub) : Nat × Nat × Nat := (fld v.w2 92 91, fld v.w2 95 93, fld v.w2 97 96)
def Sub.minL (v : Sub) : Nat × Nat × Nat := (fld v.w2 85 84, fld v.w2 88 86, fld v.w2 90 89)
def Sub.prio (v : Sub) : Nat := fld v.w2 83 80
def Sub.rtxEnable (v : Sub) : Bool := bitOf v.w2 78
def Sub.rtxPt (v : Sub) : Nat := fld v.w2 77 71
def Sub.outPt (v : Sub) : Nat := fld v.w2 70 64
def Sub.rtxSsrc (v : Sub) : Nat := fld v.w2 63 32
def Sub.ssrc (v : Sub) : Nat := fld v.w2 31 0
def Sub.ssrcs (v : Sub) : List Nat := if v.rtxEnable then [v.ssrc, v.rtxSsrc] else [v.ssrc]

/-- Each minimum is at most its maximum. -/
def minsFine (w : Word128) : Bool :=
  decide (fld w 85 84 ≤ fld w 92 91) && decide (fld w 88 86 ≤ fld w 95 93) && decide (fld w 90 89 ≤ fld w 97 96)

/-- The index after that of the transmit record that slot k holds for an SSRC: from a restored context (R170), or from an entry that sent
under the same key (R167). -/
def heldNext (k ssrc : Nat) (s : State) : Option Nat := (findRec ssrc true false (slotAt k s).recs).map (fun r => r.index + 1)

/-- Open a subscription of leg `l` to source `k`. It goes on from the records that it takes (R170). -/
def openSub (i l k : Nat) (v : Sub) (s : State) : State :=
  let slot := (legAt l s).slot
  let next := fun (ssrc : Nat) => if (legAt l s).kind = 1 then none else heldNext slot ssrc s
  let s := setSub i { v with leg := l, source := handleFor .source k s, startAt := next v.ssrc,
                             rtxSeq := ((next v.rtxSsrc).getD (Config.free s.free)) % 65536 } (writeHeld 3 i 0 (allocId .sub i s))
  let s := updLeg l (fun x => { x with selDue := true }) { s with free := s.free + 1 }
  if (legAt l s).kind = 1 then s else takeRecords (legAt l s).slot true v.ssrcs s

/-- SUB_CREATE (R95, R123, R124). -/
def subCreateBody (r : Req) (s : State) : Answer :=
  withLeg (df r.w1 63 0) r s (fun l =>
    match resolve .source (df r.w1 127 64) s with
    | .refused => answer s (refuse stRefused 0)
    | .stale => answer (count (ingCtr (sourceAt (handleIdx (df r.w1 127 64)) s).wing 9) 1 s) ⟨stStale, 0, 0⟩
    | .ok k =>
      let v : Sub := { fn := reqFn r, w1 := r.w1, w2 := r.w2, w3 := r.w3 }
      let g := legAt l s
      if !(r.owner || (sourceAt k s).fn == r.fn) then notOwned5 s
      else if !minsFine r.w2 || decide (14 < df r.w3 21 18) || decide (14 < df r.w3 17 14) || (g.kind == 1 && decide (2 ^ 20 ≤ v.ssrc)) then
        badParam s
      else if g.kind = 1 ∧ !ownsStream r g.wing v.ssrc s then notOwned5 s
      else if (legSubs l s).any (fun c => c.2.ssrcs.any (fun x => v.ssrcs.contains x)) then answer s (refuse stNotStarted 0x02)
      else if 64 ≤ (legSubs l s).length then answer s (refuse stCapacity 0x04)
      else match lowestFree .sub 0 4194304 s with
        | none => answer s ⟨stCapacity, 0, 0⟩
        | some i => viaPair (sourceAt k s).wing g.wing (answer (openSub i l k v s) (okWith (handleFor .sub i s))))

def execSubCreate (src : CmdSrc) (s : State) : Outcome :=
  onWf (.subCreate src) (command 0x49 (strictly ([(127, 0)], [(98, 80), (78, 0)], [(21, 0)]) subCreateBody) src s)

/-- SUB_BOUNDS: bits [99:80] as in SUB_CREATE (R119, R123). -/
def subBoundsBody (r : Req) (s : State) : Answer :=
  withSub (df r.w1 63 0) r s (fun i =>
    if minsFine r.w2 then
      let keep := fun (w : Word128) => pack128 [(100, 28, fld w 127 100), (80, 20, df r.w2 99 80), (0, 80, fld w 79 0)]
      let s := updSub i (fun v => { v with w2 := keep v.w2 }) s
      answer (updLeg (subAt i s).leg (fun v => { v with selDue := true }) s) (okWith 0)
    else badParam s)

def execSubBounds (src : CmdSrc) (s : State) : Outcome :=
  onWf (.subBounds src) (command 0x4A (strictly ([(63, 0)], [(98, 80)], []) subBoundsBody) src s)

/-- A layer as SUB_READ shows it: OFF, S, T, Q. -/
def layerByte (l : Option (Nat × Nat × Nat)) : Nat :=
  match l with
  | none => 128
  | some (s, t, q) => s * 32 + t * 4 + q

/-- The next OUT_SEQ: that of the packet after the highest met. -/
def Sub.nextSeq (v : Sub) : Nat := match v.highest with | none => 0 | some h => (h + 1 + 2 ^ 32 - v.skip % 2 ^ 32) % 65536

/-- The image of SUB_READ (R119). -/
def subImage (i : Nat) (s : State) : List Word128 :=
  let v := subAt i s
  [v.w1, v.w2, v.w3,
   pack128 [(64, 64, handleFor .sub i s), (56, 8, v.changes.length - 1), (32, 16, v.nextSeq),
            (30, 2, if v.pend ≠ 0 then v.pend else b2n v.inFrame), (8, 8, layerByte v.cur), (0, 8, layerByte v.target)]]

def subReadBody (r : Req) (s : State) : Answer :=
  withSub (df r.w1 63 0) r s (fun i => answer (hostPut (df r.w2 63 0) (bytesOfWords (subImage i s)) s) (okWith 0))

def execSubRead (src : CmdSrc) (s : State) : Outcome :=
  onWf (.subRead src) (command 0x4B (strictly ([(63, 0)], [(63, 0)], []) subReadBody) src s)

/-! ## Gate lists (R144, R145) -/

def egressAt (p : Nat) (s : State) : Egress := s.media.egress.get p {}
def setEgress (p : Nat) (v : Egress) (s : State) : State := { s with media := { s.media with egress := s.media.egress.set p v } }

def gateEntries (bs : List Byte) (n : Nat) : List (Nat × Nat) := (List.range n).map (fun i => (leAt bs (8 * i) 4, leAt bs (8 * i + 4) 4))

/-- LEG_GATE_LIST: the smallest n that puts the start at or after now (R145). -/
def gateListBody (r : Req) (s : State) : Answer :=
  let p := df r.w1 6 0
  let n := df r.w2 104 96
  let cycle := df r.w2 93 64
  let es := gateEntries (hostBytes (df r.w1 127 64) (8 * n) s) n
  if !isPort p s || decide (256 < n) then badParam s
  else if n = 0 then
    viaWing (p / 32) (answer (setEgress p { egressAt p s with gate := none, nextGate := none, entry := 0, restart := none } s) (okWith 0))
  else if cycle < 1000 ∨ 1000000000 < cycle then badParam s
  else if !(es.all (fun e => decide (1000 ≤ e.1) && decide (e.2 < 16)) && (es.map (·.1)).sum == cycle) then
    answer s (refuse stNotStarted 0x07)
  else
    let base := df r.w2 63 0
    let k := ceilDiv (cmpDiff (cmpNow s) base).toNat cycle
    let s := setEgress p { egressAt p s with nextGate := some ⟨cmpAdd base (k * cycle), k, es⟩ } s
    viaWing (p / 32) (answer s (if k = 0 then okWith 0 else ⟨stStartedLate, 1, k % 2 ^ 32⟩))

def execLegGateList (src : CmdSrc) (s : State) : Outcome :=
  onWf (.legGateList src) (command 0x4E (strictly ([(6, 0), (127, 64)], [(104, 96), (93, 0)], []) gateListBody) src s)

/-- GATE_ENTRY (R145): a waiting list starts at its start, else the next entry of the list in force. -/
def gateEntryDo (p : Nat) (s : State) : State :=
  let e := egressAt p s
  let start := match e.nextGate with | none => false | some g => cmpReached (cmpNow s) g.start
  if start then
    match e.nextGate with
    | none => s
    | some g => setEgress p { e with gate := some g, nextGate := none, entry := 0, entryAt := g.start, nLast := g.n, restart := none } s
  else
    match e.gate, e.restart with
    | none, _ => s
    | some _, some t => if cmpReached (cmpNow s) t then setEgress p { e with entry := 0, entryAt := t, restart := none } s else s
    | some g, none =>
      let len := (g.entries.getD e.entry (0, 0)).1
      let due := cmpAdd e.entryAt len
      if cmpReached (cmpNow s) due then setEgress p { e with entry := (e.entry + 1) % g.entries.length, entryAt := due } s else s

def execGateEntry (port : Nat) (s : State) : Outcome := onWf (.gateEntry port) (gateEntryDo port s)

/-- Classes open now: all of them while no list runs. -/
def openMask (p : Nat) (s : State) : Nat :=
  match (egressAt p s).gate with
  | none => 15
  | some g => (g.entries.getD (egressAt p s).entry (0, 0)).2

/-- ns from the start of entry `i` for which class c stays open over the following entries. -/
def openFor (g : GateList) (c : Nat) : Nat → Nat → Nat
  | 0, _ => 0
  | n + 1, i =>
    let e := g.entries.getD (i % g.entries.length) (0, 0)
    if e.2.testBit c then e.1 + openFor g c n (i + 1) else 0

/-- A transmission of `ns` in class c ends before the list in force closes the class. -/
def listFits (p c ns : Nat) (s : State) : Bool :=
  match (egressAt p s).gate, (egressAt p s).restart with
  | none, _ => true
  | some _, some t => (openMask p s).testBit c && decide ((ns : Int) ≤ cmpDiff t (cmpNow s))
  | some g, none =>
    let e := egressAt p s
    g.entries.all (fun x => x.2.testBit c) ||
      decide ((cmpDiff (cmpNow s) e.entryAt).toNat + ns ≤ openFor g c g.entries.length e.entry)

/-- A transmission of `ns` in class c ends before the class closes (R145): under the list in force, and, where a waiting list starts
before its end, under that list from its start on. -/
def gateFits (p c ns : Nat) (s : State) : Bool :=
  match (egressAt p s).nextGate with
  | none => listFits p c ns s
  | some g =>
    let lead := cmpDiff g.start (cmpNow s)
    if (ns : Int) ≤ lead then listFits p c ns s
    else (decide (lead ≤ 0) || listFits p c lead.toNat s) &&
      (g.entries.all (fun x => x.2.testBit c) || decide ((ns : Int) - lead ≤ openFor g c g.entries.length 0))

end Sys2Proof.Machine
end

