-- ==== Sys2Proof/Machine/Egress.lean ====
section
/-! DEFINITION. Upstream reports and keyframe requests, replication, spill, shaping, scheduling, and the releases of legs
and subscriptions (R125-R127, R133-R143, R145). -/

namespace Sys2Proof.Machine

/-! ## Sending on a port -/

/-- The port is in service. -/
def portUp (p : Nat) (s : State) : Bool :=
  if isEth p s then laneUp p s else if isTremund p s then !(upLanes p s).isEmpty else false

/-- Send a frame on an Ethernet port; while the port is DOWN it is discarded and counted (R330). No lane transmits in Safe
Hold (R487). -/
def sendEth (p : Nat) (frame : List Byte) (s : State) : State :=
  if s.body.hold then s
  else if portUp p s then emit (.frame p frame) (count (laneCtr p 0) 1 s)
  else count (laneCtr p 6) 1 s

/-- Line rate of a port in units of 200 Gbit/s. -/
def portLines (p : Nat) (s : State) : Nat := if isTremund p s then max (upLanes p s).length 1 else portWidth p s
/-- ns that `len` bytes take on a port. -/
def lineNs (p len : Nat) (s : State) : Nat := ceilDiv len (25 * portLines p s)

/-! ## Upstream (R136-R138) -/

/-- An RTCP packet to a source's sender, from BRIDGE_SSRC of its room: on its transport, reversed, under its slot's key; over
the Tremund link for MATCH_KIND 1. -/
def sendUpstream (i : Nat) (pkt : List Byte) (s : State) : State :=
  let v := sourceAt i s
  if v.isLocal then s
  else if v.kind = 1 then sendFrame v.lane { ftype := 2, stream := v.ssrc % 2 ^ 20, body := pkt } s
  else
    let r := protect v.wing v.slot (roomAt v.room s).bridgeSsrc true 0 pkt s
    match r.1 with
    | none => r.2
    | some b =>
      let t := v.transport
      sendEth v.lane (udpFrame v.mac (portMac v.lane s) t.vlan (laddrAt v.wing t.laddr s).addr t.peer t.lport t.pport 0 b) r.2

def outputAt (o : Nat) (s : State) : Output := s.video.outs.get o {}
def setOutput (o : Nat) (v : Output) (s : State) : State := { s with video := { s.video with outs := s.video.outs.set o v } }
def updOutput (o : Nat) (f : Output → Output) (s : State) : State := setOutput o (f (outputAt o s)) s
def outputList (s : State) : List (Nat × Output) := s.video.outs.toList.filter (fun c => (identOf .output c.1 s).used)

def Output.stitched (v : Output) : Bool := bitOf v.w1 10
/-- Cells of a stitched output's grid (R226). -/
def Output.cellCount (v : Output) : Nat := (fld v.w2 16 13 + 1) * (fld v.w2 20 17 + 1)

/-- Settings of cell c: the Cocoon cell takes its source from layer 64 (R225, R234). -/
def cellCfg (t : Tab LayerCfg) (c : Nat) : LayerCfg :=
  let v := t.get c {}
  let k := t.get 64 {}
  if bitOf k.w2 33 && fld k.w2 5 0 == c then
    { v with typ := 1, w2 := pack128 [(64, 64, fld v.w2 127 64), (0, 64, fld k.w3 63 0)] } else v

/-- Handle of the source that feeds a cell: its ALT_SOURCE while that is in use or awaited (R232). -/
def cellSource (v : Output) (c : Nat) : Nat :=
  let k := cellCfg v.active c
  if k.typ = 0 then 0 else if (v.cells.get c {}).altInUse || (v.cells.get c {}).altWanted then fld k.w2 127 64 else fld k.w2 63 0

/-- The output whose local source is i. -/
def stitchOf (i : Nat) (s : State) : Option Nat :=
  ((outputList s).find? (fun c => c.2.stitched && c.2.source == handleFor .source i s)).map (·.1)

/-- The sources in use that a stitched output's cells show. -/
def cellSourceList (v : Output) (s : State) : List Nat :=
  ((List.range v.cellCount).filterMap (fun c =>
    match resolve .source (cellSource v c) s with
    | .ok k => some k
    | _ => none)).eraseDups

/-- A keyframe request leaves the merge and the hold starts (R137). A local source's encoder takes it as KEY_PENDING
(R253); a stitched output opens its window and asks every cell's source by `ask` (R231). -/
def sendKeyframeWith (ask : Nat → State → State) (i : Nat) (s : State) : State :=
  let v := sourceAt i s
  let hold := nowNs s + (roomAt v.room s).kfHoldMs * 1000000
  let br := (roomAt v.room s).bridgeSsrc
  let s := setSource i { v with
      kfHoldUntil := hold, kfPending := false, kfFir := false, localKey := v.localKey || v.isLocal,
      firSeq := if v.kfFir then (v.firSeq + 1) % 256 else v.firSeq } s
  if v.isLocal then
    match stitchOf i s with
    | none => s
    | some o => (cellSourceList (outputAt o s) s).foldl (fun s k => ask k s) (updOutput o (fun v => { v with window := some hold }) s)
  else
    let s := count (legCtr v.wing 8) 1 s
    sendUpstream i (if v.kfFir then rtcpFir br v.ssrc (v.firSeq + 1) else rtcpPli br v.ssrc) s

/-- A keyframe request enters the merge (R137). The number bounds how deep stitched outputs may stand in one another. -/
def kfRequestN : Nat → Nat → Bool → State → State
  | 0, _, _, s => s
  | n + 1, i, fir, s =>
    let s := updSource i (fun v => { v with kfFir := v.kfFir || fir, kfFirst := some (v.kfFirst.getD (nowNs s)) }) s
    let v := sourceAt i s
    if v.kfHoldUntil ≤ nowNs s then sendKeyframeWith (fun k s => kfRequestN n k false s) i s
    else count (legCtr v.wing 9) 1 (setSource i { v with kfPending := true } s)

def kfDepth : Nat := 64
def kfRequest (i : Nat) (fir : Bool) (s : State) : State := kfRequestN kfDepth i fir s
def sendKeyframe (i : Nat) (s : State) : State := sendKeyframeWith (fun k s => kfRequest k false s) i s

/-- A switch point of the source with S = 0 answers the requests (R137). -/
def kfAnswered (i : Nat) (s : State) : State :=
  updSource i (fun v => { v with kfPending := false, kfFir := false, kfFirst := none, kfPosted := false }) s

/-- KF_HOLD_END (R137). -/
def kfHoldEndDo (i : Nat) (s : State) : State :=
  let v := sourceAt i s
  if (identOf .source i s).used && v.kfPending && decide (v.kfHoldUntil ≤ nowNs s) then sendKeyframe i s else s

def execKfHoldEnd (source : Nat) (s : State) : Outcome := onWf (.kfHoldEnd source) (kfHoldEndDo source s)

/-- KEYFRAME_NEEDED: no switch point within 3 × KF_HOLD_MS of the first unanswered request (R137). -/
def keyframeNeededDo (i : Nat) (s : State) : State :=
  let v := sourceAt i s
  match v.kfFirst with
  | none => s
  | some t =>
    if (identOf .source i s).used && !v.kfPosted && decide (t + 3 * (roomAt v.room s).kfHoldMs * 1000000 ≤ nowNs s) then
      enginePost 0x02 (192 + v.wing) v.fn 0 (BitVec.ofNat 128 (handleFor .source i s)) 0 (setSource i { v with kfPosted := true } s)
    else s

def execKeyframeNeeded (source : Nat) (s : State) : Outcome := onWf (.keyframeNeeded source) (keyframeNeededDo source s)

/-- LEG_KEYFRAME (R119, R137). -/
def legKeyframeBody (r : Req) (s : State) : Answer :=
  let h := df r.w1 63 0
  match resolve .source h s with
  | .refused => answer s (refuse stRefused 0)
  | .stale => answer (count (ingCtr (sourceAt (handleIdx h) s).wing 9) 1 s) ⟨stStale, 0, 0⟩
  | .ok i => if r.owner || (sourceAt i s).fn == r.fn then answer (kfRequest i false s) (okWith 0) else notOwned5 s

def execLegKeyframe (src : CmdSrc) (s : State) : Outcome :=
  onWf (.legKeyframe src) (command 0x4D (strictly ([(63, 0)], [], []) legKeyframeBody) src s)

/-! ## Packet buffers and spill (R143) -/

def setBuffer (b : Nat) (v : PktBuf) (s : State) : State := { s with media := { s.media with buffers := s.media.buffers.set b v } }

/-- A copy that points at buffer `b` is gone; the last one frees it. -/
def dropRef (b : Nat) (s : State) : State :=
  match s.media.buffers.find? b with
  | none => s
  | some v => if v.copies ≤ 1 then { s with media := { s.media with buffers := s.media.buffers.del b } }
              else setBuffer b { v with copies := v.copies - 1 } s

/-- Bytes that a Wing's packet SRAM holds: buffers, and 16 bytes per copy descriptor. -/
def sramUsed (w : Nat) (s : State) : Nat :=
  (s.media.buffers.toList.map (fun c => if c.2.wing = w then (if c.2.spilled then 0 else c.2.bytes) + 16 * c.2.copies else 0)).sum
def sramBytes : Nat := 48 * 2 ^ 20
def spillUsed (w : Nat) (s : State) : Nat :=
  (s.media.buffers.toList.map (fun c => if c.2.wing = w ∧ c.2.spilled then c.2.bytes else 0)).sum

/-- The spill token bucket in bits: RATE_GBPS with a depth of 1 ms. -/
def spillTokens (w : Nat) (s : State) : Nat :=
  let rate := s.media.spillRate.get w 6350
  match s.media.spillBucket.find? w with
  | none => rate * 1000000
  | some (t, at_) => min (t + (nowNs s - at_) * rate) (rate * 1000000)

def spendSpill (w bits : Nat) (s : State) : State :=
  { s with media := { s.media with spillBucket := s.media.spillBucket.set w (spillTokens w s - bits, nowNs s) } }

/-- The buffer with the oldest arrival that still has copies waiting and is in SRAM. -/
def oldestBuffer (w : Nat) (s : State) : Option (Nat × PktBuf) :=
  (s.media.buffers.toList.filter (fun c => c.2.wing == w && !c.2.spilled && decide (0 < c.2.copies))).foldl
    (fun m c => match m with | none => some c | some x => if c.2.at_ < x.2.at_ then some c else some x) none

/-- Above MARK_MIB a buffer must move to the spill area (R143), and the bandwidth or the 2 GiB do not allow it. -/
def spillBlocked (w : Nat) (s : State) : Bool :=
  decide (s.media.spillMark.get w 40 * 2 ^ 20 < sramUsed w s) &&
    match oldestBuffer w s with
    | none => false
    | some (_, v) => !(decide (v.bytes * 8 ≤ spillTokens w s) && decide (spillUsed w s + v.bytes ≤ 2 ^ 31))

/-- Above MARK_MIB the oldest buffers move to the spill area, as its bandwidth and its 2 GiB allow. -/
def spillPass : Nat → Nat → State → State
  | 0, _, s => s
  | n + 1, w, s =>
    if sramUsed w s ≤ s.media.spillMark.get w 40 * 2 ^ 20 then s
    else match oldestBuffer w s with
      | none => s
      | some (b, v) =>
        if v.bytes * 8 ≤ spillTokens w s ∧ spillUsed w s + v.bytes ≤ 2 ^ 31 then
          spillPass n w (count (legCtr w 2) v.bytes (spendSpill w (v.bytes * 8) (writeHeld 7 b 0 (setBuffer b { v with spilled := true } s))))
        else s

def spillAll (w : Nat) (s : State) : State := spillPass (s.media.buffers.size + 1) w s

/-! ## Eligibility and the port's backlog (R135, R140, R145) -/

/-- A leg's buckets at the present time (R140). -/
def shaperNow (g : Leg) (s : State) : Leg :=
  let dt := dtOf (cmpNow s) g.bucketT
  { g with bucketC := refill g.bucketC g.estKbps dt g.cbs, bucketP := refill g.bucketP g.pir dt g.pbs, bucketT := cmpNow s }

/-- The head's buffer is in SRAM, or the spill bandwidth allows it to be read back (R143). -/
def headReady (g : Leg) (c : Copy) (s : State) : Bool :=
  match s.media.buffers.find? c.buffer with
  | none => true
  | some b => !b.spilled || decide (b.bytes * 8 ≤ spillTokens g.wing s)

/-- The head copy of leg `l` is eligible. -/
def eligible (l : Nat) (s : State) : Bool :=
  let g := shaperNow (legAt l s) s
  match g.queue with
  | [] => false
  | c :: _ => decide (c.len * 65536 ≤ g.bucketC) && decide (c.len * 65536 ≤ g.bucketP) && headReady g c s
      && gateFits g.lane g.gateClass (lineNs g.lane c.len s) s

def portLegs (p : Nat) (s : State) : List Nat := ((legList s).filter (fun c => c.2.lane == p)).map (·.1)

/-- The copies eligible on a port, in ns of its line: the head copies of its legs whose buckets, spill and gate let them leave
(R135, R140). -/
def portBacklog (p : Nat) (s : State) : Nat :=
  lineNs p (((portLegs p s).filter (fun l => eligible l s)).map (fun l => ((legAt l s).queue.head?.map (·.len)).getD 0)).sum s

/-- The port's backlog has changed: since when it exceeds 200 µs without a break, and whether it has reached 50 µs (R135). -/
def notePort (p : Nat) (s : State) : State :=
  let back := portBacklog p s
  let e := egressAt p s
  setEgress p { e with overSince := if 200000 < back then some (e.overSince.getD (nowNs s)) else none,
                       reached50 := e.reached50 || decide (50000 ≤ back) } s

/-! ## Queueing (R140, R141) -/

/-- Length of tag and SRTCP index that a profile adds. -/
def tagLen (profile : Nat) (rtcp : Bool) : Nat :=
  if rtcp then (if profile = 7 ∨ profile = 8 then 20 else 14)
  else if profile = 1 then 10 else if profile = 2 then 4 else 16

/-- Frame bytes of a copy as it will leave (R87, R126, R337). -/
def copyFrame (g : Leg) (profile : Nat) (rtcp : Bool) (len : Nat) : Nat :=
  if g.kind = 1 then 16 + 16 * ceilDiv len 16
  else max 64 (14 + (if g.vlan.isSome then 4 else 0) + (if isMapped g.w1.toNat then 20 else 40) + 8 + len + tagLen profile rtcp + 4)

/-- L of R140: frame bytes, OVERHEAD_BYTES of the port, ENCAP_BYTES of the leg. -/
def copyLen (g : Leg) (rtcp : Bool) (len : Nat) (s : State) : Nat :=
  copyFrame g (slotAt g.slot s).profile rtcp len + s.media.overhead.get g.lane 20 + g.encap

/-- A copy is refused (1 by the leg's queue limit, 2 for spill) and counted (R141, R143). -/
def refuseCopy (l kind : Nat) (s : State) : State :=
  let w := (legAt l s).wing
  if kind = 2 then count (legCtr w 3) 1 (legCount l 7 1 s) else count (legCtr w 1) 1 (legCount l 2 1 s)

/-- A new copy joins its leg's queue, or is refused: 0 queued, 1 by the queue limit (R141), 2 for spill (R143). -/
def pushCopy (l : Nat) (c : Copy) (s : State) : Nat × State :=
  let g := legAt l s
  if max (g.estKbps * g.qmaxMs / 8) 16384 < g.queued + c.len then (1, refuseCopy l 1 s)
  else if spillBlocked g.wing s && decide (g.estKbps * 20 / 8 < g.queued) then (2, refuseCopy l 2 s)
  else
    let s := updLeg l (fun v => { v with queue := v.queue ++ [c] }) s
    let s := match s.media.buffers.find? c.buffer with
      | none => s
      | some b => setBuffer c.buffer { b with copies := b.copies + 1 } s
    (0, notePort g.lane s)

/-! ## Layers (R132, R133) -/

/-- The current layer includes the packet's S, T and Q. -/
def includes (cur : Option (Nat × Nat × Nat)) (l : Layer) : Bool :=
  match cur with
  | none => false
  | some (a, b, c) => decide (l.s ≤ a) && decide (l.t ≤ b) && decide (l.q ≤ c)

/-- A pending change takes effect at this frame start (R133). -/
def mayChange (cur tgt : Option (Nat × Nat × Nat)) (l : Layer) : Bool :=
  match cur, tgt with
  | _, none => true
  | none, some _ => l.switch
  | some (a, b, c), some (a', b', c') =>
    if a < a' ∨ c < c' then l.switch else if b < b' then l.t == 0 else true

/-- A subscription at a frame start: the frame in progress has ended; a pending change or pause takes effect. -/
def frameStart (v : Sub) (ts : Nat) (l : Layer) : Sub :=
  let v := { v with inFrame := false, frameTs := some ts }
  let v := if v.pend ≠ 0 ∧ mayChange v.cur v.target l then { v with cur := v.target, pend := 0, upSince := none } else v
  if v.paused then { v with pausedNow := true }
  else if v.pausedNow && l.switch then { v with pausedNow := false } else v

/-- The packet starts a frame: FIRST, a timestamp that the subscription has not met, and not an older one that comes late. -/
def startsFrame (v : Sub) (p : MediaPkt) : Bool :=
  let ts := rtpTs p.bytes
  let behind := match v.highest with | none => false | some h => decide (p.ext < h)
  let older := match v.frameTs with | none => false | some t => decide (ofTwos 32 (ts + 2 ^ 32 - t) ≤ 0)
  p.layer.first && !v.frames.any (fun f => f.ts == ts) && !(behind && older)

/-- A packet meets its frame (R133, R134): the subscription after the frame start that it may be, and the choice under which its whole
frame is carried. -/
def meetFrame (v : Sub) (p : MediaPkt) : Sub × FrameRec :=
  let ts := rtpTs p.bytes
  match v.frames.find? (fun f => f.ts == ts) with
  | some f => (v, f)
  | none =>
    let v := if startsFrame v p then frameStart v ts p.layer else v
    let f : FrameRec := { ts := ts, cur := v.cur, paused := v.pausedNow }
    ({ v with frames := (f :: v.frames).take 64 }, f)

/-- A copy of the frame was refused; the rest of it is (R141). -/
def refuseFrame (v : Sub) (ts kind : Nat) : Sub :=
  { v with frames := v.frames.map (fun f => if f.ts = ts then { f with refused := kind } else f) }

/-! ## Rewriting (R126, R127) -/

/-- SKIP that applies to extended sequence number n: none below the change points kept. -/
def skipAt (changes : List (Nat × Nat)) (n : Nat) : Option Nat := (changes.find? (fun c => decide (c.1 ≤ n))).map (·.2)

/-- Packet n is withheld: from n + 1 on SKIP is one more. Packets withheld one after another share a change point. -/
def withheld (n : Nat) : List (Nat × Nat) → List (Nat × Nat)
  | [] => []
  | (p, k) :: r =>
    if n < p then
      match withheld n r with
      | (q, j) :: r' => if q = n + 1 ∧ p = n + 1 + (k + 1 - j) then (p, k + 1) :: r' else (p, k + 1) :: (q, j) :: r'
      | [] => [(p, k + 1)]
    else if p = n ∧ 0 < n ∧ !r.isEmpty then (n + 1, k + 1) :: r
    else (n + 1, k + 1) :: (p, k) :: r

/-- A packet above the highest forwarded that is withheld by layer choice, pause or OFF counts in SKIP (R127). -/
def Sub.withhold (v : Sub) (n : Nat) : Sub :=
  let c := (withheld n v.changes).take 33
  { v with changes := c, skip := (c.headD (0, v.skip)).2 }

/-- The first copy after a restored record goes on from its index (R170): SKIP starts so that it does. -/
def Sub.begin (v : Sub) (n : Nat) : Sub :=
  match v.startAt, skipAt v.changes n with
  | some k, some x =>
    let off := (n + 2 ^ 32 - x % 2 ^ 32 + (2 ^ 32 - k % 2 ^ 32)) % 2 ^ 32
    { v with startAt := none, changes := v.changes.map (fun c => (c.1, c.2 + off)), skip := v.skip + off }
  | _, _ => v

/-- Keep or move header extension elements (R126). -/
def mapExts (v : Source) (b : Sub) (es : List (Nat × List Byte)) : List (Nat × List Byte) :=
  es.filterMap (fun e =>
    if e.1 = v.ddId then (if fld b.w3 17 14 = 0 then none else some (fld b.w3 17 14, e.2))
    else if e.1 = v.levelId then (if fld b.w3 21 18 = 0 then none else some (fld b.w3 21 18, e.2))
    else if 1 ≤ e.1 ∧ e.1 ≤ 14 ∧ bitOf b.w3 (e.1 - 1) then some e else none)

/-- The RTP packet of a copy, in a frame carried under the choice `cur`. -/
def rewriteRtp (v : Source) (b : Sub) (cur : Option (Nat × Nat × Nat)) (p : MediaPkt) (outSeq : Nat) : List Byte :=
  let q := setSsrc (setPt (setSeq p.bytes outSeq) b.outPt) b.ssrc
  let q := if v.format = 3 ∧ (extData v.ddId p.bytes).isSome then
      setMarker q (p.layer.frameEnd && (match cur with | some l => l.1 == p.layer.s | none => false)) else q
  if extKnown q then setExts q (mapExts v b (rtpExts q)) else q

/-- Drop the copies of a leg's queue that `bad` names: counted, and their buffers freed. -/
def dropCopies (l : Nat) (bad : Copy → Bool) (s : State) : State :=
  let g := legAt l s
  let gone := g.queue.filter bad
  let s := setLeg l { g with queue := g.queue.filter (fun c => !bad c) } s
  let s := if gone.isEmpty then s else count (legCtr g.wing 1) gone.length (legCount l 2 gone.length s)
  gone.foldl (fun s c => dropRef c.buffer s) s

/-- A subscription leaves use (R125): its queued copies are dropped and its handle quarantined; its SSRCs' records
stay in the leg's slot as orphans, so that no index is used twice under the key (R167). -/
def closeSub (j : Nat) (s : State) : State :=
  let v := subAt j s
  let h := handleFor .sub j s
  let g := legAt v.leg s
  let s := dropCopies v.leg (fun c => c.sub == h) s
  let others := ((subList s).filter (fun c => c.1 != j && (legAt c.2.leg s).kind == 0 && (legAt c.2.leg s).slot == g.slot)).flatMap (fun c => c.2.ssrcs)
  let s := if g.kind = 1 then s else updSlot g.slot (fun k =>
    { k with recs := k.recs.map (fun r => if r.tx && v.ssrcs.contains r.ssrc && !others.contains r.ssrc then { r with orphan := true } else r) }) s
  let s := releaseId .sub j s
  match v.releasing with
  | some t => complete t (okVia g.wing 0 s) (updSub j (fun v => { v with releasing := none }) s)
  | none => s

/-- SUB_RELEASE waits for the frame in progress to end (R125). -/
def subReleaseBody (r : Req) (s : State) : Answer :=
  withSub (df r.w1 63 0) r s (fun j =>
    if (subAt j s).inFrame then
      match (subAt j s).releasing with
      | some _ => answer s (okWith 0)
      | none => (updSub j (fun v => { v with releasing := some r.tk }) s, none)
    else answer (closeSub j s) (okWith 0))

def execSubRelease (src : CmdSrc) (s : State) : Outcome :=
  onWf (.subRelease src) (command 0x4C (strictly ([(63, 0)], [], []) subReleaseBody) src s)

/-- A leg leaves use: every subscription first, then the copies still queued, then its handle (R125). -/
def closeLeg (l : Nat) (s : State) : State :=
  let s := ((legSubs l s).map (·.1)).foldl (fun s j => closeSub j s) s
  releaseId .leg l (updLeg l (fun v => { v with active := false }) (dropCopies l (fun _ => true) s))

def legReleaseBody (r : Req) (s : State) : Answer :=
  withLeg (df r.w1 63 0) r s (fun l => answer (closeLeg l s) (okWith 0))

def execLegRelease (src : CmdSrc) (s : State) : Outcome :=
  onWf (.legRelease src) (command 0x48 (strictly ([(63, 0)], [], []) legReleaseBody) src s)

/-! ## Replication -/

/-- A packet made only of RTP padding. -/
def onlyPadding (p : MediaPkt) : Bool := (rtpPayload p.bytes).isEmpty && rtpPad p.bytes != 0

/-- Queue the copy of a packet that its frame's layer includes, as extended sequence number N − SKIP. -/
def copyOut (j i : Nat) (f : FrameRec) (p : MediaPkt) (skip buf : Nat) (s : State) : State :=
  let v := sourceAt i s
  let b := subAt j s
  let g := legAt b.leg s
  let ext := (p.ext + 2 ^ 32 - skip % 2 ^ 32) % 2 ^ 32
  let q := rewriteRtp v b f.cur p (ext % 65536)
  let c : Copy := { sub := handleFor .sub j s, leg := handleFor .leg b.leg s, packet := q, ssrc := b.ssrc, ext := ext, buffer := buf,
                    len := copyLen g false q.length s, stream := b.ssrc % 2 ^ 20 }
  let r := pushCopy b.leg c s
  if r.1 = 0 then r.2 else updSub j (fun b => refuseFrame b f.ts r.1) r.2

/-- The frame in progress has ended: a release that waits for it goes on (R125). -/
def frameEnded (j : Nat) (s : State) : State :=
  if !(subAt j s).inFrame && (subAt j s).releasing.isSome then closeSub j s else s

/-- One packet meets one subscription (R126, R127, R133, R134, R141). A packet below the highest forwarded one is late: it leaves only
where the change points map it. A frame in progress ends with its last packet, carried or not; each audio packet is a frame. -/
def forwardSub (j i : Nat) (p : MediaPkt) (buf : Nat) (s : State) : State :=
  let b := subAt j s
  if startsFrame b p && b.releasing.isSome then closeSub j s
  else
    let m := meetFrame b p
    let f := m.2
    let carried := !f.paused && includes f.cur p.layer && !onlyPadding p
    let late := match m.1.sent with | none => false | some h => decide (p.ext < h)
    let mine := m.1.frameTs == some f.ts
    let ends := (sourceAt i s).isAudio || rtpMarker p.bytes
    let b := { m.1 with highest := some (max p.ext (m.1.highest.getD 0)),
                        inFrame := if mine then !ends && (m.1.inFrame || carried) else m.1.inFrame }
    if !carried then frameEnded j (setSub j (if late || onlyPadding p then b else b.withhold p.ext) s)
    else
      let b := if b.sent.isNone then b.begin p.ext else b
      let s := setSub j { b with sent := some (max p.ext (b.sent.getD 0)) } s
      frameEnded j (match skipAt b.changes p.ext with
        | none => count (legCtr (legAt b.leg s).wing 12) 1 s
        | some k => if f.refused = 0 then copyOut j i f p k buf s else refuseCopy b.leg f.refused s)

/-- Bytes of each layer by 50 ms bins, kept for 2 s (R132). -/
def addBin (i : Nat) (p : MediaPkt) (s : State) : State :=
  let bin := nowNs s / 50000000
  updSource i (fun v =>
    let l := p.layer
    let bins := v.bins.filter (fun b => decide (bin < b.bin + 41))
    let same := fun (b : LayerBin) => b.bin == bin && b.s == l.s && b.t == l.t && b.q == l.q
    { v with bins := if bins.any same then bins.map (fun b => if same b then { b with bytes := b.bytes + p.frameLen } else b)
                     else ⟨bin, l.s, l.t, l.q, p.frameLen⟩ :: bins }) s

/-- The subscriptions of a source. -/
def sourceSubs (i : Nat) (s : State) : List Nat :=
  let h := handleFor .source i s
  ((subList s).filter (fun c => c.2.source == h)).map (·.1)

/-- Subscriptions in the order in which their copies are made: those whose slot is in the Wing's cache first (R162). -/
def cachedFirst (w : Nat) (js : List Nat) (s : State) : List Nat :=
  let hit := fun j => let g := legAt (subAt j s).leg s; g.kind == 1 || (s.keys.cache.get w []).contains g.slot
  js.filter hit ++ js.filter (fun j => !hit j)

/-- Replication asks the cluster for each leg's slot as it walks the subscriptions (R162). -/
def askSlots (w : Nat) (js : List Nat) (s : State) : State :=
  js.foldl (fun s j => let g := legAt (subAt j s).leg s; if g.kind = 1 then s else lookupSlot w g.slot s) s

/-- Replicate a packet on one Wing: one stored packet, one copy for each subscription that carries it. -/
def replicateWing (i : Nat) (p : MediaPkt) (packet : Nat) (subs : List Nat) (w : Nat) (s : State) : State :=
  let mine := subs.filter (fun j => (legAt (subAt j s).leg s).wing == w)
  if mine.isEmpty then s
  else
    let s := spillAll w s
    if sramBytes < sramUsed w s + p.bytes.length then count (legCtr w 4) 1 s
    else
      let buf := s.media.nextBuf
      let s := setBuffer buf { wing := w, bytes := p.bytes.length, at_ := nowNs s, copies := 0, packet := if p.outside then 0 else packet }
        { s with media := { s.media with nextBuf := buf + 1 } }
      let order := cachedFirst w mine s
      let s := order.foldl (fun s j => forwardSub j i p buf s) (askSlots w mine s)
      let s := match s.media.buffers.find? buf with
        | some b => if b.copies = 0 then { s with media := { s.media with buffers := s.media.buffers.del buf } } else s
        | none => s
      spillAll w s

/-- A packet takes the next packet number, under which the Wings' buffers of it are known (R146). -/
def nextPacket (s : State) : Nat × State := (s.media.nextPacket, { s with media := { s.media with nextPacket := s.media.nextPacket + 1 } })

/-- Replication of one packet to some subscriptions, Wing by Wing. -/
def replicateTo (i : Nat) (p : MediaPkt) (subs : List Nat) (s : State) : State :=
  let n := nextPacket s
  [0, 1, 2, 3].foldl (fun s w => replicateWing i p n.1 subs w s) n.2

/-- Replication (R126), with the measurement of R132 and the answer to keyframe requests (R137). -/
def replicate (i : Nat) (p : MediaPkt) (s : State) : State :=
  let s := addBin i p s
  let s := if p.layer.switch && p.layer.s == 0 then kfAnswered i s else s
  replicateTo i p (sourceSubs i s) s

/-! ## Scheduling (R140, R142, R145) -/

def tenKey (p f : Nat) : Nat := p * 64 + f
def roomKey (p f r : Nat) : Nat := (p * 64 + f) * 8192 + r
def portNode (p : Nat) (s : State) : Node := s.media.ports.get p {}
def tenNode (k : Nat) (s : State) : Node := s.media.tenants.get k {}
def roomNode (k : Nat) (s : State) : Node := s.media.roomNodes.get k {}
def setPortNode (p : Nat) (n : Node) (s : State) : State := { s with media := { s.media with ports := s.media.ports.set p n } }
def setTenNode (k : Nat) (n : Node) (s : State) : State := { s with media := { s.media with tenants := s.media.tenants.set k n } }
def setRoomNode (k : Nat) (n : Node) (s : State) : State :=
  { s with media := { s.media with roomNodes := s.media.roomNodes.set k n } }

/-- Leg `l` and the nodes above it become active: each takes its parent's virtual time. -/
def wakeLeg (p l : Nat) (s : State) : State :=
  let g := legAt l s
  let tk := tenKey p g.fn
  let rk := roomKey p g.fn g.room
  let s := if (tenNode tk s).active then s else setTenNode tk { tenNode tk s with active := true, start := (portNode p s).v } s
  let s := if (roomNode rk s).active then s else setRoomNode rk { roomNode rk s with active := true, start := (tenNode tk s).v } s
  if g.active then s else setLeg l { g with active := true, start := (roomNode rk s).v } s

/-- Nodes below which no eligible copy remains become idle. -/
def settleNodes (p : Nat) (elig : List Nat) (s : State) : State :=
  let s := (portLegs p s).foldl (fun s l => if elig.contains l then s else updLeg l (fun g => { g with active := false }) s) s
  let tks := elig.map (fun l => tenKey p (legAt l s).fn)
  let rks := elig.map (fun l => roomKey p (legAt l s).fn (legAt l s).room)
  { s with media := { s.media with
      tenants := s.media.tenants.mapVals (fun k n => if k / 64 = p ∧ !tks.contains k then { n with active := false } else n),
      roomNodes := s.media.roomNodes.mapVals (fun k n =>
        if k / 8192 / 64 = p ∧ !rks.contains k then { n with active := false } else n) } }

/-- Start tag a comes before b, by signed difference. -/
def tagBefore (a b : Nat) : Bool := decide (2 ^ 63 ≤ (a + 2 ^ 64 - b) % 2 ^ 64)

/-- The first of some (index, start tag) pairs with the smallest start. -/
def smallestTag : List (Nat × Nat) → Option (Nat × Nat)
  | [] => none
  | x :: r =>
    match smallestTag r with
    | none => some x
    | some y => if tagBefore y.2 x.2 then some y else some x

def legTag (l : Nat) (s : State) : Nat := (legAt l s).start

/-- Walk the tree: tenant, room, leg (R142). Each node's virtual time becomes the start of the child taken. -/
def pickLeg (p : Nat) (elig : List Nat) (s : State) : Option (Nat × State) :=
  let fns := (List.range 64).filter (fun f => elig.any (fun l => (legAt l s).fn == f))
  match smallestTag (fns.map (fun f => (f, (tenNode (tenKey p f) s).start))) with
  | none => none
  | some (f, ft) =>
    let mine := elig.filter (fun l => (legAt l s).fn == f)
    let rooms := (mine.map (fun l => (legAt l s).room)).eraseDups.mergeSort
    match smallestTag (rooms.map (fun r => (r, (roomNode (roomKey p f r) s).start))) with
    | none => none
    | some (r, rt) =>
      let legs := mine.filter (fun l => (legAt l s).room == r)
      match smallestTag (legs.map (fun l => (l, legTag l s))) with
      | none => none
      | some (l, lt) =>
        let s := setPortNode p { portNode p s with v := ft } s
        let s := setTenNode (tenKey p f) { tenNode (tenKey p f) s with v := rt } s
        some (l, setRoomNode (roomKey p f r) { roomNode (roomKey p f r) s with v := lt } s)

/-- Advance the start tags of a leg, its room and its tenant by the length sent over the weight. -/
def advanceTags (p l len : Nat) (s : State) : State :=
  let g := legAt l s
  let adv := fun (start w : Nat) => (start + len * 65536 / max w 1) % 2 ^ 64
  let tk := tenKey p g.fn
  let rk := roomKey p g.fn g.room
  let s := setLeg l { g with start := adv g.start g.weight } s
  let s := setRoomNode rk { roomNode rk s with start := adv (roomNode rk s).start (roomAt g.room s).weight } s
  setTenNode tk { tenNode tk s with start := adv (tenNode tk s).start (s.media.tenantWt.get (g.wing * 64 + g.fn) 256) } s

/-- What leaves the log and the counters when a copy has been sent. -/
def noteSent (l : Nat) (c : Copy) (s : State) : State :=
  let g := legAt l s
  if c.rtcp then
    let others := g.srSent.filter (fun x => x.1 != c.ssrc)
    let mine := g.srSent.filter (fun x => x.1 == c.ssrc)
    setLeg l { g with srSent := ((c.ssrc, beAt c.packet 10 4, nowNs s) :: mine).take 64 ++ others } s
  else
    let d : Departure := ⟨c.ssrc, rtpSeq c.packet, cmpNow s, c.len⟩
    let s := setLeg l { g with log := (d :: g.log).take 512, sentSince := g.sentSince + c.len, rtxSent := if c.rtx then (nowNs s, c.len) :: g.rtxSent else g.rtxSent } s
    let s := legCount l 1 c.len (legCount l 0 1 (count (legCtr g.wing 0) 1 s))
    if c.rtx then
      legCount l 3 1 (count (legCtr g.wing 5) 1 (updSub (handleIdx c.sub) (fun b => { b with
        rtxDone := (c.ext, nowNs s) :: b.rtxDone.filter (fun x => x.1 != c.ext && decide (nowNs s < x.2 + 10000000000)) }) s))
    else updSub (handleIdx c.sub) (fun b =>
      { b with packets := (b.packets + 1) % 2 ^ 32, octets := (b.octets + (rtpPayload c.packet).length) % 2 ^ 32 }) s

/-- A forward island's slack is below 0 above 105 °C case, so that packets are outside the bound (R52). -/
def slackLost (s : State) : Bool :=
  (List.range 96).any (fun i => alarmed i s)

/-- The copy's packet came from a connector to be forwarded, on a route that R31 has not moved, with no slack lost (R52) and no wait for a
hash unit (R153): it is within the terms of the bound. -/
def withinBound (w : Nat) (c : Copy) (s : State) : Bool :=
  let g := legAt (handleIdx c.leg) s
  !c.rtx && !c.rtcp && !slackLost s && (g.kind == 1 || !mustHash (slotAt g.slot s).profile (2 * w + 1) s) &&
    match subSource (handleIdx c.sub) s with
    | some i => !(sourceAt i s).isLocal && !pairRerouted (sourceAt i s).wing w s
    | none => false

/-- The first copy of a forwarded packet leaves the module: the transit that LEG_TRANSIT_MAX follows, the waits that R146 excludes
taken off, is open, up to the 1,000 ns of R3. Whether the packet met a block or an arbitration that excludes it (R29, R41) is open too:
a value of 0 changes nothing. -/
def noteTransit (w : Nat) (c : Copy) (s : State) : State :=
  match s.media.buffers.find? c.buffer with
  | none => s
  | some b =>
    if b.sent || b.packet = 0 || !withinBound w c s then s
    else
      let s := { s with media := { s.media with
        buffers := s.media.buffers.mapVals (fun _ x => if x.packet = b.packet then { x with sent := true } else x) } }
      let ns := Config.free s.free % 1001
      { s with free := s.free + 1, media := { s.media with transitMax := s.media.transitMax.set w (max (s.media.transitMax.get w 0) ns) } }

/-- The head copy's packet is read back from the spill area, whose bandwidth that takes; it is in SRAM again (R143). -/
def readBack (w b : Nat) (s : State) : Bool × State :=
  match s.media.buffers.find? b with
  | none => (false, s)
  | some v =>
    if v.spilled then readHeld 7 b 0 (spendSpill w (v.bytes * 8) (setBuffer b { v with spilled := false } s)) else (false, s)

/-- Send the head copy of leg `l` on port p: a stale copy is discarded; a copy the cipher refuses is dropped, and so is one whose
spilled packet reads as poison (R125, R164, R378). -/
def sendHead (p l : Nat) (s : State) : State :=
  let g := shaperNow (legAt l s) s
  match g.queue with
  | [] => s
  | c :: rest =>
    let read := readBack g.wing c.buffer s
    let s := read.2
    if read.1 then count (legCtr g.wing 3) 1 (legCount l 7 1 (dropRef c.buffer (setLeg l { g with queue := rest } s))) else
    let leaves := resolve .sub c.sub s == .ok (handleIdx c.sub) && portUp p s
    let s := if leaves then noteTransit g.wing c s else s
    let s := dropRef c.buffer (setLeg l { g with queue := rest } s)
    let paid := fun (s : State) =>
      advanceTags p l c.len (updLeg l (fun g => { g with bucketC := g.bucketC - c.len * 65536, bucketP := g.bucketP - c.len * 65536 }) s)
    if resolve .sub c.sub s ≠ .ok (handleIdx c.sub) then count (legCtr g.wing 11) 1 s
    else if !portUp p s then count (laneCtr p (if isTremund p s then 7 else 6)) 1 (paid s)
    else if g.kind = 1 then
      noteSent l c (sendFrame p { ftype := 1, stream := c.stream, ext := c.ext, body := c.packet } (paid s))
    else
      let r := protect g.wing g.slot c.ssrc c.rtcp (rtpSeq c.packet) c.packet s
      match r.1 with
      | none =>
        -- a frozen slot and a spent index have counters of their own; every other refusal counts in LEG_QDROP
        let k := slotAt g.slot r.2
        if k.state ≠ 2 ∨ k.txKeys = [] ∨ (!k.frozen ∧ indexTaken k c.ssrc c.rtcp (rtpSeq c.packet)) then count (legCtr g.wing 1) 1 (legCount l 2 1 r.2) else r.2
      | some b =>
        let f := udpFrame g.nexthop (portMac p s) g.vlan (laddrAt g.wing g.laddr s).addr g.w1.toNat g.lport g.pport g.dscp b
        noteSent l c (sendEth p f (paid r.2))

/-- SCHEDULE_SELECT (R142). -/
def selectDo (p : Nat) (s : State) : State :=
  if !isPort p s || s.body.hold then s
  else
    let elig := (portLegs p s).filter (fun l => eligible l s)
    let s := elig.foldl (fun s l => wakeLeg p l s) (settleNodes p elig s)
    match pickLeg p elig s with
    | none => s
    | some (l, s) =>
      let s := spillAll (p / 32) (sendHead p l s)
      notePort p (settleNodes p ((portLegs p s).filter (fun l => eligible l s)) s)

def execScheduleSelect (port : Nat) (s : State) : Outcome := onWf (.scheduleSelect port) (selectDo port s)

end Sys2Proof.Machine
end

