-- ==== Sys2Proof/Machine/Feedback.lean ====
section
/-! DEFINITION. The firmware exception path, feedback from receivers, the estimator, and repair (R91, R99, R128-R131,
R136, R137). -/

namespace Sys2Proof.Machine

/-! ## The firmware exception path (R91) -/

/-- Exception tokens of a Wing in 1/10^6 item: RATE items a ms up to BURST items. -/
def excTokens (w : Nat) (s : State) : Nat :=
  let r := s.media.excRate.get w (20, 1024)
  match s.media.excBucket.find? w with
  | none => r.2 * 1000000
  | some (t, at_) => min (t + (nowNs s - at_) * r.1) (r.2 * 1000000)

/-- Copy a frame into a firmware buffer and post it with its class, port and arrival; a frame whose item was posted is counted. -/
def exceptionPath (w port cls : Nat) (bytes : List Byte) (arrival : Nat) (s : State) : State :=
  let t := excTokens w s
  if t < 1000000 then count (ingCtr w 7) 1 s
  else
    let b := s.media.nextFwBuf
    let s := { s with media := { s.media with
        excBucket := s.media.excBucket.set w (t - 1000000, nowNs s), fwBuffers := s.media.fwBuffers.set b bytes,
        nextFwBuf := (b + 1) % 2 ^ 32 } }
    let r := enginePostTell 0x01 (192 + w) 0 (cls + port * 256) (pack128 [(0, 32, b), (32, 16, bytes.length)]) (BitVec.ofNat 128 arrival) s
    if r.1 then count (ingCtr w 6) 1 r.2 else r.2

/-! ## The packets of a compound -/

/-- The RTCP packets of a compound packet, whole; a packet whose length runs past the end ends the parse. -/
def rtcpSplit : Nat → List Byte → List (List Byte)
  | 0, _ => []
  | n + 1, bs =>
    let len := 4 * (beAt bs 2 2 + 1)
    if bs.length < 4 ∨ byteAt bs 0 / 64 ≠ 2 ∨ bs.length < len then [] else bs.take len :: rtcpSplit n (bs.drop len)

def rtcpType (p : List Byte) : Nat := byteAt p 1
def rtcpFmt (p : List Byte) : Nat := byteAt p 0 % 32

/-- The types that the hardware parses (R90): SR, RR, RFC 8888, Generic NACK, PLI, FIR. -/
def rtcpParsed (p : List Byte) : Bool :=
  let t := rtcpType p
  t == 200 || t == 201 || (t == 205 && (rtcpFmt p == 11 || rtcpFmt p == 1)) || (t == 206 && (rtcpFmt p == 1 || rtcpFmt p == 4))

/-! ## Subscriptions that feedback names -/

/-- The subscription of a list that an SSRC in network order selects, by OUT_SSRC or RTX_OUT_SSRC. -/
def subOfSsrc (subs : List Nat) (ssrc : Nat) (s : State) : Option Nat := subs.find? (fun j => (subAt j s).ssrcs.contains ssrc)

/-! ## The estimator (R129-R131) -/

/-- A new estimate; a change of more than 100 ‰ makes a selection due (R132). -/
def setEst (l : Nat) (new : Nat) (s : State) : State :=
  updLeg l (fun g =>
    let big := decide (100 * g.est < 1000 * (max new g.est - min new g.est))
    { g with est := new, selDue := g.selDue || (big && !g.pin) }) s

/-- The once-per-report steps of R129. `q` and `gr` are the delay terms, `inc` the increase in ‰ per s. -/
def estimateStep (l : Nat) (q gr recv loss dt inc : Nat) (under : Bool) (s : State) : State :=
  let g := legAt l s
  let lossLow := fld g.wEst 111 103
  let lossHigh := fld g.wEst 102 94
  let r : Nat × Nat :=
    if fld g.wEst 56 39 < q ∨ fld g.wEst 38 30 < gr then (fld g.wEst 84 75 * recv / 1000, 1)
    else if under then (g.est, 2)
    else if lossHigh < loss then (g.est - g.est * loss / 2000, 0)
    else if loss < lossLow ∧ q < fld g.wEst 74 57 then (g.est + g.est * inc * dt / 1000000, 0)
    else (g.est, 0)
  let est := min (min (max r.1 g.minKbps) g.maxKbps) (3 * recv / 2 + 64)
  setEst l est (updLeg l (fun g => { g with estState := r.2 }) s)

/-- A report reaches the estimator's arbiter: the timer restarts, and LAST_FB_LATE tells whether it had run out (R131). -/
def feedbackArrives (l : Nat) (s : State) : State :=
  let g := legAt l s
  let s := setLeg l { g with fbTimer := nowNs s, timedOut := false, fbLate := g.timedOut } s
  if g.timedOut then count (legCtr g.wing 10) 1 (legCount l 5 1 s) else s

/-- What is set at the end of a report. -/
def endReport (l mode : Nat) (s : State) : State :=
  updLeg l (fun g => { g with fbMode := mode, lastReport := nowNs s, sentSince := 0 }) s

/-- A packet that a report of RFC 8888 names and the log still holds: departure compare word, length, and arrival in µs
when it was received. -/
structure Reported where
  dep : Nat
  len : Nat
  arr : Option Nat
  deriving DecidableEq, Repr, Inhabited

/-- Arrival times wrap with the 32-bit report timestamp, after 65,536 s. -/
def arrWrap : Nat := 65536000000
def arrDiff (a b : Nat) : Int :=
  let d := (a + arrWrap - b % arrWrap) % arrWrap
  if d < arrWrap / 2 then (d : Int) else (d : Int) - arrWrap

/-- The metric blocks of one SSRC: sequence numbers from `seq`, with RTS in µs. -/
def metricBlocks (log : List Departure) (ssrc rts : Nat) : Nat → Nat → List Byte → List Reported
  | 0, _, _ => []
  | n + 1, seq, bs =>
    let m := beAt bs 0 2
    let rest := metricBlocks log ssrc rts n ((seq + 1) % 65536) (bs.drop 2)
    match log.find? (fun d => d.ssrc == ssrc && d.seq == seq) with
    | none => rest
    | some d =>
      let ato := (m % 8192 * 1000000 + 512) / 1024
      ⟨d.cmp, d.len, if 32768 ≤ m then some ((rts + arrWrap - ato % arrWrap) % arrWrap) else none⟩ :: rest

/-- The report blocks of an RFC 8888 packet, after the sender's SSRC and before the report timestamp. -/
def ccfbBlocks (log : List Departure) (rts : Nat) : Nat → List Byte → List Reported
  | 0, _ => []
  | n + 1, bs =>
    if bs.length < 8 then []
    else
      let k := beAt bs 6 2
      metricBlocks log (leAt bs 0 4) rts k (beAt bs 4 2) (bs.drop 8) ++ ccfbBlocks log rts n (bs.drop (8 + 4 * ((k + 1) / 2)))

/-- Reported packets in the order of their departure fall into groups that span GROUP_US from their first (R129). -/
def groupsFrom (spanNs : Nat) : Nat → List Reported → List (List Reported)
  | 0, _ => []
  | _, [] => []
  | n + 1, r :: rest =>
    let g := rest.takeWhile (fun x => decide (cmpDiff x.dep r.dep < spanNs))
    (r :: g) :: groupsFrom spanNs n (rest.drop g.length)

/-- A complete group, none of whose packets is lost: arrival and departure of its last packet. -/
def groupEnd (g : List Reported) : Option (Nat × Nat) :=
  if g.all (fun r => r.arr.isSome) then
    match g.getLast? with
    | some z => some (z.arr.getD 0, z.dep)
    | none => none
  else none

/-- The delay terms over one group that follows another. -/
def groupStep (shift : Nat) (prev cur : Nat × Nat) (q gr : Int) : Int × Int :=
  let span := (cmpDiff cur.2 prev.2).tdiv 1000
  if span ≤ 0 then (q, gr)
  else
    let d := arrDiff cur.1 prev.1 - span
    (max 0 (q + d), gr + ((1000 * d).tdiv span - gr).tdiv (2 ^ shift))

def groupSteps (shift : Nat) : List (List Reported) → Option (Nat × Nat) → Int → Int → Option (Nat × Nat) × Int × Int
  | [], prev, q, gr => (prev, q, gr)
  | g :: gs, prev, q, gr =>
    match prev, groupEnd g with
    | some p, some c => let r := groupStep shift p c q gr; groupSteps shift gs (some c) r.1 r.2
    | _, c => groupSteps shift gs c q gr

/-- Span of the reported arrivals in µs, at least 1. -/
def arrSpan (as_ : List Nat) : Nat :=
  match as_ with
  | [] => 1
  | a :: r =>
    let ds := (a :: r).map (fun x => arrDiff x a)
    max 1 (ds.foldl max 0 - ds.foldl min 0).toNat

/-- An RFC 8888 report (R129). -/
def ccfbReport (l : Nat) (p : List Byte) (s : State) : State :=
  let s := feedbackArrives l s
  let g := legAt l s
  let rts := (beAt p (p.length - 4) 4 * 1000000 + 32768) / 65536
  let rs := ccfbBlocks g.log rts p.length ((p.drop 8).take (p.length - 12))
  if rs.isEmpty then s
  else
    let ref := (rs.headD default).dep
    let rs := rs.mergeSort (fun a b => decide (cmpDiff a.dep ref ≤ cmpDiff b.dep ref))
    let t := groupSteps (fld g.wEst 29 27) (groupsFrom (fld g.wEst 26 13 * 1000) rs.length rs) g.lastGroup g.qUs g.gPm
    let got := rs.filter (fun r => r.arr.isSome)
    let recv := 8 * (got.map (·.len)).sum / arrSpan (got.filterMap (·.arr)) * 1000
    let loss := 1000 * (rs.length - got.length) / rs.length
    let s := setLeg l { g with lastGroup := t.1, qUs := t.2.1, gPm := t.2.2 } s
    let s := estimateStep l t.2.1.toNat t.2.2.toNat recv loss ((nowNs s - g.lastReport) / 1000000) (fld g.wEst 93 85)
      (decide (t.2.2 < -(fld g.wEst 38 30 : Int))) s
    endReport l 1 s

/-- RTT from LSR and DLSR (R130): the time since the sender report that LSR names, less DLSR, with weight 1/8. -/
def rttUpdate (l ssrc lsr dlsr : Nat) (s : State) : State :=
  let g := legAt l s
  match g.srSent.find? (fun x => x.1 == ssrc && x.2.1 == lsr) with
  | none => s
  | some x =>
    let r : Nat := (nowNs s - x.2.2) / 1000 - dlsr * 1000000 / 65536
    let old : Int := g.rttUs
    let new := if g.rttUs = 0 then r else (old + ((r : Int) - old).tdiv 8).toNat
    setLeg l { g with rttUs := min new (2 ^ 32 - 1) } s

/-- The report blocks of an RR: SSRC as a field, fraction lost, LSR, DLSR. -/
def rrBlocks (p : List Byte) : List (Nat × Nat × Nat × Nat) :=
  (List.range (min (rtcpFmt p) ((p.length - 8) / 24))).map (fun k =>
    let o := 8 + 24 * k
    (leAt p o 4, byteAt p (o + 4), beAt p (o + 16) 4, beAt p (o + 20) 4))

/-- A receiver report (R130): its largest fraction lost counts. Once RFC 8888 reports have come it only gives the RTT. -/
def rrReport (l : Nat) (subs : List Nat) (p : List Byte) (s : State) : State :=
  let bs := (rrBlocks p).filter (fun b => (subOfSsrc subs b.1 s).isSome)
  if bs.isEmpty then s
  else
    let s := feedbackArrives l s
    let s := bs.foldl (fun s b => if b.2.2.1 = 0 then s else rttUpdate l b.1 b.2.2.1 b.2.2.2 s) s
    let g := legAt l s
    if g.fbMode = 1 then s
    else
      let dt := nowNs s - g.lastReport
      let loss := (bs.map (·.2.1)).foldl max 0 * 1000 / 256
      let recv := 8 * g.sentSince / max 1 (dt / 1000) * 1000
      endReport l 2 (estimateStep l 0 0 recv loss (dt / 1000000) (fld g.wEst 119 112) false s)

/-- FB_TIMEOUT (R131). -/
def fbTimeoutDo (l : Nat) (s : State) : State :=
  let g := legAt l s
  if (identOf .leg l s).used && decide (g.fbTimer + fld g.wEst 12 0 * 1000000 ≤ nowNs s) then
    setEst l (max (g.est / 2) g.minKbps) (setLeg l { g with estState := 3, timedOut := true, fbTimer := nowNs s } s)
  else s

def execFbTimeout (leg : Nat) (s : State) : Outcome := onWf (.fbTimeout leg) (fbTimeoutDo leg s)

/-! ## Repair (R136) -/

/-- The largest extended sequence number that leaves as M, by the change points, latest first; `hi` is the last number under the first
of them. The numbers withheld just before a change point leave as nothing. -/
def unmap (m : Nat) : List (Nat × Nat) → Nat → Option Nat
  | [], _ => none
  | (n, k) :: r, hi =>
    let x : Int := (hi : Int) - ((hi : Int) - k - m) % 65536
    if (n : Int) ≤ x then some x.toNat
    else
      let run := k - (r.headD (0, k)).2
      if n < run + 1 then none else unmap m r (n - 1 - run)

/-- An RTX copy per RFC 4588: the packet as it left, with the original sequence number before its payload. -/
def rtxPacket (v : Source) (b : Sub) (p : MediaPkt) (m : Nat) : List Byte :=
  let q := rewriteRtp v b (match b.frames.find? (fun f => f.ts == rtpTs p.bytes) with | some f => f.cur | none => b.cur) p m
  setSsrc (setPt (setSeq (q.take (rtpHdrLen q) ++ beBytes 2 m ++ q.drop (rtpHdrLen q)) b.rtxSeq) b.rtxPt) b.rtxSsrc

/-- Queue the RTX copy of packet n. -/
def sendRtx (j i n m : Nat) (p : MediaPkt) (s : State) : State :=
  let b := subAt j s
  let g := legAt b.leg s
  let q := rtxPacket (sourceAt i s) b p m
  let buf := s.media.nextBuf
  let c : Copy := { sub := handleFor .sub j s, leg := handleFor .leg b.leg s, rtx := true, packet := q, ssrc := b.rtxSsrc,
                    ext := n, buffer := buf, len := copyLen g false q.length s, stream := b.rtxSsrc % 2 ^ 20 }
  let s := setBuffer buf { wing := g.wing, bytes := q.length, at_ := nowNs s, copies := 0 } { s with media := { s.media with nextBuf := buf + 1 } }
  let r := pushCopy b.leg c s
  if r.1 = 0 then updSub j (fun b => { b with rtxSeq := (b.rtxSeq + 1) % 65536 }) r.2
  else { r.2 with media := { r.2.media with buffers := r.2.media.buffers.del buf } }

def nackMiss (j : Nat) (s : State) : State :=
  let l := (subAt j s).leg
  count (legCtr (legAt l s).wing 7) 1 (legCount l 4 1 s)

/-- An upstream NACK for N, at most once per 50 ms (R136, R138). -/
def upstreamNack (i n : Nat) (s : State) : State :=
  let v := sourceAt i s
  let live := v.upNacks.filter (fun x => decide (nowNs s < x.2 + 50000000))
  if live.any (fun x => x.1 == n) then s
  else sendUpstream i (rtcpNack (roomAt v.room s).bridgeSsrc v.ssrc n) (setSource i { v with upNacks := (n, nowNs s) :: live } s)

/-- RTX bytes of the last 100 ms are above RTX_PM of EST. -/
def rtxLimited (g : Leg) (now : Nat) : Bool :=
  let sum := ((g.rtxSent.filter (fun x => decide (now < x.1 + 100000000))).map (·.2)).sum
  decide (g.estKbps * 100 * g.rtxPm < sum * 8 * 1000)

/-- A Generic NACK for OUT_SEQ M on subscription j (R136). -/
def nackOne (j m : Nat) (s : State) : State :=
  let b := subAt j s
  let g := legAt b.leg s
  match b.sent.bind (unmap m b.changes), subSource j s with
  | some n, some i =>
    if !b.rtxEnable then nackMiss j s
    else if b.rtxDone.any (fun x => x.1 == n && decide (nowNs s < x.2 + max (2 * g.rttUs * 1000) 10000000)) then s
    else if rtxLimited g (nowNs s) then count (legCtr g.wing 6) 1 s
    else
      let r := historyRead i n s
      match r.1 with
      | some p => sendRtx j i n m p r.2
      | none => upstreamNack i n (nackMiss j r.2)
  | _, _ => nackMiss j s

/-- The sequence numbers of one NACK item: PID, and the set bits of BLP. -/
def nackSeqs (pid blp : Nat) : List Nat :=
  pid :: ((List.range 16).filter (fun k => blp.testBit k)).map (fun k => (pid + 1 + k) % 65536)

def nackPacket (subs : List Nat) (p : List Byte) (s : State) : State :=
  match subOfSsrc subs (leAt p 8 4) s with
  | none => s
  | some j =>
    let items := (List.range ((p.length - 12) / 4)).flatMap (fun k => nackSeqs (beAt p (12 + 4 * k) 2) (beAt p (14 + 4 * k) 2))
    items.foldl (fun s m => nackOne j m s) s

/-- A PLI or FIR from a leg (R137, R148). -/
def keyRequest (subs : List Nat) (fir : Bool) (ssrc : Nat) (s : State) : State :=
  match subOfSsrc subs ssrc s with
  | none => s
  | some j =>
    let s := legCount (subAt j s).leg 6 1 s
    match subSource j s with
    | some i => kfRequest i fir s
    | none => s

def firPacket (subs : List Nat) (p : List Byte) (s : State) : State :=
  ((List.range ((p.length - 12) / 8)).map (fun k => leAt p (12 + 8 * k) 4)).foldl (fun s x => keyRequest subs true x s) s

/-! ## Feedback on a leg -/

/-- One RTCP packet from a leg's receiver: feedback selects among `subs`. -/
def legRtcp (l : Nat) (subs : List Nat) (p : List Byte) (s : State) : State :=
  let t := rtcpType p
  let f := rtcpFmt p
  if t = 201 then rrReport l subs p s
  else if t = 205 ∧ f = 11 then ccfbReport l p s
  else if t = 205 ∧ f = 1 then nackPacket subs p s
  else if t = 206 ∧ f = 1 then keyRequest subs false (leAt p 8 4) s
  else if t = 206 ∧ f = 4 then firPacket subs p s
  else s

/-! ## Sender reports of a source (R99) -/

/-- Each subscription that is not OFF sends its leg a reduced-size sender report. Tremund legs carry none: a FEEDBACK frame
holds NACK, PLI and FIR alone (R338). -/
def forwardSr (j : Nat) (ntp ts : Nat) (s : State) : State :=
  let b := subAt j s
  let g := legAt b.leg s
  if b.cur.isNone ∨ g.kind = 1 then s
  else
    let q := rtcpSr b.ssrc ntp ts b.packets b.octets
    let c : Copy := { sub := handleFor .sub j s, leg := handleFor .leg b.leg s, rtcp := true, packet := q, ssrc := b.ssrc, ext := 0,
                      buffer := 0, len := copyLen g true q.length s }
    (pushCopy b.leg c s).2

/-- A sender report of source i is accepted. -/
def sourceSr (i : Nat) (p : List Byte) (s : State) : State :=
  let s := updSource i (fun v => { v with srSeen := true, srNtp := beAt p 8 8, srTs := beAt p 16 4 }) s
  (sourceSubs i s).foldl (fun s j => forwardSr j (beAt p 8 8) (beAt p 16 4) s) s

end Sys2Proof.Machine
end

