-- ==== Sys2Proof/Machine/LayerSel.lean ====
section
/-! DEFINITION. Layer selection and port pressure (R132-R135). -/

namespace Sys2Proof.Machine

/-- A layer choice: S, T, Q. -/
abbrev Choice := Nat × Nat × Nat

def below (a b : Choice) : Bool := decide (a.1 ≤ b.1) && decide (a.2.1 ≤ b.2.1) && decide (a.2.2 ≤ b.2.2)

/-- Rate of a choice in kbit/s: every layer at or below it in each dimension, over the last ten whole 50 ms bins (R132). -/
def choiceRate (v : Source) (bin : Nat) (c : Choice) : Nat :=
  let bs := v.bins.filter (fun b => decide (bin ≤ b.bin + 10) && decide (b.bin < bin) && below (b.s, b.t, b.q) c)
  (bs.map (·.bytes)).sum * 8 / 500

/-- A rung's place: rate first, then S, Q, T. -/
def rungKey (x : Nat × Choice) : Nat := ((x.1 * 8 + x.2.1) * 8 + x.2.2.2) * 8 + x.2.2.1

/-- A source's ladder: the choices seen in the last 2 s, in ascending cumulative rate. -/
def ladder (v : Source) (now : Nat) : List (Nat × Choice) :=
  let bin := now / 50000000
  let seen := ((v.bins.filter (fun b => decide (bin ≤ b.bin + 40))).map (fun b => (b.s, b.t, b.q))).eraseDups
  (seen.map (fun c => (choiceRate v bin c, c))).mergeSort (fun a b => decide (rungKey a ≤ rungKey b))

/-- A subscription under selection: its index, its ladder, its present choice as a rung, and the rung chosen. -/
structure Pick where
  sub : Nat
  rungs : List (Nat × Choice)
  cur : Option (Nat × Choice)
  lo : Choice
  hi : Choice
  target : Option (Nat × Choice) := none
  deriving DecidableEq, Repr, Inhabited

def inBounds (p : Pick) (c : Choice) : Bool := below p.lo c && below c p.hi

/-- Minimums first: the lowest rung at or above the subscription's minimum. -/
def pickMin (p : Pick) (budget : Nat) : Pick × Nat :=
  match p.rungs.find? (fun r => inBounds p r.2) with
  | none => (p, budget)
  | some r => if r.1 ≤ budget then ({ p with target := some r }, budget - r.1) else (p, budget)

def pickMins : List Pick → Nat → List Pick × Nat
  | [], b => ([], b)
  | p :: ps, b =>
    let r := pickMin p b
    let t := pickMins ps r.2
    (r.1 :: t.1, t.2)

/-- The rung lies above the present one on the ladder; any rung lies above OFF. -/
def aboveCur (cur : Option (Nat × Choice)) (c : Nat × Choice) : Bool :=
  match cur with
  | none => true
  | some k => decide (rungKey k < rungKey c)

/-- Raise one subscription over the rungs that follow, until one does not fit. -/
def raise : List (Nat × Choice) → Option (Nat × Choice) → Nat × Choice → Nat → (Nat × Choice) × Nat
  | [], _, t, b => (t, b)
  | c :: cs, cur, t, b =>
    let extra := c.1 - t.1
    let check := if aboveCur cur c then extra * 1100 / 1000 else extra
    if b < check then (t, b) else raise cs cur c (b - extra)

def pickRaise (p : Pick) (b : Nat) : Pick × Nat :=
  match p.target with
  | none => (p, b)
  | some t =>
    let above := (p.rungs.drop (p.rungs.idxOf t + 1)).filter (fun r => inBounds p r.2)
    let r := raise above p.cur t b
    ({ p with target := some r.1 }, r.2)

def pickRaises : List Pick → Nat → List Pick × Nat
  | [], b => ([], b)
  | p :: ps, b =>
    let r := pickRaise p b
    let t := pickRaises ps r.2
    (r.1 :: t.1, t.2)

/-- Unpaused subscriptions of the leg by priority, then by handle index. -/
def selectable (l : Nat) (s : State) : List Nat :=
  (((legSubs l s).filter (fun c => !c.2.paused)).mergeSort (fun a b => decide (a.2.prio * 2 ^ 32 + a.1 ≤ b.2.prio * 2 ^ 32 + b.1))).map (·.1)

def pickOf (j : Nat) (s : State) : Pick :=
  let b := subAt j s
  let v : Source := match subSource j s with
    | some i => sourceAt i s
    | none => {}
  { sub := j, rungs := ladder v (nowNs s), cur := b.cur.map (fun c => (choiceRate v (nowNs s / 50000000) c, c)), lo := b.minL,
    hi := b.maxL }

/-- The change asks for a switch point with S = 0: S or Q up, or OFF to on (R133). -/
def wantsKey (cur tgt : Option Choice) : Bool :=
  match cur, tgt with
  | none, some _ => true
  | some c, some t => decide (c.1 < t.1) || decide (c.2.2 < t.2.2)
  | _, none => false

/-- Mark a subscription with the target found: pending down at once, pending up after UP_HOLD × 50 ms without a break. A
pending up-switch of S or Q, or OFF to on, requests a keyframe. -/
def applyPick (upHoldNs : Nat) (p : Pick) (s : State) : State :=
  let b := subAt p.sub s
  let t := p.target.map (·.2)
  if t = b.cur then setSub p.sub { b with target := t, pend := 0, upSince := none } s
  else if t.isNone || (match p.target with | some r => !aboveCur p.cur r | none => false) then setSub p.sub { b with target := t, pend := 2, upSince := none } s
  else
    let since := b.upSince.getD (nowNs s)
    if since + upHoldNs ≤ nowNs s then
      let fresh := b.pend != 3 || b.target != t
      let s := setSub p.sub { b with target := t, pend := 3, upSince := some since } s
      if fresh && wantsKey b.cur t then
        match subSource p.sub s with
        | some i => kfRequest i false s
        | none => s
      else s
    else setSub p.sub { b with target := t, pend := 0, upSince := some since } s

/-- The minimum of the subscription does not fit. -/
def starves (p : Pick) : Bool := p.target.isNone && p.rungs.any (fun r => inBounds p r.2)

/-- A subscription that turns OFF because its minimum does not fit: one "leg starved" item names it (R132). -/
def noteStarved (l : Nat) (p : Pick) (s : State) : State :=
  let g := legAt l s
  if !starves p then updSub p.sub (fun b => { b with starved := false }) s
  else if (subAt p.sub s).starved || p.cur.isNone then s
  else
    enginePost 0x04 (192 + g.wing) g.fn 0 (BitVec.ofNat 128 (handleFor .leg l s)) (BitVec.ofNat 128 (handleFor .sub p.sub s))
      (updSub p.sub (fun b => { b with starved := true }) s)

/-- The selection of R132 for one leg. -/
def selectLayers (l : Nat) (s : State) : State :=
  let g := legAt l s
  let s := setLeg l { g with selAt := nowNs s, selDue := false } s
  let budget := g.estKbps * (1000 - g.headroom - g.pressure) / 1000
  let m := pickMins ((selectable l s).map (fun j => pickOf j s)) budget
  let r := pickRaises m.1 m.2
  let s := r.1.foldl (fun s p => applyPick (g.upHold * 50000000) p s) s
  r.1.foldl (fun s p => noteStarved l p s) s

/-! ## Port pressure (R135) -/

/-- The legs of a port of one priority class. -/
def classLegs (p c : Nat) (s : State) : List Nat := (portLegs p s).filter (fun l => (legAt l s).prio == c)

/-- The class that pressure raises: 3 first, then 2, 1, 0, each when the lower one is at 500 ‰. -/
def raiseClass (p : Nat) (s : State) : Option Nat :=
  [3, 2, 1, 0].find? (fun c => (classLegs p c s).any (fun l => decide ((legAt l s).pressure < 500)))

/-- The class that falls: the highest priority that has any. -/
def fallClass (p : Nat) (s : State) : Option Nat :=
  [0, 1, 2, 3].find? (fun c => (classLegs p c s).any (fun l => decide (0 < (legAt l s).pressure)))

/-- A 50 ms pass moves PRESSURE_PM: up where the backlog has exceeded 200 µs for 10 ms without a break, down where it has stayed
below 50 µs since the pass before. The pass of a port is one with the selection of its lowest leg (log entry 26). -/
def pressurePass (p : Nat) (s : State) : State :=
  let s := notePort p s
  let e := egressAt p s
  let s := setEgress p { e with reached50 := false } s
  if (match e.overSince with | none => false | some t => decide (t + 10000000 ≤ nowNs s)) then
    match raiseClass p s with
    | none => s
    | some c => (classLegs p c s).foldl (fun s l => updLeg l (fun g => { g with pressure := min (g.pressure + 100) 500 }) s) s
  else if e.reached50 then s
  else
    match fallClass p s with
    | none => s
    | some c => (classLegs p c s).foldl (fun s l => updLeg l (fun g => { g with pressure := g.pressure - 50 }) s) s

/-- LAYER_SELECTION (R132): every 50 ms, and when EST or bounds have changed. -/
def layerSelectionDo (l : Nat) (s : State) : State :=
  let g := legAt l s
  if !(identOf .leg l s).used then s
  else if g.selAt + 50000000 ≤ nowNs s then
    selectLayers l (if (portLegs g.lane s).head? = some l then pressurePass g.lane s else s)
  else if g.selDue then
    -- a selection out of turn leaves the 50 ms grid as it is
    updLeg l (fun v => { v with selAt := g.selAt }) (selectLayers l s)
  else s

def execLayerSelection (leg : Nat) (s : State) : Outcome := onWf (.layerSelection leg) (layerSelectionDo leg s)

end Sys2Proof.Machine
end

