-- ==== Sys2Proof/Machine/Units.lean ====
section
/-! DEFINITION. NAL units and OBUs in RTP packets: what a unit's packets carry, what a decoder ignores, and the packets that an
encoder and a stitcher write (R179, R198, R255; RFC 6184 mode 1, RFC 7798 and the AV1 RTP payload format, log entry 144). -/

namespace Sys2Proof.Machine

/-! ## From packets to units -/

/-- A packet's pieces of units: whether the first goes on from the packet before, and whether the last goes on in the next. -/
structure Pieces where
  goesOn : Bool := false
  parts : List (List Byte) := []
  unfinished : Bool := false
  deriving DecidableEq, Repr, Inhabited

def h264Pieces (p : List Byte) : Pieces :=
  let t := byteAt p 0 % 32
  if t = 24 then { parts := aggregated p.length (p.drop 1) }
  else if t = 28 then
    let start := decide (128 ≤ byteAt p 1)
    { goesOn := !start, unfinished := byteAt p 1 / 64 % 2 == 0,
      parts := [if start then BitVec.ofNat 8 (byteAt p 0 / 32 * 32 + byteAt p 1 % 32) :: p.drop 2 else p.drop 2] }
  else { parts := [p] }

def h265Pieces (p : List Byte) : Pieces :=
  let t := byteAt p 0 / 2 % 64
  if t = 48 then { parts := aggregated p.length (p.drop 2) }
  else if t = 49 then
    let start := decide (128 ≤ byteAt p 2)
    let head := [BitVec.ofNat 8 (byteAt p 0 / 128 * 128 + byteAt p 2 % 64 * 2 + byteAt p 0 % 2), BitVec.ofNat 8 (byteAt p 1)]
    { goesOn := !start, unfinished := byteAt p 2 / 64 % 2 == 0, parts := [if start then head ++ p.drop 3 else p.drop 3] }
  else { parts := [p] }

def av1Pieces (p : List Byte) : Pieces :=
  let a := byteAt p 0
  { goesOn := decide (128 ≤ a), unfinished := a / 64 % 2 == 1, parts := obuElems p.length (a / 16 % 4) (p.drop 1) }

def piecesOf (codec : Nat) (p : List Byte) : Pieces :=
  if codec = 0 then h264Pieces p else if codec = 1 then h265Pieces p else av1Pieces p

/-- The units that packets carry, by extended sequence number. A unit with a gap in its packets is discarded (R198); `open_` is
one that goes on at a number. -/
def joinPieces : Option (Nat × List Byte) → List (Nat × Pieces) → List (List Byte)
  | _, [] => []
  | open_, (ext, p) :: r =>
    let parts := if !p.goesOn then p.parts
      else match open_, p.parts with
        | some (e, bs), x :: xs => if e = ext then (bs ++ x) :: xs else xs
        | _, xs => xs.drop 1
    if p.unfinished then parts.dropLast ++ joinPieces (parts.getLast?.map (fun x => (ext + 1, x))) r
    else parts ++ joinPieces none r

def unitsOf (codec : Nat) (ps : List MediaPkt) : List (List Byte) :=
  joinPieces none (ps.map (fun p => (p.ext, piecesOf codec (rtpPayload p.bytes))))

/-! ## What a decoder ignores (R179) -/

/-- An H.264 SVC NAL unit (type 14 or 20) of an enhancement layer. -/
def svcEnhancement (n : List Byte) : Bool :=
  let t := byteAt n 0 % 32
  (t == 14 || t == 20) && (byteAt n 2 / 16 % 8 != 0 || byteAt n 2 % 16 != 0)

/-- The unit is ignored: SEI messages; enhancement layers of FORMAT 1; nuh_layer_id above 0; metadata OBUs, and OBUs outside the
operating point whose operating_point_idc is `idc`. -/
def ignored (codec format idc : Nat) (n : List Byte) : Bool :=
  if codec = 0 then byteAt n 0 % 32 == 6 || (format == 1 && svcEnhancement n)
  else if codec = 1 then
    byteAt n 0 / 2 % 64 == 39 || byteAt n 0 / 2 % 64 == 40 || byteAt n 0 % 2 * 32 + byteAt n 1 / 8 != 0
  else
    byteAt n 0 / 8 % 16 == 5
      || (byteAt n 0 / 8 % 16 != 1 && byteAt n 0 / 4 % 2 == 1 && idc != 0
          && !(idc.testBit (byteAt n 1 / 32) && idc.testBit (8 + byteAt n 1 / 8 % 4)))

/-- The features that R179 refuses in each codec. -/
def refusedFeatures (codec : Nat) : List Config.Feature :=
  if codec = 0 then [.fieldPicture, .mbaff, .fmo, .aso, .redundantSlices, .spSlice, .siSlice, .depthAbove8, .chromaFormat]
  else if codec = 1 then [.rangeExtension, .screenContent, .multiview, .scalable, .chromaFormat]
  else [.seqProfile1, .seqProfile2, .largeScaleTile]

/-! ## From units to payloads (R255) -/

/-- Cut bytes into pieces of at most `n`. -/
def cutBytes (n : Nat) : Nat → List Byte → List (List Byte)
  | 0, _ => []
  | k + 1, bs => if bs.length ≤ n then [bs] else bs.take n :: cutBytes n k (bs.drop n)

/-- Pieces with whether each is the first and the last. -/
def marked (ps : List (List Byte)) : List (List Byte × Bool × Bool) :=
  ps.zipIdx.map (fun x => (x.1, x.2 == 0, x.2 + 1 == ps.length))

/-- FU-A of RFC 6184. -/
def h264Payloads (n : Nat) (u : List Byte) : List (List Byte) :=
  if u.length ≤ n then [u]
  else (marked (cutBytes (n - 2) u.length (u.drop 1))).map (fun x =>
    [BitVec.ofNat 8 (byteAt u 0 / 32 * 32 + 28), BitVec.ofNat 8 (b2n x.2.1 * 128 + b2n x.2.2 * 64 + byteAt u 0 % 32)] ++ x.1)

/-- Fragmentation units of RFC 7798. -/
def h265Payloads (n : Nat) (u : List Byte) : List (List Byte) :=
  if u.length ≤ n then [u]
  else (marked (cutBytes (n - 3) u.length (u.drop 2))).map (fun x =>
    [BitVec.ofNat 8 (byteAt u 0 / 128 * 128 + 98 + byteAt u 0 % 2), BitVec.ofNat 8 (byteAt u 1),
     BitVec.ofNat 8 (b2n x.2.1 * 128 + b2n x.2.2 * 64 + byteAt u 0 / 2 % 64)] ++ x.1)

/-- OBU fragments: one element to a packet (W is 1), Z on those that go on, Y on those that are to be continued, N on the first
packet of a coded video sequence. -/
def av1Payloads (n : Nat) (newSequence : Bool) (u : List Byte) : List (List Byte) :=
  (marked (cutBytes (n - 1) (u.length + 1) u)).map (fun x =>
    BitVec.ofNat 8 (b2n (!x.2.1) * 128 + b2n (!x.2.2) * 64 + 16 + b2n (newSequence && x.2.1) * 8) :: x.1)

/-- The payloads of a unit, none above `n` bytes. -/
def payloadsOf (codec n : Nat) (newSequence : Bool) (u : List Byte) : List (List Byte) :=
  if codec = 0 then h264Payloads n u else if codec = 1 then h265Payloads n u else av1Payloads n newSequence u

/-! ## Headers of units -/

/-- A NAL unit of H.264: nal_ref_idc and type before its body. -/
def h264Nal (refIdc type : Nat) (body : List Byte) : List Byte := BitVec.ofNat 8 (refIdc % 4 * 32 + type % 32) :: body

/-- The prefix NAL unit (type 14) of a coded slice in temporal layer t: base layer, not discardable by it, with no more to say. -/
def h264Prefix (refIdc t : Nat) (idr : Bool) : List Byte :=
  h264Nal refIdc 14 ([BitVec.ofNat 8 (128 + b2n idr * 64), 0x80, BitVec.ofNat 8 (t % 8 * 32 + b2n (refIdc == 0) * 8 + 7)]
    ++ (if refIdc = 0 then [] else [0x20]))

/-- A NAL unit of H.265 in layer 0: type and nuh_temporal_id_plus1. -/
def h265Nal (type t : Nat) (body : List Byte) : List Byte := [BitVec.ofNat 8 (type % 64 * 2), BitVec.ofNat 8 (t % 7 + 1)] ++ body

/-- An OBU with its extension header and without a size. -/
def obu (type s t : Nat) (body : List Byte) : List Byte := [BitVec.ofNat 8 (type % 16 * 8 + 4), BitVec.ofNat 8 (t % 8 * 32 + s % 4 * 8)] ++ body

end Sys2Proof.Machine
end

