-- ==== Sys2Proof/Machine/VideoDecode.lean ====
section
/-! DEFINITION. Video decode: frame pools, decode contexts, pictures, concealment, repair and records (R179-R207). -/

namespace Sys2Proof.Machine

/-! ## Tiles -/

/-- BAR0 offset of a tile's page (R207). -/
def tileOff (t r : Nat) : Nat := 0x01800000 + t / 128 * 0x01000000 + t % 128 * 0x1000 + r
def tileCtr (t c : Nat) : Nat := tileOff t (0x40 + c * 8)

/-- The module's tiles that commands of role quantity `r` may choose in partition p, among `ts`: of that role, active and not
fenced. -/
def roleTiles (p r : Nat) (ts : List Nat) (s : State) : List Nat :=
  let mask := ((partOf? p s).map (·.tgMask)).getD 0
  ts.filter (fun t =>
    let g := groupOf (t / 8) s
    mask.testBit (t / 8) && g.role == roleOfQty r && g.state == 1 && !g.fenced.testBit (t % 8))

def wingTiles (w : Nat) : List Nat := (List.range 128).map (w * 128 + ·)

/-- The partition's factor of role quantity `r` (R56). -/
def factorOf (p r : Nat) (s : State) : Nat := (s.power.factors.get p []).getD (factorIdx r) 0

/-- The tile with the least committed load, ties to the lower number. -/
def leastLoaded (loadOf : Nat → Nat) : List Nat → Option Nat
  | [] => none
  | t :: ts =>
    match leastLoaded loadOf ts with
    | none => some t
    | some u => if loadOf u < loadOf t then some u else some t

/-- Check 1 of R182 for the partition: the Control bit in its table. With no image loaded there is no partition to check, and a
command that adds load finds no capacity (R76). -/
def partControl (r : Req) (p : Nat) (s : State) : Bool × State :=
  if s.fab.noImage then (true, s) else accCheck tgPartition p r.master bitControl s

/-! ## Frame pools (R186-R190) -/

def decAt (c : Nat) (s : State) : DecCtx := s.video.decs.get c {}
def setDec (c : Nat) (v : DecCtx) (s : State) : State := { s with video := { s.video with decs := s.video.decs.set c v } }
def updDec (c : Nat) (f : DecCtx → DecCtx) (s : State) : State := setDec c (f (decAt c s)) s
def decList (s : State) : List (Nat × DecCtx) := s.video.decs.toList.filter (fun c => (identOf .decCtx c.1 s).used)
def encAt (c : Nat) (s : State) : EncCtx := s.video.encs.get c {}
def setEnc (c : Nat) (v : EncCtx) (s : State) : State := { s with video := { s.video with encs := s.video.encs.set c v } }
def updEnc (c : Nat) (f : EncCtx → EncCtx) (s : State) : State := setEnc c (f (encAt c s)) s
def encList (s : State) : List (Nat × EncCtx) := s.video.encs.toList.filter (fun c => (identOf .encCtx c.1 s).used)

/-- The function has a context on the Wing. -/
def poolInUse (k : Nat) (s : State) : Bool :=
  (decList s).any (fun c => poolKey c.2.wing c.2.fn == k) || (encList s).any (fun c => c.2.pool == k)

/-- Detail of VID_POOL_SET (R203). -/
def poolDetail (k : Nat) (s : State) : Nat :=
  packNat [(8, 14, (poolAt k s).held.length), (22, 14, (freeBufs k s).length), (36, 28, poolRoom (k / 64) s / 2 ^ 20)]

/-- The lowest indexes that a pool does not hold. -/
def newIndexes (held : List Nat) (n : Nat) : List Nat := ((List.range 16384).filter (fun i => !held.contains i)).take n

/-- A pool `u` under the settings `g`, with new buffers up to what is wanted; wanting none leaves the rest as it is. -/
def grownPool (g u : Pool) : Pool :=
  let v := if g.want = 0 then { u with want := 0 } else { g with held := u.held, regions := u.regions, was := u.was }
  { v with held := v.held ++ newIndexes (v.held ++ v.was.flatMap (·.1)) (g.want - v.held.length) }

/-- Pool `k` of `s0` becomes `g`; `s` is the state to which a refusal goes back. -/
def fillPool (k : Nat) (g : Pool) (s0 s : State) : Answer :=
  if (freeRegions (k / 64) s0).length < regionsFor g - g.regions.length then answer s (refuse stCapacity 0x0B)
  else
    let s := trimPool k (takeRegions k (setPool k g s0))
    answer s (okVia (k / 64) (poolDetail k s) s)

/-- VID_POOL_SET (R186, R203). -/
def poolSetBody (r : Req) (s : State) : Answer :=
  let k := poolKey (df r.w1 1 0) (df r.w1 13 8)
  let n := df r.w1 29 16
  let g : Pool := { want := n, bufW := df r.w1 38 32 * 64, bufH := df r.w1 46 40 * 64, deep := bitOf r.w1 48 }
  let v := poolAt k s
  let same := v.bufW == g.bufW && v.bufH == g.bufH && v.deep == g.deep
  if !r.owner && df r.w1 13 8 != r.fn then answer s (refuse stRefused 0x09)
  else if bitOf r.w1 63 then answer s (okVia (k / 64) (poolDetail k s) s)
  else if n ≠ 0 ∧ (df r.w1 38 32 < 1 ∨ 64 < df r.w1 38 32 ∨ df r.w1 46 40 < 1 ∨ 36 < df r.w1 46 40) then
    answer s (refuse stNotStarted 0x01)
  else if poolInUse k s && (n == 0 || !same) then answer s (refuse stNotStarted 0x0A)
  else
    let s0 := if same || n = 0 then s else retireGeometry k s
    fillPool k (grownPool g (poolAt k s0)) s0 s

def execVidPoolSet (src : CmdSrc) (s : State) : Outcome :=
  onWf (.vidPoolSet src) (command 0x70 (strictly ([(1, 0), (13, 8), (29, 16), (38, 32), (46, 40), (48, 48), (63, 63)], [], []) poolSetBody) src s)

/-! ## Contexts (R182-R185, R201-R205) -/

def DecCtx.maxW (v : DecCtx) : Nat := fld v.w2 12 0
def DecCtx.maxH (v : DecCtx) : Nat := fld v.w2 24 13
def DecCtx.fps (v : DecCtx) : Nat := fld v.w2 32 25
def DecCtx.deep (v : DecCtx) : Bool := bitOf v.w2 33
def DecCtx.level (v : DecCtx) : Nat := fld v.w2 41 34
def DecCtx.opPoint (v : DecCtx) : Nat := fld v.w2 46 42
def DecCtx.mode (v : DecCtx) : Nat := fld v.w2 49 48

/-- Largest picture of each level, from the codecs' own level tables (log entry 29): MaxFS × 256, MaxLumaPs, MaxPicSize. -/
def levelTable (codec : Nat) : List (Nat × Nat) :=
  if codec = 0 then
    [(10, 25344), (11, 101376), (21, 202752), (22, 414720), (31, 921600), (32, 1310720), (40, 2097152), (42, 2228224),
     (50, 5652480), (51, 9437184)]
  else if codec = 1 then
    [(10, 36864), (20, 122880), (21, 245760), (30, 552960), (31, 983040), (40, 2228224), (50, 8912896)]
  else [(20, 147456), (21, 278784), (30, 665856), (31, 1065024), (40, 2359296), (50, 8912896)]

/-- P_L of a level (R194). -/
def levelPic (codec level : Nat) : Nat :=
  (((levelTable codec).filter (fun e => decide (e.1 ≤ level))).map (·.2)).foldl max 0

/-- The fields of VID_DEC_CREATE are in range (R202). -/
def decFine (codec : Nat) (v : DecCtx) : Bool :=
  let r := fun x lo hi => decide (lo ≤ x) && decide (x ≤ hi)
  decide (codec < 3) && v.mode != 3 && r v.maxW 16 4096 && r v.maxH 16 2304 && r v.fps 1 240
    && r v.level 10 (if codec = 0 then 52 else 51) && (codec == 2 || v.opPoint == 0) && (codec != 0 || !v.deep)
    && decide (v.maxW * v.maxH ≤ levelPic codec v.level)

/-- The source FORMAT belongs to CODEC. -/
def formatOf (codec format : Nat) : Bool :=
  if codec = 0 then decide (format ≤ 1) else if codec = 1 then format == 2 else format == 3

/-- A pool's buffers hold w × h at a depth. -/
def poolHolds (v : Pool) (w h : Nat) (deep : Bool) : Bool :=
  !v.held.isEmpty && decide (w ≤ v.bufW) && decide (h ≤ v.bufH) && (!deep || v.deep)

def decLoadOf (t : Nat) (s : State) : Nat := (((decList s).filter (fun c => c.2.tile == t)).map (·.2.load)).sum
def decCountOf (t : Nat) (s : State) : Nat := ((decList s).filter (fun c => c.2.tile == t)).length

/-- The tile that R182 chooses. -/
def decTile (p w load : Nat) (s : State) : Option Nat :=
  leastLoaded (fun t => decLoadOf t s) ((roleTiles p 0 (wingTiles w) s).filter (fun t =>
    decide (decCountOf t s < 128) && decide (decLoadOf t s + load ≤ 2000 * factorOf p 0 s / 1000)))

/-- The module's declared decode, and encode, contexts. -/
def declaredDec (s : State) : Nat := (s.fab.parts.toList.map (·.2.decCtx)).sum
def declaredEnc (s : State) : Nat := (s.fab.parts.toList.map (·.2.encCtx)).sum

/-- A record queue that a command names, where it needs one: what refuses it (R397). -/
def recordQueueRefusal (r : Req) (mode h : Nat) (s : State) : Option Reply :=
  if mode = 0 then none
  else match resolveQueue r h s with
    | .ok => none
    | .bad => some (refuse stRefused 0xF2)
    | .stale => some ⟨stStale, 0, 0⟩

/-- Checks 2 to 6 of R182 and the creation. -/
def decAdmit (v : DecCtx) (i : Nat) (s : State) : Answer :=
  let x := sourceAt i s
  if !formatOf v.codec x.format then answer s (refuse stNotStarted 0x02)
  else if x.forwardOnly then answer s (refuse stNotStarted 0x03)
  else if x.jit.isNone then answer s (refuse stNotStarted 0x04)
  else if !poolHolds (poolAt (poolKey v.wing v.fn) s) v.maxW v.maxH v.deep then answer s (refuse stNotStarted 0x05)
  else if !fits v.part 0 v.load s then answer s ⟨stCapacity, 0, 0x06 + liveOf v.part 0 s % 2 ^ 32 * 256⟩
  else if ((partOf? v.part s).map (·.decCtx)).getD 0 ≤ ((decList s).filter (fun c => c.2.part == v.part)).length then
    answer s (refuse stCapacity 0x07)
  else match lowestFree .decCtx 0 (declaredDec s) s with
    | none => answer s (refuse stCapacity 0x07)
    | some c =>
      match decTile v.part v.wing v.load s with
      | none => answer s (refuse stCapacity 0x08)
      | some t =>
        let det := packNat [(8, 32, liveOf v.part 0 s), (40, 15, c), (55, 9, t)]
        let v := { v with tile := t, format := x.format, born := s.video.nextBorn, bucket := 2 * v.maxW * v.maxH * 1000000000, bucketAt := nowNs s }
        let s := { s with video := { s.video with nextBorn := s.video.nextBorn + 1 } }
        let s := addWork t (addLoad v.part 0 v.load (setDec c v (allocId .decCtx c s)))
        viaPair x.wing v.wing (answer (updSource i (fun x => { x with readers := x.readers + 1 }) s) (okVia v.wing det s))

/-- VID_DEC_CREATE (R182, R202, R203). -/
def decCreateBody (r : Req) (s : State) : Answer :=
  let codec := df r.w1 75 74
  let v : DecCtx := { fn := reqFn r, part := df r.w1 69 64, wing := df r.w1 73 72, source := handleIn (df r.w1 63 0), codec := codec,
                      w2 := r.w2, recQueue := df r.w3 63 0 }
  let v := { v with load := ceilDiv (v.maxW * v.maxH * v.fps) 1000000 }
  if !decFine codec v then answer s (refuse stNotStarted 0x01)
  else match resolve .source v.source s with
    | .refused => answer s (refuse stRefused 0)
    | .stale => answer (count (ingCtr (sourceAt (handleIdx v.source) s).wing 9) 1 s) ⟨stStale, 0, 0⟩
    | .ok i =>
      let ctl := partControl r v.part s
      if !(r.owner || (sourceAt i s).fn == r.fn) then answer s (refuse stRefused 0x09)
      else if !ctl.1 then answer ctl.2 (refuse stRefused 0x09)
      else match recordQueueRefusal r v.mode v.recQueue s with
        | some x => queueRefused v.recQueue x s
        | none => decAdmit v i s

def execVidDecCreate (src : CmdSrc) (s : State) : Outcome :=
  onWf (.vidDecCreate src) (command 0x71 (strictly ([(69, 0), (75, 72)], [(49, 48), (46, 0)], [(63, 0)]) decCreateBody) src s)

/-- The context that a command names, for its owner and PF0 (R201). -/
def withDec (c : Nat) (r : Req) (s : State) (f : Nat → Answer) : Answer :=
  if (identOf .decCtx c s).used && (r.owner || (decAt c s).fn == r.fn) then viaWing (decAt c s).wing (f c) else answer s (refuse stRefused 0x09)

/-! ## Records and requests (R200, R206) -/

/-- The record of a picture, or of a unit that was not decoded. -/
structure PicRecord where
  seq : Nat
  status : Nat
  reason : Nat
  flags : Nat := 0
  width : Nat := 0
  height : Nat := 0
  bands : Nat := 0
  buffer : Nat := 0xFFFF
  ts : Nat := 0
  deriving DecidableEq, Repr, Inhabited

def decCount (c k : Nat) (s : State) : State := updDec c (fun v => { v with ctrs := v.ctrs.set k (satAdd 64 (v.ctrs.getD k 0) 1) }) s

/-- Which of the context's counters a picture raises (R205). -/
def decCounter (p : PicRecord) : Nat :=
  if p.reason = 0x09 then 3 else if p.status = stOk then 0 else if p.status = stDamaged then 1 else if p.status = stConcealed then 2
  else if p.status = stFull then 5 else 6

/-- Count a picture at its context and tile, and push its record (R206, R207). -/
def endPicture (c : Nat) (p : PicRecord) (s : State) : State :=
  let v := decAt c s
  let s := decCount c (decCounter p) s
  let s := if p.status = stOk then count (tileCtr v.tile 0) 1 s else if p.status = stDamaged then count (tileCtr v.tile 1) 1 s
    else if p.status = stConcealed then count (tileCtr v.tile 4) 1 s else s
  let s := if p.reason = 0x02 then count (tileCtr v.tile 2) 1 s else if p.reason = 0x03 then count (tileCtr v.tile 3) 1 s else s
  if v.mode = 2 ∨ (v.mode = 1 ∧ p.status ≠ stOk) then
    let w0 := packNat [(105, 15, c), (73, 32, p.seq), (65, 8, p.status), (57, 8, p.reason), (49, 8, p.flags), (36, 13, p.width),
                       (24, 12, p.height), (18, 6, p.bands), (0, 16, p.buffer)]
    let r := devicePush v.recQueue [w0, packNat [(88, 32, p.ts), (24, 64, cmpNow s)]] s
    if r.1 = .stored then r.2 else decCount c 7 r.2
  else s

/-- A keyframe request of a context (R200), with its work item when it is the first after a clean picture. -/
def decRequest (c reason : Nat) (s : State) : State :=
  let v := decAt c s
  let s := if v.asked then s
    else enginePost 0x03 (128 + v.tile / 8) v.fn 0 (pack128 [(0, 15, c), (64, 64, v.source)]) (BitVec.ofNat 128 reason)
      (updDec c (fun v => { v with asked := true }) s)
  match resolve .source v.source s with
  | .ok i => kfRequest i false s
  | _ => s

/-- A unit that is not decoded: its record, the taint, and a request when it is a reference (R198, R200). -/
def notDecoded (c : Nat) (u : DecUnit) (status reason : Nat) (ask : Bool) (s : State) : State :=
  let s := endPicture c { seq := u.seq, status := status, reason := reason, ts := u.unit.ts } s
  let s := updDec c (fun v => { v with tainted := true }) s
  if ask then decRequest c reason s else s

/-! ## Units at the tile (R184, R185) -/

/-- What the decoder finds in a unit, with what it remembers. -/
def picInfo (v : DecCtx) (memory : Nat) (u : AccessUnit) : Config.PicInfo :=
  let us := unitsOf v.codec u.pkts
  let idc := Config.operatingIdc v.opPoint memory us
  Config.picture v.codec v.opPoint memory (us.filter (fun n => !ignored v.codec v.format idc n))

/-- What the decoder will remember once the units that wait are decoded (R184). -/
def memoryAhead (v : DecCtx) : Nat := v.waiting.foldl (fun m u => (picInfo v m u.unit).memory) v.memory

/-- The picture is a reference (R188). -/
def isRef (codec : Nat) (i : Config.PicInfo) : Bool := if codec = 2 then i.refresh % 256 != 0 else i.reference || i.longRef
def isLong (codec : Nat) (i : Config.PicInfo) : Bool := codec != 2 && i.longRef
/-- Band mode (R191). -/
def bandMode (codec : Nat) (i : Config.PicInfo) : Bool := if codec = 2 then i.shown else i.reorder == 0
/-- The picture is output as it ends, or before. -/
def outputNow (codec : Nat) (i : Config.PicInfo) : Bool := bandMode codec i || i.shown

/-- The first packet carries DISCARDABLE. -/
def unitDiscardable (u : DecUnit) : Bool := match u.unit.pkts with | [] => false | p :: _ => p.layer.discardable

/-- The unit dropped when a third waits: the oldest DISCARDABLE one, or the oldest. -/
def behindUnit (us : List DecUnit) : Option DecUnit :=
  match us.find? unitDiscardable with
  | some u => some u
  | none => us.head?

/-- A released unit reaches a context: its number, its price, its place in the queue. -/
def unitToDec (c : Nat) (u : AccessUnit) (s : State) : State :=
  let v := decAt c s
  let d : DecUnit := ⟨v.nextSeq, u⟩
  let info := picInfo v (memoryAhead v) u
  let rate := v.maxW * v.maxH * v.fps
  let have_ := min (v.bucket + (nowNs s - v.bucketAt) * rate) (2 * v.maxW * v.maxH * 1000000000)
  let cost := info.width * info.height * 1000000000
  let v := { v with nextSeq := (v.nextSeq + 1) % 2 ^ 32, bucketAt := nowNs s, bucket := if have_ < cost then have_ else have_ - cost }
  if have_ < cost then notDecoded c d stCapacity 0x0C (isRef v.codec info) (setDec c v s)
  else
    let us := v.waiting ++ [d]
    if us.length ≤ 2 then setDec c { v with waiting := us } s
    else match behindUnit us with
      | none => s
      | some x => notDecoded c x stNotStarted 0x0B (isRef v.codec (picInfo v v.memory x.unit)) (setDec c { v with waiting := us.filter (· != x) } s)

/-- The decode contexts of source i. -/
def sourceDecs (i : Nat) (s : State) : List Nat :=
  ((decList s).filter (fun c => c.2.source == handleFor .source i s && c.2.releasing.isNone)).map (·.1)

def unitToDecs (i : Nat) (u : AccessUnit) (s : State) : State := (sourceDecs i s).foldl (fun s c => unitToDec c u s) s

/-- A late packet is kept while its unit waits, decodes or may be repaired (R114, R199). -/
def lateToDec (c : Nat) (p : MediaPkt) (s : State) : State :=
  let v := decAt c s
  let ts := rtpTs p.bytes
  let known := v.waiting.any (fun u => u.unit.ts == ts) || (match v.work with | some w => w.unit.unit.ts == ts | none => false)
    || (match v.repair with | some x => x.unit.unit.ts == ts | none => false)
  if known then setDec c { v with lates := v.lates ++ [p] } s else s

def lateToDecs (i : Nat) (p : MediaPkt) (s : State) : State := (sourceDecs i s).foldl (fun s c => lateToDec c p s) s

/-! ## Pictures -/

def bandsOf (h : Nat) : Nat := ceilDiv h 64

/-- The buffers of context c, the one decoded last first: those that are its own and not on the free list. -/
def keptOf (c : Nat) (s : State) : List Nat :=
  (decAt c s).kept.filter (fun b => decide ((bufAt b s).ctx = some c) && !(bufAt b s).isFree)

/-- The nearest available reference among a context's buffers (R197). -/
def nearestRef (kept : List Nat) (w h order : Nat) (s : State) : Option Nat :=
  let ok := kept.filter (fun b => let v := bufAt b s; (v.shortRef || v.longRef) && v.width == w && v.height == h)
  let dist := fun b => max (bufAt b s).order order - min (bufAt b s).order order
  ok.foldl (fun m b => match m with | none => some b | some x => if dist b < dist x then some b else some x) none

/-- The buffer that the picture means by each of its references: an AV1 slot, or a place among the context's buffers (R195). -/
def namedRefs (c : Nat) (i : Config.PicInfo) (s : State) : List (Option Nat) :=
  i.refs.map (fun k => if (decAt c s).codec = 2 then ((decAt c s).slots.getD k none).filter (fun b => (keptOf c s).contains b)
                       else (keptOf c s)[k]?)

/-- Why a picture is abandoned, and at which band: a missing header, a syntax error, the work budget, the write window
(R194-R196). -/
def abandonAt (v : DecCtx) (u : AccessUnit) (i : Config.PicInfo) : Option (Nat × Nat) :=
  let n := bandsOf i.height
  let pl := levelPic v.codec v.level
  let beyond := fun (count budget : Nat) => if budget < count then some (n * budget / count, 2) else none
  let head : Option (Nat × Nat) := if !i.headers && !u.incomplete then some (0, 1) else none
  let all := [head, i.syntaxAt.map (fun b => (b, 1)), beyond i.bins (32 * pl), beyond i.elements (8 * pl), i.windowAt.map (fun b => (b, 3))]
  ((all.filterMap id).filter (fun x => decide (x.1 < n))).foldl
    (fun m x => match m with | none => some x | some y => if x.1 < y.1 then some x else some y) none

/-- The picture does not fit, or uses a refused feature: OVER_CONTEXT, or UNSUPPORTED (R179, R180). -/
def sizeFault (v : DecCtx) (i : Config.PicInfo) : Option Nat :=
  if i.features.any (fun f => (refusedFeatures v.codec).contains f) || decide (4096 < i.width) || decide (2304 < i.height) then some 0x04
  else if decide (i.width < 16) || decide (i.height < 16) || decide (v.maxW < i.width) || decide (v.maxH < i.height)
      || (i.tenBit && !v.deep) then some 0x05
  else none

/-- The size of a picture: where its parameter sets were never received, that of the context's last picture, or else the largest
(log entry 146). -/
def pictureSize (c : Nat) (i : Config.PicInfo) (s : State) : Nat × Nat :=
  if i.headers then (i.width, i.height)
  else match keptOf c s with
    | b :: _ => ((bufAt b s).width, (bufAt b s).height)
    | [] => ((decAt c s).maxW, (decAt c s).maxH)

def tileBusy (t : Nat) (s : State) : Bool := (decList s).any (fun c => c.2.tile == t && c.2.work.isSome)

/-! ### What is written (R187, R192, R196-R198) -/

/-- The co-located sample of the nearest reference, or mid-grey. -/
def fillSample (b : Nat) (fill : Option Nat) (s : State) (k x y : Nat) : Nat :=
  match fill with
  | some r => rawSample r k x y s
  | none => midGrey (bufAt b s)

/-- A sample that the decoder reconstructs, in the depth of the buffer: an 8-bit one is shifted left by 2 in a 10-bit buffer, and the
chroma of a monochrome picture is mid-grey (R180, R187). -/
def decodedValue (b content : Nat) (i : Config.PicInfo) (s : State) (k x y : Nat) : Nat :=
  let f := bufAt b s
  let v := Config.decodedSample content k x y
  if i.mono && k != 0 then midGrey f
  else if i.tenBit then v % 1024
  else if f.deep then v % 256 * 4 else v % 256

/-- The sample of a picture in progress: that of the decoder, but the filling from band `cut` on, and where an incomplete unit
leaves its block out. -/
def pictureSample (w : DecWork) (cut : Nat) (s : State) (k x y : Nat) : Nat :=
  let luma := fun (n : Nat) => if k = 0 then n else 2 * n
  if cut ≤ luma y / 64 ∨ (w.unit.unit.incomplete ∧ Config.missingBlock w.content (luma x) (luma y)) then fillSample w.buf w.fill s k x y
  else decodedValue w.buf w.content w.info s k x y

/-- The band from which a picture is filled whole: where it is abandoned, or its first where its headers are missing. -/
def cutOf (v : DecCtx) (w : DecWork) : Nat :=
  match abandonAt v w.unit.unit w.info with
  | some x => x.1
  | none => if w.info.headers && !w.info.existing then bandsOf w.info.height else 0

/-- Write the bands of a picture from its first unpublished one on, `n` at most. -/
def writeBands (w : DecWork) (cut n : Nat) (s : State) : State :=
  let f := bufAt w.buf s
  let done := f.published.length
  (List.range (min n (bandsOf f.height - done))).foldl (fun t j => writeBand w.buf (done + j) (pictureSample w cut s) t) s

/-- Publish the next `n` bands of a buffer, in order (R191, R192). -/
def publishBands (b n : Nat) (s : State) : State :=
  updBuf b (fun v => { v with published := v.published ++ List.replicate (min n (bandsOf v.height - v.published.length)) (nowNs s) }) s

/-! ### The start -/

/-- Start a unit's picture into a free buffer (R188, R193, R198). -/
def startPicture (c : Nat) (u : DecUnit) (info : Config.PicInfo) (s : State) : State :=
  let v := decAt c s
  let k := poolKey v.wing v.fn
  let g := poolAt k s
  let d := pictureSize c info s
  let info := { info with width := d.1, height := d.2 }
  match (freeBufs k s).head? with
  | none => notDecoded c u stFull 0x0A (isRef v.codec info) s
  | some i =>
    let b := bufKey k i
    let kept := keptOf c s
    let near := nearestRef kept d.1 d.2 info.order s
    let refs := namedRefs c info s
    let content := s.video.nextContent
    let s := { s with video := { s.video with nextContent := content + 1 } }
    let s := setBuf b { decoding := true, ctx := some c, bufW := g.bufW, bufH := g.bufH, deep := g.deep, width := d.1, height := d.2,
                        colour := info.colour.getD 2 % 6, order := info.order } s
    let w : DecWork := { unit := u, buf := b, info := info, memory := v.memory, content := content, refs := refs.map (fun r => r.or near),
                         missing := refs.any (·.isNone), fill := near }
    cleanBuf b (setDec c { v with work := some w, memory := info.memory, kept := b :: kept.filter (· != b) } s)

/-- The picture is output: it becomes the context's current picture, and an older one that no composer has latched is
superseded (R188). -/
def outputPicture (c b : Nat) (s : State) : State :=
  let s := match (decAt c s).current with
    | some o =>
      if o = b ∨ (bufAt o s).ctx ≠ some c then s
      else updDec c (fun v => { v with superseded := v.superseded + b2n (bufAt o s).outputPending })
        (updBuf o (fun v => { v with outputPending := false, lingers := [] }) s)
    | none => s
  updBuf b (fun v => { v with outputPending := true, awaits := false }) (updDec c (fun v => { v with current := some b }) s)

/-- The slots that an AV1 picture refreshes name its buffer. -/
def refreshSlots (c b refresh : Nat) (s : State) : State :=
  updDec c (fun v => { v with slots := (List.range 8).map (fun k => if refresh.testBit k then some b else v.slots.getD k none) }) s

/-- SHORT_REF of an AV1 context's buffers: a slot names them (R188). -/
def markSlots (c : Nat) (s : State) : State :=
  (keptOf c s).foldl (fun s b => updBuf b (fun f => { f with shortRef := (decAt c s).slots.contains (some b) }) s) s

/-- An AV1 unit that only shows the frame in a slot: it is output, and a key frame shown so refreshes every slot. -/
def showExisting (c : Nat) (u : DecUnit) (info : Config.PicInfo) (b : Nat) (s : State) : State :=
  let f := bufAt b s
  let s := outputPicture c b (publishBands b (bandsOf f.height) (updDec c (fun v => { v with memory := info.memory }) s))
  let s := if info.key then markSlots c (refreshSlots c b 255 s) else s
  let tainted := (decAt c s).tainted
  let clean := info.key && !f.concealed
  let s := updDec c (fun v => { v with tainted := if clean then false else v.tainted || f.concealed, asked := if clean then false else v.asked }) s
  endPicture c { seq := u.seq, status := if f.concealed then stConcealed else stOk, reason := if f.concealed then 0x08 else 0,
                 flags := b2n f.concealed + 2 * b2n (tainted && !clean) + 4 * b2n u.unit.incomplete + 8 * b2n info.grain + 16 + 32 * b2n info.key
                   + 64 * b2n (bandMode 2 info),
                 width := f.width, height := f.height, bands := bandsOf f.height, buffer := b % 16384, ts := u.unit.ts }
    (trimPool (poolKey (decAt c s).wing (decAt c s).fn) s)

/-! ### Late repair (R199) -/

/-- The packets run from FIRST to LAST with no gap (R114). -/
def wholeUnit : List MediaPkt → Bool
  | [] => false
  | [p] => p.layer.last
  | p :: q :: r => decide (q.ext = p.ext + 1) && wholeUnit (q :: r)
def unitComplete (u : AccessUnit) : Bool := (match u.pkts with | p :: _ => p.layer.first | [] => false) && wholeUnit u.pkts

def byExt (ps : List MediaPkt) : List MediaPkt := ps.mergeSort (fun a b => decide (a.ext ≤ b.ext))

/-- The unit with the late packets that belong to it. -/
def withLates (u : AccessUnit) (ps : List MediaPkt) : AccessUnit :=
  { u with pkts := byExt (u.pkts ++ ps.filter (fun p => rtpTs p.bytes == u.ts)), incomplete := false }

/-- LATE_REPAIR: the reference is decoded again into a fresh buffer, which takes its marks, and its output where that is still to
come. -/
def lateRepairDo (c : Nat) (s : State) : State :=
  let v := decAt c s
  match v.repair with
  | none => s
  | some w =>
    let whole := withLates w.unit.unit v.lates
    if !(identOf .decCtx c s).used || s.body.hold || !unitComplete whole || tileBusy v.tile s || !(keptOf c s).contains w.buf then s
    else
      let k := poolKey v.wing v.fn
      let s := setDec c { v with repair := none, lates := v.lates.filter (fun p => rtpTs p.bytes != w.unit.unit.ts) } s
      match (freeBufs k s).head? with
      | none => decCount c 4 s
      | some i =>
        let b := bufKey k i
        let f := bufAt w.buf s
        let content := s.video.nextContent
        let s := { s with video := { s.video with nextContent := content + 1 } }
        let info := picInfo v w.memory whole
        let again : DecWork := { w with buf := b, unit := { w.unit with unit := whole }, content := content,
                                        info := { info with width := f.width, height := f.height } }
        let s := cleanBuf b (setBuf b { f with decoding := false, outputPending := false, holders := [], lingers := [], ctx := some c,
                                               concealed := false, published := [] } s)
        let s := publishBands b (bandsOf f.height) (writeBands again (bandsOf f.height) (bandsOf f.height) s)
        let s := updBuf w.buf (fun f => { f with shortRef := false, longRef := false, awaits := false }) s
        let s := updDec c (fun v => { v with
            kept := v.kept.map (fun x => if x = w.buf then b else x) ++ [w.buf],
            slots := v.slots.map (fun x => if x = some w.buf then some b else x) }) s
        let tainted := w.refs.any (fun r => match r with | some x => (bufAt x s).concealed | none => false)
        endPicture c { seq := w.unit.seq, status := stOk, reason := 0x09, flags := 2 * b2n tainted + 8 * b2n info.grain + 32 + 128,
                       width := f.width, height := f.height, bands := bandsOf f.height, buffer := i, ts := w.unit.unit.ts } (trimPool k s)

def execLateRepair (ctx : Nat) (s : State) : Outcome := onWf (.lateRepair ctx) (lateRepairDo ctx s)

/-! ### The rows of a picture -/

/-- The unit's picture begins: it waits for a key frame, does not fit, shows a frame that is there, or starts. -/
def beginUnit (c : Nat) (u : DecUnit) (s : State) : State :=
  let v := decAt c s
  let info := picInfo v v.memory u.unit
  if v.waitKey && !info.key then notDecoded c u stNotStarted 0x0D false s
  else
    let s := updDec c (fun v => { v with waitKey := false }) s
    if !info.headers then startPicture c u info s
    else match info.existing, namedRefs c { info with refs := info.outputs.take 1 } s with
      | true, [some b] => showExisting c u info b s
      | true, _ => startPicture c u { info with refs := info.outputs.take 1 } s
      | false, _ =>
        match sizeFault v info with
        | some reason => notDecoded c u stDamaged reason false s
        | none => startPicture c u info s

/-- DECODE_PICTURE_START: the tile takes the next unit of the context (R184-R189, R193, R204). A repair that is due runs first
(R199). -/
def pictureStartDo (c : Nat) (s : State) : State :=
  if !(identOf .decCtx c s).used || s.body.hold || tileBusy (decAt c s).tile s || (decAt c s).waiting.isEmpty then s
  else
    let s := lateRepairDo c s
    let v := decAt c s
    match v.waiting with
    | [] => s
    | u :: rest =>
      beginUnit c u (setDec c { v with
        waiting := rest, repair := none,
        lates := v.lates.filter (fun p => rtpTs p.bytes == u.unit.ts || rest.any (fun x => x.unit.ts == rtpTs p.bytes)) } s)

def execDecodePictureStart (ctx : Nat) (s : State) : Outcome := onWf (.decodePictureStart ctx) (pictureStartDo ctx s)

/-- BAND_PUBLISH: the next band of a picture in band mode. -/
def bandPublishDo (c : Nat) (s : State) : State :=
  match (decAt c s).work with
  | none => s
  | some w =>
    if !(identOf .decCtx c s).used || s.body.hold || !bandMode (decAt c s).codec w.info
        || decide (bandsOf (bufAt w.buf s).height ≤ (bufAt w.buf s).published.length) then s
    else
      let s := publishBands w.buf 1 (writeBands w (cutOf (decAt c s) w) 1 s)
      if w.output then s
      else outputPicture c w.buf (updDec c (fun v => { v with work := some { w with output := true } }) s)

def execBandPublish (ctx : Nat) (s : State) : Outcome := onWf (.bandPublish ctx) (bandPublishDo ctx s)

/-- The marks that a picture leaves on the context's earlier buffers (R188). -/
def markOthers (info : Config.PicInfo) (others : List Nat) (s : State) : State :=
  others.zipIdx.foldl (fun s x =>
    updBuf x.1 (fun v =>
      let stays := !info.key && info.keep.contains x.2
      { v with shortRef := v.shortRef && stays && !info.longs.contains x.2,
               longRef := stays && (v.longRef || (v.shortRef && info.longs.contains x.2)) }) s) s

/-- The marks and slots once a picture has ended (R188). -/
def markPicture (c : Nat) (w : DecWork) (others : List Nat) (s : State) : State :=
  if (decAt c s).codec = 2 then markSlots c (refreshSlots c w.buf (w.info.refresh % 256) s) else markOthers w.info others s

/-- Output every buffer that the picture makes output, whole. -/
def bumpOut (c : Nat) (bs : List Nat) (s : State) : State :=
  bs.foldl (fun s b => outputPicture c b (publishBands b (bandsOf (bufAt b s).height) s)) s

/-- The buffers that a picture makes output: those that wait for it, in order, or the slots that an AV1 unit shows. -/
def outsOf (c : Nat) (w : DecWork) (others : List Nat) (s : State) : List Nat :=
  if (decAt c s).codec = 2 then
    (w.info.outputs.filterMap (fun k => (decAt c s).slots.getD k none)).filter (fun b => others.contains b)
  else (w.info.outputs.filterMap (fun i => others[i]?)).filter (fun b => (bufAt b s).awaits)

/-- Count the references that read as poison (R378). -/
def countLostRefs (w : DecWork) (s : State) : State :=
  w.refs.foldl (fun s r => match r with | some b => readBuf b s | none => s) s

/-- Status and reason of a picture that ends (R196, R198). A reference whose buffer reads as poison was never received (R378). -/
def pictureEnd (v : DecCtx) (w : DecWork) (s : State) : Nat × Nat :=
  match abandonAt v w.unit.unit w.info with
  | some x => (stDamaged, x.2)
  | none =>
    if w.missing || w.refs.any (fun r => match r with | some b => (bufLost b s).isSome | none => false) then (stConcealed, 0x06)
    else if w.unit.unit.incomplete then (stConcealed, 0x07)
    else if w.refs.any (fun r => match r with | some b => (bufAt b s).concealed | none => false) then (stConcealed, 0x08)
    else (stOk, 0)

/-- A context that has been released ends once its picture has (R205). -/
def finishDecRelease (c : Nat) (s : State) : State :=
  let v := decAt c s
  let s := v.kept.foldl (fun s b => updBuf b (fun f =>
    if f.ctx = some c then { f with decoding := false, shortRef := false, longRef := false, outputPending := false, awaits := false,
                                    lingers := [], ctx := none }
    else f) s) s
  let s := trimPool (poolKey v.wing v.fn) (dropLoad v.part 0 v.load (dropWork v.tile s))
  let s := match resolve .source v.source s with
    | .ok i => updSource i (fun x => { x with readers := x.readers - 1 }) s
    | _ => s
  let s := releaseId .decCtx c (setDec c {} s)
  match v.releasing with
  | some t => complete t (okVia v.wing (v.discarded % 65536 * 256) s) s
  | none => s

/-- The bits of a picture's record flags (R206). -/
def pictureFlags (v : DecCtx) (w : DecWork) (bad clean : Bool) : Nat :=
  b2n bad + 2 * b2n (v.tainted && !clean) + 4 * b2n w.unit.unit.incomplete + 8 * b2n w.info.grain
    + 16 * b2n (outputNow v.codec w.info || w.info.existing) + 32 * b2n (isRef v.codec w.info) + 64 * b2n (bandMode v.codec w.info)

/-- DECODE_PICTURE_END: the picture finishes or is abandoned; marks, record, request (R188, R196-R200, R206). What is not yet
published of an abandoned picture is filled. -/
def pictureEndDo (c : Nat) (s : State) : State :=
  let v := decAt c s
  match v.work with
  | none => s
  | some w =>
    if !(identOf .decCtx c s).used || s.body.hold then s
    else
      let others := (keptOf c s).filter (· != w.buf)
      let r := pictureEnd v w s
      let bad := r.1 != stOk
      let now := outputNow v.codec w.info || w.info.existing
      let s := countLostRefs w (writeBands w (if r.1 = stDamaged then 0 else cutOf v w) (bandsOf (bufAt w.buf s).height) s)
      let outs := outsOf c w others s
      let s := updBuf w.buf (fun f => { f with decoding := false, shortRef := isRef v.codec w.info && !isLong v.codec w.info,
                                               longRef := isLong v.codec w.info, awaits := !now && v.codec != 2, concealed := bad })
        (markPicture c w others s)
      let s := bumpOut c outs s
      let s := if now then
          let s := publishBands w.buf (bandsOf (bufAt w.buf s).height) s
          if w.output then s else outputPicture c w.buf s
        else s
      let clean := w.info.key && !bad
      let s := updDec c (fun v => { v with
          work := none, tainted := if clean then false else v.tainted || bad, asked := if clean then false else v.asked,
          repair := if w.unit.unit.incomplete && isRef v.codec w.info then some w else none, kept := keptOf c s }) s
      let s := endPicture c { seq := w.unit.seq, status := r.1, reason := r.2, flags := pictureFlags v w bad clean, width := w.info.width,
                              height := w.info.height, bands := (bufAt w.buf s).published.length, buffer := w.buf % 16384,
                              ts := w.unit.unit.ts } s
      let ask := r.1 == stDamaged || ((r.2 == 0x06 || r.2 == 0x07) && isRef v.codec w.info)
      let s := if ask then decRequest c r.2 s else s
      let s := trimPool (poolKey v.wing v.fn) s
      if (decAt c s).releasing.isSome then finishDecRelease c s else s

def execDecodePictureEnd (ctx : Nat) (s : State) : Outcome := onWf (.decodePictureEnd ctx) (pictureEndDo ctx s)

/-! ## The other commands -/

/-- VID_DEC_RESET (R204). -/
def decResetBody (r : Req) (s : State) : Answer :=
  withDec (df r.w1 14 0) r s (fun c =>
    let v := decAt c s
    let s := (keptOf c s).foldl (fun s b => updBuf b (fun f =>
      { f with shortRef := false, longRef := false, outputPending := false, awaits := false, lingers := [] }) s) s
    let s := updDec c (fun v => { v with waitKey := true, current := none, repair := none, slots := List.replicate 8 none,
                                         kept := keptOf c s }) s
    answer (decRequest c 0x0D (trimPool (poolKey v.wing v.fn) s)) (okWith 0))

def execVidDecReset (src : CmdSrc) (s : State) : Outcome :=
  onWf (.vidDecReset src) (command 0x72 (strictly ([(14, 0)], [], []) decResetBody) src s)

/-- VID_DEC_READ (R205). -/
def decReadBody (r : Req) (s : State) : Answer :=
  withDec (df r.w1 14 0) r s (fun c =>
    let s1 := hostPut (df r.w2 63 0) ((decAt c s).ctrs.flatMap (leBytes 8)) s
    answer (if bitOf r.w3 0 then updDec c (fun v => { v with ctrs := List.replicate 8 0 }) s1 else s1) (okWith 0))

def execVidDecRead (src : CmdSrc) (s : State) : Outcome :=
  onWf (.vidDecRead src) (command 0x73 (strictly ([(14, 0)], [(63, 0)], [(0, 0)]) decReadBody) src s)

/-- VID_DEC_RELEASE (R205): the picture in progress ends first; the waiting units are discarded. -/
def decReleaseBody (r : Req) (s : State) : Answer :=
  withDec (df r.w1 14 0) r s (fun c =>
    let v := decAt c s
    if v.releasing.isSome then answer s (okWith 0)
    else
      let s := setDec c { v with waiting := [], discarded := v.waiting.length, releasing := some r.tk } s
      if v.work.isSome then (s, none) else (finishDecRelease c s, none))

def execVidDecRelease (src : CmdSrc) (s : State) : Outcome :=
  onWf (.vidDecRelease src) (command 0x74 (strictly ([(14, 0)], [], []) decReleaseBody) src s)

end Sys2Proof.Machine
end

