-- ==== Sys2Proof/Machine/VideoEncode.lean ====
section
/-! DEFINITION. Video encode: contexts, picture starts, rate control, the band budget and cap mode, records, and the
commands (R238-R261). -/

namespace Sys2Proof.Machine

/-! Fields of VID_ENC_CREATE (R256) and of an output's geometry (R234). -/
def EncCtx.codec (v : EncCtx) : Nat := fld v.w1 25 24
def EncCtx.deep (v : EncCtx) : Bool := bitOf v.w1 26
def EncCtx.spatial (v : EncCtx) : Nat := fld v.w1 28 27
def EncCtx.temporal (v : EncCtx) : Nat := fld v.w1 30 29
def EncCtx.downscale (v : EncCtx) : Nat := fld v.w1 32 31
def EncCtx.stitch (v : EncCtx) : Bool := bitOf v.w1 33
def EncCtx.room (v : EncCtx) : Nat := fld v.w1 46 34
def EncCtx.ddId (v : EncCtx) : Nat := fld v.w1 50 47
def EncCtx.pt (v : EncCtx) : Nat := fld v.w1 57 51
def EncCtx.recQueue (v : EncCtx) : Nat := fld v.w3 63 0
def EncCtx.mode (v : EncCtx) : Nat := fld v.w3 65 64
def EncCtx.maxPayload (v : EncCtx) : Nat := fld v.w3 76 66
def EncCtx.ts0 (v : EncCtx) : Nat := fld v.w3 108 77
def EncCtx.stitchQidx (v : EncCtx) : Nat := fld v.w3 116 109
def EncCtx.kfInterval (v : EncCtx) : Nat := fld v.rate 127 115
def EncCtx.qpMax (v : EncCtx) : Nat := fld v.rate 114 107
def EncCtx.qpMin (v : EncCtx) : Nat := fld v.rate 106 99
def EncCtx.kfCapPm (v : EncCtx) : Nat := fld v.rate 98 85
def EncCtx.capPm (v : EncCtx) : Nat := fld v.rate 84 72
def EncCtx.rateOf (v : EncCtx) (l : Nat) : Nat := if l = 0 then fld v.rate 23 0 else if l = 1 then fld v.rate 47 24 else fld v.rate 71 48

def Output.width (v : Output) : Nat := fld v.w1 28 16
def Output.height (v : Output) : Nat := fld v.w1 40 29
def Output.fps (v : Output) : Nat := fld v.w1 47 41
def Output.m (v : Output) : Nat := if bitOf v.w1 48 then 1001 else 1000
def Output.maxDepth (v : Output) : Nat := fld v.w1 55 49
def Output.base (v : Output) : Nat := fld v.w1 127 64

def evenUp (n : Nat) : Nat := (n + 1) / 2 * 2
/-- How far layer l lies below the output's resolution, in steps of 2:1 (R238, R245). -/
def EncCtx.shift (v : EncCtx) (l : Nat) : Nat := v.downscale + (v.spatial - 1 - l)
def encW (v : EncCtx) (o : Output) (l : Nat) : Nat := evenUp (o.width / 2 ^ v.shift l)
def encH (v : EncCtx) (o : Output) (l : Nat) : Nat := evenUp (o.height / 2 ^ v.shift l)
def encBands (v : EncCtx) (o : Output) (l : Nat) : Nat := bandsOf (encH v o l)
/-- 64 × 64 areas in a row of a layer: one band holds one row of them (R248). -/
def encRow (v : EncCtx) (o : Output) (l : Nat) : Nat := ceilDiv (encW v o l) 64
def encAreas (v : EncCtx) (o : Output) (l : Nat) : Nat := encRow v o l * encBands v o l

/-- L of R238. -/
def encLoad (v : EncCtx) (o : Output) : Nat :=
  ceilDiv (((List.range v.spatial).map (fun l => encW v o l * encH v o l)).sum * o.fps * 1000) (o.m * 1000000)

/-- The rate fields are in range (R257). -/
def rateFine (codec spatial : Nat) (w : Word128) : Bool :=
  let r := fun x lo hi => decide (lo ≤ x) && decide (x ≤ hi)
  decide (fld w 106 99 ≤ fld w 114 107) && decide (fld w 114 107 ≤ (if codec = 2 then 255 else 51)) && r (fld w 98 85) 1000 16000
    && r (fld w 84 72) 1000 8000 && decide (16 ≤ fld w 23 0)
    && (if 2 ≤ spatial then decide (16 ≤ fld w 47 24) else fld w 47 24 == 0)
    && (if 3 ≤ spatial then decide (16 ≤ fld w 71 48) else fld w 71 48 == 0)

/-- The fields and combinations of VID_ENC_CREATE (R240, R254, R256). -/
def encFine (v : EncCtx) : Bool :=
  let r := fun x lo hi => decide (lo ≤ x) && decide (x ≤ hi)
  decide (v.codec < 3) && r v.spatial 1 3 && r v.temporal 1 3 && decide (v.downscale ≤ 2) && decide (v.ddId ≤ 14) && (v.codec != 2 || v.ddId != 0)
    && (v.spatial == 1 || (v.codec == 2 && v.downscale == 0)) && v.mode != 3 && r v.maxPayload 500 1400
    && (!v.stitch || (v.codec != 0 && v.spatial == 1 && v.temporal == 1)) && rateFine v.codec v.spatial v.rate

def hasRoute (a b : Nat) (s : State) : Bool := s.fab.routes.any (fun r => r.1 == a && r.2.1 == b)

def encLoadOf (t : Nat) (s : State) : Nat := (((encList s).filter (fun c => c.2.tile == t)).map (·.2.load)).sum
def encCountOf (t : Nat) (s : State) : Nat := ((encList s).filter (fun c => c.2.tile == t)).length

def encTile (p px load : Nat) (s : State) : Option Nat :=
  leastLoaded (fun t => encLoadOf t s) ((roleTiles p 1 (List.range 512) s).filter (fun t =>
    hasRoute (px / 8) (t / 8) s && decide (encCountOf t s < 32) && decide (encLoadOf t s + load ≤ 1000 * factorOf p 1 s / 1000)))

/-- The running image routes the output's PX tile group to a VE group of the partition (check 3). -/
def encRouted (p px : Nat) (s : State) : Bool :=
  let mask := ((partOf? p s).map (·.tgMask)).getD 0
  (List.range 64).any (fun g => mask.testBit g && (groupOf g s).role == 2 && hasRoute (px / 8) g s)

/-- A local source (R97 with no match key): its function, Wing, room, format, payload type, descriptor ID. -/
def localSource (fn wing room format pt dd : Nat) : Source :=
  { fn := fn, isLocal := true, w2 := pack128 [(120, 7, wing * 32)],
    w3 := pack128 [(98, 4, dd), (80, 7, pt), (77, 3, format), (64, 13, room)] }

def encFormat (codec : Nat) : Nat := if codec = 0 then 0 else if codec = 1 then 2 else 3

/-- Checks 2 to 7 of R238 and the creation. -/
def encAdmit (v : EncCtx) (o : Output) (s : State) : Answer :=
  let k := poolKey o.wing v.fn
  let free := freeBufs k s
  let load := encLoad v o
  if o.stitched || (v.codec == 0 && v.deep) then answer s (refuse stNotStarted 0x02)
  else if !encRouted v.part o.tile s then answer s (refuse stNotStarted 0x0C)
  else if free.length < 3 * v.spatial || !poolHolds (poolAt k s) (encW v o (v.spatial - 1)) (encH v o (v.spatial - 1)) v.deep then
    answer s (refuse stNotStarted 0x05)
  else if !fits v.part 1 load s then answer s ⟨stCapacity, 0, 0x06 + liveOf v.part 1 s % 2 ^ 32 * 256⟩
  else if ((partOf? v.part s).map (·.encCtx)).getD 0 ≤ ((encList s).filter (fun c => c.2.part == v.part)).length then
    answer s (refuse stCapacity 0x07)
  else match lowestFree .encCtx 0 (declaredEnc s) s, lowestFree .source 0 131072 s with
    | some c, some i =>
      match encTile v.part o.tile load s with
      | none => answer s (refuse stCapacity 0x08)
      | some t =>
        let bufs := free.take (3 * v.spatial)
        let det := packNat [(8, 32, liveOf v.part 1 s), (40, 12, c), (52, 9, t)]
        let s := addSource i (localSource v.fn o.wing v.room (encFormat v.codec) v.pt (if v.codec = 2 then v.ddId else 0)) s
        let v := { v with tile := t, load := load, source := handleFor .source i s, pool := k, bufs := bufs, lastKey := nowNs s }
        let g := poolAt k s
        let s := bufs.foldl (fun s b => setBuf (bufKey k b) { encoder := true, bufW := g.bufW, bufH := g.bufH, deep := g.deep } s) s
        answer (addWork t (addLoad v.part 1 load (setEnc c v (allocId .encCtx c s)))) (okVia (t / 128) det s)
    | _, _ => answer s (refuse stCapacity 0x07)

/-- VID_ENC_CREATE (R238, R256-R258). -/
def encCreateBody (r : Req) (s : State) : Answer :=
  let v : EncCtx := { fn := reqFn r, output := df r.w1 12 0, part := df r.w1 21 16, w1 := r.w1, rate := r.w2, w3 := r.w3 }
  let o := outputAt v.output s
  let ctl := partControl r v.part s
  if !encFine v then answer s (refuse stNotStarted 0x01)
  else if !((identOf .output v.output s).used && (r.owner || o.fn == r.fn)) || !holdsRoom (reqFn r) v.room s then
    answer s (refuse stRefused 0x09)
  else if !ctl.1 then answer ctl.2 (refuse stRefused 0x09)
  else match recordQueueRefusal r v.mode v.recQueue s with
    | some x => queueRefused v.recQueue x s
    | none => encAdmit v o s

def execVidEncCreate (src : CmdSrc) (s : State) : Outcome :=
  onWf (.vidEncCreate src) (command 0x7B (strictly ([(12, 0), (21, 16), (57, 24)], [(127, 0)], [(116, 0)]) encCreateBody) src s)

def withEnc (c : Nat) (r : Req) (s : State) (f : Nat → Answer) : Answer :=
  if (identOf .encCtx c s).used && (r.owner || (encAt c s).fn == r.fn) then viaWing ((encAt c s).tile / 128) (f c) else answer s (refuse stRefused 0x09)

/-! ## Records (R260) -/

structure EncRecord where
  frame : Nat
  status : Nat
  reason : Nat
  flags : Nat := 0
  t : Nat := 0
  capBand : Nat := 63
  bands : Nat := 0
  layers : Nat := 0
  bits : Nat := 0
  qp : Nat := 0
  deriving DecidableEq, Repr, Inhabited

def encCount (c k : Nat) (s : State) : State := updEnc c (fun v => { v with ctrs := v.ctrs.set k (satAdd 64 (v.ctrs.getD k 0) 1) }) s

/-- RTP timestamp of frame n (R255). -/
def frameTs (ts0 n : Nat) (o : Output) : Nat := (ts0 + n * 90000 * o.m / (o.fps * 1000)) % 2 ^ 32

def encRecord (c : Nat) (p : EncRecord) (s : State) : State :=
  let v := encAt c s
  if v.mode = 2 ∨ (v.mode = 1 ∧ p.status ≠ stOk) then
    let w0 := packNat [(108, 12, c), (76, 32, p.frame), (68, 8, p.status), (60, 8, p.reason), (52, 8, p.flags), (49, 3, p.t),
                       (43, 6, p.capBand), (37, 6, p.bands), (35, 2, p.layers), (0, 35, p.bits)]
    let r := devicePush v.recQueue [w0, packNat [(88, 32, frameTs v.ts0 p.frame (outputAt v.output s)), (24, 64, cmpNow s), (16, 8, p.qp)]] s
    if r.1 = .stored then r.2 else encCount c 5 r.2
  else s

/-- A frame that gives no picture (R247, R259). -/
def encSkipped (c frame reason : Nat) (s : State) : State :=
  encRecord c { frame := frame, status := stNotStarted, reason := reason } (encCount c 3 s)

/-! ## Picture start (R241, R247, R248) -/

/-- T at a position of the pattern, and the weights of R241. -/
def patternT (temporal pos : Nat) : Nat :=
  if temporal = 1 then 0 else if temporal = 2 then pos % 2 else [0, 2, 1, 2].getD (pos % 4) 0
def weightOf (temporal t : Nat) : Nat :=
  if temporal = 1 then 1000 else if temporal = 2 then [1300, 700].getD t 0 else [1800, 1000, 600].getD t 0

/-- T of the pictures that no other refers to (R241); none where there is one temporal layer. -/
def topT (v : EncCtx) (t : Nat) : Bool := decide (1 < v.temporal) && t + 1 == v.temporal

/-- The buffer, of a layer's three, that a picture refers to: the previous T0, but for T2 the more recent of the previous T0 and T1
(R241). A keyframe, an intra_only frame with it, refers to none (R242). -/
def refOf (v : EncCtx) (key : Bool) (t : Nat) : Option Nat :=
  if key then none else some (if t = 2 ∧ v.t1Newer then v.refT1 else v.refT0)

/-- The buffer of a layer's three that holds no reference. -/
def freeRef (v : EncCtx) : Nat := 3 - v.refT0 - v.refT1

/-- Cost of a whole layer in cap mode (R248). -/
def areaUnit (key : Bool) : Nat := if key then 256 else 32
def floorBits (bands areas : Nat) (key : Bool) : Nat := 2048 + 512 * bands + areas * areaUnit key

/-- The allotment of R248 for a layer: whether the floor was raised, and the layer's figures. -/
def layerStart (v : EncCtx) (o : Output) (key : Bool) (t l : Nat) : Bool × EncLayer :=
  let period := 1000000 * o.m / o.fps
  let pOf := fun w => v.rateOf l * period * w / 1000000000
  let p := pOf (weightOf v.temporal t)
  let p0 := pOf (weightOf v.temporal 0)
  let target := if key then 4 * p0 else p
  let cap := if key then p0 * v.kfCapPm / 1000 else p * v.capPm / 1000
  let fl := floorBits (encBands v o l) (encAreas v o l) key
  let capped := max cap fl
  let allot := min (max ((target : Int) - v.debts.getD l 0) (target / 4 : Nat)).toNat capped
  (decide (cap < fl), { target := target, cap := capped, allot := allot, p := p })

/-- Values that the headers of a picture's layer state (R240-R242, R254): codec, depth, size, spatial and temporal layers, rate, whether
the context is stitch-ready and its q index, the layer. -/
def headerFields (v : EncCtx) (o : Output) (l : Nat) : List Nat :=
  [v.codec, b2n v.deep, encW v o l, encH v o l, v.spatial, v.temporal, o.fps, o.m, b2n v.stitch, v.stitchQidx, l]

/-- The body of a header, of at most 60 bytes. -/
def header (kind : Nat) (v : EncCtx) (o : Output) (l : Nat) (more : List Nat) : List Byte :=
  (Config.headerBody v.codec kind (headerFields v o l ++ more)).take 60

/-- refresh_frame_flags of a layer's frame: every slot by a key frame, the layer's own two by an intra_only frame, the slot of its T
otherwise, none in the top temporal layer (R241). -/
def refreshFlags (v : EncCtx) (key : Bool) (t l : Nat) : Nat :=
  if key then (if l = 0 then 255 else 3 * 4 ^ l) else if topT v t then 0 else if t = 0 then 4 ^ l else 2 * 4 ^ l

/-- The units before the first band of a layer: parameter sets or a sequence header before a keyframe (R253), and an AV1 frame header,
of type 0 key, 2 intra_only or 1 inter, with the slot that it refers to. -/
def headUnits (v : EncCtx) (o : Output) (key : Bool) (t l : Nat) (ref : Option Nat) : List (List Byte) :=
  if v.codec = 0 then (if key then [h264Nal 3 7 (header 7 v o l []), h264Nal 3 8 (header 8 v o l [])] else [])
  else if v.codec = 1 then
    (if key then [h265Nal 32 0 (header 32 v o l []), h265Nal 33 0 (header 33 v o l []), h265Nal 34 0 (header 34 v o l [])] else [])
  else
    let type := if key then (if l = 0 then 0 else 2) else 1
    let slot := 2 * l + b2n (ref == some v.refT1)
    (if key && l == 0 then [obu 1 0 0 (header 1 v o l [])] else [])
      ++ [obu 3 l t (header 3 v o l [type, refreshFlags v key t l, slot])]

def unitBits (us : List (List Byte)) : Nat := 8 * (us.map (·.length)).sum

/-- VE_PICTURE_START: the tile takes the first band of a frame. A keyframe when one is pending (R253). -/
def startEnc (c frame : Nat) (s : State) : State :=
  let v := encAt c s
  let o := outputAt v.output s
  let i := handleIdx v.source
  let key := v.pending || (sourceAt i s).localKey
  let t := if key then 0 else patternT v.temporal v.pos
  let ls := (List.range v.spatial).map (fun l => layerStart v o key t l)
  let flags := (if key then 3 else 0) + (if ls.any (·.1) then 4 else 0) + (if v.stitch then 32 else 0)
  let s := updSource i (fun x => { x with localKey := false }) s
  let ref := refOf v key t
  let ls := ls.zipIdx.map (fun x => { x.1.2 with spent := unitBits (headUnits v o key t x.2 ref) })
  let w : EncWork := { frame := frame, key := key, t := t, layers := ls, flags := flags, inputs := v.queue.filter (fun b => b.frame == frame),
                       ref := ref, cur := freeRef v, frameNo := v.frameNo }
  let s := (List.range v.spatial).foldl (fun s l =>
    updBuf (bufKey v.pool (v.bufs.getD (3 * l + w.cur) 0)) (fun f => { f with width := encW v o l, height := encH v o l }) s) s
  let s := if key then count (tileCtr v.tile 4) 1 (encCount c 4 s) else s
  let s := v.rateWait.foldl (fun s t => complete t (okVia (v.tile / 128) (frame % 2 ^ 32 * 256) s) s) s
  updEnc c (fun v => { v with
      work := some w, queue := v.queue.filter (fun b => b.frame != frame), rateWait := [], pending := false,
      frameNo := (v.frameNo + v.spatial) % 65536,
      pos := if key then 1 else v.pos + 1, lastKey := if key then nowNs s else v.lastKey }) s

/-- A context whose tile is free takes the frame that waits. -/
def nextEnc (c : Nat) (s : State) : State :=
  let v := encAt c s
  match v.work, v.queue with
  | none, b :: _ => if v.releasing.isNone then startEnc c b.frame s else s
  | _, _ => s

/-- A composed band arrives at a context (R222, R247): for the picture in work, for the frame beyond it, or for a frame
further on, which discards the one that waits. -/
def veArrive (c : Nat) (b : PxBand) (s : State) : State :=
  let v := encAt c s
  let inWork := match v.work with | some w => w.frame == b.frame | none => false
  if v.releasing.isSome then s
  else if inWork then
    updEnc c (fun v => { v with work := v.work.map (fun w => { w with inputs := w.inputs ++ [b] }) }) s
  else if b.band ≠ 0 ∧ !v.queue.any (fun x => x.frame == b.frame) then s
  else
    let old := (v.queue.filter (fun x => x.frame != b.frame)).head?
    let s := match old with
      | some x => count (tileCtr v.tile 3) 1 (encSkipped c x.frame 0x04 s)
      | none => s
    nextEnc c (updEnc c (fun v => { v with queue := v.queue.filter (fun x => x.frame == b.frame) ++ [b] }) s)

/-- The encode contexts of output o. -/
def outputEncs (o : Nat) (s : State) : List Nat := ((encList s).filter (fun c => c.2.output == o)).map (·.1)

/-- A frame that the PX tile did not compose produces no picture (R247). -/
def veNoInput (o frame : Nat) (s : State) : State := (outputEncs o s).foldl (fun s c => encSkipped c frame 0x05 s) s

/-! ## Inputs (R240, R245) -/

/-- The rows of component k of a composed band of an output. -/
def pxRows (o : Output) (b : PxBand) (k : Nat) : List (List Nat) :=
  let w := o.width / 2
  if k = 0 then (List.range (b.luma.length / max 1 o.width)).map (fun y => (b.luma.drop (y * o.width)).take o.width)
  else (List.range (b.chroma.length / max 1 (2 * w))).map (fun y => (List.range w).map (fun x => b.chroma.getD (y * 2 * w + 2 * x + (k - 1)) 0))

/-- One step of the 2:1 filter. -/
def halveRows (rows : List (List Nat)) : List (List Nat) :=
  (List.range (ceilDiv rows.length 2)).map (fun y =>
    (List.range (ceilDiv (rows.headD []).length 2)).map (fun x => Config.halveFilter rows x y % 1024))

def halveTimes : Nat → List (List Nat) → List (List Nat)
  | 0, rows => rows
  | n + 1, rows => halveTimes n (halveRows rows)

/-- A 10-bit composed sample in the depth of the context (R240). -/
def atDepth (v : EncCtx) (x : Nat) : Nat := if v.deep then x else min ((x + 2) / 4) 255

/-- The samples of band b of layer l, scaled from the output bands that feed it: luma, Cb and Cr rows. -/
def encSource (v : EncCtx) (o : Output) (inputs : List PxBand) (l b : Nat) : List (List (List Nat)) :=
  let feeds := inputs.filter (fun x => decide (2 ^ v.shift l * b ≤ x.band) && decide (x.band < 2 ^ v.shift l * (b + 1)))
  [0, 1, 2].map (fun k => (halveTimes (v.shift l) (feeds.flatMap (fun x => pxRows o x k))).map (fun r => r.map (atDepth v)))

/-! ## The motion window (R243, R244) -/

/-- Width and height of a coding unit. -/
def unitSize (codec : Nat) : Nat := if codec = 0 then 16 else 64

/-- A luma length in component k. -/
def inPlane (k n : Nat) : Nat := if k = 0 then n else n / 2

/-- A sample of the reference picture; beyond its edge that of the edge. -/
def refSample (b k : Nat) (x y : Int) (s : State) : Nat :=
  let f := bufAt b s
  let edge := fun (n : Nat) (z : Int) => (clampInt z 0 ((if k = 0 then n else ceilDiv n 2 : Nat) - 1 : Int)).toNat
  rawSample b k (edge f.width x) (edge f.height y) s

/-- `w` columns and `h` rows of the reference from a place on. -/
def refBlock (b k : Nat) (x y : Int) (w h : Nat) (s : State) : List (List Nat) :=
  (List.range h).map (fun j => (List.range w).map (fun i => refSample b k (x + Int.ofNat i) (y + Int.ofNat j) s))

/-- Left and upper edge of the window of the unit at a place, in component k: 192 samples and a margin of 4 to the left, 96 and 4
above. -/
def windowX (k ux : Nat) : Int := (inPlane k ux : Int) - inPlane k 196
def windowY (k uy : Nat) : Int := (inPlane k uy : Int) - inPlane k 100
def windowW (k u : Nat) : Nat := inPlane k (u + 2 * 196)
def windowH (k u : Nat) : Nat := inPlane k (u + 2 * 100)

/-- The whole window, as it is filled at the start of a unit row. -/
def fillWindow (b u ux uy : Nat) (s : State) : List (List (List Nat)) :=
  [0, 1, 2].map (fun k => refBlock b k (windowX k ux) (windowY k uy) (windowW k u) (windowH k u) s)

/-- The window slides right by a unit: the columns that leave it are dropped, and one column of units is fetched. `ux` is the unit that
it slides to. -/
def slideWindow (b u ux uy : Nat) (win : List (List (List Nat))) (s : State) : List (List (List Nat)) :=
  [0, 1, 2].map (fun k =>
    List.zipWith (fun old new => old.drop (inPlane k u) ++ new) (win.getD k [])
      (refBlock b k (windowX k ux + windowW k u - inPlane k u) (windowY k uy) (inPlane k u) (windowH k u) s))

/-- A block within its unit, with a vector of at most 192 samples across and 96 down; in a stitch-ready context the vector, with 4
samples of margin, stays inside the picture (R243, R254). -/
def boundBlock (v : EncCtx) (w h u ux uy : Nat) (b : Config.Block) : Config.Block :=
  let x := b.x % u
  let y := b.y % u
  let bw := 1 + b.w % (u - x)
  let bh := 1 + b.h % (u - y)
  let lim := fun (d reach : Int) (at_ len size : Nat) =>
    let d := clampInt d (-8 * reach) (8 * reach)
    if v.stitch then clampInt d (8 * (4 - (at_ : Int))) (8 * ((size : Int) - 4 - len - at_)) else d
  { x := x, y := y, w := bw, h := bh, dx := lim b.dx 192 (ux + x) bw w, dy := lim b.dy 96 (uy + y) bh h }

/-- What the coding of a band needs to know of its layer: the context, the layer's size, its reference buffer, the number of the coding,
the QP, the band's samples and first row. -/
structure BandJob where
  ctx : EncCtx
  w : Nat
  h : Nat
  ref : Option Nat
  seed : Nat
  qp : Nat
  src : List (List (List Nat))
  row : Nat

/-- The samples of a unit of the band. -/
def unitSource (j : BandJob) (u ux uy : Nat) : List (List (List Nat)) :=
  [0, 1, 2].map (fun k => (((j.src.getD k []).drop (inPlane k (uy - j.row))).take (inPlane k u)).map
    (fun r => (r.drop (inPlane k ux)).take (inPlane k u)))

/-- The units of a unit row from column `col` on, the window before the first; and the window of the last. -/
def codeUnits (j : BandJob) (s : State) (uy : Nat) : Nat → Nat → List (List (List Nat)) → List Config.UnitCode × List (List (List Nat))
  | 0, _, win => ([], win)
  | n + 1, col, win =>
    let u := unitSize j.ctx.codec
    let ux := col * u
    let win := match j.ref with
      | none => []
      | some b => if col = 0 then fillWindow b u ux uy s else slideWindow b u ux uy win s
    let code := Config.codeUnit j.seed (uy * 4096 + ux) j.qp (unitSource j u ux uy) win
    let blocks := if j.ref.isSome then code.blocks.map (boundBlock j.ctx j.w j.h u ux uy) else []
    let r := codeUnits j s uy n (col + 1) win
    (⟨code.bits, blocks⟩ :: r.1, r.2)

/-- The unit rows of a band, four in H.264 and one otherwise; and the window of the last unit. -/
def codeRows (j : BandJob) (s : State) : List (List Config.UnitCode) × List (List (List Nat)) :=
  let u := unitSize j.ctx.codec
  let rows := (List.range (ceilDiv (min 64 (j.h - j.row)) u)).map (fun r => codeUnits j s (j.row + r * u) (ceilDiv j.w u) 0 [])
  (rows.map (·.1), (rows.getLast?.map (·.2)).getD [])

/-- Bits of area a of a band in normal coding: those of its units. -/
def areaBits (codec : Nat) (rows : List (List Config.UnitCode)) (a : Nat) : Nat :=
  let n := 64 / unitSize codec
  (rows.map (fun r => (((r.drop (a * n)).take n).map (·.bits)).sum)).sum

/-! ## Cap mode (R250) -/

/-- Keep the areas of a band from area `a` on: `n` areas are left in the band, `later` after them in the layer, `heads` band headers are
still to come. `bits` is what an area costs in normal coding; an area in cap mode costs at most `unit`, at `capQp`. -/
def codeAreas (bits : Nat → Nat) (unit heads capQp : Nat) : Nat → Nat → Nat → EncLayer → EncLayer
  | 0, _, _, l => l
  | n + 1, a, later, l =>
    let reserve := (n + later) * unit + heads * 512
    let capped := l.capped || decide (l.cap < l.spent + bits a + reserve)
    codeAreas bits unit heads capQp n (a + 1) later
      { l with capped := capped, spent := l.spent + (if capped then bits a % (unit + 1) else bits a),
               qpSum := l.qpSum + (if capped then capQp else l.qp), areas := l.areas + 1 }

/-- QP of a band: within its bounds, and at most 4 from the last band's (R249); in a stitch-ready context one QP for the whole picture,
which is STITCH_QIDX in AV1 (R254). -/
def nextQp (v : EncCtx) (first : Bool) (last seed : Nat) : Nat :=
  let x := Config.encoderQp seed 0
  let q := if first then x else last + x % 9 - 4
  if v.stitch && v.codec == 2 then v.stitchQidx
  else if v.stitch && !first then last
  else max v.qpMin (min v.qpMax q)

/-- Key of the band costs of a layer, T and type. -/
def costKey (l t : Nat) (key : Bool) : Nat := l * 16 + t * 2 + b2n key

/-- cost(b) of R249. -/
def bandCost (v : EncCtx) (o : Output) (l t : Nat) (key : Bool) (b : Nat) : Nat :=
  match v.costs.find? (costKey l t key) with
  | some cs => max (cs.getD b 0) 64
  | none => encRow v o l

/-- The budget of band b (R249). -/
def bandBudget (v : EncCtx) (o : Output) (l t : Nat) (key : Bool) (b : Nat) (x : EncLayer) : Nat :=
  let rest := ((List.range (encBands v o l - b)).map (fun k => bandCost v o l t key (b + k))).sum
  (x.allot - x.spent) * bandCost v o l t key b / max rest 1

/-- The units of a coded band before its body: the prefix NAL unit of an H.264 slice. -/
def bandPrefix (v : EncCtx) (w : EncWork) : List (List Byte) :=
  if v.codec = 0 then [h264Prefix (if topT v w.t then 0 else 2) w.t w.key] else []

/-- The header that stands before the body of a coded band: a slice, or a tile group (R240, R241, R253). A stitch-ready picture is one
slice segment or tile, so that only its first band has one (R254). -/
def bandHead (v : EncCtx) (w : EncWork) (l b : Nat) : List Byte :=
  if v.stitch ∧ b ≠ 0 then []
  else if v.codec = 0 then h264Nal (if topT v w.t then 0 else 2) (if w.key then 5 else 1) []
  else if v.codec = 1 then h265Nal (if w.key then 19 else if topT v w.t then 0 else 1) w.t []
  else obu 4 l w.t []

/-- Code band b of layer l: the bits it took, and the layer after it. The band's header takes at most 512 bits. -/
def codeBand (v : EncCtx) (o : Output) (w : EncWork) (l b seed : Nat) (x : EncLayer) (s : State) : Nat × EncLayer :=
  let bands := encBands v o l
  let row := encRow v o l
  let qp := nextQp v (b == 0) x.qp seed
  let job : BandJob := { ctx := v, w := encW v o l, h := encH v o l, seed := seed, qp := qp, src := encSource v o w.inputs l b, row := 64 * b,
                         ref := w.ref.map (fun r => bufKey v.pool (v.bufs.getD (3 * l + r) 0)) }
  let rows := codeRows job s
  let fixed := unitBits (bandHead v w l b :: bandPrefix v w)
  let x := { x with budget := bandBudget v o l w.t w.key b x, qp := qp, window := rows.2, vectors := rows.1.map (List.map (fun (c : Config.UnitCode) => c.blocks)) }
  let y := { x with spent := x.spent + fixed + Config.free seed % (513 - fixed) }
  let y := codeAreas (areaBits v.codec rows.1) (areaUnit w.key) (bands - 1 - b) (if v.stitch then qp else v.qpMax) row 0 (row * (bands - 1 - b)) y
  (y.spent - x.spent, { y with bands := y.bands ++ [y.spent - x.spent] })

/-- The debt after a picture (R251), and whether it was clamped. -/
def newDebt (debt : Int) (x : EncLayer) : Int × Bool :=
  let d := debt + x.spent - x.target
  let d := if d < -(x.target / 2 : Nat) then -((x.target / 2 : Nat) : Int) else d
  if (16 * x.p : Nat) < d then (((16 * x.p : Nat) : Int), true) else (d, false)

/-! ## Commands -/

/-- VID_ENC_RATE (R252): the next picture to start uses the new fields and a debt of 0; it completes the command. A picture in work goes
on with the old fields and the old debt. -/
def encRateBody (r : Req) (s : State) : Answer :=
  withEnc (df r.w1 11 0) r s (fun c =>
    if rateFine (encAt c s).codec (encAt c s).spatial r.w2 then
      (updEnc c (fun v =>
        if v.work.isSome then { v with nextRate := some r.w2, rateWait := v.rateWait ++ [r.tk] }
        else { v with rate := r.w2, debts := [0, 0, 0], rateWait := v.rateWait ++ [r.tk] }) s, none)
    else answer s (refuse stNotStarted 0x01))

def execVidEncRate (src : CmdSrc) (s : State) : Outcome :=
  onWf (.vidEncRate src) (command 0x7C (strictly ([(11, 0)], [(127, 0)], []) encRateBody) src s)

/-- VID_ENC_KEYFRAME (R253). -/
def encKeyBody (r : Req) (s : State) : Answer :=
  withEnc (df r.w1 11 0) r s (fun c => answer (updEnc c (fun v => { v with pending := true }) s) (okWith 0))

def execVidEncKeyframe (src : CmdSrc) (s : State) : Outcome :=
  onWf (.vidEncKeyframe src) (command 0x7D (strictly ([(11, 0)], [], []) encKeyBody) src s)

/-- VID_ENC_READ (R259). -/
def encReadBody (r : Req) (s : State) : Answer :=
  withEnc (df r.w1 11 0) r s (fun c =>
    let v := encAt c s
    let w := pack128 [(64, 64, v.source), (32, 32, toTwos 32 (v.debts.getD 0 0)), (20, 12, c), (11, 9, v.tile)]
    let s1 := hostPut (df r.w2 63 0) (bytesOf128 w ++ v.ctrs.flatMap (leBytes 8)) s
    answer (if bitOf r.w3 0 then updEnc c (fun v => { v with ctrs := List.replicate 6 0 }) s1 else s1) (okWith 0))

def execVidEncRead (src : CmdSrc) (s : State) : Outcome :=
  onWf (.vidEncRead src) (command 0x7E (strictly ([(11, 0)], [(63, 0)], [(0, 0)]) encReadBody) src s)

/-- The context ends (R259): its bands are discarded, its source released, its buffers returned, its load lowered. -/
def finishEncRelease (c : Nat) (s : State) : State :=
  let v := encAt c s
  let s := v.bufs.foldl (fun s b => updBuf (bufKey v.pool b) (fun f => { f with encoder := false }) s) s
  let s := removeSource (handleIdx v.source) (trimPool v.pool (dropLoad v.part 1 v.load (dropWork v.tile s)))
  let s := v.rateWait.foldl (fun s t => complete t (refuse stNotStarted 0) s) s
  let s := releaseId .encCtx c (setEnc c {} s)
  match v.releasing with
  | some t => complete t (okVia (v.tile / 128) 0 s) s
  | none => s

/-- VID_ENC_RELEASE: a picture in progress ends first; a frame that waits does not start. -/
def encReleaseBody (r : Req) (s : State) : Answer :=
  withEnc (df r.w1 11 0) r s (fun c =>
    let v := encAt c s
    if v.releasing.isSome then answer s (okWith 0)
    else if 0 < (sourceAt (handleIdx v.source) s).readers || stitchReads v.source s then answer s (refuse stNotStarted 0x0A)
    else
      let s := match v.queue with
        | b :: _ => encSkipped c b.frame 0x06 s
        | [] => s
      let s := updEnc c (fun v => { v with queue := [], releasing := some r.tk }) s
      if v.work.isSome then (s, none) else (finishEncRelease c s, none))

def execVidEncRelease (src : CmdSrc) (s : State) : Outcome :=
  onWf (.vidEncRelease src) (command 0x7F (strictly ([(11, 0)], [], []) encReleaseBody) src s)

/-- KF_INTERVAL (R253). -/
def kfIntervalDo (c : Nat) (s : State) : State :=
  let v := encAt c s
  if (identOf .encCtx c s).used && v.kfInterval != 0 && decide (v.lastKey + v.kfInterval * 100000000 ≤ nowNs s) then
    setEnc c { v with pending := true } s
  else s

def execKfInterval (ctx : Nat) (s : State) : Outcome := onWf (.kfInterval ctx) (kfIntervalDo ctx s)

end Sys2Proof.Machine
end

