-- ==== Sys2Proof/Machine/Compose.lean ====
section
/-! DEFINITION. Outputs: their commands, layers and commits, and the composition of bands with the Cocoon layer
(R208-R227, R234-R237). -/

namespace Sys2Proof.Machine

/-! ## Creation (R208, R209, R226) -/

def Output.wait (v : Output) : Nat := fld v.w2 49 30
def Output.codec (v : Output) : Nat := b2n (bitOf v.w1 11)
def Output.deep (v : Output) : Bool := bitOf v.w1 12
def Output.colour (v : Output) : Nat := fld v.w1 15 13
def Output.cellW (v : Output) : Nat := fld v.w2 6 0 * 64
def Output.cellH (v : Output) : Nat := fld v.w2 12 7 * 64
def Output.cols (v : Output) : Nat := fld v.w2 16 13 + 1
def Output.rows (v : Output) : Nat := fld v.w2 20 17 + 1
def Output.mbps (v : Output) : Nat := fld v.w2 36 21
def Output.room (v : Output) : Nat := fld v.w2 49 37
def Output.recQueue (v : Output) : Nat := fld v.w3 63 0
def Output.mode (v : Output) : Nat := fld v.w3 65 64
/-- ns of a frame period (R210). -/
def Output.periodNs (v : Output) : Nat := 1000000 * v.m / v.fps
/-- Role quantity of an output's tile: PX or ST. -/
def Output.role (v : Output) : Nat := if v.stitched then 5 else 2

/-- The fields of VID_OUT_CREATE (R226, R234). -/
def outFine (v : Output) : Bool :=
  let r := fun x lo hi => decide (lo ≤ x) && decide (x ≤ hi)
  decide (v.colour ≤ 5) && r v.width 64 4096 && v.width % 16 == 0 && r v.height 64 2304 && v.height % 16 == 0 && r v.fps 1 120
    && r v.maxDepth 1 64 && v.mode != 3
    && (if v.stitched then
          r v.cellW 256 4096 && r v.cellH 64 2304 && decide (v.cols * v.cellW ≤ 4096) && decide (v.rows * v.cellH ≤ 2304)
            && decide (v.cellCount ≤ 64) && (v.codec == 1 || (decide (v.cols ≤ 10) && decide (v.rows ≤ 11))) && r v.mbps 1 40000
        else decide (v.wait * 1000 ≤ v.periodNs))

def outLoad (v : Output) : Nat :=
  if v.stitched then v.mbps else ceilDiv (v.width * v.height * v.fps * ceilDiv v.maxDepth 8) 1000000

def outLoadOf (t : Nat) (s : State) : Nat := (((outputList s).filter (fun c => c.2.tile == t)).map (·.2.load)).sum
def outCountOf (t : Nat) (s : State) : Nat := ((outputList s).filter (fun c => c.2.tile == t)).length

def outTile (v : Output) (s : State) : Option Nat :=
  leastLoaded (fun t => outLoadOf t s) ((roleTiles v.part v.role (wingTiles v.wing) s).filter (fun t =>
    decide (outCountOf t s < 64) && decide (outLoadOf t s + v.load ≤ ceilingOf v.role * factorOf v.part v.role s / 1000)))

/-- boundary(n) as a compare word (R210). -/
def boundaryOf (v : Output) (n : Nat) : Nat := cmpAdd v.base (n * 1000000 * v.m / v.fps)

/-- The smallest n whose boundary is at or after a compare word. -/
def firstFrame (v : Output) (now : Nat) : Nat := ceilDiv ((cmpDiff now v.base).toNat * v.fps) (1000000 * v.m)

/-- After a step of the time base the grid resumes at its first boundary at or after the new time (R357). -/
def settleNext (o : Nat) (s : State) : State :=
  let v := outputAt o s
  if v.stepSeen = s.time.steps then s
  else setOutput o { v with next := firstFrame v s.time.stepCmp, stepSeen := s.time.steps } s

/-- The creation, once a number and a tile are found. -/
def outAdd (v : Output) (o t : Nat) (src : Option Nat) (s : State) : State :=
  let s := match src with
    | some i => addSource i (localSource v.fn v.wing v.room (if v.codec = 0 then 2 else 3) 0 0) s
    | none => s
  let v := { v with tile := t, next := firstFrame v (cmpNow s), stepSeen := s.time.steps, source := match src with | some i => handleFor .source i s | none => 0 }
  addWork t (addLoad v.part v.role v.load (setOutput o v (allocId .output o s)))

def outAdmit (v : Output) (s : State) : Answer :=
  if !fits v.part v.role v.load s then answer s ⟨stCapacity, 0, 0x06 + liveOf v.part v.role s % 2 ^ 32 * 256⟩
  else match lowestFree .output 0 8192 s, lowestFree .source 0 131072 s with
    | some o, src =>
      if v.stitched && src.isNone then answer s (refuse stCapacity 0x07)
      else match outTile v s with
        | none => answer s (refuse stCapacity 0x08)
        | some t => answer (outAdd v o t (if v.stitched then src else none) s)
            (okVia v.wing (packNat [(8, 32, liveOf v.part v.role s), (40, 13, o), (53, 9, t)]) s)
    | none, _ => answer s (refuse stCapacity 0x07)

/-- VID_OUT_CREATE (R209, R234). -/
def outCreateBody (r : Req) (s : State) : Answer :=
  let v : Output := { fn := reqFn r, part := df r.w1 5 0, wing := df r.w1 9 8, w1 := r.w1, w2 := r.w2, w3 := r.w3 }
  let v := { v with load := outLoad v }
  let ctl := partControl r v.part s
  if !outFine v then answer s (refuse stNotStarted 0x01)
  else if v.stitched && !holdsRoom (reqFn r) v.room s then answer s (refuse stRefused 0x09)
  else if !ctl.1 then answer ctl.2 (refuse stRefused 0x09)
  else match recordQueueRefusal r v.mode v.recQueue s with
    | some x => queueRefused v.recQueue x s
    | none => outAdmit v s

def execVidOutCreate (src : CmdSrc) (s : State) : Outcome :=
  onWf (.vidOutCreate src) (command 0x75 (strictly ([(5, 0), (55, 8), (127, 64)], [(49, 0)], [(65, 0)]) outCreateBody) src s)

/-- The output that a command names, for its owner, PF0 and firmware (R208). -/
def withOut (o : Nat) (r : Req) (s : State) (f : Nat → Answer) : Answer :=
  if (identOf .output o s).used && (r.owner || (outputAt o s).fn == r.fn) then viaWing (outputAt o s).wing (f o) else answer s (refuse stRefused 0x09)

/-- A Cocoon request from a function other than PF0 (R225). -/
def cocoonRefused (o : Nat) (r : Req) (s : State) : Answer :=
  answer (recordBy r.master 0x0701 [(2, o), (1, r.fn), (1, df r.w0 7 0)] s) (refuse stCocoon 0x0F)

/-! ## Layers (R213, R215, R224, R227) -/

/-! Fields of a composed layer (R234). -/
def LayerCfg.ctx (c : LayerCfg) : Nat := fld c.w2 14 0
def LayerCfg.colour (c : LayerCfg) : Nat := fld c.w2 17 15
def LayerCfg.alpha (c : LayerCfg) : Nat := fld c.w2 28 18
def LayerCfg.solid (c : LayerCfg) : Nat := fld c.w2 58 29
def LayerCfg.cropX (c : LayerCfg) : Nat := fld c.w2 70 59
def LayerCfg.cropY (c : LayerCfg) : Nat := fld c.w2 82 71
def LayerCfg.cropW (c : LayerCfg) : Nat := fld c.w2 95 83
def LayerCfg.cropH (c : LayerCfg) : Nat := fld c.w2 107 96
def LayerCfg.dstX (c : LayerCfg) : Int := ofTwos 14 (fld c.w3 13 0)
def LayerCfg.dstY (c : LayerCfg) : Int := ofTwos 14 (fld c.w3 27 14)
def LayerCfg.dstW (c : LayerCfg) : Nat := fld c.w3 40 28
def LayerCfg.dstH (c : LayerCfg) : Nat := fld c.w3 53 41
/-! Fields of layer 64 of a composed output (R223). -/
def LayerCfg.surface (c : LayerCfg) (b : Bool) : Nat := if b then fld c.w2 30 16 else fld c.w2 14 0
def LayerCfg.select (c : LayerCfg) : Bool := bitOf c.w2 32
def LayerCfg.enabled (c : LayerCfg) : Bool := bitOf c.w2 33

/-- dst / crop lies between 1/8 and 8. -/
def ratioOk (dst crop : Nat) : Bool := decide (crop ≤ 8 * dst) && decide (dst ≤ 8 * crop)

def layerFine (c : LayerCfg) : Bool :=
  let even := fun n => n % 2 == 0
  decide (c.typ ≤ 2) && (c.typ == 0 ||
    (decide (c.alpha ≤ 1024) && even c.cropX && even c.cropY && even c.cropW && even c.cropH && even c.dstW && even c.dstH
      && c.dstX % 2 == 0 && c.dstY % 2 == 0
      && (c.typ == 2 || c.cropW == 0 || (ratioOk c.dstW c.cropW && ratioOk c.dstH c.cropH))))

/-- Bytes of a Cocoon surface, and the regions that hold it (R223). -/
def surfaceBytes (v : Output) : Nat := v.width * v.height * 3 + v.width * v.height / 8
def surfaceRegions (v : Output) (r : Nat) : List Nat := (List.range (ceilDiv (surfaceBytes v) regionBytes)).map (r + ·)

/-- Entries of a region that a Cocoon surface allows (R224). -/
def cocoonRegion (v : Output) (idx : Nat) (s : State) : Bool :=
  decide (idx < 32768)
    && (List.range 63).all (fun k => accBits tgRegion idx (k + 1) s == 0)
    && (List.range 64).all (fun g => accBits tgRegion idx (128 + g) s &&& (bitWrite + bitControl) == 0)
    && accHas tgRegion idx (128 + v.tile / 8) bitRead s

def cocoonSurfaces (v : Output) (c : LayerCfg) : List Nat := surfaceRegions v (c.surface false) ++ surfaceRegions v (c.surface true)

/-- A cell's source or ALT_SOURCE: what refuses it (R227). -/
def cellRefusal (v : Output) (h : Nat) (s : State) : Option Reply :=
  match resolve .source h s with
  | .refused => some (refuse stRefused 0)
  | .stale => some ⟨stStale, 0, 0⟩
  | .ok i =>
    let x := sourceAt i s
    if x.fn ≠ v.fn then some (refuse stRefused 0x09)
    else if x.format ≠ (if v.codec = 0 then 2 else 3) then some (refuse stNotStarted 0x02)
    else if bitOf x.w3 106 then some (refuse stNotStarted 0x03)
    else if !hasRoute (0x100 + x.wing) (v.tile / 8) s then some (refuse stNotStarted 0x0C)
    else none

/-- What refuses a write to a layer (R213, R215, R224, R226, R227). -/
def layerRefusal (v : Output) (l : Nat) (c : LayerCfg) (s : State) : Option Reply :=
  let bad := some (refuse stNotStarted 0x01)
  if v.stitched then
    if l = 64 then
      if v.cellCount ≤ fld c.w2 5 0 then bad else if c.enabled then cellRefusal v (fld c.w3 63 0) s else none
    else if v.cellCount ≤ l ∨ 1 < c.typ then bad
    else if c.typ = 0 then none
    else match cellRefusal v (fld c.w2 63 0) s with
      | some x => some x
      | none => if fld c.w2 127 64 = 0 then none else cellRefusal v (fld c.w2 127 64) s
  else if l = 64 then
    if c.enabled && !(cocoonSurfaces v c).all (fun x => cocoonRegion v x s) then some (refuse stRefused 0x0E) else none
  else if 64 < l ∨ !layerFine c then bad
  else if c.typ = 1 then
    if !((identOf .decCtx c.ctx s).used && (decAt c.ctx s).fn == v.fn) then some (refuse stRefused 0x09)
    else if !hasRoute ((decAt c.ctx s).tile / 8) (v.tile / 8) s then some (refuse stNotStarted 0x0C) else none
  else none

/-- The layer is the Cocoon cell of a stitched output, in the shadow or in force. -/
def isCocoonCell (v : Output) (l : Nat) : Bool :=
  let names := fun (t : Tab LayerCfg) => bitOf (t.get 64 {}).w2 33 && fld (t.get 64 {}).w2 5 0 == l
  v.stitched && (names v.shadow || names v.active || (match v.pending with | some t => names t | none => false))

/-- A stale source handle of a cell counts in its Wing's ING_STALE (R116). -/
def staleCell (h : Nat) (s : State) : State :=
  match resolve .source h s with
  | .stale => count (ingCtr (sourceAt (handleIdx h) s).wing 9) 1 s
  | _ => s

/-- The stale handle that refuses a write to a layer of a stitched output. -/
def staleLayer (c : LayerCfg) (l : Nat) (s : State) : State :=
  if l = 64 then staleCell (fld c.w3 63 0) s
  else match resolve .source (fld c.w2 63 0) s with
    | .stale => staleCell (fld c.w2 63 0) s
    | _ => staleCell (fld c.w2 127 64) s

/-- VID_OUT_LAYER (R211, R225). -/
def outLayerBody (r : Req) (s : State) : Answer :=
  let o := df r.w1 12 0
  let l := df r.w1 22 16
  if !r.owner && (l == 64 || ((identOf .output o s).used && isCocoonCell (outputAt o s) l)) then cocoonRefused o r s
  else withOut o r s (fun o =>
    let v := outputAt o s
    let c := { v.shadow.get l {} with typ := df r.w1 25 24, w2 := r.w2, w3 := r.w3 }
    let c := { c with born := if !v.stitched && c.typ == 1 then (decAt c.ctx s).born else 0 }
    match layerRefusal v l c s with
    | some x => answer (if x.st = stStale then staleLayer c l s else s) x
    | none => answer (setOutput o { v with shadow := v.shadow.set l c } s) (okWith 0))

/-- The fields of VID_OUT_LAYER by the kind of the output and the layer (R234). -/
def layerLayout (r : Req) (s : State) : Layout :=
  let w1 := [(12, 0), (22, 16), (25, 24)]
  let l := df r.w1 22 16
  if (outputAt (df r.w1 12 0) s).stitched then
    if l = 64 then (w1, [(5, 0), (33, 33)], [(63, 0)]) else (w1, [(127, 0)], [])
  else if l = 64 then (w1, [(14, 0), (30, 16), (33, 32)], []) else (w1, [(107, 0)], [(53, 0)])

def execVidOutLayer (src : CmdSrc) (s : State) : Outcome :=
  onWf (.vidOutLayer src) (command 0x76 (fun r s => strictly (layerLayout r s) outLayerBody r s) src s)

/-- VID_OUT_MATRIX (R211, R217). -/
def outMatrixBody (r : Req) (s : State) : Answer :=
  let o := df r.w1 12 0
  let l := df r.w1 22 16
  if !r.owner && l == 64 then cocoonRefused o r s
  else withOut o r s (fun o =>
    let v := outputAt o s
    if v.stitched || decide (63 < l) then answer s (refuse stNotStarted 0x01)
    else answer (setOutput o { v with shadow := v.shadow.set l { v.shadow.get l {} with m2 := r.w2, m3 := r.w3 } } s) (okWith 0))

def execVidOutMatrix (src : CmdSrc) (s : State) : Outcome :=
  onWf (.vidOutMatrix src) (command 0x77 (strictly ([(12, 0), (22, 16)], [(127, 0)], [(75, 0)]) outMatrixBody) src s)

/-! ## Depth (R212) -/

/-- The layer's clipped destination covers a sample. -/
def covers (v : Output) (c : LayerCfg) (x y : Int) : Bool :=
  decide (0 ≤ x) && decide (x < v.width) && decide (0 ≤ y) && decide (y < v.height)
    && decide (c.dstX ≤ x) && decide (x < c.dstX + c.dstW) && decide (c.dstY ≤ y) && decide (y < c.dstY + c.dstH)

/-- The most layers over one sample: it is met at the left edge of one layer and the top edge of another. -/
def depthOf (v : Output) (t : Tab LayerCfg) : Nat :=
  let ls := (t.toList.filter (fun c => decide (c.1 < 64) && c.2.typ != 0)).map (·.2)
  let xs := 0 :: ls.map (·.dstX)
  let ys := 0 :: ls.map (·.dstY)
  (xs.flatMap (fun x => ys.map (fun y => (ls.filter (fun c => covers v c x y)).length))).foldl max 0

/-- A cell's ALT_SOURCE is a stitch-ready local source of an encode context, of the cell's size (R232, R254). -/
def altReady (v : Output) (h : Nat) (s : State) : Bool :=
  (encList s).any (fun c =>
    c.2.source == h && c.2.stitch && encW c.2 (outputAt c.2.output s) 0 == v.cellW && encH c.2 (outputAt c.2.output s) 0 == v.cellH)

/-- Every ALT_SOURCE that a commit names is ready (log entry 149). -/
def altsReady (v : Output) (t : Tab LayerCfg) (s : State) : Bool :=
  t.toList.all (fun c => decide (63 < c.1) || c.2.typ == 0 || fld c.2.w2 127 64 == 0 || altReady v (handleIn (fld c.2.w2 127 64)) s)

/-- VID_OUT_COMMIT (R211, R212, R225): it completes at the boundary where its settings become active. -/
def outCommitBody (r : Req) (s : State) : Answer :=
  let o := df r.w1 12 0
  if bitOf r.w1 16 && !r.owner then cocoonRefused o r s
  else withOut o r s (fun o =>
    let v := outputAt o s
    let next := if bitOf r.w1 16 then (v.pending.getD v.active).set 64 (v.shadow.get 64 {}) else v.shadow
    if !v.stitched && decide (v.maxDepth < depthOf v next) then answer s (refuse stNotStarted 0x0D)
    else if v.stitched && !altsReady v next s then answer s (refuse stNotStarted 0x01)
    else (setOutput o { v with pending := some next, whole := v.whole || !bitOf r.w1 16, commits := v.commits ++ [r.tk] } s, none))

def execVidOutCommit (src : CmdSrc) (s : State) : Outcome :=
  onWf (.vidOutCommit src) (command 0x78 (strictly ([(12, 0), (16, 16)], [], []) outCommitBody) src s)

/-- The image of VID_OUT_READ (R234): the active frame is the one that began last (log entry 126), and a tenant reads layer 64 as
all ones. -/
def outImage (v : Output) (owner : Bool) : List Byte :=
  bytesOf128 (pack128 [(64, 64, v.source), (32, 32, v.next + 2 ^ 32 - 1)]) ++ v.ctrs.flatMap (leBytes 8) ++ List.replicate 64 0
    ++ (List.range 65).flatMap (fun l =>
      if l = 64 && !owner then List.replicate 32 0xFF
      else bytesOf128 (v.active.get l {}).w2 ++ bytesOf128 (v.active.get l {}).w3)

def outReadBody (r : Req) (s : State) : Answer :=
  withOut (df r.w1 12 0) r s (fun o =>
    let s1 := hostPut (df r.w2 63 0) (outImage (outputAt o s) r.owner) s
    answer (if bitOf r.w3 0 then updOutput o (fun v => { v with ctrs := List.replicate 7 0 }) s1 else s1) (okWith 0))

def execVidOutRead (src : CmdSrc) (s : State) : Outcome :=
  onWf (.vidOutRead src) (command 0x79 (strictly ([(12, 0)], [(63, 0)], [(0, 0)]) outReadBody) src s)

/-! ## Colour (R216, R217) -/

/-- Kr and Kb of the three descriptions, in 1/10,000. -/
def lumaKr (code : Nat) : Rat := if code / 2 = 0 then 299 / 1000 else if code / 2 = 1 then 2126 / 10000 else 2627 / 10000
def lumaKb (code : Nat) : Rat := if code / 2 = 0 then 114 / 1000 else if code / 2 = 1 then 722 / 10000 else 593 / 10000

/-- Rows of the conversion from R'G'B' to Y'CbCr, and back. -/
def toYuv (code : Nat) : List (List Rat) :=
  let r := lumaKr code
  let b := lumaKb code
  let g := 1 - r - b
  [[r, g, b], [-r / (2 * (1 - b)), -g / (2 * (1 - b)), 1 / 2], [1 / 2, -g / (2 * (1 - r)), -b / (2 * (1 - r))]]
def fromYuv (code : Nat) : List (List Rat) :=
  let r := lumaKr code
  let b := lumaKb code
  let g := 1 - r - b
  [[1, 0, 2 * (1 - r)], [1, -2 * b * (1 - b) / g, -2 * r * (1 - r) / g], [1, 2 * (1 - b), 0]]

def matAt (m : List (List Rat)) (i j : Nat) : Rat := (m.getD i []).getD j 0

/-- Code values that a component spans: limited range 876 and 896, full range 1,023. -/
def rangeOf (code k : Nat) : Rat := if code % 2 = 0 then (if k = 0 then 876 else 896) else 1023

/-- Coefficient C_ij in Q2.13 from `src` to `out`, to nearest (log entry 30; the spec's example agrees). -/
def convCoef (src out i j : Nat) : Int :=
  let m := (List.range 3).foldl (fun (a : Rat) k => a + matAt (toYuv out) i k * matAt (fromYuv src) k j) 0
  (m * rangeOf out i / rangeOf src j * 8192 + 1 / 2).floor

def lumaOffset (code : Nat) : Int := if code % 2 = 0 then 64 else 0

/-- A conversion: nine coefficients, input and output offsets. -/
structure Matrix3 where
  c : List Int
  i : List Int
  o : List Int
  deriving DecidableEq, Repr, Inhabited

def builtMatrix (src out : Nat) : Matrix3 :=
  ⟨(List.range 9).map (fun n => convCoef src out (n / 3) (n % 3)), [lumaOffset src, 512, 512], [lumaOffset out, 512, 512]⟩

/-- The custom values of VID_OUT_MATRIX (R234). -/
def customMatrix (c : LayerCfg) : Matrix3 :=
  let coef := fun n => if n < 8 then fld c.m2 (16 * n + 15) (16 * n) else fld c.m3 15 0
  ⟨(List.range 9).map (fun n => ofTwos 16 (coef n)),
   (List.range 3).map (fun n => (fld c.m3 (25 + 10 * n) (16 + 10 * n) : Int)),
   (List.range 3).map (fun n => (fld c.m3 (55 + 10 * n) (46 + 10 * n) : Int))⟩

/-- out_k of R217. -/
def convert (m : Matrix3) (x : List Int) (k : Nat) : Int :=
  let d := fun j => x.getD j 0 - m.i.getD j 0
  let sum := m.c.getD (3 * k) 0 * d 0 + m.c.getD (3 * k + 1) 0 * d 1 + m.c.getD (3 * k + 2) 0 * d 2 + 4096
  clampInt (sum.fdiv 8192 + m.o.getD k 0) 0 1023

/-- R216. -/
def blend (alpha : Nat) (top below : Int) : Int := ((alpha : Int) * top + (1024 - alpha) * below + 512).fdiv 1024

/-! ## Frames -/

def colourTriple (v : Nat) : List Int := [(v / 2 ^ 20 % 1024 : Nat), (v / 2 ^ 10 % 1024 : Nat), (v % 1024 : Nat)]

/-- The crop rectangle that a layer takes from a picture of w × h (R215): the origin and the size. -/
def cropOf (c : LayerCfg) (w h : Nat) : Nat × Nat × Nat × Nat :=
  if c.cropW = 0 then (0, 0, w, h) else (c.cropX, c.cropY, c.cropW, c.cropH)

/-- The latched picture contains the crop rectangle, and a whole-picture ratio is within its limits (R215). -/
def geometryOk (c : LayerCfg) (w h : Nat) : Bool :=
  if c.cropW = 0 then ratioOk c.dstW w && ratioOk c.dstH h
  else decide (c.cropX + c.cropW ≤ w) && decide (c.cropY + c.cropH ≤ h)

/-- A length of component k of a 4:2:0 picture. -/
def halfOf (k n : Nat) : Nat := if k = 0 then n else n / 2

/-- Sample of component k of a picture at a place of its plane, in 10 bits; beyond the edge that of the edge (R215). -/
def edgeSample (b k : Nat) (x y : Int) (s : State) : Nat :=
  let f := bufAt b s
  let edge := fun (n : Nat) (z : Int) => (clampInt z 0 ((if k = 0 then n else ceilDiv n 2 : Nat) - 1 : Int)).toNat
  readSample b k (edge f.width x) (edge f.height y) s

/-- The scaler of R215 at a place of a layer's destination in component k: 64 phases across and down, 8 taps for luma and 4 for chroma
from 3, or 1, samples before the place in the source. -/
def scaledSample (c : LayerCfg) (b k x y : Nat) (s : State) : Nat :=
  let f := bufAt b s
  let g := cropOf c f.width f.height
  let px := x * (64 * g.2.2.1) / max 1 c.dstW
  let py := y * (64 * g.2.2.2) / max 1 c.dstH
  let taps := if k = 0 then 8 else 4
  let at_ := fun (o p i : Nat) => (halfOf k o : Int) + (p / 64 : Nat) + (i : Int) - (taps / 2 - 1 : Nat)
  Config.scalerFilter k (px % 64) (py % 64) [g.2.2.1, g.2.2.2, c.dstW, c.dstH]
    ((List.range taps).flatMap (fun j => (List.range taps).map (fun i => edgeSample b k (at_ g.1 px i) (at_ g.2.1 py j) s))) % 1024

/-- A layer's sample at an output position, converted into the output's colour. -/
def layerSample (v : Output) (c : LayerCfg) (b : Nat) (x y : Int) (k : Nat) (s : State) : Int :=
  let src := if c.colour = 7 then (if c.typ = 1 then (bufAt b s).colour else 2) else c.colour
  let m := if c.colour = 6 then customMatrix c else builtMatrix src v.colour
  let raw : List Int := if c.typ = 2 then colourTriple c.solid
    else (List.range 3).map (fun j => (scaledSample c b j (halfOf j (x - c.dstX).toNat) (halfOf j (y - c.dstY).toNat) s : Int))
  convert m raw k

/-- The layers that draw in a band of a frame: solids, and contexts with a buffer that is not left out; with their buffer. -/
def drawn (f : FrameWork) : List (LayerCfg × Nat) :=
  ((f.layers.toList.filter (fun c => decide (c.1 < 64) && c.2.typ != 0)).filterMap (fun c =>
    if c.2.typ = 2 then some (c.2, 0)
    else match f.latched.find? (fun x => x.1 == c.1) with
      | some x => if f.left.contains (c.1, f.band) || f.off.contains c.1 then none else some (c.2, x.2)
      | none => none))

/-- The composed sample beneath Cocoon. -/
def composedSample (v : Output) (ls : List (LayerCfg × Nat)) (x y : Int) (k : Nat) (s : State) : Int :=
  ls.foldl (fun a l => if covers v l.1 x y then blend l.1.alpha (layerSample v l.1 l.2 x y k s) a else a)
    ((colourTriple (fld v.w2 29 0)).getD k 0)

/-! ### Cocoon (R221, R223) -/

/-- Byte n of the selected surface. -/
def surfaceByte (c : LayerCfg) (n : Nat) (s : State) : Byte :=
  let r := c.surface c.select
  Mem.read s.dram (dramAt (r / 4096) (r % 4096 * regionBytes + n))

def surfaceSample (c : LayerCfg) (n : Nat) (s : State) : Nat := ((surfaceByte c (2 * n) s).toNat + 256 * (surfaceByte c (2 * n + 1) s).toNat) % 1024

/-- The mask bit of a luma sample. -/
def cocoonMask (v : Output) (c : LayerCfg) (x y : Nat) (s : State) : Bool :=
  c.enabled && (surfaceByte c (v.width * v.height * 3 + y * (v.width / 8) + x / 8) s).getLsbD (x % 8)

/-- A luma sample as the Cocoon stage lets it leave. -/
def lumaOut (v : Output) (f : FrameWork) (ls : List (LayerCfg × Nat)) (x y : Nat) (s : State) : Nat :=
  let k := f.layers.get 64 {}
  if cocoonMask v k x y s then surfaceSample k (y * v.width + x) s else (composedSample v ls x y 0 s).toNat

/-- A chroma sample (component 1 or 2) of the 2 × 2 luma samples at (2x, 2y): replaced where any of them is masked. -/
def chromaOut (v : Output) (f : FrameWork) (ls : List (LayerCfg × Nat)) (x y k : Nat) (s : State) : Nat :=
  let c := f.layers.get 64 {}
  let masked := cocoonMask v c (2 * x) (2 * y) s || cocoonMask v c (2 * x + 1) (2 * y) s || cocoonMask v c (2 * x) (2 * y + 1) s
    || cocoonMask v c (2 * x + 1) (2 * y + 1) s
  if masked then surfaceSample c (v.width * v.height + y * v.width + 2 * x + (k - 1)) s
  else (composedSample v ls (2 * x : Nat) (2 * y : Nat) k s).toNat

def bandRows (v : Output) (b : Nat) : Nat := min 64 (v.height - 64 * b)

/-- The samples of the band in work. -/
def composeBand (v : Output) (f : FrameWork) (s : State) : PxBand :=
  let ls := drawn f
  let rows := bandRows v f.band
  { frame := f.n, band := f.band, flags := f.flags, at_ := nowNs s,
    luma := (List.range rows).flatMap (fun r => (List.range v.width).map (fun x => lumaOut v f ls x (64 * f.band + r) s)),
    chroma := (List.range (rows / 2)).flatMap (fun r => (List.range (v.width / 2)).flatMap (fun x =>
      [chromaOut v f ls x (32 * f.band + r) 1 s, chromaOut v f ls x (32 * f.band + r) 2 s])) }

/-- Cocoon draws in the band. -/
def cocoonDraws (v : Output) (f : FrameWork) (s : State) : Bool :=
  let c := f.layers.get 64 {}
  c.enabled && (List.range (bandRows v f.band)).any (fun r => (List.range v.width).any (fun x => cocoonMask v c x (64 * f.band + r) s))

/-! ### Inputs of a band (R218) -/

/-- The last source band that output band b of a layer needs, when the layer feeds it. -/
def neededBand (v : Output) (c : LayerCfg) (buf : FrameBuf) (b : Nat) : Option Nat :=
  let y0 := max (64 * b : Int) c.dstY
  let y1 := min (min (64 * b + 63 : Int) (v.height - 1 : Int)) (c.dstY + c.dstH - 1)
  if y1 < y0 ∨ c.dstX + c.dstW ≤ 0 ∨ (v.width : Int) ≤ c.dstX ∨ c.dstW = 0 then none
  else
    let g := cropOf c buf.width buf.height
    let last := ceilDiv ((y1 + 1 - c.dstY).toNat * g.2.2.2) c.dstH - 1 + g.2.1 + 4
    some (min last (buf.height - 1) / 64)

/-- The layers whose input for output band b is not published: layer, as R219 names them. -/
def unready (v : Output) (f : FrameWork) (b : Nat) (s : State) : List Nat :=
  (f.latched.filter (fun x =>
    let buf := bufAt x.2 s
    match neededBand v (f.layers.get x.1 {}) buf b with
    | none => false
    | some n => decide (buf.published.length ≤ n) && !f.left.contains (x.1, b) && !f.off.contains x.1)).map (·.1)

/-- The instant at which the band in work is ready (R218), `startNs` being that of its frame's boundary. A layer that is left out of a
band does not delay it. -/
def readyNs (v : Output) (f : FrameWork) (s : State) : Nat :=
  let pubs := f.latched.flatMap (fun x => (List.range (f.band + 1)).filterMap (fun b =>
    let buf := bufAt x.2 s
    if f.left.contains (x.1, b) || f.off.contains x.1 then none
    else (neededBand v (f.layers.get x.1 {}) buf b).map (fun n => buf.published.getD n 0)))
  pubs.foldl max (max f.startNs f.handedNs)

/-- 2 × Tpx of R218 in ns. -/
def pxBoundNs (v : Output) (b : Nat) (s : State) : Nat :=
  2 * (v.width * bandRows v b * ceilDiv v.maxDepth 8 * 1000 / max 1 (4 * factorOf v.part 2 s))

/-! ### Starting and ending a frame (R211, R214, R219, R220) -/

/-- Release output o's hold on a buffer (R188). -/
def unhold (o b : Nat) (s : State) : State :=
  let k := b / 16384
  trimPool k (updBuf b (fun f => { f with holders := f.holders.erase o }) s)

/-- The buffer is the current picture of its context. -/
def stillCurrent (b : Nat) (s : State) : Bool :=
  match (bufAt b s).ctx with
  | some c => (decAt c s).current == some b
  | none => false

/-- The last band of a frame is composed. A picture that the next boundary may latch again is held until then (R214). -/
def endHold (o b : Nat) (s : State) : State :=
  if stillCurrent b s then updBuf b (fun f => { f with holders := f.holders.erase o, lingers := o :: f.lingers.erase o }) s else unhold o b s

/-- The boundary has latched its pictures: what was held until then and is not among them is let go. -/
def endLingers (o : Nat) (s : State) : State :=
  (s.video.bufs.toList.filter (fun c => c.2.lingers.contains o)).foldl (fun s c =>
    trimPool (c.1 / 16384) (updBuf c.1 (fun f => { f with lingers := f.lingers.erase o }) s)) s

/-- The current picture of the context that a layer names, while that use of the context lasts (R213). -/
def layerPicture (v : Output) (c : LayerCfg) (s : State) : Option Nat :=
  let d := decAt c.ctx s
  if (identOf .decCtx c.ctx s).used && d.fn == v.fn && d.born == c.born then
    d.current.filter (fun b => decide ((bufAt b s).ctx = some c.ctx))
  else none

/-- What a frame latches: pairs of layer and buffer, the layers whose geometry does not fit, the flags. -/
structure Latch where
  pairs : List (Nat × Nat) := []
  off : List Nat := []
  flags : Nat := 0

/-- Latch the current pictures (R214, R215), with the marks. -/
def latchLayers (o : Nat) (v : Output) (t : Tab LayerCfg) (s : State) : Latch × State :=
  (t.toList.filter (fun c => decide (c.1 < 64) && c.2.typ == 1)).foldl (fun (a : Latch × State) c =>
    match layerPicture v c.2 a.2 with
    | none => ({ a.1 with flags := a.1.flags ||| 2 }, a.2)
    | some b =>
      let f := bufAt b a.2
      let fine := geometryOk c.2 f.width f.height
      ({ pairs := a.1.pairs ++ [(c.1, b)], off := if fine then a.1.off else a.1.off ++ [c.1],
         flags := if fine then a.1.flags else a.1.flags ||| 4 },
       setBuf b { f with outputPending := false, lingers := f.lingers.erase o,
                         holders := if f.holders.contains o then f.holders else o :: f.holders } a.2)) ({}, s)

/-- The source that settings give cell c, none where they turn it off. -/
def cellNames (t : Tab LayerCfg) (c : Nat) : Option Nat :=
  if (cellCfg t c).typ = 0 then none else some (fld (cellCfg t c).w2 63 0)

/-- A cell after a commit: anew where its source has changed; off ALT_SOURCE where the commit names its source again (R232). -/
def committedCell (v : Output) (t : Tab LayerCfg) (c : Nat) (k : Cell) : Cell :=
  if cellNames t c ≠ cellNames v.active c then {}
  else if v.whole || (bitOf (t.get 64 {}).w2 33 && fld (t.get 64 {}).w2 5 0 == c) then { k with altInUse := false, altWanted := false }
  else k

/-- Pending becomes active (R211). -/
def applyPending (v : Output) : Output :=
  match v.pending with
  | none => v
  | some t =>
    { v with active := t, pending := none, whole := false, owedCommits := v.owedCommits ++ v.commits, commits := [],
             cells := v.cells.mapVals (committedCell v t) }

/-- A layer's decoder and its composed output are on Wings whose link is rerouted (R31). -/
def layersRerouted (v : Output) (s : State) : Bool :=
  !v.stitched && v.active.toList.any (fun c =>
    decide (c.1 < 64) && c.2.typ == 1 && (identOf .decCtx c.2.ctx s).used && pairRerouted (decAt c.2.ctx s).wing v.wing s)

/-- Every commit that the frame carries completes with its number. -/
def completeCommits (o n : Nat) (s : State) : State :=
  let v := outputAt o s
  let s := setOutput o { v with owedCommits := [], ctrs := v.ctrs.set 3 (satAdd 64 (v.ctrs.getD 3 0) v.owedCommits.length) } s
  let far := layersRerouted v s
  v.owedCommits.foldl (fun s t =>
    complete t (if far then { okVia v.wing (n % 2 ^ 32 * 256) s with st := stDegraded } else okVia v.wing (n % 2 ^ 32 * 256) s) s) s

def outCount (o k n : Nat) (s : State) : State :=
  if n = 0 then s else updOutput o (fun v => { v with ctrs := v.ctrs.set k (satAdd 64 (v.ctrs.getD k 0) n) }) s

/-- A frame record (R236). -/
structure OutRecord where
  frame : Nat
  status : Nat
  reason : Nat
  flags : Nat := 0
  bands : Nat := 0
  refused : Nat := 0
  skips : Nat := 0
  greys : Nat := 0
  deriving DecidableEq, Repr, Inhabited

def outRecord (o : Nat) (p : OutRecord) (s : State) : State :=
  let v := outputAt o s
  if v.mode = 2 ∨ (v.mode = 1 ∧ p.status ≠ stOk) then
    let w0 := packNat [(107, 13, o), (75, 32, p.frame), (67, 8, p.status), (59, 8, p.reason), (51, 8, p.flags), (45, 6, p.bands),
                       (37, 8, p.refused), (29, 8, p.skips), (21, 8, p.greys)]
    let r := devicePush v.recQueue [w0, packNat [(56, 64, cmpNow s)]] s
    if r.1 = .stored then r.2 else updOutput o (fun v => { v with recDrop := satAdd 64 v.recDrop 1 }) r.2
  else s

/-- A frame begins: its commits complete with its number. -/
def beginFrame (o : Nat) (f : FrameWork) (s : State) : State :=
  let flags := if (outputAt o s).owedCommits.isEmpty then f.flags else f.flags + 16
  completeCommits o f.n (updOutput o (fun v => { v with work := some { f with handedNs := nowNs s, flags := flags } }) s)

/-- The output ends (R234): its holds, load and number, and the local source of a stitched one. -/
def finishOutRelease (o : Nat) (s : State) : State :=
  let v := outputAt o s
  let s := endLingers o ((s.video.bufs.toList.filter (fun c => c.2.holders.contains o)).foldl (fun s c => unhold o c.1 s) s)
  let s := dropLoad v.part v.role v.load (dropWork v.tile s)
  let s := if v.stitched then removeSource (handleIdx v.source) s else s
  let s := (v.commits ++ v.owedCommits).foldl (fun s t => complete t (refuse stNotStarted 0x10) s) s
  let s := releaseId .output o (setOutput o {} s)
  match v.releasing with
  | some t => complete t (okVia v.wing 0 s) s
  | none => s

/-- Highest reason of a composed frame's flags (R236). -/
def flagReason (flags : Nat) : Nat := if flags.testBit 2 then 4 else if flags.testBit 1 then 3 else if flags.testBit 0 then 1 else 0

/-- The last band has been handed on: the record, the holds that end, the frame that waits. -/
def endFrame (o : Nat) (f : FrameWork) (s : State) : State :=
  let v := outputAt o s
  let reason := flagReason f.flags
  let s := outRecord o { frame := f.n, status := if reason = 0 then stOk else stConcealed, reason := reason, flags := f.flags,
                         bands := bandsOf v.height } (outCount o 1 (b2n (reason != 0)) (outCount o 0 1 s))
  let kept : List Nat := match v.staged with | some g => g.latched.map (·.2) | none => []
  let s := ((f.latched.map (·.2)).eraseDups.filter (fun b => !kept.contains b)).foldl (fun s b =>
    if v.staged.isSome then unhold o b s else endHold o b s) s
  let s := updOutput o (fun v => { v with work := none, staged := none }) s
  if v.releasing.isSome then finishOutRelease o s
  else match v.staged with
    | some g => beginFrame o g s
    | none => s

/-- PX_BAND_HANDOFF: the band in work, when every input that feeds it is published or left out (R218, R221, R222). -/
def bandHandoffDo (o : Nat) (s : State) : State :=
  let v := outputAt o s
  match v.work with
  | none => s
  | some f =>
    if !(identOf .output o s).used || s.body.hold || !(unready v f f.band s).isEmpty then s
    else
      let draws := cocoonDraws v f s
      let f := { f with flags := if draws then f.flags ||| 8 else f.flags }
      let late := decide (readyNs v f s + pxBoundNs v f.band s < nowNs s)
      let band := composeBand v f s
      let s := count (tileCtr v.tile 0) 1 s
      let s := if late then count (tileCtr v.tile 1) 1 s else s
      let s := if draws then count (tileCtr v.tile 3) 1 s else s
      let s := (outputEncs o s).foldl (fun s c => veArrive c band s) s
      let f := { f with band := f.band + 1, handedNs := nowNs s }
      if bandsOf v.height ≤ f.band then endFrame o f s else updOutput o (fun v => { v with work := some f }) s

def execPxBandHandoff (output : Nat) (s : State) : Outcome := onWf (.pxBandHandoff output) (bandHandoffDo output s)

/-- INPUT_WAIT_EXPIRE: at boundary + WAIT_US the layer is left out of each band that still needs an unpublished one (R219). -/
def waitExpireDo (o l : Nat) (s : State) : State :=
  let v := outputAt o s
  match v.work with
  | none => s
  | some f =>
    let wait := if v.wait = 0 then v.periodNs / 2 else v.wait * 1000
    if !(identOf .output o s).used || !cmpReached (cmpNow s) (cmpAdd f.boundary wait) then s
    else
      let bs := (List.range (bandsOf v.height)).filter (fun b => decide (f.band ≤ b) && (unready v f b s).contains l)
      if bs.isEmpty then s
      else
        count (tileCtr v.tile 2) bs.length
          (updOutput o (fun v => { v with work := some { f with left := f.left ++ bs.map (fun b => (l, b)), flags := f.flags ||| 1 } }) s)

def execInputWaitExpire (output layer : Nat) (s : State) : Outcome := onWf (.inputWaitExpire output layer) (waitExpireDo output layer s)

/-- A boundary of a composed output (R210, R211, R214, R220). -/
def composedBoundary (o n : Nat) (s : State) : State :=
  -- the frame that waited is not composed
  let s := match (outputAt o s).staged with
    | some g =>
      let inWork : List Nat := match (outputAt o s).work with | some f => f.latched.map (·.2) | none => []
      let s := ((g.latched.map (·.2)).eraseDups.filter (fun b => !inWork.contains b)).foldl (fun s b => unhold o b s) s
      let s := outRecord o { frame := g.n, status := stNotStarted, reason := 0x02 } (outCount o 2 1 (updOutput o (fun v => { v with staged := none }) s))
      veNoInput o g.n s
    | none => s
  let s := updOutput o applyPending s
  let v := outputAt o s
  let r := latchLayers o v v.active s
  let at_ := boundaryOf v n
  let f : FrameWork := { n := n, boundary := at_, startNs := nowNs s - (cmpDiff (cmpNow s) at_).toNat, layers := v.active,
                         latched := r.1.pairs, off := r.1.off, flags := r.1.flags }
  let s := endLingers o (updOutput o (fun v => { v with next := n + 1 }) r.2)
  if v.work.isSome then updOutput o (fun v => { v with staged := some f }) s else beginFrame o f s

/-- VID_OUT_RELEASE (R234). -/
def outReleaseBody (r : Req) (s : State) : Answer :=
  withOut (df r.w1 12 0) r s (fun o =>
    let v := outputAt o s
    if v.releasing.isSome then answer s (okWith 0)
    else if v.stitched && decide (0 < (sourceAt (handleIdx v.source) s).readers) then answer s (refuse stNotStarted 0x05)
    else
      let s := setOutput o { v with releasing := some r.tk, staged := none } s
      if v.work.isSome || v.emit.isSome then (s, none) else (finishOutRelease o s, none))

def execVidOutRelease (src : CmdSrc) (s : State) : Outcome :=
  onWf (.vidOutRelease src) (command 0x7A (strictly ([(12, 0)], [], []) outReleaseBody) src s)

end Sys2Proof.Machine
end

