-- ==== Sys2Proof/Machine/AccessRows.lean ====
section
/-! DEFINITION. ACC_WRITE and ACC_QUERY (R382-R388). -/

namespace Sys2Proof.Machine

/-- A target of the kind and index exists (R382). -/
def targetExists (kind idx : Nat) : Bool := decide (idx < targetCount kind)

/-- The Cocoon surfaces that an output's active or pending settings draw (R224). -/
def liveSurfaces (v : Output) : List Nat :=
  if v.stitched then []
  else
    let cs := v.active.get 64 {} :: (match v.pending with | some t => [t.get 64 {}] | none => [])
    (cs.filter (fun c => c.enabled)).flatMap (fun c => cocoonSurfaces v c)

/-- The tables would leave a live Cocoon surface without what R224 asks of its regions. -/
def breaksCocoon (idx : Nat) (s : State) : Bool :=
  (outputList s).any (fun c => (liveSurfaces c.2).contains idx && !cocoonRegion c.2 idx s)

/-- STATUS and REASON of R386, and the tables as the write leaves them. -/
def accWriteResult (who : Nat) (w : Word64) (s : State) : Nat × Nat × State :=
  let kind := fld w 63 60
  let idx := fld w 59 44
  let m := fld w 43 36
  let after := { s with acc := { s.acc with entries := s.acc.entries.set (entryKey kind idx m) (fld w 35 32) } }
  if !(who == 0 || isCore who) then (stRefused, 0x03, s)
  else if !targetExists kind idx || decide (210 ≤ m) then (stRefused, 0x01, s)
  else if accHas kind idx m bitLock s then (stRefused, 0x02, s)
  else if kind == tgRegion && breaksCocoon idx after then (stCocoon, 0x04, s)
  else (stOk, 0, after)

/-- ACC_WRITE: its result is latched for the writer (R386). -/
def accWriteDo (who : Nat) (w : Word64) (s : State) : State :=
  let r := accWriteResult who w s
  { r.2.2 with acc := { r.2.2.acc with result := r.2.2.acc.result.set who (r.1 * 256 + r.2.1) } }

/-- The page's table alone guards the ACC page: a writer that it admits learns from R386 what it may do. -/
def pageGated (who off : Nat) (f : State → State) (s : State) : State :=
  let g := accCheck tgPage (off / 4096) who bitWrite s
  if g.1 then f g.2 else g.2

def execAccWrite (who : Nat) (v : BitVec 64) (s : State) : Outcome :=
  onWf (.accWrite who v) (pageGated who 0x800000 (accWriteDo who v) s)

/-- ACC_QUERY: the selection of the writer (R388). -/
def accQueryDo (who : Nat) (w : Word64) (s : State) : State :=
  { s with acc := { s.acc with query := s.acc.query.set who (fld w 63 60 * 65536 + fld w 59 44) } }

def execAccQuery (who : Nat) (v : BitVec 64) (s : State) : Outcome :=
  onWf (.accQuery who v) (pageGated who 0x800000 (accQueryDo who v) s)

/-! ## What the query registers read -/

/-- The selected target of a master, when it names one. -/
def accSelected (who : Nat) (s : State) : Option (Nat × Nat) :=
  match s.acc.query.find? who with
  | none => none
  | some q => if targetExists (q / 65536) (q % 65536) then some (q / 65536, q % 65536) else none

def accQueryStat (who : Nat) (s : State) : Nat :=
  match accSelected who s with
  | none => 0
  | some (k, i) =>
    let r := s.acc.refusals.get (targetKey k i) {}
    packNat [(48, 16, r.count), (40, 8, r.last), (0, 1, 1)]

def accQueryData (who k : Nat) (s : State) : Nat :=
  match accSelected who s with
  | none => 0
  | some (kind, i) => packNat ((List.range 16).map (fun m => (4 * m, 4, accBits kind i (16 * k + m) s)))

end Sys2Proof.Machine
end

