-- ==== Sys2Proof/Machine/Audio.lean ====
section
/-! DEFINITION. Audio: the commands of rooms, inputs, groups and buses, the decoders, and the loads they add (R263-R286). -/

namespace Sys2Proof.Machine

def audIn (i : Nat) (s : State) : AudIn := s.audio.ins.get i {}
def setAudIn (i : Nat) (v : AudIn) (s : State) : State := { s with audio := { s.audio with ins := s.audio.ins.set i v } }
def updAudIn (i : Nat) (f : AudIn → AudIn) (s : State) : State := setAudIn i (f (audIn i s)) s
def audRoom (r : Nat) (s : State) : AudRoom := s.audio.rooms.get r {}
def setAudRoom (r : Nat) (v : AudRoom) (s : State) : State := { s with audio := { s.audio with rooms := s.audio.rooms.set r v } }
def updAudRoom (r : Nat) (f : AudRoom → AudRoom) (s : State) : State := setAudRoom r (f (audRoom r s)) s
def audGroup (g : Nat) (s : State) : AudGroup := s.audio.groups.get g {}
def setAudGroup (g : Nat) (v : AudGroup) (s : State) : State := { s with audio := { s.audio with groups := s.audio.groups.set g v } }
def updAudGroup (g : Nat) (f : AudGroup → AudGroup) (s : State) : State := setAudGroup g (f (audGroup g s)) s
def audBus (b : Nat) (s : State) : AudBus := s.audio.buses.get b {}
def setAudBus (b : Nat) (v : AudBus) (s : State) : State := { s with audio := { s.audio with buses := s.audio.buses.set b v } }
def updAudBus (b : Nat) (f : AudBus → AudBus) (s : State) : State := setAudBus b (f (audBus b s)) s

/-- The room has a mixer. -/
def mixes (r : Nat) (s : State) : Bool := (s.audio.rooms.find? r).isSome
def roomInputs (r : Nat) (s : State) : List (Nat × AudIn) := s.audio.ins.toList.filter (fun c => c.2.room == r)
def roomGroups (r : Nat) (s : State) : List (Nat × AudGroup) := s.audio.groups.toList.filter (fun c => c.2.room == r)

/-! ## Settings (R284) -/

/-! Room settings. -/
def cfgK (v : Nat) : Nat := v % 32
def cfgAct (v : Nat) : Nat := v / 2 ^ 5 % 32
def cfgAbs (v : Nat) : Nat := v / 2 ^ 10 % 128
def cfgAttack (v : Nat) : Nat := v / 2 ^ 17 % 128
def cfgHold (v : Nat) : Nat := v / 2 ^ 24 % 2048
def cfgSwap (v : Nat) : Nat := v / 2 ^ 35 % 32
/-! Input settings. -/
def inGain (v : Nat) : Nat := v % 65536
def inHpf (v : Nat) : Nat := v / 2 ^ 16 % 4
def inMute (v : Nat) : Bool := v.testBit 18
def inPin (v : Nat) : Bool := v.testBit 19
def inChannel (v : Nat) : Nat := v / 2 ^ 20 % 32
def inFeed (v : Nat) : Bool := v.testBit 25

/-- The room settings are in range, and their reserved bits are 0. -/
def roomCfgFine (w : Word128) : Bool :=
  let v := w.toNat
  let r := fun x lo hi => decide (lo ≤ x) && decide (x ≤ hi)
  decide (v < 2 ^ 40) && r (cfgK v) 1 16 && r (cfgAct v) 3 30 && r (cfgAbs v) 20 80 && r (cfgAttack v) 1 100 && r (cfgHold v) 0 2000
    && r (cfgSwap v) 0 20

/-! A profile: codec, FEC, frame length in blocks, bit rate, payload type. -/
def profCodec (w : Word128) (p : Nat) : Nat := fld w (32 * p + 2) (32 * p)
def profFec (w : Word128) (p : Nat) : Bool := bitOf w (32 * p + 3)
def profLen (w : Word128) (p : Nat) : Nat := if bitOf w (32 * p + 4) then 20 else 10
def profRate (w : Word128) (p : Nat) : Nat := fld w (32 * p + 13) (32 * p + 5)
def profPt (w : Word128) (p : Nat) : Nat := fld w (32 * p + 20) (32 * p + 14)

def profFine (w : Word128) (p : Nat) : Bool :=
  let c := profCodec w p
  fld w (32 * p + 31) (32 * p + 21) == 0 &&
    (c == 0 || (c == 1 && decide (6 ≤ profRate w p) && decide (profRate w p ≤ 510)) || (decide (c ≤ 4) && decide (1 < c) && profLen w p == 20))

/-- FORMAT of a group's source, and its RTP clock in kHz. -/
def profFormat (c : Nat) : Nat := if c = 1 then 4 else if c = 4 then 6 else 5
def profClock (c : Nat) : Nat := if c = 1 then 48 else 8

/-! ## Counters and details (R284, R286) -/

def inCount (i k n : Nat) (s : State) : State :=
  if n = 0 then s else updAudIn i (fun v => { v with ctrs := v.ctrs.set k (satAdd 64 (v.ctrs.getD k 0) n) }) s
def roomCount (r k n : Nat) (s : State) : State :=
  if n = 0 then s else updAudRoom r (fun v => { v with ctrs := v.ctrs.set k (satAdd 64 (v.ctrs.getD k 0) n) }) s
def busCount (b k n : Nat) (s : State) : State :=
  if n = 0 then s else updAudBus b (fun v => { v with ctrs := v.ctrs.set k (satAdd 64 (v.ctrs.getD k 0) n) }) s
def tileCount (t c n : Nat) (s : State) : State := if n = 0 then s else count (tileCtr t c) n s

/-- The room's holder, PF0 and firmware (R284). -/
def mayRoom (r : Req) (room : Nat) (s : State) : Bool := (roomAt room s).held && (r.owner || (roomAt room s).owner == r.fn)

def audNotOwned (s : State) : Answer := answer s (refuse stRefused 0x09)

/-- A room that the command names, with its mixer. -/
def withMixer (room : Nat) (r : Req) (s : State) (f : Answer) : Answer :=
  if !mayRoom r room s then audNotOwned s else if !mixes room s then badParam s else viaWing ((audRoom room s).tile / 128) f

/-- An input that the command names, for its room's holder and PF0. -/
def withInput (i : Nat) (r : Req) (s : State) (f : Answer) : Answer :=
  if (identOf .audioIn i s).used && mayRoom r (audIn i s).room s then viaWing ((audIn i s).tile / 128) f else audNotOwned s

/-- Tiles of one group need no route between them. -/
def routed (a b : Nat) (s : State) : Bool := a == b || hasRoute a b s

/-! ## Rooms (R271) -/

def roomsOn (t : Nat) (s : State) : Nat := (s.audio.rooms.toList.filter (fun c => c.2.tile == t)).length
def decodesOn (t : Nat) (s : State) : Nat := (s.audio.ins.toList.filter (fun c => c.2.tile == t && c.2.load == 1)).length
def encodesOn (t : Nat) (s : State) : Nat := ((s.audio.groups.toList.filter (fun c => c.2.tile == t)).map (·.2.load)).sum

/-- AUD_ROOM_SETUP (R271, R284). -/
def roomSetupBody (r : Req) (s : State) : Answer :=
  let room := df r.w1 12 0
  let p := df r.w1 21 16
  let ch := df r.w1 45 40
  if !(decide (1 ≤ ch) && decide (ch ≤ 32) && (List.range 4).all (profFine r.w2) && roomCfgFine r.w3) || mixes room s then badParam s
  else if !mayRoom r room s then audNotOwned s
  else match leastLoaded (fun t => roomsOn t s)
      ((roleTiles p 3 (wingTiles (df r.w1 25 24)) s).filter (fun t => decide (roomsOn t s < 64))) with
    | none => answer s (refuse stCapacity 0x08)
    | some t =>
      let gains := 4096 :: List.replicate 31 410
      let v : AudRoom := { part := p, tile := t, channels := ch, profiles := r.w2, cfg := r.w3.toNat, gains := gains, gainsWas := gains }
      answer (addWork t (setAudRoom room v s)) (okVia (t / 128) (t * 256) s)

def execAudRoomSetup (src : CmdSrc) (s : State) : Outcome :=
  onWf (.audRoomSetup src) (command 0x80 (strictly ([(12, 0), (21, 16), (25, 24), (45, 40)], [(20, 0), (52, 32), (84, 64), (116, 96)], [(39, 0)]) roomSetupBody) src s)

/-! ## The shadow (R273, R280) -/

/-- An entry as the shadow has it: changed, on its way in, or in force. -/
def shadowAt (v : AudRoom) (k active : Nat) : Nat := (v.shadow.find? k).getD (v.loading.get k active)
def shadowRoom (v : AudRoom) : Nat := shadowAt v 0 v.cfg
def shadowIn (v : AudRoom) (i : Nat) (x : AudIn) : Nat := shadowAt v (64 + i) x.cfg

def pinsShadow (room : Nat) (s : State) : Nat := ((roomInputs room s).filter (fun c => inPin (shadowIn (audRoom room s) c.1 c.2))).length
def pinsActive (room : Nat) (s : State) : Nat := ((roomInputs room s).filter (fun c => inPin c.2.cfg)).length

/-- Feeds of a channel, other than input i, in the shadow. -/
def feedsShadow (room c i : Nat) (s : State) : Nat :=
  ((roomInputs room s).filter (fun x => let k := shadowIn (audRoom room s) x.1 x.2; x.1 != i && inFeed k && inChannel k == c)).length
def feedsActive (room c : Nat) (s : State) : Nat :=
  ((roomInputs room s).filter (fun x => inFeed x.2.cfg && inChannel x.2.cfg == c)).length

/-- Write shadow entries, at most 4,096 of them changed (R280). -/
def writeShadow (room : Nat) (es : List (Nat × Nat)) (s : State) : Answer :=
  let v := audRoom room s
  let t := es.foldl (fun t e => t.set e.1 e.2) v.shadow
  if 4096 < t.size then answer s (refuse stFull 0x0D) else answer (setAudRoom room { v with shadow := t } s) (okWith 0)

/-- AUD_ROOM_SET (R273, R280, R284). -/
def roomSetBody (r : Req) (s : State) : Answer :=
  let room := df r.w1 12 0
  withMixer room r s (
    let v := audRoom room s
    let c := df r.w1 20 16
    let g := bitOf r.w1 21
    let w := bitOf r.w1 22
    if (g && !(decide (1 ≤ c) && decide (c < v.channels))) || (w && !roomCfgFine r.w3) then badParam s
    else if w ∧ cfgK r.w3.toNat < cfgK (shadowRoom v) ∧ cfgK r.w3.toNat < pinsShadow room s then answer s (refuse stNotStarted 0x0F)
    else writeShadow room ((if w then [(0, r.w3.toNat)] else []) ++ (if g then [(c, df r.w2 15 0)] else [])) s)

def execAudRoomSet (src : CmdSrc) (s : State) : Outcome :=
  onWf (.audRoomSet src) (command 0x81 (strictly ([(12, 0), (22, 16)], [(15, 0)], [(39, 0)]) roomSetBody) src s)

/-- AUD_IN_SET (R273, R280, R284). -/
def inSetBody (r : Req) (s : State) : Answer :=
  let i := df r.w1 15 0
  withInput i r s (
    let x := audIn i s
    let v := audRoom x.room s
    let cfg := r.w2.toNat
    if 2 ^ 26 ≤ cfg ∨ v.channels ≤ inChannel cfg ∨ (inFeed cfg ∧ 4 ≤ feedsShadow x.room (inChannel cfg) i s) then badParam s
    else if inPin cfg && !inPin (shadowIn v i x) && decide (cfgK (shadowRoom v) ≤ pinsShadow x.room s) then answer s (refuse stNotStarted 0x0F)
    else writeShadow x.room [(64 + i, cfg)] s)

def execAudInSet (src : CmdSrc) (s : State) : Outcome :=
  onWf (.audInSet src) (command 0x84 (strictly ([(15, 0)], [(25, 0)], []) inSetBody) src s)

/-- AUD_SAFELOAD (R280): the changed entries leave the shadow for the next block start. -/
def safeloadBody (r : Req) (s : State) : Answer :=
  let room := df r.w1 12 0
  withMixer room r s
    (updAudRoom room (fun v => { v with
        loading := v.shadow.toList.foldl (fun t e => t.set e.1 e.2) v.loading, shadow := Tab.empty, loads := v.loads ++ [r.tk] }) s, none)

def execAudSafeload (src : CmdSrc) (s : State) : Outcome :=
  onWf (.audSafeload src) (command 0x86 (strictly ([(12, 0)], [], []) safeloadBody) src s)

/-- AUD_ROOM_NOTIFY (R284). -/
def roomNotifyBody (r : Req) (s : State) : Answer :=
  let room := df r.w1 12 0
  withMixer room r s (answer (updAudRoom room (fun v => { v with notify := bitOf r.w1 13 }) s) (okWith 0))

def execAudRoomNotify (src : CmdSrc) (s : State) : Outcome :=
  onWf (.audRoomNotify src) (command 0x8E (strictly ([(13, 0)], [], []) roomNotifyBody) src s)

/-- The room's mixer ends, and with it a safe-load that waits. -/
def removeMixer (room : Nat) (s : State) : State :=
  let v := audRoom room s
  let s := v.loads.foldl (fun s t => complete t (refuse stNotStarted 0) s) s
  dropWork v.tile { s with audio := { s.audio with rooms := s.audio.rooms.del room } }

/-- AUD_ROOM_RELEASE (R284). -/
def roomReleaseBody (r : Req) (s : State) : Answer :=
  let room := df r.w1 12 0
  withMixer room r s (
    if !(roomInputs room s).isEmpty || !(roomGroups room s).isEmpty then answer s (refuse stNotStarted 0x0B)
    else answer (removeMixer room s) (okWith 0))

def execAudRoomRelease (src : CmdSrc) (s : State) : Outcome :=
  onWf (.audRoomRelease src) (command 0x8B (strictly ([(12, 0)], [], []) roomReleaseBody) src s)

/-- AUD_ROOM_READ (R284). -/
def roomReadBody (r : Req) (s : State) : Answer :=
  let room := df r.w1 12 0
  withMixer room r s (
    let v := audRoom room s
    let w0 := pack128 [(96, 32, v.lastLoad), (83, 13, room), (74, 9, v.tile), (69, 5, cfgK v.cfg), (63, 6, v.channels), (50, 13, v.shadow.size)]
    let bs := bytesOf128 w0 ++ v.talkers.flatMap (fun t => leBytes 2 (t.getD 65535)) ++ v.ctrs.flatMap (leBytes 8) ++ List.replicate 48 0
    let s1 := hostPut (df r.w2 63 0) bs s
    answer (if bitOf r.w3 0 then updAudRoom room (fun v => { v with ctrs := [0, 0, 0, 0] }) s1 else s1) (okWith 0))

def execAudRoomRead (src : CmdSrc) (s : State) : Outcome :=
  onWf (.audRoomRead src) (command 0x88 (strictly ([(12, 0)], [(63, 0)], [(0, 0)]) roomReadBody) src s)

/-! ## Inputs (R265) -/

/-- The AU tile of the partition with the fewest committed decodes that reaches the home tile (R265, check 4). -/
def inTile (p home : Nat) (s : State) : Option Nat :=
  leastLoaded (fun t => decodesOn t s) ((roleTiles p 3 (List.range 512) s).filter (fun t =>
    routed (t / 8) (home / 8) s && decide (decodesOn t s + 1 ≤ 512 * factorOf p 3 s / 1000)))

/-- Put a new input into use; detail of R284. -/
def attachInput (v : AudIn) (s : State) : Answer :=
  match lowestFree .audioIn 0 65536 s with
  | none => answer s (refuse stCapacity 0x07)
  | some i =>
    let det := packNat [(8, 24, liveOf v.part 3 s), (32, 16, i), (48, 9, v.tile)]
    let s := if v.load = 0 then s else addLoad v.part 3 v.load s
    answer (addWork v.tile (setAudIn i v (allocId .audioIn i s))) (okVia (v.tile / 128) det s)

/-- Checks 2 to 4 of R265. -/
def inAdmit (v : AudIn) (i : Nat) (s : State) : Answer :=
  let x := sourceAt i s
  let room := audRoom v.room s
  if !x.isAudio || x.isGroup then answer s (refuse stNotStarted 0x02)
  else if x.forwardOnly then answer s (refuse stNotStarted 0x03)
  else if x.jit.isNone then answer s (refuse stNotStarted 0x04)
  else if !fits v.part 3 1 s then answer s ⟨stCapacity, 0, 0x06 + liveOf v.part 3 s % 2 ^ 24 * 256⟩
  else match inTile v.part room.tile s with
    | none => answer s (refuse stCapacity 0x08)
    | some t => viaPair x.wing (t / 128) (attachInput { v with tile := t, load := 1 } (updSource i (fun x => { x with readers := x.readers + 1 }) s))

/-- AUD_IN_ATTACH (R265, R273, R284). -/
def inAttachBody (r : Req) (s : State) : Answer :=
  let room := df r.w1 76 64
  let aes := bitOf r.w1 80
  let v := audRoom room s
  let cfg := r.w2.toNat
  let ctl := partControl r v.part s
  let x : AudIn := { room := room, source := handleIn (df r.w1 63 0), aes := if aes then some (df r.w1 84 81, df r.w1 85 85) else none,
                     part := v.part, tile := v.tile, cfg := cfg }
  let begin_ : Answer → Answer := fun f =>
    if !mixes room s || decide (2 ^ 26 ≤ cfg) || decide (v.channels ≤ inChannel cfg) || (aes && x.source != 0)
        || (inFeed cfg && (decide (4 ≤ feedsShadow room (inChannel cfg) 65536 s) || decide (4 ≤ feedsActive room (inChannel cfg) s))) then badParam s
    else if inPin cfg && (decide (cfgK (shadowRoom v) ≤ pinsShadow room s) || decide (cfgK v.cfg ≤ pinsActive room s)) then
      answer s (refuse stNotStarted 0x0F)
    else f
  if aes then
    if !(r.owner && (roomAt room s).held) then audNotOwned s
    else begin_ (
      if !ctl.1 then answer ctl.2 (refuse stRefused 0x09)
      else if !hasRoute 0x200 (v.tile / 8) s then answer s (refuse stNotStarted 0x0C)
      else attachInput x s)
  else match resolve .source x.source s with
    | .refused => answer s (refuse stRefused 0)
    | .stale => answer (count (ingCtr (sourceAt (handleIdx x.source) s).wing 9) 1 s) ⟨stStale, 0, 0⟩
    | .ok i =>
      if !mayRoom r room s || !(r.owner || (sourceAt i s).fn == r.fn) || (sourceAt i s).room != room then audNotOwned s
      else begin_ (if !ctl.1 then answer ctl.2 (refuse stRefused 0x09) else inAdmit x i s)

def execAudInAttach (src : CmdSrc) (s : State) : Outcome :=
  onWf (.audInAttach src) (command 0x83 (strictly ([(76, 0), (80, 80), (85, 81)], [(25, 0)], []) inAttachBody) src s)

/-- AUD_IN_READ (R284). -/
def inReadBody (r : Req) (s : State) : Answer :=
  let i := df r.w1 15 0
  withInput i r s (
    let v := audIn i s
    let level : Nat := match resolve .source v.source s with | .ok k => (sourceAt k s).audioLevel | _ => 0
    let w0 := pack128 [(112, 16, i), (96, 16, toTwos 16 v.ls), (80, 16, toTwos 16 v.floor), (79, 1, b2n v.active),
                       (78, 1, b2n ((audRoom v.room s).talkers.contains (some i))), (71, 7, v.fifo.length), (56, 8, level)]
    let s1 := hostPut (df r.w2 63 0) (bytesOf128 w0 ++ v.ctrs.flatMap (leBytes 8)) s
    answer (if bitOf r.w3 0 then updAudIn i (fun v => { v with ctrs := List.replicate 6 0 }) s1 else s1) (okWith 0))

def execAudInRead (src : CmdSrc) (s : State) : Outcome :=
  onWf (.audInRead src) (command 0x87 (strictly ([(15, 0)], [(63, 0)], [(0, 0)]) inReadBody) src s)

/-- The input leaves use: it fades out in the next block (R284). -/
def removeInput (i : Nat) (s : State) : State :=
  let v := audIn i s
  let s := updAudRoom v.room (fun m => { m with fading := m.fading ++ [(i, v)], shadow := m.shadow.del (64 + i), loading := m.loading.del (64 + i) }) s
  let s := if v.load = 0 then s else dropLoad v.part 3 v.load s
  let s := if v.aes.isSome then s else updSource (handleIdx v.source) (fun x => { x with readers := x.readers - 1 }) s
  releaseId .audioIn i (dropWork v.tile { s with audio := { s.audio with ins := s.audio.ins.del i } })

/-- AUD_IN_RELEASE (R284). -/
def inReleaseBody (r : Req) (s : State) : Answer :=
  let i := df r.w1 15 0
  withInput i r s (answer (removeInput i s) (okWith 0))

def execAudInRelease (src : CmdSrc) (s : State) : Outcome :=
  onWf (.audInRelease src) (command 0x89 (strictly ([(15, 0)], [], []) inReleaseBody) src s)

/-! ## Groups (R275, R276) -/

def groupTile (p home load : Nat) (s : State) : Option Nat :=
  leastLoaded (fun t => encodesOn t s) ((roleTiles p 3 (wingTiles (home / 128)) s).filter (fun t =>
    routed (home / 8) (t / 8) s && decide (encodesOn t s + load ≤ 256 * factorOf p 4 s / 1000)))

/-- The mix block in force. -/
def mixBlockNow (s : State) : Nat := s.audio.last.getD (cmpNow s / 1000000)

/-- AUD_GROUP_CREATE (R275). -/
def groupCreateBody (r : Req) (s : State) : Answer :=
  let room := df r.w1 12 0
  withMixer room r s (
    let m := audRoom room s
    let prof := df r.w1 25 24
    let codec := profCodec m.profiles prof
    let slots := df r.w1 30 26
    let load := 1 + slots
    if m.channels ≤ df r.w1 20 16 ∨ codec = 0 ∨ 20 < slots then badParam s
    else if !fits m.part 4 load s then answer s ⟨stCapacity, 0, 0x06 + liveOf m.part 4 s % 2 ^ 32 * 256⟩
    else match groupTile m.part m.tile load s, lowestFree .source 0 131072 s with
      | none, _ => answer s (refuse stCapacity 0x08)
      | some _, none => answer s ⟨stCapacity, 0, 0⟩
      | some t, some i =>
        let v := localSource (roomAt room s).owner (m.tile / 128) room (profFormat codec) (profPt m.profiles prof) 0
        let g : AudGroup := { room := room, chan := df r.w1 20 16, profile := prof, slots := slots, part := m.part, tile := t, load := load,
                              ts0 := df r.w2 31 0, created := mixBlockNow s }
        let s := addWork t (addLoad m.part 4 load (setAudGroup i g (addSource i v s)))
        answer s (okWith (handleFor .source i s)))

def execAudGroupCreate (src : CmdSrc) (s : State) : Outcome :=
  onWf (.audGroupCreate src) (command 0x82 (strictly ([(12, 0), (20, 16), (30, 24)], [(31, 0)], []) groupCreateBody) src s)

/-- The group whose source a handle names. -/
def withGroup (h : Nat) (r : Req) (s : State) (f : Nat → Answer) : Answer :=
  match resolve .source h s with
  | .refused => answer s (refuse stRefused 0)
  | .stale => answer (count (ingCtr (sourceAt (handleIdx h) s).wing 9) 1 s) ⟨stStale, 0, 0⟩
  | .ok i =>
    match s.audio.groups.find? i with
    | none => badParam s
    | some g => if mayRoom r g.room s then viaWing (g.tile / 128) (f i) else audNotOwned s

/-- The group ends with its source. -/
def removeGroup (g : Nat) (s : State) : State :=
  let v := audGroup g s
  let s := dropWork v.tile (dropLoad v.part 4 v.load s)
  removeSource g { s with audio := { s.audio with groups := s.audio.groups.del g } }

/-- AUD_GROUP_RELEASE (R284). -/
def groupReleaseBody (r : Req) (s : State) : Answer :=
  withGroup (df r.w1 63 0) r s (fun g =>
    if (sourceSubs g s).isEmpty then answer (removeGroup g s) (okWith 0) else answer s (refuse stNotStarted 0x0A))

def execAudGroupRelease (src : CmdSrc) (s : State) : Outcome :=
  onWf (.audGroupRelease src) (command 0x8A (strictly ([(63, 0)], [], []) groupReleaseBody) src s)

/-- A binding still stands: its subscription is in use. -/
def boundSub (h : Nat) (s : State) : Bool := match resolve .sub h s with | .ok _ => true | _ => false

/-- A subscription of the group is bound to input i. -/
def isBound (g : AudGroup) (i : Nat) (s : State) : Bool := g.binds.any (fun b => b.2 == i && boundSub b.1 s)

/-- Input i contributes to channel c: a talker where G_c is above 0, a feed of c unless it is muted (R276). -/
def contributes (m : AudRoom) (x : AudIn) (i c : Nat) : Bool :=
  if inFeed x.cfg then inChannel x.cfg == c && !inMute x.cfg
  else m.talkers.contains (some i) && decide (0 < m.gains.getD c 0)

def hasVar (g : AudGroup) (i : Nat) : Bool := g.vars.any (fun v => v.input == i)

/-- AUD_LISTEN (R276). -/
def listenBody (r : Req) (s : State) : Answer :=
  let h := handleIn (df r.w1 63 0)
  let i := df r.w1 79 64
  withSub h r s (fun j =>
    match resolve .source (subAt j s).source s with
    | .ok k =>
      match s.audio.groups.find? k with
      | none => badParam s
      | some g =>
        let binds := g.binds.filter (fun b => b.1 != h)
        if !mayRoom r g.room s then audNotOwned s
        else if bitOf r.w1 80 then answer (setAudGroup k { g with binds := binds } s) (okWith 0)
        else if !((identOf .audioIn i s).used && (audIn i s).room == g.room) then badParam s
        else
          let needs := contributes (audRoom g.room s) (audIn i s) i g.chan && !hasVar g i
          if needs && decide (g.slots ≤ g.vars.length) then answer s (refuse stCapacity 0x0E)
          else
            answer (setAudGroup k { g with binds := binds ++ [(h, i)], vars := if needs then g.vars ++ [{ input := i }] else g.vars } s) (okWith 0)
    | _ => badParam s)

def execAudListen (src : CmdSrc) (s : State) : Outcome :=
  onWf (.audListen src) (command 0x85 (strictly ([(80, 0)], [], []) listenBody) src s)

/-! ## Buses (R281, R284) -/

def subOn (w : Word128) (sub : Nat) : Bool := bitOf w (64 * sub + 34)
def subRoom (w : Word128) (sub : Nat) : Nat := fld w (64 * sub + 12) (64 * sub)
def subChan (w : Word128) (sub : Nat) : Nat := fld w (64 * sub + 17) (64 * sub + 13)
def subGain (w : Word128) (sub : Nat) : Nat := fld w (64 * sub + 33) (64 * sub + 18)

/-- A sub-bus of a bus lies on a Wing whose traffic to the AES3 outputs on the Body is rerouted (R31). -/
def busRerouted (w : Word128) (s : State) : Bool :=
  [0, 1].any (fun k => subOn w k && wingRerouted ((audRoom (subRoom w k) s).tile / 128) s)

/-- AUD_BUS_SET (R281, R284). -/
def busSetBody (r : Req) (s : State) : Answer :=
  let b := df r.w1 3 0
  let park := df r.w3 15 0
  let sil := df r.w3 22 16
  let subs := [0, 1].filter (subOn r.w2)
  let qr : Option Reply := if bitOf r.w3 23 then recordQueueRefusal r 1 (df r.w3 127 64) s else none
  if !r.owner then audNotOwned s
  else if 60000 < park ∨ sil < 40 ∨ 120 < sil ∨ fld r.w3 63 24 ≠ 0 ∨ fld r.w2 63 35 ≠ 0 ∨ fld r.w2 127 99 ≠ 0
      ∨ subs.any (fun k => !mixes (subRoom r.w2 k) s || decide ((audRoom (subRoom r.w2 k) s).channels ≤ subChan r.w2 k)) then badParam s
  else if subs.any (fun k => !hasRoute ((audRoom (subRoom r.w2 k) s).tile / 8) 0x200 s) then answer s (refuse stNotStarted 0x0C)
  else match qr with
    | some x => queueRefused (df r.w3 127 64) x s
    | none => degradedIf (busRerouted r.w2 s) (answer (updAudBus b (fun v => { v with set := some (r.w2, r.w3) }) s) (okWith 0))

def execAudBusSet (src : CmdSrc) (s : State) : Outcome :=
  onWf (.audBusSet src) (command 0x8C (strictly ([(3, 0)], [(34, 0), (98, 64)], [(23, 0), (127, 64)]) busSetBody) src s)

def AudBus.state (v : AudBus) : Nat := if !(subOn v.cfg 0 || subOn v.cfg 1) then 0 else if v.parked then 2 else 1

/-- AUD_BUS_READ (R284). -/
def busReadBody (r : Req) (s : State) : Answer :=
  let b := df r.w1 3 0
  let v := audBus b s
  let w0 := pack128 [(64, 64, v.wake), (32, 32, v.silent), (0, 2, v.state)]
  let s1 := hostPut (df r.w2 63 0) (bytesOf128 w0 ++ v.ctrs.flatMap (leBytes 8) ++ List.replicate 16 0) s
  degradedIf (busRerouted v.cfg s)
    (answer (if bitOf r.w3 0 then updAudBus b (fun v => { v with ctrs := [0, 0, 0, 0] }) s1 else s1) (okWith 0))

def execAudBusRead (src : CmdSrc) (s : State) : Outcome :=
  onWf (.audBusRead src) (command 0x8D (strictly ([(3, 0)], [(63, 0)], [(0, 0)]) busReadBody) src s)

/-! ## Decoding (R266-R268) -/

/-- The inputs of source i. -/
def sourceInputs (i : Nat) (s : State) : List Nat :=
  (s.audio.ins.toList.filter (fun c => c.2.aes.isNone && c.2.source == handleFor .source i s)).map (·.1)

/-- A unit released by the jitter buffer reaches the source's inputs. -/
def unitToInputs (i : Nat) (u : AudUnit) (s : State) : State :=
  (sourceInputs i s).foldl (fun s k => updAudIn k (fun v => { v with units := v.units ++ [u] }) s) s

/-- A late packet is discarded and counted (R267). -/
def lateToInputs (i : Nat) (s : State) : State := (sourceInputs i s).foldl (fun s k => inCount k 4 1 s) s

/-- Cut samples into blocks of 48; the number bounds how many. -/
def blocksOf : Nat → List Int → List (List Int) × List Int
  | 0, xs => ([], xs)
  | n + 1, xs =>
    if xs.length < 48 then ([], xs)
    else
      let r := blocksOf n (xs.drop 48)
      (xs.take 48 :: r.1, r.2)

/-- Samples join the FIFO as blocks; the oldest beyond 64 are discarded (R268). -/
def pushSamples (i : Nat) (xs : List Int) (s : State) : State :=
  let v := audIn i s
  let ys := v.carry ++ xs
  let r := blocksOf (ys.length / 48) ys
  let fifo := v.fifo ++ r.1
  let exceeds := fifo.length - 64
  inCount i 3 exceeds (setAudIn i { v with carry := r.2, fifo := fifo.drop exceeds } s)

/-- A 16-bit sample at full scale in the 24-bit mix sample (R266). -/
def toMix (x : Int) : Int := x * 256

/-- Saturate, counting the samples that it changes (R264). -/
def sat24 (xs : List Int) : List Int × Nat := (xs.map clamp24, (xs.filter (fun x => clamp24 x != x)).length)

/-- Upsample by `f`: the samples, and the history after them. -/
def upsampleAll (f : Nat) : List Int → List Int → List Int × List Int
  | hist, [] => ([], hist)
  | hist, x :: xs =>
    let h := (x :: hist).take 64
    let r := upsampleAll f h xs
    ((List.range f).map (fun k => Config.upsample f k h) ++ r.1, r.2)

/-- (L + R) / 2, rounded toward zero. -/
def monoOf (f : Config.AudioFrame) : List Int :=
  if f.stereo then List.zipWith (fun a b => Int.tdiv (a + b) 2) f.left f.right else f.left

/-- A G.711 sample, decoded to 16 bits: A-law or µ-law (R266). -/
def g711Sample (aLaw : Bool) (b : Byte) : Int :=
  let v := if aLaw then b.toNat ^^^ 0x55 else 255 - b.toNat
  let seg := v / 16 % 8
  if aLaw then
    let m : Int := if seg = 0 then v % 16 * 16 + 8 else ((v % 16 * 16 + 0x108) * 2 ^ (seg - 1) : Nat)
    if v < 128 then -m else m
  else
    let m : Int := ((v % 16 * 8 + 0x84) * 2 ^ seg : Nat) - 0x84
    if v < 128 then m else -m

/-- A packet's samples at 48 kHz in the mix's scale before saturation, with the decoder after it (R266). An Opus packet holds at
most 120 ms. -/
def decodeUnit (format pt : Nat) (v : AudIn) (pl : List Byte) : List Int × AudIn :=
  if format = 4 then
    let f := Config.opusDecode 0 v.memory pl
    (((monoOf f).take 5760).map toMix, { v with memory := f.memory })
  else if format = 5 then
    let r := upsampleAll 6 v.upHist (pl.map (fun b => toMix (g711Sample (pt == 8) b)))
    (r.1, { v with upHist := r.2 })
  else
    let f := Config.g722Decode v.memory pl
    let r := upsampleAll 3 v.upHist ((f.left.take (2 * pl.length)).map toMix)
    (r.1, { v with upHist := r.2, memory := f.memory })

/-- Sample n of the fade of G.711 and G.722 concealment: the last 10 ms repeated, to zero over 20 ms (R267). -/
def fadeSample (last : List Int) (n : Nat) : Int :=
  if n < 960 then Int.tdiv (last.getD (n % 480) 0 * (960 - n : Nat)) 960 else 0

/-- What stands in for a unit released empty: samples, the decoder after it, and whether FEC data gave them (R267). -/
def concealUnit (format : Nat) (v : AudIn) (next : Option (List Byte)) : List Int × AudIn × Bool :=
  if format = 4 then
    match next with
    | some pl =>
      if Config.opusHasFec pl then
        let f := Config.opusDecode 1 v.memory pl
        (((monoOf f).take v.lastLen).map toMix, { v with memory := f.memory }, true)
      else
        let f := Config.opusDecode 2 v.memory []
        (((monoOf f).take v.lastLen).map toMix, { v with memory := f.memory }, false)
    | none =>
      let f := Config.opusDecode 2 v.memory []
      (((monoOf f).take v.lastLen).map toMix, { v with memory := f.memory }, false)
  else ((List.range v.lastLen).map (fun n => fadeSample v.lastTen (v.fade + n)), { v with fade := v.fade + v.lastLen }, false)

/-- Zero samples of a sender's silence before a unit: its timestamp ahead of the last unit's end, nothing missing between. -/
def dtxGap (v : AudIn) (p : MediaPkt) (clock : Nat) : Nat :=
  match v.endTs, v.lastExt with
  | some e, some x => if p.ext = x + 1 then (ofTwos 32 (rtpTs p.bytes + 2 ^ 32 - e)).toNat * 48000 / clock else 0
  | _, _ => 0

/-- RTP timestamp `n` mix samples after `ts`. -/
def tsAfter (ts n clock : Nat) : Nat := (ts + n * clock / 48000) % 2 ^ 32

/-- AUDIO_DECODE: the unit at the front (R267, R268). -/
def audioDecodeDo (i : Nat) (s : State) : State :=
  let v := audIn i s
  match v.units, resolve .source v.source s with
  | u :: rest, .ok k =>
    if !(identOf .audioIn i s).used || s.body.hold then s
    else
      let x := sourceAt k s
      let v := { v with units := rest }
      match u.pkt with
      | some p =>
        let gap := dtxGap v p x.clock
        let r := decodeUnit x.format x.pt v (rtpPayload p.bytes)
        let ys := sat24 r.1
        let v' := { r.2 with lastExt := some p.ext, endTs := some (tsAfter (rtpTs p.bytes) ys.1.length x.clock), lastLen := ys.1.length,
                             lastTen := (r.2.lastTen ++ ys.1).drop ((r.2.lastTen ++ ys.1).length - 480), fade := 0 }
        pushSamples i (List.replicate gap 0 ++ ys.1) (inCount i 5 ys.2 (tileCount v.tile 4 ys.2 (setAudIn i v' s)))
      | none =>
        let r := concealUnit x.format v u.next
        let ys := sat24 r.1
        let v' := { r.2.1 with lastExt := none, endTs := v.endTs.map (fun e => tsAfter e v.lastLen x.clock) }
        pushSamples i ys.1 (inCount i 5 ys.2 <| tileCount v.tile 4 ys.2 (inCount i (if r.2.2 then 1 else 0) 1 (setAudIn i v' s)))
  | _ :: rest, _ => setAudIn i { v with units := rest } s
  | [], _ => s

def execAudioDecode (input : Nat) (s : State) : Outcome := onWf (.audioDecode input) (audioDecodeDo input s)

end Sys2Proof.Machine
end

