-- ==== Sys2Proof/Machine/Domain.lean ====
section
/-! DEFINITION. Bridge domains: the messages, the link-state table and its routes, the election, alignment, the compatibility
check, joining and losing members (R417-R430). -/

namespace Sys2Proof.Machine

def updDom (f : Domain → Domain) (s : State) : State := { s with dom := f s.dom }

/-- The firmware takes part in a domain. -/
def domRuns (s : State) : Bool := s.dom.enable && coresRun s

/-! ## Ports and messages (R422) -/

/-- Tremund ports with a lane UP. -/
def domPorts (s : State) : List Nat :=
  (List.range 128).filter (fun p => isPort p s && isTremund p s && !(upLanes p s).isEmpty)

/-- The ports that carry domain traffic: a HELLO has been exchanged there (R424, step 2). -/
def floodPorts (s : State) : List Nat := (domPorts s).filter (fun p => (s.dom.neighbours.find? p).isSome)

/-- A DOMAIN frame body of this device (R422). -/
def domMessage (type : Nat) (payload : List Byte) (s : State) : List Byte :=
  leBytes 2 type ++ leBytes 2 1 ++ leBytes 4 s.dom.domainId ++ leBytes 6 Config.serial ++ leBytes 1 s.dom.index ++ leBytes 1 s.dom.prio
    ++ leBytes 4 s.dom.seq ++ payload

/-- Send a message body on ports. -/
def sendDomain (msg : List Byte) (ports : List Nat) (s : State) : State :=
  ports.foldl (fun s p => sendFrame p { ftype := 4, body := msg } s) s

/-- Remember a message as met, the latest 256 of them. -/
def noteSeen (serial seq : Nat) (s : State) : State := updDom (fun d => { d with seen := ((serial, seq) :: d.seen).take 256 }) s

/-- A new message of this device on ports. -/
def originate (type : Nat) (payload : List Byte) (ports : List Nat) (s : State) : State :=
  let n := s.dom.seq
  let msg := domMessage type payload s
  sendDomain msg ports (noteSeen Config.serial n (updDom (fun d => { d with seq := (n + 1) % 2 ^ 32 }) s))

def msgType (m : List Byte) : Nat := leAt m 0 2
def msgProto (m : List Byte) : Nat := leAt m 2 2
def msgDomain (m : List Byte) : Nat := leAt m 4 4
def msgSerial (m : List Byte) : Nat := leAt m 8 6
def msgIndex (m : List Byte) : Nat := byteAt m 0xE
def msgPrio (m : List Byte) : Nat := byteAt m 0xF
def msgSeq (m : List Byte) : Nat := leAt m 0x10 4
def msgBody (m : List Byte) : List Byte := m.drop 0x14

/-- The message is of a type, whole, and of a device of this domain (R417). -/
def mine (type len : Nat) (m : List Byte) (s : State) : Bool :=
  domRuns s && decide (0x14 + len ≤ m.length) && msgType m == type && msgDomain m == s.dom.domainId && msgSerial m != Config.serial

/-- A flooded message met for the first time goes out on every other port (R422); the second part says that it is new. -/
def flood (port : Nat) (m : List Byte) (s : State) : State × Bool :=
  if s.dom.seen.contains (msgSerial m, msgSeq m) then (s, false)
  else (sendDomain m ((floodPorts s).filter (· != port)) (noteSeen (msgSerial m) (msgSeq m) s), true)

/-! ## Routes (R420) -/

/-- SERIALs that a member lists as its neighbours. -/
def neighboursOf (serial : Nat) (s : State) : List Nat :=
  if serial = Config.serial then s.dom.neighbours.toList.map (·.2.serial)
  else ((s.dom.table.find? (fun e => e.serial == serial)).map (·.neighbours)).getD []

/-- Put a member one hop further on unless it is known, keeping the lower first lane (R420). -/
def putReach (known : List (Nat × Nat × Nat)) (acc : List (Nat × Nat)) (x : Nat × Nat) : List (Nat × Nat) :=
  if known.any (fun k => k.1 == x.1) then acc
  else if acc.any (fun k => k.1 == x.1) then acc.map (fun k => if k.1 = x.1 then (k.1, min k.2 x.2) else k)
  else acc ++ [x]

/-- Members by hops: (SERIAL, hops, first lane of the port on the route). -/
def expand (s : State) : Nat → Nat → List (Nat × Nat × Nat) → List (Nat × Nat) → List (Nat × Nat × Nat)
  | 0, _, known, _ => known
  | _, _, known, [] => known
  | n + 1, h, known, front =>
    let next := (front.flatMap (fun f => (neighboursOf f.1 s).map (fun x => (x, f.2)))).foldl (putReach known) []
    expand s n (h + 1) (known ++ next.map (fun x => (x.1, h, x.2))) next

/-- The members that routes reach from this device, itself left out. -/
def reach (s : State) : List (Nat × Nat × Nat) :=
  let own : List (Nat × Nat × Nat) := [(Config.serial, 0, 0)]
  let first := (s.dom.neighbours.toList.map (fun c => (c.2.serial, c.1))).foldl (putReach own) []
  (expand s 32 2 (own ++ first.map (fun x => (x.1, 1, x.2))) first).drop 1

/-- The longest shortest path among the members that the table reaches. -/
def diameter (s : State) : Nat :=
  let all := Config.serial :: (reach s).map (·.1)
  (all.flatMap (fun x => (expand s 32 1 [(x, 0, 0)] [(x, 0)]).map (fun e => e.2.1))).foldl max 0

/-- INDEX and PRIORITY of a member, from its LINK_STATE or its HELLO. -/
def identityOf (serial : Nat) (s : State) : Nat × Nat :=
  if serial = Config.serial then (s.dom.index, s.dom.prio)
  else match s.dom.table.find? (fun e => e.serial == serial) with
    | some e => (e.index, e.prio)
    | none =>
      match (s.dom.neighbours.toList.map (·.2)).find? (fun v => v.serial == serial) with
      | some v => (v.index, v.prio)
      | none => (0, 255)

/-- This device and every member that it reaches. -/
def allMembers (s : State) : List Nat := Config.serial :: (reach s).map (·.1)

/-- Another member of a lower SERIAL bears the same MEMBER_INDEX (R418). -/
def conflicted (serial : Nat) (s : State) : Bool :=
  (allMembers s).any (fun x => decide (x < serial) && (identityOf x s).1 == (identityOf serial s).1)

def hopsTo (serial : Nat) (s : State) : Nat :=
  if serial = Config.serial then 0 else (((reach s).find? (fun r => r.1 == serial)).map (·.2.1)).getD 15

def laneTo (serial : Nat) (s : State) : Option Nat := ((reach s).find? (fun r => r.1 == serial)).map (·.2.2)

/-- STATE of a member in `BODY_DOM_MEMBER`. -/
def memberState (serial : Nat) (s : State) : Nat :=
  if serial = Config.serial then (if s.dom.state = 2 then 2 else if s.dom.state = 3 ∨ s.dom.state = 5 then 3 else 1)
  else if s.dom.refused.contains serial then 3 else if s.dom.joined.contains serial then 2 else 1

/-- The entry of MEMBER_INDEX m: of several, the lowest SERIAL has it. -/
def memberEntry (m : Nat) (s : State) : Option Member :=
  (((allMembers s).filter (fun x => (identityOf x s).1 == m && !conflicted x s)).head?).map (fun x =>
    { serial := x, nextLane := if x = Config.serial then 0 else (laneTo x s).getD 0, hops := if x = Config.serial then 0 else hopsTo x s,
      state := memberState x s })

/-- `BODY_DOM_MEMBER` and HOPS follow the routes. -/
def showMembers (s : State) : State :=
  if !s.dom.enable then updDom (fun d => { d with members := Tab.empty, hops := 0 }) s
  else
    let ms : Tab Member := (List.range 32).foldl (fun t m => match memberEntry m s with | some v => t.set m v | none => t) Tab.empty
    updDom (fun d => { d with members := ms, hops := match d.coordSerial with | some c => hopsTo c s | none => 0 }) s

/-! ## Steps of R424 -/

def domStep (n : Nat) (s : State) : State := updDom (fun d => { d with step := n, stepAt := nowNs s }) s

/-- The member becomes JOINED, or is refused for a reason. -/
def domEnd (st reason : Nat) (s : State) : State := showMembers (domStep 0 (domSetState st reason s))

/-- The table has changed (R425). A member that is forming and has lost its coordinator's route goes back to step 3 (R428). -/
def tableChanged (s : State) : State :=
  let s := updDom (fun d => { d with changed := some (nowNs s) }) s
  let lost := match s.dom.coordSerial with
    | some c => c != Config.serial && (laneTo c s).isNone
    | none => false
  let s := if s.dom.state == 1 && decide (4 ≤ s.dom.step) && lost then domStep 3 s else s
  if conflicted Config.serial s && s.dom.state != 5 then domEnd 5 2 s else showMembers s

/-- Membership begins, at the end of a boot or when ENABLE is set: FORMING, step 2. -/
def domStart (s : State) : State :=
  let s := updDom (fun d => { d with neighbours := Tab.empty, table := [], seen := [], joined := [], refused := [], coordSerial := none,
                                     coordIndex := 0, helloAt := Tab.empty, peerDomain := Tab.empty, goodSince := none, badSince := none,
                                     dirty := true, sentAt := nowNs s, changed := some (nowNs s) }) s
  showMembers (domStep 2 (domSetState 1 0 s))

/-- The orderly end: LEAVE is flooded, and STATE is OFF (R422, R430). -/
def domStop (s : State) : State :=
  let s := originate 5 [] (floodPorts s) s
  let s := domStep 0 (domSetState 0 0 s)
  showMembers (updDom (fun d => { d with neighbours := Tab.empty, table := [], joined := [], refused := [], coordSerial := none,
                                         coordIndex := 0, changed := none, dirty := false, enable := false }) s)

/-! ## HELLO and neighbours (R422, R423) -/

/-- HELLO: every 1 ms until one is received on the port, then every 100 ms. -/
def helloDo (p : Nat) (s : State) : State :=
  let every := if (s.dom.neighbours.find? p).isSome then 100000000 else 1000000
  let due := match s.dom.helloAt.find? p with | none => true | some t => decide (t + every ≤ nowNs s)
  if domRuns s && (domPorts s).contains p && due then
    originate 1 (leBytes 1 p ++ leBytes 1 (portWidth p s)) [p] (updDom (fun d => { d with helloAt := d.helloAt.set p (nowNs s) }) s)
  else s

def execHello (port : Nat) (s : State) : Outcome := onWf (.hello port) (helloDo port s)

/-- Every port that may have a neighbour has one. -/
def helloComplete (s : State) : Bool := (domPorts s).all (fun p => (s.dom.neighbours.find? p).isSome)

/-- HELLO_RX: the peer's DOMAIN_ID is noted, and a device of this domain is a neighbour. -/
def helloRxDo (p : Nat) (m : List Byte) (s : State) : State :=
  if !(domRuns s && decide (0x16 ≤ m.length) && msgType m == 1) || !(domPorts s).contains p then s
  else
    let s := updDom (fun d => { d with peerDomain := d.peerDomain.set p (msgDomain m) }) s
    if msgDomain m ≠ s.dom.domainId then updDom (fun d => { d with reason := 1 }) s
    else
      let v : Neighbour := ⟨msgSerial m, msgIndex m, msgPrio m, nowNs s⟩
      let same := match s.dom.neighbours.find? p with
        | some o => o.serial == v.serial && o.index == v.index && o.prio == v.prio
        | none => false
      let s := updDom (fun d => { d with neighbours := d.neighbours.set p v }) s
      let s := if same then s else tableChanged (updDom (fun d => { d with dirty := true }) s)
      if s.dom.step = 2 ∧ helloComplete s then domStep 3 s else s

def execHelloRx (port : Nat) (msg : List Byte) (s : State) : Outcome := onWf (.helloRx port msg) (helloRxDo port msg s)

/-- NEIGHBOUR_LOST: 300 ms without a HELLO, or the port DOWN. -/
def neighbourLostDo (p : Nat) (s : State) : State :=
  match s.dom.neighbours.find? p with
  | none => s
  | some v =>
    if domRuns s && (decide (v.at_ + 300000000 ≤ nowNs s) || !(domPorts s).contains p) then
      tableChanged (updDom (fun d => { d with neighbours := d.neighbours.del p, dirty := true }) s)
    else s

def execNeighbourLost (port : Nat) (s : State) : Outcome := onWf (.neighbourLost port) (neighbourLostDo port s)

/-! ## LINK_STATE (R422, R423) -/

/-- This device's LINK_STATE payload. -/
def linkStatePayload (s : State) : List Byte :=
  let ns := s.dom.neighbours.toList
  leBytes 1 ns.length ++ ns.flatMap (fun c => leBytes 6 c.2.serial ++ leBytes 1 c.2.index ++ leBytes 1 c.1)

/-- LINK_STATE_SEND: on each change of neighbours and every 100 ms. -/
def linkSendDo (s : State) : State :=
  if domRuns s && (s.dom.dirty || decide (s.dom.sentAt + 100000000 ≤ nowNs s)) then
    originate 2 (linkStatePayload s) (floodPorts s) (updDom (fun d => { d with dirty := false, sentAt := nowNs s }) s)
  else s

def execLinkStateSend (s : State) : Outcome := onWf .linkStateSend (linkSendDo s)

/-- SERIALs of the N entries of a LINK_STATE payload. -/
def linkNeighbours (b : List Byte) : List Nat := (List.range (byteAt b 0)).map (fun k => leAt b (1 + k * 8) 6)

/-- SEQ a was sent after SEQ b. -/
def seqAfter (a b : Nat) : Bool := a != b && decide ((a + 2 ^ 32 - b % 2 ^ 32) % 2 ^ 32 < 2 ^ 31)

/-- LINK_STATE: the table is updated, and the message flooded once. -/
def linkStateDo (p : Nat) (m : List Byte) (s : State) : State :=
  if !mine 2 1 m s || decide (m.length < 0x15 + 8 * byteAt m 0x14) then s
  else
    let f := flood p m s
    let s := f.1
    let old := s.dom.table.find? (fun e => e.serial == msgSerial m)
    let newer := match old with | none => true | some e => seqAfter (msgSeq m) e.seq
    if !f.2 || !newer then s
    else
      let e : LinkEntry := ⟨msgSerial m, msgIndex m, msgPrio m, msgSeq m, nowNs s, linkNeighbours (msgBody m)⟩
      let same := match old with
        | some o => o.index == e.index && o.prio == e.prio && o.neighbours == e.neighbours
        | none => false
      let s := updDom (fun d => { d with table := e :: d.table.filter (fun x => x.serial != e.serial) }) s
      if same then s else tableChanged s

def execLinkState (port : Nat) (msg : List Byte) (s : State) : Outcome := onWf (.linkState port msg) (linkStateDo port msg s)

/-- A member leaves the table: its routes are withdrawn at once. -/
def dropMember (serial : Nat) (s : State) : State :=
  tableChanged (updDom (fun d => { d with table := d.table.filter (fun e => e.serial != serial), joined := d.joined.erase serial,
                                          refused := d.refused.erase serial }) s)

/-- MEMBER_LOST: no LINK_STATE for 300 ms, or no route. -/
def memberLostDo (serial : Nat) (s : State) : State :=
  match s.dom.table.find? (fun e => e.serial == serial) with
  | none => s
  | some e =>
    if domRuns s && (decide (e.at_ + 300000000 ≤ nowNs s) || (laneTo serial s).isNone) then dropMember serial s else s

def execMemberLost (serial : Nat) (s : State) : Outcome := onWf (.memberLost serial) (memberLostDo serial s)

/-- LEAVE: the sender leaves the domain. -/
def leaveDo (p : Nat) (m : List Byte) (s : State) : State :=
  if !mine 5 0 m s then s
  else
    let f := flood p m s
    if !f.2 then f.1
    else
      let ps := (f.1.dom.neighbours.toList.filter (fun c => c.2.serial == msgSerial m)).map (·.1)
      dropMember (msgSerial m) (updDom (fun d => { d with neighbours := ps.foldl (fun t q => t.del q) d.neighbours,
                                                          dirty := d.dirty || !ps.isEmpty }) f.1)

def execDomLeave (port : Nat) (msg : List Byte) (s : State) : Outcome := onWf (.domLeave port msg) (leaveDo port msg s)

/-! ## Election (R425) -/

/-- `x` is preferred to `y`: lower PRIORITY, then lower SERIAL. -/
def preferred (x y : Nat) (s : State) : Bool :=
  decide ((identityOf x s).2 < (identityOf y s).2) || ((identityOf x s).2 == (identityOf y s).2 && decide (x < y))

/-- The coordinator among the members that the table reaches; a member refused for its index is none of them. -/
def elected (s : State) : Nat :=
  ((allMembers s).filter (fun x => !conflicted x s)).foldl (fun b x => if preferred x b s then x else b)
    (((allMembers s).filter (fun x => !conflicted x s)).headD Config.serial)

/-- ELECTION: the table has been unchanged for 20 ms. -/
def electionDo (s : State) : State :=
  match s.dom.changed with
  | none => s
  | some t =>
    if !domRuns s || s.dom.step == 2 || decide (nowNs s < t + 20000000) then s
    else
      let c := elected s
      let old := s.dom.coordSerial
      let moved := old != some c
      let s := updDom (fun d => { d with
          changed := none, coordSerial := some c, coordIndex := (identityOf c s).1, hops := hopsTo c s,
          coordChanges := if moved && old.isSome then min (d.coordChanges + 1) 255 else d.coordChanges,
          joined := if moved then [] else d.joined, refused := if moved then [] else d.refused,
          goodSince := if moved then none else d.goodSince, badSince := if moved then none else d.badSince }) s
      if conflicted Config.serial s then domEnd 5 2 s
      else if 6 < hopsTo c s then domEnd 5 4 s
      else if s.dom.state = 4 then showMembers s
      else if c = Config.serial then domEnd 2 0 s
      else if moved || s.dom.state == 5 || (s.dom.state == 1 && s.dom.step == 3) then showMembers (domStep 4 (domSetState 1 0 s))
      else showMembers s

def execElection (s : State) : Outcome := onWf .election (electionDo s)

/-! ## Time, compatibility, joining (R426, R427) -/

/-- COMPAT goes to the coordinator. -/
def sendCompat (s : State) : State :=
  match s.dom.coordSerial with
  | none => s
  | some c =>
    match laneTo c s with
    | none => s
    | some p =>
      originate 3 (leBytes 4 (fwVersion (activeBank s)) ++ leBytes 8 (if s.upd.pending then s.upd.activateAt else 0)
        ++ leBytes 8 s.fab.activeId) [p] s

/-- A measured offset: `BODY_DOM_OFFSET`, and since when it is good or bad. -/
def measureOffset (ns : Int) (s : State) : State :=
  updDom (fun d => { d with offset := ns,
                            goodSince := if ns.natAbs ≤ 50 then some (d.goodSince.getD (nowNs s)) else none,
                            badSince := if 200 < ns.natAbs then some (d.badSince.getD (nowNs s)) else none }) s

/-- The device aligns itself to a coordinator: another device, in step 4 or later, or in service. -/
def follows (s : State) : Bool :=
  domRuns s && s.dom.coordSerial.isSome && s.dom.coordSerial != some Config.serial

/-- An offset that only a step could end isolates the member (R426). -/
def overJump (s : State) : Bool := s.time.isSet && decide (s.time.jumpUs * 1000 < s.dom.offset.natAbs)

/-- What a measurement brings: alignment after 100 ms within 50 ns, isolation above the jump limit or after 1 s above 200 ns. -/
def offsetActs (s : State) : State :=
  let d := s.dom
  let isolated := (d.state == 2 || (d.state == 1 && decide (4 ≤ d.step))) && overJump s
  let late := d.state == 2 && (match d.badSince with | some t => decide (t + 1000000000 ≤ nowNs s) | none => false)
  let good := d.state == 1 && d.step == 4 && (match d.goodSince with | some t => decide (t + 100000000 ≤ nowNs s) | none => false)
  if isolated || late then domEnd 4 6 s
  else if good then sendCompat (domStep 5 s)
  else s

/-- TIME_ALIGNED and ISOLATED_TIME each bring a measurement. -/
def timeAlignedDo (ns : Int) (s : State) : State := if follows s then offsetActs (measureOffset ns s) else s

def execTimeAligned (offsetNs : Int) (s : State) : Outcome := onWf (.timeAligned offsetNs) (timeAlignedDo offsetNs s)

def isolatedTimeDo (ns : Int) (s : State) : State := if follows s then offsetActs (measureOffset ns s) else s

def execIsolatedTime (offsetNs : Int) (s : State) : Outcome := onWf (.isolatedTime offsetNs) (isolatedTimeDo offsetNs s)

/-- What the coordinator answers a member: 0, or a reason of R430. -/
def compatResult (m : List Byte) (s : State) : Nat :=
  if conflicted (msgSerial m) s then 2
  else if msgProto m ≠ 1 then 3
  else if leAt m 0x18 8 ≠ (if s.upd.pending then s.upd.activateAt else 0) then 5
  else 0

/-- The coordinator's answer is known of a member. -/
def noteAnswer (serial result : Nat) (s : State) : State :=
  showMembers (updDom (fun d => { d with
    joined := if result = 0 then serial :: d.joined.erase serial else d.joined.erase serial,
    refused := if result = 0 then d.refused.erase serial else serial :: d.refused.erase serial }) s)

/-- COMPAT: the coordinator checks and floods JOIN; a member on the way passes the message on. -/
def compatDo (p : Nat) (m : List Byte) (s : State) : State :=
  if !mine 3 20 m s then s
  else if s.dom.coordSerial = some Config.serial then
    let r := compatResult m s
    noteAnswer (msgSerial m) r (originate 4 (leBytes 6 (msgSerial m) ++ leBytes 1 r) (floodPorts s) s)
  else match s.dom.coordSerial.bind (fun c => laneTo c s) with
    | some q => if q = p then s else sendDomain m [q] s
    | none => s

def execCompat (port : Nat) (msg : List Byte) (s : State) : Outcome := onWf (.compat port msg) (compatDo port msg s)

/-- JOIN of the coordinator: for this member, it is JOINED or refused; for another, its state is noted. -/
def joinDo (p : Nat) (m : List Byte) (s : State) : State :=
  if !mine 4 7 m s then s
  else
    let f := flood p m s
    let s := f.1
    if !f.2 || s.dom.coordSerial != some (msgSerial m) then s
    else
      let target := leAt m 0x14 6
      let r := byteAt m 0x1A
      if target ≠ Config.serial then noteAnswer target r s
      else if s.dom.state = 1 ∧ 5 ≤ s.dom.step then
        noteAnswer (msgSerial m) 0 (domEnd (if r = 0 then 2 else if r = 3 ∨ r = 5 then 3 else 5) r s)
      else s

def execDomJoin (port : Nat) (msg : List Byte) (s : State) : Outcome := onWf (.domJoin port msg) (joinDo port msg s)

/-- The bound of the step in progress, in ns (R424). -/
def domBound (s : State) : Nat :=
  let d := s.dom
  if d.step = 2 then 5000000
  else if d.step = 3 then min (50000000 * max 1 (diameter s)) 300000000
  else if d.step = 4 then 2000000000
  else if d.step = 5 then 200000000
  else 300000000

/-- DOMAIN_STEP_TIMEOUT (R424). -/
def domTimeoutDo (s : State) : State :=
  if !domRuns s || s.dom.step == 0 || decide (nowNs s < s.dom.stepAt + domBound s) then s
  else if s.dom.step = 2 then domStep 3 s
  else if s.dom.step = 4 then domEnd 4 6 s
  else
    let s := updDom (fun d => { d with reason := 7 }) s
    if s.dom.step = 3 then domStep 3 (updDom (fun d => { d with changed := some (d.changed.getD (nowNs s)) }) s)
    else sendCompat (domStep 5 s)

def execDomainStepTimeout (s : State) : Outcome := onWf .domainStepTimeout (domTimeoutDo s)

/-! ## BODY_DOM_CFG (R430) -/

/-- The identity of `BODY_DOM_CFG`, and ENABLE, which DOMAIN_ID 0 makes ignored. -/
def setDomCfg (v : Word64) (s : State) : State :=
  updDom (fun d => { d with domainId := fld v 63 32, prio := fld v 23 16, index := fld v 12 8, enable := bitOf v 0 && fld v 63 32 != 0 }) s

/-- `BODY_DOM_CFG` takes a value: ignored while ENABLE is 1 unless it clears ENABLE. -/
def domCfgSet (v : Word64) (s : State) : State :=
  if s.dom.enable then (if bitOf v 0 then s else setDomCfg v (domStop s))
  else
    let s := setDomCfg v s
    if s.dom.enable then domStart s else s

def domCfgDo (v : Word64) (s : State) : State := saving (domCfgSet v) s

def execDomCfg (who : Nat) (v : BitVec 64) (s : State) : Outcome := onWf (.domCfg who v) (gated who 0x2000 (domCfgDo v) s)

end Sys2Proof.Machine
end

