-- ==== Sys2Proof/Machine/DramRows.lean ====
section
/-! DEFINITION. The row DRAM_REQUEST: the request, and the work items for the entries that a poisoned read finds lost (R372, R378). -/

namespace Sys2Proof.Machine

/-- The handles of the sources, legs and subscriptions whose entries the burst holds. -/
def entriesAt (k a : Nat) (s : State) : List Nat :=
  ((sourceList s).filter (fun c => burstHas k a 1 c.1 0)).map (fun c => handleFor .source c.1 s)
    ++ ((legList s).filter (fun c => burstHas k a 2 c.1 0)).map (fun c => handleFor .leg c.1 s)
    ++ ((subList s).filter (fun c => burstHas k a 3 c.1 0)).map (fun c => handleFor .sub c.1 s)

/-- A forward plane that reads poison in an entry has a work item name it (R378, R381). -/
def poisonItems (m k a : Nat) (s : State) : State :=
  if exempt m && s.burstPoison then
    (entriesAt k a s).foldl (fun s h => enginePost 0x0D m 0 0 (BitVec.ofNat 128 h) 0 s) s
  else s

def dramRowDo (m k a : Nat) (write : Option (List Byte)) (fails : Nat) (s : State) : State :=
  let s := dramRequestDo m k a write fails { s with burstPoison := s.burstPoison && write.isSome }
  if write.isNone then poisonItems m k a s else s

def execDramRequest (master stack addr : Nat) (write : Option (List Byte)) (crcFails : Nat) (s : State) : Outcome :=
  onWf (.dramRequest master stack addr write crcFails) (dramRowDo master stack addr write crcFails s)

end Sys2Proof.Machine
end

