-- ==== Sys2Proof/Machine/Mix.lean ====
section
/-! DEFINITION. The mix block: detection, talkers, mixes, variants, frames and buses (R263, R264, R268-R274, R276-R283). -/

namespace Sys2Proof.Machine

/-! ## Detection (R269, R270) -/

/-- b0, a1 and a2 of R269 in 1/2^30 at 48 kHz, HPF code 1 to 3: the Butterworth high-pass of second order by the bilinear
transform, pre-warped at the corner. -/
def hpfCoef (code : Nat) : Int × Int × Int :=
  if code = 1 then (1069773750, -2139532835, 1065820340)
  else if code = 2 then (1065820340, -2131582238, 1057957296)
  else (1061881538, -2123632067, 1050152262)

/-- y(n) = b0 (x(n) - 2 x(n-1) + x(n-2)) - a1 y(n-1) - a2 y(n-2), rounded down or up (R269). -/
def highPass (code : Nat) (x x1 x2 y1 y2 : Int) : Int :=
  let c := hpfCoef code
  (c.1 * (x - 2 * x1 + x2) - c.2.1 * y1 - c.2.2 * y2) / 1073741824 + if Config.filterUp code x x1 x2 y1 y2 then 1 else 0

/-- The filter over a block: output before saturation counted, and the filter's state after it. -/
def filterAll (code : Nat) : Int × Int × Int × Int → List Int → List Int × (Int × Int × Int × Int) × Nat
  | f, [] => ([], f, 0)
  | f, x :: xs =>
    let raw := if code = 0 then x else highPass code x f.1 f.2.1 f.2.2.1 f.2.2.2
    let y := clamp24 raw
    let r := filterAll code (x, f.1, y, f.2.2.1) xs
    (y :: r.1, r.2.1, r.2.2 + b2n (y != raw))

/-- The largest n below 2^b + `from_` for which S × 10^(n/160) is at most D, found bit by bit. -/
def dbSearch (sum full : Nat) : Nat → Nat → Nat
  | 0, n => n
  | b + 1, n => dbSearch sum full b (if sum ^ 160 * 10 ^ (n + 2 ^ b) ≤ full ^ 160 then n + 2 ^ b else n)

/-- lvl of R270, in 1/16 dB: 160 × log10 of the mean square over full scale, at least -127 dBFS. -/
def blockLevel (xs : List Int) : Int :=
  let sum := (xs.map (fun x => x.natAbs * x.natAbs)).sum
  (0 : Int) - ((min 2032 (if sum = 0 then 2032 else dbSearch sum (48 * 2 ^ 46) 11 0) : Nat) : Int)

/-- Detection of one block (R270). -/
def detect (cfg : Nat) (v : AudIn) (xs : List Int) : AudIn :=
  let ls := v.ls + Int.tdiv (blockLevel xs - v.ls) 16
  let fl : Int × Nat := if ls < v.floor then (ls, 0) else if v.floorRun + 1 < 125 then (v.floor, v.floorRun + 1) else (v.floor + 1, 0)
  let cond := decide (fl.1 + 16 * (cfgAct cfg : Int) ≤ ls) && decide (-16 * (cfgAbs cfg : Int) ≤ ls)
  let on := if cond then v.onRun + 1 else 0
  let off := if cond then 0 else v.offRun + 1
  let act := if cond then v.active || decide (cfgAttack cfg ≤ on) else v.active && decide (off < cfgHold cfg)
  { v with ls := ls, floor := fl.1, floorRun := fl.2, onRun := on, offRun := off, active := act }

/-! ## Ramps and mixes (R272, R274) -/

def rampW (n : Nat) : Nat := 4096 * (n + 1) / 48
def rampG (old new n : Nat) : Nat := ((old : Int) + (((new : Int) - old) * rampW n) / 4096).toNat

/-- An input in a block: its filtered samples, and its contributions as (place, old gain, new gain). -/
structure MixIn where
  num : Nat
  xs : List Int
  terms : List (Nat × Nat × Nat)
  deriving DecidableEq, Repr, Inhabited

/-- What an input adds to acc_c at sample n, where G_c is `gc` there: as a talker G_c × g × x, as a feed of c 4,096 × g × x. -/
def termAt (m : MixIn) (c gc n : Nat) : Int :=
  (m.terms.map (fun t =>
    let g : Nat := rampG t.2.1 t.2.2 n
    if t.1 = 1 then ((gc * g : Nat) : Int) * m.xs.getD n 0 else if t.1 = 2 + c then ((4096 * g : Nat) : Int) * m.xs.getD n 0 else 0)).sum

/-- acc_c of R272. -/
def accAt (ms : List MixIn) (c gc n : Nat) : Int := (ms.map (fun m => termAt m c gc n)).sum

/-- The rounding shift of R272, before saturation. -/
def mixRound (acc : Int) : Int := (acc + 8388608) / 16777216

/-- G_c at sample n: a change of FLOOR_GAIN ramps too. -/
def floorAt (v : AudRoom) (c n : Nat) : Nat := rampG (v.gainsWas.getD c 0) (v.gains.getD c 0) n

/-- The common mix of a channel, and the minus-self mix of one input. -/
def commonMix (v : AudRoom) (ms : List MixIn) (c : Nat) : List Int × Nat :=
  sat24 ((List.range 48).map (fun n => mixRound (accAt ms c (floorAt v c n) n)))
def minusMix (v : AudRoom) (ms : List MixIn) (c i : Nat) : List Int × Nat :=
  sat24 ((List.range 48).map (fun n =>
    mixRound (accAt ms c (floorAt v c n) n - ((ms.filter (fun m => m.num == i)).map (fun m => termAt m c (floorAt v c n) n)).sum)))

/-- Input m contributes to channel c in this block, if only while it fades. -/
def heardIn (v : AudRoom) (m : MixIn) (c : Nat) : Bool :=
  m.terms.any (fun t => t.1 == 2 + c || (t.1 == 1 && decide (0 < max (v.gains.getD c 0) (v.gainsWas.getD c 0))))

/-! ## Safe-load (R280) -/

/-- The loading set takes effect at the start of block k. -/
def applyLoads (room k : Nat) (s : State) : State :=
  let v := audRoom room s
  if v.loads.isEmpty then s
  else
    let gains := v.gains.zipIdx.map (fun g => if g.2 = 0 then 4096 else v.loading.get g.2 g.1)
    let s := setAudRoom room { v with cfg := v.loading.get 0 v.cfg, gains := gains, loading := Tab.empty, loads := [],
                                      lastLoad := k % 2 ^ 32 } s
    let s := (v.loading.toList.filter (fun e => decide (64 ≤ e.1))).foldl (fun s e =>
      updAudIn (e.1 - 64) (fun x => { x with cfg := e.2, filt := if inHpf e.2 = inHpf x.cfg then x.filt else (0, 0, 0, 0) }) s) s
    let s := roomCount room 3 v.loads.length s
    v.loads.foldl (fun s t => complete t (okVia (v.tile / 128) (k % 2 ^ 32 * 256) s) s) s

/-! ## Variants (R276, R278) -/

def groupF (g : AudGroup) (s : State) : Nat := profLen (audRoom g.room s).profiles g.profile

/-- A group needs a variant for talker i: a subscription bound to it, and G_c above 0. -/
def needsVar (g : AudGroup) (i : Nat) (s : State) : Bool :=
  isBound g i s && decide (0 < (audRoom g.room s).gains.getD g.chan 0)

/-- Take a slot for input i: in a frame in progress the variant copies the common mix so far. -/
def takeVar (g : AudGroup) (i : Nat) : AudGroup :=
  if hasVar g i then { g with vars := g.vars.map (fun v => if v.input = i then { v with until_ := none } else v) }
  else
    { g with vars := g.vars ++ [{ input := i }],
             frame := g.frame.map (fun f => { f with vars := f.vars ++ [(i, f.common)] }) }

/-- slots_free of R273. -/
def slotsFree (room i : Nat) (s : State) : Bool :=
  (roomGroups room s).all (fun g => !needsVar g.2 i s || hasVar g.2 i || decide (g.2.vars.length < g.2.slots))

def takeSlots (room i : Nat) (s : State) : State :=
  (roomGroups room s).foldl (fun s g => if needsVar g.2 i s then updAudGroup g.1 (fun g => takeVar g i) s else s) s

/-- Slots whose time is over are freed. -/
def freeVars (k : Nat) (g : AudGroup) : AudGroup :=
  { g with vars := g.vars.filter (fun v => match v.until_ with | none => true | some u => decide (k < u)) }

/-- After the talkers are chosen: an input that has left keeps its variant to the end of the next frame; one that contributes
and has none takes a free slot. -/
def settleVars (k : Nat) (g : AudGroup) (s : State) : AudGroup :=
  let m := audRoom g.room s
  let f := max (groupF g s) 1
  let wants := fun i => isBound g i s && (identOf .audioIn i s).used && contributes m (audIn i s) i g.chan
  let g := { g with vars := g.vars.map (fun (v : AudVar) =>
    if wants v.input then { v with until_ := none } else { v with until_ := some (v.until_.getD ((k / f + 2) * f)) }) }
  let new := ((g.binds.map (·.2)).eraseDups.filter (fun i => wants i && !hasVar g i)).take (g.slots - g.vars.length)
  new.foldl takeVar g

/-! ## Talkers (R273) -/

/-- The candidates in the order of R273. -/
def talkerOrder (room : Nat) (s : State) : List Nat :=
  let cs := (roomInputs room s).filter (fun c => !inFeed c.2.cfg && !inMute c.2.cfg && c.2.active)
  let before := fun (a b : Nat × AudIn) =>
    if inPin a.2.cfg != inPin b.2.cfg then inPin a.2.cfg
    else if a.2.ls ≠ b.2.ls then decide (b.2.ls < a.2.ls) else decide (a.1 ≤ b.1)
  (cs.mergeSort before).map (·.1)

/-- Members that stay: participants of the room, not muted, pinned or active. -/
def staysIn (room : Nat) (s : State) (i : Nat) : Bool :=
  let v := audIn i s
  (identOf .audioIn i s).used && v.room == room && !inFeed v.cfg && !inMute v.cfg && (inPin v.cfg || v.active)

/-- The unpinned member with the lowest ls, ties to the higher number. -/
def weakest (ts : List (Option Nat)) (s : State) : Option Nat :=
  (ts.filterMap id).foldl (fun m i =>
    if inPin (audIn i s).cfg then m
    else match m with
      | none => some i
      | some j =>
        let a := (audIn i s).ls
        let b := (audIn j s).ls
        if a < b ∨ (a = b ∧ j < i) then some i else m) none

/-- Put `i` into the first empty position, or into that of `q`. -/
def placeTalker (ts : List (Option Nat)) (i : Nat) (q : Option Nat) : List (Option Nat) :=
  match ts with
  | [] => []
  | t :: r => if t = q then some i :: r else t :: placeTalker r i q

def setTalkers (room : Nat) (ts : List (Option Nat)) (s : State) : State := updAudRoom room (fun v => { v with talkers := ts }) s

/-- One candidate. -/
def admitTalker (room : Nat) (s : State) (c : Nat) : State :=
  let v := audRoom room s
  let n := (v.talkers.filterMap id).length
  if v.talkers.contains (some c) then s
  else if n < cfgK v.cfg then
    if slotsFree room c s then takeSlots room c (setTalkers room (placeTalker v.talkers c none) s) else roomCount room 1 1 s
  else if inPin (audIn c s).cfg then s
  else match weakest v.talkers s with
    | none => s
    | some q =>
      if (audIn q s).ls + 16 * (cfgSwap v.cfg : Int) < (audIn c s).ls && slotsFree room c s then
        takeSlots room c (roomCount room 0 1 (setTalkers room (placeTalker v.talkers c (some q)) s))
      else s

/-- Positions, as bits, at which `p` holds of the old and the new talker. -/
def positionMask (p : Option Nat → Option Nat → Bool) (a b : List (Option Nat)) : Nat :=
  ((List.zip a b).zipIdx.map (fun x => b2n (p x.1.1 x.1.2) * 2 ^ x.2)).sum

/-- The talker set of block k, and the work item of a change (R273, R284). -/
def chooseTalkers (room k : Nat) (s : State) : State :=
  let old := (audRoom room s).talkers
  let s := setTalkers room (old.map (fun t => t.bind (fun i => if staysIn room s i then some i else none))) s
  let s := (talkerOrder room s).foldl (admitTalker room) s
  let v := audRoom room s
  if v.notify && v.talkers != old then
    let inn := positionMask (fun a b => b.isSome && a != b) old v.talkers
    let out := positionMask (fun a b => a.isSome && a != b) old v.talkers
    enginePost 0x08 (128 + v.tile / 8) (roomAt room s).owner 0 (pack128 [(0, 13, room), (32, 32, k), (64, 16, inn), (80, 16, out)]) 0 s
  else s

/-! ## The inputs of a block -/

/-- What start(k) reads from the AES3 inputs (R315, R321): non-audio and slots that are not live give zeros. -/
def aesRead (s : State) : List (InMode × List (Int × Int)) × State :=
  (List.range 16).foldl (fun a p =>
    if (aesIn p a.2).enable then
      let r := aesTake p a.2
      (a.1 ++ [(r.1, r.2.1)], r.2.2)
    else (a.1 ++ [(.zero, [])], a.2)) ([], s)

def aesSamples (reads : List (InMode × List (Int × Int))) (p sub : Nat) (s : State) : List Int :=
  let r := reads.getD p (.zero, [])
  let xs := (r.2.map (fun x => if sub = 0 then x.1 else x.2))
  let silent := (aesIn p s).nonAudio || !subLive false p sub s || decide (xs.length < 48)
  if silent then List.replicate 48 0
  else match r.1 with
    | .live => xs
    | .zero => List.replicate 48 0
    | .rampOut => xs.zipIdx.map (fun x => x.1 * rampG 4096 0 x.2 / 4096)
    | .rampIn => xs.zipIdx.map (fun x => x.1 * rampG 0 4096 x.2 / 4096)

/-- A DTX gap is in force: the unit that waits for the decoder follows a sender's silence (R267, R268). -/
def gapWaits (v : AudIn) (s : State) : Bool :=
  match v.units, resolve .source v.source s with
  | u :: _, .ok k => (match u.pkt with | some p => decide (0 < dtxGap v p (sourceAt k s).clock) | none => false)
  | _, _ => false

/-- The head of the input's FIFO at start(k), or zeros and whether that is an underrun (R268). -/
def takeBlock (reads : List (InMode × List (Int × Int))) (v : AudIn) (s : State) : List Int × AudIn × Bool :=
  match v.aes with
  | some a => (aesSamples reads a.1 a.2 s, v, false)
  | none =>
    match v.fifo with
    | x :: r => (x, { v with fifo := r }, false)
    | [] => (List.replicate 48 0, v, !gapWaits v s)

/-- The contribution of an input from this block on: place and gain. -/
def wantPlace (m : AudRoom) (i : Nat) (x : AudIn) : Nat × Nat :=
  if inFeed x.cfg then (if inMute x.cfg then (0, 0) else (2 + inChannel x.cfg, inGain x.cfg))
  else if m.talkers.contains (some i) then (1, inGain x.cfg) else (0, 0)

def termsOf (old new : Nat × Nat) : List (Nat × Nat × Nat) :=
  (if old.1 = new.1 then [(old.1, old.2, new.2)] else [(old.1, old.2, 0), (new.1, 0, new.2)]).filter (fun t => t.1 != 0)

/-- One input at start(k): its block, filtered; detection; its contributions. -/
def inputBlock (reads : List (InMode × List (Int × Int))) (m : AudRoom) (i : Nat) (want : Nat × Nat) (v : AudIn) (s : State) :
    MixIn × AudIn × Bool × Nat :=
  let b := takeBlock reads v s
  let f := filterAll (inHpf v.cfg) b.2.1.filt b.1
  let v' := detect m.cfg { b.2.1 with filt := f.2.1 } f.1
  ({ num := i, xs := f.1, terms := termsOf (v.place, v.gain) want }, { v' with place := want.1, gain := want.2 }, b.2.2, f.2.2)

/-- Every input of the room at start(k), and those that fade out. -/
def roomMixIns (reads : List (InMode × List (Int × Int))) (room : Nat) (s : State) : List MixIn × State :=
  let m := audRoom room s
  let r := (roomInputs room s).foldl (fun (a : List MixIn × State) c =>
    let r := inputBlock reads m c.1 (wantPlace m c.1 c.2) c.2 a.2
    let s := setAudIn c.1 r.2.1 a.2
    let s := if r.2.2.1 then tileCount c.2.tile 1 1 (inCount c.1 2 1 s) else s
    (a.1 ++ [r.1], tileCount c.2.tile 4 r.2.2.2 (inCount c.1 5 r.2.2.2 s))) ([], s)
  (r.1 ++ m.fading.map (fun c => (inputBlock reads m c.1 (0, 0) c.2 s).1), updAudRoom room (fun v => { v with fading := [] }) r.2)

/-! ## Group frames (R277-R279) -/

/-- Block k of a group: a frame begins at a multiple of F, and is done after F blocks. Answers the samples that saturated, and
whether a frame was skipped. -/
def groupBlock (k : Nat) (ms : List MixIn) (g : AudGroup) (s : State) : AudGroup × Nat × Bool :=
  let m := audRoom g.room s
  let f := max (groupF g s) 1
  let cur := g.frame.bind (fun x => if x.first + x.blocks = k then some x else none)
  let cur := if k % f = 0 then
      some { first := k, vars := g.vars.map (fun v => (v.input, [])), binds := g.binds.filter (fun b => boundSub b.1 s) }
    else cur
  match cur with
  | none => ({ g with frame := none }, 0, false)
  | some x =>
    let minus := x.vars.map (fun v => (v, minusMix m ms g.chan v.1))
    let heard := (ms.filter (fun i => heardIn m i g.chan)).map (·.num)
    let x := { x with
      blocks := x.blocks + 1, common := x.common ++ m.mixes.getD g.chan [],
      vars := minus.map (fun v => (v.1.1, v.1.2 ++ v.2.1)), heard := (x.heard ++ heard).eraseDups }
    let clips := (minus.map (fun v => v.2.2)).sum
    if x.blocks < f then ({ g with frame := some x }, clips, false)
    else
      let done := g.done ++ [x]
      if 2 < done.length then ({ g with frame := none, done := done.drop 1, rtpSeq := (g.rtpSeq + 1) % 2 ^ 32 }, clips, true)
      else ({ g with frame := none, done := done }, clips, false)

/-- Block k of a room (R263, R272, R273, R278, R280). -/
def roomBlock (reads : List (InMode × List (Int × Int))) (k room : Nat) (s : State) : State :=
  let s := applyLoads room k s
  let s := (roomGroups room s).foldl (fun s g => updAudGroup g.1 (freeVars k) s) s
  let s := chooseTalkers room k s
  let s := (roomGroups room s).foldl (fun s g => setAudGroup g.1 (settleVars k g.2 s) s) s
  let r := roomMixIns reads room s
  let v := audRoom room r.2
  let common := (List.range v.channels).map (commonMix v r.1)
  let s := setAudRoom room { v with mixes := common.map (·.1) } r.2
  let clips := (common.map (·.2)).sum
  let s := tileCount v.tile 0 1 (tileCount v.tile 4 clips (roomCount room 2 clips s))
  let s := (roomGroups room s).foldl (fun s g =>
    let x := groupBlock k r.1 g.2 s
    let s := tileCount v.tile 4 x.2.1 (roomCount room 2 x.2.1 (setAudGroup g.1 x.1 s))
    if x.2.2 then tileCount g.2.tile 3 1 s else s) s
  updAudRoom room (fun v => { v with gainsWas := v.gains }) s

/-! ## Buses (R281-R283) -/

/-- A sample's magnitude is below SIL_DBFS: |x| < 2^23 × 10^(-d/20). -/
def belowSil (d : Nat) (x : Int) : Bool := decide (x.natAbs ^ 20 * 10 ^ d < 2 ^ 460)
def silentBlock (d : Nat) (b : List (Int × Int)) : Bool := b.all (fun x => belowSil d x.1 && belowSil d x.2)

/-- The tap record of a block (R283). -/
def tapPush (b k : Nat) (block : List (Int × Int)) (parked : Bool) (s : State) : State :=
  let v := audBus b s
  if !v.tap then s
  else
    let flat := (block.flatMap (fun x => [toTwos 32 x.1, toTwos 32 x.2]))
    let words := (List.range 32).map (fun j => packNat ((List.range 3).map (fun i => (32 * i, 32, flat.getD (3 * j + i) 0))))
    let w0 := packNat [(56, 64, k * 1000000), (24, 32, k), (0, 4, b), (4, 1, b2n parked)]
    let r := devicePush v.tapQueue (w0 :: words) s
    if r.1 = .stored then r.2 else busCount b 3 1 r.2

/-- The end of a bus's block: silence, wake, tap, and the block to the port's buffer (R282, R283, R316). -/
def finishBusBlock (b : Nat) (s : State) : State :=
  let v := audBus b s
  match v.block with
  | none => s
  | some (k, xs) =>
    let quiet := silentBlock v.silDb xs
    let s := setAudBus b { v with block := none, lastBlock := (k, xs), silent := if quiet then min (v.silent + 1) (2 ^ 32 - 1) else 0 } s
    let wakes := v.parked && !quiet
    let s := if wakes then wakeOut b (busCount b 1 1 (updAudBus b (fun v => { v with parked := false, wake := cmpNow s }) s)) else s
    if v.parked && quiet then s else aesOutBlock b xs (tapPush b k xs false s)

/-- The new setting of a bus takes effect (R281). -/
def applyBus (b : Nat) (s : State) : State :=
  let v := audBus b s
  match v.set with
  | none => s
  | some (w2, w3) =>
    setAudBus b { v with cfg := w2, parkMs := fld w3 15 0, silDb := fld w3 22 16, tap := bitOf w3 23, tapQueue := fld w3 127 64, set := none } s

/-- A subframe's part of a bus at sample n, in 1/4,096: the old source fades out as the new one fades in. -/
def subTerm (w : Word128) (sub n : Nat) (old new : Nat) (s : State) : Int :=
  ((audRoom (subRoom w sub) s).mixes.getD (subChan w sub) []).getD n 0 * rampG old new n

def subSampleAt (v : AudBus) (sub n : Nat) (s : State) : Int :=
  let g := fun w => if subOn w sub then subGain w sub else 0
  let same := subRoom v.was sub == subRoom v.cfg sub && subChan v.was sub == subChan v.cfg sub
  let sum := if same then subTerm v.cfg sub n (g v.was) (g v.cfg) s
             else subTerm v.was sub n (g v.was) 0 s + subTerm v.cfg sub n 0 (g v.cfg) s
  (sum + 2048) / 4096

/-- Block k of a bus. -/
def busBlock (k b : Nat) (s : State) : State :=
  let s := applyBus b s
  let v := audBus b s
  let side := fun sub => sat24 ((List.range 48).map (fun n => subSampleAt v sub n s))
  let l := side 0
  let r := side 1
  busCount b 2 (l.2 + r.2) (setAudBus b { v with was := v.cfg, block := some (k, List.zip l.1 r.1) } s)

/-- BUS_PARK (R282, R283, R319). -/
def busParkDo (b : Nat) (s : State) : State :=
  let v := audBus b s
  if s.body.hold || v.parked || v.parkMs == 0 || decide (v.silent < v.parkMs) then s
  else
    let s := busCount b 0 1 (setAudBus b { v with parked := true } s)
    parkOut b (tapPush b v.lastBlock.1 v.lastBlock.2 true s)

def execBusPark (bus : Nat) (s : State) : Outcome := onWf (.busPark bus) (busParkDo bus s)

/-! ## The block -/

def allBuses (f : Nat → State → State) (s : State) : State := (List.range 16).foldl (fun s b => f b s) s

/-- start(k) of every mixer: the last block reaches the ports and the taps, and block k is computed. -/
def mixBlock (k : Nat) (s : State) : State :=
  let s := allBuses aesSteer (allBuses finishBusBlock s)
  let r := aesRead s
  let s := (r.2.audio.rooms.toList.map (·.1)).foldl (fun s room => roomBlock r.1 k room s) r.2
  allBuses (busBlock k) s

/-- A mix block is due: its start has come, and it has not been taken (R263, R357). -/
def mixDue (s : State) : Option Nat :=
  let k := cmpNow s / 1000000
  if s.audio.last = some k then none else some k

end Sys2Proof.Machine
end

