-- ==== Sys2Proof/Machine/Dsp.lean ====
section
/-! DEFINITION. The DSP cores: issue, latency, interrupts and the meaning of each instruction (R287-R306, R308). What a fault
does to the tile (R307) is in the next file. -/

namespace Sys2Proof.Machine

/-! ## Registers, flight and slots (R289-R292) -/

def DspCore.pr (c : DspCore) (i : Nat) : BitVec 32 := c.p.getD i 0
def DspCore.vr (c : DspCore) (i : Nat) : Word128 := c.v.getD i 0

/-- STATUS as MVSV reads it. -/
def DspCore.status (c : DspCore) : BitVec 32 :=
  BitVec.ofNat 32 (packNat [(0, 1, b2n c.ie), (1, 3, c.lsp), (4, 1, b2n c.sat), (5, 3, c.imask.toNat), (8, 3, c.ipend.toNat),
                            (11, 1, b2n c.mail.isEmpty)])

/-- Write the writable fields of STATUS; a depth above 4 is ignored. -/
def DspCore.setStatus (c : DspCore) (v : Nat) : DspCore :=
  { c with ie := v.testBit 0, lsp := if v / 2 % 8 ≤ 4 then v / 2 % 8 else c.lsp, sat := v.testBit 4, imask := BitVec.ofNat 3 (v / 32) }

/-- A result reaches its register. -/
def landOne (c : DspCore) (f : DspFlight) : DspCore :=
  match f.dest with
  | .v i => { c with v := c.v.set i (BitVec.ofNat 128 f.value) }
  | .p i => { c with p := c.p.set i (BitVec.ofNat 32 f.value) }
  | .b i => { c with b := c.b.set i (BitVec.ofNat 32 f.value) }
  | .l i => { c with l := c.l.set i (BitVec.ofNat 32 f.value) }
  | .a i => { c with acc := c.acc.set i (BitVec.ofNat 288 f.value) }
  | .ovf => { c with ovf := BitVec.ofNat 32 f.value }
  | .sat => { c with sat := true }
  | .ls i =>
    { c with ls := c.ls.set i { start := BitVec.ofNat 14 f.value, end_ := BitVec.ofNat 14 (f.value / 2 ^ 32),
                                count := BitVec.ofNat 32 (f.value / 2 ^ 64) } }
  | .special i =>
    if i = 0 then c.setStatus f.value
    else if i = 2 then { c with ipc := BitVec.ofNat 14 f.value }
    else if i = 3 then { c with istat := BitVec.ofNat 32 f.value }
    else if i = 7 then { c with lsp := if f.value % 8 ≤ 4 then f.value % 8 else c.lsp }
    else if i = 8 then { c with ipend := c.ipend &&& ~~~ BitVec.ofNat 3 f.value }
    else c

/-- The next slot begins: the results due at it land, in the order of their issue (R292). -/
def nextSlot (c : DspCore) : DspCore :=
  let n := c.slot + 1
  (c.flight.filter (fun f => decide (f.due ≤ n))).foldl landOne { c with slot := n, flight := c.flight.filter (fun f => decide (n < f.due)) }

def slots : Nat → DspCore → DspCore
  | 0, c => c
  | n + 1, c => slots n (nextSlot c)

/-- Put a result in flight: it can be read N slots on. -/
def DspCore.send (c : DspCore) (n : Nat) (d : DspDest) (value : Nat) : DspCore :=
  { c with flight := c.flight ++ [⟨c.slot + n, d, value⟩] }

/-! ## Memory and pointers (R293, R294) -/

/-- `n` bytes from `a` on lie in the core's window. -/
def DspCore.inWindow (c : DspCore) (a n : Nat) : Bool := decide (c.base ≤ a) && decide (a + n ≤ c.base + c.size)

def vecAddr (a : BitVec 32) : Nat := a.toNat / 16 * 16
def wordAddr (a : BitVec 32) : Nat := a.toNat / 4 * 4

/-- R294: pointer n after a post-modify by m. -/
def DspCore.modified (c : DspCore) (n : Nat) (m : Int) : BitVec 32 :=
  let a : Int := (c.pr n).toNat + m
  if n < 8 ∧ c.l.getD n 0 ≠ 0 then
    let b : Int := (c.b.getD n 0).toNat
    let l : Int := (c.l.getD n 0).toNat
    BitVec.ofInt 32 (if b + l ≤ a then a - l else if a < b then a + l else a)
  else BitVec.ofInt 32 a

/-! ## Lanes (R295, R297) -/

/-- Lane i of `w` bits, unsigned and signed. -/
def laneU {n : Nat} (v : BitVec n) (w i : Nat) : Nat := v.toNat >>> (w * i) % 2 ^ w
def laneS {n : Nat} (v : BitVec n) (w i : Nat) : Int := ofTwos w (laneU v w i)

/-- A register from its lanes, lane 0 lowest; a lane is cut to its width. -/
def fromLanes (w : Nat) : List Int → Nat
  | [] => 0
  | x :: r => toTwos w x + 2 ^ w * fromLanes w r

def laneCount (w16 : Bool) : Nat := if w16 then 8 else 4
def laneBits (w16 : Bool) : Nat := if w16 then 16 else 32
def accBitsOf (w16 : Bool) : Nat := if w16 then 36 else 72

/-- The product of lane i under SIGN (R297). -/
def laneProduct (sign : Nat) (w16 : Bool) (x y : Word128) (i : Nat) : Int :=
  let w := laneBits w16
  if sign = 0 then laneS x w i * laneS y w i
  else if sign = 1 then laneS x w i * laneU y w i
  else (laneU x w i * laneU y w i : Nat)

/-- Saturate to n bits, and whether that changed the value. -/
def satBits (n : Nat) (v : Int) : Int × Bool :=
  let hi : Int := 2 ^ (n - 1) - 1
  let lo : Int := -(2 ^ (n - 1))
  (clampInt v lo hi, decide (v < lo) || decide (hi < v))

/-- One multiply step (R297): `mode` 0 adds, 1 subtracts, 2 writes after clearing. Answers the accumulator and the flags set. -/
def macLanes (mode sign : Nat) (w16 : Bool) (a : BitVec 288) (x y : Word128) : BitVec 288 × Nat :=
  let n := accBitsOf w16
  let rs := (List.range (laneCount w16)).map (fun i =>
    let p := laneProduct sign w16 x y i
    satBits n (if mode = 0 then laneS a n i + p else if mode = 1 then laneS a n i - p else p))
  let flags := (rs.zipIdx.map (fun r => if r.1.2 then (if w16 then 2 ^ r.2 else 3 * 4 ^ r.2) else 0)).sum
  (BitVec.ofNat 288 (fromLanes n (rs.map (·.1))), flags)

/-- An accumulator-class result (R296): at once in the class's order, after 3 slots for other readers (R291). -/
def DspCore.setAcc (c : DspCore) (a : Nat) (v : BitVec 288) : DspCore :=
  { c with accNow := c.accNow.set a v }.send 3 (.a a) v.toNat

def DspCore.addFlags (c : DspCore) (a flags : Nat) : DspCore :=
  if flags = 0 then c
  else
    let o := c.ovfNow ||| BitVec.ofNat 32 (flags * 256 ^ a)
    { c with ovfNow := o }.send 3 .ovf o.toNat

/-! ## Issue -/

/-- What an instruction does next. -/
inductive DspFlow where
  /-- the next instruction, or the loop-back -/
  | seq
  /-- a taken BR, CALL, RET or RETI: three slots, no loop check -/
  | jump (t : BitVec 14)
  /-- LOOP with COUNT 0: on at END + 1 -/
  | skip (t : BitVec 14)
  deriving DecidableEq, Repr

/-- The outcome of an issue: the core cannot issue, faults, or has issued. -/
inductive DspRes where
  | stall
  | fault (code : Nat)
  | done (c : DspCore) (flow : DspFlow)
  deriving DecidableEq, Repr

def faultIllegal : Nat := 1
def faultWindow : Nat := 2
def faultLoop : Nat := 3

/-- R299: what follows the instruction at `pc`. -/
def loopBack (c : DspCore) (pc : BitVec 14) : DspCore :=
  let e := c.ls.getD (c.lsp - 1) {}
  if 0 < c.lsp ∧ e.end_ = pc then
    if 1 < e.count.toNat then { c with pc := e.start, ls := c.ls.set (c.lsp - 1) { e with count := e.count - 1 } }
    else { c with pc := e.end_ + 1, lsp := c.lsp - 1 }
  else { c with pc := pc + 1 }

/-- A WAIT ends with IE 0 once a source that IMASK admits is pending (R301). -/
def wakeCore (c : DspCore) : DspCore :=
  if c.run = .waiting ∧ !c.ie ∧ c.ipend &&& c.imask ≠ 0 then { c with run := .running } else c

/-- The slots that an issue takes (R290). -/
def afterIssue (pc : BitVec 14) (c : DspCore) (flow : DspFlow) : DspCore :=
  match flow with
  | .seq => wakeCore (nextSlot (loopBack c pc))
  | .jump t => slots 3 { c with pc := t }
  | .skip t => nextSlot { c with pc := t }

/-- A source is accepted (R303): IE 1, the source pending and unmasked; an MVVS that clears IE stops acceptance at once (R306). -/
def DspCore.irqReady (c : DspCore) : Bool :=
  c.ie && c.ipend &&& c.imask != 0 && !c.flight.any (fun f => f.dest == .special 0 && !f.value.testBit 0)

/-- The tile's cores run: an AU tile that is loaded and not fenced, outside Safe Hold. -/
def dspLive (tile : Nat) (s : State) : Bool :=
  let g := groupOf (tile / 8) s
  !s.body.hold && g.role == 4 && (g.state == 1 || g.state == 2) && !g.fenced.testBit (tile % 8)

def dspOpcodes : List Nat :=
  [0x00, 0x01, 0x02, 0x03, 0x04, 0x05, 0x06, 0x07, 0x08, 0x09, 0x0A, 0x0B, 0x10, 0x11, 0x12, 0x18, 0x19, 0x1A, 0x20,
   0x30, 0x31, 0x32, 0x33, 0x38, 0x39, 0x3A, 0x3B, 0x3C]

/-- The fields that make an instruction illegal (R302). -/
def dspIllegal (w : BitVec 32) : Bool :=
  let op := fld w 31 26
  if op = 0x01 then fld w 25 23 == 7
  else if op = 0x05 then fld w 14 0 == 0
  else if op = 0x0A ∨ op = 0x0B then decide (12 < fld w 20 16)
  else if op = 0x10 ∨ op = 0x11 then fld w 15 0 % 16 != 0
  else if op = 0x12 then fld w 15 0 % 4 != 0
  else if op = 0x18 ∨ op = 0x19 ∨ op = 0x1A then fld w 21 20 == 3 || (fld w 21 20 != 0 && decide (7 < fld w 25 22))
  else if op = 0x20 then decide (11 < fld w 10 7)
  else if op = 0x30 ∨ op = 0x31 ∨ op = 0x32 then fld w 22 21 == 3
  else if op = 0x33 then fld w 22 21 == 3 || decide (7 < fld w 20 17)
  else if op = 0x38 then fld w 18 17 == 3 || (fld w 18 17 == 2) != bitOf w 16
  else !dspOpcodes.contains op

/-- What an instruction does: the state with the core's memory and other cores, and the outcome for the core. -/
abbrev DspBody := BitVec 32 → DspCore → State → State × DspRes

/-! ## Control -/

def branchTarget (w : BitVec 32) (pc : BitVec 14) : BitVec 14 := BitVec.ofInt 14 ((pc.toNat : Int) + ofTwos 16 (fld w 15 0))

/-- COND of BR (R301). -/
def brTaken (w : BitVec 32) (c : DspCore) : Bool :=
  let x := c.pr (fld w 22 19)
  let k := fld w 25 23
  if k = 0 then true else if k = 1 then x == 0 else if k = 2 then x != 0 else if k = 3 then x.msb else if k = 4 then !x.msb
  else if k = 5 then c.sat else c.ovf.toNat / 256 ^ fld w 20 19 % 256 != 0

def dspNopI : DspBody := fun _ c s => (s, .done c .seq)
def dspBrI : DspBody := fun w c s => (s, .done c (if brTaken w c then .jump (branchTarget w c.pc) else .seq))
def dspCallI : DspBody := fun w c s => (s, .done (c.send 1 (.p 15) (c.pc + 1).toNat) (.jump (branchTarget w c.pc)))
def dspRetI : DspBody := fun _ c s => (s, .done c (.jump (BitVec.ofNat 14 (c.pr 15).toNat)))
def dspRetiI : DspBody := fun _ c s => (s, .done (c.setStatus c.istat.toNat) (.jump c.ipc))

/-- LOOP (R299). -/
def dspLoopI : DspBody := fun w c s =>
  let n := if bitOf w 25 then fld w 24 15 else (c.pr (fld w 24 21)).toNat
  let e := c.pc + BitVec.ofNat 14 (fld w 14 0)
  if n = 0 then (s, .done c (.skip (e + 1)))
  else if 4 ≤ c.lsp then (s, .fault faultLoop)
  else (s, .done { c with ls := c.ls.set c.lsp { start := c.pc + 1, end_ := e, count := BitVec.ofNat 32 n }, lsp := c.lsp + 1 } .seq)

/-- WAIT: issue stops unless a source that IMASK admits is pending. -/
def dspWaitI : DspBody := fun _ c s => (s, .done (if c.ipend &&& c.imask = 0 then { c with run := .waiting } else c) .seq)
def dspHaltI : DspBody := fun _ c s => (s, .done { c with run := .halted } .seq)

/-! ## Moves (R289, R301, R303) -/

def dspMvlsI : DspBody := fun w c s =>
  let e := c.ls.getD (fld w 20 19) {}
  (s, .done (c.send 1 (.v (fld w 25 21)) (e.start.toNat + e.end_.toNat * 2 ^ 32 + e.count.toNat * 2 ^ 64)) .seq)

def dspMvslI : DspBody := fun w c s => (s, .done (c.send 2 (.ls (fld w 20 19)) ((c.vr (fld w 25 21)).toNat % 2 ^ 96)) .seq)

/-- A raised source sets its bit, and ends a WAIT with IE 0 (R301, R303). -/
def raiseSource (k : Nat) (c : DspCore) : DspCore := wakeCore { c with ipend := c.ipend ||| BitVec.ofNat 3 (2 ^ k) }

/-- A special register as MVSV reads it; none for a write-only one, whose value the spec leaves open. -/
def specialRead (tile core i : Nat) (c : DspCore) (s : State) : Option Nat :=
  if i = 0 then some c.status.toNat
  else if i = 1 then some c.ovf.toNat
  else if i = 2 then some c.ipc.toNat
  else if i = 3 then some c.istat.toNat
  else if i = 4 then some (tile + core * 512)
  else if i = 5 then some (s.audio.last.getD 0 % 2 ^ 32)
  else if i = 6 then some (c.mail.headD 0).toNat
  else if i = 7 then some c.lsp
  else if i = 8 then some c.ipend.toNat
  else none

def dspMvsvI (tile core : Nat) : DspBody := fun w c s =>
  let i := fld w 20 16
  let c' := if i = 6 then { c with mail := c.mail.drop 1 } else c
  match specialRead tile core i c s with
  | some v => (s, .done (c'.send 1 (.v (fld w 25 21)) v) .seq)
  | none => ((fresh s).2, .done (c'.send 1 (.v (fld w 25 21)) (Config.free (fresh s).1 % 2 ^ 32)) .seq)

/-- A word enters a core's mailbox, which raises MAIL (R303). -/
def pushMail (v : BitVec 32) (c : DspCore) : DspCore := raiseSource 1 { c with mail := c.mail ++ [v] }

/-- MVVS: a full mailbox stops issue. -/
def dspMvvsI (tile core : Nat) : DspBody := fun w c s =>
  let i := fld w 20 16
  let x := (c.vr (fld w 25 21)).toNat % 2 ^ 32
  if i = 1 then
    let o := c.ovfNow &&& ~~~ BitVec.ofNat 32 x
    (s, .done ({ c with ovfNow := o }.send 2 .ovf o.toNat) .seq)
  else if 9 ≤ i then
    let dst_ := i - 9
    let dst := if dst_ = core then some c else dspCore? tile dst_ s
    match dst with
    | none => (s, .done c .seq)
    | some d =>
      if 4 ≤ d.mail.length then (s, .stall)
      else if dst_ = core then (s, .done (pushMail (BitVec.ofNat 32 x) c) .seq)
      else (setDspCore tile dst_ (pushMail (BitVec.ofNat 32 x) d) s, .done c .seq)
  else (s, .done (c.send 2 (.special i) x) .seq)

/-! ## Memory -/

def dspMod (w : BitVec 32) : Int := ofTwos 16 (fld w 15 0)

def dspVldI (tile : Nat) : DspBody := fun w c s =>
  let n := fld w 20 17
  let a := vecAddr (c.pr n)
  if !c.inWindow a 16 then (s, .fault faultWindow)
  else (s, .done ((c.send 2 (.v (fld w 25 21)) (leNat ((sramOf tile s).readBytes a 16))).send 1 (.p n) (c.modified n (dspMod w)).toNat) .seq)

def dspVstI (tile : Nat) : DspBody := fun w c s =>
  let n := fld w 20 17
  let a := vecAddr (c.pr n)
  if !c.inWindow a 16 then (s, .fault faultWindow)
  else (setSram tile ((sramOf tile s).writeBytes a (bytesOf128 (c.vr (fld w 25 21)))) s,
        .done (c.send 1 (.p n) (c.modified n (dspMod w)).toNat) .seq)

def dspVldbI (tile : Nat) : DspBody := fun w c s =>
  let n := fld w 20 17
  let a := wordAddr (c.pr n)
  if !c.inWindow a 4 then (s, .fault faultWindow)
  else
    let x := leNat ((sramOf tile s).readBytes a 4)
    (s, .done ((c.send 2 (.v (fld w 25 21)) (x * (1 + 2 ^ 32 + 2 ^ 64 + 2 ^ 96))).send 1 (.p n) (c.modified n (dspMod w)).toNat) .seq)

/-! ## Pointers and scalars -/

/-- The register that TARGET names, and its value. -/
def targetOf (w : BitVec 32) (c : DspCore) : DspDest × BitVec 32 :=
  let n := fld w 25 22
  if fld w 21 20 = 0 then (.p n, c.pr n) else if fld w 21 20 = 1 then (.b n, c.b.getD n 0) else (.l n, c.l.getD n 0)

def dspPsetI : DspBody := fun w c s => (s, .done (c.send 1 (targetOf w c).1 (fld w 15 0)) .seq)
def dspPsethI : DspBody := fun w c s =>
  (s, .done (c.send 1 (targetOf w c).1 (fld w 15 0 * 65536 + (targetOf w c).2.toNat % 65536)) .seq)
def dspPaddI : DspBody := fun w c s =>
  (s, .done (c.send 1 (targetOf w c).1 ((targetOf w c).2 + BitVec.ofInt 32 (ofTwos 16 (fld w 15 0))).toNat) .seq)

/-! ## VALU -/

/-- One lane of VALU: the result, and whether it saturated. MIN, MAX and the saturating forms are signed. -/
def valuLane (fn sh bits : Nat) (x y : Nat) : Int × Bool :=
  let a := ofTwos bits x
  let b := ofTwos bits y
  if fn = 0 then (a + b, false)
  else if fn = 1 then (a - b, false)
  else if fn = 2 then satBits bits (a + b)
  else if fn = 3 then satBits bits (a - b)
  else if fn = 4 then (min a b, false)
  else if fn = 5 then (max a b, false)
  else if fn = 6 then ((x &&& y : Nat), false)
  else if fn = 7 then ((x ||| y : Nat), false)
  else if fn = 8 then ((x ^^^ y : Nat), false)
  else if fn = 9 then ((x * 2 ^ sh : Nat), false)
  else if fn = 10 then (a / (2 ^ sh : Nat), false)
  else (x, false)

def dspValuI : DspBody := fun w c s =>
  let w16 := bitOf w 6
  let n := laneBits w16
  let x := c.vr (fld w 20 16)
  let y := c.vr (fld w 15 11)
  let rs := (List.range (laneCount w16)).map (fun i => valuLane (fld w 10 7) (fld w 5 0) n (laneU x n i) (laneU y n i))
  let c := c.send 1 (.v (fld w 25 21)) (fromLanes n (rs.map (·.1)))
  (s, .done (if rs.any (·.2) then c.send 1 .sat 1 else c) .seq)

/-! ## Accumulators (R296-R298, R300) -/

def dspMac (mode : Nat) : DspBody := fun w c s =>
  let a := fld w 25 24
  let r := macLanes mode (fld w 22 21) (bitOf w 23) (c.accNow.getD a 0) (c.vr (fld w 20 16)) (c.vr (fld w 15 11))
  (s, .done ((c.setAcc a r.1).addFlags a r.2) .seq)

/-- FTAP: the move, the multiply and the two updates of R300. -/
def dspFtapI (tile : Nat) : DspBody := fun w c s =>
  let a := fld w 25 24
  let pd := fld w 20 17
  let pc := fld w 16 13
  let at_ := vecAddr (c.pr pd)
  let ac := vecAddr (c.pr pc)
  let dst_ := vecAddr (c.modified pd 16)
  if !(c.inWindow at_ 16 && c.inWindow ac 16 && c.inWindow dst_ 16) then (s, .fault faultWindow)
  else
    let t := BitVec.ofNat 128 (leNat ((sramOf tile s).readBytes at_ 16))
    let k := BitVec.ofNat 128 (leNat ((sramOf tile s).readBytes ac 16))
    let r := macLanes 0 (fld w 22 21) (bitOf w 23) (c.accNow.getD a 0) t k
    let c' := ((c.setAcc a r.1).addFlags a r.2).send 1 (.p pd) (c.modified pd (-16)).toNat
    (setSram tile ((sramOf tile s).writeBytes dst_ (bytesOf128 t)) s, .done (c'.send 1 (.p pc) (c.modified pc 16).toNat) .seq)

/-- One lane of ACCRND: rounded, shifted, saturated. -/
def rndLane (sh bits : Nat) (v : Int) : Int × Bool :=
  satBits bits ((v + (if sh = 0 then 0 else (2 ^ (sh - 1) : Nat))) / (2 ^ sh : Nat))

def dspAccrndI : DspBody := fun w c s =>
  let width := fld w 18 17
  let w16 := bitOf w 16
  let bits := if width = 0 then 32 else if width = 1 then 24 else 16
  let x := c.acc.getD (fld w 20 19) 0
  let rs := (List.range (laneCount w16)).map (fun i => rndLane (fld w 15 10) bits (laneS x (accBitsOf w16) i))
  let c := c.send 2 (.v (fld w 25 21)) (fromLanes (laneBits w16) (rs.map (·.1)))
  (s, .done (if rs.any (·.2) then c.send 2 .sat 1 else c) .seq)

def dspAccclrI : DspBody := fun w c s => (s, .done (c.setAcc (fld w 20 19) 0) .seq)

/-- ACCSV: part k of an accumulator. There is no part 3: what its read gives is left open. -/
def dspAccsvI : DspBody := fun w c s =>
  let k := fld w 18 17
  let x := c.acc.getD (fld w 20 19) 0
  let v := fld w 25 21
  if k < 3 then (s, .done (c.send 2 (.v v) (x.toNat >>> (128 * k) % 2 ^ 128)) .seq)
  else ((fresh s).2, .done (c.send 2 (.v v) (Config.free (fresh s).1 % 2 ^ 128)) .seq)

/-- ACCLD: the same part back; part 3 has no bits. -/
def dspAccldI : DspBody := fun w c s =>
  let k := fld w 18 17
  let a := fld w 20 19
  let x := (c.accNow.getD a 0).toNat
  let y := (c.vr (fld w 25 21)).toNat
  let part := x >>> (128 * k) % 2 ^ 128
  let new := if k < 3 then x - part * 2 ^ (128 * k) + y % 2 ^ (if k = 2 then 32 else 128) * 2 ^ (128 * k) else x
  (s, .done (c.setAcc a (BitVec.ofNat 288 new)) .seq)

/-- ACCCPY acts in the class's order (R296). -/
def dspAcccpyI : DspBody := fun w c s => (s, .done (c.setAcc (fld w 25 24) (c.accNow.getD (fld w 20 19) 0)) .seq)

/-! ## Sources and the doorbell (R303, R308) -/

/-- PIPE. -/
def pipeDo (tile core : Nat) (s : State) : State :=
  if dspLive tile s then updDspCore tile core (raiseSource 2) s else s

def execPipe (tile core : Nat) (s : State) : Outcome := onWf (.pipe tile core) (pipeDo tile core s)

/-- A doorbell write: dropped and counted on a full mailbox. -/
def doorbellDo (tile core : Nat) (v : Word64) (s : State) : State :=
  if (groupOf (tile / 8) s).role != 4 then s
  else updDspCore tile core (fun c =>
    if 4 ≤ c.mail.length then { c with mailDrop := satAdd 32 c.mailDrop 1 } else pushMail (BitVec.ofNat 32 v.toNat) c) s

def dspOff (tile core r : Nat) : Nat := tileOff tile (0x100 + core * 0x40 + r)

/-- The tile belongs to a partition that function `who` owns (R501). -/
def ownsTile (who tile : Nat) (s : State) : Bool :=
  let g := groupOf (tile / 8) s
  g.role != 0 && (match partOf? g.partition s with | some v => v.owner == who | none => false)

/-- A doorbell's write passes the page's table; a VF's passes through its window, to tiles of its own partitions, and the
tile-partition table too (R308, R501, R502). -/
def doorbellGated (who tile core : Nat) (f : State → State) (s : State) : State :=
  if who == 0 || decide (64 ≤ who) then gated who (dspOff tile core 0x10) f s
  else if ownsTile who tile s then
    let g := accCheck tgPage (dspOff tile core 0x10 / 4096) who bitWrite s
    if g.1 then
      let p := accCheck tgPartition (groupOf (tile / 8) s).partition who bitWrite g.2
      if p.1 then f p.2 else p.2
    else g.2
  else s

def execTileDspDoorbell (who tile core : Nat) (v : BitVec 64) (s : State) : Outcome :=
  onWf (.tileDspDoorbell who tile core v) (doorbellGated who tile core (doorbellDo tile core v) s)

/-- BLOCK: one raised while it is pending is counted. -/
def raiseBlock (c : DspCore) : DspCore :=
  raiseSource 0 (if c.ipend.getLsbD 0 then { c with blockMiss := satAdd 32 c.blockMiss 1 } else c)

/-- INTERRUPT_ENTRY (R303, R304): the results in flight land, and the lowest source is taken. -/
def interruptDo (tile core : Nat) (s : State) : State :=
  match dspCore? tile core s with
  | none => s
  | some c =>
    if !dspLive tile s || !(c.run == .running || c.run == .waiting) || !c.irqReady then s
    else
      let pend := c.ipend &&& c.imask
      let k := if pend.getLsbD 0 then 0 else if pend.getLsbD 1 then 1 else 2
      let c := slots 8 c
      setDspCore tile core { c with
          ipc := c.pc, istat := c.status, ie := false, run := .running, pc := BitVec.ofNat 14 (4 + 4 * k),
          ipend := c.ipend &&& ~~~ BitVec.ofNat 3 (2 ^ k) } s

def execInterruptEntry (tile core : Nat) (s : State) : Outcome := onWf (.interruptEntry tile core) (interruptDo tile core s)

/-! ## The mix block start -/

/-- MIX_BLOCK_START: every mixer's block k, and BLOCK at every core (R263, R303). -/
def mixStartDo (s : State) : State :=
  match mixDue s with
  | none => s
  | some k =>
    let s := { s with audio := { s.audio with last := some k } }
    if s.body.hold then s
    else
      let s := mixBlock k s
      { s with dsp := { s.dsp with cores := s.dsp.cores.mapVals (fun t c => if dspLive (t / 4) s then raiseBlock c else c) } }

def execMixBlockStart (s : State) : Outcome := onWf .mixBlockStart (mixStartDo s)

end Sys2Proof.Machine
end

