-- ==== Sys2Proof/Machine/Stitch.lean ====
section
/-! DEFINITION. Stitching: what the cells of a stitched output make of their sources' packets, and what a composite frame
carries (R226-R232). -/

namespace Sys2Proof.Machine

def cellAt (o c : Nat) (s : State) : Cell := (outputAt o s).cells.get c {}
def setCell (o c : Nat) (k : Cell) (s : State) : State := updOutput o (fun v => { v with cells := v.cells.set c k }) s

def requestFor (h : Nat) (s : State) : State :=
  match resolve .source h s with
  | .ok i => kfRequest i false s
  | _ => s

/-- The cell becomes BROKEN: its queue is discarded and a keyframe requested (R230). -/
def breakCell (o c : Nat) (s : State) : State :=
  let k := cellAt o c s
  if k.broken then s
  else requestFor (cellSource (outputAt o s) c)
    (setCell o c { k with broken := true, queue := [], brokenAt := nowNs s, greyDue := false, greyDone := false } s)

/-- The reference cell: the lowest-numbered one whose source has delivered parameters (R228). -/
def referenceCell (v : Output) : Option Nat :=
  (List.range v.cellCount).find? (fun c => (v.cells.get c {}).params.isSome)

def referenceParams (v : Output) : Option (List Nat) := (referenceCell v).bind (fun c => (v.cells.get c {}).params)

/-- The constraints of R228 that a picture of cell c breaks, by their codes: H.265 has none for the filters and the quantiser. -/
def brokenCodes (v : Output) (c : Nat) (i : Config.StitchInfo) : List Nat :=
  let hevc := v.codec == 0
  let ref := (referenceCell v).filter (· != c)
  let refCell := ref.map (fun r => v.cells.get r {})
  let rules : List (Nat × Bool) :=
    [(0x10, i.width != v.cellW || i.height != v.cellH || i.windowed),
     (0x11, !i.mainProfile || i.tenBit != v.deep || (match refCell with | some k => k.params != some i.params | none => false)),
     (0x12, !i.units64 || i.segments != 1 || (if hevc then i.tiles || i.wavefront else i.blockCopy)),
     (0x13, (!i.intra && !i.previousOnly) || i.temporalMv || (if hevc then i.reordering else i.skipMode)),
     (0x14, !i.motionInside || (!hevc && i.warped)),
     (0x15, i.qpDelta || (if hevc then i.weighted || i.scaling else i.primaryRef || i.frameEndUpdate || i.segmentation)),
     (0x16, !hevc && i.filtered),
     (0x17, !hevc && (match refCell with | some k => k.qidx != i.qidx | none => false))]
  (rules.filter (·.2)).map (·.1)

/-- A picture breaks R228 (R232). -/
def refusePicture (o c code : Nat) (s : State) : State :=
  let v := outputAt o s
  let h := cellSource v c
  let alt := fld (cellCfg v.active c).w2 127 64
  let s := setOutput o { v with refused := if v.refused.contains c then v.refused else c :: v.refused, refusedCode := max v.refusedCode code,
                                ctrs := v.ctrs.set 4 (satAdd 64 (v.ctrs.getD 4 0) 1) } s
  let s := enginePost 0x07 (128 + v.tile / 8) v.fn 0 (pack128 [(0, 13, o), (16, 6, c), (24, 8, code)]) (BitVec.ofNat 128 h)
    (count (tileCtr v.tile 1) 1 s)
  let k := cellAt o c s
  if alt ≠ 0 ∧ !k.altInUse ∧ !k.altWanted then requestFor alt (setCell o c { k with altWanted := true, queue := [] } s)
  else breakCell o c s

/-- A cell whose picture is intra begins anew with it. -/
def renewed (k : Cell) (pic : StPic) : Cell := { k with broken := false, greyDue := false, queue := [pic] }

/-- A complete picture at a cell: checked, then queued, or discarded while the cell waits for an intra picture. One that breaks several
constraints is refused by the highest (log entry 150). -/
def cellPicture (o c : Nat) (ps : List MediaPkt) (s : State) : State :=
  let v := outputAt o s
  let us := unitsOf (v.codec + 1) ps
  let info := Config.stitchCheck v.codec us
  let k := cellAt o c s
  let s := setCell o c { k with params := if info.delivers then some info.params else k.params, qidx := info.qidx } s
  let k := cellAt o c s
  let pic : StPic := ⟨info.intra, us⟩
  match (brokenCodes (outputAt o s) c info).getLast? with
  | some code => refusePicture o c code s
  | none =>
    if k.altWanted then
      (if info.intra then setCell o c { renewed k pic with altWanted := false, altInUse := true } s else s)
    else if k.broken then (if info.intra then setCell o c (renewed k pic) s else s)
    else if 2 ≤ k.queue.length then breakCell o c s
    else setCell o c { k with queue := k.queue ++ [pic] } s

/-- A packet of the source that feeds a cell (R230): a picture runs from a FIRST packet to a LAST one with no gap. -/
def cellPacket (o c : Nat) (p : MediaPkt) (s : State) : State :=
  let k := cellAt o c s
  let begins := match k.parts with
    | [] => true
    | q :: _ => rtpTs q.bytes != rtpTs p.bytes
  -- a picture that a new one overtakes is incomplete
  let s := if begins && !k.parts.isEmpty then breakCell o c s else s
  let k := cellAt o c s
  let whole := if begins then p.layer.first
    else k.whole && (match k.parts with | q :: _ => p.ext == q.ext + 1 | [] => false)
  let parts := p :: (if begins then [] else k.parts)
  if p.layer.last then
    let s := setCell o c { k with parts := [], whole := true } s
    if whole then cellPicture o c parts.reverse s else breakCell o c s
  else setCell o c { k with parts := parts, whole := whole } s

/-- The cells of stitched outputs that a source feeds: output and cell. -/
def cellsOf (h : Nat) (s : State) : List (Nat × Nat) :=
  (outputList s).flatMap (fun x =>
    if x.2.stitched then
      ((List.range x.2.cellCount).filter (fun c => (cellCfg x.2.active c).typ != 0 && cellSource x.2 c == h)).map (fun c => (x.1, c))
    else [])

/-- STITCH_CHECK: a packet of source i goes to the cells that show it. -/
def packetToCells (i : Nat) (p : MediaPkt) (s : State) : State :=
  (cellsOf (handleFor .source i s) s).foldl (fun s x => cellPacket x.1 x.2 p s) s

/-! ## Composite frames (R230, R231) -/

def holdsIntra (k : Cell) : Bool := k.queue.any (·.intra)

/-- Cells that show a source. -/
def liveCells (v : Output) : List Nat := (List.range v.cellCount).filter (fun c => (cellCfg v.active c).typ != 0)

/-- What a cell carries at a boundary, and the cell after it. While a keyframe window is open an intra picture is held for the
switch point. -/
def cellContent (window : Bool) (k : Cell) : CellContent × Cell :=
  match k.queue with
  | q :: rest =>
    if window && q.intra then (.skip, k) else (.pic q, { k with queue := rest })
  | [] => if k.greyDue then (.grey, { k with greyDue := false, greyDone := true }) else (.skip, k)

/-- What a cell carries at a switch point: its intra picture, else an intra grey tile. -/
def switchContent (k : Cell) : CellContent × Cell :=
  match k.queue.dropWhile (fun q => !q.intra) with
  | q :: rest => (.pic q, { k with queue := rest })
  | [] => (.grey, { k with queue := [] })

/-- Fill a frame cell by cell. -/
def fillCells (o : Nat) (f : Cell → CellContent × Cell) : List Nat → State → List CellContent × State
  | [], s => ([], s)
  | c :: cs, s =>
    if (cellCfg (outputAt o s).active c).typ = 0 then
      let r := fillCells o f cs s
      (.background :: r.1, r.2)
    else
      let x := f (cellAt o c s)
      let r := fillCells o f cs (setCell o c x.2 s)
      (x.1 :: r.1, r.2)

/-- A boundary of a stitched output, the frame before it having been emitted. -/
def stitchedBoundary (o n : Nat) (s : State) : State :=
  let s := updOutput o applyPending s
  let v := outputAt o s
  let commit := !v.owedCommits.isEmpty
  let switch := v.window.isSome && (liveCells v).all (fun c => holdsIntra (v.cells.get c {}))
  let r := fillCells o (if switch then switchContent else cellContent v.window.isSome) (List.range v.cellCount) s
  completeCommits o n (updOutput o (fun v =>
    { v with next := n + 1, emit := some (n, r.1, switch, commit), window := if switch then none else v.window }) r.2)

/-- CELL_GREY: no intra picture within 3 × KF_HOLD_MS (R230). -/
def cellGreyDo (o c : Nat) (s : State) : State :=
  let v := outputAt o s
  let k := cellAt o c s
  if (identOf .output o s).used && v.stitched && k.broken && !k.greyDone
      && decide (k.brokenAt + 3 * (roomAt v.room s).kfHoldMs * 1000000 ≤ nowNs s) then
    setCell o c { k with greyDue := true } s
  else s

def execCellGrey (output cell : Nat) (s : State) : Outcome := onWf (.cellGrey output cell) (cellGreyDo output cell s)

end Sys2Proof.Machine
end

