-- ==== Sys2Proof/Machine/Jitter.lean ====
section
/-! DEFINITION. What becomes of an authenticated packet: acceptance, the history ring, the jitter buffer and its releases, and
replication (R99, R100, R103-R107, R111-R114, R126). -/

namespace Sys2Proof.Machine

/-! ## The jitter buffer (R111-R114) -/

/-- The signed difference of two RTP timestamps. -/
def tsDiff (a b : Nat) : Int := ofTwos 32 (a + 2 ^ 32 - b % 2 ^ 32)

/-- expected(ts) of R112. -/
def expectedCmp (anchor : Nat × Nat) (ts clock : Nat) : Nat :=
  let d := tsDiff ts anchor.2 * 1000000000 / (clock : Int)
  ((anchor.1 + d) % ((2 ^ 32 * 1000000000 : Nat) : Int)).toNat

/-- deadline(ts) with the target in force. -/
def deadlineCmp (v : Source) (j : Jitter) (ts : Nat) : Nat :=
  match j.anchor with
  | none => 0
  | some a => cmpAdd (expectedCmp a ts v.clock) (j.targetUs * 1000)

/-- The target in force, recomputed at each release (R113). -/
def jitTarget (v : Source) : Nat :=
  let target := fld v.wJit 19 0
  if bitOf v.wJit 40 then min (max (3 * (v.jitter16 * 1000000 / (16 * v.clock))) target) (fld v.wJit 39 20) else target

/-- The anchor after a packet, and whether it moved for lateness (R112). -/
def moveAnchor (v : Source) (j : Jitter) (p : MediaPkt) : Option (Nat × Nat) × Bool :=
  let ts := rtpTs p.bytes
  match j.anchor with
  | none => (some (p.arrival, ts), false)
  | some a =>
    let d := cmpDiff p.arrival (expectedCmp a ts v.clock)
    if d < 0 then (some (p.arrival, ts), false)
    else if (fld v.wJit 39 20 * 1000 : Nat) < d then (some (p.arrival, ts), true)
    else (some a, false)

/-- A packet joins its unit: that of its timestamp for video, one of its own for audio; units stand in sequence. -/
def joinUnits (audio : Bool) (deadline : Nat) (p : MediaPkt) : List AccessUnit → List AccessUnit
  | [] => [{ ts := rtpTs p.bytes, pkts := [p], deadline := deadline }]
  | u :: us =>
    let first : Nat := match u.pkts with | q :: _ => q.ext | [] => 0
    if (audio && first == p.ext) || (!audio && u.ts == rtpTs p.bytes) then
      (if u.pkts.any (fun q => q.ext == p.ext) then u else { u with pkts := byExt (p :: u.pkts) }) :: us
    else if p.ext < first then { ts := rtpTs p.bytes, pkts := [p], deadline := deadline } :: u :: us
    else u :: joinUnits audio deadline p us

def firstExt (u : AccessUnit) : Nat := match u.pkts with | p :: _ => p.ext | [] => 0
def lastExt (u : AccessUnit) : Nat := match u.pkts.getLast? with | some p => p.ext | none => 0

/-- Packets missing between the last unit released and the next one held. -/
def missing (j : Jitter) (u : AccessUnit) : Nat := match j.nextExt with | none => 0 | some e => firstExt u - e

/-- The timestamp of the first missing audio packet: it stands evenly between its neighbours. -/
def missingTs (j : Jitter) (u : AccessUnit) : Nat :=
  let from_ := j.relTs.getD u.ts
  let step := tsDiff u.ts from_ / ((missing j u + 1 : Nat) : Int)
  (((from_ : Int) + step) % ((2 ^ 32 : Nat) : Int)).toNat

/-- Highest packet that the units hold (R111). -/
def heldHighest (us : List AccessUnit) : Option Nat := (us.flatMap (fun u => u.pkts.map (·.ext))).max?

def setJit (i : Nat) (j : Jitter) (s : State) : State := updSource i (fun v => { v with jit := some j }) s

/-- A released unit goes to the decoders of its source. -/
def deliverUnit (i : Nat) (u : AccessUnit) (s : State) : State :=
  if (sourceAt i s).isAudio then
    (match u.pkts with | p :: _ => unitToInputs i { pkt := some p } s | [] => unitToInputs i { pkt := none } s)
  else unitToDecs i u s

/-- The packets of a unit as the buffer reads them: one whose entry reads as poison is absent (R378). -/
def readPackets (i : Nat) : List MediaPkt → State → List MediaPkt × State
  | [], s => ([], s)
  | p :: ps, s =>
    let r := readHeld 5 i (p.ext % 256) s
    let q := readPackets i ps r.2
    (if r.1 then q.1 else p :: q.1, q.2)

/-- Release the unit at the head. -/
def releaseHead (i : Nat) (j : Jitter) (u : AccessUnit) (us : List AccessUnit) (s : State) : State :=
  let r := readPackets i u.pkts s
  let s := r.2
  let v := { u with pkts := r.1 }
  let whole := (sourceAt i s).isAudio || (unitComplete u && v.pkts.length == u.pkts.length)
  let j' := { j with units := us, highest := heldHighest us, nextExt := some (lastExt u + 1), relTs := some u.ts,
                     tailOpen := !(u.pkts.getLastD { ext := 0 }).layer.last, targetUs := jitTarget (sourceAt i s) }
  deliverUnit i { v with incomplete := !whole } (setJit i j' s)

/-- Release an audio unit empty (R114, R267). -/
def releaseEmpty (i : Nat) (j : Jitter) (u : AccessUnit) (s : State) : State :=
  let next : Option (List Byte) := if missing j u = 1 then u.pkts.head?.map (fun p => rtpPayload p.bytes) else none
  let j' := { j with nextExt := j.nextExt.map (· + 1), relTs := some (missingTs j u), targetUs := jitTarget (sourceAt i s) }
  unitToInputs i { pkt := none, next := next } (setJit i j' s)

/-- Every unit before the head has been released (R114): nothing is missing before it, or what is missing may be the end of a unit
released without it. -/
def headNext (j : Jitter) (u : AccessUnit) : Bool := missing j u == 0 || j.tailOpen

/-- Release what may be released: complete units whose earlier units are all released, and at a deadline those whose time has come
with every unit before them. The number bounds the releases. -/
def releasePass (deadline : Bool) (i : Nat) : Nat → State → State
  | 0, s => s
  | n + 1, s =>
    let v := sourceAt i s
    match v.jit with
    | none => s
    | some j =>
      match j.units with
      | [] => s
      | u :: us =>
        let due := fun (d : Nat) => deadline && cmpReached (cmpNow s) d
        if v.isAudio then
          if missing j u = 0 then releasePass deadline i n (releaseHead i j u us s)
          else if due (deadlineCmp v j (missingTs j u)) || due u.deadline then releasePass deadline i n (releaseEmpty i j u s)
          else s
        else if (unitComplete u && headNext j u) || j.units.any (fun x => due x.deadline) then
          releasePass deadline i n (releaseHead i j u us s)
        else s

def releaseAll (deadline : Bool) (i : Nat) (s : State) : State := releasePass deadline i 1024 s

/-- The packet's unit has been released: its status is LATE_AFTER_TIMEOUT (R114). -/
def isLate (v : Source) (j : Jitter) (p : MediaPkt) : Bool :=
  match j.nextExt with
  | none => false
  | some e => decide (p.ext < e) || (!v.isAudio && j.relTs == some (rtpTs p.bytes))

/-- An authenticated packet enters the buffer. -/
def jitterEnter (i : Nat) (p : MediaPkt) (s : State) : State :=
  let v := sourceAt i s
  match v.jit with
  | none => s
  | some j =>
    if decide (p.ext + 256 ≤ j.highest.getD 0) then srcCount i 6 1 s
    else
      let a := moveAnchor v j p
      let j := { j with anchor := a.1 }
      let s := if a.2 then count (ingCtr v.wing 11) 1 s else s
      if isLate v j p then
        let s := srcCount i 5 1 (setJit i j s)
        if v.isAudio then lateToInputs i s else lateToDecs i { p with late := true } s
      else
        let us := joinUnits v.isAudio (deadlineCmp v j (rtpTs p.bytes)) p j.units
        releaseAll false i (writeHeld 5 i (p.ext % 256) (setJit i { j with units := us, highest := heldHighest us } s))

/-- JITTER_DEADLINE: a unit's deadline expires (R114). -/
def jitterDeadlineDo (i : Nat) (s : State) : State :=
  if (identOf .source i s).used && !s.body.hold then releaseAll true i s else s

def execJitterDeadline (source : Nat) (s : State) : Outcome := onWf (.jitterDeadline source) (jitterDeadlineDo source s)

/-! ## Acceptance (R99, R100, R103-R107) -/

/-- RFC 3550 jitter after a packet, from its arrival and timestamp and those of the packet before it. -/
def nextJitter (v : Source) (arrival ts : Nat) : Nat :=
  match v.lastTs with
  | none => v.jitter16
  | some t =>
    let d := cmpDiff arrival v.lastArrival * (v.clock : Int) / 1000000000 - tsDiff ts t
    v.jitter16 + d.natAbs - (v.jitter16 + 8) / 16

/-- The audio level byte of a packet, when the source names the extension. -/
def levelOf (v : Source) (pkt : List Byte) : Nat :=
  if v.levelId = 0 then v.audioLevel
  else match extData v.levelId pkt with
    | some d => byteAt d 0
    | none => v.audioLevel

/-- A released packet of source i, with the SSRC and payload type of the media stream: the checks of R100, the source's fields,
the ring, the jitter buffer, the cells and replication by `copy`. `layer` gives the packet's layer identity, and the source with what
it keeps of that. -/
def acceptWith (layer : Source → MediaPkt → Layer × Source) (copy : Nat → MediaPkt → State → State)
    (i : Nat) (rtx ptOk : Bool) (mac : Nat) (p : MediaPkt) (s : State) : State :=
  let v := sourceAt i s
  if !ptOk then srcCount i 3 1 s
  else if (historyFind v p.ext).isSome then srcCount i 4 1 s
  else
    let l := layer v p
    let p := { p with layer := l.1 }
    let ts := rtpTs p.bytes
    let s := setSource i { l.2 with
        mac := mac, ext := some (max p.ext (v.ext.getD 0)), lastS := l.1.s, lastT := l.1.t, lastQ := l.1.q,
        jitter16 := if rtx then v.jitter16 else nextJitter v p.arrival ts, lastTs := some ts, lastArrival := p.arrival,
        audioLevel := levelOf v p.bytes } s
    let s := srcCount i 0 1 (srcCount i 1 p.frameLen s)
    let s := historyWrite i p s
    let s := jitterEnter i p s
    copy i p (packetToCells i p s)

def acceptMedia (i : Nat) (rtx ptOk : Bool) (mac : Nat) (p : MediaPkt) (s : State) : State :=
  acceptWith (fun v p => layerOf v p.bytes) replicate i rtx ptOk mac p s

/-- Extended sequence number of an RTX packet's original, by RFC 3711's estimate from EXT_HIGHEST_SEQ; a rollover count of −1 is
taken as 0 (R107). -/
def estimateExt (highest : Option Nat) (seq : Nat) : Nat :=
  match highest with
  | none => seq
  | some h =>
    let roc := h / 65536
    let sl := h % 65536
    if sl < 32768 then (if sl + 32768 < seq then (if roc = 0 then seq else (roc - 1) * 65536 + seq) else roc * 65536 + seq)
    else if seq < sl - 32768 then (roc + 1) % 65536 * 65536 + seq
    else roc * 65536 + seq

/-- A packet that the module itself makes for a local source: handed to the forward plane now with its layer identity and flags
set, its length under R87's measure that of the RTP packet alone (R255). -/
def acceptLocal (copy : Nat → MediaPkt → State → State) (i ext : Nat) (layer : Layer) (bytes : List Byte) (s : State) : State :=
  acceptWith (fun v p => (p.layer, v)) copy i false true 0
    { ext := ext, arrival := cmpNow s, layer := layer, bytes := bytes, frameLen := bytes.length } s

end Sys2Proof.Machine
end

