-- ==== Sys2Proof/Machine/Emit.lean ====
section
/-! DEFINITION. Local sources' packets: coded bands, composite frames and group frames, with the frame boundaries of outputs
(R210, R211, R220, R229-R233, R245-R255, R260, R277-R279). -/

namespace Sys2Proof.Machine

/-! ## Packets of local sources (R255) -/

/-- An RTP packet of a local source, with an extension in the two-byte form of RFC 8285 when `ext` names one. SSRC 0: legs write their own. -/
def localRtp (pt seq ts : Nat) (marker : Bool) (ext : Option (Nat × List Byte)) (payload : List Byte) : List Byte :=
  let e : List Byte := match ext with
    | none => []
    | some (id, d) =>
      let body := BitVec.ofNat 8 id :: BitVec.ofNat 8 d.length :: d
      let body := body ++ List.replicate ((4 - body.length % 4) % 4) 0
      [0x10, 0x00] ++ beBytes 2 (body.length / 4) ++ body
  [if ext.isSome then 0x90 else 0x80, BitVec.ofNat 8 (b2n marker * 128 + pt)] ++ beBytes 2 (seq % 65536) ++ beBytes 4 ts ++ [0, 0, 0, 0]
    ++ e ++ payload

/-! ## Coded bands (R245, R246, R249-R251, R255, R260) -/

/-- Layer and band of coded band c, in decoding order: every band of layer 0 first (R246). -/
def placeIn : List Nat → Nat → Nat → Nat × Nat
  | [], l, c => (l, c)
  | n :: r, l, c => if c < n then (l, c) else placeIn r (l + 1) (c - n)

def layerBands (v : EncCtx) (o : Output) : List Nat := (List.range v.spatial).map (encBands v o)

/-- The last output band that feeds band b of layer l (R245). -/
def lastFeed (v : EncCtx) (o : Output) (l b : Nat) : Nat := min (2 ^ v.shift l * (b + 1) - 1) (bandsOf o.height - 1)

/-- Samples over Rve in ns (R246). -/
def encNs (v : EncCtx) (samples : Nat) (s : State) : Nat := samples * 1000 / max 1 (factorOf v.part 1 s)

/-- Luma samples whose time is Tb (R246). -/
def tbSamples (v : EncCtx) (o : Output) : Nat :=
  if v.downscale ≠ 0 then encW v o 0 * 64
  else if v.spatial = 1 then o.width * 64 else if v.spatial = 2 then o.width * 64 * 5 / 4 else o.width * 64 * 21 / 16

/-- bound(c) of R246, from the bound of the coded band before it and the instant of the last band that feeds it. -/
def bandBound (v : EncCtx) (o : Output) (l b before fedNs : Nat) (s : State) : Nat :=
  max (fedNs + 2 * encNs v (tbSamples v o) s) (before + encNs v (encW v o l * min 64 (encH v o l - 64 * b)) s)

/-- The payload's FU header, where it has one, says that a unit starts: FIRST of R104. -/
def fuStart (codec : Nat) (p : List Byte) : Bool :=
  (codec == 0 && byteAt p 0 % 32 == 28 && decide (128 ≤ byteAt p 1)) || (codec == 1 && byteAt p 0 / 2 % 64 == 49 && decide (128 ≤ byteAt p 2))

/-- Layer identity and flags of packet k of n of a coded band (R104, R255). -/
def bandLayer (v : EncCtx) (w : EncWork) (l b bands k n : Nat) (payload : List Byte) : Layer :=
  let frameEnd := b + 1 == bands && k + 1 == n
  { s := l, t := w.t, first := (b == 0 && k == 0) || fuStart v.codec payload, last := frameEnd, frameEnd := frameEnd, switch := w.key,
    discardable := topT v w.t }

/-! ### The dependency descriptor (R242) -/

/-- Numbers written in a width each, and the bytes that they fill, the last padded with zeros. -/
def writeBits : List (Nat × Nat) → List Bool
  | [] => []
  | (n, v) :: r => (List.range n).map (fun i => v.testBit (n - 1 - i)) ++ writeBits r
def bitBytes : Nat → List Bool → List Byte
  | 0, _ => []
  | _, [] => []
  | n + 1, bs => BitVec.ofNat 8 (readBits 8 (bs.take 8 ++ List.replicate (8 - bs.length) false)) :: bitBytes n (bs.drop 8)

/-- The templates of a context, layer by layer: that of a frame with no dependencies, then one for each T with its frame difference, as
each layer predicts only from earlier frames of the same layer and R241 fixes which. -/
def ddTemplates (v : EncCtx) : List (Nat × Nat × Option Nat) :=
  (List.range v.spatial).flatMap (fun l =>
    (l, 0, none) :: (List.range v.temporal).map (fun t => (l, t, some (2 ^ (v.temporal - 1 - t) * v.spatial))))

/-- How a template stands to the decode target of a layer and T: not present 0, discardable 1, switch 2. -/
def ddIndication (l t dl dt : Nat) : Nat := if l ≠ dl ∨ dt < t then 0 else if t = dt ∧ t ≠ 0 then 1 else 2

/-- The template structure: a decode target for each layer and T, no chains, no resolutions (log entry 148). -/
def ddStructure (v : EncCtx) : List (Nat × Nat) :=
  let ts := ddTemplates v
  let targets := (List.range v.spatial).flatMap (fun l => (List.range v.temporal).map (fun t => (l, t)))
  [(6, 0), (5, targets.length - 1)]
    ++ ts.zipIdx.map (fun x => (2, match ts[x.2 + 1]? with | none => 3 | some y => if y.1 ≠ x.1.1 then 2 else if y.2.1 ≠ x.1.2.1 then 1 else 0))
    ++ ts.flatMap (fun x => targets.map (fun d => (2, ddIndication x.1 x.2.1 d.1 d.2)))
    ++ ts.flatMap (fun x => match x.2.2 with | some n => [(1, 1), (4, n - 1), (1, 0)] | none => [(1, 0)])
    ++ [((targets.length + 1).log2, 0), (1, 0)]

/-- The descriptor of a packet: start and end of its frame, its template, its frame number; the structure on the first packet of a
keyframe. -/
def descriptor (v : EncCtx) (w : EncWork) (l : Nat) (first last : Bool) : List Byte :=
  let template := l * (v.temporal + 1) + (if w.key then 0 else w.t + 1)
  let head := BitVec.ofNat 8 (b2n first * 128 + b2n last * 64 + template % 64) :: beBytes 2 ((w.frameNo + l) % 65536)
  if w.key && first && l == 0 then
    let bits := writeBits ([(1, 1), (4, 0)] ++ ddStructure v)
    head ++ bitBytes bits.length bits
  else head

/-! ### Packets -/

/-- Hand one packet of a coded band to the forward plane. -/
def bandPacket (c : Nat) (w : EncWork) (l b bands k n : Nat) (payload : List Byte) (s : State) : State :=
  let v := encAt c s
  let lay := bandLayer v w l b bands k n payload
  let marker := lay.last && l + 1 == v.spatial
  let dd := if v.codec = 2 then some (v.ddId, descriptor v w l lay.first lay.last) else none
  let pkt := localRtp v.pt v.rtpSeq (frameTs v.ts0 w.frame (outputAt v.output s)) marker dd payload
  acceptLocal replicate (handleIdx v.source) v.rtpSeq lay pkt (updEnc c (fun v => { v with rtpSeq := (v.rtpSeq + 1) % 2 ^ 32 }) s)

/-- The payloads of a band's slice or tile group. In a stitch-ready context the one unit of the picture goes on from band to band
(R254). -/
def bodyPayloads (v : EncCtx) (w : EncWork) (b bands : Nat) (unit : List Byte) : List (List Byte) :=
  let n := v.maxPayload
  if !v.stitch || bands == 1 then payloadsOf v.codec n false unit
  else if v.codec = 1 then
    let type := if w.key then 19 else 1
    (marked (cutBytes (n - 3) (unit.length + 1) (if b = 0 then unit.drop 2 else unit))).map (fun x =>
      [98, BitVec.ofNat 8 (w.t + 1), BitVec.ofNat 8 (b2n (x.2.1 && b == 0) * 128 + b2n (x.2.2 && b + 1 == bands) * 64 + type)] ++ x.1)
  else
    (marked (cutBytes (n - 1) (unit.length + 1) unit)).map (fun x =>
      BitVec.ofNat 8 (b2n (!x.2.1 || b != 0) * 128 + b2n (!x.2.2 || b + 1 != bands) * 64 + 16) :: x.1)

/-- The packets of a coded band of so many bits, each band in packets of its own: the units before the first band, the prefix, and the
slice or tile group with the bytes that the encoder makes of the band's samples. -/
def bandPackets (c : Nat) (w : EncWork) (l b bands bits seed : Nat) (s : State) : State :=
  let v := encAt c s
  let o := outputAt v.output s
  let head := bandHead v w l b
  let src := encSource v o w.inputs l b
  let before := (if b = 0 then headUnits v o w.key w.t l w.ref else []) ++ bandPrefix v w
  let body := (List.range (max 1 (ceilDiv bits 8 - head.length - (bandPrefix v w).flatten.length))).map (fun k => Config.codedByte seed src k)
  let ps := (before.zipIdx.flatMap (fun u => payloadsOf v.codec v.maxPayload (w.key && l == 0 && u.2 == 0) u.1))
    ++ bodyPayloads v w b bands (head ++ body)
  ps.zipIdx.foldl (fun s p => bandPacket c w l b bands p.2 ps.length p.1 s) s

/-- Debts after a picture, and whether one was clamped (R251). -/
def pictureDebts (v : EncCtx) (w : EncWork) : List Int × Bool :=
  let ds : List (Int × Bool) := w.layers.zipIdx.map (fun (x : EncLayer × Nat) => newDebt (v.debts.getD x.2 0) x.1)
  let es : List Int := ds.map (fun d => d.1)
  ((es ++ [0, 0, 0]).take 3, ds.any (fun d => d.2))

/-- The costs that the picture leaves for the budgets of later ones (R249). -/
def pictureCosts (v : EncCtx) (w : EncWork) : Tab (List Nat) :=
  w.layers.zipIdx.foldl (fun (t : Tab (List Nat)) (x : EncLayer × Nat) => t.set (costKey x.2 w.t w.key) x.1.bands) v.costs

/-- A picture that may be referred to takes the place of the previous one of its T (R241). -/
def keepReference (v : EncCtx) (w : EncWork) : EncCtx :=
  if topT v w.t then v
  else if w.t = 0 then { v with refT0 := w.cur, t1Newer := false }
  else { v with refT1 := w.cur, t1Newer := true }

/-- The last band has left: counters, debts, the record, and what waits (R248-R252, R259, R260). -/
def endEncPicture (c : Nat) (w : EncWork) (s : State) : State :=
  let v := encAt c s
  let o := outputAt v.output s
  let capped := w.layers.any (·.capped)
  let d := pictureDebts v w
  let flags := w.flags + (if d.2 then 8 else 0) + (if w.inputs.any (fun b => b.flags % 8 != 0) then 16 else 0)
  let top := w.layers.getD (v.spatial - 1) { target := 0, cap := 0, allot := 0, p := 0 }
  let s := count (tileCtr v.tile 0) 1 (encCount c 0 s)
  let s := if capped then count (tileCtr v.tile 1) 1 (encCount c 1 s) else s
  let s := updEnc c (fun v => { (keepReference v w) with
      work := none, debts := if v.nextRate.isSome then [0, 0, 0] else d.1, rate := v.nextRate.getD v.rate, nextRate := none,
      costs := pictureCosts v w }) s
  let s := encRecord c { frame := w.frame, status := if capped then stCapped else stOk, reason := b2n capped, flags := flags, t := w.t,
                         capBand := w.capBand, bands := encBands v o (v.spatial - 1), layers := v.spatial,
                         bits := (w.layers.map (·.spent)).sum, qp := top.qpSum / max 1 top.areas } s
  if v.releasing.isSome then finishEncRelease c s else nextEnc c s

/-- The tile reconstructs the band into the layer's buffer (R238), where later pictures read it. -/
def writeRecon (v : EncCtx) (l cur b seed : Nat) (s : State) : State :=
  let buf := bufKey v.pool (v.bufs.getD (3 * l + cur) 0)
  writeBand buf b (fun k x y =>
    let z := Config.reconSample seed k x y
    if v.deep then z % 1024 else if (bufAt buf s).deep then z % 256 * 4 else z % 256) s

/-- VE_BAND_CODED: the next band in decoding order, once every output band that feeds it has arrived. -/
def bandCodedDo (c : Nat) (s : State) : State :=
  let v := encAt c s
  let o := outputAt v.output s
  match v.work with
  | none => s
  | some w =>
    let p := placeIn (layerBands v o) 0 w.coded
    let l := p.1
    let b := p.2
    match w.inputs.find? (fun x => x.band == lastFeed v o l b), w.layers[l]? with
    | some fed, some x =>
      if !(identOf .encCtx c s).used || s.body.hold || w.inputs.length ≤ lastFeed v o l b then s
      else
        let seed := s.free
        let r := codeBand v o w l b seed x s
        let bound := bandBound v o l b w.boundNs fed.at_ s
        let w := { w with
          coded := w.coded + 1, layers := w.layers.set l r.2, boundNs := bound,
          capBand := if w.capBand = 63 ∧ r.2.capped ∧ !x.capped then b else w.capBand }
        let s := updEnc c (fun v => { v with work := some w }) { s with free := s.free + 1 }
        let s := if bound < nowNs s then count (tileCtr v.tile 2) 1 s else s
        let s := writeRecon v l w.cur b seed s
        let s := bandPackets c w l b (encBands v o l) r.1 seed s
        if (layerBands v o).sum ≤ w.coded then endEncPicture c w s else s
    | _, _ => s

def execVeBandCoded (ctx : Nat) (s : State) : Outcome := onWf (.veBandCoded ctx) (bandCodedDo ctx s)

/-! ## Composite frames (R229-R233, R236) -/

/-- The data of a cell in a composite frame: slice or tile data byte for byte, or a precomputed tile. -/
def cellData (v : Output) : CellContent → List Byte
  | .background => Config.stitchTile v.codec 2 v.cellW v.cellH v.deep
  | .skip => Config.stitchTile v.codec 0 v.cellW v.cellH v.deep
  | .grey => Config.stitchTile v.codec 1 v.cellW v.cellH v.deep
  | .pic p => p.units.flatMap (fun u => u.drop (Config.sliceHeadLen v.codec u))

/-- The cell is coded intra. -/
def intraCell : CellContent → Bool
  | .skip => false
  | .pic p => p.intra
  | _ => true

/-- The NAL units of a composite H.265 frame (R229): VPS, SPS and a PPS for each cell where the composite's parameters are new or it is a
switch point; then a slice for each cell, with the cell's PPS, its first CTB, the frame number of which the header holds the lsb, a
reference to the frame before or none, no entry points, and no filtering across slices. -/
def h265Frame (v : Output) (n : Nat) (switch heads : Bool) (cells : List CellContent) : List (List Byte) :=
  let w := v.cols * v.cellW
  let h := v.rows * v.cellH
  let ref := (referenceParams v).getD []
  let sets := if !heads then [] else
    [h265Nal 32 0 (Config.stitchHeader 0 32 ([w, h] ++ ref)), h265Nal 33 0 (Config.stitchHeader 0 33 ([w, h] ++ ref))]
      ++ (List.range v.cellCount).map (fun c =>
        h265Nal 34 0 (Config.stitchHeader 0 34 ([c, v.cols, v.rows, 0] ++ ((v.cells.get c {}).params.getD []))))
  sets ++ cells.zipIdx.map (fun x =>
    let first := x.2 / v.cols * (v.cellH / 64) * (w / 64) + x.2 % v.cols * (v.cellW / 64)
    h265Nal (if switch then 21 else 1) 0
      (Config.stitchHeader 0 0 [x.2, first, n % 2 ^ 32, b2n (!switch), 0, 0, b2n (intraCell x.1)] ++ cellData v x.1))

/-- Tiles in raster order, each but the last after its size less 1. -/
def tileGroup : List (List Byte) → List Byte
  | [] => []
  | [t] => t
  | t :: r => leBytes 4 (t.length - 1) ++ t ++ tileGroup r

/-- The OBUs of a composite AV1 frame: a sequence header where it is new or at a switch point, one frame header, key or inter, with the
tile columns and rows, and one tile group. -/
def av1Frame (v : Output) (n : Nat) (switch heads : Bool) (cells : List CellContent) : List (List Byte) :=
  let ref := (referenceParams v).getD []
  (if heads then [obu 1 0 0 (Config.stitchHeader 1 1 ([v.cols * v.cellW, v.rows * v.cellH] ++ ref))] else [])
    ++ [obu 3 0 0 (Config.stitchHeader 1 3 [b2n (!switch), v.cols, v.rows, v.cellW, v.cellH, n % 2 ^ 32]),
        obu 4 0 0 (tileGroup (cells.map (cellData v)))]

def isGrey : CellContent → Bool
  | .grey => true
  | _ => false
def isSkip : CellContent → Bool
  | .skip => true
  | _ => false

/-- One packet of a composite frame. -/
def stitchPacket (o n : Nat) (switch : Bool) (k last : Nat) (payload : List Byte) (s : State) : State :=
  let v := outputAt o s
  let lay : Layer := { first := k == 0 || fuStart (v.codec + 1) payload, last := k + 1 == last, switch := switch }
  let pkt := localRtp 0 v.rtpSeq (frameTs 0 n v) lay.last none payload
  acceptLocal replicate (handleIdx v.source) v.rtpSeq lay pkt (updOutput o (fun v => { v with rtpSeq := (v.rtpSeq + 1) % 2 ^ 32 }) s)

/-- Reason and status of a composite frame's record. -/
def stitchStatus (v : Output) (skips greys : Nat) : Nat × Nat :=
  if v.refused ≠ [] then (stNotStitch, v.refusedCode)
  else if (liveCells v).any (fun c => (v.cells.get c {}).broken) then (stConcealed, 7)
  else if greys ≠ 0 then (stConcealed, 6) else if skips ≠ 0 then (stConcealed, 5) else (stOk, 0)

/-- Emit the composite frame that waits. -/
def emitFrame (o : Nat) (s : State) : State :=
  let v := outputAt o s
  match v.emit with
  | none => s
  | some (n, cells, switch, commit) =>
    let skips := (cells.filter isSkip).length
    let greys := (cells.filter isGrey).length
    let st := stitchStatus v skips greys
    let alt := (liveCells v).any (fun c => (v.cells.get c {}).altInUse)
    let flags := (if commit then 16 else 0) + (if switch then 32 else 0) + (if alt then 64 else 0)
    let heads := switch || v.headed != some ((referenceParams v).getD [])
    let us := if v.codec = 0 then h265Frame v n switch heads cells else av1Frame v n switch heads cells
    let ps := us.zipIdx.flatMap (fun u => payloadsOf (v.codec + 1) 1400 (switch && u.2 == 0) u.1)
    let s := ps.zipIdx.foldl (fun s p => stitchPacket o n switch p.2 ps.length p.1 s) s
    let s := count (tileCtr v.tile 0) 1 (outCount o 0 1 s)
    let s := tileCount v.tile 2 skips (tileCount v.tile 3 greys (outCount o 5 skips (outCount o 6 greys s)))
    let s := outCount o 1 (b2n (st.1 == stConcealed)) s
    let s := outRecord o { frame := n, status := st.1, reason := st.2, flags := flags, refused := v.refused.length, skips := skips, greys := greys } s
    updOutput o (fun v => { v with emit := none, refused := [], refusedCode := 0, headed := some ((referenceParams v).getD []) }) s

/-- ST_FRAME_EMIT. -/
def frameEmitDo (o : Nat) (s : State) : State :=
  let v := outputAt o s
  if !(identOf .output o s).used || s.body.hold || v.emit.isNone then s
  else
    let s := emitFrame o s
    if v.releasing.isSome then finishOutRelease o s else s

def execStFrameEmit (output : Nat) (s : State) : Outcome := onWf (.stFrameEmit output) (frameEmitDo output s)

/-- STITCH_KF_WINDOW_END: the switch point is emitted at once (R231). It is the output's next frame, whose boundary then finds it emitted
(log entry 31). -/
def windowEndDo (o : Nat) (s : State) : State :=
  let v := outputAt o s
  match v.window with
  | none => s
  | some t =>
    if !(identOf .output o s).used || s.body.hold || v.releasing.isSome || nowNs s < t then s
    else
      let s := settleNext o (emitFrame o s)
      let n := (outputAt o s).next
      let r := fillCells o switchContent (List.range v.cellCount) s
      emitFrame o (updOutput o (fun v => { v with next := n + 1, emit := some (n, r.1, true, false), window := none }) r.2)

def execStitchKfWindowEnd (output : Nat) (s : State) : Outcome := onWf (.stitchKfWindowEnd output) (windowEndDo output s)

/-- FRAME_BOUNDARY (R210, R211, R220, R230). -/
def frameBoundaryDo (o : Nat) (s : State) : State :=
  let s1 := settleNext o s
  let v := outputAt o s1
  if !(identOf .output o s).used || s.body.hold || v.releasing.isSome || !cmpReached (cmpNow s) (boundaryOf v v.next) then s
  else if v.stitched then stitchedBoundary o v.next (emitFrame o s1)
  else composedBoundary o v.next s1

def execFrameBoundary (output : Nat) (s : State) : Outcome := onWf (.frameBoundary output) (frameBoundaryDo output s)

/-! ## Group frames (R277-R279) -/

/-- A coded frame: G.711 and G.722 take 160 bytes, an Opus packet at most 1,275; and what the encoder remembers. -/
def codeAudio (w : Word128) (prof mem : Nat) (xs : List Int) : List Byte × Nat :=
  let r := Config.audioEncode (profCodec w prof) (profRate w prof * 2 + b2n (profFec w prof)) mem xs
  (if profCodec w prof = 1 then (if r.1.isEmpty then [0] else r.1.take 1275) else (r.1 ++ List.replicate 160 0).take 160, r.2)

/-- What a subscription receives of a frame. -/
inductive Share where
  | common
  | variant (input : Nat)
  | nothing
  deriving DecidableEq, Repr

/-- R277 and R278: the variant of the input that it was bound to when the frame began; nothing where the input that it is bound to contributes and
has no such variant; else the common one. -/
def shareOf (g : AudGroup) (x : AudFrame) (h : Nat) : Share :=
  let was := (x.binds.find? (fun b => b.1 == h)).map (·.2)
  let now := (g.binds.find? (fun b => b.1 == h)).map (·.2)
  match now.or was with
  | none => .common
  | some i => if was == some i && x.vars.any (fun v => v.1 == i) then .variant i else if x.heard.contains i then .nothing else .common

/-- A packet that the subscription does not carry: it counts in SKIP (R127). -/
def withhold (j : Nat) (p : MediaPkt) (s : State) : State :=
  let b := (meetFrame (subAt j s) p).1
  setSub j { b.withhold p.ext with highest := some (max p.ext (b.highest.getD 0)) } s

/-- Replication of a group frame: each subscription takes its share. -/
def groupCopies (g : AudGroup) (x : AudFrame) (packets : List (Nat × List Byte)) (i : Nat) (p : MediaPkt) (s : State) : State :=
  let s := addBin i p s
  let subs := sourceSubs i s
  let share := fun j => shareOf g x (handleFor .sub j s)
  let s := replicateTo i p (subs.filter (fun j => share j == .common)) s
  let s := packets.foldl (fun s v => replicateTo i { p with bytes := v.2 } (subs.filter (fun j => share j == .variant v.1)) s) s
  (subs.filter (fun j => share j == .nothing)).foldl (fun s j => withhold j p s) s

/-- GROUP_FRAME_CODED: the oldest complete frame of the group is coded, and a packet of each variant handed on. -/
def groupFrameDo (i : Nat) (s : State) : State :=
  match s.audio.groups.find? i with
  | none => s
  | some g =>
    match g.done with
    | [] => s
    | x :: rest =>
      if s.body.hold then s
      else
        let w := (audRoom g.room s).profiles
        let common := codeAudio w g.profile g.memory x.common
        let vars := x.vars.map (fun v =>
          (v.1, codeAudio w g.profile (((g.mems.find? (fun m => m.1 == v.1)).map (·.2)).getD g.memory) v.2))
        let blocks := (x.first + 2 ^ 32 * 1000 - g.created % (2 ^ 32 * 1000)) % (2 ^ 32 * 1000)
        let ts := (g.ts0 + profClock (profCodec w g.profile) * blocks) % 2 ^ 32
        let packet := fun (payload : List Byte) => localRtp (profPt w g.profile) g.rtpSeq ts false none payload
        let s := setAudGroup i { g with
          done := rest, rtpSeq := (g.rtpSeq + 1) % 2 ^ 32, memory := common.2, mems := vars.map (fun v => (v.1, v.2.2)) } s
        let late := decide (0 < cmpDiff (cmpNow s) (cmpAdd ((x.first + x.blocks + 1) * 1000000) 0))
        let s := if late then tileCount g.tile 2 (1 + vars.length) s else s
        acceptLocal (groupCopies g x (vars.map (fun v => (v.1, packet v.2.1)))) i g.rtpSeq
          { first := true, last := true, switch := true } (packet common.1) s

def execGroupFrameCoded (source : Nat) (s : State) : Outcome := onWf (.groupFrameCoded source) (groupFrameDo source s)

end Sys2Proof.Machine
end

