-- ==== Sys2Proof/Machine/Ptp.lean ====
section
/-! DEFINITION. IEEE 1588 messages: reception to the bound queue, and TIME_PTP_SEND with its one-step insertion (R358-R362, R365). -/

namespace Sys2Proof.Machine

/-! ## Frames -/

/-- VLAN ID of the innermost tag, and the offset of the EtherType: none where the tags break R88. -/
def vlanOf (f : List Byte) : Option (Option Nat × Nat) :=
  let isTag := fun t => t == 0x8100 || t == 0x88A8
  let inner := beAt f 16 2
  if !isTag (beAt f 12 2) then some (none, 12)
  else if inner = 0x88A8 then none
  else if inner ≠ 0x8100 then some (some (beAt f 14 2 % 4096), 16)
  else if isTag (beAt f 20 2) then none
  else some (some (beAt f 18 2 % 4096), 20)

/-- Ones' complement sum over the pseudo-header and the datagram of an IPv4 or IPv6 packet whose header has `hl` bytes. -/
def udpSum (v4 : Bool) (ip : List Byte) (hl len : Nat) : Nat :=
  let addrs := if v4 then slice ip 12 8 else slice ip 8 32
  let bs := addrs ++ beBytes 4 len ++ [0, 0, 0, 17] ++ slice ip hl len
  foldSum (sum16 (bs.length + 1) bs)

/-- Recompute the checksum of a frame's UDP datagram (R361). -/
def fixUdp (f : List Byte) : List Byte :=
  match vlanOf f with
  | none => f
  | some (_, o) =>
    let ip := f.drop (o + 2)
    let v4 := beAt f o 2 == 0x0800
    let hl := if v4 then byteAt ip 0 % 16 * 4 else 40
    let udp := (v4 && byteAt ip 9 == 17) || (beAt f o 2 == 0x86DD && byteAt ip 6 == 17)
    if !udp then f
    else
      let at_ := o + 2 + hl + 6
      let g := f.take at_ ++ [0, 0] ++ f.drop (at_ + 2)
      let c := 65535 - udpSum v4 (g.drop (o + 2)) hl (beAt ip (hl + 4) 2)
      f.take at_ ++ beBytes 2 (if c = 0 then 65535 else c) ++ f.drop (at_ + 2)

/-! ## Timestamps (R358) -/

/-- Time in 2^-16 ns. -/
def timeUnits (t : TimeBase) : Nat := (t.sec * 1000000000 + t.ns) * 65536 + t.sub / 2 ^ 32
def unitsWrap : Nat := 2 ^ 48 * 1000000000 * 65536

/-- The stamp of an instant moved by some ps, to the nearest 2^-16 ns. -/
def stampMoved (t : TimeBase) (ps : Int) : Stamp :=
  let u := (((timeUnits t : Int) + (ps * 65536 + 500) / 1000) % (unitsWrap : Int)).toNat
  ⟨u / 65536 / 1000000000, u / 65536 % 1000000000, u % 65536⟩

def rxStamp (l : Nat) (s : State) : Stamp :=
  stampMoved s.time ((0 : Int) - (Config.rxLatPs l : Int) - ofTwos 16 (s.time.rxTrim.get l 0))
def txStamp (l : Nat) (s : State) : Stamp :=
  stampMoved s.time ((Config.txLatPs l : Int) + ofTwos 16 (s.time.txTrim.get l 0))

/-! ## Reception (R362) -/

/-- Words of 15 bytes each, from bit 0. -/
def words15 : Nat → List Byte → List Nat
  | 0, _ => []
  | n + 1, bs => if bs.isEmpty then [] else leNat (bs.take 15) :: words15 n (bs.drop 15)

/-- A message reaches the time base of Wing w: `hdr` is the offset of the PTP header in the frame. -/
def ptpMessage (lane transport hdr : Nat) (frame : List Byte) (s : State) : State :=
  let s := count (ingCtr (lane / 32) 8) 1 s
  let t := rxStamp lane s
  let drop := count timePtpDropOff 1
  if !s.time.ptpEnable || byteAt frame (hdr + 4) != s.time.ptpDomain then drop s
  else
    let w0 := packNat [(113, 7, lane), (111, 2, transport), (96, 12, frame.length), (46, 48, t.sec), (16, 30, t.ns), (0, 16, t.frac)]
    let r := devicePush s.time.ptpQueue (w0 :: words15 frame.length frame) s
    match r.1 with
    | .stored => r.2
    | _ => drop r.2

/-! ## Sending (R361, R365) -/

/-- A PTP frame's bytes with a field replaced. -/
def patch (f : List Byte) (o : Nat) (bs : List Byte) : List Byte := f.take o ++ bs ++ f.drop (o + bs.length)

/-- Add to correctionField, a signed 64-bit number of 2^-16 ns. -/
def addCorrection (f : List Byte) (off : Nat) (v : Int) : List Byte :=
  patch f (off + 8) (beBytes 8 (toTwos 64 (ofTwos 64 (beAt f (off + 8) 8) + v)))

/-- The one-step insertion: none for a message that takes none. -/
def oneStep (f : List Byte) (off : Nat) (t : Stamp) (refCmp refFrac : Nat) : Option (List Byte) :=
  let typ := byteAt f off % 16
  if typ = 0 then
    if f.length < off + 44 then none
    else some (addCorrection (patch f (off + 34) (beBytes 6 t.sec ++ beBytes 4 t.ns)) off t.frac)
  else if typ = 3 then
    let d := cmpDiff (t.sec % 2 ^ 32 * 1000000000 + t.ns) refCmp
    some (addCorrection f off (d * 65536 + t.frac - refFrac))
  else none

def stampBytes (t : Stamp) (lane : Nat) : List Byte := leBytes 6 t.sec ++ leBytes 4 t.ns ++ leBytes 2 t.frac ++ leBytes 1 lane ++ [0, 0, 0]

/-- A frame leaves on a lane: whole on an Ethernet port, its message as a TIME frame on a Tremund lane. -/
def ptpTransmit (lane off : Nat) (f : List Byte) (s : State) : State :=
  if isTremund lane s then
    if laneUp lane s && portCarries (portOf lane s) 3 s then queueFrame lane { ftype := 3, body := f.drop off } s
    else count (laneCtr (portOf lane s) 7) 1 s
  else
    let f := f ++ List.replicate (60 - f.length) 0
    sendEth lane (f ++ leBytes 4 (crc32 f).toNat) s

def ptpSendBody (r : Req) (s : State) : Answer :=
  let addr := df r.w1 63 0
  let len := df r.w1 75 64
  let lane := df r.w1 82 76
  let one := bitOf r.w1 83
  let off := df r.w1 95 84
  let bad := answer s (refuse stNotStarted 0x01)
  if !r.owner then answer s (refuse stRefused 0)
  else if len < 60 ∨ 2044 < len ∨ len < off + 34 ∨ !((isTremund lane s && decide (len - off ≤ 2032)) || (isEth lane s && isPort lane s)) then bad
  else
    let f := hostBytes addr len s
    let t := txStamp lane s
    match (if one then oneStep f off t (df r.w3 63 0) (df r.w3 79 64) else some f) with
    | none => bad
    | some g =>
      let s := ptpTransmit lane off (if one then fixUdp g else g) s
      viaWing (lane / 32)
        (answer (if !one && df r.w2 63 0 != 0 then hostPut (df r.w2 63 0) (stampBytes t lane) s else s) (okWith 0))

def execTimePtpSend (src : CmdSrc) (s : State) : Outcome := onWf (.timePtpSend src) (command 0xA1 ptpSendBody src s)

end Sys2Proof.Machine
end

