-- ==== Sys2Proof/Machine/Forward.lean ====
section
/-! DEFINITION. The forward plane's ingress: Ethernet frames, released packets and Tremund blocks (R87-R95, R102, R105-R107, R165,
R329, R334-R342, R417, R419). -/

namespace Sys2Proof.Machine

/-! ## Parsing (R88-R90) -/

/-- Where parsed traffic goes (R89, R90). -/
inductive Parsed where
  /-- dropped, in the Wing counter named by its number -/
  | drop (ctr : Nat)
  /-- the firmware exception path, with its class -/
  | firmware (cls : Nat)
  /-- the time base: transport and offset of the PTP header -/
  | time (transport hdr : Nat)
  | rtcp (t : Transport) (body : List Byte)
  | rtp (t : Transport) (body : List Byte)
  deriving DecidableEq, Repr

def dropParse : Parsed := .drop 2
def dropNotMine : Parsed := .drop 3
def dropProto : Parsed := .drop 4

/-- Index of a valid local address of a Wing. -/
def localIndex (w addr : Nat) (s : State) : Option Nat :=
  (List.range 256).find? (fun a => (laddrAt w a s).valid && (laddrAt w a s).addr == addr)

/-- A UDP payload by its first two bytes (R90). -/
def sortUdp (t : Transport) (body : List Byte) : Parsed :=
  let b0 := byteAt body 0
  let b1 := byteAt body 1
  if body.isEmpty then dropProto
  else if b0 ≤ 3 then .firmware 0
  else if 20 ≤ b0 ∧ b0 ≤ 63 then .firmware 1
  else if 128 ≤ b0 ∧ b0 ≤ 191 then (if 192 ≤ b1 ∧ b1 ≤ 223 then .rtcp t body else .rtp t body)
  else dropProto

/-- The UDP stage: `ip` is the IP packet cut to its length, with a header of `hl` bytes at offset `o` of the frame. -/
def parseUdp (v4 group : Bool) (o hl port la : Nat) (vlan : Option Nat) (src : Nat) (ip : List Byte) : Parsed :=
  let len := beAt ip (hl + 4) 2
  let sum := beAt ip (hl + 6) 2
  let fine := if sum = 0 then v4 else udpSum v4 ip hl len == 65535
  let dport := beAt ip (hl + 2) 2
  if ip.length < hl + 8 ∨ hl + len ≠ ip.length ∨ !fine then dropParse
  else if dport = 319 ∨ dport = 320 then .time (if v4 then 1 else 2) (o + hl + 8)
  else if group then dropNotMine
  else sortUdp ⟨port, vlan, la, leAt ip (hl + 2) 2, src, leAt ip hl 2⟩ (ip.drop (hl + 8))

/-- A number in the mapped form, from an IPv4 address's four bytes. -/
def mappedOf (bs : List Byte) : Nat := 0xFFFF * 2 ^ 80 + leNat bs * 2 ^ 96

def parseV4 (group : Bool) (o port w : Nat) (vlan : Option Nat) (ip : List Byte) (s : State) : Parsed :=
  let total := beAt ip 2 2
  if ip.length < 20 ∨ byteAt ip 0 ≠ 0x45 ∨ foldSum (sum16 21 (ip.take 20)) ≠ 65535 ∨ beAt ip 6 2 % 0x4000 ≠ 0 ∨ total < 20 ∨ ip.length < total then
    dropParse
  else match localIndex w (mappedOf (slice ip 16 4)) s with
    | none => dropNotMine
    | some la =>
      let proto := byteAt ip 9
      if proto = 1 then .firmware 5
      else if proto ≠ 17 then (if group then dropNotMine else dropProto)
      else parseUdp true group o 20 port la vlan (mappedOf (slice ip 12 4)) (ip.take total)

def parseV6 (group : Bool) (o port w : Nat) (vlan : Option Nat) (ip : List Byte) (s : State) : Parsed :=
  let len := beAt ip 4 2
  let next := byteAt ip 6
  if ip.length < 40 ∨ byteAt ip 0 / 16 ≠ 6 ∨ (next ≠ 17 ∧ next ≠ 58) ∨ ip.length < 40 + len then dropParse
  else match localIndex w (leAt ip 24 16) s with
    | none => dropNotMine
    | some la =>
      if next = 58 then .firmware 6
      else parseUdp false group o 40 port la vlan (leAt ip 8 16) (ip.take (40 + len))

/-- The stages of R88 on a frame, with its FCS, that arrived on a port. -/
def parseFrame (port : Nat) (f : List Byte) (s : State) : Parsed :=
  let group := (f.getD 0 0).getLsbD 0
  if 2048 < f.length then .drop 1
  else if !group && leAt f 0 6 != portMac port s then dropNotMine
  else match vlanOf f with
    | none => dropParse
    | some (vlan, o) =>
      let typ := beAt f o 2
      let ip := (f.drop (o + 2)).take (f.length - o - 6)
      if typ = 0x88F7 then .time 0 (o + 2)
      else if typ = 0x0806 then .firmware 3
      else if typ = 0x88CC then .firmware 4
      else if typ = 0x0800 then parseV4 group (o + 2) port (port / 32) vlan ip s
      else if typ = 0x86DD then parseV6 group (o + 2) port (port / 32) vlan ip s
      else if group then dropNotMine else dropProto

/-! ## Matching (R92, R93) -/

/-- The source that holds the match key of a packet: by its SSRC, or by its RTX_SSRC. -/
def matchSource (t : Transport) (ssrc : Nat) (s : State) : Option Nat :=
  ((sourceList s).find? (fun c => !c.2.isLocal && c.2.kind == 0 && c.2.transport == t && c.2.ssrcs.contains ssrc)).map (·.1)
/-- The source whose sender a sender report names: by its SSRC alone (R90). -/
def matchSender (t : Transport) (ssrc : Nat) (s : State) : Option Nat :=
  ((sourceList s).find? (fun c => !c.2.isLocal && c.2.kind == 0 && c.2.transport == t && c.2.ssrc == ssrc)).map (·.1)
def matchStream (p stream : Nat) (s : State) : Option Nat :=
  ((sourceList s).find? (fun c => !c.2.isLocal && c.2.kind == 1 && c.2.lane == p && c.2.ssrc == stream)).map (·.1)
def matchLeg (t : Transport) (s : State) : Option Nat :=
  ((legList s).find? (fun c => c.2.kind == 0 && c.2.transport == t)).map (·.1)

/-- An RTP packet in the clear of its header: source match, policing, and the cipher (R93, R102). -/
def rtpArrives (t : Transport) (frame body : List Byte) (s : State) : State :=
  let w := t.port / 32
  match (if body.length < 12 then none else matchSource t (leAt body 8 4) s) with
  | none => exceptionPath w t.port 7 frame (cmpNow s) (count (ingCtr w 5) 1 s)
  | some i =>
    let r := police i frame.length (cmpNow s) s
    if !r.1 then r.2
    else enterCipher { id := 0, wing := w, slot := (sourceAt i s).slot, rtcp := false, source := handleFor .source i s, transport := t,
                       mac := leAt frame 6 6, bytes := body, frameLen := frame.length, arrival := cmpNow s } r.2

/-- An RTCP packet: under the slot of the source whose sender it names, else of the leg on its transport (R90). -/
def rtcpArrives (t : Transport) (frame body : List Byte) (s : State) : State :=
  let w := t.port / 32
  let slot := match (matchSource t (leAt body 4 4) s).map (fun i => (sourceAt i s).slot) with
    | some k => some k
    | none => (matchLeg t s).map (fun l => (legAt l s).slot)
  match slot with
  | none => count (ingCtr w 5) 1 s
  | some k =>
    enterCipher { id := 0, wing := w, slot := k, rtcp := true, source := 0, transport := t, mac := leAt frame 6 6, bytes := body,
                  frameLen := frame.length, arrival := cmpNow s, frame := frame } s

/-- ETH_FRAME_RX (R328, R329, R87-R91). -/
def ethFrameDo (lane : Nat) (f : List Byte) (s : State) : State :=
  let p := portOf lane s
  if !isEth p s || !portUp p s || s.body.hold then s
  else if f.length < 64 then count (laneCtr p 2) 1 s
  else if leAt f (f.length - 4) 4 ≠ (crc32 (f.take (f.length - 4))).toNat then count (laneCtr p 1) 1 s
  else if beAt f 12 2 = 0x8808 then count (laneCtr p 3) 1 s
  else
    let w := p / 32
    let s := count (ingCtr w 0) 1 s
    match parseFrame p f s with
    | .drop c => count (ingCtr w c) 1 s
    | .firmware cls => exceptionPath w p cls f (cmpNow s) s
    | .time tr hdr => ptpMessage lane tr hdr f s
    | .rtcp t body => rtcpArrives t f body s
    | .rtp t body => rtpArrives t f body s

def execEthFrameRx (lane : Nat) (frame : List Byte) (s : State) : Outcome := onWf (.ethFrameRx lane frame) (ethFrameDo lane frame s)

/-! ## Released packets (R93, R105-R107) -/

/-- Undo RFC 4588: the original sequence number, payload type and SSRC. -/
def unwrapRtx (v : Source) (p : List Byte) : List Byte :=
  let h := rtpHdrLen p
  let q := p.take h ++ p.drop (h + 2)
  setSsrc (setPt (setSeq q (beAt p h 2)) v.pt) v.ssrc

/-- A released RTP packet, under the handle that it matched. -/
def rtpReleased (o : RxOp) (idx : Nat) (p : List Byte) (s : State) : State :=
  match resolve .source o.source s with
  | .ok i =>
    let v := sourceAt i s
    let rtx := v.rtxValid && leAt p 8 4 == v.rtxSsrc && leAt p 8 4 != v.ssrc
    let ptOk := v.takesPt (rtpPt p)
    if rtx && ptOk then
      if (rtpPayload p).length < 2 then s
      else acceptMedia i true true o.mac
        { ext := estimateExt v.ext (beAt p (rtpHdrLen p) 2), outside := o.hashAt != 0, arrival := o.arrival, bytes := unwrapRtx v p, frameLen := o.frameLen } s
    else acceptMedia i rtx ptOk o.mac { ext := idx % 2 ^ 32, outside := o.hashAt != 0, arrival := o.arrival, bytes := p, frameLen := o.frameLen } s
  | _ => count (ingCtr o.wing 9) 1 s

/-- One packet of a released compound: a sender report of a source on this transport and slot, and feedback to the leg there. -/
def rtcpReleasedOne (o : RxOp) (s : State) (p : List Byte) : State :=
  let s := if rtcpType p = 200 then
      (match matchSender o.transport (leAt p 4 4) s with
       | some i => if (sourceAt i s).slot = o.slot then sourceSr i p s else s
       | none => s)
    else s
  match matchLeg o.transport s with
  | some l => if (legAt l s).slot = o.slot then legRtcp l ((legSubs l s).map (·.1)) p s else s
  | none => s

/-- A released compound: its packets in order; one that holds a type the hardware does not parse sends its frame to firmware
(R90, R91). -/
def rtcpReleased (o : RxOp) (p : List Byte) (s : State) : State :=
  let ps := rtcpSplit p.length p
  let s := ps.foldl (rtcpReleasedOne o) s
  if ps.any (fun q => !rtcpParsed q) then exceptionPath o.wing o.transport.port 2 o.frame o.arrival s else s

/-- RX_CIPHER_RELEASE (R165), not before the operation has its hash unit (R153). In Safe Hold nothing is forwarded (R487). -/
def cipherReleaseDo (op : Nat) (s : State) : State :=
  match s.rxOps.find? (fun o => o.id == op && o.started && decide (o.hashAt ≤ nowPs s)) with
  | none => s
  | some o =>
    let r := endOp o s
    match r.1 with
    | none => r.2
    | some (idx, p) => if s.body.hold then r.2 else if o.rtcp then rtcpReleased o p r.2 else rtpReleased o idx p r.2

def execRxCipherRelease (op : Nat) (s : State) : Outcome := onWf (.rxCipherRelease op) (cipherReleaseDo op s)

/-! ## Tremund frames (R338, R417, R419) -/

/-- A MEDIA frame (R92): matched by lane and stream, policed with LENGTH + 46, and accepted as authenticated. -/
def mediaFrame (p : Nat) (replayed : Bool) (f : TmFrame) (s : State) : State :=
  let looped := s.dom.enable && f.stream / 2 ^ 15 == s.dom.index
  match (if looped then none else matchStream p f.stream s) with
  | none => count (ingCtr (p / 32) 5) 1 s
  | some i =>
    let len := f.body.length + 46
    let r := police i len (cmpNow s) s
    if !r.1 then r.2
    else acceptMedia i false ((sourceAt i s).takesPt (rtpPt f.body)) 0 { ext := f.ext, arrival := cmpNow s, bytes := f.body, frameLen := len, outside := replayed } r.2

/-- The subscription on a Tremund port whose OUT_SSRC holds a stream ID. -/
def subOfStream (p stream : Nat) (s : State) : Option Nat :=
  ((subList s).find? (fun c => (legAt c.2.leg s).kind == 1 && (legAt c.2.leg s).lane == p && c.2.ssrc % 2 ^ 20 == stream)).map (·.1)

/-- Feedback of the three kinds that a FEEDBACK frame holds names its subscription by STREAM, whatever SSRC it bears. -/
def feedbackFrame (p : Nat) (f : TmFrame) (s : State) : State :=
  match subOfStream p f.stream s with
  | none => s
  | some j =>
    let ssrc := fieldBytes 4 (subAt j s).ssrc
    (rtcpSplit f.body.length f.body).foldl (fun s q =>
      let t := rtcpType q
      let k := rtcpFmt q
      if (t = 205 ∧ k = 1) ∨ (t = 206 ∧ k = 1) then legRtcp (subAt j s).leg [j] (patch q 8 ssrc) s
      else if t = 206 ∧ k = 4 then legRtcp (subAt j s).leg [j] (patch q 12 ssrc) s
      else s) s

/-- A frame leaves the parser of lane l. -/
def deliverFrame (l : Nat) (s : State) (f : TmFrame) : State :=
  let p := portOf l s
  let w := l / 32
  if f.ftype = 0 then s
  else if !portCarries p f.ftype s then (if otherDomain p s then count (laneCtr l 4) 1 s else s)
  else
    let s := count (ingCtr w 0) 1 s
    if f.ftype = 1 then mediaFrame p (laneOf l s).rx.replayed f s
    else if f.ftype = 2 then feedbackFrame p f s
    else if f.ftype = 3 then ptpMessage l 3 0 f.body s
    else exceptionPath w p 8 f.body (cmpNow s) s

/-- What the frame parse makes of the words of a stream: the frames, the words of one that a later block ends, and whether a
bad header ended the parse (R337, R338). -/
def parseFrames : Nat → List Word128 → List TmFrame × List Word128 × Bool
  | 0, ws => ([], ws, false)
  | _, [] => ([], [], false)
  | n + 1, h :: ws =>
    let typ := fld h 127 124
    let len := fld h 123 112
    let k := ceilDiv len 16
    if 4 < typ ∨ 2032 < len then ([], [], true)
    else if ws.length < k then ([], h :: ws, false)
    else
      let r := parseFrames n (ws.drop k)
      ({ ftype := typ, stream := fld h 111 92, ext := fld h 91 60, body := (bytesOfWords (ws.take k)).take len } :: r.1, r.2)

/-- The payload of a block released in order goes through the parser; frames act while the lane is UP. -/
def blockWords (l ptr : Nat) (ws : List Word128) (s : State) : State :=
  let v := (laneOf l s).rx
  if v.lost ∧ ptr = 127 then s
  else
    let ws := if v.lost then ws.drop ptr else v.partialWords ++ ws
    let r := parseFrames (ws.length + 1) ws
    let s := updLane l (fun v => { v with rx := { v.rx with partialWords := r.2.1, lost := r.2.2 } }) s
    let s := if r.2.2 then count (laneCtr l 4) 1 s else s
    r.1.foldl (fun s f => if laneUp l s then deliverFrame l s f else s) s

/-! ## Blocks (R334, R335, R341, R342, R345) -/

/-- Sequence number a stands at or after b. -/
def seqFrom (a b : Nat) : Bool := decide ((a + 4096 - b % 4096) % 4096 < 2048)

/-- What a header that checks tells the transmitter: acknowledgements, a replay to serve, the far end's plan, a wake. -/
def headerActs (l : Nat) (h : Word128) (s : State) : State :=
  let s := updLane l (fun v => { v with
      rx := { v.rx with power := fld h 70 69 },
      tx := { v.tx with buffer := v.tx.buffer.filter (fun b => !seqFrom (fld h 95 84) b.seq),
                        wakeDue := v.tx.wakeDue || (v.tx.power != 0 && (bitOf h 68 || bitOf h 83)) } }) s
  let v := laneOf l s
  let again := v.tx.buffer.filter (fun b => seqFrom b.seq (fld h 82 71))
  let s := if bitOf h 83 && v.tx.power == 0 && !again.isEmpty then
      again.foldl (fun s b => sendTm l 1 b.seq b.ptr 0 b.words s) (count (laneCtr l 2) 1 s)
    else s
  (portLanes (portOf l s) s).foldl (fun s k => pump k s) s

/-- The block expected next has failed (R341, R342). -/
def blockFailed (l : Nat) (s : State) : State :=
  let s := count (laneCtr l 1) 1 (updLane l (fun v =>
    { v with rx := { v.rx with discarding := true, nakDue := true, fails := v.rx.fails + 1 } }) s)
  let v := laneOf l s
  if 8 ≤ v.rx.fails then tmRetrain l s
  else if v.tx.power = 1 then sendIdleBlock l 2 1 s else s

/-- A DATA block that checks. -/
def dataBlock (l : Nat) (h : Word128) (ws : List Word128) (s : State) : State :=
  let v := laneOf l s
  let seq := fld h 107 96
  if seq = v.rx.next then
    let again := v.rx.discarding || (match v.rx.replayTo with | none => false | some t => seqFrom t seq)
    let s := updLane l (fun v => { v with
        rx := { v.rx with next := (v.rx.next + 1) % 4096, discarding := false, nakDue := false, fails := 0,
                          replayTo := if again && v.rx.replayTo != some seq then v.rx.replayTo else none,
                          replayed := again || (v.rx.replayed && !v.rx.partialWords.isEmpty) },
        tx := { v.tx with wakeDue := v.tx.wakeDue || v.tx.power != 0 } }) s
    blockWords l (fld h 67 61) ws (count (laneCtr l 0) 1 s)
  else if !seqFrom seq v.rx.next then count (laneCtr l 2) 1 s
  else if v.rx.discarding then
    updLane l (fun v => { v with rx := { v.rx with
      replayTo := match v.rx.replayTo with | some t => if seqFrom seq t then some seq else some t | none => some seq } }) s
  else blockFailed l s

/-- A block whose SYNC is invalid: 4 in a row set LOL (R346). -/
def badSyncBlock (l : Nat) (s : State) : State :=
  let s := updLane l (fun v => { v with rx := { v.rx with badSync := v.rx.badSync + 1 } }) s
  if 4 ≤ (laneOf l s).rx.badSync then loseLock l s else s

/-- TM_BLOCK_RX: a block at a lane that is LOCKED or UP. While a replay is awaited, a failing block counts against the block expected
only when its header names that block. -/
def tmBlockDo (l : Nat) (h : Word128) (ws : List Word128) (crc : BitVec 32) (s : State) : State :=
  let v := laneOf l s
  if !isTremund l s || s.body.hold || !(v.state == 2 || v.state == 3) then s
  else
    let sync := fld h 127 112 == 0x7E5A
    let good := headerOk h && crc == tmCrc h ws && ws.length == 64
    let kind := fld h 111 108
    let s := if sync then updLane l (fun v => { v with rx := { v.rx with badSync := 0 } }) s else badSyncBlock l s
    if !((laneOf l s).state == 2 || (laneOf l s).state == 3) then s
    else if good then
      let s := headerActs l h s
      if kind = 1 then dataBlock l h ws s else s
    else if kind = 2 ∨ kind = 3 ∨ (v.rx.discarding ∧ fld h 107 96 ≠ v.rx.next) then s
    else blockFailed l s

def execTmBlockRx (lane : Nat) (header : BitVec 128) (words : List (BitVec 128)) (crc : BitVec 32) (s : State) : Outcome :=
  onWf (.tmBlockRx lane header words crc) (tmBlockDo lane header words crc s)

end Sys2Proof.Machine
end

