-- ==== Sys2Proof/Machine/LaneCfg.lean ====
section
/-! DEFINITION. The two commands that sources, legs and mixers bar: freeing a room and reconfiguring a lane group (R118, R326). -/

namespace Sys2Proof.Machine

/-- A source, local ones among them, a leg or a room mixer names the room (R118). A decode context names it through its
source. -/
def roomNamed (r : Nat) (s : State) : Bool :=
  (sourceList s).any (fun c => c.2.room == r) || (legList s).any (fun c => c.2.room == r) || mixes r s

/-- LEG_ROOM_FREE (R117, R118). -/
def roomFreeBody (r : Req) (s : State) : Answer :=
  let room := df r.w1 12 0
  let v := roomAt room s
  if !v.held || (!r.owner && v.owner != r.fn) then notOwned5 s
  else if roomNamed room s then answer s (refuse stNotStarted 0x06)
  else answer { s with media := { s.media with rooms := s.media.rooms.del room } } (okWith 0)

def execLegRoomFree (src : CmdSrc) (s : State) : Outcome :=
  onWf (.legRoomFree src) (command 0x41 (strictly ([(12, 0)], [], []) roomFreeBody) src s)

/-! ## LANE_GROUP_CFG (R325, R326, R352) -/

/-- A source or a leg names a lane of the group. -/
def groupNamed (g : Nat) (s : State) : Bool :=
  (sourceList s).any (fun c => !c.2.isLocal && c.2.lane / 8 == g) || (legList s).any (fun c => c.2.lane / 8 == g)

/-- A lane under its group's new personality. What belongs to the lane itself stays: its signal, its address, HOLD_DOWN, a
test, a short. `dark` says that the group was or becomes OFF, so that no signal is sensed yet. -/
def freshLane (v : Lane) (off dark : Bool) (now : Nat) : Lane :=
  { los := dark || v.los, short := v.short, shortAt := v.shortAt, holdDown := v.holdDown, pattern := v.pattern, check := v.check,
    loop := v.loop, retrains := v.retrains, mac := v.mac, stepAt := now,
    state := if off then 0 else if v.short then 5 else if v.loop ≠ 0 then 6 else 4 }

/-- An accepted configuration takes every port of the group DOWN; its lanes train once the PLL has locked (R326, R343). -/
def applyGroup (g : Nat) (w : Word64) (s : State) : State :=
  let old := groupCfg g s
  let ls := (List.range 8).map (g * 8 + ·)
  let off := fld w 1 0 == 0
  let s := ls.foldl (fun s l => leaveService l 4 s) s
  let s := setGroupCfg g { old with personality := fld w 1 0, width := fld w 5 4, medium := fld w 8 8, pllLock := false } s
  ls.foldl (fun s l =>
    let v := freshLane (laneOf l s) off (off || old.personality == 0) (nowNs s)
    setLane l v (setLaneState l v.state s)) s

/-- A write of `LANE_GROUP_CFG`. One that changes nothing has no effect. -/
def laneGroupDo (g : Nat) (w : Word64) (s : State) : State :=
  let c := groupCfg g s
  if fld w 1 0 = 3 ∨ laneGroupWord c = pack64 [(8, 1, fld w 8 8), (4, 2, fld w 5 4), (0, 2, fld w 1 0)] then s
  else if groupNamed g s then
    pfVector 4 { s with lanes := { s.lanes with cfgErr := s.lanes.cfgErr.set (g / 4) 1 } }
  else saveSettings (applyGroup g w s)

def execLaneGroupCfg (who group : Nat) (v : BitVec 64) (s : State) : Outcome :=
  onWf (.laneGroupCfg who group v) (gated who (laneGroupOff group 0) (laneGroupDo group v) s)

end Sys2Proof.Machine
end

