-- ==== Sys2Proof/Machine/WorkEnd.lean ====
section
/-! DEFINITION. The end of work that a forced reload, a fault or a reset takes away, DRAIN_TIMEOUT, DSP faults, and the rows of
the DSP instructions (R81, R207, R261, R301, R307). -/

namespace Sys2Proof.Machine

/-- An encode context ends with its picture cut: PARTIAL, with the bands already handed on (R261). -/
def endEnc (reason c : Nat) (s : State) : State :=
  let v := encAt c s
  let s := match v.work with
    | none => s
    | some w =>
      let ns := (List.range v.spatial).map (encBands v (outputAt v.output s))
      let top := w.layers.getD (v.spatial - 1) { target := 0, cap := 0, allot := 0, p := 0 }
      encRecord c { frame := w.frame, status := stPartial, reason := reason, flags := w.flags, t := w.t, capBand := w.capBand,
                    bands := w.coded - (ns.take (v.spatial - 1)).sum, bits := (w.layers.map (·.spent)).sum, qp := top.qpSum / max 1 top.areas,
                    layers := ((List.range v.spatial).filter (fun l => decide ((ns.take (l + 1)).sum ≤ w.coded))).length } (encCount c 2 s)
  finishEncRelease c s

/-- An input or a group whose room mixer has ended, or ends. -/
def endMixer (room : Nat) (s : State) : State :=
  let s := ((roomInputs room s).map (·.1)).foldl (fun s i => removeInput i s) s
  let s := ((roomGroups room s).map (·.1)).foldl (fun s g => removeGroup g s) s
  removeMixer room s

/-- Every context, output, input, group and mixer that `p` holds of ends; the encode contexts first, while their outputs
stand. -/
def endWork (pEnc : EncCtx → Bool) (pDec : DecCtx → Bool) (pOut : Output → Bool) (pIn : AudIn → Bool) (pGrp : AudGroup → Bool)
    (pRoom : AudRoom → Bool) (s : State) : State :=
  let s := (((encList s).filter (fun c => pEnc c.2)).map (·.1)).foldl (fun s c => endEnc 0x02 c s) s
  let s := (((decList s).filter (fun c => pDec c.2)).map (·.1)).foldl (fun s c => finishDecRelease c s) s
  let s := (((outputList s).filter (fun c => pOut c.2)).map (·.1)).foldl (fun s o => finishOutRelease o s) s
  let s := ((s.audio.ins.toList.filter (fun c => pIn c.2)).map (·.1)).foldl (fun s i => removeInput i s) s
  let s := ((s.audio.groups.toList.filter (fun c => pGrp c.2)).map (·.1)).foldl (fun s g => removeGroup g s) s
  ((s.audio.rooms.toList.filter (fun c => pRoom c.2)).map (·.1)).foldl (fun s r => endMixer r s) s

/-- FORCE: the work of the partitions that a load drains (R81). -/
def abandonLoad (l : FabLoad) (s : State) : State :=
  endWork (fun v => loadPicks l v.part) (fun v => loadPicks l v.part) (fun v => loadPicks l v.part) (fun v => loadPicks l v.part)
    (fun v => loadPicks l v.part) (fun v => loadPicks l v.part) s

/-- A warm reset ends all of it, the encode contexts without a record of the picture in work (R207, R237, R261, R262, R286). -/
def endAllWork (s : State) : State :=
  let s := ((encList s).map (·.1)).foldl (fun s c => finishEncRelease c s) s
  endWork (fun _ => false) (fun _ => true) (fun _ => true) (fun _ => true) (fun _ => true) (fun _ => true) s

/-- DRAIN_TIMEOUT (R81). -/
def drainTimeoutDo (bad : List Nat) (s : State) : State :=
  match s.fab.load with
  | none => s
  | some l =>
    if nowNs s < l.deadline || drained l s then s
    else if l.force then finishLoad l bad (abandonLoad l s)
    else stopLoad l ⟨stTimeout, 2, fabDrainTimeout⟩
      (fabRefused fabDrainTimeout (if l.op = 2 then 0xB1 else 0xB2) l.slot (if l.op = 2 then 0xFF else l.part) s)

def execDrainTimeout (badTiles : List Nat) (s : State) : Outcome :=
  onWf (.drainTimeout badTiles) (drainTimeoutDo badTiles s)

/-! ## DSP faults (R307) -/

/-- A tile is fenced while it runs: its share of the AU declaration goes, and the work on it ends. -/
def fenceTile (t : Nat) (s : State) : State :=
  let g := groupOf (t / 8) s
  let fenced := g.fenced ||| 2 ^ (t % 8)
  let s := { s with fab := { s.fab with groups := s.fab.groups.set (t / 8) { g with fenced := fenced, state := if fenced = 255 then 3 else g.state } } }
  let s := endWork (fun _ => false) (fun _ => false) (fun _ => false) (fun v => v.tile == t) (fun v => v.tile == t) (fun v => v.tile == t) s
  match partOf? g.partition s with
  | none => s
  | some v =>
    let less := fun (ds : List Nat) (r : Nat) => ds.set r (ds.getD r 0 - ceilingOf r)
    settleOver g.partition { s with fab := { s.fab with parts := s.fab.parts.set g.partition { v with declared := less (less v.declared 3) 4 } } }

/-- A fault stops the core at the instruction, which has no effect. -/
def dspFault (tile core code : Nat) (s : State) : State :=
  let pc : Nat := match dspCore? tile core s with | some c => c.pc.toNat | none => 0
  fenceTile tile (record 0x0303 [(2, tile), (1, core), (1, code), (2, pc)]
    (updDspCore tile core (fun c => { c with run := .faulted, fault := code }) s))

/-- The core issues the instruction at PC when it is the row's; one that is illegal, or has no opcode of the table, faults (R302). A core
whose interrupt is due takes that first (R303). -/
def dspIssue (op : Nat) (body : DspBody) (tile core : Nat) (s : State) : State :=
  match dspCore? tile core s with
  | none => s
  | some c =>
    let w := c.code.get c.pc.toNat 0
    if !dspLive tile s || c.run != .running || c.irqReady then s
    else if !dspOpcodes.contains (fld w 31 26) then dspFault tile core faultIllegal s
    else if fld w 31 26 != op then s
    else if dspIllegal w then dspFault tile core faultIllegal s
    else match body w c s with
      | (_, .stall) => s
      | (_, .fault code) => dspFault tile core code s
      | (s', .done c' flow) => setDspCore tile core (afterIssue c.pc c' flow) s'

def execDspNop (tile core : Nat) (s : State) : Outcome := onWf (.dspNop tile core) (dspIssue 0x00 dspNopI tile core s)
def execDspBr (tile core : Nat) (s : State) : Outcome := onWf (.dspBr tile core) (dspIssue 0x01 dspBrI tile core s)
def execDspCall (tile core : Nat) (s : State) : Outcome := onWf (.dspCall tile core) (dspIssue 0x02 dspCallI tile core s)
def execDspRet (tile core : Nat) (s : State) : Outcome := onWf (.dspRet tile core) (dspIssue 0x03 dspRetI tile core s)
def execDspReti (tile core : Nat) (s : State) : Outcome := onWf (.dspReti tile core) (dspIssue 0x04 dspRetiI tile core s)
def execDspLoop (tile core : Nat) (s : State) : Outcome := onWf (.dspLoop tile core) (dspIssue 0x05 dspLoopI tile core s)
def execDspWait (tile core : Nat) (s : State) : Outcome := onWf (.dspWait tile core) (dspIssue 0x06 dspWaitI tile core s)
def execDspHalt (tile core : Nat) (s : State) : Outcome := onWf (.dspHalt tile core) (dspIssue 0x07 dspHaltI tile core s)
def execMvls (tile core : Nat) (s : State) : Outcome := onWf (.mvls tile core) (dspIssue 0x08 dspMvlsI tile core s)
def execMvsl (tile core : Nat) (s : State) : Outcome := onWf (.mvsl tile core) (dspIssue 0x09 dspMvslI tile core s)
def execMvsv (tile core : Nat) (s : State) : Outcome := onWf (.mvsv tile core) (dspIssue 0x0A (dspMvsvI tile core) tile core s)
def execMvvs (tile core : Nat) (s : State) : Outcome := onWf (.mvvs tile core) (dspIssue 0x0B (dspMvvsI tile core) tile core s)
def execVld (tile core : Nat) (s : State) : Outcome := onWf (.vld tile core) (dspIssue 0x10 (dspVldI tile) tile core s)
def execVst (tile core : Nat) (s : State) : Outcome := onWf (.vst tile core) (dspIssue 0x11 (dspVstI tile) tile core s)
def execVldb (tile core : Nat) (s : State) : Outcome := onWf (.vldb tile core) (dspIssue 0x12 (dspVldbI tile) tile core s)
def execPset (tile core : Nat) (s : State) : Outcome := onWf (.pset tile core) (dspIssue 0x18 dspPsetI tile core s)
def execPseth (tile core : Nat) (s : State) : Outcome := onWf (.pseth tile core) (dspIssue 0x19 dspPsethI tile core s)
def execPadd (tile core : Nat) (s : State) : Outcome := onWf (.padd tile core) (dspIssue 0x1A dspPaddI tile core s)
def execValu (tile core : Nat) (s : State) : Outcome := onWf (.valu tile core) (dspIssue 0x20 dspValuI tile core s)
def execVmac (tile core : Nat) (s : State) : Outcome := onWf (.vmac tile core) (dspIssue 0x30 (dspMac 0) tile core s)
def execVmsu (tile core : Nat) (s : State) : Outcome := onWf (.vmsu tile core) (dspIssue 0x31 (dspMac 1) tile core s)
def execVmul (tile core : Nat) (s : State) : Outcome := onWf (.vmul tile core) (dspIssue 0x32 (dspMac 2) tile core s)
def execFtap (tile core : Nat) (s : State) : Outcome := onWf (.ftap tile core) (dspIssue 0x33 (dspFtapI tile) tile core s)
def execAccrnd (tile core : Nat) (s : State) : Outcome := onWf (.accrnd tile core) (dspIssue 0x38 dspAccrndI tile core s)
def execAccclr (tile core : Nat) (s : State) : Outcome := onWf (.accclr tile core) (dspIssue 0x39 dspAccclrI tile core s)
def execAccsv (tile core : Nat) (s : State) : Outcome := onWf (.accsv tile core) (dspIssue 0x3A dspAccsvI tile core s)
def execAccld (tile core : Nat) (s : State) : Outcome := onWf (.accld tile core) (dspIssue 0x3B dspAccldI tile core s)
def execAcccpy (tile core : Nat) (s : State) : Outcome := onWf (.acccpy tile core) (dspIssue 0x3C dspAcccpyI tile core s)

end Sys2Proof.Machine
end

