-- ==== Sys2Proof/Machine/RegRead.lean ====
section
/-! DEFINITION. What every register of the owner view reads, block by block, without the side effects of a read (R18, R19, R499,
R500, R504). -/

namespace Sys2Proof.Machine

/-- A 64-bit image from fields: (lowest bit, width, value). -/
abbrev img (fs : List (Nat × Nat × Nat)) : Nat := packNat fs

/-- The entry of an array of registers: index and offset within it, when the offset lies in the array. -/
def entryAt (off base stride n : Nat) : Option (Nat × Nat) :=
  if base ≤ off ∧ off < base + stride * n then some ((off - base) / stride, (off - base) % stride) else none

/-! ## Body (R11, R34, R36, R430, R497) -/

def readIdentity (off : Nat) (s : State) : Nat :=
  if off = 0x100 then img [(56, 8, 0x50), (48, 8, 0x80), (44, 4, 4), (40, 4, 2), (20, 12, 0x80), (8, 12, 0x200)]
  else if off = 0x108 then img [(48, 16, 0xA00), (40, 8, 0x40), (0, 32, 0x100000)]
  else if off = 0x110 then img [(32, 32, 0x400000), (0, 32, 0x20000)]
  else if off = 0x118 then img [(48, 16, 0x2000), (0, 32, 0x200000)]
  else if off = 0x120 then img [(0, 16, s.body.quarantineMs)]
  else if off = 0x128 then img [(16, 48, Config.serial), (8, 8, Config.stepping)]
  else 0

def readLink (n r : Nat) (s : State) : Nat :=
  let l := linkOf n s
  if r = 0 then img [(16, 8, l.retrains), (8, 2, l.retrainFails), (5, 3, l.via), (0, 2, l.state)]
  else if r = 8 then img [(1, 1, b2n l.holdDown)]
  else 0

def readMember (m : Nat) (s : State) : Nat :=
  let v := s.dom.members.get m {}
  img [(16, 48, v.serial), (9, 7, v.nextLane), (5, 4, v.hops), (0, 2, v.state)]

def readDomain (off : Nat) (s : State) : Nat :=
  let d := s.dom
  if off = 0x2000 then img [(32, 32, d.domainId), (16, 8, d.prio), (8, 5, d.index), (0, 1, b2n d.enable)]
  else if off = 0x2008 then
    img [(48, 16, 1), (40, 8, d.coordChanges), (35, 5, d.coordIndex),
         (24, 8, (d.members.toList.filter (fun c => c.2.state == 2)).length), (20, 4, d.hops), (16, 4, d.step), (8, 8, d.reason),
         (0, 3, d.state)]
  else if off = 0x2010 then img [(0, 32, toTwos 32 d.offset)]
  else match entryAt off 0x2100 8 32 with
    | some (m, _) => readMember m s
    | none => 0

def readSupply (off : Nat) (s : State) : Nat :=
  let b := s.body
  if off = 0x3000 then img [(48, 16, b.inputCv), (32, 16, b.inputCa), (1, 2, b.band), (0, 1, b2n b.pg)]
  else if off = 0x3008 then img [(2, 1, b2n b.faultCase), (1, 1, b2n b.faultCbl), (0, 1, b2n b.faultDip)]
  else if off = 0x3010 then img [(16, 16, b.cblFault), (0, 16, b.cblEnable)]
  else if off = 0x3018 then img [(8, 8, b.causes), (5, 3, b.firstCause), (0, 1, b2n b.hold)]
  else if off = 0x3028 then img [(32, 32, b.warmCount), (8, 8, b.lastWarm), (0, 8, b.coldCause)]
  else 0

def readBody (off : Nat) (s : State) : Nat :=
  if off < 0x1000 then readIdentity off s
  else if off < 0x2000 then
    match entryAt off 0x1000 0x80 10 with
    | some (n, r) => readLink n r s
    | none => 0
  else if off < 0x3000 then readDomain off s
  else readSupply off s

/-! ## PWR (R59) -/

def maxJunction (s : State) : Int := ((List.range 96).map (fun i => (islandOf i s).tempC)).foldl max (-128)

def readAnt (i : Nat) (s : State) : Nat :=
  let v := islandOf i s
  img [(48, 16, v.loopPs), (28, 10, v.voltMv), (16, 12, if islandLoaded i s then toTwos 12 (clampInt v.slack (-2048) 2047) else 0),
       (0, 8, toTwos 8 v.tempC)]

/-- Declared load of a role over the module's partitions, and the live one. -/
def declaredAll (r : Nat) (s : State) : Nat := (s.fab.parts.toList.map (fun c => c.2.declared.getD r 0)).sum
def liveAll (r : Nat) (s : State) : Nat := (s.fab.parts.toList.map (fun c => liveOf c.1 r s)).sum

def readPcap (p : Nat) (s : State) : Nat :=
  match partOf? p s with
  | none => 0
  | some _ =>
    let f := fun i => (s.power.factors.get p []).getD i 0
    img [(63, 1, b2n (s.power.overcommit.contains p)), (40, 10, f 0), (30, 10, f 1), (20, 10, f 2), (10, 10, f 3), (0, 10, f 4)]

def readPload (p r : Nat) (s : State) : Nat :=
  match partOf? p s with
  | none => 0
  | some _ => img [(32, 32, committedOf p r s), (0, 32, liveOf p r s)]

def readPwr (off : Nat) (s : State) : Nat :=
  let w := s.power
  if off = 0x8000 then img [(0, 2, w.posture)]
  else if off = 0x8008 then img [(0, 16, w.limitW)]
  else if off = 0x8010 then
    img [(48, 16, w.inputW), (40, 8, toTwos 8 w.caseC), (32, 8, toTwos 8 (maxJunction s)), (0, 2, w.active)]
  else if off = 0x8018 then img [(3, 1, b2n w.evSlack), (2, 1, b2n w.limitUnmet), (1, 1, b2n w.evLimitBind), (0, 1, b2n w.evCapDrop)]
  else match entryAt off 0x8040 8 6, entryAt off 0x8100 8 64, entryAt off 0x9000 8 96, entryAt off 0xA000 0x40 64 with
    | some (r, _), _, _, _ => img [(32, 32, declaredAll r s), (0, 32, liveAll r s)]
    | _, some (p, _), _, _ => readPcap p s
    | _, _, some (i, _), _ => readAnt i s
    | _, _, _, some (p, o) => if o / 8 < 6 then readPload p (o / 8) s else 0
    | _, _, _, _ => 0

/-! ## DISP and HQ (R415, R416) -/

def readDisp (off : Nat) (s : State) : Nat :=
  let d := s.disp
  if off = 0x100000 then img [(16, 16, d.watchdogMs)]
  else if off = 0x100008 then
    img [(32, 19, d.ready.length), (16, 7, (d.cores.toList.filter (fun c => c.2.running.isSome)).length),
         (0, 16, ((List.range 16).map (fun n => b2n (d.ready.any (fun w => w.prio == n)) * 2 ^ n)).sum)]
  else if off = 0x100010 then img [(1, 1, b2n d.evWatchdog), (0, 1, b2n d.evFull)]
  else match entryAt off 0x100108 8 14, entryAt off 0x100400 0x10 64 with
    | some (t, _), _ => img [(0, 4, typePrio (t + 1) s)]
    | _, some (c, o) => if o = 0 then (coreOf c s).itemHandle else (coreOf c s).startCmp
    | _, _ => 0

def readHqStatus (q : Nat) (s : State) : Nat :=
  let u := queueOf q s
  img [(52, 12, u.qgen), (32, 17, u.words), (16, 16, min u.visible.length 65535), (8, 1, b2n u.cfgErr),
       (7, 1, b2n (u.enable && u.kind == 0 && !cqValid q s)), (6, 1, b2n (decide (nowNs s < u.quarUntil))), (5, 1, b2n u.halted),
       (4, 1, b2n (u.flushPending || !u.owed.isEmpty)), (3, 1, b2n u.opened.isSome), (2, 1, b2n u.armed), (1, 1, b2n u.busy.isSome), (0, 1, b2n u.enable)]

def readHq (q r : Nat) (s : State) : Nat :=
  let u := queueOf q s
  if r = 0 then img [(24, 8, u.cq), (16, 4, u.depthLog2), (3, 1, b2n u.mirror), (1, 2, u.kind), (0, 1, b2n u.enable)]
  else if r = 8 then readHqStatus q s
  else if r = 0x18 then img [(40, 24, u.lastDone), (16, 24, u.next), (0, 1, b2n (u.kind == 0 && u.part.isSome))]
  else if r = 0x40 then img [(32, 16, u.timeUs), (16, 16, u.count), (15, 1, b2n u.irqEn), (0, 9, u.vector)]
  else if r = 0x48 then img [(12, 52, u.ringAddr / 4096), (0, 5, u.ringLog2)]
  else if r = 0x50 then img [(3, 61, u.indexAddr / 8)]
  else if r = 0x58 then img [(0, 64, u.consumed)]
  else 0

/-! ## EVR (R454) -/

def readEvr (off : Nat) (s : State) : Nat :=
  let e := s.evr
  if off = 0x400000 then
    img [(32, 32, e.nextSeq), (8, 5, e.lg.length), (3, 1, b2n e.failed), (2, 1, b2n e.lastGasp), (0, 2, e.phase)]
  else if off = 0x400008 then img [(0, 2, e.phase)]
  else if off = 0x400010 then img [(16, 16, e.burst), (0, 16, e.rate)]
  else if off = 0x400018 then img [(32, 32, e.clearSeq), (0, 32, e.boot)]
  else if off = 0x400020 then img [(0, 64, e.n)]
  else if off = 0x400100 then
    let d := s.dump
    if d.dramState = 0 then img [(4, 2, d.flashState)]
    else img [(32, 32, d.seq), (10, 2, d.cause), (9, 1, d.writer), (4, 2, d.flashState), (0, 2, d.dramState)]
  else match entryAt off 0x400400 0x40 16 with
    | some (n, o) => match e.lg[n]? with
      | some r => leNat (slice (recBytes r) o 8)
      | none => 0
    | none => 0

/-! ## UPD (R472) -/

def updPhase (s : State) : Nat :=
  if trialRunning s then 5 else if s.upd.pending then 4
  else if (inactiveBank s).state = 2 then 3 else if (inactiveBank s).state = 1 then 2 else if s.upd.staging.isEmpty then 0 else 1

def readBank (b : Nat) (s : State) : Nat :=
  let v := bankOfIdx b s
  if v.state = 0 then img [(8, 1, v.ownsCopy)]
  else img [(32, 32, fwVersion v), (25, 7, fwFloorStep v), (9, 16, fwSettings v), (8, 1, v.ownsCopy), (0, 3, v.state)]

def readUpd (off : Nat) (s : State) : Nat :=
  let u := s.upd
  let version := fun (c : SettingsCopy) => if c.crcOk then c.version else 0
  if off = 0x500000 then
    img [(32, 32, fwVersion (activeBank s)), (18, 7, u.floor), (4, 4, updPhase s), (3, 1, b2n u.unreadable), (2, 1, b2n u.commitMode),
         (0, 1, u.active)]
  else if off = 0x500008 then readBank 0 s
  else if off = 0x500010 then readBank 1 s
  else if off = 0x500018 then if u.pending then u.activateAt else 0
  else if off = 0x500020 then u.fallbackAt
  else if off = 0x500028 then
    img [(48, 16, version u.copy1), (32, 16, version u.copy0), (0, 1, (activeBank s).ownsCopy)]
  else 0

/-! ## TIME (R366) -/

def stampLow (t : Stamp) : Nat := img [(16, 30, t.ns), (0, 16, t.frac)]

def readTime (off : Nat) (s : State) : Nat :=
  let t := s.time
  if off = 0x600000 then stampLow (stampNow s)
  else if off = 0x600010 then cmpNow s
  else if off = 0x600018 then img [(0, 32, toTwos 32 t.freqPpb)]
  else if off = 0x600020 then img [(8, 32, t.jumpUs), (0, 8, t.slewMaxPpm)]
  else if off = 0x600028 then
    img [(63, 1, b2n t.isSet), (62, 1, b2n (decide (slewBound t < t.freqPpb.natAbs))), (32, 24, toTwos 24 (ratePpb t)),
         (0, 32, toTwos 32 (remNs t))]
  else if off = 0x600030 then
    img [(4, 1, b2n t.evPpsShort), (3, 1, b2n t.evPpsIn), (2, 1, b2n t.evStepped), (1, 1, b2n t.evJump), (0, 1, b2n t.evSlewDone)]
  else if off = 0x600038 then
    img [(16, 16, t.widthMs), (3, 1, b2n t.inEdge), (2, 1, b2n t.inEn), (1, 1, b2n t.tenEn), (0, 1, b2n t.outEn)]
  else if off = 0x600040 then stampLow t.ppsInTs
  else match entryAt off 0x600100 8 128 with
    | some (l, _) =>
      img [(48, 16, Config.rxLatPs l), (32, 16, Config.txLatPs l), (16, 16, t.rxTrim.get l 0), (0, 16, t.txTrim.get l 0)]
    | none => 0

/-! ## AES (R324) -/

def csWord (bs : List Byte) (k : Nat) : Nat := leNat (slice bs (8 * k) 8)

def readAesIn (i r : Nat) (s : State) : Nat :=
  let v := aesIn i s
  if r = 0 then img [(4, 2, v.term), (3, 1, b2n v.autoRate), (1, 2, v.rate), (0, 1, b2n v.enable)]
  else if r = 8 then
    img [(52, 12, v.sense.ohms), (44, 8, v.buf.length), (9, 2, v.rateDet), (8, 1, b2n v.misaligned), (7, 1, b2n v.nonAudio),
         (6, 1, b2n v.consumer), (5, 1, b2n v.rateErr), (4, 1, b2n v.locked), (3, 1, b2n v.reversed), (0, 2, v.sense.line)]
  else if r = 0x10 ∨ r = 0x18 ∨ r = 0x20 then csWord v.cs ((r - 0x10) / 8)
  else 0

def readAesOut (o r : Nat) (s : State) : Nat :=
  let v := aesOut o s
  if r = 0 then img [(4, 2, v.term), (1, 2, v.rate), (0, 1, b2n v.enable)]
  else if r = 8 then
    img [(52, 12, v.sense.ohms), (32, 20, toTwos 20 v.steer), (23, 9, v.buf.length), (2, 2, v.state), (0, 2, v.sense.line)]
  else if r = 0x10 ∨ r = 0x18 ∨ r = 0x20 then csWord v.cs ((r - 0x10) / 8)
  else if r = 0x28 ∨ r = 0x30 ∨ r = 0x38 then csWord v.csa ((r - 0x28) / 8)
  else 0

def readAesGroup (g r : Nat) (s : State) : Nat :=
  let v := aesGroup g s
  if r = 0 then img [(16, 16, v.members), (1, 1, b2n v.dirOut), (0, 1, b2n v.enable)]
  else if r = 8 then img [(0, 32, v.mask)]
  else if r = 0x10 then img [(32, 32, v.csBlock), (0, 32, v.active)]
  else 0

def readAes (off : Nat) (s : State) : Nat :=
  if off = 0x701100 then img [(40, 1, b2n s.aes.cfgErr), (32, 8, s.aes.realign), (16, 16, s.aes.outLine), (0, 16, s.aes.inLine)]
  else match entryAt off 0x700000 0x80 16, entryAt off 0x700800 0x80 16, entryAt off 0x701000 0x20 8 with
    | some (i, r), _, _ => readAesIn i r s
    | _, some (o, r), _ => readAesOut o r s
    | _, _, some (g, r) => readAesGroup g r s
    | _, _, _ => 0

/-! ## ACC, KEY, FAB (R84, R175, R388) -/

def readAcc (who off : Nat) (s : State) : Nat :=
  if off = 0x800008 then s.acc.result.get who 0 * 2 ^ 48
  else if off = 0x800018 then accQueryStat who s
  else match entryAt off 0x800020 8 16 with
    | some (k, _) => accQueryData who k s
    | none => 0

def readKey (off : Nat) (s : State) : Nat :=
  let k := s.keys
  if off = 0xC00000 then
    img [(9, 1, b2n (k.life != 0 && !k.ownerHash.isEmpty)), (8, 1, b2n (k.life != 0 && !k.rootKey.isEmpty)), (0, 2, k.life)]
  else if off = 0xC00008 then challengeNow s
  else if off = 0xC00010 then img [(0, 64, k.ctxNext)]
  else if off = 0xC00028 then
    let quar := (s.ids.toList.filter (fun c => c.1 / 2 ^ 32 == kindCode .slot && !c.2.used && c.2.quarantined (nowNs s))).length
    img [(32, 32, quar), (0, 32, (k.slots.toList.filter (fun c => c.2.state != 0)).length)]
  else match entryAt off 0xC00100 8 256 with
    | some (i, _) => let e := kekOf (i / 4) (i % 4) s; img [(32, 32, e.epoch), (0, 1, b2n e.valid)]
    | none => 0

def bitCount (n : Nat) : Nat := ((List.range 64).filter (fun i => n.testBit i)).length

def readFab (off : Nat) (s : State) : Nat :=
  let f := s.fab
  if off = 0xE00000 then
    img [(32, 10, (f.groups.toList.map (fun c => bitCount c.2.fenced)).sum), (8, 4, f.activeSlot), (7, 1, b2n f.noImage), (4, 3, f.opStep),
         (2, 2, match f.load with | some l => l.op | none => 0), (0, 1, b2n f.load.isSome)]
  else if off = 0xE00008 then f.activeId
  else if off = 0xE00010 then img [(32, 32, f.activeVer), (0, 16, f.activeFormat)]
  else if off = 0xE00018 then img [(0, 32, f.bootOrder)]
  else if off = 0xE00028 then img [(0, 16, f.drainMs)]
  else match entryAt off 0xE00100 8 64, entryAt off 0xE00400 8 64, entryAt off 0xE00600 8 64 with
    | some (g, _), _, _ => let v := groupOf g s; img [(16, 8, v.fenced), (8, 6, v.partition), (6, 2, v.state), (0, 3, v.role)]
    | _, some (p, _), _ => match partOf? p s with
      | some v => img [(8, 8, v.owner), (4, 2, v.state), (1, 1, b2n v.tenantReload), (0, 1, 1)]
      | none => 0
    | _, _, some (p, _) => match partOf? p s with
      | some v => img [(0, 64, v.tgMask)]
      | none => 0
    | _, _, _ => 0

/-! ## Lanes (R352) -/

def portsUp (g : Nat) (s : State) : Nat :=
  (((List.range 8).map (g * 8 + ·)).filter (fun p => isPort p s && !(upLanes p s).isEmpty)).length

def readGroup (g r : Nat) (s : State) : Nat :=
  let c := groupCfg g s
  if r = 0 then (laneGroupWord c).toNat
  else if r = 8 then img [(4, 4, portsUp g s), (0, 1, b2n c.pllLock)]
  else if r = 0x10 then (laneTmWord c).toNat
  else 0

def readLane (l r : Nat) (s : State) : Nat :=
  let v := laneOf l s
  if r = 0 then
    img [(56, 8, v.retrains), (18, 2, v.rx.power), (16, 2, v.tx.power), (11, 1, b2n v.inverted), (10, 1, b2n v.short), (9, 1, b2n v.lol),
         (8, 1, b2n v.los), (0, 3, v.state)]
  else if r = 8 then img [(55, 3, v.peerPos), (48, 7, v.peerLane), (0, 48, v.peerSerial)]
  else if r = 0x10 then img [(1, 1, b2n v.holdDown)]
  else if r = 0x18 then img [(4, 2, v.pattern), (3, 1, b2n v.check), (0, 3, v.loop)]
  else if r = 0x28 then portMac l s
  else 0

def readLanes (w o : Nat) (s : State) : Nat :=
  if o = 0x3000 then img [(32, 1, s.lanes.cfgErr.get w 0), (0, 32, s.lanes.changed.get w 0)]
  else match entryAt o 0 0x40 4, entryAt o 0x1000 0x100 32 with
    | some (g, r), _ => readGroup (w * 4 + g) r s
    | _, some (i, r) => readLane (w * 32 + i) r s
    | _, _ => 0

/-! ## ING and LEG (R116, R147) -/

def readIng (w o : Nat) (s : State) : Nat :=
  if o = 0x2000 then let e := s.media.excRate.get w (20, 1024); img [(16, 16, e.2), (0, 16, e.1)]
  else if o = 0x2008 then img [(32, 32, ceilDiv (ingPoolUsed w s) (2 ^ 20)), (0, 16, s.media.poolGib.get w 16)]
  else match entryAt o 0 0x10 256, entryAt o 0x1000 8 256, entryAt o 0x4000 8 4096 with
    | some (a, r), _, _ => if r = 0 then (laddrAt w a s).addr % 2 ^ 64 else 0
    | _, some (a, _), _ => let v := laddrAt w a s; img [(8, 6, v.owner), (0, 1, b2n v.valid)]
    | _, _, some (n, _) => let v := s.media.tmOwner.get (w * 4096 + n) (0, false); img [(8, 6, v.1), (0, 1, b2n v.2)]
    | _, _, _ => 0

def readLeg (w o : Nat) (s : State) : Nat :=
  if o = 0x2000 then
    img [(48, 16, ceilDiv (spillUsed w s) (2 ^ 20)), (32, 16, s.media.spillMark.get w 40), (0, 16, s.media.spillRate.get w 6350)]
  else if o = 0x2008 then img [(0, 16, s.media.transitMax.get w 0)]
  else match entryAt o 0 8 32, entryAt o 0x1000 8 64, entryAt o 0x2100 8 32 with
    | some (i, _), _, _ => img [(0, 8, s.media.overhead.get (w * 32 + i) 20)]
    | _, some (f, _), _ => img [(0, 16, s.media.tenantWt.get (w * 64 + f) 256)]
    | _, _, some (i, _) =>
      let e := egressAt (w * 32 + i) s
      img [(32, 32, e.nLast), (24, 8, e.entry), (20, 4, openMask (w * 32 + i) s), (0, 1, b2n e.gate.isSome)]
    | _, _, _ => 0

/-! ## MEM (R387) -/

def readMem (k r : Nat) (s : State) : Nat :=
  let u := stackOf k s
  if r = 0 then
    img [(48, 16, sparesMin u), (32, 16, if u.state = 5 then 4096 else u.failedRegions.length), (8, 1, b2n u.cfgErr), (0, 3, u.state)]
  else if r = 8 then img [(1, 1, b2n u.park)]
  else if r = 0x10 then img [(32, 10, u.writeAgeUs), (16, 7, u.highWm), (8, 6, u.lowWm), (0, 6, u.rowHitPass)]
  else if r = 0x18 then img [(48, 16, u.thresh), (32, 16, u.gapNs)]
  else if r = 0x20 then img [(0, 8, u.keep)]
  else match entryAt r 0x40 8 6, entryAt r 0x70 8 6 with
    | some (j, _), _ => hashPcMask u j
    | _, some (i, _) => hashBankMask u i
    | _, _ => 0

/-! ## Tiles (R207, R236, R262, R286, R308) -/

/-- What a tile has on it: committed load, contexts or outputs, what waits, and whether something is in work. -/
def tileStatus (load count queued : Nat) (busy : Bool) : Nat :=
  img [(32, 16, load), (24, 8, count), (16, 8, min queued 255), (0, 1, b2n busy)]

def readVd (t : Nat) (s : State) : Nat :=
  let cs := (decList s).filter (fun c => c.2.tile == t)
  tileStatus (cs.map (·.2.load)).sum cs.length (cs.map (fun c => c.2.waiting.length)).sum (cs.any (fun c => c.2.work.isSome))

/-- A band of the context is being coded, once what feeds it has arrived; and the composed bands that wait at the tile, for a picture that
has not started or for the lowest layer of the one in work (log entry 33). -/
def encBusy (v : EncCtx) (s : State) : Bool × Nat :=
  match v.work with
  | none => (false, v.queue.length)
  | some w =>
    let o := outputAt v.output s
    let p := placeIn (layerBands v o) 0 w.coded
    let ready := decide (lastFeed v o p.1 p.2 < w.inputs.length)
    let taken := if p.1 ≠ 0 then w.inputs.length else min w.inputs.length (2 ^ v.shift 0 * (p.2 + b2n ready))
    (ready, v.queue.length + (w.inputs.length - taken))

def readVe (t : Nat) (s : State) : Nat :=
  let es := (((encList s).filter (fun c => c.2.tile == t)).map (fun c => encBusy c.2 s))
  tileStatus (encLoadOf t s) (encCountOf t s) (es.map (·.2)).sum (es.any (·.1))

/-- The band of the output's frame is ready to be composed: a later one is not before it is handed on (R218). -/
def readyBand (v : Output) (s : State) : Bool :=
  match v.work with
  | none => false
  | some f => (unready v f f.band s).isEmpty

def readPx (t : Nat) (s : State) : Nat :=
  let os := (outputList s).filter (fun c => c.2.tile == t)
  let ready := (os.filter (fun c => readyBand c.2 s)).length
  tileStatus (os.map (·.2.load)).sum os.length (ready - 1) (decide (0 < ready))

def readSt (t : Nat) (s : State) : Nat :=
  let os := (outputList s).filter (fun c => c.2.tile == t)
  tileStatus (os.map (·.2.load)).sum os.length
    (os.map (fun c => (c.2.cells.toList.map (fun k => k.2.queue.length)).sum)).sum (os.any (fun c => c.2.emit.isSome))

/-- A block is being computed from its start until MIX_BLOCK_START is taken (R286). -/
def readAu (t : Nat) (s : State) : Nat :=
  img [(48, 10, decodesOn t s), (39, 9, encodesOn t s), (32, 7, roomsOn t s),
    (0, 1, b2n (decide (0 < roomsOn t s) && !s.body.hold && (mixDue s).isSome))]

def runCode : DspRun → Nat
  | .halted => 0
  | .running => 1
  | .waiting => 2
  | .faulted => 3

def readDspCore (t c r : Nat) (s : State) : Nat :=
  match dspCore? t c s with
  | none => 0
  | some v =>
    if r = 0 then
      img [(32, 14, v.pc.toNat), (24, 8, v.fault), (18, 3, v.ipend.toNat), (15, 3, v.lsp), (14, 1, b2n v.ie), (0, 2, runCode v.run)]
    else if r = 8 then v.ovfNow.toNat
    else if r = 0x18 then img [(32, 32, v.blockMiss), (0, 32, v.mailDrop)]
    else 0

/-- A word of a tile's page; it reads 0 while the tile's group has no role. -/
def readTile (t r : Nat) (s : State) : Nat :=
  let role := (groupOf (t / 8) s).role
  if role = 0 then 0
  else if r = 0 then
    if role = 1 then readVd t s else if role = 2 then readVe t s else if role = 3 then readPx t s
    else if role = 4 then readAu t s else readSt t s
  else if 0x40 ≤ r ∧ r ≤ 0x60 then ctrGet (tileOff t r) s
  else match entryAt r 0x100 0x40 4 with
    | some (c, o) => if role = 4 then readDspCore t c o s else 0
    | none => 0

/-! ## The whole owner view (R500) -/

def readWing (w o : Nat) (s : State) : Nat :=
  if o < 0x200000 then readLanes w o s
  else if o < 0x400000 then readIng w (o - 0x200000) s
  else if o < 0x600000 then readLeg w (o - 0x400000) s
  else if o = 0x600000 then img [(32, 32, (s.keys.cache.get w []).length), (0, 32, (pinned w s).length)]
  else if o < 0x700000 then 0
  else match entryAt o 0x700000 0x1000 2, entryAt o 0x800000 0x1000 128 with
    | some (j, r), _ => readMem (2 * w + j) r s
    | _, some (t, r) => readTile (128 * w + t) r s
    | _, _ => 0

/-- Registers that are no RC counter. -/
def readFields (who off : Nat) (s : State) : Nat :=
  if off < 0x8000 then readBody off s
  else if off < 0x100000 then readPwr off s
  else if off < 0x200000 then readDisp off s
  else if off < 0x300000 then (match entryAt off 0x200000 0x80 8192 with | some (q, r) => readHq q r s | none => 0)
  else if off < 0x400000 then if off = 0x300000 then img [(32, 32, poolUsed s), (0, 32, 0x200000)] else 0
  else if off < 0x500000 then readEvr off s
  else if off < 0x600000 then readUpd off s
  else if off < 0x700000 then readTime off s
  else if off < 0x800000 then readAes off s
  else if off < 0xC00000 then readAcc who off s
  else if off < 0xE00000 then readKey off s
  else if off < 0x1000000 then readFab off s
  else readWing (off / 0x1000000 - 1) (off % 0x1000000) s

/-- The offset of the low half of a wide register that reads its live low half, or pops (R17). -/
def wideLow (off : Nat) : Bool :=
  off == 0x600000 || off == 0x600040
    || (decide (0x200000 ≤ off) && decide (off < 0x300000) && off % 0x80 == 0x30)
    || (decide (0x1200000 ≤ off) && decide (off < 0x5000000) && decide (0x200000 ≤ off % 0x1000000)
        && decide (off % 0x1000000 < 0x201000) && off % 0x10 == 0)

/-- The live high half of such a register. -/
def wideHigh (off : Nat) (s : State) : Nat :=
  if off = 0x600000 then s.time.sec
  else if off = 0x600040 then s.time.ppsInTs.sec
  else if 0x1200000 ≤ off then (laddrAt (off / 0x1000000 - 1) (off % 0x1000 / 0x10) s).addr / 2 ^ 64
  else 0

/-- What a read of the owner view returns, without its side effects. Queue words of the tile counters are served with the tile's
page. -/
def peek (who off : Nat) (s : State) : Nat :=
  if off % 8 ≠ 0 ∨ 0x5000000 ≤ off then allOnes64
  else if off % 16 = 8 && wideLow (off - 8) then s.latch.get ((off - 8) * 256 + who) 0
  else if (tileAt off).isSome then readFields who off s
  else match s.ctr.find? off with
    | some n => n
    | none => readFields who off s

end Sys2Proof.Machine
end

