-- ==== Sys2Proof/Machine/Window.lean ====
section
/-! DEFINITION. Reads through BAR0 and through the tenant windows, with their side effects: WIDE_LOW_READ and RC_COUNTER_READ (R17,
R18, R21, R499, R501-R503). -/

namespace Sys2Proof.Machine

/-! ## What a read changes -/

/-- An RC register returns to 0 after its read (R18). -/
def clearRc (off : Nat) (s : State) : State :=
  match tileAt off with
  | some t =>
    let r := off % 0x1000
    if (groupOf (t / 8) s).role = 0 then s
    else if 0x40 ≤ r ∧ r ≤ 0x60 then { s with ctr := s.ctr.del off }
    else if 0x100 ≤ r ∧ r < 0x200 ∧ r % 0x40 = 0x18 then
      updDspCore t ((r - 0x100) / 0x40) (fun c => { c with blockMiss := 0, mailDrop := 0 }) s
    else s
  | none =>
    if 0x1000000 ≤ off ∧ off % 0x1000000 = 0x402008 then
      { s with media := { s.media with transitMax := s.media.transitMax.del (off / 0x1000000 - 1) } }
    else { s with ctr := s.ctr.del off }

/-- The queue whose `HQ_POP` low half lies at an owner-view offset. -/
def popAt (off : Nat) : Option Nat :=
  match entryAt off 0x200000 0x80 8192 with
  | some (q, r) => if r = 0x30 then some q else none
  | none => none

/-- Symbol errors under CHECK and FEC codewords come off the line, and no row counts them: at a read, such a counter has grown by a
free number (R350, R352). -/
def lineCounter (off : Nat) (s : State) : Bool :=
  decide (0x1000000 ≤ off) && match entryAt (off % 0x1000000) 0x1000 0x100 32 with
  | some (i, r) =>
    let l := (off / 0x1000000 - 1) * 32 + i
    (r == 0x20 && (laneOf l s).check && (laneOf l s).pattern != 0) || ((r == 0x60 || r == 0x68) && isPort l s && isEth l s)
  | none => false

def countLine (off : Nat) (s : State) : State :=
  if lineCounter off s then count off (Config.lineErrors s.free) { s with free := s.free + 1 } else s

def setRead (v : Nat) (s : State) : State := { s with readData := v }

/-- A read that the tables have let through: its value, then its effects. `clears` is false through a tenant window. -/
def readEffects (who off : Nat) (clears : Bool) (s : State) : State :=
  let s := countLine off s
  let v := peek who off s
  let s := if wideLow off then { s with latch := s.latch.set (off * 256 + who) (wideHigh off s) } else s
  setRead v (if clears then clearRc off s else s)

/-- A read of the owner view by PF0 or a core. -/
def ownerReadDo (who off : Nat) (s : State) : State :=
  if off % 8 ≠ 0 ∨ 0x5000000 ≤ off then setRead allOnes64 s
  else match popAt off with
    | some q => hqPopDo who q s
    | none =>
      let g := readGate who off s
      if g.1 then readEffects who off true g.2 else setRead allOnes64 g.2

/-! ## The tenant window (R501-R503) -/

/-- Function n owns the partition. -/
def ownsPart (n p : Nat) (s : State) : Bool := match partOf? p s with | some v => v.owner == n | none => false

/-- The function owns the partition of a group that has a role. -/
def ownsGroup (n g : Nat) (s : State) : Bool := (groupOf g s).role != 0 && ownsPart n (groupOf g s).partition s

/-- The owner-view offset of a mirrored word that R501 lists for function n. -/
def mirrored (n off : Nat) (s : State) : Option Nat :=
  let keep := fun (b : Bool) (o : Nat) => if b then some o else none
  if off < 0x1000 then keep (decide (0x100 ≤ off) && decide (off < 0x130)) off
  else if off < 0x2000 then
    let y := off - 0x1000
    keep (y == 0 || (decide (0x100 + n * 0x20 ≤ y) && decide (y < 0x120 + n * 0x20))) (0xC00000 + y)
  else if off < 0x3000 then keep (decide (off < 0x2018)) (0x600000 + (off - 0x2000))
  else if off < 0x4000 then
    let y := off - 0x3000
    keep (match entryAt y 0x100 8 64 with | some (p, _) => ownsPart n p s | none => false) (0x8000 + y)
  else if off < 0x5000 then
    let y := off - 0x4000
    keep (decide (y % 0x40 < 0x30) && ownsPart n (y / 0x40) s) (0xA000 + y)
  else if off < 0x6000 then
    let y := off - 0x5000
    keep (match entryAt y 0x100 8 64, entryAt y 0x400 8 64 with
      | some (g, _), _ => ownsGroup n g s
      | _, some (p, _) => ownsPart n p s
      | _, _ => false) (0xE00000 + y)
  else if 0x8000 ≤ off ∧ off < 0xC000 then some (0x200000 + n * 0x4000 + (off - 0x8000))
  else if 0x80000 ≤ off ∧ off < 0xC0000 then
    let t := (off - 0x80000) / 0x200
    keep (ownsGroup n (t / 8) s) (tileOff t ((off - 0x80000) % 0x200))
  else none

/-- A word of the module health page: the owner-view counter it copies, and whether it reads 0 (R503). -/
def healthWord (off : Nat) (s : State) : Option (Nat × Bool) :=
  match entryAt off 0x6000 0x20 20, entryAt off 0x6400 0x20 8, entryAt off 0x7000 0x20 128 with
  | some (k, o), _, _ => some (dlCtr (k / 2) (k % 2) (o / 8), false)
  | _, some (k, o), _ => some (memOff k (0x100 + o), false)
  | _, _, some (l, o) => some (laneCtr l (o / 8), !isTremund l s)
  | _, _, _ => none

/-- A tile word also needs Read in the tile-partition table (R502). -/
def tileReadOk (n off : Nat) (s : State) : Bool × State :=
  match tileAt off with
  | none => (true, s)
  | some t => accCheck tgPartition (groupOf (t / 8) s).partition n bitRead s

/-- A read by VF n through its window. Its counters are not cleared. -/
def tenantReadDo (n off : Nat) (s : State) : State :=
  if off % 8 ≠ 0 then setRead allOnes64 s
  else match healthWord off s with
    | some (o, zero) =>
      let g := readGate n o s
      setRead (if g.1 then if zero then 0 else ctrGet o s else allOnes64) g.2
    | none => match mirrored n off s with
      | none => setRead allOnes64 s
      | some o => match popAt o with
        | some q => hqPopDo n q s
        | none =>
          let g := readGate n o s
          let t := if g.1 then tileReadOk n o g.2 else g
          if t.1 then readEffects n o false t.2 else setRead allOnes64 t.2

/-- A register read: `off` lies in the owner view for PF0 and the cores, in the tenant window for a VF. -/
def registerReadDo (who off : Nat) (s : State) : State :=
  if who == 0 || decide (64 ≤ who) then ownerReadDo who off s else tenantReadDo who off s

def execWideLowRead (who off : Nat) (s : State) : Outcome := onWf (.wideLowRead who off) (registerReadDo who off s)

def execRcCounterRead (who off : Nat) (s : State) : Outcome := onWf (.rcCounterRead who off) (registerReadDo who off s)

/-- The end of an identifier's quarantine (R9, R396): it may be allocated, and a disabled queue enabled, from here on. Before
the period has passed there is no such end. -/
def quarantineEndDo (k : IdKind) (i : Nat) (s : State) : State :=
  if k = .queue then
    let u := queueOf i s
    if u.quarUntil ≤ nowNs s then setQueue i { u with quarUntil := 0 } s else s
  else
    let d := identOf k i s
    if !d.used && decide (d.quarUntil ≤ nowNs s) then { s with ids := s.ids.set (idKey k i) { d with quarUntil := 0 } } else s

def execQuarantineEnd (kind : IdKind) (index : Nat) (s : State) : Outcome :=
  onWf (.quarantineEnd kind index) (quarantineEndDo kind index s)

end Sys2Proof.Machine
end

