-- ==== Sys2Proof/Machine/DumpRows.lean ====
section
/-! DEFINITION. The fatal dump: its contents, DRAM_DUMP_DONE, FLASH_SUMMARY_DONE, and what a reset does to a dump that is being
written (R445-R448). -/

namespace Sys2Proof.Machine

/-! ## Parts of the dump (R448) -/

def fill (n : Nat) (bs : List Byte) : List Byte := (bs ++ List.replicate (n - bs.length) 0).take n

/-- A register as the dump reads it: no side effect, pop registers 0. -/
def dumpWord (off : Nat) (s : State) : Nat :=
  if (popAt off).isSome || (popAt (off - 8)).isSome && off % 16 == 8 then 0 else peek 0 off s

/-- BAR0 from `off` on, `n` bytes. -/
def dumpRegs (off n : Nat) (s : State) : List Byte := (List.range (n / 8)).flatMap (fun k => leBytes 8 (dumpWord (off + 8 * k) s))

def wordBytes (w : Word128) : List Byte := leBytes 16 w.toNat

def dumpCursors (s : State) : List Byte :=
  (List.range 8192).flatMap (fun q => leBytes 8 (readHq q 0 s) ++ leBytes 8 (readHq q 8 s) ++ leBytes 8 (readHq q 0x18 s) ++ leBytes 8 0)

def dumpCommand (q : Nat) (s : State) : List Byte :=
  match (queueOf q s).part with
  | none => List.replicate 128 0
  | some b =>
    wordBytes b.w0 ++ wordBytes b.w1 ++ wordBytes b.w2 ++ wordBytes b.w3 ++ leBytes 2 q ++ leBytes 4 b.seq ++ leBytes 1 b.progress
      ++ List.replicate 57 0

/-- The 64 bytes of a work item (R407). -/
def itemBytes (w : WorkItem) : List Byte :=
  leBytes 8 w.posted ++ leBytes 8 w.handle
    ++ leBytes 8 (packNat [(32, 6, w.forFn), (24, 8, w.poster), (12, 1, b2n w.host), (8, 4, w.prio), (0, 8, w.type)])
    ++ leBytes 8 w.param ++ wordBytes w.w2 ++ wordBytes w.w3

def dumpInFlight (s : State) : List Byte :=
  (List.range 64).flatMap (fun c =>
    let k := coreOf c s
    leBytes 8 k.itemHandle ++ leBytes 8 k.startCmp
      ++ (match k.running with | some w => itemBytes w | none => List.replicate 64 0) ++ List.replicate 48 0)

/-- Ready items by level, each level in the order of the posts. -/
def dumpReady (s : State) : List Byte :=
  fill 16777216 ((List.range 16).flatMap (fun p => (s.disp.ready.filter (fun w => w.prio == p)).flatMap itemBytes))

def dumpLastGasp (s : State) : List Byte := fill 1024 (s.evr.lg.flatMap recBytes)

def dumpRecorder (s : State) : List Byte := (List.range 69632).flatMap (fun k => recBytes (s.evr.slots.get k {}))

/-- The pages of the links and of the stacks, then the journal of retired rows (log entry 36). -/
def dumpLinks (s : State) : List Byte :=
  let rows : List (Nat × Nat × Nat) := s.dramStacks.toList.flatMap (fun c => c.2.retired.map (fun r => (c.1, r.1, r.2)))
  fill 2097152 (dumpRegs 0x1000 4096 s ++ (List.range 8).flatMap (fun k => dumpRegs (memBase k) 4096 s)
    ++ (List.range 1048576).map (fun i => Config.retireJournal rows i))

/-- Entries of the MEDIA part: decode contexts 1, encode contexts 2, outputs 3, rooms 4, groups 5. -/
def mediaEntries (s : State) : List (List Nat) :=
  (decList s).map (fun c => [1, c.1, c.2.fn, b2n c.2.work.isSome, c.2.nextSeq])
    ++ (encList s).map (fun c => [2, c.1, c.2.fn, b2n c.2.work.isSome, match c.2.work with | some w => w.frame | none => 0])
    ++ (outputList s).map (fun c => [3, c.1, c.2.fn, b2n c.2.work.isSome, c.2.next])
    ++ (s.media.rooms.toList.filter (fun c => c.2.held)).map (fun c => [4, c.1, c.2.owner, b2n (mixes c.1 s), 0])
    ++ s.audio.groups.toList.map (fun c => [5, c.1, (sourceAt c.1 s).fn, b2n c.2.frame.isSome, c.2.rtpSeq])

/-- A part: TYPE, STATUS, bytes. STATUS: 0 COMPLETE, 2 ABSENT, 3 TRUNCATED. -/
structure DumpPart where
  type : Nat
  status : Nat
  bytes : List Byte

/-- Length of each part in a DRAM dump and in the summary (R448). -/
def partLen (summary : Bool) (type : Nat) : Nat :=
  if type = 1 then if summary then 16777216 else 83886080
  else if type = 2 then 262144 else if type = 3 then 1048576 else if type = 4 then 8192
  else if type = 5 then if summary then 0 else 16777216
  else if type = 6 then 1024 else if type = 7 then 4456448 else if type = 8 then 2097152
  else if type = 9 then if summary then 0 else 536870912
  else if summary then 0 else 67108864

/-- The writer writes the part: the ROM sequencer only five of them. -/
def partWritten (summary : Bool) (writer type : Nat) : Bool :=
  decide (0 < partLen summary type) && (writer == 0 || [1, 2, 3, 6, 7].contains type)

/-- The bytes of a part. `n` is the free number of the FIRMWARE part. -/
def partBytes (summary : Bool) (n type : Nat) (s : State) : List Byte :=
  if type = 1 then dumpRegs 0 (partLen summary 1) s
  else if type = 2 then dumpCursors s
  else if type = 3 then (List.range 8192).flatMap (fun q => dumpCommand q s)
  else if type = 4 then dumpInFlight s
  else if type = 5 then dumpReady s
  else if type = 6 then dumpLastGasp s
  else if type = 7 then dumpRecorder s
  else if type = 8 then dumpLinks s
  else if type = 9 then (List.range 536870912).map (fun i => Config.firmwareDump n i)
  else (List.range 67108864).map (fun i => Config.mediaDump (mediaEntries s) i)

def partOfDump (summary : Bool) (writer n type : Nat) (s : State) : DumpPart :=
  if partWritten summary writer type then ⟨type, if summary && type == 1 then 3 else 0, partBytes summary n type s⟩
  else ⟨type, 2, []⟩

/-- Each part with its offset: the first 4 KiB boundary after the end of the one before. -/
def placeParts : Nat → List DumpPart → List (DumpPart × Nat)
  | _, [] => []
  | o, p :: ps =>
    if p.bytes.isEmpty then (p, 0) :: placeParts o ps else (p, o) :: placeParts (o + ceilDiv p.bytes.length 4096 * 4096) ps

def directoryEntry (x : DumpPart × Nat) : List Byte :=
  leBytes 2 x.1.type ++ leBytes 1 x.1.status ++ [0] ++ leBytes 8 x.2 ++ leBytes 8 x.1.bytes.length
    ++ leBytes 4 (if x.1.bytes.isEmpty then 0 else (crc32c x.1.bytes).toNat) ++ List.replicate 8 0

/-- The header (R447) for the fatal error with this writer, cause, SEQ and compare word. -/
def dumpHeader (writer cause seq cmp : Nat) (ps : List (DumpPart × Nat)) (s : State) : List Byte :=
  fill 256 (leBytes 4 0x504D5544 ++ leBytes 2 1 ++ leBytes 1 writer ++ leBytes 1 cause ++ leBytes 4 seq ++ leBytes 4 s.evr.boot
      ++ leBytes 8 cmp ++ leBytes 8 Config.serial ++ leBytes 4 (fwVersion (activeBank s)) ++ leBytes 8 s.fab.activeId ++ leBytes 2 10)
    ++ fill (4096 - 256 - 4) (ps.flatMap directoryEntry) ++ leBytes 4 validMark

/-- The ten parts of a dump or a summary, placed. -/
def dumpParts (summary : Bool) (writer n : Nat) (s : State) : List (DumpPart × Nat) :=
  placeParts 4096 ((List.range 10).map (fun k => partOfDump summary writer n (k + 1) s))

/-- Write the placed parts into a memory from `base` on. -/
def writeParts (base : Nat) (ps : List (DumpPart × Nat)) (m : Mem) : Mem :=
  ps.foldl (fun m p => Mem.writeBytes m (base + p.2) p.1.bytes) m

/-- Where a dump or summary ends (R448): what EVR_DUMP_COPY may read. -/
def dumpExtent (summary : Bool) (writer : Nat) : Nat :=
  (List.range 10).foldl (fun o k =>
    if partWritten summary writer (k + 1) then o + ceilDiv (partLen summary (k + 1)) 4096 * 4096 else o) 4096

/-- The dump region, 3,860 to 3,973 of its stack (R368). -/
def dumpBase (s : State) : Nat := dramAt s.dump.stack (3860 * regionBytes)

/-! ## The two writers (R445) -/

/-- The control cores copy the last-gasp bank into the mirror with the dump, when the mirror's MRAM still verifies (R443). -/
def mirrorBank (writer : Nat) (s : State) : State :=
  if writer = 0 && !s.evr.lg.isEmpty && !s.evr.mirrorBad then { s with evr := { s.evr with lgMirror := s.evr.lg } } else s

/-- DRAM_DUMP_DONE: steps 2 and 3. The summary of the same fatal error is then started. -/
def dramDoneDo (s : State) : State :=
  let d := s.dump
  if d.dramState ≠ 1 then s
  else
    let f := fresh s
    let ps := dumpParts false d.writer f.1 s
    let m := writeParts (dumpBase s) ps s.dram
    let m := Mem.writeBytes m (dumpBase s) (dumpHeader d.writer d.cause d.seq d.cmp ps s)
    let s := { f.2 with dram := m, dump := { d with
        dramState := 2, flashState := if d.summaryDue then 1 else d.flashState, summaryDue := false } }
    settlePark (pfVector 0 (noteDump (mirrorBank d.writer s)))

def execDramDumpDone (s : State) : Outcome := onWf .dramDumpDone (dramDoneDo s)

/-- FLASH_SUMMARY_DONE: step 4. PF0 vector 0 is raised here when no DRAM dump was written. -/
def flashDoneDo (s : State) : State :=
  let d := s.dump
  if d.flashState ≠ 1 then s
  else
    let f := fresh s
    let ps := dumpParts true d.flashWriter f.1 s
    let m := writeParts 0 ps []
    let m := Mem.writeBytes m 0 (dumpHeader d.flashWriter d.flashCause d.flashSeq d.flashCmp ps s)
    let s := noteDump { f.2 with dump := { d with flashState := 2, flash := m, liveSummary := false } }
    settlePark (if d.liveSummary then pfVector 0 (mirrorBank d.flashWriter s) else s)

def execFlashSummaryDone (s : State) : Outcome := onWf .flashSummaryDone (flashDoneDo s)

/-! ## A reset stops the writer (R445, R454) -/

/-- The parts' bytes as far as the stopped writer has come, a free length: its header is not written. -/
def stoppedParts (base len : Nat) (ps : List (DumpPart × Nat)) (m : Mem) : Mem :=
  ps.foldl (fun m p => Mem.writeBytes m (base + p.2) (p.1.bytes.take (len - p.2))) m

/-- A place whose writing has not ended reads PARTIAL. A summary that has not begun is not written. -/
def stopDumps (s : State) : State :=
  let d := s.dump
  let s := if d.dramState ≠ 1 then s else
    let f := fresh s
    let len := Config.free f.1 % (dumpExtent false d.writer + 1)
    { f.2 with dram := stoppedParts (dumpBase s) len (dumpParts false d.writer f.1 s) s.dram,
               dump := { d with dramState := 3 } }
  let s := if d.flashState ≠ 1 then s else
    let f := fresh s
    let len := Config.free f.1 % (dumpExtent true d.flashWriter + 1)
    { f.2 with dump := { f.2.dump with flashState := 3,
                                       flash := stoppedParts 0 len (dumpParts true d.flashWriter f.1 s) [] } }
  noteDump { s with dump := { s.dump with summaryDue := false, liveSummary := false } }

end Sys2Proof.Machine
end

