-- ==== Sys2Proof/Machine/Enrol.lean ====
section
/-! DEFINITION. FAB_ENROLL_KEY (R70, R84, R156). -/

namespace Sys2Proof.Machine

/-- The payload of an enrolment token has the form of R70 and names the command's slot. -/
def enrolFine (t : List Byte) (slot : Nat) : Bool :=
  let p := tokPayload t
  tokPayloadLen t == 52 && (slice p 1 3).all (· == 0) && decide (1 ≤ byteAt p 0) && decide (byteAt p 0 ≤ 4) && byteAt p 0 == slot

/-- FAB_ENROLL_KEY, from PF0 only. -/
def enrolBody (r : Req) (s : State) : Answer :=
  let t := hostBytes (df r.w1 63 0) (df r.w1 95 80) s
  let slot := df r.w1 66 64
  let no := fun (st reason : Nat) => fabRefuse st reason 0xB4 slot 0xFF s
  if !r.owner then answer s (refuse stRefused 0)
  else if !tokenOk t s || tokPurpose t != 3 then no stRefused fabTokenInvalid
  else if !enrolFine t slot then no stNotStarted fabFormat
  else if (s.fab.ownerKeys.find? slot).isSome then no stRefused fabSlotUsed
  else
    let s := consumeToken { s with fab := { s.fab with ownerKeys := s.fab.ownerKeys.set slot (slice (tokPayload t) 4 48) } }
    answer (evrWrite Config.enrolCode 0 208 (Config.enrolPayload slot) s).1 (okWith 0)

def execFabEnrollKey (src : CmdSrc) (s : State) : Outcome := onWf (.fabEnrollKey src) (command 0xB4 enrolBody src s)

end Sys2Proof.Machine
end

