-- ==== Sys2Proof/Machine/RecorderRows.lean ====
section
/-! DEFINITION. The recorder's commands and registers: EVR_READ, EVR_WRITE, EVR_CLEAR, EVR_DUMP_COPY, EVR_DUMP_RELEASE, PHASE and
LAST_GASP_CLEAR (R437, R438, R441, R443, R446, R452, R453). -/

namespace Sys2Proof.Machine

/-- A command that needs a bit of the recorder's table (R452). -/
def evrNeeds (bit : Nat) (body : Req → State → Answer) (r : Req) (s : State) : Answer :=
  let g := accCheck tgRecorder 0 r.master bit s
  if g.1 then body r g.2 else answer g.2 (refuse stRefused 0)

/-! ## EVR_READ -/

/-- The slots of the current epoch whose records are still held, in SEQ order (R437). -/
def heldSlots (n : Nat) : List Nat :=
  ((List.range n).filter (fun m => decide (m < 4096) || decide (n ≤ m + 65536))).map slotOf

/-- The record's SEQ lies at or after `from_`; sequence numbers compare modulo 2^32 (R433). -/
def seqAtOrAfter (seq from_ : Nat) : Bool := decide ((seq + 2 ^ 32 - from_) % 2 ^ 32 < 2 ^ 31)

def heldRecords (s : State) : List Record := (heldSlots s.evr.n).map (fun k => s.evr.slots.get k {})

/-- EVR_READ: records in SEQ order to host memory; torn ones as they lie, each found one counted. -/
def evrReadBody (r : Req) (s : State) : Answer :=
  let mirror := bitOf r.w1 63
  let n := df r.w1 44 32
  if !mirror && (n == 0 || decide (4096 < n)) then badParam s
  else
    let held := heldRecords s
    let top := (held.getLast?.map (·.seq)).getD 0
    let found : List Record :=
      if mirror then (s.evr.lgMirror ++ List.replicate (16 - s.evr.lgMirror.length) ({} : Record)).take 16
      else (held.filter (fun x => seqAtOrAfter x.seq (df r.w1 31 0))).take n
    let torn := if mirror then 0 else (found.filter (fun x => !recGood x)).length
    let s := if torn = 0 then s else count evrTornOff torn s
    answer (hostPut (df r.w2 63 0) (found.flatMap recBytes) s) (okWith (packNat [(8, 24, found.length), (32, 32, top)]))

def execEvrRead (src : CmdSrc) (s : State) : Outcome :=
  onWf (.evrRead src) (command 0xD0 (evrNeeds bitRead (strictly ([(44, 0), (63, 63)], [(63, 0)], []) evrReadBody)) src s)

/-! ## EVR_WRITE and EVR_CLEAR -/

def evrWriteBody (r : Req) (s : State) : Answer :=
  let code := df r.w1 15 0
  let pl := leBytes 16 r.w2.toNat ++ leBytes 16 r.w3.toNat
  let fine := if r.fw then decide (0x8000 ≤ code) && decide (code ≤ 0xBFFF) else decide (0xC000 ≤ code)
  if !fine then badParam s
  else if (crc32c (leBytes 2 code ++ pl)).toNat ≠ df r.w1 63 32 then answer s (refuse stNotStarted 0x02)
  else if s.evr.failed then answer s (refuse stNotStarted 0x05)
  else
    let w := evrWrite code (if r.fw then 1 else 2) r.master pl s
    answer w.1 (okWith (w.2.getD 0 * 256))

def execEvrWrite (src : CmdSrc) (s : State) : Outcome :=
  onWf (.evrWrite src) (command 0xD1 (evrNeeds bitWrite (strictly ([(15, 0), (63, 32)], [(127, 0)], [(127, 0)]) evrWriteBody)) src s)

/-- The clear at the recorder's arbiter (R441): CLEAR_SEQ takes the next SEQ, and the CLEARED record is count 0. -/
def clearRecorder (reason : Nat) (s : State) : State :=
  let e := s.evr
  record 1 [(4, e.clearSeq), (4, (e.nextSeq + 2 ^ 32 - 1) % 2 ^ 32), (8, e.n), (4, reason)]
    { s with evr := { e with clearSeq := e.nextSeq, n := 0 } }

def evrClearBody (r : Req) (s : State) : Answer :=
  let t := hostBytes (df r.w1 63 0) (df r.w1 79 64) s
  if !(tokPurpose t == 2 && tokPayloadLen t == 4 && tokenOk t s) then answer s (refuse stRefused 0x03)
  else if s.evr.failed then answer s (refuse stNotStarted 0x05)
  else answer (clearRecorder (leNat (tokPayload t)) (consumeToken s)) (okWith 0)

def execEvrClear (src : CmdSrc) (s : State) : Outcome :=
  onWf (.evrClear src) (command 0xD2 (evrNeeds bitControl (strictly ([(79, 0)], [], []) evrClearBody)) src s)

/-! ## The dump commands: PF0 and firmware only -/

def ownerOnly (body : Req → State → Answer) (r : Req) (s : State) : Answer :=
  if r.owner then body r s else answer s (refuse stRefused 0)

/-- State, writer and bytes of the DRAM place or of the flash slot. -/
def placeState (flash : Bool) (s : State) : Nat := if flash then s.dump.flashState else s.dump.dramState

def dumpCopyBody (r : Req) (s : State) : Answer :=
  let flash := bitOf r.w3 0
  let off := df r.w2 31 0
  let len := df r.w2 63 32
  let writer := if flash then s.dump.flashWriter else s.dump.writer
  if off % 4096 ≠ 0 then badParam s
  else if placeState flash s = 1 then answer s (refuse stNotStarted 0x06)
  else if placeState flash s = 0 ∨ dumpExtent flash writer < off + len then answer s (refuse stNotStarted 0x04)
  else
    let bs := if flash then Mem.readBytes s.dump.flash off len else Mem.readBytes s.dram (dumpBase s + off) len
    answer (hostPut (df r.w1 63 0) bs s) (okWith 0)

def execEvrDumpCopy (src : CmdSrc) (s : State) : Outcome :=
  onWf (.evrDumpCopy src) (command 0xD3 (ownerOnly (strictly ([(63, 0)], [(63, 0)], [(0, 0)]) dumpCopyBody)) src s)

/-- EVR_DUMP_RELEASE empties the places it names; one that is being written, or is EMPTY, refuses it whole (R453). -/
def dumpReleaseBody (r : Req) (s : State) : Answer :=
  let named := (if bitOf r.w1 0 then [false] else []) ++ (if bitOf r.w1 1 then [true] else [])
  if named.any (fun f => placeState f s == 1) then answer s (refuse stNotStarted 0x06)
  else if named.any (fun f => placeState f s == 0) then answer s (refuse stNotStarted 0x04)
  else
    let d := s.dump
    let d := if named.contains false then { d with dramState := 0, seq := 0, cause := 0, writer := 0 } else d
    let d := if named.contains true then { d with flashState := 0, flash := [] } else d
    answer (noteDump { s with dump := d }) (okWith 0)

def execEvrDumpRelease (src : CmdSrc) (s : State) : Outcome :=
  onWf (.evrDumpRelease src) (command 0xD4 (ownerOnly (strictly ([(1, 0)], [], []) dumpReleaseBody)) src s)

/-! ## EVR_PHASE and EVR_LG_CTRL -/

/-- Writes of 1 and 2 act (R438). -/
def phaseDo (w : Word64) (s : State) : State := if fld w 1 0 = 1 ∨ fld w 1 0 = 2 then setPhase (fld w 1 0) s else s

def execPhase (who : Nat) (v : BitVec 64) (s : State) : Outcome := onWf (.phase who v) (gated who 0x400008 (phaseDo v) s)

/-- CLEAR empties the last-gasp bank (R454). -/
def lastGaspClearDo (w : Word64) (s : State) : State :=
  if bitOf w 0 then { s with evr := { s.evr with lg := [] } } else s

def execLastGaspClear (who : Nat) (v : BitVec 64) (s : State) : Outcome :=
  onWf (.lastGaspClear who v) (gated who 0x400800 (lastGaspClearDo v) s)

end Sys2Proof.Machine
end

