-- ==== Sys2Proof/Machine/Firmware.lean ====
section
/-! DEFINITION. A firmware start: the settings that it applies, and the fall-back to the previous bank (R466-R469). -/

namespace Sys2Proof.Machine

/-! ## Settings in force -/

/-- CBL_PWR of a connector is on: its ENABLE bit is 1 and a cable is present (R480). -/
def cblOn (n : Nat) (s : State) : Bool := s.body.cblEnable.testBit n && s.body.cblPresent.testBit n

/-- A connector whose output is off is not limited. -/
def settleCbl (s : State) : State :=
  let still := (List.range 16).filter (fun n => s.body.cblFault.testBit n && cblOn n s)
  { s with body := { s.body with cblFault := still.foldl (fun m n => m + 2 ^ n) 0 } }

def setCblEnable (v : Nat) (s : State) : State := settleCbl { s with body := { s.body with cblEnable := v } }

/-- `LANE_TM_CFG` of a group (R352). -/
def setLaneTm (g : Nat) (w : Word64) (s : State) : State :=
  setGroupCfg g { groupCfg g s with idleMs := fld w 41 28, dozeUs := fld w 25 16, sleep := bitOf w 0 } s

def defaultGroup : Word64 × Word64 := (laneGroupWord {}, laneTmWord {})

/-- The firmware writes a group's configuration where it differs, under the rule of R326. -/
def applyLaneGroup (b : SettingsBody) (s : State) (g : Nat) : State :=
  let w := b.laneGroups.get g defaultGroup
  let s := setLaneTm g w.2 s
  if laneGroupWord (groupCfg g s) = w.1 then s
  else if groupNamed g s then
    pfVector 4 { s with lanes := { s.lanes with cfgErr := s.lanes.cfgErr.set (g / 4) 1 } }
  else applyGroup g w.1 s

/-- Settings that take effect at a warm start: the hash masks stay, since no stack is in INIT (R371). -/
def applySettings (b : SettingsBody) (s : State) : State :=
  let s := setCblEnable b.cblEnable { s with fab := { s.fab with bootOrder := b.bootOrder } }
  let s := (List.range 16).foldl (applyLaneGroup b) s
  domCfgSet b.domCfg s

/-! ## The settings that a bank starts with -/

/-- A copy that the running firmware can read (R468). -/
def copyReadable (b : Bank) (c : SettingsCopy) : Bool :=
  c.crcOk && decide (fwMinSettings b ≤ c.version) && decide (c.version ≤ fwSettings b)

/-- The settings of the running bank: its own copy, or the reset values where that is unreadable, which a record says (R469). -/
def readSettings (s : State) : SettingsBody × State :=
  let b := activeBank s
  let c := copyOf b.ownsCopy s
  if copyReadable b c then (c.body, s)
  else ({}, record 0x0F05 [(2, if c.crcOk then c.version else 0), (2, fwMinSettings b), (2, fwSettings b)]
              { s with upd := { s.upd with unreadable := true } })

/-! ## Fall-back (R466) -/

/-- The bank on trial is REJECTED, its migrated copy is discarded, and the other bank is active. -/
def switchBack (reason : Nat) (s : State) : State :=
  let t := s.upd.active
  let b := bankOfIdx t s
  let s := if s.upd.unreadable then s else setCopy b.ownsCopy {} s
  let s := setBank t { b with state := 5 } s
  record 0x0F04 [(1, reason)] { s with upd := { s.upd with
    active := 1 - t, pending := false, activateAt := 0, healthEnd := 0, fallbackAt := 0, trialOver := false, ownerFall := false,
    unreadable := false } }

/-- The previous firmware starts with its own copy. -/
def fallBack (reason : Nat) (s : State) : State :=
  let r := readSettings (switchBack reason s)
  applySettings r.1 r.2

/-- REASON of a fall-back whose instant has come. -/
def fallReason (s : State) : Nat :=
  if s.upd.ownerFall then 4 else if s.upd.unreadable then 2 else if s.upd.trialOver then 3 else 1

end Sys2Proof.Machine
end

