-- ==== Sys2Proof/Machine/Resets.lean ====
section
/-! DEFINITION. Warm and cold reset, the cold boot, the end of Safe Hold, and the recovery load (R489-R492). -/

namespace Sys2Proof.Machine

/-! ## Warm reset -/

/-- The ready lists are emptied, with a record of the count (R416). -/
def loseReady (s : State) : State :=
  let n := s.disp.ready.length
  let s := s.disp.ready.foldl (fun s w => if handleIdx w.handle = 0 then s else releaseId .work (handleIdx w.handle) s) s
  record 0x0D02 [(4, n)] { s with disp := { s.disp with ready := [], hbDue := none, hbWatch := none } }

/-- A running item stops with its core; `DISP_CORE_ITEM` and `DISP_CORE_START` keep their values (R416). -/
def stopCore (s : State) (c : Nat) : State :=
  let k := coreOf c s
  match k.running with
  | none => s
  | some w =>
    let s := setCore c { k with running := none } s
    if handleIdx w.handle = 0 then s else itemEnded w s

/-- A load in progress is interrupted: the groups and the partitions that it reloads read FAILED (R451). -/
def interruptLoad (s : State) : State :=
  match s.fab.load with
  | none => s
  | some l =>
    let mask := loadMask l s
    { s with fab := { s.fab with
        load := none,
        groups := s.fab.groups.mapVals (fun g v => if mask.testBit g && v.role != 0 then { v with state := 3 } else v),
        parts := s.fab.parts.mapVals (fun p v => if loadPicks l p then { v with state := 3, closed := true } else v) } }

/-- The counters whose chapters do not say that a warm reset clears them: those of the dispatcher, the supply and the fabric. -/
def warmKeeps (off : Nat) : Bool := off == 0xE00020 || off == 0x8020 || (decide (0x100800 ≤ off) && decide (off ≤ 0x100820))

/-- Counters, held low halves and latches (R17). -/
def warmClear (s : State) : State :=
  { s with ctr := s.ctr.filterVals (fun k _ => warmKeeps k), lowHeld := Tab.empty, latch := Tab.empty,
           media := { s.media with transitMax := Tab.empty },
           dsp := { s.dsp with cores := s.dsp.cores.mapVals (fun _ c => { c with blockMiss := 0, mailDrop := 0 }) },
           acc := { s.acc with refusals := s.acc.refusals.mapVals (fun _ r => { r with count := 0 }) } }

/-- Identifiers and queues in quarantine serve their full period again: the one that applied at their release, since a new value
of `BODY_QUARANTINE` applies to later releases only (R9, R11). -/
def warmQuarantine (s : State) : State :=
  let now := nowNs s
  let again := fun (t ms : Nat) => if now < t then now + ms * 1000000 else t
  { s with ids := s.ids.mapVals (fun _ d => { d with quarUntil := again d.quarUntil d.quarMs }),
           hq := s.hq.mapVals (fun _ u => { u with quarUntil := again u.quarUntil u.quarMs }) }

/-- Releases and saves that waited are not run again; a slot's zeroing goes on (R405, R451). -/
def dropWaits (s : State) : State :=
  { s with fwOps := [],
           media := { s.media with subs := s.media.subs.mapVals (fun _ v => { v with releasing := none }) },
           keys := { s.keys with slots := s.keys.slots.mapVals (fun _ v => { v with save := none, erasers := [], releasing := false }) } }

/-- An enabled output starts again with a new channel-status block; one whose bus is parked stays parked, and one whose line is
SHORT trips (R312, R319, R324). -/
def restartAes (s : State) : State :=
  let s := { s with aes := { s.aes with outs := s.aes.outs.mapVals (fun o v =>
      if !v.enable || v.state == 3 then v
      else if (s.audio.buses.get o {}).parked then { v with state := 2 }
      else { v with state := 1, frame := 0, csa := csSent v.rate v.cs }) } }
  ((s.aes.outs.toList.filter (fun c => c.2.state == 1 && c.2.sense.line == 3)).map (·.1)).foldl (fun s o => tripOut o s) s

/-- HOLD_DOWN of lanes and links and PARK of stacks are cleared; lanes that were held, or idle in Safe Hold, train again (R34, R352,
R387). -/
def warmControls (wasHold : Bool) (s : State) : State :=
  let s := (List.range 10).foldl (fun s n =>
    if (linkOf n s).holdDown then letGo n s else s) s
  let s := (List.range 128).foldl (fun s l =>
    let v := laneOf l s
    if v.holdDown || wasHold then
      let s := updLane l (fun v => { v with holdDown := false }) s
      if wasHold || v.state == 4 then beginTraining l s else s
    else s) s
  { s with dramStacks := s.dramStacks.mapVals (fun _ u => { u with park := false }) }

/-- What every warm reset does, `last` being LAST_WARM. -/
def warmCore (last : Nat) (wasHold : Bool) (s : State) : State :=
  let s := loseReady (setPhase 3 (stopDumps s))
  let s := haltQueues ((List.range 64).foldl stopCore s)
  let s := interruptLoad (endAllWork (dropWaits s))
  let s := warmControls wasHold (restartAes (warmClear s))
  let s := { s with body := { s.body with warmCount := satAdd 32 s.body.warmCount 1, lastWarm := last } }
  postHeartbeat (warmQuarantine s)

/-- A warm reset. One that finds a trial ended by a fatal error or a watchdog starts the previous bank (R466). -/
def warmReset (last : Nat) (wasHold : Bool) (s : State) : State :=
  let exceeds := trialRunning s && s.upd.trialOver
  let s := warmCore last wasHold s
  if exceeds then fallBack 3 s else s

/-- WARM in `BODY_RESET`: from PF0 only, ignored in Safe Hold (R490, R497). -/
def warmDo (who : Nat) (s : State) : State := if who = 0 ∧ !s.body.hold ∧ s.body.booted then warmReset 1 false s else s

def execWarmWrite (who : Nat) (s : State) : Outcome := onWf (.warmWrite who) (gated who 0x3020 (warmDo who) s)

/-! ## The end of Safe Hold (R486, R489) -/

/-- Every cause in CAUSES is SUPPLY or CASE_TEMP, and its exit condition holds. -/
def exitAllowed (s : State) : Bool :=
  let c := s.body.causes
  let supply := !c.testBit 0 || (s.body.outSince.isNone && decide (s.body.inSince + 1000000000 ≤ nowNs s))
  let heat := !c.testBit 1 || decide (s.power.caseC < 100)
  decide (c < 4) && supply && heat

/-- The entry of a source (1), leg (2), subscription (3) or key slot (4) lies in a segment that was not kept (R161, R368, R380). -/
def segmentLost (kind idx : Nat) (s : State) : Bool :=
  let home := if kind = 4 then idx % 8 * 8 + 7 else Config.entryHome kind idx
  let u := stackOf (home / 8) s
  (u.lost ||| u.gone).testBit (home % 8)

/-- End the lost entries of one kind as a release ends them, with a record of their number. -/
def endLost (kind : Nat) (all : List Nat) (f : Nat → State → State) (s : State) : State :=
  let gone := all.filter (fun i => segmentLost kind i s)
  if gone.isEmpty then s else record 0x1006 [(1, kind), (4, gone.length)] (gone.foldl (fun s i => f i s) s)

/-- A slot whose record is lost is released: an EMPTY one at once, another once it is erased (R160). -/
def dropSlot (k : Nat) (s : State) : State :=
  if (slotAt k s).state = 1 then freeSlotNow k s else setErasing k (updSlot k (fun v => { v with releasing := true }) s)

/-- Subscriptions and legs end before the sources and the slots that they name. The counts are those of the entries lost. -/
def loseSegments (s : State) : State :=
  let used := fun (f : State → State) (chk : State → Bool) (s : State) => if chk s then f s else s
  let s := endLost 3 ((subList s).map (·.1)) (fun i => used (closeSub i) (fun s => (identOf .sub i s).used)) s
  let s := endLost 2 ((legList s).map (·.1)) (fun i => used (closeLeg i) (fun s => (identOf .leg i s).used)) s
  let s := endLost 1 ((sourceList s).map (·.1)) removeSource s
  endLost 4 ((s.keys.slots.toList.filter (fun c => c.2.state != 0)).map (·.1)) dropSlot s

/-- EXIT in `BODY_SAFE_HOLD`. -/
def exitDo (who : Nat) (s : State) : State :=
  if who = 0 ∧ s.body.hold ∧ exitAllowed s then
    let s := record 0x1003 [(1, s.body.causes)] s
    let s := { s with body := { s.body with hold := false, causes := 0, firstCause := 0, parkDue := false } }
    let s := loseSegments (warmReset 4 true s)
    { s with dramStacks := s.dramStacks.mapVals (fun _ u => { u with gone := 0 }) }
  else s

def execExitSafeHold (who : Nat) (s : State) : Outcome := onWf (.exitSafeHold who) (gated who 0x3018 (exitDo who) s)

/-! ## Cold reset (R490) -/

/-- A stack after a cold reset: in INIT, with the retirements of its journal, and its poison while its contents are kept (R376). -/
def coldStack (kept : Bool) (u : Stack) : Stack :=
  { sparesUsed := u.sparesUsed, retired := u.retired, poison := if kept then u.poison else [] }

/-- Bytes that self-refresh keeps: a segment given up at a park is lost (R380). -/
def keptDram (s : State) : Mem := s.dramStacks.toList.foldl (fun m c => zeroSegments c.1 c.2.lost m) s.dram

/-- The recorder: its MRAM stays, the last-gasp bank is lost, and RECORDER_FAILED is looked at again (R436, R443). -/
def coldEvr (e : Evr) : Evr :=
  { nextSeq := e.nextSeq, clearSeq := e.clearSeq, n := e.n, boot := e.boot, slots := e.slots, lgMirror := e.lgMirror,
    badSlots := e.badSlots, mirrorBad := e.mirrorBad, failed := e.failed && e.badSlots.contains (slotOf e.n),
    last := match e.last with | some (k, c, o) => if k < 200000 then some (k, c, o) else none | none => none }

/-- The key store: the fuses, the KEK table and the counters that number values stay; DEBUG_ENABLED ends, and its KEKs are erased
(R155, R160, R172, R173). -/
def coldKeys (k : Keys) : Keys :=
  { life := if k.life = 2 then 1 else k.life, rootKey := k.rootKey, ownerHash := k.ownerHash, challenges := k.challenges + 1,
    ctxNext := k.ctxReserved, ctxReserved := k.ctxReserved, keks := if k.life = 2 then Tab.empty else k.keks, loads := k.loads,
    memKeyNo := k.memKeyNo + 1 }

/-- A cold reset with COLD_CAUSE `cause`; `kept` says that the stacks keep their contents in self-refresh. What is not named here
takes its reset value. The world outside stays as it is: the supply, the cables, host memory. -/
def coldReset (cause : Nat) (kept : Bool) (s : State) : State :=
  let s := stopDumps s
  let b := s.body
  { State.reset with
    pending := s.pending, res := s.res, free := s.free, nextOp := s.nextOp, out := s.out, readData := s.readData, burst := s.burst,
    burstPoison := s.burstPoison, hostMem := s.hostMem, fwDone := s.fwDone,
    dram := if kept then keptDram s else [], dramStacks := s.dramStacks.mapVals (fun _ u => coldStack kept u),
    evr := coldEvr s.evr, dump := { s.dump with dramState := if kept then s.dump.dramState else 0 }, keys := coldKeys s.keys,
    upd := { s.upd with unreadable := false },
    fab := { bootOrder := s.fab.bootOrder, store := s.fab.store, readBad := s.fab.readBad, ownerKeys := s.fab.ownerKeys },
    body := { powered := b.powered, inputCv := b.inputCv, inputCa := b.inputCa, band := b.band, pg := b.pg, outSince := b.outSince,
              extremeCv := b.extremeCv, rideDone := b.rideDone, inSince := b.inSince, cblPresent := b.cblPresent, cblEnable := b.cblEnable,
              coldCause := cause } }

/-- PERST# and SERVICE_RESET# act on a module that is powered. -/
def execPerst (s : State) : Outcome := onWf .perst (doIf s.body.powered (coldReset 4 true) s)
def execServiceReset (s : State) : Outcome := onWf .serviceReset (doIf s.body.powered (coldReset 6 true) s)

/-- COLD in `BODY_RESET`: from PF0 only. -/
def coldDo (who : Nat) (s : State) : State := if who = 0 ∧ s.body.powered then coldReset 5 true s else s

def execColdWrite (who : Nat) (s : State) : Outcome := onWf (.coldWrite who) (gated who 0x3020 (coldDo who) s)

/-! ## Cold boot (R491) -/

/-- Step 1: the input has passed 40 V. -/
def bootSupply (s : State) : State :=
  let b := s.body
  { s with body := { b with
      powered := true, pg := true, inputCv := max b.inputCv 4000, band := if b.inputCv < 4000 then 0 else b.band,
      inSince := if b.inputCv < 4000 then nowNs s else b.inSince, outSince := if b.inputCv < 4000 then none else b.outSince } }

/-- Step 2: the die links train (R26). -/
def bootLinks (s : State) : State :=
  (List.range 10).foldl (fun s n => updLink n (fun l => { l with state := 2, via := 0 }) s) s

/-- R456: check bank `b`; one that fails is REJECTED, with a record. -/
def tryBank (b : Nat) (s : State) : Bool × State :=
  match bankCheck (bankOfIdx b s) s.upd.floor with
  | none => (true, { s with upd := { s.upd with active := b } })
  | some c => (false, record 0x0F06 [(1, b), (1, c)] (setBank b { bankOfIdx b s with state := 5 } s))

/-- Step 3: a trial that a cold boot meets has ended (R466); the active bank is tried, then the other. -/
def bootBanks (s : State) : Bool × State :=
  let s := if trialRunning s then switchBack (if s.upd.unreadable then 2 else 3) s else s
  let first := s.upd.active
  let r := tryBank first s
  if r.1 then r else tryBank (1 - first) r.2

/-- Step 4 for one stack: its hash masks from the settings, then RUN; one whose PHY does not train is FAILED (R371, R377). -/
def bootStack (bad : List Nat) (b : SettingsBody) (s : State) (k : Nat) : State :=
  if bad.contains k then failStack k s
  else
    let s := b.hash.toList.foldl (fun s c =>
      if c.1 / 16 = k then memHashDo k (decide (6 ≤ c.1 % 16)) (if c.1 % 16 < 6 then c.1 % 16 else c.1 % 16 - 6) (BitVec.ofNat 64 c.2) s else s) s
    runDo k s

/-- Where the dump region lies, and a VALID dump whose header no longer verifies reads PARTIAL (R368, R454). -/
def bootDump (bad : List Nat) (s : State) : State :=
  let s := { s with dump := { s.dump with stack := if bad.contains 3 then 5 else 3 } }
  if s.dump.dramState = 2 ∧ leNat (Mem.readBytes s.dram (dumpBase s + 4092) 4) ≠ validMark then
    { s with dump := { s.dump with dramState := 3 } }
  else s

/-- Step 6 for one lane group: its configuration, its PLL locked, its lanes in training. -/
def bootGroup (b : SettingsBody) (s : State) (g : Nat) : State :=
  let w := b.laneGroups.get g defaultGroup
  let s := setLaneTm g w.2 s
  if fld w.1 1 0 = 0 then setGroupCfg g { groupCfg g s with width := fld w.1 5 4, medium := fld w.1 8 8 } s
  else pllLockDo g (applyGroup g w.1 s)

/-- Steps 4 to 7, once a bank has passed. -/
def bootFirmware (badTiles badStacks : List Nat) (s : State) : State :=
  let r := readSettings s
  let b := r.1
  let s := bootDump badStacks ((List.range 8).foldl (bootStack badStacks b) r.2)
  let s := { s with acc := { s.acc with booted := true }, body := { s.body with booted := true }, fab := { s.fab with bootOrder := b.bootOrder },
                    evr := { s.evr with boot := satAdd 32 s.evr.boot 1 } }
  let s := record 9 [(1, s.upd.active), (4, fwVersion (activeBank s)), (4, s.body.warmCount)] (setCblEnable b.cblEnable s)
  let s := (List.range 16).foldl (bootGroup b) (postHeartbeat s)
  let s := setDomCfg b.domCfg (bootLoad badTiles s)
  if s.dom.enable then domStart s else s

/-- COLD_BOOT. With no bank that passes, the module enters Safe Hold, cause NO_FIRMWARE. -/
def coldBootDo (badTiles badStacks : List Nat) (s : State) : State :=
  if s.body.booted || s.body.hold then s
  else
    let r := bootBanks (bootLinks (bootSupply s))
    if r.1 then bootFirmware badTiles badStacks r.2 else enterSafeHold 5 r.2

def execColdBoot (badTiles badStacks : List Nat) (s : State) : Outcome :=
  onWf (.coldBoot badTiles badStacks) (coldBootDo badTiles badStacks s)

/-! ## Recovery (R492) -/

/-- The high half of `BODY_RECOVERY` is written: the image goes to bank A and is checked. -/
def recoveryDo (who : Nat) (v : Word64) (s : State) : State :=
  let l := takeLow 0x3030 who s
  let s := l.2
  if who ≠ 0 ∨ s.body.firstCause ≠ 5 then s
  else
    let len := fld v 63 32
    let bank := bankWith 2 (if len ≤ 100663296 then hostBytes l.1 len s else []) s.upd.bankA.ownsCopy
    match bankCheck bank s.upd.floor with
    | none => coldReset 7 true (record 0x1007 [(1, 0), (1, 0)] { s with upd := { s.upd with bankA := { bank with state := 4 }, active := 0 } })
    | some c => record 0x1007 [(1, 1), (1, c)] (setBank 0 { bank with state := 5 } s)

def execRecoveryLoad (who : Nat) (v : BitVec 64) (s : State) : Outcome :=
  onWf (.recoveryLoad who v) (gated who 0x3038 (recoveryDo who v) s)

end Sys2Proof.Machine
end

