-- ==== Sys2Proof/Machine/Resume.lean ====
section
/-! DEFINITION. RESUME in `HQ_CTRL` (R405, R451, R488). -/

namespace Sys2Proof.Machine

/-- The possibly partial command is an erase or a release of a slot whose zeroing has not ended (R451). -/
def eraseRuns (u : Queue) (s : State) : Bool :=
  match u.part with
  | none => false
  | some b =>
    (fld b.w0 7 0 == 0x66 || fld b.w0 7 0 == 0x67) && (slotAt (handleIdx (fld b.w1 63 0)) s).state == 3

/-- HALTED and PARTIAL_VALID clear together, and a possibly partial command counts as ended for LAST_DONE. -/
def Queue.resumed (u : Queue) : Queue :=
  let v := { u with halted := false, part := none }
  match u.part with
  | none => v
  | some b => v.markDone b.seq

/-- In Safe Hold only PF0's command queues resume. -/
def resumeDo (q : Nat) (s : State) : State :=
  let u := queueOf q s
  if !u.halted || eraseRuns u s || (s.body.hold && q / 128 != 0) then s else setQueue q u.resumed s

def execResume (who queue : Nat) (s : State) : Outcome :=
  onWf (.resume who queue) (controlled who queue 0x10 (resumeDo queue) s)

end Sys2Proof.Machine
end

