-- ==== Sys2Proof/Machine/RegWrite.lean ====
section
/-! DEFINITION. Writes through BAR0 and through the tenant windows: REGISTER_WRITE and WIDE_LOW_WRITE (R16-R19, R22, R498-R505).
A register that has a row of its own goes through that row's operation. -/

namespace Sys2Proof.Machine

def hold {α : Type} (lo hi v : Nat) (f : α → α) (x : α) : α := if lo ≤ v ∧ v ≤ hi then f x else x

/-- The bits of a W1C field that a write leaves (R18, R22). -/
def w1c (old clear : Nat) : Nat := old ^^^ (old &&& clear)
def w1cBit (old : Bool) (w : Word64) (i : Nat) : Bool := old && !bitOf w i

/-- A master's held low half of the wide register at `off` (R17). -/
def holdLow (off who : Nat) (w : Word64) (s : State) : State := { s with lowHeld := s.lowHeld.set (off * 256 + who) w.toNat }

/-! ## Body and PWR (R11, R34, R59, R497) -/

/-- `BODY_QUARANTINE` (R11). -/
def writeQuarantine (w : Word64) (s : State) : State :=
  hold 100 60000 (fld w 15 0) (fun s => { s with body := { s.body with quarantineMs := fld w 15 0 } }) s

/-- `BODY_DL_CTRL`: HOLD_DOWN outside DEBUG_ENABLED makes the whole write ignored (R34, R505). -/
def writeLinkCtrl (n : Nat) (w : Word64) (s : State) : State :=
  let on := bitOf w 1
  if on && s.keys.life != 2 then s
  else
    doIf (bitOf w 0) (retrainDo n) (holdDownDo n on s)

/-- `BODY_FAULT`, W1C. -/
def writeFault (w : Word64) (s : State) : State :=
  let b := s.body
  { s with body := { b with faultCase := w1cBit b.faultCase w 2, faultCbl := w1cBit b.faultCbl w 1, faultDip := w1cBit b.faultDip w 0 } }

/-- `BODY_RESET`: COLD, which leaves nothing for WARM to do. WARM in Safe Hold makes the whole write ignored (R505). -/
def writeReset (who : Nat) (w : Word64) (s : State) : State :=
  if bitOf w 0 && s.body.hold then s
  else if bitOf w 1 then coldDo who s else doIf (bitOf w 0) (warmDo who) s

def writeSupply (who off : Nat) (w : Word64) (s : State) : State :=
  if off = 0x3008 then writeFault w s
  else if off = 0x3010 then saving (setCblEnable (fld w 15 0)) s
  else if off = 0x3018 then doIf (bitOf w 1) (exitDo who) s
  else if off = 0x3020 then writeReset who w s
  else if off = 0x3030 then holdLow off who w s
  else if off = 0x3038 then recoveryDo who w s
  else s

def writeBody (who off : Nat) (w : Word64) (s : State) : State :=
  if off = 0x120 then writeQuarantine w s
  else if off = 0x2000 then domCfgDo w s
  else if 0x3000 ≤ off then writeSupply who off w s
  else match entryAt off 0x1000 0x80 10 with
    | some (n, r) => doIf (r == 8) (writeLinkCtrl n w) s
    | none => s

/-- `PWR_EVENT`: LIMIT_UNMET is read-only. -/
def writePwrEvent (w : Word64) (s : State) : State :=
  let p := s.power
  { s with power := { p with evSlack := w1cBit p.evSlack w 3, evLimitBind := w1cBit p.evLimitBind w 1,
                             evCapDrop := w1cBit p.evCapDrop w 0 } }

def writePwr (off : Nat) (w : Word64) (s : State) : State :=
  if off = 0x8000 then postureDo w s
  else if off = 0x8008 then hold 400 1300 (fld w 15 0) (fun s => { s with power := { s.power with limitW := fld w 15 0 } }) s
  else if off = 0x8018 then writePwrEvent w s
  else s

/-! ## DISP and HQ (R415, R416) -/

def writeDisp (off : Nat) (w : Word64) (s : State) : State :=
  if off = 0x100000 then
    hold 10 10000 (fld w 31 16) (fun s => { s with disp := { s.disp with watchdogMs := fld w 31 16 } }) s
  else if off = 0x100010 then
    let d := s.disp
    { s with disp := { d with evWatchdog := w1cBit d.evWatchdog w 1, evFull := w1cBit d.evFull w 0 } }
  else match entryAt off 0x100108 8 14 with
    | some (t, _) => { s with disp := { s.disp with prio := s.disp.prio.set (t + 1) (fld w 3 0) } }
    | none => s

/-- `HQ_CTRL`: RESUME, then ARM, then FLUSH with its HARD_MS. -/
def hqCtrlDo (q : Nat) (w : Word64) (s : State) : State :=
  doIf (bitOf w 0) (flushDo q (fld w 31 16)) (doIf (bitOf w 2) (armDo q) (doIf (bitOf w 3) (resumeDo q) s))

/-- Vectors that serve the queues of a function (R414). -/
def queueVector (f v : Nat) : Bool := if f = 0 then decide (16 ≤ v) && decide (v < 512) else decide (v < 24)

/-- `HQ_IRQ`: a COUNT of 0 makes the write ignored; so does a VECTOR that serves no queue, which sets CFG_ERR. -/
def hqIrqDo (q : Nat) (w : Word64) (s : State) : State :=
  if !queueVector (q / 128) (fld w 8 0) then cfgError q s
  else if fld w 31 16 = 0 then s
  else queueIrq q (updQueue q (fun u =>
    { u with timeUs := fld w 47 32, count := fld w 31 16, irqEn := bitOf w 15, vector := fld w 8 0 }) s)

/-- `HQ_MIRROR_RING` and `HQ_MIRROR_INDEX` act while ENABLE is 0 (R415). -/
def hqRingDo (q : Nat) (w : Word64) (s : State) : State :=
  updQueue q (fun u =>
    if u.enable then u
    else hold 11 20 (fld w 4 0) (fun u => { u with ringAddr := fld w 63 12 * 4096, ringLog2 := fld w 4 0 }) u) s

def hqIndexDo (q : Nat) (w : Word64) (s : State) : State :=
  updQueue q (fun u => if u.enable then u else { u with indexAddr := fld w 63 3 * 8 }) s

/-- A write of an HQ register: the push halves, and the configuration, which needs Control (R393). -/
def writeHq (who q r : Nat) (w : Word64) (s : State) : State :=
  if r = 0 then controlled who q r (hqCfgDo q w) s
  else if r = 8 then controlled who q r (updQueue q (fun u => { u with cfgErr := w1cBit u.cfgErr w 8 })) s
  else if r = 0x10 then controlled who q r (hqCtrlDo q w) s
  else if r = 0x20 then gated who (hqOff q r) (holdLow (hqOff q r) who w) s
  else if r = 0x28 then hqPushDo who q w s
  else if r = 0x40 then controlled who q r (hqIrqDo q w) s
  else if r = 0x48 then controlled who q r (hqRingDo q w) s
  else if r = 0x50 then controlled who q r (hqIndexDo q w) s
  else if r = 0x58 then controlled who q r (mirrorConsDo q w) s
  else gated who (hqOff q r) id s

/-! ## EVR, TIME, AES, ACC, FAB (R86, R324, R366, R386, R440, R454) -/

/-- `EVR_RATE`: each bucket counts its refill so far at the old rate, and is cut to the new BURST (R440). -/
def evrRateDo (w : Word64) (s : State) : State :=
  let burst := fld w 31 16
  if burst = 0 ∨ fld w 15 0 = 0 then s
  else
    let cut := fun (code : Nat) (_ : Bucket) =>
      let b := bucketNow code s
      { b with tokens := min b.tokens (burst * 1000000000) }
    { s with evr := { s.evr with buckets := s.evr.buckets.mapVals cut, burst := burst, rate := fld w 15 0 } }

def writeEvr (off : Nat) (w : Word64) (s : State) : State :=
  if off = 0x400000 then { s with evr := { s.evr with lastGasp := w1cBit s.evr.lastGasp w 2 } }
  else if off = 0x400008 then phaseDo w s
  else if off = 0x400010 then evrRateDo w s
  else if off = 0x400800 then lastGaspClearDo w s
  else s

/-- `TIME_EVENT`, W1C. -/
def writeTimeEvent (w : Word64) (s : State) : State :=
  let t := s.time
  { s with time := { t with evPpsShort := w1cBit t.evPpsShort w 4, evPpsIn := w1cBit t.evPpsIn w 3, evStepped := w1cBit t.evStepped w 2,
                            evJump := w1cBit t.evJump w 1, evSlewDone := w1cBit t.evSlewDone w 0 } }

def writeTime (off : Nat) (w : Word64) (s : State) : State :=
  let ppb := ofTwos 32 (fld w 31 0)
  if off = 0x600018 then
    if -200000 ≤ ppb ∧ ppb ≤ 200000 then { s with time := { s.time with freqPpb := ppb } } else s
  else if off = 0x600020 then
    hold 10 1000000 (fld w 39 8) (hold 1 200 (fld w 7 0)
      (fun s => { s with time := { s.time with jumpUs := fld w 39 8, slewMaxPpm := fld w 7 0 } })) s
  else if off = 0x600030 then writeTimeEvent w s
  else if off = 0x600038 then
    hold 1 500 (fld w 31 16) (fun s => { s with time := { s.time with
      widthMs := fld w 31 16, inEdge := bitOf w 3, inEn := bitOf w 2, tenEn := bitOf w 1, outEn := bitOf w 0 } }) s
  else match entryAt off 0x600100 8 128 with
    | some (l, _) => { s with time := { s.time with
        rxTrim := s.time.rxTrim.set l (fld w 31 16), txTrim := s.time.txTrim.set l (fld w 15 0) } }
    | none => s

/-- `AES_EVENT`, W1C. -/
def writeAesEvent (w : Word64) (s : State) : State :=
  let a := s.aes
  { s with aes := { a with cfgErr := w1cBit a.cfgErr w 40, realign := w1c a.realign (fld w 39 32), outLine := w1c a.outLine (fld w 31 16),
                           inLine := w1c a.inLine (fld w 15 0) } }

def writeAes (off : Nat) (w : Word64) (s : State) : State :=
  if off = 0x701100 then writeAesEvent w s
  else match entryAt off 0x700000 0x80 16, entryAt off 0x700800 0x80 16, entryAt off 0x701000 0x20 8 with
    | some (i, r), _, _ => doIf (r == 0) (aesInCfgDo i w) s
    | _, some (o, r), _ =>
      if r = 0 then aesOutCfgDo o w s
      else if r = 0x10 ∨ r = 0x18 ∨ r = 0x20 then aesOutCsDo o ((r - 0x10) / 8) w s
      else s
    | _, _, some (g, r) => if r = 0 then aesGroupCfgDo g w s else doIf (r == 8) (aesMaskDo g w) s
    | _, _, _ => s

def writeAcc (who off : Nat) (w : Word64) (s : State) : State :=
  if off = 0x800000 then accWriteDo who w s else if off = 0x800010 then accQueryDo who w s else s

/-- `FAB_BOOT_ORDER` and `FAB_DRAIN_MS`: from PF0 only (R79). -/
def writeFab (who off : Nat) (w : Word64) (s : State) : State :=
  if who ≠ 0 then s
  else if off = 0xE00018 then saving (fun s => { s with fab := { s.fab with bootOrder := fld w 31 0 } }) s
  else if off = 0xE00028 then
    hold 100 60000 (fld w 15 0) (fun s => { s with fab := { s.fab with drainMs := fld w 15 0 } }) s
  else s

/-! ## Lanes (R352) -/

/-- `LANE_TM_CFG`. -/
def laneTmDo (g : Nat) (w : Word64) (s : State) : State :=
  hold 0 10000 (fld w 41 28) (hold 1 1000 (fld w 25 16) (saving (setLaneTm g w))) s

/-- `LANE_CTRL`. -/
def writeLaneCtrl (l : Nat) (w : Word64) (s : State) : State := doIf (bitOf w 0) (laneRetrainDo l) (laneHoldDo l (bitOf w 1) s)

def writeLane (l r : Nat) (w : Word64) (s : State) : State :=
  if r = 0x10 then writeLaneCtrl l w s
  else if r = 0x18 then laneTestDo l w s
  else if r = 0x28 then updLane l (fun v => { v with mac := some (fld w 47 0) }) s
  else s

def writeLanes (v o : Nat) (w : Word64) (s : State) : State :=
  if o = 0x3000 then
    { s with lanes := { s.lanes with
        cfgErr := s.lanes.cfgErr.upd v 0 (fun c => w1c c (fld w 32 32)), changed := s.lanes.changed.upd v 0 (fun c => w1c c (fld w 31 0)) } }
  else match entryAt o 0 0x40 4, entryAt o 0x1000 0x100 32 with
    | some (g, r), _ => if r = 0 then laneGroupDo (v * 4 + g) w s else doIf (r == 0x10) (laneTmDo (v * 4 + g) w) s
    | _, some (i, r) => writeLane (v * 32 + i) r w s
    | _, _ => s

/-! ## ING and LEG (R116, R147) -/

def updLaddr (v a : Nat) (f : LocalAddr → LocalAddr) (s : State) : State :=
  { s with media := { s.media with laddrs := s.media.laddrs.set (v * 256 + a) (f (laddrAt v a s)) } }

/-- `ING_EXC_RATE`: the bucket counts its refill so far, and is cut to the new BURST. -/
def excRateDo (v : Nat) (w : Word64) (s : State) : State :=
  let burst := fld w 31 16
  if burst = 0 ∨ fld w 15 0 = 0 then s
  else { s with media := { s.media with
    excBucket := s.media.excBucket.set v (min (excTokens v s) (burst * 1000000), nowNs s),
    excRate := s.media.excRate.set v (fld w 15 0, burst) } }

/-- `ING_POOL`: not above 48 GiB, nor below what is in use. -/
def ingPoolDo (v : Nat) (w : Word64) (s : State) : State :=
  let gib := fld w 15 0
  if 48 < gib ∨ gib * 1024 < ingPoolMib v s then s
  else { s with media := { s.media with poolGib := s.media.poolGib.set v gib } }

/-- Offset `off` of the owner view is `o` in the ING block of Wing `v`; the low half of an address is held for its master (R17). -/
def writeIng (who off v o : Nat) (w : Word64) (s : State) : State :=
  if o = 0x2000 then excRateDo v w s
  else if o = 0x2008 then ingPoolDo v w s
  else match entryAt o 0 0x10 256, entryAt o 0x1000 8 256, entryAt o 0x4000 8 4096 with
    | some (a, r), _, _ =>
      if r = 0 then holdLow off who w s
      else
        let l := takeLow (off - 8) who s
        updLaddr v a (fun d => { d with addr := w.toNat * 2 ^ 64 + l.1 }) l.2
    | _, some (a, _), _ => updLaddr v a (fun d => { d with owner := fld w 13 8, valid := bitOf w 0 }) s
    | _, _, some (n, _) => { s with media := { s.media with tmOwner := s.media.tmOwner.set (v * 4096 + n) (fld w 13 8, bitOf w 0) } }
    | _, _, _ => s

/-- `LEG_SPILL`: the bucket counts its refill so far, and is cut to the new depth. -/
def spillDo (v : Nat) (w : Word64) (s : State) : State :=
  let rate := fld w 15 0
  hold 8 46 (fld w 47 32) (hold 100 6350 rate (fun s => { s with media := { s.media with
    spillBucket := s.media.spillBucket.set v (min (spillTokens v s) (rate * 1000000), nowNs s),
    spillMark := s.media.spillMark.set v (fld w 47 32), spillRate := s.media.spillRate.set v rate } })) s

def writeLeg (v o : Nat) (w : Word64) (s : State) : State :=
  if o = 0x2000 then spillDo v w s
  else match entryAt o 0 8 32, entryAt o 0x1000 8 64 with
    | some (i, _), _ => { s with media := { s.media with overhead := s.media.overhead.set (v * 32 + i) (fld w 7 0) } }
    | _, some (f, _) =>
      if fld w 15 0 = 0 then s
      else { s with media := { s.media with tenantWt := s.media.tenantWt.set (v * 64 + f) (fld w 15 0) } }
    | _, _ => s

/-! ## MEM (R387) -/

/-- A write that puts a field out of range is ignored whole and sets CFG_ERR. -/
def orCfgErr (ok : Bool) (f : Stack → Stack) (u : Stack) : Stack := if ok then f u else { u with cfgErr := true }

def schedOk (w : Word64) : Bool :=
  decide (1 ≤ fld w 41 32) && decide (fld w 41 32 ≤ 1000) && decide (2 ≤ fld w 22 16) && decide (fld w 22 16 ≤ 64) &&
    decide (fld w 13 8 < fld w 22 16)

def writeMem (k r : Nat) (w : Word64) (s : State) : State :=
  if r = 0 then updStack k (fun u => { u with cfgErr := w1cBit u.cfgErr w 8 }) s
  else if r = 8 then
    -- RUN outside INIT makes the whole write ignored (R505)
    if bitOf w 0 && (stackOf k s).state != 0 then s else parkDo k (bitOf w 1) (doIf (bitOf w 0) (runDo k) s)
  else if r = 0x10 then updStack k (orCfgErr (schedOk w) (fun u =>
    { u with writeAgeUs := fld w 41 32, highWm := fld w 22 16, lowWm := fld w 13 8, rowHitPass := fld w 5 0 })) s
  else if r = 0x18 then updStack k (orCfgErr (decide (256 ≤ fld w 63 48) && decide (100 ≤ fld w 47 32)) (fun u =>
    { u with thresh := fld w 63 48, gapNs := fld w 47 32 })) s
  else if r = 0x20 then updStack k (fun u => { u with keep := fld w 6 0 + 128 }) s
  else match entryAt r 0x40 8 6, entryAt r 0x70 8 6 with
    | some (j, _), _ => memHashDo k false j w s
    | _, some (i, _) => memHashDo k true i w s
    | _, _ => s

/-! ## The whole owner view (R500) -/

def writeWing (who off : Nat) (w : Word64) (s : State) : State :=
  let v := off / 0x1000000 - 1
  let o := off % 0x1000000
  if o < 0x200000 then writeLanes v o w s
  else if o < 0x400000 then writeIng who off v (o - 0x200000) w s
  else if o < 0x600000 then writeLeg v (o - 0x400000) w s
  else match entryAt o 0x700000 0x1000 2 with
    | some (j, r) => writeMem (2 * v + j) r w s
    | none => s

/-- A write that the page's table has let through; the HQ registers and the doorbells have tables of their own. -/
def writeReg (who off : Nat) (w : Word64) (s : State) : State :=
  if off < 0x8000 then writeBody who off w s
  else if off < 0x100000 then writePwr off w s
  else if off < 0x200000 then writeDisp off w s
  else if off < 0x400000 then s
  else if off < 0x500000 then writeEvr off w s
  else if off < 0x600000 then s
  else if off < 0x700000 then writeTime off w s
  else if off < 0x800000 then writeAes off w s
  else if off < 0xC00000 then writeAcc who off w s
  else if off < 0xE00000 then s
  else if off < 0x1000000 then writeFab who off w s
  else writeWing who off w s

/-- The tile and core of the doorbell at an owner-view offset. -/
def doorbellAt (off : Nat) : Option (Nat × Nat) :=
  match tileAt off with
  | none => none
  | some t => match entryAt (off % 0x1000) 0x100 0x40 4 with
    | some (c, r) => if r = 0x10 then some (t, c) else none
    | none => none

/-- A write of the owner view by PF0 or a core. One that is not aligned, or lies past the view, is ignored (R499). -/
def ownerWriteDo (who off : Nat) (w : Word64) (s : State) : State :=
  if off % 8 ≠ 0 ∨ 0x5000000 ≤ off then s
  else match entryAt off 0x200000 0x80 8192, doorbellAt off with
    | some (q, r), _ => writeHq who q r w s
    | _, some (t, c) => doorbellGated who t c (doorbellDo t c w) s
    | _, _ => gated who off (writeReg who off w) s

/-- A write by VF n through its window: only the HQ registers of its queues and the doorbells of its tiles act (R501, R502). -/
def tenantWriteDo (n off : Nat) (w : Word64) (s : State) : State :=
  if off % 8 ≠ 0 then s
  else match entryAt off 0x8000 0x80 128, entryAt off 0x80000 0x200 512 with
    | some (k, r), _ => writeHq n (n * 128 + k) r w s
    | _, some (t, r) => match doorbellAt (tileOff t r) with
      | some (t, c) => doorbellGated n t c (doorbellDo t c w) s
      | none => s
    | _, _ => s

/-- A register write: `off` lies in the owner view for PF0 and the cores, in the tenant window for a VF. -/
def registerWriteDo (who off : Nat) (w : Word64) (s : State) : State :=
  if who == 0 || decide (64 ≤ who) then ownerWriteDo who off w s else tenantWriteDo who off w s

def execRegisterWrite (who off : Nat) (v : BitVec 64) (s : State) : Outcome :=
  onWf (.registerWrite who off v) (registerWriteDo who off v s)

/-- The low half of a wide register is written: it is held for its master (R17). -/
def execWideLowWrite (who off : Nat) (v : BitVec 64) (s : State) : Outcome :=
  onWf (.wideLowWrite who off v) (registerWriteDo who off v s)

end Sys2Proof.Machine
end

