-- ==== Sys2Proof/Machine/Survival.lean ====
section
/-! DEFINITION. The supply, the case temperature, the Body's integrity and the cable supplies (R473, R475, R480, R484-R486). -/

namespace Sys2Proof.Machine

/-- Bits of `BODY_FAULT` raise PF0 vector 2 (R497). -/
def bodyFault (f : Body → Body) (s : State) : State := pfVector 2 { s with body := f s.body }

/-! ## Supply -/

/-- The band of an input of 33 V or more, in 10 mV (R473): 0 in range, 1 LOW, 2 HIGH, 3 disconnected. -/
def bandOf (cv : Nat) : Nat := if cv < 4000 then 1 else if cv ≤ 6000 then 0 else if cv ≤ 7500 then 2 else 3

/-- How far an input lies out of range. -/
def deviation (cv : Nat) : Nat := (4000 - cv) + (cv - 6000)

/-- The module stops: record 0x1004 within the hold-up, then the state that the next boot starts from (R484, R490). -/
def stopPower (cause cv : Nat) (s : State) : State :=
  let s := coldReset cause false (record 0x1004 [(2, cv)] s)
  { s with body := { s.body with powered := false, pg := false, band := 0, outSince := none, rideDone := false } }

/-- POWER_LOSS: the input falls below 33 V. -/
def powerLossDo (cv : Nat) (s : State) : State :=
  if s.body.powered ∧ cv < 3300 then stopPower 2 cv { s with body := { s.body with inputCv := cv } } else s

def execPowerLoss (centivolts : Nat) (s : State) : Outcome := onWf (.powerLoss centivolts) (powerLossDo centivolts s)

/-- FUSE_OPEN: a power loss with a cause of its own (R475). -/
def execFuseOpen (s : State) : Outcome := onWf .fuseOpen (doIf s.body.powered (stopPower 3 s.body.inputCv) s)

/-- The input is back in range: a stay whose ride-through has not ended was a dip (R485). -/
def backInRange (s : State) : State :=
  match s.body.outSince with
  | none => s
  | some t =>
    let dip := !s.body.rideDone
    let s := { s with body := { s.body with outSince := none, rideDone := false, inSince := nowNs s } }
    if dip then
      record 0x1001 [(2, s.body.extremeCv), (4, (nowNs s - t) / 1000)] (bodyFault (fun b => { b with faultDip := true }) s)
    else s

/-- The input is out of range: the stay begins, or its extreme moves. -/
def outOfRange (cv : Nat) (s : State) : State :=
  match s.body.outSince with
  | none => { s with body := { s.body with outSince := some (nowNs s), extremeCv := cv, rideDone := false } }
  | some _ => if deviation s.body.extremeCv < deviation cv then { s with body := { s.body with extremeCv := cv } } else s

/-- SUPPLY_BAND: the input takes a value. -/
def supplyBandDo (cv : Nat) (s : State) : State :=
  if !s.body.powered then { s with body := { s.body with inputCv := cv } }
  else if cv < 3300 then powerLossDo cv s
  else
    let s := { s with body := { s.body with inputCv := cv, band := bandOf cv } }
    if bandOf cv = 0 then backInRange s else outOfRange cv s

def execSupplyBand (centivolts : Nat) (s : State) : Outcome := onWf (.supplyBand centivolts) (supplyBandDo centivolts s)

/-- RIDE_THROUGH_END: the input has been out of range for 10 ms. -/
def rideThroughEndDo (s : State) : State :=
  match s.body.outSince with
  | none => s
  | some t =>
    if s.body.powered && !s.body.rideDone && decide (t + 10000000 ≤ nowNs s) then
      enterSafeHold 1 { s with body := { s.body with rideDone := true } }
    else s

def execRideThroughEnd (s : State) : Outcome := onWf .rideThroughEnd (rideThroughEndDo s)

/-! ## Case temperature and integrity -/

def setCase (c : Int) (s : State) : State := { s with power := { s.power with caseC := c } }

/-- CASE_OVER: above 105 °C for 1 s. -/
def caseOverDo (c : Int) (s : State) : State :=
  if s.body.powered ∧ 105 < c then record 0x1005 [(1, toTwos 8 c)] (bodyFault (fun b => { b with faultCase := true }) (setCase c s)) else s

def execCaseOver (caseC : Int) (s : State) : Outcome := onWf (.caseOver caseC) (caseOverDo caseC s)

/-- CASE_TEMP: above 115 °C for 100 ms. -/
def caseTempDo (c : Int) (s : State) : State := if s.body.powered ∧ 115 < c then enterSafeHold 2 (setCase c s) else s

def execCaseTemp (caseC : Int) (s : State) : Outcome := onWf (.caseTemp caseC) (caseTempDo caseC s)

/-- BODY_INTEGRITY (R486, cause 4). -/
def execBodyIntegrity (s : State) : Outcome := onWf .bodyIntegrity (doIf s.body.powered (enterSafeHold 4) s)

/-! ## Cable supplies (R480) -/

/-- CBL_PWR: an output that is on draws more than 2 A and is limited. -/
def cblPwrDo (n : Nat) (s : State) : State :=
  if s.body.powered && cblOn n s && !s.body.cblFault.testBit n then
    let s := { s with body := { s.body with cblFault := s.body.cblFault + 2 ^ n, cblTrip := s.body.cblTrip.set n (nowNs s) } }
    record 0x1008 [(1, n)] (bodyFault (fun b => { b with faultCbl := true }) s)
  else s

def execCblPwr (connector : Nat) (s : State) : Outcome := onWf (.cblPwr connector) (cblPwrDo connector s)

/-- CBL_PWR_RETRY: every 100 ms, until the load is within the limit. -/
def cblRetryDo (n : Nat) (exceeds : Bool) (s : State) : State :=
  if s.body.cblFault.testBit n && decide (s.body.cblTrip.get n 0 + 100000000 ≤ nowNs s) then
    if exceeds then { s with body := { s.body with cblTrip := s.body.cblTrip.set n (nowNs s) } }
    else { s with body := { s.body with cblFault := s.body.cblFault - 2 ^ n } }
  else s

def execCblPwrRetry (connector : Nat) (exceeds : Bool) (s : State) : Outcome :=
  onWf (.cblPwrRetry connector exceeds) (cblRetryDo connector exceeds s)

/-- CBL_PRES_CHANGE. -/
def cblPresDo (n : Nat) (present : Bool) (s : State) : State :=
  let m := s.body.cblPresent
  settleCbl { s with body := { s.body with
    cblPresent := if m.testBit n = present then m else if present then m + 2 ^ n else m - 2 ^ n } }

def execCblPresChange (connector : Nat) (present : Bool) (s : State) : Outcome :=
  onWf (.cblPresChange connector present) (cblPresDo connector present s)

end Sys2Proof.Machine
end

