-- ==== Sys2Proof/Machine/UpdateRows.lean ====
section
/-! DEFINITION. The activation of a new bank, and the fall-backs to the previous one (R463, R466, R468-R471). -/

namespace Sys2Proof.Machine

/-- The new bank starts on trial, with its settings migrated or unreadable (R463, steps 2 and 3). -/
def startTrial (prev : Bank) (s : State) : State :=
  let s := setBank s.upd.active { activeBank s with state := 3 } s
  let s := migrateSettings prev { s with upd := { s.upd with trialOver := false, ownerFall := false, unreadable := false } }
  let s := if s.upd.unreadable then applySettings {} s else s
  record 0x0F02 [(1, s.upd.active), (4, fwVersion (activeBank s))] s

/-- The boot ROM rejects the new bank: the previous one starts at once, reason SIGNATURE (R456, R463). -/
def rejectNew (new check : Nat) (s : State) : State :=
  let s := record 0x0F06 [(1, new), (1, check)] (setBank new { bankOfIdx new s with state := 5 } s)
  record 0x0F04 [(1, 5)] { s with upd := { s.upd with activateAt := 0, healthEnd := 0, fallbackAt := 0 } }

/-- ACTIVATE_AT: the instant of a pending activation has come. -/
def activateDo (s : State) : State :=
  if s.upd.pending && cmpReached (cmpNow s) s.upd.activateAt then
    let s := warmCore 2 false { s with upd := { s.upd with pending := false } }
    let new := inactive s
    let prev := activeBank s
    match bankCheck (bankOfIdx new s) s.upd.floor with
    | none => startTrial prev { s with upd := { s.upd with active := new } }
    | some c => rejectNew new c s
  else s

def execActivateAt (s : State) : Outcome := onWf .activateAt (activateDo s)

/-- The fall-back: queues halt, and a warm reset starts the previous bank. -/
def fallBackNow (s : State) : State :=
  let reason := fallReason s
  fallBack reason (warmCore 3 false s)

/-- FALLBACK_INSTANT: the instant passes with the bank still TRIAL. -/
def fallbackInstantDo (s : State) : State := if fallBackDue s then fallBackNow s else s

def execFallbackInstant (s : State) : Outcome := onWf .fallbackInstant (fallbackInstantDo s)

/-- The last trial has been committed (R466). -/
def committed (s : State) : Bool := (activeBank s).state == 4 && (inactiveBank s).state == 6

/-- UPD_FALLBACK: at its instant, or at once. Its completion is written before the queues halt. -/
def updFallbackBody (r : Req) (s : State) : Answer :=
  let t := df r.w1 63 0
  if !r.owner then answer s (refuse stRefused 0)
  else if updReserved ([(63, 0)], [], []) r then answer s (refuse stNotStarted 0x01)
  else if !trialRunning s then answer s (refuse stNotStarted (if committed s then 0x0B else 0x0A))
  else
    let s := { s with upd := { s.upd with ownerFall := true } }
    if t = 0 then (fallBackNow (complete r.tk (okWith 0) s), none)
    else answer { s with upd := { s.upd with fallbackAt := t } } (okWith 0)

def execUpdFallback (src : CmdSrc) (s : State) : Outcome := onWf (.updFallback src) (command 0xC5 updFallbackBody src s)

end Sys2Proof.Machine
end

