-- ==== Sys2Proof/Machine/Dispatch.lean ====
section
/-! DEFINITION. What each command does: one arm per row of the opcode table. -/

namespace Sys2Proof.Machine

def exec (i : Instr) (s : State) : Host.Outcome State Fault Refusal :=
  match i with
  | .registerWrite who off v => Sys2Proof.Machine.execRegisterWrite who off v s
  | .wideLowWrite who off v => Sys2Proof.Machine.execWideLowWrite who off v s
  | .wideLowRead who off => Sys2Proof.Machine.execWideLowRead who off s
  | .rcCounterRead who off => Sys2Proof.Machine.execRcCounterRead who off s
  | .undefinedOpcode src => Sys2Proof.Machine.execUndefinedOpcode src s
  | .quarantineEnd kind index => Sys2Proof.Machine.execQuarantineEnd kind index s
  | .dlBlockRx link dir sent got seq crc => Sys2Proof.Machine.execDlBlockRx link dir sent got seq crc s
  | .dlReplayRequest link dir seq => Sys2Proof.Machine.execDlReplayRequest link dir seq s
  | .dlRetrainEnd link ok => Sys2Proof.Machine.execDlRetrainEnd link ok s
  | .retrain who link => Sys2Proof.Machine.execRetrain who link s
  | .holdDown who link on => Sys2Proof.Machine.execHoldDown who link on s
  | .antennaMeasure island loopPs tempC => Sys2Proof.Machine.execAntennaMeasure island loopPs tempC s
  | .voltageLoopPass inputW caseC => Sys2Proof.Machine.execVoltageLoopPass inputW caseC s
  | .posture who v => Sys2Proof.Machine.execPosture who v s
  | .fabStoreImage src => Sys2Proof.Machine.execFabStoreImage src s
  | .fabLoadFull src => Sys2Proof.Machine.execFabLoadFull src s
  | .fabReloadPart src => Sys2Proof.Machine.execFabReloadPart src s
  | .fabAbort src => Sys2Proof.Machine.execFabAbort src s
  | .fabEnrollKey src => Sys2Proof.Machine.execFabEnrollKey src s
  | .drainEnd badTiles => Sys2Proof.Machine.execDrainEnd badTiles s
  | .drainTimeout badTiles => Sys2Proof.Machine.execDrainTimeout badTiles s
  | .ethFrameRx lane frame => Sys2Proof.Machine.execEthFrameRx lane frame s
  | .rxCipherRelease op => Sys2Proof.Machine.execRxCipherRelease op s
  | .jitterDeadline source => Sys2Proof.Machine.execJitterDeadline source s
  | .kfHoldEnd source => Sys2Proof.Machine.execKfHoldEnd source s
  | .keyframeNeeded source => Sys2Proof.Machine.execKeyframeNeeded source s
  | .fbTimeout leg => Sys2Proof.Machine.execFbTimeout leg s
  | .layerSelection leg => Sys2Proof.Machine.execLayerSelection leg s
  | .scheduleSelect port => Sys2Proof.Machine.execScheduleSelect port s
  | .gateEntry port => Sys2Proof.Machine.execGateEntry port s
  | .legRoomClaim src => Sys2Proof.Machine.execLegRoomClaim src s
  | .legRoomFree src => Sys2Proof.Machine.execLegRoomFree src s
  | .legCreate src => Sys2Proof.Machine.execLegCreate src s
  | .legBounds src => Sys2Proof.Machine.execLegBounds src s
  | .legShape src => Sys2Proof.Machine.execLegShape src s
  | .legEstParam src => Sys2Proof.Machine.execLegEstParam src s
  | .legRead src => Sys2Proof.Machine.execLegRead src s
  | .legStats src => Sys2Proof.Machine.execLegStats src s
  | .legRelease src => Sys2Proof.Machine.execLegRelease src s
  | .subCreate src => Sys2Proof.Machine.execSubCreate src s
  | .subBounds src => Sys2Proof.Machine.execSubBounds src s
  | .subRead src => Sys2Proof.Machine.execSubRead src s
  | .subRelease src => Sys2Proof.Machine.execSubRelease src s
  | .legKeyframe src => Sys2Proof.Machine.execLegKeyframe src s
  | .legGateList src => Sys2Proof.Machine.execLegGateList src s
  | .ingSrcCreate src => Sys2Proof.Machine.execIngSrcCreate src s
  | .ingSrcPolice src => Sys2Proof.Machine.execIngSrcPolice src s
  | .ingSrcHistory src => Sys2Proof.Machine.execIngSrcHistory src s
  | .ingSrcJitter src => Sys2Proof.Machine.execIngSrcJitter src s
  | .ingSrcRead src => Sys2Proof.Machine.execIngSrcRead src s
  | .ingSrcStats src => Sys2Proof.Machine.execIngSrcStats src s
  | .ingSrcRelease src => Sys2Proof.Machine.execIngSrcRelease src s
  | .keyProvision src => Sys2Proof.Machine.execKeyProvision src s
  | .keyToken src => Sys2Proof.Machine.execKeyToken src s
  | .keyKekInstall src => Sys2Proof.Machine.execKeyKekInstall src s
  | .keyKekErase src => Sys2Proof.Machine.execKeyKekErase src s
  | .keySlotAlloc src => Sys2Proof.Machine.execKeySlotAlloc src s
  | .keySlotLoad src => Sys2Proof.Machine.execKeySlotLoad src s
  | .keySlotErase src => Sys2Proof.Machine.execKeySlotErase src s
  | .keySlotRelease src => Sys2Proof.Machine.execKeySlotRelease src s
  | .keyCtxSave src => Sys2Proof.Machine.execKeyCtxSave src s
  | .keyCtxRestore src => Sys2Proof.Machine.execKeyCtxRestore src s
  | .keySlotRead src => Sys2Proof.Machine.execKeySlotRead src s
  | .keyTokenRetireCheck src => Sys2Proof.Machine.execKeyTokenRetireCheck src s
  | .eraseZeroingDone slot => Sys2Proof.Machine.execEraseZeroingDone slot s
  | .contextSnapshot slot => Sys2Proof.Machine.execContextSnapshot slot s
  | .rxGraceEnd slot => Sys2Proof.Machine.execRxGraceEnd slot s
  | .restoredRecordDrop slot => Sys2Proof.Machine.execRestoredRecordDrop slot s
  | .vidPoolSet src => Sys2Proof.Machine.execVidPoolSet src s
  | .vidDecCreate src => Sys2Proof.Machine.execVidDecCreate src s
  | .vidDecReset src => Sys2Proof.Machine.execVidDecReset src s
  | .vidDecRead src => Sys2Proof.Machine.execVidDecRead src s
  | .vidDecRelease src => Sys2Proof.Machine.execVidDecRelease src s
  | .decodePictureStart ctx => Sys2Proof.Machine.execDecodePictureStart ctx s
  | .bandPublish ctx => Sys2Proof.Machine.execBandPublish ctx s
  | .decodePictureEnd ctx => Sys2Proof.Machine.execDecodePictureEnd ctx s
  | .lateRepair ctx => Sys2Proof.Machine.execLateRepair ctx s
  | .vidOutCreate src => Sys2Proof.Machine.execVidOutCreate src s
  | .vidOutLayer src => Sys2Proof.Machine.execVidOutLayer src s
  | .vidOutMatrix src => Sys2Proof.Machine.execVidOutMatrix src s
  | .vidOutCommit src => Sys2Proof.Machine.execVidOutCommit src s
  | .vidOutRead src => Sys2Proof.Machine.execVidOutRead src s
  | .vidOutRelease src => Sys2Proof.Machine.execVidOutRelease src s
  | .frameBoundary output => Sys2Proof.Machine.execFrameBoundary output s
  | .pxBandHandoff output => Sys2Proof.Machine.execPxBandHandoff output s
  | .inputWaitExpire output layer => Sys2Proof.Machine.execInputWaitExpire output layer s
  | .stFrameEmit output => Sys2Proof.Machine.execStFrameEmit output s
  | .stitchKfWindowEnd output => Sys2Proof.Machine.execStitchKfWindowEnd output s
  | .cellGrey output cell => Sys2Proof.Machine.execCellGrey output cell s
  | .vidEncCreate src => Sys2Proof.Machine.execVidEncCreate src s
  | .vidEncRate src => Sys2Proof.Machine.execVidEncRate src s
  | .vidEncKeyframe src => Sys2Proof.Machine.execVidEncKeyframe src s
  | .vidEncRead src => Sys2Proof.Machine.execVidEncRead src s
  | .vidEncRelease src => Sys2Proof.Machine.execVidEncRelease src s
  | .veBandCoded ctx => Sys2Proof.Machine.execVeBandCoded ctx s
  | .kfInterval ctx => Sys2Proof.Machine.execKfInterval ctx s
  | .audRoomSetup src => Sys2Proof.Machine.execAudRoomSetup src s
  | .audRoomSet src => Sys2Proof.Machine.execAudRoomSet src s
  | .audGroupCreate src => Sys2Proof.Machine.execAudGroupCreate src s
  | .audInAttach src => Sys2Proof.Machine.execAudInAttach src s
  | .audInSet src => Sys2Proof.Machine.execAudInSet src s
  | .audListen src => Sys2Proof.Machine.execAudListen src s
  | .audSafeload src => Sys2Proof.Machine.execAudSafeload src s
  | .audInRead src => Sys2Proof.Machine.execAudInRead src s
  | .audRoomRead src => Sys2Proof.Machine.execAudRoomRead src s
  | .audInRelease src => Sys2Proof.Machine.execAudInRelease src s
  | .audGroupRelease src => Sys2Proof.Machine.execAudGroupRelease src s
  | .audRoomRelease src => Sys2Proof.Machine.execAudRoomRelease src s
  | .audBusSet src => Sys2Proof.Machine.execAudBusSet src s
  | .audBusRead src => Sys2Proof.Machine.execAudBusRead src s
  | .audRoomNotify src => Sys2Proof.Machine.execAudRoomNotify src s
  | .audioDecode input => Sys2Proof.Machine.execAudioDecode input s
  | .mixBlockStart => Sys2Proof.Machine.execMixBlockStart s
  | .groupFrameCoded source => Sys2Proof.Machine.execGroupFrameCoded source s
  | .busPark bus => Sys2Proof.Machine.execBusPark bus s
  | .lineMeasure port ohms legAtGround => Sys2Proof.Machine.execLineMeasure port ohms legAtGround s
  | .aesLock port rate inverted aligned => Sys2Proof.Machine.execAesLock port rate inverted aligned s
  | .aesUnlock port => Sys2Proof.Machine.execAesUnlock port s
  | .csBlockRx port bytes => Sys2Proof.Machine.execCsBlockRx port bytes s
  | .aesOutFrameDue port => Sys2Proof.Machine.execAesOutFrameDue port s
  | .shortTripRetry port short => Sys2Proof.Machine.execShortTripRetry port short s
  | .aesCsBlockStart port => Sys2Proof.Machine.execAesCsBlockStart port s
  | .aesGroupMask who group v => Sys2Proof.Machine.execAesGroupMask who group v s
  | .aesOutCs who port word v => Sys2Proof.Machine.execAesOutCs who port word v s
  | .laneGroupCfg who group v => Sys2Proof.Machine.execLaneGroupCfg who group v s
  | .laneLos lane => Sys2Proof.Machine.execLaneLos lane s
  | .laneLol lane pll => Sys2Proof.Machine.execLaneLol lane pll s
  | .portState port inverted => Sys2Proof.Machine.execPortState port inverted s
  | .tmBlockRx lane header words crc => Sys2Proof.Machine.execTmBlockRx lane header words crc s
  | .tmNakRepeat lane => Sys2Proof.Machine.execTmNakRepeat lane s
  | .tmBringupStep lane header inverted => Sys2Proof.Machine.execTmBringupStep lane header inverted s
  | .tmStepTimeout lane => Sys2Proof.Machine.execTmStepTimeout lane s
  | .tmRetryWaitEnd lane => Sys2Proof.Machine.execTmRetryWaitEnd lane s
  | .tmDoze lane => Sys2Proof.Machine.execTmDoze lane s
  | .tmIdle lane => Sys2Proof.Machine.execTmIdle lane s
  | .tmWake lane => Sys2Proof.Machine.execTmWake lane s
  | .tmRefresh lane => Sys2Proof.Machine.execTmRefresh lane s
  | .tmStreamHoldEnd port stream => Sys2Proof.Machine.execTmStreamHoldEnd port stream s
  | .faultShort lane => Sys2Proof.Machine.execFaultShort lane s
  | .faultShortRetry lane short => Sys2Proof.Machine.execFaultShortRetry lane short s
  | .laneRetrain who lane => Sys2Proof.Machine.execLaneRetrain who lane s
  | .laneHoldDown who lane on => Sys2Proof.Machine.execLaneHoldDown who lane on s
  | .laneTest who lane v => Sys2Proof.Machine.execLaneTest who lane v s
  | .timeAdjust src => Sys2Proof.Machine.execTimeAdjust src s
  | .timePtpSend src => Sys2Proof.Machine.execTimePtpSend src s
  | .timePtpBind src => Sys2Proof.Machine.execTimePtpBind src s
  | .slewDone => Sys2Proof.Machine.execSlewDone s
  | .ppsIn falling => Sys2Proof.Machine.execPpsIn falling s
  | .ppsOut => Sys2Proof.Machine.execPpsOut s
  | .ppsShort line => Sys2Proof.Machine.execPpsShort line s
  | .ppsShortRetry line short => Sys2Proof.Machine.execPpsShortRetry line short s
  | .dramRequest master stack addr write crcFails => Sys2Proof.Machine.execDramRequest master stack addr write crcFails s
  | .rhWindowStart stack => Sys2Proof.Machine.execRhWindowStart stack s
  | .selfRefresh stack => Sys2Proof.Machine.execSelfRefresh stack s
  | .memRun who stack => Sys2Proof.Machine.execMemRun who stack s
  | .memPark who stack on => Sys2Proof.Machine.execMemPark who stack on s
  | .memHash who stack bank index v => Sys2Proof.Machine.execMemHash who stack bank index v s
  | .accWrite who v => Sys2Proof.Machine.execAccWrite who v s
  | .accQuery who v => Sys2Proof.Machine.execAccQuery who v s
  | .hqPush who queue hi => Sys2Proof.Machine.execHqPush who queue hi s
  | .hqPop who queue => Sys2Proof.Machine.execHqPop who queue s
  | .hqCfg who queue v => Sys2Proof.Machine.execHqCfg who queue v s
  | .flush who queue hardMs => Sys2Proof.Machine.execFlush who queue hardMs s
  | .hardFlush queue => Sys2Proof.Machine.execHardFlush queue s
  | .resume who queue => Sys2Proof.Machine.execResume who queue s
  | .arm who queue => Sys2Proof.Machine.execArm who queue s
  | .hqMirrorCons who queue v => Sys2Proof.Machine.execHqMirrorCons who queue v s
  | .mirrorDrain queue => Sys2Proof.Machine.execMirrorDrain queue s
  | .queueIrqTimeout queue => Sys2Proof.Machine.execQueueIrqTimeout queue s
  | .nop src => Sys2Proof.Machine.execNop src s
  | .dispPost src => Sys2Proof.Machine.execDispPost src s
  | .dispCancel src => Sys2Proof.Machine.execDispCancel src s
  | .workItemDispatch core => Sys2Proof.Machine.execWorkItemDispatch core s
  | .workItemEnd core => Sys2Proof.Machine.execWorkItemEnd core s
  | .watchdog core => Sys2Proof.Machine.execWatchdog core s
  | .heartbeat => Sys2Proof.Machine.execHeartbeat s
  | .coresLost => Sys2Proof.Machine.execCoresLost s
  | .hello port => Sys2Proof.Machine.execHello port s
  | .helloRx port msg => Sys2Proof.Machine.execHelloRx port msg s
  | .linkState port msg => Sys2Proof.Machine.execLinkState port msg s
  | .linkStateSend => Sys2Proof.Machine.execLinkStateSend s
  | .compat port msg => Sys2Proof.Machine.execCompat port msg s
  | .domJoin port msg => Sys2Proof.Machine.execDomJoin port msg s
  | .domLeave port msg => Sys2Proof.Machine.execDomLeave port msg s
  | .neighbourLost port => Sys2Proof.Machine.execNeighbourLost port s
  | .memberLost serial => Sys2Proof.Machine.execMemberLost serial s
  | .election => Sys2Proof.Machine.execElection s
  | .isolatedTime offsetNs => Sys2Proof.Machine.execIsolatedTime offsetNs s
  | .domainStepTimeout => Sys2Proof.Machine.execDomainStepTimeout s
  | .domCfg who v => Sys2Proof.Machine.execDomCfg who v s
  | .phase who v => Sys2Proof.Machine.execPhase who v s
  | .lastGaspClear who v => Sys2Proof.Machine.execLastGaspClear who v s
  | .evrRead src => Sys2Proof.Machine.execEvrRead src s
  | .evrWrite src => Sys2Proof.Machine.execEvrWrite src s
  | .evrClear src => Sys2Proof.Machine.execEvrClear src s
  | .evrDumpCopy src => Sys2Proof.Machine.execEvrDumpCopy src s
  | .evrDumpRelease src => Sys2Proof.Machine.execEvrDumpRelease src s
  | .fatalError => Sys2Proof.Machine.execFatalError s
  | .dramDumpDone => Sys2Proof.Machine.execDramDumpDone s
  | .flashSummaryDone => Sys2Proof.Machine.execFlashSummaryDone s
  | .updStage src => Sys2Proof.Machine.execUpdStage src s
  | .updApply src => Sys2Proof.Machine.execUpdApply src s
  | .updSchedule src => Sys2Proof.Machine.execUpdSchedule src s
  | .updCancel src => Sys2Proof.Machine.execUpdCancel src s
  | .updCommit src => Sys2Proof.Machine.execUpdCommit src s
  | .updFallback src => Sys2Proof.Machine.execUpdFallback src s
  | .activateAt => Sys2Proof.Machine.execActivateAt s
  | .trialCommit => Sys2Proof.Machine.execTrialCommit s
  | .fallbackInstant => Sys2Proof.Machine.execFallbackInstant s
  | .supplyBand centivolts => Sys2Proof.Machine.execSupplyBand centivolts s
  | .rideThroughEnd => Sys2Proof.Machine.execRideThroughEnd s
  | .powerLoss centivolts => Sys2Proof.Machine.execPowerLoss centivolts s
  | .fuseOpen => Sys2Proof.Machine.execFuseOpen s
  | .caseOver caseC => Sys2Proof.Machine.execCaseOver caseC s
  | .caseTemp caseC => Sys2Proof.Machine.execCaseTemp caseC s
  | .bodyIntegrity => Sys2Proof.Machine.execBodyIntegrity s
  | .exitSafeHold who => Sys2Proof.Machine.execExitSafeHold who s
  | .cblPwr connector => Sys2Proof.Machine.execCblPwr connector s
  | .cblPwrRetry connector exceeds => Sys2Proof.Machine.execCblPwrRetry connector exceeds s
  | .coldBoot badTiles badStacks => Sys2Proof.Machine.execColdBoot badTiles badStacks s
  | .perst => Sys2Proof.Machine.execPerst s
  | .serviceReset => Sys2Proof.Machine.execServiceReset s
  | .coldWrite who => Sys2Proof.Machine.execColdWrite who s
  | .warmWrite who => Sys2Proof.Machine.execWarmWrite who s
  | .recoveryLoad who v => Sys2Proof.Machine.execRecoveryLoad who v s
  | .tileDspDoorbell who tile core v => Sys2Proof.Machine.execTileDspDoorbell who tile core v s
  | .pipe tile core => Sys2Proof.Machine.execPipe tile core s
  | .interruptEntry tile core => Sys2Proof.Machine.execInterruptEntry tile core s
  | .dspNop tile core => Sys2Proof.Machine.execDspNop tile core s
  | .dspBr tile core => Sys2Proof.Machine.execDspBr tile core s
  | .dspCall tile core => Sys2Proof.Machine.execDspCall tile core s
  | .dspRet tile core => Sys2Proof.Machine.execDspRet tile core s
  | .dspReti tile core => Sys2Proof.Machine.execDspReti tile core s
  | .dspLoop tile core => Sys2Proof.Machine.execDspLoop tile core s
  | .dspWait tile core => Sys2Proof.Machine.execDspWait tile core s
  | .dspHalt tile core => Sys2Proof.Machine.execDspHalt tile core s
  | .mvls tile core => Sys2Proof.Machine.execMvls tile core s
  | .mvsl tile core => Sys2Proof.Machine.execMvsl tile core s
  | .mvsv tile core => Sys2Proof.Machine.execMvsv tile core s
  | .mvvs tile core => Sys2Proof.Machine.execMvvs tile core s
  | .vld tile core => Sys2Proof.Machine.execVld tile core s
  | .vst tile core => Sys2Proof.Machine.execVst tile core s
  | .vldb tile core => Sys2Proof.Machine.execVldb tile core s
  | .pset tile core => Sys2Proof.Machine.execPset tile core s
  | .pseth tile core => Sys2Proof.Machine.execPseth tile core s
  | .padd tile core => Sys2Proof.Machine.execPadd tile core s
  | .valu tile core => Sys2Proof.Machine.execValu tile core s
  | .vmac tile core => Sys2Proof.Machine.execVmac tile core s
  | .vmsu tile core => Sys2Proof.Machine.execVmsu tile core s
  | .vmul tile core => Sys2Proof.Machine.execVmul tile core s
  | .ftap tile core => Sys2Proof.Machine.execFtap tile core s
  | .accrnd tile core => Sys2Proof.Machine.execAccrnd tile core s
  | .accclr tile core => Sys2Proof.Machine.execAccclr tile core s
  | .accsv tile core => Sys2Proof.Machine.execAccsv tile core s
  | .accld tile core => Sys2Proof.Machine.execAccld tile core s
  | .acccpy tile core => Sys2Proof.Machine.execAcccpy tile core s
  | .aesInFrameRx port a b => Sys2Proof.Machine.execAesInFrameRx port a b s
  | .losCleared lane => Sys2Proof.Machine.execLosCleared lane s
  | .pllLock group => Sys2Proof.Machine.execPllLock group s
  | .cblPresChange connector present => Sys2Proof.Machine.execCblPresChange connector present s
  | .timeAligned offsetNs => Sys2Proof.Machine.execTimeAligned offsetNs s

end Sys2Proof.Machine
end

