-- ==== Sys2Proof/Safety.lean ====
section
/-! DEFINITION. What counts as a safe run: the invariants that a state keeps; and when a command of each kind takes effect, in the
terms that the statements use. -/

namespace Sys2Proof.Machine

/-- The byte memories of a state are in their canonical form. -/
def State.memOk (s : State) : Prop := Mem.wf s.dram = true ∧ Mem.wf s.hostMem = true

/-! ## Descriptor commands -/

/-- The descriptor that `src` brings, whatever its opcode: the one at the front of a queue from which the engine may take one, or
the one on a core's port. It is the request, whether the reserved tail bits are 0, and the state once the command has been taken. -/
def fetched (src : CmdSrc) (s : State) : Option (Req × Bool × State) :=
  match src with
  | .queue q =>
    let s1 := dropBad q s
    if engineReady q s1 then
      match (queueOf q s1).visible with
      | [] => none
      | p :: rest => some ((takeFront q p.words rest s1).1, tailClear p.words, (takeFront q p.words rest s1).2)
    else none
  | .port core w0 w1 w2 w3 =>
    let tk : Ticket := { op := s.nextOp, fw := true, core := core, opcode := fld w0 7 0, tag := fld w0 47 16, quiet := bitOf w0 8 }
    some (⟨0, true, 64 + core, w0, w1, w2, w3, tk⟩, true, { s with nextOp := s.nextOp + 1, fwOps := s.nextOp :: s.fwOps })

/-- The command that `src` presents to the row of `op`: a descriptor with that opcode that passes checks 1 to 3 of R402. -/
def presented (op : Nat) (src : CmdSrc) (s : State) : Option (Req × State) :=
  match fetched src s with
  | none => none
  | some (r, tail, s1) => if fld r.w0 7 0 = op ∧ (commonCheck r.w0 tail s1).isNone then some (r, s1) else none

/-- From every source that presents it, the command whose request `pre` holds of runs to its end at once: its effect is
`(post r s).1`, and it completes with `(post r s).2`. -/
def Completes (c : CmdSrc → Instr) (op : Nat) (pre : Req → State → Prop) (post : Req → State → State × Reply) : Prop :=
  ∀ (src : CmdSrc) (s s1 : State) (r : Req), src.wf = true → presented op src s = some (r, s1) → pre r s1 →
    exec (c src) s = .next (complete r.tk (post r s1).2 (post r s1).1)

/-- The same for a command that begins its work and completes later: its effect is `post r s`. -/
def Begins (c : CmdSrc → Instr) (op : Nat) (pre : Req → State → Prop) (post : Req → State → State) : Prop :=
  ∀ (src : CmdSrc) (s s1 : State) (r : Req), src.wf = true → presented op src s = some (r, s1) → pre r s1 →
    exec (c src) s = .next (post r s1)

/-- The same where only what `post` says of the end matters. -/
def CompletesSo (c : CmdSrc → Instr) (op : Nat) (pre : Req → State → Prop) (post : Req → State → State → Reply → Prop) : Prop :=
  ∀ (src : CmdSrc) (s s1 : State) (r : Req), src.wf = true → presented op src s = some (r, s1) → pre r s1 →
    ∃ (t : State) (rep : Reply), exec (c src) s = .next (complete r.tk rep t) ∧ post r s1 t rep

/-- The rows of the descriptor commands with their opcodes (R14). -/
def commandRows : List ((CmdSrc → Instr) × Nat) :=
  [(.nop, 0x00), (.dispPost, 0x01), (.dispCancel, 0x02),
   (.ingSrcCreate, 0x20), (.ingSrcPolice, 0x21), (.ingSrcHistory, 0x22), (.ingSrcJitter, 0x23), (.ingSrcRead, 0x24),
   (.ingSrcStats, 0x25), (.ingSrcRelease, 0x26),
   (.legRoomClaim, 0x40), (.legRoomFree, 0x41), (.legCreate, 0x42), (.legBounds, 0x43), (.legShape, 0x44),
   (.legEstParam, 0x45), (.legRead, 0x46), (.legStats, 0x47), (.legRelease, 0x48), (.subCreate, 0x49),
   (.subBounds, 0x4A), (.subRead, 0x4B), (.subRelease, 0x4C), (.legKeyframe, 0x4D), (.legGateList, 0x4E),
   (.keyProvision, 0x60), (.keyToken, 0x61), (.keyKekInstall, 0x62), (.keyKekErase, 0x63), (.keySlotAlloc, 0x64),
   (.keySlotLoad, 0x65), (.keySlotErase, 0x66), (.keySlotRelease, 0x67), (.keyCtxSave, 0x68), (.keyCtxRestore, 0x69),
   (.keySlotRead, 0x6A), (.keyTokenRetireCheck, 0x6B),
   (.vidPoolSet, 0x70), (.vidDecCreate, 0x71), (.vidDecReset, 0x72), (.vidDecRead, 0x73), (.vidDecRelease, 0x74),
   (.vidOutCreate, 0x75), (.vidOutLayer, 0x76), (.vidOutMatrix, 0x77), (.vidOutCommit, 0x78), (.vidOutRead, 0x79),
   (.vidOutRelease, 0x7A), (.vidEncCreate, 0x7B), (.vidEncRate, 0x7C), (.vidEncKeyframe, 0x7D), (.vidEncRead, 0x7E),
   (.vidEncRelease, 0x7F),
   (.audRoomSetup, 0x80), (.audRoomSet, 0x81), (.audGroupCreate, 0x82), (.audInAttach, 0x83), (.audInSet, 0x84),
   (.audListen, 0x85), (.audSafeload, 0x86), (.audInRead, 0x87), (.audRoomRead, 0x88), (.audInRelease, 0x89),
   (.audGroupRelease, 0x8A), (.audRoomRelease, 0x8B), (.audBusSet, 0x8C), (.audBusRead, 0x8D), (.audRoomNotify, 0x8E),
   (.timeAdjust, 0xA0), (.timePtpSend, 0xA1), (.timePtpBind, 0xA2),
   (.fabStoreImage, 0xB0), (.fabLoadFull, 0xB1), (.fabReloadPart, 0xB2), (.fabAbort, 0xB3), (.fabEnrollKey, 0xB4),
   (.updStage, 0xC0), (.updApply, 0xC1), (.updSchedule, 0xC2), (.updCancel, 0xC3), (.updCommit, 0xC4),
   (.updFallback, 0xC5),
   (.evrRead, 0xD0), (.evrWrite, 0xD1), (.evrClear, 0xD2), (.evrDumpCopy, 0xD3), (.evrDumpRelease, 0xD4)]

/-! ## Register writes -/

/-- The tables let the master write the register's page (R382, R501, R502). -/
def mayWrite (who off : Nat) (s : State) : Prop := who < 128 ∧ (writeGate who off s).1 = true

/-- They also let it configure the queue (R393). -/
def mayControl (who q r : Nat) (s : State) : Prop :=
  q < 8192 ∧ mayWrite who (hqOff q r) s ∧ accHas tgQueue q who bitControl s = true

/-- The tables let the master push to the queue, which is enabled; the owner of a record queue does not push to it (R390, R393). -/
def mayPush (who q : Nat) (s : State) : Prop :=
  q < 8192 ∧ mayWrite who (hqOff q 0x20) s ∧ accHas tgQueue q who bitWrite s = true ∧ (queueOf q s).enable = true ∧
    ¬((queueOf q s).kind = 1 ∧ who = q / 128)

/-- The tables let the master pop the queue: its owner does not pop a command queue, and nobody pops a mirrored one (R391, R393). -/
def mayPop (who q : Nat) (s : State) : Prop :=
  q < 8192 ∧ who < 128 ∧ (who = 0 ∨ 64 ≤ who ∨ who = q / 128) ∧ accHas tgPage (hqOff q 0x30 / 4096) who bitRead s = true ∧
    accHas tgQueue q who bitRead s = true ∧ ¬((queueOf q s).kind = 0 ∧ who = q / 128) ∧
    ¬((queueOf q s).mirror = true ∧ (queueOf q s).kind = 1)

/-- The word that a write of the high half pushes, with the low half held for the master (R17). -/
def pushedWord (who q : Nat) (hi : BitVec 64) (s : State) : Word128 :=
  BitVec.ofNat 128 (hi.toNat * 2 ^ 64 + s.lowHeld.get (hqOff q 0x20 * 256 + who) 0)

/-- The state once that low half has returned to 0. -/
def lowTaken (who q : Nat) (s : State) : State := (takeLow (hqOff q 0x20) who s).2

/-! ## DSP instructions -/

/-- The core runs, takes no interrupt, and its next instruction is the legal word `w` of opcode `op` (R301-R303). -/
def dspReady (op tile core : Nat) (w : BitVec 32) (c : DspCore) (s : State) : Prop :=
  tile < 512 ∧ core < 4 ∧ dspCore? tile core s = some c ∧ dspLive tile s = true ∧ c.run = .running ∧ c.irqReady = false ∧
    w = c.code.get c.pc.toNat 0 ∧ fld w 31 26 = op ∧ dspIllegal w = false

/-- The instruction of opcode `op` issues where `pre` holds: the rest of the state and the core are then as `post` says, and the
program goes on as its flow says (R290, R299). -/
def Issues (i : Nat → Nat → Instr) (op : Nat) (pre : Nat → Nat → BitVec 32 → DspCore → State → Prop)
    (post : Nat → Nat → BitVec 32 → DspCore → State → State × DspCore × DspFlow) : Prop :=
  ∀ (tile core : Nat) (w : BitVec 32) (c : DspCore) (s : State), dspReady op tile core w c s → pre tile core w c s →
    exec (i tile core) s = .next (setDspCore tile core (afterIssue c.pc (post tile core w c s).2.1 (post tile core w c s).2.2) (post tile core w c s).1)

/-- The instruction faults with `code` where `pre` holds, and has no effect of its own (R307). -/
def Faults (i : Nat → Nat → Instr) (op : Nat) (pre : Nat → Nat → BitVec 32 → DspCore → State → Prop) (code : Nat) : Prop :=
  ∀ (tile core : Nat) (w : BitVec 32) (c : DspCore) (s : State), dspReady op tile core w c s → pre tile core w c s →
    exec (i tile core) s = .next (dspFault tile core code s)

/-- The rows of the DSP instructions with their opcodes (R301). -/
def dspRows : List ((Nat → Nat → Instr) × Nat) :=
  [(.dspNop, 0x00), (.dspBr, 0x01), (.dspCall, 0x02), (.dspRet, 0x03), (.dspReti, 0x04), (.dspLoop, 0x05), (.dspWait, 0x06), (.dspHalt, 0x07),
   (.mvls, 0x08), (.mvsl, 0x09), (.mvsv, 0x0A), (.mvvs, 0x0B), (.vld, 0x10), (.vst, 0x11), (.vldb, 0x12), (.pset, 0x18), (.pseth, 0x19),
   (.padd, 0x1A), (.valu, 0x20), (.vmac, 0x30), (.vmsu, 0x31), (.vmul, 0x32), (.ftap, 0x33), (.accrnd, 0x38), (.accclr, 0x39), (.accsv, 0x3A),
   (.accld, 0x3B), (.acccpy, 0x3C)]

/-! ## Named objects -/

/-- Word 1 names a source in use that the requester may name, whose entry no poison has taken (R7, R94, R378). -/
def sourceNamed (r : Req) (s : State) : Prop :=
  resolve .source (fld r.w1 63 0) s = .ok (handleIdx (fld r.w1 63 0)) ∧
    (r.owner = true ∨ (sourceAt (handleIdx (fld r.w1 63 0)) s).fn = r.fn) ∧ lostIn 1 (handleIdx (fld r.w1 63 0)) 0 s = none

/-- Word 1 names a leg in use that the requester may name (R7, R124, R378). -/
def legNamed (r : Req) (s : State) : Prop :=
  resolve .leg (fld r.w1 63 0) s = .ok (handleIdx (fld r.w1 63 0)) ∧
    (r.owner = true ∨ (legAt (handleIdx (fld r.w1 63 0)) s).fn = r.fn) ∧ lostIn 2 (handleIdx (fld r.w1 63 0)) 0 s = none

/-- Word 1 names a subscription in use whose leg the requester may name (R7, R124, R378). -/
def subNamed (r : Req) (s : State) : Prop :=
  resolve .sub (fld r.w1 63 0) s = .ok (handleIdx (fld r.w1 63 0)) ∧
    (r.owner = true ∨ (legAt (subAt (handleIdx (fld r.w1 63 0)) s).leg s).fn = r.fn) ∧ lostIn 3 (handleIdx (fld r.w1 63 0)) 0 s = none

/-- Word 1 names a key slot in use that the requester may name (R7, R159). -/
def slotNamed (r : Req) (s : State) : Prop :=
  resolve .slot (fld r.w1 63 0) s = .ok (handleIdx (fld r.w1 63 0)) ∧
    (r.owner = true ∨ (slotAt (handleIdx (fld r.w1 63 0)) s).owner = r.fn)

/-- Word 1 names a decode context in use that the requester may name (R201). -/
def decNamed (r : Req) (s : State) : Prop :=
  (identOf .decCtx (fld r.w1 14 0) s).used = true ∧ (r.owner = true ∨ (decAt (fld r.w1 14 0) s).fn = r.fn)

/-- Word 1 names an output in use that the requester may name (R208). -/
def outNamed (r : Req) (s : State) : Prop :=
  (identOf .output (fld r.w1 12 0) s).used = true ∧ (r.owner = true ∨ (outputAt (fld r.w1 12 0) s).fn = r.fn)

/-- Word 1 names an encode context in use that the requester may name (R259). -/
def encNamed (r : Req) (s : State) : Prop :=
  (identOf .encCtx (fld r.w1 11 0) s).used = true ∧ (r.owner = true ∨ (encAt (fld r.w1 11 0) s).fn = r.fn)

/-- The requester holds the room, which has a mixer (R284). -/
def mixerNamed (room : Nat) (r : Req) (s : State) : Prop := mayRoom r room s = true ∧ mixes room s = true

/-- Word 1 names an input in use of a room that the requester holds (R284). -/
def inputNamed (r : Req) (s : State) : Prop :=
  (identOf .audioIn (fld r.w1 15 0) s).used = true ∧ mayRoom r (audIn (fld r.w1 15 0) s).room s = true

/-- The settings of an input to attach are in range, and its pin and feed fit the room (R265, R273). -/
def attachFine (room : Nat) (r : Req) (s : State) : Prop :=
  let cfg := r.w2.toNat
  mixes room s = true ∧ cfg < 2 ^ 26 ∧ inChannel cfg < (audRoom room s).channels ∧
    (inFeed cfg = true → feedsShadow room (inChannel cfg) 65536 s < 4 ∧ feedsActive room (inChannel cfg) s < 4) ∧
    (inPin cfg = true → pinsShadow room s < cfgK (shadowRoom (audRoom room s)) ∧ pinsActive room s < cfgK (audRoom room s).cfg)

/-- The decode context that VID_DEC_CREATE asks for (R182, R202). -/
def decAsked (r : Req) : DecCtx :=
  let v : DecCtx := { fn := reqFn r, part := fld r.w1 69 64, wing := fld r.w1 73 72, source := handleIn (fld r.w1 63 0), codec := fld r.w1 75 74,
                      w2 := r.w2, recQueue := fld r.w3 63 0 }
  { v with load := ceilDiv (v.maxW * v.maxH * v.fps) 1000000 }

/-- The output that VID_OUT_CREATE asks for (R209, R234). -/
def outAsked (r : Req) : Output :=
  let v : Output := { fn := reqFn r, part := fld r.w1 5 0, wing := fld r.w1 9 8, w1 := r.w1, w2 := r.w2, w3 := r.w3 }
  { v with load := outLoad v }

/-- The encode context that VID_ENC_CREATE asks for (R238, R256). -/
def encAsked (r : Req) : EncCtx :=
  { fn := reqFn r, output := fld r.w1 12 0, part := fld r.w1 21 16, w1 := r.w1, rate := r.w2, w3 := r.w3 }

/-- An answer over the work's Wing: OK, or DEGRADED while its traffic is rerouted (R31). -/
def doneVia (w : Nat) (t : State) : State × Reply := (t, okVia w 0 t)

end Sys2Proof.Machine
end

