-- ==== Sys2Proof/Certificates/Slice0/Obligations.lean ====
section
/-! DEFINITION. The statements for the provers. A descriptor command's statement is written with `Completes` or `Begins`
(Sys2Proof/Safety.lean): from a queue and from a core's port alike, the command that passes the checks runs as it says. -/

open Sys2Proof Sys2Proof.Machine

/-- A step runs the command at the front of the queue with the queue's rest. For every command c and state s, the step of
s with c at the front of its queue is exec of c on s with the queue's rest. That the module takes one command at a
time from a queue is the model's (log entry 1). (R25, 95_what_each_step_holds.md) -/
def Obligations.StepRunsFrontCommand : Prop :=
  (∀ (c : Instr) (s : State), step { s with pending := c :: s.pending } = exec c s) ∧
  ∀ (c : Instr) (rest : List Instr) (s : State), s.pending = c :: rest → step s = exec c { s with pending := rest }

/-- On an empty queue a resonator cycle passes and the time base advances by its increment. With no command waiting, a
step is one resonator cycle (log entry 1: DESIGN CHOICE). The elapsed resonator time rises by one cycle. The time
base, read as one number of 2^-48 ns units modulo 2^48 seconds, rises by the increment of its present rate; the
remaining offset falls by the correction applied; when that reaches 0, SLEW_DONE is set. With no frequency offset and
nothing to slew, the increment is 6.4 ns rounded to the nearest unit. (R353, R354, R355, R364) -/
def Obligations.EmptyQueueTakesOneCycle : Prop :=
  (∀ s : State, s.pending = [] → s.time.ns < 1000000000 → s.time.sub < 2 ^ 48 → ∃ t : State, step s = .next t ∧ t.res = s.res + 1 ∧ t.pending = [] ∧
    (t.time.sec * 1000000000 + t.time.ns) * 2 ^ 48 + t.time.sub
      = ((s.time.sec * 1000000000 + s.time.ns) * 2 ^ 48 + s.time.sub + increment s.time) % (2 ^ 48 * 1000000000 * 2 ^ 48) ∧
    t.time.rem = s.time.rem - appliedCorr s.time ∧ t.time.evSlewDone = (s.time.evSlewDone || slewEnds s.time) ∧
    t.dram = s.dram ∧ t.hostMem = s.hostMem ∧ t.hq = s.hq ∧ t.keys = s.keys ∧ t.media = s.media) ∧
  ∀ b : TimeBase, b.freqPpb = 0 → b.rem = 0 → increment b = (64 * 2 ^ 48 + 5) / 10

/-- Access codes: W1C bits clear where 1 is written, read-only registers ignore writes, RC counters clear on a read, a
refused write is counted. For PF0 and the control cores. A write to TIME_EVENT clears each event bit where it writes 1
and leaves the others. A write to the read-only KEY_CHALLENGE changes nothing. RC_COUNTER_READ of a die-link counter
returns its value and clears it, and changes nothing else. A write that the page's table does not grant changes
nothing but the counts, records and vectors of the refusal. (R18, R21, R366, R382, R385, R156) -/
def Obligations.AccessCodesOfRegisters : Prop :=
  (∀ (who : Nat) (v : BitVec 64) (s : State), who = 0 ∨ 64 ≤ who → mayWrite who 0x600030 s →
    exec (.registerWrite who 0x600030 v) s = .next { s with time := { s.time with
      evPpsShort := s.time.evPpsShort && !v.getLsbD 4, evPpsIn := s.time.evPpsIn && !v.getLsbD 3,
      evStepped := s.time.evStepped && !v.getLsbD 2, evJump := s.time.evJump && !v.getLsbD 1,
      evSlewDone := s.time.evSlewDone && !v.getLsbD 0 } }) ∧
  (∀ (who : Nat) (v : BitVec 64) (s : State), who = 0 ∨ 64 ≤ who → mayWrite who 0xC00008 s →
    exec (.registerWrite who 0xC00008 v) s = .next s) ∧
  (∀ (who link dir c : Nat) (s : State), who = 0 ∨ 64 ≤ who → who < 128 → link < 10 → dir < 2 → c < 4 →
    accHas tgPage 1 who bitRead s = true →
    exec (.rcCounterRead who (dlCtr link dir c)) s =
      .next { s with ctr := s.ctr.del (dlCtr link dir c), readData := ctrGet (dlCtr link dir c) s }) ∧
  ∀ (who off : Nat) (v : BitVec 64) (s : State), who = 0 ∨ 64 ≤ who → who < 128 → off < 0x200000 → off % 8 = 0 →
    accHas tgPage (off / 4096) who bitWrite s = false →
    exec (.registerWrite who off v) s = .next (accRefuse tgPage (off / 4096) who s)

/-- Wide registers: a written low half is held for its master, a low-half read latches the high half. WIDE_LOW_WRITE of
the low half of HQ_PUSH holds the value for the writing master and changes nothing else: at the queue's offset in the
owner view for PF0 and the control cores, and at its offset in the window of the owning VF. WIDE_LOW_READ of TIME_NOW
returns nanoseconds and fraction, latches the seconds for the reading master, and a later read of the high half by
that master returns the latched seconds. (R17, R366, R415, R501) -/
def Obligations.WideRegisterHalves : Prop :=
  (∀ (who q : Nat) (v : BitVec 64) (s : State), who = 0 ∨ 64 ≤ who → q < 8192 → mayWrite who (hqOff q 0x20) s →
    exec (.wideLowWrite who (hqOff q 0x20) v) s =
      .next { s with lowHeld := s.lowHeld.set (hqOff q 0x20 * 256 + who) v.toNat }) ∧
  (∀ (who k : Nat) (v : BitVec 64) (s : State), 0 < who → who < 64 → k < 128 → mayWrite who (hqOff (who * 128 + k) 0x20) s →
    exec (.wideLowWrite who (0x8020 + k * 0x80) v) s =
      .next { s with lowHeld := s.lowHeld.set (hqOff (who * 128 + k) 0x20 * 256 + who) v.toNat }) ∧
  ∀ (who : Nat) (s : State), who = 0 ∨ 64 ≤ who → who < 128 → accHas tgPage 0x600 who bitRead s = true →
    s.ctr.find? 0x600000 = none → s.ctr.find? 0x600008 = none →
    ∃ t : State, exec (.wideLowRead who 0x600000) s = .next t ∧ t.readData = s.time.ns % 2 ^ 30 * 65536 + s.time.sub / 2 ^ 32 % 65536 ∧
      t.time = s.time ∧ peek who 0x600008 t = s.time.sec ∧ t.latch = s.latch.set (0x600000 * 256 + who) s.time.sec

/-- Release raises the generation and starts the quarantine, handles of the old use are stale, the end frees the number;
BODY_QUARANTINE sets the period. Releasing an identifier raises its generation by 1 modulo 4,096 and starts its
quarantine; while that lasts the identifier is not free. A handle whose GEN differs from the current generation is
stale, whether or not the identifier is in use; with the current generation of an identifier not in use it names
nothing. QUARANTINE_END, for every kind of identifier, once the period of one that is not in use has passed, ends its
quarantine, whereupon it is free, and changes nothing else; of a queue likewise; before that, and of an identifier in
use, it changes nothing. A number below the count is never allocated while a lower one is free. For PF0 and the
control cores, where the page's table grants Write, REGISTER_WRITE of BODY_QUARANTINE with a value of 100 to 60,000 in
bits 15:0 changes QUARANTINE_MS to it and nothing else, and with any other value it changes nothing. (R6, R7, R8, R9,
R11, R18, R382) -/
def Obligations.IdentifiersAndQuarantine : Prop :=
  (∀ (k : IdKind) (i : Nat) (s : State), identOf k i (releaseId k i s) =
    { gen := ((identOf k i s).gen + 1) % 4096, used := false, quarUntil := nowNs s + s.body.quarantineMs * 1000000
      quarMs := s.body.quarantineMs }) ∧
  (∀ (k : IdKind) (i : Nat) (s : State), 0 < s.body.quarantineMs → idBusy k i (releaseId k i s) = true) ∧
  (∀ (k : IdKind) (h : Nat) (s : State), handleKind h = kindCode k → handleIdx h < k.cap →
    (resolve k h s = .stale ↔ handleGen h ≠ (identOf k (handleIdx h) s).gen) ∧
    (handleGen h = (identOf k (handleIdx h) s).gen → (identOf k (handleIdx h) s).used = false → resolve k h s = .refused)) ∧
  (∀ (k : IdKind) (i : Nat) (s : State), k ≠ .queue → i < k.cap → (identOf k i s).used = false → (identOf k i s).quarUntil ≤ nowNs s →
    exec (.quarantineEnd k i) s = .next { s with ids := s.ids.set (idKey k i) { identOf k i s with quarUntil := 0 } }) ∧
  (∀ (k : IdKind) (i : Nat) (s : State), (identOf k i s).used = false →
    idBusy k i { s with ids := s.ids.set (idKey k i) { identOf k i s with quarUntil := 0 } } = false) ∧
  (∀ (i : Nat) (s : State), i < 8192 → (queueOf i s).quarUntil ≤ nowNs s →
    exec (.quarantineEnd .queue i) s = .next (setQueue i { queueOf i s with quarUntil := 0 } s)) ∧
  (∀ (k : IdKind) (i : Nat) (s : State), k ≠ .queue → i < k.cap → (identOf k i s).used = true ∨ nowNs s < (identOf k i s).quarUntil →
    exec (.quarantineEnd k i) s = .next s) ∧
  (∀ (k : IdKind) (lo hi i : Nat) (s : State), lowestFree k lo hi s = some i →
    lo ≤ i ∧ i < hi ∧ idBusy k i s = false ∧ ∀ j, lo ≤ j → j < i → idBusy k j s = true) ∧
  ∀ (who : Nat) (v : BitVec 64) (s : State), who = 0 ∨ 64 ≤ who → mayWrite who 0x120 s →
    exec (.registerWrite who 0x120 v) s =
      .next (if 100 ≤ fld v 15 0 ∧ fld v 15 0 ≤ 60000 then { s with body := { s.body with quarantineMs := fld v 15 0 } } else s)

/-- Die-link blocks: the awaited block with a good CRC is released, a bad one is discarded and counted, a duplicate is
dropped, a replay resends in order. On an UP link, for a block of 16 words that arrives as got: if its CRC matches and
its sequence number is the awaited one, it is released once, GOOD counts, OVERTIME counts where two replays have
resent it, and the next number is awaited; if its CRC fails on the awaited block, nothing is released, CRC counts,
and, short of the eighth failure in a row, the receiver requests its replay and only discards until then; if its CRC
matches and it was released before, it is dropped and counted. DL_REPLAY_REQUEST for the requested block, which the
replay buffer holds, resends from that block onward in order. DL_BLOCK_RX and DL_REPLAY_REQUEST leave both memories
unchanged in each of these cases. (R27, R28, R29, R30, R32, R33) -/
def Obligations.DieLinkBlocks : Prop :=
  (∀ (link dir : Nat) (sent got : List (BitVec 128)) (seq : Nat) (crc : BitVec 32) (s : State),
    link < 10 → dir < 2 → seq < 1024 → sent.length = 16 → got.length = 16 → linkUp link s = true → blockCrc got seq = crc →
    seq = ((linkOf link s).side dir).rxNext →
    ∃ t : State, exec (.dlBlockRx link dir sent got seq crc) s = .next t ∧ t.out = .dlRelease link dir seq :: s.out ∧
      ctrGet (dlCtr link dir 0) t = satAdd 64 (ctrGet (dlCtr link dir 0) s) 1 ∧
      ((linkOf link t).side dir).rxNext = (seq + 1) % 1024 ∧ ((linkOf link t).side dir).discarding = false ∧
      ctrGet (dlCtr link dir 3) t = (if 2 ≤ ((linkOf link s).side dir).resent.count seq
        then satAdd 64 (ctrGet (dlCtr link dir 3) s) 1 else ctrGet (dlCtr link dir 3) s) ∧
      (∀ n, n ≠ link → linkOf n t = linkOf n s) ∧ t.dram = s.dram ∧ t.hostMem = s.hostMem) ∧
  (∀ (link dir : Nat) (sent got : List (BitVec 128)) (seq : Nat) (crc : BitVec 32) (s : State),
    link < 10 → dir < 2 → seq < 1024 → sent.length = 16 → got.length = 16 → linkUp link s = true → blockCrc got seq ≠ crc →
    seq = ((linkOf link s).side dir).rxNext → ((linkOf link s).side dir).fails < 7 →
    ∃ t : State, exec (.dlBlockRx link dir sent got seq crc) s = .next t ∧ t.out = .dlRequest link dir seq :: s.out ∧
      ctrGet (dlCtr link dir 1) t = satAdd 64 (ctrGet (dlCtr link dir 1) s) 1 ∧
      ((linkOf link t).side dir).rxNext = ((linkOf link s).side dir).rxNext ∧ ((linkOf link t).side dir).discarding = true ∧
      ((linkOf link t).side dir).wanted = some seq ∧
      ((linkOf link t).side dir).fails = ((linkOf link s).side dir).fails + 1 ∧ t.dram = s.dram ∧ t.hostMem = s.hostMem) ∧
  (∀ (link dir : Nat) (sent got : List (BitVec 128)) (seq : Nat) (crc : BitVec 32) (s : State),
    link < 10 → dir < 2 → seq < 1024 → sent.length = 16 → got.length = 16 → linkUp link s = true → blockCrc got seq = crc →
    released ((linkOf link s).side dir) seq = true →
    ∃ t : State, exec (.dlBlockRx link dir sent got seq crc) s = .next t ∧ t.out = s.out ∧
      ctrGet (dlCtr link dir 2) t = satAdd 64 (ctrGet (dlCtr link dir 2) s) 1 ∧
      ((linkOf link t).side dir).rxNext = ((linkOf link s).side dir).rxNext ∧ t.dram = s.dram ∧ t.hostMem = s.hostMem) ∧
  ∀ (link dir seq : Nat) (s : State), link < 10 → dir < 2 → seq < 1024 → linkUp link s = true →
    ((linkOf link s).side dir).wanted = some seq → ((linkOf link s).side dir).buffer.any (fun b => b.1 == seq) = true →
    ∃ t : State, exec (.dlReplayRequest link dir seq) s = .next t ∧
      t.out = ((((linkOf link s).side dir).buffer.dropWhile (fun b => b.1 != seq)).map (fun b => Out.dlResend link dir b.1)).reverse ++ s.out ∧
      ctrGet (dlCtr link dir 2) t = satAdd 64 (ctrGet (dlCtr link dir 2) s) 1 ∧
      ((linkOf link t).side dir).buffer = ((linkOf link s).side dir).buffer ∧ ((linkOf link t).side dir).wanted = none ∧
      t.dram = s.dram ∧ t.hostMem = s.hostMem

/-- Die-link retraining: a retrain that succeeds takes the link UP, the third failure DOWN, RETRAIN and HOLD_DOWN act
through BODY_DL_CTRL. DL_RETRAIN_END on a RETRAINING link: success makes it UP with no failures in a row and the
traffic takes its routes again; the third failure in a row takes it DOWN; an earlier one starts the next attempt.
RETRAIN, where the page's table grants Write and the link is not held, clears RETRAIN_FAILS and starts a retrain.
HOLD_DOWN in DEBUG_ENABLED takes the link DOWN, with no transition of one that is DOWN already; in another lifecycle
state it changes nothing. A link let go of retrains, which is the model's (log entry 10), but one that 3 failed
retrains have left DOWN stays so. (R30, R31, R34, R382) -/
def Obligations.DieLinkRetraining : Prop :=
  (∀ (link : Nat) (s : State), link < 10 → (linkOf link s).state = 3 →
    exec (.dlRetrainEnd link true) s = .next (reroute (setLink link { linkOf link s with state := 2, retrainFails := 0 } s))) ∧
  (∀ (link : Nat) (s : State), link < 10 → (linkOf link s).state = 3 → 2 ≤ (linkOf link s).retrainFails →
    exec (.dlRetrainEnd link false) s =
      .next (linkDown link (setLink link { linkOf link s with retrainFails := (linkOf link s).retrainFails + 1 } s))) ∧
  (∀ (link : Nat) (s : State), link < 10 → (linkOf link s).state = 3 → (linkOf link s).retrainFails < 2 →
    exec (.dlRetrainEnd link false) s =
      .next (retrain link (linkOf link s).cause (setLink link { linkOf link s with retrainFails := (linkOf link s).retrainFails + 1 } s))) ∧
  (∀ (who link : Nat) (s : State), link < 10 → mayWrite who (0x1008 + link * 0x80) s → (linkOf link s).holdDown = false →
    exec (.retrain who link) s = .next (retrain link 255 (setLink link { linkOf link s with retrainFails := 0 } s))) ∧
  (∀ (who link : Nat) (s : State), link < 10 → mayWrite who (0x1008 + link * 0x80) s → s.keys.life = 2 → (linkOf link s).holdDown = false →
    exec (.holdDown who link true) s = .next (if (linkOf link s).state = 0 then setLink link { linkOf link s with holdDown := true } s
      else linkDown link (setLink link { linkOf link s with holdDown := true } s))) ∧
  (∀ (who link : Nat) (s : State), link < 10 → mayWrite who (0x1008 + link * 0x80) s → s.keys.life = 2 → (linkOf link s).holdDown = true →
    exec (.holdDown who link false) s = .next (if 3 ≤ (linkOf link s).retrainFails then setLink link { linkOf link s with holdDown := false } s
      else retrain link 255 (setLink link { linkOf link s with holdDown := false } s))) ∧
  ∀ (who link : Nat) (on : Bool) (s : State), link < 10 → mayWrite who (0x1008 + link * 0x80) s → s.keys.life ≠ 2 →
    exec (.holdDown who link on) s = .next s

/-- Power: the antenna monitor's measurement, the loop pass with the posture in force, the write of the posture.
ANTENNA_MEASURE stores the loop time, the temperature and, for an island with committed load that has a deadline, the
slack of R45 (cut to the field of PWR_ANT), else 0. VOLTAGE_LOOP_PASS, once every antenna monitor has measured and at
each point of the 50 us grid that begins there, puts the posture last written in force, keeps the measured input power
and case temperature, and leaves the memories, queues and key slots unchanged; at any other time it changes nothing.
POSTURE, where the page's table grants Write, stores the posture for the next pass; 3 changes nothing. (R45, R47, R49,
R50, R53, R54, R382) -/
def Obligations.PowerPostureAndLoop : Prop :=
  (∀ (i loopPs : Nat) (tempC : Int) (s : State), i < 96 →
    exec (.antennaMeasure i loopPs tempC) s = .next (setIsland i { islandOf i s with
      loopPs := loopPs % 65536, tempC := tempC,
      slack := if islandLoaded i s = true ∧ i ≠ 95 then
        clampInt (Int.fdiv (1000 * (Config.deadlinePs i (loadOf i s) : Int)
          - (Config.kFactor i : Int) * loopPs) (Config.deadlinePs i (loadOf i s))) (-2048) 2047
        else 0
      seen := true
      aboveSince := aboveBand i (if islandLoaded i s = true ∧ i ≠ 95 then
        clampInt (Int.fdiv (1000 * (Config.deadlinePs i (loadOf i s) : Int)
          - (Config.kFactor i : Int) * loopPs) (Config.deadlinePs i (loadOf i s))) (-2048) 2047
        else 0) s } s)) ∧
  (∀ (inputW : Nat) (caseC : Int) (s : State),
    (s.power.loopFrom = none ∧ ∀ i, i < 96 → (islandOf i s).seen = true) ∨ (s.power.loopFrom ≠ none ∧ s.power.nextPass ≤ nowNs s) →
    ∃ t : State, exec (.voltageLoopPass inputW caseC) s = .next t ∧
    t.power.active = s.power.posture ∧ t.power.posture = s.power.posture ∧ t.power.inputW = inputW % 65536 ∧ t.power.caseC = caseC ∧
    t.power.loopFrom = some (s.power.loopFrom.getD (nowNs s)) ∧
    t.power.nextPass = s.power.loopFrom.getD (nowNs s) + ((nowNs s - s.power.loopFrom.getD (nowNs s)) / 50000 + 1) * 50000 ∧
    t.dram = s.dram ∧ t.hostMem = s.hostMem ∧ t.hq = s.hq ∧ t.keys = s.keys) ∧
  (∀ (inputW : Nat) (caseC : Int) (s : State),
    (s.power.loopFrom = none ∧ ∃ i, i < 96 ∧ (islandOf i s).seen = false) ∨ (s.power.loopFrom ≠ none ∧ nowNs s < s.power.nextPass) →
    exec (.voltageLoopPass inputW caseC) s = .next s) ∧
  ∀ (who : Nat) (v : BitVec 64) (s : State), mayWrite who 0x8000 s →
    exec (.posture who v) s = .next (if fld v 1 0 = 3 then s else { s with power := { s.power with posture := fld v 1 0 } })

/-- TIME_ADJUST slews, steps or sets the time base, and TIME_PTP_BIND binds a record queue, for PF0 and firmware. For PF0
and firmware: TIME_ADJUST in mode 0 with an offset within JUMP_US makes it the remaining offset of the slew; in mode 1
it steps the value by the offset; in mode 2 it sets the value and marks the time base SET. Each completes with OK.
TIME_PTP_BIND with an enabled record queue keeps the queue's handle and the domain number, and with ENABLE clear it
ends the binding. Another function's TIME_ADJUST completes with ACCESS_REFUSED and changes nothing. (R355, R356, R357,
R365, R397, R402) -/
def Obligations.TimeBaseCommands : Prop :=
  Completes .timeAdjust 0xA0
    (fun r s => r.owner = true ∧ fld r.w1 1 0 = 0 ∧ (ofTwos 64 (fld r.w2 63 0)).natAbs ≤ s.time.jumpUs * 1000)
    (fun r s => ({ s with time := { s.time with rem := ofTwos 64 (fld r.w2 63 0) * 10000000000 } }, okWith 0)) ∧
  Completes .timeAdjust 0xA0 (fun r _ => r.owner = true ∧ fld r.w1 1 0 = 1)
    (fun r s =>
      let v := ((((s.time.sec * 1000000000 + s.time.ns : Nat) : Int) + ofTwos 64 (fld r.w2 63 0)) % ((2 ^ 48 * 1000000000 : Nat) : Int)).toNat
      (stepTo (v / 1000000000) (v % 1000000000) s.time.sub s, okWith 0)) ∧
  Completes .timeAdjust 0xA0 (fun r _ => r.owner = true ∧ fld r.w1 1 0 = 2 ∧ fld r.w2 77 48 < 1000000000)
    (fun r s => (stepTo (fld r.w2 47 0) (fld r.w2 77 48) (fld r.w2 93 78 * 2 ^ 32) { s with time := { s.time with isSet := true } }, okWith 0)) ∧
  Completes .timeAdjust 0xA0 (fun r _ => r.owner = false) (fun _ s => (s, refuse stRefused 0)) ∧
  Completes .timePtpBind 0xA2 (fun r s => r.owner = true ∧ bitOf r.w1 72 = true ∧ resolveQueue r (fld r.w1 63 0) s = .ok)
    (fun r s => ({ s with time := { s.time with ptpQueue := fld r.w1 63 0, ptpDomain := fld r.w1 71 64, ptpEnable := true } }, okWith 0)) ∧
  Completes .timePtpBind 0xA2 (fun r _ => r.owner = true ∧ bitOf r.w1 72 = false)
    (fun r s => ({ s with time := { s.time with ptpQueue := fld r.w1 63 0, ptpDomain := fld r.w1 71 64, ptpEnable := false } }, okWith 0))

/-- TIME_PTP_SEND sends the frame, and writes the transmit timestamp to host memory. For PF0 and firmware, a frame of 60
to 2,044 bytes that holds its PTP header and a lane that sends PTP frames (on a Tremund lane its message of at most
2,032 bytes): without one-step the frame is sent as it lies in host memory and, when an address is given, the 16 bytes
of the transmit timestamp are written there; with one-step a Sync message leaves with the transmit timestamp as its
originTimestamp and FRACTION added to its correctionField, a Pdelay_Resp with the transmit timestamp minus REF added
to it, each with its UDP checksum made good, and nothing is written. The reply is OK, or DEGRADED while the traffic of
the lane's Wing is rerouted. (R31, R359, R361, R365) -/
def Obligations.TimePtpSendInserts : Prop :=
  Completes .timePtpSend 0xA1
    (fun r s => r.owner = true ∧ 60 ≤ fld r.w1 75 64 ∧ fld r.w1 75 64 ≤ 2044 ∧ fld r.w1 95 84 + 34 ≤ fld r.w1 75 64 ∧
      ((isTremund (fld r.w1 82 76) s && decide (fld r.w1 75 64 - fld r.w1 95 84 ≤ 2032)) ||
        (isEth (fld r.w1 82 76) s && isPort (fld r.w1 82 76) s)) = true ∧ bitOf r.w1 83 = false)
    (fun r s =>
      let t := ptpTransmit (fld r.w1 82 76) (fld r.w1 95 84) (hostBytes (fld r.w1 63 0) (fld r.w1 75 64) s) s
      doneVia (fld r.w1 82 76 / 32)
        (if fld r.w2 63 0 = 0 then t else hostPut (fld r.w2 63 0) (stampBytes (txStamp (fld r.w1 82 76) s) (fld r.w1 82 76)) t)) ∧
  Completes .timePtpSend 0xA1
    (fun r s => r.owner = true ∧ 60 ≤ fld r.w1 75 64 ∧ fld r.w1 75 64 ≤ 2044 ∧ fld r.w1 95 84 + 34 ≤ fld r.w1 75 64 ∧
      ((isTremund (fld r.w1 82 76) s && decide (fld r.w1 75 64 - fld r.w1 95 84 ≤ 2032)) ||
        (isEth (fld r.w1 82 76) s && isPort (fld r.w1 82 76) s)) = true ∧ bitOf r.w1 83 = true ∧
      fld r.w1 95 84 + 44 ≤ fld r.w1 75 64 ∧
      byteAt (hostBytes (fld r.w1 63 0) (fld r.w1 75 64) s) (fld r.w1 95 84) % 16 = 0)
    (fun r s =>
      let f := hostBytes (fld r.w1 63 0) (fld r.w1 75 64) s
      let off := fld r.w1 95 84
      doneVia (fld r.w1 82 76 / 32) (ptpTransmit (fld r.w1 82 76) off
        (fixUdp (addCorrection (patch f (off + 34) (beBytes 6 (txStamp (fld r.w1 82 76) s).sec ++ beBytes 4 (txStamp (fld r.w1 82 76) s).ns)) off
          (txStamp (fld r.w1 82 76) s).frac)) s)) ∧
  Completes .timePtpSend 0xA1
    (fun r s => r.owner = true ∧ 60 ≤ fld r.w1 75 64 ∧ fld r.w1 75 64 ≤ 2044 ∧ fld r.w1 95 84 + 34 ≤ fld r.w1 75 64 ∧
      ((isTremund (fld r.w1 82 76) s && decide (fld r.w1 75 64 - fld r.w1 95 84 ≤ 2032)) ||
        (isEth (fld r.w1 82 76) s && isPort (fld r.w1 82 76) s)) = true ∧ bitOf r.w1 83 = true ∧
      byteAt (hostBytes (fld r.w1 63 0) (fld r.w1 75 64) s) (fld r.w1 95 84) % 16 = 3)
    (fun r s =>
      let f := hostBytes (fld r.w1 63 0) (fld r.w1 75 64) s
      let x := txStamp (fld r.w1 82 76) s
      doneVia (fld r.w1 82 76 / 32) (ptpTransmit (fld r.w1 82 76) (fld r.w1 95 84)
        (fixUdp (addCorrection f (fld r.w1 95 84)
          (cmpDiff (x.sec % 2 ^ 32 * 1000000000 + x.ns) (fld r.w3 63 0) * 65536 + x.frac - fld r.w3 79 64))) s))

/-- The timing connector: the end of a slew, the 1PPS edges, and shorts of its outputs. SLEW_DONE in the cycle that ends
the slew leaves a remaining offset of 0, sets SLEW_DONE and raises PF0 vector 5. PPS_IN on an enabled edge latches the
timestamp, sets its bit and raises vector 5; an edge of the other polarity, or with the input disabled, changes
nothing. PPS_OUT at a whole second with the output enabled raises the line for PPS_WIDTH_MS. PPS_SHORT limits the line
and sets PPS_SHORT; PPS_SHORT_RETRY after 100 ms ends the limit when the short is gone and else starts the next 100
ms. (R355, R363, R364, R366) -/
def Obligations.TimingConnectorEvents : Prop :=
  (∀ s : State, slewEnds s.time = true → ∃ t : State, exec .slewDone s = .next t ∧ t.time.rem = 0 ∧ t.time.evSlewDone = true ∧
    Out.msix 0 5 ∈ t.out ∧ t.res = s.res + 1 ∧ t.dram = s.dram ∧ t.hostMem = s.hostMem ∧ t.hq = s.hq) ∧
  (∀ (falling : Bool) (s : State), exec (.ppsIn falling) s = .next (if s.time.inEn = true ∧ s.time.inEdge = falling then
      { s with time := { s.time with ppsInTs := ⟨s.time.sec, s.time.ns, s.time.sub / 2 ^ 32⟩, evPpsIn := true }, out := .msix 0 5 :: s.out }
    else s)) ∧
  (∀ s : State, s.time.outEn = true → atSecond s = true → s.time.ppsHigh = none →
    exec .ppsOut s = .next { s with time := { s.time with ppsHigh := some (cmpAdd (cmpNow s) (s.time.widthMs * 1000000)) },
                                    out := .pps true :: s.out }) ∧
  (∀ (line : Nat) (s : State), line < 2 → ∃ t : State, exec (.ppsShort line) s = .next t ∧
    t.time = { s.time with shorts := s.time.shorts.set line (nowNs s), evPpsShort := true } ∧ Out.msix 0 5 ∈ t.out ∧
    t.dram = s.dram ∧ t.hostMem = s.hostMem ∧ t.hq = s.hq ∧ t.keys = s.keys) ∧
  ∀ (line at_ : Nat) (short : Bool) (s : State), line < 2 → s.time.shorts.find? line = some at_ → at_ + 100000000 ≤ nowNs s →
    exec (.ppsShortRetry line short) s = .next { s with time := { s.time with
      shorts := if short then s.time.shorts.set line (nowNs s) else s.time.shorts.del line } }

/-- A DRAM write stores its 64 bytes and no other byte, a read returns them, and a refused request changes no byte. For a
stack in RUN, a burst inside the stack whose region is not FAILED, a master whose entry grants the access and that no
throttle delays, and a transfer without CRC failures: DRAM_REQUEST with 64 bytes stores them at the burst's address
and leaves every other byte of every stack unchanged; a read of a burst that is not poisoned returns the 64 bytes and
changes no byte. The premise on the memory's form is an invariant (MemoryFormKept). Without the bit in the region's
entry a write changes no byte and the refusal is counted, and a read returns all ones, poisoned. (R367, R372, R376,
R377, R382, R385) -/
def Obligations.DramWritesAndReads : Prop :=
  (∀ (m k a : Nat) (bs : List Byte) (s : State), Mem.wf s.dram = true → m < 210 → k < 8 → a % 64 = 0 → a < stackBytes → bs.length = 64 →
    accHas tgRegion (regionOf k a) m bitWrite s = true → (stackOf k s).state = 1 → regionFailed k a s = false →
    mustWait (stackOf k s) (bankOf (stackOf k s) a) m (nowNs s) = false →
    ∃ t : State, exec (.dramRequest m k a (some bs) 0) s = .next t ∧
      t.dram = Mem.writeBytes s.dram (dramAt k a) bs ∧ Mem.readBytes t.dram (dramAt k a) 64 = bs ∧
      (∀ x, x < dramAt k a ∨ dramAt k a + 64 ≤ x → Mem.read t.dram x = Mem.read s.dram x) ∧
      t.hostMem = s.hostMem ∧ t.hq = s.hq ∧ t.keys = s.keys ∧ t.media = s.media) ∧
  (∀ (m k a : Nat) (s : State), m < 210 → k < 8 → a % 64 = 0 → a < stackBytes →
    accHas tgRegion (regionOf k a) m bitRead s = true → (stackOf k s).state = 1 → regionFailed k a s = false →
    mustWait (stackOf k s) (bankOf (stackOf k s) a) m (nowNs s) = false → (stackOf k s).poison.contains a = false →
    ∃ t : State, exec (.dramRequest m k a none 0) s = .next t ∧
      t.burst = Mem.readBytes s.dram (dramAt k a) 64 ∧ t.burstPoison = false ∧ t.dram = s.dram ∧ t.hostMem = s.hostMem) ∧
  (∀ (m k a : Nat) (bs : List Byte) (s : State), m < 210 → k < 8 → a % 64 = 0 → a < stackBytes → bs.length = 64 →
    accHas tgRegion (regionOf k a) m bitWrite s = false →
    ∃ t : State, exec (.dramRequest m k a (some bs) 0) s = .next t ∧ t.dram = s.dram ∧ t.hostMem = s.hostMem ∧
      ctrGet (accRefusedOff tgRegion) t = satAdd 64 (ctrGet (accRefusedOff tgRegion) s) 1 ∧ t.dramStacks = s.dramStacks) ∧
  ∀ (m k a : Nat) (s : State), m < 210 → k < 8 → a % 64 = 0 → a < stackBytes →
    accHas tgRegion (regionOf k a) m bitRead s = false →
    ∃ t : State, exec (.dramRequest m k a none 0) s = .next t ∧ t.dram = s.dram ∧ t.burst = List.replicate 64 0xFF ∧
      t.burstPoison = true

/-- Stack control: RUN acts in INIT, PARK parks, a hash mask is taken in INIT when valid, a window restarts the counts, an
idle stack enters self-refresh. Where the page's table grants Write: RUN on a stack in INIT without PARK sets it to
RUN; PARK on a running stack parks it, giving up the segments outside KEEP; MEM_HASH in INIT with a valid mask sets
the mask, and otherwise sets CFG_ERR and nothing else. RH_WINDOW_START after 32 ms restarts every activation count and
ends the throttles of the windows before. SELF_REFRESH after 1 ms without a request puts a running stack into self-
refresh. Each leaves everything else unchanged. (R370, R371, R373, R374, R379, R380, R382, R387) -/
def Obligations.StackControl : Prop :=
  (∀ (who k : Nat) (s : State), k < 8 → mayWrite who (memOff k 8) s → (stackOf k s).state = 0 → (stackOf k s).park = false →
    exec (.memRun who k) s = .next (setStack k { stackOf k s with state := 1, lastRequest := nowNs s } s)) ∧
  (∀ (who k : Nat) (s : State), k < 8 → mayWrite who (memOff k 8) s → (stackOf k s).state = 1 → (stackOf k s).park = false → s.body.hold = false →
    ∃ t : State, exec (.memPark who k true) s = .next t ∧
      stackOf k t = { stackOf k s with state := 3, park := true, lost := (stackOf k s).lost ||| (255 - (stackOf k s).keep % 256) } ∧
      (∀ j, j ≠ k → stackOf j t = stackOf j s) ∧ t.dram = s.dram ∧ t.hostMem = s.hostMem) ∧
  (∀ (who k i : Nat) (bank : Bool) (v : BitVec 64) (s : State), k < 8 → i < 6 →
    mayWrite who (memOff k ((if bank then 0x70 else 0x40) + i * 8)) s → (stackOf k s).state = 0 →
    maskValid (if bank then 16 + i else 10 + i) (fld v 35 0) = true →
    exec (.memHash who k bank i v) s = .next (setStack k (if bank
      then { stackOf k s with hashBank := (stackOf k s).hashBank.set i (fld v 35 0) }
      else { stackOf k s with hashPc := (stackOf k s).hashPc.set i (fld v 35 0) }) s)) ∧
  (∀ (who k i : Nat) (bank : Bool) (v : BitVec 64) (s : State), k < 8 → i < 6 →
    mayWrite who (memOff k ((if bank then 0x70 else 0x40) + i * 8)) s →
    (stackOf k s).state ≠ 0 ∨ maskValid (if bank then 16 + i else 10 + i) (fld v 35 0) = false →
    exec (.memHash who k bank i v) s = .next (setStack k { stackOf k s with cfgErr := true } s)) ∧
  (∀ (k : Nat) (s : State), k < 8 → (stackOf k s).windowStart + 32000000 ≤ nowNs s → ∃ t : State, exec (.rhWindowStart k) s = .next t ∧
    (stackOf k t).acts = ⟨[]⟩ ∧ (stackOf k t).window = (stackOf k s).window + 1 ∧ (stackOf k t).windowStart = nowNs s ∧
    (∀ x ∈ (stackOf k t).throttles, x ∈ (stackOf k s).throttles ∧ (stackOf k s).window + 1 ≤ x.lastWindow) ∧
    (∀ j, j ≠ k → stackOf j t = stackOf j s) ∧ t.dram = s.dram) ∧
  ∀ (k : Nat) (s : State), k < 8 → (stackOf k s).state = 1 → (stackOf k s).lastRequest + 1000000 ≤ nowNs s →
    exec (.selfRefresh k) s = .next (setStack k { stackOf k s with state := 2 } s)

/-- ACC_WRITE changes exactly the named entry, a locked entry or another master than PF0 and the cores is refused,
ACC_QUERY keeps the writer's selection. Where the page's table grants Write. ACC_WRITE by PF0 or a control core that
names a target that exists, a master below 210 and an entry without Lock, and that takes no grant from under a live
Cocoon surface, sets that entry's bits, latches OK for the writer, and changes no other entry. A locked entry stays as
it is and the writer's result is ACCESS_REFUSED, reason 0x02. ACC_QUERY keeps KIND and INDEX for the writer and
changes nothing else. (R382, R384, R386, R388) -/
def Obligations.AccessTableWrites : Prop :=
  (∀ (who : Nat) (v : BitVec 64) (s : State), who < 128 → (who == 0 || isCore who) = true → accHas tgPage 0x800 who bitWrite s = true →
    fld v 59 44 < targetCount (fld v 63 60) → fld v 43 36 < 210 → accHas (fld v 63 60) (fld v 59 44) (fld v 43 36) bitLock s = false →
    (fld v 63 60 = tgRegion → breaksCocoon (fld v 59 44) { s with acc := { s.acc with
      entries := s.acc.entries.set (entryKey (fld v 63 60) (fld v 59 44) (fld v 43 36)) (fld v 35 32) } } = false) →
    ∃ t : State, exec (.accWrite who v) s = .next t ∧
      accBits (fld v 63 60) (fld v 59 44) (fld v 43 36) t = fld v 35 32 ∧ t.acc.result.get who 0 = 0 ∧
      (∀ e, e ≠ entryKey (fld v 63 60) (fld v 59 44) (fld v 43 36) → t.acc.entries.find? e = s.acc.entries.find? e) ∧
      t.dram = s.dram ∧ t.hostMem = s.hostMem ∧ t.hq = s.hq ∧ t.keys = s.keys ∧ t.media = s.media) ∧
  (∀ (who : Nat) (v : BitVec 64) (s : State), who < 128 → (who == 0 || isCore who) = true → accHas tgPage 0x800 who bitWrite s = true →
    fld v 59 44 < targetCount (fld v 63 60) → fld v 43 36 < 210 → accHas (fld v 63 60) (fld v 59 44) (fld v 43 36) bitLock s = true →
    exec (.accWrite who v) s = .next { s with acc := { s.acc with result := s.acc.result.set who (0x05 * 256 + 0x02) } }) ∧
  ∀ (who : Nat) (v : BitVec 64) (s : State), who < 128 → accHas tgPage 0x800 who bitWrite s = true →
    exec (.accQuery who v) s = .next { s with acc := { s.acc with query := s.acc.query.set who (fld v 63 60 * 65536 + fld v 59 44) } }

/-- A descriptor with an undefined opcode completes with ACCESS_REFUSED and progress 0, and changes nothing. Whatever
source brings it: UNDEFINED_OPCODE, for a descriptor with its common reserved bits 0 (the check that R402 puts first)
and an opcode that is reserved or not defined, is that descriptor's completion with ACCESS_REFUSED, progress 0 and
reason BAD_OPCODE, over the state once the command has been taken; nothing else changes. (R15) -/
def Obligations.UndefinedOpcodeRefused : Prop :=
  ∀ (src : CmdSrc) (s s1 : State) (r : Req) (tail : Bool), src.wf = true → fetched src s = some (r, tail, s1) →
    commonClear r.w0 = true → tail = true → opcodeDefined (fld r.w0 7 0) = false →
    exec (.undefinedOpcode src) s = .next (complete r.tk ⟨0x05, 0, 0xF1⟩ s1)

/-- Checks 1 to 3 answer every descriptor command before its chapter does: BAD_COMMON, then SAFE_HOLD. For each of the 87
descriptor rows of the table: a descriptor of its opcode with a non-zero common reserved bit completes with
NOT_STARTED, reason BAD_COMMON; and in Safe Hold every one but NOP and the recorder's completes with NOT_STARTED,
reason SAFE_HOLD. Nothing else changes. (R402, R404, R487, R488) -/
def Obligations.CommonChecksOfCommands : Prop :=
  ∀ c ∈ commandRows, ∀ (src : CmdSrc) (s s1 : State) (r : Req) (tail : Bool), src.wf = true → fetched src s = some (r, tail, s1) →
    fld r.w0 7 0 = c.2 →
    (commonClear r.w0 = false ∨ tail = false → exec (c.1 src) s = .next (complete r.tk ⟨0x02, 0, 0xF0⟩ s1)) ∧
    (commonClear r.w0 = true → tail = true → s1.body.hold = true → c.2 ≠ 0 → c.2 < 0xD0 →
      exec (c.1 src) s = .next (complete r.tk ⟨0x02, 0, 0xF3⟩ s1))

/-- A completion ends its command: BUSY clears, and the two words go to the CQ unless the command is QUIET and OK. The
completion of the command in progress on a command queue clears BUSY and moves LAST_DONE; with QUIET and OK it writes
nothing; otherwise the packet of its two words, stamped with the compare word, becomes visible on the completion queue
behind those that are there. A command of firmware leaves the commands in progress of the port and is noted for its
core. (R402, R403, R404, R405, R406) -/
def Obligations.CompletionsAreWritten : Prop :=
  (∀ (t : Ticket) (r : Reply) (s : State) (b : Taken), t.fw = false → (queueOf t.queue s).busy = some b → b.op = t.op →
    t.queue ≠ cqOf t.queue s →
    (queueOf t.queue (complete t r s)).busy = none ∧ (r.st = stOk ∧ t.quiet = true → ∀ q, q ≠ t.queue → queueOf q (complete t r s) = queueOf q s) ∧
    (¬(r.st = stOk ∧ t.quiet = true) → (queueOf (cqOf t.queue s) (complete t r s)).visible
      = (queueOf (cqOf t.queue s) s).visible ++ [⟨completionWords (cmpNow s) ⟨t.queue, t.qgen, t.seq, t.opcode, r.st, r.prog, r.det, t.tag⟩, nowNs s⟩])) ∧
  ∀ (t : Ticket) (r : Reply) (s : State), t.fw = true → s.fwOps.contains t.op = true →
    complete t r s = { s with
      fwOps := s.fwOps.erase t.op
      fwDone := (t.core, ⟨t.queue, t.qgen, t.seq, t.opcode, r.st, r.prog, r.det, t.tag⟩) :: s.fwDone }

/-- HQ_PUSH: DATA words build a packet, a LENGTH word makes it visible, and a stale, wrong, full or refused push is
counted. For a master that may push, the word is the written high half with the low half held for that master, which
returns to 0. A DATA word opens a packet when 2 words are free, joins the open one when 1 is free, and else is counted
refused, the open packet marked broken. A LENGTH word with the queue's generation and the packet's count makes it
visible; with another generation the packet's words count as stale, with a wrong count as discarded. (No flush is
pending.) A word of another kind, or one that the queue's table refuses, counts as refused and changes nothing else.
(R17, R389, R390, R392, R393, R415) -/
def Obligations.QueuePushesBuildPackets : Prop :=
  (∀ (who q : Nat) (hi : BitVec 64) (s : State), mayPush who q s → tagOf (pushedWord who q hi s) = tagData → (queueOf q s).opened = none →
    exec (.hqPush who q hi) s = .next (if (queueOf q s).words + 2 ≤ (queueOf q s).capacity
      then setQueue q { queueOf q s with opened := some ⟨[pushedWord who q hi s], false⟩ } (lowTaken who q s)
      else count (hqRefusedOff q) 1 (lowTaken who q s))) ∧
  (∀ (who q : Nat) (hi : BitVec 64) (s : State) (o : OpenPacket), mayPush who q s → tagOf (pushedWord who q hi s) = tagData →
    (queueOf q s).opened = some o →
    exec (.hqPush who q hi) s = .next (if (queueOf q s).words + 1 ≤ (queueOf q s).capacity
      then setQueue q { queueOf q s with opened := some ⟨o.words ++ [pushedWord who q hi s], o.broken⟩ } (lowTaken who q s)
      else count (hqRefusedOff q) 1 (setQueue q { queueOf q s with opened := some ⟨o.words, true⟩ } (lowTaken who q s)))) ∧
  (∀ (who q : Nat) (hi : BitVec 64) (s : State) (o : OpenPacket), mayPush who q s → tagOf (pushedWord who q hi s) = tagLength →
    (queueOf q s).opened = some o → (queueOf q s).flushPending = false → o.broken = false →
    fld (pushedWord who q hi s) 119 108 = (queueOf q s).qgen → fld (pushedWord who q hi s) 15 0 = o.words.length → o.words.length ≤ 1024 →
    ∃ t : State, exec (.hqPush who q hi) s = .next t ∧ (queueOf q t).visible = (queueOf q s).visible ++ [⟨o.words, nowNs s⟩] ∧
      (queueOf q t).opened = none ∧ (∀ p, p ≠ q → queueOf p t = queueOf p s) ∧ t.hostMem = s.hostMem ∧ t.dram = s.dram ∧ t.ctr = s.ctr) ∧
  (∀ (who q : Nat) (hi : BitVec 64) (s : State) (o : OpenPacket), mayPush who q s → tagOf (pushedWord who q hi s) = tagLength →
    (queueOf q s).opened = some o → (queueOf q s).flushPending = false →
    fld (pushedWord who q hi s) 119 108 ≠ (queueOf q s).qgen →
    ∃ t : State, exec (.hqPush who q hi) s = .next t ∧ (queueOf q t).visible = (queueOf q s).visible ∧ (queueOf q t).opened = none ∧
      ctrGet (hqStaleOff q) t = satAdd 64 (ctrGet (hqStaleOff q) s) (o.words.length + 1) ∧ t.hostMem = s.hostMem ∧ t.dram = s.dram) ∧
  (∀ (who q : Nat) (hi : BitVec 64) (s : State) (o : OpenPacket), mayPush who q s → tagOf (pushedWord who q hi s) = tagLength →
    (queueOf q s).opened = some o → (queueOf q s).flushPending = false →
    fld (pushedWord who q hi s) 119 108 = (queueOf q s).qgen →
    o.broken = true ∨ fld (pushedWord who q hi s) 15 0 ≠ o.words.length ∨ 1024 < o.words.length →
    ∃ t : State, exec (.hqPush who q hi) s = .next t ∧ (queueOf q t).visible = (queueOf q s).visible ∧ (queueOf q t).opened = none ∧
      ctrGet (hqDiscardedOff q) t = satAdd 64 (ctrGet (hqDiscardedOff q) s) (o.words.length + 1) ∧ t.hostMem = s.hostMem ∧ t.dram = s.dram) ∧
  (∀ (who q : Nat) (hi : BitVec 64) (s : State), q < 8192 → mayWrite who (hqOff q 0x20) s →
    accHas tgQueue q who bitWrite s = false ∨ ((queueOf q s).kind = 1 ∧ who = q / 128) ∨ (queueOf q s).enable = false ∨
      (tagOf (pushedWord who q hi s) ≠ tagData ∧ tagOf (pushedWord who q hi s) ≠ tagLength) →
    ∃ t : State, exec (.hqPush who q hi) s = .next t ∧ queueOf q t = queueOf q s ∧ t.hq = s.hq ∧ t.hostMem = s.hostMem ∧ t.dram = s.dram ∧
      ctrGet (hqRefusedOff q) t = satAdd 64 (ctrGet (hqRefusedOff q) s) 1)

/-- HQ_POP returns the words of the visible packets in order, and NOT_VALID on an empty or refused queue. For a master
that may pop: with no packet begun, the pop returns the LENGTH word of the first visible packet, which is then begun;
with one begun, its next DATA word; with nothing visible, NOT_VALID (0), and the queue stays. The low half is returned
and the high half latched for that master. The words are then free, and the command queues that owe completions there
write them. A pop that the queue's table refuses returns NOT_VALID, pops nothing, and is counted. (R17, R391, R393,
R415) -/
def Obligations.QueuePopsReturnWords : Prop :=
  (∀ (who q : Nat) (s : State) (p : Packet) (rest : List Packet), mayPop who q s → (queueOf q s).begun = [] → (queueOf q s).visible = p :: rest →
    exec (.hqPop who q) s = .next (roomFreed q { setQueue q { queueOf q s with visible := rest, begun := p.words } s with
      readData := (lengthWord (queueOf q s).qgen p.words.length).toNat % 2 ^ 64,
      latch := s.latch.set (hqOff q 0x30 * 256 + who) ((lengthWord (queueOf q s).qgen p.words.length).toNat / 2 ^ 64) })) ∧
  (∀ (who q : Nat) (s : State) (w : Word128) (rest : List Word128), mayPop who q s → (queueOf q s).begun = w :: rest →
    exec (.hqPop who q) s = .next (roomFreed q { setQueue q { queueOf q s with begun := rest } s with
      readData := w.toNat % 2 ^ 64, latch := s.latch.set (hqOff q 0x30 * 256 + who) (w.toNat / 2 ^ 64) })) ∧
  (∀ (who q : Nat) (s : State), mayPop who q s → (queueOf q s).begun = [] → (queueOf q s).visible = [] →
    exec (.hqPop who q) s = .next (roomFreed q { setQueue q (queueOf q s) s with
      readData := 0, latch := s.latch.set (hqOff q 0x30 * 256 + who) 0 })) ∧
  (∀ (q : Nat) (s : State), (roomFreed q s).readData = s.readData ∧ (roomFreed q s).latch = s.latch ∧ (roomFreed q s).hostMem = s.hostMem ∧
    (roomFreed q s).dram = s.dram) ∧
  ∀ (who q : Nat) (s : State), q < 8192 → who < 128 → who = 0 ∨ 64 ≤ who ∨ who = q / 128 →
    accHas tgPage (hqOff q 0x30 / 4096) who bitRead s = true → accHas tgQueue q who bitRead s = false →
    ∃ t : State, exec (.hqPop who q) s = .next t ∧ t.readData = 0 ∧ t.hq = s.hq ∧
      ctrGet (hqRefusedOff q) t = satAdd 64 (ctrGet (hqRefusedOff q) s) 1

/-- HQ_CFG enables a free queue afresh, releases an empty one into quarantine, and else sets CFG_ERR. For a master that
may configure the queue. Clearing ENABLE of an enabled queue with no words, no command in progress and no command
queue that names it disables it and starts its quarantine; any other write to an enabled queue only sets CFG_ERR. A
valid write with ENABLE to a disabled queue out of quarantine, with the pool's words there, enables it empty, its SEQ
from 0, a new generation after its first use, halted only in Safe Hold; without ENABLE it sets the fields; an invalid
depth or kind only sets CFG_ERR. (R393, R396, R398, R403, R415) -/
def Obligations.QueueConfiguration : Prop :=
  (∀ (who q : Nat) (v : BitVec 64) (s : State), mayControl who q 0 s → (queueOf q s).enable = true → bitOf v 0 = false →
    (queueOf q s).words = 0 → (queueOf q s).busy = none → ((queueOf q s).kind = 1 → namedAsCq q s = false) →
    exec (.hqCfg who q v) s = .next (setQueue q { queueOf q s with
      enable := false
      quarUntil := nowNs s + s.body.quarantineMs * 1000000
      quarMs := s.body.quarantineMs } s)) ∧
  (∀ (who q : Nat) (v : BitVec 64) (s : State), mayControl who q 0 s → (queueOf q s).enable = true →
    bitOf v 0 = true ∨ 0 < (queueOf q s).words ∨ (queueOf q s).busy.isSome = true →
    exec (.hqCfg who q v) s = .next (setQueue q { queueOf q s with cfgErr := true } s)) ∧
  (∀ (who q : Nat) (v : BitVec 64) (s : State), mayControl who q 0 s → (queueOf q s).enable = false → bitOf v 0 = true →
    4 ≤ fld v 19 16 → fld v 19 16 ≤ 16 → fld v 2 1 < 2 → (queueOf q s).quarUntil ≤ nowNs s → poolUsed s + 2 ^ fld v 19 16 ≤ 2097152 →
    ∃ t : State, exec (.hqCfg who q v) s = .next t ∧ (queueOf q t).enable = true ∧ (queueOf q t).cq = fld v 31 24 ∧
      (queueOf q t).depthLog2 = fld v 19 16 ∧ (queueOf q t).kind = fld v 2 1 ∧ (queueOf q t).mirror = bitOf v 3 ∧ (queueOf q t).words = 0 ∧
      (queueOf q t).next = 0 ∧ (queueOf q t).busy = (queueOf q s).busy ∧
      (queueOf q t).halted = (fld v 2 1 == 0 && s.body.hold) ∧
      (queueOf q t).qgen = (if (queueOf q s).everEnabled then ((queueOf q s).qgen + 1) % 4096 else (queueOf q s).qgen) ∧
      (∀ p, p ≠ q → queueOf p t = queueOf p s) ∧ t.ctr = s.ctr ∧ t.hostMem = s.hostMem ∧ t.dram = s.dram) ∧
  (∀ (who q : Nat) (v : BitVec 64) (s : State), mayControl who q 0 s → (queueOf q s).enable = false → bitOf v 0 = false →
    4 ≤ fld v 19 16 → fld v 19 16 ≤ 16 → fld v 2 1 < 2 →
    exec (.hqCfg who q v) s = .next (setQueue q { queueOf q s with
      cq := fld v 31 24, depthLog2 := fld v 19 16, mirror := bitOf v 3, kind := fld v 2 1 } s)) ∧
  ∀ (who q : Nat) (v : BitVec 64) (s : State), mayControl who q 0 s → (queueOf q s).enable = false →
    fld v 19 16 < 4 ∨ 16 < fld v 19 16 ∨ 2 ≤ fld v 2 1 →
    exec (.hqCfg who q v) s = .next (setQueue q { queueOf q s with cfgErr := true } s)

/-- FLUSH takes effect at the packet boundary, a hard flush raises QGEN, RESUME ends a halt. For a master that may control
the queue. FLUSH of a queue with an open packet sets FLUSH_PENDING and, with HARD_MS, its instant, and discards
nothing; without one it takes effect at once (the flush of R394 that a hard flush and the close of a packet make too):
of a record queue that no command queue's owed completions wait for, every visible packet is discarded, the begun one
stays, and the discarded words are counted. HARD_FLUSH at its instant, QGEN's last change a quarantine period away,
discards the open packet and raises QGEN by 1 modulo 4,096. RESUME of a halted queue, where no erase of its possibly
partial command runs and it is not held by Safe Hold, clears HALTED and PARTIAL_VALID together. (R393, R394, R395,
R405, R451, R488) -/
def Obligations.QueueFlushAndResume : Prop :=
  (∀ (who q ms : Nat) (s : State), mayControl who q 0x10 s → ms < 65536 → (queueOf q s).opened.isSome = true →
    exec (.flush who q ms) s = .next (setQueue q { queueOf q s with
      flushPending := true
      hardAt := if ms = 0 then (queueOf q s).hardAt else some (nowNs s + ms * 1000000) } s)) ∧
  (∀ (who q ms : Nat) (s : State), mayControl who q 0x10 s → ms < 65536 → (queueOf q s).opened = none →
    exec (.flush who q ms) s = .next (flushNow q s)) ∧
  (∀ (who q ms : Nat) (s : State), mayControl who q 0x10 s → ms < 65536 → (queueOf q s).opened = none → (queueOf q s).kind = 1 →
    (queueOf q s).owed = [] → (∀ c ∈ s.hq.toList, c.2.kind = 0 → c.2.owed = []) →
    ∃ t : State, exec (.flush who q ms) s = .next t ∧ (queueOf q t).visible = [] ∧ (queueOf q t).begun = (queueOf q s).begun ∧
      (queueOf q t).flushPending = false ∧ ((queueOf q s).visible ≠ [] → ctrGet (hqDiscardedOff q) t
        = satAdd 64 (ctrGet (hqDiscardedOff q) s) ((queueOf q s).visible.map (fun p => p.words.length + 1)).sum) ∧
      (∀ p, p ≠ q → queueOf p t = queueOf p s) ∧ t.hostMem = s.hostMem ∧ t.dram = s.dram) ∧
  (∀ (q at_ : Nat) (s : State), q < 8192 → (queueOf q s).opened.isSome = true → (queueOf q s).hardAt = some at_ →
    (queueOf q s).flushPending = true → at_ ≤ nowNs s → qgenMayChange (queueOf q s) s = true → (queueOf q s).kind = 1 → (queueOf q s).owed = [] →
    (∀ c ∈ s.hq.toList, c.2.kind = 0 → c.2.owed = []) →
    ∃ t : State, exec (.hardFlush q) s = .next t ∧ (queueOf q t).opened = none ∧ (queueOf q t).visible = [] ∧
      (queueOf q t).qgen = ((queueOf q s).qgen + 1) % 4096 ∧ (queueOf q t).qgenAt = some (nowNs s) ∧ (queueOf q t).flushPending = false ∧
      (∀ p, p ≠ q → queueOf p t = queueOf p s) ∧ t.hostMem = s.hostMem ∧ t.dram = s.dram) ∧
  ∀ (who q : Nat) (s : State), mayControl who q 0x10 s → (queueOf q s).halted = true → eraseRuns (queueOf q s) s = false →
    s.body.hold = false ∨ q / 128 = 0 →
    ∃ t : State, exec (.resume who q) s = .next t ∧ (queueOf q t).halted = false ∧ (queueOf q t).part = none ∧
      (queueOf q t).next = (queueOf q s).next ∧ (queueOf q t).visible = (queueOf q s).visible ∧
      (∀ p, p ≠ q → queueOf p t = queueOf p s) ∧ t.hostMem = s.hostMem ∧ t.dram = s.dram ∧ t.ctr = s.ctr

/-- Queue vectors and the mirror: an armed queue sends its vector once, a packet goes to the host ring and PRODUCED
follows it. QUEUE_IRQ_TIMEOUT of a queue that may interrupt, is armed and whose condition holds sends its vector and
clears ARMED; ARM by a master that may control the queue does the same at once, and else leaves it armed. MIRROR_DRAIN
of an enabled mirrored record queue whose ring has room writes the packet's words and then PRODUCED to host memory;
with too little room nothing changes. HQ_MIRROR_CONS keeps CONSUMED. (R393, R399, R400) -/
def Obligations.QueueInterruptsAndMirror : Prop :=
  (∀ (q : Nat) (s : State), q < 8192 → (queueOf q s).irqEn = true → (queueOf q s).armed = true → (queueOf q s).irqDue (nowNs s) = true →
    exec (.queueIrqTimeout q) s = .next (emit (.msix (q / 128) (queueOf q s).vector) (setQueue q { queueOf q s with armed := false } s))) ∧
  (∀ (who q : Nat) (s : State), mayControl who q 0x10 s → ∃ t : State, exec (.arm who q) s = .next t ∧
    (queueOf q t).armed = !((queueOf q s).irqEn && (queueOf q s).irqDue (nowNs s)) ∧
    t.out = (if (queueOf q s).irqEn && (queueOf q s).irqDue (nowNs s) then [Out.msix (q / 128) (queueOf q s).vector] else []) ++ s.out ∧
    (∀ p, p ≠ q → queueOf p t = queueOf p s) ∧ t.hostMem = s.hostMem ∧ t.dram = s.dram) ∧
  (∀ (q : Nat) (s : State) (p : Packet) (rest : List Packet), q < 8192 → (queueOf q s).visible = p :: rest → (queueOf q s).enable = true →
    (queueOf q s).kind = 1 → (queueOf q s).mirror = true →
    (queueOf q s).produced + p.words.length + 1 ≤ (queueOf q s).consumed + 2 ^ (queueOf q s).ringLog2 →
    ∃ t : State, exec (.mirrorDrain q) s = .next t ∧
      t.hostMem = Mem.writeBytes (ringWrite (queueOf q s).ringAddr (queueOf q s).ringLog2 (queueOf q s).produced
        (lengthWord (queueOf q s).qgen p.words.length :: p.words) s.hostMem) (queueOf q s).indexAddr
        (leBytes 8 ((queueOf q s).produced + (p.words.length + 1))) ∧ t.dram = s.dram) ∧
  (∀ (q : Nat) (s : State) (p : Packet) (rest : List Packet), q < 8192 → (queueOf q s).visible = p :: rest →
    (queueOf q s).consumed + 2 ^ (queueOf q s).ringLog2 < (queueOf q s).produced + (p.words.length + 1) → exec (.mirrorDrain q) s = .next s) ∧
  ∀ (who q : Nat) (v : BitVec 64) (s : State), mayControl who q 0x58 s → ∃ t : State, exec (.hqMirrorCons who q v) s = .next t ∧
    (queueOf q t).consumed = v.toNat ∧ (queueOf q t).produced = (queueOf q s).produced ∧ (queueOf q t).visible = (queueOf q s).visible ∧
    (∀ p, p ≠ q → queueOf p t = queueOf p s) ∧ t.hostMem = s.hostMem ∧ t.dram = s.dram

/-- NOP is OK; DISP_POST puts a HOST item at the tail under a free handle; DISP_CANCEL removes a ready item and is too
late for a running one. NOP completes with OK and progress 1. DISP_POST of a type 0x20 to 0x3F at a priority of 4 or
more, with room in the ready lists, takes the lowest free handle index, and the item with that handle, the requester
and the two copied words stands at the tail; with the lists full it completes with FULL. DISP_CANCEL reads its handle
without the reserved bits; by one who may cancel it removes a ready item, which completes with CANCELLED, its handle
released; a running item is TOO_LATE; INDEX 0 is NOT_OWNED for everybody; a handle of another generation is
STALE_GENERATION. (R8, R9, R407, R409, R411, R413) -/
def Obligations.PostingAndCancelling : Prop :=
  Completes .nop 0x00 (fun _ _ => True) (fun _ s => (s, okWith 0)) ∧
  CompletesSo .dispPost 0x01
    (fun r s => 0x20 ≤ fld r.w1 7 0 ∧ fld r.w1 7 0 ≤ 0x3F ∧ 4 ≤ fld r.w1 11 8 ∧ readyCount s < 262144 ∧ (lowestFree .work 1 1048576 s).isSome)
    (fun r s t rep => ∃ i, lowestFree .work 1 1048576 s = some i ∧ rep = okWith (handleFor .work i s) ∧ (identOf .work i t).used = true ∧
      t.disp.ready = s.disp.ready ++ [{
        handle := handleFor .work i s, forFn := r.fn, poster := r.master, host := true,
        prio := fld r.w1 11 8, type := fld r.w1 7 0, w2 := r.w2, w3 := r.w3, posted := cmpNow s }] ∧
      ctrGet dispPostedOff t = satAdd 64 (ctrGet dispPostedOff s) 1 ∧ t.hq = s.hq ∧ t.dram = s.dram ∧ t.hostMem = s.hostMem) ∧
  Completes .dispPost 0x01 (fun r s => 0x20 ≤ fld r.w1 7 0 ∧ fld r.w1 7 0 ≤ 0x3F ∧ 4 ≤ fld r.w1 11 8 ∧ 262144 ≤ readyCount s)
    (fun _ s => (s, ⟨stFull, 0, 0⟩)) ∧
  Completes .dispPost 0x01 (fun r _ => fld r.w1 7 0 < 0x20 ∨ 0x3F < fld r.w1 7 0 ∨ fld r.w1 11 8 < 4) (fun _ s => (s, refuse stNotStarted 0x01)) ∧
  CompletesSo .dispCancel 0x02
    (fun r s => handleKind (handleIn (fld r.w1 63 0)) = 5 ∧ 0 < handleIdx (handleIn (fld r.w1 63 0)) ∧ handleIdx (handleIn (fld r.w1 63 0)) < 1048576 ∧
      s.disp.ended.find? (handleIdx (handleIn (fld r.w1 63 0))) = none ∧
      handleGen (handleIn (fld r.w1 63 0)) = (identOf .work (handleIdx (handleIn (fld r.w1 63 0))) s).gen ∧
      ∃ w, s.disp.ready.find? (fun w => w.handle == handleIn (fld r.w1 63 0)) = some w ∧ mayCancel r w = true)
    (fun r s t rep => rep = ⟨stCancelled, 1, 0⟩ ∧ t.disp.ready = s.disp.ready.filter (fun w => w.handle != handleIn (fld r.w1 63 0)) ∧
      (identOf .work (handleIdx (handleIn (fld r.w1 63 0))) t).used = false ∧ t.disp.cores = s.disp.cores ∧ t.hq = s.hq ∧ t.dram = s.dram ∧ t.hostMem = s.hostMem) ∧
  Completes .dispCancel 0x02
    (fun r s => handleKind (handleIn (fld r.w1 63 0)) = 5 ∧ 0 < handleIdx (handleIn (fld r.w1 63 0)) ∧ handleIdx (handleIn (fld r.w1 63 0)) < 1048576 ∧
      s.disp.ended.find? (handleIdx (handleIn (fld r.w1 63 0))) = none ∧
      handleGen (handleIn (fld r.w1 63 0)) = (identOf .work (handleIdx (handleIn (fld r.w1 63 0))) s).gen ∧
      s.disp.ready.find? (fun w => w.handle == handleIn (fld r.w1 63 0)) = none ∧ ∃ w, runningItem (handleIn (fld r.w1 63 0)) s = some w ∧ mayCancel r w = true)
    (fun _ s => (s, ⟨stTooLate, 0, 0⟩)) ∧
  Completes .dispCancel 0x02 (fun r _ => handleKind (handleIn (fld r.w1 63 0)) = 5 ∧ handleIdx (handleIn (fld r.w1 63 0)) = 0) (fun _ s => (s, refuse stRefused 0x02)) ∧
  Completes .dispCancel 0x02
    (fun r s => handleKind (handleIn (fld r.w1 63 0)) = 5 ∧ 0 < handleIdx (handleIn (fld r.w1 63 0)) ∧ handleIdx (handleIn (fld r.w1 63 0)) < 1048576 ∧
      s.disp.ended.find? (handleIdx (handleIn (fld r.w1 63 0))) = none ∧
      handleGen (handleIn (fld r.w1 63 0)) ≠ (identOf .work (handleIdx (handleIn (fld r.w1 63 0))) s).gen)
    (fun _ s => (count dispStaleOff 1 s, ⟨stStale, 0, 0⟩))

/-- A free core takes the first item of the most urgent level; its end releases the handle; the watchdog stops an item
that runs too long. Where the cores run firmware. WORK_ITEM_DISPATCH on a free core takes an item of the least
priority number among the ready ones, the first of its level, and leaves the others in their order. WORK_ITEM_END
frees the core, releases an item's handle and keeps the item as ended; the end of a HEARTBEAT makes the next due in 20
ms and is watched. WATCHDOG of an item that has run longer than WATCHDOG_MS frees the core, counts, and sets WATCHDOG.
HEARTBEAT posts the item, when it is due, with INDEX 0 and GEN 0. (R408, R410, R412, R444, R487) -/
def Obligations.DispatchRunsMostUrgent : Prop :=
  (∀ (c : Nat) (s : State), c < 64 → (coreOf c s).running = none → s.disp.ready ≠ [] → coresRun s = true →
    ∃ (t : State) (w : WorkItem) (pre rest : List WorkItem), exec (.workItemDispatch c) s = .next t ∧ s.disp.ready = pre ++ w :: rest ∧
      (∀ v ∈ s.disp.ready, w.prio ≤ v.prio) ∧ (∀ v ∈ pre, w.prio < v.prio) ∧ t.disp.ready = pre ++ rest ∧
      coreOf c t = ⟨some w, nowNs s, w.handle, cmpNow s⟩ ∧ (∀ d, d ≠ c → coreOf d t = coreOf d s) ∧
      t.hq = s.hq ∧ t.dram = s.dram ∧ t.hostMem = s.hostMem) ∧
  (∀ (c : Nat) (s : State) (w : WorkItem), c < 64 → (coreOf c s).running = some w → handleIdx w.handle ≠ 0 →
    ∃ t : State, exec (.workItemEnd c) s = .next t ∧ (coreOf c t).running = none ∧ (identOf .work (handleIdx w.handle) t).used = false ∧
      t.disp.ended.find? (handleIdx w.handle) = some w ∧ t.disp.ready = s.disp.ready ∧ (∀ d, d ≠ c → coreOf d t = coreOf d s)) ∧
  (∀ (c : Nat) (s : State) (w : WorkItem), c < 64 → (coreOf c s).running = some w → handleIdx w.handle = 0 →
    ∃ t : State, exec (.workItemEnd c) s = .next t ∧ (coreOf c t).running = none ∧ t.disp.hbDue = some (nowNs s + 20000000) ∧
      t.disp.hbWatch = some (nowNs s) ∧ t.ids = s.ids ∧ t.disp.ready = s.disp.ready) ∧
  (∀ (c : Nat) (s : State) (w : WorkItem), c < 64 → (coreOf c s).running = some w → (coreOf c s).startNs + s.disp.watchdogMs * 1000000 < nowNs s →
    ∃ t : State, exec (.watchdog c) s = .next t ∧ (coreOf c t).running = none ∧ t.disp.evWatchdog = true ∧
      ctrGet dispWatchdogOff t = satAdd 64 (ctrGet dispWatchdogOff s) 1 ∧ (trialRunning s = true → t.upd.trialOver = true) ∧
      Out.msix 0 7 ∈ t.out ∧ t.hq = s.hq ∧ t.dram = s.dram ∧ t.hostMem = s.hostMem) ∧
  ∀ (at_ : Nat) (s : State), s.disp.hbDue = some at_ → at_ ≤ nowNs s →
    ∃ t : State, exec .heartbeat s = .next t ∧ (∃ w, t.disp.ready = s.disp.ready ++ [w] ∧ handleKind w.handle = 5 ∧ handleGen w.handle = 0 ∧
        handleIdx w.handle = 0 ∧ w.type = 0x0E ∧ w.prio = typePrio 0x0E s) ∧
      t.disp.hbDue = none ∧ ctrGet dispPostedOff t = satAdd 64 (ctrGet dispPostedOff s) 1 ∧ t.ids = s.ids ∧ t.hq = s.hq

/-- A fatal error enters RECOVERY, halts every command queue, starts the dump, and ends a firmware trial; the loss of the
cores is one. FATAL_ERROR (a fatal declared by firmware, cause 2) leaves the phase RECOVERY and every enabled command
queue halted, its command in progress possibly partial and no longer in progress; where no earlier dump is kept, the
DRAM dump starts with that cause; a trial of the active bank is over. CORES_LOST, 100 ms after the watched completion,
is the same with cause 3. No memory changes, and record queues stay as they are. (R405, R444, R445, R447, R466) -/
def Obligations.FatalErrorHaltsQueues : Prop :=
  (∀ s : State, ∃ t : State, exec .fatalError s = .next t ∧ t.evr.phase = 3 ∧
    (∀ q u, s.hq.find? q = some u → u.enable = true → u.kind = 0 → (queueOf q t).halted = true ∧ (queueOf q t).busy = none ∧
      (∀ b, u.busy = some b → (queueOf q t).part = some b)) ∧
    (∀ q u, s.hq.find? q = some u → u.kind = 1 → queueOf q t = u) ∧
    (s.dump.dramState = 0 → t.dump.dramState = 1 ∧ t.dump.cause = 2) ∧ (trialRunning s = true → t.upd.trialOver = true) ∧
    t.dram = s.dram ∧ t.hostMem = s.hostMem ∧ t.keys = s.keys) ∧
  ∀ (at_ : Nat) (s : State), s.disp.hbWatch = some at_ → at_ + 100000000 ≤ nowNs s →
    exec .coresLost s = .next (fatalError 3 { s with disp := { s.disp with hbWatch := none } })

/-- FAB_STORE_IMAGE stores an image that passes its checks and no other; FAB_ENROLL_KEY fuses a key hash once, on a valid
token. For PF0 and firmware with no load in progress, FAB_STORE_IMAGE of at most 16 MiB stores the image in the slot
when its signature and header pass, and the running configuration stays; otherwise it completes with NOT_STARTED and
the first reason that applies, counted and recorded, and the slot keeps its contents. FAB_ENROLL_KEY completes as the
table of R70 says: only on OK is KEY_HASH in the slot, the challenge consumed and a record written (that record's code
and payload are the model's, Config.enrolCode). Anybody else is refused and nothing changes. (R69, R70, R71, R77, R79,
R84, R156) -/
def Obligations.FabricStoreAndEnrol : Prop :=
  Completes .fabStoreImage 0xB0 (fun r s => r.owner = true ∧ s.fab.load = none ∧ fld r.w1 95 64 ≤ 16777216)
    (fun r s => match headerCheck (hostBytes (fld r.w1 63 0) (fld r.w1 95 64) s) s with
      | some reason => (fabRefused reason 0xB0 (fld r.w2 2 0) 0xFF s, refuse stNotStarted reason)
      | none => ({ s with fab := { s.fab with store := s.fab.store.set (fld r.w2 2 0) (hostBytes (fld r.w1 63 0) (fld r.w1 95 64) s) } }, okWith 0)) ∧
  Completes .fabStoreImage 0xB0 (fun r _ => r.owner = false) (fun _ s => (s, refuse stRefused 0)) ∧
  Completes .fabStoreImage 0xB0 (fun r s => r.owner = true ∧ s.fab.load.isSome = true)
    (fun r s => (fabRefused fabBusy 0xB0 (fld r.w2 2 0) 0xFF s, refuse stNotStarted fabBusy)) ∧
  Completes .fabEnrollKey 0xB4 (fun r _ => r.owner = true)
    (fun r s =>
      let t := hostBytes (fld r.w1 63 0) (fld r.w1 95 80) s
      let slot := fld r.w1 66 64
      if tokenOk t s = false ∨ tokPurpose t ≠ 3 then (fabRefused 0x10 0xB4 slot 0xFF s, refuse stRefused 0x10)
      else if enrolFine t slot = false then (fabRefused 0x06 0xB4 slot 0xFF s, refuse stNotStarted 0x06)
      else if (s.fab.ownerKeys.find? slot).isSome = true then (fabRefused 0x11 0xB4 slot 0xFF s, refuse stRefused 0x11)
      else ((evrWrite Config.enrolCode 0 208 (Config.enrolPayload slot) (consumeToken { s with fab := { s.fab with
        ownerKeys := s.fab.ownerKeys.set slot (slice (tokPayload t) 4 48) } })).1, okWith 0)) ∧
  Completes .fabEnrollKey 0xB4 (fun r _ => r.owner = false) (fun _ s => (s, refuse stRefused 0))

/-- FAB_LOAD_FULL and FAB_RELOAD_PART check the image, then close admission and drain; a failed check changes nothing but
the count. With no load in progress and the slot read from flash: when a check fails the command completes with
NOT_STARTED and the first reason, counted and recorded, and the configuration stays; when all pass, it stays in
progress with 2 steps done, the drain's deadline lies FAB_DRAIN_MS away, every partition that it drains reads live
capacity 0 in every role, and no image is applied yet. PF0 and firmware may load and reload; a partition's owner
function may reload it with TENANT_RELOAD and the Control bit. An empty slot is SLOT_EMPTY, one whose flash read fails
FLASH_READ (log entry 130: which slots fail is free), a load in progress is BUSY. (R73, R78, R79, R80, R83, R84) -/
def Obligations.FabricLoadsDrainFirst : Prop :=
  (∀ (src : CmdSrc) (s s1 : State) (r : Req) (img : List Byte), src.wf = true → presented 0xB1 src s = some (r, s1) →
    r.owner = true → s1.fab.load = none → readSlot (fld r.w1 2 0) s1 = .inr img →
    ∃ t : State, exec (.fabLoadFull src) s = .next t ∧
      (∀ reason, fullCheck img s1 = some reason →
        t = complete r.tk (refuse stNotStarted reason) (fabRefused reason 0xB1 (fld r.w1 2 0) 0xFF s1)) ∧
      (fullCheck img s1 = none →
        t.fab.load = some ⟨2, fld r.w1 2 0, bitOf r.w1 8, 0xFF, img, nowNs s1 + s1.fab.drainMs * 1000000, r.tk⟩ ∧ t.fab.opStep = 3 ∧
        (∀ p q : Nat, liveOf p q t = 0) ∧ t.fab.routes = s1.fab.routes ∧ t.fab.activeSlot = s1.fab.activeSlot ∧
        t.fab.store = s1.fab.store ∧ t.dram = s1.dram ∧ t.hostMem = s1.hostMem)) ∧
  (∀ (src : CmdSrc) (s s1 : State) (r : Req) (img : List Byte), src.wf = true → presented 0xB2 src s = some (r, s1) →
    r.owner = true ∨ (∃ v, partOf? (fld r.w1 21 16) s1 = some v ∧ v.owner = r.fn ∧ v.tenantReload = true ∧
      accHas tgPartition (fld r.w1 21 16) r.master bitControl s1 = true) →
    s1.fab.load = none → readSlot (fld r.w1 2 0) s1 = .inr img →
    ∃ t : State, exec (.fabReloadPart src) s = .next t ∧
      (∀ reason, partCheck img (fld r.w1 21 16) s1 = some reason →
        t = complete r.tk (refuse stNotStarted reason) (fabRefused reason 0xB2 (fld r.w1 2 0) (fld r.w1 21 16) s1)) ∧
      (partCheck img (fld r.w1 21 16) s1 = none →
        t.fab.load = some ⟨3, fld r.w1 2 0, bitOf r.w1 8, fld r.w1 21 16, img, nowNs s1 + s1.fab.drainMs * 1000000, r.tk⟩ ∧
        t.fab.opStep = 3 ∧ (∀ q : Nat, liveOf (fld r.w1 21 16) q t = 0) ∧
        (∀ p, p ≠ fld r.w1 21 16 → partOf? p t = partOf? p s1) ∧ t.fab.routes = s1.fab.routes ∧ t.dram = s1.dram ∧ t.hostMem = s1.hostMem)) ∧
  Completes .fabLoadFull 0xB1 (fun r s => r.owner = true ∧ s.fab.load = none ∧ s.fab.store.find? (fld r.w1 2 0) = none)
    (fun r s => (fabRefused fabSlotEmpty 0xB1 (fld r.w1 2 0) 0xFF s, refuse stNotStarted fabSlotEmpty)) ∧
  Completes .fabLoadFull 0xB1 (fun r s => r.owner = true ∧ s.fab.load = none ∧ s.fab.readBad.contains (fld r.w1 2 0) = true ∧
      (s.fab.store.find? (fld r.w1 2 0)).isSome = true)
    (fun r s => (fabRefused fabFlashRead 0xB1 (fld r.w1 2 0) 0xFF s, refuse stNotStarted fabFlashRead)) ∧
  Completes .fabLoadFull 0xB1 (fun r s => r.owner = true ∧ s.fab.load.isSome = true)
    (fun r s => (fabRefused fabBusy 0xB1 (fld r.w1 2 0) 0xFF s, refuse stNotStarted fabBusy)) ∧
  Completes .fabReloadPart 0xB2
    (fun r s => r.owner = false ∧ ∀ v, partOf? (fld r.w1 21 16) s = some v → v.owner ≠ r.fn ∨ v.tenantReload = false)
    (fun _ s => (s, refuse stRefused 0))

/-- The drain ends in the new configuration, in TIMEOUT, or in an abort that brings the old live capacity back. DRAIN_END
of a load whose partitions hold no committed load runs steps 4 to 7: the load is over, and a FULL image's slot and
routes are the running ones. DRAIN_TIMEOUT at the deadline of a load that has not drained: without FORCE the load
stops, its command completing with TIMEOUT and progress 2, counted and recorded; with FORCE the work of its partitions
ends and steps 4 to 7 run. FAB_ABORT by PF0 or firmware during the drain completes with OK, the load with CANCELLED;
with none draining it is TOO_LATE. A stopped load gives a partition with a group that has not failed its old live
capacity back. (R73, R74, R75, R80, R81, R82, R83) -/
def Obligations.FabricDrainEnds : Prop :=
  (∀ (bad : List Nat) (s : State) (l : FabLoad), s.fab.load = some l → drained l s = true →
    ∃ t : State, exec (.drainEnd bad) s = .next t ∧ t = finishLoad l bad s ∧ t.fab.load = none ∧ t.fab.opStep = 0 ∧
      (l.op = 2 → t.fab.activeSlot = l.slot ∧ t.fab.noImage = false ∧ t.fab.routes = imgRoutes l.image) ∧ t.fab.store = s.fab.store) ∧
  (∀ (bad : List Nat) (s : State) (l : FabLoad), s.fab.load = some l → drained l s = false → l.deadline ≤ nowNs s → l.force = false →
    exec (.drainTimeout bad) s = .next (stopLoad l ⟨stTimeout, 2, fabDrainTimeout⟩
      (fabRefused fabDrainTimeout (if l.op = 2 then 0xB1 else 0xB2) l.slot (if l.op = 2 then 0xFF else l.part) s))) ∧
  (∀ (bad : List Nat) (s : State) (l : FabLoad), s.fab.load = some l → drained l s = false → l.deadline ≤ nowNs s → l.force = true →
    exec (.drainTimeout bad) s = .next (finishLoad l bad (abandonLoad l s))) ∧
  (∀ (l : FabLoad) (rep : Reply) (s : State), (stopLoad l rep s).fab.load = none ∧ (stopLoad l rep s).fab.opStep = 0 ∧
    (stopLoad l rep s).fab.routes = s.fab.routes ∧
    ∀ p v g q, partOf? p s = some v → loadPicks l p = true → g < 64 → v.tgMask.testBit g = true → (groupOf g s).state ≠ 3 →
      liveOf p q (stopLoad l rep s) = factorLive p q s) ∧
  (∀ (src : CmdSrc) (s s1 : State) (r : Req) (l : FabLoad), src.wf = true → presented 0xB3 src s = some (r, s1) → s1.fab.load = some l → r.owner = true →
    exec (.fabAbort src) s = .next (complete r.tk (okWith 0) (stopLoad l ⟨stCancelled, 2, 0⟩ s1))) ∧
  Completes .fabAbort 0xB3 (fun _ s => s.fab.load = none) (fun _ s => (s, ⟨stTooLate, 0, 0⟩))

/-- ING_SRC_CREATE puts a fresh source into use under the lowest free handle, with full policing buckets; a second holder
of its match key is refused. For a command whose reserved bits are 0 and whose fields are in range, from a function
that holds the room, its key slot and its address or stream (PF0 and firmware need no entry), with room in the pinned
slots: the lowest free source index is in use, the source holds the command's words, its buckets are full, and the
reply carries its handle. When another source would hold the same match key the command completes with NOT_STARTED,
reason MATCH_IN_USE, and changes nothing. A stale key handle completes with STALE_GENERATION, counted in KEY_STALE.
(R7, R92, R93, R94, R96, R97, R98, R101) -/
def Obligations.SourceCreation : Prop :=
  CompletesSo .ingSrcCreate 0x20
    (fun r s =>
      let v : Source := { fn := reqFn r, w1 := r.w1, w2 := r.w2, w3 := r.w3, wPol := defaultPolice }
      reservedZero ([(127, 0)], [(126, 0)], [(107, 98), (93, 0)]) r = true ∧ createFine v s = true ∧
      (v.kind = 0 → keyRefusal r (fld r.w3 63 0) 0x06 s = none ∧ ownsLaddr r v.wing (fld r.w2 103 96) s = true ∧
        ((pinned v.wing s).contains v.slot = true ∨ (pinned v.wing s).length < 49152)) ∧
      (v.kind = 1 → ownsStream r v.wing v.ssrc s = true) ∧ holdsRoom (reqFn r) v.room s = true ∧
      (∀ c ∈ sourceList s, sameMatch v c.2 = false) ∧ (lowestFree .source 0 131072 s).isSome)
    (fun r s t rep =>
      let v : Source := { fn := reqFn r, w1 := r.w1, w2 := r.w2, w3 := r.w3, wPol := defaultPolice }
      ∃ i, lowestFree .source 0 131072 s = some i ∧ rep = okVia v.wing (handleFor .source i s) s ∧ (identOf .source i t).used = true ∧
        sourceAt i t = fillBuckets v (cmpNow s) ∧ (∀ j, j ≠ i → sourceAt j t = sourceAt j s) ∧ t.hq = s.hq ∧ t.dram = s.dram ∧
        t.hostMem = s.hostMem) ∧
  Completes .ingSrcCreate 0x20
    (fun r s =>
      let v : Source := { fn := reqFn r, w1 := r.w1, w2 := r.w2, w3 := r.w3, wPol := defaultPolice }
      createFine v s = true ∧ (v.kind = 0 → keyRefusal r (fld r.w3 63 0) 0x06 s = none ∧ ownsLaddr r v.wing (fld r.w2 103 96) s = true) ∧
      (v.kind = 1 → ownsStream r v.wing v.ssrc s = true) ∧ holdsRoom (reqFn r) v.room s = true ∧
      ∃ c ∈ sourceList s, sameMatch v c.2 = true)
    (fun _ s => (s, refuse stNotStarted 0x02)) ∧
  Completes .ingSrcCreate 0x20
    (fun r s =>
      let v : Source := { fn := reqFn r, w1 := r.w1, w2 := r.w2, w3 := r.w3, wPol := defaultPolice }
      createFine v s = true ∧ v.kind = 0 ∧ resolve .slot (fld r.w3 63 0) s = .stale)
    (fun _ s => (count keyStaleOff 1 s, ⟨stStale, 0, 0⟩))

/-- The commands of a named source: policing, history ring, jitter buffer, image, counters, release. For a source that the
requester may name, reserved bits 0. ING_SRC_POLICE with valid rates sets them and fills the buckets. ING_SRC_HISTORY
starts an empty ring of the named size when the pool has room for it, or none. ING_SRC_JITTER enables a buffer when
the pool has room, changes the target of one there, or frees it. ING_SRC_READ writes the 128-byte image to host
memory; ING_SRC_STATS the eight counters, clearing them if asked. ING_SRC_RELEASE of a source that nothing reads takes
it out of use. Each completes with OK, or DEGRADED while the Wing's traffic is rerouted. (R31, R98, R99, R100, R108,
R110, R111, R115) -/
def Obligations.SourceCommands : Prop :=
  let ix := fun (r : Req) => handleIdx (fld r.w1 63 0)
  Completes .ingSrcPolice 0x21
    (fun r s => sourceNamed r s ∧ reservedZero ([(63, 0)], [(95, 0)], []) r = true ∧ policeFine r.w2 = true)
    (fun r s => doneVia (sourceAt (ix r) s).wing (setSource (ix r) (fillBuckets { sourceAt (ix r) s with wPol := r.w2 } (cmpNow s)) s)) ∧
  Completes .ingSrcHistory 0x22
    (fun r s => sourceNamed r s ∧ reservedZero ([(63, 0)], [(3, 0)], []) r = true ∧ (sourceAt (ix r) s).isGroup = false ∧
      (fld r.w2 3 0 = 0 ∨ (6 ≤ fld r.w2 3 0 ∧ fld r.w2 3 0 ≤ 13 ∧ poolFits (sourceAt (ix r) s).wing (ringBytes (fld r.w2 3 0)) s = true)))
    (fun r s => doneVia (sourceAt (ix r) s).wing (setSource (ix r) { sourceAt (ix r) s with log2Slots := fld r.w2 3 0, ring := Tab.empty } s)) ∧
  Completes .ingSrcJitter 0x23
    (fun r s => sourceNamed r s ∧ reservedZero ([(63, 0)], [(41, 0)], []) r = true ∧ jitterFine r.w2 = true ∧ (sourceAt (ix r) s).isGroup = false ∧
      (sourceAt (ix r) s).forwardOnly = false ∧
      (bitOf r.w2 41 = true → (sourceAt (ix r) s).jit = none → poolFits (sourceAt (ix r) s).wing jitBytes s = true))
    (fun r s => doneVia (sourceAt (ix r) s).wing (setSource (ix r) { sourceAt (ix r) s with
      wJit := r.w2
      jit := if bitOf r.w2 41 = true then some { (sourceAt (ix r) s).jit.getD {} with targetUs := fld r.w2 19 0 } else none } s)) ∧
  Completes .ingSrcRead 0x24
    (fun r s => sourceNamed r s ∧ reservedZero ([(63, 0)], [(63, 0)], []) r = true)
    (fun r s => doneVia (sourceAt (ix r) s).wing (hostPut (fld r.w2 63 0) (bytesOfWords (sourceImage (ix r) s)) s)) ∧
  Completes .ingSrcStats 0x25
    (fun r s => sourceNamed r s ∧ reservedZero ([(63, 0)], [(63, 0)], [(0, 0)]) r = true)
    (fun r s =>
      let t := hostPut (fld r.w2 63 0) ((sourceAt (ix r) s).ctrs.flatMap (leBytes 8)) s
      doneVia (sourceAt (ix r) s).wing (if bitOf r.w3 0 = true then setSource (ix r) { sourceAt (ix r) s with ctrs := List.replicate 8 0 } t else t)) ∧
  Completes .ingSrcRelease 0x26
    (fun r s => sourceNamed r s ∧ reservedZero ([(63, 0)], [], []) r = true ∧ (sourceAt (ix r) s).isLocal = false ∧
      (sourceAt (ix r) s).readers = 0 ∧ stitchReads (handleFor .source (ix r) s) s = false)
    (fun r s => doneVia (sourceAt (ix r) s).wing (removeSource (ix r) s)) ∧
  ∀ (i : Nat) (s : State), (identOf .source i (removeSource i s)).used = false ∧ (sourceAt i (removeSource i s)).jit = none ∧
    (sourceAt i (removeSource i s)).log2Slots = 0 ∧ (∀ j, j ≠ i → sourceAt j (removeSource i s) = sourceAt j s) ∧
    (removeSource i s).dram = s.dram ∧ (removeSource i s).hostMem = s.hostMem

/-- ETH_FRAME_RX discards runts and bad FCS, counts pause frames, and hands each other frame where its parse says. On an
Ethernet port that is UP, outside Safe Hold. A frame below 64 bytes only counts as a runt; one whose FCS does not
match only counts as such; a MAC control frame only counts. Any other frame counts as received and goes where the
parse sorts it: dropped in the counter of its reason, to firmware through the exception path, to the time base, or as
RTP to the cipher under the slot of the source that holds its match key once the policer has let it through; RTP with
no such source counts as unmatched and goes to firmware as an unknown SSRC. In Safe Hold nothing happens. (R87, R88,
R89, R90, R93, R102, R328, R329, R487) -/
def Obligations.EthernetFramesSorted : Prop :=
  (∀ (lane : Nat) (f : List Byte) (s : State), lane < 128 → isEth (portOf lane s) s = true → portUp (portOf lane s) s = true → s.body.hold = false →
    (f.length < 64 → exec (.ethFrameRx lane f) s = .next (count (laneCtr (portOf lane s) 2) 1 s)) ∧
    (64 ≤ f.length → leAt f (f.length - 4) 4 ≠ (crc32 (f.take (f.length - 4))).toNat →
      exec (.ethFrameRx lane f) s = .next (count (laneCtr (portOf lane s) 1) 1 s)) ∧
    (64 ≤ f.length → leAt f (f.length - 4) 4 = (crc32 (f.take (f.length - 4))).toNat → beAt f 12 2 = 0x8808 →
      exec (.ethFrameRx lane f) s = .next (count (laneCtr (portOf lane s) 3) 1 s)) ∧
    (64 ≤ f.length → leAt f (f.length - 4) 4 = (crc32 (f.take (f.length - 4))).toNat → beAt f 12 2 ≠ 0x8808 →
      ∀ s1, s1 = count (ingCtr (portOf lane s / 32) 0) 1 s →
      (∀ c, parseFrame (portOf lane s) f s1 = .drop c → exec (.ethFrameRx lane f) s = .next (count (ingCtr (portOf lane s / 32) c) 1 s1)) ∧
      (∀ cls, parseFrame (portOf lane s) f s1 = .firmware cls →
        exec (.ethFrameRx lane f) s = .next (exceptionPath (portOf lane s / 32) (portOf lane s) cls f (cmpNow s1) s1)) ∧
      (∀ tr hdr, parseFrame (portOf lane s) f s1 = .time tr hdr → exec (.ethFrameRx lane f) s = .next (ptpMessage lane tr hdr f s1)) ∧
      (∀ t body i, parseFrame (portOf lane s) f s1 = .rtp t body → 12 ≤ body.length → matchSource t (leAt body 8 4) s1 = some i →
        (police i f.length (cmpNow s1) s1).1 = true →
        exec (.ethFrameRx lane f) s = .next (enterCipher {
          id := 0, wing := t.port / 32, slot := (sourceAt i s1).slot, rtcp := false
          source := handleFor .source i s1, transport := t, mac := leAt f 6 6, bytes := body, frameLen := f.length, arrival := cmpNow s1 }
          (police i f.length (cmpNow s1) s1).2)) ∧
      (∀ t body i, parseFrame (portOf lane s) f s1 = .rtp t body → 12 ≤ body.length → matchSource t (leAt body 8 4) s1 = some i →
        (police i f.length (cmpNow s1) s1).1 = false → exec (.ethFrameRx lane f) s = .next (police i f.length (cmpNow s1) s1).2) ∧
      (∀ t body, parseFrame (portOf lane s) f s1 = .rtp t body → 12 ≤ body.length → matchSource t (leAt body 8 4) s1 = none →
        exec (.ethFrameRx lane f) s = .next (exceptionPath (t.port / 32) t.port 7 f (cmpNow s1) (count (ingCtr (t.port / 32) 5) 1 s1))))) ∧
  ∀ (lane : Nat) (f : List Byte) (s : State), lane < 128 → s.body.hold = true → exec (.ethFrameRx lane f) s = .next s

/-- The policer takes a packet's bytes from both buckets or refuses it; a released packet is accepted or dropped; at a
deadline the head unit leaves. The policer: with rate 0 it lets everything through; otherwise both buckets refill by
the elapsed time at their rates up to their depths, and a packet that fits both takes its bytes from each, while one
that does not is dropped and takes none. RX_CIPHER_RELEASE of a started operation that has its hash unit, where it
needs one, outside Safe Hold ends it: a packet that no context accepts is dropped, and another is handed on.
JITTER_DEADLINE for a source in use releases, while a held unit's deadline has come, the unit at the head of a video
buffer. In Safe Hold nothing is released. (R102, R111, R112, R114, R153, R165, R378) -/
def Obligations.PolicingAndPlayout : Prop :=
  (∀ (i len a : Nat) (s : State), fld (sourceAt i s).wPol 23 0 = 0 → police i len a s = (true, s)) ∧
  (∀ (i len a : Nat) (s : State) (c p : Nat), fld (sourceAt i s).wPol 23 0 ≠ 0 →
    c = min ((sourceAt i s).bucketC + fld (sourceAt i s).wPol 23 0 * (cmpDiff a (sourceAt i s).bucketT).toNat * 65536 / 8000000)
      (fld (sourceAt i s).wPol 71 48 * 65536) →
    p = min ((sourceAt i s).bucketP + fld (sourceAt i s).wPol 47 24 * (cmpDiff a (sourceAt i s).bucketT).toNat * 65536 / 8000000)
      (fld (sourceAt i s).wPol 95 72 * 65536) →
    (len * 65536 ≤ c → len * 65536 ≤ p →
      police i len a s = (true, setSource i { sourceAt i s with bucketC := c - len * 65536, bucketP := p - len * 65536, bucketT := a } s)) ∧
    (c < len * 65536 ∨ p < len * 65536 → (police i len a s).1 = false ∧ (sourceAt i (police i len a s).2).bucketC = c ∧
      (sourceAt i (police i len a s).2).bucketP = p)) ∧
  (∀ (op : Nat) (s : State) (o : RxOp), s.rxOps.find? (fun o => o.id == op && o.started && decide (o.hashAt ≤ nowPs s)) = some o → s.body.hold = false →
    ((endOp o s).1 = none → exec (.rxCipherRelease op) s = .next (endOp o s).2) ∧
    (∀ idx p, (endOp o s).1 = some (idx, p) →
      exec (.rxCipherRelease op) s = .next (if o.rtcp then rtcpReleased o p (endOp o s).2 else rtpReleased o idx p (endOp o s).2))) ∧
  (∀ (i : Nat) (s : State), i < 131072 → (identOf .source i s).used = true → s.body.hold = false →
    exec (.jitterDeadline i) s = .next (releasePass true i 1024 s)) ∧
  (∀ (i n : Nat) (s : State) (j : Jitter) (u : AccessUnit) (us : List AccessUnit), (sourceAt i s).jit = some j → j.units = u :: us →
    (sourceAt i s).isAudio = false → (∃ x ∈ j.units, cmpReached (cmpNow s) x.deadline = true) →
    releasePass true i (n + 1) s = releasePass true i n (releaseHead i j u us s)) ∧
  (∀ (i n : Nat) (s : State) (j : Jitter), (sourceAt i s).jit = some j → (∀ x ∈ j.units, cmpReached (cmpNow s) x.deadline = false) →
    (∀ u us, j.units = u :: us → unitComplete u = false) → (sourceAt i s).isAudio = false → releasePass true i n s = s) ∧
  ∀ (i : Nat) (s : State), i < 131072 → s.body.hold = true → exec (.jitterDeadline i) s = .next s

/-- A free room is claimed and an unnamed one freed; LEG_CREATE puts a leg into use with full buckets and its defaults.
LEG_ROOM_CLAIM of a room that nobody holds, with a weight of at least 1 and a hold of 100 to 10,000 ms, gives it to
the function; of a held room it completes with NOT_STARTED and changes nothing. LEG_ROOM_FREE by the holder of a room
that no source, leg or mixer names frees it; while something names it, it is refused. LEG_CREATE with fields in range,
the room held and the key slot and address owned, its transport unused, puts the lowest free leg into use with the
command's words, the default bounds, estimator and shaper, and full buckets; a stale key handle is STALE_GENERATION,
counted in KEY_STALE. Reserved bits are 0. (R7, R117, R118, R120, R124, R140) -/
def Obligations.RoomsAndLegs : Prop :=
  Completes .legRoomClaim 0x40
    (fun r s => reservedZero ([(12, 0), (63, 16), (79, 64), (85, 80)], [], []) r = true ∧ fld r.w1 31 16 ≠ 0 ∧ 100 ≤ fld r.w1 79 64 ∧
      fld r.w1 79 64 ≤ 10000 ∧ (r.owner = true ∨ fld r.w1 85 80 = r.fn) ∧ (roomAt (fld r.w1 12 0) s).held = false)
    (fun r s =>
      let v : Room := ⟨true, fld r.w1 85 80, fld r.w1 31 16, fld r.w1 63 32, fld r.w1 79 64⟩
      ({ s with media := { s.media with rooms := s.media.rooms.set (fld r.w1 12 0) v } }, okWith 0)) ∧
  Completes .legRoomClaim 0x40
    (fun r s => fld r.w1 31 16 ≠ 0 ∧ 100 ≤ fld r.w1 79 64 ∧ fld r.w1 79 64 ≤ 10000 ∧ (r.owner = true ∨ fld r.w1 85 80 = r.fn) ∧
      (roomAt (fld r.w1 12 0) s).held = true)
    (fun _ s => (s, refuse stNotStarted 0x03)) ∧
  Completes .legRoomFree 0x41
    (fun r s => reservedZero ([(12, 0)], [], []) r = true ∧ (roomAt (fld r.w1 12 0) s).held = true ∧
      (r.owner = true ∨ (roomAt (fld r.w1 12 0) s).owner = r.fn) ∧ roomNamed (fld r.w1 12 0) s = false)
    (fun r s => ({ s with media := { s.media with rooms := s.media.rooms.del (fld r.w1 12 0) } }, okWith 0)) ∧
  Completes .legRoomFree 0x41
    (fun r s => (roomAt (fld r.w1 12 0) s).held = true ∧ (r.owner = true ∨ (roomAt (fld r.w1 12 0) s).owner = r.fn) ∧
      roomNamed (fld r.w1 12 0) s = true)
    (fun _ s => (s, refuse stNotStarted 0x06)) ∧
  CompletesSo .legCreate 0x42
    (fun r s =>
      let v : Leg := { fn := reqFn r, w1 := r.w1, w2 := r.w2, w3 := r.w3, wBounds := defaultBounds, wEst := defaultEst,
                       wShape := defaultShape, est := 1000, fbTimer := nowNs s, lastReport := nowNs s }
      reservedZero ([(127, 0)], [(126, 118), (116, 50), (47, 0)], [(127, 113), (111, 96), (63, 0)]) r = true ∧ legFine v s = true ∧
      (v.kind = 0 → keyRefusal r (fld r.w3 63 0) 0x05 s = none ∧ ownsLaddr r v.wing v.laddr s = true) ∧
      holdsRoom (reqFn r) v.room s = true ∧ (∀ c ∈ legList s, sameLeg v c.2 = false) ∧ (lowestFree .leg 0 1048576 s).isSome)
    (fun r s t rep =>
      let v : Leg := { fn := reqFn r, w1 := r.w1, w2 := r.w2, w3 := r.w3, wBounds := defaultBounds, wEst := defaultEst,
                       wShape := defaultShape, est := 1000, fbTimer := nowNs s, lastReport := nowNs s }
      ∃ i, lowestFree .leg 0 1048576 s = some i ∧ rep = okVia v.wing (handleFor .leg i s) s ∧ (identOf .leg i t).used = true ∧
        legAt i t = fillShaper v (cmpNow s) ∧ (∀ j, j ≠ i → legAt j t = legAt j s) ∧ t.hq = s.hq ∧ t.dram = s.dram ∧ t.hostMem = s.hostMem) ∧
  Completes .legCreate 0x42
    (fun r s => legFine { fn := reqFn r, w1 := r.w1, w2 := r.w2, w3 := r.w3 } s = true ∧ fld r.w2 119 118 = 0 ∧ resolve .slot (fld r.w3 63 0) s = .stale)
    (fun _ s => (count keyStaleOff 1 s, ⟨stStale, 0, 0⟩))

/-- The commands of a named leg set its bounds, shaper and estimator, write its image and counters, and release it. For a
leg that the requester may name, reserved bits 0. LEG_BOUNDS with valid bounds sets them, makes a selection due, and
before the first feedback sets the estimate to START_KBPS. LEG_SHAPE and LEG_EST_PARAM with valid fields set them.
LEG_READ writes the 128-byte image and LEG_STATS the eight counters to host memory, clearing them if asked.
LEG_RELEASE closes every subscription of the leg, drops its queued copies and takes it out of use. Each completes with
OK, or DEGRADED while the Wing's traffic is rerouted. An invalid field completes with NOT_STARTED and changes nothing.
(R31, R121, R122, R124, R125, R128, R132, R139, R148) -/
def Obligations.LegCommands : Prop :=
  let ix := fun (r : Req) => handleIdx (fld r.w1 63 0)
  Completes .legBounds 0x43
    (fun r s => legNamed r s ∧ reservedZero ([(63, 0)], [(127, 120), (118, 0)], []) r = true ∧ boundsFine r.w2 = true)
    (fun r s => doneVia (legAt (ix r) s).wing (setLeg (ix r) { legAt (ix r) s with
      wBounds := r.w2, selDue := true
      est := if (legAt (ix r) s).fbMode = 0 then fld r.w2 71 48 else (legAt (ix r) s).est } s)) ∧
  Completes .legBounds 0x43 (fun r s => legNamed r s ∧ boundsFine r.w2 = false) (fun _ s => (s, refuse stNotStarted 0x01)) ∧
  Completes .legShape 0x44
    (fun r s => legNamed r s ∧ reservedZero ([(63, 0)], [(52, 0)], []) r = true ∧ shapeFine r.w2 = true)
    (fun r s => doneVia (legAt (ix r) s).wing (setLeg (ix r) { legAt (ix r) s with wShape := r.w2 } s)) ∧
  Completes .legEstParam 0x45
    (fun r s => legNamed r s ∧ reservedZero ([(63, 0)], [(119, 0)], []) r = true ∧ estFine r.w2 = true)
    (fun r s => doneVia (legAt (ix r) s).wing (setLeg (ix r) { legAt (ix r) s with wEst := r.w2 } s)) ∧
  Completes .legRead 0x46
    (fun r s => legNamed r s ∧ reservedZero ([(63, 0)], [(63, 0)], []) r = true)
    (fun r s => doneVia (legAt (ix r) s).wing (hostPut (fld r.w2 63 0) (bytesOfWords (legImage (ix r) s)) s)) ∧
  Completes .legStats 0x47
    (fun r s => legNamed r s ∧ reservedZero ([(63, 0)], [(63, 0)], [(0, 0)]) r = true)
    (fun r s =>
      let t := hostPut (fld r.w2 63 0) ((legAt (ix r) s).ctrs.flatMap (leBytes 8)) s
      doneVia (legAt (ix r) s).wing (if bitOf r.w3 0 = true then setLeg (ix r) { legAt (ix r) s with ctrs := List.replicate 8 0 } t else t)) ∧
  Completes .legRelease 0x48
    (fun r s => legNamed r s ∧ reservedZero ([(63, 0)], [], []) r = true)
    (fun r s => doneVia (legAt (ix r) s).wing (closeLeg (ix r) s)) ∧
  ∀ (l : Nat) (s : State), (identOf .leg l (closeLeg l s)).used = false ∧ (legAt l (closeLeg l s)).queue = [] ∧
    (legAt l (closeLeg l s)).active = false ∧ (closeLeg l s).dram = s.dram ∧ (closeLeg l s).hostMem = s.hostMem

/-- Subscriptions: creation under a leg with its SSRCs unused there, new bounds, the image, and a release that waits for
its frame. For objects that the requester may name, reserved bits 0. SUB_CREATE to a source of the requester, minimums
below maximums, SSRCs that no subscription of the leg uses, fewer than 64 of them there: the lowest free subscription
is in use under the leg and source, and a selection is due; the reply carries its handle, with OK, or DEGRADED while
the traffic of the leg's Wing, or between it and the source's, is rerouted (that the second counts is DEDUCED, log
entry 143). SUB_BOUNDS with minimums at most its maximums replaces bits 99:80 and makes a selection due. SUB_READ
writes the 64-byte image. SUB_RELEASE closes a subscription with no frame in progress; with one, it stays in progress
as the release that waits for the frame's end. (R31, R95, R119, R123, R124, R125, R132) -/
def Obligations.SubscriptionCommands : Prop :=
  let ix := fun (r : Req) => handleIdx (fld r.w1 63 0)
  CompletesSo .subCreate 0x49
    (fun r s =>
      let v : Sub := { fn := reqFn r, w1 := r.w1, w2 := r.w2, w3 := r.w3 }
      let k := handleIdx (fld r.w1 127 64)
      legNamed r s ∧ reservedZero ([(127, 0)], [(98, 80), (78, 0)], [(21, 0)]) r = true ∧ resolve .source (fld r.w1 127 64) s = .ok k ∧
      (r.owner = true ∨ (sourceAt k s).fn = r.fn) ∧ minsFine r.w2 = true ∧ fld r.w3 21 18 ≤ 14 ∧ fld r.w3 17 14 ≤ 14 ∧
      ((legAt (ix r) s).kind = 1 → v.ssrc < 2 ^ 20 ∧ ownsStream r (legAt (ix r) s).wing v.ssrc s = true) ∧
      (∀ c ∈ legSubs (ix r) s, ∀ x ∈ c.2.ssrcs, v.ssrcs.contains x = false) ∧ (legSubs (ix r) s).length < 64 ∧
      (lowestFree .sub 0 4194304 s).isSome)
    (fun r s t rep => ∃ i, lowestFree .sub 0 4194304 s = some i ∧
      rep = (if pairRerouted (sourceAt (handleIdx (fld r.w1 127 64)) s).wing (legAt (ix r) s).wing t = true
        then ⟨stDegraded, 1, handleFor .sub i s⟩ else okVia (legAt (ix r) s).wing (handleFor .sub i s) t) ∧ (identOf .sub i t).used = true ∧
      (subAt i t).leg = ix r ∧ (subAt i t).source = handleFor .source (handleIdx (fld r.w1 127 64)) s ∧ (subAt i t).w1 = r.w1 ∧
      (subAt i t).w2 = r.w2 ∧ (subAt i t).w3 = r.w3 ∧ (legAt (ix r) t).selDue = true ∧ (∀ j, j ≠ i → subAt j t = subAt j s) ∧
      t.hq = s.hq ∧ t.dram = s.dram ∧ t.hostMem = s.hostMem) ∧
  CompletesSo .subBounds 0x4A
    (fun r s => subNamed r s ∧ reservedZero ([(63, 0)], [(98, 80)], []) r = true ∧ minsFine r.w2 = true)
    (fun r s t rep => rep = okVia (legAt (subAt (ix r) s).leg s).wing 0 t ∧
      (subAt (ix r) t).w2 = pack128 [(100, 28, fld (subAt (ix r) s).w2 127 100), (80, 20, fld r.w2 99 80), (0, 80, fld (subAt (ix r) s).w2 79 0)] ∧
      (legAt (subAt (ix r) s).leg t).selDue = true ∧ (∀ j, j ≠ ix r → subAt j t = subAt j s) ∧ t.ids = s.ids ∧ t.hq = s.hq ∧
      t.dram = s.dram ∧ t.hostMem = s.hostMem) ∧
  Completes .subRead 0x4B
    (fun r s => subNamed r s ∧ reservedZero ([(63, 0)], [(63, 0)], []) r = true)
    (fun r s => doneVia (legAt (subAt (ix r) s).leg s).wing (hostPut (fld r.w2 63 0) (bytesOfWords (subImage (ix r) s)) s)) ∧
  Completes .subRelease 0x4C
    (fun r s => subNamed r s ∧ reservedZero ([(63, 0)], [], []) r = true ∧ (subAt (ix r) s).inFrame = false)
    (fun r s => doneVia (legAt (subAt (ix r) s).leg s).wing (closeSub (ix r) s)) ∧
  Begins .subRelease 0x4C
    (fun r s => subNamed r s ∧ reservedZero ([(63, 0)], [], []) r = true ∧ (subAt (ix r) s).inFrame = true ∧ (subAt (ix r) s).releasing = none)
    (fun r s => setSub (ix r) { subAt (ix r) s with releasing := some r.tk } s) ∧
  ∀ (j : Nat) (s : State), (identOf .sub j (closeSub j s)).used = false ∧ (closeSub j s).dram = s.dram ∧ (closeSub j s).hostMem = s.hostMem ∧
    (∀ c ∈ (legAt (subAt j s).leg (closeSub j s)).queue, c.sub ≠ handleFor .sub j s)

/-- Keyframe requests merge for the hold: one goes upstream at once, one that waits goes at the hold's end, and silence
brings a work item. LEG_KEYFRAME for a source that the requester may name enters a request into the merge and
completes with OK. A request while the hold runs waits, counted as merged. KF_HOLD_END of a source in use with a
request waiting after its hold sends it and starts the next hold. KEYFRAME_NEEDED, 3 holds after the first unanswered
request, posts one work item that names the source; before that it does nothing. (R119, R132, R137, R409) -/
def Obligations.KeyframeRequests : Prop :=
  Completes .legKeyframe 0x4D
    (fun r s => reservedZero ([(63, 0)], [], []) r = true ∧ resolve .source (fld r.w1 63 0) s = .ok (handleIdx (fld r.w1 63 0)) ∧
      (r.owner = true ∨ (sourceAt (handleIdx (fld r.w1 63 0)) s).fn = r.fn))
    (fun r s => (kfRequest (handleIdx (fld r.w1 63 0)) false s, okWith 0)) ∧
  (∀ (i : Nat) (fir : Bool) (s : State), nowNs s < (sourceAt i s).kfHoldUntil →
    (sourceAt i (kfRequest i fir s)).kfPending = true ∧ (sourceAt i (kfRequest i fir s)).kfHoldUntil = (sourceAt i s).kfHoldUntil ∧
    (sourceAt i (kfRequest i fir s)).kfFirst = some ((sourceAt i s).kfFirst.getD (nowNs s)) ∧ (kfRequest i fir s).out = s.out ∧
    ctrGet (legCtr (sourceAt i s).wing 9) (kfRequest i fir s) = satAdd 64 (ctrGet (legCtr (sourceAt i s).wing 9) s) 1) ∧
  (∀ (i : Nat) (s : State), i < 131072 → (identOf .source i s).used = true → (sourceAt i s).kfPending = true →
    (sourceAt i s).kfHoldUntil ≤ nowNs s → (sourceAt i s).isLocal = false →
    ∃ t : State, exec (.kfHoldEnd i) s = .next t ∧ t = sendKeyframe i s ∧ (sourceAt i t).kfPending = false ∧
      (sourceAt i t).kfHoldUntil = nowNs s + (roomAt (sourceAt i s).room s).kfHoldMs * 1000000 ∧ (∀ j, j ≠ i → sourceAt j t = sourceAt j s) ∧
      t.hq = s.hq ∧ t.dram = s.dram ∧ t.hostMem = s.hostMem) ∧
  (∀ (i at_ : Nat) (s : State), i < 131072 → (identOf .source i s).used = true → (sourceAt i s).kfFirst = some at_ → (sourceAt i s).kfPosted = false →
    at_ + 3 * (roomAt (sourceAt i s).room s).kfHoldMs * 1000000 ≤ nowNs s →
    exec (.keyframeNeeded i) s = .next (enginePost 0x02 (192 + (sourceAt i s).wing) (sourceAt i s).fn 0
      (BitVec.ofNat 128 (handleFor .source i s)) 0 (setSource i { sourceAt i s with kfPosted := true } s))) ∧
  ∀ (i at_ : Nat) (s : State), i < 131072 → (sourceAt i s).kfFirst = some at_ →
    nowNs s < at_ + 3 * (roomAt (sourceAt i s).room s).kfHoldMs * 1000000 → exec (.keyframeNeeded i) s = .next s

/-- The layers that a selection chooses fit the leg's budget and each subscription's bounds; no feedback halves the
estimate. LAYER_SELECTION of a leg in use selects when 50 ms have passed since the last one on the grid, and, when one
is due, out of turn without moving the grid; otherwise it does nothing. Whatever the ladders, the rates of the rungs
chosen sum to at most the budget, and every rung chosen lies within its subscription's bounds. FB_TIMEOUT of a leg in
use whose timer has run out halves the estimate, not below MIN_KBPS, and enters NO_FEEDBACK. That a port's pressure
pass is one with the selection of its lowest leg is the model's (log entry 26). (R129, R131, R132, R135) -/
def Obligations.LayerSelectionFitsBudget : Prop :=
  (∀ (l : Nat) (s : State), l < 1048576 → (identOf .leg l s).used = true → (legAt l s).selAt + 50000000 ≤ nowNs s →
    exec (.layerSelection l) s = .next (selectLayers l (if (portLegs (legAt l s).lane s).head? = some l then pressurePass (legAt l s).lane s else s))) ∧
  (∀ (l : Nat) (s : State), l < 1048576 → (identOf .leg l s).used = true → nowNs s < (legAt l s).selAt + 50000000 → (legAt l s).selDue = true →
    exec (.layerSelection l) s = .next (updLeg l (fun v => { v with selAt := (legAt l s).selAt }) (selectLayers l s))) ∧
  (∀ (l : Nat) (s : State), l < 1048576 → nowNs s < (legAt l s).selAt + 50000000 → (legAt l s).selDue = false →
    exec (.layerSelection l) s = .next s) ∧
  (∀ (ps : List Pick) (budget : Nat), (∀ p ∈ ps, p.target = none) →
    (((pickRaises (pickMins ps budget).1 (pickMins ps budget).2).1.filterMap (·.target)).map (·.1)).sum ≤ budget ∧
    ∀ p ∈ (pickRaises (pickMins ps budget).1 (pickMins ps budget).2).1, ∀ c, p.target = some c → inBounds p c.2 = true) ∧
  ∀ (l : Nat) (s : State), l < 1048576 → (identOf .leg l s).used = true → (legAt l s).fbTimer + fld (legAt l s).wEst 12 0 * 1000000 ≤ nowNs s →
    ∃ t : State, exec (.fbTimeout l) s = .next t ∧ (legAt l t).est = max ((legAt l s).est / 2) (legAt l s).minKbps ∧ (legAt l t).estState = 3 ∧
      (legAt l t).fbTimer = nowNs s ∧ (∀ j, j ≠ l → legAt j t = legAt j s) ∧ t.hq = s.hq ∧ t.dram = s.dram ∧ t.hostMem = s.hostMem

/-- SCHEDULE_SELECT serves an eligible leg only; the gate list advances entry by entry, and LEG_GATE_LIST starts it at
BASE or a later cycle. SCHEDULE_SELECT on a port outside Safe Hold: with no eligible leg no copy leaves; otherwise the
leg that the scheduler picks, which is an eligible one, sends its head copy, spill and the port's backlog are looked
at again, and the nodes settle. In Safe Hold nothing happens. A head copy whose subscription's handle is stale is
discarded and counted, nothing sent. GATE_ENTRY at the start of a waiting list puts it in force at its first entry; at
the end of an entry the next follows, the first after the last. LEG_GATE_LIST with a valid list installs it to start
at BASE, or at the first cycle from BASE not yet past, then with STARTED_LATE; with no entries it removes the list; OK
is DEGRADED while the Wing's traffic is rerouted. (R31, R125, R135, R142, R143, R144, R145, R487) -/
def Obligations.EgressSchedule : Prop :=
  (∀ (p : Nat) (s : State), p < 128 → isPort p s = true → s.body.hold = false → (∀ l ∈ portLegs p s, eligible l s = false) →
    exec (.scheduleSelect p) s = .next (settleNodes p [] s)) ∧
  (∀ (p l : Nat) (s s1 : State) (elig : List Nat), p < 128 → isPort p s = true → s.body.hold = false →
    elig = (portLegs p s).filter (fun l => eligible l s) →
    pickLeg p elig (elig.foldl (fun s l => wakeLeg p l s) (settleNodes p elig s)) = some (l, s1) →
    l ∈ elig ∧ ∀ t, t = spillAll (p / 32) (sendHead p l s1) →
      exec (.scheduleSelect p) s = .next (notePort p (settleNodes p ((portLegs p t).filter (fun l => eligible l t)) t))) ∧
  (∀ (p : Nat) (s : State), p < 128 → s.body.hold = true → exec (.scheduleSelect p) s = .next s) ∧
  (∀ (p l : Nat) (s : State) (c : Copy) (rest : List Copy), (legAt l s).queue = c :: rest → s.media.buffers.find? c.buffer = none →
    resolve .sub c.sub s ≠ .ok (handleIdx c.sub) →
    sendHead p l s = count (legCtr (legAt l s).wing 11) 1 (setLeg l { shaperNow (legAt l s) s with queue := rest } s)) ∧
  (∀ (p : Nat) (s : State) (g : GateList), p < 128 → (egressAt p s).nextGate = some g → cmpReached (cmpNow s) g.start = true →
    exec (.gateEntry p) s = .next (setEgress p { egressAt p s with
      gate := some g, nextGate := none, entry := 0, entryAt := g.start, nLast := g.n, restart := none } s)) ∧
  (∀ (p : Nat) (s : State) (g : GateList), p < 128 → (egressAt p s).nextGate = none → (egressAt p s).restart = none →
    (egressAt p s).gate = some g →
    exec (.gateEntry p) s = .next (if cmpReached (cmpNow s) (cmpAdd (egressAt p s).entryAt (g.entries.getD (egressAt p s).entry (0, 0)).1) = true
      then setEgress p { egressAt p s with
        entry := ((egressAt p s).entry + 1) % g.entries.length
        entryAt := cmpAdd (egressAt p s).entryAt (g.entries.getD (egressAt p s).entry (0, 0)).1 } s
      else s)) ∧
  Completes .legGateList 0x4E
    (fun r s =>
      let es := gateEntries (hostBytes (fld r.w1 127 64) (8 * fld r.w2 104 96) s) (fld r.w2 104 96)
      reservedZero ([(6, 0), (127, 64)], [(104, 96), (93, 0)], []) r = true ∧ isPort (fld r.w1 6 0) s = true ∧ 1 ≤ fld r.w2 104 96 ∧
      fld r.w2 104 96 ≤ 256 ∧ 1000 ≤ fld r.w2 93 64 ∧ fld r.w2 93 64 ≤ 1000000000 ∧ (∀ e ∈ es, 1000 ≤ e.1 ∧ e.2 < 16) ∧
      (es.map (·.1)).sum = fld r.w2 93 64)
    (fun r s =>
      let es := gateEntries (hostBytes (fld r.w1 127 64) (8 * fld r.w2 104 96) s) (fld r.w2 104 96)
      let k := ceilDiv (cmpDiff (cmpNow s) (fld r.w2 63 0)).toNat (fld r.w2 93 64)
      (setEgress (fld r.w1 6 0) { egressAt (fld r.w1 6 0) s with nextGate := some ⟨cmpAdd (fld r.w2 63 0) (k * fld r.w2 93 64), k, es⟩ } s,
        if k = 0 then okVia (fld r.w1 6 0 / 32) 0 s else ⟨stStartedLate, 1, k % 2 ^ 32⟩)) ∧
  Completes .legGateList 0x4E
    (fun r s => reservedZero ([(6, 0), (127, 64)], [(104, 96), (93, 0)], []) r = true ∧ isPort (fld r.w1 6 0) s = true ∧ fld r.w2 104 96 = 0)
    (fun r s => doneVia (fld r.w1 6 0 / 32)
      (setEgress (fld r.w1 6 0) { egressAt (fld r.w1 6 0) s with gate := none, nextGate := none, entry := 0, restart := none } s))

/-- The lifecycle: BLANK is provisioned once, an owner-signed token retires or enables debug, a KEK is installed at a
higher epoch and erased. KEY_PROVISION in BLANK by PF0 or firmware keeps the root key and the owner's hash and enters
DEPLOYED; in another state it completes with NOT_STARTED. KEY_TOKEN: a valid RETIRE token enters RETIRED with the root
key all ones; a valid DEBUG_ENABLE token in DEPLOYED with no slot in use zeroes the KEKs and enters DEBUG_ENABLED, and
with slots in use sets every one of them ERASING and waits; an accepted token consumes its challenge, and an invalid
one completes with ACCESS_REFUSED and changes nothing. KEY_TOKEN_RETIRE_CHECK reports the state. KEY_KEK_INSTALL
installs a blob that unwraps, its reserved bytes 0, with a higher EPOCH; KEY_KEK_ERASE zeroes an entry. In BLANK every
key command but KEY_PROVISION and KEY_SLOT_READ completes with NOT_STARTED. Reserved bits are 0. (R155, R156, R157,
R158, R173, R174) -/
def Obligations.KeyLifecycle : Prop :=
  Completes .keyProvision 0x60 (fun r s => r.owner = true ∧ s.keys.life = 0 ∧ reservedZero ([(127, 0)], [(127, 0)], [(63, 0)]) r = true)
    (fun r s => ({ s with keys := { s.keys with
      life := 1, rootKey := bytesOf128 r.w1 ++ bytesOf128 r.w2, ownerHash := hostBytes (fld r.w3 63 0) 48 s } }, okWith 0)) ∧
  Completes .keyProvision 0x60 (fun r s => r.owner = true ∧ s.keys.life ≠ 0) (fun _ s => (s, refuse stNotStarted 0x04)) ∧
  Completes .keyToken 0x61
    (fun r s => tokPurpose (hostBytes (fld r.w1 63 0) (fld r.w1 79 64) s) = 4 ∧ s.keys.life ≠ 0 ∧ s.keys.life ≠ 3 ∧
      reservedZero ([(79, 0)], [], []) r = true)
    (fun r s => if tokenOk (hostBytes (fld r.w1 63 0) (fld r.w1 79 64) s) s = true then
        ({ consumeToken s with keys := { (consumeToken s).keys with life := 3, rootKey := List.replicate 32 0xFF } }, okWith 0)
      else (s, refuse stRefused 0x0A)) ∧
  Completes .keyToken 0x61
    (fun r s => tokPurpose (hostBytes (fld r.w1 63 0) (fld r.w1 79 64) s) = 1 ∧ s.keys.life = 1 ∧ reservedZero ([(79, 0)], [], []) r = true ∧
      ∀ c ∈ s.keys.slots.toList, c.2.state = 0)
    (fun r s => if tokenOk (hostBytes (fld r.w1 63 0) (fld r.w1 79 64) s) s = true then
        ({ consumeToken s with keys := { (consumeToken s).keys with life := 2, keks := Tab.empty } }, okWith 0)
      else (s, refuse stRefused 0x0A)) ∧
  (∀ (src : CmdSrc) (s s1 : State) (r : Req), src.wf = true → presented 0x61 src s = some (r, s1) →
    tokPurpose (hostBytes (fld r.w1 63 0) (fld r.w1 79 64) s1) = 1 → s1.keys.life = 1 → reservedZero ([(79, 0)], [], []) r = true →
    (∃ c ∈ s1.keys.slots.toList, c.2.state ≠ 0) →
    (tokenOk (hostBytes (fld r.w1 63 0) (fld r.w1 79 64) s1) s1 = false → exec (.keyToken src) s = .next (complete r.tk (refuse stRefused 0x0A) s1)) ∧
    (tokenOk (hostBytes (fld r.w1 63 0) (fld r.w1 79 64) s1) s1 = true →
      ∃ t : State, exec (.keyToken src) s = .next t ∧ t.keys.debugWait = s1.keys.debugWait ++ [r.tk] ∧ t.keys.challenges = s1.keys.challenges + 1 ∧
        (∀ k v, s1.keys.slots.find? k = some v → v.state ≠ 0 → (slotAt k t).state = (if v.state = 1 ∨ v.state = 2 then 3 else v.state)) ∧
        t.keys.life = 1 ∧ t.hq = s1.hq ∧ t.dram = s1.dram ∧ t.hostMem = s1.hostMem)) ∧
  Completes .keyTokenRetireCheck 0x6B (fun r s => s.keys.life ≠ 0 ∧ reservedZero ([], [], []) r = true) (fun _ s => (s, okWith s.keys.life)) ∧
  (∀ c ∈ ([(.keyToken, 0x61), (.keyKekInstall, 0x62), (.keyKekErase, 0x63), (.keySlotAlloc, 0x64), (.keySlotLoad, 0x65), (.keySlotErase, 0x66),
      (.keySlotRelease, 0x67), (.keyCtxSave, 0x68), (.keyCtxRestore, 0x69), (.keyTokenRetireCheck, 0x6B)] : List ((CmdSrc → Instr) × Nat)),
    Completes c.1 c.2 (fun _ s => s.keys.life = 0) (fun _ s => (s, refuse stNotStarted 0x04))) ∧
  (∀ key : List Byte, Completes .keyKekInstall 0x62
    (fun r s => r.owner = true ∧ s.keys.life ≠ 0 ∧ reservedZero ([(63, 0)], [], []) r = true ∧ headerFine 1 (hostBytes (fld r.w1 63 0) 16 s) = true ∧
      wrapKey (hostBytes (fld r.w1 63 0) 16 s) s = some key)
    (fun r s =>
      let h := hostBytes (fld r.w1 63 0) 16 s
      match unwrapBlob (hostBytes (fld r.w1 63 0) 88 s) key s with
      | none => ((unwrapFail r h s).1, refuse stNotStarted 0x02)
      | some p =>
        if (slice p 48 16).all (· == 0) = false then (s, refuse stNotStarted 0x01)
        else if leAt h 12 4 ≤ (kekOf (byteAt h 6) (byteAt h 7) s).epoch then (s, refuse stNotStarted 0x06)
        else
          let v : Kek := ⟨true, leAt h 12 4, slice p 16 32⟩
          ({ s with keys := { s.keys with keks := s.keys.keks.set (kekKey (byteAt h 6) (byteAt h 7)) v } }, okWith 0))) ∧
  Completes .keyKekErase 0x63 (fun r s => r.owner = true ∧ s.keys.life ≠ 0 ∧ reservedZero ([(5, 0), (9, 8)], [], []) r = true)
    (fun r s => ({ s with keys := { s.keys with keks := s.keys.keks.set (kekKey (fld r.w1 5 0) (fld r.w1 9 8)) {} } }, okWith 0))

/-- A key slot: allocated EMPTY to its owner, loaded from a session blob, read, erased once its operations end, released
into quarantine. Outside BLANK, reserved bits 0, for slots that the requester may name. KEY_SLOT_ALLOC makes a slot
EMPTY for the named owner, the lowest free one of a bank where it holds Control, and with a blob of that owner that
unwraps loads it. KEY_SLOT_LOAD of such a blob into an EMPTY or ACTIVE slot loads it; a blob that does not unwrap is
refused. Loading makes the slot ACTIVE under the blob's profile, and the old receive keys PREVIOUS for the grace.
KEY_SLOT_ERASE sets the slot ERASING and waits; ERASE_ZEROING_DONE, once no started operation remains, leaves it EMPTY
with no keys, index records or PREVIOUS. KEY_SLOT_RELEASE of an EMPTY slot that nothing binds frees it, in quarantine;
of an ACTIVE one it erases first; of a bound one it is refused. KEY_SLOT_READ writes the image and clears the counters
if asked. RX_GRACE_END zeroes PREVIOUS when its grace has passed. A slot's record in DRAM is written anew at each
change, and no byte outside it; what a segment given up at a park held is the stack's. (R9, R159, R160, R161, R163,
R164, R174, R175) -/
def Obligations.KeySlotLife : Prop :=
  let ix := fun (r : Req) => handleIdx (fld r.w1 63 0)
  (∀ k : Nat, Completes .keySlotAlloc 0x64
    (fun r s => s.keys.life ≠ 0 ∧ reservedZero ([(63, 0)], [(5, 0), (31, 16)], []) r = true ∧ fld r.w2 31 16 ≤ 10000 ∧ fld r.w1 63 0 = 0 ∧
      freeSlot r s = some k)
    (fun r s => (takeSlot k (fld r.w2 5 0) s, okWith (handleFor .slot k s)))) ∧
  (∀ (k : Nat) (key p : List Byte), Completes .keySlotAlloc 0x64
    (fun r s => s.keys.life ≠ 0 ∧ reservedZero ([(63, 0)], [(5, 0), (31, 16)], []) r = true ∧ fld r.w2 31 16 ≤ 10000 ∧ fld r.w1 63 0 ≠ 0 ∧
      freeSlot r s = some k ∧ headerFine 2 (hostBytes (fld r.w1 63 0) 16 s) = true ∧ byteAt (hostBytes (fld r.w1 63 0) 16 s) 6 = fld r.w2 5 0 ∧
      wrapKey (hostBytes (fld r.w1 63 0) 16 s) s = some key ∧ unwrapBlob (hostBytes (fld r.w1 63 0) 152 s) key s = some p ∧ sessionFine p = true)
    (fun r s => (loadSession k p (fld r.w2 31 16) (takeSlot k (fld r.w2 5 0) s), okWith (handleFor .slot k s)))) ∧
  (∀ (r : Req) (s : State) (k : Nat), freeSlot r s = some k → accHas tgKeyBank (k / 4096) r.master bitControl s = true ∧
    idBusy .slot k s = false ∧ ∀ j, k / 4096 * 4096 ≤ j → j < k → idBusy .slot j s = true) ∧
  (∀ (k f : Nat) (s : State), slotAt k (takeSlot k f s) = { state := 1, owner := f, writes := ((slotAt k s).writes + 1) % 2 ^ 32 } ∧
    (identOf .slot k (takeSlot k f s)).used = true ∧ (∀ j, j ≠ k → slotAt j (takeSlot k f s) = slotAt j s) ∧ (takeSlot k f s).hq = s.hq ∧
    (takeSlot k f s).hostMem = s.hostMem) ∧
  (∀ key p : List Byte, Completes .keySlotLoad 0x65
    (fun r s => slotNamed r s ∧ s.keys.life ≠ 0 ∧ reservedZero ([(63, 0)], [(63, 0)], [(15, 0)]) r = true ∧
      ((slotAt (ix r) s).state = 1 ∨ (slotAt (ix r) s).state = 2) ∧ fld r.w3 15 0 ≤ 10000 ∧
      headerFine 2 (hostBytes (fld r.w2 63 0) 16 s) = true ∧ byteAt (hostBytes (fld r.w2 63 0) 16 s) 6 = (slotAt (ix r) s).owner ∧
      wrapKey (hostBytes (fld r.w2 63 0) 16 s) s = some key ∧ unwrapBlob (hostBytes (fld r.w2 63 0) 152 s) key s = some p ∧ sessionFine p = true ∧
      ((slotAt (ix r) s).state = 2 → byteAt p 0x12 = 3 ∨ leAt p 0x10 2 = (slotAt (ix r) s).profile))
    (fun r s => (loadSession (ix r) p (fld r.w3 15 0) s, okWith 0))) ∧
  (∀ key : List Byte, Completes .keySlotLoad 0x65
    (fun r s => slotNamed r s ∧ s.keys.life ≠ 0 ∧ ((slotAt (ix r) s).state = 1 ∨ (slotAt (ix r) s).state = 2) ∧ fld r.w3 15 0 ≤ 10000 ∧
      headerFine 2 (hostBytes (fld r.w2 63 0) 16 s) = true ∧ byteAt (hostBytes (fld r.w2 63 0) 16 s) 6 = (slotAt (ix r) s).owner ∧
      wrapKey (hostBytes (fld r.w2 63 0) 16 s) s = some key ∧ unwrapBlob (hostBytes (fld r.w2 63 0) 152 s) key s = none)
    (fun r s => ((unwrapFail r (hostBytes (fld r.w2 63 0) 16 s) s).1, refuse stNotStarted 0x02))) ∧
  (∀ (k graceMs : Nat) (p : List Byte) (s : State), (slotAt k (loadSession k p graceMs s)).state = 2 ∧
    (slotAt k (loadSession k p graceMs s)).profile = leAt p 0x10 2 ∧ (slotAt k (loadSession k p graceMs s)).owner = (slotAt k s).owner ∧
    (slotAt k (loadSession k p graceMs s)).rxKeys = (if byteAt p 0x12 % 2 = 1 then masterKeys (leAt p 0x10 2) (slice p 0x20 48) else (slotAt k s).rxKeys) ∧
    (slotAt k (loadSession k p graceMs s)).txKeys = (if 2 ≤ byteAt p 0x12 then masterKeys (leAt p 0x10 2) (slice p 0x50 48) else (slotAt k s).txKeys) ∧
    (byteAt p 0x12 % 2 = 1 → (slotAt k s).rxKeys ≠ [] → graceMs ≠ 0 → (slotAt k (loadSession k p graceMs s)).prev
      = some (⟨(slotAt k s).rxGen, (slotAt k s).profile, (slotAt k s).rxKeys, (slotAt k s).rxMaster⟩, nowNs s + graceMs * 1000000)) ∧
    (∀ j, j ≠ k → slotAt j (loadSession k p graceMs s) = slotAt j s) ∧ (loadSession k p graceMs s).ids = s.ids ∧
    (loadSession k p graceMs s).hq = s.hq ∧ (loadSession k p graceMs s).hostMem = s.hostMem) ∧
  (∀ (src : CmdSrc) (s s1 : State) (r : Req), src.wf = true → presented 0x66 src s = some (r, s1) → slotNamed r s1 → s1.keys.life ≠ 0 →
    reservedZero ([(63, 0)], [], []) r = true → (slotAt (ix r) s1).state = 1 ∨ (slotAt (ix r) s1).state = 2 →
    ∃ t : State, exec (.keySlotErase src) s = .next t ∧ (slotAt (ix r) t).state = 3 ∧
      (slotAt (ix r) t).erasers = (slotAt (ix r) s1).erasers ++ [r.tk] ∧ (∀ j, j ≠ ix r → slotAt j t = slotAt j s1) ∧ t.ids = s1.ids ∧
      t.dram = s1.dram ∧ t.hostMem = s1.hostMem) ∧
  (∀ (k : Nat) (s : State), k < 2097152 → (slotAt k s).state = 3 → opsOn k s = 0 → (slotAt k s).releasing = false →
    ∃ t : State, exec (.eraseZeroingDone k) s = .next t ∧ (slotAt k t).state = 1 ∧ (slotAt k t).rxKeys = [] ∧ (slotAt k t).txKeys = [] ∧
      (slotAt k t).rxMaster = [] ∧ (slotAt k t).txMaster = [] ∧ (slotAt k t).recs = [] ∧ (slotAt k t).prev = none ∧ (slotAt k t).prevRecs = [] ∧
      (slotAt k t).owner = (slotAt k s).owner ∧ (s.keys.debugWait = [] → ∀ j, j ≠ k → slotAt j t = slotAt j s) ∧ t.hostMem = s.hostMem) ∧
  (∀ (k : Nat) (s : State), k < 2097152 → (slotAt k s).state = 3 → opsOn k s = 0 → (slotAt k s).releasing = true →
    ∃ t : State, exec (.eraseZeroingDone k) s = .next t ∧ slotAt k t = { writes := ((slotAt k s).writes + 1) % 2 ^ 32 } ∧
      (identOf .slot k t).used = false ∧ (s.keys.debugWait = [] → ∀ j, j ≠ k → slotAt j t = slotAt j s) ∧ t.hostMem = s.hostMem) ∧
  Completes .keySlotRelease 0x67
    (fun r s => slotNamed r s ∧ s.keys.life ≠ 0 ∧ reservedZero ([(63, 0)], [], []) r = true ∧ binds (ix r) s = 0 ∧ (slotAt (ix r) s).state = 1)
    (fun r s => (freeSlotNow (ix r) s, okWith 0)) ∧
  (∀ (k : Nat) (s : State), slotAt k (freeSlotNow k s) = { writes := (slotAt k s).writes } ∧ identOf .slot k (freeSlotNow k s) =
    { gen := ((identOf .slot k s).gen + 1) % 4096, used := false, quarUntil := nowNs s + s.body.quarantineMs * 1000000
      quarMs := s.body.quarantineMs }) ∧
  Begins .keySlotRelease 0x67
    (fun r s => slotNamed r s ∧ s.keys.life ≠ 0 ∧ reservedZero ([(63, 0)], [], []) r = true ∧ binds (ix r) s = 0 ∧ (slotAt (ix r) s).state = 2)
    (fun r s => setSlot (ix r) { slotAt (ix r) s with state := 3, erasers := (slotAt (ix r) s).erasers ++ [r.tk], releasing := true }
      (setSlot (ix r) { slotAt (ix r) s with state := 3 } s)) ∧
  Completes .keySlotRelease 0x67 (fun r s => slotNamed r s ∧ s.keys.life ≠ 0 ∧ 0 < binds (ix r) s) (fun _ s => (s, refuse stNotStarted 0x0B)) ∧
  Completes .keySlotRead 0x6A
    (fun r s => slotNamed r s ∧ reservedZero ([(63, 0)], [(63, 0)], [(0, 0)]) r = true)
    (fun r s =>
      let t := hostPut (fld r.w2 63 0) (bytesOfWords (slotImage (ix r) s)) s
      (if bitOf r.w3 0 = true then setSlot (ix r) { slotAt (ix r) s with authFail := 0, replay := 0, nonceEx := 0, keyErased := 0 } t else t, okWith 0)) ∧
  (∀ (k : Nat) (s : State) (p : RxKeys × Nat), k < 2097152 → (slotAt k s).prev = some p →
    exec (.rxGraceEnd k) s = .next (if p.2 ≤ nowNs s then writeRecord k (setSlot k { slotAt k s with
        prev := none, prevRecs := []
        drain := if opsOn k s = 0 then (slotAt k s).drain else (p.1.gen, (slotAt k s).prevRecs) :: (slotAt k s).drain } s)
      else s)) ∧
  ∀ (k : Nat) (s : State), slotAt k (writeRecord k s) = { slotAt k s with writes := ((slotAt k s).writes + 1) % 2 ^ 32 } ∧
    (∀ j, j ≠ k → slotAt j (writeRecord k s) = slotAt j s) ∧ (writeRecord k s).ids = s.ids ∧ (writeRecord k s).hq = s.hq ∧
    (writeRecord k s).media = s.media ∧ (writeRecord k s).hostMem = s.hostMem ∧
    (Mem.wf s.dram = true → (stackOf (k % 8) s).lost = 0 →
      ∀ x, x < dramAt (k % 8) (slotRecord k) ∨ dramAt (k % 8) (slotRecord k) + 256 ≤ x → Mem.read (writeRecord k s).dram x = Mem.read s.dram x)

/-- Contexts: a save writes the snapshot or freezes the slot for it, a restore makes a slot ACTIVE with its records held,
unclaimed records drop. Outside BLANK, reserved bits 0. KEY_CTX_SAVE of an ACTIVE slot with its KEK there, the buffer
long enough and a counter value left writes the context and takes a counter value; with FREEZE it freezes the slot and
waits, and CONTEXT_SNAPSHOT writes it once no started operation remains and completes the command with OK. A clear
save needs DEBUG_ENABLED and PF0 or firmware. KEY_CTX_RESTORE of a well-formed clear context in DEBUG_ENABLED makes a
free slot under the requester's Control ACTIVE for its owner; of a sealed one, when it opens under the KEK, likewise,
and when it does not, it is counted and recorded. RESTORED_RECORD_DROP drops the held records whose time has passed
and no other. The layout of the slot body is the model's (log entry 24). (R155, R168, R169, R170, R171, R172, R176) -/
def Obligations.KeyContexts : Prop :=
  let ix := fun (r : Req) => handleIdx (fld r.w1 63 0)
  let req := fun (r : Req) => (⟨r.tk, fld r.w2 63 0, fld r.w2 95 64, bitOf r.w3 0, fld r.w3 9 8⟩ : SaveReq)
  let bytes := fun (r : Req) (s : State) => hostBytes (fld r.w1 63 0) (fld r.w1 95 64) s
  let fine := fun (kind : Nat) (r : Req) (s : State) =>
    let hd := (bytes r s).take 32
    let n := (leAt hd 8 4 - 272) / 32
    leAt hd 0 2 = 0x4B57 ∧ byteAt hd 2 = 1 ∧ byteAt hd 3 = kind ∧ byteAt hd 4 ≤ 63 ∧ byteAt hd 5 ≤ 3 ∧ leAt hd 8 4 = 272 + 32 * n ∧
      n ≤ 160 ∧ fld r.w1 95 64 = leAt hd 8 4 ∧ byteAt hd 6 = fld r.w2 13 8
  let opened := fun (r : Req) (s : State) =>
    let hd := (bytes r s).take 32
    gcmOpen (contextKey (kekOf (byteAt hd 4) (byteAt hd 5) s).key (leAt hd 16 8)) (ctxNonce (leAt hd 24 8)) (hd.take 16) ((bytes r s).drop 32)
  Completes .keyCtxSave 0x68
    (fun r s => slotNamed r s ∧ s.keys.life ≠ 0 ∧ reservedZero ([(63, 0)], [(95, 0)], [(1, 0), (9, 8)]) r = true ∧
      (bitOf r.w3 0 = true → r.owner = true ∧ s.keys.life = 2) ∧ saveRefusal (ix r) (req r) s = none ∧ bitOf r.w3 1 = false)
    (fun r s => (writeSnapshot (ix r) (req r) s, okWith 0)) ∧
  Begins .keyCtxSave 0x68
    (fun r s => slotNamed r s ∧ s.keys.life ≠ 0 ∧ reservedZero ([(63, 0)], [(95, 0)], [(1, 0), (9, 8)]) r = true ∧
      (bitOf r.w3 0 = true → r.owner = true ∧ s.keys.life = 2) ∧ saveRefusal (ix r) (req r) s = none ∧ bitOf r.w3 1 = true ∧
      (slotAt (ix r) s).save = none)
    (fun r s => setSlot (ix r) { slotAt (ix r) s with frozen := true, save := some (req r) } s) ∧
  (∀ (k : Nat) (q : SaveReq) (s : State), saveRefusal k q s = none ↔ (slotAt k s).state = 2 ∧ ctxLen (slotAt k s) ≤ q.len ∧
    (q.clear = false → (kekOf (slotAt k s).owner q.kek s).valid = true ∧ s.keys.ctxNext < 2 ^ 64)) ∧
  Completes .keyCtxSave 0x68
    (fun r s => slotNamed r s ∧ s.keys.life ≠ 0 ∧ bitOf r.w3 0 = true ∧ (r.owner = false ∨ s.keys.life ≠ 2))
    (fun _ s => (s, refuse stRefused 0x04)) ∧
  (∀ (k : Nat) (s : State) (q : SaveReq), k < 2097152 → (slotAt k s).save = some q → opsOn k s = 0 → (slotAt k s).state ≠ 3 →
    saveRefusal k q (setSlot k { slotAt k s with save := none } s) = none →
    exec (.contextSnapshot k) s = .next (complete q.ticket (okWith 0) (writeSnapshot k q (setSlot k { slotAt k s with save := none } s)))) ∧
  (∀ (k : Nat) (q : SaveReq) (s : State), q.clear = false →
    (writeSnapshot k q s).keys.ctxNext = s.keys.ctxNext + 1 ∧ (writeSnapshot k q s).keys.ctxNext ≤ (writeSnapshot k q s).keys.ctxReserved ∧
    (writeSnapshot k q s).keys.slots = s.keys.slots ∧ (writeSnapshot k q s).dram = s.dram) ∧
  (∀ k : Nat, Completes .keyCtxRestore 0x69
    (fun r s => reservedZero ([(95, 0)], [(0, 0), (13, 8)], []) r = true ∧ bitOf r.w2 0 = true ∧ r.owner = true ∧ s.keys.life = 2 ∧
      fine 4 r s ∧ freeSlot r s = some k)
    (fun r s =>
      let n := (leAt ((bytes r s).take 32) 8 4 - 272) / 32
      (restoreInto k (fld r.w2 13 8) (slice (bytes r s) 32 (224 + 32 * n)) n s, okWith (handleFor .slot k s)))) ∧
  (∀ (k : Nat) (body : List Byte), Completes .keyCtxRestore 0x69
    (fun r s => reservedZero ([(95, 0)], [(0, 0), (13, 8)], []) r = true ∧ bitOf r.w2 0 = false ∧ (s.keys.life = 1 ∨ s.keys.life = 2) ∧
      fine 3 r s ∧ (kekOf (byteAt (bytes r s) 4) (byteAt (bytes r s) 5) s).valid = true ∧ opened r s = some body ∧ freeSlot r s = some k)
    (fun r s => (restoreInto k (fld r.w2 13 8) body ((leAt ((bytes r s).take 32) 8 4 - 272) / 32) s, okWith (handleFor .slot k s)))) ∧
  Completes .keyCtxRestore 0x69
    (fun r s => bitOf r.w2 0 = false ∧ (s.keys.life = 1 ∨ s.keys.life = 2) ∧ fine 3 r s ∧
      (kekOf (byteAt (bytes r s) 4) (byteAt (bytes r s) 5) s).valid = true ∧ opened r s = none)
    (fun r s => ((unwrapFail r ((bytes r s).take 32) s).1, refuse stNotStarted 0x02)) ∧
  (∀ (k f n : Nat) (body : List Byte) (s : State), (slotAt k (restoreInto k f body n s)).state = 2 ∧
    (slotAt k (restoreInto k f body n s)).owner = f ∧ (slotAt k (restoreInto k f body n s)).profile = byteAt body 0 ∧
    (slotAt k (restoreInto k f body n s)).recs.length = n ∧
    (∀ x ∈ (slotAt k (restoreInto k f body n s)).recs, x.held = true → x.deadline = nowNs s + s.body.quarantineMs * 1000000) ∧
    (identOf .slot k (restoreInto k f body n s)).used = true ∧ (∀ j, j ≠ k → slotAt j (restoreInto k f body n s) = slotAt j s) ∧
    (restoreInto k f body n s).hq = s.hq ∧ (restoreInto k f body n s).hostMem = s.hostMem) ∧
  ∀ (k : Nat) (s : State), k < 2097152 → exec (.restoredRecordDrop k) s = .next (setSlot k { slotAt k s with
    recs := (slotAt k s).recs.filter (fun r => !(r.held && decide (r.deadline ≤ nowNs s))) } s)

/-- A free frame pool is set or grown at once; a decode context is created on the least loaded tile, reset, read and
released. VID_POOL_SET asked for its figures completes with them. On an empty pool without contexts, or to grow a pool
of the same geometry, it allocates every new buffer at once when the regions that they need are free (which regions is
the model's choice, log entry 145). VID_DEC_CREATE that passes the checks of R182 puts the lowest free context into
use on the chosen tile and counts as a reader of the source. For a context that the requester may name: VID_DEC_RESET
clears the reference marks of its own buffers and of no other, waits for a keyframe and asks for one; VID_DEC_READ
writes its counters; VID_DEC_RELEASE discards the waiting units, and ends the context at once unless a picture is in
progress. Reserved bits are 0. That traffic between the source's Wing and the context's also makes the create DEGRADED
is DEDUCED (log entry 143); the MiB still free for pools are the model's reading (log entry 28). (R31, R182, R186,
R203, R204, R205) -/
def Obligations.VideoPoolsAndDecodeContexts : Prop :=
  let poolOf := fun (r : Req) => poolKey (fld r.w1 1 0) (fld r.w1 13 8)
  let asked := fun (r : Req) =>
    ({ want := fld r.w1 29 16, bufW := fld r.w1 38 32 * 64, bufH := fld r.w1 46 40 * 64, deep := bitOf r.w1 48 } : Pool)
  let grown := fun (r : Req) (s : State) =>
    (poolAt (poolOf r) s).held ++ newIndexes (poolAt (poolOf r) s).held ((asked r).want - (poolAt (poolOf r) s).held.length)
  let lay : Layout := ([(1, 0), (13, 8), (29, 16), (38, 32), (46, 40), (48, 48), (63, 63)], [], [])
  Completes .vidPoolSet 0x70
    (fun r _ => reservedZero lay r = true ∧ (r.owner = true ∨ fld r.w1 13 8 = r.fn) ∧ bitOf r.w1 63 = true)
    (fun r s => (s, okVia (poolOf r / 64) (poolDetail (poolOf r) s) s)) ∧
  CompletesSo .vidPoolSet 0x70
    (fun r s => reservedZero lay r = true ∧ (r.owner = true ∨ fld r.w1 13 8 = r.fn) ∧ bitOf r.w1 63 = false ∧ 1 ≤ fld r.w1 29 16 ∧
      1 ≤ fld r.w1 38 32 ∧ fld r.w1 38 32 ≤ 64 ∧ 1 ≤ fld r.w1 46 40 ∧ fld r.w1 46 40 ≤ 36 ∧
      (poolAt (poolOf r) s).was = [] ∧
      (((poolAt (poolOf r) s).held = [] ∧ (poolAt (poolOf r) s).regions = [] ∧ poolInUse (poolOf r) s = false) ∨
        ((poolAt (poolOf r) s).bufW = (asked r).bufW ∧ (poolAt (poolOf r) s).bufH = (asked r).bufH ∧
          (poolAt (poolOf r) s).deep = (asked r).deep ∧ (poolAt (poolOf r) s).held.length ≤ (asked r).want)) ∧
      regionsFor { asked r with held := grown r s } ≤ (poolAt (poolOf r) s).regions.length + (freeRegions (poolOf r / 64) s).length)
    (fun r s t rep => rep = okVia (poolOf r / 64) (poolDetail (poolOf r) t) t ∧
      poolAt (poolOf r) t = { asked r with held := grown r s, regions := (poolAt (poolOf r) t).regions } ∧
      (poolAt (poolOf r) t).regions.length = regionsFor { asked r with held := grown r s } ∧
      (∀ k, k ≠ poolOf r → poolAt k t = poolAt k s) ∧ t.video.bufs = s.video.bufs ∧ t.video.decs = s.video.decs ∧
      t.video.encs = s.video.encs ∧ t.hq = s.hq ∧ t.dram = s.dram ∧ t.hostMem = s.hostMem) ∧
  CompletesSo .vidDecCreate 0x71
    (fun r s =>
      let v := decAsked r
      let i := handleIdx v.source
      reservedZero ([(69, 0), (75, 72)], [(49, 48), (46, 0)], [(63, 0)]) r = true ∧ decFine v.codec v = true ∧
      resolve .source v.source s = .ok i ∧ (r.owner = true ∨ (sourceAt i s).fn = r.fn) ∧ accHas tgPartition v.part r.master bitControl s = true ∧
      recordQueueRefusal r v.mode v.recQueue s = none ∧ formatOf v.codec (sourceAt i s).format = true ∧ (sourceAt i s).forwardOnly = false ∧
      (sourceAt i s).jit.isSome = true ∧ poolHolds (poolAt (poolKey v.wing v.fn) s) v.maxW v.maxH v.deep = true ∧ fits v.part 0 v.load s = true ∧
      ((decList s).filter (fun c => c.2.part == v.part)).length < ((partOf? v.part s).map (·.decCtx)).getD 0 ∧
      (lowestFree .decCtx 0 (declaredDec s) s).isSome = true ∧ (decTile v.part v.wing v.load s).isSome = true)
    (fun r s t rep =>
      let v := decAsked r
      let i := handleIdx v.source
      ∃ c tile, lowestFree .decCtx 0 (declaredDec s) s = some c ∧ decTile v.part v.wing v.load s = some tile ∧
        (let det := packNat [(8, 32, liveOf v.part 0 s), (40, 15, c), (55, 9, tile)]
         rep = if pairRerouted (sourceAt i s).wing v.wing t = true then ⟨stDegraded, 1, det⟩ else okVia v.wing det t) ∧
        (identOf .decCtx c t).used = true ∧
        decAt c t = { v with tile := tile, format := (sourceAt i s).format, born := s.video.nextBorn,
                             bucket := 2 * v.maxW * v.maxH * 1000000000, bucketAt := nowNs s } ∧
        (sourceAt i t).readers = (sourceAt i s).readers + 1 ∧ committedOf v.part 0 t = committedOf v.part 0 s + v.load ∧
        (∀ d, d ≠ c → decAt d t = decAt d s) ∧ t.hq = s.hq ∧ t.dram = s.dram ∧ t.hostMem = s.hostMem) ∧
  CompletesSo .vidDecReset 0x72
    (fun r s => decNamed r s ∧ reservedZero ([(14, 0)], [], []) r = true)
    (fun r s t rep =>
      let c := fld r.w1 14 0
      rep = okVia (decAt c s).wing 0 t ∧ (decAt c t).waitKey = true ∧ (decAt c t).current = none ∧ (decAt c t).repair = none ∧
      (decAt c t).asked = true ∧ (decAt c t).work = (decAt c s).work ∧ (decAt c t).waiting = (decAt c s).waiting ∧
      (∀ d, d ≠ c → decAt d t = decAt d s) ∧
      (decAt c t).slots = List.replicate 8 none ∧
      (∀ b ∈ keptOf c s, (bufAt b t).shortRef = false ∧ (bufAt b t).longRef = false ∧ (bufAt b t).outputPending = false) ∧
      (∀ b, b ∉ keptOf c s → (bufAt b t).shortRef = (bufAt b s).shortRef ∧ (bufAt b t).longRef = (bufAt b s).longRef ∧
        (bufAt b t).outputPending = (bufAt b s).outputPending)) ∧
  Completes .vidDecRead 0x73
    (fun r s => decNamed r s ∧ reservedZero ([(14, 0)], [(63, 0)], [(0, 0)]) r = true)
    (fun r s =>
      let c := fld r.w1 14 0
      let t := hostPut (fld r.w2 63 0) ((decAt c s).ctrs.flatMap (leBytes 8)) s
      doneVia (decAt c s).wing (if bitOf r.w3 0 = true then setDec c { decAt c t with ctrs := List.replicate 8 0 } t else t)) ∧
  Begins .vidDecRelease 0x74
    (fun r s => decNamed r s ∧ reservedZero ([(14, 0)], [], []) r = true ∧ (decAt (fld r.w1 14 0) s).releasing = none ∧
      (decAt (fld r.w1 14 0) s).work.isSome = true)
    (fun r s =>
      let c := fld r.w1 14 0
      setDec c { decAt c s with waiting := [], discarded := (decAt c s).waiting.length, releasing := some r.tk } s) ∧
  Begins .vidDecRelease 0x74
    (fun r s => decNamed r s ∧ reservedZero ([(14, 0)], [], []) r = true ∧ (decAt (fld r.w1 14 0) s).releasing = none ∧
      (decAt (fld r.w1 14 0) s).work = none)
    (fun r s =>
      let c := fld r.w1 14 0
      finishDecRelease c (setDec c { decAt c s with waiting := [], discarded := (decAt c s).waiting.length, releasing := some r.tk } s)) ∧
  ∀ (c : Nat) (s : State), (identOf .decCtx c (finishDecRelease c s)).used = false ∧ decAt c (finishDecRelease c s) = {} ∧
    (∀ d, d ≠ c → decAt d (finishDecRelease c s) = decAt d s)

/-- A unit starts into a free buffer, its bands are published in order, its end sets its marks, and a late repair replaces
a reference. DECODE_PICTURE_START of a context whose tile is idle and that has no repair to make takes the unit that
waits first. One that waits for a key frame, or does not fit, is not decoded and taints the context; an AV1 unit that
shows a frame in a slot outputs it; any other starts into the lowest free buffer, or, with none free, is not decoded.
BAND_PUBLISH in band mode writes and publishes the next band, and the first makes the picture current.
DECODE_PICTURE_END of a context not being released clears DECODING, sets SHORT_REF and LONG_REF from what the picture
is, and marks a buffer that stays in use concealed exactly when the picture did not end OK. LATE_REPAIR of a unit that
late packets complete gives a fresh buffer the marks of the damaged one, which loses them. What a unit's elements
decode to is free (log entry 80); the size of a picture without headers is the model's (log entry 146). (R184, R188,
R189, R191, R192, R196, R197, R199, R204) -/
def Obligations.PicturesDecode : Prop :=
  (∀ (c : Nat) (u : DecUnit) (rest : List DecUnit) (s : State), c < 65536 → (identOf .decCtx c s).used = true → s.body.hold = false →
    tileBusy (decAt c s).tile s = false → (decAt c s).repair = none → (decAt c s).waiting = u :: rest →
    let v := decAt c s
    let k := poolKey v.wing v.fn
    let info := picInfo v v.memory u.unit
    let size := pictureSize c info s
    ∃ t : State, exec (.decodePictureStart c) s = .next t ∧ (decAt c t).waiting = rest ∧ (decAt c t).repair = none ∧
      (∀ d, d ≠ c → decAt d t = decAt d s) ∧
      (if (v.waitKey = true ∧ info.key = false) ∨ (info.headers = true ∧ info.existing = false ∧ (sizeFault v info).isSome = true) then
        (decAt c t).work = v.work ∧ (decAt c t).tainted = true ∧ t.video.bufs = s.video.bufs
      else match (if info.headers && info.existing then namedRefs c { info with refs := info.outputs.take 1 } s else []) with
        | [some b] => (decAt c t).work = v.work ∧ (decAt c t).current = some b ∧ (bufAt b t).outputPending = true ∧ (decAt c t).memory = info.memory
        | _ => match (freeBufs k s).head? with
          | none => (decAt c t).work = v.work ∧ (decAt c t).tainted = true ∧ t.video.bufs = s.video.bufs
          | some i => (∃ w, (decAt c t).work = some w ∧ w.unit = u ∧ w.buf = bufKey k i ∧ w.content = s.video.nextContent ∧ w.memory = v.memory ∧
                w.fill = nearestRef (keptOf c s) size.1 size.2 info.order s) ∧
              (decAt c t).memory = info.memory ∧ (decAt c t).waitKey = false ∧
              (decAt c t).kept = bufKey k i :: (keptOf c s).filter (· != bufKey k i) ∧
              (bufAt (bufKey k i) t).decoding = true ∧ (bufAt (bufKey k i) t).published = [] ∧ (bufAt (bufKey k i) t).ctx = some c ∧
              (bufAt (bufKey k i) t).width = size.1 ∧ (bufAt (bufKey k i) t).height = size.2 ∧
              (∀ b, b ≠ bufKey k i → bufAt b t = bufAt b s))) ∧
  (∀ (c : Nat) (w : DecWork) (s : State), c < 65536 → (identOf .decCtx c s).used = true → s.body.hold = false → (decAt c s).work = some w →
    bandMode (decAt c s).codec w.info = true → (bufAt w.buf s).published.length < bandsOf (bufAt w.buf s).height →
    ∃ t : State, exec (.bandPublish c) s = .next t ∧ (bufAt w.buf t).published = (bufAt w.buf s).published ++ [nowNs s] ∧
      t.dram = (writeBand w.buf (bufAt w.buf s).published.length (pictureSample w (cutOf (decAt c s) w) s) s).dram ∧
      (∀ b, b ≠ w.buf → (bufAt b t).published = (bufAt b s).published) ∧
      (decAt c t).current = (if w.output then (decAt c s).current else some w.buf) ∧
      (decAt c t).work = some { w with output := true } ∧ (∀ d, d ≠ c → decAt d t = decAt d s) ∧ t.hq = s.hq) ∧
  (∀ (c : Nat) (w : DecWork) (s : State), c < 65536 → (identOf .decCtx c s).used = true → s.body.hold = false → (decAt c s).work = some w →
    (decAt c s).releasing = none →
    ∃ t : State, exec (.decodePictureEnd c) s = .next t ∧ (decAt c t).work = none ∧ (bufAt w.buf t).decoding = false ∧
      (bufAt w.buf t).shortRef = (isRef (decAt c s).codec w.info && !isLong (decAt c s).codec w.info) ∧
      (bufAt w.buf t).longRef = isLong (decAt c s).codec w.info ∧
      ((bufAt w.buf t).isFree = false → ((bufAt w.buf t).concealed = true ↔ (pictureEnd (decAt c s) w s).1 ≠ stOk)) ∧
      (∀ d, d ≠ c → decAt d t = decAt d s)) ∧
  ∀ (c i : Nat) (w : DecWork) (s : State), c < 65536 → (identOf .decCtx c s).used = true → s.body.hold = false →
    (decAt c s).repair = some w → unitComplete (withLates w.unit.unit (decAt c s).lates) = true → tileBusy (decAt c s).tile s = false →
    w.buf ∈ keptOf c s → (freeBufs (poolKey (decAt c s).wing (decAt c s).fn) s).head? = some i →
    let b := bufKey (poolKey (decAt c s).wing (decAt c s).fn) i
    ∃ t : State, exec (.lateRepair c) s = .next t ∧ (decAt c t).repair = none ∧ (bufAt b t).shortRef = (bufAt w.buf s).shortRef ∧
      (bufAt b t).longRef = (bufAt w.buf s).longRef ∧ (bufAt b t).awaits = (bufAt w.buf s).awaits ∧ (bufAt b t).concealed = false ∧
      (bufAt b t).outputPending = false ∧ (bufAt w.buf t).shortRef = false ∧ (bufAt w.buf t).longRef = false ∧ (bufAt w.buf t).awaits = false ∧
      ((bufAt b t).isFree = false → (bufAt b t).published = List.replicate (bandsOf (bufAt w.buf s).height) (nowNs s)) ∧
      (∀ x, x ≠ b → x ≠ w.buf → (bufAt x t).shortRef = (bufAt x s).shortRef ∧ (bufAt x t).longRef = (bufAt x s).longRef ∧
        (bufAt x t).outputPending = (bufAt x s).outputPending) ∧ (∀ d, d ≠ c → decAt d t = decAt d s)

/-- Outputs: creation, shadow writes, commits that take effect at a boundary, bands handed on, and composite frames
emitted. VID_OUT_CREATE that passes its checks puts the lowest free output on the chosen tile. For an output that the
requester may name, VID_OUT_LAYER and VID_OUT_MATRIX write only the shadow, and a request of a tenant that touches
Cocoon is refused with COCOON and recorded. VID_OUT_COMMIT makes the shadow, or with bit 16 its Cocoon layer alone,
pending and completes later; a composed one deeper than MAX_DEPTH is refused, and a stitched one whose ALT_SOURCE is
not ready (the reason BAD_PARAM is the model's, log entry 149). VID_OUT_READ writes the image. VID_OUT_RELEASE ends an
idle output at once. FRAME_BOUNDARY of an output whose boundary has come makes pending active, advances the frame
number and starts, stages or fills its frame. PX_BAND_HANDOFF of a frame with inputs ready moves to the next band.
INPUT_WAIT_EXPIRE leaves the layer out of the bands that lack it. ST_FRAME_EMIT, STITCH_KF_WINDOW_END and CELL_GREY
run as R230 and R231 say. That the frame of a window's end is the output's next is the model's (log entry 31). (R208,
R209, R210, R211, R213, R219, R220, R225, R230, R231, R232, R234) -/
def Obligations.OutputsComposeAndStitch : Prop :=
  let ix := fun (r : Req) => fld r.w1 12 0
  let ly := fun (r : Req) => fld r.w1 22 16
  let cfg := fun (r : Req) (s : State) => { (outputAt (fld r.w1 12 0) s).shadow.get (fld r.w1 22 16) {} with
    typ := fld r.w1 25 24, w2 := r.w2, w3 := r.w3,
    born := if (outputAt (fld r.w1 12 0) s).stitched = false ∧ fld r.w1 25 24 = 1 then (decAt (fld r.w2 14 0) s).born else 0 }
  CompletesSo .vidOutCreate 0x75
    (fun r s =>
      let v := outAsked r
      reservedZero ([(5, 0), (55, 8), (127, 64)], [(49, 0)], [(65, 0)]) r = true ∧ outFine v = true ∧
      (v.stitched = true → holdsRoom (reqFn r) v.room s = true ∧ (lowestFree .source 0 131072 s).isSome = true) ∧
      accHas tgPartition v.part r.master bitControl s = true ∧ recordQueueRefusal r v.mode v.recQueue s = none ∧
      fits v.part v.role v.load s = true ∧ (lowestFree .output 0 8192 s).isSome = true ∧ (outTile v s).isSome = true)
    (fun r s t rep =>
      let v := outAsked r
      ∃ o tile, lowestFree .output 0 8192 s = some o ∧ outTile v s = some tile ∧
        rep = okVia v.wing (packNat [(8, 32, liveOf v.part v.role s), (40, 13, o), (53, 9, tile)]) t ∧ (identOf .output o t).used = true ∧
        (outputAt o t).fn = v.fn ∧ (outputAt o t).w1 = r.w1 ∧ (outputAt o t).w2 = r.w2 ∧ (outputAt o t).w3 = r.w3 ∧
        (outputAt o t).tile = tile ∧ (outputAt o t).active.cells = [] ∧ (outputAt o t).shadow.cells = [] ∧ (outputAt o t).pending = none ∧
        (outputAt o t).next = firstFrame v (cmpNow s) ∧
        (v.stitched = true → ∃ i, lowestFree .source 0 131072 s = some i ∧ (outputAt o t).source = handleFor .source i t ∧
          (identOf .source i t).used = true ∧ (sourceAt i t).isLocal = true) ∧
        (∀ d, d ≠ o → outputAt d t = outputAt d s)) ∧
  Completes .vidOutLayer 0x76
    (fun r s => outNamed r s ∧ reservedZero (layerLayout r s) r = true ∧ (r.owner = true ∨ (ly r ≠ 64 ∧ isCocoonCell (outputAt (ix r) s) (ly r) = false)) ∧
      layerRefusal (outputAt (ix r) s) (ly r) (cfg r s) s = none)
    (fun r s => doneVia (outputAt (ix r) s).wing
      (setOutput (ix r) { outputAt (ix r) s with shadow := (outputAt (ix r) s).shadow.set (ly r) (cfg r s) } s)) ∧
  Completes .vidOutLayer 0x76
    (fun r s => r.owner = false ∧ (ly r = 64 ∨ ((identOf .output (ix r) s).used = true ∧ isCocoonCell (outputAt (ix r) s) (ly r) = true)))
    (fun r s => (recordBy r.master 0x0701 [(2, ix r), (1, r.fn), (1, fld r.w0 7 0)] s, refuse stCocoon 0x0F)) ∧
  Completes .vidOutMatrix 0x77
    (fun r s => outNamed r s ∧ reservedZero ([(12, 0), (22, 16)], [(127, 0)], [(75, 0)]) r = true ∧ (outputAt (ix r) s).stitched = false ∧ ly r ≤ 63)
    (fun r s => doneVia (outputAt (ix r) s).wing (setOutput (ix r) { outputAt (ix r) s with
      shadow := (outputAt (ix r) s).shadow.set (ly r) { (outputAt (ix r) s).shadow.get (ly r) {} with m2 := r.w2, m3 := r.w3 } } s)) ∧
  Completes .vidOutMatrix 0x77 (fun r _ => r.owner = false ∧ ly r = 64)
    (fun r s => (recordBy r.master 0x0701 [(2, ix r), (1, r.fn), (1, fld r.w0 7 0)] s, refuse stCocoon 0x0F)) ∧
  Begins .vidOutCommit 0x78
    (fun r s =>
      let next := if bitOf r.w1 16 = true then ((outputAt (ix r) s).pending.getD (outputAt (ix r) s).active).set 64 ((outputAt (ix r) s).shadow.get 64 {})
        else (outputAt (ix r) s).shadow
      outNamed r s ∧ reservedZero ([(12, 0), (16, 16)], [], []) r = true ∧ (bitOf r.w1 16 = true → r.owner = true) ∧
      (if (outputAt (ix r) s).stitched = true then altsReady (outputAt (ix r) s) next s = true
       else depthOf (outputAt (ix r) s) next ≤ (outputAt (ix r) s).maxDepth))
    (fun r s =>
      let next := if bitOf r.w1 16 = true then ((outputAt (ix r) s).pending.getD (outputAt (ix r) s).active).set 64 ((outputAt (ix r) s).shadow.get 64 {})
        else (outputAt (ix r) s).shadow
      setOutput (ix r) { outputAt (ix r) s with
        pending := some next, whole := (outputAt (ix r) s).whole || !bitOf r.w1 16, commits := (outputAt (ix r) s).commits ++ [r.tk] } s) ∧
  Completes .vidOutCommit 0x78 (fun r _ => r.owner = false ∧ bitOf r.w1 16 = true)
    (fun r s => (recordBy r.master 0x0701 [(2, ix r), (1, r.fn), (1, fld r.w0 7 0)] s, refuse stCocoon 0x0F)) ∧
  Completes .vidOutCommit 0x78
    (fun r s => outNamed r s ∧ bitOf r.w1 16 = false ∧ (outputAt (ix r) s).stitched = false ∧
      (outputAt (ix r) s).maxDepth < depthOf (outputAt (ix r) s) (outputAt (ix r) s).shadow)
    (fun _ s => (s, refuse stNotStarted 0x0D)) ∧
  Completes .vidOutCommit 0x78
    (fun r s => outNamed r s ∧ bitOf r.w1 16 = false ∧ (outputAt (ix r) s).stitched = true ∧
      altsReady (outputAt (ix r) s) (outputAt (ix r) s).shadow s = false)
    (fun _ s => (s, refuse stNotStarted 0x01)) ∧
  Completes .vidOutRead 0x79
    (fun r s => outNamed r s ∧ reservedZero ([(12, 0)], [(63, 0)], [(0, 0)]) r = true)
    (fun r s =>
      let t := hostPut (fld r.w2 63 0) (outImage (outputAt (ix r) s) r.owner) s
      doneVia (outputAt (ix r) s).wing (if bitOf r.w3 0 = true then setOutput (ix r) { outputAt (ix r) t with ctrs := List.replicate 7 0 } t else t)) ∧
  Begins .vidOutRelease 0x7A
    (fun r s => outNamed r s ∧ reservedZero ([(12, 0)], [], []) r = true ∧ (outputAt (ix r) s).releasing = none ∧
      ((outputAt (ix r) s).stitched = false ∨ (sourceAt (handleIdx (outputAt (ix r) s).source) s).readers = 0))
    (fun r s =>
      let t := setOutput (ix r) { outputAt (ix r) s with releasing := some r.tk, staged := none } s
      if (outputAt (ix r) s).work.isSome || (outputAt (ix r) s).emit.isSome then t else finishOutRelease (ix r) t) ∧
  (∀ (o : Nat) (s : State), (identOf .output o (finishOutRelease o s)).used = false ∧ outputAt o (finishOutRelease o s) = {}) ∧
  (∀ (o : Nat) (s : State), o < 8192 → (identOf .output o s).used = true → s.body.hold = false → (outputAt o s).releasing = none →
    (outputAt o s).staged = none → (outputAt o s).emit = none →
    let v := outputAt o (settleNext o s)
    cmpReached (cmpNow s) (boundaryOf v v.next) = true →
    ∃ t : State, exec (.frameBoundary o) s = .next t ∧ (outputAt o t).next = v.next + 1 ∧ (outputAt o t).pending = none ∧
      (outputAt o t).active = v.pending.getD v.active ∧ (outputAt o t).commits = (if v.pending.isSome = true then [] else v.commits) ∧
      (v.stitched = true → ((outputAt o t).emit.map (·.1)) = some v.next ∧ (outputAt o t).owedCommits = []) ∧
      (v.stitched = false → v.work = none → (outputAt o t).work.map (·.n) = some v.next ∧ (outputAt o t).owedCommits = []) ∧
      (v.stitched = false → v.work.isSome = true → (outputAt o t).work = v.work ∧ (outputAt o t).staged.map (·.n) = some v.next) ∧
      (∀ d, d ≠ o → outputAt d t = outputAt d s)) ∧
  (∀ (o : Nat) (f : FrameWork) (s : State), o < 8192 → (identOf .output o s).used = true → s.body.hold = false → (outputAt o s).work = some f →
    unready (outputAt o s) f f.band s = [] → f.band + 1 < bandsOf (outputAt o s).height →
    ∃ t : State, exec (.pxBandHandoff o) s = .next t ∧ (outputAt o t).work.map (·.band) = some (f.band + 1) ∧
      (outputAt o t).work.map (·.handedNs) = some (nowNs s)) ∧
  (∀ (o l : Nat) (f : FrameWork) (s : State), o < 8192 → l < 65 → (identOf .output o s).used = true → (outputAt o s).work = some f →
    cmpReached (cmpNow s) (cmpAdd f.boundary (if (outputAt o s).wait = 0 then (outputAt o s).periodNs / 2 else (outputAt o s).wait * 1000)) = true →
    let bs := (List.range (bandsOf (outputAt o s).height)).filter (fun b => decide (f.band ≤ b) && (unready (outputAt o s) f b s).contains l)
    bs ≠ [] →
    exec (.inputWaitExpire o l) s = .next (count (tileCtr (outputAt o s).tile 2) bs.length (setOutput o { outputAt o s with
      work := some { f with left := f.left ++ bs.map (fun b => (l, b)), flags := f.flags ||| 1 } } s))) ∧
  (∀ (o : Nat) (s : State), o < 8192 → (identOf .output o s).used = true → s.body.hold = false → (outputAt o s).emit.isSome = true →
    (outputAt o s).releasing = none →
    ∃ t : State, exec (.stFrameEmit o) s = .next t ∧ (outputAt o t).emit = none ∧ (outputAt o t).refused = []) ∧
  (∀ (o at_ : Nat) (s : State), o < 8192 → (identOf .output o s).used = true → s.body.hold = false → (outputAt o s).releasing = none →
    (outputAt o s).window = some at_ → at_ ≤ nowNs s →
    let u := settleNext o (emitFrame o s)
    let r := fillCells o switchContent (List.range (outputAt o s).cellCount) u
    exec (.stitchKfWindowEnd o) s = .next (emitFrame o (setOutput o { outputAt o r.2 with
      next := (outputAt o u).next + 1, emit := some ((outputAt o u).next, r.1, true, false), window := none } r.2))) ∧
  (∀ (o c : Nat) (s : State), o < 8192 → c < 64 → (identOf .output o s).used = true → (outputAt o s).stitched = true →
    (cellAt o c s).broken = true → (cellAt o c s).greyDone = false →
    exec (.cellGrey o c) s = .next (if (cellAt o c s).brokenAt + 3 * (roomAt (outputAt o s).room s).kfHoldMs * 1000000 ≤ nowNs s then
      setCell o c { cellAt o c s with greyDue := true } s else s))

/-- An encode context takes its buffers, source and tile; its rate waits for a picture; it codes bands in order.
VID_ENC_CREATE that passes the checks of R238 puts the lowest free context on the chosen VE tile with a local source
and 3 buffers per layer marked for the encoder, a keyframe pending. For a context that the requester may name:
VID_ENC_RATE with fields in range sets them with a debt of 0, or keeps them for the end of the picture in work, to
complete with the next picture; VID_ENC_KEYFRAME makes a keyframe pending; VID_ENC_READ writes the image;
VID_ENC_RELEASE of an idle context that nothing reads ends it. KF_INTERVAL makes a keyframe pending once its time has
passed. VE_BAND_CODED, when every output band that feeds it has arrived, codes the next band, counts it, writes its
reconstruction and sends its packets; the last band ends the picture. The bits of a coded band are free values (log
entry 82). (R238, R239, R246, R252, R253, R256, R257, R258, R259) -/
def Obligations.VideoEncodes : Prop :=
  let ix := fun (r : Req) => fld r.w1 11 0
  CompletesSo .vidEncCreate 0x7B
    (fun r s =>
      let v := encAsked r
      let o := outputAt v.output s
      let k := poolKey o.wing v.fn
      reservedZero ([(12, 0), (21, 16), (57, 24)], [(127, 0)], [(116, 0)]) r = true ∧ encFine v = true ∧
      (identOf .output v.output s).used = true ∧ (r.owner = true ∨ o.fn = r.fn) ∧ holdsRoom (reqFn r) v.room s = true ∧
      accHas tgPartition v.part r.master bitControl s = true ∧ recordQueueRefusal r v.mode v.recQueue s = none ∧
      o.stitched = false ∧ (v.codec ≠ 0 ∨ v.deep = false) ∧ encRouted v.part o.tile s = true ∧ 3 * v.spatial ≤ (freeBufs k s).length ∧
      poolHolds (poolAt k s) (encW v o (v.spatial - 1)) (encH v o (v.spatial - 1)) v.deep = true ∧ fits v.part 1 (encLoad v o) s = true ∧
      ((encList s).filter (fun c => c.2.part == v.part)).length < ((partOf? v.part s).map (·.encCtx)).getD 0 ∧
      (lowestFree .encCtx 0 (declaredEnc s) s).isSome = true ∧ (lowestFree .source 0 131072 s).isSome = true ∧
      (encTile v.part o.tile (encLoad v o) s).isSome = true)
    (fun r s t rep =>
      let v := encAsked r
      let o := outputAt v.output s
      let k := poolKey o.wing v.fn
      ∃ c i tile, lowestFree .encCtx 0 (declaredEnc s) s = some c ∧ lowestFree .source 0 131072 s = some i ∧
        encTile v.part o.tile (encLoad v o) s = some tile ∧
        rep = okVia (tile / 128) (packNat [(8, 32, liveOf v.part 1 s), (40, 12, c), (52, 9, tile)]) t ∧ (identOf .encCtx c t).used = true ∧
        encAt c t = { v with tile := tile, load := encLoad v o, source := handleFor .source i s, pool := k,
                             bufs := (freeBufs k s).take (3 * v.spatial), lastKey := nowNs s } ∧
        (encAt c t).pending = true ∧ (identOf .source i t).used = true ∧ (sourceAt i t).isLocal = true ∧
        (sourceAt i t).format = encFormat v.codec ∧ (∀ b ∈ (freeBufs k s).take (3 * v.spatial), (bufAt (bufKey k b) t).encoder = true) ∧
        (∀ d, d ≠ c → encAt d t = encAt d s) ∧ t.hq = s.hq ∧ t.dram = s.dram ∧ t.hostMem = s.hostMem) ∧
  Begins .vidEncRate 0x7C
    (fun r s => encNamed r s ∧ reservedZero ([(11, 0)], [(127, 0)], []) r = true ∧
      rateFine (encAt (ix r) s).codec (encAt (ix r) s).spatial r.w2 = true)
    (fun r s => setEnc (ix r) (if (encAt (ix r) s).work.isSome = true
      then { encAt (ix r) s with nextRate := some r.w2, rateWait := (encAt (ix r) s).rateWait ++ [r.tk] }
      else { encAt (ix r) s with rate := r.w2, debts := [0, 0, 0], rateWait := (encAt (ix r) s).rateWait ++ [r.tk] }) s) ∧
  Completes .vidEncRate 0x7C
    (fun r s => encNamed r s ∧ rateFine (encAt (ix r) s).codec (encAt (ix r) s).spatial r.w2 = false)
    (fun _ s => (s, refuse stNotStarted 0x01)) ∧
  Completes .vidEncKeyframe 0x7D
    (fun r s => encNamed r s ∧ reservedZero ([(11, 0)], [], []) r = true)
    (fun r s => doneVia ((encAt (ix r) s).tile / 128) (setEnc (ix r) { encAt (ix r) s with pending := true } s)) ∧
  Completes .vidEncRead 0x7E
    (fun r s => encNamed r s ∧ reservedZero ([(11, 0)], [(63, 0)], [(0, 0)]) r = true)
    (fun r s =>
      let v := encAt (ix r) s
      let w := pack128 [(64, 64, v.source), (32, 32, toTwos 32 (v.debts.getD 0 0)), (20, 12, ix r), (11, 9, v.tile)]
      let t := hostPut (fld r.w2 63 0) (bytesOf128 w ++ v.ctrs.flatMap (leBytes 8)) s
      doneVia (v.tile / 128) (if bitOf r.w3 0 = true then setEnc (ix r) { encAt (ix r) t with ctrs := List.replicate 6 0 } t else t)) ∧
  Begins .vidEncRelease 0x7F
    (fun r s => encNamed r s ∧ reservedZero ([(11, 0)], [], []) r = true ∧ (encAt (ix r) s).releasing = none ∧ (encAt (ix r) s).queue = [] ∧
      (sourceAt (handleIdx (encAt (ix r) s).source) s).readers = 0 ∧ stitchReads (encAt (ix r) s).source s = false)
    (fun r s =>
      let t := setEnc (ix r) { encAt (ix r) s with queue := [], releasing := some r.tk } s
      if (encAt (ix r) s).work.isSome then t else finishEncRelease (ix r) t) ∧
  (∀ (c : Nat) (s : State), (identOf .encCtx c (finishEncRelease c s)).used = false ∧ encAt c (finishEncRelease c s) = {} ∧
    (∀ d, d ≠ c → encAt d (finishEncRelease c s) = encAt d s)) ∧
  (∀ (c : Nat) (s : State), c < 65536 → (identOf .encCtx c s).used = true → (encAt c s).kfInterval ≠ 0 →
    exec (.kfInterval c) s = .next (if (encAt c s).lastKey + (encAt c s).kfInterval * 100000000 ≤ nowNs s then
      setEnc c { encAt c s with pending := true } s else s)) ∧
  ∀ (c : Nat) (w : EncWork) (fed : PxBand) (x : EncLayer) (s : State), c < 65536 → (identOf .encCtx c s).used = true → s.body.hold = false →
    (encAt c s).work = some w →
    let v := encAt c s
    let o := outputAt v.output s
    let p := placeIn (layerBands v o) 0 w.coded
    w.inputs.find? (fun b => b.band == lastFeed v o p.1 p.2) = some fed → w.layers[p.1]? = some x →
    lastFeed v o p.1 p.2 < w.inputs.length →
    let r := codeBand v o w p.1 p.2 s.free x s
    let bound := bandBound v o p.1 p.2 w.boundNs fed.at_ s
    let w' := { w with
      coded := w.coded + 1, layers := w.layers.set p.1 r.2, boundNs := bound,
      capBand := if w.capBand = 63 ∧ r.2.capped ∧ !x.capped then p.2 else w.capBand }
    let s1 := setEnc c { v with work := some w' } { s with free := s.free + 1 }
    let s2 := if bound < nowNs s then count (tileCtr v.tile 2) 1 s1 else s1
    let s3 := bandPackets c w' p.1 p.2 (encBands v o p.1) r.1 s.free (writeRecon v p.1 w.cur p.2 s.free s2)
    exec (.veBandCoded c) s = .next (if (layerBands v o).sum ≤ w'.coded then endEncPicture c w' s3 else s3)

/-- Mixers, inputs, groups and buses are set up, set through the shadow, read and released by the holder of the room. For
a room that the requester holds, fields in range and reserved bits 0. AUD_ROOM_SETUP puts a mixer on the tile with the
fewest rooms. AUD_ROOM_SET and AUD_IN_SET write only the shadow; AUD_SAFELOAD moves it to the set that the next block
start loads, and completes then. AUD_IN_ATTACH puts the lowest free input into use, for a source or an AES3 subframe.
AUD_GROUP_CREATE makes a mix group with its local source. AUD_LISTEN binds a subscription of a group to an input, or
unbinds it. The read commands write their images and clear counters if asked; the release commands end what nothing
uses; AUD_ROOM_NOTIFY sets the flag. AUD_BUS_SET by PF0 holds a bus's setting for the next block start. Work over a
rerouted link completes DEGRADED (log entry 143). (R265, R271, R273, R275, R276, R280, R281, R284) -/
def Obligations.AudioCommands : Prop :=
  let ro := fun (r : Req) => fld r.w1 12 0
  let ii := fun (r : Req) => fld r.w1 15 0
  let wingOf := fun (r : Req) (s : State) => (audRoom (fld r.w1 12 0) s).tile / 128
  let inWing := fun (r : Req) (s : State) => (audIn (fld r.w1 15 0) s).tile / 128
  CompletesSo .audRoomSetup 0x80
    (fun r s => reservedZero ([(12, 0), (21, 16), (25, 24), (45, 40)], [(20, 0), (52, 32), (84, 64), (116, 96)], [(39, 0)]) r = true ∧
      1 ≤ fld r.w1 45 40 ∧ fld r.w1 45 40 ≤ 32 ∧ (∀ p, p < 4 → profFine r.w2 p = true) ∧ roomCfgFine r.w3 = true ∧ mixes (ro r) s = false ∧
      mayRoom r (ro r) s = true ∧ (leastLoaded (fun t => roomsOn t s)
        ((roleTiles (fld r.w1 21 16) 3 (wingTiles (fld r.w1 25 24)) s).filter (fun t => decide (roomsOn t s < 64)))).isSome = true)
    (fun r s t rep => ∃ tile, leastLoaded (fun t => roomsOn t s)
        ((roleTiles (fld r.w1 21 16) 3 (wingTiles (fld r.w1 25 24)) s).filter (fun t => decide (roomsOn t s < 64))) = some tile ∧
      rep = okVia (tile / 128) (tile * 256) t ∧ mixes (ro r) t = true ∧
      audRoom (ro r) t = { part := fld r.w1 21 16, tile := tile, channels := fld r.w1 45 40, profiles := r.w2, cfg := r.w3.toNat,
                           gains := 4096 :: List.replicate 31 410, gainsWas := 4096 :: List.replicate 31 410 } ∧
      (∀ k, k ≠ ro r → audRoom k t = audRoom k s) ∧ t.audio.ins = s.audio.ins ∧ t.hq = s.hq ∧ t.dram = s.dram) ∧
  Completes .audRoomSet 0x81
    (fun r s =>
      let v := audRoom (ro r) s
      let es := (if bitOf r.w1 22 = true then [(0, r.w3.toNat)] else []) ++ (if bitOf r.w1 21 = true then [(fld r.w1 20 16, fld r.w2 15 0)] else [])
      mixerNamed (ro r) r s ∧ reservedZero ([(12, 0), (22, 16)], [(15, 0)], [(39, 0)]) r = true ∧
      (bitOf r.w1 21 = true → 1 ≤ fld r.w1 20 16 ∧ fld r.w1 20 16 < v.channels) ∧
      (bitOf r.w1 22 = true → roomCfgFine r.w3 = true ∧ (cfgK (shadowRoom v) ≤ cfgK r.w3.toNat ∨ pinsShadow (ro r) s ≤ cfgK r.w3.toNat)) ∧
      (es.foldl (fun (t : Tab Nat) e => t.set e.1 e.2) v.shadow).size ≤ 4096)
    (fun r s =>
      let es := (if bitOf r.w1 22 = true then [(0, r.w3.toNat)] else []) ++ (if bitOf r.w1 21 = true then [(fld r.w1 20 16, fld r.w2 15 0)] else [])
      doneVia (wingOf r s) (setAudRoom (ro r) { audRoom (ro r) s with
        shadow := es.foldl (fun (t : Tab Nat) e => t.set e.1 e.2) (audRoom (ro r) s).shadow } s)) ∧
  Completes .audInSet 0x84
    (fun r s =>
      let x := audIn (ii r) s
      let v := audRoom x.room s
      let cfg := r.w2.toNat
      inputNamed r s ∧ reservedZero ([(15, 0)], [(25, 0)], []) r = true ∧ inChannel cfg < v.channels ∧
      (inFeed cfg = true → feedsShadow x.room (inChannel cfg) (ii r) s < 4) ∧
      (inPin cfg = true → inPin (shadowIn v (ii r) x) = true ∨ pinsShadow x.room s < cfgK (shadowRoom v)) ∧
      (v.shadow.set (64 + ii r) cfg).size ≤ 4096)
    (fun r s =>
      let x := audIn (ii r) s
      doneVia (inWing r s) (setAudRoom x.room { audRoom x.room s with shadow := (audRoom x.room s).shadow.set (64 + ii r) r.w2.toNat } s)) ∧
  Begins .audSafeload 0x86
    (fun r s => mixerNamed (ro r) r s ∧ reservedZero ([(12, 0)], [], []) r = true)
    (fun r s =>
      let v := audRoom (ro r) s
      setAudRoom (ro r) { v with
        loading := v.shadow.toList.foldl (fun t e => t.set e.1 e.2) v.loading, shadow := Tab.empty, loads := v.loads ++ [r.tk] } s) ∧
  Completes .audRoomNotify 0x8E
    (fun r s => mixerNamed (ro r) r s ∧ reservedZero ([(13, 0)], [], []) r = true)
    (fun r s => doneVia (wingOf r s) (setAudRoom (ro r) { audRoom (ro r) s with notify := bitOf r.w1 13 } s)) ∧
  Completes .audRoomRelease 0x8B
    (fun r s => mixerNamed (ro r) r s ∧ reservedZero ([(12, 0)], [], []) r = true ∧ roomInputs (ro r) s = [] ∧ roomGroups (ro r) s = [])
    (fun r s => doneVia (wingOf r s) (removeMixer (ro r) s)) ∧
  Completes .audRoomRelease 0x8B
    (fun r s => mixerNamed (ro r) r s ∧ (roomInputs (ro r) s ≠ [] ∨ roomGroups (ro r) s ≠ []))
    (fun _ s => (s, refuse stNotStarted 0x0B)) ∧
  Completes .audRoomRead 0x88
    (fun r s => mixerNamed (ro r) r s ∧ reservedZero ([(12, 0)], [(63, 0)], [(0, 0)]) r = true)
    (fun r s =>
      let v := audRoom (ro r) s
      let w0 := pack128 [(96, 32, v.lastLoad), (83, 13, ro r), (74, 9, v.tile), (69, 5, cfgK v.cfg), (63, 6, v.channels), (50, 13, v.shadow.size)]
      let bs := bytesOf128 w0 ++ v.talkers.flatMap (fun t => leBytes 2 (t.getD 65535)) ++ v.ctrs.flatMap (leBytes 8) ++ List.replicate 48 0
      let t := hostPut (fld r.w2 63 0) bs s
      doneVia (wingOf r s) (if bitOf r.w3 0 = true then setAudRoom (ro r) { audRoom (ro r) t with ctrs := [0, 0, 0, 0] } t else t)) ∧
  CompletesSo .audInAttach 0x83
    (fun r s =>
      let room := fld r.w1 76 64
      let i := handleIdx (fld r.w1 63 0)
      reservedZero ([(76, 0), (80, 80), (85, 81)], [(25, 0)], []) r = true ∧ bitOf r.w1 80 = false ∧
      resolve .source (fld r.w1 63 0) s = .ok i ∧ mayRoom r room s = true ∧ (r.owner = true ∨ (sourceAt i s).fn = r.fn) ∧
      (sourceAt i s).room = room ∧ attachFine room r s ∧ accHas tgPartition (audRoom room s).part r.master bitControl s = true ∧
      (sourceAt i s).isAudio = true ∧ (sourceAt i s).isGroup = false ∧ (sourceAt i s).forwardOnly = false ∧ (sourceAt i s).jit.isSome = true ∧
      fits (audRoom room s).part 3 1 s = true ∧ (inTile (audRoom room s).part (audRoom room s).tile s).isSome = true ∧
      (lowestFree .audioIn 0 65536 s).isSome = true)
    (fun r s t rep =>
      let m := audRoom (fld r.w1 76 64) s
      ∃ n tile, lowestFree .audioIn 0 65536 s = some n ∧ inTile m.part m.tile s = some tile ∧
        (let det := packNat [(8, 24, liveOf m.part 3 s), (32, 16, n), (48, 9, tile)]
         rep = if pairRerouted (sourceAt (handleIdx (fld r.w1 63 0)) s).wing (tile / 128) t = true then ⟨stDegraded, 1, det⟩
           else okVia (tile / 128) det t) ∧ (identOf .audioIn n t).used = true ∧
        (sourceAt (handleIdx (fld r.w1 63 0)) t).readers = (sourceAt (handleIdx (fld r.w1 63 0)) s).readers + 1 ∧
        audIn n t = { room := fld r.w1 76 64, source := handleIn (fld r.w1 63 0), part := m.part, tile := tile, load := 1, cfg := r.w2.toNat } ∧
        committedOf m.part 3 t = committedOf m.part 3 s + 1 ∧ (∀ d, d ≠ n → audIn d t = audIn d s) ∧ t.hq = s.hq ∧ t.dram = s.dram) ∧
  CompletesSo .audInAttach 0x83
    (fun r s =>
      let room := fld r.w1 76 64
      reservedZero ([(76, 0), (80, 80), (85, 81)], [(25, 0)], []) r = true ∧ bitOf r.w1 80 = true ∧ fld r.w1 63 0 = 0 ∧ r.owner = true ∧
      (roomAt room s).held = true ∧ attachFine room r s ∧ accHas tgPartition (audRoom room s).part r.master bitControl s = true ∧
      hasRoute 0x200 ((audRoom room s).tile / 8) s = true ∧ (lowestFree .audioIn 0 65536 s).isSome = true)
    (fun r s t rep =>
      let m := audRoom (fld r.w1 76 64) s
      ∃ n, lowestFree .audioIn 0 65536 s = some n ∧
        rep = okVia (m.tile / 128) (packNat [(8, 24, liveOf m.part 3 s), (32, 16, n), (48, 9, m.tile)]) t ∧ (identOf .audioIn n t).used = true ∧
        audIn n t = { room := fld r.w1 76 64, aes := some (fld r.w1 84 81, fld r.w1 85 85), part := m.part, tile := m.tile, cfg := r.w2.toNat } ∧
        (∀ d, d ≠ n → audIn d t = audIn d s) ∧ t.hq = s.hq ∧ t.dram = s.dram) ∧
  Completes .audInRead 0x87
    (fun r s => inputNamed r s ∧ reservedZero ([(15, 0)], [(63, 0)], [(0, 0)]) r = true)
    (fun r s =>
      let v := audIn (ii r) s
      let level : Nat := match resolve .source v.source s with | .ok k => (sourceAt k s).audioLevel | _ => 0
      let w0 := pack128 [(112, 16, ii r), (96, 16, toTwos 16 v.ls), (80, 16, toTwos 16 v.floor), (79, 1, b2n v.active),
                         (78, 1, b2n ((audRoom v.room s).talkers.contains (some (ii r)))), (71, 7, v.fifo.length), (56, 8, level)]
      let t := hostPut (fld r.w2 63 0) (bytesOf128 w0 ++ v.ctrs.flatMap (leBytes 8)) s
      doneVia (inWing r s) (if bitOf r.w3 0 = true then setAudIn (ii r) { audIn (ii r) t with ctrs := List.replicate 6 0 } t else t)) ∧
  Completes .audInRelease 0x89
    (fun r s => inputNamed r s ∧ reservedZero ([(15, 0)], [], []) r = true)
    (fun r s => doneVia (inWing r s) (removeInput (ii r) s)) ∧
  CompletesSo .audGroupCreate 0x82
    (fun r s =>
      let m := audRoom (ro r) s
      mixerNamed (ro r) r s ∧ reservedZero ([(12, 0), (20, 16), (30, 24)], [(31, 0)], []) r = true ∧ fld r.w1 20 16 < m.channels ∧
      profCodec m.profiles (fld r.w1 25 24) ≠ 0 ∧ fld r.w1 30 26 ≤ 20 ∧ fits m.part 4 (1 + fld r.w1 30 26) s = true ∧
      (groupTile m.part m.tile (1 + fld r.w1 30 26) s).isSome = true ∧ (lowestFree .source 0 131072 s).isSome = true)
    (fun r s t rep =>
      let m := audRoom (ro r) s
      ∃ i tile, lowestFree .source 0 131072 s = some i ∧ groupTile m.part m.tile (1 + fld r.w1 30 26) s = some tile ∧
        rep = okVia (m.tile / 128) (handleFor .source i s) t ∧ (identOf .source i t).used = true ∧ (sourceAt i t).isLocal = true ∧
        t.audio.groups.find? i = some { room := ro r, chan := fld r.w1 20 16, profile := fld r.w1 25 24, slots := fld r.w1 30 26, part := m.part,
                                        tile := tile, load := 1 + fld r.w1 30 26, ts0 := fld r.w2 31 0, created := mixBlockNow s } ∧
        (∀ d, d ≠ i → t.audio.groups.find? d = s.audio.groups.find? d) ∧ t.hq = s.hq ∧ t.dram = s.dram) ∧
  Completes .audGroupRelease 0x8A
    (fun r s =>
      let i := handleIdx (fld r.w1 63 0)
      reservedZero ([(63, 0)], [], []) r = true ∧ resolve .source (fld r.w1 63 0) s = .ok i ∧ (s.audio.groups.find? i).isSome = true ∧
      mayRoom r (audGroup i s).room s = true ∧ sourceSubs i s = [])
    (fun r s => doneVia ((audGroup (handleIdx (fld r.w1 63 0)) s).tile / 128) (removeGroup (handleIdx (fld r.w1 63 0)) s)) ∧
  Completes .audListen 0x85
    (fun r s =>
      let j := handleIdx (fld r.w1 63 0)
      let k := handleIdx (subAt j s).source
      subNamed r s ∧ reservedZero ([(80, 0)], [], []) r = true ∧ resolve .source (subAt j s).source s = .ok k ∧
      (s.audio.groups.find? k).isSome = true ∧ mayRoom r (audGroup k s).room s = true ∧
      (bitOf r.w1 80 = false → (identOf .audioIn (fld r.w1 79 64) s).used = true ∧ (audIn (fld r.w1 79 64) s).room = (audGroup k s).room ∧
        (contributes (audRoom (audGroup k s).room s) (audIn (fld r.w1 79 64) s) (fld r.w1 79 64) (audGroup k s).chan = false ∨
          hasVar (audGroup k s) (fld r.w1 79 64) = true ∨ (audGroup k s).vars.length < (audGroup k s).slots)))
    (fun r s =>
      let j := handleIdx (fld r.w1 63 0)
      let k := handleIdx (subAt j s).source
      let g := audGroup k s
      let i := fld r.w1 79 64
      let h := handleIn (fld r.w1 63 0)
      let binds := g.binds.filter (fun b => b.1 != h)
      let needs := contributes (audRoom g.room s) (audIn i s) i g.chan && !hasVar g i
      doneVia (legAt (subAt j s).leg s).wing (setAudGroup k
        (if bitOf r.w1 80 = true then { g with binds := binds }
         else { g with binds := binds ++ [(h, i)], vars := if needs then g.vars ++ [{ input := i }] else g.vars }) s)) ∧
  Completes .audBusSet 0x8C
    (fun r s => r.owner = true ∧ reservedZero ([(3, 0)], [(34, 0), (98, 64)], [(23, 0), (127, 64)]) r = true ∧ fld r.w3 15 0 ≤ 60000 ∧
      40 ≤ fld r.w3 22 16 ∧ fld r.w3 22 16 ≤ 120 ∧ fld r.w3 63 24 = 0 ∧ fld r.w2 63 35 = 0 ∧ fld r.w2 127 99 = 0 ∧
      (∀ k, k < 2 → subOn r.w2 k = true → mixes (subRoom r.w2 k) s = true ∧ subChan r.w2 k < (audRoom (subRoom r.w2 k) s).channels ∧
        hasRoute ((audRoom (subRoom r.w2 k) s).tile / 8) 0x200 s = true) ∧
      (bitOf r.w3 23 = true → recordQueueRefusal r 1 (fld r.w3 127 64) s = none))
    (fun r s => (setAudBus (fld r.w1 3 0) { audBus (fld r.w1 3 0) s with set := some (r.w2, r.w3) } s,
      { okWith 0 with st := if busRerouted r.w2 s = true then stDegraded else stOk })) ∧
  Completes .audBusRead 0x8D
    (fun r _ => reservedZero ([(3, 0)], [(63, 0)], [(0, 0)]) r = true)
    (fun r s =>
      let v := audBus (fld r.w1 3 0) s
      let w0 := pack128 [(64, 64, v.wake), (32, 32, v.silent), (0, 2, v.state)]
      let t := hostPut (fld r.w2 63 0) (bytesOf128 w0 ++ v.ctrs.flatMap (leBytes 8) ++ List.replicate 16 0) s
      (if bitOf r.w3 0 = true then setAudBus (fld r.w1 3 0) { audBus (fld r.w1 3 0) t with ctrs := [0, 0, 0, 0] } t else t,
       { okWith 0 with st := if busRerouted v.cfg s = true then stDegraded else stOk })) ∧
  ∀ (n : Nat) (s : State), mixes n (removeMixer n s) = false ∧ (identOf .audioIn n (removeInput n s)).used = false ∧
    (removeInput n s).audio.ins.find? n = none ∧ (identOf .source n (removeGroup n s)).used = false ∧
    (removeGroup n s).audio.groups.find? n = none

/-- An input decodes its units into a FIFO of at most 64 blocks; each block start mixes every room once; a mix saturates
to 24 bits. AUDIO_DECODE of an input in use takes the unit at its front; a unit with a packet sets what the next one
continues from, an empty one is concealed; the FIFO then holds at most 64 blocks. MIX_BLOCK_START whose block has come
computes it once: a second one for the same block does nothing. Every common mix has 48 samples, each in the 24-bit
range, and without inputs is all zeros. BUS_PARK of a bus silent for PARK_MS parks it, and one that is not changes
nothing. GROUP_FRAME_CODED of a group with a complete frame takes the oldest and hands its packet on with the group's
next sequence number. What a codec makes of samples is a free function of them (log entry 92). (R263, R264, R267,
R268, R272, R277, R279, R282) -/
def Obligations.AudioBlocks : Prop :=
  (∀ (i k : Nat) (u : AudUnit) (rest : List AudUnit) (s : State), i < 65536 → (identOf .audioIn i s).used = true → s.body.hold = false →
    (audIn i s).units = u :: rest → resolve .source (audIn i s).source s = .ok k →
    ∃ t : State, exec (.audioDecode i) s = .next t ∧ (audIn i t).units = rest ∧ (audIn i t).lastExt = u.pkt.map (·.ext) ∧
      (audIn i t).fifo.length ≤ 64 ∧ (audIn i t).cfg = (audIn i s).cfg ∧ (audIn i t).active = (audIn i s).active ∧
      (∀ d, d ≠ i → audIn d t = audIn d s) ∧ t.audio.rooms = s.audio.rooms ∧ t.hq = s.hq ∧ t.dram = s.dram ∧ t.hostMem = s.hostMem) ∧
  (∀ s : State, s.audio.last = some (cmpNow s / 1000000) → exec .mixBlockStart s = .next s) ∧
  (∀ s : State, s.audio.last ≠ some (cmpNow s / 1000000) → s.body.hold = false →
    let k := cmpNow s / 1000000
    ∃ t : State, exec .mixBlockStart s = .next t ∧ t.audio = (mixBlock k { s with audio := { s.audio with last := some k } }).audio ∧
      t.aes = (mixBlock k { s with audio := { s.audio with last := some k } }).aes) ∧
  (∀ s : State, s.audio.last ≠ some (cmpNow s / 1000000) → s.body.hold = true →
    exec .mixBlockStart s = .next { s with audio := { s.audio with last := some (cmpNow s / 1000000) } }) ∧
  (∀ (v : AudRoom) (ms : List MixIn) (c : Nat), (commonMix v ms c).1.length = 48 ∧
    (∀ x ∈ (commonMix v ms c).1, -8388608 ≤ x ∧ x ≤ 8388607) ∧ (ms = [] → (commonMix v ms c).1 = List.replicate 48 0)) ∧
  (∀ (b : Nat) (s : State), b < 16 → s.body.hold = false → (audBus b s).parked = false → (audBus b s).parkMs ≠ 0 →
    (audBus b s).parkMs ≤ (audBus b s).silent →
    ∃ t : State, exec (.busPark b) s = .next t ∧ (audBus b t).parked = true ∧ (audBus b t).cfg = (audBus b s).cfg ∧
      (audBus b t).silent = (audBus b s).silent ∧ (∀ d, d ≠ b → audBus d t = audBus d s) ∧ t.audio.rooms = s.audio.rooms) ∧
  (∀ (b : Nat) (s : State), b < 16 → (audBus b s).silent < (audBus b s).parkMs → exec (.busPark b) s = .next s) ∧
  ∀ (i : Nat) (g : AudGroup) (x : AudFrame) (rest : List AudFrame) (s : State), i < 131072 → s.audio.groups.find? i = some g →
    g.done = x :: rest → s.body.hold = false →
    let w := (audRoom g.room s).profiles
    let common := codeAudio w g.profile g.memory x.common
    let vars := x.vars.map (fun v => (v.1, codeAudio w g.profile (((g.mems.find? (fun m => m.1 == v.1)).map (·.2)).getD g.memory) v.2))
    let ts := (g.ts0 + profClock (profCodec w g.profile) * ((x.first + 2 ^ 32 * 1000 - g.created % (2 ^ 32 * 1000)) % (2 ^ 32 * 1000))) % 2 ^ 32
    let packet := fun (payload : List Byte) => localRtp (profPt w g.profile) g.rtpSeq ts false none payload
    let u := setAudGroup i { g with
      done := rest, rtpSeq := (g.rtpSeq + 1) % 2 ^ 32, memory := common.2, mems := vars.map (fun v => (v.1, v.2.2)) } s
    let late := decide (0 < cmpDiff (cmpNow s) (cmpAdd ((x.first + x.blocks + 1) * 1000000) 0))
    exec (.groupFrameCoded i) s = .next (acceptLocal (groupCopies g x (vars.map (fun v => (v.1, packet v.2.1)))) i g.rtpSeq
      { first := true, last := true, switch := true } (packet common.1) (if late then tileCount g.tile 2 (1 + vars.length) u else u))

/-- Each layer's sample is blended over the value beneath it by ALPHA of 1,024. For every sample of a layer, with v the
value beneath it and s the layer's sample after colour conversion, the result is (alpha * s + (1024 - alpha) * v +
512) >> 10, for ALPHA from 0 to 1,024. ALPHA 1,024 is opaque: the result is s. ALPHA 0 leaves the layer invisible: the
result is v. A layer counts toward MAX_DEPTH whatever its ALPHA. The composed sample of a list of layers with one more
on top is that blend where the layer covers the sample, and the value beneath where it does not. (R216) -/
def Obligations.LayersBlend : Prop :=
  (∀ (alpha : Nat) (s v : Int), alpha ≤ 1024 → blend alpha s v = ((alpha : Int) * s + (1024 - (alpha : Int)) * v + 512) / 2 ^ 10) ∧
  (∀ s v : Int, blend 1024 s v = s) ∧ (∀ s v : Int, blend 0 s v = v) ∧
  (∀ (o : Output) (ls : List (LayerCfg × Nat)) (l : LayerCfg × Nat) (x y : Int) (k : Nat) (s : State),
    composedSample o (ls ++ [l]) x y k s =
      if covers o l.1 x y = true then blend l.1.alpha (layerSample o l.1 l.2 x y k s) (composedSample o ls x y k s)
      else composedSample o ls x y k s) ∧
  (∀ (o : Output) (n : Nat) (a b : LayerCfg) (t : List (Nat × LayerCfg)), a.typ = b.typ → a.w3 = b.w3 →
    (∀ j : Nat, j < 18 ∨ 28 < j → a.w2.getLsbD j = b.w2.getLsbD j) → depthOf o ⟨(n, a) :: t⟩ = depthOf o ⟨(n, b) :: t⟩)

/-- Ports class their lines by three measurements, inputs lock and check what they receive, outputs send a frame whatever
comes. A measurement below 20 Ohm is SHORT, above 1,000 Ohm OPEN, else UNBAL_75 where a leg lies at ground and BAL_110
otherwise. LINE changes at the third equal measurement in a row, with its bit of AES_EVENT; an input on a short or
open line loses its lock and a running output on a short trips. AES_LOCK locks an enabled input to a rate that it
accepts, and else sets RATE_ERR; of a locked one it says whether it is aligned. AES_UNLOCK acts after 8 bad frames. A
received frame keeps the previous sample of a subframe with bad parity or preamble. A professional block with a bad
CRCC is not latched, and another is. A frame due leaves the buffer, or is a fill frame. A tripped driver retries after
100 ms. A block start sends the shadow with the hardware's bits, 24 bytes that end in their CRCC, and takes a group's
mask. Writes of AES_GROUP_MASK and AES_OUT_CS change the shadows, the latter no bit that the hardware sets. The codes
of the hardware's channel-status bits are the model's (log entry 23). (R310, R311, R312, R313, R314, R315, R317, R318,
R321, R324) -/
def Obligations.Aes3Ports : Prop :=
  (∀ (z : Nat) (leg : Bool), lineClass z leg = if z < 20 then 3 else if 1000 < z then 0 else if leg = true then 2 else 1) ∧
  (∀ (p z : Nat) (leg : Bool) (s : State), p < 32 → (measureLine (senseOf p s) z (lineClass z leg)).agree < 3 →
    exec (.lineMeasure p z leg) s = .next (setSense p (measureLine (senseOf p s) z (lineClass z leg)) s) ∧
    (measureLine (senseOf p s) z (lineClass z leg)).line = (senseOf p s).line) ∧
  (∀ (p z : Nat) (leg : Bool) (s : State), p < 32 → 3 ≤ (measureLine (senseOf p s) z (lineClass z leg)).agree →
    ∃ t : State, exec (.lineMeasure p z leg) s = .next t ∧ (senseOf p t).line = lineClass z leg ∧ (senseOf p t).agree = 0 ∧
      (senseOf p t).ohms = min z 4095 ∧ (p < 16 → t.aes.inLine.testBit p = true) ∧ (16 ≤ p → t.aes.outLine.testBit (p - 16) = true) ∧
      (p < 16 → lineClass z leg = 0 ∨ lineClass z leg = 3 → (aesIn p t).locked = false) ∧
      (16 ≤ p → lineClass z leg = 3 → (aesOut (p - 16) s).state = 1 → (aesOut (p - 16) t).state = 3) ∧
      (16 ≤ p → lineClass z leg ≠ 3 → (aesOut (p - 16) t).state = (aesOut (p - 16) s).state)) ∧
  (∀ (o : Nat) (short : Bool) (s : State), o < 16 → (aesOut o s).state = 3 → (aesOut o s).tripAt + 100000000 ≤ nowNs s →
    exec (.shortTripRetry o short) s = .next (if short = true then tripOut o s else setAesOut o { aesOut o s with state := 1 } s)) ∧
  (∀ (i rate : Nat) (inv al : Bool) (s : State), i < 16 → (aesIn i s).enable = true → (aesIn i s).locked = false →
    (aesIn i s).sense.line = 1 ∨ (aesIn i s).sense.line = 2 → rate ≤ 2 → (aesIn i s).autoRate = true ∨ rate = (aesIn i s).rate →
    ∃ t : State, exec (.aesLock i rate inv al) s = .next t ∧ (aesIn i t).locked = true ∧ (aesIn i t).rateDet = rate + 1 ∧
      (aesIn i t).reversed = inv ∧ (aesIn i t).rateErr = false ∧ (aesIn i t).badFrames = 0 ∧ (aesIn i t).mute = 3 ∧
      (al = false ∨ groupOfPort false i s = none → (aesIn i t).buf = [] ∧ (aesIn i t).phase = 0) ∧
      (∀ d, d ≠ i → aesIn d t = aesIn d s) ∧ t.aes.outs = s.aes.outs ∧ t.aes.groups = s.aes.groups ∧ t.dram = s.dram) ∧
  (∀ (i rate : Nat) (inv al : Bool) (s : State), i < 16 → (aesIn i s).enable = true → (aesIn i s).locked = false →
    (aesIn i s).sense.line = 1 ∨ (aesIn i s).sense.line = 2 → (aesIn i s).autoRate = false → rate ≠ (aesIn i s).rate →
    exec (.aesLock i rate inv al) s = .next (setAesIn i { aesIn i s with rateErr := true } s)) ∧
  (∀ (i rate : Nat) (inv al : Bool) (s : State), i < 16 → (aesIn i s).enable = true → (aesIn i s).locked = true →
    (aesIn i s).sense.line = 1 ∨ (aesIn i s).sense.line = 2 →
    exec (.aesLock i rate inv al) s = .next (if (aesIn i s).misaligned = al then alignIn i al s else s)) ∧
  (∀ (i : Nat) (s : State), i < 16 → (aesIn i s).locked = true →
    exec (.aesUnlock i) s = .next (if 8 ≤ (aesIn i s).badFrames then
      count (aesInCtr i 4) 1 (setAesIn i { aesIn i s with locked := false, rateDet := 0, badFrames := 0 } s) else s)) ∧
  (∀ (i : Nat) (a b : AesSub) (s : State), i < 16 → (aesIn i s).enable = true → (aesIn i s).locked = true →
    ∃ t : State, exec (.aesInFrameRx i a b) s = .next t ∧
      (aesIn i t).last = (if a.parityOk = true ∧ a.preambleOk = true then ofTwos 24 a.sample.toNat else (aesIn i s).last.1,
                          if b.parityOk = true ∧ b.preambleOk = true then ofTwos 24 b.sample.toNat else (aesIn i s).last.2) ∧
      (aesIn i t).badFrames = (if a.preambleOk = true ∨ b.preambleOk = true then 0 else (aesIn i s).badFrames + 1) ∧
      ((aesIn i s).buf.length ≤ 192 → (aesIn i t).buf.length ≤ 192) ∧ (aesIn i t).locked = true ∧
      (∀ d, d ≠ i → aesIn d t = aesIn d s) ∧ t.aes.outs = s.aes.outs ∧ t.hq = s.hq ∧ t.dram = s.dram) ∧
  (∀ (i : Nat) (bs : List Byte) (s : State), i < 16 → bs.length = 24 → (aesIn i s).enable = true → (aesIn i s).locked = true →
    exec (.csBlockRx i bs) s = .next (if (bs.getD 0 0).toNat % 2 = 1 ∧ crcc (bs.take 23) ≠ bs.getD 23 0 then count (aesInCtr i 5) 1 s
      else setAesIn i { aesIn i s with
        cs := bs, consumer := (bs.getD 0 0).toNat % 2 != 1, nonAudio := (bs.getD 0 0).toNat / 2 % 2 == 1 } s)) ∧
  (∀ (o : Nat) (x : Int × Int) (xs : List (Int × Int)) (s : State), o < 16 → (aesOut o s).state = 1 ∨ (aesOut o s).state = 3 →
    (aesOut o s).buf = x :: xs → s.body.hold = false →
    ∃ (t : State) (a b : Nat), exec (.aesOutFrameDue o) s = .next t ∧ (aesOut o t).buf = xs ∧ (aesOut o t).last = x ∧
      (aesOut o t).frame = ((aesOut o s).frame + 1) % 192 ∧ t.out = .aes o (aesOut o s).frame a b :: s.out ∧ t.aes.ins = s.aes.ins) ∧
  (∀ (o : Nat) (s : State), o < 16 → (aesOut o s).state = 1 ∨ (aesOut o s).state = 3 → (aesOut o s).buf = [] → s.body.hold = false →
    ∃ (t : State) (a b : Nat), exec (.aesOutFrameDue o) s = .next t ∧ (aesOut o t).owed = (aesOut o s).owed + 1 ∧
      (aesOut o t).frame = ((aesOut o s).frame + 1) % 192 ∧ (aesOut o t).buf = [] ∧ t.out = .aes o (aesOut o s).frame a b :: s.out ∧
      ctrGet (aesOutCtr o 0) t = satAdd 64 (ctrGet (aesOutCtr o 0) s) 1) ∧
  (∀ (p : Nat) (s : State), 16 ≤ p → p < 32 → (aesOut (p - 16) s).state = 1 → (aesOut (p - 16) s).frame = 0 →
    ∃ t : State, exec (.aesCsBlockStart p) s = .next t ∧ (aesOut (p - 16) t).csa = csSent (aesOut (p - 16) s).rate (aesOut (p - 16) s).cs ∧
      (∀ g, groupOfPort true (p - 16) s = some g → outReference g s = some (p - 16) → (aesGroup g t).active = (aesGroup g s).mask ∧
        (aesGroup g t).blocks = ((aesGroup g s).blocks + 1) % 2 ^ 32) ∧ t.aes.ins = s.aes.ins) ∧
  (∀ (p : Nat) (s : State), p < 16 → (aesIn p s).locked = true →
    ∃ t : State, exec (.aesCsBlockStart p) s = .next t ∧ t.aes.ins = s.aes.ins ∧ t.aes.outs = s.aes.outs ∧
      (∀ g, groupOfPort false p s = some g → inReference g s = some p → (aesGroup g t).active = (aesGroup g s).mask)) ∧
  (∀ (rate : Nat) (cs : List Byte), cs.length = 24 → (csSent rate cs).length = 24 ∧ (csSent rate cs).getD 23 0 = crcc ((csSent rate cs).take 23)) ∧
  (∀ (who g : Nat) (v : BitVec 64) (s : State), g < 8 → mayWrite who (aesGroupOff g 8) s →
    exec (.aesGroupMask who g v) s = .next (setAesGroup g { aesGroup g s with mask := fld v 31 0 } s)) ∧
  ∀ (who o n : Nat) (v : BitVec 64) (s : State), o < 16 → n < 3 → mayWrite who (aesOutOff o (0x10 + n * 8)) s →
    ∃ t : State, exec (.aesOutCs who o n v) s = .next t ∧ t = setAesOut o { aesOut o s with cs := (aesOut o t).cs } s ∧
      (aesOut o t).cs.length = (aesOut o s).cs.length ∧
      ∀ k, k < (aesOut o s).cs.length → (aesOut o t).cs.getD k 0 = if 8 * n ≤ k ∧ k < 8 * n + 8 then
        ((aesOut o s).cs.getD k 0 &&& ~~~ csOpen (aesOut o s).rate k) ||| ((bytesOf64 v).getD (k - 8 * n) 0 &&& csOpen (aesOut o s).rate k)
        else (aesOut o s).cs.getD k 0

/-- A lane group is configured while nothing names it; lanes leave service on loss, short, hold or test and come back by
bring-up. LANE_GROUP_CFG is ignored when PERSONALITY is reserved; it sets CFG_ERR while a source or leg names the
group; else it takes effect with the PLL out of lock. LANE_LOS marks the signal lost and takes the lane out of
service, unless the far end's IDLE explains it; LOS_CLEARED marks it back. LANE_LOL does so for a lane, or for a group
whose PLL is lost; PLL_LOCK starts bring-up on every lane of the group that may train. PORT_STATE brings every lane of
a ready Ethernet port UP, with a bit of INVERTED for each. FAULT_SHORT makes a lane SHORT, and its retry after 100 ms
keeps or ends that. RETRAIN restarts bring-up, HOLD_DOWN holds the lane or releases it, and LANE_TEST sets the loop
and takes the lane out of service, or is ignored when a field is reserved. (R325, R326, R327, R330, R343, R346, R347,
R348, R350, R352) -/
def Obligations.LaneService : Prop :=
  (∀ (who g : Nat) (w : BitVec 64) (s : State), g < 16 → mayWrite who (laneGroupOff g 0) s → fld w 1 0 = 3 →
    exec (.laneGroupCfg who g w) s = .next s) ∧
  (∀ (who g : Nat) (w : BitVec 64) (s : State), g < 16 → mayWrite who (laneGroupOff g 0) s → fld w 1 0 ≠ 3 →
    laneGroupWord (groupCfg g s) ≠ pack64 [(8, 1, fld w 8 8), (4, 2, fld w 5 4), (0, 2, fld w 1 0)] → groupNamed g s = true →
    exec (.laneGroupCfg who g w) s = .next (pfVector 4 { s with lanes := { s.lanes with cfgErr := s.lanes.cfgErr.set (g / 4) 1 } })) ∧
  (∀ (who g : Nat) (w : BitVec 64) (s : State), g < 16 → mayWrite who (laneGroupOff g 0) s → fld w 1 0 ≠ 3 →
    laneGroupWord (groupCfg g s) ≠ pack64 [(8, 1, fld w 8 8), (4, 2, fld w 5 4), (0, 2, fld w 1 0)] → groupNamed g s = false →
    ∃ t : State, exec (.laneGroupCfg who g w) s = .next t ∧ t = saveSettings (applyGroup g w s) ∧ (groupCfg g t).personality = fld w 1 0 ∧
      (groupCfg g t).width = fld w 5 4 ∧ (groupCfg g t).width ≤ 3 ∧ (groupCfg g t).medium = fld w 8 8 ∧ (groupCfg g t).pllLock = false ∧
      (∀ d, d ≠ g → groupCfg d t = groupCfg d s)) ∧
  (∀ (l : Nat) (s : State), l < 128 → (laneGroup l s).personality ≠ 0 →
    exec (.laneLos l) s = .next (if isTremund l s = true ∧ (laneOf l s).rx.power = 2 then setLane l { laneOf l s with los := true } s
      else loseLane l (setLane l { laneOf l s with los := true } s))) ∧
  (∀ (l : Nat) (s : State), l < 128 → (laneGroup l s).personality ≠ 0 →
    exec (.losCleared l) s = .next (setLane l { laneOf l s with
      los := false
      stepAt := if (laneOf l s).los = true then nowNs s else (laneOf l s).stepAt } s)) ∧
  (∀ (l : Nat) (s : State), l < 128 → (laneGroup l s).personality ≠ 0 → exec (.laneLol l false) s = .next (loseLock l s)) ∧
  (∀ (l : Nat) (s : State), l < 128 → (laneGroup l s).personality ≠ 0 →
    ∃ t : State, exec (.laneLol l true) s = .next t ∧ (laneGroup l t).pllLock = false ∧ (laneGroup l t).personality = (laneGroup l s).personality) ∧
  (∀ (l : Nat) (s : State), (isTremund l s = true ∨ isEth l s = true) → (laneGroup l s).width ≤ 3 → (laneOf l s).state = 3 → mayTrain l s = true →
    (laneOf l (loseLane l s)).state ≠ 3) ∧
  (∀ (l : Nat) (s : State), (laneGroup l s).personality = 0 → l < 128 →
    exec (.laneLos l) s = .next s ∧ exec (.losCleared l) s = .next s ∧ exec (.faultShort l) s = .next s) ∧
  (∀ (g : Nat) (s : State), g < 16 → (groupCfg g s).personality ≠ 0 → (groupCfg g s).pllLock = false →
    ∃ t : State, exec (.pllLock g) s = .next t ∧ (groupCfg g t).pllLock = true ∧
      (∀ k, k < 8 → (laneOf (g * 8 + k) t).lol = false ∧ (mayTrain (g * 8 + k) s = true →
        (laneOf (g * 8 + k) t).state = 1 ∧ (laneOf (g * 8 + k) t).step = 1 ∧ (laneOf (g * 8 + k) t).waitUntil = none)) ∧
      (∀ d, d / 8 ≠ g → laneOf d t = laneOf d s)) ∧
  (∀ (p inv : Nat) (s : State), p < 128 → inv < 256 → isPort p s = true → isEth p s = true → (laneGroup p s).pllLock = true →
    (∀ l ∈ portLanes p s, mayTrain l s = true ∧ (laneOf l s).los = false ∧ laneUp l s = false) →
    ∃ t : State, exec (.portState p inv) s = .next t ∧ (∀ l ∈ portLanes p s, (laneOf l t).state = 3 ∧ (laneOf l t).lol = false) ∧
      (∀ l ∈ portLanes p s, (laneOf l t).inverted = inv.testBit (l - p)) ∧ (∀ d, d ∉ portLanes p s → laneOf d t = laneOf d s)) ∧
  (∀ (l : Nat) (s : State), l < 128 → (isTremund l s = true ∨ isEth l s = true) → (laneOf l s).short = false →
    ∃ t : State, exec (.faultShort l) s = .next t ∧ (laneOf l t).short = true ∧ (laneOf l t).shortAt = nowNs s ∧ (laneOf l t).state = 5) ∧
  (∀ (l : Nat) (short : Bool) (s : State), l < 128 → (laneOf l s).short = true → (laneOf l s).shortAt + 100000000 ≤ nowNs s →
    exec (.faultShortRetry l short) s = .next (if short = true then setLane l { laneOf l s with shortAt := nowNs s } s
      else
        let t := setLane l { laneOf l s with short := false } s
        if (laneOf l s).loop ≠ 0 then setLaneState l 6 t else if (laneOf l s).holdDown = true then setLaneState l 4 t else beginTraining l t)) ∧
  (∀ (who l : Nat) (s : State), l < 128 → mayWrite who (laneOff l 0x10) s → mayTrain l s = true → (isTremund l s = true ∨ isEth l s = true) →
    ∃ t : State, exec (.laneRetrain who l) s = .next t ∧ (laneOf l t).state = 1 ∧ (laneOf l t).step = 1 ∧ (laneOf l t).waitUntil = none) ∧
  (∀ (who l : Nat) (s : State), l < 128 → mayWrite who (laneOff l 0x10) s → (isTremund l s = true ∨ isEth l s = true) →
    (laneOf l s).holdDown = false → (laneOf l s).short = false → (laneOf l s).loop = 0 →
    ∃ t : State, exec (.laneHoldDown who l true) s = .next t ∧ (laneOf l t).holdDown = true ∧ (laneOf l t).state = 4) ∧
  (∀ (who l : Nat) (s : State), l < 128 → mayWrite who (laneOff l 0x10) s → (laneOf l s).holdDown = true →
    exec (.laneHoldDown who l false) s = .next (beginTraining l (setLane l { laneOf l s with holdDown := false } s))) ∧
  (∀ (who l : Nat) (w : BitVec 64) (s : State), l < 128 → mayWrite who (laneOff l 0x18) s → 3 < fld w 2 0 ∨ fld w 5 4 = 3 →
    exec (.laneTest who l w) s = .next s) ∧
  ∀ (who l : Nat) (w : BitVec 64) (s : State), l < 128 → mayWrite who (laneOff l 0x18) s → (isTremund l s = true ∨ isEth l s = true) →
    1 ≤ fld w 2 0 → fld w 2 0 ≤ 3 → fld w 5 4 ≠ 3 → (laneOf l s).loop = 0 → (laneOf l s).short = false →
    ∃ t : State, exec (.laneTest who l w) s = .next t ∧ (laneOf l t).loop = fld w 2 0 ∧ (laneOf l t).check = bitOf w 3 ∧
      (laneOf l t).pattern = fld w 5 4 ∧ (laneOf l t).state = 6

/-- A Tremund lane comes up in four bounded steps, replays blocks that fail, and dozes, idles and wakes. TM_BRINGUP_STEP
completes the present step; in steps 2 and 4 an identity that differs from the port's other UP lanes makes the lane
MISWIRED, and step 4 makes it UP. TM_STEP_TIMEOUT past the step's bound returns it to step 1, and the third failure in
a row waits 100 ms, which TM_RETRY_WAIT_END ends. TM_BLOCK_RX runs a block that checks through its header and its
data, and a failing one that was expected asks for a replay. TM_NAK_REPEAT repeats a request 1 us later. TM_DOZE,
TM_IDLE, TM_REFRESH and TM_WAKE move the direction between ACTIVE, DOZE and IDLE. TM_STREAM_HOLD_END sends what the
lane of the stream may send. How blocks fill with frames is the model's (log entry 21). (R332, R334, R335, R337, R339,
R341, R342, R343, R344, R345) -/
def Obligations.TremundLanes : Prop :=
  (∀ (l : Nat) (h : BitVec 128) (inv : Bool) (s : State), l < 128 → isTremund l s = true → (laneGroup l s).pllLock = true →
    mayTrain l s = true → (laneOf l s).los = false → (laneOf l s).waitUntil = none → headerOk h = true →
    (laneOf l s).state = 1 ∨ (laneOf l s).state = 2 →
    ((laneOf l s).step = 1 → exec (.tmBringupStep l h inv) s = .next (setLane l { laneOf l s with lol := false, step := 2, stepAt := nowNs s } s)) ∧
    ((laneOf l s).step = 2 → miswired l h s = false → ∃ t : State, exec (.tmBringupStep l h inv) s = .next t ∧ (laneOf l t).state = 2 ∧
      (laneOf l t).step = 3 ∧ (laneOf l t).inverted = inv ∧ (laneOf l t).peerSerial = fld h 47 0 ∧ (laneOf l t).peerLane = fld h 54 48 ∧
      (laneOf l t).tx.buffer.length = 1) ∧
    ((laneOf l s).step = 3 → exec (.tmBringupStep l h inv) s = .next (if fld h 111 108 = 1 then
      setLane l { laneOf l s with step := 4, stepAt := nowNs s } s else s)) ∧
    (4 ≤ (laneOf l s).step → miswired l h s = false → ∃ t : State, exec (.tmBringupStep l h inv) s = .next t ∧ (laneOf l t).state = 3 ∧
      (laneOf l t).attempts = 0 ∧ (laneOf l t).upAt = nowNs s ∧ (laneOf l t).peerSerial = fld h 47 0) ∧
    ((laneOf l s).step = 2 ∨ 4 ≤ (laneOf l s).step → miswired l h s = true → ∃ t : State, exec (.tmBringupStep l h inv) s = .next t ∧
      (laneOf l t).state = 7 ∧ (laneOf l t).tx.buffer = [])) ∧
  (∀ (l : Nat) (s : State), l < 128 → isTremund l s = true → (laneGroup l s).pllLock = true → (laneOf l s).state = 1 ∨ (laneOf l s).state = 2 →
    (laneOf l s).los = false → (laneOf l s).waitUntil = none → (laneOf l s).stepAt + stepBound (laneOf l s).step ≤ nowNs s →
    ∃ t : State, exec (.tmStepTimeout l) s = .next t ∧ (laneOf l t).state = 1 ∧ (laneOf l t).step = 1 ∧
      (laneOf l t).attempts = (laneOf l s).attempts + 1 ∧
      (laneOf l t).waitUntil = (if 3 ≤ (laneOf l s).attempts + 1 then some (nowNs s + 100000000) else none)) ∧
  (∀ (l at_ : Nat) (s : State), l < 128 → (laneOf l s).waitUntil = some at_ →
    exec (.tmRetryWaitEnd l) s = .next (if at_ ≤ nowNs s then setLane l { laneOf l s with waitUntil := none, stepAt := nowNs s } s else s)) ∧
  (∀ (l : Nat) (h : BitVec 128) (ws : List (BitVec 128)) (crc : BitVec 32) (s : State), l < 128 → ws.length = 64 → isTremund l s = true →
    s.body.hold = false → (laneOf l s).state = 2 ∨ (laneOf l s).state = 3 → fld h 127 112 = 0x7E5A →
    let u := setLane l { laneOf l s with rx := { (laneOf l s).rx with badSync := 0 } } s
    (headerOk h = true → crc = tmCrc h ws → fld h 111 108 = 1 →
      exec (.tmBlockRx l h ws crc) s = .next (dataBlock l h ws (headerActs l h u))) ∧
    (headerOk h = true → crc = tmCrc h ws → fld h 111 108 ≠ 1 → exec (.tmBlockRx l h ws crc) s = .next (headerActs l h u)) ∧
    (crc ≠ tmCrc h ws → fld h 111 108 = 1 → (laneOf l s).rx.discarding = false ∨ fld h 107 96 = (laneOf l s).rx.next →
      exec (.tmBlockRx l h ws crc) s = .next (blockFailed l u)) ∧
    (crc ≠ tmCrc h ws → fld h 111 108 = 2 ∨ fld h 111 108 = 3 → exec (.tmBlockRx l h ws crc) s = .next u)) ∧
  (∀ (l : Nat) (h : BitVec 128) (ws : List (BitVec 128)) (crc : BitVec 32) (s : State), l < 128 → ws.length = 64 → isTremund l s = true →
    s.body.hold = false → (laneOf l s).state = 2 ∨ (laneOf l s).state = 3 → fld h 127 112 ≠ 0x7E5A → 3 ≤ (laneOf l s).rx.badSync →
    mayTrain l s = true → ∃ t : State, exec (.tmBlockRx l h ws crc) s = .next t ∧ (laneOf l t).state = 1 ∧ (laneOf l t).lol = true) ∧
  (∀ (l : Nat) (s : State), (laneOf l s).rx.fails + 1 < 8 → (laneOf l s).tx.power = 0 →
    (laneOf l (blockFailed l s)).rx.discarding = true ∧ (laneOf l (blockFailed l s)).rx.nakDue = true ∧
    (laneOf l (blockFailed l s)).rx.fails = (laneOf l s).rx.fails + 1 ∧
    ctrGet (laneCtr l 1) (blockFailed l s) = satAdd 64 (ctrGet (laneCtr l 1) s) 1) ∧
  (∀ (l : Nat) (h : Word128) (ws : List Word128) (s : State), fld h 107 96 ≠ (laneOf l s).rx.next → seqFrom (fld h 107 96) (laneOf l s).rx.next = false →
    dataBlock l h ws s = count (laneCtr l 2) 1 s) ∧
  (∀ (l : Nat) (s : State), l < 128 → isTremund l s = true → (laneOf l s).state = 2 ∨ (laneOf l s).state = 3 → (laneOf l s).rx.discarding = true →
    (laneOf l s).rx.nakAt + 1000 ≤ nowNs s →
    let u := setLane l { laneOf l s with rx := { (laneOf l s).rx with nakDue := true } } s
    exec (.tmNakRepeat l) s = .next (if (laneOf l s).tx.power = 0 then sendFill l 0 u
      else if (laneOf l s).tx.power = 1 then sendIdleBlock l 2 1 u else u)) ∧
  (∀ (l : Nat) (s : State), l < 128 → isTremund l s = true → (laneOf l s).state = 3 → (laneOf l s).tx.power = 0 → (laneGroup l s).sleep = true →
    (laneOf l s).tx.queue = [] → (laneOf l s).tx.lastFrame + (laneGroup l s).dozeUs * 1000 ≤ nowNs s →
    ∃ t : State, exec (.tmDoze l) s = .next t ∧ (laneOf l t).tx.power = 1 ∧ (laneOf l t).tx.dozeAt = nowNs s ∧ (laneOf l t).state = 3) ∧
  (∀ (l : Nat) (s : State), l < 128 → isTremund l s = true → (laneOf l s).state = 3 → (laneOf l s).tx.power = 1 → (laneGroup l s).sleep = true →
    (laneGroup l s).idleMs ≠ 0 → (laneOf l s).tx.dozeAt + (laneGroup l s).idleMs * 1000000 ≤ nowNs s →
    ∃ t : State, exec (.tmIdle l) s = .next t ∧ (laneOf l t).tx.power = 2 ∧ (laneOf l t).tx.buffer = (laneOf l s).tx.buffer) ∧
  (∀ (l : Nat) (s : State), l < 128 → isTremund l s = true → (laneOf l s).state = 3 → (laneOf l s).tx.power ≠ 0 →
    (laneOf l s).tx.wakeDue = true ∨ (laneOf l s).tx.queue ≠ [] →
    ∃ t : State, exec (.tmWake l) s = .next t ∧ (laneOf l t).tx.power = 0 ∧ (laneOf l t).tx.wakeDue = false ∧ (laneOf l t).state = 3) ∧
  (∀ (l : Nat) (s : State), l < 128 → isTremund l s = true → (laneOf l s).state = 3 → (laneOf l s).tx.power = 1 →
    (laneOf l s).tx.refreshAt + 1000 ≤ nowNs s →
    ∃ t : State, exec (.tmRefresh l) s = .next t ∧ (laneOf l t).tx.refreshAt = nowNs s ∧ (laneOf l t).tx.power = 1 ∧
      (laneOf l t).tx.buffer = (laneOf l s).tx.buffer) ∧
  ∀ (p stream l : Nat) (s : State), p < 128 → stream < 1048576 → isTremund p s = true → laneForStream p stream s = some l →
    exec (.tmStreamHoldEnd p stream) s = .next (pump l s)

/-- A domain member greets its neighbours, floods its link state once, elects the best member, aligns, is checked and
joins. With the firmware running and the domain enabled. HELLO that is due on a port of the domain goes out on it and
takes the next sequence number. HELLO_RX of this domain makes the sender the port's neighbour, and one of another
domain sets the reason ID_MISMATCH. NEIGHBOUR_LOST after 300 ms removes it. LINK_STATE_SEND on a change floods this
device's. LINK_STATE of a member, newer than what is known, enters the table, and a message met before changes
nothing. MEMBER_LOST and DOM_LEAVE drop the member. ELECTION after 20 ms of an unchanged table makes the preferred
member coordinator. TIME_ALIGNED and ISOLATED_TIME bring a measured offset. COMPAT at the coordinator is answered with
JOIN; DOM_JOIN of the coordinator makes the member JOINED or refused. DOMAIN_STEP_TIMEOUT runs at the step's bound.
BODY_DOM_CFG with ENABLE and an ID starts membership, and clearing ENABLE ends it. (R417, R418, R420, R422, R423,
R424, R425, R426, R427, R428, R430) -/
def Obligations.DomainMembership : Prop :=
  (∀ (p : Nat) (s : State), p < 128 → domRuns s = true → (domPorts s).contains p = true → s.dom.helloAt.find? p = none →
    exec (.hello p) s = .next (originate 1 (leBytes 1 p ++ leBytes 1 (portWidth p s)) [p]
      { s with dom := { s.dom with helloAt := s.dom.helloAt.set p (nowNs s) } })) ∧
  (∀ (type : Nat) (pay : List Byte) (ps : List Nat) (s : State), (originate type pay ps s).dom.seq = (s.dom.seq + 1) % 2 ^ 32 ∧
    (originate type pay ps s).dom.table = s.dom.table ∧ (originate type pay ps s).dom.neighbours = s.dom.neighbours) ∧
  (∀ (p at_ : Nat) (s : State), p < 128 → s.dom.helloAt.find? p = some at_ → nowNs s < at_ + 1000000 → exec (.hello p) s = .next s) ∧
  (∀ (p : Nat) (m : List Byte) (s : State), p < 128 → domRuns s = true → 0x16 ≤ m.length → msgType m = 1 → (domPorts s).contains p = true →
    msgDomain m ≠ s.dom.domainId →
    exec (.helloRx p m) s = .next { s with dom := { s.dom with peerDomain := s.dom.peerDomain.set p (msgDomain m), reason := 1 } }) ∧
  (∀ (p : Nat) (m : List Byte) (s : State), p < 128 → domRuns s = true → 0x16 ≤ m.length → msgType m = 1 → (domPorts s).contains p = true →
    msgDomain m = s.dom.domainId →
    ∃ t : State, exec (.helloRx p m) s = .next t ∧ t.dom.neighbours = s.dom.neighbours.set p ⟨msgSerial m, msgIndex m, msgPrio m, nowNs s⟩ ∧
      t.dom.peerDomain.find? p = some (msgDomain m) ∧ t.dom.table = s.dom.table ∧ t.lanes = s.lanes ∧ t.hq = s.hq) ∧
  (∀ (p : Nat) (v : Neighbour) (s : State), p < 128 → domRuns s = true → s.dom.neighbours.find? p = some v →
    v.at_ + 300000000 ≤ nowNs s ∨ (domPorts s).contains p = false →
    ∃ t : State, exec (.neighbourLost p) s = .next t ∧ t.dom.neighbours = s.dom.neighbours.del p ∧ t.dom.dirty = true ∧
      t.dom.changed = some (nowNs s) ∧ t.dom.table = s.dom.table) ∧
  (∀ s : State, domRuns s = true → s.dom.dirty = true ∨ s.dom.sentAt + 100000000 ≤ nowNs s →
    exec .linkStateSend s = .next (originate 2 (linkStatePayload s) (floodPorts s) { s with dom := { s.dom with dirty := false, sentAt := nowNs s } })) ∧
  (∀ (p : Nat) (m : List Byte) (s : State), p < 128 → mine 2 1 m s = true → 0x15 + 8 * byteAt m 0x14 ≤ m.length →
    s.dom.seen.contains (msgSerial m, msgSeq m) = true → exec (.linkState p m) s = .next s) ∧
  (∀ (p : Nat) (m : List Byte) (s : State), p < 128 → mine 2 1 m s = true → 0x15 + 8 * byteAt m 0x14 ≤ m.length →
    s.dom.seen.contains (msgSerial m, msgSeq m) = false → s.dom.table.find? (fun e => e.serial == msgSerial m) = none →
    ∃ t : State, exec (.linkState p m) s = .next t ∧
      t.dom.table.find? (fun e => e.serial == msgSerial m) =
        some ⟨msgSerial m, msgIndex m, msgPrio m, msgSeq m, nowNs s, linkNeighbours (msgBody m)⟩ ∧
      t.dom.seen.contains (msgSerial m, msgSeq m) = true ∧ t.dom.changed = some (nowNs s)) ∧
  (∀ (n : Nat) (e : LinkEntry) (s : State), domRuns s = true → s.dom.table.find? (fun x => x.serial == n) = some e →
    e.at_ + 300000000 ≤ nowNs s ∨ laneTo n s = none → exec (.memberLost n) s = .next (dropMember n s)) ∧
  (∀ (n : Nat) (s : State), (dropMember n s).dom.table = s.dom.table.filter (fun e => e.serial != n) ∧
    (dropMember n s).dom.changed = some (nowNs s)) ∧
  (∀ (p : Nat) (m : List Byte) (s : State), p < 128 → mine 5 0 m s = true → s.dom.seen.contains (msgSerial m, msgSeq m) = false →
    ∃ t : State, exec (.domLeave p m) s = .next t ∧ t.dom.table.all (fun e => e.serial != msgSerial m) = true ∧
      t.dom.seen.contains (msgSerial m, msgSeq m) = true) ∧
  (∀ (at_ : Nat) (s : State), domRuns s = true → s.dom.step ≠ 2 → s.dom.changed = some at_ → at_ + 20000000 ≤ nowNs s →
    ∃ t : State, exec .election s = .next t ∧ t.dom.coordSerial = some (elected s) ∧ t.dom.coordIndex = (identityOf (elected s) s).1 ∧
      t.dom.changed = none ∧
      (conflicted Config.serial s = true → t.dom.state = 5 ∧ t.dom.reason = 2) ∧
      (conflicted Config.serial s = false → hopsTo (elected s) s ≤ 6 → s.dom.state ≠ 4 → elected s = Config.serial → t.dom.state = 2)) ∧
  (∀ s : State, s.dom.changed = none → exec .election s = .next s) ∧
  (∀ (ns : Int) (s : State), follows s = true → ∃ t : State, exec (.timeAligned ns) s = .next t ∧ exec (.isolatedTime ns) s = .next t ∧
    t = offsetActs (measureOffset ns s) ∧ (measureOffset ns s).dom.offset = ns ∧
    ((measureOffset ns s).dom.goodSince.isSome = true ↔ ns.natAbs ≤ 50)) ∧
  (∀ (at_ : Nat) (s : State), s.dom.state = 2 → s.dom.badSince = some at_ → at_ + 1000000000 ≤ nowNs s →
    (offsetActs s).dom.state = 4 ∧ (offsetActs s).dom.reason = 6) ∧
  (∀ (p : Nat) (m : List Byte) (s : State), p < 128 → mine 3 20 m s = true → s.dom.coordSerial = some Config.serial →
    exec (.compat p m) s = .next (noteAnswer (msgSerial m) (compatResult m s)
      (originate 4 (leBytes 6 (msgSerial m) ++ leBytes 1 (compatResult m s)) (floodPorts s) s))) ∧
  (∀ (p q c : Nat) (m : List Byte) (s : State), p < 128 → mine 3 20 m s = true → s.dom.coordSerial = some c → c ≠ Config.serial →
    laneTo c s = some q → q ≠ p → exec (.compat p m) s = .next (sendDomain m [q] s)) ∧
  (∀ (p : Nat) (m : List Byte) (s : State), p < 128 → mine 4 7 m s = true → s.dom.seen.contains (msgSerial m, msgSeq m) = false →
    s.dom.coordSerial = some (msgSerial m) → leAt m 0x14 6 = Config.serial → s.dom.state = 1 → 5 ≤ s.dom.step →
    ∃ t : State, exec (.domJoin p m) s = .next t ∧ t.dom.step = 0 ∧
      t.dom.state = (if byteAt m 0x1A = 0 then 2 else if byteAt m 0x1A = 3 ∨ byteAt m 0x1A = 5 then 3 else 5)) ∧
  (∀ s : State, domRuns s = true → s.dom.step = 2 → s.dom.stepAt + domBound s ≤ nowNs s →
    exec .domainStepTimeout s = .next { s with dom := { s.dom with step := 3, stepAt := nowNs s } }) ∧
  (∀ s : State, domRuns s = true → s.dom.step = 4 → s.dom.stepAt + domBound s ≤ nowNs s →
    ∃ t : State, exec .domainStepTimeout s = .next t ∧ t.dom.state = 4 ∧ t.dom.reason = 6 ∧ t.dom.step = 0) ∧
  (∀ s : State, s.dom.step ≠ 0 → nowNs s < s.dom.stepAt + domBound s → exec .domainStepTimeout s = .next s) ∧
  (∀ (who : Nat) (v : BitVec 64) (s : State), mayWrite who 0x2000 s → s.dom.enable = false → bitOf v 0 = true → fld v 63 32 ≠ 0 →
    ∃ t : State, exec (.domCfg who v) s = .next t ∧ t.dom.enable = true ∧ t.dom.domainId = fld v 63 32 ∧ t.dom.prio = fld v 23 16 ∧
      t.dom.index = fld v 12 8 ∧ t.dom.state = 1 ∧ t.dom.step = 2 ∧ t.dom.table = []) ∧
  (∀ (who : Nat) (v : BitVec 64) (s : State), mayWrite who 0x2000 s → s.dom.enable = false → bitOf v 0 = false ∨ fld v 63 32 = 0 →
    ∃ t : State, exec (.domCfg who v) s = .next t ∧ t.dom.enable = false ∧ t.dom.domainId = fld v 63 32 ∧ t.dom.state = s.dom.state) ∧
  ∀ (who : Nat) (v : BitVec 64) (s : State), mayWrite who 0x2000 s → s.dom.enable = true → bitOf v 0 = false →
    ∃ t : State, exec (.domCfg who v) s = .next t ∧ t.dom.enable = false ∧ t.dom.state = 0 ∧ t.dom.neighbours.cells = [] ∧ t.dom.table = []

/-- Records are read in SEQ order, written, folded and cleared; a dump is written, copied out and released. With the bit
of the recorder's table, reserved bits 0. EVR_READ writes the records from a SEQ on, or the mirror, to host memory and
counts torn ones. EVR_WRITE with a code of its requester and the right CRC-32C orders a record, unless the recorder
has failed. EVR_CLEAR with a valid token of purpose 2 clears, and otherwise is refused; after a clear of a recorder
that has not failed the CLEARED record is the only one counted. A repeat outside SERVICE is folded and takes no SEQ.
For PF0 and firmware, EVR_DUMP_COPY copies bytes of a place that is not empty or being written, and EVR_DUMP_RELEASE
empties the places it names. A write of 1 or 2 to EVR_PHASE sets the phase, and no other does. CLEAR empties the last-
gasp bank. DRAM_DUMP_DONE and FLASH_SUMMARY_DONE make the place VALID; the first starts the summary that is due.
(R433, R437, R438, R439, R441, R443, R445, R446, R452, R453, R454) -/
def Obligations.RecorderAndDumps : Prop :=
  Completes .evrRead 0xD0
    (fun r s => accHas tgRecorder 0 r.master bitRead s = true ∧ reservedZero ([(44, 0), (63, 63)], [(63, 0)], []) r = true ∧
      (bitOf r.w1 63 = true ∨ (1 ≤ fld r.w1 44 32 ∧ fld r.w1 44 32 ≤ 4096)))
    (fun r s =>
      let found : List Record := if bitOf r.w1 63 = true then (s.evr.lgMirror ++ List.replicate (16 - s.evr.lgMirror.length) ({} : Record)).take 16
        else ((heldRecords s).filter (fun x => seqAtOrAfter x.seq (fld r.w1 31 0))).take (fld r.w1 44 32)
      let torn := if bitOf r.w1 63 = true then 0 else (found.filter (fun x => !recGood x)).length
      (hostPut (fld r.w2 63 0) (found.flatMap recBytes) (if torn = 0 then s else count evrTornOff torn s),
       okWith (packNat [(8, 24, found.length), (32, 32, ((heldRecords s).getLast?.map (·.seq)).getD 0)]))) ∧
  Completes .evrRead 0xD0
    (fun r s => accHas tgRecorder 0 r.master bitRead s = true ∧ bitOf r.w1 63 = false ∧ (fld r.w1 44 32 = 0 ∨ 4096 < fld r.w1 44 32))
    (fun _ s => (s, refuse stNotStarted 0x01)) ∧
  Completes .evrWrite 0xD1
    (fun r s => accHas tgRecorder 0 r.master bitWrite s = true ∧ reservedZero ([(15, 0), (63, 32)], [(127, 0)], [(127, 0)]) r = true ∧
      (if r.fw = true then 0x8000 ≤ fld r.w1 15 0 ∧ fld r.w1 15 0 ≤ 0xBFFF else 0xC000 ≤ fld r.w1 15 0) ∧
      (crc32c (leBytes 2 (fld r.w1 15 0) ++ (leBytes 16 r.w2.toNat ++ leBytes 16 r.w3.toNat))).toNat = fld r.w1 63 32 ∧ s.evr.failed = false)
    (fun r s =>
      let w := evrWrite (fld r.w1 15 0) (if r.fw = true then 1 else 2) r.master (leBytes 16 r.w2.toNat ++ leBytes 16 r.w3.toNat) s
      (w.1, okWith (w.2.getD 0 * 256))) ∧
  Completes .evrClear 0xD2
    (fun r s => accHas tgRecorder 0 r.master bitControl s = true ∧ reservedZero ([(79, 0)], [], []) r = true)
    (fun r s =>
      let t := hostBytes (fld r.w1 63 0) (fld r.w1 79 64) s
      if tokPurpose t = 2 ∧ tokPayloadLen t = 4 ∧ tokenOk t s = true then
        if s.evr.failed = true then (s, refuse stNotStarted 0x05) else (clearRecorder (leNat (tokPayload t)) (consumeToken s), okWith 0)
      else (s, refuse stRefused 0x03)) ∧
  (∀ (reason : Nat) (s : State), s.evr.failed = false → (clearRecorder reason s).evr.n = 1 ∧ (clearRecorder reason s).evr.clearSeq = s.evr.nextSeq) ∧
  (∀ (code origin master slot : Nat) (pl : List Byte) (s : State), 256 ≤ code → s.evr.phase ≠ 1 → s.evr.last = some (slot, code, origin) →
    (evrWrite code origin master pl s).2 = none ∧ (evrWrite code origin master pl s).1.evr.nextSeq = s.evr.nextSeq ∧
    (evrWrite code origin master pl s).1.evr.n = s.evr.n) ∧
  Completes .evrDumpCopy 0xD3
    (fun r s =>
      let flash := bitOf r.w3 0
      r.owner = true ∧ reservedZero ([(63, 0)], [(63, 0)], [(0, 0)]) r = true ∧ fld r.w2 31 0 % 4096 = 0 ∧ 2 ≤ placeState flash s ∧
      fld r.w2 31 0 + fld r.w2 63 32 ≤ dumpExtent flash (if flash = true then s.dump.flashWriter else s.dump.writer))
    (fun r s =>
      (hostPut (fld r.w1 63 0) (if bitOf r.w3 0 = true then Mem.readBytes s.dump.flash (fld r.w2 31 0) (fld r.w2 63 32)
        else Mem.readBytes s.dram (dumpBase s + fld r.w2 31 0) (fld r.w2 63 32)) s, okWith 0)) ∧
  Completes .evrDumpCopy 0xD3
    (fun r s => r.owner = true ∧ fld r.w2 31 0 % 4096 = 0 ∧ placeState (bitOf r.w3 0) s = 1)
    (fun _ s => (s, refuse stNotStarted 0x06)) ∧
  CompletesSo .evrDumpRelease 0xD4
    (fun r s => r.owner = true ∧ reservedZero ([(1, 0)], [], []) r = true ∧ (bitOf r.w1 0 = true → 2 ≤ s.dump.dramState) ∧
      (bitOf r.w1 1 = true → 2 ≤ s.dump.flashState))
    (fun r s t rep => rep = okWith 0 ∧ t.dump.dramState = (if bitOf r.w1 0 = true then 0 else s.dump.dramState) ∧
      t.dump.flashState = (if bitOf r.w1 1 = true then 0 else s.dump.flashState) ∧
      (bitOf r.w1 1 = true → t.dump.flash = []) ∧ (bitOf r.w1 1 = false → t.dump.flash = s.dump.flash) ∧
      t.dram = s.dram ∧ t.hostMem = s.hostMem ∧ t.evr = s.evr ∧ t.hq = s.hq) ∧
  (∀ (who : Nat) (v : BitVec 64) (s : State), mayWrite who 0x400008 s → fld v 1 0 = 1 ∨ fld v 1 0 = 2 →
    ∃ t : State, exec (.phase who v) s = .next t ∧ t = setPhase (fld v 1 0) s ∧ t.evr.phase = fld v 1 0 ∧ t.dram = s.dram ∧ t.hq = s.hq) ∧
  (∀ (who : Nat) (v : BitVec 64) (s : State), mayWrite who 0x400008 s → fld v 1 0 = 0 ∨ fld v 1 0 = 3 → exec (.phase who v) s = .next s) ∧
  (∀ (who : Nat) (v : BitVec 64) (s : State), mayWrite who 0x400800 s →
    exec (.lastGaspClear who v) s = .next (if bitOf v 0 = true then { s with evr := { s.evr with lg := [] } } else s)) ∧
  (∀ s : State, s.dump.dramState = 1 →
    ∃ t : State, exec .dramDumpDone s = .next t ∧ t.dump.dramState = 2 ∧ t.dump.summaryDue = false ∧
      t.dump.flashState = (if s.dump.summaryDue = true then 1 else s.dump.flashState) ∧ t.hostMem = s.hostMem ∧
      (s.dump.writer = 0 → s.evr.lg ≠ [] → s.evr.mirrorBad = false → t.evr.lgMirror = s.evr.lg)) ∧
  (∀ s : State, s.dump.flashState = 1 →
    ∃ t : State, exec .flashSummaryDone s = .next t ∧ t.dump.flashState = 2 ∧ t.dump.liveSummary = false ∧ t.dram = s.dram ∧ t.hostMem = s.hostMem) ∧
  ∀ s : State, (s.dump.dramState ≠ 1 → exec .dramDumpDone s = .next s) ∧ (s.dump.flashState ≠ 1 → exec .flashSummaryDone s = .next s)

/-- A Moult is staged, applied to the inactive bank, scheduled, activated on trial, and committed or fallen back from. For
PF0 and firmware, reserved bits 0 and no activation pending or trial running where the rule asks it. UPD_STAGE keeps a
Moult that passes its checks and empties the staging area otherwise. UPD_APPLY puts the target into the inactive bank
when its hash and floor pass. UPD_SCHEDULE of a staged bank at least 1 s ahead makes the activation pending;
UPD_CANCEL before its instant removes it. UPD_COMMIT of a healthy trial commits it: the bank COMMITTED, the other
PREVIOUS, the floor raised and never lowered; TRIAL_COMMIT does so in commit mode 0. UPD_FALLBACK ends a trial at once
or at its instant. ACTIVATE_AT at the instant starts the new bank on trial or rejects it, and FALLBACK_INSTANT starts
the previous one. The whole build is one step in the model (log entry 12). (R456, R459, R460, R462, R463, R465, R466,
R468, R471) -/
def Obligations.FirmwareUpdate : Prop :=
  Completes .updStage 0xC0
    (fun r s => r.owner = true ∧ reservedZero ([(95, 0)], [], []) r = true ∧ updBusy s = false ∧ fld r.w1 95 64 ≤ 67108864 ∧ s.upd.flashBad = false)
    (fun r s =>
      let m := hostBytes (fld r.w1 63 0) (fld r.w1 95 64) s
      let u := if (inactiveBank s).state = 1 then setBank (inactive s) { inactiveBank s with state := 0, bytes := [] } s else s
      match moultCheck m u with
      | some reason => ({ u with upd := { u.upd with staging := [] } }, refuse stNotStarted reason)
      | none => ({ u with upd := { u.upd with staging := m } }, okWith 0)) ∧
  Completes .updStage 0xC0
    (fun r s => r.owner = true ∧ reservedZero ([(95, 0)], [], []) r = true ∧ updBusy s = true) (fun _ s => (s, refuse stNotStarted 0x07)) ∧
  Completes .updApply 0xC1
    (fun r s => r.owner = true ∧ reservedZero ([], [], []) r = true ∧ updBusy s = false ∧ s.upd.staging ≠ [] ∧ s.upd.flashBad = false)
    (fun _ s =>
      let bytes := (moultTarget s.upd.staging s).getD []
      let owns := (inactiveBank s).ownsCopy
      if sha384 bytes ≠ slice s.upd.staging 0x40 48 then (setBank (inactive s) { ownsCopy := owns } s, refuse stNotStarted 0x06)
      else if byteAt bytes 0xC < s.upd.floor then (setBank (inactive s) { ownsCopy := owns } s, refuse stNotStarted 0x05)
      else (setBank (inactive s) (bankWith 2 bytes owns) s, ⟨stOk, 100, 0⟩)) ∧
  Completes .updSchedule 0xC2
    (fun r s => r.owner = true ∧ reservedZero ([(63, 0)], [(32, 0)], []) r = true ∧ 10 ≤ fld r.w2 15 0 ∧
      fld r.w2 15 0 + 10 ≤ fld r.w2 31 16 ∧ s.upd.pending = false ∧ (inactiveBank s).state = 2 ∧ 1000000000 ≤ cmpDiff (fld r.w1 63 0) (cmpNow s))
    (fun r s =>
      let t := fld r.w1 63 0
      ({ s with upd := { s.upd with
          pending := true
          activateAt := t
          healthEnd := cmpAdd t (fld r.w2 15 0 * 1000000000)
          fallbackAt := cmpAdd t (fld r.w2 31 16 * 1000000000)
          commitMode := bitOf r.w2 32
          ownerFall := false } }, okWith 0)) ∧
  Completes .updCancel 0xC3
    (fun r s => r.owner = true ∧ reservedZero ([], [], []) r = true ∧ s.upd.pending = true ∧ cmpReached (cmpNow s) s.upd.activateAt = false)
    (fun _ s => ({ s with upd := { s.upd with pending := false, activateAt := 0, fallbackAt := 0, healthEnd := 0 } }, okWith 0)) ∧
  Completes .updCancel 0xC3
    (fun r s => r.owner = true ∧ reservedZero ([], [], []) r = true ∧ s.upd.pending = true ∧ cmpReached (cmpNow s) s.upd.activateAt = true)
    (fun _ s => (s, ⟨stTooLate, 0, 0⟩)) ∧
  Completes .updCommit 0xC4
    (fun r s => r.owner = true ∧ reservedZero ([], [], []) r = true ∧ trialRunning s = true ∧ fallBackDue s = false ∧ s.upd.unreadable = false ∧
      trialHealthy s = true)
    (fun _ s => (commitTrial s, okWith 0)) ∧
  Completes .updCommit 0xC4
    (fun r s => r.owner = true ∧ reservedZero ([], [], []) r = true ∧ trialRunning s = false) (fun _ s => (s, refuse stNotStarted 0x0A)) ∧
  (∀ s : State, (activeBank (commitTrial s)).state = 4 ∧ (inactiveBank (commitTrial s)).state = 6 ∧
    (commitTrial s).upd.floor = min 127 (max s.upd.floor (fwFloorStep (activeBank s))) ∧ (commitTrial s).upd.active = s.upd.active ∧
    (s.upd.floor ≤ 127 → s.upd.floor ≤ (commitTrial s).upd.floor)) ∧
  (∀ s : State, trialRunning s = true → fallBackDue s = false → s.upd.commitMode = false → s.upd.unreadable = false → trialHealthy s = true →
    exec .trialCommit s = .next (commitTrial s)) ∧
  (∀ s : State, trialRunning s = false ∨ s.upd.commitMode = true → exec .trialCommit s = .next s) ∧
  Begins .updFallback 0xC5
    (fun r s => r.owner = true ∧ reservedZero ([(63, 0)], [], []) r = true ∧ trialRunning s = true ∧ fld r.w1 63 0 = 0)
    (fun r s => fallBackNow (complete r.tk (okWith 0) { s with upd := { s.upd with ownerFall := true } })) ∧
  Completes .updFallback 0xC5
    (fun r s => r.owner = true ∧ reservedZero ([(63, 0)], [], []) r = true ∧ trialRunning s = true ∧ fld r.w1 63 0 ≠ 0)
    (fun r s => ({ s with upd := { s.upd with ownerFall := true, fallbackAt := fld r.w1 63 0 } }, okWith 0)) ∧
  (∀ s : State, s.upd.pending = true → cmpReached (cmpNow s) s.upd.activateAt = true →
    let u := warmCore 2 false { s with upd := { s.upd with pending := false } }
    exec .activateAt s = .next (match bankCheck (bankOfIdx (inactive u) u) u.upd.floor with
      | none => startTrial (activeBank u) { u with upd := { u.upd with active := inactive u } }
      | some c => rejectNew (inactive u) c u)) ∧
  (∀ (prev : Bank) (s : State), (activeBank (startTrial prev s)).state = 3 ∧ (startTrial prev s).upd.trialOver = false) ∧
  (∀ (check : Nat) (s : State), (bankOfIdx (inactive s) (rejectNew (inactive s) check s)).state = 5 ∧
    (rejectNew (inactive s) check s).upd.active = s.upd.active) ∧
  (∀ s : State, s.upd.pending = false ∨ cmpReached (cmpNow s) s.upd.activateAt = false → exec .activateAt s = .next s) ∧
  ∀ s : State, exec .fallbackInstant s = .next (if trialRunning s = true ∧ s.upd.fallbackAt ≠ 0 ∧ cmpReached (cmpNow s) s.upd.fallbackAt = true then
    fallBackNow s else s)

/-- The supply's bands, a dip and its ride-through, a power loss, heat and the Body's integrity, and the end of Safe Hold.
SUPPLY_BAND of a powered module takes the input's value and band; out of range a stay begins, and back in range before
the ride-through ends it is a dip with its fault bit. RIDE_THROUGH_END after 10 ms enters Safe Hold, cause SUPPLY.
POWER_LOSS below 33 V and FUSE_OPEN stop the module with their causes. CASE_OVER above 105 C sets its fault bit,
CASE_TEMP above 115 C enters Safe Hold, and BODY_INTEGRITY does, with their causes. A second cause adds to the first.
CBL_PWR limits an output that is on, CBL_PWR_RETRY after 100 ms keeps or ends that, and CBL_PRES_CHANGE notes a cable.
EXIT in Safe Hold, from PF0 and with every cause's condition met, ends it with a warm reset, and otherwise changes
nothing. (R473, R475, R480, R484, R485, R486, R489) -/
def Obligations.SupplyAndSafeHold : Prop :=
  (∀ cv : Nat, bandOf cv = if cv < 4000 then 1 else if cv ≤ 6000 then 0 else if cv ≤ 7500 then 2 else 3) ∧
  (∀ (cv : Nat) (s : State), s.body.powered = true → 3300 ≤ cv → bandOf cv ≠ 0 →
    ∃ t : State, exec (.supplyBand cv) s = .next t ∧ t.body.inputCv = cv ∧ t.body.band = bandOf cv ∧
      t.body.outSince = some (s.body.outSince.getD (nowNs s)) ∧ t.dram = s.dram ∧ t.hq = s.hq) ∧
  (∀ (cv : Nat) (s : State), s.body.powered = true → 3300 ≤ cv → bandOf cv = 0 →
    ∃ t : State, exec (.supplyBand cv) s = .next t ∧ t.body.inputCv = cv ∧ t.body.band = 0 ∧ t.body.outSince = none ∧
      t.body.faultDip = (s.body.faultDip || (s.body.outSince.isSome && !s.body.rideDone)) ∧ t.dram = s.dram ∧ t.hq = s.hq) ∧
  (∀ (cv : Nat) (s : State), s.body.powered = true → cv < 3300 →
    exec (.supplyBand cv) s = exec (.powerLoss cv) s ∧
    exec (.powerLoss cv) s = .next (stopPower 2 cv { s with body := { s.body with inputCv := cv } })) ∧
  (∀ s : State, s.body.powered = true → exec .fuseOpen s = .next (stopPower 3 s.body.inputCv s)) ∧
  (∀ (cause cv : Nat) (s : State), (stopPower cause cv s).body.powered = false ∧ (stopPower cause cv s).body.coldCause = cause ∧
    (stopPower cause cv s).body.booted = false ∧ (stopPower cause cv s).body.hold = false ∧ (stopPower cause cv s).dram = []) ∧
  (∀ (at_ : Nat) (s : State), s.body.powered = true → s.body.outSince = some at_ → s.body.rideDone = false → at_ + 10000000 ≤ nowNs s →
    exec .rideThroughEnd s = .next (enterSafeHold 1 { s with body := { s.body with rideDone := true } })) ∧
  (∀ s : State, s.body.outSince = none → exec .rideThroughEnd s = .next s) ∧
  (∀ (c : Int) (s : State), s.body.powered = true → 105 < c →
    ∃ t : State, exec (.caseOver c) s = .next t ∧ t.body.faultCase = true ∧ t.power.caseC = c ∧ t.body.hold = s.body.hold) ∧
  (∀ (c : Int) (s : State), s.body.powered = true → 115 < c →
    exec (.caseTemp c) s = .next (enterSafeHold 2 { s with power := { s.power with caseC := c } })) ∧
  (∀ (c : Int) (s : State), c ≤ 105 → exec (.caseOver c) s = .next s ∧ exec (.caseTemp c) s = .next s) ∧
  (∀ s : State, s.body.powered = true → exec .bodyIntegrity s = .next (enterSafeHold 4 s)) ∧
  (∀ (cause : Nat) (s : State), s.body.hold = true →
    enterSafeHold cause s = { s with body := { s.body with causes := s.body.causes ||| 2 ^ (cause - 1) } }) ∧
  (∀ (cause : Nat) (s : State), s.body.hold = false → (enterSafeHold cause s).body.hold = true ∧ (enterSafeHold cause s).body.firstCause = cause ∧
    (enterSafeHold cause s).body.causes = s.body.causes ||| 2 ^ (cause - 1)) ∧
  (∀ (n : Nat) (s : State), n < 16 → s.body.powered = true → cblOn n s = true → s.body.cblFault.testBit n = false →
    ∃ t : State, exec (.cblPwr n) s = .next t ∧ t.body.cblFault = s.body.cblFault + 2 ^ n ∧ t.body.cblTrip.find? n = some (nowNs s) ∧
      t.body.faultCbl = true) ∧
  (∀ (n : Nat) (exceeds : Bool) (s : State), n < 16 → s.body.cblFault.testBit n = true → s.body.cblTrip.get n 0 + 100000000 ≤ nowNs s →
    exec (.cblPwrRetry n exceeds) s = .next (if exceeds = true then { s with body := { s.body with cblTrip := s.body.cblTrip.set n (nowNs s) } }
      else { s with body := { s.body with cblFault := s.body.cblFault - 2 ^ n } })) ∧
  (∀ (n : Nat) (on : Bool) (s : State), n < 16 →
    ∃ t : State, exec (.cblPresChange n on) s = .next t ∧ t.body.cblPresent.testBit n = on ∧ t.body.cblEnable = s.body.cblEnable ∧ t.dram = s.dram) ∧
  (∀ s : State, mayWrite 0 0x3018 s → s.body.hold = true → exitAllowed s = true →
    let u := record 0x1003 [(1, s.body.causes)] s
    let v := loseSegments (warmReset 4 true { u with body := { u.body with hold := false, causes := 0, firstCause := 0, parkDue := false } })
    exec (.exitSafeHold 0) s = .next { v with dramStacks := v.dramStacks.mapVals (fun _ k => { k with gone := 0 }) }) ∧
  ∀ (who : Nat) (s : State), mayWrite who 0x3018 s → who ≠ 0 ∨ s.body.hold = false ∨ exitAllowed s = false → exec (.exitSafeHold who) s = .next s

/-- The state at reset; what PERST#, SERVICE_RESET# and the writes of BODY_RESET start; the cold boot and the recovery
load. At reset no command waits, memory lists nothing, no queue, identifier, counter or held low half is listed, the
recorder is in START, the lanes and the domain are OFF, life is BLANK and nothing is booted; bank A COMMITTED, the
module without power and COLD_CAUSE 1 are the model's reading of a new module (log entries 7, 46, 47). PERST#,
SERVICE_RESET# and COLD of a powered module are cold resets with their causes 4, 6 and 5: the queues, identifiers,
counters, lanes, media and domain take their reset values; the recorder's slots, the root key and the world's side
stay, and DRAM that is not kept is empty. WARM from PF0 in a booted module is a warm reset, cause 1, ignored in Safe
Hold. COLD_BOOT of a module that is not booted tries its banks: with one that passes firmware starts, else Safe Hold,
cause 5. BODY_RECOVERY acts only in that Safe Hold and from PF0: an image that passes starts a cold reset from bank A,
cause 7, and another leaves bank A REJECTED. Other writers change nothing. (R17, R155, R287, R343, R352, R405, R430,
R438, R490, R491, R492) -/
def Obligations.ResetsAndBoot : Prop :=
  (State.reset.pending = [] ∧ State.reset.memOk ∧ State.reset.dram = [] ∧ State.reset.hq.cells = [] ∧ State.reset.dsp.cores.cells = [] ∧
    State.reset.ids.cells = [] ∧ State.reset.ctr.cells = [] ∧ State.reset.lowHeld.cells = [] ∧ State.reset.evr.phase = 0 ∧
    State.reset.dom.state = 0 ∧ State.reset.dom.enable = false ∧ State.reset.keys.life = 0 ∧ State.reset.body.powered = false ∧
    State.reset.body.booted = false ∧ State.reset.body.hold = false ∧ State.reset.body.coldCause = 1 ∧ State.reset.body.quarantineMs = 2000 ∧
    (bankOfIdx 0 State.reset).state = 4 ∧ ∀ l, (laneOf l State.reset).state = 0 ∧ (laneGroup l State.reset).personality = 0) ∧
  (∀ s : State, s.body.powered = true → exec .perst s = .next (coldReset 4 true s) ∧ exec .serviceReset s = .next (coldReset 6 true s)) ∧
  (∀ s : State, s.body.powered = false → exec .perst s = .next s ∧ exec .serviceReset s = .next s) ∧
  (∀ (cause : Nat) (kept : Bool) (s : State), (coldReset cause kept s).body.coldCause = cause ∧ (coldReset cause kept s).body.booted = false ∧
    (coldReset cause kept s).body.hold = false ∧ (coldReset cause kept s).body.powered = s.body.powered ∧ (coldReset cause kept s).hq.cells = [] ∧
    (coldReset cause kept s).ids.cells = [] ∧ (coldReset cause kept s).ctr.cells = [] ∧ (coldReset cause kept s).lanes = {} ∧
    (coldReset cause kept s).video = {} ∧ (coldReset cause kept s).audio = {} ∧ (coldReset cause kept s).dom = {} ∧
    (coldReset cause kept s).pending = s.pending ∧ (coldReset cause kept s).hostMem = s.hostMem ∧ (coldReset cause kept s).evr.n = s.evr.n ∧
    (coldReset cause kept s).evr.slots = s.evr.slots ∧ (coldReset cause kept s).keys.rootKey = s.keys.rootKey ∧
    (kept = false → (coldReset cause kept s).dram = [])) ∧
  (∀ s : State, mayWrite 0 0x3020 s → s.body.powered = true → exec (.coldWrite 0) s = .next (coldReset 5 true s)) ∧
  (∀ (who : Nat) (s : State), mayWrite who 0x3020 s → who ≠ 0 → exec (.coldWrite who) s = .next s ∧ exec (.warmWrite who) s = .next s) ∧
  (∀ s : State, mayWrite 0 0x3020 s → s.body.hold = false → s.body.booted = true → exec (.warmWrite 0) s = .next (warmReset 1 false s)) ∧
  (∀ s : State, mayWrite 0 0x3020 s → s.body.hold = true → exec (.warmWrite 0) s = .next s) ∧
  (∀ (last : Nat) (h : Bool) (s : State), (warmCore last h s).body.lastWarm = last) ∧
  (∀ (badTiles badStacks : List Nat) (s : State), s.body.booted = false → s.body.hold = false →
    let r := bootBanks (bootLinks (bootSupply s))
    exec (.coldBoot badTiles badStacks) s = .next (if r.1 = true then bootFirmware badTiles badStacks r.2 else enterSafeHold 5 r.2)) ∧
  (∀ (badTiles badStacks : List Nat) (s : State), s.body.booted = true ∨ s.body.hold = true → exec (.coldBoot badTiles badStacks) s = .next s) ∧
  (∀ s : State, (bootSupply s).body.powered = true ∧ 4000 ≤ (bootSupply s).body.inputCv ∧ (bootSupply s).body.pg = true) ∧
  (∀ (who : Nat) (v : BitVec 64) (s : State), mayWrite who 0x3038 s → who ≠ 0 ∨ (takeLow 0x3030 who s).2.body.firstCause ≠ 5 →
    exec (.recoveryLoad who v) s = .next (takeLow 0x3030 who s).2) ∧
  ∀ (v : BitVec 64) (s : State), mayWrite 0 0x3038 s → (takeLow 0x3030 0 s).2.body.firstCause = 5 →
    let u := (takeLow 0x3030 0 s).2
    let bank := bankWith 2 (if fld v 63 32 ≤ 100663296 then hostBytes (takeLow 0x3030 0 s).1 (fld v 63 32) u else []) u.upd.bankA.ownsCopy
    exec (.recoveryLoad 0 v) s = .next (match bankCheck bank u.upd.floor with
      | none => coldReset 7 true (record 0x1007 [(1, 0), (1, 0)] { u with upd := { u.upd with bankA := { bank with state := 4 }, active := 0 } })
      | some c => record 0x1007 [(1, 1), (1, c)] (setBank 0 { bank with state := 5 } u))

/-- Branches, calls, loops, WAIT and HALT of a DSP core, its slots and latencies, its interrupts, faults and doorbell.
Each control row issues the running core's next instruction where that has its opcode: NOP, BR by COND, CALL with P15,
RET, RETI with STATUS from ISTAT, LOOP by COUNT, WAIT and HALT; a fifth LOOP faults. A taken branch takes three slots;
else the loop's end decides what follows. A result lands N slots on, and the later of two at one slot stays.
INTERRUPT_ENTRY lands what is in flight, saves PC and STATUS, clears IE and the lowest pending source, and goes to
instruction 4, 8 or 12. PIPE raises its source; a raised source ends a WAIT with IE 0. A doorbell pushes a word and
raises MAIL, or is dropped and counted when 4 words wait. A row whose opcode is not the next instruction's changes
nothing; an illegal next instruction faults; a fault stops the core and fences the tile. One row per opcode is the
reading of log entry 131, and latencies that R291 does not list are those of log entry 133. (R288, R290, R291, R292,
R299, R301, R302, R303, R304, R305, R307, R308) -/
def Obligations.DspControl : Prop :=
  Issues .dspNop 0x00 (fun _ _ _ _ _ => True) (fun _ _ _ c s => (s, c, .seq)) ∧
  Issues .dspBr 0x01 (fun _ _ _ _ _ => True)
    (fun _ _ w c s =>
      let x := c.pr (fld w 22 19)
      let cond := [true, x == 0, x != 0, x.msb, !x.msb, c.sat, decide (c.ovf.toNat / 256 ^ fld w 20 19 % 256 ≠ 0)].getD (fld w 25 23) false
      (s, c, if cond = true then .jump (BitVec.ofInt 14 ((c.pc.toNat : Int) + ofTwos 16 (fld w 15 0))) else .seq)) ∧
  Issues .dspCall 0x02 (fun _ _ _ _ _ => True)
    (fun _ _ w c s => (s, c.send 1 (.p 15) (c.pc + 1).toNat, .jump (BitVec.ofInt 14 ((c.pc.toNat : Int) + ofTwos 16 (fld w 15 0))))) ∧
  Issues .dspRet 0x03 (fun _ _ _ _ _ => True) (fun _ _ _ c s => (s, c, .jump (BitVec.ofNat 14 (c.pr 15).toNat))) ∧
  Issues .dspReti 0x04 (fun _ _ _ _ _ => True)
    (fun _ _ _ c s => (s, { c with
      ie := c.istat.getLsbD 0
      lsp := if c.istat.toNat / 2 % 8 ≤ 4 then c.istat.toNat / 2 % 8 else c.lsp
      sat := c.istat.getLsbD 4
      imask := BitVec.ofNat 3 (c.istat.toNat / 32) }, .jump c.ipc)) ∧
  Issues .dspLoop 0x05 (fun _ _ w c _ => (if bitOf w 25 = true then fld w 24 15 else (c.pr (fld w 24 21)).toNat) = 0)
    (fun _ _ w c s => (s, c, .skip (c.pc + BitVec.ofNat 14 (fld w 14 0) + 1))) ∧
  Issues .dspLoop 0x05 (fun _ _ w c _ => (if bitOf w 25 = true then fld w 24 15 else (c.pr (fld w 24 21)).toNat) ≠ 0 ∧ c.lsp < 4)
    (fun _ _ w c s => (s, { c with
      ls := c.ls.set c.lsp { start := c.pc + 1, end_ := c.pc + BitVec.ofNat 14 (fld w 14 0),
                             count := BitVec.ofNat 32 (if bitOf w 25 = true then fld w 24 15 else (c.pr (fld w 24 21)).toNat) }
      lsp := c.lsp + 1 }, .seq)) ∧
  Faults .dspLoop 0x05 (fun _ _ w c _ => (if bitOf w 25 = true then fld w 24 15 else (c.pr (fld w 24 21)).toNat) ≠ 0 ∧ 4 ≤ c.lsp) 0x03 ∧
  Issues .dspWait 0x06 (fun _ _ _ _ _ => True)
    (fun _ _ _ c s => (s, { c with run := if c.ipend &&& c.imask = 0 then .waiting else c.run }, .seq)) ∧
  Issues .dspHalt 0x07 (fun _ _ _ _ _ => True) (fun _ _ _ c s => (s, { c with run := .halted }, .seq)) ∧
  (∀ (pc : BitVec 14) (c : DspCore), (0 < c.lsp ∧ (c.ls.getD (c.lsp - 1) {}).end_ = pc → afterIssue pc c .seq = wakeCore (nextSlot (
      if 1 < (c.ls.getD (c.lsp - 1) {}).count.toNat then { c with
        pc := (c.ls.getD (c.lsp - 1) {}).start
        ls := c.ls.set (c.lsp - 1) { c.ls.getD (c.lsp - 1) {} with count := (c.ls.getD (c.lsp - 1) {}).count - 1 } }
      else { c with pc := pc + 1, lsp := c.lsp - 1 }))) ∧
    (¬(0 < c.lsp ∧ (c.ls.getD (c.lsp - 1) {}).end_ = pc) → afterIssue pc c .seq = wakeCore (nextSlot { c with pc := pc + 1 })) ∧
    wakeCore c = { c with run := if c.run = .waiting ∧ c.ie = false ∧ c.ipend &&& c.imask ≠ 0 then .running else c.run }) ∧
  (∀ (pc t : BitVec 14) (c : DspCore), afterIssue pc c (.jump t) = nextSlot (nextSlot (nextSlot { c with pc := t })) ∧
    afterIssue pc c (.skip t) = nextSlot { c with pc := t }) ∧
  (∀ (n v : Nat) (d : DspDest) (c : DspCore), nextSlot (c.send (n + 2) d v) = (nextSlot c).send (n + 1) d v) ∧
  (∀ (i v : Nat) (c : DspCore), i < c.p.length → (nextSlot (c.send 1 (.p i) v)).pr i = BitVec.ofNat 32 v) ∧
  (∀ (i v : Nat) (c : DspCore), i < c.v.length → (nextSlot (c.send 1 (.v i) v)).vr i = BitVec.ofNat 128 v) ∧
  (∀ (tile core : Nat) (c : DspCore) (s : State), tile < 512 → core < 4 → dspCore? tile core s = some c → dspLive tile s = true →
    c.run = .running ∨ c.run = .waiting → c.irqReady = true →
    let k := if (c.ipend &&& c.imask).getLsbD 0 = true then 0 else if (c.ipend &&& c.imask).getLsbD 1 = true then 1 else 2
    let d := slots 8 c
    exec (.interruptEntry tile core) s = .next (setDspCore tile core { d with
      ipc := d.pc
      istat := d.status
      ie := false
      run := .running
      pc := BitVec.ofNat 14 (4 + 4 * k)
      ipend := d.ipend &&& ~~~ BitVec.ofNat 3 (2 ^ k) } s)) ∧
  (∀ c : DspCore, c.irqReady = true → c.ie = true ∧ c.ipend &&& c.imask ≠ 0) ∧
  (∀ (tile core : Nat) (c : DspCore) (s : State), tile < 512 → core < 4 → dspCore? tile core s = some c → c.irqReady = false →
    exec (.interruptEntry tile core) s = .next s) ∧
  (∀ (k : Nat) (c : DspCore), (raiseSource k c).ipend = c.ipend ||| BitVec.ofNat 3 (2 ^ k) ∧
    (raiseSource k c).run = (if c.run = .waiting ∧ c.ie = false ∧ (c.ipend ||| BitVec.ofNat 3 (2 ^ k)) &&& c.imask ≠ 0 then .running else c.run)) ∧
  (∀ (tile core : Nat) (c : DspCore) (s : State), tile < 512 → core < 4 → dspCore? tile core s = some c → dspLive tile s = true →
    exec (.pipe tile core) s = .next (setDspCore tile core (raiseSource 2 c) s)) ∧
  (∀ (who tile core : Nat) (v : BitVec 64) (c : DspCore) (s : State), tile < 512 → core < 4 → who = 0 ∨ 64 ≤ who →
    mayWrite who (dspOff tile core 0x10) s → (groupOf (tile / 8) s).role = 4 → dspCore? tile core s = some c →
    exec (.tileDspDoorbell who tile core v) s = .next (setDspCore tile core (if 4 ≤ c.mail.length then { c with mailDrop := satAdd 32 c.mailDrop 1 }
      else raiseSource 1 { c with mail := c.mail ++ [BitVec.ofNat 32 v.toNat] }) s)) ∧
  (∀ row ∈ dspRows, ∀ (tile core : Nat) (c : DspCore) (s : State), tile < 512 → core < 4 → dspCore? tile core s = some c →
    dspLive tile s = true → c.run = .running → c.irqReady = false →
    (fld (c.code.get c.pc.toNat 0) 31 26 ∉ dspRows.map (·.2) → exec (row.1 tile core) s = .next (dspFault tile core 0x01 s)) ∧
    (fld (c.code.get c.pc.toNat 0) 31 26 = row.2 → dspIllegal (c.code.get c.pc.toNat 0) = true → exec (row.1 tile core) s = .next (dspFault tile core 0x01 s)) ∧
    (fld (c.code.get c.pc.toNat 0) 31 26 ∈ dspRows.map (·.2) → fld (c.code.get c.pc.toNat 0) 31 26 ≠ row.2 → exec (row.1 tile core) s = .next s)) ∧
  (∀ row ∈ dspRows, ∀ (tile core : Nat) (s : State), tile < 512 → core < 4 → dspCore? tile core s = none → exec (row.1 tile core) s = .next s) ∧
  ∀ (tile core code : Nat) (c : DspCore) (s : State), dspCore? tile core s = some c →
    dspCore? tile core (dspFault tile core code s) = some { c with run := .faulted, fault := code } ∧
    (groupOf (tile / 8) (dspFault tile core code s)).fenced.testBit (tile % 8) = true ∧ (dspFault tile core code s).hostMem = s.hostMem

/-- The moves and the pointer, vector and accumulator instructions of a DSP core. A row issues the running core's next
instruction of its opcode, with its result in flight for R291's slots. MVLS, MVSL, MVSV and MVVS move loop entries and
special registers; a push to a full mailbox holds the core. PSET, PSETH and PADD write a pointer, base or length. VALU
works lane by lane. VMAC, VMSU and VMUL add, subtract or write lane products that saturate; FTAP adds, moves and steps
two pointers, and faults outside the window. ACCRND rounds, shifts and saturates. ACCCLR, ACCSV, ACCLD and ACCCPY
clear, copy out, copy in and copy an accumulator. MVSV of a write-only register, and part 3 of ACCSV, give free values
(log entry 132). (R289, R291, R295, R296, R297, R298, R300, R301, R303, R307) -/
def Obligations.DspData : Prop :=
  Issues .mvls 0x08 (fun _ _ _ _ _ => True)
    (fun _ _ w c s =>
      let e := c.ls.getD (fld w 20 19) {}
      (s, c.send 1 (.v (fld w 25 21)) (e.start.toNat + e.end_.toNat * 2 ^ 32 + e.count.toNat * 2 ^ 64), .seq)) ∧
  Issues .mvsl 0x09 (fun _ _ _ _ _ => True)
    (fun _ _ w c s => (s, c.send 2 (.ls (fld w 20 19)) ((c.vr (fld w 25 21)).toNat % 2 ^ 96), .seq)) ∧
  Issues .mvsv 0x0A (fun _ _ w _ _ => fld w 20 16 < 9)
    (fun tile core w c s =>
      let value := [c.status.toNat, c.ovf.toNat, c.ipc.toNat, c.istat.toNat, tile + core * 512, s.audio.last.getD 0 % 2 ^ 32,
        (c.mail.headD 0).toNat, c.lsp, c.ipend.toNat].getD (fld w 20 16) 0
      (s, { c with mail := if fld w 20 16 = 6 then c.mail.drop 1 else c.mail }.send 1 (.v (fld w 25 21)) value, .seq)) ∧
  Issues .mvsv 0x0A (fun _ _ w _ _ => 9 ≤ fld w 20 16)
    (fun _ _ w c s => ((fresh s).2, c.send 1 (.v (fld w 25 21)) (Config.free (fresh s).1 % 2 ^ 32), .seq)) ∧
  Issues .mvvs 0x0B (fun _ _ w _ _ => fld w 20 16 = 1)
    (fun _ _ w c s =>
      let o := c.ovfNow &&& ~~~ BitVec.ofNat 32 (c.vr (fld w 25 21)).toNat
      (s, { c with ovfNow := o }.send 2 .ovf o.toNat, .seq)) ∧
  Issues .mvvs 0x0B (fun _ _ w _ _ => fld w 20 16 < 9 ∧ fld w 20 16 ≠ 1)
    (fun _ _ w c s => (s, c.send 2 (.special (fld w 20 16)) ((c.vr (fld w 25 21)).toNat % 2 ^ 32), .seq)) ∧
  Issues .mvvs 0x0B (fun _ core w c _ => fld w 20 16 = 9 + core ∧ c.mail.length < 4)
    (fun _ _ w c s => (s, raiseSource 1 { c with mail := c.mail ++ [BitVec.ofNat 32 (c.vr (fld w 25 21)).toNat] }, .seq)) ∧
  (∀ (tile core : Nat) (w : BitVec 32) (c d : DspCore) (s : State), dspReady 0x0B tile core w c s → 9 ≤ fld w 20 16 → fld w 20 16 ≠ 9 + core →
    dspCore? tile (fld w 20 16 - 9) s = some d → d.mail.length < 4 →
    exec (.mvvs tile core) s = .next (setDspCore tile core (afterIssue c.pc c .seq)
      (setDspCore tile (fld w 20 16 - 9) (raiseSource 1 { d with mail := d.mail ++ [BitVec.ofNat 32 (c.vr (fld w 25 21)).toNat] }) s))) ∧
  (∀ (tile core : Nat) (w : BitVec 32) (c d : DspCore) (s : State), dspReady 0x0B tile core w c s → 9 ≤ fld w 20 16 →
    dspCore? tile (fld w 20 16 - 9) s = some d → 4 ≤ d.mail.length → exec (.mvvs tile core) s = .next s) ∧
  Issues .pset 0x18 (fun _ _ _ _ _ => True) (fun _ _ w c s => (s, c.send 1 (targetOf w c).1 (fld w 15 0), .seq)) ∧
  Issues .pseth 0x19 (fun _ _ _ _ _ => True)
    (fun _ _ w c s => (s, c.send 1 (targetOf w c).1 (fld w 15 0 * 2 ^ 16 + (targetOf w c).2.toNat % 2 ^ 16), .seq)) ∧
  Issues .padd 0x1A (fun _ _ _ _ _ => True)
    (fun _ _ w c s => (s, c.send 1 (targetOf w c).1 ((targetOf w c).2 + BitVec.ofInt 32 (ofTwos 16 (fld w 15 0))).toNat, .seq)) ∧
  (∀ (w : BitVec 32) (c : DspCore), targetOf w c = if fld w 21 20 = 0 then (.p (fld w 25 22), c.pr (fld w 25 22))
    else if fld w 21 20 = 1 then (.b (fld w 25 22), c.b.getD (fld w 25 22) 0) else (.l (fld w 25 22), c.l.getD (fld w 25 22) 0)) ∧
  Issues .valu 0x20 (fun _ _ _ _ _ => True)
    (fun _ _ w c s =>
      let n := if bitOf w 6 = true then 16 else 32
      let lane := fun (i : Nat) =>
        let x := (c.vr (fld w 20 16)).toNat / 2 ^ (n * i) % 2 ^ n
        let y := (c.vr (fld w 15 11)).toNat / 2 ^ (n * i) % 2 ^ n
        let a := ofTwos n x
        let b := ofTwos n y
        ([(a + b, false), (a - b, false), satBits n (a + b), satBits n (a - b), (min a b, false), (max a b, false), (((x &&& y : Nat) : Int), false),
          (((x ||| y : Nat) : Int), false), (((x ^^^ y : Nat) : Int), false), (((x * 2 ^ fld w 5 0 : Nat) : Int), false),
          (a / (2 ^ fld w 5 0 : Nat), false), ((x : Int), false)] : List (Int × Bool)).getD (fld w 10 7) (0, false)
      let rs := (List.range (128 / n)).map lane
      let d := c.send 1 (.v (fld w 25 21)) (fromLanes n (rs.map (·.1)))
      (s, if rs.any (·.2) = true then d.send 1 .sat 1 else d, .seq)) ∧
  (∀ (w : Nat) (xs : List Int) (i : Nat), i < xs.length → fromLanes w xs / 2 ^ (w * i) % 2 ^ w = toTwos w (xs.getD i 0)) ∧
  (∀ (n : Nat) (v : Int), 1 ≤ n → -(2 ^ (n - 1) : Int) ≤ (satBits n v).1 ∧ (satBits n v).1 < (2 ^ (n - 1) : Int) ∧
    ((satBits n v).2 = false ↔ (satBits n v).1 = v)) ∧
  (∀ (mode : Nat), mode < 3 → Issues ([.vmac, .vmsu, .vmul].getD mode .vmac) (0x30 + mode) (fun _ _ _ _ _ => True)
    (fun _ _ w c s =>
      let a := fld w 25 24
      let r := macLanes mode (fld w 22 21) (bitOf w 23) (c.accNow.getD a 0) (c.vr (fld w 20 16)) (c.vr (fld w 15 11))
      (s, (c.setAcc a r.1).addFlags a r.2, .seq))) ∧
  (∀ (mode sign : Nat) (w16 : Bool) (a : BitVec 288) (x y : BitVec 128) (i : Nat), i < laneCount w16 →
    laneS (macLanes mode sign w16 a x y).1 (if w16 = true then 36 else 72) i = (satBits (if w16 = true then 36 else 72)
      (if mode = 0 then laneS a (if w16 = true then 36 else 72) i + laneProduct sign w16 x y i
       else if mode = 1 then laneS a (if w16 = true then 36 else 72) i - laneProduct sign w16 x y i else laneProduct sign w16 x y i)).1) ∧
  (∀ (a : Nat) (v : BitVec 288) (c : DspCore), (c.setAcc a v).accNow = c.accNow.set a v ∧ (c.setAcc a v).acc = c.acc ∧
    (c.setAcc a v).flight = c.flight ++ [⟨c.slot + 3, .a a, v.toNat⟩]) ∧
  Issues .ftap 0x33
    (fun _ _ w c _ => c.inWindow ((c.pr (fld w 20 17)).toNat / 16 * 16) 16 = true ∧ c.inWindow ((c.pr (fld w 16 13)).toNat / 16 * 16) 16 = true ∧
      c.inWindow ((c.modified (fld w 20 17) 16).toNat / 16 * 16) 16 = true)
    (fun tile _ w c s =>
      let a := fld w 25 24
      let pd := fld w 20 17
      let pc := fld w 16 13
      let x := (sramOf tile s).readBytes ((c.pr pd).toNat / 16 * 16) 16
      let k := (sramOf tile s).readBytes ((c.pr pc).toNat / 16 * 16) 16
      let r := macLanes 0 (fld w 22 21) (bitOf w 23) (c.accNow.getD a 0) (BitVec.ofNat 128 (leNat x)) (BitVec.ofNat 128 (leNat k))
      (setSram tile ((sramOf tile s).writeBytes ((c.modified pd 16).toNat / 16 * 16) x) s,
        (((c.setAcc a r.1).addFlags a r.2).send 1 (.p pd) (c.modified pd (-16)).toNat).send 1 (.p pc) (c.modified pc 16).toNat, .seq)) ∧
  Faults .ftap 0x33
    (fun _ _ w c _ => c.inWindow ((c.pr (fld w 20 17)).toNat / 16 * 16) 16 = false ∨ c.inWindow ((c.pr (fld w 16 13)).toNat / 16 * 16) 16 = false ∨
      c.inWindow ((c.modified (fld w 20 17) 16).toNat / 16 * 16) 16 = false) 0x02 ∧
  Issues .accrnd 0x38 (fun _ _ _ _ _ => True)
    (fun _ _ w c s =>
      let bits := [32, 24, 16].getD (fld w 18 17) 16
      let n := if bitOf w 16 = true then 36 else 72
      let sh := fld w 15 10
      let rs := (List.range (288 / n)).map (fun i =>
        satBits bits ((laneS (c.acc.getD (fld w 20 19) 0) n i + (if sh = 0 then 0 else (2 ^ (sh - 1) : Nat))) / (2 ^ sh : Nat)))
      let d := c.send 2 (.v (fld w 25 21)) (fromLanes (if bitOf w 16 = true then 16 else 32) (rs.map (·.1)))
      (s, if rs.any (·.2) = true then d.send 2 .sat 1 else d, .seq)) ∧
  Issues .accclr 0x39 (fun _ _ _ _ _ => True) (fun _ _ w c s => (s, c.setAcc (fld w 20 19) 0, .seq)) ∧
  Issues .accsv 0x3A (fun _ _ w _ _ => fld w 18 17 < 3)
    (fun _ _ w c s => (s, c.send 2 (.v (fld w 25 21)) ((c.acc.getD (fld w 20 19) 0).toNat / 2 ^ (128 * fld w 18 17) % 2 ^ 128), .seq)) ∧
  Issues .accsv 0x3A (fun _ _ w _ _ => fld w 18 17 = 3)
    (fun _ _ w c s => ((fresh s).2, c.send 2 (.v (fld w 25 21)) (Config.free (fresh s).1 % 2 ^ 128), .seq)) ∧
  (∀ (tile core : Nat) (w : BitVec 32) (c : DspCore) (s : State), dspReady 0x3B tile core w c s →
    ∃ v : BitVec 288, exec (.accld tile core) s = .next (setDspCore tile core (afterIssue c.pc (c.setAcc (fld w 20 19) v) .seq) s) ∧
      ∀ i, i < 288 → v.getLsbD i = (if i / 128 = fld w 18 17 then (c.vr (fld w 25 21)).getLsbD (i % 128) else (c.accNow.getD (fld w 20 19) 0).getLsbD i)) ∧
  Issues .acccpy 0x3C (fun _ _ _ _ _ => True) (fun _ _ w c s => (s, c.setAcc (fld w 25 24) (c.accNow.getD (fld w 20 19) 0), .seq))

/-- VLD, VST and VLDB use the address in Pn and then add the post-modify M, once corrected in a ring. For a core's next
instruction VLD, VST or VLDB: with the 16 bytes, or 4, at Pn inside the core's window (low address bits ignored) the
access reads or writes there, in issue order, and Pn receives the pointer plus M; outside the window it faults and has
no effect. The new pointer is Pn + M for P8 to P15 and for a length of 0; for P0 to P7 with a length it is a = Pn + M,
less Ln where a lies at or above Bn + Ln, else plus Ln where a lies below Bn. With |M| at most Ln and Bn <= Pn < Bn +
Ln it stays inside the buffer. The example of R294 is an instance. (R294) -/
def Obligations.DspMemoryAccesses : Prop :=
  Issues .vld 0x10 (fun _ _ w c _ => c.inWindow ((c.pr (fld w 20 17)).toNat / 16 * 16) 16 = true)
    (fun tile _ w c s => (s, (c.send 2 (.v (fld w 25 21)) (leNat ((sramOf tile s).readBytes ((c.pr (fld w 20 17)).toNat / 16 * 16) 16))).send 1
      (.p (fld w 20 17)) (c.modified (fld w 20 17) (ofTwos 16 (fld w 15 0))).toNat, .seq)) ∧
  Issues .vst 0x11 (fun _ _ w c _ => c.inWindow ((c.pr (fld w 20 17)).toNat / 16 * 16) 16 = true)
    (fun tile _ w c s => (setSram tile ((sramOf tile s).writeBytes ((c.pr (fld w 20 17)).toNat / 16 * 16) (leBytes 16 (c.vr (fld w 25 21)).toNat)) s,
      c.send 1 (.p (fld w 20 17)) (c.modified (fld w 20 17) (ofTwos 16 (fld w 15 0))).toNat, .seq)) ∧
  Issues .vldb 0x12 (fun _ _ w c _ => c.inWindow ((c.pr (fld w 20 17)).toNat / 4 * 4) 4 = true)
    (fun tile _ w c s => (s, (c.send 2 (.v (fld w 25 21))
      (leNat ((sramOf tile s).readBytes ((c.pr (fld w 20 17)).toNat / 4 * 4) 4) * (1 + 2 ^ 32 + 2 ^ 64 + 2 ^ 96))).send 1
      (.p (fld w 20 17)) (c.modified (fld w 20 17) (ofTwos 16 (fld w 15 0))).toNat, .seq)) ∧
  Faults .vld 0x10 (fun _ _ w c _ => c.inWindow ((c.pr (fld w 20 17)).toNat / 16 * 16) 16 = false) 0x02 ∧
  Faults .vst 0x11 (fun _ _ w c _ => c.inWindow ((c.pr (fld w 20 17)).toNat / 16 * 16) 16 = false) 0x02 ∧
  Faults .vldb 0x12 (fun _ _ w c _ => c.inWindow ((c.pr (fld w 20 17)).toNat / 4 * 4) 4 = false) 0x02 ∧
  (∀ (a n : Nat) (c : DspCore), c.inWindow a n = true ↔ c.base ≤ a ∧ a + n ≤ c.base + c.size) ∧
  (∀ (n : Nat) (m : Int) (c : DspCore), 8 ≤ n ∨ c.l.getD n 0 = 0 → c.modified n m = c.pr n + BitVec.ofInt 32 m) ∧
  (∀ (n : Nat) (m : Int) (c : DspCore), n < 8 → c.l.getD n 0 ≠ 0 →
    c.modified n m = BitVec.ofInt 32 (
      if ((c.b.getD n 0).toNat : Int) + (c.l.getD n 0).toNat ≤ (c.pr n).toNat + m then (c.pr n).toNat + m - (c.l.getD n 0).toNat
      else if ((c.pr n).toNat : Int) + m < (c.b.getD n 0).toNat then (c.pr n).toNat + m + (c.l.getD n 0).toNat
      else (c.pr n).toNat + m)) ∧
  (∀ (n : Nat) (m : Int) (c : DspCore), n < 8 → c.l.getD n 0 ≠ 0 → (c.b.getD n 0).toNat + (c.l.getD n 0).toNat ≤ 2 ^ 32 →
    (c.b.getD n 0).toNat ≤ (c.pr n).toNat → (c.pr n).toNat < (c.b.getD n 0).toNat + (c.l.getD n 0).toNat →
    -((c.l.getD n 0).toNat : Int) ≤ m → m ≤ (c.l.getD n 0).toNat →
    (c.b.getD n 0).toNat ≤ (c.modified n m).toNat ∧ (c.modified n m).toNat < (c.b.getD n 0).toNat + (c.l.getD n 0).toNat) ∧
  (∀ (c : DspCore), c.pr 1 = 0x32F0 → c.b.getD 1 0 = 0x3000 → c.l.getD 1 0 = 768 → c.modified 1 16 = 0x3000)

/-- Every step keeps the byte memories in their canonical form. For every state whose DRAM and host memory are lists of
cells at rising addresses, none holding the byte that an unlisted address reads as, the step of any command, whatever
waits in front, leaves both memories in that form: no read, write, scrub, dump, packet, completion or reset breaks it,
so equal memories stay equal lists and every address has one byte. The form is the model's (log entry 6); that
State.reset has it is a clause of ResetsAndBoot. (R17, R367, R380, R384) -/
def Obligations.MemoryFormKept : Prop :=
  ∀ s t : State, s.memOk → step s = .next t → t.memOk
end

