-- ==== Sys2Proof/Laws/Cipher.lean ====
section
/-! SUPPORT. Decryption undoes encryption, unwrapping undoes wrapping, and opening undoes sealing. -/

namespace Sys2Proof.Machine

/-! ## The block cipher -/

/-- Twice a byte of GF(2^8). -/
def gfT (x : Byte) : Byte := (x <<< 1) ^^^ (if x.msb then 0x1B else 0)
theorem gfT_xor (a b : Byte) : gfT (a ^^^ b) = gfT a ^^^ gfT b := by
  unfold gfT
  rw [BitVec.msb_xor]
  cases a.msb <;> cases b.msb <;> simp <;> ext i <;> simp <;>
    cases (27#8)[i] <;> cases h : (decide (i < 1)) <;> simp_all [Bool.xor_comm, Bool.xor_left_comm, Bool.xor_assoc]
theorem gfMul_one (x : Byte) : BitVec.ofNat 8 (gfMul8 x.toNat 1) = x := by revert x; decide +kernel
theorem gfMul_two (x : Byte) : BitVec.ofNat 8 (gfMul8 x.toNat 2) = gfT x := by revert x; decide +kernel
theorem gfMul_three (x : Byte) : BitVec.ofNat 8 (gfMul8 x.toNat 3) = gfT x ^^^ x := by revert x; decide +kernel
theorem gfMul_nine (x : Byte) : BitVec.ofNat 8 (gfMul8 x.toNat 9) = gfT (gfT (gfT x)) ^^^ x := by revert x; decide +kernel
theorem gfMul_eleven (x : Byte) : BitVec.ofNat 8 (gfMul8 x.toNat 11) = gfT (gfT (gfT x)) ^^^ (gfT x ^^^ x) := by revert x; decide +kernel
theorem gfMul_thirteen (x : Byte) : BitVec.ofNat 8 (gfMul8 x.toNat 13) = gfT (gfT (gfT x)) ^^^ (gfT (gfT x) ^^^ x) := by revert x; decide +kernel
theorem gfMul_fourteen (x : Byte) : BitVec.ofNat 8 (gfMul8 x.toNat 14) = gfT (gfT (gfT x)) ^^^ (gfT (gfT x) ^^^ gfT x) := by revert x; decide +kernel
theorem sbox_inverse (x : Byte) : BitVec.ofNat 8 (sboxInverse.getD (BitVec.ofNat 8 (sboxTable.getD x.toNat 0)).toNat 0) = x := by
  revert x; decide +kernel

theorem ofNat_fold (a b c d : Nat) : BitVec.ofNat 8 ([a, b, c, d].foldl (· ^^^ ·) 0) =
    BitVec.ofNat 8 a ^^^ (BitVec.ofNat 8 b ^^^ (BitVec.ofNat 8 c ^^^ BitVec.ofNat 8 d)) := by
  simp [BitVec.ofNat_xor, BitVec.xor_assoc]

/-- A byte of a column times the matrix. -/
def gfCell (m0 m1 m2 m3 : Nat) (a b c d : Byte) : Byte :=
  BitVec.ofNat 8 (gfMul8 a.toNat m0) ^^^ (BitVec.ofNat 8 (gfMul8 b.toNat m1) ^^^ (BitVec.ofNat 8 (gfMul8 c.toNat m2) ^^^ BitVec.ofNat 8 (gfMul8 d.toNat m3)))
def gfColumn (m0 m1 m2 m3 : Nat) (a b c d : Byte) : List Byte :=
  [gfCell m0 m1 m2 m3 a b c d, gfCell m3 m0 m1 m2 a b c d, gfCell m2 m3 m0 m1 a b c d, gfCell m1 m2 m3 m0 a b c d]

theorem mixColumns_eq (m0 m1 m2 m3 : Nat) (x0 x1 x2 x3 x4 x5 x6 x7 x8 x9 xa xb xc xd xe xf : Byte) :
    mixColumns [m0, m1, m2, m3] [x0, x1, x2, x3, x4, x5, x6, x7, x8, x9, xa, xb, xc, xd, xe, xf] =
      gfColumn m0 m1 m2 m3 x0 x1 x2 x3 ++ gfColumn m0 m1 m2 m3 x4 x5 x6 x7 ++ gfColumn m0 m1 m2 m3 x8 x9 xa xb ++
        gfColumn m0 m1 m2 m3 xc xd xe xf := by
  simp only [gfColumn, gfCell, ← ofNat_fold] <;> rfl

theorem xor_again (a b : Byte) : a ^^^ (a ^^^ b) = b := by rw [← BitVec.xor_assoc]; simp
theorem xor_comm' (a b : Byte) : a ^^^ b = b ^^^ a := BitVec.xor_comm a b
theorem xor_left (a b c : Byte) : a ^^^ (b ^^^ c) = b ^^^ (a ^^^ c) := by
  rw [← BitVec.xor_assoc, BitVec.xor_comm a b, BitVec.xor_assoc]

theorem gfCell_first (a b c d : Byte) :
    gfCell 14 11 13 9 (gfCell 2 3 1 1 a b c d) (gfCell 1 2 3 1 a b c d) (gfCell 1 1 2 3 a b c d) (gfCell 3 1 1 2 a b c d) = a := by
  simp only [gfCell, gfMul_one, gfMul_two, gfMul_three, gfMul_nine, gfMul_eleven, gfMul_thirteen, gfMul_fourteen, gfT_xor]
  generalize gfT (gfT (gfT (gfT a))) = a4, gfT (gfT (gfT a)) = a3, gfT (gfT a) = a2, gfT a = a1
  generalize gfT (gfT (gfT (gfT b))) = b4, gfT (gfT (gfT b)) = b3, gfT (gfT b) = b2, gfT b = b1
  generalize gfT (gfT (gfT (gfT c))) = c4, gfT (gfT (gfT c)) = c3, gfT (gfT c) = c2, gfT c = c1
  generalize gfT (gfT (gfT (gfT d))) = d4, gfT (gfT (gfT d)) = d3, gfT (gfT d) = d2, gfT d = d1
  simp only [BitVec.xor_assoc, xor_comm', xor_left, xor_again, BitVec.xor_self, BitVec.xor_zero]
theorem gfCell_second (a b c d : Byte) :
    gfCell 9 14 11 13 (gfCell 2 3 1 1 a b c d) (gfCell 1 2 3 1 a b c d) (gfCell 1 1 2 3 a b c d) (gfCell 3 1 1 2 a b c d) = b := by
  simp only [gfCell, gfMul_one, gfMul_two, gfMul_three, gfMul_nine, gfMul_eleven, gfMul_thirteen, gfMul_fourteen, gfT_xor]
  generalize gfT (gfT (gfT (gfT a))) = a4, gfT (gfT (gfT a)) = a3, gfT (gfT a) = a2, gfT a = a1
  generalize gfT (gfT (gfT (gfT b))) = b4, gfT (gfT (gfT b)) = b3, gfT (gfT b) = b2, gfT b = b1
  generalize gfT (gfT (gfT (gfT c))) = c4, gfT (gfT (gfT c)) = c3, gfT (gfT c) = c2, gfT c = c1
  generalize gfT (gfT (gfT (gfT d))) = d4, gfT (gfT (gfT d)) = d3, gfT (gfT d) = d2, gfT d = d1
  simp only [BitVec.xor_assoc, xor_comm', xor_left, xor_again, BitVec.xor_self, BitVec.xor_zero]
theorem gfCell_third (a b c d : Byte) :
    gfCell 13 9 14 11 (gfCell 2 3 1 1 a b c d) (gfCell 1 2 3 1 a b c d) (gfCell 1 1 2 3 a b c d) (gfCell 3 1 1 2 a b c d) = c := by
  simp only [gfCell, gfMul_one, gfMul_two, gfMul_three, gfMul_nine, gfMul_eleven, gfMul_thirteen, gfMul_fourteen, gfT_xor]
  generalize gfT (gfT (gfT (gfT a))) = a4, gfT (gfT (gfT a)) = a3, gfT (gfT a) = a2, gfT a = a1
  generalize gfT (gfT (gfT (gfT b))) = b4, gfT (gfT (gfT b)) = b3, gfT (gfT b) = b2, gfT b = b1
  generalize gfT (gfT (gfT (gfT c))) = c4, gfT (gfT (gfT c)) = c3, gfT (gfT c) = c2, gfT c = c1
  generalize gfT (gfT (gfT (gfT d))) = d4, gfT (gfT (gfT d)) = d3, gfT (gfT d) = d2, gfT d = d1
  simp only [BitVec.xor_assoc, xor_comm', xor_left, xor_again, BitVec.xor_self, BitVec.xor_zero]
theorem gfCell_fourth (a b c d : Byte) :
    gfCell 11 13 9 14 (gfCell 2 3 1 1 a b c d) (gfCell 1 2 3 1 a b c d) (gfCell 1 1 2 3 a b c d) (gfCell 3 1 1 2 a b c d) = d := by
  simp only [gfCell, gfMul_one, gfMul_two, gfMul_three, gfMul_nine, gfMul_eleven, gfMul_thirteen, gfMul_fourteen, gfT_xor]
  generalize gfT (gfT (gfT (gfT a))) = a4, gfT (gfT (gfT a)) = a3, gfT (gfT a) = a2, gfT a = a1
  generalize gfT (gfT (gfT (gfT b))) = b4, gfT (gfT (gfT b)) = b3, gfT (gfT b) = b2, gfT b = b1
  generalize gfT (gfT (gfT (gfT c))) = c4, gfT (gfT (gfT c)) = c3, gfT (gfT c) = c2, gfT c = c1
  generalize gfT (gfT (gfT (gfT d))) = d4, gfT (gfT (gfT d)) = d3, gfT (gfT d) = d2, gfT d = d1
  simp only [BitVec.xor_assoc, xor_comm', xor_left, xor_again, BitVec.xor_self, BitVec.xor_zero]
theorem mixColumns_inverse : ∀ s : List Byte, s.length = 16 → mixColumns [14, 11, 13, 9] (mixColumns [2, 3, 1, 1] s) = s
  | [x0, x1, x2, x3, x4, x5, x6, x7, x8, x9, xa, xb, xc, xd, xe, xf], _ => by
    rw [mixColumns_eq]
    simp only [gfColumn, List.cons_append, List.nil_append, mixColumns_eq]
    simp only [gfCell_first, gfCell_second, gfCell_third, gfCell_fourth, List.cons_append, List.nil_append]
theorem shiftRows_inverse : ∀ s : List Byte, s.length = 16 → shiftRows 3 (shiftRows 1 s) = s
  | [x0, x1, x2, x3, x4, x5, x6, x7, x8, x9, xa, xb, xc, xd, xe, xf], _ => rfl
theorem subBytes_inverse (s : List Byte) : subBytes sboxInverse (subBytes sboxTable s) = s := by
  simp only [subBytes, List.map_map]
  conv => rhs; rw [← List.map_id s]
  exact List.map_congr_left fun x _ => sbox_inverse x
theorem xorBytes_inverse (k : List Byte) : ∀ a : List Byte, a.length ≤ k.length → xorBytes (xorBytes a k) k = a := by
  induction k with
  | nil => intro a h; cases a <;> simp_all [xorBytes]
  | cons x k ih =>
    intro a h
    cases a with
    | nil => rfl
    | cons y a =>
      have := ih a (by simpa using h)
      simp only [xorBytes, List.zipWith_cons_cons] at *
      rw [this]; congr 1; rw [BitVec.xor_assoc]; simp
theorem mixColumns_length (m : List Nat) (s : List Byte) : (mixColumns m s).length = 16 := by simp [mixColumns]
theorem shiftRows_length (k : Nat) (s : List Byte) : (shiftRows k s).length = 16 := by simp [shiftRows]
theorem subBytes_length (t : List Nat) (s : List Byte) : (subBytes t s).length = s.length := by simp [subBytes]
theorem xorBytes_length (a b : List Byte) : (xorBytes a b).length = min a.length b.length := by simp [xorBytes]

theorem aesRounds_inverse (ks : List (List Byte)) (hk : ∀ k ∈ ks, k.length = 16) (hn : ks ≠ []) :
    ∀ (s : List Byte) (pre : List (List Byte)), s.length = 16 → pre ≠ [] →
      aesUnrounds (ks.dropLast.reverse ++ pre) (xorBytes (aesRounds ks s) (ks.getLast hn)) = aesUnrounds pre (shiftRows 1 (subBytes sboxTable s)) := by
  induction ks with
  | nil => exact absurd rfl hn
  | cons k ks ih =>
    intro s pre hs hp
    have hk0 := hk k (by simp)
    by_cases hne : ks = []
    · subst hne
      simp only [aesRounds, List.dropLast_singleton, List.reverse_nil, List.nil_append, List.getLast_singleton]
      rw [xorBytes_inverse _ _ (by rw [shiftRows_length, hk0] <;> exact Nat.le_refl _)]
    · have hr : aesRounds (k :: ks) s = aesRounds ks (xorBytes (mixColumns [2, 3, 1, 1] (shiftRows 1 (subBytes sboxTable s))) k) := by
        cases ks with
        | nil => exact absurd rfl hne
        | cons => rfl
      have hd : (k :: ks).dropLast.reverse ++ pre = ks.dropLast.reverse ++ (k :: pre) := by
        rw [List.dropLast_cons_of_ne_nil hne]; simp
      have hl : (k :: ks).getLast (List.cons_ne_nil _ _) = ks.getLast hne := List.getLast_cons hne
      rw [hr, hd]
      have hx : (xorBytes (mixColumns [2, 3, 1, 1] (shiftRows 1 (subBytes sboxTable s))) k).length = 16 := by
        rw [xorBytes_length, mixColumns_length, hk0] <;> rfl
      have := ih (fun k h => hk k (by simp [h])) hne _ (k :: pre) hx (List.cons_ne_nil _ _)
      rw [hl, this]
      cases pre with
      | nil => exact absurd rfl hp
      | cons p pre =>
        simp only [aesUnrounds]
        rw [shiftRows_inverse _ (by rw [subBytes_length, hx]), subBytes_inverse, xorBytes_inverse _ _ (by rw [mixColumns_length, hk0] <;> exact Nat.le_refl _),
          mixColumns_inverse _ (shiftRows_length _ _)]

/-- Decryption undoes encryption. -/
theorem aesUnblock_aesWith {rk : List (List Byte)} {b : List Byte} (hk : ∀ k ∈ rk, k.length = 16) (hn : 2 ≤ rk.length) (hb : b.length = 16) :
    aesUnblock rk (aesWith rk b) = b := by
  match rk, hk, hn with
  | k0 :: k1 :: ks, hk, _ =>
    have h0 := hk k0 (by simp)
    have hx : (xorBytes b k0).length = 16 := by rw [xorBytes_length, hb, h0] <;> rfl
    have h := aesRounds_inverse (k1 :: ks) (fun k h => hk k (by simp [h])) (List.cons_ne_nil _ _) (xorBytes b k0) [k0] hx (List.cons_ne_nil _ _)
    have hr : (k0 :: k1 :: ks).reverse = (k1 :: ks).getLast (List.cons_ne_nil _ _) :: ((k1 :: ks).dropLast.reverse ++ [k0]) := by
      conv => lhs; rw [← List.dropLast_concat_getLast (l := k1 :: ks) (List.cons_ne_nil _ _)]
      simp
    simp only [aesUnblock, aesWith, hr, List.tail_cons, List.headD_cons]
    rw [h]
    simp only [aesUnrounds]
    rw [shiftRows_inverse _ (by rw [subBytes_length, hx]), subBytes_inverse, xorBytes_inverse _ _ (by rw [hb, h0] <;> exact Nat.le_refl _)]
theorem aesRounds_length : ∀ (ks : List (List Byte)) (s : List Byte), (∀ k ∈ ks, k.length = 16) → s.length = 16 → (aesRounds ks s).length = 16
  | [], s, _, hs => hs
  | [k], s, hk, hs => by simp [aesRounds, xorBytes_length, shiftRows_length, hk k]
  | k :: k2 :: ks, s, hk, hs => by
    simp only [aesRounds]
    exact aesRounds_length (k2 :: ks) _ (fun x h => hk x (by simp at h ⊢; right; exact h)) (by rw [xorBytes_length, mixColumns_length, hk k (by simp)] <;> rfl)
theorem aesWith_length {rk : List (List Byte)} {b : List Byte} (hk : ∀ k ∈ rk, k.length = 16) (hn : rk ≠ []) (hb : b.length = 16) :
    (aesWith rk b).length = 16 := by
  match rk, hk, hn with
  | k0 :: ks, hk, _ =>
    exact aesRounds_length ks _ (fun k h => hk k (by simp [h])) (by simp [xorBytes_length, hb, hk k0])

/-! ## Numbers and bytes -/

theorem getD_of_lt {α : Type} (l : List α) (d : α) {i : Nat} (h : i < l.length) : l.getD i d = l[i] := by simp [List.getD, h]
theorem leBytes_length (n v : Nat) : (leBytes n v).length = n := by
  induction n generalizing v with
  | zero => rfl
  | succ n ih => simp [leBytes, ih]
theorem beBytes_length (n v : Nat) : (beBytes n v).length = n := by simp [beBytes, leBytes_length]
theorem beNat_reverse (bs : List Byte) : beNat bs.reverse = leNat bs := by
  induction bs with
  | nil => rfl
  | cons b bs ih =>
    simp only [beNat, List.reverse_cons, List.foldl_append, List.foldl_cons, List.foldl_nil, leNat]
    have : List.foldl (fun a (b : Byte) => a * 256 + b.toNat) 0 bs.reverse = leNat bs := ih
    rw [this]; omega
theorem leNat_lt (bs : List Byte) : leNat bs < 256 ^ bs.length := by
  induction bs with
  | nil => simp [leNat]
  | cons b bs ih => have := b.isLt; simp only [leNat, List.length_cons, Nat.pow_succ]; omega
theorem beNat_lt (bs : List Byte) : beNat bs < 256 ^ bs.length := by
  have := beNat_reverse bs.reverse
  rw [List.reverse_reverse] at this
  rw [this]; simpa using leNat_lt bs.reverse
theorem leNat_leBytes (n : Nat) : ∀ v, v < 256 ^ n → leNat (leBytes n v) = v := by
  induction n with
  | zero => intro v h; simp [leBytes, leNat] at *; omega
  | succ n ih =>
    intro v h
    have h1 : v / 256 < 256 ^ n := by rw [Nat.pow_succ] at h; omega
    simp only [leBytes, leNat, ih _ h1, BitVec.toNat_ofNat]
    omega
theorem leBytes_leNat (bs : List Byte) : leBytes bs.length (leNat bs) = bs := by
  induction bs with
  | nil => rfl
  | cons b bs ih =>
    have hb := b.isLt
    have h1 : (b.toNat + 256 * leNat bs) / 256 = leNat bs := by omega
    have h2 : BitVec.ofNat 8 (b.toNat + 256 * leNat bs) = b := by
      apply BitVec.eq_of_toNat_eq; rw [BitVec.toNat_ofNat]; omega
    simp only [leNat, List.length_cons, leBytes, h1, h2, ih]
theorem beNat_beBytes (n v : Nat) (h : v < 256 ^ n) : beNat (beBytes n v) = v := by
  rw [beBytes, beNat_reverse, leNat_leBytes n v h]
theorem beBytes_beNat (bs : List Byte) : beBytes bs.length (beNat bs) = bs := by
  have h := beNat_reverse bs.reverse
  rw [List.reverse_reverse] at h
  have h2 := leBytes_leNat bs.reverse
  rw [List.length_reverse] at h2
  rw [beBytes, h, h2, List.reverse_reverse]

/-! ## Key wrap with padding -/

/-- One step of wrapping: the integrity register, the semiblocks, the step's number from 0. -/
def wrapStep (rk : List (List Byte)) (n t : Nat) (x : Nat × List (List Byte)) : Nat × List (List Byte) :=
  let b := aesWith rk (beBytes 8 x.1 ++ x.2.getD (t % n) [])
  (beNat (b.take 8) ^^^ (t + 1), x.2.set (t % n) (b.drop 8))
def wrapSteps (rk : List (List Byte)) (n : Nat) : Nat → Nat × List (List Byte) → Nat × List (List Byte)
  | 0, x => x
  | t + 1, x => wrapStep rk n t (wrapSteps rk n t x)
/-- RFC 5649 wrap of a text of whole semiblocks. -/
def keyWrap (key text : List Byte) : List Byte :=
  let n := text.length / 8
  let r := wrapSteps (roundKeys key) n (6 * n) (0xA65959A6 * 2 ^ 32 + text.length, byteBlocks 8 text)
  beBytes 8 r.1 ++ r.2.flatMap id

/-- What wrapping keeps: a register of 64 bits and n semiblocks of 8 bytes. -/
def wrapFine (n : Nat) (x : Nat × List (List Byte)) : Prop := x.1 < 2 ^ 64 ∧ x.2.length = n ∧ ∀ r ∈ x.2, r.length = 8

theorem wrapStep_block {rk : List (List Byte)} {n t : Nat} {x : Nat × List (List Byte)} (hk : ∀ k ∈ rk, k.length = 16) (hr : 2 ≤ rk.length) (hn : 0 < n)
    (hx : wrapFine n x) : (beBytes 8 x.1 ++ x.2.getD (t % n) []).length = 16 ∧
    (aesWith rk (beBytes 8 x.1 ++ x.2.getD (t % n) [])).length = 16 := by
  have hi : t % n < x.2.length := by rw [hx.2.1]; exact Nat.mod_lt _ hn
  have h : (beBytes 8 x.1 ++ x.2.getD (t % n) []).length = 16 := by
    rw [getD_of_lt _ _ hi, List.length_append, beBytes_length, hx.2.2 _ (List.getElem_mem hi)]
  exact ⟨h, aesWith_length hk (by intro h; simp [h] at hr) h⟩
theorem wrapStep_fine {rk : List (List Byte)} {n t : Nat} {x : Nat × List (List Byte)} (hk : ∀ k ∈ rk, k.length = 16) (hr : 2 ≤ rk.length) (hn : 0 < n)
    (ht : t + 1 < 2 ^ 64) (hx : wrapFine n x) : wrapFine n (wrapStep rk n t x) := by
  have hb := (wrapStep_block (t := t) hk hr hn hx).2
  refine ⟨?_, by simp [wrapStep, hx.2.1], ?_⟩
  · refine Nat.xor_lt_two_pow ?_ ht
    have := beNat_lt ((aesWith rk (beBytes 8 x.1 ++ x.2.getD (t % n) [])).take 8)
    rwa [List.length_take, hb] at this
  · intro r h
    rcases List.mem_or_eq_of_mem_set h with h | h
    · exact hx.2.2 r h
    · rw [h, List.length_drop, hb]
theorem wrapSteps_fine {rk : List (List Byte)} {n : Nat} {x : Nat × List (List Byte)} (hk : ∀ k ∈ rk, k.length = 16) (hr : 2 ≤ rk.length) (hn : 0 < n)
    (hx : wrapFine n x) : ∀ t, t < 2 ^ 64 → wrapFine n (wrapSteps rk n t x)
  | 0, _ => hx
  | t + 1, h => wrapStep_fine hk hr hn h (wrapSteps_fine hk hr hn hx t (by omega))

theorem unwrapSteps_wrapSteps {rk : List (List Byte)} {n : Nat} {x : Nat × List (List Byte)} (hk : ∀ k ∈ rk, k.length = 16) (hr : 2 ≤ rk.length)
    (hn : 0 < n) (hx : wrapFine n x) : ∀ t, t < 2 ^ 64 → unwrapSteps rk n t (wrapSteps rk n t x) = x
  | 0, _ => rfl
  | t + 1, h => by
    have hy := wrapSteps_fine hk hr hn hx t (by omega)
    have ih := unwrapSteps_wrapSteps hk hr hn hx t (by omega)
    revert hy ih
    simp only [wrapSteps]
    generalize wrapSteps rk n t x = y
    intro hy ih
    obtain ⟨hl, hb⟩ := wrapStep_block (t := t) hk hr hn hy
    have hi : t % n < y.2.length := by rw [hy.2.1]; exact Nat.mod_lt _ hn
    simp only [wrapStep, unwrapSteps]
    generalize hB : aesWith rk (beBytes 8 y.1 ++ y.2.getD (t % n) []) = B at *
    have h1 : beBytes 8 (beNat (B.take 8) ^^^ (t + 1) ^^^ (t + 1)) ++ (y.2.set (t % n) (B.drop 8)).getD (t % n) [] = B := by
      have h8 : (B.take 8).length = 8 := by rw [List.length_take, hb] <;> rfl
      have := beBytes_beNat (B.take 8)
      rw [h8] at this
      rw [Nat.xor_assoc, Nat.xor_self, Nat.xor_zero, this, getD_of_lt _ _ (by simpa using hi), List.getElem_set_self, List.take_append_drop]
    rw [h1, ← hB, aesUnblock_aesWith hk hr hl]
    have h2 : (beBytes 8 y.1 ++ y.2.getD (t % n) []).take 8 = beBytes 8 y.1 := by
      rw [List.take_append_of_le_length (by rw [beBytes_length] <;> exact Nat.le_refl _), List.take_of_length_le (by rw [beBytes_length] <;> exact Nat.le_refl _)]
    have h3 : (beBytes 8 y.1 ++ y.2.getD (t % n) []).drop 8 = y.2.getD (t % n) [] := by
      rw [List.drop_append_of_le_length (by rw [beBytes_length] <;> exact Nat.le_refl _), List.drop_of_length_le (by rw [beBytes_length] <;> exact Nat.le_refl _)]
      rfl
    rw [h2, h3, beNat_beBytes 8 y.1 hy.1, List.set_set, getD_of_lt _ _ hi, List.set_getElem_self]
    exact ih

theorem drop_flatMap (n : Nat) : ∀ (i : Nat) (rs : List (List Byte)), (∀ r ∈ rs, r.length = n) → (rs.flatMap id).drop (n * i) = (rs.drop i).flatMap id
  | 0, rs, _ => by simp
  | i + 1, [], _ => by simp
  | i + 1, r :: rs, h => by
    have hr := h r (by simp)
    have := drop_flatMap n i rs (fun x hx => h x (by simp [hx]))
    simp only [List.flatMap_cons, id, List.drop_succ_cons, ← this]
    have hm : n ≤ n * (i + 1) := by rw [Nat.mul_succ]; exact Nat.le_add_left _ _
    have hs : n * (i + 1) - n = n * i := by rw [Nat.mul_succ]; exact Nat.add_sub_cancel _ _
    rw [List.drop_append, List.drop_of_length_le (by omega), List.nil_append, hr, hs]
theorem flatMap_length (n : Nat) : ∀ rs : List (List Byte), (∀ r ∈ rs, r.length = n) → (rs.flatMap id).length = n * rs.length
  | [], _ => rfl
  | r :: rs, h => by
    have := flatMap_length n rs (fun x hx => h x (by simp [hx]))
    have hr := h r (by simp)
    simp only [List.flatMap_cons, id, List.length_append, this, hr, List.length_cons, Nat.mul_succ]; omega
/-- Blocks joined and cut again. -/
theorem byteBlocks_flatMap {n : Nat} (hn : 0 < n) {rs : List (List Byte)} (h : ∀ r ∈ rs, r.length = n) : byteBlocks n (rs.flatMap id) = rs := by
  have hl := flatMap_length n rs h
  have hc : ceilDiv (rs.flatMap id).length n = rs.length := by
    rw [hl, ceilDiv]
    rw [Nat.div_eq_of_lt_le] <;> rw [Nat.mul_comm n] <;> first | (rw [Nat.succ_mul]; omega) | omega
  apply List.ext_getElem
  · simp only [byteBlocks, List.length_map, List.length_range, hc]
  · intro i h1 h2
    simp only [byteBlocks, List.getElem_map, List.getElem_range, slice]
    rw [drop_flatMap n i rs h, List.drop_eq_getElem_cons h2]
    simp only [List.flatMap_cons, id]
    have := h _ (List.getElem_mem h2)
    rw [List.take_append_of_le_length (by omega), List.take_of_length_le (by omega)]
/-- Cut and joined again. -/
theorem flatMap_byteBlocks (n : Nat) : ∀ (m : Nat) (bs : List Byte), bs.length = n * m →
    ((List.range m).map (fun i => slice bs (n * i) n)).flatMap id = bs
  | 0, bs, h => by rw [Nat.mul_zero] at h; rw [List.eq_nil_of_length_eq_zero h] <;> rfl
  | m + 1, bs, h => by
    have h1 : (bs.drop n).length = n * m := by rw [List.length_drop, h, Nat.mul_succ]; omega
    have ih := flatMap_byteBlocks n m (bs.drop n) h1
    rw [List.range_succ_eq_map, List.map_cons, List.flatMap_cons, List.map_map]
    have : (List.map ((fun i => slice bs (n * i) n) ∘ Nat.succ) (List.range m)) = (List.range m).map (fun i => slice (bs.drop n) (n * i) n) := by
      apply List.map_congr_left
      intro i _
      simp only [Function.comp, slice, List.drop_drop]; congr 2; rw [Nat.succ_eq_add_one, Nat.mul_succ]; omega
    rw [this, ih]; simp [slice]

theorem byteBlocks_eq {text : List Byte} {m : Nat} (hm : text.length = 8 * m) :
    byteBlocks 8 text = (List.range m).map (fun i => slice text (8 * i) 8) := by
  unfold byteBlocks; congr 2; rw [hm, ceilDiv]; omega
theorem wrapFine_start {text : List Byte} {m : Nat} (hm : text.length = 8 * m) (hs : m < 2 ^ 16) :
    wrapFine m (0xA65959A6 * 2 ^ 32 + text.length, byteBlocks 8 text) := by
  refine ⟨by simp only; omega, by rw [byteBlocks_eq hm]; simp, ?_⟩
  intro r h
  rw [byteBlocks_eq hm] at h
  obtain ⟨i, hi, rfl⟩ := List.mem_map.mp h
  have := List.mem_range.mp hi
  simp only [slice, List.length_take, List.length_drop, hm]; omega
theorem keyWrap_length {key text : List Byte} {m : Nat} (hk : ∀ k ∈ roundKeys key, k.length = 16) (hr : 2 ≤ (roundKeys key).length)
    (hm : text.length = 8 * m) (h2 : 2 ≤ m) (hs : m < 2 ^ 16) : (keyWrap key text).length = 8 * m + 8 := by
  have hy := wrapSteps_fine hk hr (by omega) (wrapFine_start hm hs) (6 * m) (by omega)
  have hd : text.length / 8 = m := by omega
  simp only [keyWrap, hd]
  rw [List.length_append, beBytes_length, flatMap_length 8 _ hy.2.2, hy.2.1]; omega

/-- Unwrapping undoes wrapping. -/
theorem keyUnwrap_keyWrap {key text : List Byte} {m : Nat} (hk : ∀ k ∈ roundKeys key, k.length = 16) (hr : 2 ≤ (roundKeys key).length)
    (hm : text.length = 8 * m) (h2 : 2 ≤ m) (hs : m < 2 ^ 16) : keyUnwrap key (keyWrap key text) = some text := by
  have hx := wrapFine_start hm hs
  have hy := wrapSteps_fine hk hr (by omega) hx (6 * m) (by omega)
  have hu := unwrapSteps_wrapSteps hk hr (by omega) hx (6 * m) (by omega)
  have hd : text.length / 8 = m := by omega
  simp only [keyWrap, keyUnwrap, hd]
  revert hy hu
  generalize wrapSteps (roundKeys key) m (6 * m) (0xA65959A6 * 2 ^ 32 + text.length, byteBlocks 8 text) = y
  intro hy hu
  have hf := flatMap_length 8 y.2 hy.2.2
  have hl : (beBytes 8 y.1 ++ y.2.flatMap id).length = 8 * m + 8 := by rw [List.length_append, beBytes_length, hf, hy.2.1]; omega
  have h8 : (beBytes 8 y.1).length = 8 := beBytes_length 8 _
  have e1 : (beBytes 8 y.1 ++ y.2.flatMap id).drop 8 = y.2.flatMap id := by
    rw [List.drop_append_of_le_length (by omega), List.drop_of_length_le (by omega)] <;> rfl
  have e2 : beAt (beBytes 8 y.1 ++ y.2.flatMap id) 0 8 = y.1 := by
    simp only [beAt, slice, List.drop_zero]
    rw [List.take_append_of_le_length (by omega), List.take_of_length_le (by omega), beNat_beBytes 8 y.1 hy.1]
  have e3 : (8 * m + 8) / 8 - 1 = m := by omega
  rw [hl, e1, e2, byteBlocks_flatMap (by omega) hy.2.2, e3, hu]
  have e4 : (byteBlocks 8 text).flatMap id = text := by rw [byteBlocks_eq hm]; exact flatMap_byteBlocks 8 m text hm
  simp only [e4, hm]
  have e5 : (0xA65959A6 * 2 ^ 32 + 8 * m) % 2 ^ 32 = 8 * m := by omega
  have e6 : (0xA65959A6 * 2 ^ 32 + 8 * m) / 2 ^ 32 = 0xA65959A6 := by omega
  rw [e5, e6, if_pos, List.take_of_length_le (by omega)]
  refine ⟨h2, trivial, rfl, by omega, by omega, ?_⟩
  rw [List.drop_of_length_le (by omega)] <;> rfl

/-! ## GCM -/

theorem gcmTag_length {key : List Byte} (nonce ad ct : List Byte) (hk : ∀ k ∈ roundKeys key, k.length = 16) (hr : 2 ≤ (roundKeys key).length)
    (hn : nonce.length = 12) : (gcmTag key nonce ad ct).length = 16 := by
  have : (aesBlock key (nonce ++ [0, 0, 0, 1])).length = 16 := aesWith_length hk (by intro h; simp [h] at hr) (by simp [hn])
  simp only [gcmTag, xorBytes_length, beBytes_length, this] <;> rfl
theorem keystream_length {key : List Byte} (ctr n : Nat) (hk : ∀ k ∈ roundKeys key, k.length = 16) (hr : 2 ≤ (roundKeys key).length) :
    (keystream key ctr n).length = n := by
  have hb : ∀ b ∈ (List.range (ceilDiv n 16)).map (fun i => aesWith (roundKeys key) (beBytes 16 (ctr / 2 ^ 32 * 2 ^ 32 + (ctr + i) % 2 ^ 32))), b.length = 16 := by
    intro b h
    obtain ⟨i, _, rfl⟩ := List.mem_map.mp h
    exact aesWith_length hk (by intro h; simp [h] at hr) (beBytes_length _ _)
  have := flatMap_length 16 _ hb
  rw [List.flatMap_map] at this
  simp only [keystream, List.length_take]
  have e : (List.flatMap (fun i => aesWith (roundKeys key) (beBytes 16 (ctr / 2 ^ 32 * 2 ^ 32 + (ctr + i) % 2 ^ 32))) (List.range (ceilDiv n 16))).length =
      16 * ceilDiv n 16 := by simpa using this
  rw [e, ceilDiv]; omega
/-- Opening undoes sealing. -/
theorem gcmOpen_gcmSeal {key nonce : List Byte} (ad text : List Byte) (hk : ∀ k ∈ roundKeys key, k.length = 16) (hr : 2 ≤ (roundKeys key).length)
    (hn : nonce.length = 12) : gcmOpen key nonce ad (gcmSeal key nonce ad text) = some text := by
  have hks := keystream_length (beNat nonce * 2 ^ 32 + 2) text.length hk hr
  have hc : (xorBytes text (keystream key (beNat nonce * 2 ^ 32 + 2) text.length)).length = text.length := by
    rw [xorBytes_length, hks]; exact Nat.min_self _
  have go : ∀ C : List Byte, C.length = text.length → xorBytes C (keystream key (beNat nonce * 2 ^ 32 + 2) text.length) = text →
      gcmOpen key nonce ad (C ++ gcmTag key nonce ad C) = some text := by
    intro C hC hx
    have ht := gcmTag_length nonce ad C hk hr hn
    have hl : (C ++ gcmTag key nonce ad C).length - 16 = C.length := by rw [List.length_append, ht]; omega
    simp only [gcmOpen, hl]
    rw [List.take_append_of_le_length (Nat.le_refl _), List.take_of_length_le (Nat.le_refl _), List.drop_append_of_le_length (Nat.le_refl _),
      List.drop_of_length_le (Nat.le_refl _), List.nil_append, if_pos ⟨by rw [List.length_append, ht]; omega, rfl⟩, hC, hx]
  exact go _ hc (xorBytes_inverse _ _ (by rw [hks] <;> exact Nat.le_refl _))
/-- Another tag does not open. -/
theorem gcmOpen_refuses {key nonce : List Byte} {ad ct tag : List Byte} (ht : tag.length = 16) (h : tag ≠ gcmTag key nonce ad ct) :
    gcmOpen key nonce ad (ct ++ tag) = none := by
  have hl : (ct ++ tag).length - 16 = ct.length := by rw [List.length_append, ht]; omega
  simp only [gcmOpen, hl]
  rw [List.take_append_of_le_length (Nat.le_refl _), List.take_of_length_le (Nat.le_refl _), List.drop_append_of_le_length (Nat.le_refl _),
    List.drop_of_length_le (Nat.le_refl _), List.nil_append, if_neg (fun x => h x.2)]
end Sys2Proof.Machine
end

