-- ==== Sys2Proof/Laws/Memory.lean ====
section
/-! SUPPORT. Byte memories: a byte reads as it was last written, a write leaves every other byte alone, and every operation keeps the
canonical form. -/

namespace Sys2Proof

theorem memOk_mono {m : Mem} {a b : Nat} (h : memOk b m = true) (hab : a ≤ b) : memOk a m = true := by
  cases m with
  | nil => rfl
  | cons c r => simp only [memOk, Bool.and_eq_true, decide_eq_true_eq] at h ⊢; exact ⟨⟨by omega, h.1.2⟩, h.2⟩

theorem memOk_write {m : Mem} {lo k : Nat} {v : Byte} (h : memOk lo m = true) (hk : lo ≤ k) : memOk lo (Mem.write m k v) = true := by
  induction m generalizing lo with
  | nil =>
    simp only [Mem.write]; split
    · rfl
    · rename_i hv; simp only [memOk, Bool.and_eq_true, decide_eq_true_eq, and_true]; exact ⟨hk, hv⟩
  | cons c r ih =>
    have h0 := h
    simp only [memOk, Bool.and_eq_true, decide_eq_true_eq] at h
    simp only [Mem.write]
    split
    · split
      · exact h0
      · rename_i hlt hv
        simp only [memOk, Bool.and_eq_true, decide_eq_true_eq]
        exact ⟨⟨hk, hv⟩, ⟨by omega, h.1.2⟩, h.2⟩
    · split
      · split
        · exact memOk_mono h.2 (by omega)
        · rename_i hv; simp only [memOk, Bool.and_eq_true, decide_eq_true_eq]; exact ⟨⟨h.1.1, hv⟩, h.2⟩
      · simp only [memOk, Bool.and_eq_true, decide_eq_true_eq]
        exact ⟨h.1, ih h.2 (by omega)⟩

/-- A write keeps the canonical form. -/
theorem Mem.wf_write {m : Mem} {k : Nat} {v : Byte} (h : Mem.wf m = true) : Mem.wf (Mem.write m k v) = true :=
  memOk_write h (Nat.zero_le _)

theorem Mem.wf_writeBytes {m : Mem} {a : Nat} {bs : List Byte} (h : Mem.wf m = true) : Mem.wf (Mem.writeBytes m a bs) = true := by
  induction bs generalizing m a with
  | nil => exact h
  | cons b r ih => exact ih (Mem.wf_write h)

/-- Dropping the bytes of some addresses keeps the canonical form. -/
theorem memOk_filter {m : Mem} {lo : Nat} (p : Host.Cell → Bool) (h : memOk lo m = true) : memOk lo (m.filter p) = true := by
  induction m generalizing lo with
  | nil => rfl
  | cons c r ih =>
    simp only [memOk, Bool.and_eq_true, decide_eq_true_eq] at h
    simp only [List.filter]
    split
    · simp only [memOk, Bool.and_eq_true, decide_eq_true_eq]; exact ⟨h.1, ih h.2⟩
    · exact memOk_mono (ih h.2) (by omega)

theorem Mem.wf_filter {m : Mem} (p : Host.Cell → Bool) (h : Mem.wf m = true) : Mem.wf (m.filter p) = true := memOk_filter p h

theorem Mem.wf_zeroSegments {k mask : Nat} {m : Mem} (h : Mem.wf m = true) : Mem.wf (Machine.zeroSegments k mask m) = true :=
  memOk_filter _ h

/-- Below the first listed address every byte reads 0. -/
theorem Mem.read_below {m : Mem} {lo k : Nat} (h : memOk lo m = true) (hk : k < lo) : Mem.read m k = 0 := by
  cases m with
  | nil => rfl
  | cons c r =>
    simp only [memOk, Bool.and_eq_true, decide_eq_true_eq] at h
    simp only [Mem.read]; rw [if_neg (by omega), if_pos (by omega)]

theorem Mem.read_write_at {m : Mem} {lo k : Nat} {v : Byte} (h : memOk lo m = true) : Mem.read (Mem.write m k v) k = v := by
  induction m generalizing lo with
  | nil => simp only [Mem.write]; split <;> simp [Mem.read, *]
  | cons c r ih =>
    simp only [memOk, Bool.and_eq_true, decide_eq_true_eq] at h
    simp only [Mem.write]
    split
    · split
      · rename_i hlt hv; simp only [Mem.read, hv]; rw [if_neg (by omega), if_pos hlt]
      · simp [Mem.read]
    · split
      · rename_i _ hk
        split
        · rename_i hv; rw [hv]; exact Mem.read_below h.2 (by omega)
        · simp [Mem.read, hk]
      · rename_i h1 h2
        simp only [Mem.read]; rw [if_neg h2, if_neg h1]; exact ih h.2

theorem Mem.read_write_at_other {m : Mem} {lo k j : Nat} {v : Byte} (h : memOk lo m = true) (hj : j ≠ k) :
    Mem.read (Mem.write m k v) j = Mem.read m j := by
  induction m generalizing lo with
  | nil =>
    simp only [Mem.write]; split
    · rfl
    · simp only [Mem.read, if_neg hj]; split <;> rfl
  | cons c r ih =>
    simp only [memOk, Bool.and_eq_true, decide_eq_true_eq] at h
    simp only [Mem.write]
    split
    · split
      · rfl
      · rename_i hlt hv
        simp only [Mem.read, if_neg hj]
        split
        · rw [if_neg (by omega), if_pos (by omega)]
        · rfl
    · split
      · rename_i hnlt hk
        split
        · rename_i hv
          simp only [Mem.read]
          rw [if_neg (by omega)]
          split
          · rename_i hlt; exact Mem.read_below h.2 (by omega)
          · rfl
        · have : j ≠ c.1 := by omega
          simp only [Mem.read, if_neg this]
      · rename_i h1 h2
        simp only [Mem.read]
        split
        · rfl
        · split
          · rfl
          · exact ih h.2

/-- A byte reads as it was written. -/
theorem Mem.read_write_same {m : Mem} (k : Nat) (v : Byte) (h : Mem.wf m = true) : Mem.read (Mem.write m k v) k = v :=
  Mem.read_write_at h

/-- A write leaves every other byte alone. -/
theorem Mem.read_write_other {m : Mem} {k j : Nat} (v : Byte) (h : Mem.wf m = true) (hj : j ≠ k) :
    Mem.read (Mem.write m k v) j = Mem.read m j := Mem.read_write_at_other h hj

/-- Bytes outside a run of stored bytes read as before. -/
theorem Mem.read_writeBytes_other {m : Mem} {a j : Nat} {bs : List Byte} (h : Mem.wf m = true) (hj : j < a ∨ a + bs.length ≤ j) :
    Mem.read (Mem.writeBytes m a bs) j = Mem.read m j := by
  induction bs generalizing m a with
  | nil => rfl
  | cons b r ih =>
    simp only [List.length_cons] at hj
    simp only [Mem.writeBytes]
    rw [ih (Mem.wf_write h) (by omega), Mem.read_write_other _ h (by omega)]

/-- A stored run reads back. -/
theorem Mem.readBytes_writeBytes {m : Mem} {a : Nat} {bs : List Byte} (h : Mem.wf m = true) :
    Mem.readBytes (Mem.writeBytes m a bs) a bs.length = bs := by
  induction bs generalizing m a with
  | nil => rfl
  | cons b r ih =>
    simp only [List.length_cons, Mem.readBytes, Mem.writeBytes]
    rw [ih (Mem.wf_write h), Mem.read_writeBytes_other (Mem.wf_write h) (by omega), Mem.read_write_same _ _ h]

@[simp] theorem Mem.length_readBytes (m : Mem) (a n : Nat) : (Mem.readBytes m a n).length = n := by
  induction n generalizing a with
  | zero => rfl
  | succ n ih => simp [Mem.readBytes, ih]

end Sys2Proof
end

