-- ==== Sys2Proof/Laws/Tables.lean ====
section
/-! SUPPORT. Tables: an entry reads as it was last set, and a write leaves every other entry alone. -/

namespace Sys2Proof

theorem cellsFind_set_same {α : Type} (l : List (Nat × α)) (k : Nat) (v : α) : cellsFind (cellsSet l k v) k = some v := by
  induction l with
  | nil => simp [cellsSet, cellsFind]
  | cons c r ih =>
    simp only [cellsSet]
    split
    · simp [cellsFind]
    · split
      · simp [cellsFind]
      · simp [cellsFind, *]

theorem cellsFind_set_other {α : Type} (l : List (Nat × α)) (k j : Nat) (v : α) (h : j ≠ k) :
    cellsFind (cellsSet l k v) j = cellsFind l j := by
  induction l with
  | nil => simp [cellsSet, cellsFind, h]
  | cons c r ih =>
    simp only [cellsSet]
    split
    · simp [cellsFind, h]
    · split
      · rename_i _ hk; subst hk; simp [cellsFind, h]
      · simp [cellsFind, ih]

theorem cellsFind_del_same {α : Type} (l : List (Nat × α)) (k : Nat) : cellsFind (cellsDel l k) k = none := by
  induction l with
  | nil => rfl
  | cons c r ih =>
    simp only [cellsDel]
    split
    · exact ih
    · simp [cellsFind, *]

theorem cellsFind_del_other {α : Type} (l : List (Nat × α)) (k j : Nat) (h : j ≠ k) :
    cellsFind (cellsDel l k) j = cellsFind l j := by
  induction l with
  | nil => rfl
  | cons c r ih =>
    simp only [cellsDel]
    split
    · rename_i hk; subst hk; simp [cellsFind, h, ih]
    · simp [cellsFind, ih]

@[simp] theorem Tab.find_set_same {α : Type} (t : Tab α) (k : Nat) (v : α) : (t.set k v).find? k = some v :=
  cellsFind_set_same _ _ _
theorem Tab.find_set_other {α : Type} (t : Tab α) (k j : Nat) (v : α) (h : j ≠ k) : (t.set k v).find? j = t.find? j :=
  cellsFind_set_other _ _ _ _ h
@[simp] theorem Tab.find_del_same {α : Type} (t : Tab α) (k : Nat) : (t.del k).find? k = none := cellsFind_del_same _ _
theorem Tab.find_del_other {α : Type} (t : Tab α) (k j : Nat) (h : j ≠ k) : (t.del k).find? j = t.find? j :=
  cellsFind_del_other _ _ _ h
@[simp] theorem Tab.get_set_same {α : Type} (t : Tab α) (k : Nat) (v d : α) : (t.set k v).get k d = v := by simp [Tab.get]
theorem Tab.get_set_other {α : Type} (t : Tab α) (k j : Nat) (v d : α) (h : j ≠ k) : (t.set k v).get j d = t.get j d := by
  simp [Tab.get, Tab.find_set_other _ _ _ _ h]
@[simp] theorem Tab.get_del_same {α : Type} (t : Tab α) (k : Nat) (d : α) : (t.del k).get k d = d := by simp [Tab.get]

end Sys2Proof
end

