-- ==== Sys2Proof/Laws/State.lean ====
section
/-! SUPPORT. What each plain update of the state leaves as it is, and what a reader of one entry finds after it: no later proof unfolds a
record update. A frame is one lemma of several equations, which `simp` uses each by itself. -/

namespace Sys2Proof.Machine

@[simp] theorem emit_frame (o : Out) (s : State) :
    (emit o s).pending = s.pending ∧ (emit o s).res = s.res ∧ (emit o s).free = s.free ∧
    (emit o s).nextOp = s.nextOp ∧ (emit o s).readData = s.readData ∧ (emit o s).burst = s.burst ∧
    (emit o s).burstPoison = s.burstPoison ∧ (emit o s).hostMem = s.hostMem ∧ (emit o s).dram = s.dram ∧
    (emit o s).lowHeld = s.lowHeld ∧ (emit o s).latch = s.latch ∧ (emit o s).ctr = s.ctr ∧ (emit o s).ids = s.ids ∧
    (emit o s).hq = s.hq ∧ (emit o s).disp = s.disp ∧ (emit o s).fwOps = s.fwOps ∧ (emit o s).fwDone = s.fwDone ∧
    (emit o s).evr = s.evr ∧ (emit o s).dump = s.dump ∧ (emit o s).dramStacks = s.dramStacks ∧ (emit o s).acc = s.acc ∧
    (emit o s).time = s.time ∧ (emit o s).links = s.links ∧ (emit o s).power = s.power ∧ (emit o s).body = s.body ∧
    (emit o s).fab = s.fab ∧ (emit o s).upd = s.upd ∧ (emit o s).dom = s.dom ∧ (emit o s).keys = s.keys ∧
    (emit o s).lanes = s.lanes ∧ (emit o s).aes = s.aes ∧ (emit o s).rxOps = s.rxOps ∧ (emit o s).media = s.media ∧
    (emit o s).video = s.video ∧ (emit o s).audio = s.audio ∧ (emit o s).dsp = s.dsp := by
  and_intros <;> rfl

@[simp] theorem pfVector_frame (v : Nat) (s : State) :
    (pfVector v s).pending = s.pending ∧ (pfVector v s).res = s.res ∧ (pfVector v s).free = s.free ∧
    (pfVector v s).nextOp = s.nextOp ∧ (pfVector v s).readData = s.readData ∧ (pfVector v s).burst = s.burst ∧
    (pfVector v s).burstPoison = s.burstPoison ∧ (pfVector v s).hostMem = s.hostMem ∧ (pfVector v s).dram = s.dram ∧
    (pfVector v s).lowHeld = s.lowHeld ∧ (pfVector v s).latch = s.latch ∧ (pfVector v s).ctr = s.ctr ∧
    (pfVector v s).ids = s.ids ∧ (pfVector v s).hq = s.hq ∧ (pfVector v s).disp = s.disp ∧
    (pfVector v s).fwOps = s.fwOps ∧ (pfVector v s).fwDone = s.fwDone ∧ (pfVector v s).evr = s.evr ∧
    (pfVector v s).dump = s.dump ∧ (pfVector v s).dramStacks = s.dramStacks ∧ (pfVector v s).acc = s.acc ∧
    (pfVector v s).time = s.time ∧ (pfVector v s).links = s.links ∧ (pfVector v s).power = s.power ∧
    (pfVector v s).body = s.body ∧ (pfVector v s).fab = s.fab ∧ (pfVector v s).upd = s.upd ∧
    (pfVector v s).dom = s.dom ∧ (pfVector v s).keys = s.keys ∧ (pfVector v s).lanes = s.lanes ∧
    (pfVector v s).aes = s.aes ∧ (pfVector v s).rxOps = s.rxOps ∧ (pfVector v s).media = s.media ∧
    (pfVector v s).video = s.video ∧ (pfVector v s).audio = s.audio ∧ (pfVector v s).dsp = s.dsp := by
  and_intros <;> rfl

@[simp] theorem count_frame (off k : Nat) (s : State) :
    (count off k s).pending = s.pending ∧ (count off k s).res = s.res ∧ (count off k s).free = s.free ∧
    (count off k s).nextOp = s.nextOp ∧ (count off k s).out = s.out ∧ (count off k s).readData = s.readData ∧
    (count off k s).burst = s.burst ∧ (count off k s).burstPoison = s.burstPoison ∧
    (count off k s).hostMem = s.hostMem ∧ (count off k s).dram = s.dram ∧ (count off k s).lowHeld = s.lowHeld ∧
    (count off k s).latch = s.latch ∧ (count off k s).ids = s.ids ∧ (count off k s).hq = s.hq ∧
    (count off k s).disp = s.disp ∧ (count off k s).fwOps = s.fwOps ∧ (count off k s).fwDone = s.fwDone ∧
    (count off k s).evr = s.evr ∧ (count off k s).dump = s.dump ∧ (count off k s).dramStacks = s.dramStacks ∧
    (count off k s).acc = s.acc ∧ (count off k s).time = s.time ∧ (count off k s).links = s.links ∧
    (count off k s).power = s.power ∧ (count off k s).body = s.body ∧ (count off k s).fab = s.fab ∧
    (count off k s).upd = s.upd ∧ (count off k s).dom = s.dom ∧ (count off k s).keys = s.keys ∧
    (count off k s).lanes = s.lanes ∧ (count off k s).aes = s.aes ∧ (count off k s).rxOps = s.rxOps ∧
    (count off k s).media = s.media ∧ (count off k s).video = s.video ∧ (count off k s).audio = s.audio ∧
    (count off k s).dsp = s.dsp := by
  and_intros <;> rfl

@[simp] theorem ctrClear_frame (lo hi : Nat) (s : State) :
    (ctrClear lo hi s).pending = s.pending ∧ (ctrClear lo hi s).res = s.res ∧ (ctrClear lo hi s).free = s.free ∧
    (ctrClear lo hi s).nextOp = s.nextOp ∧ (ctrClear lo hi s).out = s.out ∧
    (ctrClear lo hi s).readData = s.readData ∧ (ctrClear lo hi s).burst = s.burst ∧
    (ctrClear lo hi s).burstPoison = s.burstPoison ∧ (ctrClear lo hi s).hostMem = s.hostMem ∧
    (ctrClear lo hi s).dram = s.dram ∧ (ctrClear lo hi s).lowHeld = s.lowHeld ∧ (ctrClear lo hi s).latch = s.latch ∧
    (ctrClear lo hi s).ids = s.ids ∧ (ctrClear lo hi s).hq = s.hq ∧ (ctrClear lo hi s).disp = s.disp ∧
    (ctrClear lo hi s).fwOps = s.fwOps ∧ (ctrClear lo hi s).fwDone = s.fwDone ∧ (ctrClear lo hi s).evr = s.evr ∧
    (ctrClear lo hi s).dump = s.dump ∧ (ctrClear lo hi s).dramStacks = s.dramStacks ∧ (ctrClear lo hi s).acc = s.acc ∧
    (ctrClear lo hi s).time = s.time ∧ (ctrClear lo hi s).links = s.links ∧ (ctrClear lo hi s).power = s.power ∧
    (ctrClear lo hi s).body = s.body ∧ (ctrClear lo hi s).fab = s.fab ∧ (ctrClear lo hi s).upd = s.upd ∧
    (ctrClear lo hi s).dom = s.dom ∧ (ctrClear lo hi s).keys = s.keys ∧ (ctrClear lo hi s).lanes = s.lanes ∧
    (ctrClear lo hi s).aes = s.aes ∧ (ctrClear lo hi s).rxOps = s.rxOps ∧ (ctrClear lo hi s).media = s.media ∧
    (ctrClear lo hi s).video = s.video ∧ (ctrClear lo hi s).audio = s.audio ∧ (ctrClear lo hi s).dsp = s.dsp := by
  and_intros <;> rfl

@[simp] theorem allocId_frame (k : IdKind) (i : Nat) (s : State) :
    (allocId k i s).pending = s.pending ∧ (allocId k i s).res = s.res ∧ (allocId k i s).free = s.free ∧
    (allocId k i s).nextOp = s.nextOp ∧ (allocId k i s).out = s.out ∧ (allocId k i s).readData = s.readData ∧
    (allocId k i s).burst = s.burst ∧ (allocId k i s).burstPoison = s.burstPoison ∧
    (allocId k i s).hostMem = s.hostMem ∧ (allocId k i s).dram = s.dram ∧ (allocId k i s).lowHeld = s.lowHeld ∧
    (allocId k i s).latch = s.latch ∧ (allocId k i s).ctr = s.ctr ∧ (allocId k i s).hq = s.hq ∧
    (allocId k i s).disp = s.disp ∧ (allocId k i s).fwOps = s.fwOps ∧ (allocId k i s).fwDone = s.fwDone ∧
    (allocId k i s).evr = s.evr ∧ (allocId k i s).dump = s.dump ∧ (allocId k i s).dramStacks = s.dramStacks ∧
    (allocId k i s).acc = s.acc ∧ (allocId k i s).time = s.time ∧ (allocId k i s).links = s.links ∧
    (allocId k i s).power = s.power ∧ (allocId k i s).body = s.body ∧ (allocId k i s).fab = s.fab ∧
    (allocId k i s).upd = s.upd ∧ (allocId k i s).dom = s.dom ∧ (allocId k i s).keys = s.keys ∧
    (allocId k i s).lanes = s.lanes ∧ (allocId k i s).aes = s.aes ∧ (allocId k i s).rxOps = s.rxOps ∧
    (allocId k i s).media = s.media ∧ (allocId k i s).video = s.video ∧ (allocId k i s).audio = s.audio ∧
    (allocId k i s).dsp = s.dsp := by
  and_intros <;> rfl

@[simp] theorem releaseId_frame (k : IdKind) (i : Nat) (s : State) :
    (releaseId k i s).pending = s.pending ∧ (releaseId k i s).res = s.res ∧ (releaseId k i s).free = s.free ∧
    (releaseId k i s).nextOp = s.nextOp ∧ (releaseId k i s).out = s.out ∧ (releaseId k i s).readData = s.readData ∧
    (releaseId k i s).burst = s.burst ∧ (releaseId k i s).burstPoison = s.burstPoison ∧
    (releaseId k i s).hostMem = s.hostMem ∧ (releaseId k i s).dram = s.dram ∧ (releaseId k i s).lowHeld = s.lowHeld ∧
    (releaseId k i s).latch = s.latch ∧ (releaseId k i s).ctr = s.ctr ∧ (releaseId k i s).hq = s.hq ∧
    (releaseId k i s).disp = s.disp ∧ (releaseId k i s).fwOps = s.fwOps ∧ (releaseId k i s).fwDone = s.fwDone ∧
    (releaseId k i s).evr = s.evr ∧ (releaseId k i s).dump = s.dump ∧ (releaseId k i s).dramStacks = s.dramStacks ∧
    (releaseId k i s).acc = s.acc ∧ (releaseId k i s).time = s.time ∧ (releaseId k i s).links = s.links ∧
    (releaseId k i s).power = s.power ∧ (releaseId k i s).body = s.body ∧ (releaseId k i s).fab = s.fab ∧
    (releaseId k i s).upd = s.upd ∧ (releaseId k i s).dom = s.dom ∧ (releaseId k i s).keys = s.keys ∧
    (releaseId k i s).lanes = s.lanes ∧ (releaseId k i s).aes = s.aes ∧ (releaseId k i s).rxOps = s.rxOps ∧
    (releaseId k i s).media = s.media ∧ (releaseId k i s).video = s.video ∧ (releaseId k i s).audio = s.audio ∧
    (releaseId k i s).dsp = s.dsp := by
  and_intros <;> rfl

@[simp] theorem setRead_frame (v : Nat) (s : State) :
    (setRead v s).pending = s.pending ∧ (setRead v s).res = s.res ∧ (setRead v s).free = s.free ∧
    (setRead v s).nextOp = s.nextOp ∧ (setRead v s).out = s.out ∧ (setRead v s).burst = s.burst ∧
    (setRead v s).burstPoison = s.burstPoison ∧ (setRead v s).hostMem = s.hostMem ∧ (setRead v s).dram = s.dram ∧
    (setRead v s).lowHeld = s.lowHeld ∧ (setRead v s).latch = s.latch ∧ (setRead v s).ctr = s.ctr ∧
    (setRead v s).ids = s.ids ∧ (setRead v s).hq = s.hq ∧ (setRead v s).disp = s.disp ∧
    (setRead v s).fwOps = s.fwOps ∧ (setRead v s).fwDone = s.fwDone ∧ (setRead v s).evr = s.evr ∧
    (setRead v s).dump = s.dump ∧ (setRead v s).dramStacks = s.dramStacks ∧ (setRead v s).acc = s.acc ∧
    (setRead v s).time = s.time ∧ (setRead v s).links = s.links ∧ (setRead v s).power = s.power ∧
    (setRead v s).body = s.body ∧ (setRead v s).fab = s.fab ∧ (setRead v s).upd = s.upd ∧ (setRead v s).dom = s.dom ∧
    (setRead v s).keys = s.keys ∧ (setRead v s).lanes = s.lanes ∧ (setRead v s).aes = s.aes ∧
    (setRead v s).rxOps = s.rxOps ∧ (setRead v s).media = s.media ∧ (setRead v s).video = s.video ∧
    (setRead v s).audio = s.audio ∧ (setRead v s).dsp = s.dsp := by
  and_intros <;> rfl

@[simp] theorem setQueue_frame (q : Nat) (u : Queue) (s : State) :
    (setQueue q u s).pending = s.pending ∧ (setQueue q u s).res = s.res ∧ (setQueue q u s).free = s.free ∧
    (setQueue q u s).nextOp = s.nextOp ∧ (setQueue q u s).out = s.out ∧ (setQueue q u s).readData = s.readData ∧
    (setQueue q u s).burst = s.burst ∧ (setQueue q u s).burstPoison = s.burstPoison ∧
    (setQueue q u s).hostMem = s.hostMem ∧ (setQueue q u s).dram = s.dram ∧ (setQueue q u s).lowHeld = s.lowHeld ∧
    (setQueue q u s).latch = s.latch ∧ (setQueue q u s).ctr = s.ctr ∧ (setQueue q u s).ids = s.ids ∧
    (setQueue q u s).disp = s.disp ∧ (setQueue q u s).fwOps = s.fwOps ∧ (setQueue q u s).fwDone = s.fwDone ∧
    (setQueue q u s).evr = s.evr ∧ (setQueue q u s).dump = s.dump ∧ (setQueue q u s).dramStacks = s.dramStacks ∧
    (setQueue q u s).acc = s.acc ∧ (setQueue q u s).time = s.time ∧ (setQueue q u s).links = s.links ∧
    (setQueue q u s).power = s.power ∧ (setQueue q u s).body = s.body ∧ (setQueue q u s).fab = s.fab ∧
    (setQueue q u s).upd = s.upd ∧ (setQueue q u s).dom = s.dom ∧ (setQueue q u s).keys = s.keys ∧
    (setQueue q u s).lanes = s.lanes ∧ (setQueue q u s).aes = s.aes ∧ (setQueue q u s).rxOps = s.rxOps ∧
    (setQueue q u s).media = s.media ∧ (setQueue q u s).video = s.video ∧ (setQueue q u s).audio = s.audio ∧
    (setQueue q u s).dsp = s.dsp := by
  and_intros <;> rfl

@[simp] theorem updQueue_frame (q : Nat) (f : Queue → Queue) (s : State) :
    (updQueue q f s).pending = s.pending ∧ (updQueue q f s).res = s.res ∧ (updQueue q f s).free = s.free ∧
    (updQueue q f s).nextOp = s.nextOp ∧ (updQueue q f s).out = s.out ∧ (updQueue q f s).readData = s.readData ∧
    (updQueue q f s).burst = s.burst ∧ (updQueue q f s).burstPoison = s.burstPoison ∧
    (updQueue q f s).hostMem = s.hostMem ∧ (updQueue q f s).dram = s.dram ∧ (updQueue q f s).lowHeld = s.lowHeld ∧
    (updQueue q f s).latch = s.latch ∧ (updQueue q f s).ctr = s.ctr ∧ (updQueue q f s).ids = s.ids ∧
    (updQueue q f s).disp = s.disp ∧ (updQueue q f s).fwOps = s.fwOps ∧ (updQueue q f s).fwDone = s.fwDone ∧
    (updQueue q f s).evr = s.evr ∧ (updQueue q f s).dump = s.dump ∧ (updQueue q f s).dramStacks = s.dramStacks ∧
    (updQueue q f s).acc = s.acc ∧ (updQueue q f s).time = s.time ∧ (updQueue q f s).links = s.links ∧
    (updQueue q f s).power = s.power ∧ (updQueue q f s).body = s.body ∧ (updQueue q f s).fab = s.fab ∧
    (updQueue q f s).upd = s.upd ∧ (updQueue q f s).dom = s.dom ∧ (updQueue q f s).keys = s.keys ∧
    (updQueue q f s).lanes = s.lanes ∧ (updQueue q f s).aes = s.aes ∧ (updQueue q f s).rxOps = s.rxOps ∧
    (updQueue q f s).media = s.media ∧ (updQueue q f s).video = s.video ∧ (updQueue q f s).audio = s.audio ∧
    (updQueue q f s).dsp = s.dsp := by
  and_intros <;> rfl

@[simp] theorem cfgError_frame (q : Nat) (s : State) :
    (cfgError q s).pending = s.pending ∧ (cfgError q s).res = s.res ∧ (cfgError q s).free = s.free ∧
    (cfgError q s).nextOp = s.nextOp ∧ (cfgError q s).out = s.out ∧ (cfgError q s).readData = s.readData ∧
    (cfgError q s).burst = s.burst ∧ (cfgError q s).burstPoison = s.burstPoison ∧
    (cfgError q s).hostMem = s.hostMem ∧ (cfgError q s).dram = s.dram ∧ (cfgError q s).lowHeld = s.lowHeld ∧
    (cfgError q s).latch = s.latch ∧ (cfgError q s).ctr = s.ctr ∧ (cfgError q s).ids = s.ids ∧
    (cfgError q s).disp = s.disp ∧ (cfgError q s).fwOps = s.fwOps ∧ (cfgError q s).fwDone = s.fwDone ∧
    (cfgError q s).evr = s.evr ∧ (cfgError q s).dump = s.dump ∧ (cfgError q s).dramStacks = s.dramStacks ∧
    (cfgError q s).acc = s.acc ∧ (cfgError q s).time = s.time ∧ (cfgError q s).links = s.links ∧
    (cfgError q s).power = s.power ∧ (cfgError q s).body = s.body ∧ (cfgError q s).fab = s.fab ∧
    (cfgError q s).upd = s.upd ∧ (cfgError q s).dom = s.dom ∧ (cfgError q s).keys = s.keys ∧
    (cfgError q s).lanes = s.lanes ∧ (cfgError q s).aes = s.aes ∧ (cfgError q s).rxOps = s.rxOps ∧
    (cfgError q s).media = s.media ∧ (cfgError q s).video = s.video ∧ (cfgError q s).audio = s.audio ∧
    (cfgError q s).dsp = s.dsp := by
  and_intros <;> rfl

@[simp] theorem setCore_frame (c : Nat) (v : Core) (s : State) :
    (setCore c v s).pending = s.pending ∧ (setCore c v s).res = s.res ∧ (setCore c v s).free = s.free ∧
    (setCore c v s).nextOp = s.nextOp ∧ (setCore c v s).out = s.out ∧ (setCore c v s).readData = s.readData ∧
    (setCore c v s).burst = s.burst ∧ (setCore c v s).burstPoison = s.burstPoison ∧
    (setCore c v s).hostMem = s.hostMem ∧ (setCore c v s).dram = s.dram ∧ (setCore c v s).lowHeld = s.lowHeld ∧
    (setCore c v s).latch = s.latch ∧ (setCore c v s).ctr = s.ctr ∧ (setCore c v s).ids = s.ids ∧
    (setCore c v s).hq = s.hq ∧ (setCore c v s).fwOps = s.fwOps ∧ (setCore c v s).fwDone = s.fwDone ∧
    (setCore c v s).evr = s.evr ∧ (setCore c v s).dump = s.dump ∧ (setCore c v s).dramStacks = s.dramStacks ∧
    (setCore c v s).acc = s.acc ∧ (setCore c v s).time = s.time ∧ (setCore c v s).links = s.links ∧
    (setCore c v s).power = s.power ∧ (setCore c v s).body = s.body ∧ (setCore c v s).fab = s.fab ∧
    (setCore c v s).upd = s.upd ∧ (setCore c v s).dom = s.dom ∧ (setCore c v s).keys = s.keys ∧
    (setCore c v s).lanes = s.lanes ∧ (setCore c v s).aes = s.aes ∧ (setCore c v s).rxOps = s.rxOps ∧
    (setCore c v s).media = s.media ∧ (setCore c v s).video = s.video ∧ (setCore c v s).audio = s.audio ∧
    (setCore c v s).dsp = s.dsp := by
  and_intros <;> rfl

@[simp] theorem setStack_frame (k : Nat) (v : Stack) (s : State) :
    (setStack k v s).pending = s.pending ∧ (setStack k v s).res = s.res ∧ (setStack k v s).free = s.free ∧
    (setStack k v s).nextOp = s.nextOp ∧ (setStack k v s).out = s.out ∧ (setStack k v s).readData = s.readData ∧
    (setStack k v s).burst = s.burst ∧ (setStack k v s).burstPoison = s.burstPoison ∧
    (setStack k v s).hostMem = s.hostMem ∧ (setStack k v s).dram = s.dram ∧ (setStack k v s).lowHeld = s.lowHeld ∧
    (setStack k v s).latch = s.latch ∧ (setStack k v s).ctr = s.ctr ∧ (setStack k v s).ids = s.ids ∧
    (setStack k v s).hq = s.hq ∧ (setStack k v s).disp = s.disp ∧ (setStack k v s).fwOps = s.fwOps ∧
    (setStack k v s).fwDone = s.fwDone ∧ (setStack k v s).evr = s.evr ∧ (setStack k v s).dump = s.dump ∧
    (setStack k v s).acc = s.acc ∧ (setStack k v s).time = s.time ∧ (setStack k v s).links = s.links ∧
    (setStack k v s).power = s.power ∧ (setStack k v s).body = s.body ∧ (setStack k v s).fab = s.fab ∧
    (setStack k v s).upd = s.upd ∧ (setStack k v s).dom = s.dom ∧ (setStack k v s).keys = s.keys ∧
    (setStack k v s).lanes = s.lanes ∧ (setStack k v s).aes = s.aes ∧ (setStack k v s).rxOps = s.rxOps ∧
    (setStack k v s).media = s.media ∧ (setStack k v s).video = s.video ∧ (setStack k v s).audio = s.audio ∧
    (setStack k v s).dsp = s.dsp := by
  and_intros <;> rfl

@[simp] theorem updStack_frame (k : Nat) (f : Stack → Stack) (s : State) :
    (updStack k f s).pending = s.pending ∧ (updStack k f s).res = s.res ∧ (updStack k f s).free = s.free ∧
    (updStack k f s).nextOp = s.nextOp ∧ (updStack k f s).out = s.out ∧ (updStack k f s).readData = s.readData ∧
    (updStack k f s).burst = s.burst ∧ (updStack k f s).burstPoison = s.burstPoison ∧
    (updStack k f s).hostMem = s.hostMem ∧ (updStack k f s).dram = s.dram ∧ (updStack k f s).lowHeld = s.lowHeld ∧
    (updStack k f s).latch = s.latch ∧ (updStack k f s).ctr = s.ctr ∧ (updStack k f s).ids = s.ids ∧
    (updStack k f s).hq = s.hq ∧ (updStack k f s).disp = s.disp ∧ (updStack k f s).fwOps = s.fwOps ∧
    (updStack k f s).fwDone = s.fwDone ∧ (updStack k f s).evr = s.evr ∧ (updStack k f s).dump = s.dump ∧
    (updStack k f s).acc = s.acc ∧ (updStack k f s).time = s.time ∧ (updStack k f s).links = s.links ∧
    (updStack k f s).power = s.power ∧ (updStack k f s).body = s.body ∧ (updStack k f s).fab = s.fab ∧
    (updStack k f s).upd = s.upd ∧ (updStack k f s).dom = s.dom ∧ (updStack k f s).keys = s.keys ∧
    (updStack k f s).lanes = s.lanes ∧ (updStack k f s).aes = s.aes ∧ (updStack k f s).rxOps = s.rxOps ∧
    (updStack k f s).media = s.media ∧ (updStack k f s).video = s.video ∧ (updStack k f s).audio = s.audio ∧
    (updStack k f s).dsp = s.dsp := by
  and_intros <;> rfl

@[simp] theorem parkNow_frame (k : Nat) (s : State) :
    (parkNow k s).pending = s.pending ∧ (parkNow k s).res = s.res ∧ (parkNow k s).free = s.free ∧
    (parkNow k s).nextOp = s.nextOp ∧ (parkNow k s).out = s.out ∧ (parkNow k s).readData = s.readData ∧
    (parkNow k s).burst = s.burst ∧ (parkNow k s).burstPoison = s.burstPoison ∧ (parkNow k s).hostMem = s.hostMem ∧
    (parkNow k s).dram = s.dram ∧ (parkNow k s).lowHeld = s.lowHeld ∧ (parkNow k s).latch = s.latch ∧
    (parkNow k s).ctr = s.ctr ∧ (parkNow k s).ids = s.ids ∧ (parkNow k s).hq = s.hq ∧ (parkNow k s).disp = s.disp ∧
    (parkNow k s).fwOps = s.fwOps ∧ (parkNow k s).fwDone = s.fwDone ∧ (parkNow k s).evr = s.evr ∧
    (parkNow k s).dump = s.dump ∧ (parkNow k s).acc = s.acc ∧ (parkNow k s).time = s.time ∧
    (parkNow k s).links = s.links ∧ (parkNow k s).power = s.power ∧ (parkNow k s).body = s.body ∧
    (parkNow k s).fab = s.fab ∧ (parkNow k s).upd = s.upd ∧ (parkNow k s).dom = s.dom ∧ (parkNow k s).keys = s.keys ∧
    (parkNow k s).lanes = s.lanes ∧ (parkNow k s).aes = s.aes ∧ (parkNow k s).rxOps = s.rxOps ∧
    (parkNow k s).media = s.media ∧ (parkNow k s).video = s.video ∧ (parkNow k s).audio = s.audio ∧
    (parkNow k s).dsp = s.dsp := by
  and_intros <;> rfl

@[simp] theorem writeHeld_frame (kind idx k : Nat) (s : State) :
    (writeHeld kind idx k s).pending = s.pending ∧ (writeHeld kind idx k s).res = s.res ∧
    (writeHeld kind idx k s).free = s.free ∧ (writeHeld kind idx k s).nextOp = s.nextOp ∧
    (writeHeld kind idx k s).out = s.out ∧ (writeHeld kind idx k s).readData = s.readData ∧
    (writeHeld kind idx k s).burst = s.burst ∧ (writeHeld kind idx k s).burstPoison = s.burstPoison ∧
    (writeHeld kind idx k s).hostMem = s.hostMem ∧ (writeHeld kind idx k s).dram = s.dram ∧
    (writeHeld kind idx k s).lowHeld = s.lowHeld ∧ (writeHeld kind idx k s).latch = s.latch ∧
    (writeHeld kind idx k s).ctr = s.ctr ∧ (writeHeld kind idx k s).ids = s.ids ∧
    (writeHeld kind idx k s).hq = s.hq ∧ (writeHeld kind idx k s).disp = s.disp ∧
    (writeHeld kind idx k s).fwOps = s.fwOps ∧ (writeHeld kind idx k s).fwDone = s.fwDone ∧
    (writeHeld kind idx k s).evr = s.evr ∧ (writeHeld kind idx k s).dump = s.dump ∧
    (writeHeld kind idx k s).acc = s.acc ∧ (writeHeld kind idx k s).time = s.time ∧
    (writeHeld kind idx k s).links = s.links ∧ (writeHeld kind idx k s).power = s.power ∧
    (writeHeld kind idx k s).body = s.body ∧ (writeHeld kind idx k s).fab = s.fab ∧
    (writeHeld kind idx k s).upd = s.upd ∧ (writeHeld kind idx k s).dom = s.dom ∧
    (writeHeld kind idx k s).keys = s.keys ∧ (writeHeld kind idx k s).lanes = s.lanes ∧
    (writeHeld kind idx k s).aes = s.aes ∧ (writeHeld kind idx k s).rxOps = s.rxOps ∧
    (writeHeld kind idx k s).media = s.media ∧ (writeHeld kind idx k s).video = s.video ∧
    (writeHeld kind idx k s).audio = s.audio ∧ (writeHeld kind idx k s).dsp = s.dsp := by
  and_intros <;> rfl

@[simp] theorem timeEvent_frame (f : TimeBase → TimeBase) (s : State) :
    (timeEvent f s).pending = s.pending ∧ (timeEvent f s).res = s.res ∧ (timeEvent f s).free = s.free ∧
    (timeEvent f s).nextOp = s.nextOp ∧ (timeEvent f s).readData = s.readData ∧ (timeEvent f s).burst = s.burst ∧
    (timeEvent f s).burstPoison = s.burstPoison ∧ (timeEvent f s).hostMem = s.hostMem ∧
    (timeEvent f s).dram = s.dram ∧ (timeEvent f s).lowHeld = s.lowHeld ∧ (timeEvent f s).latch = s.latch ∧
    (timeEvent f s).ctr = s.ctr ∧ (timeEvent f s).ids = s.ids ∧ (timeEvent f s).hq = s.hq ∧
    (timeEvent f s).disp = s.disp ∧ (timeEvent f s).fwOps = s.fwOps ∧ (timeEvent f s).fwDone = s.fwDone ∧
    (timeEvent f s).evr = s.evr ∧ (timeEvent f s).dump = s.dump ∧ (timeEvent f s).dramStacks = s.dramStacks ∧
    (timeEvent f s).acc = s.acc ∧ (timeEvent f s).links = s.links ∧ (timeEvent f s).power = s.power ∧
    (timeEvent f s).body = s.body ∧ (timeEvent f s).fab = s.fab ∧ (timeEvent f s).upd = s.upd ∧
    (timeEvent f s).dom = s.dom ∧ (timeEvent f s).keys = s.keys ∧ (timeEvent f s).lanes = s.lanes ∧
    (timeEvent f s).aes = s.aes ∧ (timeEvent f s).rxOps = s.rxOps ∧ (timeEvent f s).media = s.media ∧
    (timeEvent f s).video = s.video ∧ (timeEvent f s).audio = s.audio ∧ (timeEvent f s).dsp = s.dsp := by
  and_intros <;> rfl

@[simp] theorem setLink_frame (n : Nat) (v : DlLink) (s : State) :
    (setLink n v s).pending = s.pending ∧ (setLink n v s).res = s.res ∧ (setLink n v s).free = s.free ∧
    (setLink n v s).nextOp = s.nextOp ∧ (setLink n v s).out = s.out ∧ (setLink n v s).readData = s.readData ∧
    (setLink n v s).burst = s.burst ∧ (setLink n v s).burstPoison = s.burstPoison ∧
    (setLink n v s).hostMem = s.hostMem ∧ (setLink n v s).dram = s.dram ∧ (setLink n v s).lowHeld = s.lowHeld ∧
    (setLink n v s).latch = s.latch ∧ (setLink n v s).ctr = s.ctr ∧ (setLink n v s).ids = s.ids ∧
    (setLink n v s).hq = s.hq ∧ (setLink n v s).disp = s.disp ∧ (setLink n v s).fwOps = s.fwOps ∧
    (setLink n v s).fwDone = s.fwDone ∧ (setLink n v s).evr = s.evr ∧ (setLink n v s).dump = s.dump ∧
    (setLink n v s).dramStacks = s.dramStacks ∧ (setLink n v s).acc = s.acc ∧ (setLink n v s).time = s.time ∧
    (setLink n v s).power = s.power ∧ (setLink n v s).body = s.body ∧ (setLink n v s).fab = s.fab ∧
    (setLink n v s).upd = s.upd ∧ (setLink n v s).dom = s.dom ∧ (setLink n v s).keys = s.keys ∧
    (setLink n v s).lanes = s.lanes ∧ (setLink n v s).aes = s.aes ∧ (setLink n v s).rxOps = s.rxOps ∧
    (setLink n v s).media = s.media ∧ (setLink n v s).video = s.video ∧ (setLink n v s).audio = s.audio ∧
    (setLink n v s).dsp = s.dsp := by
  and_intros <;> rfl

@[simp] theorem updLink_frame (n : Nat) (f : DlLink → DlLink) (s : State) :
    (updLink n f s).pending = s.pending ∧ (updLink n f s).res = s.res ∧ (updLink n f s).free = s.free ∧
    (updLink n f s).nextOp = s.nextOp ∧ (updLink n f s).out = s.out ∧ (updLink n f s).readData = s.readData ∧
    (updLink n f s).burst = s.burst ∧ (updLink n f s).burstPoison = s.burstPoison ∧
    (updLink n f s).hostMem = s.hostMem ∧ (updLink n f s).dram = s.dram ∧ (updLink n f s).lowHeld = s.lowHeld ∧
    (updLink n f s).latch = s.latch ∧ (updLink n f s).ctr = s.ctr ∧ (updLink n f s).ids = s.ids ∧
    (updLink n f s).hq = s.hq ∧ (updLink n f s).disp = s.disp ∧ (updLink n f s).fwOps = s.fwOps ∧
    (updLink n f s).fwDone = s.fwDone ∧ (updLink n f s).evr = s.evr ∧ (updLink n f s).dump = s.dump ∧
    (updLink n f s).dramStacks = s.dramStacks ∧ (updLink n f s).acc = s.acc ∧ (updLink n f s).time = s.time ∧
    (updLink n f s).power = s.power ∧ (updLink n f s).body = s.body ∧ (updLink n f s).fab = s.fab ∧
    (updLink n f s).upd = s.upd ∧ (updLink n f s).dom = s.dom ∧ (updLink n f s).keys = s.keys ∧
    (updLink n f s).lanes = s.lanes ∧ (updLink n f s).aes = s.aes ∧ (updLink n f s).rxOps = s.rxOps ∧
    (updLink n f s).media = s.media ∧ (updLink n f s).video = s.video ∧ (updLink n f s).audio = s.audio ∧
    (updLink n f s).dsp = s.dsp := by
  and_intros <;> rfl

@[simp] theorem setIsland_frame (i : Nat) (v : Island) (s : State) :
    (setIsland i v s).pending = s.pending ∧ (setIsland i v s).res = s.res ∧ (setIsland i v s).free = s.free ∧
    (setIsland i v s).nextOp = s.nextOp ∧ (setIsland i v s).out = s.out ∧ (setIsland i v s).readData = s.readData ∧
    (setIsland i v s).burst = s.burst ∧ (setIsland i v s).burstPoison = s.burstPoison ∧
    (setIsland i v s).hostMem = s.hostMem ∧ (setIsland i v s).dram = s.dram ∧ (setIsland i v s).lowHeld = s.lowHeld ∧
    (setIsland i v s).latch = s.latch ∧ (setIsland i v s).ctr = s.ctr ∧ (setIsland i v s).ids = s.ids ∧
    (setIsland i v s).hq = s.hq ∧ (setIsland i v s).disp = s.disp ∧ (setIsland i v s).fwOps = s.fwOps ∧
    (setIsland i v s).fwDone = s.fwDone ∧ (setIsland i v s).evr = s.evr ∧ (setIsland i v s).dump = s.dump ∧
    (setIsland i v s).dramStacks = s.dramStacks ∧ (setIsland i v s).acc = s.acc ∧ (setIsland i v s).time = s.time ∧
    (setIsland i v s).links = s.links ∧ (setIsland i v s).body = s.body ∧ (setIsland i v s).fab = s.fab ∧
    (setIsland i v s).upd = s.upd ∧ (setIsland i v s).dom = s.dom ∧ (setIsland i v s).keys = s.keys ∧
    (setIsland i v s).lanes = s.lanes ∧ (setIsland i v s).aes = s.aes ∧ (setIsland i v s).rxOps = s.rxOps ∧
    (setIsland i v s).media = s.media ∧ (setIsland i v s).video = s.video ∧ (setIsland i v s).audio = s.audio ∧
    (setIsland i v s).dsp = s.dsp := by
  and_intros <;> rfl

@[simp] theorem addWork_frame (t : Nat) (s : State) :
    (addWork t s).pending = s.pending ∧ (addWork t s).res = s.res ∧ (addWork t s).free = s.free ∧
    (addWork t s).nextOp = s.nextOp ∧ (addWork t s).out = s.out ∧ (addWork t s).readData = s.readData ∧
    (addWork t s).burst = s.burst ∧ (addWork t s).burstPoison = s.burstPoison ∧ (addWork t s).hostMem = s.hostMem ∧
    (addWork t s).dram = s.dram ∧ (addWork t s).lowHeld = s.lowHeld ∧ (addWork t s).latch = s.latch ∧
    (addWork t s).ctr = s.ctr ∧ (addWork t s).ids = s.ids ∧ (addWork t s).hq = s.hq ∧ (addWork t s).disp = s.disp ∧
    (addWork t s).fwOps = s.fwOps ∧ (addWork t s).fwDone = s.fwDone ∧ (addWork t s).evr = s.evr ∧
    (addWork t s).dump = s.dump ∧ (addWork t s).dramStacks = s.dramStacks ∧ (addWork t s).acc = s.acc ∧
    (addWork t s).time = s.time ∧ (addWork t s).links = s.links ∧ (addWork t s).body = s.body ∧
    (addWork t s).fab = s.fab ∧ (addWork t s).upd = s.upd ∧ (addWork t s).dom = s.dom ∧ (addWork t s).keys = s.keys ∧
    (addWork t s).lanes = s.lanes ∧ (addWork t s).aes = s.aes ∧ (addWork t s).rxOps = s.rxOps ∧
    (addWork t s).media = s.media ∧ (addWork t s).video = s.video ∧ (addWork t s).audio = s.audio ∧
    (addWork t s).dsp = s.dsp := by
  and_intros <;> rfl

@[simp] theorem dropWork_frame (t : Nat) (s : State) :
    (dropWork t s).pending = s.pending ∧ (dropWork t s).res = s.res ∧ (dropWork t s).free = s.free ∧
    (dropWork t s).nextOp = s.nextOp ∧ (dropWork t s).out = s.out ∧ (dropWork t s).readData = s.readData ∧
    (dropWork t s).burst = s.burst ∧ (dropWork t s).burstPoison = s.burstPoison ∧
    (dropWork t s).hostMem = s.hostMem ∧ (dropWork t s).dram = s.dram ∧ (dropWork t s).lowHeld = s.lowHeld ∧
    (dropWork t s).latch = s.latch ∧ (dropWork t s).ctr = s.ctr ∧ (dropWork t s).ids = s.ids ∧
    (dropWork t s).hq = s.hq ∧ (dropWork t s).disp = s.disp ∧ (dropWork t s).fwOps = s.fwOps ∧
    (dropWork t s).fwDone = s.fwDone ∧ (dropWork t s).evr = s.evr ∧ (dropWork t s).dump = s.dump ∧
    (dropWork t s).dramStacks = s.dramStacks ∧ (dropWork t s).acc = s.acc ∧ (dropWork t s).time = s.time ∧
    (dropWork t s).links = s.links ∧ (dropWork t s).body = s.body ∧ (dropWork t s).fab = s.fab ∧
    (dropWork t s).upd = s.upd ∧ (dropWork t s).dom = s.dom ∧ (dropWork t s).keys = s.keys ∧
    (dropWork t s).lanes = s.lanes ∧ (dropWork t s).aes = s.aes ∧ (dropWork t s).rxOps = s.rxOps ∧
    (dropWork t s).media = s.media ∧ (dropWork t s).video = s.video ∧ (dropWork t s).audio = s.audio ∧
    (dropWork t s).dsp = s.dsp := by
  and_intros <;> rfl

@[simp] theorem addLoad_frame (p r l : Nat) (s : State) :
    (addLoad p r l s).pending = s.pending ∧ (addLoad p r l s).res = s.res ∧ (addLoad p r l s).free = s.free ∧
    (addLoad p r l s).nextOp = s.nextOp ∧ (addLoad p r l s).out = s.out ∧ (addLoad p r l s).readData = s.readData ∧
    (addLoad p r l s).burst = s.burst ∧ (addLoad p r l s).burstPoison = s.burstPoison ∧
    (addLoad p r l s).hostMem = s.hostMem ∧ (addLoad p r l s).dram = s.dram ∧ (addLoad p r l s).lowHeld = s.lowHeld ∧
    (addLoad p r l s).latch = s.latch ∧ (addLoad p r l s).ctr = s.ctr ∧ (addLoad p r l s).ids = s.ids ∧
    (addLoad p r l s).hq = s.hq ∧ (addLoad p r l s).disp = s.disp ∧ (addLoad p r l s).fwOps = s.fwOps ∧
    (addLoad p r l s).fwDone = s.fwDone ∧ (addLoad p r l s).evr = s.evr ∧ (addLoad p r l s).dump = s.dump ∧
    (addLoad p r l s).dramStacks = s.dramStacks ∧ (addLoad p r l s).acc = s.acc ∧ (addLoad p r l s).time = s.time ∧
    (addLoad p r l s).links = s.links ∧ (addLoad p r l s).body = s.body ∧ (addLoad p r l s).fab = s.fab ∧
    (addLoad p r l s).upd = s.upd ∧ (addLoad p r l s).dom = s.dom ∧ (addLoad p r l s).keys = s.keys ∧
    (addLoad p r l s).lanes = s.lanes ∧ (addLoad p r l s).aes = s.aes ∧ (addLoad p r l s).rxOps = s.rxOps ∧
    (addLoad p r l s).media = s.media ∧ (addLoad p r l s).video = s.video ∧ (addLoad p r l s).audio = s.audio ∧
    (addLoad p r l s).dsp = s.dsp := by
  and_intros <;> rfl

@[simp] theorem bodyFault_frame (f : Body → Body) (s : State) :
    (bodyFault f s).pending = s.pending ∧ (bodyFault f s).res = s.res ∧ (bodyFault f s).free = s.free ∧
    (bodyFault f s).nextOp = s.nextOp ∧ (bodyFault f s).readData = s.readData ∧ (bodyFault f s).burst = s.burst ∧
    (bodyFault f s).burstPoison = s.burstPoison ∧ (bodyFault f s).hostMem = s.hostMem ∧
    (bodyFault f s).dram = s.dram ∧ (bodyFault f s).lowHeld = s.lowHeld ∧ (bodyFault f s).latch = s.latch ∧
    (bodyFault f s).ctr = s.ctr ∧ (bodyFault f s).ids = s.ids ∧ (bodyFault f s).hq = s.hq ∧
    (bodyFault f s).disp = s.disp ∧ (bodyFault f s).fwOps = s.fwOps ∧ (bodyFault f s).fwDone = s.fwDone ∧
    (bodyFault f s).evr = s.evr ∧ (bodyFault f s).dump = s.dump ∧ (bodyFault f s).dramStacks = s.dramStacks ∧
    (bodyFault f s).acc = s.acc ∧ (bodyFault f s).time = s.time ∧ (bodyFault f s).links = s.links ∧
    (bodyFault f s).power = s.power ∧ (bodyFault f s).fab = s.fab ∧ (bodyFault f s).upd = s.upd ∧
    (bodyFault f s).dom = s.dom ∧ (bodyFault f s).keys = s.keys ∧ (bodyFault f s).lanes = s.lanes ∧
    (bodyFault f s).aes = s.aes ∧ (bodyFault f s).rxOps = s.rxOps ∧ (bodyFault f s).media = s.media ∧
    (bodyFault f s).video = s.video ∧ (bodyFault f s).audio = s.audio ∧ (bodyFault f s).dsp = s.dsp := by
  and_intros <;> rfl

@[simp] theorem setSlot_frame (k : Nat) (v : Slot) (s : State) :
    (setSlot k v s).pending = s.pending ∧ (setSlot k v s).res = s.res ∧ (setSlot k v s).free = s.free ∧
    (setSlot k v s).nextOp = s.nextOp ∧ (setSlot k v s).out = s.out ∧ (setSlot k v s).readData = s.readData ∧
    (setSlot k v s).burst = s.burst ∧ (setSlot k v s).burstPoison = s.burstPoison ∧
    (setSlot k v s).hostMem = s.hostMem ∧ (setSlot k v s).dram = s.dram ∧ (setSlot k v s).lowHeld = s.lowHeld ∧
    (setSlot k v s).latch = s.latch ∧ (setSlot k v s).ctr = s.ctr ∧ (setSlot k v s).ids = s.ids ∧
    (setSlot k v s).hq = s.hq ∧ (setSlot k v s).disp = s.disp ∧ (setSlot k v s).fwOps = s.fwOps ∧
    (setSlot k v s).fwDone = s.fwDone ∧ (setSlot k v s).evr = s.evr ∧ (setSlot k v s).dump = s.dump ∧
    (setSlot k v s).dramStacks = s.dramStacks ∧ (setSlot k v s).acc = s.acc ∧ (setSlot k v s).time = s.time ∧
    (setSlot k v s).links = s.links ∧ (setSlot k v s).power = s.power ∧ (setSlot k v s).body = s.body ∧
    (setSlot k v s).fab = s.fab ∧ (setSlot k v s).upd = s.upd ∧ (setSlot k v s).dom = s.dom ∧
    (setSlot k v s).lanes = s.lanes ∧ (setSlot k v s).aes = s.aes ∧ (setSlot k v s).rxOps = s.rxOps ∧
    (setSlot k v s).media = s.media ∧ (setSlot k v s).video = s.video ∧ (setSlot k v s).audio = s.audio ∧
    (setSlot k v s).dsp = s.dsp := by
  and_intros <;> rfl

@[simp] theorem updSlot_frame (k : Nat) (f : Slot → Slot) (s : State) :
    (updSlot k f s).pending = s.pending ∧ (updSlot k f s).res = s.res ∧ (updSlot k f s).free = s.free ∧
    (updSlot k f s).nextOp = s.nextOp ∧ (updSlot k f s).out = s.out ∧ (updSlot k f s).readData = s.readData ∧
    (updSlot k f s).burst = s.burst ∧ (updSlot k f s).burstPoison = s.burstPoison ∧
    (updSlot k f s).hostMem = s.hostMem ∧ (updSlot k f s).dram = s.dram ∧ (updSlot k f s).lowHeld = s.lowHeld ∧
    (updSlot k f s).latch = s.latch ∧ (updSlot k f s).ctr = s.ctr ∧ (updSlot k f s).ids = s.ids ∧
    (updSlot k f s).hq = s.hq ∧ (updSlot k f s).disp = s.disp ∧ (updSlot k f s).fwOps = s.fwOps ∧
    (updSlot k f s).fwDone = s.fwDone ∧ (updSlot k f s).evr = s.evr ∧ (updSlot k f s).dump = s.dump ∧
    (updSlot k f s).dramStacks = s.dramStacks ∧ (updSlot k f s).acc = s.acc ∧ (updSlot k f s).time = s.time ∧
    (updSlot k f s).links = s.links ∧ (updSlot k f s).power = s.power ∧ (updSlot k f s).body = s.body ∧
    (updSlot k f s).fab = s.fab ∧ (updSlot k f s).upd = s.upd ∧ (updSlot k f s).dom = s.dom ∧
    (updSlot k f s).lanes = s.lanes ∧ (updSlot k f s).aes = s.aes ∧ (updSlot k f s).rxOps = s.rxOps ∧
    (updSlot k f s).media = s.media ∧ (updSlot k f s).video = s.video ∧ (updSlot k f s).audio = s.audio ∧
    (updSlot k f s).dsp = s.dsp := by
  and_intros <;> rfl

@[simp] theorem hostPut_frame (a : Nat) (bs : List Byte) (s : State) :
    (hostPut a bs s).pending = s.pending ∧ (hostPut a bs s).res = s.res ∧ (hostPut a bs s).free = s.free ∧
    (hostPut a bs s).nextOp = s.nextOp ∧ (hostPut a bs s).out = s.out ∧ (hostPut a bs s).readData = s.readData ∧
    (hostPut a bs s).burst = s.burst ∧ (hostPut a bs s).burstPoison = s.burstPoison ∧
    (hostPut a bs s).dram = s.dram ∧ (hostPut a bs s).lowHeld = s.lowHeld ∧ (hostPut a bs s).latch = s.latch ∧
    (hostPut a bs s).ctr = s.ctr ∧ (hostPut a bs s).ids = s.ids ∧ (hostPut a bs s).hq = s.hq ∧
    (hostPut a bs s).disp = s.disp ∧ (hostPut a bs s).fwOps = s.fwOps ∧ (hostPut a bs s).fwDone = s.fwDone ∧
    (hostPut a bs s).evr = s.evr ∧ (hostPut a bs s).dump = s.dump ∧ (hostPut a bs s).dramStacks = s.dramStacks ∧
    (hostPut a bs s).acc = s.acc ∧ (hostPut a bs s).time = s.time ∧ (hostPut a bs s).links = s.links ∧
    (hostPut a bs s).power = s.power ∧ (hostPut a bs s).body = s.body ∧ (hostPut a bs s).fab = s.fab ∧
    (hostPut a bs s).upd = s.upd ∧ (hostPut a bs s).dom = s.dom ∧ (hostPut a bs s).keys = s.keys ∧
    (hostPut a bs s).lanes = s.lanes ∧ (hostPut a bs s).aes = s.aes ∧ (hostPut a bs s).rxOps = s.rxOps ∧
    (hostPut a bs s).media = s.media ∧ (hostPut a bs s).video = s.video ∧ (hostPut a bs s).audio = s.audio ∧
    (hostPut a bs s).dsp = s.dsp := by
  and_intros <;> rfl

@[simp] theorem setLane_frame (l : Nat) (v : Lane) (s : State) :
    (setLane l v s).pending = s.pending ∧ (setLane l v s).res = s.res ∧ (setLane l v s).free = s.free ∧
    (setLane l v s).nextOp = s.nextOp ∧ (setLane l v s).out = s.out ∧ (setLane l v s).readData = s.readData ∧
    (setLane l v s).burst = s.burst ∧ (setLane l v s).burstPoison = s.burstPoison ∧
    (setLane l v s).hostMem = s.hostMem ∧ (setLane l v s).dram = s.dram ∧ (setLane l v s).lowHeld = s.lowHeld ∧
    (setLane l v s).latch = s.latch ∧ (setLane l v s).ctr = s.ctr ∧ (setLane l v s).ids = s.ids ∧
    (setLane l v s).hq = s.hq ∧ (setLane l v s).disp = s.disp ∧ (setLane l v s).fwOps = s.fwOps ∧
    (setLane l v s).fwDone = s.fwDone ∧ (setLane l v s).evr = s.evr ∧ (setLane l v s).dump = s.dump ∧
    (setLane l v s).dramStacks = s.dramStacks ∧ (setLane l v s).acc = s.acc ∧ (setLane l v s).time = s.time ∧
    (setLane l v s).links = s.links ∧ (setLane l v s).power = s.power ∧ (setLane l v s).body = s.body ∧
    (setLane l v s).fab = s.fab ∧ (setLane l v s).upd = s.upd ∧ (setLane l v s).dom = s.dom ∧
    (setLane l v s).keys = s.keys ∧ (setLane l v s).aes = s.aes ∧ (setLane l v s).rxOps = s.rxOps ∧
    (setLane l v s).media = s.media ∧ (setLane l v s).video = s.video ∧ (setLane l v s).audio = s.audio ∧
    (setLane l v s).dsp = s.dsp := by
  and_intros <;> rfl

@[simp] theorem updLane_frame (l : Nat) (f : Lane → Lane) (s : State) :
    (updLane l f s).pending = s.pending ∧ (updLane l f s).res = s.res ∧ (updLane l f s).free = s.free ∧
    (updLane l f s).nextOp = s.nextOp ∧ (updLane l f s).out = s.out ∧ (updLane l f s).readData = s.readData ∧
    (updLane l f s).burst = s.burst ∧ (updLane l f s).burstPoison = s.burstPoison ∧
    (updLane l f s).hostMem = s.hostMem ∧ (updLane l f s).dram = s.dram ∧ (updLane l f s).lowHeld = s.lowHeld ∧
    (updLane l f s).latch = s.latch ∧ (updLane l f s).ctr = s.ctr ∧ (updLane l f s).ids = s.ids ∧
    (updLane l f s).hq = s.hq ∧ (updLane l f s).disp = s.disp ∧ (updLane l f s).fwOps = s.fwOps ∧
    (updLane l f s).fwDone = s.fwDone ∧ (updLane l f s).evr = s.evr ∧ (updLane l f s).dump = s.dump ∧
    (updLane l f s).dramStacks = s.dramStacks ∧ (updLane l f s).acc = s.acc ∧ (updLane l f s).time = s.time ∧
    (updLane l f s).links = s.links ∧ (updLane l f s).power = s.power ∧ (updLane l f s).body = s.body ∧
    (updLane l f s).fab = s.fab ∧ (updLane l f s).upd = s.upd ∧ (updLane l f s).dom = s.dom ∧
    (updLane l f s).keys = s.keys ∧ (updLane l f s).aes = s.aes ∧ (updLane l f s).rxOps = s.rxOps ∧
    (updLane l f s).media = s.media ∧ (updLane l f s).video = s.video ∧ (updLane l f s).audio = s.audio ∧
    (updLane l f s).dsp = s.dsp := by
  and_intros <;> rfl

@[simp] theorem setGroupCfg_frame (g : Nat) (v : LaneGroup) (s : State) :
    (setGroupCfg g v s).pending = s.pending ∧ (setGroupCfg g v s).res = s.res ∧ (setGroupCfg g v s).free = s.free ∧
    (setGroupCfg g v s).nextOp = s.nextOp ∧ (setGroupCfg g v s).out = s.out ∧
    (setGroupCfg g v s).readData = s.readData ∧ (setGroupCfg g v s).burst = s.burst ∧
    (setGroupCfg g v s).burstPoison = s.burstPoison ∧ (setGroupCfg g v s).hostMem = s.hostMem ∧
    (setGroupCfg g v s).dram = s.dram ∧ (setGroupCfg g v s).lowHeld = s.lowHeld ∧
    (setGroupCfg g v s).latch = s.latch ∧ (setGroupCfg g v s).ctr = s.ctr ∧ (setGroupCfg g v s).ids = s.ids ∧
    (setGroupCfg g v s).hq = s.hq ∧ (setGroupCfg g v s).disp = s.disp ∧ (setGroupCfg g v s).fwOps = s.fwOps ∧
    (setGroupCfg g v s).fwDone = s.fwDone ∧ (setGroupCfg g v s).evr = s.evr ∧ (setGroupCfg g v s).dump = s.dump ∧
    (setGroupCfg g v s).dramStacks = s.dramStacks ∧ (setGroupCfg g v s).acc = s.acc ∧ (setGroupCfg g v s).time = s.time ∧
    (setGroupCfg g v s).links = s.links ∧ (setGroupCfg g v s).power = s.power ∧ (setGroupCfg g v s).body = s.body ∧
    (setGroupCfg g v s).fab = s.fab ∧ (setGroupCfg g v s).upd = s.upd ∧ (setGroupCfg g v s).dom = s.dom ∧
    (setGroupCfg g v s).keys = s.keys ∧ (setGroupCfg g v s).aes = s.aes ∧ (setGroupCfg g v s).rxOps = s.rxOps ∧
    (setGroupCfg g v s).media = s.media ∧ (setGroupCfg g v s).video = s.video ∧ (setGroupCfg g v s).audio = s.audio ∧
    (setGroupCfg g v s).dsp = s.dsp := by
  and_intros <;> rfl

@[simp] theorem setAesIn_frame (i : Nat) (v : AesIn) (s : State) :
    (setAesIn i v s).pending = s.pending ∧ (setAesIn i v s).res = s.res ∧ (setAesIn i v s).free = s.free ∧
    (setAesIn i v s).nextOp = s.nextOp ∧ (setAesIn i v s).out = s.out ∧ (setAesIn i v s).readData = s.readData ∧
    (setAesIn i v s).burst = s.burst ∧ (setAesIn i v s).burstPoison = s.burstPoison ∧
    (setAesIn i v s).hostMem = s.hostMem ∧ (setAesIn i v s).dram = s.dram ∧ (setAesIn i v s).lowHeld = s.lowHeld ∧
    (setAesIn i v s).latch = s.latch ∧ (setAesIn i v s).ctr = s.ctr ∧ (setAesIn i v s).ids = s.ids ∧
    (setAesIn i v s).hq = s.hq ∧ (setAesIn i v s).disp = s.disp ∧ (setAesIn i v s).fwOps = s.fwOps ∧
    (setAesIn i v s).fwDone = s.fwDone ∧ (setAesIn i v s).evr = s.evr ∧ (setAesIn i v s).dump = s.dump ∧
    (setAesIn i v s).dramStacks = s.dramStacks ∧ (setAesIn i v s).acc = s.acc ∧ (setAesIn i v s).time = s.time ∧
    (setAesIn i v s).links = s.links ∧ (setAesIn i v s).power = s.power ∧ (setAesIn i v s).body = s.body ∧
    (setAesIn i v s).fab = s.fab ∧ (setAesIn i v s).upd = s.upd ∧ (setAesIn i v s).dom = s.dom ∧
    (setAesIn i v s).keys = s.keys ∧ (setAesIn i v s).lanes = s.lanes ∧ (setAesIn i v s).rxOps = s.rxOps ∧
    (setAesIn i v s).media = s.media ∧ (setAesIn i v s).video = s.video ∧ (setAesIn i v s).audio = s.audio ∧
    (setAesIn i v s).dsp = s.dsp := by
  and_intros <;> rfl

@[simp] theorem updAesIn_frame (i : Nat) (f : AesIn → AesIn) (s : State) :
    (updAesIn i f s).pending = s.pending ∧ (updAesIn i f s).res = s.res ∧ (updAesIn i f s).free = s.free ∧
    (updAesIn i f s).nextOp = s.nextOp ∧ (updAesIn i f s).out = s.out ∧ (updAesIn i f s).readData = s.readData ∧
    (updAesIn i f s).burst = s.burst ∧ (updAesIn i f s).burstPoison = s.burstPoison ∧
    (updAesIn i f s).hostMem = s.hostMem ∧ (updAesIn i f s).dram = s.dram ∧ (updAesIn i f s).lowHeld = s.lowHeld ∧
    (updAesIn i f s).latch = s.latch ∧ (updAesIn i f s).ctr = s.ctr ∧ (updAesIn i f s).ids = s.ids ∧
    (updAesIn i f s).hq = s.hq ∧ (updAesIn i f s).disp = s.disp ∧ (updAesIn i f s).fwOps = s.fwOps ∧
    (updAesIn i f s).fwDone = s.fwDone ∧ (updAesIn i f s).evr = s.evr ∧ (updAesIn i f s).dump = s.dump ∧
    (updAesIn i f s).dramStacks = s.dramStacks ∧ (updAesIn i f s).acc = s.acc ∧ (updAesIn i f s).time = s.time ∧
    (updAesIn i f s).links = s.links ∧ (updAesIn i f s).power = s.power ∧ (updAesIn i f s).body = s.body ∧
    (updAesIn i f s).fab = s.fab ∧ (updAesIn i f s).upd = s.upd ∧ (updAesIn i f s).dom = s.dom ∧
    (updAesIn i f s).keys = s.keys ∧ (updAesIn i f s).lanes = s.lanes ∧ (updAesIn i f s).rxOps = s.rxOps ∧
    (updAesIn i f s).media = s.media ∧ (updAesIn i f s).video = s.video ∧ (updAesIn i f s).audio = s.audio ∧
    (updAesIn i f s).dsp = s.dsp := by
  and_intros <;> rfl

@[simp] theorem setAesOut_frame (i : Nat) (v : AesOut) (s : State) :
    (setAesOut i v s).pending = s.pending ∧ (setAesOut i v s).res = s.res ∧ (setAesOut i v s).free = s.free ∧
    (setAesOut i v s).nextOp = s.nextOp ∧ (setAesOut i v s).out = s.out ∧ (setAesOut i v s).readData = s.readData ∧
    (setAesOut i v s).burst = s.burst ∧ (setAesOut i v s).burstPoison = s.burstPoison ∧
    (setAesOut i v s).hostMem = s.hostMem ∧ (setAesOut i v s).dram = s.dram ∧ (setAesOut i v s).lowHeld = s.lowHeld ∧
    (setAesOut i v s).latch = s.latch ∧ (setAesOut i v s).ctr = s.ctr ∧ (setAesOut i v s).ids = s.ids ∧
    (setAesOut i v s).hq = s.hq ∧ (setAesOut i v s).disp = s.disp ∧ (setAesOut i v s).fwOps = s.fwOps ∧
    (setAesOut i v s).fwDone = s.fwDone ∧ (setAesOut i v s).evr = s.evr ∧ (setAesOut i v s).dump = s.dump ∧
    (setAesOut i v s).dramStacks = s.dramStacks ∧ (setAesOut i v s).acc = s.acc ∧ (setAesOut i v s).time = s.time ∧
    (setAesOut i v s).links = s.links ∧ (setAesOut i v s).power = s.power ∧ (setAesOut i v s).body = s.body ∧
    (setAesOut i v s).fab = s.fab ∧ (setAesOut i v s).upd = s.upd ∧ (setAesOut i v s).dom = s.dom ∧
    (setAesOut i v s).keys = s.keys ∧ (setAesOut i v s).lanes = s.lanes ∧ (setAesOut i v s).rxOps = s.rxOps ∧
    (setAesOut i v s).media = s.media ∧ (setAesOut i v s).video = s.video ∧ (setAesOut i v s).audio = s.audio ∧
    (setAesOut i v s).dsp = s.dsp := by
  and_intros <;> rfl

@[simp] theorem updAesOut_frame (i : Nat) (f : AesOut → AesOut) (s : State) :
    (updAesOut i f s).pending = s.pending ∧ (updAesOut i f s).res = s.res ∧ (updAesOut i f s).free = s.free ∧
    (updAesOut i f s).nextOp = s.nextOp ∧ (updAesOut i f s).out = s.out ∧ (updAesOut i f s).readData = s.readData ∧
    (updAesOut i f s).burst = s.burst ∧ (updAesOut i f s).burstPoison = s.burstPoison ∧
    (updAesOut i f s).hostMem = s.hostMem ∧ (updAesOut i f s).dram = s.dram ∧ (updAesOut i f s).lowHeld = s.lowHeld ∧
    (updAesOut i f s).latch = s.latch ∧ (updAesOut i f s).ctr = s.ctr ∧ (updAesOut i f s).ids = s.ids ∧
    (updAesOut i f s).hq = s.hq ∧ (updAesOut i f s).disp = s.disp ∧ (updAesOut i f s).fwOps = s.fwOps ∧
    (updAesOut i f s).fwDone = s.fwDone ∧ (updAesOut i f s).evr = s.evr ∧ (updAesOut i f s).dump = s.dump ∧
    (updAesOut i f s).dramStacks = s.dramStacks ∧ (updAesOut i f s).acc = s.acc ∧ (updAesOut i f s).time = s.time ∧
    (updAesOut i f s).links = s.links ∧ (updAesOut i f s).power = s.power ∧ (updAesOut i f s).body = s.body ∧
    (updAesOut i f s).fab = s.fab ∧ (updAesOut i f s).upd = s.upd ∧ (updAesOut i f s).dom = s.dom ∧
    (updAesOut i f s).keys = s.keys ∧ (updAesOut i f s).lanes = s.lanes ∧ (updAesOut i f s).rxOps = s.rxOps ∧
    (updAesOut i f s).media = s.media ∧ (updAesOut i f s).video = s.video ∧ (updAesOut i f s).audio = s.audio ∧
    (updAesOut i f s).dsp = s.dsp := by
  and_intros <;> rfl

@[simp] theorem setAesGroup_frame (g : Nat) (v : AesGroup) (s : State) :
    (setAesGroup g v s).pending = s.pending ∧ (setAesGroup g v s).res = s.res ∧ (setAesGroup g v s).free = s.free ∧
    (setAesGroup g v s).nextOp = s.nextOp ∧ (setAesGroup g v s).out = s.out ∧
    (setAesGroup g v s).readData = s.readData ∧ (setAesGroup g v s).burst = s.burst ∧
    (setAesGroup g v s).burstPoison = s.burstPoison ∧ (setAesGroup g v s).hostMem = s.hostMem ∧
    (setAesGroup g v s).dram = s.dram ∧ (setAesGroup g v s).lowHeld = s.lowHeld ∧
    (setAesGroup g v s).latch = s.latch ∧ (setAesGroup g v s).ctr = s.ctr ∧ (setAesGroup g v s).ids = s.ids ∧
    (setAesGroup g v s).hq = s.hq ∧ (setAesGroup g v s).disp = s.disp ∧ (setAesGroup g v s).fwOps = s.fwOps ∧
    (setAesGroup g v s).fwDone = s.fwDone ∧ (setAesGroup g v s).evr = s.evr ∧ (setAesGroup g v s).dump = s.dump ∧
    (setAesGroup g v s).dramStacks = s.dramStacks ∧ (setAesGroup g v s).acc = s.acc ∧ (setAesGroup g v s).time = s.time ∧
    (setAesGroup g v s).links = s.links ∧ (setAesGroup g v s).power = s.power ∧ (setAesGroup g v s).body = s.body ∧
    (setAesGroup g v s).fab = s.fab ∧ (setAesGroup g v s).upd = s.upd ∧ (setAesGroup g v s).dom = s.dom ∧
    (setAesGroup g v s).keys = s.keys ∧ (setAesGroup g v s).lanes = s.lanes ∧ (setAesGroup g v s).rxOps = s.rxOps ∧
    (setAesGroup g v s).media = s.media ∧ (setAesGroup g v s).video = s.video ∧ (setAesGroup g v s).audio = s.audio ∧
    (setAesGroup g v s).dsp = s.dsp := by
  and_intros <;> rfl

@[simp] theorem aesEvent_frame (f : Aes → Aes) (s : State) :
    (aesEvent f s).pending = s.pending ∧ (aesEvent f s).res = s.res ∧ (aesEvent f s).free = s.free ∧
    (aesEvent f s).nextOp = s.nextOp ∧ (aesEvent f s).readData = s.readData ∧ (aesEvent f s).burst = s.burst ∧
    (aesEvent f s).burstPoison = s.burstPoison ∧ (aesEvent f s).hostMem = s.hostMem ∧ (aesEvent f s).dram = s.dram ∧
    (aesEvent f s).lowHeld = s.lowHeld ∧ (aesEvent f s).latch = s.latch ∧ (aesEvent f s).ctr = s.ctr ∧
    (aesEvent f s).ids = s.ids ∧ (aesEvent f s).hq = s.hq ∧ (aesEvent f s).disp = s.disp ∧
    (aesEvent f s).fwOps = s.fwOps ∧ (aesEvent f s).fwDone = s.fwDone ∧ (aesEvent f s).evr = s.evr ∧
    (aesEvent f s).dump = s.dump ∧ (aesEvent f s).dramStacks = s.dramStacks ∧ (aesEvent f s).acc = s.acc ∧
    (aesEvent f s).time = s.time ∧ (aesEvent f s).links = s.links ∧ (aesEvent f s).power = s.power ∧
    (aesEvent f s).body = s.body ∧ (aesEvent f s).fab = s.fab ∧ (aesEvent f s).upd = s.upd ∧
    (aesEvent f s).dom = s.dom ∧ (aesEvent f s).keys = s.keys ∧ (aesEvent f s).lanes = s.lanes ∧
    (aesEvent f s).rxOps = s.rxOps ∧ (aesEvent f s).media = s.media ∧ (aesEvent f s).video = s.video ∧
    (aesEvent f s).audio = s.audio ∧ (aesEvent f s).dsp = s.dsp := by
  and_intros <;> rfl

@[simp] theorem setSource_frame (i : Nat) (v : Source) (s : State) :
    (setSource i v s).pending = s.pending ∧ (setSource i v s).res = s.res ∧ (setSource i v s).free = s.free ∧
    (setSource i v s).nextOp = s.nextOp ∧ (setSource i v s).out = s.out ∧ (setSource i v s).readData = s.readData ∧
    (setSource i v s).burst = s.burst ∧ (setSource i v s).burstPoison = s.burstPoison ∧
    (setSource i v s).hostMem = s.hostMem ∧ (setSource i v s).dram = s.dram ∧ (setSource i v s).lowHeld = s.lowHeld ∧
    (setSource i v s).latch = s.latch ∧ (setSource i v s).ctr = s.ctr ∧ (setSource i v s).ids = s.ids ∧
    (setSource i v s).hq = s.hq ∧ (setSource i v s).disp = s.disp ∧ (setSource i v s).fwOps = s.fwOps ∧
    (setSource i v s).fwDone = s.fwDone ∧ (setSource i v s).evr = s.evr ∧ (setSource i v s).dump = s.dump ∧
    (setSource i v s).dramStacks = s.dramStacks ∧ (setSource i v s).acc = s.acc ∧ (setSource i v s).time = s.time ∧
    (setSource i v s).links = s.links ∧ (setSource i v s).power = s.power ∧ (setSource i v s).body = s.body ∧
    (setSource i v s).fab = s.fab ∧ (setSource i v s).upd = s.upd ∧ (setSource i v s).dom = s.dom ∧
    (setSource i v s).keys = s.keys ∧ (setSource i v s).lanes = s.lanes ∧ (setSource i v s).aes = s.aes ∧
    (setSource i v s).rxOps = s.rxOps ∧ (setSource i v s).video = s.video ∧ (setSource i v s).audio = s.audio ∧
    (setSource i v s).dsp = s.dsp := by
  and_intros <;> rfl

@[simp] theorem updSource_frame (i : Nat) (f : Source → Source) (s : State) :
    (updSource i f s).pending = s.pending ∧ (updSource i f s).res = s.res ∧ (updSource i f s).free = s.free ∧
    (updSource i f s).nextOp = s.nextOp ∧ (updSource i f s).out = s.out ∧ (updSource i f s).readData = s.readData ∧
    (updSource i f s).burst = s.burst ∧ (updSource i f s).burstPoison = s.burstPoison ∧
    (updSource i f s).hostMem = s.hostMem ∧ (updSource i f s).dram = s.dram ∧ (updSource i f s).lowHeld = s.lowHeld ∧
    (updSource i f s).latch = s.latch ∧ (updSource i f s).ctr = s.ctr ∧ (updSource i f s).ids = s.ids ∧
    (updSource i f s).hq = s.hq ∧ (updSource i f s).disp = s.disp ∧ (updSource i f s).fwOps = s.fwOps ∧
    (updSource i f s).fwDone = s.fwDone ∧ (updSource i f s).evr = s.evr ∧ (updSource i f s).dump = s.dump ∧
    (updSource i f s).dramStacks = s.dramStacks ∧ (updSource i f s).acc = s.acc ∧ (updSource i f s).time = s.time ∧
    (updSource i f s).links = s.links ∧ (updSource i f s).power = s.power ∧ (updSource i f s).body = s.body ∧
    (updSource i f s).fab = s.fab ∧ (updSource i f s).upd = s.upd ∧ (updSource i f s).dom = s.dom ∧
    (updSource i f s).keys = s.keys ∧ (updSource i f s).lanes = s.lanes ∧ (updSource i f s).aes = s.aes ∧
    (updSource i f s).rxOps = s.rxOps ∧ (updSource i f s).video = s.video ∧ (updSource i f s).audio = s.audio ∧
    (updSource i f s).dsp = s.dsp := by
  and_intros <;> rfl

@[simp] theorem srcCount_frame (i c k : Nat) (s : State) :
    (srcCount i c k s).pending = s.pending ∧ (srcCount i c k s).res = s.res ∧ (srcCount i c k s).free = s.free ∧
    (srcCount i c k s).nextOp = s.nextOp ∧ (srcCount i c k s).out = s.out ∧
    (srcCount i c k s).readData = s.readData ∧ (srcCount i c k s).burst = s.burst ∧
    (srcCount i c k s).burstPoison = s.burstPoison ∧ (srcCount i c k s).hostMem = s.hostMem ∧
    (srcCount i c k s).dram = s.dram ∧ (srcCount i c k s).lowHeld = s.lowHeld ∧ (srcCount i c k s).latch = s.latch ∧
    (srcCount i c k s).ctr = s.ctr ∧ (srcCount i c k s).ids = s.ids ∧ (srcCount i c k s).hq = s.hq ∧
    (srcCount i c k s).disp = s.disp ∧ (srcCount i c k s).fwOps = s.fwOps ∧ (srcCount i c k s).fwDone = s.fwDone ∧
    (srcCount i c k s).evr = s.evr ∧ (srcCount i c k s).dump = s.dump ∧ (srcCount i c k s).dramStacks = s.dramStacks ∧
    (srcCount i c k s).acc = s.acc ∧ (srcCount i c k s).time = s.time ∧ (srcCount i c k s).links = s.links ∧
    (srcCount i c k s).power = s.power ∧ (srcCount i c k s).body = s.body ∧ (srcCount i c k s).fab = s.fab ∧
    (srcCount i c k s).upd = s.upd ∧ (srcCount i c k s).dom = s.dom ∧ (srcCount i c k s).keys = s.keys ∧
    (srcCount i c k s).lanes = s.lanes ∧ (srcCount i c k s).aes = s.aes ∧ (srcCount i c k s).rxOps = s.rxOps ∧
    (srcCount i c k s).video = s.video ∧ (srcCount i c k s).audio = s.audio ∧ (srcCount i c k s).dsp = s.dsp := by
  and_intros <;> rfl

@[simp] theorem setLeg_frame (i : Nat) (v : Leg) (s : State) :
    (setLeg i v s).pending = s.pending ∧ (setLeg i v s).res = s.res ∧ (setLeg i v s).free = s.free ∧
    (setLeg i v s).nextOp = s.nextOp ∧ (setLeg i v s).out = s.out ∧ (setLeg i v s).readData = s.readData ∧
    (setLeg i v s).burst = s.burst ∧ (setLeg i v s).burstPoison = s.burstPoison ∧
    (setLeg i v s).hostMem = s.hostMem ∧ (setLeg i v s).dram = s.dram ∧ (setLeg i v s).lowHeld = s.lowHeld ∧
    (setLeg i v s).latch = s.latch ∧ (setLeg i v s).ctr = s.ctr ∧ (setLeg i v s).ids = s.ids ∧
    (setLeg i v s).hq = s.hq ∧ (setLeg i v s).disp = s.disp ∧ (setLeg i v s).fwOps = s.fwOps ∧
    (setLeg i v s).fwDone = s.fwDone ∧ (setLeg i v s).evr = s.evr ∧ (setLeg i v s).dump = s.dump ∧
    (setLeg i v s).dramStacks = s.dramStacks ∧ (setLeg i v s).acc = s.acc ∧ (setLeg i v s).time = s.time ∧
    (setLeg i v s).links = s.links ∧ (setLeg i v s).power = s.power ∧ (setLeg i v s).body = s.body ∧
    (setLeg i v s).fab = s.fab ∧ (setLeg i v s).upd = s.upd ∧ (setLeg i v s).dom = s.dom ∧
    (setLeg i v s).keys = s.keys ∧ (setLeg i v s).lanes = s.lanes ∧ (setLeg i v s).aes = s.aes ∧
    (setLeg i v s).rxOps = s.rxOps ∧ (setLeg i v s).video = s.video ∧ (setLeg i v s).audio = s.audio ∧
    (setLeg i v s).dsp = s.dsp := by
  and_intros <;> rfl

@[simp] theorem updLeg_frame (i : Nat) (f : Leg → Leg) (s : State) :
    (updLeg i f s).pending = s.pending ∧ (updLeg i f s).res = s.res ∧ (updLeg i f s).free = s.free ∧
    (updLeg i f s).nextOp = s.nextOp ∧ (updLeg i f s).out = s.out ∧ (updLeg i f s).readData = s.readData ∧
    (updLeg i f s).burst = s.burst ∧ (updLeg i f s).burstPoison = s.burstPoison ∧
    (updLeg i f s).hostMem = s.hostMem ∧ (updLeg i f s).dram = s.dram ∧ (updLeg i f s).lowHeld = s.lowHeld ∧
    (updLeg i f s).latch = s.latch ∧ (updLeg i f s).ctr = s.ctr ∧ (updLeg i f s).ids = s.ids ∧
    (updLeg i f s).hq = s.hq ∧ (updLeg i f s).disp = s.disp ∧ (updLeg i f s).fwOps = s.fwOps ∧
    (updLeg i f s).fwDone = s.fwDone ∧ (updLeg i f s).evr = s.evr ∧ (updLeg i f s).dump = s.dump ∧
    (updLeg i f s).dramStacks = s.dramStacks ∧ (updLeg i f s).acc = s.acc ∧ (updLeg i f s).time = s.time ∧
    (updLeg i f s).links = s.links ∧ (updLeg i f s).power = s.power ∧ (updLeg i f s).body = s.body ∧
    (updLeg i f s).fab = s.fab ∧ (updLeg i f s).upd = s.upd ∧ (updLeg i f s).dom = s.dom ∧
    (updLeg i f s).keys = s.keys ∧ (updLeg i f s).lanes = s.lanes ∧ (updLeg i f s).aes = s.aes ∧
    (updLeg i f s).rxOps = s.rxOps ∧ (updLeg i f s).video = s.video ∧ (updLeg i f s).audio = s.audio ∧
    (updLeg i f s).dsp = s.dsp := by
  and_intros <;> rfl

@[simp] theorem legCount_frame (i c k : Nat) (s : State) :
    (legCount i c k s).pending = s.pending ∧ (legCount i c k s).res = s.res ∧ (legCount i c k s).free = s.free ∧
    (legCount i c k s).nextOp = s.nextOp ∧ (legCount i c k s).out = s.out ∧
    (legCount i c k s).readData = s.readData ∧ (legCount i c k s).burst = s.burst ∧
    (legCount i c k s).burstPoison = s.burstPoison ∧ (legCount i c k s).hostMem = s.hostMem ∧
    (legCount i c k s).dram = s.dram ∧ (legCount i c k s).lowHeld = s.lowHeld ∧ (legCount i c k s).latch = s.latch ∧
    (legCount i c k s).ctr = s.ctr ∧ (legCount i c k s).ids = s.ids ∧ (legCount i c k s).hq = s.hq ∧
    (legCount i c k s).disp = s.disp ∧ (legCount i c k s).fwOps = s.fwOps ∧ (legCount i c k s).fwDone = s.fwDone ∧
    (legCount i c k s).evr = s.evr ∧ (legCount i c k s).dump = s.dump ∧ (legCount i c k s).dramStacks = s.dramStacks ∧
    (legCount i c k s).acc = s.acc ∧ (legCount i c k s).time = s.time ∧ (legCount i c k s).links = s.links ∧
    (legCount i c k s).power = s.power ∧ (legCount i c k s).body = s.body ∧ (legCount i c k s).fab = s.fab ∧
    (legCount i c k s).upd = s.upd ∧ (legCount i c k s).dom = s.dom ∧ (legCount i c k s).keys = s.keys ∧
    (legCount i c k s).lanes = s.lanes ∧ (legCount i c k s).aes = s.aes ∧ (legCount i c k s).rxOps = s.rxOps ∧
    (legCount i c k s).video = s.video ∧ (legCount i c k s).audio = s.audio ∧ (legCount i c k s).dsp = s.dsp := by
  and_intros <;> rfl

@[simp] theorem setSub_frame (i : Nat) (v : Sub) (s : State) :
    (setSub i v s).pending = s.pending ∧ (setSub i v s).res = s.res ∧ (setSub i v s).free = s.free ∧
    (setSub i v s).nextOp = s.nextOp ∧ (setSub i v s).out = s.out ∧ (setSub i v s).readData = s.readData ∧
    (setSub i v s).burst = s.burst ∧ (setSub i v s).burstPoison = s.burstPoison ∧
    (setSub i v s).hostMem = s.hostMem ∧ (setSub i v s).dram = s.dram ∧ (setSub i v s).lowHeld = s.lowHeld ∧
    (setSub i v s).latch = s.latch ∧ (setSub i v s).ctr = s.ctr ∧ (setSub i v s).ids = s.ids ∧
    (setSub i v s).hq = s.hq ∧ (setSub i v s).disp = s.disp ∧ (setSub i v s).fwOps = s.fwOps ∧
    (setSub i v s).fwDone = s.fwDone ∧ (setSub i v s).evr = s.evr ∧ (setSub i v s).dump = s.dump ∧
    (setSub i v s).dramStacks = s.dramStacks ∧ (setSub i v s).acc = s.acc ∧ (setSub i v s).time = s.time ∧
    (setSub i v s).links = s.links ∧ (setSub i v s).power = s.power ∧ (setSub i v s).body = s.body ∧
    (setSub i v s).fab = s.fab ∧ (setSub i v s).upd = s.upd ∧ (setSub i v s).dom = s.dom ∧
    (setSub i v s).keys = s.keys ∧ (setSub i v s).lanes = s.lanes ∧ (setSub i v s).aes = s.aes ∧
    (setSub i v s).rxOps = s.rxOps ∧ (setSub i v s).video = s.video ∧ (setSub i v s).audio = s.audio ∧
    (setSub i v s).dsp = s.dsp := by
  and_intros <;> rfl

@[simp] theorem updSub_frame (i : Nat) (f : Sub → Sub) (s : State) :
    (updSub i f s).pending = s.pending ∧ (updSub i f s).res = s.res ∧ (updSub i f s).free = s.free ∧
    (updSub i f s).nextOp = s.nextOp ∧ (updSub i f s).out = s.out ∧ (updSub i f s).readData = s.readData ∧
    (updSub i f s).burst = s.burst ∧ (updSub i f s).burstPoison = s.burstPoison ∧
    (updSub i f s).hostMem = s.hostMem ∧ (updSub i f s).dram = s.dram ∧ (updSub i f s).lowHeld = s.lowHeld ∧
    (updSub i f s).latch = s.latch ∧ (updSub i f s).ctr = s.ctr ∧ (updSub i f s).ids = s.ids ∧
    (updSub i f s).hq = s.hq ∧ (updSub i f s).disp = s.disp ∧ (updSub i f s).fwOps = s.fwOps ∧
    (updSub i f s).fwDone = s.fwDone ∧ (updSub i f s).evr = s.evr ∧ (updSub i f s).dump = s.dump ∧
    (updSub i f s).dramStacks = s.dramStacks ∧ (updSub i f s).acc = s.acc ∧ (updSub i f s).time = s.time ∧
    (updSub i f s).links = s.links ∧ (updSub i f s).power = s.power ∧ (updSub i f s).body = s.body ∧
    (updSub i f s).fab = s.fab ∧ (updSub i f s).upd = s.upd ∧ (updSub i f s).dom = s.dom ∧
    (updSub i f s).keys = s.keys ∧ (updSub i f s).lanes = s.lanes ∧ (updSub i f s).aes = s.aes ∧
    (updSub i f s).rxOps = s.rxOps ∧ (updSub i f s).video = s.video ∧ (updSub i f s).audio = s.audio ∧
    (updSub i f s).dsp = s.dsp := by
  and_intros <;> rfl

@[simp] theorem setEgress_frame (p : Nat) (v : Egress) (s : State) :
    (setEgress p v s).pending = s.pending ∧ (setEgress p v s).res = s.res ∧ (setEgress p v s).free = s.free ∧
    (setEgress p v s).nextOp = s.nextOp ∧ (setEgress p v s).out = s.out ∧ (setEgress p v s).readData = s.readData ∧
    (setEgress p v s).burst = s.burst ∧ (setEgress p v s).burstPoison = s.burstPoison ∧
    (setEgress p v s).hostMem = s.hostMem ∧ (setEgress p v s).dram = s.dram ∧ (setEgress p v s).lowHeld = s.lowHeld ∧
    (setEgress p v s).latch = s.latch ∧ (setEgress p v s).ctr = s.ctr ∧ (setEgress p v s).ids = s.ids ∧
    (setEgress p v s).hq = s.hq ∧ (setEgress p v s).disp = s.disp ∧ (setEgress p v s).fwOps = s.fwOps ∧
    (setEgress p v s).fwDone = s.fwDone ∧ (setEgress p v s).evr = s.evr ∧ (setEgress p v s).dump = s.dump ∧
    (setEgress p v s).dramStacks = s.dramStacks ∧ (setEgress p v s).acc = s.acc ∧ (setEgress p v s).time = s.time ∧
    (setEgress p v s).links = s.links ∧ (setEgress p v s).power = s.power ∧ (setEgress p v s).body = s.body ∧
    (setEgress p v s).fab = s.fab ∧ (setEgress p v s).upd = s.upd ∧ (setEgress p v s).dom = s.dom ∧
    (setEgress p v s).keys = s.keys ∧ (setEgress p v s).lanes = s.lanes ∧ (setEgress p v s).aes = s.aes ∧
    (setEgress p v s).rxOps = s.rxOps ∧ (setEgress p v s).video = s.video ∧ (setEgress p v s).audio = s.audio ∧
    (setEgress p v s).dsp = s.dsp := by
  and_intros <;> rfl

@[simp] theorem setBuffer_frame (b : Nat) (v : PktBuf) (s : State) :
    (setBuffer b v s).pending = s.pending ∧ (setBuffer b v s).res = s.res ∧ (setBuffer b v s).free = s.free ∧
    (setBuffer b v s).nextOp = s.nextOp ∧ (setBuffer b v s).out = s.out ∧ (setBuffer b v s).readData = s.readData ∧
    (setBuffer b v s).burst = s.burst ∧ (setBuffer b v s).burstPoison = s.burstPoison ∧
    (setBuffer b v s).hostMem = s.hostMem ∧ (setBuffer b v s).dram = s.dram ∧ (setBuffer b v s).lowHeld = s.lowHeld ∧
    (setBuffer b v s).latch = s.latch ∧ (setBuffer b v s).ctr = s.ctr ∧ (setBuffer b v s).ids = s.ids ∧
    (setBuffer b v s).hq = s.hq ∧ (setBuffer b v s).disp = s.disp ∧ (setBuffer b v s).fwOps = s.fwOps ∧
    (setBuffer b v s).fwDone = s.fwDone ∧ (setBuffer b v s).evr = s.evr ∧ (setBuffer b v s).dump = s.dump ∧
    (setBuffer b v s).dramStacks = s.dramStacks ∧ (setBuffer b v s).acc = s.acc ∧ (setBuffer b v s).time = s.time ∧
    (setBuffer b v s).links = s.links ∧ (setBuffer b v s).power = s.power ∧ (setBuffer b v s).body = s.body ∧
    (setBuffer b v s).fab = s.fab ∧ (setBuffer b v s).upd = s.upd ∧ (setBuffer b v s).dom = s.dom ∧
    (setBuffer b v s).keys = s.keys ∧ (setBuffer b v s).lanes = s.lanes ∧ (setBuffer b v s).aes = s.aes ∧
    (setBuffer b v s).rxOps = s.rxOps ∧ (setBuffer b v s).video = s.video ∧ (setBuffer b v s).audio = s.audio ∧
    (setBuffer b v s).dsp = s.dsp := by
  and_intros <;> rfl

@[simp] theorem setPortNode_frame (p : Nat) (n : Node) (s : State) :
    (setPortNode p n s).pending = s.pending ∧ (setPortNode p n s).res = s.res ∧ (setPortNode p n s).free = s.free ∧
    (setPortNode p n s).nextOp = s.nextOp ∧ (setPortNode p n s).out = s.out ∧
    (setPortNode p n s).readData = s.readData ∧ (setPortNode p n s).burst = s.burst ∧
    (setPortNode p n s).burstPoison = s.burstPoison ∧ (setPortNode p n s).hostMem = s.hostMem ∧
    (setPortNode p n s).dram = s.dram ∧ (setPortNode p n s).lowHeld = s.lowHeld ∧
    (setPortNode p n s).latch = s.latch ∧ (setPortNode p n s).ctr = s.ctr ∧ (setPortNode p n s).ids = s.ids ∧
    (setPortNode p n s).hq = s.hq ∧ (setPortNode p n s).disp = s.disp ∧ (setPortNode p n s).fwOps = s.fwOps ∧
    (setPortNode p n s).fwDone = s.fwDone ∧ (setPortNode p n s).evr = s.evr ∧ (setPortNode p n s).dump = s.dump ∧
    (setPortNode p n s).dramStacks = s.dramStacks ∧ (setPortNode p n s).acc = s.acc ∧ (setPortNode p n s).time = s.time ∧
    (setPortNode p n s).links = s.links ∧ (setPortNode p n s).power = s.power ∧ (setPortNode p n s).body = s.body ∧
    (setPortNode p n s).fab = s.fab ∧ (setPortNode p n s).upd = s.upd ∧ (setPortNode p n s).dom = s.dom ∧
    (setPortNode p n s).keys = s.keys ∧ (setPortNode p n s).lanes = s.lanes ∧ (setPortNode p n s).aes = s.aes ∧
    (setPortNode p n s).rxOps = s.rxOps ∧ (setPortNode p n s).video = s.video ∧ (setPortNode p n s).audio = s.audio ∧
    (setPortNode p n s).dsp = s.dsp := by
  and_intros <;> rfl

@[simp] theorem setTenNode_frame (k : Nat) (n : Node) (s : State) :
    (setTenNode k n s).pending = s.pending ∧ (setTenNode k n s).res = s.res ∧ (setTenNode k n s).free = s.free ∧
    (setTenNode k n s).nextOp = s.nextOp ∧ (setTenNode k n s).out = s.out ∧
    (setTenNode k n s).readData = s.readData ∧ (setTenNode k n s).burst = s.burst ∧
    (setTenNode k n s).burstPoison = s.burstPoison ∧ (setTenNode k n s).hostMem = s.hostMem ∧
    (setTenNode k n s).dram = s.dram ∧ (setTenNode k n s).lowHeld = s.lowHeld ∧ (setTenNode k n s).latch = s.latch ∧
    (setTenNode k n s).ctr = s.ctr ∧ (setTenNode k n s).ids = s.ids ∧ (setTenNode k n s).hq = s.hq ∧
    (setTenNode k n s).disp = s.disp ∧ (setTenNode k n s).fwOps = s.fwOps ∧ (setTenNode k n s).fwDone = s.fwDone ∧
    (setTenNode k n s).evr = s.evr ∧ (setTenNode k n s).dump = s.dump ∧ (setTenNode k n s).dramStacks = s.dramStacks ∧
    (setTenNode k n s).acc = s.acc ∧ (setTenNode k n s).time = s.time ∧ (setTenNode k n s).links = s.links ∧
    (setTenNode k n s).power = s.power ∧ (setTenNode k n s).body = s.body ∧ (setTenNode k n s).fab = s.fab ∧
    (setTenNode k n s).upd = s.upd ∧ (setTenNode k n s).dom = s.dom ∧ (setTenNode k n s).keys = s.keys ∧
    (setTenNode k n s).lanes = s.lanes ∧ (setTenNode k n s).aes = s.aes ∧ (setTenNode k n s).rxOps = s.rxOps ∧
    (setTenNode k n s).video = s.video ∧ (setTenNode k n s).audio = s.audio ∧ (setTenNode k n s).dsp = s.dsp := by
  and_intros <;> rfl

@[simp] theorem setRoomNode_frame (k : Nat) (n : Node) (s : State) :
    (setRoomNode k n s).pending = s.pending ∧ (setRoomNode k n s).res = s.res ∧ (setRoomNode k n s).free = s.free ∧
    (setRoomNode k n s).nextOp = s.nextOp ∧ (setRoomNode k n s).out = s.out ∧
    (setRoomNode k n s).readData = s.readData ∧ (setRoomNode k n s).burst = s.burst ∧
    (setRoomNode k n s).burstPoison = s.burstPoison ∧ (setRoomNode k n s).hostMem = s.hostMem ∧
    (setRoomNode k n s).dram = s.dram ∧ (setRoomNode k n s).lowHeld = s.lowHeld ∧
    (setRoomNode k n s).latch = s.latch ∧ (setRoomNode k n s).ctr = s.ctr ∧ (setRoomNode k n s).ids = s.ids ∧
    (setRoomNode k n s).hq = s.hq ∧ (setRoomNode k n s).disp = s.disp ∧ (setRoomNode k n s).fwOps = s.fwOps ∧
    (setRoomNode k n s).fwDone = s.fwDone ∧ (setRoomNode k n s).evr = s.evr ∧ (setRoomNode k n s).dump = s.dump ∧
    (setRoomNode k n s).dramStacks = s.dramStacks ∧ (setRoomNode k n s).acc = s.acc ∧ (setRoomNode k n s).time = s.time ∧
    (setRoomNode k n s).links = s.links ∧ (setRoomNode k n s).power = s.power ∧ (setRoomNode k n s).body = s.body ∧
    (setRoomNode k n s).fab = s.fab ∧ (setRoomNode k n s).upd = s.upd ∧ (setRoomNode k n s).dom = s.dom ∧
    (setRoomNode k n s).keys = s.keys ∧ (setRoomNode k n s).lanes = s.lanes ∧ (setRoomNode k n s).aes = s.aes ∧
    (setRoomNode k n s).rxOps = s.rxOps ∧ (setRoomNode k n s).video = s.video ∧ (setRoomNode k n s).audio = s.audio ∧
    (setRoomNode k n s).dsp = s.dsp := by
  and_intros <;> rfl

@[simp] theorem spendSpill_frame (w b : Nat) (s : State) :
    (spendSpill w b s).pending = s.pending ∧ (spendSpill w b s).res = s.res ∧ (spendSpill w b s).free = s.free ∧
    (spendSpill w b s).nextOp = s.nextOp ∧ (spendSpill w b s).out = s.out ∧
    (spendSpill w b s).readData = s.readData ∧ (spendSpill w b s).burst = s.burst ∧
    (spendSpill w b s).burstPoison = s.burstPoison ∧ (spendSpill w b s).hostMem = s.hostMem ∧
    (spendSpill w b s).dram = s.dram ∧ (spendSpill w b s).lowHeld = s.lowHeld ∧ (spendSpill w b s).latch = s.latch ∧
    (spendSpill w b s).ctr = s.ctr ∧ (spendSpill w b s).ids = s.ids ∧ (spendSpill w b s).hq = s.hq ∧
    (spendSpill w b s).disp = s.disp ∧ (spendSpill w b s).fwOps = s.fwOps ∧ (spendSpill w b s).fwDone = s.fwDone ∧
    (spendSpill w b s).evr = s.evr ∧ (spendSpill w b s).dump = s.dump ∧ (spendSpill w b s).dramStacks = s.dramStacks ∧
    (spendSpill w b s).acc = s.acc ∧ (spendSpill w b s).time = s.time ∧ (spendSpill w b s).links = s.links ∧
    (spendSpill w b s).power = s.power ∧ (spendSpill w b s).body = s.body ∧ (spendSpill w b s).fab = s.fab ∧
    (spendSpill w b s).upd = s.upd ∧ (spendSpill w b s).dom = s.dom ∧ (spendSpill w b s).keys = s.keys ∧
    (spendSpill w b s).lanes = s.lanes ∧ (spendSpill w b s).aes = s.aes ∧ (spendSpill w b s).rxOps = s.rxOps ∧
    (spendSpill w b s).video = s.video ∧ (spendSpill w b s).audio = s.audio ∧ (spendSpill w b s).dsp = s.dsp := by
  and_intros <;> rfl

@[simp] theorem kfAnswered_frame (i : Nat) (s : State) :
    (kfAnswered i s).pending = s.pending ∧ (kfAnswered i s).res = s.res ∧ (kfAnswered i s).free = s.free ∧
    (kfAnswered i s).nextOp = s.nextOp ∧ (kfAnswered i s).out = s.out ∧ (kfAnswered i s).readData = s.readData ∧
    (kfAnswered i s).burst = s.burst ∧ (kfAnswered i s).burstPoison = s.burstPoison ∧
    (kfAnswered i s).hostMem = s.hostMem ∧ (kfAnswered i s).dram = s.dram ∧ (kfAnswered i s).lowHeld = s.lowHeld ∧
    (kfAnswered i s).latch = s.latch ∧ (kfAnswered i s).ctr = s.ctr ∧ (kfAnswered i s).ids = s.ids ∧
    (kfAnswered i s).hq = s.hq ∧ (kfAnswered i s).disp = s.disp ∧ (kfAnswered i s).fwOps = s.fwOps ∧
    (kfAnswered i s).fwDone = s.fwDone ∧ (kfAnswered i s).evr = s.evr ∧ (kfAnswered i s).dump = s.dump ∧
    (kfAnswered i s).dramStacks = s.dramStacks ∧ (kfAnswered i s).acc = s.acc ∧ (kfAnswered i s).time = s.time ∧
    (kfAnswered i s).links = s.links ∧ (kfAnswered i s).power = s.power ∧ (kfAnswered i s).body = s.body ∧
    (kfAnswered i s).fab = s.fab ∧ (kfAnswered i s).upd = s.upd ∧ (kfAnswered i s).dom = s.dom ∧
    (kfAnswered i s).keys = s.keys ∧ (kfAnswered i s).lanes = s.lanes ∧ (kfAnswered i s).aes = s.aes ∧
    (kfAnswered i s).rxOps = s.rxOps ∧ (kfAnswered i s).video = s.video ∧ (kfAnswered i s).audio = s.audio ∧
    (kfAnswered i s).dsp = s.dsp := by
  and_intros <;> rfl

@[simp] theorem setPool_frame (k : Nat) (v : Pool) (s : State) :
    (setPool k v s).pending = s.pending ∧ (setPool k v s).res = s.res ∧ (setPool k v s).free = s.free ∧
    (setPool k v s).nextOp = s.nextOp ∧ (setPool k v s).out = s.out ∧ (setPool k v s).readData = s.readData ∧
    (setPool k v s).burst = s.burst ∧ (setPool k v s).burstPoison = s.burstPoison ∧
    (setPool k v s).hostMem = s.hostMem ∧ (setPool k v s).dram = s.dram ∧ (setPool k v s).lowHeld = s.lowHeld ∧
    (setPool k v s).latch = s.latch ∧ (setPool k v s).ctr = s.ctr ∧ (setPool k v s).ids = s.ids ∧
    (setPool k v s).hq = s.hq ∧ (setPool k v s).disp = s.disp ∧ (setPool k v s).fwOps = s.fwOps ∧
    (setPool k v s).fwDone = s.fwDone ∧ (setPool k v s).evr = s.evr ∧ (setPool k v s).dump = s.dump ∧
    (setPool k v s).dramStacks = s.dramStacks ∧ (setPool k v s).acc = s.acc ∧ (setPool k v s).time = s.time ∧
    (setPool k v s).links = s.links ∧ (setPool k v s).power = s.power ∧ (setPool k v s).body = s.body ∧
    (setPool k v s).fab = s.fab ∧ (setPool k v s).upd = s.upd ∧ (setPool k v s).dom = s.dom ∧
    (setPool k v s).keys = s.keys ∧ (setPool k v s).lanes = s.lanes ∧ (setPool k v s).aes = s.aes ∧
    (setPool k v s).rxOps = s.rxOps ∧ (setPool k v s).media = s.media ∧ (setPool k v s).audio = s.audio ∧
    (setPool k v s).dsp = s.dsp := by
  and_intros <;> rfl

@[simp] theorem setBuf_frame (b : Nat) (v : FrameBuf) (s : State) :
    (setBuf b v s).pending = s.pending ∧ (setBuf b v s).res = s.res ∧ (setBuf b v s).free = s.free ∧
    (setBuf b v s).nextOp = s.nextOp ∧ (setBuf b v s).out = s.out ∧ (setBuf b v s).readData = s.readData ∧
    (setBuf b v s).burst = s.burst ∧ (setBuf b v s).burstPoison = s.burstPoison ∧
    (setBuf b v s).hostMem = s.hostMem ∧ (setBuf b v s).dram = s.dram ∧ (setBuf b v s).lowHeld = s.lowHeld ∧
    (setBuf b v s).latch = s.latch ∧ (setBuf b v s).ctr = s.ctr ∧ (setBuf b v s).ids = s.ids ∧
    (setBuf b v s).hq = s.hq ∧ (setBuf b v s).disp = s.disp ∧ (setBuf b v s).fwOps = s.fwOps ∧
    (setBuf b v s).fwDone = s.fwDone ∧ (setBuf b v s).evr = s.evr ∧ (setBuf b v s).dump = s.dump ∧
    (setBuf b v s).dramStacks = s.dramStacks ∧ (setBuf b v s).acc = s.acc ∧ (setBuf b v s).time = s.time ∧
    (setBuf b v s).links = s.links ∧ (setBuf b v s).power = s.power ∧ (setBuf b v s).body = s.body ∧
    (setBuf b v s).fab = s.fab ∧ (setBuf b v s).upd = s.upd ∧ (setBuf b v s).dom = s.dom ∧
    (setBuf b v s).keys = s.keys ∧ (setBuf b v s).lanes = s.lanes ∧ (setBuf b v s).aes = s.aes ∧
    (setBuf b v s).rxOps = s.rxOps ∧ (setBuf b v s).media = s.media ∧ (setBuf b v s).audio = s.audio ∧
    (setBuf b v s).dsp = s.dsp := by
  and_intros <;> rfl

@[simp] theorem updBuf_frame (b : Nat) (f : FrameBuf → FrameBuf) (s : State) :
    (updBuf b f s).pending = s.pending ∧ (updBuf b f s).res = s.res ∧ (updBuf b f s).free = s.free ∧
    (updBuf b f s).nextOp = s.nextOp ∧ (updBuf b f s).out = s.out ∧ (updBuf b f s).readData = s.readData ∧
    (updBuf b f s).burst = s.burst ∧ (updBuf b f s).burstPoison = s.burstPoison ∧
    (updBuf b f s).hostMem = s.hostMem ∧ (updBuf b f s).dram = s.dram ∧ (updBuf b f s).lowHeld = s.lowHeld ∧
    (updBuf b f s).latch = s.latch ∧ (updBuf b f s).ctr = s.ctr ∧ (updBuf b f s).ids = s.ids ∧
    (updBuf b f s).hq = s.hq ∧ (updBuf b f s).disp = s.disp ∧ (updBuf b f s).fwOps = s.fwOps ∧
    (updBuf b f s).fwDone = s.fwDone ∧ (updBuf b f s).evr = s.evr ∧ (updBuf b f s).dump = s.dump ∧
    (updBuf b f s).dramStacks = s.dramStacks ∧ (updBuf b f s).acc = s.acc ∧ (updBuf b f s).time = s.time ∧
    (updBuf b f s).links = s.links ∧ (updBuf b f s).power = s.power ∧ (updBuf b f s).body = s.body ∧
    (updBuf b f s).fab = s.fab ∧ (updBuf b f s).upd = s.upd ∧ (updBuf b f s).dom = s.dom ∧
    (updBuf b f s).keys = s.keys ∧ (updBuf b f s).lanes = s.lanes ∧ (updBuf b f s).aes = s.aes ∧
    (updBuf b f s).rxOps = s.rxOps ∧ (updBuf b f s).media = s.media ∧ (updBuf b f s).audio = s.audio ∧
    (updBuf b f s).dsp = s.dsp := by
  and_intros <;> rfl

@[simp] theorem setDec_frame (c : Nat) (v : DecCtx) (s : State) :
    (setDec c v s).pending = s.pending ∧ (setDec c v s).res = s.res ∧ (setDec c v s).free = s.free ∧
    (setDec c v s).nextOp = s.nextOp ∧ (setDec c v s).out = s.out ∧ (setDec c v s).readData = s.readData ∧
    (setDec c v s).burst = s.burst ∧ (setDec c v s).burstPoison = s.burstPoison ∧
    (setDec c v s).hostMem = s.hostMem ∧ (setDec c v s).dram = s.dram ∧ (setDec c v s).lowHeld = s.lowHeld ∧
    (setDec c v s).latch = s.latch ∧ (setDec c v s).ctr = s.ctr ∧ (setDec c v s).ids = s.ids ∧
    (setDec c v s).hq = s.hq ∧ (setDec c v s).disp = s.disp ∧ (setDec c v s).fwOps = s.fwOps ∧
    (setDec c v s).fwDone = s.fwDone ∧ (setDec c v s).evr = s.evr ∧ (setDec c v s).dump = s.dump ∧
    (setDec c v s).dramStacks = s.dramStacks ∧ (setDec c v s).acc = s.acc ∧ (setDec c v s).time = s.time ∧
    (setDec c v s).links = s.links ∧ (setDec c v s).power = s.power ∧ (setDec c v s).body = s.body ∧
    (setDec c v s).fab = s.fab ∧ (setDec c v s).upd = s.upd ∧ (setDec c v s).dom = s.dom ∧
    (setDec c v s).keys = s.keys ∧ (setDec c v s).lanes = s.lanes ∧ (setDec c v s).aes = s.aes ∧
    (setDec c v s).rxOps = s.rxOps ∧ (setDec c v s).media = s.media ∧ (setDec c v s).audio = s.audio ∧
    (setDec c v s).dsp = s.dsp := by
  and_intros <;> rfl

@[simp] theorem updDec_frame (c : Nat) (f : DecCtx → DecCtx) (s : State) :
    (updDec c f s).pending = s.pending ∧ (updDec c f s).res = s.res ∧ (updDec c f s).free = s.free ∧
    (updDec c f s).nextOp = s.nextOp ∧ (updDec c f s).out = s.out ∧ (updDec c f s).readData = s.readData ∧
    (updDec c f s).burst = s.burst ∧ (updDec c f s).burstPoison = s.burstPoison ∧
    (updDec c f s).hostMem = s.hostMem ∧ (updDec c f s).dram = s.dram ∧ (updDec c f s).lowHeld = s.lowHeld ∧
    (updDec c f s).latch = s.latch ∧ (updDec c f s).ctr = s.ctr ∧ (updDec c f s).ids = s.ids ∧
    (updDec c f s).hq = s.hq ∧ (updDec c f s).disp = s.disp ∧ (updDec c f s).fwOps = s.fwOps ∧
    (updDec c f s).fwDone = s.fwDone ∧ (updDec c f s).evr = s.evr ∧ (updDec c f s).dump = s.dump ∧
    (updDec c f s).dramStacks = s.dramStacks ∧ (updDec c f s).acc = s.acc ∧ (updDec c f s).time = s.time ∧
    (updDec c f s).links = s.links ∧ (updDec c f s).power = s.power ∧ (updDec c f s).body = s.body ∧
    (updDec c f s).fab = s.fab ∧ (updDec c f s).upd = s.upd ∧ (updDec c f s).dom = s.dom ∧
    (updDec c f s).keys = s.keys ∧ (updDec c f s).lanes = s.lanes ∧ (updDec c f s).aes = s.aes ∧
    (updDec c f s).rxOps = s.rxOps ∧ (updDec c f s).media = s.media ∧ (updDec c f s).audio = s.audio ∧
    (updDec c f s).dsp = s.dsp := by
  and_intros <;> rfl

@[simp] theorem decCount_frame (c k : Nat) (s : State) :
    (decCount c k s).pending = s.pending ∧ (decCount c k s).res = s.res ∧ (decCount c k s).free = s.free ∧
    (decCount c k s).nextOp = s.nextOp ∧ (decCount c k s).out = s.out ∧ (decCount c k s).readData = s.readData ∧
    (decCount c k s).burst = s.burst ∧ (decCount c k s).burstPoison = s.burstPoison ∧
    (decCount c k s).hostMem = s.hostMem ∧ (decCount c k s).dram = s.dram ∧ (decCount c k s).lowHeld = s.lowHeld ∧
    (decCount c k s).latch = s.latch ∧ (decCount c k s).ctr = s.ctr ∧ (decCount c k s).ids = s.ids ∧
    (decCount c k s).hq = s.hq ∧ (decCount c k s).disp = s.disp ∧ (decCount c k s).fwOps = s.fwOps ∧
    (decCount c k s).fwDone = s.fwDone ∧ (decCount c k s).evr = s.evr ∧ (decCount c k s).dump = s.dump ∧
    (decCount c k s).dramStacks = s.dramStacks ∧ (decCount c k s).acc = s.acc ∧ (decCount c k s).time = s.time ∧
    (decCount c k s).links = s.links ∧ (decCount c k s).power = s.power ∧ (decCount c k s).body = s.body ∧
    (decCount c k s).fab = s.fab ∧ (decCount c k s).upd = s.upd ∧ (decCount c k s).dom = s.dom ∧
    (decCount c k s).keys = s.keys ∧ (decCount c k s).lanes = s.lanes ∧ (decCount c k s).aes = s.aes ∧
    (decCount c k s).rxOps = s.rxOps ∧ (decCount c k s).media = s.media ∧ (decCount c k s).audio = s.audio ∧
    (decCount c k s).dsp = s.dsp := by
  and_intros <;> rfl

@[simp] theorem setEnc_frame (c : Nat) (v : EncCtx) (s : State) :
    (setEnc c v s).pending = s.pending ∧ (setEnc c v s).res = s.res ∧ (setEnc c v s).free = s.free ∧
    (setEnc c v s).nextOp = s.nextOp ∧ (setEnc c v s).out = s.out ∧ (setEnc c v s).readData = s.readData ∧
    (setEnc c v s).burst = s.burst ∧ (setEnc c v s).burstPoison = s.burstPoison ∧
    (setEnc c v s).hostMem = s.hostMem ∧ (setEnc c v s).dram = s.dram ∧ (setEnc c v s).lowHeld = s.lowHeld ∧
    (setEnc c v s).latch = s.latch ∧ (setEnc c v s).ctr = s.ctr ∧ (setEnc c v s).ids = s.ids ∧
    (setEnc c v s).hq = s.hq ∧ (setEnc c v s).disp = s.disp ∧ (setEnc c v s).fwOps = s.fwOps ∧
    (setEnc c v s).fwDone = s.fwDone ∧ (setEnc c v s).evr = s.evr ∧ (setEnc c v s).dump = s.dump ∧
    (setEnc c v s).dramStacks = s.dramStacks ∧ (setEnc c v s).acc = s.acc ∧ (setEnc c v s).time = s.time ∧
    (setEnc c v s).links = s.links ∧ (setEnc c v s).power = s.power ∧ (setEnc c v s).body = s.body ∧
    (setEnc c v s).fab = s.fab ∧ (setEnc c v s).upd = s.upd ∧ (setEnc c v s).dom = s.dom ∧
    (setEnc c v s).keys = s.keys ∧ (setEnc c v s).lanes = s.lanes ∧ (setEnc c v s).aes = s.aes ∧
    (setEnc c v s).rxOps = s.rxOps ∧ (setEnc c v s).media = s.media ∧ (setEnc c v s).audio = s.audio ∧
    (setEnc c v s).dsp = s.dsp := by
  and_intros <;> rfl

@[simp] theorem updEnc_frame (c : Nat) (f : EncCtx → EncCtx) (s : State) :
    (updEnc c f s).pending = s.pending ∧ (updEnc c f s).res = s.res ∧ (updEnc c f s).free = s.free ∧
    (updEnc c f s).nextOp = s.nextOp ∧ (updEnc c f s).out = s.out ∧ (updEnc c f s).readData = s.readData ∧
    (updEnc c f s).burst = s.burst ∧ (updEnc c f s).burstPoison = s.burstPoison ∧
    (updEnc c f s).hostMem = s.hostMem ∧ (updEnc c f s).dram = s.dram ∧ (updEnc c f s).lowHeld = s.lowHeld ∧
    (updEnc c f s).latch = s.latch ∧ (updEnc c f s).ctr = s.ctr ∧ (updEnc c f s).ids = s.ids ∧
    (updEnc c f s).hq = s.hq ∧ (updEnc c f s).disp = s.disp ∧ (updEnc c f s).fwOps = s.fwOps ∧
    (updEnc c f s).fwDone = s.fwDone ∧ (updEnc c f s).evr = s.evr ∧ (updEnc c f s).dump = s.dump ∧
    (updEnc c f s).dramStacks = s.dramStacks ∧ (updEnc c f s).acc = s.acc ∧ (updEnc c f s).time = s.time ∧
    (updEnc c f s).links = s.links ∧ (updEnc c f s).power = s.power ∧ (updEnc c f s).body = s.body ∧
    (updEnc c f s).fab = s.fab ∧ (updEnc c f s).upd = s.upd ∧ (updEnc c f s).dom = s.dom ∧
    (updEnc c f s).keys = s.keys ∧ (updEnc c f s).lanes = s.lanes ∧ (updEnc c f s).aes = s.aes ∧
    (updEnc c f s).rxOps = s.rxOps ∧ (updEnc c f s).media = s.media ∧ (updEnc c f s).audio = s.audio ∧
    (updEnc c f s).dsp = s.dsp := by
  and_intros <;> rfl

@[simp] theorem encCount_frame (c k : Nat) (s : State) :
    (encCount c k s).pending = s.pending ∧ (encCount c k s).res = s.res ∧ (encCount c k s).free = s.free ∧
    (encCount c k s).nextOp = s.nextOp ∧ (encCount c k s).out = s.out ∧ (encCount c k s).readData = s.readData ∧
    (encCount c k s).burst = s.burst ∧ (encCount c k s).burstPoison = s.burstPoison ∧
    (encCount c k s).hostMem = s.hostMem ∧ (encCount c k s).dram = s.dram ∧ (encCount c k s).lowHeld = s.lowHeld ∧
    (encCount c k s).latch = s.latch ∧ (encCount c k s).ctr = s.ctr ∧ (encCount c k s).ids = s.ids ∧
    (encCount c k s).hq = s.hq ∧ (encCount c k s).disp = s.disp ∧ (encCount c k s).fwOps = s.fwOps ∧
    (encCount c k s).fwDone = s.fwDone ∧ (encCount c k s).evr = s.evr ∧ (encCount c k s).dump = s.dump ∧
    (encCount c k s).dramStacks = s.dramStacks ∧ (encCount c k s).acc = s.acc ∧ (encCount c k s).time = s.time ∧
    (encCount c k s).links = s.links ∧ (encCount c k s).power = s.power ∧ (encCount c k s).body = s.body ∧
    (encCount c k s).fab = s.fab ∧ (encCount c k s).upd = s.upd ∧ (encCount c k s).dom = s.dom ∧
    (encCount c k s).keys = s.keys ∧ (encCount c k s).lanes = s.lanes ∧ (encCount c k s).aes = s.aes ∧
    (encCount c k s).rxOps = s.rxOps ∧ (encCount c k s).media = s.media ∧ (encCount c k s).audio = s.audio ∧
    (encCount c k s).dsp = s.dsp := by
  and_intros <;> rfl

@[simp] theorem setOutput_frame (o : Nat) (v : Output) (s : State) :
    (setOutput o v s).pending = s.pending ∧ (setOutput o v s).res = s.res ∧ (setOutput o v s).free = s.free ∧
    (setOutput o v s).nextOp = s.nextOp ∧ (setOutput o v s).out = s.out ∧ (setOutput o v s).readData = s.readData ∧
    (setOutput o v s).burst = s.burst ∧ (setOutput o v s).burstPoison = s.burstPoison ∧
    (setOutput o v s).hostMem = s.hostMem ∧ (setOutput o v s).dram = s.dram ∧ (setOutput o v s).lowHeld = s.lowHeld ∧
    (setOutput o v s).latch = s.latch ∧ (setOutput o v s).ctr = s.ctr ∧ (setOutput o v s).ids = s.ids ∧
    (setOutput o v s).hq = s.hq ∧ (setOutput o v s).disp = s.disp ∧ (setOutput o v s).fwOps = s.fwOps ∧
    (setOutput o v s).fwDone = s.fwDone ∧ (setOutput o v s).evr = s.evr ∧ (setOutput o v s).dump = s.dump ∧
    (setOutput o v s).dramStacks = s.dramStacks ∧ (setOutput o v s).acc = s.acc ∧ (setOutput o v s).time = s.time ∧
    (setOutput o v s).links = s.links ∧ (setOutput o v s).power = s.power ∧ (setOutput o v s).body = s.body ∧
    (setOutput o v s).fab = s.fab ∧ (setOutput o v s).upd = s.upd ∧ (setOutput o v s).dom = s.dom ∧
    (setOutput o v s).keys = s.keys ∧ (setOutput o v s).lanes = s.lanes ∧ (setOutput o v s).aes = s.aes ∧
    (setOutput o v s).rxOps = s.rxOps ∧ (setOutput o v s).media = s.media ∧ (setOutput o v s).audio = s.audio ∧
    (setOutput o v s).dsp = s.dsp := by
  and_intros <;> rfl

@[simp] theorem updOutput_frame (o : Nat) (f : Output → Output) (s : State) :
    (updOutput o f s).pending = s.pending ∧ (updOutput o f s).res = s.res ∧ (updOutput o f s).free = s.free ∧
    (updOutput o f s).nextOp = s.nextOp ∧ (updOutput o f s).out = s.out ∧ (updOutput o f s).readData = s.readData ∧
    (updOutput o f s).burst = s.burst ∧ (updOutput o f s).burstPoison = s.burstPoison ∧
    (updOutput o f s).hostMem = s.hostMem ∧ (updOutput o f s).dram = s.dram ∧ (updOutput o f s).lowHeld = s.lowHeld ∧
    (updOutput o f s).latch = s.latch ∧ (updOutput o f s).ctr = s.ctr ∧ (updOutput o f s).ids = s.ids ∧
    (updOutput o f s).hq = s.hq ∧ (updOutput o f s).disp = s.disp ∧ (updOutput o f s).fwOps = s.fwOps ∧
    (updOutput o f s).fwDone = s.fwDone ∧ (updOutput o f s).evr = s.evr ∧ (updOutput o f s).dump = s.dump ∧
    (updOutput o f s).dramStacks = s.dramStacks ∧ (updOutput o f s).acc = s.acc ∧ (updOutput o f s).time = s.time ∧
    (updOutput o f s).links = s.links ∧ (updOutput o f s).power = s.power ∧ (updOutput o f s).body = s.body ∧
    (updOutput o f s).fab = s.fab ∧ (updOutput o f s).upd = s.upd ∧ (updOutput o f s).dom = s.dom ∧
    (updOutput o f s).keys = s.keys ∧ (updOutput o f s).lanes = s.lanes ∧ (updOutput o f s).aes = s.aes ∧
    (updOutput o f s).rxOps = s.rxOps ∧ (updOutput o f s).media = s.media ∧ (updOutput o f s).audio = s.audio ∧
    (updOutput o f s).dsp = s.dsp := by
  and_intros <;> rfl

@[simp] theorem setCell_frame (o c : Nat) (k : Cell) (s : State) :
    (setCell o c k s).pending = s.pending ∧ (setCell o c k s).res = s.res ∧ (setCell o c k s).free = s.free ∧
    (setCell o c k s).nextOp = s.nextOp ∧ (setCell o c k s).out = s.out ∧ (setCell o c k s).readData = s.readData ∧
    (setCell o c k s).burst = s.burst ∧ (setCell o c k s).burstPoison = s.burstPoison ∧
    (setCell o c k s).hostMem = s.hostMem ∧ (setCell o c k s).dram = s.dram ∧ (setCell o c k s).lowHeld = s.lowHeld ∧
    (setCell o c k s).latch = s.latch ∧ (setCell o c k s).ctr = s.ctr ∧ (setCell o c k s).ids = s.ids ∧
    (setCell o c k s).hq = s.hq ∧ (setCell o c k s).disp = s.disp ∧ (setCell o c k s).fwOps = s.fwOps ∧
    (setCell o c k s).fwDone = s.fwDone ∧ (setCell o c k s).evr = s.evr ∧ (setCell o c k s).dump = s.dump ∧
    (setCell o c k s).dramStacks = s.dramStacks ∧ (setCell o c k s).acc = s.acc ∧ (setCell o c k s).time = s.time ∧
    (setCell o c k s).links = s.links ∧ (setCell o c k s).power = s.power ∧ (setCell o c k s).body = s.body ∧
    (setCell o c k s).fab = s.fab ∧ (setCell o c k s).upd = s.upd ∧ (setCell o c k s).dom = s.dom ∧
    (setCell o c k s).keys = s.keys ∧ (setCell o c k s).lanes = s.lanes ∧ (setCell o c k s).aes = s.aes ∧
    (setCell o c k s).rxOps = s.rxOps ∧ (setCell o c k s).media = s.media ∧ (setCell o c k s).audio = s.audio ∧
    (setCell o c k s).dsp = s.dsp := by
  and_intros <;> rfl

@[simp] theorem setAudIn_frame (i : Nat) (v : AudIn) (s : State) :
    (setAudIn i v s).pending = s.pending ∧ (setAudIn i v s).res = s.res ∧ (setAudIn i v s).free = s.free ∧
    (setAudIn i v s).nextOp = s.nextOp ∧ (setAudIn i v s).out = s.out ∧ (setAudIn i v s).readData = s.readData ∧
    (setAudIn i v s).burst = s.burst ∧ (setAudIn i v s).burstPoison = s.burstPoison ∧
    (setAudIn i v s).hostMem = s.hostMem ∧ (setAudIn i v s).dram = s.dram ∧ (setAudIn i v s).lowHeld = s.lowHeld ∧
    (setAudIn i v s).latch = s.latch ∧ (setAudIn i v s).ctr = s.ctr ∧ (setAudIn i v s).ids = s.ids ∧
    (setAudIn i v s).hq = s.hq ∧ (setAudIn i v s).disp = s.disp ∧ (setAudIn i v s).fwOps = s.fwOps ∧
    (setAudIn i v s).fwDone = s.fwDone ∧ (setAudIn i v s).evr = s.evr ∧ (setAudIn i v s).dump = s.dump ∧
    (setAudIn i v s).dramStacks = s.dramStacks ∧ (setAudIn i v s).acc = s.acc ∧ (setAudIn i v s).time = s.time ∧
    (setAudIn i v s).links = s.links ∧ (setAudIn i v s).power = s.power ∧ (setAudIn i v s).body = s.body ∧
    (setAudIn i v s).fab = s.fab ∧ (setAudIn i v s).upd = s.upd ∧ (setAudIn i v s).dom = s.dom ∧
    (setAudIn i v s).keys = s.keys ∧ (setAudIn i v s).lanes = s.lanes ∧ (setAudIn i v s).aes = s.aes ∧
    (setAudIn i v s).rxOps = s.rxOps ∧ (setAudIn i v s).media = s.media ∧ (setAudIn i v s).video = s.video ∧
    (setAudIn i v s).dsp = s.dsp := by
  and_intros <;> rfl

@[simp] theorem updAudIn_frame (i : Nat) (f : AudIn → AudIn) (s : State) :
    (updAudIn i f s).pending = s.pending ∧ (updAudIn i f s).res = s.res ∧ (updAudIn i f s).free = s.free ∧
    (updAudIn i f s).nextOp = s.nextOp ∧ (updAudIn i f s).out = s.out ∧ (updAudIn i f s).readData = s.readData ∧
    (updAudIn i f s).burst = s.burst ∧ (updAudIn i f s).burstPoison = s.burstPoison ∧
    (updAudIn i f s).hostMem = s.hostMem ∧ (updAudIn i f s).dram = s.dram ∧ (updAudIn i f s).lowHeld = s.lowHeld ∧
    (updAudIn i f s).latch = s.latch ∧ (updAudIn i f s).ctr = s.ctr ∧ (updAudIn i f s).ids = s.ids ∧
    (updAudIn i f s).hq = s.hq ∧ (updAudIn i f s).disp = s.disp ∧ (updAudIn i f s).fwOps = s.fwOps ∧
    (updAudIn i f s).fwDone = s.fwDone ∧ (updAudIn i f s).evr = s.evr ∧ (updAudIn i f s).dump = s.dump ∧
    (updAudIn i f s).dramStacks = s.dramStacks ∧ (updAudIn i f s).acc = s.acc ∧ (updAudIn i f s).time = s.time ∧
    (updAudIn i f s).links = s.links ∧ (updAudIn i f s).power = s.power ∧ (updAudIn i f s).body = s.body ∧
    (updAudIn i f s).fab = s.fab ∧ (updAudIn i f s).upd = s.upd ∧ (updAudIn i f s).dom = s.dom ∧
    (updAudIn i f s).keys = s.keys ∧ (updAudIn i f s).lanes = s.lanes ∧ (updAudIn i f s).aes = s.aes ∧
    (updAudIn i f s).rxOps = s.rxOps ∧ (updAudIn i f s).media = s.media ∧ (updAudIn i f s).video = s.video ∧
    (updAudIn i f s).dsp = s.dsp := by
  and_intros <;> rfl

@[simp] theorem setAudRoom_frame (r : Nat) (v : AudRoom) (s : State) :
    (setAudRoom r v s).pending = s.pending ∧ (setAudRoom r v s).res = s.res ∧ (setAudRoom r v s).free = s.free ∧
    (setAudRoom r v s).nextOp = s.nextOp ∧ (setAudRoom r v s).out = s.out ∧
    (setAudRoom r v s).readData = s.readData ∧ (setAudRoom r v s).burst = s.burst ∧
    (setAudRoom r v s).burstPoison = s.burstPoison ∧ (setAudRoom r v s).hostMem = s.hostMem ∧
    (setAudRoom r v s).dram = s.dram ∧ (setAudRoom r v s).lowHeld = s.lowHeld ∧ (setAudRoom r v s).latch = s.latch ∧
    (setAudRoom r v s).ctr = s.ctr ∧ (setAudRoom r v s).ids = s.ids ∧ (setAudRoom r v s).hq = s.hq ∧
    (setAudRoom r v s).disp = s.disp ∧ (setAudRoom r v s).fwOps = s.fwOps ∧ (setAudRoom r v s).fwDone = s.fwDone ∧
    (setAudRoom r v s).evr = s.evr ∧ (setAudRoom r v s).dump = s.dump ∧ (setAudRoom r v s).dramStacks = s.dramStacks ∧
    (setAudRoom r v s).acc = s.acc ∧ (setAudRoom r v s).time = s.time ∧ (setAudRoom r v s).links = s.links ∧
    (setAudRoom r v s).power = s.power ∧ (setAudRoom r v s).body = s.body ∧ (setAudRoom r v s).fab = s.fab ∧
    (setAudRoom r v s).upd = s.upd ∧ (setAudRoom r v s).dom = s.dom ∧ (setAudRoom r v s).keys = s.keys ∧
    (setAudRoom r v s).lanes = s.lanes ∧ (setAudRoom r v s).aes = s.aes ∧ (setAudRoom r v s).rxOps = s.rxOps ∧
    (setAudRoom r v s).media = s.media ∧ (setAudRoom r v s).video = s.video ∧ (setAudRoom r v s).dsp = s.dsp := by
  and_intros <;> rfl

@[simp] theorem updAudRoom_frame (r : Nat) (f : AudRoom → AudRoom) (s : State) :
    (updAudRoom r f s).pending = s.pending ∧ (updAudRoom r f s).res = s.res ∧ (updAudRoom r f s).free = s.free ∧
    (updAudRoom r f s).nextOp = s.nextOp ∧ (updAudRoom r f s).out = s.out ∧
    (updAudRoom r f s).readData = s.readData ∧ (updAudRoom r f s).burst = s.burst ∧
    (updAudRoom r f s).burstPoison = s.burstPoison ∧ (updAudRoom r f s).hostMem = s.hostMem ∧
    (updAudRoom r f s).dram = s.dram ∧ (updAudRoom r f s).lowHeld = s.lowHeld ∧ (updAudRoom r f s).latch = s.latch ∧
    (updAudRoom r f s).ctr = s.ctr ∧ (updAudRoom r f s).ids = s.ids ∧ (updAudRoom r f s).hq = s.hq ∧
    (updAudRoom r f s).disp = s.disp ∧ (updAudRoom r f s).fwOps = s.fwOps ∧ (updAudRoom r f s).fwDone = s.fwDone ∧
    (updAudRoom r f s).evr = s.evr ∧ (updAudRoom r f s).dump = s.dump ∧ (updAudRoom r f s).dramStacks = s.dramStacks ∧
    (updAudRoom r f s).acc = s.acc ∧ (updAudRoom r f s).time = s.time ∧ (updAudRoom r f s).links = s.links ∧
    (updAudRoom r f s).power = s.power ∧ (updAudRoom r f s).body = s.body ∧ (updAudRoom r f s).fab = s.fab ∧
    (updAudRoom r f s).upd = s.upd ∧ (updAudRoom r f s).dom = s.dom ∧ (updAudRoom r f s).keys = s.keys ∧
    (updAudRoom r f s).lanes = s.lanes ∧ (updAudRoom r f s).aes = s.aes ∧ (updAudRoom r f s).rxOps = s.rxOps ∧
    (updAudRoom r f s).media = s.media ∧ (updAudRoom r f s).video = s.video ∧ (updAudRoom r f s).dsp = s.dsp := by
  and_intros <;> rfl

@[simp] theorem setAudGroup_frame (g : Nat) (v : AudGroup) (s : State) :
    (setAudGroup g v s).pending = s.pending ∧ (setAudGroup g v s).res = s.res ∧ (setAudGroup g v s).free = s.free ∧
    (setAudGroup g v s).nextOp = s.nextOp ∧ (setAudGroup g v s).out = s.out ∧
    (setAudGroup g v s).readData = s.readData ∧ (setAudGroup g v s).burst = s.burst ∧
    (setAudGroup g v s).burstPoison = s.burstPoison ∧ (setAudGroup g v s).hostMem = s.hostMem ∧
    (setAudGroup g v s).dram = s.dram ∧ (setAudGroup g v s).lowHeld = s.lowHeld ∧
    (setAudGroup g v s).latch = s.latch ∧ (setAudGroup g v s).ctr = s.ctr ∧ (setAudGroup g v s).ids = s.ids ∧
    (setAudGroup g v s).hq = s.hq ∧ (setAudGroup g v s).disp = s.disp ∧ (setAudGroup g v s).fwOps = s.fwOps ∧
    (setAudGroup g v s).fwDone = s.fwDone ∧ (setAudGroup g v s).evr = s.evr ∧ (setAudGroup g v s).dump = s.dump ∧
    (setAudGroup g v s).dramStacks = s.dramStacks ∧ (setAudGroup g v s).acc = s.acc ∧ (setAudGroup g v s).time = s.time ∧
    (setAudGroup g v s).links = s.links ∧ (setAudGroup g v s).power = s.power ∧ (setAudGroup g v s).body = s.body ∧
    (setAudGroup g v s).fab = s.fab ∧ (setAudGroup g v s).upd = s.upd ∧ (setAudGroup g v s).dom = s.dom ∧
    (setAudGroup g v s).keys = s.keys ∧ (setAudGroup g v s).lanes = s.lanes ∧ (setAudGroup g v s).aes = s.aes ∧
    (setAudGroup g v s).rxOps = s.rxOps ∧ (setAudGroup g v s).media = s.media ∧ (setAudGroup g v s).video = s.video ∧
    (setAudGroup g v s).dsp = s.dsp := by
  and_intros <;> rfl

@[simp] theorem updAudGroup_frame (g : Nat) (f : AudGroup → AudGroup) (s : State) :
    (updAudGroup g f s).pending = s.pending ∧ (updAudGroup g f s).res = s.res ∧ (updAudGroup g f s).free = s.free ∧
    (updAudGroup g f s).nextOp = s.nextOp ∧ (updAudGroup g f s).out = s.out ∧
    (updAudGroup g f s).readData = s.readData ∧ (updAudGroup g f s).burst = s.burst ∧
    (updAudGroup g f s).burstPoison = s.burstPoison ∧ (updAudGroup g f s).hostMem = s.hostMem ∧
    (updAudGroup g f s).dram = s.dram ∧ (updAudGroup g f s).lowHeld = s.lowHeld ∧
    (updAudGroup g f s).latch = s.latch ∧ (updAudGroup g f s).ctr = s.ctr ∧ (updAudGroup g f s).ids = s.ids ∧
    (updAudGroup g f s).hq = s.hq ∧ (updAudGroup g f s).disp = s.disp ∧ (updAudGroup g f s).fwOps = s.fwOps ∧
    (updAudGroup g f s).fwDone = s.fwDone ∧ (updAudGroup g f s).evr = s.evr ∧ (updAudGroup g f s).dump = s.dump ∧
    (updAudGroup g f s).dramStacks = s.dramStacks ∧ (updAudGroup g f s).acc = s.acc ∧ (updAudGroup g f s).time = s.time ∧
    (updAudGroup g f s).links = s.links ∧ (updAudGroup g f s).power = s.power ∧ (updAudGroup g f s).body = s.body ∧
    (updAudGroup g f s).fab = s.fab ∧ (updAudGroup g f s).upd = s.upd ∧ (updAudGroup g f s).dom = s.dom ∧
    (updAudGroup g f s).keys = s.keys ∧ (updAudGroup g f s).lanes = s.lanes ∧ (updAudGroup g f s).aes = s.aes ∧
    (updAudGroup g f s).rxOps = s.rxOps ∧ (updAudGroup g f s).media = s.media ∧ (updAudGroup g f s).video = s.video ∧
    (updAudGroup g f s).dsp = s.dsp := by
  and_intros <;> rfl

@[simp] theorem setAudBus_frame (b : Nat) (v : AudBus) (s : State) :
    (setAudBus b v s).pending = s.pending ∧ (setAudBus b v s).res = s.res ∧ (setAudBus b v s).free = s.free ∧
    (setAudBus b v s).nextOp = s.nextOp ∧ (setAudBus b v s).out = s.out ∧ (setAudBus b v s).readData = s.readData ∧
    (setAudBus b v s).burst = s.burst ∧ (setAudBus b v s).burstPoison = s.burstPoison ∧
    (setAudBus b v s).hostMem = s.hostMem ∧ (setAudBus b v s).dram = s.dram ∧ (setAudBus b v s).lowHeld = s.lowHeld ∧
    (setAudBus b v s).latch = s.latch ∧ (setAudBus b v s).ctr = s.ctr ∧ (setAudBus b v s).ids = s.ids ∧
    (setAudBus b v s).hq = s.hq ∧ (setAudBus b v s).disp = s.disp ∧ (setAudBus b v s).fwOps = s.fwOps ∧
    (setAudBus b v s).fwDone = s.fwDone ∧ (setAudBus b v s).evr = s.evr ∧ (setAudBus b v s).dump = s.dump ∧
    (setAudBus b v s).dramStacks = s.dramStacks ∧ (setAudBus b v s).acc = s.acc ∧ (setAudBus b v s).time = s.time ∧
    (setAudBus b v s).links = s.links ∧ (setAudBus b v s).power = s.power ∧ (setAudBus b v s).body = s.body ∧
    (setAudBus b v s).fab = s.fab ∧ (setAudBus b v s).upd = s.upd ∧ (setAudBus b v s).dom = s.dom ∧
    (setAudBus b v s).keys = s.keys ∧ (setAudBus b v s).lanes = s.lanes ∧ (setAudBus b v s).aes = s.aes ∧
    (setAudBus b v s).rxOps = s.rxOps ∧ (setAudBus b v s).media = s.media ∧ (setAudBus b v s).video = s.video ∧
    (setAudBus b v s).dsp = s.dsp := by
  and_intros <;> rfl

@[simp] theorem updAudBus_frame (b : Nat) (f : AudBus → AudBus) (s : State) :
    (updAudBus b f s).pending = s.pending ∧ (updAudBus b f s).res = s.res ∧ (updAudBus b f s).free = s.free ∧
    (updAudBus b f s).nextOp = s.nextOp ∧ (updAudBus b f s).out = s.out ∧ (updAudBus b f s).readData = s.readData ∧
    (updAudBus b f s).burst = s.burst ∧ (updAudBus b f s).burstPoison = s.burstPoison ∧
    (updAudBus b f s).hostMem = s.hostMem ∧ (updAudBus b f s).dram = s.dram ∧ (updAudBus b f s).lowHeld = s.lowHeld ∧
    (updAudBus b f s).latch = s.latch ∧ (updAudBus b f s).ctr = s.ctr ∧ (updAudBus b f s).ids = s.ids ∧
    (updAudBus b f s).hq = s.hq ∧ (updAudBus b f s).disp = s.disp ∧ (updAudBus b f s).fwOps = s.fwOps ∧
    (updAudBus b f s).fwDone = s.fwDone ∧ (updAudBus b f s).evr = s.evr ∧ (updAudBus b f s).dump = s.dump ∧
    (updAudBus b f s).dramStacks = s.dramStacks ∧ (updAudBus b f s).acc = s.acc ∧ (updAudBus b f s).time = s.time ∧
    (updAudBus b f s).links = s.links ∧ (updAudBus b f s).power = s.power ∧ (updAudBus b f s).body = s.body ∧
    (updAudBus b f s).fab = s.fab ∧ (updAudBus b f s).upd = s.upd ∧ (updAudBus b f s).dom = s.dom ∧
    (updAudBus b f s).keys = s.keys ∧ (updAudBus b f s).lanes = s.lanes ∧ (updAudBus b f s).aes = s.aes ∧
    (updAudBus b f s).rxOps = s.rxOps ∧ (updAudBus b f s).media = s.media ∧ (updAudBus b f s).video = s.video ∧
    (updAudBus b f s).dsp = s.dsp := by
  and_intros <;> rfl

@[simp] theorem setDspCore_frame (t c : Nat) (v : DspCore) (s : State) :
    (setDspCore t c v s).pending = s.pending ∧ (setDspCore t c v s).res = s.res ∧
    (setDspCore t c v s).free = s.free ∧ (setDspCore t c v s).nextOp = s.nextOp ∧ (setDspCore t c v s).out = s.out ∧
    (setDspCore t c v s).readData = s.readData ∧ (setDspCore t c v s).burst = s.burst ∧
    (setDspCore t c v s).burstPoison = s.burstPoison ∧ (setDspCore t c v s).hostMem = s.hostMem ∧
    (setDspCore t c v s).dram = s.dram ∧ (setDspCore t c v s).lowHeld = s.lowHeld ∧
    (setDspCore t c v s).latch = s.latch ∧ (setDspCore t c v s).ctr = s.ctr ∧ (setDspCore t c v s).ids = s.ids ∧
    (setDspCore t c v s).hq = s.hq ∧ (setDspCore t c v s).disp = s.disp ∧ (setDspCore t c v s).fwOps = s.fwOps ∧
    (setDspCore t c v s).fwDone = s.fwDone ∧ (setDspCore t c v s).evr = s.evr ∧ (setDspCore t c v s).dump = s.dump ∧
    (setDspCore t c v s).dramStacks = s.dramStacks ∧ (setDspCore t c v s).acc = s.acc ∧ (setDspCore t c v s).time = s.time ∧
    (setDspCore t c v s).links = s.links ∧ (setDspCore t c v s).power = s.power ∧
    (setDspCore t c v s).body = s.body ∧ (setDspCore t c v s).fab = s.fab ∧ (setDspCore t c v s).upd = s.upd ∧
    (setDspCore t c v s).dom = s.dom ∧ (setDspCore t c v s).keys = s.keys ∧ (setDspCore t c v s).lanes = s.lanes ∧
    (setDspCore t c v s).aes = s.aes ∧ (setDspCore t c v s).rxOps = s.rxOps ∧ (setDspCore t c v s).media = s.media ∧
    (setDspCore t c v s).video = s.video ∧ (setDspCore t c v s).audio = s.audio := by
  and_intros <;> rfl

@[simp] theorem setSram_frame (t : Nat) (m : Mem) (s : State) :
    (setSram t m s).pending = s.pending ∧ (setSram t m s).res = s.res ∧ (setSram t m s).free = s.free ∧
    (setSram t m s).nextOp = s.nextOp ∧ (setSram t m s).out = s.out ∧ (setSram t m s).readData = s.readData ∧
    (setSram t m s).burst = s.burst ∧ (setSram t m s).burstPoison = s.burstPoison ∧
    (setSram t m s).hostMem = s.hostMem ∧ (setSram t m s).dram = s.dram ∧ (setSram t m s).lowHeld = s.lowHeld ∧
    (setSram t m s).latch = s.latch ∧ (setSram t m s).ctr = s.ctr ∧ (setSram t m s).ids = s.ids ∧
    (setSram t m s).hq = s.hq ∧ (setSram t m s).disp = s.disp ∧ (setSram t m s).fwOps = s.fwOps ∧
    (setSram t m s).fwDone = s.fwDone ∧ (setSram t m s).evr = s.evr ∧ (setSram t m s).dump = s.dump ∧
    (setSram t m s).dramStacks = s.dramStacks ∧ (setSram t m s).acc = s.acc ∧ (setSram t m s).time = s.time ∧
    (setSram t m s).links = s.links ∧ (setSram t m s).power = s.power ∧ (setSram t m s).body = s.body ∧
    (setSram t m s).fab = s.fab ∧ (setSram t m s).upd = s.upd ∧ (setSram t m s).dom = s.dom ∧
    (setSram t m s).keys = s.keys ∧ (setSram t m s).lanes = s.lanes ∧ (setSram t m s).aes = s.aes ∧
    (setSram t m s).rxOps = s.rxOps ∧ (setSram t m s).media = s.media ∧ (setSram t m s).video = s.video ∧
    (setSram t m s).audio = s.audio := by
  and_intros <;> rfl

@[simp] theorem updDom_frame (f : Domain → Domain) (s : State) :
    (updDom f s).pending = s.pending ∧ (updDom f s).res = s.res ∧ (updDom f s).free = s.free ∧
    (updDom f s).nextOp = s.nextOp ∧ (updDom f s).out = s.out ∧ (updDom f s).readData = s.readData ∧
    (updDom f s).burst = s.burst ∧ (updDom f s).burstPoison = s.burstPoison ∧ (updDom f s).hostMem = s.hostMem ∧
    (updDom f s).dram = s.dram ∧ (updDom f s).lowHeld = s.lowHeld ∧ (updDom f s).latch = s.latch ∧
    (updDom f s).ctr = s.ctr ∧ (updDom f s).ids = s.ids ∧ (updDom f s).hq = s.hq ∧ (updDom f s).disp = s.disp ∧
    (updDom f s).fwOps = s.fwOps ∧ (updDom f s).fwDone = s.fwDone ∧ (updDom f s).evr = s.evr ∧
    (updDom f s).dump = s.dump ∧ (updDom f s).dramStacks = s.dramStacks ∧ (updDom f s).acc = s.acc ∧
    (updDom f s).time = s.time ∧ (updDom f s).links = s.links ∧ (updDom f s).power = s.power ∧
    (updDom f s).body = s.body ∧ (updDom f s).fab = s.fab ∧ (updDom f s).upd = s.upd ∧ (updDom f s).keys = s.keys ∧
    (updDom f s).lanes = s.lanes ∧ (updDom f s).aes = s.aes ∧ (updDom f s).rxOps = s.rxOps ∧
    (updDom f s).media = s.media ∧ (updDom f s).video = s.video ∧ (updDom f s).audio = s.audio ∧
    (updDom f s).dsp = s.dsp := by
  and_intros <;> rfl

@[simp] theorem queueOf_setQueue (i : Nat) (v : Queue) (s : State) : queueOf i (setQueue i v s) = v := by simp [queueOf, setQueue]
theorem queueOf_setQueue_ne (i j : Nat) (v : Queue) (s : State) (h : j ≠ i) : queueOf j (setQueue i v s) = queueOf j s := by
  simp [queueOf, setQueue, Tab.get_set_other, h]

@[simp] theorem queueOf_updQueue (i : Nat) (f : Queue → Queue) (s : State) : queueOf i (updQueue i f s) = f (queueOf i s) := by simp [queueOf, setQueue, updQueue]
theorem queueOf_updQueue_ne (i j : Nat) (f : Queue → Queue) (s : State) (h : j ≠ i) : queueOf j (updQueue i f s) = queueOf j s := by
  simp [queueOf, setQueue, updQueue, Tab.get_set_other, h]

@[simp] theorem coreOf_setCore (i : Nat) (v : Core) (s : State) : coreOf i (setCore i v s) = v := by simp [coreOf, setCore]
theorem coreOf_setCore_ne (i j : Nat) (v : Core) (s : State) (h : j ≠ i) : coreOf j (setCore i v s) = coreOf j s := by
  simp [coreOf, setCore, Tab.get_set_other, h]

@[simp] theorem stackOf_setStack (i : Nat) (v : Stack) (s : State) : stackOf i (setStack i v s) = v := by simp [stackOf, setStack]
theorem stackOf_setStack_ne (i j : Nat) (v : Stack) (s : State) (h : j ≠ i) : stackOf j (setStack i v s) = stackOf j s := by
  simp [stackOf, setStack, Tab.get_set_other, h]

@[simp] theorem stackOf_updStack (i : Nat) (f : Stack → Stack) (s : State) : stackOf i (updStack i f s) = f (stackOf i s) := by simp [stackOf, setStack, updStack]
theorem stackOf_updStack_ne (i j : Nat) (f : Stack → Stack) (s : State) (h : j ≠ i) : stackOf j (updStack i f s) = stackOf j s := by
  simp [stackOf, setStack, updStack, Tab.get_set_other, h]

@[simp] theorem linkOf_setLink (i : Nat) (v : DlLink) (s : State) : linkOf i (setLink i v s) = v := by simp [linkOf, setLink]
theorem linkOf_setLink_ne (i j : Nat) (v : DlLink) (s : State) (h : j ≠ i) : linkOf j (setLink i v s) = linkOf j s := by
  simp [linkOf, setLink, Tab.get_set_other, h]

@[simp] theorem linkOf_updLink (i : Nat) (f : DlLink → DlLink) (s : State) : linkOf i (updLink i f s) = f (linkOf i s) := by simp [linkOf, setLink, updLink]
theorem linkOf_updLink_ne (i j : Nat) (f : DlLink → DlLink) (s : State) (h : j ≠ i) : linkOf j (updLink i f s) = linkOf j s := by
  simp [linkOf, setLink, updLink, Tab.get_set_other, h]

@[simp] theorem islandOf_setIsland (i : Nat) (v : Island) (s : State) : islandOf i (setIsland i v s) = v := by simp [islandOf, setIsland]
theorem islandOf_setIsland_ne (i j : Nat) (v : Island) (s : State) (h : j ≠ i) : islandOf j (setIsland i v s) = islandOf j s := by
  simp [islandOf, setIsland, Tab.get_set_other, h]

@[simp] theorem slotAt_setSlot (i : Nat) (v : Slot) (s : State) : slotAt i (setSlot i v s) = v := by simp [slotAt, setSlot]
theorem slotAt_setSlot_ne (i j : Nat) (v : Slot) (s : State) (h : j ≠ i) : slotAt j (setSlot i v s) = slotAt j s := by
  simp [slotAt, setSlot, Tab.get_set_other, h]

@[simp] theorem slotAt_updSlot (i : Nat) (f : Slot → Slot) (s : State) : slotAt i (updSlot i f s) = f (slotAt i s) := by simp [slotAt, setSlot, updSlot]
theorem slotAt_updSlot_ne (i j : Nat) (f : Slot → Slot) (s : State) (h : j ≠ i) : slotAt j (updSlot i f s) = slotAt j s := by
  simp [slotAt, setSlot, updSlot, Tab.get_set_other, h]

@[simp] theorem laneOf_setLane (i : Nat) (v : Lane) (s : State) : laneOf i (setLane i v s) = v := by simp [laneOf, setLane]
theorem laneOf_setLane_ne (i j : Nat) (v : Lane) (s : State) (h : j ≠ i) : laneOf j (setLane i v s) = laneOf j s := by
  simp [laneOf, setLane, Tab.get_set_other, h]

@[simp] theorem laneOf_updLane (i : Nat) (f : Lane → Lane) (s : State) : laneOf i (updLane i f s) = f (laneOf i s) := by simp [laneOf, setLane, updLane]
theorem laneOf_updLane_ne (i j : Nat) (f : Lane → Lane) (s : State) (h : j ≠ i) : laneOf j (updLane i f s) = laneOf j s := by
  simp [laneOf, setLane, updLane, Tab.get_set_other, h]

@[simp] theorem groupCfg_setGroupCfg (i : Nat) (v : LaneGroup) (s : State) : groupCfg i (setGroupCfg i v s) = v := by simp [groupCfg, setGroupCfg]
theorem groupCfg_setGroupCfg_ne (i j : Nat) (v : LaneGroup) (s : State) (h : j ≠ i) : groupCfg j (setGroupCfg i v s) = groupCfg j s := by
  simp [groupCfg, setGroupCfg, Tab.get_set_other, h]

@[simp] theorem aesIn_setAesIn (i : Nat) (v : AesIn) (s : State) : aesIn i (setAesIn i v s) = v := by simp [aesIn, setAesIn]
theorem aesIn_setAesIn_ne (i j : Nat) (v : AesIn) (s : State) (h : j ≠ i) : aesIn j (setAesIn i v s) = aesIn j s := by
  simp [aesIn, setAesIn, Tab.get_set_other, h]

@[simp] theorem aesIn_updAesIn (i : Nat) (f : AesIn → AesIn) (s : State) : aesIn i (updAesIn i f s) = f (aesIn i s) := by simp [aesIn, setAesIn, updAesIn]
theorem aesIn_updAesIn_ne (i j : Nat) (f : AesIn → AesIn) (s : State) (h : j ≠ i) : aesIn j (updAesIn i f s) = aesIn j s := by
  simp [aesIn, setAesIn, updAesIn, Tab.get_set_other, h]

@[simp] theorem aesOut_setAesOut (i : Nat) (v : AesOut) (s : State) : aesOut i (setAesOut i v s) = v := by simp [aesOut, setAesOut]
theorem aesOut_setAesOut_ne (i j : Nat) (v : AesOut) (s : State) (h : j ≠ i) : aesOut j (setAesOut i v s) = aesOut j s := by
  simp [aesOut, setAesOut, Tab.get_set_other, h]

@[simp] theorem aesOut_updAesOut (i : Nat) (f : AesOut → AesOut) (s : State) : aesOut i (updAesOut i f s) = f (aesOut i s) := by simp [aesOut, setAesOut, updAesOut]
theorem aesOut_updAesOut_ne (i j : Nat) (f : AesOut → AesOut) (s : State) (h : j ≠ i) : aesOut j (updAesOut i f s) = aesOut j s := by
  simp [aesOut, setAesOut, updAesOut, Tab.get_set_other, h]

@[simp] theorem aesGroup_setAesGroup (i : Nat) (v : AesGroup) (s : State) : aesGroup i (setAesGroup i v s) = v := by simp [aesGroup, setAesGroup]
theorem aesGroup_setAesGroup_ne (i j : Nat) (v : AesGroup) (s : State) (h : j ≠ i) : aesGroup j (setAesGroup i v s) = aesGroup j s := by
  simp [aesGroup, setAesGroup, Tab.get_set_other, h]

@[simp] theorem sourceAt_setSource (i : Nat) (v : Source) (s : State) : sourceAt i (setSource i v s) = v := by simp [sourceAt, setSource]
theorem sourceAt_setSource_ne (i j : Nat) (v : Source) (s : State) (h : j ≠ i) : sourceAt j (setSource i v s) = sourceAt j s := by
  simp [sourceAt, setSource, Tab.get_set_other, h]

@[simp] theorem sourceAt_updSource (i : Nat) (f : Source → Source) (s : State) : sourceAt i (updSource i f s) = f (sourceAt i s) := by simp [sourceAt, setSource, updSource]
theorem sourceAt_updSource_ne (i j : Nat) (f : Source → Source) (s : State) (h : j ≠ i) : sourceAt j (updSource i f s) = sourceAt j s := by
  simp [sourceAt, setSource, updSource, Tab.get_set_other, h]

@[simp] theorem legAt_setLeg (i : Nat) (v : Leg) (s : State) : legAt i (setLeg i v s) = v := by simp [legAt, setLeg]
theorem legAt_setLeg_ne (i j : Nat) (v : Leg) (s : State) (h : j ≠ i) : legAt j (setLeg i v s) = legAt j s := by
  simp [legAt, setLeg, Tab.get_set_other, h]

@[simp] theorem legAt_updLeg (i : Nat) (f : Leg → Leg) (s : State) : legAt i (updLeg i f s) = f (legAt i s) := by simp [legAt, setLeg, updLeg]
theorem legAt_updLeg_ne (i j : Nat) (f : Leg → Leg) (s : State) (h : j ≠ i) : legAt j (updLeg i f s) = legAt j s := by
  simp [legAt, setLeg, updLeg, Tab.get_set_other, h]

@[simp] theorem subAt_setSub (i : Nat) (v : Sub) (s : State) : subAt i (setSub i v s) = v := by simp [subAt, setSub]
theorem subAt_setSub_ne (i j : Nat) (v : Sub) (s : State) (h : j ≠ i) : subAt j (setSub i v s) = subAt j s := by
  simp [subAt, setSub, Tab.get_set_other, h]

@[simp] theorem subAt_updSub (i : Nat) (f : Sub → Sub) (s : State) : subAt i (updSub i f s) = f (subAt i s) := by simp [subAt, setSub, updSub]
theorem subAt_updSub_ne (i j : Nat) (f : Sub → Sub) (s : State) (h : j ≠ i) : subAt j (updSub i f s) = subAt j s := by
  simp [subAt, setSub, updSub, Tab.get_set_other, h]

@[simp] theorem egressAt_setEgress (i : Nat) (v : Egress) (s : State) : egressAt i (setEgress i v s) = v := by simp [egressAt, setEgress]
theorem egressAt_setEgress_ne (i j : Nat) (v : Egress) (s : State) (h : j ≠ i) : egressAt j (setEgress i v s) = egressAt j s := by
  simp [egressAt, setEgress, Tab.get_set_other, h]

@[simp] theorem bufAt_setBuf (i : Nat) (v : FrameBuf) (s : State) : bufAt i (setBuf i v s) = v := by simp [bufAt, setBuf]
theorem bufAt_setBuf_ne (i j : Nat) (v : FrameBuf) (s : State) (h : j ≠ i) : bufAt j (setBuf i v s) = bufAt j s := by
  simp [bufAt, setBuf, Tab.get_set_other, h]

@[simp] theorem bufAt_updBuf (i : Nat) (f : FrameBuf → FrameBuf) (s : State) : bufAt i (updBuf i f s) = f (bufAt i s) := by simp [bufAt, setBuf, updBuf]
theorem bufAt_updBuf_ne (i j : Nat) (f : FrameBuf → FrameBuf) (s : State) (h : j ≠ i) : bufAt j (updBuf i f s) = bufAt j s := by
  simp [bufAt, setBuf, updBuf, Tab.get_set_other, h]

@[simp] theorem decAt_setDec (i : Nat) (v : DecCtx) (s : State) : decAt i (setDec i v s) = v := by simp [decAt, setDec]
theorem decAt_setDec_ne (i j : Nat) (v : DecCtx) (s : State) (h : j ≠ i) : decAt j (setDec i v s) = decAt j s := by
  simp [decAt, setDec, Tab.get_set_other, h]

@[simp] theorem decAt_updDec (i : Nat) (f : DecCtx → DecCtx) (s : State) : decAt i (updDec i f s) = f (decAt i s) := by simp [decAt, setDec, updDec]
theorem decAt_updDec_ne (i j : Nat) (f : DecCtx → DecCtx) (s : State) (h : j ≠ i) : decAt j (updDec i f s) = decAt j s := by
  simp [decAt, setDec, updDec, Tab.get_set_other, h]

@[simp] theorem encAt_setEnc (i : Nat) (v : EncCtx) (s : State) : encAt i (setEnc i v s) = v := by simp [encAt, setEnc]
theorem encAt_setEnc_ne (i j : Nat) (v : EncCtx) (s : State) (h : j ≠ i) : encAt j (setEnc i v s) = encAt j s := by
  simp [encAt, setEnc, Tab.get_set_other, h]

@[simp] theorem encAt_updEnc (i : Nat) (f : EncCtx → EncCtx) (s : State) : encAt i (updEnc i f s) = f (encAt i s) := by simp [encAt, setEnc, updEnc]
theorem encAt_updEnc_ne (i j : Nat) (f : EncCtx → EncCtx) (s : State) (h : j ≠ i) : encAt j (updEnc i f s) = encAt j s := by
  simp [encAt, setEnc, updEnc, Tab.get_set_other, h]

@[simp] theorem outputAt_setOutput (i : Nat) (v : Output) (s : State) : outputAt i (setOutput i v s) = v := by simp [outputAt, setOutput]
theorem outputAt_setOutput_ne (i j : Nat) (v : Output) (s : State) (h : j ≠ i) : outputAt j (setOutput i v s) = outputAt j s := by
  simp [outputAt, setOutput, Tab.get_set_other, h]

@[simp] theorem outputAt_updOutput (i : Nat) (f : Output → Output) (s : State) : outputAt i (updOutput i f s) = f (outputAt i s) := by simp [outputAt, setOutput, updOutput]
theorem outputAt_updOutput_ne (i j : Nat) (f : Output → Output) (s : State) (h : j ≠ i) : outputAt j (updOutput i f s) = outputAt j s := by
  simp [outputAt, setOutput, updOutput, Tab.get_set_other, h]

@[simp] theorem audIn_setAudIn (i : Nat) (v : AudIn) (s : State) : audIn i (setAudIn i v s) = v := by simp [audIn, setAudIn]
theorem audIn_setAudIn_ne (i j : Nat) (v : AudIn) (s : State) (h : j ≠ i) : audIn j (setAudIn i v s) = audIn j s := by
  simp [audIn, setAudIn, Tab.get_set_other, h]

@[simp] theorem audIn_updAudIn (i : Nat) (f : AudIn → AudIn) (s : State) : audIn i (updAudIn i f s) = f (audIn i s) := by simp [audIn, setAudIn, updAudIn]
theorem audIn_updAudIn_ne (i j : Nat) (f : AudIn → AudIn) (s : State) (h : j ≠ i) : audIn j (updAudIn i f s) = audIn j s := by
  simp [audIn, setAudIn, updAudIn, Tab.get_set_other, h]

@[simp] theorem audRoom_setAudRoom (i : Nat) (v : AudRoom) (s : State) : audRoom i (setAudRoom i v s) = v := by simp [audRoom, setAudRoom]
theorem audRoom_setAudRoom_ne (i j : Nat) (v : AudRoom) (s : State) (h : j ≠ i) : audRoom j (setAudRoom i v s) = audRoom j s := by
  simp [audRoom, setAudRoom, Tab.get_set_other, h]

@[simp] theorem audRoom_updAudRoom (i : Nat) (f : AudRoom → AudRoom) (s : State) : audRoom i (updAudRoom i f s) = f (audRoom i s) := by simp [audRoom, setAudRoom, updAudRoom]
theorem audRoom_updAudRoom_ne (i j : Nat) (f : AudRoom → AudRoom) (s : State) (h : j ≠ i) : audRoom j (updAudRoom i f s) = audRoom j s := by
  simp [audRoom, setAudRoom, updAudRoom, Tab.get_set_other, h]

@[simp] theorem audGroup_setAudGroup (i : Nat) (v : AudGroup) (s : State) : audGroup i (setAudGroup i v s) = v := by simp [audGroup, setAudGroup]
theorem audGroup_setAudGroup_ne (i j : Nat) (v : AudGroup) (s : State) (h : j ≠ i) : audGroup j (setAudGroup i v s) = audGroup j s := by
  simp [audGroup, setAudGroup, Tab.get_set_other, h]

@[simp] theorem audGroup_updAudGroup (i : Nat) (f : AudGroup → AudGroup) (s : State) : audGroup i (updAudGroup i f s) = f (audGroup i s) := by simp [audGroup, setAudGroup, updAudGroup]
theorem audGroup_updAudGroup_ne (i j : Nat) (f : AudGroup → AudGroup) (s : State) (h : j ≠ i) : audGroup j (updAudGroup i f s) = audGroup j s := by
  simp [audGroup, setAudGroup, updAudGroup, Tab.get_set_other, h]

@[simp] theorem audBus_setAudBus (i : Nat) (v : AudBus) (s : State) : audBus i (setAudBus i v s) = v := by simp [audBus, setAudBus]
theorem audBus_setAudBus_ne (i j : Nat) (v : AudBus) (s : State) (h : j ≠ i) : audBus j (setAudBus i v s) = audBus j s := by
  simp [audBus, setAudBus, Tab.get_set_other, h]

@[simp] theorem audBus_updAudBus (i : Nat) (f : AudBus → AudBus) (s : State) : audBus i (updAudBus i f s) = f (audBus i s) := by simp [audBus, setAudBus, updAudBus]
theorem audBus_updAudBus_ne (i j : Nat) (f : AudBus → AudBus) (s : State) (h : j ≠ i) : audBus j (updAudBus i f s) = audBus j s := by
  simp [audBus, setAudBus, updAudBus, Tab.get_set_other, h]

@[simp] theorem ctrGet_count (off k : Nat) (s : State) : ctrGet off (count off k s) = satAdd 64 (ctrGet off s) k := by
  simp [ctrGet, count, Tab.upd]
theorem ctrGet_count_ne (off p k : Nat) (s : State) (h : p ≠ off) : ctrGet p (count off k s) = ctrGet p s := by
  simp [ctrGet, count, Tab.upd, Tab.get_set_other, h]

end Sys2Proof.Machine
end

