-- ==== Sys2Proof/Laws/Shared.lean ====
section
/-! SUPPORT. What the shared operations can change: recording, posting, completing, halting and refusing. Each operation has one lemma
that names the only fields it writes; its frame follows. -/

namespace Sys2Proof.Machine

/-- Only the recorder, the counters and the output differ, and of the counters only the recorder's own. -/
def LogOnly (s t : State) : Prop :=
  ∃ e c o, t = { s with evr := e, ctr := c, out := o } ∧ ∀ p, p < 0x400200 ∨ 0x400228 ≤ p → c.find? p = s.ctr.find? p

theorem LogOnly.refl (s : State) : LogOnly s s := ⟨_, _, _, rfl, fun _ _ => rfl⟩

theorem LogOnly.trans {a b c : State} (h : LogOnly a b) (g : LogOnly b c) : LogOnly a c := by
  obtain ⟨e, c1, o, rfl, h⟩ := h
  obtain ⟨e, c1, o, rfl, g⟩ := g
  exact ⟨_, _, _, rfl, fun p hp => (g p hp).trans (h p hp)⟩

theorem logOnly_count {off k : Nat} {s : State} (h : 0x400200 ≤ off ∧ off < 0x400228) : LogOnly s (count off k s) :=
  ⟨_, _, _, rfl, fun p hp => Tab.find_set_other _ _ _ _ (by omega)⟩

theorem logOnly_evr (e : Evr) (s : State) : LogOnly s { s with evr := e } := ⟨_, _, _, rfl, fun _ _ => rfl⟩
theorem logOnly_emit (x : Out) (s : State) : LogOnly s (emit x s) := ⟨_, _, _, rfl, fun _ _ => rfl⟩
theorem logOnly_pfVector (v : Nat) (s : State) : LogOnly s (pfVector v s) := ⟨_, _, _, rfl, fun _ _ => rfl⟩
theorem logOnly_takeSeq (s : State) : LogOnly s (takeSeq s) := (logOnly_evr _ s).trans (logOnly_count (by decide))

theorem logOnly_lastGasp (r : Record) (s : State) : LogOnly s (lastGaspRecord r s) := by
  simp only [lastGaspRecord]
  split
  · exact (logOnly_takeSeq s).trans ((logOnly_evr _ _).trans (logOnly_evr _ _))
  · exact (logOnly_takeSeq s).trans ((logOnly_evr _ _).trans (logOnly_count (by decide)))

theorem logOnly_storeRecord (code origin master : Nat) (pl : List Byte) (s : State) :
    LogOnly s (storeRecord code origin master pl s) := by
  simp only [storeRecord]
  split
  · exact logOnly_lastGasp _ _
  · split
    · exact (logOnly_takeSeq s).trans ((logOnly_evr _ _).trans ((logOnly_evr _ _).trans
        ((logOnly_lastGasp _ _).trans (logOnly_pfVector _ _))))
    · exact (logOnly_takeSeq s).trans (logOnly_evr _ _)

theorem logOnly_foldInto (n : Nat) (s : State) : LogOnly s (foldInto n s) := by
  simp only [foldInto]; split <;> exact logOnly_evr _ _

theorem logOnly_evrWrite (code origin master : Nat) (pl : List Byte) (s : State) : LogOnly s (evrWrite code origin master pl s).1 := by
  simp only [evrWrite]
  split
  · exact logOnly_storeRecord _ _ _ _ _
  · split
    · split
      · exact (logOnly_evr _ _).trans (logOnly_count (by decide))
      · refine LogOnly.trans ?_ (logOnly_storeRecord _ _ _ _ _)
        split
        · exact logOnly_evr _ _
        · exact (logOnly_evr _ _).trans (logOnly_storeRecord _ _ _ _ _)
    · split
      · split
        · exact (logOnly_foldInto _ _).trans (logOnly_count (by decide))
        · exact logOnly_storeRecord _ _ _ _ _
      · exact logOnly_storeRecord _ _ _ _ _

theorem logOnly_record (code : Nat) (items : List (Nat × Nat)) (s : State) : LogOnly s (record code items s) :=
  logOnly_evrWrite _ _ _ _ _
theorem logOnly_recordBy (master code : Nat) (items : List (Nat × Nat)) (s : State) : LogOnly s (recordBy master code items s) :=
  logOnly_evrWrite _ _ _ _ _
theorem logOnly_memRecord (master code : Nat) (items : List (Nat × Nat)) (s : State) : LogOnly s (memRecord master code items s) :=
  (logOnly_recordBy _ _ _ _).trans (logOnly_pfVector _ _)

theorem logOnly_setPhase (p : Nat) (s : State) : LogOnly s (setPhase p s) := by
  simp only [setPhase]
  split
  · exact LogOnly.refl _
  · exact (logOnly_evr _ _).trans (logOnly_record _ _ _)

theorem LogOnly.ctr {s t : State} (h : LogOnly s t) (p : Nat) (hp : p < 0x400200 ∨ 0x400228 ≤ p) : ctrGet p t = ctrGet p s := by
  obtain ⟨e, c, o, rfl, h⟩ := h
  simp only [ctrGet, Tab.get]; rw [h p hp]

@[simp] theorem record_frame (code : Nat) (items : List (Nat × Nat)) (s : State) :
    (record code items s).pending = s.pending ∧ (record code items s).res = s.res ∧
    (record code items s).free = s.free ∧ (record code items s).nextOp = s.nextOp ∧
    (record code items s).readData = s.readData ∧ (record code items s).burst = s.burst ∧
    (record code items s).burstPoison = s.burstPoison ∧ (record code items s).hostMem = s.hostMem ∧
    (record code items s).dram = s.dram ∧ (record code items s).lowHeld = s.lowHeld ∧
    (record code items s).latch = s.latch ∧ (record code items s).ids = s.ids ∧ (record code items s).hq = s.hq ∧
    (record code items s).disp = s.disp ∧ (record code items s).fwOps = s.fwOps ∧
    (record code items s).fwDone = s.fwDone ∧ (record code items s).dump = s.dump ∧
    (record code items s).dramStacks = s.dramStacks ∧ (record code items s).acc = s.acc ∧
    (record code items s).time = s.time ∧ (record code items s).links = s.links ∧
    (record code items s).power = s.power ∧ (record code items s).body = s.body ∧ (record code items s).fab = s.fab ∧
    (record code items s).upd = s.upd ∧ (record code items s).dom = s.dom ∧ (record code items s).keys = s.keys ∧
    (record code items s).lanes = s.lanes ∧ (record code items s).aes = s.aes ∧
    (record code items s).rxOps = s.rxOps ∧ (record code items s).media = s.media ∧
    (record code items s).video = s.video ∧ (record code items s).audio = s.audio ∧ (record code items s).dsp = s.dsp := by
  obtain ⟨x0, x1, x2, h, _⟩ := logOnly_record code items s
  rw [h]; and_intros <;> rfl

@[simp] theorem recordBy_frame (master code : Nat) (items : List (Nat × Nat)) (s : State) :
    (recordBy master code items s).pending = s.pending ∧ (recordBy master code items s).res = s.res ∧
    (recordBy master code items s).free = s.free ∧ (recordBy master code items s).nextOp = s.nextOp ∧
    (recordBy master code items s).readData = s.readData ∧ (recordBy master code items s).burst = s.burst ∧
    (recordBy master code items s).burstPoison = s.burstPoison ∧ (recordBy master code items s).hostMem = s.hostMem ∧
    (recordBy master code items s).dram = s.dram ∧ (recordBy master code items s).lowHeld = s.lowHeld ∧
    (recordBy master code items s).latch = s.latch ∧ (recordBy master code items s).ids = s.ids ∧
    (recordBy master code items s).hq = s.hq ∧ (recordBy master code items s).disp = s.disp ∧
    (recordBy master code items s).fwOps = s.fwOps ∧ (recordBy master code items s).fwDone = s.fwDone ∧
    (recordBy master code items s).dump = s.dump ∧ (recordBy master code items s).dramStacks = s.dramStacks ∧
    (recordBy master code items s).acc = s.acc ∧ (recordBy master code items s).time = s.time ∧
    (recordBy master code items s).links = s.links ∧ (recordBy master code items s).power = s.power ∧
    (recordBy master code items s).body = s.body ∧ (recordBy master code items s).fab = s.fab ∧
    (recordBy master code items s).upd = s.upd ∧ (recordBy master code items s).dom = s.dom ∧
    (recordBy master code items s).keys = s.keys ∧ (recordBy master code items s).lanes = s.lanes ∧
    (recordBy master code items s).aes = s.aes ∧ (recordBy master code items s).rxOps = s.rxOps ∧
    (recordBy master code items s).media = s.media ∧ (recordBy master code items s).video = s.video ∧
    (recordBy master code items s).audio = s.audio ∧ (recordBy master code items s).dsp = s.dsp := by
  obtain ⟨x0, x1, x2, h, _⟩ := logOnly_recordBy master code items s
  rw [h]; and_intros <;> rfl

@[simp] theorem memRecord_frame (master code : Nat) (items : List (Nat × Nat)) (s : State) :
    (memRecord master code items s).pending = s.pending ∧ (memRecord master code items s).res = s.res ∧
    (memRecord master code items s).free = s.free ∧ (memRecord master code items s).nextOp = s.nextOp ∧
    (memRecord master code items s).readData = s.readData ∧ (memRecord master code items s).burst = s.burst ∧
    (memRecord master code items s).burstPoison = s.burstPoison ∧
    (memRecord master code items s).hostMem = s.hostMem ∧ (memRecord master code items s).dram = s.dram ∧
    (memRecord master code items s).lowHeld = s.lowHeld ∧ (memRecord master code items s).latch = s.latch ∧
    (memRecord master code items s).ids = s.ids ∧ (memRecord master code items s).hq = s.hq ∧
    (memRecord master code items s).disp = s.disp ∧ (memRecord master code items s).fwOps = s.fwOps ∧
    (memRecord master code items s).fwDone = s.fwDone ∧ (memRecord master code items s).dump = s.dump ∧
    (memRecord master code items s).dramStacks = s.dramStacks ∧ (memRecord master code items s).acc = s.acc ∧
    (memRecord master code items s).time = s.time ∧ (memRecord master code items s).links = s.links ∧
    (memRecord master code items s).power = s.power ∧ (memRecord master code items s).body = s.body ∧
    (memRecord master code items s).fab = s.fab ∧ (memRecord master code items s).upd = s.upd ∧
    (memRecord master code items s).dom = s.dom ∧ (memRecord master code items s).keys = s.keys ∧
    (memRecord master code items s).lanes = s.lanes ∧ (memRecord master code items s).aes = s.aes ∧
    (memRecord master code items s).rxOps = s.rxOps ∧ (memRecord master code items s).media = s.media ∧
    (memRecord master code items s).video = s.video ∧ (memRecord master code items s).audio = s.audio ∧
    (memRecord master code items s).dsp = s.dsp := by
  obtain ⟨x0, x1, x2, h, _⟩ := logOnly_memRecord master code items s
  rw [h]; and_intros <;> rfl

@[simp] theorem setPhase_frame (p : Nat) (s : State) :
    (setPhase p s).pending = s.pending ∧ (setPhase p s).res = s.res ∧ (setPhase p s).free = s.free ∧
    (setPhase p s).nextOp = s.nextOp ∧ (setPhase p s).readData = s.readData ∧ (setPhase p s).burst = s.burst ∧
    (setPhase p s).burstPoison = s.burstPoison ∧ (setPhase p s).hostMem = s.hostMem ∧ (setPhase p s).dram = s.dram ∧
    (setPhase p s).lowHeld = s.lowHeld ∧ (setPhase p s).latch = s.latch ∧ (setPhase p s).ids = s.ids ∧
    (setPhase p s).hq = s.hq ∧ (setPhase p s).disp = s.disp ∧ (setPhase p s).fwOps = s.fwOps ∧
    (setPhase p s).fwDone = s.fwDone ∧ (setPhase p s).dump = s.dump ∧ (setPhase p s).dramStacks = s.dramStacks ∧
    (setPhase p s).acc = s.acc ∧ (setPhase p s).time = s.time ∧ (setPhase p s).links = s.links ∧
    (setPhase p s).power = s.power ∧ (setPhase p s).body = s.body ∧ (setPhase p s).fab = s.fab ∧
    (setPhase p s).upd = s.upd ∧ (setPhase p s).dom = s.dom ∧ (setPhase p s).keys = s.keys ∧
    (setPhase p s).lanes = s.lanes ∧ (setPhase p s).aes = s.aes ∧ (setPhase p s).rxOps = s.rxOps ∧
    (setPhase p s).media = s.media ∧ (setPhase p s).video = s.video ∧ (setPhase p s).audio = s.audio ∧
    (setPhase p s).dsp = s.dsp := by
  obtain ⟨x0, x1, x2, h, _⟩ := logOnly_setPhase p s
  rw [h]; and_intros <;> rfl

@[simp] theorem storeRecord_frame (code origin master : Nat) (pl : List Byte) (s : State) :
    (storeRecord code origin master pl s).pending = s.pending ∧ (storeRecord code origin master pl s).res = s.res ∧
    (storeRecord code origin master pl s).free = s.free ∧ (storeRecord code origin master pl s).nextOp = s.nextOp ∧
    (storeRecord code origin master pl s).readData = s.readData ∧
    (storeRecord code origin master pl s).burst = s.burst ∧
    (storeRecord code origin master pl s).burstPoison = s.burstPoison ∧
    (storeRecord code origin master pl s).hostMem = s.hostMem ∧ (storeRecord code origin master pl s).dram = s.dram ∧
    (storeRecord code origin master pl s).lowHeld = s.lowHeld ∧
    (storeRecord code origin master pl s).latch = s.latch ∧ (storeRecord code origin master pl s).ids = s.ids ∧
    (storeRecord code origin master pl s).hq = s.hq ∧ (storeRecord code origin master pl s).disp = s.disp ∧
    (storeRecord code origin master pl s).fwOps = s.fwOps ∧ (storeRecord code origin master pl s).fwDone = s.fwDone ∧
    (storeRecord code origin master pl s).dump = s.dump ∧ (storeRecord code origin master pl s).dramStacks = s.dramStacks ∧
    (storeRecord code origin master pl s).acc = s.acc ∧ (storeRecord code origin master pl s).time = s.time ∧
    (storeRecord code origin master pl s).links = s.links ∧ (storeRecord code origin master pl s).power = s.power ∧
    (storeRecord code origin master pl s).body = s.body ∧ (storeRecord code origin master pl s).fab = s.fab ∧
    (storeRecord code origin master pl s).upd = s.upd ∧ (storeRecord code origin master pl s).dom = s.dom ∧
    (storeRecord code origin master pl s).keys = s.keys ∧ (storeRecord code origin master pl s).lanes = s.lanes ∧
    (storeRecord code origin master pl s).aes = s.aes ∧ (storeRecord code origin master pl s).rxOps = s.rxOps ∧
    (storeRecord code origin master pl s).media = s.media ∧ (storeRecord code origin master pl s).video = s.video ∧
    (storeRecord code origin master pl s).audio = s.audio ∧ (storeRecord code origin master pl s).dsp = s.dsp := by
  obtain ⟨x0, x1, x2, h, _⟩ := logOnly_storeRecord code origin master pl s
  rw [h]; and_intros <;> rfl

@[simp] theorem evrWrite_frame (code origin master : Nat) (pl : List Byte) (s : State) :
    (evrWrite code origin master pl s).1.pending = s.pending ∧ (evrWrite code origin master pl s).1.res = s.res ∧
    (evrWrite code origin master pl s).1.free = s.free ∧ (evrWrite code origin master pl s).1.nextOp = s.nextOp ∧
    (evrWrite code origin master pl s).1.readData = s.readData ∧
    (evrWrite code origin master pl s).1.burst = s.burst ∧
    (evrWrite code origin master pl s).1.burstPoison = s.burstPoison ∧
    (evrWrite code origin master pl s).1.hostMem = s.hostMem ∧ (evrWrite code origin master pl s).1.dram = s.dram ∧
    (evrWrite code origin master pl s).1.lowHeld = s.lowHeld ∧ (evrWrite code origin master pl s).1.latch = s.latch ∧
    (evrWrite code origin master pl s).1.ids = s.ids ∧ (evrWrite code origin master pl s).1.hq = s.hq ∧
    (evrWrite code origin master pl s).1.disp = s.disp ∧ (evrWrite code origin master pl s).1.fwOps = s.fwOps ∧
    (evrWrite code origin master pl s).1.fwDone = s.fwDone ∧ (evrWrite code origin master pl s).1.dump = s.dump ∧
    (evrWrite code origin master pl s).1.dramStacks = s.dramStacks ∧ (evrWrite code origin master pl s).1.acc = s.acc ∧
    (evrWrite code origin master pl s).1.time = s.time ∧ (evrWrite code origin master pl s).1.links = s.links ∧
    (evrWrite code origin master pl s).1.power = s.power ∧ (evrWrite code origin master pl s).1.body = s.body ∧
    (evrWrite code origin master pl s).1.fab = s.fab ∧ (evrWrite code origin master pl s).1.upd = s.upd ∧
    (evrWrite code origin master pl s).1.dom = s.dom ∧ (evrWrite code origin master pl s).1.keys = s.keys ∧
    (evrWrite code origin master pl s).1.lanes = s.lanes ∧ (evrWrite code origin master pl s).1.aes = s.aes ∧
    (evrWrite code origin master pl s).1.rxOps = s.rxOps ∧ (evrWrite code origin master pl s).1.media = s.media ∧
    (evrWrite code origin master pl s).1.video = s.video ∧ (evrWrite code origin master pl s).1.audio = s.audio ∧
    (evrWrite code origin master pl s).1.dsp = s.dsp := by
  obtain ⟨x0, x1, x2, h, _⟩ := logOnly_evrWrite code origin master pl s
  rw [h]; and_intros <;> rfl

theorem accRefuse_only (kind idx master : Nat) (s : State) :
    ∃ x_acc x_evr x_ctr x_out, accRefuse kind idx master s = { s with acc := x_acc, evr := x_evr, ctr := x_ctr, out := x_out } := by
  have key : ∀ t : State, (∃ a c, t = { s with acc := a, ctr := c }) → ∃ a e c o,
      memRecord master 0x0C04 [(1, kind), (2, idx), (1, master)] t = { s with acc := a, evr := e, ctr := c, out := o } := by
    rintro t ⟨a, c, rfl⟩
    obtain ⟨e, c, o, h, _⟩ := logOnly_memRecord master 0x0C04 [(1, kind), (2, idx), (1, master)] { s with acc := a, ctr := c }
    rw [h]; exact ⟨_, _, _, _, rfl⟩
  simp only [accRefuse]
  split
  · exact key _ ⟨_, _, rfl⟩
  · split
    · exact key _ ⟨_, _, rfl⟩
    · exact ⟨_, _, _, _, rfl⟩

@[simp] theorem accRefuse_frame (kind idx master : Nat) (s : State) :
    (accRefuse kind idx master s).pending = s.pending ∧ (accRefuse kind idx master s).res = s.res ∧
    (accRefuse kind idx master s).free = s.free ∧ (accRefuse kind idx master s).nextOp = s.nextOp ∧
    (accRefuse kind idx master s).readData = s.readData ∧ (accRefuse kind idx master s).burst = s.burst ∧
    (accRefuse kind idx master s).burstPoison = s.burstPoison ∧ (accRefuse kind idx master s).hostMem = s.hostMem ∧
    (accRefuse kind idx master s).dram = s.dram ∧ (accRefuse kind idx master s).lowHeld = s.lowHeld ∧
    (accRefuse kind idx master s).latch = s.latch ∧ (accRefuse kind idx master s).ids = s.ids ∧
    (accRefuse kind idx master s).hq = s.hq ∧ (accRefuse kind idx master s).disp = s.disp ∧
    (accRefuse kind idx master s).fwOps = s.fwOps ∧ (accRefuse kind idx master s).fwDone = s.fwDone ∧
    (accRefuse kind idx master s).dump = s.dump ∧ (accRefuse kind idx master s).dramStacks = s.dramStacks ∧
    (accRefuse kind idx master s).time = s.time ∧ (accRefuse kind idx master s).links = s.links ∧
    (accRefuse kind idx master s).power = s.power ∧ (accRefuse kind idx master s).body = s.body ∧
    (accRefuse kind idx master s).fab = s.fab ∧ (accRefuse kind idx master s).upd = s.upd ∧
    (accRefuse kind idx master s).dom = s.dom ∧ (accRefuse kind idx master s).keys = s.keys ∧
    (accRefuse kind idx master s).lanes = s.lanes ∧ (accRefuse kind idx master s).aes = s.aes ∧
    (accRefuse kind idx master s).rxOps = s.rxOps ∧ (accRefuse kind idx master s).media = s.media ∧
    (accRefuse kind idx master s).video = s.video ∧ (accRefuse kind idx master s).audio = s.audio ∧
    (accRefuse kind idx master s).dsp = s.dsp := by
  obtain ⟨x0, x1, x2, x3, h⟩ := accRefuse_only kind idx master s
  rw [h]; and_intros <;> rfl

theorem enginePost_only (type poster forFn param : Nat) (w2 w3 : Word128) (s : State) :
    ∃ x_ids x_disp x_ctr x_out, enginePost type poster forFn param w2 w3 s = { s with ids := x_ids, disp := x_disp, ctr := x_ctr, out := x_out } := by
  simp only [enginePost, enginePostTell, putItem]
  split
  · exact ⟨_, _, _, _, rfl⟩
  · cases lowestFree .work 1 1048576 s <;> exact ⟨_, _, _, _, rfl⟩

@[simp] theorem enginePost_frame (type poster forFn param : Nat) (w2 w3 : Word128) (s : State) :
    (enginePost type poster forFn param w2 w3 s).pending = s.pending ∧
    (enginePost type poster forFn param w2 w3 s).res = s.res ∧
    (enginePost type poster forFn param w2 w3 s).free = s.free ∧
    (enginePost type poster forFn param w2 w3 s).nextOp = s.nextOp ∧
    (enginePost type poster forFn param w2 w3 s).readData = s.readData ∧
    (enginePost type poster forFn param w2 w3 s).burst = s.burst ∧
    (enginePost type poster forFn param w2 w3 s).burstPoison = s.burstPoison ∧
    (enginePost type poster forFn param w2 w3 s).hostMem = s.hostMem ∧
    (enginePost type poster forFn param w2 w3 s).dram = s.dram ∧
    (enginePost type poster forFn param w2 w3 s).lowHeld = s.lowHeld ∧
    (enginePost type poster forFn param w2 w3 s).latch = s.latch ∧
    (enginePost type poster forFn param w2 w3 s).hq = s.hq ∧
    (enginePost type poster forFn param w2 w3 s).fwOps = s.fwOps ∧
    (enginePost type poster forFn param w2 w3 s).fwDone = s.fwDone ∧
    (enginePost type poster forFn param w2 w3 s).evr = s.evr ∧
    (enginePost type poster forFn param w2 w3 s).dump = s.dump ∧
    (enginePost type poster forFn param w2 w3 s).dramStacks = s.dramStacks ∧
    (enginePost type poster forFn param w2 w3 s).acc = s.acc ∧
    (enginePost type poster forFn param w2 w3 s).time = s.time ∧
    (enginePost type poster forFn param w2 w3 s).links = s.links ∧
    (enginePost type poster forFn param w2 w3 s).power = s.power ∧
    (enginePost type poster forFn param w2 w3 s).body = s.body ∧
    (enginePost type poster forFn param w2 w3 s).fab = s.fab ∧
    (enginePost type poster forFn param w2 w3 s).upd = s.upd ∧
    (enginePost type poster forFn param w2 w3 s).dom = s.dom ∧
    (enginePost type poster forFn param w2 w3 s).keys = s.keys ∧
    (enginePost type poster forFn param w2 w3 s).lanes = s.lanes ∧
    (enginePost type poster forFn param w2 w3 s).aes = s.aes ∧
    (enginePost type poster forFn param w2 w3 s).rxOps = s.rxOps ∧
    (enginePost type poster forFn param w2 w3 s).media = s.media ∧
    (enginePost type poster forFn param w2 w3 s).video = s.video ∧
    (enginePost type poster forFn param w2 w3 s).audio = s.audio ∧
    (enginePost type poster forFn param w2 w3 s).dsp = s.dsp := by
  obtain ⟨x0, x1, x2, x3, h⟩ := enginePost_only type poster forFn param w2 w3 s
  rw [h]; and_intros <;> rfl

theorem queueIrq_only (q : Nat) (s : State) :
    ∃ x_hq x_out, queueIrq q s = { s with hq := x_hq, out := x_out } := by
  simp only [queueIrq]; split <;> exact ⟨_, _, rfl⟩

@[simp] theorem queueIrq_frame (q : Nat) (s : State) :
    (queueIrq q s).pending = s.pending ∧ (queueIrq q s).res = s.res ∧ (queueIrq q s).free = s.free ∧
    (queueIrq q s).nextOp = s.nextOp ∧ (queueIrq q s).readData = s.readData ∧ (queueIrq q s).burst = s.burst ∧
    (queueIrq q s).burstPoison = s.burstPoison ∧ (queueIrq q s).hostMem = s.hostMem ∧ (queueIrq q s).dram = s.dram ∧
    (queueIrq q s).lowHeld = s.lowHeld ∧ (queueIrq q s).latch = s.latch ∧ (queueIrq q s).ctr = s.ctr ∧
    (queueIrq q s).ids = s.ids ∧ (queueIrq q s).disp = s.disp ∧ (queueIrq q s).fwOps = s.fwOps ∧
    (queueIrq q s).fwDone = s.fwDone ∧ (queueIrq q s).evr = s.evr ∧ (queueIrq q s).dump = s.dump ∧
    (queueIrq q s).dramStacks = s.dramStacks ∧ (queueIrq q s).acc = s.acc ∧ (queueIrq q s).time = s.time ∧
    (queueIrq q s).links = s.links ∧ (queueIrq q s).power = s.power ∧ (queueIrq q s).body = s.body ∧
    (queueIrq q s).fab = s.fab ∧ (queueIrq q s).upd = s.upd ∧ (queueIrq q s).dom = s.dom ∧
    (queueIrq q s).keys = s.keys ∧ (queueIrq q s).lanes = s.lanes ∧ (queueIrq q s).aes = s.aes ∧
    (queueIrq q s).rxOps = s.rxOps ∧ (queueIrq q s).media = s.media ∧ (queueIrq q s).video = s.video ∧
    (queueIrq q s).audio = s.audio ∧ (queueIrq q s).dsp = s.dsp := by
  obtain ⟨x0, x1, h⟩ := queueIrq_only q s
  rw [h]; and_intros <;> rfl

theorem storePacket_only (q : Nat) (words : List Word128) (s : State) :
    ∃ x_hq x_out, storePacket q words s = { s with hq := x_hq, out := x_out } := by
  obtain ⟨h, o, e⟩ := queueIrq_only q (updQueue q (fun u => { u with visible := u.visible ++ [⟨words, nowNs s⟩] }) s)
  rw [storePacket, e]; exact ⟨_, _, rfl⟩

@[simp] theorem storePacket_frame (q : Nat) (words : List Word128) (s : State) :
    (storePacket q words s).pending = s.pending ∧ (storePacket q words s).res = s.res ∧
    (storePacket q words s).free = s.free ∧ (storePacket q words s).nextOp = s.nextOp ∧
    (storePacket q words s).readData = s.readData ∧ (storePacket q words s).burst = s.burst ∧
    (storePacket q words s).burstPoison = s.burstPoison ∧ (storePacket q words s).hostMem = s.hostMem ∧
    (storePacket q words s).dram = s.dram ∧ (storePacket q words s).lowHeld = s.lowHeld ∧
    (storePacket q words s).latch = s.latch ∧ (storePacket q words s).ctr = s.ctr ∧
    (storePacket q words s).ids = s.ids ∧ (storePacket q words s).disp = s.disp ∧
    (storePacket q words s).fwOps = s.fwOps ∧ (storePacket q words s).fwDone = s.fwDone ∧
    (storePacket q words s).evr = s.evr ∧ (storePacket q words s).dump = s.dump ∧
    (storePacket q words s).dramStacks = s.dramStacks ∧ (storePacket q words s).acc = s.acc ∧
    (storePacket q words s).time = s.time ∧ (storePacket q words s).links = s.links ∧
    (storePacket q words s).power = s.power ∧ (storePacket q words s).body = s.body ∧
    (storePacket q words s).fab = s.fab ∧ (storePacket q words s).upd = s.upd ∧ (storePacket q words s).dom = s.dom ∧
    (storePacket q words s).keys = s.keys ∧ (storePacket q words s).lanes = s.lanes ∧
    (storePacket q words s).aes = s.aes ∧ (storePacket q words s).rxOps = s.rxOps ∧
    (storePacket q words s).media = s.media ∧ (storePacket q words s).video = s.video ∧
    (storePacket q words s).audio = s.audio ∧ (storePacket q words s).dsp = s.dsp := by
  obtain ⟨x0, x1, h⟩ := storePacket_only q words s
  rw [h]; and_intros <;> rfl

theorem writeCompletion_only (c : Completion) (s : State) :
    ∃ x_hq x_out, writeCompletion c s = { s with hq := x_hq, out := x_out } := by
  obtain ⟨h, o, e⟩ := storePacket_only (cqOf c.queue s) (completionWords (cmpNow s) c) s
  rw [writeCompletion, e]; exact ⟨_, _, rfl⟩

@[simp] theorem writeCompletion_frame (c : Completion) (s : State) :
    (writeCompletion c s).pending = s.pending ∧ (writeCompletion c s).res = s.res ∧
    (writeCompletion c s).free = s.free ∧ (writeCompletion c s).nextOp = s.nextOp ∧
    (writeCompletion c s).readData = s.readData ∧ (writeCompletion c s).burst = s.burst ∧
    (writeCompletion c s).burstPoison = s.burstPoison ∧ (writeCompletion c s).hostMem = s.hostMem ∧
    (writeCompletion c s).dram = s.dram ∧ (writeCompletion c s).lowHeld = s.lowHeld ∧
    (writeCompletion c s).latch = s.latch ∧ (writeCompletion c s).ctr = s.ctr ∧ (writeCompletion c s).ids = s.ids ∧
    (writeCompletion c s).disp = s.disp ∧ (writeCompletion c s).fwOps = s.fwOps ∧
    (writeCompletion c s).fwDone = s.fwDone ∧ (writeCompletion c s).evr = s.evr ∧
    (writeCompletion c s).dump = s.dump ∧ (writeCompletion c s).dramStacks = s.dramStacks ∧
    (writeCompletion c s).acc = s.acc ∧ (writeCompletion c s).time = s.time ∧ (writeCompletion c s).links = s.links ∧
    (writeCompletion c s).power = s.power ∧ (writeCompletion c s).body = s.body ∧ (writeCompletion c s).fab = s.fab ∧
    (writeCompletion c s).upd = s.upd ∧ (writeCompletion c s).dom = s.dom ∧ (writeCompletion c s).keys = s.keys ∧
    (writeCompletion c s).lanes = s.lanes ∧ (writeCompletion c s).aes = s.aes ∧
    (writeCompletion c s).rxOps = s.rxOps ∧ (writeCompletion c s).media = s.media ∧
    (writeCompletion c s).video = s.video ∧ (writeCompletion c s).audio = s.audio ∧ (writeCompletion c s).dsp = s.dsp := by
  obtain ⟨x0, x1, h⟩ := writeCompletion_only c s
  rw [h]; and_intros <;> rfl

theorem complete_only (t : Ticket) (r : Reply) (s : State) :
    ∃ x_hq x_out x_fwOps x_fwDone, complete t r s = { s with hq := x_hq, out := x_out, fwOps := x_fwOps, fwDone := x_fwDone } := by
  simp only [complete]
  split
  · split <;> exact ⟨_, _, _, _, rfl⟩
  · split
    · exact ⟨_, _, _, _, rfl⟩
    · split
      · split
        · exact ⟨_, _, _, _, rfl⟩
        · obtain ⟨h, o, e⟩ := writeCompletion_only ⟨t.queue, t.qgen, t.seq, t.opcode, r.st, r.prog, r.det, t.tag⟩
            (updQueue t.queue (fun u => { u with busy := none }.markDone t.seq) s)
          rw [e]; exact ⟨_, _, _, _, rfl⟩
      · exact ⟨_, _, _, _, rfl⟩

@[simp] theorem complete_frame (t : Ticket) (r : Reply) (s : State) :
    (complete t r s).pending = s.pending ∧ (complete t r s).res = s.res ∧ (complete t r s).free = s.free ∧
    (complete t r s).nextOp = s.nextOp ∧ (complete t r s).readData = s.readData ∧ (complete t r s).burst = s.burst ∧
    (complete t r s).burstPoison = s.burstPoison ∧ (complete t r s).hostMem = s.hostMem ∧
    (complete t r s).dram = s.dram ∧ (complete t r s).lowHeld = s.lowHeld ∧ (complete t r s).latch = s.latch ∧
    (complete t r s).ctr = s.ctr ∧ (complete t r s).ids = s.ids ∧ (complete t r s).disp = s.disp ∧
    (complete t r s).evr = s.evr ∧ (complete t r s).dump = s.dump ∧ (complete t r s).dramStacks = s.dramStacks ∧
    (complete t r s).acc = s.acc ∧ (complete t r s).time = s.time ∧ (complete t r s).links = s.links ∧
    (complete t r s).power = s.power ∧ (complete t r s).body = s.body ∧ (complete t r s).fab = s.fab ∧
    (complete t r s).upd = s.upd ∧ (complete t r s).dom = s.dom ∧ (complete t r s).keys = s.keys ∧
    (complete t r s).lanes = s.lanes ∧ (complete t r s).aes = s.aes ∧ (complete t r s).rxOps = s.rxOps ∧
    (complete t r s).media = s.media ∧ (complete t r s).video = s.video ∧ (complete t r s).audio = s.audio ∧
    (complete t r s).dsp = s.dsp := by
  obtain ⟨x0, x1, x2, x3, h⟩ := complete_only t r s
  rw [h]; and_intros <;> rfl

theorem setProgress_only (t : Ticket) (p : Nat) (s : State) :
    ∃ x_hq, setProgress t p s = { s with hq := x_hq } := by
  simp only [setProgress]; split <;> exact ⟨_, rfl⟩

@[simp] theorem setProgress_frame (t : Ticket) (p : Nat) (s : State) :
    (setProgress t p s).pending = s.pending ∧ (setProgress t p s).res = s.res ∧ (setProgress t p s).free = s.free ∧
    (setProgress t p s).nextOp = s.nextOp ∧ (setProgress t p s).out = s.out ∧
    (setProgress t p s).readData = s.readData ∧ (setProgress t p s).burst = s.burst ∧
    (setProgress t p s).burstPoison = s.burstPoison ∧ (setProgress t p s).hostMem = s.hostMem ∧
    (setProgress t p s).dram = s.dram ∧ (setProgress t p s).lowHeld = s.lowHeld ∧
    (setProgress t p s).latch = s.latch ∧ (setProgress t p s).ctr = s.ctr ∧ (setProgress t p s).ids = s.ids ∧
    (setProgress t p s).disp = s.disp ∧ (setProgress t p s).fwOps = s.fwOps ∧ (setProgress t p s).fwDone = s.fwDone ∧
    (setProgress t p s).evr = s.evr ∧ (setProgress t p s).dump = s.dump ∧ (setProgress t p s).dramStacks = s.dramStacks ∧
    (setProgress t p s).acc = s.acc ∧ (setProgress t p s).time = s.time ∧ (setProgress t p s).links = s.links ∧
    (setProgress t p s).power = s.power ∧ (setProgress t p s).body = s.body ∧ (setProgress t p s).fab = s.fab ∧
    (setProgress t p s).upd = s.upd ∧ (setProgress t p s).dom = s.dom ∧ (setProgress t p s).keys = s.keys ∧
    (setProgress t p s).lanes = s.lanes ∧ (setProgress t p s).aes = s.aes ∧ (setProgress t p s).rxOps = s.rxOps ∧
    (setProgress t p s).media = s.media ∧ (setProgress t p s).video = s.video ∧ (setProgress t p s).audio = s.audio ∧
    (setProgress t p s).dsp = s.dsp := by
  obtain ⟨x0, h⟩ := setProgress_only t p s
  rw [h]; and_intros <;> rfl

theorem devicePush_only (h : Nat) (ps : List Nat) (s : State) :
    ∃ x_hq x_out x_ctr, (devicePush h ps s).2 = { s with hq := x_hq, out := x_out, ctr := x_ctr } := by
  simp only [devicePush]
  split
  · exact ⟨_, _, _, rfl⟩
  · split
    · obtain ⟨x, o, e⟩ := storePacket_only (handleIdx h) (ps.map dataWord) s
      rw [e]; exact ⟨_, _, _, rfl⟩
    · exact ⟨_, _, _, rfl⟩

@[simp] theorem devicePush_frame (h : Nat) (ps : List Nat) (s : State) :
    ((devicePush h ps s).2).pending = s.pending ∧ ((devicePush h ps s).2).res = s.res ∧
    ((devicePush h ps s).2).free = s.free ∧ ((devicePush h ps s).2).nextOp = s.nextOp ∧
    ((devicePush h ps s).2).readData = s.readData ∧ ((devicePush h ps s).2).burst = s.burst ∧
    ((devicePush h ps s).2).burstPoison = s.burstPoison ∧ ((devicePush h ps s).2).hostMem = s.hostMem ∧
    ((devicePush h ps s).2).dram = s.dram ∧ ((devicePush h ps s).2).lowHeld = s.lowHeld ∧
    ((devicePush h ps s).2).latch = s.latch ∧ ((devicePush h ps s).2).ids = s.ids ∧
    ((devicePush h ps s).2).disp = s.disp ∧ ((devicePush h ps s).2).fwOps = s.fwOps ∧
    ((devicePush h ps s).2).fwDone = s.fwDone ∧ ((devicePush h ps s).2).evr = s.evr ∧
    ((devicePush h ps s).2).dump = s.dump ∧ ((devicePush h ps s).2).dramStacks = s.dramStacks ∧
    ((devicePush h ps s).2).acc = s.acc ∧ ((devicePush h ps s).2).time = s.time ∧
    ((devicePush h ps s).2).links = s.links ∧ ((devicePush h ps s).2).power = s.power ∧
    ((devicePush h ps s).2).body = s.body ∧ ((devicePush h ps s).2).fab = s.fab ∧
    ((devicePush h ps s).2).upd = s.upd ∧ ((devicePush h ps s).2).dom = s.dom ∧
    ((devicePush h ps s).2).keys = s.keys ∧ ((devicePush h ps s).2).lanes = s.lanes ∧
    ((devicePush h ps s).2).aes = s.aes ∧ ((devicePush h ps s).2).rxOps = s.rxOps ∧
    ((devicePush h ps s).2).media = s.media ∧ ((devicePush h ps s).2).video = s.video ∧
    ((devicePush h ps s).2).audio = s.audio ∧ ((devicePush h ps s).2).dsp = s.dsp := by
  obtain ⟨x0, x1, x2, h⟩ := devicePush_only h ps s
  rw [h]; and_intros <;> rfl

theorem writeOwed_only (n q : Nat) (s : State) :
    ∃ x_hq x_out, writeOwed n q s = { s with hq := x_hq, out := x_out } := by
  induction n generalizing s with
  | zero => exact ⟨_, _, rfl⟩
  | succ n ih =>
    simp only [writeOwed]
    split
    · exact ⟨_, _, rfl⟩
    · split
      · rename_i c rest _ _
        obtain ⟨h, o, e⟩ := writeCompletion_only c (updQueue q (fun u => { u with owed := rest }.markDone c.seq) s)
        rw [e]
        obtain ⟨h', o', e'⟩ := ih { updQueue q (fun u => { u with owed := rest }.markDone c.seq) s with hq := h, out := o }
        rw [e']; exact ⟨_, _, rfl⟩
      · exact ⟨_, _, rfl⟩

@[simp] theorem writeOwed_frame (n q : Nat) (s : State) :
    (writeOwed n q s).pending = s.pending ∧ (writeOwed n q s).res = s.res ∧ (writeOwed n q s).free = s.free ∧
    (writeOwed n q s).nextOp = s.nextOp ∧ (writeOwed n q s).readData = s.readData ∧
    (writeOwed n q s).burst = s.burst ∧ (writeOwed n q s).burstPoison = s.burstPoison ∧
    (writeOwed n q s).hostMem = s.hostMem ∧ (writeOwed n q s).dram = s.dram ∧ (writeOwed n q s).lowHeld = s.lowHeld ∧
    (writeOwed n q s).latch = s.latch ∧ (writeOwed n q s).ctr = s.ctr ∧ (writeOwed n q s).ids = s.ids ∧
    (writeOwed n q s).disp = s.disp ∧ (writeOwed n q s).fwOps = s.fwOps ∧ (writeOwed n q s).fwDone = s.fwDone ∧
    (writeOwed n q s).evr = s.evr ∧ (writeOwed n q s).dump = s.dump ∧ (writeOwed n q s).dramStacks = s.dramStacks ∧
    (writeOwed n q s).acc = s.acc ∧ (writeOwed n q s).time = s.time ∧ (writeOwed n q s).links = s.links ∧
    (writeOwed n q s).power = s.power ∧ (writeOwed n q s).body = s.body ∧ (writeOwed n q s).fab = s.fab ∧
    (writeOwed n q s).upd = s.upd ∧ (writeOwed n q s).dom = s.dom ∧ (writeOwed n q s).keys = s.keys ∧
    (writeOwed n q s).lanes = s.lanes ∧ (writeOwed n q s).aes = s.aes ∧ (writeOwed n q s).rxOps = s.rxOps ∧
    (writeOwed n q s).media = s.media ∧ (writeOwed n q s).video = s.video ∧ (writeOwed n q s).audio = s.audio ∧
    (writeOwed n q s).dsp = s.dsp := by
  obtain ⟨x0, x1, h⟩ := writeOwed_only n q s
  rw [h]; and_intros <;> rfl

theorem foldl_only_hq (f : State → Nat → State) (hf : ∀ s q, ∃ h o, f s q = { s with hq := h, out := o }) (l : List Nat) (s : State) :
    ∃ h o, l.foldl f s = { s with hq := h, out := o } := by
  induction l generalizing s with
  | nil => exact ⟨_, _, rfl⟩
  | cons q r ih =>
    obtain ⟨h, o, e⟩ := hf s q
    rw [List.foldl_cons, e]
    obtain ⟨h', o', e'⟩ := ih { s with hq := h, out := o }
    rw [e']; exact ⟨_, _, rfl⟩

theorem roomFreed_only (r : Nat) (s : State) :
    ∃ x_hq x_out, roomFreed r s = { s with hq := x_hq, out := x_out } := by
  simp only [roomFreed]
  exact foldl_only_hq _ (fun s q => writeOwed_only _ q s) _ s

@[simp] theorem roomFreed_frame (r : Nat) (s : State) :
    (roomFreed r s).pending = s.pending ∧ (roomFreed r s).res = s.res ∧ (roomFreed r s).free = s.free ∧
    (roomFreed r s).nextOp = s.nextOp ∧ (roomFreed r s).readData = s.readData ∧ (roomFreed r s).burst = s.burst ∧
    (roomFreed r s).burstPoison = s.burstPoison ∧ (roomFreed r s).hostMem = s.hostMem ∧
    (roomFreed r s).dram = s.dram ∧ (roomFreed r s).lowHeld = s.lowHeld ∧ (roomFreed r s).latch = s.latch ∧
    (roomFreed r s).ctr = s.ctr ∧ (roomFreed r s).ids = s.ids ∧ (roomFreed r s).disp = s.disp ∧
    (roomFreed r s).fwOps = s.fwOps ∧ (roomFreed r s).fwDone = s.fwDone ∧ (roomFreed r s).evr = s.evr ∧
    (roomFreed r s).dump = s.dump ∧ (roomFreed r s).dramStacks = s.dramStacks ∧ (roomFreed r s).acc = s.acc ∧
    (roomFreed r s).time = s.time ∧ (roomFreed r s).links = s.links ∧ (roomFreed r s).power = s.power ∧
    (roomFreed r s).body = s.body ∧ (roomFreed r s).fab = s.fab ∧ (roomFreed r s).upd = s.upd ∧
    (roomFreed r s).dom = s.dom ∧ (roomFreed r s).keys = s.keys ∧ (roomFreed r s).lanes = s.lanes ∧
    (roomFreed r s).aes = s.aes ∧ (roomFreed r s).rxOps = s.rxOps ∧ (roomFreed r s).media = s.media ∧
    (roomFreed r s).video = s.video ∧ (roomFreed r s).audio = s.audio ∧ (roomFreed r s).dsp = s.dsp := by
  obtain ⟨x0, x1, h⟩ := roomFreed_only r s
  rw [h]; and_intros <;> rfl

theorem dropBad_only (q : Nat) (s : State) :
    ∃ x_hq x_ctr, dropBad q s = { s with hq := x_hq, ctr := x_ctr } := by
  simp only [dropBad]
  split
  · split <;> exact ⟨_, _, rfl⟩
  · exact ⟨_, _, rfl⟩

@[simp] theorem dropBad_frame (q : Nat) (s : State) :
    (dropBad q s).pending = s.pending ∧ (dropBad q s).res = s.res ∧ (dropBad q s).free = s.free ∧
    (dropBad q s).nextOp = s.nextOp ∧ (dropBad q s).out = s.out ∧ (dropBad q s).readData = s.readData ∧
    (dropBad q s).burst = s.burst ∧ (dropBad q s).burstPoison = s.burstPoison ∧ (dropBad q s).hostMem = s.hostMem ∧
    (dropBad q s).dram = s.dram ∧ (dropBad q s).lowHeld = s.lowHeld ∧ (dropBad q s).latch = s.latch ∧
    (dropBad q s).ids = s.ids ∧ (dropBad q s).disp = s.disp ∧ (dropBad q s).fwOps = s.fwOps ∧
    (dropBad q s).fwDone = s.fwDone ∧ (dropBad q s).evr = s.evr ∧ (dropBad q s).dump = s.dump ∧
    (dropBad q s).dramStacks = s.dramStacks ∧ (dropBad q s).acc = s.acc ∧ (dropBad q s).time = s.time ∧
    (dropBad q s).links = s.links ∧ (dropBad q s).power = s.power ∧ (dropBad q s).body = s.body ∧
    (dropBad q s).fab = s.fab ∧ (dropBad q s).upd = s.upd ∧ (dropBad q s).dom = s.dom ∧ (dropBad q s).keys = s.keys ∧
    (dropBad q s).lanes = s.lanes ∧ (dropBad q s).aes = s.aes ∧ (dropBad q s).rxOps = s.rxOps ∧
    (dropBad q s).media = s.media ∧ (dropBad q s).video = s.video ∧ (dropBad q s).audio = s.audio ∧
    (dropBad q s).dsp = s.dsp := by
  obtain ⟨x0, x1, h⟩ := dropBad_only q s
  rw [h]; and_intros <;> rfl

/-- A halt changes the queue alone, and records. -/
theorem haltQueue_only (q : Nat) (s : State) : ∃ h e c o, haltQueue q s = { s with hq := h, evr := e, ctr := c, out := o } := by
  have key : ∀ (items : List (Nat × Nat)) (t : State), (∃ h, t = { s with hq := h }) → ∃ h e c o,
      record 6 items t = { s with hq := h, evr := e, ctr := c, out := o } := by
    rintro items t ⟨h, rfl⟩
    obtain ⟨e, c, o, eq, _⟩ := logOnly_record 6 items { s with hq := h }
    rw [eq]; exact ⟨_, _, _, _, rfl⟩
  simp only [haltQueue]
  generalize (match (queueOf q s).busy with | some b => some b | none => (queueOf q s).part) = part
  split
  · split
    · exact ⟨_, _, _, _, rfl⟩
    · exact key _ _ ⟨_, rfl⟩
  · exact ⟨_, _, _, _, rfl⟩

theorem haltQueues_only  (s : State) :
    ∃ x_hq x_evr x_ctr x_out, haltQueues  s = { s with hq := x_hq, evr := x_evr, ctr := x_ctr, out := x_out } := by
  simp only [haltQueues]
  generalize s.hq.toList.map (·.1) = l
  induction l generalizing s with
  | nil => exact ⟨_, _, _, _, rfl⟩
  | cons q r ih =>
    obtain ⟨h, e, c, o, eq⟩ := haltQueue_only q s
    rw [List.foldl_cons, eq]
    obtain ⟨h', e', c', o', eq'⟩ := ih { s with hq := h, evr := e, ctr := c, out := o }
    rw [eq']; exact ⟨_, _, _, _, rfl⟩

@[simp] theorem haltQueues_frame  (s : State) :
    (haltQueues  s).pending = s.pending ∧ (haltQueues  s).res = s.res ∧ (haltQueues  s).free = s.free ∧
    (haltQueues  s).nextOp = s.nextOp ∧ (haltQueues  s).readData = s.readData ∧ (haltQueues  s).burst = s.burst ∧
    (haltQueues  s).burstPoison = s.burstPoison ∧ (haltQueues  s).hostMem = s.hostMem ∧
    (haltQueues  s).dram = s.dram ∧ (haltQueues  s).lowHeld = s.lowHeld ∧ (haltQueues  s).latch = s.latch ∧
    (haltQueues  s).ids = s.ids ∧ (haltQueues  s).disp = s.disp ∧ (haltQueues  s).fwOps = s.fwOps ∧
    (haltQueues  s).fwDone = s.fwDone ∧ (haltQueues  s).dump = s.dump ∧ (haltQueues  s).dramStacks = s.dramStacks ∧
    (haltQueues  s).acc = s.acc ∧ (haltQueues  s).time = s.time ∧ (haltQueues  s).links = s.links ∧
    (haltQueues  s).power = s.power ∧ (haltQueues  s).body = s.body ∧ (haltQueues  s).fab = s.fab ∧
    (haltQueues  s).upd = s.upd ∧ (haltQueues  s).dom = s.dom ∧ (haltQueues  s).keys = s.keys ∧
    (haltQueues  s).lanes = s.lanes ∧ (haltQueues  s).aes = s.aes ∧ (haltQueues  s).rxOps = s.rxOps ∧
    (haltQueues  s).media = s.media ∧ (haltQueues  s).video = s.video ∧ (haltQueues  s).audio = s.audio ∧
    (haltQueues  s).dsp = s.dsp := by
  obtain ⟨x0, x1, x2, x3, h⟩ := haltQueues_only  s
  rw [h]; and_intros <;> rfl

theorem startDump_only (cause seq : Nat) (s : State) :
    ∃ x_dump x_evr x_ctr x_out, startDump cause seq s = { s with dump := x_dump, evr := x_evr, ctr := x_ctr, out := x_out } := by
  have r8 : ∀ (items : List (Nat × Nat)) (t : State), ∃ d e c o, record 8 items t = { t with dump := d, evr := e, ctr := c, out := o } := by
    intro items t
    obtain ⟨e, c, o, h, _⟩ := logOnly_record 8 items t
    exact ⟨t.dump, e, c, o, h⟩
  have key : ∀ (b1 b2 : Bool) (i1 i2 : List (Nat × Nat)) (t : State), ∃ d e c o,
      (if b2 then record 8 i2 (if b1 then record 8 i1 t else t) else if b1 then record 8 i1 t else t)
        = { t with dump := d, evr := e, ctr := c, out := o } := by
    intro b1 b2 i1 i2 t
    cases b1 <;> cases b2
    · exact ⟨_, _, _, _, rfl⟩
    · exact r8 i2 t
    · exact r8 i1 t
    · obtain ⟨d, e, c, o, h⟩ := r8 i1 t
      obtain ⟨d', e', c', o', h'⟩ := r8 i2 { t with dump := d, evr := e, ctr := c, out := o }
      simp only [if_true]; rw [h, h']; exact ⟨_, _, _, _, rfl⟩
  simp only [startDump]
  cases s.dump.dramState != 0 <;> cases (s.dump.flashState != 0 || s.dump.summaryDue)
  · exact ⟨_, _, _, _, rfl⟩
  · exact r8 _ _
  · exact r8 _ _
  · exact key true true _ _ _

@[simp] theorem startDump_frame (cause seq : Nat) (s : State) :
    (startDump cause seq s).pending = s.pending ∧ (startDump cause seq s).res = s.res ∧
    (startDump cause seq s).free = s.free ∧ (startDump cause seq s).nextOp = s.nextOp ∧
    (startDump cause seq s).readData = s.readData ∧ (startDump cause seq s).burst = s.burst ∧
    (startDump cause seq s).burstPoison = s.burstPoison ∧ (startDump cause seq s).hostMem = s.hostMem ∧
    (startDump cause seq s).dram = s.dram ∧ (startDump cause seq s).lowHeld = s.lowHeld ∧
    (startDump cause seq s).latch = s.latch ∧ (startDump cause seq s).ids = s.ids ∧
    (startDump cause seq s).hq = s.hq ∧ (startDump cause seq s).disp = s.disp ∧
    (startDump cause seq s).fwOps = s.fwOps ∧ (startDump cause seq s).fwDone = s.fwDone ∧
    (startDump cause seq s).dramStacks = s.dramStacks ∧ (startDump cause seq s).acc = s.acc ∧
    (startDump cause seq s).time = s.time ∧ (startDump cause seq s).links = s.links ∧
    (startDump cause seq s).power = s.power ∧ (startDump cause seq s).body = s.body ∧
    (startDump cause seq s).fab = s.fab ∧ (startDump cause seq s).upd = s.upd ∧ (startDump cause seq s).dom = s.dom ∧
    (startDump cause seq s).keys = s.keys ∧ (startDump cause seq s).lanes = s.lanes ∧
    (startDump cause seq s).aes = s.aes ∧ (startDump cause seq s).rxOps = s.rxOps ∧
    (startDump cause seq s).media = s.media ∧ (startDump cause seq s).video = s.video ∧
    (startDump cause seq s).audio = s.audio ∧ (startDump cause seq s).dsp = s.dsp := by
  obtain ⟨x0, x1, x2, x3, h⟩ := startDump_only cause seq s
  rw [h]; and_intros <;> rfl

theorem fatalError_only (cause : Nat) (s : State) :
    ∃ x_hq x_upd x_dump x_evr x_ctr x_out, fatalError cause s = { s with hq := x_hq, upd := x_upd, dump := x_dump, evr := x_evr, ctr := x_ctr, out := x_out } := by
  have h1 := logOnly_record 3 [(1, cause)] s
  obtain ⟨e1, c1, o1, e, _⟩ := h1
  simp only [fatalError]
  rw [e]
  obtain ⟨h2, e2, c2, o2, q2⟩ := haltQueues_only { s with evr := e1, ctr := c1, out := o1 }
  rw [q2]
  obtain ⟨e3, c3, o3, q3, _⟩ := logOnly_setPhase 3 { s with hq := h2, evr := e2, ctr := c2, out := o2 }
  simp only at q3 ⊢
  rw [q3]
  simp only [endTrial]
  split
  · obtain ⟨d4, e4, c4, o4, q4⟩ := startDump_only cause s.evr.nextSeq
      { s with hq := h2, evr := e3, ctr := c3, out := o3, upd := { s.upd with trialOver := true } }
    rw [q4]; exact ⟨_, _, _, _, _, _, rfl⟩
  · obtain ⟨d4, e4, c4, o4, q4⟩ := startDump_only cause s.evr.nextSeq { s with hq := h2, evr := e3, ctr := c3, out := o3 }
    rw [q4]; exact ⟨_, _, _, _, _, _, rfl⟩

@[simp] theorem fatalError_frame (cause : Nat) (s : State) :
    (fatalError cause s).pending = s.pending ∧ (fatalError cause s).res = s.res ∧
    (fatalError cause s).free = s.free ∧ (fatalError cause s).nextOp = s.nextOp ∧
    (fatalError cause s).readData = s.readData ∧ (fatalError cause s).burst = s.burst ∧
    (fatalError cause s).burstPoison = s.burstPoison ∧ (fatalError cause s).hostMem = s.hostMem ∧
    (fatalError cause s).dram = s.dram ∧ (fatalError cause s).lowHeld = s.lowHeld ∧
    (fatalError cause s).latch = s.latch ∧ (fatalError cause s).ids = s.ids ∧ (fatalError cause s).disp = s.disp ∧
    (fatalError cause s).fwOps = s.fwOps ∧ (fatalError cause s).fwDone = s.fwDone ∧
    (fatalError cause s).dramStacks = s.dramStacks ∧ (fatalError cause s).acc = s.acc ∧ (fatalError cause s).time = s.time ∧
    (fatalError cause s).links = s.links ∧ (fatalError cause s).power = s.power ∧
    (fatalError cause s).body = s.body ∧ (fatalError cause s).fab = s.fab ∧ (fatalError cause s).dom = s.dom ∧
    (fatalError cause s).keys = s.keys ∧ (fatalError cause s).lanes = s.lanes ∧ (fatalError cause s).aes = s.aes ∧
    (fatalError cause s).rxOps = s.rxOps ∧ (fatalError cause s).media = s.media ∧
    (fatalError cause s).video = s.video ∧ (fatalError cause s).audio = s.audio ∧ (fatalError cause s).dsp = s.dsp := by
  obtain ⟨x0, x1, x2, x3, x4, x5, h⟩ := fatalError_only cause s
  rw [h]; and_intros <;> rfl

end Sys2Proof.Machine
end

