-- ==== Sys2Proof/Laws/Commands.lean ====
section
/-! SUPPORT. How a command reaches its meaning: a descriptor that a source presents runs its chapter's body and completes; a register write
that the tables let through acts. -/

namespace Sys2Proof.Machine

/-- A descriptor that a source brings runs the checks of R402 and then the row's body. -/
theorem command_fetched {mine : Nat → Bool} {body : Req → State → Answer} {src : CmdSrc} {s s1 : State} {r : Req} {tail : Bool}
    (h : fetched src s = some (r, tail, s1)) (hm : mine (fld r.w0 7 0) = true) : runCmd mine body src s = runReq r tail body s1 := by
  cases src with
  | queue q =>
    simp only [fetched] at h
    split at h
    · rename_i hr
      split at h
      · cases h
      · rename_i p rest hv
        simp only [Option.some.injEq, Prod.mk.injEq] at h
        obtain ⟨h1, h2, h3⟩ := h
        have hw : mine (fld (descWord (descriptorOf p.words) 0) 7 0) = true := by rw [← h1] at hm; exact hm
        simp only [runCmd, hr, hv, hw, if_true, h1, h2, h3]
    · cases h
  | port core w0 w1 w2 w3 =>
    simp only [fetched, Option.some.injEq, Prod.mk.injEq] at h
    obtain ⟨h1, h2, h3⟩ := h
    subst h1 h2 h3
    simp only [runCmd]
    rw [if_pos hm]

/-- A presented command runs the body, and completes with its reply when it has one. -/
theorem command_presented {op : Nat} {body : Req → State → Answer} {src : CmdSrc} {s s1 : State} {r : Req}
    (h : presented op src s = some (r, s1)) :
    command op body src s = match (body r s1).2 with
      | some rep => complete r.tk rep (body r s1).1
      | none => (body r s1).1 := by
  simp only [presented] at h
  split at h
  · cases h
  · rename_i r' tail s1' hf
    split at h
    · rename_i ho
      simp only [Option.some.injEq, Prod.mk.injEq] at h
      obtain ⟨rfl, rfl⟩ := h
      rw [command, command_fetched hf (by simp [ho.1]), runReq]
      rw [Option.isNone_iff_eq_none.mp ho.2] <;> rfl
    · cases h

/-- Checks 1 to 3 of R402 answer a descriptor that fails one. -/
theorem command_checked {mine : Nat → Bool} {body : Req → State → Answer} {src : CmdSrc} {s s1 : State} {r : Req} {tail : Bool} {rep : Reply}
    (h : fetched src s = some (r, tail, s1)) (hm : mine (fld r.w0 7 0) = true) (hc : commonCheck r.w0 tail s1 = some rep) :
    runCmd mine body src s = complete r.tk rep s1 := by
  rw [command_fetched h hm, runReq, hc]

theorem completes_of {c : CmdSrc → Instr} {op : Nat} {body : Req → State → Answer} {pre : Req → State → Prop}
    {post : Req → State → State × Reply} (he : ∀ src s, src.wf = true → exec (c src) s = .next (command op body src s))
    (hb : ∀ r s, pre r s → body r s = ((post r s).1, some (post r s).2)) : Completes c op pre post := by
  intro src s s1 r hw hp hq
  rw [he src s hw, command_presented hp, hb r s1 hq]

theorem begins_of {c : CmdSrc → Instr} {op : Nat} {body : Req → State → Answer} {pre : Req → State → Prop} {post : Req → State → State}
    (he : ∀ src s, src.wf = true → exec (c src) s = .next (command op body src s))
    (hb : ∀ r s, pre r s → body r s = (post r s, none)) : Begins c op pre post := by
  intro src s s1 r hw hp hq
  rw [he src s hw, command_presented hp, hb r s1 hq]

/-- With every reserved bit 0 a strict chapter's body runs as it stands. -/
theorem strictly_clear {l : Layout} {body : Req → State → Answer} {r : Req} {s : State} (h : reservedZero l r = true) :
    strictly l body r s = body r s := by simp [strictly, h]

theorem writeGate_granted {who off : Nat} {s : State} (h : mayWrite who off s) : writeGate who off s = (true, s) := by
  obtain ⟨_, h⟩ := h
  simp only [writeGate] at h ⊢
  split at h
  · rename_i hc
    simp only [hc, if_true]
    simp only [accCheck] at h ⊢
    split at h <;> simp_all
  · cases h

theorem gated_granted {who off : Nat} {s : State} {f : State → State} (h : mayWrite who off s) : gated who off f s = f s := by
  simp [gated, writeGate_granted h]

theorem controlled_granted {who q r : Nat} {s : State} {f : State → State} (h : mayControl who q r s) : controlled who q r f s = f s := by
  simp [controlled, writeGate_granted h.2.1, accCheck, h.2.2]

theorem accCheck_granted {kind idx m bit : Nat} {s : State} (h : accHas kind idx m bit s = true) :
    accCheck kind idx m bit s = (true, s) := by simp [accCheck, h]

theorem accCheck_denied {kind idx m bit : Nat} {s : State} (h : accHas kind idx m bit s = false) :
    accCheck kind idx m bit s = (false, accRefuse kind idx m s) := by simp [accCheck, h]

end Sys2Proof.Machine
end

