-- ==== Sys2Proof/Laws/Dsp.lean ====
section
/-! SUPPORT. The issue of a DSP instruction: what a core's next instruction does follows from what its body does. -/

namespace Sys2Proof

open Machine

/-- An instruction whose body is done issues with what the body gave. -/
theorem issues_of {i : Nat → Nat → Instr} {op : Nat} (body : Nat → Nat → DspBody) {pre : Nat → Nat → BitVec 32 → DspCore → State → Prop}
    {post : Nat → Nat → BitVec 32 → DspCore → State → State × DspCore × DspFlow}
    (hi : ∀ t c s, t < 512 → c < 4 → exec (i t c) s = .next (dspIssue op (body t c) t c s)) (hop : dspOpcodes.contains op = true)
    (hb : ∀ tile core w c s, dspReady op tile core w c s → pre tile core w c s →
      body tile core w c s = ((post tile core w c s).1, .done (post tile core w c s).2.1 (post tile core w c s).2.2)) :
    Issues i op pre post := by
  intro tile core w c s hr hp
  have h0 := hb tile core w c s hr hp
  obtain ⟨h1, h2, h3, h4, h5, h6, h7, h8, h9⟩ := hr
  rw [hi _ _ _ h1 h2]; subst h7; subst h8
  simp only [dspIssue, h3, h4, h5, h6, h9, h0, hop]
  simp

/-- An instruction whose body faults has no effect but the fault. -/
theorem faults_of {i : Nat → Nat → Instr} {op : Nat} (body : Nat → Nat → DspBody) {pre : Nat → Nat → BitVec 32 → DspCore → State → Prop} {code : Nat}
    (hi : ∀ t c s, t < 512 → c < 4 → exec (i t c) s = .next (dspIssue op (body t c) t c s)) (hop : dspOpcodes.contains op = true)
    (hb : ∀ tile core w c s, dspReady op tile core w c s → pre tile core w c s → body tile core w c s = (s, .fault code)) :
    Faults i op pre code := by
  intro tile core w c s hr hp
  have h0 := hb tile core w c s hr hp
  obtain ⟨h1, h2, h3, h4, h5, h6, h7, h8, h9⟩ := hr
  rw [hi _ _ _ h1 h2]; subst h7; subst h8
  simp only [dspIssue, h3, h4, h5, h6, h9, h0, hop]
  simp

end Sys2Proof
end

