-- ==== Sys2Proof/Laws/Kept/Base.lean ====
section
/-! SUPPORT. The canonical form of the byte memories, `State.memOk`, through the shapes that definitions take: a choice, a pair, an
option, a fold, an update of other fields. `Laws/Kept/<File>.lean` then says of every definition of `Machine/<File>.lean` that
answers a state that it keeps the form: `kept_<definition>`. -/

namespace Sys2Proof

open Machine

theorem ite_mem {c : Prop} [Decidable c] {a b : State} (ha : c → a.memOk) (hb : ¬c → b.memOk) : State.memOk (if c then a else b) := by
  split
  · exact ha ‹_›
  · exact hb ‹_›

theorem mk_fst_mem {α : Type} {a : State} {b : α} (h : a.memOk) : State.memOk (a, b).1 := h

theorem mk_snd_mem {α : Type} {a : State} {b : α} (h : a.memOk) : State.memOk (b, a).2 := h

theorem mk_snd2_mem {α β : Type} {a : State} {b : α} {c : β} (h : a.memOk) : State.memOk (b, c, a).2.2 := h

theorem mk_snd_p_mem {α β : Type} {p : β × State} {b : α} (h : State.memOk p.2) : State.memOk (b, p).2.2 := h

theorem foldl_mem {α : Type} {f : State → α → State} {s : State} {l : List α} (h : s.memOk) (hf : ∀ s x, State.memOk s → State.memOk (f s x)) :
    State.memOk (l.foldl f s) := by
  induction l generalizing s with
  | nil => exact h
  | cons x r ih => exact ih (hf s x h)

theorem foldl_fst_mem {α β : Type} {f : State × β → α → State × β} {s : State × β} {l : List α} (h : s.1.memOk)
    (hf : ∀ s x, State.memOk s.1 → State.memOk (f s x).1) : State.memOk (l.foldl f s).1 := by
  induction l generalizing s with
  | nil => exact h
  | cons x r ih => exact ih (hf s x h)

theorem foldl_snd_mem {α β : Type} {f : β × State → α → β × State} {s : β × State} {l : List α} (h : s.2.memOk)
    (hf : ∀ s x, State.memOk s.2 → State.memOk (f s x).2) : State.memOk (l.foldl f s).2 := by
  induction l generalizing s with
  | nil => exact h
  | cons x r ih => exact ih (hf s x h)

theorem eq_fst_mem {α : Type} {r : State × α} {a : State} {b : α} (h : r = (a, b)) (hr : State.memOk r.1) : a.memOk := by subst h; exact hr

theorem eq_snd_mem {α : Type} {r : α × State} {a : State} {b : α} (h : r = (b, a)) (hr : State.memOk r.2) : a.memOk := by subst h; exact hr

theorem eq_snd2_mem {α β : Type} {r : α × β × State} {a : State} {b : α} {c : β} (h : r = (b, c, a)) (hr : State.memOk r.2.2) : a.memOk := by subst h; exact hr

theorem some_fst_mem {α : Type} {r : Option (State × α)} {a : State} {b : α} (h : r = some (a, b)) (hr : ∀ x, r = some x → State.memOk x.1) : a.memOk := hr _ h

theorem some_snd_mem {α : Type} {r : Option (α × State)} {a : State} {b : α} (h : r = some (b, a)) (hr : ∀ x, r = some x → State.memOk x.2) : a.memOk := hr _ h

theorem some_mem {r : Option State} {a : State} (h : r = some a) (hr : ∀ x, r = some x → State.memOk x) : a.memOk := hr _ h

theorem opt_fst_mem {α : Type} {x : State × α} (h : State.memOk x.1) : ∀ y, some x = some y → State.memOk y.1 := by intro y e; cases e; exact h

theorem opt_snd_mem {α : Type} {x : α × State} (h : State.memOk x.2) : ∀ y, some x = some y → State.memOk y.2 := by intro y e; cases e; exact h

theorem none_snd_mem {α : Type} : ∀ y : α × State, none = some y → State.memOk y.2 := by intro y e; cases e

theorem next_mem {s : State} (h : s.memOk) : ∀ t, (Host.Outcome.next s : Outcome) = .next t → State.memOk t := by intro t e; cases e; exact h

theorem mk_mem {t : State} {p_pending p_res p_free p_nextOp p_out p_readData p_burst p_burstPoison p_lowHeld p_latch p_ctr p_ids p_hq p_disp p_fwOps p_fwDone p_evr p_dump p_dramStacks p_acc p_time p_links p_power p_body p_fab p_upd p_dom p_keys p_lanes p_aes p_rxOps p_media p_video p_audio p_dsp} (h : t.memOk) : State.memOk ⟨p_pending, p_res, p_free, p_nextOp, p_out, p_readData, p_burst, p_burstPoison, t.hostMem, t.dram, p_lowHeld, p_latch, p_ctr, p_ids, p_hq, p_disp, p_fwOps, p_fwDone, p_evr, p_dump, p_dramStacks, p_acc, p_time, p_links, p_power, p_body, p_fab, p_upd, p_dom, p_keys, p_lanes, p_aes, p_rxOps, p_media, p_video, p_audio, p_dsp⟩ := h

theorem none_fst_mem {α : Type} : ∀ y : State × α, none = some y → State.memOk y.1 := by intro y e; cases e

theorem hold_mem {lo hi v : Nat} {f : State → State} {x : State} (h : x.memOk) (hf : ∀ s, State.memOk s → State.memOk (f s)) : State.memOk (hold lo hi v f x) := by
  unfold hold
  exact ite_mem (fun _ => hf x h) (fun _ => h)

theorem hostMem_mem {s : State} {m : Mem} (h : s.memOk) (hm : Mem.wf m = true) : State.memOk { s with hostMem := m } := ⟨h.1, hm⟩

theorem ite_fst_mem {α : Type} {c : Prop} [Decidable c] {a b : State × α} (ha : c → a.1.memOk) (hb : ¬c → b.1.memOk) : State.memOk (if c then a else b).1 := by
  split
  · exact ha ‹_›
  · exact hb ‹_›

theorem ite_snd_mem {α : Type} {c : Prop} [Decidable c] {a b : α × State} (ha : c → a.2.memOk) (hb : ¬c → b.2.memOk) : State.memOk (if c then a else b).2 := by
  split
  · exact ha ‹_›
  · exact hb ‹_›

theorem refused_mem {r : Refusal} : ∀ t, (Host.Outcome.refused r : Outcome) = .next t → State.memOk t := by intro t e; cases e

end Sys2Proof
end

