-- ==== Sys2Proof/Laws/Kept/Operands.lean ====
section
/-! SUPPORT. What `Machine/Operands.lean` defines keeps the byte memories in their canonical form. -/

set_option linter.unusedVariables false

namespace Sys2Proof

open Machine

theorem kept_answer {a0 a1} (h0a : State.memOk a0) : State.memOk (answer a0 a1).1 := by
  unfold answer
  exact mk_fst_mem h0a

end Sys2Proof
end

