-- ==== Sys2Proof/Laws/Kept/Ops.lean ====
section
/-! SUPPORT. What `Machine/Ops.lean` defines keeps the byte memories in their canonical form. -/

set_option linter.unusedVariables false

namespace Sys2Proof

open Machine

theorem kept_emit {a0 a1} (h1a : State.memOk a1) : State.memOk (emit a0 a1) := by
  unfold emit
  exact mk_mem h1a

theorem kept_pfVector {a0 a1} (h1a : State.memOk a1) : State.memOk (pfVector a0 a1) := by
  unfold pfVector
  exact kept_emit h1a

theorem kept_count {a0 a1 a2} (h2a : State.memOk a2) : State.memOk (count a0 a1 a2) := by
  unfold count
  exact mk_mem h2a

theorem kept_allocId {a0 a1 a2} (h2a : State.memOk a2) : State.memOk (allocId a0 a1 a2) := by
  unfold allocId
  exact mk_mem h2a

theorem kept_takeSeq {a0} (h0a : State.memOk a0) : State.memOk (takeSeq a0) := by
  unfold takeSeq
  exact kept_count (mk_mem h0a)

theorem kept_lastGaspRecord {a0 a1} (h1a : State.memOk a1) : State.memOk (lastGaspRecord a0 a1) := by
  unfold lastGaspRecord
  exact ite_mem (fun _ => mk_mem (mk_mem (kept_takeSeq h1a))) (fun _ => kept_count (mk_mem (kept_takeSeq h1a)))

theorem kept_storeRecord {a0 a1 a2 a3 a4} (h4a : State.memOk a4) : State.memOk (storeRecord a0 a1 a2 a3 a4) := by
  unfold storeRecord
  exact ite_mem (fun _ => kept_lastGaspRecord h4a) (fun _ => ite_mem (fun _ => kept_pfVector (kept_lastGaspRecord (mk_mem (mk_mem (kept_takeSeq h4a))))) (fun _ => mk_mem (kept_takeSeq h4a)))

theorem kept_foldInto {a0 a1} (h1a : State.memOk a1) : State.memOk (foldInto a0 a1) := by
  unfold foldInto
  exact ite_mem (fun _ => mk_mem h1a) (fun _ => mk_mem h1a)

theorem kept_evrWrite {a0 a1 a2 a3 a4} (h4a : State.memOk a4) : State.memOk (evrWrite a0 a1 a2 a3 a4).1 := by
  unfold evrWrite
  exact ite_fst_mem (fun _ => mk_fst_mem (kept_storeRecord h4a)) (fun _ => ite_fst_mem (fun _ => ite_fst_mem (fun _ => mk_fst_mem (kept_count (mk_mem h4a))) (fun _ => mk_fst_mem (kept_storeRecord (ite_mem (fun _ => mk_mem h4a) (fun _ => kept_storeRecord (mk_mem h4a)))))) (fun _ => (by
    split
    · exact ite_fst_mem (fun _ => mk_fst_mem (kept_count (kept_foldInto h4a))) (fun _ => mk_fst_mem (kept_storeRecord h4a))
    · exact mk_fst_mem (kept_storeRecord h4a))))

theorem kept_recordBy {a0 a1 a2 a3} (h3a : State.memOk a3) : State.memOk (recordBy a0 a1 a2 a3) := by
  unfold recordBy
  exact kept_evrWrite h3a

theorem kept_memRecord {a0 a1 a2 a3} (h3a : State.memOk a3) : State.memOk (memRecord a0 a1 a2 a3) := by
  unfold memRecord
  exact kept_pfVector (kept_recordBy h3a)

theorem kept_record {a0 a1 a2} (h2a : State.memOk a2) : State.memOk (record a0 a1 a2) := by
  unfold record
  exact kept_evrWrite h2a

theorem kept_onWf {a0 a1} (h1a : State.memOk a1) : ∀ t, onWf a0 a1 = .next t → State.memOk t := by
  unfold onWf
  split
  · exact next_mem h1a
  · exact refused_mem

theorem kept_releaseId {a0 a1 a2} (h2a : State.memOk a2) : State.memOk (releaseId a0 a1 a2) := by
  unfold releaseId
  exact mk_mem h2a

theorem kept_setPhase {a0 a1} (h1a : State.memOk a1) : State.memOk (setPhase a0 a1) := by
  unfold setPhase
  exact ite_mem (fun _ => h1a) (fun _ => kept_record (mk_mem h1a))

theorem kept_fresh {a0} (h0a : State.memOk a0) : State.memOk (fresh a0).2 := by
  unfold fresh
  exact mk_snd_mem (mk_mem h0a)

theorem kept_doIf {a0 a1 a2} (h1a : ∀ z0, State.memOk (z0) → State.memOk (a1 z0)) (h2a : State.memOk a2) : State.memOk (doIf a0 a1 a2) := by
  unfold doIf
  exact ite_mem (fun _ => h1a _ h2a) (fun _ => h2a)

theorem kept_ctrClear {a0 a1 a2} (h2a : State.memOk a2) : State.memOk (ctrClear a0 a1 a2) := by
  unfold ctrClear
  exact mk_mem h2a

end Sys2Proof
end

