-- ==== Sys2Proof/Laws/Kept/Access.lean ====
section
/-! SUPPORT. What `Machine/Access.lean` defines keeps the byte memories in their canonical form. -/

set_option linter.unusedVariables false

namespace Sys2Proof

open Machine

theorem kept_accRefuse {a0 a1 a2 a3} (h3a : State.memOk a3) : State.memOk (accRefuse a0 a1 a2 a3) := by
  unfold accRefuse
  exact ite_mem (fun _ => kept_memRecord (kept_count (mk_mem h3a))) (fun _ => kept_count (mk_mem h3a))

theorem kept_accCheck {a0 a1 a2 a3 a4} (h4a : State.memOk a4) : State.memOk (accCheck a0 a1 a2 a3 a4).2 := by
  unfold accCheck
  exact ite_snd_mem (fun _ => mk_snd_mem h4a) (fun _ => mk_snd_mem (kept_accRefuse h4a))

end Sys2Proof
end

