-- ==== Sys2Proof/Laws/Kept/QueueOps.lean ====
section
/-! SUPPORT. What `Machine/QueueOps.lean` defines keeps the byte memories in their canonical form. -/

set_option linter.unusedVariables false

namespace Sys2Proof

open Machine

theorem kept_setQueue {a0 a1 a2} (h2a : State.memOk a2) : State.memOk (setQueue a0 a1 a2) := by
  unfold setQueue
  exact mk_mem h2a

theorem kept_haltQueue {a0 a1} (h1a : State.memOk a1) : State.memOk (haltQueue a0 a1) := by
  unfold haltQueue
  extract_lets -merge -underBinder +onlyGivenNames x0
  try clear_value x0
  refine ite_mem (fun _ => ?_) (fun _ => ?_)
  · extract_lets -merge -underBinder +onlyGivenNames x1
    try clear_value x1
    extract_lets -merge -underBinder +onlyGivenNames x2
    have h3 : State.memOk (x2) := by
      unfold x2
      refine kept_setQueue ?_
      assumption
    try clear_value x2
    split
    · assumption
    · refine kept_record ?_
      assumption
  · assumption

theorem kept_haltQueues {a0} (h0a : State.memOk a0) : State.memOk (haltQueues a0) := by
  unfold haltQueues
  exact foldl_mem h0a (fun _ _ h0 => kept_haltQueue h0)

theorem kept_updQueue {a0 a1 a2} (h2a : State.memOk a2) : State.memOk (updQueue a0 a1 a2) := by
  unfold updQueue
  exact kept_setQueue h2a

theorem kept_queueIrq {a0 a1} (h1a : State.memOk a1) : State.memOk (queueIrq a0 a1) := by
  unfold queueIrq
  exact ite_mem (fun _ => kept_emit (kept_setQueue h1a)) (fun _ => h1a)

theorem kept_storePacket {a0 a1 a2} (h2a : State.memOk a2) : State.memOk (storePacket a0 a1 a2) := by
  unfold storePacket
  exact kept_queueIrq (kept_updQueue h2a)

theorem kept_writeCompletion {a0 a1} (h1a : State.memOk a1) : State.memOk (writeCompletion a0 a1) := by
  unfold writeCompletion
  exact kept_storePacket h1a

theorem kept_complete {a0 a1 a2} (h2a : State.memOk a2) : State.memOk (complete a0 a1 a2) := by
  unfold complete
  exact ite_mem (fun _ => ite_mem (fun _ => mk_mem h2a) (fun _ => h2a)) (fun _ => (by
    split
    · exact h2a
    · exact ite_mem (fun _ => ite_mem (fun _ => kept_updQueue h2a) (fun _ => kept_writeCompletion (kept_updQueue h2a))) (fun _ => h2a)))

theorem kept_devicePush {a0 a1 a2} (h2a : State.memOk a2) : State.memOk (devicePush a0 a1 a2).2 := by
  unfold devicePush
  exact ite_snd_mem (fun _ => mk_snd_mem (kept_count h2a)) (fun _ => ite_snd_mem (fun _ => mk_snd_mem (kept_storePacket h2a)) (fun _ => mk_snd_mem h2a))

theorem kept_dropBad {a0 a1} (h1a : State.memOk a1) : State.memOk (dropBad a0 a1) := by
  unfold dropBad
  exact ite_mem (fun _ => ite_mem (fun _ => kept_updQueue h1a) (fun _ => kept_count (kept_updQueue h1a))) (fun _ => h1a)

theorem kept_takeFront {a0 a1 a2 a3} (h3a : State.memOk a3) : State.memOk (takeFront a0 a1 a2 a3).2 := by
  unfold takeFront
  exact mk_snd_mem (mk_mem (kept_setQueue h3a))

theorem kept_runReq {a0 a1 a2 a3} (h2a : ∀ z0 z1, State.memOk (z1) → State.memOk (a2 z0 z1).1) (h3a : State.memOk a3) : State.memOk (runReq a0 a1 a2 a3) := by
  unfold runReq
  split
  · refine kept_complete ?_
    assumption
  · extract_lets -merge -underBinder +onlyGivenNames x0
    have h1 : State.memOk (x0).1 := by
      unfold x0
      refine h2a _ _ ?_
      assumption
    try clear_value x0
    split
    · refine kept_complete ?_
      assumption
    · assumption

theorem kept_runCmd {a0 a1 a2 a3} (h1a : ∀ z0 z1, State.memOk (z1) → State.memOk (a1 z0 z1).1) (h3a : State.memOk a3) : State.memOk (runCmd a0 a1 a2 a3) := by
  unfold runCmd
  split
  · exact ite_mem (fun _ => (by
      split
      · exact kept_dropBad h3a
      · exact ite_mem (fun _ => kept_runReq (fun _ _ h0 => h1a _ _ h0) (kept_takeFront (kept_dropBad h3a))) (fun _ => kept_dropBad h3a))) (fun _ => kept_dropBad h3a)
  · exact ite_mem (fun _ => kept_runReq (fun _ _ h1 => h1a _ _ h1) (mk_mem h3a)) (fun _ => h3a)

theorem kept_command {a0 a1 a2 a3} (h1a : ∀ z0 z1, State.memOk (z1) → State.memOk (a1 z0 z1).1) (h3a : State.memOk a3) : State.memOk (command a0 a1 a2 a3) := by
  unfold command
  exact kept_runCmd (fun _ _ h0 => h1a _ _ h0) h3a

theorem kept_strictly {a0 a1 a2 a3} (h1a : ∀ z0 z1, State.memOk (z1) → State.memOk (a1 z0 z1).1) (h3a : State.memOk a3) : State.memOk (strictly a0 a1 a2 a3).1 := by
  unfold strictly
  exact ite_fst_mem (fun _ => h1a _ _ h3a) (fun _ => (by
    split
    · exact ite_fst_mem (fun _ => h1a _ _ h3a) (fun _ => kept_answer h3a)
    · exact kept_answer h3a))

theorem kept_viaWing {a0 a1} (h1a : State.memOk (a1).1) : State.memOk (viaWing a0 a1).1 := by
  unfold viaWing
  exact mk_fst_mem h1a

theorem kept_setProgress {a0 a1 a2} (h2a : State.memOk a2) : State.memOk (setProgress a0 a1 a2) := by
  unfold setProgress
  exact ite_mem (fun _ => h2a) (fun _ => kept_updQueue h2a)

theorem kept_writeOwed {a0 a1 a2} (h2a : State.memOk a2) : State.memOk (writeOwed a0 a1 a2) := by
  induction a0 generalizing a2 with
  | zero => exact h2a
  | succ n ih =>
    simp only [writeOwed]
    split
    · exact h2a
    · exact ite_mem (fun _ => ih (kept_writeCompletion (kept_updQueue h2a))) (fun _ => h2a)

theorem kept_roomFreed {a0 a1} (h1a : State.memOk a1) : State.memOk (roomFreed a0 a1) := by
  unfold roomFreed
  exact foldl_mem h1a (fun _ _ h0 => kept_writeOwed h0)

theorem kept_degradedIf {a0 a1} (h1a : State.memOk (a1).1) : State.memOk (degradedIf a0 a1).1 := by
  unfold degradedIf
  exact mk_fst_mem h1a

theorem kept_viaPair {a0 a1 a2} (h2a : State.memOk (a2).1) : State.memOk (viaPair a0 a1 a2).1 := by
  unfold viaPair
  exact kept_degradedIf h2a

theorem kept_queueRefused {a0 a1 a2} (h2a : State.memOk a2) : State.memOk (queueRefused a0 a1 a2).1 := by
  unfold queueRefused
  exact kept_answer (ite_mem (fun _ => kept_count h2a) (fun _ => h2a))

end Sys2Proof
end

