-- ==== Sys2Proof/Laws/Kept/Fatal.lean ====
section
/-! SUPPORT. What `Machine/Fatal.lean` defines keeps the byte memories in their canonical form. -/

set_option linter.unusedVariables false

namespace Sys2Proof

open Machine

theorem kept_noteDump {a0} (h0a : State.memOk a0) : State.memOk (noteDump a0) := by
  unfold noteDump
  split
  · exact h0a
  · exact mk_mem h0a

theorem kept_endTrial {a0} (h0a : State.memOk a0) : State.memOk (endTrial a0) := by
  unfold endTrial
  exact ite_mem (fun _ => mk_mem h0a) (fun _ => h0a)

theorem kept_startDump {a0 a1 a2} (h2a : State.memOk a2) : State.memOk (startDump a0 a1 a2) := by
  unfold startDump
  exact ite_mem (fun _ => kept_record (ite_mem (fun _ => kept_record (mk_mem (ite_mem (fun _ => ite_mem (fun _ => h2a) (fun _ => mk_mem h2a)) (fun _ => mk_mem (ite_mem (fun _ => h2a) (fun _ => mk_mem h2a)))))) (fun _ => mk_mem (ite_mem (fun _ => ite_mem (fun _ => h2a) (fun _ => mk_mem h2a)) (fun _ => mk_mem (ite_mem (fun _ => h2a) (fun _ => mk_mem h2a))))))) (fun _ => ite_mem (fun _ => kept_record (mk_mem (ite_mem (fun _ => ite_mem (fun _ => h2a) (fun _ => mk_mem h2a)) (fun _ => mk_mem (ite_mem (fun _ => h2a) (fun _ => mk_mem h2a)))))) (fun _ => mk_mem (ite_mem (fun _ => ite_mem (fun _ => h2a) (fun _ => mk_mem h2a)) (fun _ => mk_mem (ite_mem (fun _ => h2a) (fun _ => mk_mem h2a))))))

theorem kept_fatalError {a0 a1} (h1a : State.memOk a1) : State.memOk (fatalError a0 a1) := by
  unfold fatalError
  exact kept_startDump (kept_endTrial (kept_setPhase (kept_haltQueues (kept_record h1a))))

end Sys2Proof
end

