-- ==== Sys2Proof/Laws/Kept/Queues.lean ====
section
/-! SUPPORT. What `Machine/Queues.lean` defines keeps the byte memories in their canonical form. -/

set_option linter.unusedVariables false

namespace Sys2Proof

open Machine

theorem kept_writeGate {a0 a1 a2} (h2a : State.memOk a2) : State.memOk (writeGate a0 a1 a2).2 := by
  unfold writeGate
  exact ite_snd_mem (fun _ => kept_accCheck h2a) (fun _ => mk_snd_mem h2a)

theorem kept_hqRefuse {a0 a1} (h1a : State.memOk a1) : State.memOk (hqRefuse a0 a1) := by
  unfold hqRefuse
  exact kept_count h1a

theorem kept_controlled {a0 a1 a2 a3 a4} (h3a : ∀ z0, State.memOk (z0) → State.memOk (a3 z0)) (h4a : State.memOk a4) : State.memOk (controlled a0 a1 a2 a3 a4) := by
  unfold controlled
  exact ite_mem (fun _ => ite_mem (fun _ => h3a _ (kept_accCheck (kept_writeGate h4a))) (fun _ => kept_hqRefuse (kept_accCheck (kept_writeGate h4a)))) (fun _ => kept_writeGate h4a)

theorem kept_cfgError {a0 a1} (h1a : State.memOk a1) : State.memOk (cfgError a0 a1) := by
  unfold cfgError
  exact kept_updQueue h1a

theorem kept_cfgEnabled {a0 a1 a2} (h2a : State.memOk a2) : State.memOk (cfgEnabled a0 a1 a2) := by
  unfold cfgEnabled
  exact ite_mem (fun _ => kept_cfgError h2a) (fun _ => ite_mem (fun _ => kept_cfgError h2a) (fun _ => kept_setQueue h2a))

theorem kept_cfgDisabled {a0 a1 a2} (h2a : State.memOk a2) : State.memOk (cfgDisabled a0 a1 a2) := by
  unfold cfgDisabled
  exact ite_mem (fun _ => kept_cfgError h2a) (fun _ => ite_mem (fun _ => h2a) (fun _ => ite_mem (fun _ => ite_mem (fun _ => kept_setQueue h2a) (fun _ => kept_setQueue h2a)) (fun _ => kept_setQueue h2a)))

theorem kept_hqCfgDo {a0 a1 a2} (h2a : State.memOk a2) : State.memOk (hqCfgDo a0 a1 a2) := by
  unfold hqCfgDo
  exact ite_mem (fun _ => kept_cfgEnabled h2a) (fun _ => kept_cfgDisabled h2a)

theorem kept_flushNow {a0 a1} (h1a : State.memOk a1) : State.memOk (flushNow a0 a1) := by
  unfold flushNow
  exact kept_roomFreed (kept_writeOwed (ite_mem (fun _ => kept_setQueue h1a) (fun _ => kept_count (kept_setQueue h1a))))

theorem kept_flushDo {a0 a1 a2} (h2a : State.memOk a2) : State.memOk (flushDo a0 a1 a2) := by
  unfold flushDo
  extract_lets -merge -underBinder +onlyGivenNames x0
  try clear_value x0
  split
  · refine kept_flushNow ?_
    assumption
  · refine kept_setQueue ?_
    assumption

theorem kept_armDo {a0 a1} (h1a : State.memOk a1) : State.memOk (armDo a0 a1) := by
  unfold armDo
  exact kept_queueIrq (kept_updQueue h1a)

theorem kept_takeLow {a0 a1 a2} (h2a : State.memOk a2) : State.memOk (takeLow a0 a1 a2).2 := by
  unfold takeLow
  exact mk_snd_mem (mk_mem h2a)

theorem kept_pushData {a0 a1 a2} (h2a : State.memOk a2) : State.memOk (pushData a0 a1 a2) := by
  unfold pushData
  extract_lets -merge -underBinder +onlyGivenNames x0
  try clear_value x0
  split
  · refine ite_mem (fun _ => ?_) (fun _ => ?_)
    · refine kept_setQueue ?_
      assumption
    · refine kept_hqRefuse ?_
      assumption
  · refine ite_mem (fun _ => ?_) (fun _ => ?_)
    · refine kept_setQueue ?_
      assumption
    · refine kept_hqRefuse ?_
      refine kept_setQueue ?_
      assumption

theorem kept_packetClosed {a0 a1} (h1a : State.memOk a1) : State.memOk (packetClosed a0 a1) := by
  unfold packetClosed
  exact ite_mem (fun _ => kept_flushNow h1a) (fun _ => kept_queueIrq h1a)

theorem kept_pushLength {a0 a1 a2} (h2a : State.memOk a2) : State.memOk (pushLength a0 a1 a2) := by
  unfold pushLength
  extract_lets -merge -underBinder +onlyGivenNames x0
  try clear_value x0
  extract_lets -merge -underBinder +onlyGivenNames x1
  try clear_value x1
  split
  · refine kept_count ?_
    assumption
  · extract_lets -merge -underBinder +onlyGivenNames x2
    try clear_value x2
    extract_lets -merge -underBinder +onlyGivenNames x3
    have h4 : State.memOk (x3) := by
      unfold x3
      refine kept_setQueue ?_
      assumption
    try clear_value x3
    refine ite_mem (fun _ => ?_) (fun _ => ?_)
    · refine kept_packetClosed ?_
      refine kept_count ?_
      assumption
    · refine ite_mem (fun _ => ?_) (fun _ => ?_)
      · refine kept_packetClosed ?_
        refine kept_count ?_
        assumption
      · refine kept_packetClosed ?_
        refine kept_updQueue ?_
        assumption

theorem kept_pushWord {a0 a1 a2 a3} (h3a : State.memOk a3) : State.memOk (pushWord a0 a1 a2 a3) := by
  unfold pushWord
  exact ite_mem (fun _ => kept_hqRefuse h3a) (fun _ => ite_mem (fun _ => kept_hqRefuse h3a) (fun _ => ite_mem (fun _ => kept_hqRefuse h3a) (fun _ => ite_mem (fun _ => kept_pushData h3a) (fun _ => kept_pushLength h3a))))

theorem kept_hqPushDo {a0 a1 a2 a3} (h3a : State.memOk a3) : State.memOk (hqPushDo a0 a1 a2 a3) := by
  unfold hqPushDo
  exact ite_mem (fun _ => ite_mem (fun _ => kept_pushWord (kept_accCheck (kept_takeLow (kept_writeGate h3a)))) (fun _ => kept_hqRefuse (kept_accCheck (kept_takeLow (kept_writeGate h3a))))) (fun _ => kept_writeGate h3a)

theorem kept_mirrorConsDo {a0 a1 a2} (h2a : State.memOk a2) : State.memOk (mirrorConsDo a0 a1 a2) := by
  unfold mirrorConsDo
  exact kept_updQueue h2a

theorem kept_readGate {a0 a1 a2} (h2a : State.memOk a2) : State.memOk (readGate a0 a1 a2).2 := by
  unfold readGate
  exact kept_accCheck h2a

theorem kept_popResult {a0 a1 a2 a3} (h3a : State.memOk a3) : State.memOk (popResult a0 a1 a2 a3) := by
  unfold popResult
  exact mk_mem h3a

theorem kept_hqPopDo {a0 a1 a2} (h2a : State.memOk a2) : State.memOk (hqPopDo a0 a1 a2) := by
  unfold hqPopDo
  exact ite_mem (fun _ => mk_mem h2a) (fun _ => ite_mem (fun _ => mk_mem (kept_readGate h2a)) (fun _ => ite_mem (fun _ => kept_popResult (kept_hqRefuse (kept_accCheck (kept_readGate h2a)))) (fun _ => ite_mem (fun _ => kept_popResult (kept_hqRefuse (kept_accCheck (kept_readGate h2a)))) (fun _ => ite_mem (fun _ => kept_popResult (kept_accCheck (kept_readGate h2a))) (fun _ => kept_roomFreed (kept_popResult (kept_setQueue (kept_accCheck (kept_readGate h2a)))))))))

theorem kept_execHqPush {a0 a1 a2 a3} (h3a : State.memOk a3) : ∀ t, execHqPush a0 a1 a2 a3 = .next t → State.memOk t := by
  unfold execHqPush
  exact kept_onWf (kept_hqPushDo h3a)

theorem kept_execHqPop {a0 a1 a2} (h2a : State.memOk a2) : ∀ t, execHqPop a0 a1 a2 = .next t → State.memOk t := by
  unfold execHqPop
  exact kept_onWf (kept_hqPopDo h2a)

theorem kept_execHqCfg {a0 a1 a2 a3} (h3a : State.memOk a3) : ∀ t, execHqCfg a0 a1 a2 a3 = .next t → State.memOk t := by
  unfold execHqCfg
  exact kept_onWf (kept_controlled (fun _ h0 => kept_hqCfgDo h0) h3a)

theorem kept_execFlush {a0 a1 a2 a3} (h3a : State.memOk a3) : ∀ t, execFlush a0 a1 a2 a3 = .next t → State.memOk t := by
  unfold execFlush
  refine kept_onWf ?_
  refine kept_controlled ?_ ?_
  · intro y0 h1
    refine kept_flushDo ?_
    assumption
  · assumption

theorem kept_hardFlushDo {a0 a1} (h1a : State.memOk a1) : State.memOk (hardFlushDo a0 a1) := by
  unfold hardFlushDo
  extract_lets -merge -underBinder +onlyGivenNames x0
  try clear_value x0
  split
  · refine ite_mem (fun _ => ?_) (fun _ => ?_)
    · extract_lets -merge -underBinder +onlyGivenNames x1
      have h2 : State.memOk (x1) := by
        unfold x1
        refine kept_count ?_
        refine kept_setQueue ?_
        assumption
      try clear_value x1
      extract_lets -merge -underBinder +onlyGivenNames x3
      have h4 : State.memOk (x3) := by
        unfold x3
        refine kept_flushNow ?_
        assumption
      try clear_value x3
      refine kept_updQueue ?_
      assumption
    · assumption
  · assumption

theorem kept_execHardFlush {a0 a1} (h1a : State.memOk a1) : ∀ t, execHardFlush a0 a1 = .next t → State.memOk t := by
  unfold execHardFlush
  exact kept_onWf (kept_hardFlushDo h1a)

theorem kept_execArm {a0 a1 a2} (h2a : State.memOk a2) : ∀ t, execArm a0 a1 a2 = .next t → State.memOk t := by
  unfold execArm
  exact kept_onWf (kept_controlled (fun _ h0 => kept_armDo h0) h2a)

theorem kept_execHqMirrorCons {a0 a1 a2 a3} (h3a : State.memOk a3) : ∀ t, execHqMirrorCons a0 a1 a2 a3 = .next t → State.memOk t := by
  unfold execHqMirrorCons
  exact kept_onWf (kept_controlled (fun _ h0 => kept_mirrorConsDo h0) h3a)

theorem wf_ringWrite {a n k : Nat} {ws : List Word128} {m : Mem} (h : Mem.wf m = true) : Mem.wf (ringWrite a n k ws m) = true := by
  induction ws generalizing k m with
  | nil => exact h
  | cons w r ih => exact ih (Mem.wf_writeBytes h)

theorem kept_mirrorDrainDo {a0 a1} (h1a : State.memOk a1) : State.memOk (mirrorDrainDo a0 a1) := by
  simp only [mirrorDrainDo]
  split
  · exact h1a
  · exact ite_mem (fun _ => kept_roomFreed (kept_queueIrq (kept_setQueue (hostMem_mem h1a (Mem.wf_writeBytes (wf_ringWrite h1a.2)))))) (fun _ => h1a)

theorem kept_execMirrorDrain {a0 a1} (h1a : State.memOk a1) : ∀ t, execMirrorDrain a0 a1 = .next t → State.memOk t := by
  unfold execMirrorDrain
  exact kept_onWf (kept_mirrorDrainDo h1a)

theorem kept_execQueueIrqTimeout {a0 a1} (h1a : State.memOk a1) : ∀ t, execQueueIrqTimeout a0 a1 = .next t → State.memOk t := by
  unfold execQueueIrqTimeout
  exact kept_onWf (kept_queueIrq h1a)

end Sys2Proof
end

