-- ==== Sys2Proof/Laws/Kept/Dispatcher.lean ====
section
/-! SUPPORT. What `Machine/Dispatcher.lean` defines keeps the byte memories in their canonical form. -/

set_option linter.unusedVariables false

namespace Sys2Proof

open Machine

theorem kept_putItem {a0 a1} (h1a : State.memOk a1) : ∀ x, putItem a0 a1 = some x → State.memOk x.2 := by
  intro x h
  unfold putItem at h
  split at h
  · cases h
  · cases h
    exact kept_count (mk_mem (kept_allocId h1a))

theorem kept_enginePostTell {a0 a1 a2 a3 a4 a5 a6} (h6a : State.memOk a6) : State.memOk (enginePostTell a0 a1 a2 a3 a4 a5 a6).2 := by
  unfold enginePostTell
  exact ite_snd_mem (fun _ => mk_snd_mem (kept_pfVector (kept_count (mk_mem h6a)))) (fun _ => (by
    split
    · exact mk_snd_mem (kept_pfVector (kept_count (mk_mem h6a)))
    · rename_i p0 q1
      exact mk_snd_mem (some_snd_mem q1 (kept_putItem h6a))))

theorem kept_enginePost {a0 a1 a2 a3 a4 a5 a6} (h6a : State.memOk a6) : State.memOk (enginePost a0 a1 a2 a3 a4 a5 a6) := by
  unfold enginePost
  exact kept_enginePostTell h6a

theorem kept_setCore {a0 a1 a2} (h2a : State.memOk a2) : State.memOk (setCore a0 a1 a2) := by
  unfold setCore
  exact mk_mem h2a

theorem kept_itemEnded {a0 a1} (h1a : State.memOk a1) : State.memOk (itemEnded a0 a1) := by
  unfold itemEnded
  exact ite_mem (fun _ => mk_mem h1a) (fun _ => mk_mem (kept_releaseId h1a))

theorem kept_postHeartbeat {a0} (h0a : State.memOk a0) : State.memOk (postHeartbeat a0) := by
  unfold postHeartbeat
  exact kept_count (mk_mem h0a)

theorem kept_workDispatchDo {a0 a1} (h1a : State.memOk a1) : State.memOk (workDispatchDo a0 a1) := by
  unfold workDispatchDo
  extract_lets -merge -underBinder +onlyGivenNames x0
  try clear_value x0
  split
  · refine ite_mem (fun _ => ?_) (fun _ => ?_)
    · extract_lets -merge -underBinder +onlyGivenNames x1
      try clear_value x1
      extract_lets -merge -underBinder +onlyGivenNames x2
      have h3 : State.memOk (x2) := by
        unfold x2
        refine mk_mem ?_
        assumption
      try clear_value x2
      refine kept_setCore ?_
      assumption
    · assumption
  · assumption

theorem kept_execUndefinedOpcode {a0 a1} (h1a : State.memOk a1) : ∀ t, execUndefinedOpcode a0 a1 = .next t → State.memOk t := by
  unfold execUndefinedOpcode
  exact kept_onWf (kept_runCmd (fun _ _ h0 => kept_answer h0) h1a)

theorem kept_nopBody {a0 a1} (h1a : State.memOk a1) : State.memOk (nopBody a0 a1).1 := by
  unfold nopBody
  exact kept_answer h1a

theorem kept_execNop {a0 a1} (h1a : State.memOk a1) : ∀ t, execNop a0 a1 = .next t → State.memOk t := by
  unfold execNop
  exact kept_onWf (kept_command (fun _ _ h0 => kept_nopBody h0) h1a)

theorem kept_dispPostBody {a0 a1} (h1a : State.memOk a1) : State.memOk (dispPostBody a0 a1).1 := by
  unfold dispPostBody
  exact ite_fst_mem (fun _ => kept_answer h1a) (fun _ => ite_fst_mem (fun _ => kept_answer h1a) (fun _ => (by
    split
    · exact kept_answer h1a
    · rename_i p0 q1
      exact kept_answer (some_snd_mem q1 (kept_putItem h1a)))))

theorem kept_execDispPost {a0 a1} (h1a : State.memOk a1) : ∀ t, execDispPost a0 a1 = .next t → State.memOk t := by
  unfold execDispPost
  exact kept_onWf (kept_command (fun _ _ h0 => kept_dispPostBody h0) h1a)

theorem kept_dispCancelBody {a0 a1} (h1a : State.memOk a1) : State.memOk (dispCancelBody a0 a1).1 := by
  unfold dispCancelBody
  exact ite_fst_mem (fun _ => kept_answer h1a) (fun _ => ite_fst_mem (fun _ => kept_answer h1a) (fun _ => (by
    split
    · exact ite_fst_mem (fun _ => kept_answer h1a) (fun _ => ite_fst_mem (fun _ => kept_answer (kept_count h1a)) (fun _ => kept_answer h1a))
    · exact ite_fst_mem (fun _ => kept_answer (kept_count h1a)) (fun _ => (by
        split
        · exact ite_fst_mem (fun _ => kept_answer (kept_count (kept_releaseId (mk_mem h1a)))) (fun _ => kept_answer h1a)
        · split
          · exact kept_answer h1a
          · exact kept_answer h1a)))))

theorem kept_execDispCancel {a0 a1} (h1a : State.memOk a1) : ∀ t, execDispCancel a0 a1 = .next t → State.memOk t := by
  unfold execDispCancel
  exact kept_onWf (kept_command (fun _ _ h0 => kept_dispCancelBody h0) h1a)

theorem kept_execWorkItemDispatch {a0 a1} (h1a : State.memOk a1) : ∀ t, execWorkItemDispatch a0 a1 = .next t → State.memOk t := by
  unfold execWorkItemDispatch
  exact kept_onWf (kept_workDispatchDo h1a)

theorem kept_workItemEndDo {a0 a1} (h1a : State.memOk a1) : State.memOk (workItemEndDo a0 a1) := by
  unfold workItemEndDo
  extract_lets -merge -underBinder +onlyGivenNames x0
  try clear_value x0
  split
  · assumption
  · refine kept_itemEnded ?_
    refine kept_setCore ?_
    assumption

theorem kept_execWorkItemEnd {a0 a1} (h1a : State.memOk a1) : ∀ t, execWorkItemEnd a0 a1 = .next t → State.memOk t := by
  unfold execWorkItemEnd
  exact kept_onWf (kept_workItemEndDo h1a)

theorem kept_watchdogDo {a0 a1} (h1a : State.memOk a1) : State.memOk (watchdogDo a0 a1) := by
  unfold watchdogDo
  extract_lets -merge -underBinder +onlyGivenNames x0
  try clear_value x0
  split
  · assumption
  · refine ite_mem (fun _ => ?_) (fun _ => ?_)
    · extract_lets -merge -underBinder +onlyGivenNames x1
      have h2 : State.memOk (x1) := by
        unfold x1
        refine kept_setCore ?_
        assumption
      try clear_value x1
      extract_lets -merge -underBinder +onlyGivenNames x3
      have h4 : State.memOk (x3) := by
        unfold x3
        refine ite_mem (fun _ => ?_) (fun _ => ?_)
        · assumption
        · refine kept_itemEnded ?_
          assumption
      try clear_value x3
      extract_lets -merge -underBinder +onlyGivenNames x5
      have h6 : State.memOk (x5) := by
        unfold x5
        refine kept_record ?_
        assumption
      try clear_value x5
      extract_lets -merge -underBinder +onlyGivenNames x7
      try clear_value x7
      extract_lets -merge -underBinder +onlyGivenNames x8
      have h9 : State.memOk (x8) := by
        unfold x8
        refine kept_count ?_
        refine mk_mem ?_
        assumption
      try clear_value x8
      refine kept_endTrial ?_
      refine kept_pfVector ?_
      assumption
    · assumption

theorem kept_execWatchdog {a0 a1} (h1a : State.memOk a1) : ∀ t, execWatchdog a0 a1 = .next t → State.memOk t := by
  unfold execWatchdog
  exact kept_onWf (kept_watchdogDo h1a)

theorem kept_heartbeatDo {a0} (h0a : State.memOk a0) : State.memOk (heartbeatDo a0) := by
  unfold heartbeatDo
  split
  · exact h0a
  · exact ite_mem (fun _ => kept_postHeartbeat h0a) (fun _ => h0a)

theorem kept_execHeartbeat {a0} (h0a : State.memOk a0) : ∀ t, execHeartbeat a0 = .next t → State.memOk t := by
  unfold execHeartbeat
  exact kept_onWf (kept_heartbeatDo h0a)

theorem kept_coresLostDo {a0} (h0a : State.memOk a0) : State.memOk (coresLostDo a0) := by
  unfold coresLostDo
  split
  · exact h0a
  · exact ite_mem (fun _ => kept_fatalError (mk_mem h0a)) (fun _ => h0a)

theorem kept_execCoresLost {a0} (h0a : State.memOk a0) : ∀ t, execCoresLost a0 = .next t → State.memOk t := by
  unfold execCoresLost
  exact kept_onWf (kept_coresLostDo h0a)

theorem kept_execFatalError {a0} (h0a : State.memOk a0) : ∀ t, execFatalError a0 = .next t → State.memOk t := by
  unfold execFatalError
  exact kept_onWf (kept_fatalError h0a)

end Sys2Proof
end

