-- ==== Sys2Proof/Laws/Kept/StackBase.lean ====
section
/-! SUPPORT. What `Machine/StackBase.lean` defines keeps the byte memories in their canonical form. -/

set_option linter.unusedVariables false

namespace Sys2Proof

open Machine

theorem kept_setStack {a0 a1 a2} (h2a : State.memOk a2) : State.memOk (setStack a0 a1 a2) := by
  unfold setStack
  exact mk_mem h2a

theorem kept_updStack {a0 a1 a2} (h2a : State.memOk a2) : State.memOk (updStack a0 a1 a2) := by
  unfold updStack
  exact kept_setStack h2a

theorem kept_parkNow {a0 a1} (h1a : State.memOk a1) : State.memOk (parkNow a0 a1) := by
  unfold parkNow
  exact kept_updStack h1a

theorem kept_parkAll {a0} (h0a : State.memOk a0) : State.memOk (parkAll a0) := by
  unfold parkAll
  exact foldl_mem h0a (fun _ _ h0 => kept_parkNow h0)

theorem kept_settlePark {a0} (h0a : State.memOk a0) : State.memOk (settlePark a0) := by
  unfold settlePark
  exact ite_mem (fun _ => kept_parkAll (mk_mem h0a)) (fun _ => h0a)

end Sys2Proof
end

