-- ==== Sys2Proof/Laws/Kept/Poison.lean ====
section
/-! SUPPORT. What `Machine/Poison.lean` defines keeps the byte memories in their canonical form. -/

set_option linter.unusedVariables false

namespace Sys2Proof

open Machine

theorem kept_writeHeld {a0 a1 a2 a3} (h3a : State.memOk a3) : State.memOk (writeHeld a0 a1 a2 a3) := by
  unfold writeHeld
  exact mk_mem h3a

theorem kept_viaEntry {a0 a1 a2 a3 a4 a5} (h4a : State.memOk a4) (h5a : State.memOk (a5).1) : State.memOk (viaEntry a0 a1 a2 a3 a4 a5).1 := by
  unfold viaEntry
  split
  · exact h5a
  · exact mk_fst_mem (kept_enginePost (kept_count h5a))

theorem kept_readHeld {a0 a1 a2 a3} (h3a : State.memOk a3) : State.memOk (readHeld a0 a1 a2 a3).2 := by
  unfold readHeld
  split
  · exact mk_snd_mem (kept_count h3a)
  · exact mk_snd_mem h3a

end Sys2Proof
end

