-- ==== Sys2Proof/Laws/Kept/Frames.lean ====
section
/-! SUPPORT. What `Machine/Frames.lean` defines keeps the byte memories in their canonical form. -/

set_option linter.unusedVariables false

namespace Sys2Proof

open Machine

theorem kept_setBuf {a0 a1 a2} (h2a : State.memOk a2) : State.memOk (setBuf a0 a1 a2) := by
  unfold setBuf
  exact mk_mem h2a

theorem kept_setPool {a0 a1 a2} (h2a : State.memOk a2) : State.memOk (setPool a0 a1 a2) := by
  unfold setPool
  exact mk_mem h2a

theorem kept_trimPool {a0 a1} (h1a : State.memOk a1) : State.memOk (trimPool a0 a1) := by
  unfold trimPool
  exact foldl_mem (kept_setPool h1a) (fun _ _ h0 => kept_setBuf h0)

theorem kept_clearRegion {a0 a1} (h1a : State.memOk a1) : State.memOk (clearRegion a0 a1) := by
  unfold clearRegion
  exact mk_mem h1a

theorem kept_takeRegions {a0 a1} (h1a : State.memOk a1) : State.memOk (takeRegions a0 a1) := by
  unfold takeRegions
  exact kept_setPool (foldl_mem h1a (fun _ _ h0 => kept_clearRegion h0))

theorem kept_updBuf {a0 a1 a2} (h2a : State.memOk a2) : State.memOk (updBuf a0 a1 a2) := by
  unfold updBuf
  exact kept_setBuf h2a

theorem kept_retireGeometry {a0 a1} (h1a : State.memOk a1) : State.memOk (retireGeometry a0 a1) := by
  unfold retireGeometry
  exact kept_trimPool (kept_setPool h1a)

theorem kept_cleanBuf {a0 a1} (h1a : State.memOk a1) : State.memOk (cleanBuf a0 a1) := by
  unfold cleanBuf
  exact mk_mem h1a

theorem kept_writeSample {a0 a1 a2 a3 a4 a5} (h5a : State.memOk a5) : State.memOk (writeSample a0 a1 a2 a3 a4 a5) := by
  unfold writeSample
  exact ite_mem (fun _ => ⟨Mem.wf_write (Mem.wf_write h5a.1), h5a.2⟩) (fun _ => ⟨Mem.wf_write h5a.1, h5a.2⟩)

theorem kept_writeBand {a0 a1 a2 a3} (h3a : State.memOk a3) : State.memOk (writeBand a0 a1 a2 a3) := by
  unfold writeBand
  exact foldl_mem h3a (fun _ _ h0 => kept_writeSample h0)

theorem kept_readBuf {a0 a1} (h1a : State.memOk a1) : State.memOk (readBuf a0 a1) := by
  unfold readBuf
  split
  · exact kept_count h1a
  · exact h1a

end Sys2Proof
end

