-- ==== Sys2Proof/Laws/Kept/DspLoad.lean ====
section
/-! SUPPORT. What `Machine/DspLoad.lean` defines keeps the byte memories in their canonical form. -/

set_option linter.unusedVariables false

namespace Sys2Proof

open Machine

theorem kept_setDspCore {a0 a1 a2 a3} (h3a : State.memOk a3) : State.memOk (setDspCore a0 a1 a2 a3) := by
  unfold setDspCore
  exact mk_mem h3a

theorem kept_updDspCore {a0 a1 a2 a3} (h3a : State.memOk a3) : State.memOk (updDspCore a0 a1 a2 a3) := by
  unfold updDspCore
  split
  · exact kept_setDspCore h3a
  · exact h3a

theorem kept_setSram {a0 a1 a2} (h2a : State.memOk a2) : State.memOk (setSram a0 a1 a2) := by
  unfold setSram
  exact mk_mem h2a

theorem kept_loadCores {a0 a1 a2 a3} (h3a : State.memOk a3) : State.memOk (loadCores a0 a1 a2 a3) := by
  unfold loadCores
  exact foldl_mem (mk_mem h3a) (fun _ _ h0 => foldl_mem (kept_setSram h0) (fun _ _ h1 => kept_setDspCore h1))

end Sys2Proof
end

