-- ==== Sys2Proof/Laws/Kept/LaneBase.lean ====
section
/-! SUPPORT. What `Machine/LaneBase.lean` defines keeps the byte memories in their canonical form. -/

set_option linter.unusedVariables false

namespace Sys2Proof

open Machine

theorem kept_setLane {a0 a1 a2} (h2a : State.memOk a2) : State.memOk (setLane a0 a1 a2) := by
  unfold setLane
  exact mk_mem h2a

theorem kept_updLane {a0 a1 a2} (h2a : State.memOk a2) : State.memOk (updLane a0 a1 a2) := by
  unfold updLane
  exact kept_setLane h2a

theorem kept_setGroupCfg {a0 a1 a2} (h2a : State.memOk a2) : State.memOk (setGroupCfg a0 a1 a2) := by
  unfold setGroupCfg
  exact mk_mem h2a

theorem kept_setLaneState {a0 a1 a2} (h2a : State.memOk a2) : State.memOk (setLaneState a0 a1 a2) := by
  unfold setLaneState
  exact ite_mem (fun _ => h2a) (fun _ => kept_pfVector (mk_mem (kept_updLane h2a)))

theorem kept_ethChanged {a0 a1 a2} (h2a : State.memOk a2) : State.memOk (ethChanged a0 a1 a2) := by
  unfold ethChanged
  exact kept_record (kept_enginePost h2a)

theorem kept_tremundChanged {a0 a1} (h1a : State.memOk a1) : State.memOk (tremundChanged a0 a1) := by
  unfold tremundChanged
  exact ite_mem (fun _ => kept_enginePost h1a) (fun _ => ite_mem (fun _ => kept_enginePost h1a) (fun _ => h1a))

end Sys2Proof
end

