-- ==== Sys2Proof/Laws/Kept/SafeHold.lean ====
section
/-! SUPPORT. What `Machine/SafeHold.lean` defines keeps the byte memories in their canonical form. -/

set_option linter.unusedVariables false

namespace Sys2Proof

open Machine

theorem kept_quietLane {a0 a1} (h1a : State.memOk a1) : State.memOk (quietLane a0 a1) := by
  unfold quietLane
  exact ite_mem (fun _ => h1a) (fun _ => ite_mem (fun _ => kept_setLane (ite_mem (fun _ => h1a) (fun _ => kept_count h1a))) (fun _ => kept_setLaneState (kept_setLane (ite_mem (fun _ => h1a) (fun _ => kept_count h1a)))))

theorem kept_portLost {a0 a1} (h0a : State.memOk a0) : State.memOk (portLost a0 a1) := by
  unfold portLost
  exact ite_mem (fun _ => kept_ethChanged h0a) (fun _ => kept_tremundChanged h0a)

theorem kept_stopOutputs {a0} (h0a : State.memOk a0) : State.memOk (stopOutputs a0) := by
  unfold stopOutputs
  exact foldl_mem (mk_mem (mk_mem (foldl_mem h0a (fun _ _ h0 => kept_quietLane h0)))) (fun _ _ h1 => kept_portLost h1)

theorem kept_enterSafeHold {a0 a1} (h1a : State.memOk a1) : State.memOk (enterSafeHold a0 a1) := by
  unfold enterSafeHold
  exact ite_mem (fun _ => mk_mem h1a) (fun _ => ite_mem (fun _ => mk_mem (kept_haltQueues (kept_pfVector (kept_stopOutputs (mk_mem h1a))))) (fun _ => kept_settlePark (kept_fatalError (kept_record (kept_pfVector (kept_stopOutputs (mk_mem h1a)))))))

end Sys2Proof
end

