-- ==== Sys2Proof/Laws/Kept/Memory.lean ====
section
/-! SUPPORT. What `Machine/Memory.lean` defines keeps the byte memories in their canonical form. -/

set_option linter.unusedVariables false

namespace Sys2Proof

open Machine

theorem kept_wake {a0 a1} (h1a : State.memOk a1) : State.memOk (wake a0 a1) :=
  ite_mem (fun _ => ite_mem (fun _ => kept_setStack h1a) (fun _ => kept_memRecord ⟨Mem.wf_zeroSegments h1a.1, h1a.2⟩)) (fun _ => h1a)

theorem kept_memHashDo {a0 a1 a2 a3 a4} (h4a : State.memOk a4) : State.memOk (memHashDo a0 a1 a2 a3 a4) := by
  unfold memHashDo
  exact kept_updStack h4a

theorem kept_gated {a0 a1 a2 a3} (h2a : ∀ z0, State.memOk (z0) → State.memOk (a2 z0)) (h3a : State.memOk a3) : State.memOk (gated a0 a1 a2 a3) := by
  unfold gated
  exact ite_mem (fun _ => h2a _ (kept_writeGate h3a)) (fun _ => kept_writeGate h3a)

theorem kept_lostBurst {a0} (h0a : State.memOk a0) : State.memOk (lostBurst a0) := by
  unfold lostBurst
  exact mk_mem h0a

theorem kept_serveBurst {a0 a1 a2 a3} (h3a : State.memOk a3) : State.memOk (serveBurst a0 a1 a2 a3) := by
  simp only [serveBurst]
  split
  · exact ite_mem (fun _ => kept_lostBurst (kept_count h3a)) (fun _ => mk_mem h3a)
  · exact ite_mem (fun _ => kept_count h3a) (fun _ => ⟨Mem.wf_writeBytes h3a.1, h3a.2⟩)

theorem kept_parkDo {a0 a1 a2} (h2a : State.memOk a2) : State.memOk (parkDo a0 a1 a2) := by
  unfold parkDo
  exact ite_mem (fun _ => h2a) (fun _ => ite_mem (fun _ => kept_parkNow (kept_updStack h2a)) (fun _ => kept_updStack h2a))

theorem kept_repark {a0 a1} (h1a : State.memOk a1) : State.memOk (repark a0 a1) := by
  unfold repark
  exact ite_mem (fun _ => kept_parkNow h1a) (fun _ => h1a)

theorem kept_runDo {a0 a1} (h1a : State.memOk a1) : State.memOk (runDo a0 a1) := by
  unfold runDo
  exact ite_mem (fun _ => kept_repark (kept_updStack h1a)) (fun _ => h1a)

theorem kept_crossing {a0 a1 a2 a3 a4} (h4a : State.memOk a4) : State.memOk (crossing a0 a1 a2 a3 a4) := by
  unfold crossing
  exact ite_mem (fun _ => kept_memRecord (ite_mem (fun _ => kept_setStack (kept_count h4a)) (fun _ => kept_count (kept_setStack (kept_count h4a))))) (fun _ => kept_setStack (kept_count h4a))

theorem kept_activate {a0 a1 a2 a3} (h3a : State.memOk a3) : State.memOk (activate a0 a1 a2 a3) := by
  unfold activate
  exact ite_mem (fun _ => h3a) (fun _ => ite_mem (fun _ => kept_crossing (kept_setStack h3a)) (fun _ => kept_setStack h3a))

theorem kept_failStack {a0 a1} (h1a : State.memOk a1) : State.memOk (failStack a0 a1) := by
  unfold failStack
  exact ite_mem (fun _ => h1a) (fun _ => ite_mem (fun _ => kept_enterSafeHold (kept_updStack h1a)) (fun _ => kept_updStack h1a))

theorem kept_failRegion {a0 a1 a2} (h2a : State.memOk a2) : State.memOk (failRegion a0 a1 a2) := by
  unfold failRegion
  exact ite_mem (fun _ => kept_failStack (kept_enginePost (kept_updStack h2a))) (fun _ => kept_enginePost (kept_updStack h2a))

theorem kept_retireRow {a0 a1 a2 a3} (h3a : State.memOk a3) : State.memOk (retireRow a0 a1 a2 a3) := by
  unfold retireRow
  exact ite_mem (fun _ => kept_memRecord (kept_count (kept_setStack h3a))) (fun _ => kept_failRegion h3a)

theorem kept_carryBurst {a0 a1 a2 a3 a4} (h4a : State.memOk a4) : State.memOk (carryBurst a0 a1 a2 a3 a4) := by
  unfold carryBurst
  exact ite_mem (fun _ => kept_count (ite_mem (fun _ => h4a) (fun _ => kept_count (kept_count h4a)))) (fun _ => kept_retireRow (ite_mem (fun _ => h4a) (fun _ => kept_count (kept_count h4a))))

theorem kept_requestDo {a0 a1 a2 a3 a4 a5} (h5a : State.memOk a5) : State.memOk (requestDo a0 a1 a2 a3 a4 a5) := by
  unfold requestDo
  exact ite_mem (fun _ => h5a) (fun _ => ite_mem (fun _ => kept_serveBurst h5a) (fun _ => ite_mem (fun _ => h5a) (fun _ => kept_repark (kept_updStack (kept_serveBurst (kept_carryBurst (kept_activate (kept_wake h5a))))))))

theorem kept_dramRequestDo {a0 a1 a2 a3 a4 a5} (h5a : State.memOk a5) : State.memOk (dramRequestDo a0 a1 a2 a3 a4 a5) := by
  unfold dramRequestDo
  exact ite_mem (fun _ => ite_mem (fun _ => kept_lostBurst h5a) (fun _ => h5a)) (fun _ => ite_mem (fun _ => kept_requestDo (kept_accCheck h5a)) (fun _ => ite_mem (fun _ => kept_lostBurst (kept_accCheck h5a)) (fun _ => kept_accCheck h5a)))

theorem kept_rhWindowDo {a0 a1} (h1a : State.memOk a1) : State.memOk (rhWindowDo a0 a1) := by
  unfold rhWindowDo
  exact ite_mem (fun _ => kept_setStack h1a) (fun _ => h1a)

theorem kept_execRhWindowStart {a0 a1} (h1a : State.memOk a1) : ∀ t, execRhWindowStart a0 a1 = .next t → State.memOk t := by
  unfold execRhWindowStart
  exact kept_onWf (kept_rhWindowDo h1a)

theorem kept_selfRefreshDo {a0 a1} (h1a : State.memOk a1) : State.memOk (selfRefreshDo a0 a1) := by
  unfold selfRefreshDo
  exact ite_mem (fun _ => kept_setStack h1a) (fun _ => h1a)

theorem kept_execSelfRefresh {a0 a1} (h1a : State.memOk a1) : ∀ t, execSelfRefresh a0 a1 = .next t → State.memOk t := by
  unfold execSelfRefresh
  exact kept_onWf (kept_selfRefreshDo h1a)

theorem kept_execMemRun {a0 a1 a2} (h2a : State.memOk a2) : ∀ t, execMemRun a0 a1 a2 = .next t → State.memOk t := by
  unfold execMemRun
  exact kept_onWf (kept_gated (fun _ h0 => kept_runDo h0) h2a)

theorem kept_execMemPark {a0 a1 a2 a3} (h3a : State.memOk a3) : ∀ t, execMemPark a0 a1 a2 a3 = .next t → State.memOk t := by
  unfold execMemPark
  exact kept_onWf (kept_gated (fun _ h0 => kept_parkDo h0) h3a)

theorem kept_execMemHash {a0 a1 a2 a3 a4 a5} (h5a : State.memOk a5) : ∀ t, execMemHash a0 a1 a2 a3 a4 a5 = .next t → State.memOk t := by
  unfold execMemHash
  exact kept_onWf (kept_gated (fun _ h0 => kept_memHashDo h0) h5a)

end Sys2Proof
end

