-- ==== Sys2Proof/Laws/Kept/Time.lean ====
section
/-! SUPPORT. What `Machine/Time.lean` defines keeps the byte memories in their canonical form. -/

set_option linter.unusedVariables false

namespace Sys2Proof

open Machine

theorem kept_domSetState {a0 a1 a2} (h2a : State.memOk a2) : State.memOk (domSetState a0 a1 a2) := by
  unfold domSetState
  exact ite_mem (fun _ => mk_mem h2a) (fun _ => kept_record (mk_mem h2a))

theorem kept_timeEvent {a0 a1} (h1a : State.memOk a1) : State.memOk (timeEvent a0 a1) := by
  unfold timeEvent
  exact kept_pfVector (mk_mem h1a)

theorem kept_ppsFall {a0} (h0a : State.memOk a0) : State.memOk (ppsFall a0) := by
  unfold ppsFall
  split
  · exact h0a
  · exact ite_mem (fun _ => kept_emit (mk_mem h0a)) (fun _ => h0a)

theorem kept_tick {a0} (h0a : State.memOk a0) : State.memOk (tick a0) := by
  unfold tick
  exact kept_ppsFall (ite_mem (fun _ => kept_timeEvent (mk_mem h0a)) (fun _ => mk_mem h0a))

theorem kept_resumeGrids {a0} (h0a : State.memOk a0) : State.memOk (resumeGrids a0) := by
  unfold resumeGrids
  exact mk_mem h0a

theorem kept_stepTo {a0 a1 a2 a3} (h3a : State.memOk a3) : State.memOk (stepTo a0 a1 a2 a3) := by
  unfold stepTo
  exact ite_mem (fun _ => mk_mem (kept_domSetState (kept_record (kept_resumeGrids (mk_mem (kept_timeEvent h3a)))))) (fun _ => kept_record (kept_resumeGrids (mk_mem (kept_timeEvent h3a))))

theorem kept_timeAdjustBody {a0 a1} (h1a : State.memOk a1) : State.memOk (timeAdjustBody a0 a1).1 := by
  unfold timeAdjustBody
  exact ite_fst_mem (fun _ => kept_answer h1a) (fun _ => ite_fst_mem (fun _ => ite_fst_mem (fun _ => kept_answer (mk_mem h1a)) (fun _ => kept_answer (kept_record (kept_timeEvent h1a)))) (fun _ => ite_fst_mem (fun _ => kept_answer (kept_stepTo h1a)) (fun _ => ite_fst_mem (fun _ => ite_fst_mem (fun _ => kept_answer h1a) (fun _ => kept_answer (kept_stepTo (mk_mem h1a)))) (fun _ => kept_answer h1a))))

theorem kept_execTimeAdjust {a0 a1} (h1a : State.memOk a1) : ∀ t, execTimeAdjust a0 a1 = .next t → State.memOk t := by
  unfold execTimeAdjust
  exact kept_onWf (kept_command (fun _ _ h0 => kept_timeAdjustBody h0) h1a)

theorem kept_ptpBindBody {a0 a1} (h1a : State.memOk a1) : State.memOk (ptpBindBody a0 a1).1 := by
  unfold ptpBindBody
  exact ite_fst_mem (fun _ => kept_answer h1a) (fun _ => ite_fst_mem (fun _ => (by
    split
    · exact kept_answer (mk_mem h1a)
    · exact kept_answer h1a
    · exact kept_queueRefused h1a)) (fun _ => kept_answer (mk_mem h1a)))

theorem kept_execTimePtpBind {a0 a1} (h1a : State.memOk a1) : ∀ t, execTimePtpBind a0 a1 = .next t → State.memOk t := by
  unfold execTimePtpBind
  exact kept_onWf (kept_command (fun _ _ h0 => kept_ptpBindBody h0) h1a)

theorem kept_execSlewDone {a0} (h0a : State.memOk a0) : ∀ t, execSlewDone a0 = .next t → State.memOk t := by
  unfold execSlewDone
  exact kept_onWf (ite_mem (fun _ => kept_tick h0a) (fun _ => h0a))

theorem kept_ppsInDo {a0 a1} (h1a : State.memOk a1) : State.memOk (ppsInDo a0 a1) := by
  unfold ppsInDo
  exact ite_mem (fun _ => kept_timeEvent h1a) (fun _ => h1a)

theorem kept_execPpsIn {a0 a1} (h1a : State.memOk a1) : ∀ t, execPpsIn a0 a1 = .next t → State.memOk t := by
  unfold execPpsIn
  exact kept_onWf (kept_ppsInDo h1a)

theorem kept_ppsOutDo {a0} (h0a : State.memOk a0) : State.memOk (ppsOutDo a0) := by
  unfold ppsOutDo
  exact ite_mem (fun _ => kept_emit (mk_mem h0a)) (fun _ => h0a)

theorem kept_execPpsOut {a0} (h0a : State.memOk a0) : ∀ t, execPpsOut a0 = .next t → State.memOk t := by
  unfold execPpsOut
  exact kept_onWf (kept_ppsOutDo h0a)

theorem kept_ppsShortDo {a0 a1} (h1a : State.memOk a1) : State.memOk (ppsShortDo a0 a1) := by
  unfold ppsShortDo
  exact kept_record (kept_timeEvent h1a)

theorem kept_execPpsShort {a0 a1} (h1a : State.memOk a1) : ∀ t, execPpsShort a0 a1 = .next t → State.memOk t := by
  unfold execPpsShort
  exact kept_onWf (kept_ppsShortDo h1a)

theorem kept_ppsRetryDo {a0 a1 a2} (h2a : State.memOk a2) : State.memOk (ppsRetryDo a0 a1 a2) := by
  unfold ppsRetryDo
  split
  · exact h2a
  · exact ite_mem (fun _ => mk_mem h2a) (fun _ => h2a)

theorem kept_execPpsShortRetry {a0 a1 a2} (h2a : State.memOk a2) : ∀ t, execPpsShortRetry a0 a1 a2 = .next t → State.memOk t := by
  unfold execPpsShortRetry
  exact kept_onWf (kept_ppsRetryDo h2a)

end Sys2Proof
end

