-- ==== Sys2Proof/Laws/Kept/Links.lean ====
section
/-! SUPPORT. What `Machine/Links.lean` defines keeps the byte memories in their canonical form. -/

set_option linter.unusedVariables false

namespace Sys2Proof

open Machine

theorem kept_setLink {a0 a1 a2} (h2a : State.memOk a2) : State.memOk (setLink a0 a1 a2) := by
  unfold setLink
  exact mk_mem h2a

theorem kept_updLink {a0 a1 a2} (h2a : State.memOk a2) : State.memOk (updLink a0 a1 a2) := by
  unfold updLink
  exact kept_setLink h2a

theorem kept_reroute {a0} (h0a : State.memOk a0) : State.memOk (reroute a0) := by
  unfold reroute
  exact ite_mem (fun _ => kept_enterSafeHold (foldl_mem h0a (fun _ _ h0 => kept_updLink h0))) (fun _ => foldl_mem h0a (fun _ _ h0 => kept_updLink h0))

theorem kept_moveBuffer {a0 a1 a2} (h2a : State.memOk a2) : State.memOk (moveBuffer a0 a1 a2) := by
  unfold moveBuffer
  exact kept_updLink (foldl_mem (ite_mem (fun _ => h2a) (fun _ => kept_count h2a)) (fun _ _ h0 => kept_emit h0))

theorem kept_retrain {a0 a1 a2} (h2a : State.memOk a2) : State.memOk (retrain a0 a1 a2) := by
  unfold retrain
  exact kept_reroute (kept_moveBuffer (kept_moveBuffer (kept_pfVector (kept_record (kept_updLink h2a)))))

theorem kept_letGo {a0 a1} (h1a : State.memOk a1) : State.memOk (letGo a0 a1) := by
  unfold letGo
  exact ite_mem (fun _ => kept_updLink h1a) (fun _ => kept_retrain (kept_updLink h1a))

theorem kept_linkDown {a0 a1} (h1a : State.memOk a1) : State.memOk (linkDown a0 a1) := by
  unfold linkDown
  exact kept_pfVector (kept_record (kept_reroute (kept_moveBuffer (kept_moveBuffer (kept_updLink h1a)))))

theorem kept_dlRetrainEndDo {a0 a1 a2} (h2a : State.memOk a2) : State.memOk (dlRetrainEndDo a0 a1 a2) := by
  unfold dlRetrainEndDo
  exact ite_mem (fun _ => h2a) (fun _ => ite_mem (fun _ => kept_reroute (kept_setLink h2a)) (fun _ => ite_mem (fun _ => kept_linkDown (kept_setLink h2a)) (fun _ => kept_retrain (kept_setLink h2a))))

theorem kept_execDlRetrainEnd {a0 a1 a2} (h2a : State.memOk a2) : ∀ t, execDlRetrainEnd a0 a1 a2 = .next t → State.memOk t := by
  unfold execDlRetrainEnd
  exact kept_onWf (kept_dlRetrainEndDo h2a)

theorem kept_retrainDo {a0 a1} (h1a : State.memOk a1) : State.memOk (retrainDo a0 a1) := by
  unfold retrainDo
  exact ite_mem (fun _ => kept_updLink h1a) (fun _ => kept_retrain (kept_updLink h1a))

theorem kept_holdDownDo {a0 a1 a2} (h2a : State.memOk a2) : State.memOk (holdDownDo a0 a1 a2) := by
  unfold holdDownDo
  exact ite_mem (fun _ => h2a) (fun _ => ite_mem (fun _ => ite_mem (fun _ => kept_updLink h2a) (fun _ => kept_linkDown (kept_updLink h2a))) (fun _ => kept_letGo h2a))

theorem kept_dlBlockDo {a0 a1 a2 a3 a4 a5 a6} (h6a : State.memOk a6) : State.memOk (dlBlockDo a0 a1 a2 a3 a4 a5 a6) := by
  unfold dlBlockDo
  exact ite_mem (fun _ => h6a) (fun _ => ite_mem (fun _ => ite_mem (fun _ => kept_updLink h6a) (fun _ => ite_mem (fun _ => kept_retrain (kept_emit (kept_count (kept_updLink h6a)))) (fun _ => kept_emit (kept_count (kept_updLink h6a))))) (fun _ => ite_mem (fun _ => kept_emit (kept_count (kept_updLink (ite_mem (fun _ => kept_count h6a) (fun _ => h6a))))) (fun _ => ite_mem (fun _ => kept_count (kept_updLink h6a)) (fun _ => ite_mem (fun _ => kept_updLink h6a) (fun _ => kept_emit (kept_updLink h6a))))))

theorem kept_execDlBlockRx {a0 a1 a2 a3 a4 a5 a6} (h6a : State.memOk a6) : ∀ t, execDlBlockRx a0 a1 a2 a3 a4 a5 a6 = .next t → State.memOk t := by
  unfold execDlBlockRx
  exact kept_onWf (kept_dlBlockDo h6a)

theorem kept_dlReplayDo {a0 a1 a2 a3} (h3a : State.memOk a3) : State.memOk (dlReplayDo a0 a1 a2 a3) := by
  unfold dlReplayDo
  exact ite_mem (fun _ => kept_count (kept_updLink (foldl_mem h3a (fun _ _ h0 => kept_emit h0)))) (fun _ => h3a)

theorem kept_execDlReplayRequest {a0 a1 a2 a3} (h3a : State.memOk a3) : ∀ t, execDlReplayRequest a0 a1 a2 a3 = .next t → State.memOk t := by
  unfold execDlReplayRequest
  exact kept_onWf (kept_dlReplayDo h3a)

theorem kept_execRetrain {a0 a1 a2} (h2a : State.memOk a2) : ∀ t, execRetrain a0 a1 a2 = .next t → State.memOk t := by
  unfold execRetrain
  exact kept_onWf (kept_gated (fun _ h0 => kept_retrainDo h0) h2a)

theorem kept_execHoldDown {a0 a1 a2 a3} (h3a : State.memOk a3) : ∀ t, execHoldDown a0 a1 a2 a3 = .next t → State.memOk t := by
  unfold execHoldDown
  exact kept_onWf (kept_gated (fun _ h0 => kept_holdDownDo h0) h3a)

end Sys2Proof
end

