-- ==== Sys2Proof/Laws/Kept/Supply.lean ====
section
/-! SUPPORT. What `Machine/Supply.lean` defines keeps the byte memories in their canonical form. -/

set_option linter.unusedVariables false

namespace Sys2Proof

open Machine

theorem kept_settleOver {a0 a1} (h1a : State.memOk a1) : State.memOk (settleOver a0 a1) := by
  unfold settleOver
  exact ite_mem (fun _ => mk_mem h1a) (fun _ => h1a)

theorem kept_dropLoad {a0 a1 a2 a3} (h3a : State.memOk a3) : State.memOk (dropLoad a0 a1 a2 a3) := by
  unfold dropLoad
  exact kept_settleOver (mk_mem h3a)

theorem kept_setIsland {a0 a1 a2} (h2a : State.memOk a2) : State.memOk (setIsland a0 a1 a2) := by
  unfold setIsland
  exact mk_mem h2a

theorem kept_dropWork {a0 a1} (h1a : State.memOk a1) : State.memOk (dropWork a0 a1) := by
  unfold dropWork
  exact kept_setIsland (mk_mem h1a)

theorem kept_islandPass {a0 a1} (h1a : State.memOk a1) : State.memOk (islandPass a0 a1) := by
  unfold islandPass
  exact kept_setIsland (kept_setIsland h1a)

theorem kept_updateFactors {a0 a1 a2} (h2a : State.memOk a2) : State.memOk (updateFactors a0 a1 a2) := by
  unfold updateFactors
  exact ite_mem (fun _ => kept_settleOver (mk_mem h2a)) (fun _ => ite_mem (fun _ => mk_mem h2a) (fun _ => kept_enginePost (kept_pfVector (mk_mem (mk_mem h2a)))))

theorem kept_testWork {a0 a1} (h1a : State.memOk a1) : State.memOk (testWork a0 a1) := by
  unfold testWork
  exact foldl_mem h1a (fun _ _ h0 => ite_mem (fun _ => kept_setIsland h0) (fun _ => h0))

theorem kept_postureDo {a0 a1} (h1a : State.memOk a1) : State.memOk (postureDo a0 a1) := by
  unfold postureDo
  exact ite_mem (fun _ => h1a) (fun _ => mk_mem h1a)

theorem kept_antennaDo {a0 a1 a2 a3} (h3a : State.memOk a3) : State.memOk (antennaDo a0 a1 a2 a3) := by
  unfold antennaDo
  exact kept_setIsland h3a

theorem kept_execAntennaMeasure {a0 a1 a2 a3} (h3a : State.memOk a3) : ∀ t, execAntennaMeasure a0 a1 a2 a3 = .next t → State.memOk t := by
  unfold execAntennaMeasure
  exact kept_onWf (kept_antennaDo h3a)

theorem kept_islandWatch {a0 a1} (h1a : State.memOk a1) : State.memOk (islandWatch a0 a1) := by
  unfold islandWatch
  exact kept_setIsland (ite_mem (fun _ => kept_record (kept_pfVector (mk_mem (ite_mem (fun _ => kept_record h1a) (fun _ => h1a))))) (fun _ => ite_mem (fun _ => kept_record h1a) (fun _ => h1a)))

theorem kept_ceilingPass {a0 a1 a2 a3} (h3a : State.memOk a3) : State.memOk (ceilingPass a0 a1 a2 a3) := by
  unfold ceilingPass
  exact kept_setIsland h3a

theorem kept_limitPass {a0} (h0a : State.memOk a0) : State.memOk (limitPass a0) := by
  unfold limitPass
  exact ite_mem (fun _ => ite_mem (fun _ => ite_mem (fun _ => ite_mem (fun _ => kept_pfVector (mk_mem (foldl_mem h0a (fun _ _ h0 => kept_ceilingPass h0)))) (fun _ => foldl_mem h0a (fun _ _ h0 => kept_ceilingPass h0))) (fun _ => kept_pfVector (mk_mem (ite_mem (fun _ => kept_pfVector (mk_mem (foldl_mem h0a (fun _ _ h0 => kept_ceilingPass h0)))) (fun _ => foldl_mem h0a (fun _ _ h0 => kept_ceilingPass h0)))))) (fun _ => ite_mem (fun _ => kept_pfVector (mk_mem (foldl_mem h0a (fun _ _ h0 => kept_ceilingPass h0)))) (fun _ => foldl_mem h0a (fun _ _ h0 => kept_ceilingPass h0)))) (fun _ => ite_mem (fun _ => mk_mem (foldl_mem h0a (fun _ _ h0 => kept_ceilingPass h0))) (fun _ => foldl_mem h0a (fun _ _ h0 => kept_ceilingPass h0)))

theorem kept_loopPass {a0 a1 a2} (h2a : State.memOk a2) : State.memOk (loopPass a0 a1 a2) := by
  unfold loopPass
  exact kept_count (mk_mem (foldl_mem (foldl_mem (kept_limitPass (foldl_mem (mk_mem h2a) (fun _ _ h0 => kept_islandWatch h0))) (fun _ _ h1 => kept_islandPass h1)) (fun _ _ h2 => kept_updateFactors h2)))

theorem kept_beginLoop {a0} (h0a : State.memOk a0) : State.memOk (beginLoop a0) := by
  unfold beginLoop
  split
  · exact kept_testWork (mk_mem h0a)
  · exact mk_mem h0a

theorem kept_loopPassDo {a0 a1 a2} (h2a : State.memOk a2) : State.memOk (loopPassDo a0 a1 a2) := by
  unfold loopPassDo
  exact ite_mem (fun _ => kept_loopPass (kept_beginLoop h2a)) (fun _ => h2a)

theorem kept_execVoltageLoopPass {a0 a1 a2} (h2a : State.memOk a2) : ∀ t, execVoltageLoopPass a0 a1 a2 = .next t → State.memOk t := by
  unfold execVoltageLoopPass
  exact kept_onWf (kept_loopPassDo h2a)

theorem kept_execPosture {a0 a1 a2} (h2a : State.memOk a2) : ∀ t, execPosture a0 a1 a2 = .next t → State.memOk t := by
  unfold execPosture
  exact kept_onWf (kept_gated (fun _ h0 => kept_postureDo h0) h2a)

theorem kept_addWork {a0 a1} (h1a : State.memOk a1) : State.memOk (addWork a0 a1) := by
  unfold addWork
  exact kept_setIsland (mk_mem h1a)

theorem kept_addLoad {a0 a1 a2 a3} (h3a : State.memOk a3) : State.memOk (addLoad a0 a1 a2 a3) := by
  unfold addLoad
  exact mk_mem h3a

end Sys2Proof
end

