-- ==== Sys2Proof/Laws/Kept/Fabric.lean ====
section
/-! SUPPORT. What `Machine/Fabric.lean` defines keeps the byte memories in their canonical form. -/

set_option linter.unusedVariables false

namespace Sys2Proof

open Machine

theorem kept_dropPartEntries {a0 a1 a2} (h2a : State.memOk a2) : State.memOk (dropPartEntries a0 a1 a2) := by
  unfold dropPartEntries
  exact mk_mem h2a

theorem kept_clearTileCounters {a0 a1 a2} (h2a : State.memOk a2) : State.memOk (clearTileCounters a0 a1 a2) := by
  unfold clearTileCounters
  exact mk_mem h2a

theorem kept_putEntry {a0 a1 a2 a3 a4} (h4a : State.memOk a4) : State.memOk (putEntry a0 a1 a2 a3 a4) := by
  unfold putEntry
  exact ite_mem (fun _ => h4a) (fun _ => mk_mem h4a)

theorem kept_grantPart {a0 a1 a2 a3} (h3a : State.memOk a3) : State.memOk (grantPart a0 a1 a2 a3) := by
  unfold grantPart
  exact ite_mem (fun _ => foldl_mem (kept_putEntry (kept_putEntry (kept_dropPartEntries h3a))) (fun _ _ h0 => kept_putEntry h0)) (fun _ => foldl_mem (foldl_mem (kept_putEntry (kept_putEntry (kept_dropPartEntries h3a))) (fun _ _ h0 => kept_putEntry h0)) (fun _ _ h1 => kept_putEntry h1))

theorem kept_applyPlan {a0 a1 a2 a3 a4 a5} (h5a : State.memOk a5) : State.memOk (applyPlan a0 a1 a2 a3 a4 a5) := by
  unfold applyPlan
  exact foldl_mem (kept_testWork (foldl_mem (mk_mem (kept_loadCores (kept_clearTileCounters h5a))) (fun _ _ h0 => ite_mem (fun _ => kept_grantPart h0) (fun _ => h0)))) (fun _ _ h1 => kept_updateFactors h1)

theorem kept_applyFull {a0 a1 a2 a3} (h3a : State.memOk a3) : State.memOk (applyFull a0 a1 a2 a3) := by
  unfold applyFull
  exact kept_applyPlan (mk_mem (foldl_mem h3a (fun _ _ h0 => kept_dropPartEntries h0)))

theorem kept_finishLoad {a0 a1 a2} (h2a : State.memOk a2) : State.memOk (finishLoad a0 a1 a2) := by
  unfold finishLoad
  exact kept_complete (mk_mem (ite_mem (fun _ => kept_applyFull h2a) (fun _ => kept_applyPlan h2a)))

theorem kept_closeGroups {a0 a1 a2} (h2a : State.memOk a2) : State.memOk (closeGroups a0 a1 a2) := by
  unfold closeGroups
  exact mk_mem h2a

theorem kept_closeParts {a0 a1 a2} (h2a : State.memOk a2) : State.memOk (closeParts a0 a1 a2) := by
  unfold closeParts
  exact mk_mem h2a

theorem kept_stopLoad {a0 a1 a2} (h2a : State.memOk a2) : State.memOk (stopLoad a0 a1 a2) := by
  unfold stopLoad
  exact kept_complete (mk_mem (kept_closeGroups (kept_closeParts h2a)))

theorem kept_fabRefused {a0 a1 a2 a3 a4} (h4a : State.memOk a4) : State.memOk (fabRefused a0 a1 a2 a3 a4) := by
  unfold fabRefused
  exact kept_record (kept_count h4a)

theorem kept_fabRefuse {a0 a1 a2 a3 a4 a5} (h5a : State.memOk a5) : State.memOk (fabRefuse a0 a1 a2 a3 a4 a5).1 := by
  unfold fabRefuse
  exact kept_answer (kept_fabRefused h5a)

theorem kept_fabStoreBody {a0 a1} (h1a : State.memOk a1) : State.memOk (fabStoreBody a0 a1).1 := by
  unfold fabStoreBody
  extract_lets -merge -underBinder +onlyGivenNames x0
  try clear_value x0
  split
  · refine kept_answer ?_
    assumption
  · split
    · refine kept_fabRefuse ?_
      assumption
    · extract_lets -merge -underBinder +onlyGivenNames x1
      try clear_value x1
      split
      · refine kept_fabRefuse ?_
        assumption
      · extract_lets -merge -underBinder +onlyGivenNames x2
        try clear_value x2
        split
        · refine kept_fabRefuse ?_
          assumption
        · refine kept_answer ?_
          refine mk_mem ?_
          assumption

theorem kept_execFabStoreImage {a0 a1} (h1a : State.memOk a1) : ∀ t, execFabStoreImage a0 a1 = .next t → State.memOk t := by
  unfold execFabStoreImage
  exact kept_onWf (kept_command (fun _ _ h0 => kept_fabStoreBody h0) h1a)

theorem kept_beginDrain {a0 a1 a2 a3 a4 a5 a6} (h6a : State.memOk a6) : State.memOk (beginDrain a0 a1 a2 a3 a4 a5 a6).1 := by
  unfold beginDrain
  exact mk_fst_mem (kept_setProgress (mk_mem (kept_closeGroups (kept_closeParts h6a))))

theorem kept_fabLoadFullBody {a0 a1} (h1a : State.memOk a1) : State.memOk (fabLoadFullBody a0 a1).1 := by
  unfold fabLoadFullBody
  exact ite_fst_mem (fun _ => kept_answer h1a) (fun _ => ite_fst_mem (fun _ => kept_fabRefuse h1a) (fun _ => (by
    split
    · exact kept_fabRefuse h1a
    · split
      · exact kept_fabRefuse h1a
      · exact kept_beginDrain h1a)))

theorem kept_execFabLoadFull {a0 a1} (h1a : State.memOk a1) : ∀ t, execFabLoadFull a0 a1 = .next t → State.memOk t := by
  unfold execFabLoadFull
  exact kept_onWf (kept_command (fun _ _ h0 => kept_fabLoadFullBody h0) h1a)

theorem kept_mayReload {a0 a1 a2} (h2a : State.memOk a2) : State.memOk (mayReload a0 a1 a2).2 := by
  unfold mayReload
  exact ite_snd_mem (fun _ => mk_snd_mem h2a) (fun _ => (by
    split
    · exact mk_snd_mem h2a
    · exact ite_snd_mem (fun _ => kept_accCheck h2a) (fun _ => mk_snd_mem h2a)))

theorem kept_fabReloadBody {a0 a1} (h1a : State.memOk a1) : State.memOk (fabReloadBody a0 a1).1 := by
  unfold fabReloadBody
  exact ite_fst_mem (fun _ => kept_answer (kept_mayReload h1a)) (fun _ => ite_fst_mem (fun _ => kept_fabRefuse (kept_mayReload h1a)) (fun _ => (by
    split
    · exact kept_fabRefuse (kept_mayReload h1a)
    · split
      · exact kept_fabRefuse (kept_mayReload h1a)
      · exact kept_beginDrain (kept_mayReload h1a))))

theorem kept_execFabReloadPart {a0 a1} (h1a : State.memOk a1) : ∀ t, execFabReloadPart a0 a1 = .next t → State.memOk t := by
  unfold execFabReloadPart
  exact kept_onWf (kept_command (fun _ _ h0 => kept_fabReloadBody h0) h1a)

theorem kept_fabAbortBody {a0 a1} (h1a : State.memOk a1) : State.memOk (fabAbortBody a0 a1).1 := by
  unfold fabAbortBody
  split
  · exact kept_answer h1a
  · exact ite_fst_mem (fun _ => kept_answer (kept_stopLoad h1a)) (fun _ => kept_answer h1a)

theorem kept_execFabAbort {a0 a1} (h1a : State.memOk a1) : ∀ t, execFabAbort a0 a1 = .next t → State.memOk t := by
  unfold execFabAbort
  exact kept_onWf (kept_command (fun _ _ h0 => kept_fabAbortBody h0) h1a)

theorem kept_drainEndDo {a0 a1} (h1a : State.memOk a1) : State.memOk (drainEndDo a0 a1) := by
  unfold drainEndDo
  split
  · exact h1a
  · exact ite_mem (fun _ => kept_finishLoad h1a) (fun _ => h1a)

theorem kept_execDrainEnd {a0 a1} (h1a : State.memOk a1) : ∀ t, execDrainEnd a0 a1 = .next t → State.memOk t := by
  unfold execDrainEnd
  exact kept_onWf (kept_drainEndDo h1a)

theorem kept_bootTry {a0 a1 a2 a3} (h3a : State.memOk a3) : State.memOk (bootTry a0 a1 a2 a3) := by
  induction a1 generalizing a2 a3 with
  | nil => exact kept_record h3a
  | cons x r ih =>
    simp only [bootTry]
    split
    · exact ih (kept_fabRefused h3a)
    · split
      · exact ih (kept_fabRefused h3a)
      · exact kept_applyFull h3a

theorem kept_bootLoad {a0 a1} (h1a : State.memOk a1) : State.memOk (bootLoad a0 a1) := by
  unfold bootLoad
  exact kept_bootTry h1a

end Sys2Proof
end

