-- ==== Sys2Proof/Laws/Kept/Update.lean ====
section
/-! SUPPORT. What `Machine/Update.lean` defines keeps the byte memories in their canonical form. -/

set_option linter.unusedVariables false

namespace Sys2Proof

open Machine

theorem kept_setBank {a0 a1 a2} (h2a : State.memOk a2) : State.memOk (setBank a0 a1 a2) := by
  unfold setBank
  exact ite_mem (fun _ => mk_mem h2a) (fun _ => mk_mem h2a)

theorem kept_setCopy {a0 a1 a2} (h2a : State.memOk a2) : State.memOk (setCopy a0 a1 a2) := by
  unfold setCopy
  exact ite_mem (fun _ => mk_mem h2a) (fun _ => mk_mem h2a)

theorem kept_migrateSettings {a0 a1} (h1a : State.memOk a1) : State.memOk (migrateSettings a0 a1) := by
  unfold migrateSettings
  exact ite_mem (fun _ => kept_record (kept_setBank (kept_setCopy h1a))) (fun _ => kept_record (mk_mem h1a))

theorem kept_saveSettings {a0} (h0a : State.memOk a0) : State.memOk (saveSettings a0) := by
  unfold saveSettings
  exact ite_mem (fun _ => h0a) (fun _ => ite_mem (fun _ => kept_setCopy h0a) (fun _ => kept_setBank (kept_setCopy h0a)))

theorem kept_saving {a0 a1} (h0a : ∀ z0, State.memOk (z0) → State.memOk (a0 z0)) (h1a : State.memOk a1) : State.memOk (saving a0 a1) := by
  unfold saving
  exact ite_mem (fun _ => h0a _ h1a) (fun _ => kept_saveSettings (h0a _ h1a))

theorem kept_updStageBody {a0 a1} (h1a : State.memOk a1) : State.memOk (updStageBody a0 a1).1 := by
  unfold updStageBody
  extract_lets -merge -underBinder +onlyGivenNames x0
  try clear_value x0
  split
  · refine kept_answer ?_
    assumption
  · split
    · refine kept_answer ?_
      assumption
    · split
      · refine kept_answer ?_
        assumption
      · split
        · refine kept_answer ?_
          assumption
        · split
          · refine kept_answer ?_
            assumption
          · extract_lets -merge -underBinder +onlyGivenNames x1
            try clear_value x1
            extract_lets -merge -underBinder +onlyGivenNames x2
            try clear_value x2
            extract_lets -merge -underBinder +onlyGivenNames x3
            have h4 : State.memOk (x3) := by
              unfold x3
              refine ite_mem (fun _ => ?_) (fun _ => ?_)
              · refine kept_setBank ?_
                assumption
              · assumption
            try clear_value x3
            split
            · refine kept_answer ?_
              refine mk_mem ?_
              assumption
            · refine kept_answer ?_
              refine mk_mem ?_
              assumption

theorem kept_execUpdStage {a0 a1} (h1a : State.memOk a1) : ∀ t, execUpdStage a0 a1 = .next t → State.memOk t := by
  unfold execUpdStage
  exact kept_onWf (kept_command (fun _ _ h0 => kept_updStageBody h0) h1a)

theorem kept_updApplyBody {a0 a1} (h1a : State.memOk a1) : State.memOk (updApplyBody a0 a1).1 := by
  unfold updApplyBody
  exact ite_fst_mem (fun _ => kept_answer h1a) (fun _ => ite_fst_mem (fun _ => kept_answer h1a) (fun _ => ite_fst_mem (fun _ => kept_answer h1a) (fun _ => ite_fst_mem (fun _ => kept_answer h1a) (fun _ => ite_fst_mem (fun _ => kept_answer h1a) (fun _ => ite_fst_mem (fun _ => kept_answer (kept_setBank h1a)) (fun _ => ite_fst_mem (fun _ => kept_answer (kept_setBank h1a)) (fun _ => kept_answer (kept_setBank h1a))))))))

theorem kept_execUpdApply {a0 a1} (h1a : State.memOk a1) : ∀ t, execUpdApply a0 a1 = .next t → State.memOk t := by
  unfold execUpdApply
  exact kept_onWf (kept_command (fun _ _ h0 => kept_updApplyBody h0) h1a)

theorem kept_updScheduleBody {a0 a1} (h1a : State.memOk a1) : State.memOk (updScheduleBody a0 a1).1 := by
  unfold updScheduleBody
  exact ite_fst_mem (fun _ => kept_answer h1a) (fun _ => ite_fst_mem (fun _ => kept_answer h1a) (fun _ => ite_fst_mem (fun _ => kept_answer h1a) (fun _ => ite_fst_mem (fun _ => kept_answer h1a) (fun _ => ite_fst_mem (fun _ => kept_answer h1a) (fun _ => ite_fst_mem (fun _ => kept_answer h1a) (fun _ => kept_answer (mk_mem h1a)))))))

theorem kept_execUpdSchedule {a0 a1} (h1a : State.memOk a1) : ∀ t, execUpdSchedule a0 a1 = .next t → State.memOk t := by
  unfold execUpdSchedule
  exact kept_onWf (kept_command (fun _ _ h0 => kept_updScheduleBody h0) h1a)

theorem kept_updCancelBody {a0 a1} (h1a : State.memOk a1) : State.memOk (updCancelBody a0 a1).1 := by
  unfold updCancelBody
  exact ite_fst_mem (fun _ => kept_answer h1a) (fun _ => ite_fst_mem (fun _ => kept_answer h1a) (fun _ => ite_fst_mem (fun _ => kept_answer h1a) (fun _ => ite_fst_mem (fun _ => kept_answer (mk_mem h1a)) (fun _ => ite_fst_mem (fun _ => kept_answer h1a) (fun _ => kept_answer h1a)))))

theorem kept_execUpdCancel {a0 a1} (h1a : State.memOk a1) : ∀ t, execUpdCancel a0 a1 = .next t → State.memOk t := by
  unfold execUpdCancel
  exact kept_onWf (kept_command (fun _ _ h0 => kept_updCancelBody h0) h1a)

theorem kept_commitTrial {a0} (h0a : State.memOk a0) : State.memOk (commitTrial a0) := by
  unfold commitTrial
  exact kept_record (mk_mem (kept_setBank (kept_setBank h0a)))

theorem kept_updCommitBody {a0 a1} (h1a : State.memOk a1) : State.memOk (updCommitBody a0 a1).1 := by
  unfold updCommitBody
  exact ite_fst_mem (fun _ => kept_answer h1a) (fun _ => ite_fst_mem (fun _ => kept_answer h1a) (fun _ => ite_fst_mem (fun _ => kept_answer h1a) (fun _ => ite_fst_mem (fun _ => kept_answer h1a) (fun _ => ite_fst_mem (fun _ => kept_answer h1a) (fun _ => ite_fst_mem (fun _ => kept_answer (kept_commitTrial h1a)) (fun _ => kept_answer h1a))))))

theorem kept_execUpdCommit {a0 a1} (h1a : State.memOk a1) : ∀ t, execUpdCommit a0 a1 = .next t → State.memOk t := by
  unfold execUpdCommit
  exact kept_onWf (kept_command (fun _ _ h0 => kept_updCommitBody h0) h1a)

theorem kept_trialCommitDo {a0} (h0a : State.memOk a0) : State.memOk (trialCommitDo a0) := by
  unfold trialCommitDo
  exact ite_mem (fun _ => kept_commitTrial h0a) (fun _ => h0a)

theorem kept_execTrialCommit {a0} (h0a : State.memOk a0) : ∀ t, execTrialCommit a0 = .next t → State.memOk t := by
  unfold execTrialCommit
  exact kept_onWf (kept_trialCommitDo h0a)

end Sys2Proof
end

