-- ==== Sys2Proof/Laws/Kept/Lanes.lean ====
section
/-! SUPPORT. What `Machine/Lanes.lean` defines keeps the byte memories in their canonical form. -/

set_option linter.unusedVariables false

namespace Sys2Proof

open Machine

theorem kept_sendTm {a0 a1 a2 a3 a4 a5 a6} (h6a : State.memOk a6) : State.memOk (sendTm a0 a1 a2 a3 a4 a5 a6) := by
  unfold sendTm
  exact kept_emit (ite_mem (fun _ => kept_updLane h6a) (fun _ => kept_count (kept_updLane h6a)))

theorem kept_sendDataBlock {a0 a1 a2 a3 a4} (h4a : State.memOk a4) : State.memOk (sendDataBlock a0 a1 a2 a3 a4) := by
  unfold sendDataBlock
  exact kept_sendTm (kept_updLane h4a)

theorem kept_pumpFrames {a0 a1 a2 a3} (h3a : State.memOk a3) : State.memOk (pumpFrames a0 a1 a2 a3) := by
  induction a0 generalizing a2 a3 with
  | zero => cases a2 <;> exact h3a
  | succ n ih =>
    cases a2 with
    | nil => exact h3a
    | cons f fs =>
      exact ite_mem (fun _ => h3a) (fun _ =>
        ite_mem (fun _ => ih (foldl_mem (kept_updLane h3a) (fun _ _ h => kept_sendDataBlock h))) (fun _ => ih h3a))

theorem kept_pump {a0 a1} (h1a : State.memOk a1) : State.memOk (pump a0 a1) := by
  unfold pump
  exact ite_mem (fun _ => kept_pumpFrames h1a) (fun _ => h1a)

theorem kept_queueFrame {a0 a1 a2} (h2a : State.memOk a2) : State.memOk (queueFrame a0 a1 a2) := by
  unfold queueFrame
  exact kept_pump (kept_updLane h2a)

theorem kept_sendFrame {a0 a1 a2} (h2a : State.memOk a2) : State.memOk (sendFrame a0 a1 a2) := by
  unfold sendFrame
  split
  · exact kept_queueFrame h2a
  · exact kept_count h2a

theorem kept_beginTraining {a0 a1} (h1a : State.memOk a1) : State.memOk (beginTraining a0 a1) := by
  unfold beginTraining
  exact ite_mem (fun _ => kept_updLane (kept_setLaneState h1a)) (fun _ => h1a)

theorem kept_pllLockDo {a0 a1} (h1a : State.memOk a1) : State.memOk (pllLockDo a0 a1) := by
  unfold pllLockDo
  exact ite_mem (fun _ => h1a) (fun _ => foldl_mem (kept_setGroupCfg h1a) (fun _ _ h0 => kept_beginTraining (kept_updLane h0)))

theorem kept_clearLane {a0 a1} (h1a : State.memOk a1) : State.memOk (clearLane a0 a1) := by
  unfold clearLane
  exact foldl_mem (kept_setLane (ite_mem (fun _ => h1a) (fun _ => kept_count h1a))) (fun _ _ h0 => kept_sendFrame h0)

theorem kept_tremundLeave {a0 a1 a2} (h2a : State.memOk a2) : State.memOk (tremundLeave a0 a1 a2) := by
  unfold tremundLeave
  exact ite_mem (fun _ => kept_tremundChanged (kept_clearLane (kept_setLaneState h2a))) (fun _ => kept_clearLane (kept_setLaneState h2a))

theorem kept_ethDown {a0 a1} (h1a : State.memOk a1) : State.memOk (ethDown a0 a1) := by
  unfold ethDown
  exact ite_mem (fun _ => kept_ethChanged (foldl_mem h1a (fun _ _ h0 => ite_mem (fun _ => kept_setLaneState h0) (fun _ => h0)))) (fun _ => foldl_mem h1a (fun _ _ h0 => ite_mem (fun _ => kept_setLaneState h0) (fun _ => h0)))

theorem kept_leaveService {a0 a1 a2} (h2a : State.memOk a2) : State.memOk (leaveService a0 a1 a2) := by
  unfold leaveService
  exact ite_mem (fun _ => kept_tremundLeave h2a) (fun _ => ite_mem (fun _ => kept_setLaneState (kept_ethDown h2a)) (fun _ => h2a))

theorem kept_nextStep {a0 a1} (h1a : State.memOk a1) : State.memOk (nextStep a0 a1) := by
  unfold nextStep
  exact kept_updLane h1a

theorem kept_notePeer {a0 a1 a2} (h2a : State.memOk a2) : State.memOk (notePeer a0 a1 a2) := by
  unfold notePeer
  exact kept_updLane h2a

theorem kept_noteReversed {a0 a1 a2} (h2a : State.memOk a2) : State.memOk (noteReversed a0 a1 a2) := by
  unfold noteReversed
  exact ite_mem (fun _ => kept_record (kept_updLane h2a)) (fun _ => kept_updLane h2a)

theorem kept_holdMiswired {a0 a1 a2} (h2a : State.memOk a2) : State.memOk (holdMiswired a0 a1 a2) := by
  unfold holdMiswired
  exact kept_record (kept_clearLane (kept_setLaneState h2a))

theorem kept_sendIdleBlock {a0 a1 a2 a3} (h3a : State.memOk a3) : State.memOk (sendIdleBlock a0 a1 a2 a3) := by
  unfold sendIdleBlock
  exact kept_sendTm (kept_updLane h3a)

theorem kept_sendFill {a0 a1 a2} (h2a : State.memOk a2) : State.memOk (sendFill a0 a1 a2) := by
  unfold sendFill
  exact ite_mem (fun _ => kept_sendDataBlock h2a) (fun _ => kept_sendIdleBlock h2a)

theorem kept_goUp {a0 a1} (h1a : State.memOk a1) : State.memOk (goUp a0 a1) := by
  unfold goUp
  exact kept_pump (ite_mem (fun _ => kept_tremundChanged (kept_updLane (kept_setLaneState h1a))) (fun _ => kept_updLane (kept_setLaneState h1a)))

theorem kept_bringupDo {a0 a1 a2 a3} (h3a : State.memOk a3) : State.memOk (bringupDo a0 a1 a2 a3) := by
  unfold bringupDo
  exact ite_mem (fun _ => h3a) (fun _ => ite_mem (fun _ => kept_nextStep (kept_updLane h3a)) (fun _ => ite_mem (fun _ => ite_mem (fun _ => kept_holdMiswired (kept_notePeer (kept_noteReversed h3a))) (fun _ => kept_sendFill (kept_nextStep (kept_setLaneState (kept_updLane (kept_notePeer (kept_noteReversed h3a))))))) (fun _ => ite_mem (fun _ => ite_mem (fun _ => kept_nextStep h3a) (fun _ => h3a)) (fun _ => ite_mem (fun _ => kept_holdMiswired (kept_notePeer h3a)) (fun _ => kept_goUp (kept_notePeer h3a))))))

theorem kept_execTmBringupStep {a0 a1 a2 a3} (h3a : State.memOk a3) : ∀ t, execTmBringupStep a0 a1 a2 a3 = .next t → State.memOk t := by
  unfold execTmBringupStep
  exact kept_onWf (kept_bringupDo h3a)

theorem kept_tmRetrain {a0 a1} (h1a : State.memOk a1) : State.memOk (tmRetrain a0 a1) := by
  unfold tmRetrain
  exact kept_tremundLeave (kept_record (kept_updLane h1a))

theorem kept_laneRetrainDo {a0 a1} (h1a : State.memOk a1) : State.memOk (laneRetrainDo a0 a1) := by
  unfold laneRetrainDo
  exact ite_mem (fun _ => kept_beginTraining (kept_leaveService h1a)) (fun _ => h1a)

theorem kept_laneHoldDo {a0 a1 a2} (h2a : State.memOk a2) : State.memOk (laneHoldDo a0 a1 a2) := by
  unfold laneHoldDo
  exact ite_mem (fun _ => h2a) (fun _ => ite_mem (fun _ => kept_updLane (ite_mem (fun _ => h2a) (fun _ => kept_leaveService h2a))) (fun _ => kept_beginTraining (kept_setLane h2a)))

theorem kept_laneTestDo {a0 a1 a2} (h2a : State.memOk a2) : State.memOk (laneTestDo a0 a1 a2) := by
  unfold laneTestDo
  exact ite_mem (fun _ => h2a) (fun _ => ite_mem (fun _ => ite_mem (fun _ => kept_updLane (ite_mem (fun _ => kept_leaveService h2a) (fun _ => h2a))) (fun _ => ite_mem (fun _ => kept_setLaneState (kept_updLane (ite_mem (fun _ => kept_leaveService h2a) (fun _ => h2a)))) (fun _ => kept_beginTraining (kept_updLane (ite_mem (fun _ => kept_leaveService h2a) (fun _ => h2a)))))) (fun _ => kept_updLane (ite_mem (fun _ => kept_leaveService h2a) (fun _ => h2a))))

theorem kept_loseLane {a0 a1} (h1a : State.memOk a1) : State.memOk (loseLane a0 a1) := by
  unfold loseLane
  exact ite_mem (fun _ => h1a) (fun _ => ite_mem (fun _ => kept_tremundLeave h1a) (fun _ => ite_mem (fun _ => kept_ethDown h1a) (fun _ => h1a)))

theorem kept_losDo {a0 a1} (h1a : State.memOk a1) : State.memOk (losDo a0 a1) := by
  unfold losDo
  exact ite_mem (fun _ => h1a) (fun _ => ite_mem (fun _ => kept_updLane h1a) (fun _ => kept_loseLane (kept_updLane h1a)))

theorem kept_execLaneLos {a0 a1} (h1a : State.memOk a1) : ∀ t, execLaneLos a0 a1 = .next t → State.memOk t := by
  unfold execLaneLos
  exact kept_onWf (kept_losDo h1a)

theorem kept_loseLock {a0 a1} (h1a : State.memOk a1) : State.memOk (loseLock a0 a1) := by
  unfold loseLock
  exact kept_loseLane (kept_updLane h1a)

theorem kept_lolDo {a0 a1 a2} (h2a : State.memOk a2) : State.memOk (lolDo a0 a1 a2) := by
  unfold lolDo
  exact ite_mem (fun _ => h2a) (fun _ => ite_mem (fun _ => foldl_mem (kept_setGroupCfg h2a) (fun _ _ h0 => kept_loseLock h0)) (fun _ => kept_loseLock h2a))

theorem kept_execLaneLol {a0 a1 a2} (h2a : State.memOk a2) : ∀ t, execLaneLol a0 a1 a2 = .next t → State.memOk t := by
  unfold execLaneLol
  exact kept_onWf (kept_lolDo h2a)

theorem kept_portStateDo {a0 a1 a2} (h2a : State.memOk a2) : State.memOk (portStateDo a0 a1 a2) := by
  unfold portStateDo
  exact ite_mem (fun _ => kept_ethChanged (foldl_mem (foldl_mem h2a (fun _ _ h0 => kept_setLaneState (kept_updLane h0))) (fun _ _ h1 => kept_noteReversed h1))) (fun _ => h2a)

theorem kept_execPortState {a0 a1 a2} (h2a : State.memOk a2) : ∀ t, execPortState a0 a1 a2 = .next t → State.memOk t := by
  unfold execPortState
  exact kept_onWf (kept_portStateDo h2a)

theorem kept_nakRepeatDo {a0 a1} (h1a : State.memOk a1) : State.memOk (nakRepeatDo a0 a1) := by
  unfold nakRepeatDo
  exact ite_mem (fun _ => ite_mem (fun _ => kept_sendFill (kept_updLane h1a)) (fun _ => ite_mem (fun _ => kept_sendIdleBlock (kept_updLane h1a)) (fun _ => kept_updLane h1a))) (fun _ => h1a)

theorem kept_execTmNakRepeat {a0 a1} (h1a : State.memOk a1) : ∀ t, execTmNakRepeat a0 a1 = .next t → State.memOk t := by
  unfold execTmNakRepeat
  exact kept_onWf (kept_nakRepeatDo h1a)

theorem kept_stepTimeoutDo {a0 a1} (h1a : State.memOk a1) : State.memOk (stepTimeoutDo a0 a1) := by
  unfold stepTimeoutDo
  exact ite_mem (fun _ => kept_updLane (kept_clearLane (kept_setLaneState (kept_record h1a)))) (fun _ => h1a)

theorem kept_execTmStepTimeout {a0 a1} (h1a : State.memOk a1) : ∀ t, execTmStepTimeout a0 a1 = .next t → State.memOk t := by
  unfold execTmStepTimeout
  exact kept_onWf (kept_stepTimeoutDo h1a)

theorem kept_retryWaitDo {a0 a1} (h1a : State.memOk a1) : State.memOk (retryWaitDo a0 a1) := by
  unfold retryWaitDo
  split
  · exact h1a
  · exact ite_mem (fun _ => kept_updLane h1a) (fun _ => h1a)

theorem kept_execTmRetryWaitEnd {a0 a1} (h1a : State.memOk a1) : ∀ t, execTmRetryWaitEnd a0 a1 = .next t → State.memOk t := by
  unfold execTmRetryWaitEnd
  exact kept_onWf (kept_retryWaitDo h1a)

theorem kept_dozeDo {a0 a1} (h1a : State.memOk a1) : State.memOk (dozeDo a0 a1) := by
  unfold dozeDo
  exact ite_mem (fun _ => kept_updLane (kept_sendFill h1a)) (fun _ => h1a)

theorem kept_execTmDoze {a0 a1} (h1a : State.memOk a1) : ∀ t, execTmDoze a0 a1 = .next t → State.memOk t := by
  unfold execTmDoze
  exact kept_onWf (kept_dozeDo h1a)

theorem kept_idleDo {a0 a1} (h1a : State.memOk a1) : State.memOk (idleDo a0 a1) := by
  unfold idleDo
  exact ite_mem (fun _ => kept_updLane (kept_sendIdleBlock h1a)) (fun _ => h1a)

theorem kept_execTmIdle {a0 a1} (h1a : State.memOk a1) : ∀ t, execTmIdle a0 a1 = .next t → State.memOk t := by
  unfold execTmIdle
  exact kept_onWf (kept_idleDo h1a)

theorem kept_wakeLane {a0 a1} (h1a : State.memOk a1) : State.memOk (wakeLane a0 a1) := by
  unfold wakeLane
  exact ite_mem (fun _ => kept_sendFill (kept_updLane (ite_mem (fun _ => kept_sendIdleBlock (kept_count h1a)) (fun _ => h1a)))) (fun _ => kept_pump (kept_updLane (ite_mem (fun _ => kept_sendIdleBlock (kept_count h1a)) (fun _ => h1a))))

theorem kept_wakeDo {a0 a1} (h1a : State.memOk a1) : State.memOk (wakeDo a0 a1) := by
  unfold wakeDo
  exact ite_mem (fun _ => kept_wakeLane h1a) (fun _ => h1a)

theorem kept_execTmWake {a0 a1} (h1a : State.memOk a1) : ∀ t, execTmWake a0 a1 = .next t → State.memOk t := by
  unfold execTmWake
  exact kept_onWf (kept_wakeDo h1a)

theorem kept_refreshDo {a0 a1} (h1a : State.memOk a1) : State.memOk (refreshDo a0 a1) := by
  unfold refreshDo
  exact ite_mem (fun _ => kept_sendIdleBlock h1a) (fun _ => h1a)

theorem kept_execTmRefresh {a0 a1} (h1a : State.memOk a1) : ∀ t, execTmRefresh a0 a1 = .next t → State.memOk t := by
  unfold execTmRefresh
  exact kept_onWf (kept_refreshDo h1a)

theorem kept_streamHoldDo {a0 a1 a2} (h2a : State.memOk a2) : State.memOk (streamHoldDo a0 a1 a2) := by
  unfold streamHoldDo
  exact ite_mem (fun _ => (by
    split
    · exact kept_pump h2a
    · exact h2a)) (fun _ => h2a)

theorem kept_execTmStreamHoldEnd {a0 a1 a2} (h2a : State.memOk a2) : ∀ t, execTmStreamHoldEnd a0 a1 a2 = .next t → State.memOk t := by
  unfold execTmStreamHoldEnd
  exact kept_onWf (kept_streamHoldDo h2a)

theorem kept_faultShortDo {a0 a1} (h1a : State.memOk a1) : State.memOk (faultShortDo a0 a1) := by
  unfold faultShortDo
  exact ite_mem (fun _ => h1a) (fun _ => kept_record (kept_updLane (kept_leaveService h1a)))

theorem kept_execFaultShort {a0 a1} (h1a : State.memOk a1) : ∀ t, execFaultShort a0 a1 = .next t → State.memOk t := by
  unfold execFaultShort
  exact kept_onWf (kept_faultShortDo h1a)

theorem kept_shortRetryDo {a0 a1 a2} (h2a : State.memOk a2) : State.memOk (shortRetryDo a0 a1 a2) := by
  unfold shortRetryDo
  exact ite_mem (fun _ => ite_mem (fun _ => kept_setLane h2a) (fun _ => ite_mem (fun _ => kept_setLaneState (kept_setLane h2a)) (fun _ => ite_mem (fun _ => kept_setLaneState (kept_setLane h2a)) (fun _ => kept_beginTraining (kept_setLane h2a))))) (fun _ => h2a)

theorem kept_execFaultShortRetry {a0 a1 a2} (h2a : State.memOk a2) : ∀ t, execFaultShortRetry a0 a1 a2 = .next t → State.memOk t := by
  unfold execFaultShortRetry
  exact kept_onWf (kept_shortRetryDo h2a)

theorem kept_execLaneRetrain {a0 a1 a2} (h2a : State.memOk a2) : ∀ t, execLaneRetrain a0 a1 a2 = .next t → State.memOk t := by
  unfold execLaneRetrain
  exact kept_onWf (kept_gated (fun _ h0 => kept_laneRetrainDo h0) h2a)

theorem kept_execLaneHoldDown {a0 a1 a2 a3} (h3a : State.memOk a3) : ∀ t, execLaneHoldDown a0 a1 a2 a3 = .next t → State.memOk t := by
  unfold execLaneHoldDown
  exact kept_onWf (kept_gated (fun _ h0 => kept_laneHoldDo h0) h3a)

theorem kept_execLaneTest {a0 a1 a2 a3} (h3a : State.memOk a3) : ∀ t, execLaneTest a0 a1 a2 a3 = .next t → State.memOk t := by
  unfold execLaneTest
  exact kept_onWf (kept_gated (fun _ h0 => kept_laneTestDo h0) h3a)

theorem kept_losClearedDo {a0 a1} (h1a : State.memOk a1) : State.memOk (losClearedDo a0 a1) := by
  unfold losClearedDo
  exact ite_mem (fun _ => h1a) (fun _ => kept_updLane h1a)

theorem kept_execLosCleared {a0 a1} (h1a : State.memOk a1) : ∀ t, execLosCleared a0 a1 = .next t → State.memOk t := by
  unfold execLosCleared
  exact kept_onWf (kept_losClearedDo h1a)

theorem kept_execPllLock {a0 a1} (h1a : State.memOk a1) : ∀ t, execPllLock a0 a1 = .next t → State.memOk t := by
  unfold execPllLock
  exact kept_onWf (kept_pllLockDo h1a)

end Sys2Proof
end

