-- ==== Sys2Proof/Laws/Kept/Aes3.lean ====
section
/-! SUPPORT. What `Machine/Aes3.lean` defines keeps the byte memories in their canonical form. -/

set_option linter.unusedVariables false

namespace Sys2Proof

open Machine

theorem kept_setAesOut {a0 a1 a2} (h2a : State.memOk a2) : State.memOk (setAesOut a0 a1 a2) := by
  unfold setAesOut
  exact mk_mem h2a

theorem kept_updAesOut {a0 a1 a2} (h2a : State.memOk a2) : State.memOk (updAesOut a0 a1 a2) := by
  unfold updAesOut
  exact kept_setAesOut h2a

theorem kept_tripOut {a0 a1} (h1a : State.memOk a1) : State.memOk (tripOut a0 a1) := by
  unfold tripOut
  exact kept_count (kept_updAesOut h1a)

theorem kept_aesOutCsDo {a0 a1 a2 a3} (h3a : State.memOk a3) : State.memOk (aesOutCsDo a0 a1 a2 a3) := by
  unfold aesOutCsDo
  exact kept_updAesOut h3a

theorem kept_execAesOutCs {a0 a1 a2 a3 a4} (h4a : State.memOk a4) : ∀ t, execAesOutCs a0 a1 a2 a3 a4 = .next t → State.memOk t := by
  unfold execAesOutCs
  exact kept_onWf (kept_gated (fun _ h0 => kept_aesOutCsDo h0) h4a)

theorem kept_setAesIn {a0 a1 a2} (h2a : State.memOk a2) : State.memOk (setAesIn a0 a1 a2) := by
  unfold setAesIn
  exact mk_mem h2a

theorem kept_updAesIn {a0 a1 a2} (h2a : State.memOk a2) : State.memOk (updAesIn a0 a1 a2) := by
  unfold updAesIn
  exact kept_setAesIn h2a

theorem kept_aesEvent {a0 a1} (h1a : State.memOk a1) : State.memOk (aesEvent a0 a1) := by
  unfold aesEvent
  exact kept_pfVector (mk_mem h1a)

theorem kept_realigned {a0 a1 a2 a3 a4} (h4a : State.memOk a4) : State.memOk (realigned a0 a1 a2 a3 a4) := by
  unfold realigned
  split
  · exact h4a
  · exact kept_record (kept_aesEvent h4a)

theorem kept_inDiscard {a0 a1} (h1a : State.memOk a1) : State.memOk (inDiscard a0 a1) := by
  unfold inDiscard
  exact ite_mem (fun _ => h1a) (fun _ => ite_mem (fun _ => kept_updAesIn (kept_realigned (kept_count (kept_setAesIn h1a)))) (fun _ => kept_count (kept_setAesIn h1a)))

theorem kept_aesTake {a0 a1} (h1a : State.memOk a1) : State.memOk (aesTake a0 a1).2.2 := by
  have h1 : State.memOk (updAesIn a0 steerIn (inDiscard a0 a1)) := kept_updAesIn (kept_inDiscard h1a)
  unfold aesTake
  revert h1
  generalize updAesIn a0 steerIn (inDiscard a0 a1) = s
  intro h1
  by_cases c1 : (aesIn a0 s).mute = 2
  · simp only [c1, if_true]; exact h1
  by_cases c2 : 48 ≤ (aesIn a0 s).pad
  · simp only [c1, c2, if_true, if_false]; exact kept_setAesIn h1
  by_cases c3 : (aesIn a0 s).mute = 3
  · simp only [c2, c3, if_true, if_false]
    by_cases c4 : (aesIn a0 s).buf.length < 48 + (if (aesIn a0 s).pad = 0 then 48 else 0)
    · rw [if_neg (by decide), if_pos c4]; exact h1
    · rw [if_neg (by decide), if_neg c4]; exact kept_setAesIn h1
  · simp only [c1, c2, c3, if_false]
    split
    · exact kept_setAesIn h1
    · exact kept_count (kept_setAesIn h1)

theorem kept_setSense {a0 a1 a2} (h2a : State.memOk a2) : State.memOk (setSense a0 a1 a2) := by
  unfold setSense
  exact ite_mem (fun _ => kept_updAesIn h2a) (fun _ => kept_updAesOut h2a)

theorem kept_lineMeasureDo {a0 a1 a2 a3} (h3a : State.memOk a3) : State.memOk (lineMeasureDo a0 a1 a2 a3) := by
  unfold lineMeasureDo
  exact ite_mem (fun _ => ite_mem (fun _ => ite_mem (fun _ => kept_updAesIn (kept_record (kept_aesEvent (kept_setSense h3a)))) (fun _ => kept_record (kept_aesEvent (kept_setSense h3a)))) (fun _ => ite_mem (fun _ => kept_tripOut (kept_record (kept_aesEvent (kept_setSense h3a)))) (fun _ => kept_record (kept_aesEvent (kept_setSense h3a))))) (fun _ => kept_setSense h3a)

theorem kept_aesSteer {a0 a1} (h1a : State.memOk a1) : State.memOk (aesSteer a0 a1) := by
  unfold aesSteer
  exact ite_mem (fun _ => h1a) (fun _ => ite_mem (fun _ => kept_setAesOut h1a) (fun _ => kept_setAesOut h1a))

theorem kept_keepGroups {a0 a1} (h0a : State.memOk a0) (h1a : State.memOk a1) : State.memOk (keepGroups a0 a1) := by
  unfold keepGroups
  exact ite_mem (fun _ => h1a) (fun _ => kept_aesEvent h0a)

theorem kept_aesInCfgDo {a0 a1 a2} (h2a : State.memOk a2) : State.memOk (aesInCfgDo a0 a1 a2) := by
  unfold aesInCfgDo
  exact ite_mem (fun _ => h2a) (fun _ => kept_keepGroups h2a (kept_setAesIn h2a))

theorem kept_startOut {a0 a1} (h1a : State.memOk a1) : State.memOk (startOut a0 a1) := by
  unfold startOut
  exact ite_mem (fun _ => kept_tripOut (kept_setAesOut h1a)) (fun _ => kept_setAesOut h1a)

theorem kept_aesOutCfgDo {a0 a1 a2} (h2a : State.memOk a2) : State.memOk (aesOutCfgDo a0 a1 a2) := by
  unfold aesOutCfgDo
  exact ite_mem (fun _ => h2a) (fun _ => ite_mem (fun _ => ite_mem (fun _ => kept_updAesOut (kept_setAesOut h2a)) (fun _ => ite_mem (fun _ => kept_updAesOut (kept_setAesOut h2a)) (fun _ => ite_mem (fun _ => kept_startOut (kept_setAesOut h2a)) (fun _ => kept_setAesOut h2a)))) (fun _ => kept_aesEvent h2a))

theorem kept_setAesGroup {a0 a1 a2} (h2a : State.memOk a2) : State.memOk (setAesGroup a0 a1 a2) := by
  unfold setAesGroup
  exact mk_mem h2a

theorem kept_aesGroupCfgDo {a0 a1 a2} (h2a : State.memOk a2) : State.memOk (aesGroupCfgDo a0 a1 a2) := by
  unfold aesGroupCfgDo
  exact kept_keepGroups h2a (kept_setAesGroup h2a)

theorem kept_aesMaskDo {a0 a1 a2} (h2a : State.memOk a2) : State.memOk (aesMaskDo a0 a1 a2) := by
  unfold aesMaskDo
  exact kept_setAesGroup h2a

theorem kept_wakeOut {a0 a1} (h1a : State.memOk a1) : State.memOk (wakeOut a0 a1) := by
  unfold wakeOut
  exact ite_mem (fun _ => kept_startOut h1a) (fun _ => h1a)

theorem kept_aesOutBlock {a0 a1 a2} (h2a : State.memOk a2) : State.memOk (aesOutBlock a0 a1 a2) := by
  unfold aesOutBlock
  exact ite_mem (fun _ => h2a) (fun _ => ite_mem (fun _ => kept_realigned (ite_mem (fun _ => ite_mem (fun _ => kept_setAesOut h2a) (fun _ => kept_count (kept_setAesOut h2a))) (fun _ => kept_count (ite_mem (fun _ => kept_setAesOut h2a) (fun _ => kept_count (kept_setAesOut h2a)))))) (fun _ => ite_mem (fun _ => ite_mem (fun _ => kept_setAesOut h2a) (fun _ => kept_count (kept_setAesOut h2a))) (fun _ => kept_count (ite_mem (fun _ => kept_setAesOut h2a) (fun _ => kept_count (kept_setAesOut h2a))))))

theorem kept_parkOut {a0 a1} (h1a : State.memOk a1) : State.memOk (parkOut a0 a1) := by
  unfold parkOut
  exact ite_mem (fun _ => kept_updAesOut h1a) (fun _ => h1a)

theorem kept_execLineMeasure {a0 a1 a2 a3} (h3a : State.memOk a3) : ∀ t, execLineMeasure a0 a1 a2 a3 = .next t → State.memOk t := by
  unfold execLineMeasure
  exact kept_onWf (kept_lineMeasureDo h3a)

theorem kept_alignIn {a0 a1 a2} (h2a : State.memOk a2) : State.memOk (alignIn a0 a1 a2) := by
  unfold alignIn
  split
  · exact h2a
  · exact ite_mem (fun _ => kept_setAesIn h2a) (fun _ => ite_mem (fun _ => kept_setAesIn h2a) (fun _ => kept_setAesIn h2a))

theorem kept_aesLockDo {a0 a1 a2 a3 a4} (h4a : State.memOk a4) : State.memOk (aesLockDo a0 a1 a2 a3 a4) := by
  unfold aesLockDo
  exact ite_mem (fun _ => h4a) (fun _ => ite_mem (fun _ => ite_mem (fun _ => kept_alignIn h4a) (fun _ => h4a)) (fun _ => ite_mem (fun _ => kept_setAesIn h4a) (fun _ => ite_mem (fun _ => h4a) (fun _ => kept_alignIn (kept_setAesIn h4a)))))

theorem kept_execAesLock {a0 a1 a2 a3 a4} (h4a : State.memOk a4) : ∀ t, execAesLock a0 a1 a2 a3 a4 = .next t → State.memOk t := by
  unfold execAesLock
  exact kept_onWf (kept_aesLockDo h4a)

theorem kept_aesUnlockDo {a0 a1} (h1a : State.memOk a1) : State.memOk (aesUnlockDo a0 a1) := by
  unfold aesUnlockDo
  exact ite_mem (fun _ => kept_count (kept_setAesIn h1a)) (fun _ => h1a)

theorem kept_execAesUnlock {a0 a1} (h1a : State.memOk a1) : ∀ t, execAesUnlock a0 a1 = .next t → State.memOk t := by
  unfold execAesUnlock
  exact kept_onWf (kept_aesUnlockDo h1a)

theorem kept_csBlockDo {a0 a1 a2} (h2a : State.memOk a2) : State.memOk (csBlockDo a0 a1 a2) := by
  unfold csBlockDo
  exact ite_mem (fun _ => h2a) (fun _ => ite_mem (fun _ => kept_count h2a) (fun _ => kept_setAesIn h2a))

theorem kept_execCsBlockRx {a0 a1 a2} (h2a : State.memOk a2) : ∀ t, execCsBlockRx a0 a1 a2 = .next t → State.memOk t := by
  unfold execCsBlockRx
  exact kept_onWf (kept_csBlockDo h2a)

theorem kept_sendAes {a0 a1 a2 a3} (h3a : State.memOk a3) : State.memOk (sendAes a0 a1 a2 a3) := by
  unfold sendAes
  exact ite_mem (fun _ => kept_setAesOut h3a) (fun _ => kept_emit (kept_setAesOut h3a))

theorem kept_frameDueDo {a0 a1} (h1a : State.memOk a1) : State.memOk (frameDueDo a0 a1) := by
  unfold frameDueDo
  exact ite_mem (fun _ => h1a) (fun _ => (by
    split
    · exact kept_sendAes (kept_setAesOut h1a)
    · exact kept_sendAes (kept_count (kept_setAesOut h1a))))

theorem kept_execAesOutFrameDue {a0 a1} (h1a : State.memOk a1) : ∀ t, execAesOutFrameDue a0 a1 = .next t → State.memOk t := by
  unfold execAesOutFrameDue
  exact kept_onWf (kept_frameDueDo h1a)

theorem kept_shortTripDo {a0 a1 a2} (h2a : State.memOk a2) : State.memOk (shortTripDo a0 a1 a2) := by
  unfold shortTripDo
  exact ite_mem (fun _ => ite_mem (fun _ => kept_tripOut h2a) (fun _ => kept_setAesOut h2a)) (fun _ => h2a)

theorem kept_execShortTripRetry {a0 a1 a2} (h2a : State.memOk a2) : ∀ t, execShortTripRetry a0 a1 a2 = .next t → State.memOk t := by
  unfold execShortTripRetry
  exact kept_onWf (kept_shortTripDo h2a)

theorem kept_groupBlockStart {a0 a1} (h1a : State.memOk a1) : State.memOk (groupBlockStart a0 a1) := by
  unfold groupBlockStart
  exact kept_setAesGroup h1a

theorem kept_csStartDo {a0 a1} (h1a : State.memOk a1) : State.memOk (csStartDo a0 a1) := by
  unfold csStartDo
  extract_lets -merge -underBinder +onlyGivenNames x0
  try clear_value x0
  extract_lets -merge -underBinder +onlyGivenNames x1
  try clear_value x1
  extract_lets -merge -underBinder +onlyGivenNames x2
  try clear_value x2
  extract_lets -merge -underBinder +onlyGivenNames x3
  try clear_value x3
  refine ite_mem (fun _ => ?_) (fun _ => ?_)
  · assumption
  · extract_lets -merge -underBinder +onlyGivenNames x4
    have h5 : State.memOk (x4) := by
      unfold x4
      refine ite_mem (fun _ => ?_) (fun _ => ?_)
      · refine kept_updAesOut ?_
        assumption
      · assumption
    try clear_value x4
    split
    · assumption
    · refine ite_mem (fun _ => ?_) (fun _ => ?_)
      · refine kept_groupBlockStart ?_
        assumption
      · assumption

theorem kept_execAesCsBlockStart {a0 a1} (h1a : State.memOk a1) : ∀ t, execAesCsBlockStart a0 a1 = .next t → State.memOk t := by
  unfold execAesCsBlockStart
  exact kept_onWf (kept_csStartDo h1a)

theorem kept_execAesGroupMask {a0 a1 a2 a3} (h3a : State.memOk a3) : ∀ t, execAesGroupMask a0 a1 a2 a3 = .next t → State.memOk t := by
  unfold execAesGroupMask
  exact kept_onWf (kept_gated (fun _ h0 => kept_aesMaskDo h0) h3a)

theorem kept_aesFrameDo {a0 a1 a2 a3} (h3a : State.memOk a3) : State.memOk (aesFrameDo a0 a1 a2 a3) := by
  unfold aesFrameDo
  exact ite_mem (fun _ => h3a) (fun _ => ite_mem (fun _ => kept_setAesIn (ite_mem (fun _ => kept_count (ite_mem (fun _ => h3a) (fun _ => kept_count h3a))) (fun _ => ite_mem (fun _ => h3a) (fun _ => kept_count h3a)))) (fun _ => kept_count (kept_setAesIn (ite_mem (fun _ => kept_count (ite_mem (fun _ => h3a) (fun _ => kept_count h3a))) (fun _ => ite_mem (fun _ => h3a) (fun _ => kept_count h3a))))))

theorem kept_execAesInFrameRx {a0 a1 a2 a3} (h3a : State.memOk a3) : ∀ t, execAesInFrameRx a0 a1 a2 a3 = .next t → State.memOk t := by
  unfold execAesInFrameRx
  exact kept_onWf (kept_aesFrameDo h3a)

end Sys2Proof
end

