-- ==== Sys2Proof/Laws/Kept/Keys.lean ====
section
/-! SUPPORT. What `Machine/Keys.lean` defines keeps the byte memories in their canonical form. -/

set_option linter.unusedVariables false

namespace Sys2Proof

open Machine

theorem kept_setSlot {a0 a1 a2} (h2a : State.memOk a2) : State.memOk (setSlot a0 a1 a2) := by
  unfold setSlot
  exact mk_mem h2a

theorem kept_updSlot {a0 a1 a2} (h2a : State.memOk a2) : State.memOk (updSlot a0 a1 a2) := by
  unfold updSlot
  exact kept_setSlot h2a

theorem kept_breakSlot {a0 a1} (h1a : State.memOk a1) : State.memOk (breakSlot a0 a1) := by
  unfold breakSlot
  exact kept_record (kept_updSlot h1a)

theorem kept_fetchSlot {a0 a1 a2} (h2a : State.memOk a2) : State.memOk (fetchSlot a0 a1 a2) := by
  unfold fetchSlot
  exact ite_mem (fun _ => kept_breakSlot (ite_mem (fun _ => kept_count (kept_wake (mk_mem h2a))) (fun _ => kept_wake (mk_mem h2a)))) (fun _ => ite_mem (fun _ => kept_count (kept_wake (mk_mem h2a))) (fun _ => kept_wake (mk_mem h2a)))

theorem kept_lookupSlot {a0 a1 a2} (h2a : State.memOk a2) : State.memOk (lookupSlot a0 a1 a2) := by
  unfold lookupSlot
  exact ite_mem (fun _ => kept_count (mk_mem h2a)) (fun _ => kept_fetchSlot (kept_count h2a))

theorem kept_indexThresholds {a0 a1 a2 a3 a4 a5 a6} (h6a : State.memOk a6) : State.memOk (indexThresholds a0 a1 a2 a3 a4 a5 a6) := by
  unfold indexThresholds
  exact ite_mem (fun _ => kept_record (kept_updSlot (ite_mem (fun _ => kept_enginePost (kept_updSlot h6a)) (fun _ => h6a)))) (fun _ => ite_mem (fun _ => kept_enginePost (kept_updSlot h6a)) (fun _ => h6a))

theorem kept_takeHash {a0 a1 a2 a3} (h3a : State.memOk a3) : State.memOk (takeHash a0 a1 a2 a3).2 := by
  unfold takeHash
  exact ite_snd_mem (fun _ => mk_snd_mem h3a) (fun _ => ite_snd_mem (fun _ => mk_snd_mem (kept_count (mk_mem h3a))) (fun _ => mk_snd_mem (mk_mem h3a)))

theorem kept_protect {a0 a1 a2 a3 a4 a5 a6} (h6a : State.memOk a6) : State.memOk (protect a0 a1 a2 a3 a4 a5 a6).2 := by
  unfold protect
  exact ite_snd_mem (fun _ => mk_snd_mem (kept_count (kept_updSlot (kept_lookupSlot h6a)))) (fun _ => ite_snd_mem (fun _ => mk_snd_mem (kept_count (kept_lookupSlot h6a))) (fun _ => ite_snd_mem (fun _ => mk_snd_mem (kept_lookupSlot h6a)) (fun _ => ite_snd_mem (fun _ => mk_snd_mem (kept_count (kept_updSlot (kept_lookupSlot h6a)))) (fun _ => mk_snd_mem (kept_count (kept_takeHash (kept_indexThresholds (kept_setSlot (kept_lookupSlot h6a)))))))))

theorem kept_notOwned5 {a0} (h0a : State.memOk a0) : State.memOk (notOwned5 a0).1 := by
  unfold notOwned5
  exact kept_answer h0a

theorem kept_setErasing {a0 a1} (h1a : State.memOk a1) : State.memOk (setErasing a0 a1) := by
  unfold setErasing
  exact kept_updSlot h1a

theorem kept_startOp {a0 a1} (h1a : State.memOk a1) : State.memOk (startOp a0 a1).2 := by
  unfold startOp
  exact ite_snd_mem (fun _ => mk_snd_mem (kept_count (kept_updSlot (kept_lookupSlot h1a)))) (fun _ => ite_snd_mem (fun _ => mk_snd_mem (kept_count (kept_lookupSlot h1a))) (fun _ => mk_snd_mem (kept_takeHash (kept_lookupSlot h1a))))

theorem kept_writeRecord {a0 a1} (h1a : State.memOk a1) : State.memOk (writeRecord a0 a1) := by
  unfold writeRecord
  exact foldl_mem (kept_wake (kept_updSlot h1a)) (fun _ _ h0 => kept_serveBurst h0)

theorem kept_hostPut {a0 a1 a2} (h2a : State.memOk a2) : State.memOk (hostPut a0 a1 a2) := ⟨h2a.1, Mem.wf_writeBytes h2a.2⟩

theorem kept_freeSlotNow {a0 a1} (h1a : State.memOk a1) : State.memOk (freeSlotNow a0 a1) := by
  unfold freeSlotNow
  exact kept_releaseId (kept_setSlot h1a)

theorem kept_consumeToken {a0} (h0a : State.memOk a0) : State.memOk (consumeToken a0) := by
  unfold consumeToken
  exact mk_mem h0a

theorem kept_startOps {a0 a1} (h1a : State.memOk a1) : State.memOk (startOps a0 a1) := by
  induction a0 generalizing a1 with
  | nil => exact h1a
  | cons o rest ih =>
    simp only [startOps]
    refine ite_mem (fun _ => ih h1a) (fun _ => ?_)
    split
    · exact ih (mk_mem (kept_startOp h1a))
    · exact ih (mk_mem (kept_startOp h1a))

theorem kept_enterCipher {a0 a1} (h1a : State.memOk a1) : State.memOk (enterCipher a0 a1) := by
  unfold enterCipher
  exact kept_startOps (mk_mem h1a)

theorem kept_settleDrain {a0 a1} (h1a : State.memOk a1) : State.memOk (settleDrain a0 a1) := by
  unfold settleDrain
  exact ite_mem (fun _ => kept_updSlot h1a) (fun _ => h1a)

theorem kept_endOp {a0 a1} (h1a : State.memOk a1) : State.memOk (endOp a0 a1).2 := by
  unfold endOp
  extract_lets -merge -underBinder +onlyGivenNames x0
  have h1 : State.memOk (x0) := by
    unfold x0
    refine mk_mem ?_
    assumption
  try clear_value x0
  extract_lets -merge -underBinder +onlyGivenNames x2
  try clear_value x2
  extract_lets -merge -underBinder +onlyGivenNames x3
  try clear_value x3
  split
  · extract_lets -merge -underBinder +onlyGivenNames x4
    have h5 : State.memOk (x4) := by
      unfold x4
      refine kept_setSlot ?_
      assumption
    try clear_value x4
    extract_lets -merge -underBinder +onlyGivenNames x6
    have h7 : State.memOk (x6) := by
      unfold x6
      refine ite_mem (fun _ => ?_) (fun _ => ?_)
      · assumption
      · refine kept_count ?_
        assumption
    try clear_value x6
    extract_lets -merge -underBinder +onlyGivenNames x8
    have h9 : State.memOk (x8) := by
      unfold x8
      refine kept_settleDrain ?_
      assumption
    try clear_value x8
    refine mk_snd_mem ?_
    refine kept_startOps ?_
    refine kept_count ?_
    assumption
  · extract_lets -merge -underBinder +onlyGivenNames x10
    have h11 : State.memOk (x10) := by
      unfold x10
      split
      · refine kept_count ?_
        refine kept_setSlot ?_
        assumption
      · refine kept_count ?_
        refine kept_setSlot ?_
        assumption
    try clear_value x10
    extract_lets -merge -underBinder +onlyGivenNames x12
    have h13 : State.memOk (x12) := by
      unfold x12
      refine kept_settleDrain ?_
      assumption
    try clear_value x12
    refine mk_snd_mem ?_
    refine kept_startOps ?_
    assumption

theorem kept_takeRecords {a0 a1 a2 a3} (h3a : State.memOk a3) : State.memOk (takeRecords a0 a1 a2 a3) := by
  unfold takeRecords
  exact kept_updSlot h3a

theorem kept_pinSlot {a0 a1 a2} (h2a : State.memOk a2) : State.memOk (pinSlot a0 a1 a2) := by
  unfold pinSlot
  exact ite_mem (fun _ => h2a) (fun _ => kept_fetchSlot h2a)

theorem kept_wrongState {a0} (h0a : State.memOk a0) : State.memOk (wrongState a0).1 := by
  unfold wrongState
  exact kept_answer h0a

theorem kept_keyProvisionBody {a0 a1} (h1a : State.memOk a1) : State.memOk (keyProvisionBody a0 a1).1 := by
  unfold keyProvisionBody
  exact ite_fst_mem (fun _ => kept_notOwned5 h1a) (fun _ => ite_fst_mem (fun _ => kept_wrongState h1a) (fun _ => kept_answer (mk_mem h1a)))

theorem kept_execKeyProvision {a0 a1} (h1a : State.memOk a1) : ∀ t, execKeyProvision a0 a1 = .next t → State.memOk t := by
  unfold execKeyProvision
  exact kept_onWf (kept_command (fun _ _ h0 => kept_strictly (fun _ _ h1 => kept_keyProvisionBody h1) h0) h1a)

theorem kept_notBlank {a0 a1 a2} (h0a : ∀ z0 z1, State.memOk (z1) → State.memOk (a0 z0 z1).1) (h2a : State.memOk a2) : State.memOk (notBlank a0 a1 a2).1 := by
  unfold notBlank
  exact ite_fst_mem (fun _ => kept_wrongState h2a) (fun _ => h0a _ _ h2a)

theorem kept_eraseKeks {a0} (h0a : State.memOk a0) : State.memOk (eraseKeks a0) := by
  unfold eraseKeks
  exact mk_mem h0a

theorem kept_keyTokenBody {a0 a1} (h1a : State.memOk a1) : State.memOk (keyTokenBody a0 a1).1 := by
  unfold keyTokenBody
  exact ite_fst_mem (fun _ => kept_answer h1a) (fun _ => ite_fst_mem (fun _ => kept_wrongState h1a) (fun _ => ite_fst_mem (fun _ => kept_answer h1a) (fun _ => ite_fst_mem (fun _ => kept_answer (mk_mem (kept_consumeToken h1a))) (fun _ => ite_fst_mem (fun _ => kept_answer (mk_mem (kept_eraseKeks (kept_consumeToken h1a)))) (fun _ => mk_fst_mem (mk_mem (foldl_mem (kept_consumeToken h1a) (fun _ _ h0 => kept_setErasing h0))))))))

theorem kept_execKeyToken {a0 a1} (h1a : State.memOk a1) : ∀ t, execKeyToken a0 a1 = .next t → State.memOk t := by
  unfold execKeyToken
  exact kept_onWf (kept_command (fun _ _ h0 => kept_notBlank (fun _ _ h1 => kept_strictly (fun _ _ h2 => kept_keyTokenBody h2) h1) h0) h1a)

theorem kept_unwrapFail {a0 a1 a2} (h2a : State.memOk a2) : State.memOk (unwrapFail a0 a1 a2).1 := by
  unfold unwrapFail
  exact kept_answer (kept_recordBy (kept_count h2a))

theorem kept_kekInstallBody {a0 a1} (h1a : State.memOk a1) : State.memOk (kekInstallBody a0 a1).1 := by
  unfold kekInstallBody
  exact ite_fst_mem (fun _ => kept_notOwned5 h1a) (fun _ => ite_fst_mem (fun _ => kept_answer h1a) (fun _ => (by
    split
    · exact kept_answer h1a
    · split
      · exact kept_unwrapFail h1a
      · exact ite_fst_mem (fun _ => kept_answer h1a) (fun _ => ite_fst_mem (fun _ => kept_answer h1a) (fun _ => kept_answer (mk_mem h1a))))))

theorem kept_execKeyKekInstall {a0 a1} (h1a : State.memOk a1) : ∀ t, execKeyKekInstall a0 a1 = .next t → State.memOk t := by
  unfold execKeyKekInstall
  exact kept_onWf (kept_command (fun _ _ h0 => kept_notBlank (fun _ _ h1 => kept_strictly (fun _ _ h2 => kept_kekInstallBody h2) h1) h0) h1a)

theorem kept_kekEraseBody {a0 a1} (h1a : State.memOk a1) : State.memOk (kekEraseBody a0 a1).1 := by
  unfold kekEraseBody
  exact ite_fst_mem (fun _ => kept_notOwned5 h1a) (fun _ => kept_answer (mk_mem h1a))

theorem kept_execKeyKekErase {a0 a1} (h1a : State.memOk a1) : ∀ t, execKeyKekErase a0 a1 = .next t → State.memOk t := by
  unfold execKeyKekErase
  exact kept_onWf (kept_command (fun _ _ h0 => kept_notBlank (fun _ _ h1 => kept_strictly (fun _ _ h2 => kept_kekEraseBody h2) h1) h0) h1a)

theorem kept_takeSlot {a0 a1 a2} (h2a : State.memOk a2) : State.memOk (takeSlot a0 a1 a2) := by
  unfold takeSlot
  exact kept_writeRecord (kept_setSlot (kept_allocId h2a))

theorem kept_readSession {a0 a1 a2 a3 a4} (h3a : State.memOk a3) (h4a : ∀ z0, State.memOk (a4 z0).1) : State.memOk (readSession a0 a1 a2 a3 a4).1 := by
  unfold readSession
  exact ite_fst_mem (fun _ => kept_answer h3a) (fun _ => ite_fst_mem (fun _ => kept_notOwned5 h3a) (fun _ => (by
    split
    · exact kept_answer h3a
    · split
      · exact kept_unwrapFail h3a
      · exact ite_fst_mem (fun _ => h4a _) (fun _ => kept_answer h3a))))

theorem kept_loadSession {a0 a1 a2 a3} (h3a : State.memOk a3) : State.memOk (loadSession a0 a1 a2 a3) := by
  unfold loadSession
  exact kept_writeRecord (kept_setSlot (mk_mem h3a))

theorem kept_slotAllocBody {a0 a1} (h1a : State.memOk a1) : State.memOk (slotAllocBody a0 a1).1 := by
  unfold slotAllocBody
  exact ite_fst_mem (fun _ => kept_answer h1a) (fun _ => ite_fst_mem (fun _ => (by
    split
    · exact kept_answer h1a
    · exact kept_answer (kept_takeSlot h1a))) (fun _ => kept_readSession h1a (fun _ => (by
    split
    · exact kept_answer h1a
    · exact kept_answer (kept_loadSession (kept_takeSlot h1a))))))

theorem kept_execKeySlotAlloc {a0 a1} (h1a : State.memOk a1) : ∀ t, execKeySlotAlloc a0 a1 = .next t → State.memOk t := by
  unfold execKeySlotAlloc
  exact kept_onWf (kept_command (fun _ _ h0 => kept_notBlank (fun _ _ h1 => kept_strictly (fun _ _ h2 => kept_slotAllocBody h2) h1) h0) h1a)

theorem kept_withSlot {a0 a1 a2 a3} (h2a : State.memOk a2) (h3a : ∀ z0, State.memOk (a3 z0).1) : State.memOk (withSlot a0 a1 a2 a3).1 := by
  unfold withSlot
  split
  · exact kept_answer h2a
  · exact kept_answer (kept_count h2a)
  · exact ite_fst_mem (fun _ => h3a _) (fun _ => kept_notOwned5 h2a)

theorem kept_slotLoadBody {a0 a1} (h1a : State.memOk a1) : State.memOk (slotLoadBody a0 a1).1 := by
  unfold slotLoadBody
  exact kept_withSlot h1a (fun _ => ite_fst_mem (fun _ => kept_wrongState h1a) (fun _ => ite_fst_mem (fun _ => kept_answer h1a) (fun _ => kept_readSession h1a (fun _ => ite_fst_mem (fun _ => kept_answer h1a) (fun _ => kept_answer (kept_loadSession h1a))))))

theorem kept_execKeySlotLoad {a0 a1} (h1a : State.memOk a1) : ∀ t, execKeySlotLoad a0 a1 = .next t → State.memOk t := by
  unfold execKeySlotLoad
  exact kept_onWf (kept_command (fun _ _ h0 => kept_notBlank (fun _ _ h1 => kept_strictly (fun _ _ h2 => kept_slotLoadBody h2) h1) h0) h1a)

theorem kept_slotEraseBody {a0 a1} (h1a : State.memOk a1) : State.memOk (slotEraseBody a0 a1).1 := by
  unfold slotEraseBody
  exact kept_withSlot h1a (fun _ => mk_fst_mem (kept_setProgress (kept_updSlot (kept_setErasing h1a))))

theorem kept_execKeySlotErase {a0 a1} (h1a : State.memOk a1) : ∀ t, execKeySlotErase a0 a1 = .next t → State.memOk t := by
  unfold execKeySlotErase
  exact kept_onWf (kept_command (fun _ _ h0 => kept_notBlank (fun _ _ h1 => kept_strictly (fun _ _ h2 => kept_slotEraseBody h2) h1) h0) h1a)

theorem kept_slotReleaseBody {a0 a1} (h1a : State.memOk a1) : State.memOk (slotReleaseBody a0 a1).1 := by
  unfold slotReleaseBody
  exact kept_withSlot h1a (fun _ => ite_fst_mem (fun _ => kept_answer h1a) (fun _ => ite_fst_mem (fun _ => kept_answer (kept_freeSlotNow h1a)) (fun _ => mk_fst_mem (kept_updSlot (kept_setErasing h1a)))))

theorem kept_execKeySlotRelease {a0 a1} (h1a : State.memOk a1) : ∀ t, execKeySlotRelease a0 a1 = .next t → State.memOk t := by
  unfold execKeySlotRelease
  exact kept_onWf (kept_command (fun _ _ h0 => kept_notBlank (fun _ _ h1 => kept_strictly (fun _ _ h2 => kept_slotReleaseBody h2) h1) h0) h1a)

theorem kept_takeCounter {a0} (h0a : State.memOk a0) : State.memOk (takeCounter a0).2 := by
  unfold takeCounter
  exact mk_snd_mem (mk_mem h0a)

theorem kept_writeSnapshot {a0 a1 a2} (h2a : State.memOk a2) : State.memOk (writeSnapshot a0 a1 a2) := by
  unfold writeSnapshot
  exact ite_mem (fun _ => kept_hostPut h2a) (fun _ => kept_hostPut (kept_takeCounter h2a))

theorem kept_ctxSaveBody {a0 a1} (h1a : State.memOk a1) : State.memOk (ctxSaveBody a0 a1).1 := by
  unfold ctxSaveBody
  exact kept_withSlot h1a (fun _ => ite_fst_mem (fun _ => kept_answer h1a) (fun _ => (by
    split
    · exact kept_answer h1a
    · exact ite_fst_mem (fun _ => (by
        split
        · exact kept_wrongState h1a
        · exact mk_fst_mem (kept_updSlot h1a))) (fun _ => kept_answer (kept_writeSnapshot h1a)))))

theorem kept_execKeyCtxSave {a0 a1} (h1a : State.memOk a1) : ∀ t, execKeyCtxSave a0 a1 = .next t → State.memOk t := by
  unfold execKeyCtxSave
  exact kept_onWf (kept_command (fun _ _ h0 => kept_notBlank (fun _ _ h1 => kept_strictly (fun _ _ h2 => kept_ctxSaveBody h2) h1) h0) h1a)

theorem kept_restoreInto {a0 a1 a2 a3 a4} (h4a : State.memOk a4) : State.memOk (restoreInto a0 a1 a2 a3 a4) := by
  unfold restoreInto
  exact kept_writeRecord (kept_setSlot (mk_mem (kept_allocId h4a)))

theorem kept_ctxRestoreBody {a0 a1} (h1a : State.memOk a1) : State.memOk (ctxRestoreBody a0 a1).1 := by
  unfold ctxRestoreBody
  exact ite_fst_mem (fun _ => kept_answer h1a) (fun _ => ite_fst_mem (fun _ => kept_answer h1a) (fun _ => ite_fst_mem (fun _ => kept_notOwned5 h1a) (fun _ => ite_fst_mem (fun _ => (by
    split
    · exact kept_answer h1a
    · exact kept_answer (kept_restoreInto h1a))) (fun _ => ite_fst_mem (fun _ => kept_answer h1a) (fun _ => ite_fst_mem (fun _ => kept_unwrapFail h1a) (fun _ => (by
    split
    · exact kept_unwrapFail h1a
    · split
      · exact kept_answer h1a
      · exact kept_answer (kept_restoreInto h1a))))))))

theorem kept_execKeyCtxRestore {a0 a1} (h1a : State.memOk a1) : ∀ t, execKeyCtxRestore a0 a1 = .next t → State.memOk t := by
  unfold execKeyCtxRestore
  exact kept_onWf (kept_command (fun _ _ h0 => kept_notBlank (fun _ _ h1 => kept_strictly (fun _ _ h2 => kept_ctxRestoreBody h2) h1) h0) h1a)

theorem kept_slotReadBody {a0 a1} (h1a : State.memOk a1) : State.memOk (slotReadBody a0 a1).1 := by
  unfold slotReadBody
  exact kept_withSlot h1a (fun _ => kept_answer (ite_mem (fun _ => kept_updSlot (kept_hostPut h1a)) (fun _ => kept_hostPut h1a)))

theorem kept_execKeySlotRead {a0 a1} (h1a : State.memOk a1) : ∀ t, execKeySlotRead a0 a1 = .next t → State.memOk t := by
  unfold execKeySlotRead
  exact kept_onWf (kept_command (fun _ _ h0 => kept_strictly (fun _ _ h1 => kept_slotReadBody h1) h0) h1a)

theorem kept_retireCheckBody {a0 a1} (h1a : State.memOk a1) : State.memOk (retireCheckBody a0 a1).1 := by
  unfold retireCheckBody
  exact kept_answer h1a

theorem kept_execKeyTokenRetireCheck {a0 a1} (h1a : State.memOk a1) : ∀ t, execKeyTokenRetireCheck a0 a1 = .next t → State.memOk t := by
  unfold execKeyTokenRetireCheck
  exact kept_onWf (kept_command (fun _ _ h0 => kept_notBlank (fun _ _ h1 => kept_strictly (fun _ _ h2 => kept_retireCheckBody h2) h1) h0) h1a)

theorem kept_settleDebug {a0} (h0a : State.memOk a0) : State.memOk (settleDebug a0) := by
  unfold settleDebug
  exact ite_mem (fun _ => h0a) (fun _ => ite_mem (fun _ => foldl_mem (mk_mem h0a) (fun _ _ h0 => kept_complete h0)) (fun _ => ite_mem (fun _ => foldl_mem h0a (fun _ _ h1 => kept_setErasing h1)) (fun _ => foldl_mem (mk_mem (kept_eraseKeks (mk_mem h0a))) (fun _ _ h2 => kept_complete h2))))

theorem kept_zeroingDo {a0 a1} (h1a : State.memOk a1) : State.memOk (zeroingDo a0 a1) := by
  unfold zeroingDo
  exact ite_mem (fun _ => kept_settleDebug (foldl_mem (by
    split
    · exact kept_complete (ite_mem (fun _ => kept_freeSlotNow (kept_writeRecord (kept_setSlot h1a))) (fun _ => kept_writeRecord (kept_setSlot h1a)))
    · exact ite_mem (fun _ => kept_freeSlotNow (kept_writeRecord (kept_setSlot h1a))) (fun _ => kept_writeRecord (kept_setSlot h1a))) (fun _ _ h0 => kept_complete h0))) (fun _ => h1a)

theorem kept_execEraseZeroingDone {a0 a1} (h1a : State.memOk a1) : ∀ t, execEraseZeroingDone a0 a1 = .next t → State.memOk t := by
  unfold execEraseZeroingDone
  exact kept_onWf (kept_zeroingDo h1a)

theorem kept_snapshotDo {a0 a1} (h1a : State.memOk a1) : State.memOk (snapshotDo a0 a1) := by
  unfold snapshotDo
  split
  · assumption
  · refine ite_mem (fun _ => ?_) (fun _ => ?_)
    · assumption
    · extract_lets -merge -underBinder +onlyGivenNames x0
      have h1 : State.memOk (x0) := by
        unfold x0
        refine kept_updSlot ?_
        assumption
      try clear_value x0
      split
      · refine kept_complete ?_
        assumption
      · refine kept_complete ?_
        refine kept_writeSnapshot ?_
        assumption

theorem kept_execContextSnapshot {a0 a1} (h1a : State.memOk a1) : ∀ t, execContextSnapshot a0 a1 = .next t → State.memOk t := by
  unfold execContextSnapshot
  exact kept_onWf (kept_snapshotDo h1a)

theorem kept_graceEndDo {a0 a1} (h1a : State.memOk a1) : State.memOk (graceEndDo a0 a1) := by
  unfold graceEndDo
  split
  · exact h1a
  · exact ite_mem (fun _ => kept_writeRecord (kept_updSlot h1a)) (fun _ => h1a)

theorem kept_execRxGraceEnd {a0 a1} (h1a : State.memOk a1) : ∀ t, execRxGraceEnd a0 a1 = .next t → State.memOk t := by
  unfold execRxGraceEnd
  exact kept_onWf (kept_graceEndDo h1a)

theorem kept_restoredDropDo {a0 a1} (h1a : State.memOk a1) : State.memOk (restoredDropDo a0 a1) := by
  unfold restoredDropDo
  exact kept_updSlot h1a

theorem kept_execRestoredRecordDrop {a0 a1} (h1a : State.memOk a1) : ∀ t, execRestoredRecordDrop a0 a1 = .next t → State.memOk t := by
  unfold execRestoredRecordDrop
  exact kept_onWf (kept_restoredDropDo h1a)

end Sys2Proof
end

