-- ==== Sys2Proof/Laws/Kept/Sources.lean ====
section
/-! SUPPORT. What `Machine/Sources.lean` defines keeps the byte memories in their canonical form. -/

set_option linter.unusedVariables false

namespace Sys2Proof

open Machine

theorem kept_setSource {a0 a1 a2} (h2a : State.memOk a2) : State.memOk (setSource a0 a1 a2) := by
  unfold setSource
  exact mk_mem h2a

theorem kept_updSource {a0 a1 a2} (h2a : State.memOk a2) : State.memOk (updSource a0 a1 a2) := by
  unfold updSource
  exact kept_setSource h2a

theorem kept_removeSource {a0 a1} (h1a : State.memOk a1) : State.memOk (removeSource a0 a1) := by
  unfold removeSource
  exact kept_releaseId (kept_setSource (ite_mem (fun _ => h1a) (fun _ => kept_updSlot h1a)))

theorem kept_badParam {a0} (h0a : State.memOk a0) : State.memOk (badParam a0).1 := by
  unfold badParam
  exact kept_answer h0a

theorem kept_keyRefused {a0 a1} (h1a : State.memOk a1) : State.memOk (keyRefused a0 a1).1 := by
  unfold keyRefused
  exact kept_answer (ite_mem (fun _ => kept_count h1a) (fun _ => h1a))

theorem kept_withSource {a0 a1 a2 a3} (h2a : State.memOk a2) (h3a : ∀ z0, State.memOk (a3 z0).1) : State.memOk (withSource a0 a1 a2 a3).1 := by
  unfold withSource
  split
  · exact kept_answer h2a
  · exact kept_answer (kept_count h2a)
  · exact ite_fst_mem (fun _ => kept_viaEntry h2a (kept_viaWing (h3a _))) (fun _ => kept_answer h2a)

theorem kept_srcReleaseBody {a0 a1} (h1a : State.memOk a1) : State.memOk (srcReleaseBody a0 a1).1 := by
  unfold srcReleaseBody
  exact kept_withSource h1a (fun _ => ite_fst_mem (fun _ => kept_badParam h1a) (fun _ => ite_fst_mem (fun _ => kept_answer h1a) (fun _ => kept_answer (kept_removeSource h1a))))

theorem kept_srcCount {a0 a1 a2 a3} (h3a : State.memOk a3) : State.memOk (srcCount a0 a1 a2 a3) := by
  unfold srcCount
  exact kept_updSource h3a

theorem kept_police {a0 a1 a2 a3} (h3a : State.memOk a3) : State.memOk (police a0 a1 a2 a3).2 := by
  unfold police
  exact ite_snd_mem (fun _ => mk_snd_mem h3a) (fun _ => ite_snd_mem (fun _ => mk_snd_mem (kept_setSource h3a)) (fun _ => mk_snd_mem (kept_count (kept_srcCount (kept_setSource h3a)))))

theorem kept_historyWrite {a0 a1 a2} (h2a : State.memOk a2) : State.memOk (historyWrite a0 a1 a2) := by
  unfold historyWrite
  exact ite_mem (fun _ => h2a) (fun _ => ite_mem (fun _ => kept_srcCount h2a) (fun _ => kept_writeHeld (kept_setSource h2a)))

theorem kept_historyRead {a0 a1 a2} (h2a : State.memOk a2) : State.memOk (historyRead a0 a1 a2).2 := by
  unfold historyRead
  split
  · exact mk_snd_mem h2a
  · exact mk_snd_mem (kept_readHeld h2a)

theorem kept_addSource {a0 a1 a2} (h2a : State.memOk a2) : State.memOk (addSource a0 a1 a2) := by
  unfold addSource
  exact ite_mem (fun _ => kept_writeHeld (kept_setSource (kept_allocId h2a))) (fun _ => kept_pinSlot (kept_takeRecords (kept_writeHeld (kept_setSource (kept_allocId h2a)))))

theorem kept_srcCreateBody {a0 a1} (h1a : State.memOk a1) : State.memOk (srcCreateBody a0 a1).1 := by
  unfold srcCreateBody
  exact ite_fst_mem (fun _ => kept_badParam h1a) (fun _ => (by
    split
    · exact kept_keyRefused h1a
    · exact ite_fst_mem (fun _ => kept_answer h1a) (fun _ => ite_fst_mem (fun _ => kept_answer h1a) (fun _ => ite_fst_mem (fun _ => kept_answer h1a) (fun _ => (by
        split
        · exact kept_answer h1a
        · exact kept_answer (kept_addSource h1a)))))))

theorem kept_execIngSrcCreate {a0 a1} (h1a : State.memOk a1) : ∀ t, execIngSrcCreate a0 a1 = .next t → State.memOk t := by
  unfold execIngSrcCreate
  exact kept_onWf (kept_command (fun _ _ h0 => kept_strictly (fun _ _ h1 => kept_srcCreateBody h1) h0) h1a)

theorem kept_srcPoliceBody {a0 a1} (h1a : State.memOk a1) : State.memOk (srcPoliceBody a0 a1).1 := by
  unfold srcPoliceBody
  exact kept_withSource h1a (fun _ => ite_fst_mem (fun _ => kept_answer (kept_updSource h1a)) (fun _ => kept_badParam h1a))

theorem kept_execIngSrcPolice {a0 a1} (h1a : State.memOk a1) : ∀ t, execIngSrcPolice a0 a1 = .next t → State.memOk t := by
  unfold execIngSrcPolice
  exact kept_onWf (kept_command (fun _ _ h0 => kept_strictly (fun _ _ h1 => kept_srcPoliceBody h1) h0) h1a)

theorem kept_srcHistoryBody {a0 a1} (h1a : State.memOk a1) : State.memOk (srcHistoryBody a0 a1).1 := by
  unfold srcHistoryBody
  exact kept_withSource h1a (fun _ => ite_fst_mem (fun _ => kept_badParam h1a) (fun _ => ite_fst_mem (fun _ => kept_badParam h1a) (fun _ => ite_fst_mem (fun _ => kept_answer h1a) (fun _ => kept_answer (kept_updSource h1a)))))

theorem kept_execIngSrcHistory {a0 a1} (h1a : State.memOk a1) : ∀ t, execIngSrcHistory a0 a1 = .next t → State.memOk t := by
  unfold execIngSrcHistory
  exact kept_onWf (kept_command (fun _ _ h0 => kept_strictly (fun _ _ h1 => kept_srcHistoryBody h1) h0) h1a)

theorem kept_srcJitterBody {a0 a1} (h1a : State.memOk a1) : State.memOk (srcJitterBody a0 a1).1 := by
  unfold srcJitterBody
  exact kept_withSource h1a (fun _ => ite_fst_mem (fun _ => kept_badParam h1a) (fun _ => ite_fst_mem (fun _ => kept_answer h1a) (fun _ => ite_fst_mem (fun _ => (by
    split
    · exact kept_answer (kept_setSource h1a)
    · exact ite_fst_mem (fun _ => kept_answer (kept_setSource h1a)) (fun _ => kept_answer h1a))) (fun _ => kept_answer (kept_setSource h1a)))))

theorem kept_execIngSrcJitter {a0 a1} (h1a : State.memOk a1) : ∀ t, execIngSrcJitter a0 a1 = .next t → State.memOk t := by
  unfold execIngSrcJitter
  exact kept_onWf (kept_command (fun _ _ h0 => kept_strictly (fun _ _ h1 => kept_srcJitterBody h1) h0) h1a)

theorem kept_srcReadBody {a0 a1} (h1a : State.memOk a1) : State.memOk (srcReadBody a0 a1).1 := by
  unfold srcReadBody
  exact kept_withSource h1a (fun _ => kept_answer (kept_hostPut h1a))

theorem kept_execIngSrcRead {a0 a1} (h1a : State.memOk a1) : ∀ t, execIngSrcRead a0 a1 = .next t → State.memOk t := by
  unfold execIngSrcRead
  exact kept_onWf (kept_command (fun _ _ h0 => kept_strictly (fun _ _ h1 => kept_srcReadBody h1) h0) h1a)

theorem kept_srcStatsBody {a0 a1} (h1a : State.memOk a1) : State.memOk (srcStatsBody a0 a1).1 := by
  unfold srcStatsBody
  exact kept_withSource h1a (fun _ => kept_answer (ite_mem (fun _ => kept_setSource (kept_hostPut h1a)) (fun _ => kept_hostPut h1a)))

theorem kept_execIngSrcStats {a0 a1} (h1a : State.memOk a1) : ∀ t, execIngSrcStats a0 a1 = .next t → State.memOk t := by
  unfold execIngSrcStats
  exact kept_onWf (kept_command (fun _ _ h0 => kept_strictly (fun _ _ h1 => kept_srcStatsBody h1) h0) h1a)

theorem kept_execIngSrcRelease {a0 a1} (h1a : State.memOk a1) : ∀ t, execIngSrcRelease a0 a1 = .next t → State.memOk t := by
  unfold execIngSrcRelease
  exact kept_onWf (kept_command (fun _ _ h0 => kept_strictly (fun _ _ h1 => kept_srcReleaseBody h1) h0) h1a)

end Sys2Proof
end

