-- ==== Sys2Proof/Laws/Kept/Legs.lean ====
section
/-! SUPPORT. What `Machine/Legs.lean` defines keeps the byte memories in their canonical form. -/

set_option linter.unusedVariables false

namespace Sys2Proof

open Machine

theorem kept_setLeg {a0 a1 a2} (h2a : State.memOk a2) : State.memOk (setLeg a0 a1 a2) := by
  unfold setLeg
  exact mk_mem h2a

theorem kept_legCreateBody {a0 a1} (h1a : State.memOk a1) : State.memOk (legCreateBody a0 a1).1 := by
  unfold legCreateBody
  exact ite_fst_mem (fun _ => kept_badParam h1a) (fun _ => (by
    split
    · exact kept_keyRefused h1a
    · exact ite_fst_mem (fun _ => kept_notOwned5 h1a) (fun _ => ite_fst_mem (fun _ => kept_answer h1a) (fun _ => (by
        split
        · exact kept_answer h1a
        · exact kept_answer (kept_writeHeld (kept_setLeg (kept_allocId h1a))))))))

theorem kept_execLegCreate {a0 a1} (h1a : State.memOk a1) : ∀ t, execLegCreate a0 a1 = .next t → State.memOk t := by
  unfold execLegCreate
  exact kept_onWf (kept_command (fun _ _ h0 => kept_strictly (fun _ _ h1 => kept_legCreateBody h1) h0) h1a)

theorem kept_updLeg {a0 a1 a2} (h2a : State.memOk a2) : State.memOk (updLeg a0 a1 a2) := by
  unfold updLeg
  exact kept_setLeg h2a

theorem kept_legCount {a0 a1 a2 a3} (h3a : State.memOk a3) : State.memOk (legCount a0 a1 a2 a3) := by
  unfold legCount
  exact kept_updLeg h3a

theorem kept_setEgress {a0 a1 a2} (h2a : State.memOk a2) : State.memOk (setEgress a0 a1 a2) := by
  unfold setEgress
  exact mk_mem h2a

theorem kept_setSub {a0 a1 a2} (h2a : State.memOk a2) : State.memOk (setSub a0 a1 a2) := by
  unfold setSub
  exact mk_mem h2a

theorem kept_updSub {a0 a1 a2} (h2a : State.memOk a2) : State.memOk (updSub a0 a1 a2) := by
  unfold updSub
  exact kept_setSub h2a

theorem kept_withSub {a0 a1 a2 a3} (h2a : State.memOk a2) (h3a : ∀ z0, State.memOk (a3 z0).1) : State.memOk (withSub a0 a1 a2 a3).1 := by
  unfold withSub
  split
  · exact kept_answer h2a
  · exact kept_answer (kept_count h2a)
  · exact ite_fst_mem (fun _ => kept_viaEntry h2a (kept_viaWing (h3a _))) (fun _ => kept_notOwned5 h2a)

theorem kept_gateEntryDo {a0 a1} (h1a : State.memOk a1) : State.memOk (gateEntryDo a0 a1) := by
  unfold gateEntryDo
  exact ite_mem (fun _ => (by
    split
    · exact h1a
    · exact kept_setEgress h1a)) (fun _ => (by
    split
    · exact h1a
    · exact ite_mem (fun _ => kept_setEgress h1a) (fun _ => h1a)
    · exact ite_mem (fun _ => kept_setEgress h1a) (fun _ => h1a)))

theorem kept_execGateEntry {a0 a1} (h1a : State.memOk a1) : ∀ t, execGateEntry a0 a1 = .next t → State.memOk t := by
  unfold execGateEntry
  exact kept_onWf (kept_gateEntryDo h1a)

theorem kept_roomClaimBody {a0 a1} (h1a : State.memOk a1) : State.memOk (roomClaimBody a0 a1).1 := by
  unfold roomClaimBody
  exact ite_fst_mem (fun _ => kept_badParam h1a) (fun _ => ite_fst_mem (fun _ => kept_notOwned5 h1a) (fun _ => ite_fst_mem (fun _ => kept_answer h1a) (fun _ => kept_answer (mk_mem h1a))))

theorem kept_execLegRoomClaim {a0 a1} (h1a : State.memOk a1) : ∀ t, execLegRoomClaim a0 a1 = .next t → State.memOk t := by
  unfold execLegRoomClaim
  exact kept_onWf (kept_command (fun _ _ h0 => kept_strictly (fun _ _ h1 => kept_roomClaimBody h1) h0) h1a)

theorem kept_withLeg {a0 a1 a2 a3} (h2a : State.memOk a2) (h3a : ∀ z0, State.memOk (a3 z0).1) : State.memOk (withLeg a0 a1 a2 a3).1 := by
  unfold withLeg
  split
  · exact kept_answer h2a
  · exact kept_answer (kept_count h2a)
  · exact ite_fst_mem (fun _ => kept_viaEntry h2a (kept_viaWing (h3a _))) (fun _ => kept_notOwned5 h2a)

theorem kept_legBoundsBody {a0 a1} (h1a : State.memOk a1) : State.memOk (legBoundsBody a0 a1).1 := by
  unfold legBoundsBody
  exact kept_withLeg h1a (fun _ => ite_fst_mem (fun _ => kept_answer (kept_updLeg h1a)) (fun _ => kept_badParam h1a))

theorem kept_execLegBounds {a0 a1} (h1a : State.memOk a1) : ∀ t, execLegBounds a0 a1 = .next t → State.memOk t := by
  unfold execLegBounds
  exact kept_onWf (kept_command (fun _ _ h0 => kept_strictly (fun _ _ h1 => kept_legBoundsBody h1) h0) h1a)

theorem kept_legShapeBody {a0 a1} (h1a : State.memOk a1) : State.memOk (legShapeBody a0 a1).1 := by
  unfold legShapeBody
  exact kept_withLeg h1a (fun _ => ite_fst_mem (fun _ => kept_answer (kept_updLeg h1a)) (fun _ => kept_badParam h1a))

theorem kept_execLegShape {a0 a1} (h1a : State.memOk a1) : ∀ t, execLegShape a0 a1 = .next t → State.memOk t := by
  unfold execLegShape
  exact kept_onWf (kept_command (fun _ _ h0 => kept_strictly (fun _ _ h1 => kept_legShapeBody h1) h0) h1a)

theorem kept_legEstBody {a0 a1} (h1a : State.memOk a1) : State.memOk (legEstBody a0 a1).1 := by
  unfold legEstBody
  exact kept_withLeg h1a (fun _ => ite_fst_mem (fun _ => kept_answer (kept_updLeg h1a)) (fun _ => kept_badParam h1a))

theorem kept_execLegEstParam {a0 a1} (h1a : State.memOk a1) : ∀ t, execLegEstParam a0 a1 = .next t → State.memOk t := by
  unfold execLegEstParam
  exact kept_onWf (kept_command (fun _ _ h0 => kept_strictly (fun _ _ h1 => kept_legEstBody h1) h0) h1a)

theorem kept_legReadBody {a0 a1} (h1a : State.memOk a1) : State.memOk (legReadBody a0 a1).1 := by
  unfold legReadBody
  exact kept_withLeg h1a (fun _ => kept_answer (kept_hostPut h1a))

theorem kept_execLegRead {a0 a1} (h1a : State.memOk a1) : ∀ t, execLegRead a0 a1 = .next t → State.memOk t := by
  unfold execLegRead
  exact kept_onWf (kept_command (fun _ _ h0 => kept_strictly (fun _ _ h1 => kept_legReadBody h1) h0) h1a)

theorem kept_legStatsBody {a0 a1} (h1a : State.memOk a1) : State.memOk (legStatsBody a0 a1).1 := by
  unfold legStatsBody
  exact kept_withLeg h1a (fun _ => kept_answer (ite_mem (fun _ => kept_setLeg (kept_hostPut h1a)) (fun _ => kept_hostPut h1a)))

theorem kept_execLegStats {a0 a1} (h1a : State.memOk a1) : ∀ t, execLegStats a0 a1 = .next t → State.memOk t := by
  unfold execLegStats
  exact kept_onWf (kept_command (fun _ _ h0 => kept_strictly (fun _ _ h1 => kept_legStatsBody h1) h0) h1a)

theorem kept_openSub {a0 a1 a2 a3 a4} (h4a : State.memOk a4) : State.memOk (openSub a0 a1 a2 a3 a4) := by
  unfold openSub
  exact ite_mem (fun _ => kept_updLeg (mk_mem (kept_setSub (kept_writeHeld (kept_allocId h4a))))) (fun _ => kept_takeRecords (kept_updLeg (mk_mem (kept_setSub (kept_writeHeld (kept_allocId h4a))))))

theorem kept_subCreateBody {a0 a1} (h1a : State.memOk a1) : State.memOk (subCreateBody a0 a1).1 := by
  unfold subCreateBody
  exact kept_withLeg h1a (fun _ => (by
    split
    · exact kept_answer h1a
    · exact kept_answer (kept_count h1a)
    · exact ite_fst_mem (fun _ => kept_notOwned5 h1a) (fun _ => ite_fst_mem (fun _ => kept_badParam h1a) (fun _ => ite_fst_mem (fun _ => kept_notOwned5 h1a) (fun _ => ite_fst_mem (fun _ => kept_answer h1a) (fun _ => ite_fst_mem (fun _ => kept_answer h1a) (fun _ => (by
        split
        · exact kept_answer h1a
        · exact kept_viaPair (kept_answer (kept_openSub h1a))))))))))

theorem kept_execSubCreate {a0 a1} (h1a : State.memOk a1) : ∀ t, execSubCreate a0 a1 = .next t → State.memOk t := by
  unfold execSubCreate
  exact kept_onWf (kept_command (fun _ _ h0 => kept_strictly (fun _ _ h1 => kept_subCreateBody h1) h0) h1a)

theorem kept_subBoundsBody {a0 a1} (h1a : State.memOk a1) : State.memOk (subBoundsBody a0 a1).1 := by
  unfold subBoundsBody
  exact kept_withSub h1a (fun _ => ite_fst_mem (fun _ => kept_answer (kept_updLeg (kept_updSub h1a))) (fun _ => kept_badParam h1a))

theorem kept_execSubBounds {a0 a1} (h1a : State.memOk a1) : ∀ t, execSubBounds a0 a1 = .next t → State.memOk t := by
  unfold execSubBounds
  exact kept_onWf (kept_command (fun _ _ h0 => kept_strictly (fun _ _ h1 => kept_subBoundsBody h1) h0) h1a)

theorem kept_subReadBody {a0 a1} (h1a : State.memOk a1) : State.memOk (subReadBody a0 a1).1 := by
  unfold subReadBody
  exact kept_withSub h1a (fun _ => kept_answer (kept_hostPut h1a))

theorem kept_execSubRead {a0 a1} (h1a : State.memOk a1) : ∀ t, execSubRead a0 a1 = .next t → State.memOk t := by
  unfold execSubRead
  exact kept_onWf (kept_command (fun _ _ h0 => kept_strictly (fun _ _ h1 => kept_subReadBody h1) h0) h1a)

theorem kept_gateListBody {a0 a1} (h1a : State.memOk a1) : State.memOk (gateListBody a0 a1).1 := by
  unfold gateListBody
  exact ite_fst_mem (fun _ => kept_badParam h1a) (fun _ => ite_fst_mem (fun _ => kept_viaWing (kept_answer (kept_setEgress h1a))) (fun _ => ite_fst_mem (fun _ => kept_badParam h1a) (fun _ => ite_fst_mem (fun _ => kept_answer h1a) (fun _ => kept_viaWing (kept_answer (kept_setEgress h1a))))))

theorem kept_execLegGateList {a0 a1} (h1a : State.memOk a1) : ∀ t, execLegGateList a0 a1 = .next t → State.memOk t := by
  unfold execLegGateList
  exact kept_onWf (kept_command (fun _ _ h0 => kept_strictly (fun _ _ h1 => kept_gateListBody h1) h0) h1a)

end Sys2Proof
end

