-- ==== Sys2Proof/Laws/Kept/Egress.lean ====
section
/-! SUPPORT. What `Machine/Egress.lean` defines keeps the byte memories in their canonical form. -/

set_option linter.unusedVariables false

namespace Sys2Proof

open Machine

theorem kept_setOutput {a0 a1 a2} (h2a : State.memOk a2) : State.memOk (setOutput a0 a1 a2) := by
  unfold setOutput
  exact mk_mem h2a

theorem kept_updOutput {a0 a1 a2} (h2a : State.memOk a2) : State.memOk (updOutput a0 a1 a2) := by
  unfold updOutput
  exact kept_setOutput h2a

theorem kept_sendEth {a0 a1 a2} (h2a : State.memOk a2) : State.memOk (sendEth a0 a1 a2) := by
  unfold sendEth
  exact ite_mem (fun _ => h2a) (fun _ => ite_mem (fun _ => kept_emit (kept_count h2a)) (fun _ => kept_count h2a))

theorem kept_sendUpstream {a0 a1 a2} (h2a : State.memOk a2) : State.memOk (sendUpstream a0 a1 a2) := by
  unfold sendUpstream
  extract_lets -merge -underBinder +onlyGivenNames x0
  try clear_value x0
  refine ite_mem (fun _ => ?_) (fun _ => ?_)
  · assumption
  · refine ite_mem (fun _ => ?_) (fun _ => ?_)
    · refine kept_sendFrame ?_
      assumption
    · extract_lets -merge -underBinder +onlyGivenNames x1
      have h2 : State.memOk (x1).2 := by
        unfold x1
        refine kept_protect ?_
        assumption
      try clear_value x1
      split
      · assumption
      · extract_lets -merge -underBinder +onlyGivenNames x3
        try clear_value x3
        refine kept_sendEth ?_
        assumption

theorem kept_sendKeyframeWith {a0 a1 a2} (h0a : ∀ z0 z1, State.memOk (z1) → State.memOk (a0 z0 z1)) (h2a : State.memOk a2) : State.memOk (sendKeyframeWith a0 a1 a2) := by
  unfold sendKeyframeWith
  exact ite_mem (fun _ => (by
    split
    · exact kept_setSource h2a
    · exact foldl_mem (kept_updOutput (kept_setSource h2a)) (fun _ _ h0 => h0a _ _ h0))) (fun _ => kept_sendUpstream (kept_count (kept_setSource h2a)))

theorem kept_kfRequestN {a0 a1 a2 a3} (h3a : State.memOk a3) : State.memOk (kfRequestN a0 a1 a2 a3) := by
  induction a0 generalizing a1 a2 a3 with
  | zero => exact h3a
  | succ n ih =>
    exact ite_mem (fun _ => kept_sendKeyframeWith (fun _ _ h => ih h) (kept_updSource h3a)) (fun _ => kept_count (kept_setSource (kept_updSource h3a)))

theorem kept_kfRequest {a0 a1 a2} (h2a : State.memOk a2) : State.memOk (kfRequest a0 a1 a2) := by
  unfold kfRequest
  exact kept_kfRequestN h2a

theorem kept_refuseCopy {a0 a1 a2} (h2a : State.memOk a2) : State.memOk (refuseCopy a0 a1 a2) := by
  unfold refuseCopy
  exact ite_mem (fun _ => kept_count (kept_legCount h2a)) (fun _ => kept_count (kept_legCount h2a))

theorem kept_setBuffer {a0 a1 a2} (h2a : State.memOk a2) : State.memOk (setBuffer a0 a1 a2) := by
  unfold setBuffer
  exact mk_mem h2a

theorem kept_notePort {a0 a1} (h1a : State.memOk a1) : State.memOk (notePort a0 a1) := by
  unfold notePort
  exact kept_setEgress h1a

theorem kept_pushCopy {a0 a1 a2} (h2a : State.memOk a2) : State.memOk (pushCopy a0 a1 a2).2 := by
  unfold pushCopy
  exact ite_snd_mem (fun _ => mk_snd_mem (kept_refuseCopy h2a)) (fun _ => ite_snd_mem (fun _ => mk_snd_mem (kept_refuseCopy h2a)) (fun _ => mk_snd_mem (kept_notePort (by
    split
    · exact kept_updLeg h2a
    · exact kept_setBuffer (kept_updLeg h2a)))))

theorem kept_setRoomNode {a0 a1 a2} (h2a : State.memOk a2) : State.memOk (setRoomNode a0 a1 a2) := by
  unfold setRoomNode
  exact mk_mem h2a

theorem kept_addBin {a0 a1 a2} (h2a : State.memOk a2) : State.memOk (addBin a0 a1 a2) := by
  unfold addBin
  exact kept_updSource h2a

theorem kept_kfAnswered {a0 a1} (h1a : State.memOk a1) : State.memOk (kfAnswered a0 a1) := by
  unfold kfAnswered
  exact kept_updSource h1a

theorem kept_nextPacket {a0} (h0a : State.memOk a0) : State.memOk (nextPacket a0).2 := by
  unfold nextPacket
  exact mk_snd_mem (mk_mem h0a)

theorem kept_spendSpill {a0 a1 a2} (h2a : State.memOk a2) : State.memOk (spendSpill a0 a1 a2) := by
  unfold spendSpill
  exact mk_mem h2a

theorem kept_spillPass {a0 a1 a2} (h2a : State.memOk a2) : State.memOk (spillPass a0 a1 a2) := by
  induction a0 generalizing a2 with
  | zero => exact h2a
  | succ n ih =>
    refine ite_mem (fun _ => mk_mem h2a) (fun _ => ?_)
    split
    · exact mk_mem h2a
    · exact ite_mem (fun _ => ih (kept_count (kept_spendSpill (kept_writeHeld (kept_setBuffer (mk_mem h2a)))))) (fun _ => mk_mem (mk_mem h2a))

theorem kept_spillAll {a0 a1} (h1a : State.memOk a1) : State.memOk (spillAll a0 a1) := by
  unfold spillAll
  exact kept_spillPass h1a

theorem kept_dropRef {a0 a1} (h1a : State.memOk a1) : State.memOk (dropRef a0 a1) := by
  unfold dropRef
  split
  · exact h1a
  · exact ite_mem (fun _ => mk_mem h1a) (fun _ => kept_setBuffer h1a)

theorem kept_dropCopies {a0 a1 a2} (h2a : State.memOk a2) : State.memOk (dropCopies a0 a1 a2) := by
  unfold dropCopies
  exact foldl_mem (ite_mem (fun _ => kept_setLeg h2a) (fun _ => kept_count (kept_legCount (kept_setLeg h2a)))) (fun _ _ h0 => kept_dropRef h0)

theorem kept_closeSub {a0 a1} (h1a : State.memOk a1) : State.memOk (closeSub a0 a1) := by
  unfold closeSub
  extract_lets -merge -underBinder +onlyGivenNames x0
  try clear_value x0
  extract_lets -merge -underBinder +onlyGivenNames x1
  try clear_value x1
  extract_lets -merge -underBinder +onlyGivenNames x2
  try clear_value x2
  extract_lets -merge -underBinder +onlyGivenNames x3
  have h4 : State.memOk (x3) := by
    unfold x3
    refine kept_dropCopies ?_
    assumption
  try clear_value x3
  extract_lets -merge -underBinder +onlyGivenNames x5
  try clear_value x5
  extract_lets -merge -underBinder +onlyGivenNames x6
  have h7 : State.memOk (x6) := by
    unfold x6
    refine ite_mem (fun _ => ?_) (fun _ => ?_)
    · assumption
    · refine kept_updSlot ?_
      assumption
  try clear_value x6
  extract_lets -merge -underBinder +onlyGivenNames x8
  have h9 : State.memOk (x8) := by
    unfold x8
    refine kept_releaseId ?_
    assumption
  try clear_value x8
  split
  · refine kept_complete ?_
    refine kept_updSub ?_
    assumption
  · assumption

theorem kept_frameEnded {a0 a1} (h1a : State.memOk a1) : State.memOk (frameEnded a0 a1) := by
  unfold frameEnded
  exact ite_mem (fun _ => kept_closeSub h1a) (fun _ => h1a)

theorem kept_copyOut {a0 a1 a2 a3 a4 a5 a6} (h6a : State.memOk a6) : State.memOk (copyOut a0 a1 a2 a3 a4 a5 a6) := by
  unfold copyOut
  exact ite_mem (fun _ => kept_pushCopy h6a) (fun _ => kept_updSub (kept_pushCopy h6a))

theorem kept_forwardSub {a0 a1 a2 a3 a4} (h4a : State.memOk a4) : State.memOk (forwardSub a0 a1 a2 a3 a4) := by
  unfold forwardSub
  exact ite_mem (fun _ => kept_closeSub h4a) (fun _ => ite_mem (fun _ => kept_frameEnded (kept_setSub h4a)) (fun _ => kept_frameEnded (by
    split
    · exact kept_count (kept_setSub h4a)
    · exact ite_mem (fun _ => kept_copyOut (kept_setSub h4a)) (fun _ => kept_refuseCopy (kept_setSub h4a)))))

theorem kept_askSlots {a0 a1 a2} (h2a : State.memOk a2) : State.memOk (askSlots a0 a1 a2) := by
  unfold askSlots
  exact foldl_mem h2a (fun _ _ h0 => ite_mem (fun _ => h0) (fun _ => kept_lookupSlot h0))

theorem kept_replicateWing {a0 a1 a2 a3 a4 a5} (h5a : State.memOk a5) : State.memOk (replicateWing a0 a1 a2 a3 a4 a5) := by
  unfold replicateWing
  exact ite_mem (fun _ => h5a) (fun _ => ite_mem (fun _ => kept_count (kept_spillAll h5a)) (fun _ => kept_spillAll (by
    split
    · exact ite_mem (fun _ => mk_mem (foldl_mem (kept_askSlots (kept_setBuffer (mk_mem (kept_spillAll h5a)))) (fun _ _ h0 => kept_forwardSub h0))) (fun _ => foldl_mem (kept_askSlots (kept_setBuffer (mk_mem (kept_spillAll h5a)))) (fun _ _ h0 => kept_forwardSub h0))
    · exact foldl_mem (kept_askSlots (kept_setBuffer (mk_mem (kept_spillAll h5a)))) (fun _ _ h0 => kept_forwardSub h0))))

theorem kept_replicateTo {a0 a1 a2 a3} (h3a : State.memOk a3) : State.memOk (replicateTo a0 a1 a2 a3) := by
  unfold replicateTo
  exact foldl_mem (kept_nextPacket h3a) (fun _ _ h0 => kept_replicateWing h0)

theorem kept_replicate {a0 a1 a2} (h2a : State.memOk a2) : State.memOk (replicate a0 a1 a2) := by
  unfold replicate
  exact kept_replicateTo (ite_mem (fun _ => kept_kfAnswered (kept_addBin h2a)) (fun _ => kept_addBin h2a))

theorem kept_subReleaseBody {a0 a1} (h1a : State.memOk a1) : State.memOk (subReleaseBody a0 a1).1 := by
  unfold subReleaseBody
  exact kept_withSub h1a (fun _ => ite_fst_mem (fun _ => (by
    split
    · exact kept_answer h1a
    · exact mk_fst_mem (kept_updSub h1a))) (fun _ => kept_answer (kept_closeSub h1a)))

theorem kept_closeLeg {a0 a1} (h1a : State.memOk a1) : State.memOk (closeLeg a0 a1) := by
  unfold closeLeg
  exact kept_releaseId (kept_updLeg (kept_dropCopies (foldl_mem h1a (fun _ _ h0 => kept_closeSub h0))))

theorem kept_sendKeyframe {a0 a1} (h1a : State.memOk a1) : State.memOk (sendKeyframe a0 a1) := by
  unfold sendKeyframe
  exact kept_sendKeyframeWith (fun _ _ h0 => kept_kfRequest h0) h1a

theorem kept_kfHoldEndDo {a0 a1} (h1a : State.memOk a1) : State.memOk (kfHoldEndDo a0 a1) := by
  unfold kfHoldEndDo
  exact ite_mem (fun _ => kept_sendKeyframe h1a) (fun _ => h1a)

theorem kept_execKfHoldEnd {a0 a1} (h1a : State.memOk a1) : ∀ t, execKfHoldEnd a0 a1 = .next t → State.memOk t := by
  unfold execKfHoldEnd
  exact kept_onWf (kept_kfHoldEndDo h1a)

theorem kept_keyframeNeededDo {a0 a1} (h1a : State.memOk a1) : State.memOk (keyframeNeededDo a0 a1) := by
  unfold keyframeNeededDo
  extract_lets -merge -underBinder +onlyGivenNames x0
  try clear_value x0
  split
  · assumption
  · refine ite_mem (fun _ => ?_) (fun _ => ?_)
    · refine kept_enginePost ?_
      refine kept_setSource ?_
      assumption
    · assumption

theorem kept_execKeyframeNeeded {a0 a1} (h1a : State.memOk a1) : ∀ t, execKeyframeNeeded a0 a1 = .next t → State.memOk t := by
  unfold execKeyframeNeeded
  exact kept_onWf (kept_keyframeNeededDo h1a)

theorem kept_setTenNode {a0 a1 a2} (h2a : State.memOk a2) : State.memOk (setTenNode a0 a1 a2) := by
  unfold setTenNode
  exact mk_mem h2a

theorem kept_wakeLeg {a0 a1 a2} (h2a : State.memOk a2) : State.memOk (wakeLeg a0 a1 a2) := by
  unfold wakeLeg
  exact ite_mem (fun _ => ite_mem (fun _ => ite_mem (fun _ => h2a) (fun _ => kept_setTenNode h2a)) (fun _ => kept_setRoomNode (ite_mem (fun _ => h2a) (fun _ => kept_setTenNode h2a)))) (fun _ => kept_setLeg (ite_mem (fun _ => ite_mem (fun _ => h2a) (fun _ => kept_setTenNode h2a)) (fun _ => kept_setRoomNode (ite_mem (fun _ => h2a) (fun _ => kept_setTenNode h2a)))))

theorem kept_settleNodes {a0 a1 a2} (h2a : State.memOk a2) : State.memOk (settleNodes a0 a1 a2) := by
  unfold settleNodes
  exact mk_mem (foldl_mem h2a (fun _ _ h0 => ite_mem (fun _ => h0) (fun _ => kept_updLeg h0)))

theorem kept_setPortNode {a0 a1 a2} (h2a : State.memOk a2) : State.memOk (setPortNode a0 a1 a2) := by
  unfold setPortNode
  exact mk_mem h2a

theorem kept_pickLeg {a0 a1 a2} (h2a : State.memOk a2) : ∀ x, pickLeg a0 a1 a2 = some x → State.memOk x.2 := by
  intro x h
  simp only [pickLeg] at h
  split at h
  · cases h
  · split at h
    · cases h
    · split at h
      · cases h
      · cases h
        exact kept_setRoomNode (kept_setTenNode (kept_setPortNode h2a))

theorem kept_readBack {a0 a1 a2} (h2a : State.memOk a2) : State.memOk (readBack a0 a1 a2).2 := by
  unfold readBack
  split
  · exact mk_snd_mem h2a
  · exact ite_snd_mem (fun _ => kept_readHeld (kept_spendSpill (kept_setBuffer h2a))) (fun _ => mk_snd_mem h2a)

theorem kept_noteTransit {a0 a1 a2} (h2a : State.memOk a2) : State.memOk (noteTransit a0 a1 a2) := by
  unfold noteTransit
  split
  · exact h2a
  · exact ite_mem (fun _ => h2a) (fun _ => mk_mem (mk_mem h2a))

theorem kept_advanceTags {a0 a1 a2 a3} (h3a : State.memOk a3) : State.memOk (advanceTags a0 a1 a2 a3) := by
  unfold advanceTags
  exact kept_setTenNode (kept_setRoomNode (kept_setLeg h3a))

theorem kept_noteSent {a0 a1 a2} (h2a : State.memOk a2) : State.memOk (noteSent a0 a1 a2) := by
  unfold noteSent
  exact ite_mem (fun _ => kept_setLeg h2a) (fun _ => ite_mem (fun _ => kept_legCount (kept_count (kept_updSub (kept_legCount (kept_legCount (kept_count (kept_setLeg h2a))))))) (fun _ => kept_updSub (kept_legCount (kept_legCount (kept_count (kept_setLeg h2a))))))

theorem kept_sendHead {a0 a1 a2} (h2a : State.memOk a2) : State.memOk (sendHead a0 a1 a2) := by
  unfold sendHead
  extract_lets -merge -underBinder +onlyGivenNames x0
  try clear_value x0
  split
  · assumption
  · extract_lets -merge -underBinder +onlyGivenNames x1
    have h2 : State.memOk (x1).2 := by
      unfold x1
      refine kept_readBack ?_
      assumption
    try clear_value x1
    extract_lets -merge -underBinder +onlyGivenNames x3
    have h4 : State.memOk (x3) := by
      unfold x3
      assumption
    try clear_value x3
    refine ite_mem (fun _ => ?_) (fun _ => ?_)
    · refine kept_count ?_
      refine kept_legCount ?_
      refine kept_dropRef ?_
      refine kept_setLeg ?_
      assumption
    · extract_lets -merge -underBinder +onlyGivenNames x5
      try clear_value x5
      extract_lets -merge -underBinder +onlyGivenNames x6
      have h7 : State.memOk (x6) := by
        unfold x6
        refine ite_mem (fun _ => ?_) (fun _ => ?_)
        · refine kept_noteTransit ?_
          assumption
        · assumption
      try clear_value x6
      extract_lets -merge -underBinder +onlyGivenNames x8
      have h9 : State.memOk (x8) := by
        unfold x8
        refine kept_dropRef ?_
        refine kept_setLeg ?_
        assumption
      try clear_value x8
      extract_lets -merge -underBinder +onlyGivenNames x10
      have h11 : ∀ z0, State.memOk (z0) → State.memOk (x10 z0) := by
        unfold x10
        intro y12 h13
        refine kept_advanceTags ?_
        refine kept_updLeg ?_
        assumption
      try clear_value x10
      refine ite_mem (fun _ => ?_) (fun _ => ?_)
      · refine kept_count ?_
        assumption
      · refine ite_mem (fun _ => ?_) (fun _ => ?_)
        · refine kept_count ?_
          refine h11 _ ?_
          assumption
        · refine ite_mem (fun _ => ?_) (fun _ => ?_)
          · refine kept_noteSent ?_
            refine kept_sendFrame ?_
            refine h11 _ ?_
            assumption
          · extract_lets -merge -underBinder +onlyGivenNames x14
            have h15 : State.memOk (x14).2 := by
              unfold x14
              refine kept_protect ?_
              assumption
            try clear_value x14
            split
            · extract_lets -merge -underBinder +onlyGivenNames x16
              try clear_value x16
              refine ite_mem (fun _ => ?_) (fun _ => ?_)
              · refine kept_count ?_
                refine kept_legCount ?_
                assumption
              · assumption
            · extract_lets -merge -underBinder +onlyGivenNames x17
              try clear_value x17
              refine kept_noteSent ?_
              refine kept_sendEth ?_
              refine h11 _ ?_
              assumption

theorem kept_selectDo {a0 a1} (h1a : State.memOk a1) : State.memOk (selectDo a0 a1) := by
  unfold selectDo
  refine ite_mem (fun _ => ?_) (fun _ => ?_)
  · assumption
  · extract_lets -merge -underBinder +onlyGivenNames x0
    try clear_value x0
    extract_lets -merge -underBinder +onlyGivenNames x1
    have h2 : State.memOk (x1) := by
      unfold x1
      refine foldl_mem ?_ ?_
      · refine kept_settleNodes ?_
        assumption
      · intro y3 y4 h5
        refine kept_wakeLeg ?_
        assumption
    try clear_value x1
    split
    · assumption
    · rename_i p6 p7 q8
      have h9 := some_snd_mem q8 (by
          refine kept_pickLeg ?_
          assumption
        )
      extract_lets -merge -underBinder +onlyGivenNames x10
      have h11 : State.memOk (x10) := by
        unfold x10
        refine kept_spillAll ?_
        refine kept_sendHead ?_
        assumption
      try clear_value x10
      refine kept_notePort ?_
      refine kept_settleNodes ?_
      assumption

theorem kept_execScheduleSelect {a0 a1} (h1a : State.memOk a1) : ∀ t, execScheduleSelect a0 a1 = .next t → State.memOk t := by
  unfold execScheduleSelect
  exact kept_onWf (kept_selectDo h1a)

theorem kept_legReleaseBody {a0 a1} (h1a : State.memOk a1) : State.memOk (legReleaseBody a0 a1).1 := by
  unfold legReleaseBody
  exact kept_withLeg h1a (fun _ => kept_answer (kept_closeLeg h1a))

theorem kept_execLegRelease {a0 a1} (h1a : State.memOk a1) : ∀ t, execLegRelease a0 a1 = .next t → State.memOk t := by
  unfold execLegRelease
  exact kept_onWf (kept_command (fun _ _ h0 => kept_strictly (fun _ _ h1 => kept_legReleaseBody h1) h0) h1a)

theorem kept_execSubRelease {a0 a1} (h1a : State.memOk a1) : ∀ t, execSubRelease a0 a1 = .next t → State.memOk t := by
  unfold execSubRelease
  exact kept_onWf (kept_command (fun _ _ h0 => kept_strictly (fun _ _ h1 => kept_subReleaseBody h1) h0) h1a)

theorem kept_legKeyframeBody {a0 a1} (h1a : State.memOk a1) : State.memOk (legKeyframeBody a0 a1).1 := by
  unfold legKeyframeBody
  extract_lets -merge -underBinder +onlyGivenNames x0
  try clear_value x0
  split
  · refine kept_answer ?_
    assumption
  · refine kept_answer ?_
    refine kept_count ?_
    assumption
  · split
    · refine kept_answer ?_
      refine kept_kfRequest ?_
      assumption
    · refine kept_notOwned5 ?_
      assumption

theorem kept_execLegKeyframe {a0 a1} (h1a : State.memOk a1) : ∀ t, execLegKeyframe a0 a1 = .next t → State.memOk t := by
  unfold execLegKeyframe
  exact kept_onWf (kept_command (fun _ _ h0 => kept_strictly (fun _ _ h1 => kept_legKeyframeBody h1) h0) h1a)

theorem kept_withhold {a0 a1 a2} (h2a : State.memOk a2) : State.memOk (withhold a0 a1 a2) := by
  unfold withhold
  exact kept_setSub h2a

end Sys2Proof
end

