-- ==== Sys2Proof/Laws/Kept/Feedback.lean ====
section
/-! SUPPORT. What `Machine/Feedback.lean` defines keeps the byte memories in their canonical form. -/

set_option linter.unusedVariables false

namespace Sys2Proof

open Machine

theorem kept_forwardSr {a0 a1 a2 a3} (h3a : State.memOk a3) : State.memOk (forwardSr a0 a1 a2 a3) := by
  unfold forwardSr
  exact ite_mem (fun _ => h3a) (fun _ => kept_pushCopy h3a)

theorem kept_sourceSr {a0 a1 a2} (h2a : State.memOk a2) : State.memOk (sourceSr a0 a1 a2) := by
  unfold sourceSr
  exact foldl_mem (kept_updSource h2a) (fun _ _ h0 => kept_forwardSr h0)

theorem kept_sendRtx {a0 a1 a2 a3 a4 a5} (h5a : State.memOk a5) : State.memOk (sendRtx a0 a1 a2 a3 a4 a5) := by
  unfold sendRtx
  exact ite_mem (fun _ => kept_updSub (kept_pushCopy (kept_setBuffer (mk_mem h5a)))) (fun _ => mk_mem (kept_pushCopy (kept_setBuffer (mk_mem h5a))))

theorem kept_feedbackArrives {a0 a1} (h1a : State.memOk a1) : State.memOk (feedbackArrives a0 a1) := by
  unfold feedbackArrives
  exact ite_mem (fun _ => kept_count (kept_legCount (kept_setLeg h1a))) (fun _ => kept_setLeg h1a)

theorem kept_rttUpdate {a0 a1 a2 a3 a4} (h4a : State.memOk a4) : State.memOk (rttUpdate a0 a1 a2 a3 a4) := by
  unfold rttUpdate
  extract_lets -merge -underBinder +onlyGivenNames x0
  try clear_value x0
  split
  · assumption
  · extract_lets -merge -underBinder +onlyGivenNames x1
    try clear_value x1
    extract_lets -merge -underBinder +onlyGivenNames x2
    try clear_value x2
    extract_lets -merge -underBinder +onlyGivenNames x3
    try clear_value x3
    refine kept_setLeg ?_
    assumption

theorem kept_endReport {a0 a1 a2} (h2a : State.memOk a2) : State.memOk (endReport a0 a1 a2) := by
  unfold endReport
  exact kept_updLeg h2a

theorem kept_setEst {a0 a1 a2} (h2a : State.memOk a2) : State.memOk (setEst a0 a1 a2) := by
  unfold setEst
  exact kept_updLeg h2a

theorem kept_estimateStep {a0 a1 a2 a3 a4 a5 a6 a7 a8} (h8a : State.memOk a8) : State.memOk (estimateStep a0 a1 a2 a3 a4 a5 a6 a7 a8) := by
  unfold estimateStep
  exact kept_setEst (kept_updLeg h8a)

theorem kept_rrReport {a0 a1 a2 a3} (h3a : State.memOk a3) : State.memOk (rrReport a0 a1 a2 a3) := by
  unfold rrReport
  exact ite_mem (fun _ => h3a) (fun _ => ite_mem (fun _ => foldl_mem (kept_feedbackArrives h3a) (fun _ _ h0 => ite_mem (fun _ => h0) (fun _ => kept_rttUpdate h0))) (fun _ => kept_endReport (kept_estimateStep (foldl_mem (kept_feedbackArrives h3a) (fun _ _ h0 => ite_mem (fun _ => h0) (fun _ => kept_rttUpdate h0))))))

theorem kept_ccfbReport {a0 a1 a2} (h2a : State.memOk a2) : State.memOk (ccfbReport a0 a1 a2) := by
  unfold ccfbReport
  exact ite_mem (fun _ => kept_feedbackArrives h2a) (fun _ => kept_endReport (kept_estimateStep (kept_setLeg (kept_feedbackArrives h2a))))

theorem kept_nackMiss {a0 a1} (h1a : State.memOk a1) : State.memOk (nackMiss a0 a1) := by
  unfold nackMiss
  exact kept_count (kept_legCount h1a)

theorem kept_upstreamNack {a0 a1 a2} (h2a : State.memOk a2) : State.memOk (upstreamNack a0 a1 a2) := by
  unfold upstreamNack
  exact ite_mem (fun _ => h2a) (fun _ => kept_sendUpstream (kept_setSource h2a))

theorem kept_nackOne {a0 a1 a2} (h2a : State.memOk a2) : State.memOk (nackOne a0 a1 a2) := by
  unfold nackOne
  extract_lets -merge -underBinder +onlyGivenNames x0
  try clear_value x0
  extract_lets -merge -underBinder +onlyGivenNames x1
  try clear_value x1
  split
  · refine ite_mem (fun _ => ?_) (fun _ => ?_)
    · refine kept_nackMiss ?_
      assumption
    · refine ite_mem (fun _ => ?_) (fun _ => ?_)
      · assumption
      · refine ite_mem (fun _ => ?_) (fun _ => ?_)
        · refine kept_count ?_
          assumption
        · extract_lets -merge -underBinder +onlyGivenNames x2
          have h3 : State.memOk (x2).2 := by
            unfold x2
            refine kept_historyRead ?_
            assumption
          try clear_value x2
          split
          · refine kept_sendRtx ?_
            assumption
          · refine kept_upstreamNack ?_
            refine kept_nackMiss ?_
            assumption
  · refine kept_nackMiss ?_
    assumption

theorem kept_nackPacket {a0 a1 a2} (h2a : State.memOk a2) : State.memOk (nackPacket a0 a1 a2) := by
  unfold nackPacket
  split
  · exact h2a
  · exact foldl_mem h2a (fun _ _ h0 => kept_nackOne h0)

theorem kept_keyRequest {a0 a1 a2 a3} (h3a : State.memOk a3) : State.memOk (keyRequest a0 a1 a2 a3) := by
  unfold keyRequest
  split
  · assumption
  · extract_lets -merge -underBinder +onlyGivenNames x0
    have h1 : State.memOk (x0) := by
      unfold x0
      refine kept_legCount ?_
      assumption
    try clear_value x0
    split
    · refine kept_kfRequest ?_
      assumption
    · assumption

theorem kept_firPacket {a0 a1 a2} (h2a : State.memOk a2) : State.memOk (firPacket a0 a1 a2) := by
  unfold firPacket
  exact foldl_mem h2a (fun _ _ h0 => kept_keyRequest h0)

theorem kept_legRtcp {a0 a1 a2 a3} (h3a : State.memOk a3) : State.memOk (legRtcp a0 a1 a2 a3) := by
  unfold legRtcp
  exact ite_mem (fun _ => kept_rrReport h3a) (fun _ => ite_mem (fun _ => kept_ccfbReport h3a) (fun _ => ite_mem (fun _ => kept_nackPacket h3a) (fun _ => ite_mem (fun _ => kept_keyRequest h3a) (fun _ => ite_mem (fun _ => kept_firPacket h3a) (fun _ => h3a)))))

theorem kept_exceptionPath {a0 a1 a2 a3 a4 a5} (h5a : State.memOk a5) : State.memOk (exceptionPath a0 a1 a2 a3 a4 a5) := by
  unfold exceptionPath
  exact ite_mem (fun _ => kept_count h5a) (fun _ => ite_mem (fun _ => kept_count (kept_enginePostTell (mk_mem h5a))) (fun _ => kept_enginePostTell (mk_mem h5a)))

theorem kept_fbTimeoutDo {a0 a1} (h1a : State.memOk a1) : State.memOk (fbTimeoutDo a0 a1) := by
  unfold fbTimeoutDo
  exact ite_mem (fun _ => kept_setEst (kept_setLeg h1a)) (fun _ => h1a)

theorem kept_execFbTimeout {a0 a1} (h1a : State.memOk a1) : ∀ t, execFbTimeout a0 a1 = .next t → State.memOk t := by
  unfold execFbTimeout
  exact kept_onWf (kept_fbTimeoutDo h1a)

end Sys2Proof
end

