-- ==== Sys2Proof/Laws/Kept/LayerSel.lean ====
section
/-! SUPPORT. What `Machine/LayerSel.lean` defines keeps the byte memories in their canonical form. -/

set_option linter.unusedVariables false

namespace Sys2Proof

open Machine

theorem kept_applyPick {a0 a1 a2} (h2a : State.memOk a2) : State.memOk (applyPick a0 a1 a2) := by
  unfold applyPick
  exact ite_mem (fun _ => kept_setSub h2a) (fun _ => ite_mem (fun _ => kept_setSub h2a) (fun _ => ite_mem (fun _ => ite_mem (fun _ => (by
    split
    · exact kept_kfRequest (kept_setSub h2a)
    · exact kept_setSub h2a)) (fun _ => kept_setSub h2a)) (fun _ => kept_setSub h2a)))

theorem kept_noteStarved {a0 a1 a2} (h2a : State.memOk a2) : State.memOk (noteStarved a0 a1 a2) := by
  unfold noteStarved
  exact ite_mem (fun _ => kept_updSub h2a) (fun _ => ite_mem (fun _ => h2a) (fun _ => kept_enginePost (kept_updSub h2a)))

theorem kept_selectLayers {a0 a1} (h1a : State.memOk a1) : State.memOk (selectLayers a0 a1) := by
  unfold selectLayers
  exact foldl_mem (foldl_mem (kept_setLeg h1a) (fun _ _ h0 => kept_applyPick h0)) (fun _ _ h1 => kept_noteStarved h1)

theorem kept_pressurePass {a0 a1} (h1a : State.memOk a1) : State.memOk (pressurePass a0 a1) := by
  unfold pressurePass
  exact ite_mem (fun _ => (by
    split
    · exact kept_setEgress (kept_notePort h1a)
    · exact foldl_mem (kept_setEgress (kept_notePort h1a)) (fun _ _ h0 => kept_updLeg h0))) (fun _ => ite_mem (fun _ => kept_setEgress (kept_notePort h1a)) (fun _ => (by
    split
    · exact kept_setEgress (kept_notePort h1a)
    · exact foldl_mem (kept_setEgress (kept_notePort h1a)) (fun _ _ h1 => kept_updLeg h1))))

theorem kept_layerSelectionDo {a0 a1} (h1a : State.memOk a1) : State.memOk (layerSelectionDo a0 a1) := by
  unfold layerSelectionDo
  exact ite_mem (fun _ => h1a) (fun _ => ite_mem (fun _ => kept_selectLayers (ite_mem (fun _ => kept_pressurePass h1a) (fun _ => h1a))) (fun _ => ite_mem (fun _ => kept_updLeg (kept_selectLayers h1a)) (fun _ => h1a)))

theorem kept_execLayerSelection {a0 a1} (h1a : State.memOk a1) : ∀ t, execLayerSelection a0 a1 = .next t → State.memOk t := by
  unfold execLayerSelection
  exact kept_onWf (kept_layerSelectionDo h1a)

end Sys2Proof
end

