-- ==== Sys2Proof/Laws/Kept/VideoDecode.lean ====
section
/-! SUPPORT. What `Machine/VideoDecode.lean` defines keeps the byte memories in their canonical form. -/

set_option linter.unusedVariables false

namespace Sys2Proof

open Machine

theorem kept_fillPool {a0 a1 a2 a3} (h2a : State.memOk a2) (h3a : State.memOk a3) : State.memOk (fillPool a0 a1 a2 a3).1 := by
  unfold fillPool
  exact ite_fst_mem (fun _ => kept_answer h3a) (fun _ => kept_answer (kept_trimPool (kept_takeRegions (kept_setPool h2a))))

theorem kept_setEnc {a0 a1 a2} (h2a : State.memOk a2) : State.memOk (setEnc a0 a1 a2) := by
  unfold setEnc
  exact mk_mem h2a

theorem kept_updEnc {a0 a1 a2} (h2a : State.memOk a2) : State.memOk (updEnc a0 a1 a2) := by
  unfold updEnc
  exact kept_setEnc h2a

theorem kept_setDec {a0 a1 a2} (h2a : State.memOk a2) : State.memOk (setDec a0 a1 a2) := by
  unfold setDec
  exact mk_mem h2a

theorem kept_finishDecRelease {a0 a1} (h1a : State.memOk a1) : State.memOk (finishDecRelease a0 a1) := by
  unfold finishDecRelease
  extract_lets -merge -underBinder +onlyGivenNames x0
  try clear_value x0
  extract_lets -merge -underBinder +onlyGivenNames x1
  have h2 : State.memOk (x1) := by
    unfold x1
    refine foldl_mem ?_ ?_
    · assumption
    · intro y3 y4 h5
      refine kept_updBuf ?_
      assumption
  try clear_value x1
  extract_lets -merge -underBinder +onlyGivenNames x6
  have h7 : State.memOk (x6) := by
    unfold x6
    refine kept_trimPool ?_
    refine kept_dropLoad ?_
    refine kept_dropWork ?_
    assumption
  try clear_value x6
  extract_lets -merge -underBinder +onlyGivenNames x8
  have h9 : State.memOk (x8) := by
    unfold x8
    split
    · refine kept_updSource ?_
      assumption
    · assumption
  try clear_value x8
  extract_lets -merge -underBinder +onlyGivenNames x10
  have h11 : State.memOk (x10) := by
    unfold x10
    refine kept_releaseId ?_
    refine kept_setDec ?_
    assumption
  try clear_value x10
  split
  · refine kept_complete ?_
    assumption
  · assumption

theorem kept_poolSetBody {a0 a1} (h1a : State.memOk a1) : State.memOk (poolSetBody a0 a1).1 := by
  have h (c : Prop) [Decidable c] (k : Nat) : State.memOk (if c then a1 else retireGeometry k a1) :=
    ite_mem (fun _ => h1a) (fun _ => kept_retireGeometry h1a)
  simp only [poolSetBody]
  refine ite_fst_mem (fun _ => h1a) (fun _ => ?_)
  refine ite_fst_mem (fun _ => h1a) (fun _ => ?_)
  refine ite_fst_mem (fun _ => h1a) (fun _ => ?_)
  refine ite_fst_mem (fun _ => h1a) (fun _ => ?_)
  exact kept_fillPool (h _ _) h1a

theorem kept_execVidPoolSet {a0 a1} (h1a : State.memOk a1) : ∀ t, execVidPoolSet a0 a1 = .next t → State.memOk t := by
  unfold execVidPoolSet
  refine kept_onWf ?_
  refine kept_command ?_ ?_
  · intro y0 y1 h2
    refine kept_strictly ?_ ?_
    · intro y3 y4 h5
      refine kept_poolSetBody ?_
      assumption
    · assumption
  · assumption

theorem kept_updDec {a0 a1 a2} (h2a : State.memOk a2) : State.memOk (updDec a0 a1 a2) := by
  unfold updDec
  exact kept_setDec h2a

theorem kept_decCount {a0 a1 a2} (h2a : State.memOk a2) : State.memOk (decCount a0 a1 a2) := by
  unfold decCount
  exact kept_updDec h2a

theorem kept_publishBands {a0 a1 a2} (h2a : State.memOk a2) : State.memOk (publishBands a0 a1 a2) := by
  unfold publishBands
  exact kept_updBuf h2a

theorem kept_writeBands {a0 a1 a2 a3} (h3a : State.memOk a3) : State.memOk (writeBands a0 a1 a2 a3) := by
  unfold writeBands
  exact foldl_mem h3a (fun _ _ h0 => kept_writeBand h0)

theorem kept_endPicture {a0 a1 a2} (h2a : State.memOk a2) : State.memOk (endPicture a0 a1 a2) := by
  unfold endPicture
  exact ite_mem (fun _ => ite_mem (fun _ => kept_devicePush (ite_mem (fun _ => kept_count (ite_mem (fun _ => kept_count (kept_decCount h2a)) (fun _ => ite_mem (fun _ => kept_count (kept_decCount h2a)) (fun _ => ite_mem (fun _ => kept_count (kept_decCount h2a)) (fun _ => kept_decCount h2a))))) (fun _ => ite_mem (fun _ => kept_count (ite_mem (fun _ => kept_count (kept_decCount h2a)) (fun _ => ite_mem (fun _ => kept_count (kept_decCount h2a)) (fun _ => ite_mem (fun _ => kept_count (kept_decCount h2a)) (fun _ => kept_decCount h2a))))) (fun _ => ite_mem (fun _ => kept_count (kept_decCount h2a)) (fun _ => ite_mem (fun _ => kept_count (kept_decCount h2a)) (fun _ => ite_mem (fun _ => kept_count (kept_decCount h2a)) (fun _ => kept_decCount h2a))))))) (fun _ => kept_decCount (kept_devicePush (ite_mem (fun _ => kept_count (ite_mem (fun _ => kept_count (kept_decCount h2a)) (fun _ => ite_mem (fun _ => kept_count (kept_decCount h2a)) (fun _ => ite_mem (fun _ => kept_count (kept_decCount h2a)) (fun _ => kept_decCount h2a))))) (fun _ => ite_mem (fun _ => kept_count (ite_mem (fun _ => kept_count (kept_decCount h2a)) (fun _ => ite_mem (fun _ => kept_count (kept_decCount h2a)) (fun _ => ite_mem (fun _ => kept_count (kept_decCount h2a)) (fun _ => kept_decCount h2a))))) (fun _ => ite_mem (fun _ => kept_count (kept_decCount h2a)) (fun _ => ite_mem (fun _ => kept_count (kept_decCount h2a)) (fun _ => ite_mem (fun _ => kept_count (kept_decCount h2a)) (fun _ => kept_decCount h2a))))))))) (fun _ => ite_mem (fun _ => kept_count (ite_mem (fun _ => kept_count (kept_decCount h2a)) (fun _ => ite_mem (fun _ => kept_count (kept_decCount h2a)) (fun _ => ite_mem (fun _ => kept_count (kept_decCount h2a)) (fun _ => kept_decCount h2a))))) (fun _ => ite_mem (fun _ => kept_count (ite_mem (fun _ => kept_count (kept_decCount h2a)) (fun _ => ite_mem (fun _ => kept_count (kept_decCount h2a)) (fun _ => ite_mem (fun _ => kept_count (kept_decCount h2a)) (fun _ => kept_decCount h2a))))) (fun _ => ite_mem (fun _ => kept_count (kept_decCount h2a)) (fun _ => ite_mem (fun _ => kept_count (kept_decCount h2a)) (fun _ => ite_mem (fun _ => kept_count (kept_decCount h2a)) (fun _ => kept_decCount h2a))))))

theorem kept_lateRepairDo {a0 a1} (h1a : State.memOk a1) : State.memOk (lateRepairDo a0 a1) := by
  unfold lateRepairDo
  extract_lets -merge -underBinder +onlyGivenNames x0
  try clear_value x0
  split
  · assumption
  · extract_lets -merge -underBinder +onlyGivenNames x1
    try clear_value x1
    refine ite_mem (fun _ => ?_) (fun _ => ?_)
    · assumption
    · extract_lets -merge -underBinder +onlyGivenNames x2
      try clear_value x2
      extract_lets -merge -underBinder +onlyGivenNames x3
      have h4 : State.memOk (x3) := by
        unfold x3
        refine kept_setDec ?_
        assumption
      try clear_value x3
      split
      · refine kept_decCount ?_
        assumption
      · extract_lets -merge -underBinder +onlyGivenNames x5
        try clear_value x5
        extract_lets -merge -underBinder +onlyGivenNames x6
        try clear_value x6
        extract_lets -merge -underBinder +onlyGivenNames x7
        try clear_value x7
        extract_lets -merge -underBinder +onlyGivenNames x8
        try clear_value x8
        extract_lets -merge -underBinder +onlyGivenNames x9
        have h10 : State.memOk (x9) := by
          unfold x9
          refine mk_mem ?_
          assumption
        try clear_value x9
        extract_lets -merge -underBinder +onlyGivenNames x11
        try clear_value x11
        extract_lets -merge -underBinder +onlyGivenNames x12
        try clear_value x12
        extract_lets -merge -underBinder +onlyGivenNames x13
        try clear_value x13
        extract_lets -merge -underBinder +onlyGivenNames x14
        have h15 : State.memOk (x14) := by
          unfold x14
          refine kept_cleanBuf ?_
          refine kept_setBuf ?_
          assumption
        try clear_value x14
        extract_lets -merge -underBinder +onlyGivenNames x16
        have h17 : State.memOk (x16) := by
          unfold x16
          refine kept_publishBands ?_
          refine kept_writeBands ?_
          assumption
        try clear_value x16
        extract_lets -merge -underBinder +onlyGivenNames x18
        have h19 : State.memOk (x18) := by
          unfold x18
          refine kept_updBuf ?_
          assumption
        try clear_value x18
        extract_lets -merge -underBinder +onlyGivenNames x20
        have h21 : State.memOk (x20) := by
          unfold x20
          refine kept_updDec ?_
          assumption
        try clear_value x20
        extract_lets -merge -underBinder +onlyGivenNames x22
        try clear_value x22
        refine kept_endPicture ?_
        refine kept_trimPool ?_
        assumption

theorem kept_decRequest {a0 a1 a2} (h2a : State.memOk a2) : State.memOk (decRequest a0 a1 a2) := by
  unfold decRequest
  extract_lets -merge -underBinder +onlyGivenNames x0
  try clear_value x0
  extract_lets -merge -underBinder +onlyGivenNames x1
  have h2 : State.memOk (x1) := by
    unfold x1
    refine ite_mem (fun _ => ?_) (fun _ => ?_)
    · assumption
    · refine kept_enginePost ?_
      refine kept_updDec ?_
      assumption
  try clear_value x1
  split
  · refine kept_kfRequest ?_
    assumption
  · assumption

theorem kept_notDecoded {a0 a1 a2 a3 a4 a5} (h5a : State.memOk a5) : State.memOk (notDecoded a0 a1 a2 a3 a4 a5) := by
  unfold notDecoded
  exact ite_mem (fun _ => kept_decRequest (kept_updDec (kept_endPicture h5a))) (fun _ => kept_updDec (kept_endPicture h5a))

theorem kept_startPicture {a0 a1 a2 a3} (h3a : State.memOk a3) : State.memOk (startPicture a0 a1 a2 a3) := by
  unfold startPicture
  extract_lets -merge -underBinder +onlyGivenNames x0
  try clear_value x0
  extract_lets -merge -underBinder +onlyGivenNames x1
  try clear_value x1
  extract_lets -merge -underBinder +onlyGivenNames x2
  try clear_value x2
  extract_lets -merge -underBinder +onlyGivenNames x3
  try clear_value x3
  extract_lets -merge -underBinder +onlyGivenNames x4
  try clear_value x4
  split
  · refine kept_notDecoded ?_
    assumption
  · extract_lets -merge -underBinder +onlyGivenNames x5
    try clear_value x5
    extract_lets -merge -underBinder +onlyGivenNames x6
    try clear_value x6
    extract_lets -merge -underBinder +onlyGivenNames x7
    try clear_value x7
    extract_lets -merge -underBinder +onlyGivenNames x8
    try clear_value x8
    extract_lets -merge -underBinder +onlyGivenNames x9
    try clear_value x9
    extract_lets -merge -underBinder +onlyGivenNames x10
    try clear_value x10
    extract_lets -merge -underBinder +onlyGivenNames x11
    have h12 : State.memOk (x11) := by
      unfold x11
      refine mk_mem ?_
      assumption
    try clear_value x11
    extract_lets -merge -underBinder +onlyGivenNames x13
    have h14 : State.memOk (x13) := by
      unfold x13
      refine kept_setBuf ?_
      assumption
    try clear_value x13
    extract_lets -merge -underBinder +onlyGivenNames x15
    try clear_value x15
    refine kept_cleanBuf ?_
    refine kept_setDec ?_
    assumption

theorem kept_outputPicture {a0 a1 a2} (h2a : State.memOk a2) : State.memOk (outputPicture a0 a1 a2) := by
  unfold outputPicture
  exact kept_updBuf (kept_updDec (by
    split
    · exact ite_mem (fun _ => h2a) (fun _ => kept_updDec (kept_updBuf h2a))
    · exact h2a))

theorem kept_markSlots {a0 a1} (h1a : State.memOk a1) : State.memOk (markSlots a0 a1) := by
  unfold markSlots
  exact foldl_mem h1a (fun _ _ h0 => kept_updBuf h0)

theorem kept_refreshSlots {a0 a1 a2 a3} (h3a : State.memOk a3) : State.memOk (refreshSlots a0 a1 a2 a3) := by
  unfold refreshSlots
  exact kept_updDec h3a

theorem kept_showExisting {a0 a1 a2 a3 a4} (h4a : State.memOk a4) : State.memOk (showExisting a0 a1 a2 a3 a4) := by
  unfold showExisting
  exact kept_endPicture (kept_trimPool (kept_updDec (ite_mem (fun _ => kept_markSlots (kept_refreshSlots (kept_outputPicture (kept_publishBands (kept_updDec h4a))))) (fun _ => kept_outputPicture (kept_publishBands (kept_updDec h4a))))))

theorem kept_beginUnit {a0 a1 a2} (h2a : State.memOk a2) : State.memOk (beginUnit a0 a1 a2) := by
  unfold beginUnit
  exact ite_mem (fun _ => kept_notDecoded h2a) (fun _ => ite_mem (fun _ => kept_startPicture (kept_updDec h2a)) (fun _ => (by
    split
    · exact kept_showExisting (kept_updDec h2a)
    · exact kept_startPicture (kept_updDec h2a)
    · split
      · exact kept_notDecoded (kept_updDec h2a)
      · exact kept_startPicture (kept_updDec h2a))))

theorem kept_pictureStartDo {a0 a1} (h1a : State.memOk a1) : State.memOk (pictureStartDo a0 a1) := by
  unfold pictureStartDo
  refine ite_mem (fun _ => ?_) (fun _ => ?_)
  · assumption
  · extract_lets -merge -underBinder +onlyGivenNames x0
    have h1 : State.memOk (x0) := by
      unfold x0
      refine kept_lateRepairDo ?_
      assumption
    try clear_value x0
    extract_lets -merge -underBinder +onlyGivenNames x2
    try clear_value x2
    split
    · assumption
    · refine kept_beginUnit ?_
      refine kept_setDec ?_
      assumption

theorem kept_execDecodePictureStart {a0 a1} (h1a : State.memOk a1) : ∀ t, execDecodePictureStart a0 a1 = .next t → State.memOk t := by
  unfold execDecodePictureStart
  exact kept_onWf (kept_pictureStartDo h1a)

theorem kept_lateToDec {a0 a1 a2} (h2a : State.memOk a2) : State.memOk (lateToDec a0 a1 a2) := by
  unfold lateToDec
  exact ite_mem (fun _ => kept_setDec h2a) (fun _ => h2a)

theorem kept_lateToDecs {a0 a1 a2} (h2a : State.memOk a2) : State.memOk (lateToDecs a0 a1 a2) := by
  unfold lateToDecs
  exact foldl_mem h2a (fun _ _ h0 => kept_lateToDec h0)

theorem kept_unitToDec {a0 a1 a2} (h2a : State.memOk a2) : State.memOk (unitToDec a0 a1 a2) := by
  unfold unitToDec
  exact ite_mem (fun _ => kept_notDecoded (kept_setDec h2a)) (fun _ => ite_mem (fun _ => kept_setDec h2a) (fun _ => (by
    split
    · exact h2a
    · exact kept_notDecoded (kept_setDec h2a))))

theorem kept_unitToDecs {a0 a1 a2} (h2a : State.memOk a2) : State.memOk (unitToDecs a0 a1 a2) := by
  unfold unitToDecs
  exact foldl_mem h2a (fun _ _ h0 => kept_unitToDec h0)

theorem kept_partControl {a0 a1 a2} (h2a : State.memOk a2) : State.memOk (partControl a0 a1 a2).2 := by
  unfold partControl
  exact ite_snd_mem (fun _ => mk_snd_mem h2a) (fun _ => kept_accCheck h2a)

theorem kept_decAdmit {a0 a1 a2} (h2a : State.memOk a2) : State.memOk (decAdmit a0 a1 a2).1 := by
  unfold decAdmit
  exact ite_fst_mem (fun _ => kept_answer h2a) (fun _ => ite_fst_mem (fun _ => kept_answer h2a) (fun _ => ite_fst_mem (fun _ => kept_answer h2a) (fun _ => ite_fst_mem (fun _ => kept_answer h2a) (fun _ => ite_fst_mem (fun _ => kept_answer h2a) (fun _ => ite_fst_mem (fun _ => kept_answer h2a) (fun _ => (by
    split
    · exact kept_answer h2a
    · split
      · exact kept_answer h2a
      · exact kept_viaPair (kept_answer (kept_updSource (kept_addWork (kept_addLoad (kept_setDec (kept_allocId (mk_mem h2a))))))))))))))

theorem kept_decCreateBody {a0 a1} (h1a : State.memOk a1) : State.memOk (decCreateBody a0 a1).1 := by
  unfold decCreateBody
  exact ite_fst_mem (fun _ => kept_answer h1a) (fun _ => (by
    split
    · exact kept_answer h1a
    · exact kept_answer (kept_count h1a)
    · exact ite_fst_mem (fun _ => kept_answer h1a) (fun _ => ite_fst_mem (fun _ => kept_answer (kept_partControl h1a)) (fun _ => (by
        split
        · exact kept_queueRefused h1a
        · exact kept_decAdmit h1a)))))

theorem kept_execVidDecCreate {a0 a1} (h1a : State.memOk a1) : ∀ t, execVidDecCreate a0 a1 = .next t → State.memOk t := by
  unfold execVidDecCreate
  exact kept_onWf (kept_command (fun _ _ h0 => kept_strictly (fun _ _ h1 => kept_decCreateBody h1) h0) h1a)

theorem kept_withDec {a0 a1 a2 a3} (h2a : State.memOk a2) (h3a : ∀ z0, State.memOk (a3 z0).1) : State.memOk (withDec a0 a1 a2 a3).1 := by
  unfold withDec
  exact ite_fst_mem (fun _ => kept_viaWing (h3a _)) (fun _ => kept_answer h2a)

theorem kept_decResetBody {a0 a1} (h1a : State.memOk a1) : State.memOk (decResetBody a0 a1).1 := by
  unfold decResetBody
  exact kept_withDec h1a (fun _ => kept_answer (kept_decRequest (kept_trimPool (kept_updDec (foldl_mem h1a (fun _ _ h0 => kept_updBuf h0))))))

theorem kept_execVidDecReset {a0 a1} (h1a : State.memOk a1) : ∀ t, execVidDecReset a0 a1 = .next t → State.memOk t := by
  unfold execVidDecReset
  exact kept_onWf (kept_command (fun _ _ h0 => kept_strictly (fun _ _ h1 => kept_decResetBody h1) h0) h1a)

theorem kept_decReadBody {a0 a1} (h1a : State.memOk a1) : State.memOk (decReadBody a0 a1).1 := by
  unfold decReadBody
  exact kept_withDec h1a (fun _ => kept_answer (ite_mem (fun _ => kept_updDec (kept_hostPut h1a)) (fun _ => kept_hostPut h1a)))

theorem kept_execVidDecRead {a0 a1} (h1a : State.memOk a1) : ∀ t, execVidDecRead a0 a1 = .next t → State.memOk t := by
  unfold execVidDecRead
  exact kept_onWf (kept_command (fun _ _ h0 => kept_strictly (fun _ _ h1 => kept_decReadBody h1) h0) h1a)

theorem kept_decReleaseBody {a0 a1} (h1a : State.memOk a1) : State.memOk (decReleaseBody a0 a1).1 := by
  unfold decReleaseBody
  exact kept_withDec h1a (fun _ => ite_fst_mem (fun _ => kept_answer h1a) (fun _ => ite_fst_mem (fun _ => mk_fst_mem (kept_setDec h1a)) (fun _ => mk_fst_mem (kept_finishDecRelease (kept_setDec h1a)))))

theorem kept_execVidDecRelease {a0 a1} (h1a : State.memOk a1) : ∀ t, execVidDecRelease a0 a1 = .next t → State.memOk t := by
  unfold execVidDecRelease
  exact kept_onWf (kept_command (fun _ _ h0 => kept_strictly (fun _ _ h1 => kept_decReleaseBody h1) h0) h1a)

theorem kept_bandPublishDo {a0 a1} (h1a : State.memOk a1) : State.memOk (bandPublishDo a0 a1) := by
  unfold bandPublishDo
  split
  · exact h1a
  · exact ite_mem (fun _ => h1a) (fun _ => ite_mem (fun _ => kept_publishBands (kept_writeBands h1a)) (fun _ => kept_outputPicture (kept_updDec (kept_publishBands (kept_writeBands h1a)))))

theorem kept_execBandPublish {a0 a1} (h1a : State.memOk a1) : ∀ t, execBandPublish a0 a1 = .next t → State.memOk t := by
  unfold execBandPublish
  exact kept_onWf (kept_bandPublishDo h1a)

theorem kept_countLostRefs {a0 a1} (h1a : State.memOk a1) : State.memOk (countLostRefs a0 a1) := by
  unfold countLostRefs
  exact foldl_mem h1a (fun _ _ h0 => (by
    split
    · exact kept_readBuf h0
    · exact h0))

theorem kept_markOthers {a0 a1 a2} (h2a : State.memOk a2) : State.memOk (markOthers a0 a1 a2) := by
  unfold markOthers
  exact foldl_mem h2a (fun _ _ h0 => kept_updBuf h0)

theorem kept_markPicture {a0 a1 a2 a3} (h3a : State.memOk a3) : State.memOk (markPicture a0 a1 a2 a3) := by
  unfold markPicture
  exact ite_mem (fun _ => kept_markSlots (kept_refreshSlots h3a)) (fun _ => kept_markOthers h3a)

theorem kept_bumpOut {a0 a1 a2} (h2a : State.memOk a2) : State.memOk (bumpOut a0 a1 a2) := by
  unfold bumpOut
  exact foldl_mem h2a (fun _ _ h0 => kept_outputPicture (kept_publishBands h0))

theorem kept_pictureEndDo {a0 a1} (h1a : State.memOk a1) : State.memOk (pictureEndDo a0 a1) := by
  unfold pictureEndDo
  extract_lets -merge -underBinder +onlyGivenNames x0
  try clear_value x0
  split
  · assumption
  · refine ite_mem (fun _ => ?_) (fun _ => ?_)
    · assumption
    · extract_lets -merge -underBinder +onlyGivenNames x1
      try clear_value x1
      extract_lets -merge -underBinder +onlyGivenNames x2
      try clear_value x2
      extract_lets -merge -underBinder +onlyGivenNames x3
      try clear_value x3
      extract_lets -merge -underBinder +onlyGivenNames x4
      try clear_value x4
      extract_lets -merge -underBinder +onlyGivenNames x5
      have h6 : State.memOk (x5) := by
        unfold x5
        refine kept_countLostRefs ?_
        refine kept_writeBands ?_
        assumption
      try clear_value x5
      extract_lets -merge -underBinder +onlyGivenNames x7
      try clear_value x7
      extract_lets -merge -underBinder +onlyGivenNames x8
      have h9 : State.memOk (x8) := by
        unfold x8
        refine kept_updBuf ?_
        refine kept_markPicture ?_
        assumption
      try clear_value x8
      extract_lets -merge -underBinder +onlyGivenNames x10
      have h11 : State.memOk (x10) := by
        unfold x10
        refine kept_bumpOut ?_
        assumption
      try clear_value x10
      extract_lets -merge -underBinder +onlyGivenNames x12
      have h13 : State.memOk (x12) := by
        unfold x12
        refine kept_publishBands ?_
        assumption
      try clear_value x12
      extract_lets -merge -underBinder +onlyGivenNames x14
      have h15 : State.memOk (x14) := by
        unfold x14
        refine ite_mem (fun _ => ?_) (fun _ => ?_)
        · refine ite_mem (fun _ => ?_) (fun _ => ?_)
          · assumption
          · refine kept_outputPicture ?_
            assumption
        · assumption
      try clear_value x14
      extract_lets -merge -underBinder +onlyGivenNames x16
      try clear_value x16
      extract_lets -merge -underBinder +onlyGivenNames x17
      have h18 : State.memOk (x17) := by
        unfold x17
        refine kept_updDec ?_
        assumption
      try clear_value x17
      extract_lets -merge -underBinder +onlyGivenNames x19
      have h20 : State.memOk (x19) := by
        unfold x19
        refine kept_endPicture ?_
        assumption
      try clear_value x19
      extract_lets -merge -underBinder +onlyGivenNames x21
      try clear_value x21
      extract_lets -merge -underBinder +onlyGivenNames x22
      have h23 : State.memOk (x22) := by
        unfold x22
        refine ite_mem (fun _ => ?_) (fun _ => ?_)
        · refine kept_decRequest ?_
          assumption
        · assumption
      try clear_value x22
      extract_lets -merge -underBinder +onlyGivenNames x24
      have h25 : State.memOk (x24) := by
        unfold x24
        refine kept_trimPool ?_
        assumption
      try clear_value x24
      refine ite_mem (fun _ => ?_) (fun _ => ?_)
      · refine kept_finishDecRelease ?_
        assumption
      · assumption

theorem kept_execDecodePictureEnd {a0 a1} (h1a : State.memOk a1) : ∀ t, execDecodePictureEnd a0 a1 = .next t → State.memOk t := by
  unfold execDecodePictureEnd
  exact kept_onWf (kept_pictureEndDo h1a)

theorem kept_execLateRepair {a0 a1} (h1a : State.memOk a1) : ∀ t, execLateRepair a0 a1 = .next t → State.memOk t := by
  unfold execLateRepair
  exact kept_onWf (kept_lateRepairDo h1a)

end Sys2Proof
end

