-- ==== Sys2Proof/Laws/Kept/VideoEncode.lean ====
section
/-! SUPPORT. What `Machine/VideoEncode.lean` defines keeps the byte memories in their canonical form. -/

set_option linter.unusedVariables false

namespace Sys2Proof

open Machine

theorem kept_finishEncRelease {a0 a1} (h1a : State.memOk a1) : State.memOk (finishEncRelease a0 a1) := by
  unfold finishEncRelease
  extract_lets -merge -underBinder +onlyGivenNames x0
  try clear_value x0
  extract_lets -merge -underBinder +onlyGivenNames x1
  have h2 : State.memOk (x1) := by
    unfold x1
    refine foldl_mem ?_ ?_
    · assumption
    · intro y3 y4 h5
      refine kept_updBuf ?_
      assumption
  try clear_value x1
  extract_lets -merge -underBinder +onlyGivenNames x6
  have h7 : State.memOk (x6) := by
    unfold x6
    refine kept_removeSource ?_
    refine kept_trimPool ?_
    refine kept_dropLoad ?_
    refine kept_dropWork ?_
    assumption
  try clear_value x6
  extract_lets -merge -underBinder +onlyGivenNames x8
  have h9 : State.memOk (x8) := by
    unfold x8
    refine foldl_mem ?_ ?_
    · assumption
    · intro y10 y11 h12
      refine kept_complete ?_
      assumption
  try clear_value x8
  extract_lets -merge -underBinder +onlyGivenNames x13
  have h14 : State.memOk (x13) := by
    unfold x13
    refine kept_releaseId ?_
    refine kept_setEnc ?_
    assumption
  try clear_value x13
  split
  · refine kept_complete ?_
    assumption
  · assumption

theorem kept_encCount {a0 a1 a2} (h2a : State.memOk a2) : State.memOk (encCount a0 a1 a2) := by
  unfold encCount
  exact kept_updEnc h2a

theorem kept_encRecord {a0 a1 a2} (h2a : State.memOk a2) : State.memOk (encRecord a0 a1 a2) := by
  unfold encRecord
  exact ite_mem (fun _ => ite_mem (fun _ => kept_devicePush h2a) (fun _ => kept_encCount (kept_devicePush h2a))) (fun _ => h2a)

theorem kept_kfIntervalDo {a0 a1} (h1a : State.memOk a1) : State.memOk (kfIntervalDo a0 a1) := by
  unfold kfIntervalDo
  exact ite_mem (fun _ => kept_setEnc h1a) (fun _ => h1a)

theorem kept_encSkipped {a0 a1 a2 a3} (h3a : State.memOk a3) : State.memOk (encSkipped a0 a1 a2 a3) := by
  unfold encSkipped
  exact kept_encRecord (kept_encCount h3a)

theorem kept_veNoInput {a0 a1 a2} (h2a : State.memOk a2) : State.memOk (veNoInput a0 a1 a2) := by
  unfold veNoInput
  exact foldl_mem h2a (fun _ _ h0 => kept_encSkipped h0)

theorem kept_startEnc {a0 a1 a2} (h2a : State.memOk a2) : State.memOk (startEnc a0 a1 a2) := by
  unfold startEnc
  exact kept_updEnc (foldl_mem (ite_mem (fun _ => kept_count (kept_encCount (foldl_mem (kept_updSource h2a) (fun _ _ h0 => kept_updBuf h0)))) (fun _ => foldl_mem (kept_updSource h2a) (fun _ _ h0 => kept_updBuf h0))) (fun _ _ h1 => kept_complete h1))

theorem kept_nextEnc {a0 a1} (h1a : State.memOk a1) : State.memOk (nextEnc a0 a1) := by
  unfold nextEnc
  extract_lets -merge -underBinder +onlyGivenNames x0
  try clear_value x0
  split
  · refine ite_mem (fun _ => ?_) (fun _ => ?_)
    · refine kept_startEnc ?_
      assumption
    · assumption
  · assumption

theorem kept_veArrive {a0 a1 a2} (h2a : State.memOk a2) : State.memOk (veArrive a0 a1 a2) := by
  unfold veArrive
  exact ite_mem (fun _ => h2a) (fun _ => ite_mem (fun _ => kept_updEnc h2a) (fun _ => ite_mem (fun _ => h2a) (fun _ => kept_nextEnc (kept_updEnc (by
    split
    · exact kept_count (kept_encSkipped h2a)
    · exact h2a)))))

theorem kept_encAdmit {a0 a1 a2} (h2a : State.memOk a2) : State.memOk (encAdmit a0 a1 a2).1 := by
  unfold encAdmit
  exact ite_fst_mem (fun _ => kept_answer h2a) (fun _ => ite_fst_mem (fun _ => kept_answer h2a) (fun _ => ite_fst_mem (fun _ => kept_answer h2a) (fun _ => ite_fst_mem (fun _ => kept_answer h2a) (fun _ => ite_fst_mem (fun _ => kept_answer h2a) (fun _ => (by
    split
    · split
      · exact kept_answer h2a
      · exact kept_answer (kept_addWork (kept_addLoad (kept_setEnc (kept_allocId (foldl_mem (kept_addSource h2a) (fun _ _ h0 => kept_setBuf h0))))))
    · exact kept_answer h2a))))))

theorem kept_encCreateBody {a0 a1} (h1a : State.memOk a1) : State.memOk (encCreateBody a0 a1).1 := by
  unfold encCreateBody
  exact ite_fst_mem (fun _ => kept_answer h1a) (fun _ => ite_fst_mem (fun _ => kept_answer h1a) (fun _ => ite_fst_mem (fun _ => kept_answer (kept_partControl h1a)) (fun _ => (by
    split
    · exact kept_queueRefused h1a
    · exact kept_encAdmit h1a))))

theorem kept_execVidEncCreate {a0 a1} (h1a : State.memOk a1) : ∀ t, execVidEncCreate a0 a1 = .next t → State.memOk t := by
  unfold execVidEncCreate
  exact kept_onWf (kept_command (fun _ _ h0 => kept_strictly (fun _ _ h1 => kept_encCreateBody h1) h0) h1a)

theorem kept_withEnc {a0 a1 a2 a3} (h2a : State.memOk a2) (h3a : ∀ z0, State.memOk (a3 z0).1) : State.memOk (withEnc a0 a1 a2 a3).1 := by
  unfold withEnc
  exact ite_fst_mem (fun _ => kept_viaWing (h3a _)) (fun _ => kept_answer h2a)

theorem kept_encRateBody {a0 a1} (h1a : State.memOk a1) : State.memOk (encRateBody a0 a1).1 := by
  unfold encRateBody
  exact kept_withEnc h1a (fun _ => ite_fst_mem (fun _ => mk_fst_mem (kept_updEnc h1a)) (fun _ => kept_answer h1a))

theorem kept_execVidEncRate {a0 a1} (h1a : State.memOk a1) : ∀ t, execVidEncRate a0 a1 = .next t → State.memOk t := by
  unfold execVidEncRate
  exact kept_onWf (kept_command (fun _ _ h0 => kept_strictly (fun _ _ h1 => kept_encRateBody h1) h0) h1a)

theorem kept_encKeyBody {a0 a1} (h1a : State.memOk a1) : State.memOk (encKeyBody a0 a1).1 := by
  unfold encKeyBody
  exact kept_withEnc h1a (fun _ => kept_answer (kept_updEnc h1a))

theorem kept_execVidEncKeyframe {a0 a1} (h1a : State.memOk a1) : ∀ t, execVidEncKeyframe a0 a1 = .next t → State.memOk t := by
  unfold execVidEncKeyframe
  exact kept_onWf (kept_command (fun _ _ h0 => kept_strictly (fun _ _ h1 => kept_encKeyBody h1) h0) h1a)

theorem kept_encReadBody {a0 a1} (h1a : State.memOk a1) : State.memOk (encReadBody a0 a1).1 := by
  unfold encReadBody
  exact kept_withEnc h1a (fun _ => kept_answer (ite_mem (fun _ => kept_updEnc (kept_hostPut h1a)) (fun _ => kept_hostPut h1a)))

theorem kept_execVidEncRead {a0 a1} (h1a : State.memOk a1) : ∀ t, execVidEncRead a0 a1 = .next t → State.memOk t := by
  unfold execVidEncRead
  exact kept_onWf (kept_command (fun _ _ h0 => kept_strictly (fun _ _ h1 => kept_encReadBody h1) h0) h1a)

theorem kept_encReleaseBody {a0 a1} (h1a : State.memOk a1) : State.memOk (encReleaseBody a0 a1).1 := by
  unfold encReleaseBody
  exact kept_withEnc h1a (fun _ => ite_fst_mem (fun _ => kept_answer h1a) (fun _ => ite_fst_mem (fun _ => kept_answer h1a) (fun _ => ite_fst_mem (fun _ => mk_fst_mem (kept_updEnc (by
    split
    · exact kept_encSkipped h1a
    · exact h1a))) (fun _ => mk_fst_mem (kept_finishEncRelease (kept_updEnc (by
    split
    · exact kept_encSkipped h1a
    · exact h1a)))))))

theorem kept_execVidEncRelease {a0 a1} (h1a : State.memOk a1) : ∀ t, execVidEncRelease a0 a1 = .next t → State.memOk t := by
  unfold execVidEncRelease
  exact kept_onWf (kept_command (fun _ _ h0 => kept_strictly (fun _ _ h1 => kept_encReleaseBody h1) h0) h1a)

theorem kept_execKfInterval {a0 a1} (h1a : State.memOk a1) : ∀ t, execKfInterval a0 a1 = .next t → State.memOk t := by
  unfold execKfInterval
  exact kept_onWf (kept_kfIntervalDo h1a)

end Sys2Proof
end

