-- ==== Sys2Proof/Laws/Kept/Compose.lean ====
section
/-! SUPPORT. What `Machine/Compose.lean` defines keeps the byte memories in their canonical form. -/

set_option linter.unusedVariables false

namespace Sys2Proof

open Machine

theorem kept_endLingers {a0 a1} (h1a : State.memOk a1) : State.memOk (endLingers a0 a1) := by
  unfold endLingers
  exact foldl_mem h1a (fun _ _ h0 => kept_trimPool (kept_updBuf h0))

theorem kept_unhold {a0 a1 a2} (h2a : State.memOk a2) : State.memOk (unhold a0 a1 a2) := by
  unfold unhold
  exact kept_trimPool (kept_updBuf h2a)

theorem kept_finishOutRelease {a0 a1} (h1a : State.memOk a1) : State.memOk (finishOutRelease a0 a1) := by
  unfold finishOutRelease
  extract_lets -merge -underBinder +onlyGivenNames x0
  try clear_value x0
  extract_lets -merge -underBinder +onlyGivenNames x1
  have h2 : State.memOk (x1) := by
    unfold x1
    refine kept_endLingers ?_
    refine foldl_mem ?_ ?_
    · assumption
    · intro y3 y4 h5
      refine kept_unhold ?_
      assumption
  try clear_value x1
  extract_lets -merge -underBinder +onlyGivenNames x6
  have h7 : State.memOk (x6) := by
    unfold x6
    refine kept_dropLoad ?_
    refine kept_dropWork ?_
    assumption
  try clear_value x6
  extract_lets -merge -underBinder +onlyGivenNames x8
  have h9 : State.memOk (x8) := by
    unfold x8
    refine ite_mem (fun _ => ?_) (fun _ => ?_)
    · refine kept_removeSource ?_
      assumption
    · assumption
  try clear_value x8
  extract_lets -merge -underBinder +onlyGivenNames x10
  have h11 : State.memOk (x10) := by
    unfold x10
    refine foldl_mem ?_ ?_
    · assumption
    · intro y12 y13 h14
      refine kept_complete ?_
      assumption
  try clear_value x10
  extract_lets -merge -underBinder +onlyGivenNames x15
  have h16 : State.memOk (x15) := by
    unfold x15
    refine kept_releaseId ?_
    refine kept_setOutput ?_
    assumption
  try clear_value x15
  split
  · refine kept_complete ?_
    assumption
  · assumption

theorem kept_settleNext {a0 a1} (h1a : State.memOk a1) : State.memOk (settleNext a0 a1) := by
  unfold settleNext
  exact ite_mem (fun _ => h1a) (fun _ => kept_setOutput h1a)

theorem kept_outAdd {a0 a1 a2 a3 a4} (h4a : State.memOk a4) : State.memOk (outAdd a0 a1 a2 a3 a4) := by
  unfold outAdd
  exact kept_addWork (kept_addLoad (kept_setOutput (kept_allocId (by
    split
    · exact kept_addSource h4a
    · exact h4a))))

theorem kept_outAdmit {a0 a1} (h1a : State.memOk a1) : State.memOk (outAdmit a0 a1).1 := by
  unfold outAdmit
  exact ite_fst_mem (fun _ => kept_answer h1a) (fun _ => (by
    split
    · exact ite_fst_mem (fun _ => kept_answer h1a) (fun _ => (by
        split
        · exact kept_answer h1a
        · exact kept_answer (kept_outAdd h1a)))
    · exact kept_answer h1a))

theorem kept_outCreateBody {a0 a1} (h1a : State.memOk a1) : State.memOk (outCreateBody a0 a1).1 := by
  unfold outCreateBody
  exact ite_fst_mem (fun _ => kept_answer h1a) (fun _ => ite_fst_mem (fun _ => kept_answer h1a) (fun _ => ite_fst_mem (fun _ => kept_answer (kept_partControl h1a)) (fun _ => (by
    split
    · exact kept_queueRefused h1a
    · exact kept_outAdmit h1a))))

theorem kept_execVidOutCreate {a0 a1} (h1a : State.memOk a1) : ∀ t, execVidOutCreate a0 a1 = .next t → State.memOk t := by
  unfold execVidOutCreate
  exact kept_onWf (kept_command (fun _ _ h0 => kept_strictly (fun _ _ h1 => kept_outCreateBody h1) h0) h1a)

theorem kept_cocoonRefused {a0 a1 a2} (h2a : State.memOk a2) : State.memOk (cocoonRefused a0 a1 a2).1 := by
  unfold cocoonRefused
  exact kept_answer (kept_recordBy h2a)

theorem kept_withOut {a0 a1 a2 a3} (h2a : State.memOk a2) (h3a : ∀ z0, State.memOk (a3 z0).1) : State.memOk (withOut a0 a1 a2 a3).1 := by
  unfold withOut
  exact ite_fst_mem (fun _ => kept_viaWing (h3a _)) (fun _ => kept_answer h2a)

theorem kept_staleCell {a0 a1} (h1a : State.memOk a1) : State.memOk (staleCell a0 a1) := by
  unfold staleCell
  split
  · exact kept_count h1a
  · exact h1a

theorem kept_staleLayer {a0 a1 a2} (h2a : State.memOk a2) : State.memOk (staleLayer a0 a1 a2) := by
  unfold staleLayer
  exact ite_mem (fun _ => kept_staleCell h2a) (fun _ => (by
    split
    · exact kept_staleCell h2a
    · exact kept_staleCell h2a))

theorem kept_outLayerBody {a0 a1} (h1a : State.memOk a1) : State.memOk (outLayerBody a0 a1).1 := by
  unfold outLayerBody
  extract_lets -merge -underBinder +onlyGivenNames x0
  try clear_value x0
  extract_lets -merge -underBinder +onlyGivenNames x1
  try clear_value x1
  split
  · refine kept_cocoonRefused ?_
    assumption
  · refine kept_withOut ?_ ?_
    · assumption
    · intro y2
      extract_lets -merge -underBinder +onlyGivenNames x3
      try clear_value x3
      extract_lets -merge -underBinder +onlyGivenNames x4
      try clear_value x4
      extract_lets -merge -underBinder +onlyGivenNames x5
      try clear_value x5
      extract_lets -merge -underBinder +onlyGivenNames x6
      try clear_value x6
      split
      · refine kept_answer ?_
        refine ite_mem (fun _ => ?_) (fun _ => ?_)
        · refine kept_staleLayer ?_
          assumption
        · assumption
      · refine kept_answer ?_
        refine kept_setOutput ?_
        assumption

theorem kept_execVidOutLayer {a0 a1} (h1a : State.memOk a1) : ∀ t, execVidOutLayer a0 a1 = .next t → State.memOk t := by
  unfold execVidOutLayer
  exact kept_onWf (kept_command (fun _ _ h0 => kept_strictly (fun _ _ h1 => kept_outLayerBody h1) h0) h1a)

theorem kept_outMatrixBody {a0 a1} (h1a : State.memOk a1) : State.memOk (outMatrixBody a0 a1).1 := by
  unfold outMatrixBody
  exact ite_fst_mem (fun _ => kept_cocoonRefused h1a) (fun _ => kept_withOut h1a (fun _ => ite_fst_mem (fun _ => kept_answer h1a) (fun _ => kept_answer (kept_setOutput h1a))))

theorem kept_execVidOutMatrix {a0 a1} (h1a : State.memOk a1) : ∀ t, execVidOutMatrix a0 a1 = .next t → State.memOk t := by
  unfold execVidOutMatrix
  exact kept_onWf (kept_command (fun _ _ h0 => kept_strictly (fun _ _ h1 => kept_outMatrixBody h1) h0) h1a)

theorem kept_outCommitBody {a0 a1} (h1a : State.memOk a1) : State.memOk (outCommitBody a0 a1).1 := by
  unfold outCommitBody
  exact ite_fst_mem (fun _ => kept_cocoonRefused h1a) (fun _ => kept_withOut h1a (fun _ => ite_fst_mem (fun _ => kept_answer h1a) (fun _ => ite_fst_mem (fun _ => kept_answer h1a) (fun _ => mk_fst_mem (kept_setOutput h1a)))))

theorem kept_execVidOutCommit {a0 a1} (h1a : State.memOk a1) : ∀ t, execVidOutCommit a0 a1 = .next t → State.memOk t := by
  unfold execVidOutCommit
  exact kept_onWf (kept_command (fun _ _ h0 => kept_strictly (fun _ _ h1 => kept_outCommitBody h1) h0) h1a)

theorem kept_outReadBody {a0 a1} (h1a : State.memOk a1) : State.memOk (outReadBody a0 a1).1 := by
  unfold outReadBody
  exact kept_withOut h1a (fun _ => kept_answer (ite_mem (fun _ => kept_updOutput (kept_hostPut h1a)) (fun _ => kept_hostPut h1a)))

theorem kept_execVidOutRead {a0 a1} (h1a : State.memOk a1) : ∀ t, execVidOutRead a0 a1 = .next t → State.memOk t := by
  unfold execVidOutRead
  exact kept_onWf (kept_command (fun _ _ h0 => kept_strictly (fun _ _ h1 => kept_outReadBody h1) h0) h1a)

theorem kept_outReleaseBody {a0 a1} (h1a : State.memOk a1) : State.memOk (outReleaseBody a0 a1).1 := by
  unfold outReleaseBody
  exact kept_withOut h1a (fun _ => ite_fst_mem (fun _ => kept_answer h1a) (fun _ => ite_fst_mem (fun _ => kept_answer h1a) (fun _ => ite_fst_mem (fun _ => mk_fst_mem (kept_setOutput h1a)) (fun _ => mk_fst_mem (kept_finishOutRelease (kept_setOutput h1a))))))

theorem kept_execVidOutRelease {a0 a1} (h1a : State.memOk a1) : ∀ t, execVidOutRelease a0 a1 = .next t → State.memOk t := by
  unfold execVidOutRelease
  exact kept_onWf (kept_command (fun _ _ h0 => kept_strictly (fun _ _ h1 => kept_outReleaseBody h1) h0) h1a)

theorem kept_completeCommits {a0 a1 a2} (h2a : State.memOk a2) : State.memOk (completeCommits a0 a1 a2) := by
  unfold completeCommits
  exact foldl_mem (kept_setOutput h2a) (fun _ _ h0 => kept_complete h0)

theorem kept_outCount {a0 a1 a2 a3} (h3a : State.memOk a3) : State.memOk (outCount a0 a1 a2 a3) := by
  unfold outCount
  exact ite_mem (fun _ => h3a) (fun _ => kept_updOutput h3a)

theorem kept_outRecord {a0 a1 a2} (h2a : State.memOk a2) : State.memOk (outRecord a0 a1 a2) := by
  unfold outRecord
  exact ite_mem (fun _ => ite_mem (fun _ => kept_devicePush h2a) (fun _ => kept_updOutput (kept_devicePush h2a))) (fun _ => h2a)

theorem kept_latchLayers {a0 a1 a2 a3} (h3a : State.memOk a3) : State.memOk (latchLayers a0 a1 a2 a3).2 := by
  simp only [latchLayers]
  refine foldl_snd_mem h3a (fun b x hb => ?_)
  split
  · exact hb
  · exact kept_setBuf hb

theorem kept_beginFrame {a0 a1 a2} (h2a : State.memOk a2) : State.memOk (beginFrame a0 a1 a2) := by
  unfold beginFrame
  exact kept_completeCommits (kept_updOutput h2a)

theorem kept_composedBoundary {a0 a1 a2} (h2a : State.memOk a2) : State.memOk (composedBoundary a0 a1 a2) := by
  unfold composedBoundary
  extract_lets -merge -underBinder +onlyGivenNames x0
  have h1 : State.memOk (x0) := by
    unfold x0
    split
    · extract_lets -merge -underBinder +onlyGivenNames x2
      try clear_value x2
      extract_lets -merge -underBinder +onlyGivenNames x3
      have h4 : State.memOk (x3) := by
        unfold x3
        refine foldl_mem ?_ ?_
        · assumption
        · intro y5 y6 h7
          refine kept_unhold ?_
          assumption
      try clear_value x3
      extract_lets -merge -underBinder +onlyGivenNames x8
      have h9 : State.memOk (x8) := by
        unfold x8
        refine kept_outRecord ?_
        refine kept_outCount ?_
        refine kept_updOutput ?_
        assumption
      try clear_value x8
      refine kept_veNoInput ?_
      assumption
    · assumption
  try clear_value x0
  extract_lets -merge -underBinder +onlyGivenNames x10
  have h11 : State.memOk (x10) := by
    unfold x10
    refine kept_updOutput ?_
    assumption
  try clear_value x10
  extract_lets -merge -underBinder +onlyGivenNames x12
  try clear_value x12
  extract_lets -merge -underBinder +onlyGivenNames x13
  have h14 : State.memOk (x13).2 := by
    unfold x13
    refine kept_latchLayers ?_
    assumption
  try clear_value x13
  extract_lets -merge -underBinder +onlyGivenNames x15
  try clear_value x15
  extract_lets -merge -underBinder +onlyGivenNames x16
  try clear_value x16
  extract_lets -merge -underBinder +onlyGivenNames x17
  have h18 : State.memOk (x17) := by
    unfold x17
    refine kept_endLingers ?_
    refine kept_updOutput ?_
    assumption
  try clear_value x17
  refine ite_mem (fun _ => ?_) (fun _ => ?_)
  · refine kept_updOutput ?_
    assumption
  · refine kept_beginFrame ?_
    assumption

theorem kept_endHold {a0 a1 a2} (h2a : State.memOk a2) : State.memOk (endHold a0 a1 a2) := by
  unfold endHold
  exact ite_mem (fun _ => kept_updBuf h2a) (fun _ => kept_unhold h2a)

theorem kept_endFrame {a0 a1 a2} (h2a : State.memOk a2) : State.memOk (endFrame a0 a1 a2) := by
  unfold endFrame
  exact ite_mem (fun _ => kept_finishOutRelease (kept_updOutput (foldl_mem (kept_outRecord (kept_outCount (kept_outCount h2a))) (fun _ _ h0 => ite_mem (fun _ => kept_unhold h0) (fun _ => kept_endHold h0))))) (fun _ => (by
    split
    · exact kept_beginFrame (kept_updOutput (foldl_mem (kept_outRecord (kept_outCount (kept_outCount h2a))) (fun _ _ h0 => ite_mem (fun _ => kept_unhold h0) (fun _ => kept_endHold h0))))
    · exact kept_updOutput (foldl_mem (kept_outRecord (kept_outCount (kept_outCount h2a))) (fun _ _ h0 => ite_mem (fun _ => kept_unhold h0) (fun _ => kept_endHold h0)))))

theorem kept_bandHandoffDo {a0 a1} (h1a : State.memOk a1) : State.memOk (bandHandoffDo a0 a1) := by
  unfold bandHandoffDo
  extract_lets -merge -underBinder +onlyGivenNames x0
  try clear_value x0
  split
  · assumption
  · refine ite_mem (fun _ => ?_) (fun _ => ?_)
    · assumption
    · extract_lets -merge -underBinder +onlyGivenNames x1
      try clear_value x1
      extract_lets -merge -underBinder +onlyGivenNames x2
      try clear_value x2
      extract_lets -merge -underBinder +onlyGivenNames x3
      try clear_value x3
      extract_lets -merge -underBinder +onlyGivenNames x4
      try clear_value x4
      extract_lets -merge -underBinder +onlyGivenNames x5
      have h6 : State.memOk (x5) := by
        unfold x5
        refine kept_count ?_
        assumption
      try clear_value x5
      extract_lets -merge -underBinder +onlyGivenNames x7
      have h8 : State.memOk (x7) := by
        unfold x7
        refine ite_mem (fun _ => ?_) (fun _ => ?_)
        · refine kept_count ?_
          assumption
        · assumption
      try clear_value x7
      extract_lets -merge -underBinder +onlyGivenNames x9
      have h10 : State.memOk (x9) := by
        unfold x9
        refine ite_mem (fun _ => ?_) (fun _ => ?_)
        · refine kept_count ?_
          assumption
        · assumption
      try clear_value x9
      extract_lets -merge -underBinder +onlyGivenNames x11
      have h12 : State.memOk (x11) := by
        unfold x11
        refine foldl_mem ?_ ?_
        · assumption
        · intro y13 y14 h15
          refine kept_veArrive ?_
          assumption
      try clear_value x11
      extract_lets -merge -underBinder +onlyGivenNames x16
      try clear_value x16
      refine ite_mem (fun _ => ?_) (fun _ => ?_)
      · refine kept_endFrame ?_
        assumption
      · refine kept_updOutput ?_
        assumption

theorem kept_execPxBandHandoff {a0 a1} (h1a : State.memOk a1) : ∀ t, execPxBandHandoff a0 a1 = .next t → State.memOk t := by
  unfold execPxBandHandoff
  exact kept_onWf (kept_bandHandoffDo h1a)

theorem kept_waitExpireDo {a0 a1 a2} (h2a : State.memOk a2) : State.memOk (waitExpireDo a0 a1 a2) := by
  unfold waitExpireDo
  extract_lets -merge -underBinder +onlyGivenNames x0
  try clear_value x0
  split
  · assumption
  · extract_lets -merge -underBinder +onlyGivenNames x1
    try clear_value x1
    refine ite_mem (fun _ => ?_) (fun _ => ?_)
    · assumption
    · extract_lets -merge -underBinder +onlyGivenNames x2
      try clear_value x2
      refine ite_mem (fun _ => ?_) (fun _ => ?_)
      · assumption
      · refine kept_count ?_
        refine kept_updOutput ?_
        assumption

theorem kept_execInputWaitExpire {a0 a1 a2} (h2a : State.memOk a2) : ∀ t, execInputWaitExpire a0 a1 a2 = .next t → State.memOk t := by
  unfold execInputWaitExpire
  exact kept_onWf (kept_waitExpireDo h2a)

end Sys2Proof
end

