-- ==== Sys2Proof/Laws/Kept/AccessRows.lean ====
section
/-! SUPPORT. What `Machine/AccessRows.lean` defines keeps the byte memories in their canonical form. -/

set_option linter.unusedVariables false

namespace Sys2Proof

open Machine

theorem kept_accWriteResult {a0 a1 a2} (h2a : State.memOk a2) : State.memOk (accWriteResult a0 a1 a2).2.2 := by
  unfold accWriteResult
  extract_lets -merge -underBinder +onlyGivenNames x0
  try clear_value x0
  extract_lets -merge -underBinder +onlyGivenNames x1
  try clear_value x1
  extract_lets -merge -underBinder +onlyGivenNames x2
  try clear_value x2
  extract_lets -merge -underBinder +onlyGivenNames x3
  try clear_value x3
  extract_lets -merge -underBinder +onlyGivenNames x4
  have h5 : State.memOk (x4) := by
    unfold x4
    refine mk_mem ?_
    assumption
  try clear_value x4
  split
  · refine mk_snd2_mem ?_
    assumption
  · split
    · refine mk_snd2_mem ?_
      assumption
    · split
      · refine mk_snd2_mem ?_
        assumption
      · split
        · refine mk_snd2_mem ?_
          assumption
        · refine mk_snd2_mem ?_
          assumption

theorem kept_accWriteDo {a0 a1 a2} (h2a : State.memOk a2) : State.memOk (accWriteDo a0 a1 a2) := by
  unfold accWriteDo
  exact mk_mem (kept_accWriteResult h2a)

theorem kept_accQueryDo {a0 a1 a2} (h2a : State.memOk a2) : State.memOk (accQueryDo a0 a1 a2) := by
  unfold accQueryDo
  exact mk_mem h2a

theorem kept_pageGated {a0 a1 a2 a3} (h2a : ∀ z0, State.memOk (z0) → State.memOk (a2 z0)) (h3a : State.memOk a3) : State.memOk (pageGated a0 a1 a2 a3) := by
  unfold pageGated
  exact ite_mem (fun _ => h2a _ (kept_accCheck h3a)) (fun _ => kept_accCheck h3a)

theorem kept_execAccWrite {a0 a1 a2} (h2a : State.memOk a2) : ∀ t, execAccWrite a0 a1 a2 = .next t → State.memOk t := by
  unfold execAccWrite
  exact kept_onWf (kept_pageGated (fun _ h0 => kept_accWriteDo h0) h2a)

theorem kept_execAccQuery {a0 a1 a2} (h2a : State.memOk a2) : ∀ t, execAccQuery a0 a1 a2 = .next t → State.memOk t := by
  unfold execAccQuery
  exact kept_onWf (kept_pageGated (fun _ h0 => kept_accQueryDo h0) h2a)

end Sys2Proof
end

