-- ==== Sys2Proof/Laws/Kept/Audio.lean ====
section
/-! SUPPORT. What `Machine/Audio.lean` defines keeps the byte memories in their canonical form. -/

set_option linter.unusedVariables false

namespace Sys2Proof

open Machine

theorem kept_setAudRoom {a0 a1 a2} (h2a : State.memOk a2) : State.memOk (setAudRoom a0 a1 a2) := by
  unfold setAudRoom
  exact mk_mem h2a

theorem kept_updAudRoom {a0 a1 a2} (h2a : State.memOk a2) : State.memOk (updAudRoom a0 a1 a2) := by
  unfold updAudRoom
  exact kept_setAudRoom h2a

theorem kept_removeInput {a0 a1} (h1a : State.memOk a1) : State.memOk (removeInput a0 a1) := by
  unfold removeInput
  exact kept_releaseId (kept_dropWork (mk_mem (ite_mem (fun _ => ite_mem (fun _ => kept_updAudRoom h1a) (fun _ => kept_dropLoad (kept_updAudRoom h1a))) (fun _ => kept_updSource (ite_mem (fun _ => kept_updAudRoom h1a) (fun _ => kept_dropLoad (kept_updAudRoom h1a)))))))

theorem kept_removeGroup {a0 a1} (h1a : State.memOk a1) : State.memOk (removeGroup a0 a1) := by
  unfold removeGroup
  exact kept_removeSource (mk_mem (kept_dropWork (kept_dropLoad h1a)))

theorem kept_removeMixer {a0 a1} (h1a : State.memOk a1) : State.memOk (removeMixer a0 a1) := by
  unfold removeMixer
  exact kept_dropWork (mk_mem (foldl_mem h1a (fun _ _ h0 => kept_complete h0)))

theorem kept_audNotOwned {a0} (h0a : State.memOk a0) : State.memOk (audNotOwned a0).1 := by
  unfold audNotOwned
  exact kept_answer h0a

theorem kept_withGroup {a0 a1 a2 a3} (h2a : State.memOk a2) (h3a : ∀ z0, State.memOk (a3 z0).1) : State.memOk (withGroup a0 a1 a2 a3).1 := by
  unfold withGroup
  split
  · exact kept_answer h2a
  · exact kept_answer (kept_count h2a)
  · split
    · exact kept_badParam h2a
    · exact ite_fst_mem (fun _ => kept_viaWing (h3a _)) (fun _ => kept_audNotOwned h2a)

theorem kept_groupReleaseBody {a0 a1} (h1a : State.memOk a1) : State.memOk (groupReleaseBody a0 a1).1 := by
  unfold groupReleaseBody
  exact kept_withGroup h1a (fun _ => ite_fst_mem (fun _ => kept_answer (kept_removeGroup h1a)) (fun _ => kept_answer h1a))

theorem kept_setAudBus {a0 a1 a2} (h2a : State.memOk a2) : State.memOk (setAudBus a0 a1 a2) := by
  unfold setAudBus
  exact mk_mem h2a

theorem kept_setAudIn {a0 a1 a2} (h2a : State.memOk a2) : State.memOk (setAudIn a0 a1 a2) := by
  unfold setAudIn
  exact mk_mem h2a

theorem kept_updAudIn {a0 a1 a2} (h2a : State.memOk a2) : State.memOk (updAudIn a0 a1 a2) := by
  unfold updAudIn
  exact kept_setAudIn h2a

theorem kept_inCount {a0 a1 a2 a3} (h3a : State.memOk a3) : State.memOk (inCount a0 a1 a2 a3) := by
  unfold inCount
  exact ite_mem (fun _ => h3a) (fun _ => kept_updAudIn h3a)

theorem kept_lateToInputs {a0 a1} (h1a : State.memOk a1) : State.memOk (lateToInputs a0 a1) := by
  unfold lateToInputs
  exact foldl_mem h1a (fun _ _ h0 => kept_inCount h0)

theorem kept_unitToInputs {a0 a1 a2} (h2a : State.memOk a2) : State.memOk (unitToInputs a0 a1 a2) := by
  unfold unitToInputs
  exact foldl_mem h2a (fun _ _ h0 => kept_updAudIn h0)

theorem kept_roomCount {a0 a1 a2 a3} (h3a : State.memOk a3) : State.memOk (roomCount a0 a1 a2 a3) := by
  unfold roomCount
  exact ite_mem (fun _ => h3a) (fun _ => kept_updAudRoom h3a)

theorem kept_setAudGroup {a0 a1 a2} (h2a : State.memOk a2) : State.memOk (setAudGroup a0 a1 a2) := by
  unfold setAudGroup
  exact mk_mem h2a

theorem kept_updAudGroup {a0 a1 a2} (h2a : State.memOk a2) : State.memOk (updAudGroup a0 a1 a2) := by
  unfold updAudGroup
  exact kept_setAudGroup h2a

theorem kept_tileCount {a0 a1 a2 a3} (h3a : State.memOk a3) : State.memOk (tileCount a0 a1 a2 a3) := by
  unfold tileCount
  exact ite_mem (fun _ => h3a) (fun _ => kept_count h3a)

theorem kept_roomSetupBody {a0 a1} (h1a : State.memOk a1) : State.memOk (roomSetupBody a0 a1).1 := by
  unfold roomSetupBody
  exact ite_fst_mem (fun _ => kept_badParam h1a) (fun _ => ite_fst_mem (fun _ => kept_audNotOwned h1a) (fun _ => (by
    split
    · exact kept_answer h1a
    · exact kept_answer (kept_addWork (kept_setAudRoom h1a)))))

theorem kept_execAudRoomSetup {a0 a1} (h1a : State.memOk a1) : ∀ t, execAudRoomSetup a0 a1 = .next t → State.memOk t := by
  unfold execAudRoomSetup
  exact kept_onWf (kept_command (fun _ _ h0 => kept_strictly (fun _ _ h1 => kept_roomSetupBody h1) h0) h1a)

theorem kept_withMixer {a0 a1 a2 a3} (h2a : State.memOk a2) (h3a : State.memOk (a3).1) : State.memOk (withMixer a0 a1 a2 a3).1 := by
  unfold withMixer
  exact ite_fst_mem (fun _ => kept_audNotOwned h2a) (fun _ => ite_fst_mem (fun _ => kept_badParam h2a) (fun _ => kept_viaWing h3a))

theorem kept_writeShadow {a0 a1 a2} (h2a : State.memOk a2) : State.memOk (writeShadow a0 a1 a2).1 := by
  unfold writeShadow
  exact ite_fst_mem (fun _ => kept_answer h2a) (fun _ => kept_answer (kept_setAudRoom h2a))

theorem kept_roomSetBody {a0 a1} (h1a : State.memOk a1) : State.memOk (roomSetBody a0 a1).1 := by
  unfold roomSetBody
  exact kept_withMixer h1a (ite_fst_mem (fun _ => kept_badParam h1a) (fun _ => ite_fst_mem (fun _ => kept_answer h1a) (fun _ => kept_writeShadow h1a)))

theorem kept_execAudRoomSet {a0 a1} (h1a : State.memOk a1) : ∀ t, execAudRoomSet a0 a1 = .next t → State.memOk t := by
  unfold execAudRoomSet
  exact kept_onWf (kept_command (fun _ _ h0 => kept_strictly (fun _ _ h1 => kept_roomSetBody h1) h0) h1a)

theorem kept_groupCreateBody {a0 a1} (h1a : State.memOk a1) : State.memOk (groupCreateBody a0 a1).1 := by
  unfold groupCreateBody
  exact kept_withMixer h1a (ite_fst_mem (fun _ => kept_badParam h1a) (fun _ => ite_fst_mem (fun _ => kept_answer h1a) (fun _ => (by
    split
    · exact kept_answer h1a
    · exact kept_answer h1a
    · exact kept_answer (kept_addWork (kept_addLoad (kept_setAudGroup (kept_addSource h1a))))))))

theorem kept_execAudGroupCreate {a0 a1} (h1a : State.memOk a1) : ∀ t, execAudGroupCreate a0 a1 = .next t → State.memOk t := by
  unfold execAudGroupCreate
  exact kept_onWf (kept_command (fun _ _ h0 => kept_strictly (fun _ _ h1 => kept_groupCreateBody h1) h0) h1a)

theorem kept_attachInput {a0 a1} (h1a : State.memOk a1) : State.memOk (attachInput a0 a1).1 := by
  unfold attachInput
  split
  · exact kept_answer h1a
  · exact kept_answer (kept_addWork (kept_setAudIn (kept_allocId (ite_mem (fun _ => h1a) (fun _ => kept_addLoad h1a)))))

theorem kept_inAdmit {a0 a1 a2} (h2a : State.memOk a2) : State.memOk (inAdmit a0 a1 a2).1 := by
  unfold inAdmit
  exact ite_fst_mem (fun _ => kept_answer h2a) (fun _ => ite_fst_mem (fun _ => kept_answer h2a) (fun _ => ite_fst_mem (fun _ => kept_answer h2a) (fun _ => ite_fst_mem (fun _ => kept_answer h2a) (fun _ => (by
    split
    · exact kept_answer h2a
    · exact kept_viaPair (kept_attachInput (kept_updSource h2a)))))))

theorem kept_inAttachBody {a0 a1} (h1a : State.memOk a1) : State.memOk (inAttachBody a0 a1).1 := by
  unfold inAttachBody
  exact ite_fst_mem (fun _ => ite_fst_mem (fun _ => kept_audNotOwned h1a) (fun _ => ite_fst_mem (fun _ => kept_badParam h1a) (fun _ => ite_fst_mem (fun _ => kept_answer h1a) (fun _ => ite_fst_mem (fun _ => kept_answer (kept_partControl h1a)) (fun _ => ite_fst_mem (fun _ => kept_answer h1a) (fun _ => kept_attachInput h1a)))))) (fun _ => (by
    split
    · exact kept_answer h1a
    · exact kept_answer (kept_count h1a)
    · exact ite_fst_mem (fun _ => kept_audNotOwned h1a) (fun _ => ite_fst_mem (fun _ => kept_badParam h1a) (fun _ => ite_fst_mem (fun _ => kept_answer h1a) (fun _ => ite_fst_mem (fun _ => kept_answer (kept_partControl h1a)) (fun _ => kept_inAdmit h1a))))))

theorem kept_execAudInAttach {a0 a1} (h1a : State.memOk a1) : ∀ t, execAudInAttach a0 a1 = .next t → State.memOk t := by
  unfold execAudInAttach
  exact kept_onWf (kept_command (fun _ _ h0 => kept_strictly (fun _ _ h1 => kept_inAttachBody h1) h0) h1a)

theorem kept_withInput {a0 a1 a2 a3} (h2a : State.memOk a2) (h3a : State.memOk (a3).1) : State.memOk (withInput a0 a1 a2 a3).1 := by
  unfold withInput
  exact ite_fst_mem (fun _ => kept_viaWing h3a) (fun _ => kept_audNotOwned h2a)

theorem kept_inSetBody {a0 a1} (h1a : State.memOk a1) : State.memOk (inSetBody a0 a1).1 := by
  unfold inSetBody
  exact kept_withInput h1a (ite_fst_mem (fun _ => kept_badParam h1a) (fun _ => ite_fst_mem (fun _ => kept_answer h1a) (fun _ => kept_writeShadow h1a)))

theorem kept_execAudInSet {a0 a1} (h1a : State.memOk a1) : ∀ t, execAudInSet a0 a1 = .next t → State.memOk t := by
  unfold execAudInSet
  exact kept_onWf (kept_command (fun _ _ h0 => kept_strictly (fun _ _ h1 => kept_inSetBody h1) h0) h1a)

theorem kept_listenBody {a0 a1} (h1a : State.memOk a1) : State.memOk (listenBody a0 a1).1 := by
  unfold listenBody
  exact kept_withSub h1a (fun _ => (by
    split
    · split
      · exact kept_badParam h1a
      · exact ite_fst_mem (fun _ => kept_audNotOwned h1a) (fun _ => ite_fst_mem (fun _ => kept_answer (kept_setAudGroup h1a)) (fun _ => ite_fst_mem (fun _ => kept_badParam h1a) (fun _ => ite_fst_mem (fun _ => kept_answer h1a) (fun _ => kept_answer (kept_setAudGroup h1a)))))
    · exact kept_badParam h1a))

theorem kept_execAudListen {a0 a1} (h1a : State.memOk a1) : ∀ t, execAudListen a0 a1 = .next t → State.memOk t := by
  unfold execAudListen
  exact kept_onWf (kept_command (fun _ _ h0 => kept_strictly (fun _ _ h1 => kept_listenBody h1) h0) h1a)

theorem kept_safeloadBody {a0 a1} (h1a : State.memOk a1) : State.memOk (safeloadBody a0 a1).1 := by
  unfold safeloadBody
  exact kept_withMixer h1a (mk_fst_mem (kept_updAudRoom h1a))

theorem kept_execAudSafeload {a0 a1} (h1a : State.memOk a1) : ∀ t, execAudSafeload a0 a1 = .next t → State.memOk t := by
  unfold execAudSafeload
  exact kept_onWf (kept_command (fun _ _ h0 => kept_strictly (fun _ _ h1 => kept_safeloadBody h1) h0) h1a)

theorem kept_inReadBody {a0 a1} (h1a : State.memOk a1) : State.memOk (inReadBody a0 a1).1 := by
  unfold inReadBody
  exact kept_withInput h1a (kept_answer (ite_mem (fun _ => kept_updAudIn (kept_hostPut h1a)) (fun _ => kept_hostPut h1a)))

theorem kept_execAudInRead {a0 a1} (h1a : State.memOk a1) : ∀ t, execAudInRead a0 a1 = .next t → State.memOk t := by
  unfold execAudInRead
  exact kept_onWf (kept_command (fun _ _ h0 => kept_strictly (fun _ _ h1 => kept_inReadBody h1) h0) h1a)

theorem kept_roomReadBody {a0 a1} (h1a : State.memOk a1) : State.memOk (roomReadBody a0 a1).1 := by
  unfold roomReadBody
  exact kept_withMixer h1a (kept_answer (ite_mem (fun _ => kept_updAudRoom (kept_hostPut h1a)) (fun _ => kept_hostPut h1a)))

theorem kept_execAudRoomRead {a0 a1} (h1a : State.memOk a1) : ∀ t, execAudRoomRead a0 a1 = .next t → State.memOk t := by
  unfold execAudRoomRead
  exact kept_onWf (kept_command (fun _ _ h0 => kept_strictly (fun _ _ h1 => kept_roomReadBody h1) h0) h1a)

theorem kept_inReleaseBody {a0 a1} (h1a : State.memOk a1) : State.memOk (inReleaseBody a0 a1).1 := by
  unfold inReleaseBody
  exact kept_withInput h1a (kept_answer (kept_removeInput h1a))

theorem kept_execAudInRelease {a0 a1} (h1a : State.memOk a1) : ∀ t, execAudInRelease a0 a1 = .next t → State.memOk t := by
  unfold execAudInRelease
  exact kept_onWf (kept_command (fun _ _ h0 => kept_strictly (fun _ _ h1 => kept_inReleaseBody h1) h0) h1a)

theorem kept_execAudGroupRelease {a0 a1} (h1a : State.memOk a1) : ∀ t, execAudGroupRelease a0 a1 = .next t → State.memOk t := by
  unfold execAudGroupRelease
  exact kept_onWf (kept_command (fun _ _ h0 => kept_strictly (fun _ _ h1 => kept_groupReleaseBody h1) h0) h1a)

theorem kept_roomReleaseBody {a0 a1} (h1a : State.memOk a1) : State.memOk (roomReleaseBody a0 a1).1 := by
  unfold roomReleaseBody
  exact kept_withMixer h1a (ite_fst_mem (fun _ => kept_answer h1a) (fun _ => kept_answer (kept_removeMixer h1a)))

theorem kept_execAudRoomRelease {a0 a1} (h1a : State.memOk a1) : ∀ t, execAudRoomRelease a0 a1 = .next t → State.memOk t := by
  unfold execAudRoomRelease
  exact kept_onWf (kept_command (fun _ _ h0 => kept_strictly (fun _ _ h1 => kept_roomReleaseBody h1) h0) h1a)

theorem kept_updAudBus {a0 a1 a2} (h2a : State.memOk a2) : State.memOk (updAudBus a0 a1 a2) := by
  unfold updAudBus
  exact kept_setAudBus h2a

theorem kept_busSetBody {a0 a1} (h1a : State.memOk a1) : State.memOk (busSetBody a0 a1).1 := by
  unfold busSetBody
  exact ite_fst_mem (fun _ => kept_audNotOwned h1a) (fun _ => ite_fst_mem (fun _ => kept_badParam h1a) (fun _ => ite_fst_mem (fun _ => kept_answer h1a) (fun _ => (by
    split
    · exact kept_queueRefused h1a
    · exact kept_degradedIf (kept_answer (kept_updAudBus h1a))))))

theorem kept_execAudBusSet {a0 a1} (h1a : State.memOk a1) : ∀ t, execAudBusSet a0 a1 = .next t → State.memOk t := by
  unfold execAudBusSet
  exact kept_onWf (kept_command (fun _ _ h0 => kept_strictly (fun _ _ h1 => kept_busSetBody h1) h0) h1a)

theorem kept_busReadBody {a0 a1} (h1a : State.memOk a1) : State.memOk (busReadBody a0 a1).1 := by
  unfold busReadBody
  exact kept_degradedIf (kept_answer (ite_mem (fun _ => kept_updAudBus (kept_hostPut h1a)) (fun _ => kept_hostPut h1a)))

theorem kept_execAudBusRead {a0 a1} (h1a : State.memOk a1) : ∀ t, execAudBusRead a0 a1 = .next t → State.memOk t := by
  unfold execAudBusRead
  exact kept_onWf (kept_command (fun _ _ h0 => kept_strictly (fun _ _ h1 => kept_busReadBody h1) h0) h1a)

theorem kept_roomNotifyBody {a0 a1} (h1a : State.memOk a1) : State.memOk (roomNotifyBody a0 a1).1 := by
  unfold roomNotifyBody
  exact kept_withMixer h1a (kept_answer (kept_updAudRoom h1a))

theorem kept_execAudRoomNotify {a0 a1} (h1a : State.memOk a1) : ∀ t, execAudRoomNotify a0 a1 = .next t → State.memOk t := by
  unfold execAudRoomNotify
  exact kept_onWf (kept_command (fun _ _ h0 => kept_strictly (fun _ _ h1 => kept_roomNotifyBody h1) h0) h1a)

theorem kept_pushSamples {a0 a1 a2} (h2a : State.memOk a2) : State.memOk (pushSamples a0 a1 a2) := by
  unfold pushSamples
  exact kept_inCount (kept_setAudIn h2a)

theorem kept_audioDecodeDo {a0 a1} (h1a : State.memOk a1) : State.memOk (audioDecodeDo a0 a1) := by
  unfold audioDecodeDo
  extract_lets -merge -underBinder +onlyGivenNames x0
  try clear_value x0
  split
  · refine ite_mem (fun _ => ?_) (fun _ => ?_)
    · assumption
    · extract_lets -merge -underBinder +onlyGivenNames x1
      try clear_value x1
      extract_lets -merge -underBinder +onlyGivenNames x2
      try clear_value x2
      split
      · extract_lets -merge -underBinder +onlyGivenNames x3
        try clear_value x3
        extract_lets -merge -underBinder +onlyGivenNames x4
        try clear_value x4
        extract_lets -merge -underBinder +onlyGivenNames x5
        try clear_value x5
        extract_lets -merge -underBinder +onlyGivenNames x6
        try clear_value x6
        extract_lets -merge -underBinder +onlyGivenNames x7
        try clear_value x7
        refine kept_pushSamples ?_
        refine kept_inCount ?_
        refine kept_tileCount ?_
        refine kept_setAudIn ?_
        assumption
      · extract_lets -merge -underBinder +onlyGivenNames x8
        try clear_value x8
        extract_lets -merge -underBinder +onlyGivenNames x9
        try clear_value x9
        extract_lets -merge -underBinder +onlyGivenNames x10
        try clear_value x10
        extract_lets -merge -underBinder +onlyGivenNames x11
        try clear_value x11
        refine kept_pushSamples ?_
        refine kept_inCount ?_
        refine kept_tileCount ?_
        refine kept_inCount ?_
        refine kept_setAudIn ?_
        assumption
  · refine kept_setAudIn ?_
    assumption
  · assumption

theorem kept_execAudioDecode {a0 a1} (h1a : State.memOk a1) : ∀ t, execAudioDecode a0 a1 = .next t → State.memOk t := by
  unfold execAudioDecode
  exact kept_onWf (kept_audioDecodeDo h1a)

theorem kept_busCount {a0 a1 a2 a3} (h3a : State.memOk a3) : State.memOk (busCount a0 a1 a2 a3) := by
  unfold busCount
  exact ite_mem (fun _ => h3a) (fun _ => kept_updAudBus h3a)

end Sys2Proof
end

