-- ==== Sys2Proof/Laws/Kept/Domain.lean ====
section
/-! SUPPORT. What `Machine/Domain.lean` defines keeps the byte memories in their canonical form. -/

set_option linter.unusedVariables false

namespace Sys2Proof

open Machine

theorem kept_updDom {a0 a1} (h1a : State.memOk a1) : State.memOk (updDom a0 a1) := by
  unfold updDom
  exact mk_mem h1a

theorem kept_setDomCfg {a0 a1} (h1a : State.memOk a1) : State.memOk (setDomCfg a0 a1) := by
  unfold setDomCfg
  exact kept_updDom h1a

theorem kept_sendDomain {a0 a1 a2} (h2a : State.memOk a2) : State.memOk (sendDomain a0 a1 a2) := by
  unfold sendDomain
  exact foldl_mem h2a (fun _ _ h0 => kept_sendFrame h0)

theorem kept_noteSeen {a0 a1 a2} (h2a : State.memOk a2) : State.memOk (noteSeen a0 a1 a2) := by
  unfold noteSeen
  exact kept_updDom h2a

theorem kept_originate {a0 a1 a2 a3} (h3a : State.memOk a3) : State.memOk (originate a0 a1 a2 a3) := by
  unfold originate
  exact kept_sendDomain (kept_noteSeen (kept_updDom h3a))

theorem kept_domStep {a0 a1} (h1a : State.memOk a1) : State.memOk (domStep a0 a1) := by
  unfold domStep
  exact kept_updDom h1a

theorem kept_showMembers {a0} (h0a : State.memOk a0) : State.memOk (showMembers a0) := by
  unfold showMembers
  exact ite_mem (fun _ => kept_updDom h0a) (fun _ => kept_updDom h0a)

theorem kept_domStop {a0} (h0a : State.memOk a0) : State.memOk (domStop a0) := by
  unfold domStop
  exact kept_showMembers (kept_updDom (kept_domStep (kept_domSetState (kept_originate h0a))))

theorem kept_domStart {a0} (h0a : State.memOk a0) : State.memOk (domStart a0) := by
  unfold domStart
  exact kept_showMembers (kept_domStep (kept_domSetState (kept_updDom h0a)))

theorem kept_domCfgSet {a0 a1} (h1a : State.memOk a1) : State.memOk (domCfgSet a0 a1) := by
  unfold domCfgSet
  exact ite_mem (fun _ => ite_mem (fun _ => h1a) (fun _ => kept_setDomCfg (kept_domStop h1a))) (fun _ => ite_mem (fun _ => kept_domStart (kept_setDomCfg h1a)) (fun _ => kept_setDomCfg h1a))

theorem kept_domEnd {a0 a1 a2} (h2a : State.memOk a2) : State.memOk (domEnd a0 a1 a2) := by
  unfold domEnd
  exact kept_showMembers (kept_domStep (kept_domSetState h2a))

theorem kept_tableChanged {a0} (h0a : State.memOk a0) : State.memOk (tableChanged a0) := by
  unfold tableChanged
  exact ite_mem (fun _ => kept_domEnd (ite_mem (fun _ => kept_domStep (kept_updDom h0a)) (fun _ => kept_updDom h0a))) (fun _ => kept_showMembers (ite_mem (fun _ => kept_domStep (kept_updDom h0a)) (fun _ => kept_updDom h0a)))

theorem kept_dropMember {a0 a1} (h1a : State.memOk a1) : State.memOk (dropMember a0 a1) := by
  unfold dropMember
  exact kept_tableChanged (kept_updDom h1a)

theorem kept_memberLostDo {a0 a1} (h1a : State.memOk a1) : State.memOk (memberLostDo a0 a1) := by
  unfold memberLostDo
  split
  · exact h1a
  · exact ite_mem (fun _ => kept_dropMember h1a) (fun _ => h1a)

theorem kept_flood {a0 a1 a2} (h2a : State.memOk a2) : State.memOk (flood a0 a1 a2).1 := by
  unfold flood
  exact ite_fst_mem (fun _ => mk_fst_mem h2a) (fun _ => mk_fst_mem (kept_sendDomain (kept_noteSeen h2a)))

theorem kept_leaveDo {a0 a1 a2} (h2a : State.memOk a2) : State.memOk (leaveDo a0 a1 a2) := by
  unfold leaveDo
  exact ite_mem (fun _ => h2a) (fun _ => ite_mem (fun _ => kept_flood h2a) (fun _ => kept_dropMember (kept_updDom (kept_flood h2a))))

theorem kept_execDomLeave {a0 a1 a2} (h2a : State.memOk a2) : ∀ t, execDomLeave a0 a1 a2 = .next t → State.memOk t := by
  unfold execDomLeave
  exact kept_onWf (kept_leaveDo h2a)

theorem kept_sendCompat {a0} (h0a : State.memOk a0) : State.memOk (sendCompat a0) := by
  unfold sendCompat
  split
  · exact h0a
  · split
    · exact h0a
    · exact kept_originate h0a

theorem kept_offsetActs {a0} (h0a : State.memOk a0) : State.memOk (offsetActs a0) := by
  unfold offsetActs
  exact ite_mem (fun _ => kept_domEnd h0a) (fun _ => ite_mem (fun _ => kept_sendCompat (kept_domStep h0a)) (fun _ => h0a))

theorem kept_measureOffset {a0 a1} (h1a : State.memOk a1) : State.memOk (measureOffset a0 a1) := by
  unfold measureOffset
  exact kept_updDom h1a

theorem kept_isolatedTimeDo {a0 a1} (h1a : State.memOk a1) : State.memOk (isolatedTimeDo a0 a1) := by
  unfold isolatedTimeDo
  exact ite_mem (fun _ => kept_offsetActs (kept_measureOffset h1a)) (fun _ => h1a)

theorem kept_execIsolatedTime {a0 a1} (h1a : State.memOk a1) : ∀ t, execIsolatedTime a0 a1 = .next t → State.memOk t := by
  unfold execIsolatedTime
  exact kept_onWf (kept_isolatedTimeDo h1a)

theorem kept_domCfgDo {a0 a1} (h1a : State.memOk a1) : State.memOk (domCfgDo a0 a1) := by
  unfold domCfgDo
  exact kept_saving (fun _ h0 => kept_domCfgSet h0) h1a

theorem kept_helloDo {a0 a1} (h1a : State.memOk a1) : State.memOk (helloDo a0 a1) := by
  unfold helloDo
  exact ite_mem (fun _ => kept_originate (kept_updDom h1a)) (fun _ => h1a)

theorem kept_execHello {a0 a1} (h1a : State.memOk a1) : ∀ t, execHello a0 a1 = .next t → State.memOk t := by
  unfold execHello
  exact kept_onWf (kept_helloDo h1a)

theorem kept_helloRxDo {a0 a1 a2} (h2a : State.memOk a2) : State.memOk (helloRxDo a0 a1 a2) := by
  unfold helloRxDo
  exact ite_mem (fun _ => h2a) (fun _ => ite_mem (fun _ => kept_updDom (kept_updDom h2a)) (fun _ => ite_mem (fun _ => kept_domStep (ite_mem (fun _ => kept_updDom (kept_updDom h2a)) (fun _ => kept_tableChanged (kept_updDom (kept_updDom (kept_updDom h2a)))))) (fun _ => ite_mem (fun _ => kept_updDom (kept_updDom h2a)) (fun _ => kept_tableChanged (kept_updDom (kept_updDom (kept_updDom h2a)))))))

theorem kept_execHelloRx {a0 a1 a2} (h2a : State.memOk a2) : ∀ t, execHelloRx a0 a1 a2 = .next t → State.memOk t := by
  unfold execHelloRx
  exact kept_onWf (kept_helloRxDo h2a)

theorem kept_linkStateDo {a0 a1 a2} (h2a : State.memOk a2) : State.memOk (linkStateDo a0 a1 a2) := by
  unfold linkStateDo
  exact ite_mem (fun _ => h2a) (fun _ => ite_mem (fun _ => kept_flood h2a) (fun _ => ite_mem (fun _ => kept_updDom (kept_flood h2a)) (fun _ => kept_tableChanged (kept_updDom (kept_flood h2a)))))

theorem kept_execLinkState {a0 a1 a2} (h2a : State.memOk a2) : ∀ t, execLinkState a0 a1 a2 = .next t → State.memOk t := by
  unfold execLinkState
  exact kept_onWf (kept_linkStateDo h2a)

theorem kept_linkSendDo {a0} (h0a : State.memOk a0) : State.memOk (linkSendDo a0) := by
  unfold linkSendDo
  exact ite_mem (fun _ => kept_originate (kept_updDom h0a)) (fun _ => h0a)

theorem kept_execLinkStateSend {a0} (h0a : State.memOk a0) : ∀ t, execLinkStateSend a0 = .next t → State.memOk t := by
  unfold execLinkStateSend
  exact kept_onWf (kept_linkSendDo h0a)

theorem kept_noteAnswer {a0 a1 a2} (h2a : State.memOk a2) : State.memOk (noteAnswer a0 a1 a2) := by
  unfold noteAnswer
  exact kept_showMembers (kept_updDom h2a)

theorem kept_compatDo {a0 a1 a2} (h2a : State.memOk a2) : State.memOk (compatDo a0 a1 a2) := by
  unfold compatDo
  exact ite_mem (fun _ => h2a) (fun _ => ite_mem (fun _ => kept_noteAnswer (kept_originate h2a)) (fun _ => (by
    split
    · exact ite_mem (fun _ => h2a) (fun _ => kept_sendDomain h2a)
    · exact h2a)))

theorem kept_execCompat {a0 a1 a2} (h2a : State.memOk a2) : ∀ t, execCompat a0 a1 a2 = .next t → State.memOk t := by
  unfold execCompat
  exact kept_onWf (kept_compatDo h2a)

theorem kept_joinDo {a0 a1 a2} (h2a : State.memOk a2) : State.memOk (joinDo a0 a1 a2) := by
  unfold joinDo
  exact ite_mem (fun _ => h2a) (fun _ => ite_mem (fun _ => kept_flood h2a) (fun _ => ite_mem (fun _ => kept_noteAnswer (kept_flood h2a)) (fun _ => ite_mem (fun _ => kept_noteAnswer (kept_domEnd (kept_flood h2a))) (fun _ => kept_flood h2a))))

theorem kept_execDomJoin {a0 a1 a2} (h2a : State.memOk a2) : ∀ t, execDomJoin a0 a1 a2 = .next t → State.memOk t := by
  unfold execDomJoin
  exact kept_onWf (kept_joinDo h2a)

theorem kept_neighbourLostDo {a0 a1} (h1a : State.memOk a1) : State.memOk (neighbourLostDo a0 a1) := by
  unfold neighbourLostDo
  split
  · exact h1a
  · exact ite_mem (fun _ => kept_tableChanged (kept_updDom h1a)) (fun _ => h1a)

theorem kept_execNeighbourLost {a0 a1} (h1a : State.memOk a1) : ∀ t, execNeighbourLost a0 a1 = .next t → State.memOk t := by
  unfold execNeighbourLost
  exact kept_onWf (kept_neighbourLostDo h1a)

theorem kept_execMemberLost {a0 a1} (h1a : State.memOk a1) : ∀ t, execMemberLost a0 a1 = .next t → State.memOk t := by
  unfold execMemberLost
  exact kept_onWf (kept_memberLostDo h1a)

theorem kept_electionDo {a0} (h0a : State.memOk a0) : State.memOk (electionDo a0) := by
  unfold electionDo
  split
  · exact h0a
  · exact ite_mem (fun _ => h0a) (fun _ => ite_mem (fun _ => kept_domEnd (kept_updDom h0a)) (fun _ => ite_mem (fun _ => kept_domEnd (kept_updDom h0a)) (fun _ => ite_mem (fun _ => kept_showMembers (kept_updDom h0a)) (fun _ => ite_mem (fun _ => kept_domEnd (kept_updDom h0a)) (fun _ => ite_mem (fun _ => kept_showMembers (kept_domStep (kept_domSetState (kept_updDom h0a)))) (fun _ => kept_showMembers (kept_updDom h0a)))))))

theorem kept_execElection {a0} (h0a : State.memOk a0) : ∀ t, execElection a0 = .next t → State.memOk t := by
  unfold execElection
  exact kept_onWf (kept_electionDo h0a)

theorem kept_domTimeoutDo {a0} (h0a : State.memOk a0) : State.memOk (domTimeoutDo a0) := by
  unfold domTimeoutDo
  exact ite_mem (fun _ => h0a) (fun _ => ite_mem (fun _ => kept_domStep h0a) (fun _ => ite_mem (fun _ => kept_domEnd h0a) (fun _ => ite_mem (fun _ => kept_domStep (kept_updDom (kept_updDom h0a))) (fun _ => kept_sendCompat (kept_domStep (kept_updDom h0a))))))

theorem kept_execDomainStepTimeout {a0} (h0a : State.memOk a0) : ∀ t, execDomainStepTimeout a0 = .next t → State.memOk t := by
  unfold execDomainStepTimeout
  exact kept_onWf (kept_domTimeoutDo h0a)

theorem kept_execDomCfg {a0 a1 a2} (h2a : State.memOk a2) : ∀ t, execDomCfg a0 a1 a2 = .next t → State.memOk t := by
  unfold execDomCfg
  exact kept_onWf (kept_gated (fun _ h0 => kept_domCfgDo h0) h2a)

theorem kept_timeAlignedDo {a0 a1} (h1a : State.memOk a1) : State.memOk (timeAlignedDo a0 a1) := by
  unfold timeAlignedDo
  exact ite_mem (fun _ => kept_offsetActs (kept_measureOffset h1a)) (fun _ => h1a)

theorem kept_execTimeAligned {a0 a1} (h1a : State.memOk a1) : ∀ t, execTimeAligned a0 a1 = .next t → State.memOk t := by
  unfold execTimeAligned
  exact kept_onWf (kept_timeAlignedDo h1a)

end Sys2Proof
end

