-- ==== Sys2Proof/Laws/Kept/DramRows.lean ====
section
/-! SUPPORT. What `Machine/DramRows.lean` defines keeps the byte memories in their canonical form. -/

set_option linter.unusedVariables false

namespace Sys2Proof

open Machine

theorem kept_poisonItems {a0 a1 a2 a3} (h3a : State.memOk a3) : State.memOk (poisonItems a0 a1 a2 a3) := by
  unfold poisonItems
  exact ite_mem (fun _ => foldl_mem h3a (fun _ _ h0 => kept_enginePost h0)) (fun _ => h3a)

theorem kept_dramRowDo {a0 a1 a2 a3 a4 a5} (h5a : State.memOk a5) : State.memOk (dramRowDo a0 a1 a2 a3 a4 a5) := by
  unfold dramRowDo
  exact ite_mem (fun _ => kept_poisonItems (kept_dramRequestDo (mk_mem h5a))) (fun _ => kept_dramRequestDo (mk_mem h5a))

theorem kept_execDramRequest {a0 a1 a2 a3 a4 a5} (h5a : State.memOk a5) : ∀ t, execDramRequest a0 a1 a2 a3 a4 a5 = .next t → State.memOk t := by
  unfold execDramRequest
  exact kept_onWf (kept_dramRowDo h5a)

end Sys2Proof
end

