-- ==== Sys2Proof/Laws/Kept/Mix.lean ====
section
/-! SUPPORT. What `Machine/Mix.lean` defines keeps the byte memories in their canonical form. -/

set_option linter.unusedVariables false

namespace Sys2Proof

open Machine

theorem kept_aesRead {a0} (h0a : State.memOk a0) : State.memOk (aesRead a0).2 := by
  unfold aesRead
  exact foldl_snd_mem (mk_snd_mem h0a) (fun _ _ h0 => ite_snd_mem (fun _ => mk_snd_mem (kept_aesTake h0)) (fun _ => mk_snd_mem h0))

theorem kept_applyBus {a0 a1} (h1a : State.memOk a1) : State.memOk (applyBus a0 a1) := by
  unfold applyBus
  extract_lets -merge -underBinder +onlyGivenNames x0
  try clear_value x0
  split
  · assumption
  · refine kept_setAudBus ?_
    assumption

theorem kept_applyLoads {a0 a1 a2} (h2a : State.memOk a2) : State.memOk (applyLoads a0 a1 a2) := by
  unfold applyLoads
  exact ite_mem (fun _ => h2a) (fun _ => foldl_mem (kept_roomCount (foldl_mem (kept_setAudRoom h2a) (fun _ _ h0 => kept_updAudIn h0))) (fun _ _ h1 => kept_complete h1))

theorem kept_setTalkers {a0 a1 a2} (h2a : State.memOk a2) : State.memOk (setTalkers a0 a1 a2) := by
  unfold setTalkers
  exact kept_updAudRoom h2a

theorem kept_takeSlots {a0 a1 a2} (h2a : State.memOk a2) : State.memOk (takeSlots a0 a1 a2) := by
  unfold takeSlots
  exact foldl_mem h2a (fun _ _ h0 => ite_mem (fun _ => kept_updAudGroup h0) (fun _ => h0))

theorem kept_admitTalker {a0 a1 a2} (h1a : State.memOk a1) : State.memOk (admitTalker a0 a1 a2) := by
  unfold admitTalker
  exact ite_mem (fun _ => h1a) (fun _ => ite_mem (fun _ => ite_mem (fun _ => kept_takeSlots (kept_setTalkers h1a)) (fun _ => kept_roomCount h1a)) (fun _ => ite_mem (fun _ => h1a) (fun _ => (by
    split
    · exact h1a
    · exact ite_mem (fun _ => kept_takeSlots (kept_roomCount (kept_setTalkers h1a))) (fun _ => h1a)))))

theorem kept_chooseTalkers {a0 a1 a2} (h2a : State.memOk a2) : State.memOk (chooseTalkers a0 a1 a2) := by
  unfold chooseTalkers
  exact ite_mem (fun _ => kept_enginePost (foldl_mem (kept_setTalkers h2a) (fun _ _ h0 => kept_admitTalker h0))) (fun _ => foldl_mem (kept_setTalkers h2a) (fun _ _ h0 => kept_admitTalker h0))

theorem kept_roomMixIns {a0 a1 a2} (h2a : State.memOk a2) : State.memOk (roomMixIns a0 a1 a2).2 := by
  unfold roomMixIns
  exact mk_snd_mem (kept_updAudRoom (foldl_snd_mem (mk_snd_mem h2a) (fun _ _ h0 => mk_snd_mem (kept_tileCount (kept_inCount (ite_mem (fun _ => kept_tileCount (kept_inCount (kept_setAudIn h0))) (fun _ => kept_setAudIn h0)))))))

theorem kept_roomBlock {a0 a1 a2 a3} (h3a : State.memOk a3) : State.memOk (roomBlock a0 a1 a2 a3) := by
  unfold roomBlock
  exact kept_updAudRoom (foldl_mem (kept_tileCount (kept_tileCount (kept_roomCount (kept_setAudRoom (kept_roomMixIns (foldl_mem (kept_chooseTalkers (foldl_mem (kept_applyLoads h3a) (fun _ _ h0 => kept_updAudGroup h0))) (fun _ _ h1 => kept_setAudGroup h1))))))) (fun _ _ h2 => ite_mem (fun _ => kept_tileCount (kept_tileCount (kept_roomCount (kept_setAudGroup h2)))) (fun _ => kept_tileCount (kept_roomCount (kept_setAudGroup h2)))))

theorem kept_allBuses {a0 a1} (h0a : ∀ z0 z1, State.memOk (z1) → State.memOk (a0 z0 z1)) (h1a : State.memOk a1) : State.memOk (allBuses a0 a1) := by
  unfold allBuses
  exact foldl_mem h1a (fun _ _ h0 => h0a _ _ h0)

theorem kept_tapPush {a0 a1 a2 a3 a4} (h4a : State.memOk a4) : State.memOk (tapPush a0 a1 a2 a3 a4) := by
  unfold tapPush
  exact ite_mem (fun _ => h4a) (fun _ => ite_mem (fun _ => kept_devicePush h4a) (fun _ => kept_busCount (kept_devicePush h4a)))

theorem kept_finishBusBlock {a0 a1} (h1a : State.memOk a1) : State.memOk (finishBusBlock a0 a1) := by
  unfold finishBusBlock
  extract_lets -merge -underBinder +onlyGivenNames x0
  try clear_value x0
  split
  · assumption
  · extract_lets -merge -underBinder +onlyGivenNames x1
    try clear_value x1
    extract_lets -merge -underBinder +onlyGivenNames x2
    have h3 : State.memOk (x2) := by
      unfold x2
      refine kept_setAudBus ?_
      assumption
    try clear_value x2
    extract_lets -merge -underBinder +onlyGivenNames x4
    try clear_value x4
    extract_lets -merge -underBinder +onlyGivenNames x5
    have h6 : State.memOk (x5) := by
      unfold x5
      refine ite_mem (fun _ => ?_) (fun _ => ?_)
      · refine kept_wakeOut ?_
        refine kept_busCount ?_
        refine kept_updAudBus ?_
        assumption
      · assumption
    try clear_value x5
    refine ite_mem (fun _ => ?_) (fun _ => ?_)
    · assumption
    · refine kept_aesOutBlock ?_
      refine kept_tapPush ?_
      assumption

theorem kept_busBlock {a0 a1 a2} (h2a : State.memOk a2) : State.memOk (busBlock a0 a1 a2) := by
  unfold busBlock
  exact kept_busCount (kept_setAudBus (kept_applyBus h2a))

theorem kept_mixBlock {a0 a1} (h1a : State.memOk a1) : State.memOk (mixBlock a0 a1) := by
  unfold mixBlock
  exact kept_allBuses (fun _ _ h3 => kept_busBlock h3) (foldl_mem (kept_aesRead (kept_allBuses (fun _ _ h0 => kept_aesSteer h0) (kept_allBuses (fun _ _ h1 => kept_finishBusBlock h1) h1a))) (fun _ _ h2 => kept_roomBlock h2))

theorem kept_busParkDo {a0 a1} (h1a : State.memOk a1) : State.memOk (busParkDo a0 a1) := by
  unfold busParkDo
  exact ite_mem (fun _ => h1a) (fun _ => kept_parkOut (kept_tapPush (kept_busCount (kept_setAudBus h1a))))

theorem kept_execBusPark {a0 a1} (h1a : State.memOk a1) : ∀ t, execBusPark a0 a1 = .next t → State.memOk t := by
  unfold execBusPark
  exact kept_onWf (kept_busParkDo h1a)

end Sys2Proof
end

