-- ==== Sys2Proof/Laws/Kept/Dsp.lean ====
section
/-! SUPPORT. What `Machine/Dsp.lean` defines keeps the byte memories in their canonical form. -/

set_option linter.unusedVariables false

namespace Sys2Proof

open Machine

theorem kept_dspPsetI {a0 a1 a2} (h2a : State.memOk a2) : State.memOk (dspPsetI a0 a1 a2).1 := by
  unfold dspPsetI
  exact mk_fst_mem h2a

theorem kept_dspVldbI {a0 a1 a2 a3} (h3a : State.memOk a3) : State.memOk (dspVldbI a0 a1 a2 a3).1 := by
  unfold dspVldbI
  exact ite_fst_mem (fun _ => mk_fst_mem h3a) (fun _ => mk_fst_mem h3a)

theorem kept_dspNopI {a0 a1 a2} (h2a : State.memOk a2) : State.memOk (dspNopI a0 a1 a2).1 := by
  unfold dspNopI
  exact mk_fst_mem h2a

theorem kept_dspAccrndI {a0 a1 a2} (h2a : State.memOk a2) : State.memOk (dspAccrndI a0 a1 a2).1 := by
  unfold dspAccrndI
  exact mk_fst_mem h2a

theorem kept_doorbellGated {a0 a1 a2 a3 a4} (h3a : ∀ z0, State.memOk (z0) → State.memOk (a3 z0)) (h4a : State.memOk a4) : State.memOk (doorbellGated a0 a1 a2 a3 a4) := by
  unfold doorbellGated
  exact ite_mem (fun _ => kept_gated (fun _ h0 => h3a _ h0) h4a) (fun _ => ite_mem (fun _ => ite_mem (fun _ => ite_mem (fun _ => h3a _ (kept_accCheck (kept_accCheck h4a))) (fun _ => kept_accCheck (kept_accCheck h4a))) (fun _ => kept_accCheck h4a)) (fun _ => h4a))

theorem kept_doorbellDo {a0 a1 a2 a3} (h3a : State.memOk a3) : State.memOk (doorbellDo a0 a1 a2 a3) := by
  unfold doorbellDo
  exact ite_mem (fun _ => h3a) (fun _ => kept_updDspCore h3a)

theorem kept_mixStartDo {a0} (h0a : State.memOk a0) : State.memOk (mixStartDo a0) := by
  unfold mixStartDo
  split
  · exact h0a
  · exact ite_mem (fun _ => mk_mem h0a) (fun _ => mk_mem (kept_mixBlock (mk_mem h0a)))

theorem kept_execMixBlockStart {a0} (h0a : State.memOk a0) : ∀ t, execMixBlockStart a0 = .next t → State.memOk t := by
  unfold execMixBlockStart
  exact kept_onWf (kept_mixStartDo h0a)

theorem kept_execTileDspDoorbell {a0 a1 a2 a3 a4} (h4a : State.memOk a4) : ∀ t, execTileDspDoorbell a0 a1 a2 a3 a4 = .next t → State.memOk t := by
  unfold execTileDspDoorbell
  exact kept_onWf (kept_doorbellGated (fun _ h0 => kept_doorbellDo h0) h4a)

theorem kept_pipeDo {a0 a1 a2} (h2a : State.memOk a2) : State.memOk (pipeDo a0 a1 a2) := by
  unfold pipeDo
  exact ite_mem (fun _ => kept_updDspCore h2a) (fun _ => h2a)

theorem kept_execPipe {a0 a1 a2} (h2a : State.memOk a2) : ∀ t, execPipe a0 a1 a2 = .next t → State.memOk t := by
  unfold execPipe
  exact kept_onWf (kept_pipeDo h2a)

theorem kept_interruptDo {a0 a1 a2} (h2a : State.memOk a2) : State.memOk (interruptDo a0 a1 a2) := by
  unfold interruptDo
  split
  · exact h2a
  · exact ite_mem (fun _ => h2a) (fun _ => kept_setDspCore h2a)

theorem kept_execInterruptEntry {a0 a1 a2} (h2a : State.memOk a2) : ∀ t, execInterruptEntry a0 a1 a2 = .next t → State.memOk t := by
  unfold execInterruptEntry
  exact kept_onWf (kept_interruptDo h2a)

theorem kept_dspBrI {a0 a1 a2} (h2a : State.memOk a2) : State.memOk (dspBrI a0 a1 a2).1 := by
  unfold dspBrI
  exact mk_fst_mem h2a

theorem kept_dspCallI {a0 a1 a2} (h2a : State.memOk a2) : State.memOk (dspCallI a0 a1 a2).1 := by
  unfold dspCallI
  exact mk_fst_mem h2a

theorem kept_dspRetI {a0 a1 a2} (h2a : State.memOk a2) : State.memOk (dspRetI a0 a1 a2).1 := by
  unfold dspRetI
  exact mk_fst_mem h2a

theorem kept_dspRetiI {a0 a1 a2} (h2a : State.memOk a2) : State.memOk (dspRetiI a0 a1 a2).1 := by
  unfold dspRetiI
  exact mk_fst_mem h2a

theorem kept_dspLoopI {a0 a1 a2} (h2a : State.memOk a2) : State.memOk (dspLoopI a0 a1 a2).1 := by
  unfold dspLoopI
  exact ite_fst_mem (fun _ => mk_fst_mem h2a) (fun _ => ite_fst_mem (fun _ => mk_fst_mem h2a) (fun _ => mk_fst_mem h2a))

theorem kept_dspWaitI {a0 a1 a2} (h2a : State.memOk a2) : State.memOk (dspWaitI a0 a1 a2).1 := by
  unfold dspWaitI
  exact mk_fst_mem h2a

theorem kept_dspHaltI {a0 a1 a2} (h2a : State.memOk a2) : State.memOk (dspHaltI a0 a1 a2).1 := by
  unfold dspHaltI
  exact mk_fst_mem h2a

theorem kept_dspMvlsI {a0 a1 a2} (h2a : State.memOk a2) : State.memOk (dspMvlsI a0 a1 a2).1 := by
  unfold dspMvlsI
  exact mk_fst_mem h2a

theorem kept_dspMvslI {a0 a1 a2} (h2a : State.memOk a2) : State.memOk (dspMvslI a0 a1 a2).1 := by
  unfold dspMvslI
  exact mk_fst_mem h2a

theorem kept_dspMvsvI {a0 a1 a2 a3 a4} (h4a : State.memOk a4) : State.memOk (dspMvsvI a0 a1 a2 a3 a4).1 := by
  unfold dspMvsvI
  extract_lets -merge -underBinder +onlyGivenNames x0
  try clear_value x0
  extract_lets -merge -underBinder +onlyGivenNames x1
  try clear_value x1
  split
  · refine mk_fst_mem ?_
    assumption
  · refine mk_fst_mem ?_
    refine kept_fresh ?_
    assumption

theorem kept_dspMvvsI {a0 a1 a2 a3 a4} (h4a : State.memOk a4) : State.memOk (dspMvvsI a0 a1 a2 a3 a4).1 := by
  unfold dspMvvsI
  extract_lets -merge -underBinder +onlyGivenNames x0
  try clear_value x0
  extract_lets -merge -underBinder +onlyGivenNames x1
  try clear_value x1
  split
  · extract_lets -merge -underBinder +onlyGivenNames x2
    try clear_value x2
    refine mk_fst_mem ?_
    assumption
  · split
    · extract_lets -merge -underBinder +onlyGivenNames x3
      try clear_value x3
      extract_lets -merge -underBinder +onlyGivenNames x4
      try clear_value x4
      split
      · refine mk_fst_mem ?_
        assumption
      · split
        · refine mk_fst_mem ?_
          assumption
        · split
          · refine mk_fst_mem ?_
            assumption
          · refine mk_fst_mem ?_
            refine kept_setDspCore ?_
            assumption
    · refine mk_fst_mem ?_
      assumption

theorem kept_dspVldI {a0 a1 a2 a3} (h3a : State.memOk a3) : State.memOk (dspVldI a0 a1 a2 a3).1 := by
  unfold dspVldI
  exact ite_fst_mem (fun _ => mk_fst_mem h3a) (fun _ => mk_fst_mem h3a)

theorem kept_dspVstI {a0 a1 a2 a3} (h3a : State.memOk a3) : State.memOk (dspVstI a0 a1 a2 a3).1 := by
  unfold dspVstI
  exact ite_fst_mem (fun _ => mk_fst_mem h3a) (fun _ => mk_fst_mem (kept_setSram h3a))

theorem kept_dspPsethI {a0 a1 a2} (h2a : State.memOk a2) : State.memOk (dspPsethI a0 a1 a2).1 := by
  unfold dspPsethI
  exact mk_fst_mem h2a

theorem kept_dspPaddI {a0 a1 a2} (h2a : State.memOk a2) : State.memOk (dspPaddI a0 a1 a2).1 := by
  unfold dspPaddI
  exact mk_fst_mem h2a

theorem kept_dspValuI {a0 a1 a2} (h2a : State.memOk a2) : State.memOk (dspValuI a0 a1 a2).1 := by
  unfold dspValuI
  exact mk_fst_mem h2a

theorem kept_dspMac {a0 a1 a2 a3} (h3a : State.memOk a3) : State.memOk (dspMac a0 a1 a2 a3).1 := by
  unfold dspMac
  exact mk_fst_mem h3a

theorem kept_dspFtapI {a0 a1 a2 a3} (h3a : State.memOk a3) : State.memOk (dspFtapI a0 a1 a2 a3).1 := by
  unfold dspFtapI
  exact ite_fst_mem (fun _ => mk_fst_mem h3a) (fun _ => mk_fst_mem (kept_setSram h3a))

theorem kept_dspAccclrI {a0 a1 a2} (h2a : State.memOk a2) : State.memOk (dspAccclrI a0 a1 a2).1 := by
  unfold dspAccclrI
  exact mk_fst_mem h2a

theorem kept_dspAccsvI {a0 a1 a2} (h2a : State.memOk a2) : State.memOk (dspAccsvI a0 a1 a2).1 := by
  unfold dspAccsvI
  exact ite_fst_mem (fun _ => mk_fst_mem h2a) (fun _ => mk_fst_mem (kept_fresh h2a))

theorem kept_dspAccldI {a0 a1 a2} (h2a : State.memOk a2) : State.memOk (dspAccldI a0 a1 a2).1 := by
  unfold dspAccldI
  exact mk_fst_mem h2a

theorem kept_dspAcccpyI {a0 a1 a2} (h2a : State.memOk a2) : State.memOk (dspAcccpyI a0 a1 a2).1 := by
  unfold dspAcccpyI
  exact mk_fst_mem h2a

end Sys2Proof
end

