-- ==== Sys2Proof/Laws/Kept/Stitch.lean ====
section
/-! SUPPORT. What `Machine/Stitch.lean` defines keeps the byte memories in their canonical form. -/

set_option linter.unusedVariables false

namespace Sys2Proof

open Machine

theorem kept_setCell {a0 a1 a2 a3} (h3a : State.memOk a3) : State.memOk (setCell a0 a1 a2 a3) := by
  unfold setCell
  exact kept_updOutput h3a

theorem kept_requestFor {a0 a1} (h1a : State.memOk a1) : State.memOk (requestFor a0 a1) := by
  unfold requestFor
  split
  · exact kept_kfRequest h1a
  · exact h1a

theorem kept_breakCell {a0 a1 a2} (h2a : State.memOk a2) : State.memOk (breakCell a0 a1 a2) := by
  unfold breakCell
  exact ite_mem (fun _ => h2a) (fun _ => kept_requestFor (kept_setCell h2a))

theorem kept_refusePicture {a0 a1 a2 a3} (h3a : State.memOk a3) : State.memOk (refusePicture a0 a1 a2 a3) := by
  unfold refusePicture
  exact ite_mem (fun _ => kept_requestFor (kept_setCell (kept_enginePost (kept_count (kept_setOutput h3a))))) (fun _ => kept_breakCell (kept_enginePost (kept_count (kept_setOutput h3a))))

theorem kept_cellPicture {a0 a1 a2 a3} (h3a : State.memOk a3) : State.memOk (cellPicture a0 a1 a2 a3) := by
  unfold cellPicture
  extract_lets -merge -underBinder +onlyGivenNames x0
  try clear_value x0
  extract_lets -merge -underBinder +onlyGivenNames x1
  try clear_value x1
  extract_lets -merge -underBinder +onlyGivenNames x2
  try clear_value x2
  extract_lets -merge -underBinder +onlyGivenNames x3
  try clear_value x3
  extract_lets -merge -underBinder +onlyGivenNames x4
  have h5 : State.memOk (x4) := by
    unfold x4
    refine kept_setCell ?_
    assumption
  try clear_value x4
  extract_lets -merge -underBinder +onlyGivenNames x6
  try clear_value x6
  extract_lets -merge -underBinder +onlyGivenNames x7
  try clear_value x7
  split
  · refine kept_refusePicture ?_
    assumption
  · refine ite_mem (fun _ => ?_) (fun _ => ?_)
    · refine ite_mem (fun _ => ?_) (fun _ => ?_)
      · refine kept_setCell ?_
        assumption
      · assumption
    · refine ite_mem (fun _ => ?_) (fun _ => ?_)
      · refine ite_mem (fun _ => ?_) (fun _ => ?_)
        · refine kept_setCell ?_
          assumption
        · assumption
      · refine ite_mem (fun _ => ?_) (fun _ => ?_)
        · refine kept_breakCell ?_
          assumption
        · refine kept_setCell ?_
          assumption

theorem kept_cellPacket {a0 a1 a2 a3} (h3a : State.memOk a3) : State.memOk (cellPacket a0 a1 a2 a3) := by
  unfold cellPacket
  exact ite_mem (fun _ => ite_mem (fun _ => kept_cellPicture (kept_setCell (ite_mem (fun _ => kept_breakCell h3a) (fun _ => h3a)))) (fun _ => kept_breakCell (kept_setCell (ite_mem (fun _ => kept_breakCell h3a) (fun _ => h3a))))) (fun _ => kept_setCell (ite_mem (fun _ => kept_breakCell h3a) (fun _ => h3a)))

theorem kept_packetToCells {a0 a1 a2} (h2a : State.memOk a2) : State.memOk (packetToCells a0 a1 a2) := by
  unfold packetToCells
  exact foldl_mem h2a (fun _ _ h0 => kept_cellPacket h0)

theorem kept_fillCells {a0 a1 a2 a3} (h3a : State.memOk a3) : State.memOk (fillCells a0 a1 a2 a3).2 := by
  induction a2 generalizing a3 with
  | nil => exact h3a
  | cons c cs ih =>
    simp only [fillCells]
    split
    · exact ih h3a
    · exact ih (kept_setCell h3a)

theorem kept_stitchedBoundary {a0 a1 a2} (h2a : State.memOk a2) : State.memOk (stitchedBoundary a0 a1 a2) := by
  unfold stitchedBoundary
  exact kept_completeCommits (kept_updOutput (kept_fillCells (kept_updOutput h2a)))

theorem kept_cellGreyDo {a0 a1 a2} (h2a : State.memOk a2) : State.memOk (cellGreyDo a0 a1 a2) := by
  unfold cellGreyDo
  exact ite_mem (fun _ => kept_setCell h2a) (fun _ => h2a)

theorem kept_execCellGrey {a0 a1 a2} (h2a : State.memOk a2) : ∀ t, execCellGrey a0 a1 a2 = .next t → State.memOk t := by
  unfold execCellGrey
  exact kept_onWf (kept_cellGreyDo h2a)

end Sys2Proof
end

