-- ==== Sys2Proof/Laws/Kept/Jitter.lean ====
section
/-! SUPPORT. What `Machine/Jitter.lean` defines keeps the byte memories in their canonical form. -/

set_option linter.unusedVariables false

namespace Sys2Proof

open Machine

theorem kept_setJit {a0 a1 a2} (h2a : State.memOk a2) : State.memOk (setJit a0 a1 a2) := by
  unfold setJit
  exact kept_updSource h2a

theorem kept_readPackets {a0 a1 a2} (h2a : State.memOk a2) : State.memOk (readPackets a0 a1 a2).2 := by
  induction a1 generalizing a2 with
  | nil => exact h2a
  | cons p ps ih => exact ih (kept_readHeld h2a)

theorem kept_deliverUnit {a0 a1 a2} (h2a : State.memOk a2) : State.memOk (deliverUnit a0 a1 a2) := by
  unfold deliverUnit
  exact ite_mem (fun _ => (by
    split
    · exact kept_unitToInputs h2a
    · exact kept_unitToInputs h2a)) (fun _ => kept_unitToDecs h2a)

theorem kept_releaseHead {a0 a1 a2 a3 a4} (h4a : State.memOk a4) : State.memOk (releaseHead a0 a1 a2 a3 a4) := by
  unfold releaseHead
  exact kept_deliverUnit (kept_setJit (kept_readPackets h4a))

theorem kept_releaseEmpty {a0 a1 a2 a3} (h3a : State.memOk a3) : State.memOk (releaseEmpty a0 a1 a2 a3) := by
  unfold releaseEmpty
  exact kept_unitToInputs (kept_setJit h3a)

theorem kept_releasePass {a0 a1 a2 a3} (h3a : State.memOk a3) : State.memOk (releasePass a0 a1 a2 a3) := by
  induction a2 generalizing a3 with
  | zero => exact h3a
  | succ n ih =>
    simp only [releasePass]
    split
    · exact h3a
    · split
      · exact h3a
      · refine ite_mem (fun _ => ite_mem (fun _ => ih (kept_releaseHead h3a)) (fun _ => ite_mem (fun _ => ih (kept_releaseEmpty h3a)) (fun _ => h3a)))
          (fun _ => ite_mem (fun _ => ih (kept_releaseHead h3a)) (fun _ => h3a))

theorem kept_releaseAll {a0 a1 a2} (h2a : State.memOk a2) : State.memOk (releaseAll a0 a1 a2) := by
  unfold releaseAll
  exact kept_releasePass h2a

theorem kept_jitterEnter {a0 a1 a2} (h2a : State.memOk a2) : State.memOk (jitterEnter a0 a1 a2) := by
  unfold jitterEnter
  extract_lets -merge -underBinder +onlyGivenNames x0
  try clear_value x0
  split
  · assumption
  · refine ite_mem (fun _ => ?_) (fun _ => ?_)
    · refine kept_srcCount ?_
      assumption
    · extract_lets -merge -underBinder +onlyGivenNames x1
      try clear_value x1
      extract_lets -merge -underBinder +onlyGivenNames x2
      try clear_value x2
      extract_lets -merge -underBinder +onlyGivenNames x3
      have h4 : State.memOk (x3) := by
        unfold x3
        refine ite_mem (fun _ => ?_) (fun _ => ?_)
        · refine kept_count ?_
          assumption
        · assumption
      try clear_value x3
      refine ite_mem (fun _ => ?_) (fun _ => ?_)
      · extract_lets -merge -underBinder +onlyGivenNames x5
        have h6 : State.memOk (x5) := by
          unfold x5
          refine kept_srcCount ?_
          refine kept_setJit ?_
          assumption
        try clear_value x5
        refine ite_mem (fun _ => ?_) (fun _ => ?_)
        · refine kept_lateToInputs ?_
          assumption
        · refine kept_lateToDecs ?_
          assumption
      · extract_lets -merge -underBinder +onlyGivenNames x7
        try clear_value x7
        refine kept_releaseAll ?_
        refine kept_writeHeld ?_
        refine kept_setJit ?_
        assumption

theorem kept_acceptWith {a0 a1 a2 a3 a4 a5 a6 a7} (h1a : ∀ z0 z1 z2, State.memOk (z2) → State.memOk (a1 z0 z1 z2)) (h7a : State.memOk a7) : State.memOk (acceptWith a0 a1 a2 a3 a4 a5 a6 a7) := by
  unfold acceptWith
  exact ite_mem (fun _ => kept_srcCount h7a) (fun _ => ite_mem (fun _ => kept_srcCount h7a) (fun _ => h1a _ _ _ (kept_packetToCells (kept_jitterEnter (kept_historyWrite (kept_srcCount (kept_srcCount (kept_setSource h7a))))))))

theorem kept_acceptMedia {a0 a1 a2 a3 a4 a5} (h5a : State.memOk a5) : State.memOk (acceptMedia a0 a1 a2 a3 a4 a5) := by
  unfold acceptMedia
  exact kept_acceptWith (fun _ _ _ h0 => kept_replicate h0) h5a

theorem kept_jitterDeadlineDo {a0 a1} (h1a : State.memOk a1) : State.memOk (jitterDeadlineDo a0 a1) := by
  unfold jitterDeadlineDo
  exact ite_mem (fun _ => kept_releaseAll h1a) (fun _ => h1a)

theorem kept_execJitterDeadline {a0 a1} (h1a : State.memOk a1) : ∀ t, execJitterDeadline a0 a1 = .next t → State.memOk t := by
  unfold execJitterDeadline
  exact kept_onWf (kept_jitterDeadlineDo h1a)

theorem kept_acceptLocal {a0 a1 a2 a3 a4 a5} (h0a : ∀ z0 z1 z2, State.memOk (z2) → State.memOk (a0 z0 z1 z2)) (h5a : State.memOk a5) : State.memOk (acceptLocal a0 a1 a2 a3 a4 a5) := by
  unfold acceptLocal
  exact kept_acceptWith (fun _ _ _ h0 => h0a _ _ _ h0) h5a

end Sys2Proof
end

