-- ==== Sys2Proof/Laws/Kept/Emit.lean ====
section
/-! SUPPORT. What `Machine/Emit.lean` defines keeps the byte memories in their canonical form. -/

set_option linter.unusedVariables false

namespace Sys2Proof

open Machine

theorem kept_stitchPacket {a0 a1 a2 a3 a4 a5 a6} (h6a : State.memOk a6) : State.memOk (stitchPacket a0 a1 a2 a3 a4 a5 a6) := by
  unfold stitchPacket
  exact kept_acceptLocal (fun _ _ _ h0 => kept_replicate h0) (kept_updOutput h6a)

theorem kept_emitFrame {a0 a1} (h1a : State.memOk a1) : State.memOk (emitFrame a0 a1) := by
  unfold emitFrame
  extract_lets -merge -underBinder +onlyGivenNames x0
  try clear_value x0
  split
  · assumption
  · extract_lets -merge -underBinder +onlyGivenNames x1
    try clear_value x1
    extract_lets -merge -underBinder +onlyGivenNames x2
    try clear_value x2
    extract_lets -merge -underBinder +onlyGivenNames x3
    try clear_value x3
    extract_lets -merge -underBinder +onlyGivenNames x4
    try clear_value x4
    extract_lets -merge -underBinder +onlyGivenNames x5
    try clear_value x5
    extract_lets -merge -underBinder +onlyGivenNames x6
    try clear_value x6
    extract_lets -merge -underBinder +onlyGivenNames x7
    try clear_value x7
    extract_lets -merge -underBinder +onlyGivenNames x8
    try clear_value x8
    extract_lets -merge -underBinder +onlyGivenNames x9
    have h10 : State.memOk (x9) := by
      unfold x9
      refine foldl_mem ?_ ?_
      · assumption
      · intro y11 y12 h13
        refine kept_stitchPacket ?_
        assumption
    try clear_value x9
    extract_lets -merge -underBinder +onlyGivenNames x14
    have h15 : State.memOk (x14) := by
      unfold x14
      refine kept_count ?_
      refine kept_outCount ?_
      assumption
    try clear_value x14
    extract_lets -merge -underBinder +onlyGivenNames x16
    have h17 : State.memOk (x16) := by
      unfold x16
      refine kept_tileCount ?_
      refine kept_tileCount ?_
      refine kept_outCount ?_
      refine kept_outCount ?_
      assumption
    try clear_value x16
    extract_lets -merge -underBinder +onlyGivenNames x18
    have h19 : State.memOk (x18) := by
      unfold x18
      refine kept_outCount ?_
      assumption
    try clear_value x18
    extract_lets -merge -underBinder +onlyGivenNames x20
    have h21 : State.memOk (x20) := by
      unfold x20
      refine kept_outRecord ?_
      assumption
    try clear_value x20
    refine kept_updOutput ?_
    assumption

theorem kept_frameBoundaryDo {a0 a1} (h1a : State.memOk a1) : State.memOk (frameBoundaryDo a0 a1) := by
  unfold frameBoundaryDo
  exact ite_mem (fun _ => h1a) (fun _ => ite_mem (fun _ => kept_stitchedBoundary (kept_emitFrame (kept_settleNext h1a))) (fun _ => kept_composedBoundary (kept_settleNext h1a)))

theorem kept_execFrameBoundary {a0 a1} (h1a : State.memOk a1) : ∀ t, execFrameBoundary a0 a1 = .next t → State.memOk t := by
  unfold execFrameBoundary
  exact kept_onWf (kept_frameBoundaryDo h1a)

theorem kept_frameEmitDo {a0 a1} (h1a : State.memOk a1) : State.memOk (frameEmitDo a0 a1) := by
  unfold frameEmitDo
  exact ite_mem (fun _ => h1a) (fun _ => ite_mem (fun _ => kept_finishOutRelease (kept_emitFrame h1a)) (fun _ => kept_emitFrame h1a))

theorem kept_execStFrameEmit {a0 a1} (h1a : State.memOk a1) : ∀ t, execStFrameEmit a0 a1 = .next t → State.memOk t := by
  unfold execStFrameEmit
  exact kept_onWf (kept_frameEmitDo h1a)

theorem kept_windowEndDo {a0 a1} (h1a : State.memOk a1) : State.memOk (windowEndDo a0 a1) := by
  unfold windowEndDo
  extract_lets -merge -underBinder +onlyGivenNames x0
  try clear_value x0
  split
  · assumption
  · refine ite_mem (fun _ => ?_) (fun _ => ?_)
    · assumption
    · extract_lets -merge -underBinder +onlyGivenNames x1
      have h2 : State.memOk (x1) := by
        unfold x1
        refine kept_settleNext ?_
        refine kept_emitFrame ?_
        assumption
      try clear_value x1
      extract_lets -merge -underBinder +onlyGivenNames x3
      try clear_value x3
      extract_lets -merge -underBinder +onlyGivenNames x4
      have h5 : State.memOk (x4).2 := by
        unfold x4
        refine kept_fillCells ?_
        assumption
      try clear_value x4
      refine kept_emitFrame ?_
      refine kept_updOutput ?_
      assumption

theorem kept_execStitchKfWindowEnd {a0 a1} (h1a : State.memOk a1) : ∀ t, execStitchKfWindowEnd a0 a1 = .next t → State.memOk t := by
  unfold execStitchKfWindowEnd
  exact kept_onWf (kept_windowEndDo h1a)

theorem kept_writeRecon {a0 a1 a2 a3 a4 a5} (h5a : State.memOk a5) : State.memOk (writeRecon a0 a1 a2 a3 a4 a5) := by
  unfold writeRecon
  exact kept_writeBand h5a

theorem kept_bandPacket {a0 a1 a2 a3 a4 a5 a6 a7 a8} (h8a : State.memOk a8) : State.memOk (bandPacket a0 a1 a2 a3 a4 a5 a6 a7 a8) := by
  unfold bandPacket
  exact kept_acceptLocal (fun _ _ _ h0 => kept_replicate h0) (kept_updEnc h8a)

theorem kept_bandPackets {a0 a1 a2 a3 a4 a5 a6 a7} (h7a : State.memOk a7) : State.memOk (bandPackets a0 a1 a2 a3 a4 a5 a6 a7) := by
  unfold bandPackets
  exact foldl_mem h7a (fun _ _ h0 => kept_bandPacket h0)

theorem kept_endEncPicture {a0 a1 a2} (h2a : State.memOk a2) : State.memOk (endEncPicture a0 a1 a2) := by
  unfold endEncPicture
  exact ite_mem (fun _ => kept_finishEncRelease (kept_encRecord (kept_updEnc (ite_mem (fun _ => kept_count (kept_encCount (kept_count (kept_encCount h2a)))) (fun _ => kept_count (kept_encCount h2a)))))) (fun _ => kept_nextEnc (kept_encRecord (kept_updEnc (ite_mem (fun _ => kept_count (kept_encCount (kept_count (kept_encCount h2a)))) (fun _ => kept_count (kept_encCount h2a))))))

theorem kept_bandCodedDo {a0 a1} (h1a : State.memOk a1) : State.memOk (bandCodedDo a0 a1) := by
  unfold bandCodedDo
  extract_lets -merge -underBinder +onlyGivenNames x0
  try clear_value x0
  extract_lets -merge -underBinder +onlyGivenNames x1
  try clear_value x1
  split
  · assumption
  · extract_lets -merge -underBinder +onlyGivenNames x2
    try clear_value x2
    extract_lets -merge -underBinder +onlyGivenNames x3
    try clear_value x3
    extract_lets -merge -underBinder +onlyGivenNames x4
    try clear_value x4
    split
    · refine ite_mem (fun _ => ?_) (fun _ => ?_)
      · assumption
      · extract_lets -merge -underBinder +onlyGivenNames x5
        try clear_value x5
        extract_lets -merge -underBinder +onlyGivenNames x6
        try clear_value x6
        extract_lets -merge -underBinder +onlyGivenNames x7
        try clear_value x7
        extract_lets -merge -underBinder +onlyGivenNames x8
        try clear_value x8
        extract_lets -merge -underBinder +onlyGivenNames x9
        have h10 : State.memOk (x9) := by
          unfold x9
          refine kept_updEnc ?_
          refine mk_mem ?_
          assumption
        try clear_value x9
        extract_lets -merge -underBinder +onlyGivenNames x11
        have h12 : State.memOk (x11) := by
          unfold x11
          refine ite_mem (fun _ => ?_) (fun _ => ?_)
          · refine kept_count ?_
            assumption
          · assumption
        try clear_value x11
        extract_lets -merge -underBinder +onlyGivenNames x13
        have h14 : State.memOk (x13) := by
          unfold x13
          refine kept_writeRecon ?_
          assumption
        try clear_value x13
        extract_lets -merge -underBinder +onlyGivenNames x15
        have h16 : State.memOk (x15) := by
          unfold x15
          refine kept_bandPackets ?_
          assumption
        try clear_value x15
        refine ite_mem (fun _ => ?_) (fun _ => ?_)
        · refine kept_endEncPicture ?_
          assumption
        · assumption
    · assumption

theorem kept_execVeBandCoded {a0 a1} (h1a : State.memOk a1) : ∀ t, execVeBandCoded a0 a1 = .next t → State.memOk t := by
  unfold execVeBandCoded
  exact kept_onWf (kept_bandCodedDo h1a)

theorem kept_groupCopies {a0 a1 a2 a3 a4 a5} (h5a : State.memOk a5) : State.memOk (groupCopies a0 a1 a2 a3 a4 a5) := by
  unfold groupCopies
  exact foldl_mem (foldl_mem (kept_replicateTo (kept_addBin h5a)) (fun _ _ h0 => kept_replicateTo h0)) (fun _ _ h1 => kept_withhold h1)

theorem kept_groupFrameDo {a0 a1} (h1a : State.memOk a1) : State.memOk (groupFrameDo a0 a1) := by
  unfold groupFrameDo
  split
  · exact h1a
  · split
    · exact h1a
    · exact ite_mem (fun _ => h1a) (fun _ => kept_acceptLocal (fun _ _ _ h0 => kept_groupCopies h0) (ite_mem (fun _ => kept_tileCount (kept_setAudGroup h1a)) (fun _ => kept_setAudGroup h1a)))

theorem kept_execGroupFrameCoded {a0 a1} (h1a : State.memOk a1) : ∀ t, execGroupFrameCoded a0 a1 = .next t → State.memOk t := by
  unfold execGroupFrameCoded
  exact kept_onWf (kept_groupFrameDo h1a)

end Sys2Proof
end

