-- ==== Sys2Proof/Laws/Kept/Ptp.lean ====
section
/-! SUPPORT. What `Machine/Ptp.lean` defines keeps the byte memories in their canonical form. -/

set_option linter.unusedVariables false

namespace Sys2Proof

open Machine

theorem kept_ptpMessage {a0 a1 a2 a3 a4} (h4a : State.memOk a4) : State.memOk (ptpMessage a0 a1 a2 a3 a4) := by
  unfold ptpMessage
  extract_lets -merge -underBinder +onlyGivenNames x0
  have h1 : State.memOk (x0) := by
    unfold x0
    refine kept_count ?_
    assumption
  try clear_value x0
  extract_lets -merge -underBinder +onlyGivenNames x2
  try clear_value x2
  extract_lets -merge -underBinder +onlyGivenNames x3
  have h4 : ∀ z0, State.memOk (z0) → State.memOk (x3 z0) := by
    unfold x3
    intro y5 h6
    refine kept_count ?_
    assumption
  try clear_value x3
  refine ite_mem (fun _ => ?_) (fun _ => ?_)
  · refine h4 _ ?_
    assumption
  · extract_lets -merge -underBinder +onlyGivenNames x7
    try clear_value x7
    extract_lets -merge -underBinder +onlyGivenNames x8
    have h9 : State.memOk (x8).2 := by
      unfold x8
      refine kept_devicePush ?_
      assumption
    try clear_value x8
    split
    · assumption
    · refine h4 _ ?_
      assumption

theorem kept_ptpTransmit {a0 a1 a2 a3} (h3a : State.memOk a3) : State.memOk (ptpTransmit a0 a1 a2 a3) := by
  unfold ptpTransmit
  exact ite_mem (fun _ => ite_mem (fun _ => kept_queueFrame h3a) (fun _ => kept_count h3a)) (fun _ => kept_sendEth h3a)

theorem kept_ptpSendBody {a0 a1} (h1a : State.memOk a1) : State.memOk (ptpSendBody a0 a1).1 := by
  unfold ptpSendBody
  extract_lets -merge -underBinder +onlyGivenNames x0
  try clear_value x0
  extract_lets -merge -underBinder +onlyGivenNames x1
  try clear_value x1
  extract_lets -merge -underBinder +onlyGivenNames x2
  try clear_value x2
  extract_lets -merge -underBinder +onlyGivenNames x3
  try clear_value x3
  extract_lets -merge -underBinder +onlyGivenNames x4
  try clear_value x4
  extract_lets -merge -underBinder +onlyGivenNames x5
  have h6 : State.memOk (x5).1 := by
    unfold x5
    refine kept_answer ?_
    assumption
  try clear_value x5
  split
  · refine kept_answer ?_
    assumption
  · split
    · assumption
    · extract_lets -merge -underBinder +onlyGivenNames x7
      try clear_value x7
      extract_lets -merge -underBinder +onlyGivenNames x8
      try clear_value x8
      split
      · assumption
      · extract_lets -merge -underBinder +onlyGivenNames x9
        have h10 : State.memOk (x9) := by
          unfold x9
          refine kept_ptpTransmit ?_
          assumption
        try clear_value x9
        refine kept_viaWing ?_
        refine kept_answer ?_
        refine ite_mem (fun _ => ?_) (fun _ => ?_)
        · refine kept_hostPut ?_
          assumption
        · assumption

theorem kept_execTimePtpSend {a0 a1} (h1a : State.memOk a1) : ∀ t, execTimePtpSend a0 a1 = .next t → State.memOk t := by
  unfold execTimePtpSend
  exact kept_onWf (kept_command (fun _ _ h0 => kept_ptpSendBody h0) h1a)

end Sys2Proof
end

