-- ==== Sys2Proof/Laws/Kept/Forward.lean ====
section
/-! SUPPORT. What `Machine/Forward.lean` defines keeps the byte memories in their canonical form. -/

set_option linter.unusedVariables false

namespace Sys2Proof

open Machine

theorem kept_mediaFrame {a0 a1 a2 a3} (h3a : State.memOk a3) : State.memOk (mediaFrame a0 a1 a2 a3) := by
  unfold mediaFrame
  extract_lets -merge -underBinder +onlyGivenNames x0
  try clear_value x0
  split
  · refine kept_count ?_
    assumption
  · extract_lets -merge -underBinder +onlyGivenNames x1
    try clear_value x1
    extract_lets -merge -underBinder +onlyGivenNames x2
    have h3 : State.memOk (x2).2 := by
      unfold x2
      refine kept_police ?_
      assumption
    try clear_value x2
    refine ite_mem (fun _ => ?_) (fun _ => ?_)
    · assumption
    · refine kept_acceptMedia ?_
      assumption

theorem kept_feedbackFrame {a0 a1 a2} (h2a : State.memOk a2) : State.memOk (feedbackFrame a0 a1 a2) := by
  unfold feedbackFrame
  split
  · exact h2a
  · exact foldl_mem h2a (fun _ _ h0 => ite_mem (fun _ => kept_legRtcp h0) (fun _ => ite_mem (fun _ => kept_legRtcp h0) (fun _ => h0)))

theorem kept_deliverFrame {a0 a1 a2} (h1a : State.memOk a1) : State.memOk (deliverFrame a0 a1 a2) := by
  unfold deliverFrame
  exact ite_mem (fun _ => h1a) (fun _ => ite_mem (fun _ => ite_mem (fun _ => kept_count h1a) (fun _ => h1a)) (fun _ => ite_mem (fun _ => kept_mediaFrame (kept_count h1a)) (fun _ => ite_mem (fun _ => kept_feedbackFrame (kept_count h1a)) (fun _ => ite_mem (fun _ => kept_ptpMessage (kept_count h1a)) (fun _ => kept_exceptionPath (kept_count h1a))))))

theorem kept_blockWords {a0 a1 a2 a3} (h3a : State.memOk a3) : State.memOk (blockWords a0 a1 a2 a3) := by
  unfold blockWords
  exact ite_mem (fun _ => h3a) (fun _ => foldl_mem (ite_mem (fun _ => kept_count (kept_updLane h3a)) (fun _ => kept_updLane h3a)) (fun _ _ h0 => ite_mem (fun _ => kept_deliverFrame h0) (fun _ => h0)))

theorem kept_blockFailed {a0 a1} (h1a : State.memOk a1) : State.memOk (blockFailed a0 a1) := by
  unfold blockFailed
  exact ite_mem (fun _ => kept_tmRetrain (kept_count (kept_updLane h1a))) (fun _ => ite_mem (fun _ => kept_sendIdleBlock (kept_count (kept_updLane h1a))) (fun _ => kept_count (kept_updLane h1a)))

theorem kept_dataBlock {a0 a1 a2 a3} (h3a : State.memOk a3) : State.memOk (dataBlock a0 a1 a2 a3) := by
  unfold dataBlock
  exact ite_mem (fun _ => kept_blockWords (kept_count (kept_updLane h3a))) (fun _ => ite_mem (fun _ => kept_count h3a) (fun _ => ite_mem (fun _ => kept_updLane h3a) (fun _ => kept_blockFailed h3a)))

theorem kept_rtcpArrives {a0 a1 a2 a3} (h3a : State.memOk a3) : State.memOk (rtcpArrives a0 a1 a2 a3) := by
  unfold rtcpArrives
  extract_lets -merge -underBinder +onlyGivenNames x0
  try clear_value x0
  extract_lets -merge -underBinder +onlyGivenNames x1
  try clear_value x1
  split
  · refine kept_count ?_
    assumption
  · refine kept_enterCipher ?_
    assumption

theorem kept_rtpArrives {a0 a1 a2 a3} (h3a : State.memOk a3) : State.memOk (rtpArrives a0 a1 a2 a3) := by
  unfold rtpArrives
  split
  · exact kept_exceptionPath (kept_count h3a)
  · exact ite_mem (fun _ => kept_police h3a) (fun _ => kept_enterCipher (kept_police h3a))

theorem kept_ethFrameDo {a0 a1 a2} (h2a : State.memOk a2) : State.memOk (ethFrameDo a0 a1 a2) := by
  unfold ethFrameDo
  extract_lets -merge -underBinder +onlyGivenNames x0
  try clear_value x0
  refine ite_mem (fun _ => ?_) (fun _ => ?_)
  · assumption
  · refine ite_mem (fun _ => ?_) (fun _ => ?_)
    · refine kept_count ?_
      assumption
    · refine ite_mem (fun _ => ?_) (fun _ => ?_)
      · refine kept_count ?_
        assumption
      · refine ite_mem (fun _ => ?_) (fun _ => ?_)
        · refine kept_count ?_
          assumption
        · extract_lets -merge -underBinder +onlyGivenNames x1
          try clear_value x1
          extract_lets -merge -underBinder +onlyGivenNames x2
          have h3 : State.memOk (x2) := by
            unfold x2
            refine kept_count ?_
            assumption
          try clear_value x2
          split
          · refine kept_count ?_
            assumption
          · refine kept_exceptionPath ?_
            assumption
          · refine kept_ptpMessage ?_
            assumption
          · refine kept_rtcpArrives ?_
            assumption
          · refine kept_rtpArrives ?_
            assumption

theorem kept_execEthFrameRx {a0 a1 a2} (h2a : State.memOk a2) : ∀ t, execEthFrameRx a0 a1 a2 = .next t → State.memOk t := by
  unfold execEthFrameRx
  exact kept_onWf (kept_ethFrameDo h2a)

theorem kept_rtcpReleasedOne {a0 a1 a2} (h1a : State.memOk a1) : State.memOk (rtcpReleasedOne a0 a1 a2) := by
  unfold rtcpReleasedOne
  extract_lets -merge -underBinder +onlyGivenNames x0
  have h1 : State.memOk (x0) := by
    unfold x0
    refine ite_mem (fun _ => ?_) (fun _ => ?_)
    · split
      · refine ite_mem (fun _ => ?_) (fun _ => ?_)
        · refine kept_sourceSr ?_
          assumption
        · assumption
      · assumption
    · assumption
  try clear_value x0
  split
  · refine ite_mem (fun _ => ?_) (fun _ => ?_)
    · refine kept_legRtcp ?_
      assumption
    · assumption
  · assumption

theorem kept_rtcpReleased {a0 a1 a2} (h2a : State.memOk a2) : State.memOk (rtcpReleased a0 a1 a2) := by
  unfold rtcpReleased
  exact ite_mem (fun _ => kept_exceptionPath (foldl_mem h2a (fun _ _ h0 => kept_rtcpReleasedOne h0))) (fun _ => foldl_mem h2a (fun _ _ h0 => kept_rtcpReleasedOne h0))

theorem kept_rtpReleased {a0 a1 a2 a3} (h3a : State.memOk a3) : State.memOk (rtpReleased a0 a1 a2 a3) := by
  unfold rtpReleased
  split
  · exact ite_mem (fun _ => ite_mem (fun _ => h3a) (fun _ => kept_acceptMedia h3a)) (fun _ => kept_acceptMedia h3a)
  · exact kept_count h3a

theorem kept_cipherReleaseDo {a0 a1} (h1a : State.memOk a1) : State.memOk (cipherReleaseDo a0 a1) := by
  unfold cipherReleaseDo
  split
  · assumption
  · extract_lets -merge -underBinder +onlyGivenNames x0
    have h1 : State.memOk (x0).2 := by
      unfold x0
      refine kept_endOp ?_
      assumption
    try clear_value x0
    split
    · assumption
    · refine ite_mem (fun _ => ?_) (fun _ => ?_)
      · assumption
      · refine ite_mem (fun _ => ?_) (fun _ => ?_)
        · refine kept_rtcpReleased ?_
          assumption
        · refine kept_rtpReleased ?_
          assumption

theorem kept_execRxCipherRelease {a0 a1} (h1a : State.memOk a1) : ∀ t, execRxCipherRelease a0 a1 = .next t → State.memOk t := by
  unfold execRxCipherRelease
  exact kept_onWf (kept_cipherReleaseDo h1a)

theorem kept_badSyncBlock {a0 a1} (h1a : State.memOk a1) : State.memOk (badSyncBlock a0 a1) := by
  unfold badSyncBlock
  exact ite_mem (fun _ => kept_loseLock (kept_updLane h1a)) (fun _ => kept_updLane h1a)

theorem kept_headerActs {a0 a1 a2} (h2a : State.memOk a2) : State.memOk (headerActs a0 a1 a2) := by
  unfold headerActs
  exact foldl_mem (ite_mem (fun _ => foldl_mem (kept_count (kept_updLane h2a)) (fun _ _ h0 => kept_sendTm h0)) (fun _ => kept_updLane h2a)) (fun _ _ h1 => kept_pump h1)

theorem kept_tmBlockDo {a0 a1 a2 a3 a4} (h4a : State.memOk a4) : State.memOk (tmBlockDo a0 a1 a2 a3 a4) := by
  unfold tmBlockDo
  exact ite_mem (fun _ => h4a) (fun _ => ite_mem (fun _ => ite_mem (fun _ => kept_updLane h4a) (fun _ => kept_badSyncBlock h4a)) (fun _ => ite_mem (fun _ => ite_mem (fun _ => kept_dataBlock (kept_headerActs (ite_mem (fun _ => kept_updLane h4a) (fun _ => kept_badSyncBlock h4a)))) (fun _ => kept_headerActs (ite_mem (fun _ => kept_updLane h4a) (fun _ => kept_badSyncBlock h4a)))) (fun _ => ite_mem (fun _ => ite_mem (fun _ => kept_updLane h4a) (fun _ => kept_badSyncBlock h4a)) (fun _ => kept_blockFailed (ite_mem (fun _ => kept_updLane h4a) (fun _ => kept_badSyncBlock h4a))))))

theorem kept_execTmBlockRx {a0 a1 a2 a3 a4} (h4a : State.memOk a4) : ∀ t, execTmBlockRx a0 a1 a2 a3 a4 = .next t → State.memOk t := by
  unfold execTmBlockRx
  exact kept_onWf (kept_tmBlockDo h4a)

end Sys2Proof
end

