-- ==== Sys2Proof/Laws/Kept/LaneCfg.lean ====
section
/-! SUPPORT. What `Machine/LaneCfg.lean` defines keeps the byte memories in their canonical form. -/

set_option linter.unusedVariables false

namespace Sys2Proof

open Machine

theorem kept_applyGroup {a0 a1 a2} (h2a : State.memOk a2) : State.memOk (applyGroup a0 a1 a2) := by
  unfold applyGroup
  exact foldl_mem (kept_setGroupCfg (foldl_mem h2a (fun _ _ h0 => kept_leaveService h0))) (fun _ _ h1 => kept_setLane (kept_setLaneState h1))

theorem kept_laneGroupDo {a0 a1 a2} (h2a : State.memOk a2) : State.memOk (laneGroupDo a0 a1 a2) := by
  unfold laneGroupDo
  exact ite_mem (fun _ => h2a) (fun _ => ite_mem (fun _ => kept_pfVector (mk_mem h2a)) (fun _ => kept_saveSettings (kept_applyGroup h2a)))

theorem kept_roomFreeBody {a0 a1} (h1a : State.memOk a1) : State.memOk (roomFreeBody a0 a1).1 := by
  unfold roomFreeBody
  exact ite_fst_mem (fun _ => kept_notOwned5 h1a) (fun _ => ite_fst_mem (fun _ => kept_answer h1a) (fun _ => kept_answer (mk_mem h1a)))

theorem kept_execLegRoomFree {a0 a1} (h1a : State.memOk a1) : ∀ t, execLegRoomFree a0 a1 = .next t → State.memOk t := by
  unfold execLegRoomFree
  exact kept_onWf (kept_command (fun _ _ h0 => kept_strictly (fun _ _ h1 => kept_roomFreeBody h1) h0) h1a)

theorem kept_execLaneGroupCfg {a0 a1 a2 a3} (h3a : State.memOk a3) : ∀ t, execLaneGroupCfg a0 a1 a2 a3 = .next t → State.memOk t := by
  unfold execLaneGroupCfg
  exact kept_onWf (kept_gated (fun _ h0 => kept_laneGroupDo h0) h3a)

end Sys2Proof
end

