-- ==== Sys2Proof/Laws/Kept/WorkEnd.lean ====
section
/-! SUPPORT. What `Machine/WorkEnd.lean` defines keeps the byte memories in their canonical form. -/

set_option linter.unusedVariables false

namespace Sys2Proof

open Machine

theorem kept_endEnc {a0 a1 a2} (h2a : State.memOk a2) : State.memOk (endEnc a0 a1 a2) := by
  unfold endEnc
  exact kept_finishEncRelease (by
    split
    · exact h2a
    · exact kept_encRecord (kept_encCount h2a))

theorem kept_endMixer {a0 a1} (h1a : State.memOk a1) : State.memOk (endMixer a0 a1) := by
  unfold endMixer
  exact kept_removeMixer (foldl_mem (foldl_mem h1a (fun _ _ h0 => kept_removeInput h0)) (fun _ _ h1 => kept_removeGroup h1))

theorem kept_endWork {a0 a1 a2 a3 a4 a5 a6} (h6a : State.memOk a6) : State.memOk (endWork a0 a1 a2 a3 a4 a5 a6) := by
  unfold endWork
  exact foldl_mem (foldl_mem (foldl_mem (foldl_mem (foldl_mem (foldl_mem h6a (fun _ _ h0 => kept_endEnc h0)) (fun _ _ h1 => kept_finishDecRelease h1)) (fun _ _ h2 => kept_finishOutRelease h2)) (fun _ _ h3 => kept_removeInput h3)) (fun _ _ h4 => kept_removeGroup h4)) (fun _ _ h5 => kept_endMixer h5)

theorem kept_endAllWork {a0} (h0a : State.memOk a0) : State.memOk (endAllWork a0) := by
  unfold endAllWork
  exact kept_endWork (foldl_mem h0a (fun _ _ h0 => kept_finishEncRelease h0))

theorem kept_fenceTile {a0 a1} (h1a : State.memOk a1) : State.memOk (fenceTile a0 a1) := by
  unfold fenceTile
  extract_lets -merge -underBinder +onlyGivenNames x0
  try clear_value x0
  extract_lets -merge -underBinder +onlyGivenNames x1
  try clear_value x1
  extract_lets -merge -underBinder +onlyGivenNames x2
  try clear_value x2
  extract_lets -merge -underBinder +onlyGivenNames x3
  have h4 : State.memOk (x3) := by
    unfold x3
    refine mk_mem ?_
    assumption
  try clear_value x3
  extract_lets -merge -underBinder +onlyGivenNames x5
  have h6 : State.memOk (x5) := by
    unfold x5
    refine kept_endWork ?_
    assumption
  try clear_value x5
  split
  · assumption
  · extract_lets -merge -underBinder +onlyGivenNames x7
    try clear_value x7
    refine kept_settleOver ?_
    refine mk_mem ?_
    assumption

theorem kept_dspFault {a0 a1 a2 a3} (h3a : State.memOk a3) : State.memOk (dspFault a0 a1 a2 a3) := by
  unfold dspFault
  exact kept_fenceTile (kept_record (kept_updDspCore h3a))

theorem kept_dspIssue {a0 a1 a2 a3 a4} (h1a : ∀ z0 z1 z2, State.memOk (z2) → State.memOk (a1 z0 z1 z2).1) (h4a : State.memOk a4) : State.memOk (dspIssue a0 a1 a2 a3 a4) := by
  unfold dspIssue
  split
  · exact h4a
  · exact ite_mem (fun _ => h4a) (fun _ => ite_mem (fun _ => kept_dspFault h4a) (fun _ => ite_mem (fun _ => h4a) (fun _ => ite_mem (fun _ => kept_dspFault h4a) (fun _ => (by
      split
      · rename_i p0 q1
        exact h4a
      · rename_i p2 p3 q4
        exact kept_dspFault h4a
      · rename_i p5 p6 p7 q8
        exact kept_setDspCore (eq_fst_mem q8 (h1a _ _ _ h4a)))))))

theorem kept_execVldb {a0 a1 a2} (h2a : State.memOk a2) : ∀ t, execVldb a0 a1 a2 = .next t → State.memOk t := by
  unfold execVldb
  exact kept_onWf (kept_dspIssue (fun _ _ _ h0 => kept_dspVldbI h0) h2a)

theorem kept_abandonLoad {a0 a1} (h1a : State.memOk a1) : State.memOk (abandonLoad a0 a1) := by
  unfold abandonLoad
  exact kept_endWork h1a

theorem kept_drainTimeoutDo {a0 a1} (h1a : State.memOk a1) : State.memOk (drainTimeoutDo a0 a1) := by
  unfold drainTimeoutDo
  split
  · exact h1a
  · exact ite_mem (fun _ => h1a) (fun _ => ite_mem (fun _ => kept_finishLoad (kept_abandonLoad h1a)) (fun _ => kept_stopLoad (kept_fabRefused h1a)))

theorem kept_execDrainTimeout {a0 a1} (h1a : State.memOk a1) : ∀ t, execDrainTimeout a0 a1 = .next t → State.memOk t := by
  unfold execDrainTimeout
  exact kept_onWf (kept_drainTimeoutDo h1a)

theorem kept_execDspNop {a0 a1 a2} (h2a : State.memOk a2) : ∀ t, execDspNop a0 a1 a2 = .next t → State.memOk t := by
  unfold execDspNop
  exact kept_onWf (kept_dspIssue (fun _ _ _ h0 => kept_dspNopI h0) h2a)

theorem kept_execDspBr {a0 a1 a2} (h2a : State.memOk a2) : ∀ t, execDspBr a0 a1 a2 = .next t → State.memOk t := by
  unfold execDspBr
  exact kept_onWf (kept_dspIssue (fun _ _ _ h0 => kept_dspBrI h0) h2a)

theorem kept_execDspCall {a0 a1 a2} (h2a : State.memOk a2) : ∀ t, execDspCall a0 a1 a2 = .next t → State.memOk t := by
  unfold execDspCall
  exact kept_onWf (kept_dspIssue (fun _ _ _ h0 => kept_dspCallI h0) h2a)

theorem kept_execDspRet {a0 a1 a2} (h2a : State.memOk a2) : ∀ t, execDspRet a0 a1 a2 = .next t → State.memOk t := by
  unfold execDspRet
  exact kept_onWf (kept_dspIssue (fun _ _ _ h0 => kept_dspRetI h0) h2a)

theorem kept_execDspReti {a0 a1 a2} (h2a : State.memOk a2) : ∀ t, execDspReti a0 a1 a2 = .next t → State.memOk t := by
  unfold execDspReti
  exact kept_onWf (kept_dspIssue (fun _ _ _ h0 => kept_dspRetiI h0) h2a)

theorem kept_execDspLoop {a0 a1 a2} (h2a : State.memOk a2) : ∀ t, execDspLoop a0 a1 a2 = .next t → State.memOk t := by
  unfold execDspLoop
  exact kept_onWf (kept_dspIssue (fun _ _ _ h0 => kept_dspLoopI h0) h2a)

theorem kept_execDspWait {a0 a1 a2} (h2a : State.memOk a2) : ∀ t, execDspWait a0 a1 a2 = .next t → State.memOk t := by
  unfold execDspWait
  exact kept_onWf (kept_dspIssue (fun _ _ _ h0 => kept_dspWaitI h0) h2a)

theorem kept_execDspHalt {a0 a1 a2} (h2a : State.memOk a2) : ∀ t, execDspHalt a0 a1 a2 = .next t → State.memOk t := by
  unfold execDspHalt
  exact kept_onWf (kept_dspIssue (fun _ _ _ h0 => kept_dspHaltI h0) h2a)

theorem kept_execMvls {a0 a1 a2} (h2a : State.memOk a2) : ∀ t, execMvls a0 a1 a2 = .next t → State.memOk t := by
  unfold execMvls
  exact kept_onWf (kept_dspIssue (fun _ _ _ h0 => kept_dspMvlsI h0) h2a)

theorem kept_execMvsl {a0 a1 a2} (h2a : State.memOk a2) : ∀ t, execMvsl a0 a1 a2 = .next t → State.memOk t := by
  unfold execMvsl
  exact kept_onWf (kept_dspIssue (fun _ _ _ h0 => kept_dspMvslI h0) h2a)

theorem kept_execMvsv {a0 a1 a2} (h2a : State.memOk a2) : ∀ t, execMvsv a0 a1 a2 = .next t → State.memOk t := by
  unfold execMvsv
  exact kept_onWf (kept_dspIssue (fun _ _ _ h0 => kept_dspMvsvI h0) h2a)

theorem kept_execMvvs {a0 a1 a2} (h2a : State.memOk a2) : ∀ t, execMvvs a0 a1 a2 = .next t → State.memOk t := by
  unfold execMvvs
  exact kept_onWf (kept_dspIssue (fun _ _ _ h0 => kept_dspMvvsI h0) h2a)

theorem kept_execVld {a0 a1 a2} (h2a : State.memOk a2) : ∀ t, execVld a0 a1 a2 = .next t → State.memOk t := by
  unfold execVld
  exact kept_onWf (kept_dspIssue (fun _ _ _ h0 => kept_dspVldI h0) h2a)

theorem kept_execVst {a0 a1 a2} (h2a : State.memOk a2) : ∀ t, execVst a0 a1 a2 = .next t → State.memOk t := by
  unfold execVst
  exact kept_onWf (kept_dspIssue (fun _ _ _ h0 => kept_dspVstI h0) h2a)

theorem kept_execPset {a0 a1 a2} (h2a : State.memOk a2) : ∀ t, execPset a0 a1 a2 = .next t → State.memOk t := by
  unfold execPset
  exact kept_onWf (kept_dspIssue (fun _ _ _ h0 => kept_dspPsetI h0) h2a)

theorem kept_execPseth {a0 a1 a2} (h2a : State.memOk a2) : ∀ t, execPseth a0 a1 a2 = .next t → State.memOk t := by
  unfold execPseth
  exact kept_onWf (kept_dspIssue (fun _ _ _ h0 => kept_dspPsethI h0) h2a)

theorem kept_execPadd {a0 a1 a2} (h2a : State.memOk a2) : ∀ t, execPadd a0 a1 a2 = .next t → State.memOk t := by
  unfold execPadd
  exact kept_onWf (kept_dspIssue (fun _ _ _ h0 => kept_dspPaddI h0) h2a)

theorem kept_execValu {a0 a1 a2} (h2a : State.memOk a2) : ∀ t, execValu a0 a1 a2 = .next t → State.memOk t := by
  unfold execValu
  exact kept_onWf (kept_dspIssue (fun _ _ _ h0 => kept_dspValuI h0) h2a)

theorem kept_execVmac {a0 a1 a2} (h2a : State.memOk a2) : ∀ t, execVmac a0 a1 a2 = .next t → State.memOk t := by
  unfold execVmac
  exact kept_onWf (kept_dspIssue (fun _ _ _ h0 => kept_dspMac h0) h2a)

theorem kept_execVmsu {a0 a1 a2} (h2a : State.memOk a2) : ∀ t, execVmsu a0 a1 a2 = .next t → State.memOk t := by
  unfold execVmsu
  exact kept_onWf (kept_dspIssue (fun _ _ _ h0 => kept_dspMac h0) h2a)

theorem kept_execVmul {a0 a1 a2} (h2a : State.memOk a2) : ∀ t, execVmul a0 a1 a2 = .next t → State.memOk t := by
  unfold execVmul
  exact kept_onWf (kept_dspIssue (fun _ _ _ h0 => kept_dspMac h0) h2a)

theorem kept_execFtap {a0 a1 a2} (h2a : State.memOk a2) : ∀ t, execFtap a0 a1 a2 = .next t → State.memOk t := by
  unfold execFtap
  exact kept_onWf (kept_dspIssue (fun _ _ _ h0 => kept_dspFtapI h0) h2a)

theorem kept_execAccrnd {a0 a1 a2} (h2a : State.memOk a2) : ∀ t, execAccrnd a0 a1 a2 = .next t → State.memOk t := by
  unfold execAccrnd
  exact kept_onWf (kept_dspIssue (fun _ _ _ h0 => kept_dspAccrndI h0) h2a)

theorem kept_execAccclr {a0 a1 a2} (h2a : State.memOk a2) : ∀ t, execAccclr a0 a1 a2 = .next t → State.memOk t := by
  unfold execAccclr
  exact kept_onWf (kept_dspIssue (fun _ _ _ h0 => kept_dspAccclrI h0) h2a)

theorem kept_execAccsv {a0 a1 a2} (h2a : State.memOk a2) : ∀ t, execAccsv a0 a1 a2 = .next t → State.memOk t := by
  unfold execAccsv
  exact kept_onWf (kept_dspIssue (fun _ _ _ h0 => kept_dspAccsvI h0) h2a)

theorem kept_execAccld {a0 a1 a2} (h2a : State.memOk a2) : ∀ t, execAccld a0 a1 a2 = .next t → State.memOk t := by
  unfold execAccld
  exact kept_onWf (kept_dspIssue (fun _ _ _ h0 => kept_dspAccldI h0) h2a)

theorem kept_execAcccpy {a0 a1 a2} (h2a : State.memOk a2) : ∀ t, execAcccpy a0 a1 a2 = .next t → State.memOk t := by
  unfold execAcccpy
  exact kept_onWf (kept_dspIssue (fun _ _ _ h0 => kept_dspAcccpyI h0) h2a)

end Sys2Proof
end

