-- ==== Sys2Proof/Laws/Kept/Window.lean ====
section
/-! SUPPORT. What `Machine/Window.lean` defines keeps the byte memories in their canonical form. -/

set_option linter.unusedVariables false

namespace Sys2Proof

open Machine

theorem kept_setRead {a0 a1} (h1a : State.memOk a1) : State.memOk (setRead a0 a1) := by
  unfold setRead
  exact mk_mem h1a

theorem kept_countLine {a0 a1} (h1a : State.memOk a1) : State.memOk (countLine a0 a1) := by
  unfold countLine
  exact ite_mem (fun _ => kept_count (mk_mem h1a)) (fun _ => h1a)

theorem kept_clearRc {a0 a1} (h1a : State.memOk a1) : State.memOk (clearRc a0 a1) := by
  unfold clearRc
  split
  · exact ite_mem (fun _ => h1a) (fun _ => ite_mem (fun _ => mk_mem h1a) (fun _ => ite_mem (fun _ => kept_updDspCore h1a) (fun _ => h1a)))
  · exact ite_mem (fun _ => mk_mem h1a) (fun _ => mk_mem h1a)

theorem kept_readEffects {a0 a1 a2 a3} (h3a : State.memOk a3) : State.memOk (readEffects a0 a1 a2 a3) := by
  unfold readEffects
  exact kept_setRead (ite_mem (fun _ => kept_clearRc (ite_mem (fun _ => mk_mem (kept_countLine h3a)) (fun _ => kept_countLine h3a))) (fun _ => ite_mem (fun _ => mk_mem (kept_countLine h3a)) (fun _ => kept_countLine h3a)))

theorem kept_ownerReadDo {a0 a1 a2} (h2a : State.memOk a2) : State.memOk (ownerReadDo a0 a1 a2) := by
  unfold ownerReadDo
  exact ite_mem (fun _ => kept_setRead h2a) (fun _ => (by
    split
    · exact kept_hqPopDo h2a
    · exact ite_mem (fun _ => kept_readEffects (kept_readGate h2a)) (fun _ => kept_setRead (kept_readGate h2a))))

theorem kept_tileReadOk {a0 a1 a2} (h2a : State.memOk a2) : State.memOk (tileReadOk a0 a1 a2).2 := by
  unfold tileReadOk
  split
  · exact mk_snd_mem h2a
  · exact kept_accCheck h2a

theorem kept_tenantReadDo {a0 a1 a2} (h2a : State.memOk a2) : State.memOk (tenantReadDo a0 a1 a2) := by
  unfold tenantReadDo
  exact ite_mem (fun _ => kept_setRead h2a) (fun _ => (by
    split
    · exact kept_setRead (kept_readGate h2a)
    · split
      · exact kept_setRead h2a
      · split
        · exact kept_hqPopDo h2a
        · exact ite_mem (fun _ => kept_readEffects (ite_snd_mem (fun _ => kept_tileReadOk (kept_readGate h2a)) (fun _ => kept_readGate h2a))) (fun _ => kept_setRead (ite_snd_mem (fun _ => kept_tileReadOk (kept_readGate h2a)) (fun _ => kept_readGate h2a)))))

theorem kept_registerReadDo {a0 a1 a2} (h2a : State.memOk a2) : State.memOk (registerReadDo a0 a1 a2) := by
  unfold registerReadDo
  exact ite_mem (fun _ => kept_ownerReadDo h2a) (fun _ => kept_tenantReadDo h2a)

theorem kept_execWideLowRead {a0 a1 a2} (h2a : State.memOk a2) : ∀ t, execWideLowRead a0 a1 a2 = .next t → State.memOk t := by
  unfold execWideLowRead
  exact kept_onWf (kept_registerReadDo h2a)

theorem kept_execRcCounterRead {a0 a1 a2} (h2a : State.memOk a2) : ∀ t, execRcCounterRead a0 a1 a2 = .next t → State.memOk t := by
  unfold execRcCounterRead
  exact kept_onWf (kept_registerReadDo h2a)

theorem kept_quarantineEndDo {a0 a1 a2} (h2a : State.memOk a2) : State.memOk (quarantineEndDo a0 a1 a2) := by
  unfold quarantineEndDo
  exact ite_mem (fun _ => ite_mem (fun _ => kept_setQueue h2a) (fun _ => h2a)) (fun _ => ite_mem (fun _ => mk_mem h2a) (fun _ => h2a))

theorem kept_execQuarantineEnd {a0 a1 a2} (h2a : State.memOk a2) : ∀ t, execQuarantineEnd a0 a1 a2 = .next t → State.memOk t := by
  unfold execQuarantineEnd
  exact kept_onWf (kept_quarantineEndDo h2a)

end Sys2Proof
end

