-- ==== Sys2Proof/Laws/Kept/DumpRows.lean ====
section
/-! SUPPORT. What `Machine/DumpRows.lean` defines keeps the byte memories in their canonical form. -/

set_option linter.unusedVariables false

namespace Sys2Proof

open Machine

theorem wf_stoppedParts {b n : Nat} {ps : List (DumpPart × Nat)} {m : Mem} (h : Mem.wf m = true) : Mem.wf (stoppedParts b n ps m) = true := by
  induction ps generalizing m with
  | nil => exact h
  | cons w r ih => exact ih (Mem.wf_writeBytes h)

theorem kept_stopDumps {a0} (h0a : State.memOk a0) : State.memOk (stopDumps a0) := by
  have h1 : State.memOk (if a0.dump.dramState ≠ 1 then a0 else
      { (fresh a0).2 with dram := stoppedParts (dumpBase a0) (Config.free (fresh a0).1 % (dumpExtent false a0.dump.writer + 1)) (dumpParts false a0.dump.writer (fresh a0).1 a0) a0.dram, dump := { a0.dump with dramState := 3 } }) :=
    ite_mem (fun _ => h0a) (fun _ => ⟨wf_stoppedParts h0a.1, h0a.2⟩)
  exact kept_noteDump (mk_mem (ite_mem (fun _ => h1) (fun _ => mk_mem (kept_fresh h1))))

theorem kept_mirrorBank {a0 a1} (h1a : State.memOk a1) : State.memOk (mirrorBank a0 a1) := by
  unfold mirrorBank
  exact ite_mem (fun _ => mk_mem h1a) (fun _ => h1a)

theorem wf_writeParts {b : Nat} {ps : List (DumpPart × Nat)} {m : Mem} (h : Mem.wf m = true) : Mem.wf (writeParts b ps m) = true := by
  induction ps generalizing m with
  | nil => exact h
  | cons w r ih => exact ih (Mem.wf_writeBytes h)

theorem kept_dramDoneDo {a0} (h0a : State.memOk a0) : State.memOk (dramDoneDo a0) :=
  ite_mem (fun _ => h0a) (fun _ => kept_settlePark (kept_pfVector (kept_noteDump (kept_mirrorBank
    (⟨Mem.wf_writeBytes (wf_writeParts (kept_fresh h0a).1), (kept_fresh h0a).2⟩ : State.memOk { (fresh a0).2 with dram := _, dump := _ })))))

theorem kept_execDramDumpDone {a0} (h0a : State.memOk a0) : ∀ t, execDramDumpDone a0 = .next t → State.memOk t := by
  unfold execDramDumpDone
  exact kept_onWf (kept_dramDoneDo h0a)

theorem kept_flashDoneDo {a0} (h0a : State.memOk a0) : State.memOk (flashDoneDo a0) := by
  unfold flashDoneDo
  exact ite_mem (fun _ => h0a) (fun _ => kept_settlePark (ite_mem (fun _ => kept_pfVector (kept_mirrorBank (kept_noteDump (mk_mem (kept_fresh h0a))))) (fun _ => kept_noteDump (mk_mem (kept_fresh h0a)))))

theorem kept_execFlashSummaryDone {a0} (h0a : State.memOk a0) : ∀ t, execFlashSummaryDone a0 = .next t → State.memOk t := by
  unfold execFlashSummaryDone
  exact kept_onWf (kept_flashDoneDo h0a)

end Sys2Proof
end

