-- ==== Sys2Proof/Laws/Kept/Enrol.lean ====
section
/-! SUPPORT. What `Machine/Enrol.lean` defines keeps the byte memories in their canonical form. -/

set_option linter.unusedVariables false

namespace Sys2Proof

open Machine

theorem kept_enrolBody {a0 a1} (h1a : State.memOk a1) : State.memOk (enrolBody a0 a1).1 := by
  unfold enrolBody
  exact ite_fst_mem (fun _ => kept_answer h1a) (fun _ => ite_fst_mem (fun _ => kept_fabRefuse h1a) (fun _ => ite_fst_mem (fun _ => kept_fabRefuse h1a) (fun _ => ite_fst_mem (fun _ => kept_fabRefuse h1a) (fun _ => kept_answer (kept_evrWrite (kept_consumeToken (mk_mem h1a)))))))

theorem kept_execFabEnrollKey {a0 a1} (h1a : State.memOk a1) : ∀ t, execFabEnrollKey a0 a1 = .next t → State.memOk t := by
  unfold execFabEnrollKey
  exact kept_onWf (kept_command (fun _ _ h0 => kept_enrolBody h0) h1a)

end Sys2Proof
end

