-- ==== Sys2Proof/Laws/Kept/Firmware.lean ====
section
/-! SUPPORT. What `Machine/Firmware.lean` defines keeps the byte memories in their canonical form. -/

set_option linter.unusedVariables false

namespace Sys2Proof

open Machine

theorem kept_settleCbl {a0} (h0a : State.memOk a0) : State.memOk (settleCbl a0) := by
  unfold settleCbl
  exact mk_mem h0a

theorem kept_setCblEnable {a0 a1} (h1a : State.memOk a1) : State.memOk (setCblEnable a0 a1) := by
  unfold setCblEnable
  exact kept_settleCbl (mk_mem h1a)

theorem kept_setLaneTm {a0 a1 a2} (h2a : State.memOk a2) : State.memOk (setLaneTm a0 a1 a2) := by
  unfold setLaneTm
  exact kept_setGroupCfg h2a

theorem kept_applyLaneGroup {a0 a1 a2} (h1a : State.memOk a1) : State.memOk (applyLaneGroup a0 a1 a2) := by
  unfold applyLaneGroup
  exact ite_mem (fun _ => kept_setLaneTm h1a) (fun _ => ite_mem (fun _ => kept_pfVector (mk_mem (kept_setLaneTm h1a))) (fun _ => kept_applyGroup (kept_setLaneTm h1a)))

theorem kept_applySettings {a0 a1} (h1a : State.memOk a1) : State.memOk (applySettings a0 a1) := by
  unfold applySettings
  exact kept_domCfgSet (foldl_mem (kept_setCblEnable (mk_mem h1a)) (fun _ _ h0 => kept_applyLaneGroup h0))

theorem kept_readSettings {a0} (h0a : State.memOk a0) : State.memOk (readSettings a0).2 := by
  unfold readSettings
  exact ite_snd_mem (fun _ => mk_snd_mem h0a) (fun _ => mk_snd_mem (kept_record (mk_mem h0a)))

theorem kept_switchBack {a0 a1} (h1a : State.memOk a1) : State.memOk (switchBack a0 a1) := by
  unfold switchBack
  exact kept_record (mk_mem (kept_setBank (ite_mem (fun _ => h1a) (fun _ => kept_setCopy h1a))))

theorem kept_fallBack {a0 a1} (h1a : State.memOk a1) : State.memOk (fallBack a0 a1) := by
  unfold fallBack
  exact kept_applySettings (kept_readSettings (kept_switchBack h1a))

end Sys2Proof
end

