-- ==== Sys2Proof/Laws/Kept/RecorderRows.lean ====
section
/-! SUPPORT. What `Machine/RecorderRows.lean` defines keeps the byte memories in their canonical form. -/

set_option linter.unusedVariables false

namespace Sys2Proof

open Machine

theorem kept_ownerOnly {a0 a1 a2} (h0a : ∀ z0 z1, State.memOk (z1) → State.memOk (a0 z0 z1).1) (h2a : State.memOk a2) : State.memOk (ownerOnly a0 a1 a2).1 := by
  unfold ownerOnly
  exact ite_fst_mem (fun _ => h0a _ _ h2a) (fun _ => kept_answer h2a)

theorem kept_dumpCopyBody {a0 a1} (h1a : State.memOk a1) : State.memOk (dumpCopyBody a0 a1).1 := by
  unfold dumpCopyBody
  exact ite_fst_mem (fun _ => kept_badParam h1a) (fun _ => ite_fst_mem (fun _ => kept_answer h1a) (fun _ => ite_fst_mem (fun _ => kept_answer h1a) (fun _ => kept_answer (kept_hostPut h1a))))

theorem kept_execEvrDumpCopy {a0 a1} (h1a : State.memOk a1) : ∀ t, execEvrDumpCopy a0 a1 = .next t → State.memOk t := by
  unfold execEvrDumpCopy
  exact kept_onWf (kept_command (fun _ _ h0 => kept_ownerOnly (fun _ _ h1 => kept_strictly (fun _ _ h2 => kept_dumpCopyBody h2) h1) h0) h1a)

theorem kept_phaseDo {a0 a1} (h1a : State.memOk a1) : State.memOk (phaseDo a0 a1) := by
  unfold phaseDo
  exact ite_mem (fun _ => kept_setPhase h1a) (fun _ => h1a)

theorem kept_lastGaspClearDo {a0 a1} (h1a : State.memOk a1) : State.memOk (lastGaspClearDo a0 a1) := by
  unfold lastGaspClearDo
  exact ite_mem (fun _ => mk_mem h1a) (fun _ => h1a)

theorem kept_execPhase {a0 a1 a2} (h2a : State.memOk a2) : ∀ t, execPhase a0 a1 a2 = .next t → State.memOk t := by
  unfold execPhase
  exact kept_onWf (kept_gated (fun _ h0 => kept_phaseDo h0) h2a)

theorem kept_execLastGaspClear {a0 a1 a2} (h2a : State.memOk a2) : ∀ t, execLastGaspClear a0 a1 a2 = .next t → State.memOk t := by
  unfold execLastGaspClear
  exact kept_onWf (kept_gated (fun _ h0 => kept_lastGaspClearDo h0) h2a)

theorem kept_evrNeeds {a0 a1 a2 a3} (h1a : ∀ z0 z1, State.memOk (z1) → State.memOk (a1 z0 z1).1) (h3a : State.memOk a3) : State.memOk (evrNeeds a0 a1 a2 a3).1 := by
  unfold evrNeeds
  exact ite_fst_mem (fun _ => h1a _ _ (kept_accCheck h3a)) (fun _ => kept_answer (kept_accCheck h3a))

theorem kept_evrReadBody {a0 a1} (h1a : State.memOk a1) : State.memOk (evrReadBody a0 a1).1 := by
  unfold evrReadBody
  exact ite_fst_mem (fun _ => kept_badParam h1a) (fun _ => kept_answer (kept_hostPut (ite_mem (fun _ => h1a) (fun _ => kept_count h1a))))

theorem kept_execEvrRead {a0 a1} (h1a : State.memOk a1) : ∀ t, execEvrRead a0 a1 = .next t → State.memOk t := by
  unfold execEvrRead
  exact kept_onWf (kept_command (fun _ _ h0 => kept_evrNeeds (fun _ _ h1 => kept_strictly (fun _ _ h2 => kept_evrReadBody h2) h1) h0) h1a)

theorem kept_evrWriteBody {a0 a1} (h1a : State.memOk a1) : State.memOk (evrWriteBody a0 a1).1 := by
  unfold evrWriteBody
  exact ite_fst_mem (fun _ => kept_badParam h1a) (fun _ => ite_fst_mem (fun _ => kept_answer h1a) (fun _ => ite_fst_mem (fun _ => kept_answer h1a) (fun _ => kept_answer (kept_evrWrite h1a))))

theorem kept_execEvrWrite {a0 a1} (h1a : State.memOk a1) : ∀ t, execEvrWrite a0 a1 = .next t → State.memOk t := by
  unfold execEvrWrite
  exact kept_onWf (kept_command (fun _ _ h0 => kept_evrNeeds (fun _ _ h1 => kept_strictly (fun _ _ h2 => kept_evrWriteBody h2) h1) h0) h1a)

theorem kept_clearRecorder {a0 a1} (h1a : State.memOk a1) : State.memOk (clearRecorder a0 a1) := by
  unfold clearRecorder
  exact kept_record (mk_mem h1a)

theorem kept_evrClearBody {a0 a1} (h1a : State.memOk a1) : State.memOk (evrClearBody a0 a1).1 := by
  unfold evrClearBody
  exact ite_fst_mem (fun _ => kept_answer h1a) (fun _ => ite_fst_mem (fun _ => kept_answer h1a) (fun _ => kept_answer (kept_clearRecorder (kept_consumeToken h1a))))

theorem kept_execEvrClear {a0 a1} (h1a : State.memOk a1) : ∀ t, execEvrClear a0 a1 = .next t → State.memOk t := by
  unfold execEvrClear
  exact kept_onWf (kept_command (fun _ _ h0 => kept_evrNeeds (fun _ _ h1 => kept_strictly (fun _ _ h2 => kept_evrClearBody h2) h1) h0) h1a)

theorem kept_dumpReleaseBody {a0 a1} (h1a : State.memOk a1) : State.memOk (dumpReleaseBody a0 a1).1 := by
  unfold dumpReleaseBody
  exact ite_fst_mem (fun _ => kept_answer h1a) (fun _ => ite_fst_mem (fun _ => kept_answer h1a) (fun _ => kept_answer (kept_noteDump (mk_mem h1a))))

theorem kept_execEvrDumpRelease {a0 a1} (h1a : State.memOk a1) : ∀ t, execEvrDumpRelease a0 a1 = .next t → State.memOk t := by
  unfold execEvrDumpRelease
  exact kept_onWf (kept_command (fun _ _ h0 => kept_ownerOnly (fun _ _ h1 => kept_strictly (fun _ _ h2 => kept_dumpReleaseBody h2) h1) h0) h1a)

end Sys2Proof
end

