-- ==== Sys2Proof/Laws/Kept/Resets.lean ====
section
/-! SUPPORT. What `Machine/Resets.lean` defines keeps the byte memories in their canonical form. -/

set_option linter.unusedVariables false

namespace Sys2Proof

open Machine

theorem kept_loseReady {a0} (h0a : State.memOk a0) : State.memOk (loseReady a0) := by
  unfold loseReady
  exact kept_record (mk_mem (foldl_mem h0a (fun _ _ h0 => ite_mem (fun _ => h0) (fun _ => kept_releaseId h0))))

theorem kept_stopCore {a0 a1} (h0a : State.memOk a0) : State.memOk (stopCore a0 a1) := by
  unfold stopCore
  extract_lets -merge -underBinder +onlyGivenNames x0
  try clear_value x0
  split
  · assumption
  · extract_lets -merge -underBinder +onlyGivenNames x1
    have h2 : State.memOk (x1) := by
      unfold x1
      refine kept_setCore ?_
      assumption
    try clear_value x1
    refine ite_mem (fun _ => ?_) (fun _ => ?_)
    · assumption
    · refine kept_itemEnded ?_
      assumption

theorem kept_interruptLoad {a0} (h0a : State.memOk a0) : State.memOk (interruptLoad a0) := by
  unfold interruptLoad
  split
  · exact h0a
  · exact mk_mem h0a

theorem kept_dropWaits {a0} (h0a : State.memOk a0) : State.memOk (dropWaits a0) := by
  unfold dropWaits
  exact mk_mem h0a

theorem kept_warmControls {a0 a1} (h1a : State.memOk a1) : State.memOk (warmControls a0 a1) := by
  unfold warmControls
  exact mk_mem (foldl_mem (foldl_mem h1a (fun _ _ h0 => ite_mem (fun _ => kept_letGo h0) (fun _ => h0))) (fun _ _ h1 => ite_mem (fun _ => ite_mem (fun _ => kept_beginTraining (kept_updLane h1)) (fun _ => kept_updLane h1)) (fun _ => h1)))

theorem kept_restartAes {a0} (h0a : State.memOk a0) : State.memOk (restartAes a0) := by
  unfold restartAes
  exact foldl_mem (mk_mem h0a) (fun _ _ h0 => kept_tripOut h0)

theorem kept_warmClear {a0} (h0a : State.memOk a0) : State.memOk (warmClear a0) := by
  unfold warmClear
  exact mk_mem h0a

theorem kept_warmQuarantine {a0} (h0a : State.memOk a0) : State.memOk (warmQuarantine a0) := by
  unfold warmQuarantine
  exact mk_mem h0a

theorem kept_warmCore {a0 a1 a2} (h2a : State.memOk a2) : State.memOk (warmCore a0 a1 a2) := by
  unfold warmCore
  exact kept_postHeartbeat (kept_warmQuarantine (mk_mem (kept_warmControls (kept_restartAes (kept_warmClear (kept_interruptLoad (kept_endAllWork (kept_dropWaits (kept_haltQueues (foldl_mem (kept_loseReady (kept_setPhase (kept_stopDumps h2a))) (fun _ _ h0 => kept_stopCore h0)))))))))))

theorem kept_tryBank {a0 a1} (h1a : State.memOk a1) : State.memOk (tryBank a0 a1).2 := by
  unfold tryBank
  split
  · exact mk_snd_mem (mk_mem h1a)
  · exact mk_snd_mem (kept_record (kept_setBank h1a))

theorem kept_endLost {a0 a1 a2 a3} (h2a : ∀ z0 z1, State.memOk (z1) → State.memOk (a2 z0 z1)) (h3a : State.memOk a3) : State.memOk (endLost a0 a1 a2 a3) := by
  unfold endLost
  exact ite_mem (fun _ => h3a) (fun _ => kept_record (foldl_mem h3a (fun _ _ h0 => h2a _ _ h0)))

theorem kept_dropSlot {a0 a1} (h1a : State.memOk a1) : State.memOk (dropSlot a0 a1) := by
  unfold dropSlot
  exact ite_mem (fun _ => kept_freeSlotNow h1a) (fun _ => kept_setErasing (kept_updSlot h1a))

theorem kept_loseSegments {a0} (h0a : State.memOk a0) : State.memOk (loseSegments a0) := by
  refine kept_endLost (fun _ _ h => kept_dropSlot h) (kept_endLost (fun _ _ h => kept_removeSource h) (kept_endLost (fun _ _ h => ?_) (kept_endLost (fun _ _ h => ?_) h0a)))
  · exact ite_mem (fun _ => kept_closeLeg h) (fun _ => h)
  · exact ite_mem (fun _ => kept_closeSub h) (fun _ => h)

theorem kept_warmReset {a0 a1 a2} (h2a : State.memOk a2) : State.memOk (warmReset a0 a1 a2) := by
  unfold warmReset
  exact ite_mem (fun _ => kept_fallBack (kept_warmCore h2a)) (fun _ => kept_warmCore h2a)

theorem kept_exitDo {a0 a1} (h1a : State.memOk a1) : State.memOk (exitDo a0 a1) := by
  unfold exitDo
  exact ite_mem (fun _ => mk_mem (kept_loseSegments (kept_warmReset (mk_mem (kept_record h1a))))) (fun _ => h1a)

theorem wf_keptDram {s : State} (h : s.memOk) : Mem.wf (keptDram s) = true := by
  have (l : List (Nat × Stack)) : ∀ m : Mem, Mem.wf m = true → Mem.wf (l.foldl (fun m c => zeroSegments c.1 c.2.lost m) m) = true := by
    induction l with
    | nil => exact fun _ h => h
    | cons c r ih => exact fun m h => ih _ (Mem.wf_zeroSegments h)
  exact this _ _ h.1

theorem kept_coldReset {a0 a1 a2} (h2a : State.memOk a2) : State.memOk (coldReset a0 a1 a2) := by
  have h := kept_stopDumps h2a
  refine ⟨?_, h.2⟩
  show Mem.wf (if a1 = true then keptDram (stopDumps a2) else []) = true
  split
  · exact wf_keptDram h
  · rfl

theorem kept_coldDo {a0 a1} (h1a : State.memOk a1) : State.memOk (coldDo a0 a1) := by
  unfold coldDo
  exact ite_mem (fun _ => kept_coldReset h1a) (fun _ => h1a)

theorem kept_warmDo {a0 a1} (h1a : State.memOk a1) : State.memOk (warmDo a0 a1) := by
  unfold warmDo
  exact ite_mem (fun _ => kept_warmReset h1a) (fun _ => h1a)

theorem kept_recoveryDo {a0 a1 a2} (h2a : State.memOk a2) : State.memOk (recoveryDo a0 a1 a2) := by
  unfold recoveryDo
  extract_lets -merge -underBinder +onlyGivenNames x0
  have h1 : State.memOk (x0).2 := by
    unfold x0
    refine kept_takeLow ?_
    assumption
  try clear_value x0
  extract_lets -merge -underBinder +onlyGivenNames x2
  have h3 : State.memOk (x2) := by
    unfold x2
    assumption
  try clear_value x2
  refine ite_mem (fun _ => ?_) (fun _ => ?_)
  · assumption
  · extract_lets -merge -underBinder +onlyGivenNames x4
    try clear_value x4
    extract_lets -merge -underBinder +onlyGivenNames x5
    try clear_value x5
    split
    · refine kept_coldReset ?_
      refine kept_record ?_
      refine mk_mem ?_
      assumption
    · refine kept_record ?_
      refine kept_setBank ?_
      assumption

theorem kept_execExitSafeHold {a0 a1} (h1a : State.memOk a1) : ∀ t, execExitSafeHold a0 a1 = .next t → State.memOk t := by
  unfold execExitSafeHold
  exact kept_onWf (kept_gated (fun _ h0 => kept_exitDo h0) h1a)

theorem kept_bootBanks {a0} (h0a : State.memOk a0) : State.memOk (bootBanks a0).2 := by
  unfold bootBanks
  exact ite_snd_mem (fun _ => kept_tryBank (ite_mem (fun _ => kept_switchBack h0a) (fun _ => h0a))) (fun _ => kept_tryBank (kept_tryBank (ite_mem (fun _ => kept_switchBack h0a) (fun _ => h0a))))

theorem kept_bootLinks {a0} (h0a : State.memOk a0) : State.memOk (bootLinks a0) := by
  unfold bootLinks
  exact foldl_mem h0a (fun _ _ h0 => kept_updLink h0)

theorem kept_bootSupply {a0} (h0a : State.memOk a0) : State.memOk (bootSupply a0) := by
  unfold bootSupply
  exact mk_mem h0a

theorem kept_bootDump {a0 a1} (h1a : State.memOk a1) : State.memOk (bootDump a0 a1) := by
  unfold bootDump
  exact ite_mem (fun _ => mk_mem (mk_mem h1a)) (fun _ => mk_mem h1a)

theorem kept_bootStack {a0 a1 a2 a3} (h2a : State.memOk a2) : State.memOk (bootStack a0 a1 a2 a3) := by
  unfold bootStack
  exact ite_mem (fun _ => kept_failStack h2a) (fun _ => kept_runDo (foldl_mem h2a (fun _ _ h0 => ite_mem (fun _ => kept_memHashDo h0) (fun _ => h0))))

theorem kept_bootGroup {a0 a1 a2} (h1a : State.memOk a1) : State.memOk (bootGroup a0 a1 a2) := by
  unfold bootGroup
  exact ite_mem (fun _ => kept_setGroupCfg (kept_setLaneTm h1a)) (fun _ => kept_pllLockDo (kept_applyGroup (kept_setLaneTm h1a)))

theorem kept_bootFirmware {a0 a1 a2} (h2a : State.memOk a2) : State.memOk (bootFirmware a0 a1 a2) := by
  unfold bootFirmware
  exact ite_mem (fun _ => kept_domStart (kept_setDomCfg (kept_bootLoad (foldl_mem (kept_postHeartbeat (kept_record (kept_setCblEnable (mk_mem (kept_bootDump (foldl_mem (kept_readSettings h2a) (fun _ _ h0 => kept_bootStack h0))))))) (fun _ _ h1 => kept_bootGroup h1))))) (fun _ => kept_setDomCfg (kept_bootLoad (foldl_mem (kept_postHeartbeat (kept_record (kept_setCblEnable (mk_mem (kept_bootDump (foldl_mem (kept_readSettings h2a) (fun _ _ h0 => kept_bootStack h0))))))) (fun _ _ h1 => kept_bootGroup h1))))

theorem kept_coldBootDo {a0 a1 a2} (h2a : State.memOk a2) : State.memOk (coldBootDo a0 a1 a2) := by
  unfold coldBootDo
  exact ite_mem (fun _ => h2a) (fun _ => ite_mem (fun _ => kept_bootFirmware (kept_bootBanks (kept_bootLinks (kept_bootSupply h2a)))) (fun _ => kept_enterSafeHold (kept_bootBanks (kept_bootLinks (kept_bootSupply h2a)))))

theorem kept_execColdBoot {a0 a1 a2} (h2a : State.memOk a2) : ∀ t, execColdBoot a0 a1 a2 = .next t → State.memOk t := by
  unfold execColdBoot
  exact kept_onWf (kept_coldBootDo h2a)

theorem kept_execPerst {a0} (h0a : State.memOk a0) : ∀ t, execPerst a0 = .next t → State.memOk t := by
  unfold execPerst
  exact kept_onWf (kept_doIf (fun _ h0 => kept_coldReset h0) h0a)

theorem kept_execServiceReset {a0} (h0a : State.memOk a0) : ∀ t, execServiceReset a0 = .next t → State.memOk t := by
  unfold execServiceReset
  exact kept_onWf (kept_doIf (fun _ h0 => kept_coldReset h0) h0a)

theorem kept_execColdWrite {a0 a1} (h1a : State.memOk a1) : ∀ t, execColdWrite a0 a1 = .next t → State.memOk t := by
  unfold execColdWrite
  exact kept_onWf (kept_gated (fun _ h0 => kept_coldDo h0) h1a)

theorem kept_execWarmWrite {a0 a1} (h1a : State.memOk a1) : ∀ t, execWarmWrite a0 a1 = .next t → State.memOk t := by
  unfold execWarmWrite
  exact kept_onWf (kept_gated (fun _ h0 => kept_warmDo h0) h1a)

theorem kept_execRecoveryLoad {a0 a1 a2} (h2a : State.memOk a2) : ∀ t, execRecoveryLoad a0 a1 a2 = .next t → State.memOk t := by
  unfold execRecoveryLoad
  exact kept_onWf (kept_gated (fun _ h0 => kept_recoveryDo h0) h2a)

end Sys2Proof
end

