-- ==== Sys2Proof/Laws/Kept/Resume.lean ====
section
/-! SUPPORT. What `Machine/Resume.lean` defines keeps the byte memories in their canonical form. -/

set_option linter.unusedVariables false

namespace Sys2Proof

open Machine

theorem kept_resumeDo {a0 a1} (h1a : State.memOk a1) : State.memOk (resumeDo a0 a1) := by
  unfold resumeDo
  exact ite_mem (fun _ => h1a) (fun _ => kept_setQueue h1a)

theorem kept_execResume {a0 a1 a2} (h2a : State.memOk a2) : ∀ t, execResume a0 a1 a2 = .next t → State.memOk t := by
  unfold execResume
  exact kept_onWf (kept_controlled (fun _ h0 => kept_resumeDo h0) h2a)

end Sys2Proof
end

