-- ==== Sys2Proof/Laws/Kept/RegWrite.lean ====
section
/-! SUPPORT. What `Machine/RegWrite.lean` defines keeps the byte memories in their canonical form. -/

set_option linter.unusedVariables false

namespace Sys2Proof

open Machine

theorem kept_holdLow {a0 a1 a2 a3} (h3a : State.memOk a3) : State.memOk (holdLow a0 a1 a2 a3) := by
  unfold holdLow
  exact mk_mem h3a

theorem kept_writeAcc {a0 a1 a2 a3} (h3a : State.memOk a3) : State.memOk (writeAcc a0 a1 a2 a3) := by
  unfold writeAcc
  exact ite_mem (fun _ => kept_accWriteDo h3a) (fun _ => ite_mem (fun _ => kept_accQueryDo h3a) (fun _ => h3a))

theorem kept_writeDisp {a0 a1 a2} (h2a : State.memOk a2) : State.memOk (writeDisp a0 a1 a2) := by
  unfold writeDisp
  exact ite_mem (fun _ => hold_mem h2a (fun _ h0 => mk_mem h0)) (fun _ => ite_mem (fun _ => mk_mem h2a) (fun _ => (by
    split
    · exact mk_mem h2a
    · exact h2a)))

theorem kept_writeTimeEvent {a0 a1} (h1a : State.memOk a1) : State.memOk (writeTimeEvent a0 a1) := by
  unfold writeTimeEvent
  exact mk_mem h1a

theorem kept_writeTime {a0 a1 a2} (h2a : State.memOk a2) : State.memOk (writeTime a0 a1 a2) := by
  unfold writeTime
  exact ite_mem (fun _ => ite_mem (fun _ => mk_mem h2a) (fun _ => h2a)) (fun _ => ite_mem (fun _ => hold_mem h2a (fun _ h0 => hold_mem h0 (fun _ h1 => mk_mem h1))) (fun _ => ite_mem (fun _ => kept_writeTimeEvent h2a) (fun _ => ite_mem (fun _ => hold_mem h2a (fun _ h2 => mk_mem h2)) (fun _ => (by
    split
    · exact mk_mem h2a
    · exact h2a)))))

theorem kept_writePwrEvent {a0 a1} (h1a : State.memOk a1) : State.memOk (writePwrEvent a0 a1) := by
  unfold writePwrEvent
  exact mk_mem h1a

theorem kept_hqCtrlDo {a0 a1 a2} (h2a : State.memOk a2) : State.memOk (hqCtrlDo a0 a1 a2) := by
  unfold hqCtrlDo
  refine kept_doIf ?_ ?_
  · intro y0 h1
    refine kept_flushDo ?_
    assumption
  · refine kept_doIf ?_ ?_
    · intro y2 h3
      refine kept_armDo ?_
      assumption
    · refine kept_doIf ?_ ?_
      · intro y4 h5
        refine kept_resumeDo ?_
        assumption
      · assumption

theorem kept_hqIrqDo {a0 a1 a2} (h2a : State.memOk a2) : State.memOk (hqIrqDo a0 a1 a2) := by
  unfold hqIrqDo
  exact ite_mem (fun _ => kept_cfgError h2a) (fun _ => ite_mem (fun _ => h2a) (fun _ => kept_queueIrq (kept_updQueue h2a)))

theorem kept_hqRingDo {a0 a1 a2} (h2a : State.memOk a2) : State.memOk (hqRingDo a0 a1 a2) := by
  unfold hqRingDo
  exact kept_updQueue h2a

theorem kept_hqIndexDo {a0 a1 a2} (h2a : State.memOk a2) : State.memOk (hqIndexDo a0 a1 a2) := by
  unfold hqIndexDo
  exact kept_updQueue h2a

theorem kept_writeHq {a0 a1 a2 a3 a4} (h4a : State.memOk a4) : State.memOk (writeHq a0 a1 a2 a3 a4) := by
  unfold writeHq
  exact ite_mem (fun _ => kept_controlled (fun _ h0 => kept_hqCfgDo h0) h4a) (fun _ => ite_mem (fun _ => kept_controlled (fun _ h1 => kept_updQueue h1) h4a) (fun _ => ite_mem (fun _ => kept_controlled (fun _ h2 => kept_hqCtrlDo h2) h4a) (fun _ => ite_mem (fun _ => kept_gated (fun _ h3 => kept_holdLow h3) h4a) (fun _ => ite_mem (fun _ => kept_hqPushDo h4a) (fun _ => ite_mem (fun _ => kept_controlled (fun _ h4 => kept_hqIrqDo h4) h4a) (fun _ => ite_mem (fun _ => kept_controlled (fun _ h5 => kept_hqRingDo h5) h4a) (fun _ => ite_mem (fun _ => kept_controlled (fun _ h6 => kept_hqIndexDo h6) h4a) (fun _ => ite_mem (fun _ => kept_controlled (fun _ h7 => kept_mirrorConsDo h7) h4a) (fun _ => kept_gated (fun _ h8 => h8) h4a)))))))))

theorem kept_writeQuarantine {a0 a1} (h1a : State.memOk a1) : State.memOk (writeQuarantine a0 a1) := by
  unfold writeQuarantine
  exact hold_mem h1a (fun _ h0 => mk_mem h0)

theorem kept_writeFault {a0 a1} (h1a : State.memOk a1) : State.memOk (writeFault a0 a1) := by
  unfold writeFault
  exact mk_mem h1a

theorem kept_writeReset {a0 a1 a2} (h2a : State.memOk a2) : State.memOk (writeReset a0 a1 a2) := by
  unfold writeReset
  exact ite_mem (fun _ => h2a) (fun _ => ite_mem (fun _ => kept_coldDo h2a) (fun _ => kept_doIf (fun _ h0 => kept_warmDo h0) h2a))

theorem kept_writeSupply {a0 a1 a2 a3} (h3a : State.memOk a3) : State.memOk (writeSupply a0 a1 a2 a3) := by
  unfold writeSupply
  exact ite_mem (fun _ => kept_writeFault h3a) (fun _ => ite_mem (fun _ => kept_saving (fun _ h0 => kept_setCblEnable h0) h3a) (fun _ => ite_mem (fun _ => kept_doIf (fun _ h1 => kept_exitDo h1) h3a) (fun _ => ite_mem (fun _ => kept_writeReset h3a) (fun _ => ite_mem (fun _ => kept_holdLow h3a) (fun _ => ite_mem (fun _ => kept_recoveryDo h3a) (fun _ => h3a))))))

theorem kept_writeLinkCtrl {a0 a1 a2} (h2a : State.memOk a2) : State.memOk (writeLinkCtrl a0 a1 a2) := by
  unfold writeLinkCtrl
  exact ite_mem (fun _ => h2a) (fun _ => kept_doIf (fun _ h0 => kept_retrainDo h0) (kept_holdDownDo h2a))

theorem kept_writeBody {a0 a1 a2 a3} (h3a : State.memOk a3) : State.memOk (writeBody a0 a1 a2 a3) := by
  unfold writeBody
  exact ite_mem (fun _ => kept_writeQuarantine h3a) (fun _ => ite_mem (fun _ => kept_domCfgDo h3a) (fun _ => ite_mem (fun _ => kept_writeSupply h3a) (fun _ => (by
    split
    · exact kept_doIf (fun _ h0 => kept_writeLinkCtrl h0) h3a
    · exact h3a))))

theorem kept_writePwr {a0 a1 a2} (h2a : State.memOk a2) : State.memOk (writePwr a0 a1 a2) := by
  unfold writePwr
  exact ite_mem (fun _ => kept_postureDo h2a) (fun _ => ite_mem (fun _ => hold_mem h2a (fun _ h0 => mk_mem h0)) (fun _ => ite_mem (fun _ => kept_writePwrEvent h2a) (fun _ => h2a)))

theorem kept_evrRateDo {a0 a1} (h1a : State.memOk a1) : State.memOk (evrRateDo a0 a1) := by
  unfold evrRateDo
  exact ite_mem (fun _ => h1a) (fun _ => mk_mem h1a)

theorem kept_writeEvr {a0 a1 a2} (h2a : State.memOk a2) : State.memOk (writeEvr a0 a1 a2) := by
  unfold writeEvr
  exact ite_mem (fun _ => mk_mem h2a) (fun _ => ite_mem (fun _ => kept_phaseDo h2a) (fun _ => ite_mem (fun _ => kept_evrRateDo h2a) (fun _ => ite_mem (fun _ => kept_lastGaspClearDo h2a) (fun _ => h2a))))

theorem kept_writeAesEvent {a0 a1} (h1a : State.memOk a1) : State.memOk (writeAesEvent a0 a1) := by
  unfold writeAesEvent
  exact mk_mem h1a

theorem kept_writeAes {a0 a1 a2} (h2a : State.memOk a2) : State.memOk (writeAes a0 a1 a2) := by
  unfold writeAes
  exact ite_mem (fun _ => kept_writeAesEvent h2a) (fun _ => (by
    split
    · exact kept_doIf (fun _ h0 => kept_aesInCfgDo h0) h2a
    · exact ite_mem (fun _ => kept_aesOutCfgDo h2a) (fun _ => ite_mem (fun _ => kept_aesOutCsDo h2a) (fun _ => h2a))
    · exact ite_mem (fun _ => kept_aesGroupCfgDo h2a) (fun _ => kept_doIf (fun _ h1 => kept_aesMaskDo h1) h2a)
    · exact h2a))

theorem kept_writeFab {a0 a1 a2 a3} (h3a : State.memOk a3) : State.memOk (writeFab a0 a1 a2 a3) := by
  unfold writeFab
  exact ite_mem (fun _ => h3a) (fun _ => ite_mem (fun _ => kept_saving (fun _ h0 => mk_mem h0) h3a) (fun _ => ite_mem (fun _ => hold_mem h3a (fun _ h1 => mk_mem h1)) (fun _ => h3a)))

theorem kept_laneTmDo {a0 a1 a2} (h2a : State.memOk a2) : State.memOk (laneTmDo a0 a1 a2) := by
  unfold laneTmDo
  exact hold_mem h2a (fun _ h0 => hold_mem h0 (fun _ h1 => kept_saving (fun _ h2 => kept_setLaneTm h2) h1))

theorem kept_writeLaneCtrl {a0 a1 a2} (h2a : State.memOk a2) : State.memOk (writeLaneCtrl a0 a1 a2) := by
  unfold writeLaneCtrl
  exact kept_doIf (fun _ h0 => kept_laneRetrainDo h0) (kept_laneHoldDo h2a)

theorem kept_writeLane {a0 a1 a2 a3} (h3a : State.memOk a3) : State.memOk (writeLane a0 a1 a2 a3) := by
  unfold writeLane
  exact ite_mem (fun _ => kept_writeLaneCtrl h3a) (fun _ => ite_mem (fun _ => kept_laneTestDo h3a) (fun _ => ite_mem (fun _ => kept_updLane h3a) (fun _ => h3a)))

theorem kept_writeLanes {a0 a1 a2 a3} (h3a : State.memOk a3) : State.memOk (writeLanes a0 a1 a2 a3) := by
  unfold writeLanes
  exact ite_mem (fun _ => mk_mem h3a) (fun _ => (by
    split
    · exact ite_mem (fun _ => kept_laneGroupDo h3a) (fun _ => kept_doIf (fun _ h0 => kept_laneTmDo h0) h3a)
    · exact kept_writeLane h3a
    · exact h3a))

theorem kept_excRateDo {a0 a1 a2} (h2a : State.memOk a2) : State.memOk (excRateDo a0 a1 a2) := by
  unfold excRateDo
  exact ite_mem (fun _ => h2a) (fun _ => mk_mem h2a)

theorem kept_ingPoolDo {a0 a1 a2} (h2a : State.memOk a2) : State.memOk (ingPoolDo a0 a1 a2) := by
  unfold ingPoolDo
  exact ite_mem (fun _ => h2a) (fun _ => mk_mem h2a)

theorem kept_updLaddr {a0 a1 a2 a3} (h3a : State.memOk a3) : State.memOk (updLaddr a0 a1 a2 a3) := by
  unfold updLaddr
  exact mk_mem h3a

theorem kept_writeIng {a0 a1 a2 a3 a4 a5} (h5a : State.memOk a5) : State.memOk (writeIng a0 a1 a2 a3 a4 a5) := by
  unfold writeIng
  exact ite_mem (fun _ => kept_excRateDo h5a) (fun _ => ite_mem (fun _ => kept_ingPoolDo h5a) (fun _ => (by
    split
    · exact ite_mem (fun _ => kept_holdLow h5a) (fun _ => kept_updLaddr (kept_takeLow h5a))
    · exact kept_updLaddr h5a
    · exact mk_mem h5a
    · exact h5a)))

theorem kept_spillDo {a0 a1 a2} (h2a : State.memOk a2) : State.memOk (spillDo a0 a1 a2) := by
  unfold spillDo
  exact hold_mem h2a (fun _ h0 => hold_mem h0 (fun _ h1 => mk_mem h1))

theorem kept_writeLeg {a0 a1 a2 a3} (h3a : State.memOk a3) : State.memOk (writeLeg a0 a1 a2 a3) := by
  unfold writeLeg
  exact ite_mem (fun _ => kept_spillDo h3a) (fun _ => (by
    split
    · exact mk_mem h3a
    · exact ite_mem (fun _ => h3a) (fun _ => mk_mem h3a)
    · exact h3a))

theorem kept_writeMem {a0 a1 a2 a3} (h3a : State.memOk a3) : State.memOk (writeMem a0 a1 a2 a3) := by
  unfold writeMem
  exact ite_mem (fun _ => kept_updStack h3a) (fun _ => ite_mem (fun _ => ite_mem (fun _ => h3a) (fun _ => kept_parkDo (kept_doIf (fun _ h0 => kept_runDo h0) h3a))) (fun _ => ite_mem (fun _ => kept_updStack h3a) (fun _ => ite_mem (fun _ => kept_updStack h3a) (fun _ => ite_mem (fun _ => kept_updStack h3a) (fun _ => (by
    split
    · exact kept_memHashDo h3a
    · exact kept_memHashDo h3a
    · exact h3a))))))

theorem kept_writeWing {a0 a1 a2 a3} (h3a : State.memOk a3) : State.memOk (writeWing a0 a1 a2 a3) := by
  unfold writeWing
  exact ite_mem (fun _ => kept_writeLanes h3a) (fun _ => ite_mem (fun _ => kept_writeIng h3a) (fun _ => ite_mem (fun _ => kept_writeLeg h3a) (fun _ => (by
    split
    · exact kept_writeMem h3a
    · exact h3a))))

theorem kept_writeReg {a0 a1 a2 a3} (h3a : State.memOk a3) : State.memOk (writeReg a0 a1 a2 a3) := by
  unfold writeReg
  exact ite_mem (fun _ => kept_writeBody h3a) (fun _ => ite_mem (fun _ => kept_writePwr h3a) (fun _ => ite_mem (fun _ => kept_writeDisp h3a) (fun _ => ite_mem (fun _ => h3a) (fun _ => ite_mem (fun _ => kept_writeEvr h3a) (fun _ => ite_mem (fun _ => h3a) (fun _ => ite_mem (fun _ => kept_writeTime h3a) (fun _ => ite_mem (fun _ => kept_writeAes h3a) (fun _ => ite_mem (fun _ => kept_writeAcc h3a) (fun _ => ite_mem (fun _ => h3a) (fun _ => ite_mem (fun _ => kept_writeFab h3a) (fun _ => kept_writeWing h3a)))))))))))

theorem kept_ownerWriteDo {a0 a1 a2 a3} (h3a : State.memOk a3) : State.memOk (ownerWriteDo a0 a1 a2 a3) := by
  unfold ownerWriteDo
  exact ite_mem (fun _ => h3a) (fun _ => (by
    split
    · exact kept_writeHq h3a
    · exact kept_doorbellGated (fun _ h0 => kept_doorbellDo h0) h3a
    · exact kept_gated (fun _ h1 => kept_writeReg h1) h3a))

theorem kept_tenantWriteDo {a0 a1 a2 a3} (h3a : State.memOk a3) : State.memOk (tenantWriteDo a0 a1 a2 a3) := by
  unfold tenantWriteDo
  exact ite_mem (fun _ => h3a) (fun _ => (by
    split
    · exact kept_writeHq h3a
    · split
      · exact kept_doorbellGated (fun _ h0 => kept_doorbellDo h0) h3a
      · exact h3a
    · exact h3a))

theorem kept_registerWriteDo {a0 a1 a2 a3} (h3a : State.memOk a3) : State.memOk (registerWriteDo a0 a1 a2 a3) := by
  unfold registerWriteDo
  exact ite_mem (fun _ => kept_ownerWriteDo h3a) (fun _ => kept_tenantWriteDo h3a)

theorem kept_execRegisterWrite {a0 a1 a2 a3} (h3a : State.memOk a3) : ∀ t, execRegisterWrite a0 a1 a2 a3 = .next t → State.memOk t := by
  unfold execRegisterWrite
  exact kept_onWf (kept_registerWriteDo h3a)

theorem kept_execWideLowWrite {a0 a1 a2 a3} (h3a : State.memOk a3) : ∀ t, execWideLowWrite a0 a1 a2 a3 = .next t → State.memOk t := by
  unfold execWideLowWrite
  exact kept_onWf (kept_registerWriteDo h3a)

end Sys2Proof
end

