-- ==== Sys2Proof/Laws/Kept/Survival.lean ====
section
/-! SUPPORT. What `Machine/Survival.lean` defines keeps the byte memories in their canonical form. -/

set_option linter.unusedVariables false

namespace Sys2Proof

open Machine

theorem kept_bodyFault {a0 a1} (h1a : State.memOk a1) : State.memOk (bodyFault a0 a1) := by
  unfold bodyFault
  exact kept_pfVector (mk_mem h1a)

theorem kept_cblPwrDo {a0 a1} (h1a : State.memOk a1) : State.memOk (cblPwrDo a0 a1) := by
  unfold cblPwrDo
  exact ite_mem (fun _ => kept_record (kept_bodyFault (mk_mem h1a))) (fun _ => h1a)

theorem kept_stopPower {a0 a1 a2} (h2a : State.memOk a2) : State.memOk (stopPower a0 a1 a2) := by
  unfold stopPower
  exact mk_mem (kept_coldReset (kept_record h2a))

theorem kept_powerLossDo {a0 a1} (h1a : State.memOk a1) : State.memOk (powerLossDo a0 a1) := by
  unfold powerLossDo
  exact ite_mem (fun _ => kept_stopPower (mk_mem h1a)) (fun _ => h1a)

theorem kept_backInRange {a0} (h0a : State.memOk a0) : State.memOk (backInRange a0) := by
  unfold backInRange
  split
  · exact h0a
  · exact ite_mem (fun _ => kept_record (kept_bodyFault (mk_mem h0a))) (fun _ => mk_mem h0a)

theorem kept_outOfRange {a0 a1} (h1a : State.memOk a1) : State.memOk (outOfRange a0 a1) := by
  unfold outOfRange
  split
  · exact mk_mem h1a
  · exact ite_mem (fun _ => mk_mem h1a) (fun _ => h1a)

theorem kept_supplyBandDo {a0 a1} (h1a : State.memOk a1) : State.memOk (supplyBandDo a0 a1) := by
  unfold supplyBandDo
  exact ite_mem (fun _ => mk_mem h1a) (fun _ => ite_mem (fun _ => kept_powerLossDo h1a) (fun _ => ite_mem (fun _ => kept_backInRange (mk_mem h1a)) (fun _ => kept_outOfRange (mk_mem h1a))))

theorem kept_execSupplyBand {a0 a1} (h1a : State.memOk a1) : ∀ t, execSupplyBand a0 a1 = .next t → State.memOk t := by
  unfold execSupplyBand
  exact kept_onWf (kept_supplyBandDo h1a)

theorem kept_rideThroughEndDo {a0} (h0a : State.memOk a0) : State.memOk (rideThroughEndDo a0) := by
  unfold rideThroughEndDo
  split
  · exact h0a
  · exact ite_mem (fun _ => kept_enterSafeHold (mk_mem h0a)) (fun _ => h0a)

theorem kept_execRideThroughEnd {a0} (h0a : State.memOk a0) : ∀ t, execRideThroughEnd a0 = .next t → State.memOk t := by
  unfold execRideThroughEnd
  exact kept_onWf (kept_rideThroughEndDo h0a)

theorem kept_execPowerLoss {a0 a1} (h1a : State.memOk a1) : ∀ t, execPowerLoss a0 a1 = .next t → State.memOk t := by
  unfold execPowerLoss
  exact kept_onWf (kept_powerLossDo h1a)

theorem kept_execFuseOpen {a0} (h0a : State.memOk a0) : ∀ t, execFuseOpen a0 = .next t → State.memOk t := by
  unfold execFuseOpen
  exact kept_onWf (kept_doIf (fun _ h0 => kept_stopPower h0) h0a)

theorem kept_setCase {a0 a1} (h1a : State.memOk a1) : State.memOk (setCase a0 a1) := by
  unfold setCase
  exact mk_mem h1a

theorem kept_caseOverDo {a0 a1} (h1a : State.memOk a1) : State.memOk (caseOverDo a0 a1) := by
  unfold caseOverDo
  exact ite_mem (fun _ => kept_record (kept_bodyFault (kept_setCase h1a))) (fun _ => h1a)

theorem kept_execCaseOver {a0 a1} (h1a : State.memOk a1) : ∀ t, execCaseOver a0 a1 = .next t → State.memOk t := by
  unfold execCaseOver
  exact kept_onWf (kept_caseOverDo h1a)

theorem kept_caseTempDo {a0 a1} (h1a : State.memOk a1) : State.memOk (caseTempDo a0 a1) := by
  unfold caseTempDo
  exact ite_mem (fun _ => kept_enterSafeHold (kept_setCase h1a)) (fun _ => h1a)

theorem kept_execCaseTemp {a0 a1} (h1a : State.memOk a1) : ∀ t, execCaseTemp a0 a1 = .next t → State.memOk t := by
  unfold execCaseTemp
  exact kept_onWf (kept_caseTempDo h1a)

theorem kept_execBodyIntegrity {a0} (h0a : State.memOk a0) : ∀ t, execBodyIntegrity a0 = .next t → State.memOk t := by
  unfold execBodyIntegrity
  exact kept_onWf (kept_doIf (fun _ h0 => kept_enterSafeHold h0) h0a)

theorem kept_execCblPwr {a0 a1} (h1a : State.memOk a1) : ∀ t, execCblPwr a0 a1 = .next t → State.memOk t := by
  unfold execCblPwr
  exact kept_onWf (kept_cblPwrDo h1a)

theorem kept_cblRetryDo {a0 a1 a2} (h2a : State.memOk a2) : State.memOk (cblRetryDo a0 a1 a2) := by
  unfold cblRetryDo
  exact ite_mem (fun _ => ite_mem (fun _ => mk_mem h2a) (fun _ => mk_mem h2a)) (fun _ => h2a)

theorem kept_execCblPwrRetry {a0 a1 a2} (h2a : State.memOk a2) : ∀ t, execCblPwrRetry a0 a1 a2 = .next t → State.memOk t := by
  unfold execCblPwrRetry
  exact kept_onWf (kept_cblRetryDo h2a)

theorem kept_cblPresDo {a0 a1 a2} (h2a : State.memOk a2) : State.memOk (cblPresDo a0 a1 a2) := by
  unfold cblPresDo
  exact kept_settleCbl (mk_mem h2a)

theorem kept_execCblPresChange {a0 a1 a2} (h2a : State.memOk a2) : ∀ t, execCblPresChange a0 a1 a2 = .next t → State.memOk t := by
  unfold execCblPresChange
  exact kept_onWf (kept_cblPresDo h2a)

end Sys2Proof
end

