-- ==== Sys2Proof/Laws/Kept/UpdateRows.lean ====
section
/-! SUPPORT. What `Machine/UpdateRows.lean` defines keeps the byte memories in their canonical form. -/

set_option linter.unusedVariables false

namespace Sys2Proof

open Machine

theorem kept_startTrial {a0 a1} (h1a : State.memOk a1) : State.memOk (startTrial a0 a1) := by
  unfold startTrial
  exact kept_record (ite_mem (fun _ => kept_applySettings (kept_migrateSettings (mk_mem (kept_setBank h1a)))) (fun _ => kept_migrateSettings (mk_mem (kept_setBank h1a))))

theorem kept_rejectNew {a0 a1 a2} (h2a : State.memOk a2) : State.memOk (rejectNew a0 a1 a2) := by
  unfold rejectNew
  exact kept_record (mk_mem (kept_record (kept_setBank h2a)))

theorem kept_activateDo {a0} (h0a : State.memOk a0) : State.memOk (activateDo a0) := by
  unfold activateDo
  refine ite_mem (fun _ => ?_) (fun _ => ?_)
  · extract_lets -merge -underBinder +onlyGivenNames x0
    try clear_value x0
    extract_lets -merge -underBinder +onlyGivenNames x1
    have h2 : State.memOk (x1) := by
      unfold x1
      refine kept_warmCore ?_
      refine mk_mem ?_
      assumption
    try clear_value x1
    extract_lets -merge -underBinder +onlyGivenNames x3
    try clear_value x3
    extract_lets -merge -underBinder +onlyGivenNames x4
    try clear_value x4
    split
    · refine kept_startTrial ?_
      refine mk_mem ?_
      assumption
    · refine kept_rejectNew ?_
      assumption
  · assumption

theorem kept_execActivateAt {a0} (h0a : State.memOk a0) : ∀ t, execActivateAt a0 = .next t → State.memOk t := by
  unfold execActivateAt
  exact kept_onWf (kept_activateDo h0a)

theorem kept_fallBackNow {a0} (h0a : State.memOk a0) : State.memOk (fallBackNow a0) := by
  unfold fallBackNow
  exact kept_fallBack (kept_warmCore h0a)

theorem kept_updFallbackBody {a0 a1} (h1a : State.memOk a1) : State.memOk (updFallbackBody a0 a1).1 := by
  unfold updFallbackBody
  exact ite_fst_mem (fun _ => kept_answer h1a) (fun _ => ite_fst_mem (fun _ => kept_answer h1a) (fun _ => ite_fst_mem (fun _ => kept_answer h1a) (fun _ => ite_fst_mem (fun _ => mk_fst_mem (kept_fallBackNow (kept_complete (mk_mem h1a)))) (fun _ => kept_answer (mk_mem (mk_mem h1a))))))

theorem kept_execUpdFallback {a0 a1} (h1a : State.memOk a1) : ∀ t, execUpdFallback a0 a1 = .next t → State.memOk t := by
  unfold execUpdFallback
  exact kept_onWf (kept_command (fun _ _ h0 => kept_updFallbackBody h0) h1a)

theorem kept_fallbackInstantDo {a0} (h0a : State.memOk a0) : State.memOk (fallbackInstantDo a0) := by
  unfold fallbackInstantDo
  exact ite_mem (fun _ => kept_fallBackNow h0a) (fun _ => h0a)

theorem kept_execFallbackInstant {a0} (h0a : State.memOk a0) : ∀ t, execFallbackInstant a0 = .next t → State.memOk t := by
  unfold execFallbackInstant
  exact kept_onWf (kept_fallbackInstantDo h0a)

end Sys2Proof
end

