-- ==== Sys2Proof/Laws/KeyRecords.lean ====
section
/-! SUPPORT. The records of key slots in DRAM: everything that waking a stack, serving a
burst and writing a slot's record can change. -/

namespace Sys2Proof.Machine

theorem slotAt_congr {s t : State} (h : t.keys = s.keys) (k : Nat) : slotAt k t = slotAt k s := by simp only [slotAt, h]

/-- A write to a slot's record can change the memory, the stacks, the counters, the recorder and the output, and nothing else. -/
def DramOnly (s t : State) : Prop :=
  ∃ d u e c o, t = { s with dram := d, dramStacks := u, evr := e, ctr := c, out := o }

theorem DramOnly.refl (s : State) : DramOnly s s := ⟨_, _, _, _, _, rfl⟩

theorem DramOnly.trans {a b c : State} (h : DramOnly a b) (g : DramOnly b c) : DramOnly a c := by
  obtain ⟨_, _, _, _, _, rfl⟩ := h
  obtain ⟨_, _, _, _, _, rfl⟩ := g
  exact ⟨_, _, _, _, _, rfl⟩

theorem DramOnly.keys {s t : State} (h : DramOnly s t) : t.keys = s.keys := by
  obtain ⟨_, _, _, _, _, rfl⟩ := h
  rfl

theorem wake_only (k : Nat) (s : State) : DramOnly s (wake k s) := by
  simp only [wake]
  split
  · split
    · exact ⟨_, _, _, _, _, rfl⟩
    · obtain ⟨e, c, o, h, _⟩ := logOnly_memRecord 208 0x0C03 [(1, k), (1, (stackOf k s).lost)]
        { (setStack k { stackOf k s with
            state := 1, lost := 0, openRow := Tab.empty,
            poison := (stackOf k s).poison.filter (fun a => !(stackOf k s).lost.testBit (segmentOf a)) } s) with
          dram := zeroSegments k (stackOf k s).lost (setStack k { stackOf k s with
            state := 1, lost := 0, openRow := Tab.empty,
            poison := (stackOf k s).poison.filter (fun a => !(stackOf k s).lost.testBit (segmentOf a)) } s).dram }
      rw [h]; exact ⟨_, _, _, _, _, rfl⟩
  · exact .refl s

theorem wake_dram {k : Nat} {s : State} (h : (stackOf k s).lost = 0) : (wake k s).dram = s.dram := by
  simp only [wake, h]
  split <;> rfl

theorem serveWrite_only (k a : Nat) (bs : List Byte) (s : State) : DramOnly s (serveBurst k a (some bs) s) := by
  simp only [serveBurst]
  split <;> exact ⟨_, _, _, _, _, rfl⟩

/-- Served writes leave every byte outside their bursts as it was. -/
theorem serveWrite_other {k a x : Nat} {bs : List Byte} {s : State} (hw : Mem.wf s.dram = true) (hx : x < dramAt k a ∨ dramAt k a + bs.length ≤ x) :
    Mem.wf (serveBurst k a (some bs) s).dram = true ∧ Mem.read (serveBurst k a (some bs) s).dram x = Mem.read s.dram x := by
  simp only [serveBurst]
  split
  · exact ⟨hw, rfl⟩
  · exact ⟨Mem.wf_writeBytes hw, Mem.read_writeBytes_other hw hx⟩

theorem serveAll_only (k : Nat) (bs : List Byte) (l : List (Nat × Nat)) (s : State) :
    DramOnly s (l.foldl (fun s x => serveBurst k x.1 (some (slice bs (64 * x.2) 64)) s) s) := by
  induction l generalizing s with
  | nil => exact .refl s
  | cons x r ih => exact (serveWrite_only k x.1 _ s).trans (ih _)

theorem serveAll_other {k lo hi x : Nat} (bs : List Byte) (l : List (Nat × Nat)) (s : State) (hw : Mem.wf s.dram = true)
    (hl : ∀ p ∈ l, lo ≤ dramAt k p.1 ∧ dramAt k p.1 + 64 ≤ hi) (hx : x < lo ∨ hi ≤ x) :
    Mem.read (l.foldl (fun s x => serveBurst k x.1 (some (slice bs (64 * x.2) 64)) s) s).dram x = Mem.read s.dram x := by
  induction l generalizing s with
  | nil => rfl
  | cons p r ih =>
    have hp := hl p (List.mem_cons_self)
    have hlen : (slice bs (64 * p.2) 64).length ≤ 64 := List.length_take_le _ _
    have h := serveWrite_other (k := k) (a := p.1) (x := x) (bs := slice bs (64 * p.2) 64) hw (by omega)
    rw [List.foldl_cons, ih _ h.1 (fun q hq => hl q (List.mem_cons_of_mem _ hq)), h.2]

/-- Writing a slot's record raises that slot's write count by 1 and otherwise changes only the memory, the stacks and the recorder. -/
theorem writeRecord_only (k : Nat) (s : State) :
    DramOnly (updSlot k (fun v => { v with writes := (v.writes + 1) % 2 ^ 32 }) s) (writeRecord k s) := by
  simp only [writeRecord]
  exact (wake_only _ _).trans (serveAll_only _ _ _ _)

@[simp] theorem slotAt_writeRecord (k : Nat) (s : State) :
    slotAt k (writeRecord k s) = { slotAt k s with writes := ((slotAt k s).writes + 1) % 2 ^ 32 } := by
  rw [slotAt_congr (DramOnly.keys (writeRecord_only k s)), slotAt_updSlot]

theorem slotAt_writeRecord_ne {k j : Nat} (s : State) (hj : j ≠ k) : slotAt j (writeRecord k s) = slotAt j s := by
  rw [slotAt_congr (DramOnly.keys (writeRecord_only k s)), slotAt_updSlot_ne _ _ _ _ hj]

/-- Outside the slot's 256 bytes a write of its record changes no byte, when the stack has given up no segment. -/
theorem writeRecord_other {k x : Nat} {s : State} (hw : Mem.wf s.dram = true) (hl : (stackOf (k % 8) s).lost = 0)
    (hx : x < dramAt (k % 8) (slotRecord k) ∨ dramAt (k % 8) (slotRecord k) + 256 ≤ x) :
    Mem.read (writeRecord k s).dram x = Mem.read s.dram x := by
  have hd : (wake (k % 8) (updSlot k (fun v => { v with writes := (v.writes + 1) % 2 ^ 32 }) s)).dram = s.dram := wake_dram hl
  simp only [writeRecord]
  rw [serveAll_other (lo := dramAt (k % 8) (slotRecord k)) (hi := dramAt (k % 8) (slotRecord k) + 256) _ _ _ (by rw [hd]; exact hw) _ hx, hd]
  intro p hp
  simp only [recordBursts, List.range, List.range.loop, List.map_cons, List.map_nil, List.zipIdx_cons, List.zipIdx_nil, List.mem_cons,
    List.not_mem_nil, or_false] at hp
  rcases hp with h | h | h | h <;> subst h <;> simp only [dramAt] <;> omega

end Sys2Proof.Machine
end

