-- ==== Sys2Proof/Tests/Slice0.lean ====
section
/-! SUPPORT. The model's own tests: for each obligation a theorem that shows states and operands which meet each clause's hypotheses
together; an ill-formed term for each check of WellFormed; and results that the spec works out. -/
open Sys2Proof Sys2Proof.Machine
set_option linter.all false
set_option linter.unusedVariables false
set_option Elab.async false

namespace Sys2Proof.Tests
/-- A source and a state whose command of opcode `op` is taken, and meets `pre`. -/
def Shown (op : Nat) (pre : Req → State → Prop) : Prop :=
  ∃ (src : CmdSrc) (s s1 : State) (r : Req), src.wf = true ∧ presented op src s = some (r, s1) ∧ pre r s1

/-- The request that core 0's port makes of four words. -/
def portReq (op : Nat) (w1 w2 w3 : Word128) (s : State) : Req :=
  ⟨0, true, 64, BitVec.ofNat 128 op, w1, w2, w3,
    { op := s.nextOp, fw := true, core := 0, opcode := fld (BitVec.ofNat 128 op) 7 0, tag := fld (BitVec.ofNat 128 op) 47 16, quiet := bitOf (BitVec.ofNat 128 op) 8 }⟩
def portState (s : State) : State := { s with nextOp := s.nextOp + 1, fwOps := s.nextOp :: s.fwOps }

/-- A command from core 0's port. -/
theorem shown {op : Nat} {pre : Req → State → Prop} (w1 w2 w3 : Word128) (s : State)
    (hc : fld (BitVec.ofNat 128 op) 7 0 = op ∧ commonClear (BitVec.ofNat 128 op) = true ∧ opcodeDefined op = true) (hh : s.body.hold = false)
    (hp : pre (portReq op w1 w2 w3 s) (portState s)) : Shown op pre := by
  refine ⟨.port 0 (BitVec.ofNat 128 op) w1 w2 w3, s, portState s, portReq op w1 w2 w3 s, rfl, ?_, hp⟩
  obtain ⟨h1, h2, h3⟩ := hc
  have : (commonCheck (BitVec.ofNat 128 op) true (portState s)).isNone = true := by
    simp only [commonCheck, h1, h2, h3]
    simp [portState, hh]
  simp only [presented, fetched]
  rw [if_pos ⟨h1, this⟩]; rfl


/-! Commands of virtual function 1, from its queue 128; queue 129 takes the completions. -/

def vfWords (op w1 w2 w3 : Nat) : List Word128 :=
  (List.range 5).map (fun k => dataWord ((op + 2 ^ 128 * (w1 + 2 ^ 128 * (w2 + 2 ^ 128 * w3))) >>> (120 * k)))
def vfQueues (op w1 w2 w3 : Nat) : Tab Queue :=
  ⟨[(128, { enable := true, cq := 1, visible := [⟨vfWords op w1 w2 w3, 0⟩] }), (129, { enable := true, kind := 1 })]⟩

/-- The same for a command from any source. -/
theorem shownBy {op : Nat} {pre : Req → State → Prop} (src : CmdSrc) (s : State) (hw : src.wf = true) (h : (presented op src s).isSome = true)
    (hp : pre ((presented op src s).get h).1 ((presented op src s).get h).2) : Shown op pre :=
  ⟨src, s, _, _, hw, (Option.some_get h).symm, hp⟩

theorem ready_full (n : Nat) (s : State) : readyCount { s with disp := { s.disp with ready := List.replicate n { handle := 1 } } } = n := by
  simp [readyCount, handleIdx]

/-- The identifiers of `l` are in use. -/
def inUse (l : List (IdKind × Nat)) : Tab Ident := ⟨l.map (fun x => (idKey x.1 x.2, { used := true }))⟩


/-- A module whose partition 0 holds tile groups 0 to 4 of roles VD1 to ST5, all active, with routes among them. -/
def lab : State :=
  { State.reset with
    fab := { State.reset.fab with
      groups := ⟨(List.range 5).map (fun g => (g, { role := g + 1, state := 1 }))⟩
      parts := ⟨[(0, { tgMask := 31, declared := [2000, 1000, 4000, 512, 256, 40000], decCtx := 16, encCtx := 16 })]⟩
      routes := [(0, 2, 100), (2, 1, 100), (0x100, 4, 100), (0x200, 3, 100), (3, 0x200, 100)] }
    power := { State.reset.power with factors := ⟨[(0, [1000, 1000, 1000, 1000, 1000])]⟩ } }

theorem zero_ne_serial : (0 : Nat) ≠ Config.serial := by
  unfold Config.serial; omega

/-- A message of SERIAL 0 comes from another device. -/
theorem mine_of {type len : Nat} {m : List Byte} {s : State}
    (h : (domRuns s && decide (0x14 + len ≤ m.length) && msgType m == type && msgDomain m == s.dom.domainId) = true) (h0 : msgSerial m = 0) :
    mine type len m s = true := by
  have : (msgSerial m != Config.serial) = true := by rw [h0]; simpa using zero_ne_serial
  unfold mine; rw [h, this]; rfl

theorem follows_of {s : State} (h : domRuns s = true) (h0 : s.dom.coordSerial = some 0) : follows s = true := by
  have : (some 0 != some Config.serial) = true := by simpa using zero_ne_serial
  unfold follows; rw [h, h0, this]; rfl

theorem serial_ne_zero : Config.serial ≠ 0 := fun h => zero_ne_serial h.symm

theorem serial_read {m : List Byte} {o : Nat} (h : slice m o 6 = leBytes 6 Config.serial) : leAt m o 6 = Config.serial := by
  unfold leAt; rw [h]
  exact leNat_leBytes 6 _ (by unfold Config.serial; omega)

/-! Core 0 of tile 24, an AU tile, with core 1 halted beside it. -/

def coreA : DspCore := { run := .running, size := 16384 }
def onTile (c : DspCore) : State := { lab with dsp := { lab.dsp with cores := ⟨[(96, c), (97, {})]⟩ } }

/-- The core's next instruction is of opcode `op`, and `pre` holds. -/
def Ready (op : Nat) (pre : Nat → Nat → BitVec 32 → DspCore → State → Prop) : Prop :=
  ∃ (tile core : Nat) (w : BitVec 32) (c : DspCore) (s : State), dspReady op tile core w c s ∧ pre tile core w c s

theorem ready {op : Nat} {pre : Nat → Nat → BitVec 32 → DspCore → State → Prop} (w : BitVec 32) (c : DspCore)
    (h : fld w 31 26 = op ∧ dspIllegal w = false ∧ c.run = .running ∧ c.irqReady = false ∧ w = c.code.get c.pc.toNat 0) (hp : pre 24 0 w c (onTile c)) :
    Ready op pre :=
  ⟨24, 0, w, c, onTile c, ⟨by decide, by decide, rfl, (show dspLive 24 lab = true by decide +kernel), h.2.2.1, h.2.2.2.1, h.2.2.2.2, h.1, h.2.1⟩, hp⟩

/-- One eligible leg is the one picked. -/
theorem pick_one {p : Nat} {s : State} (hf : (legAt 0 s).fn = 0) (hr : (legAt 0 s).room = 0) : (pickLeg p [0] s).isSome = true ∧
    ∀ x, pickLeg p [0] s = some x → x.1 = 0 := by
  have h : (List.range 64).filter (fun f => [0].any (fun l => (legAt l s).fn == f)) = [0] := by
    simp only [List.any_cons, List.any_nil, Bool.or_false, hf]; decide +kernel
  unfold pickLeg; rw [h]
  simp [smallestTag, hf, hr, List.eraseDups, List.eraseDupsBy, List.eraseDupsBy.loop]

theorem pick_one_some {p : Nat} {s : State} (hf : (legAt 0 s).fn = 0) (hr : (legAt 0 s).room = 0) : ∃ s1, pickLeg p [0] s = some (0, s1) := by
  obtain ⟨h1, h2⟩ := pick_one (p := p) hf hr
  obtain ⟨x, hx⟩ := Option.isSome_iff_exists.mp h1
  exact ⟨x.2, by rw [hx, ← h2 x hx]⟩

def legState : State :=
  { State.reset with
    lanes := { State.reset.lanes with groups := ⟨[(0, { personality := 1 })]⟩, lanes := ⟨[(0, { state := 3 })]⟩ }
    ids := inUse [(.leg, 0)]
    media := { State.reset.media with legs := ⟨[(0, { queue := [{ sub := 0, leg := 0, packet := [], ssrc := 0, ext := 0, buffer := 0, len := 0 }] })]⟩ } }

theorem pick_shown : ∃ (p l : Nat) (s s1 : State) (elig : List Nat), p < 128 ∧ isPort p s = true ∧ s.body.hold = false ∧
    elig = (portLegs p s).filter (fun l => eligible l s) ∧
    pickLeg p elig (elig.foldl (fun s l => wakeLeg p l s) (settleNodes p elig s)) = some (l, s1) ∧ l ∈ elig := by
  have h : [0] = (portLegs 0 legState).filter (fun l => eligible l legState) := by decide +kernel
  obtain ⟨s1, h1⟩ := pick_one_some (p := 0) (s := wakeLeg 0 0 (settleNodes 0 [0] legState)) (by decide +kernel) (by decide +kernel)
  exact ⟨0, 0, legState, s1, [0], by decide, by decide +kernel, rfl, h, h1, List.mem_singleton.mpr rfl⟩

/-! Host memory that holds a blob at 4,096, wrapped or sealed under a key of zeros. -/

def cellsAt : Nat → List Byte → Mem
  | _, [] => []
  | a, b :: bs => (a, b) :: cellsAt (a + 1) bs
theorem readBytes_cons (c : Nat × Byte) (m : Mem) (n : Nat) : ∀ a, c.1 < a → Mem.readBytes (c :: m) a n = Mem.readBytes m a n := by
  induction n with
  | zero => intro a _; rfl
  | succ n ih =>
    intro a h
    have : Mem.read (c :: m) a = Mem.read m a := by simp only [Mem.read]; rw [if_neg (by omega), if_neg (by omega)]
    simp only [Mem.readBytes, this, ih (a + 1) (by omega)]
theorem readBytes_cellsAt : ∀ (bs : List Byte) (a n : Nat), bs.length = n → Mem.readBytes (cellsAt a bs) a n = bs
  | [], a, n, h => by rw [← h]; rfl
  | b :: bs, a, n, h => by
    obtain ⟨n, rfl⟩ : ∃ k, n = k + 1 := ⟨bs.length, by rw [← h]; rfl⟩
    have hr : Mem.read ((a, b) :: cellsAt (a + 1) bs) a = b := by simp [Mem.read]
    simp only [cellsAt, Mem.readBytes, hr]
    rw [readBytes_cons _ _ _ _ (Nat.lt_succ_self a), readBytes_cellsAt bs (a + 1) n (by simpa using h)]

def zeroKey : List Byte := List.replicate 32 0
theorem zeroKey_fine : (∀ k ∈ roundKeys zeroKey, k.length = 16) ∧ 2 ≤ (roundKeys zeroKey).length := by decide +kernel
def keksZero : Tab Kek := ⟨[(kekKey 0 0, { valid := true, key := zeroKey })]⟩

def sessionHead : List Byte := [0x57, 0x4B, 1, 2, 0, 0, 0, 0, 152, 0, 0, 0, 0, 0, 0, 0]
/-- Profile 1, both directions, keys of zeros. -/
def sessionText : List Byte := sessionHead ++ ([1, 0, 3] ++ List.replicate 109 0)
def sessionBlob : List Byte := sessionHead ++ keyWrap zeroKey sessionText
theorem session_unwraps {a : Nat} {s : State} (ha : a = 4096) (h : s.hostMem = cellsAt 4096 sessionBlob) (hl : s.keys.life ≠ 3) :
    unwrapBlob (hostBytes a 152 s) zeroKey s = some sessionText := by
  subst ha
  have hlen : sessionBlob.length = 152 := by
    rw [sessionBlob, List.length_append, keyWrap_length (m := 16) zeroKey_fine.1 zeroKey_fine.2 (by decide +kernel) (by decide +kernel) (by decide +kernel)]; rfl
  have hd : List.drop 16 sessionBlob = keyWrap zeroKey sessionText := rfl
  have hu : keyUnwrap zeroKey (keyWrap zeroKey sessionText) = some sessionText :=
    keyUnwrap_keyWrap (m := 16) zeroKey_fine.1 zeroKey_fine.2 (by decide +kernel) (by decide +kernel) (by decide +kernel)
  rw [hostBytes, h, readBytes_cellsAt _ _ _ hlen, unwrapBlob, if_neg hl, hd, hu]
  exact if_pos (by decide +kernel)

def contextHead : List Byte := [0x57, 0x4B, 1, 3, 0, 0, 0, 0, 0x10, 1, 0, 0] ++ List.replicate 20 0
def contextSealed : List Byte := gcmSeal (contextKey zeroKey 0) (ctxNonce 0) (contextHead.take 16) (List.replicate 224 0)
theorem contextKey_fine : (∀ k ∈ roundKeys (contextKey zeroKey 0), k.length = 16) ∧ 2 ≤ (roundKeys (contextKey zeroKey 0)).length := by decide +kernel
theorem context_opens {a n i c : Nat} {kek ad : List Byte} {s : State} (ha : a = 4096) (hn : n = 272) (hk : kek = zeroKey) (hi : i = 0) (hc : c = 0)
    (hd : ad = contextHead.take 16) (h : s.hostMem = cellsAt 4096 (contextHead ++ contextSealed)) :
    gcmOpen (contextKey kek i) (ctxNonce c) ad ((hostBytes a n s).drop 32) = some (List.replicate 224 0) := by
  subst ha hn hk hi hc hd
  have hlen : (contextHead ++ contextSealed).length = 272 := by
    rw [List.length_append, contextSealed, gcmSeal, List.length_append, gcmTag_length _ _ _ contextKey_fine.1 contextKey_fine.2 (by decide +kernel),
      xorBytes_length, keystream_length _ _ contextKey_fine.1 contextKey_fine.2]; decide +kernel
  rw [hostBytes, h, readBytes_cellsAt _ _ _ hlen, List.drop_left' (by decide +kernel : contextHead.length = 32), contextSealed]
  exact gcmOpen_gcmSeal _ _ contextKey_fine.1 contextKey_fine.2 (by decide +kernel)

/-- The same context under a tag that is not its own. -/
def contextTag : List Byte := gcmTag (contextKey zeroKey 0) (ctxNonce 0) (contextHead.take 16) (List.replicate 224 0)
def contextBad : List Byte := List.replicate 224 0 ++ contextTag.map (· ^^^ 1)
theorem context_spoiled {a n i c : Nat} {kek ad : List Byte} {s : State} (ha : a = 4096) (hn : n = 272) (hk : kek = zeroKey) (hi : i = 0) (hc : c = 0)
    (hd : ad = contextHead.take 16) (h : s.hostMem = cellsAt 4096 (contextHead ++ contextBad)) :
    gcmOpen (contextKey kek i) (ctxNonce c) ad ((hostBytes a n s).drop 32) = none := by
  subst ha hn hk hi hc hd
  have ht : contextTag.length = 16 := gcmTag_length _ _ _ contextKey_fine.1 contextKey_fine.2 (by decide +kernel)
  have hlen : (contextHead ++ contextBad).length = 272 := by
    rw [List.length_append, contextBad, List.length_append, List.length_map, ht]; decide +kernel
  rw [hostBytes, h, readBytes_cellsAt _ _ _ hlen, List.drop_left' (by decide +kernel : contextHead.length = 32), contextBad]
  refine gcmOpen_refuses (by rw [List.length_map, ht]) ?_
  change contextTag.map (· ^^^ 1) ≠ contextTag
  cases hc : contextTag with
  | nil => rw [hc] at ht; cases ht
  | cons x r =>
    intro h
    have := (List.cons.inj h).1
    clear hc h ht; revert x; decide

theorem witness_step_runs_front_command :
    (∃ (c : Instr) (rest : List Instr) (s : State), s.pending = c :: rest) :=
  ⟨.fatalError, [], { State.reset with  pending := [.fatalError] }, (by and_intros <;> first | with_reducible rfl | decide +kernel | rfl)⟩

theorem witness_empty_queue_takes_one_cycle :
    (∃ s : State, s.pending = [] ∧ s.time.ns < 1000000000 ∧ s.time.sub < 2 ^ 48) ∧
    (∃ b : TimeBase, b.freqPpb = 0 ∧ b.rem = 0) :=
  ⟨⟨State.reset, (by and_intros <;> first | with_reducible rfl | decide +kernel | rfl)⟩,
    ⟨({} : TimeBase), (by and_intros <;> first | with_reducible rfl | decide +kernel | rfl)⟩⟩

theorem witness_access_codes_of_registers :
    (∃ (who : Nat) (v : BitVec 64) (s : State), (who = 0 ∨ 64 ≤ who) ∧ mayWrite who 0x600030 s) ∧
    (∃ (who : Nat) (v : BitVec 64) (s : State), (who = 0 ∨ 64 ≤ who) ∧ mayWrite who 0xC00008 s) ∧
    (∃ (who link dir c : Nat) (s : State), (who = 0 ∨ 64 ≤ who) ∧ who < 128 ∧ link < 10 ∧ dir < 2 ∧ c < 4 ∧ accHas tgPage 1 who bitRead s = true) ∧
    (∃ (who off : Nat) (v : BitVec 64) (s : State), (who = 0 ∨ 64 ≤ who) ∧ who < 128 ∧ off < 0x200000 ∧ off % 8 = 0 ∧ accHas tgPage (off / 4096) who bitWrite s = false) :=
  ⟨⟨64, 0, State.reset, (by and_intros <;> first | with_reducible rfl | decide +kernel | rfl)⟩,
    ⟨64, 0, State.reset, (by and_intros <;> first | with_reducible rfl | decide +kernel | rfl)⟩,
    ⟨64, 9, 1, 3, State.reset, (by and_intros <;> first | with_reducible rfl | decide +kernel | rfl)⟩,
    ⟨64, 0x1FFFF8, 0, { State.reset with  acc.entries := State.reset.acc.entries.set (entryKey tgPage 511 64) 0 }, (by and_intros <;> first | with_reducible rfl | decide +kernel | rfl)⟩⟩

theorem witness_wide_register_halves :
    (∃ (who q : Nat) (v : BitVec 64) (s : State), (who = 0 ∨ 64 ≤ who) ∧ q < 8192 ∧ mayWrite who (hqOff q 0x20) s) ∧
    (∃ (who k : Nat) (v : BitVec 64) (s : State), 0 < who ∧ who < 64 ∧ k < 128 ∧ mayWrite who (hqOff (who * 128 + k) 0x20) s) ∧
    (∃ (who : Nat) (s : State), (who = 0 ∨ 64 ≤ who) ∧ who < 128 ∧ accHas tgPage 0x600 who bitRead s = true ∧ s.ctr.find? 0x600000 = none ∧ s.ctr.find? 0x600008 = none) :=
  ⟨⟨64, 8191, 0, State.reset, (by and_intros <;> first | with_reducible rfl | decide +kernel | rfl)⟩,
    ⟨1, 0, 0, { State.reset with  acc.entries := State.reset.acc.entries.set (entryKey tgPage (hqOff 128 0x20 / 4096) 1) 7 }, (by and_intros <;> first | with_reducible rfl | decide +kernel | rfl)⟩,
    ⟨64, State.reset, (by and_intros <;> first | with_reducible rfl | decide +kernel | rfl)⟩⟩

theorem witness_identifiers_and_quarantine :
    (∃ (k : IdKind) (i : Nat) (s : State), 0 < s.body.quarantineMs) ∧
    (∃ (k : IdKind) (h : Nat) (s : State), handleKind h = kindCode k ∧ handleIdx h < k.cap) ∧
    (∃ (k : IdKind) (i : Nat) (s : State), k ≠ .queue ∧ i < k.cap ∧ (identOf k i s).used = false ∧ (identOf k i s).quarUntil ≤ nowNs s) ∧
    (∃ (k : IdKind) (i : Nat) (s : State), (identOf k i s).used = false) ∧
    (∃ (i : Nat) (s : State), i < 8192 ∧ (queueOf i s).quarUntil ≤ nowNs s) ∧
    (∃ (k : IdKind) (i : Nat) (s : State), k ≠ .queue ∧ i < k.cap ∧ ((identOf k i s).used = true ∨ nowNs s < (identOf k i s).quarUntil)) ∧
    (∃ (k : IdKind) (lo hi i : Nat) (s : State), lowestFree k lo hi s = some i) ∧
    (∃ (who : Nat) (v : BitVec 64) (s : State), (who = 0 ∨ 64 ≤ who) ∧ mayWrite who 0x120 s) :=
  ⟨⟨.leg, 0, State.reset, (by and_intros <;> first | with_reducible rfl | decide +kernel | rfl)⟩,
    ⟨.leg, 2 ^ 56 + 5, State.reset, (by and_intros <;> first | with_reducible rfl | decide +kernel | rfl)⟩,
    ⟨.leg, 1048575, State.reset, (by and_intros <;> first | with_reducible rfl | decide +kernel | rfl)⟩,
    ⟨.leg, 0, State.reset, (by and_intros <;> first | with_reducible rfl | decide +kernel | rfl)⟩,
    ⟨8191, State.reset, (by and_intros <;> first | with_reducible rfl | decide +kernel | rfl)⟩,
    ⟨.leg, 0, { State.reset with  ids := inUse [(.leg, 0)] }, (by and_intros <;> first | with_reducible rfl | decide +kernel | rfl)⟩,
    ⟨.leg, 3, 10, 3, State.reset, by decide⟩,
    ⟨64, 60000, State.reset, (by and_intros <;> first | with_reducible rfl | decide +kernel | rfl)⟩⟩

theorem witness_die_link_blocks :
    (∃ (link dir : Nat) (sent got : List (BitVec 128)) (seq : Nat) (crc : BitVec 32) (s : State), link < 10 ∧ dir < 2 ∧ seq < 1024 ∧ sent.length = 16 ∧ got.length = 16 ∧ linkUp link s = true ∧ blockCrc got seq = crc ∧ seq = ((linkOf link s).side dir).rxNext) ∧
    (∃ (link dir : Nat) (sent got : List (BitVec 128)) (seq : Nat) (crc : BitVec 32) (s : State), link < 10 ∧ dir < 2 ∧ seq < 1024 ∧ sent.length = 16 ∧ got.length = 16 ∧ linkUp link s = true ∧ blockCrc got seq ≠ crc ∧ seq = ((linkOf link s).side dir).rxNext ∧ ((linkOf link s).side dir).fails < 7) ∧
    (∃ (link dir : Nat) (sent got : List (BitVec 128)) (seq : Nat) (crc : BitVec 32) (s : State), link < 10 ∧ dir < 2 ∧ seq < 1024 ∧ sent.length = 16 ∧ got.length = 16 ∧ linkUp link s = true ∧ blockCrc got seq = crc ∧ released ((linkOf link s).side dir) seq = true) ∧
    (∃ (link dir seq : Nat) (s : State), link < 10 ∧ dir < 2 ∧ seq < 1024 ∧ linkUp link s = true ∧ ((linkOf link s).side dir).wanted = some seq ∧ ((linkOf link s).side dir).buffer.any (fun b => b.1 == seq) = true) :=
  ⟨⟨9, 1, List.replicate 16 0, List.replicate 16 0, 0, blockCrc (List.replicate 16 0) 0, { State.reset with  links := State.reset.links.set 9 { state := 2 } }, (by and_intros <;> first | with_reducible rfl | decide +kernel | rfl)⟩,
    ⟨0, 0, List.replicate 16 0, List.replicate 16 0, 0, blockCrc (List.replicate 16 0) 0 + 1, { State.reset with  links := State.reset.links.set 0 { state := 2 } }, (by and_intros <;> first | with_reducible rfl | bv_omega | decide +kernel)⟩,
    ⟨0, 0, List.replicate 16 0, List.replicate 16 0, 0, blockCrc (List.replicate 16 0) 0, { State.reset with  links := State.reset.links.set 0 { state := 2, d0 := { rxNext := 1 } } }, (by and_intros <;> first | with_reducible rfl | decide +kernel | rfl)⟩,
    ⟨0, 0, 7, { State.reset with  links := State.reset.links.set 0 { state := 2, d0 := { buffer := [(7, [])], wanted := some 7 } } }, (by and_intros <;> first | with_reducible rfl | decide +kernel | rfl)⟩⟩

theorem witness_die_link_retraining :
    (∃ (link : Nat) (s : State), link < 10 ∧ (linkOf link s).state = 3) ∧
    (∃ (link : Nat) (s : State), link < 10 ∧ (linkOf link s).state = 3 ∧ 2 ≤ (linkOf link s).retrainFails) ∧
    (∃ (link : Nat) (s : State), link < 10 ∧ (linkOf link s).state = 3 ∧ (linkOf link s).retrainFails < 2) ∧
    (∃ (who link : Nat) (s : State), link < 10 ∧ mayWrite who (0x1008 + link * 0x80) s ∧ (linkOf link s).holdDown = false) ∧
    (∃ (who link : Nat) (s : State), link < 10 ∧ mayWrite who (0x1008 + link * 0x80) s ∧ s.keys.life = 2 ∧ (linkOf link s).holdDown = false) ∧
    (∃ (who link : Nat) (s : State), link < 10 ∧ mayWrite who (0x1008 + link * 0x80) s ∧ s.keys.life = 2 ∧ (linkOf link s).holdDown = true) ∧
    (∃ (who link : Nat) (on : Bool) (s : State), link < 10 ∧ mayWrite who (0x1008 + link * 0x80) s ∧ s.keys.life ≠ 2) :=
  ⟨⟨0, { State.reset with  links := State.reset.links.set 0 { state := 3, retrainFails := 0 } }, (by and_intros <;> first | with_reducible rfl | decide +kernel | rfl)⟩,
    ⟨0, { State.reset with  links := State.reset.links.set 0 { state := 3, retrainFails := 2 } }, (by and_intros <;> first | with_reducible rfl | decide +kernel | rfl)⟩,
    ⟨0, { State.reset with  links := State.reset.links.set 0 { state := 3, retrainFails := 1 } }, (by and_intros <;> first | with_reducible rfl | decide +kernel | rfl)⟩,
    ⟨64, 9, State.reset, (by and_intros <;> first | with_reducible rfl | decide +kernel | rfl)⟩,
    ⟨64, 0, { State.reset with  keys.life := 2 }, (by and_intros <;> first | with_reducible rfl | decide +kernel | rfl)⟩,
    ⟨64, 0, { State.reset with  keys.life := 2, links := State.reset.links.set 0 { holdDown := true } }, (by and_intros <;> first | with_reducible rfl | decide +kernel | rfl)⟩,
    ⟨64, 0, true, State.reset, (by and_intros <;> first | with_reducible rfl | decide +kernel | rfl)⟩⟩

theorem witness_power_posture_and_loop :
    (∃ (i loopPs : Nat) (tempC : Int) (s : State), i < 96) ∧
    (∃ (inputW : Nat) (caseC : Int) (s : State), ((s.power.loopFrom = none ∧ ∀ i, i < 96 → (islandOf i s).seen = true) ∨ (s.power.loopFrom ≠ none ∧ s.power.nextPass ≤ nowNs s))) ∧
    (∃ (inputW : Nat) (caseC : Int) (s : State), ((s.power.loopFrom = none ∧ ∃ i, i < 96 ∧ (islandOf i s).seen = false) ∨ (s.power.loopFrom ≠ none ∧ nowNs s < s.power.nextPass))) ∧
    (∃ (who : Nat) (v : BitVec 64) (s : State), mayWrite who 0x8000 s) :=
  ⟨⟨95, 0, 0, State.reset, (by and_intros <;> first | with_reducible rfl | decide +kernel | rfl)⟩,
    ⟨1000, 20, { State.reset with  power := { State.reset.power with loopFrom := some 0 } }, (Or.inr (by decide +kernel))⟩,
    ⟨1000, 20, State.reset, (Or.inl ⟨rfl, 95, by decide, by decide +kernel⟩)⟩,
    ⟨64, 3, State.reset, (by and_intros <;> first | with_reducible rfl | decide +kernel | rfl)⟩⟩

theorem witness_time_base_commands :
    (Shown 0xA0 (fun r s => r.owner = true ∧ fld r.w1 1 0 = 0 ∧ (ofTwos 64 (fld r.w2 63 0)).natAbs ≤ s.time.jumpUs * 1000)) ∧
    (Shown 0xA0 (fun r _ => r.owner = true ∧ fld r.w1 1 0 = 1)) ∧
    (Shown 0xA0 (fun r _ => r.owner = true ∧ fld r.w1 1 0 = 2 ∧ fld r.w2 77 48 < 1000000000)) ∧
    (Shown 0xA0 (fun r _ => r.owner = false)) ∧
    (Shown 0xA2 (fun r s => r.owner = true ∧ bitOf r.w1 72 = true ∧ resolveQueue r (fld r.w1 63 0) s = .ok)) ∧
    (Shown 0xA2 (fun r _ => r.owner = true ∧ bitOf r.w1 72 = false)) :=
  ⟨shown (0) (0xFFFFFFFFFFF0BDC0) (0) (State.reset) (by decide) rfl (by and_intros <;> first | with_reducible rfl | decide +kernel | rfl),
    shown (1) (0) (0) (State.reset) (by decide) rfl (by and_intros <;> first | with_reducible rfl | decide +kernel | rfl),
    shown (2) (0) (0) (State.reset) (by decide) rfl (by and_intros <;> first | with_reducible rfl | decide +kernel | rfl),
    shownBy (.queue 128) { State.reset with hq := vfQueues 0xA0 (0) (0) (0) } rfl (by decide +kernel) (by and_intros <;> first | with_reducible rfl | decide +kernel | rfl),
    shown (2 ^ 72 + 6 * 2 ^ 56 + 7) (0) (0) ({ State.reset with hq := ⟨[(7, { enable := true, kind := 1 })]⟩ }) (by decide) rfl (by and_intros <;> first | with_reducible rfl | decide +kernel | rfl),
    shown (0) (0) (0) (State.reset) (by decide) rfl (by and_intros <;> first | with_reducible rfl | decide +kernel | rfl)⟩

theorem witness_time_ptp_send_inserts :
    (Shown 0xA1 (fun r s => r.owner = true ∧ 60 ≤ fld r.w1 75 64 ∧ fld r.w1 75 64 ≤ 2044 ∧ fld r.w1 95 84 + 34 ≤ fld r.w1 75 64 ∧
      ((isTremund (fld r.w1 82 76) s && decide (fld r.w1 75 64 - fld r.w1 95 84 ≤ 2032)) ||
        (isEth (fld r.w1 82 76) s && isPort (fld r.w1 82 76) s)) = true ∧ bitOf r.w1 83 = false)) ∧
    (Shown 0xA1 (fun r s => r.owner = true ∧ 60 ≤ fld r.w1 75 64 ∧ fld r.w1 75 64 ≤ 2044 ∧ fld r.w1 95 84 + 34 ≤ fld r.w1 75 64 ∧
      ((isTremund (fld r.w1 82 76) s && decide (fld r.w1 75 64 - fld r.w1 95 84 ≤ 2032)) ||
        (isEth (fld r.w1 82 76) s && isPort (fld r.w1 82 76) s)) = true ∧ bitOf r.w1 83 = true ∧
      fld r.w1 95 84 + 44 ≤ fld r.w1 75 64 ∧
      byteAt (hostBytes (fld r.w1 63 0) (fld r.w1 75 64) s) (fld r.w1 95 84) % 16 = 0)) ∧
    (Shown 0xA1 (fun r s => r.owner = true ∧ 60 ≤ fld r.w1 75 64 ∧ fld r.w1 75 64 ≤ 2044 ∧ fld r.w1 95 84 + 34 ≤ fld r.w1 75 64 ∧
      ((isTremund (fld r.w1 82 76) s && decide (fld r.w1 75 64 - fld r.w1 95 84 ≤ 2032)) ||
        (isEth (fld r.w1 82 76) s && isPort (fld r.w1 82 76) s)) = true ∧ bitOf r.w1 83 = true ∧
      byteAt (hostBytes (fld r.w1 63 0) (fld r.w1 75 64) s) (fld r.w1 95 84) % 16 = 3)) :=
  ⟨shown (60 * 2 ^ 64 + 26 * 2 ^ 84) (0) (0) ({ State.reset with lanes.groups := State.reset.lanes.groups.set 0 { personality := 2 } }) (by decide) rfl (by and_intros <;> first | with_reducible rfl | decide +kernel | rfl),
    shown (2044 * 2 ^ 64 + 2 ^ 83) (0) (0) ({ State.reset with lanes.groups := State.reset.lanes.groups.set 0 { personality := 1 } }) (by decide) rfl (by and_intros <;> first | with_reducible rfl | decide +kernel | rfl),
    shown (2044 * 2 ^ 64 + 2 ^ 83) (0) (0) ({ State.reset with lanes.groups := State.reset.lanes.groups.set 0 { personality := 1 }, hostMem := [(0, 3)] }) (by decide) rfl (by and_intros <;> first | with_reducible rfl | decide +kernel | rfl)⟩

theorem witness_timing_connector_events :
    (∃ s : State, slewEnds s.time = true) ∧
    (∃ s : State, s.time.outEn = true ∧ atSecond s = true ∧ s.time.ppsHigh = none) ∧
    (∃ (line : Nat) (s : State), line < 2) ∧
    (∃ (line at_ : Nat) (short : Bool) (s : State), line < 2 ∧ s.time.shorts.find? line = some at_ ∧ at_ + 100000000 ≤ nowNs s) :=
  ⟨⟨{ State.reset with  time.rem := 1, time.slewMaxPpm := 100000000 }, (by and_intros <;> first | with_reducible rfl | decide +kernel | rfl)⟩,
    ⟨{ State.reset with  time.outEn := true }, (by and_intros <;> first | with_reducible rfl | decide +kernel | rfl)⟩,
    ⟨1, State.reset, (by and_intros <;> first | with_reducible rfl | decide +kernel | rfl)⟩,
    ⟨1, 0, true, { State.reset with  time.shorts := ⟨[(1, 0)]⟩, res := 15625000 }, (by and_intros <;> first | with_reducible rfl | decide +kernel | rfl)⟩⟩

theorem witness_dram_writes_and_reads :
    (∃ (m k a : Nat) (bs : List Byte) (s : State), Mem.wf s.dram = true ∧ m < 210 ∧ k < 8 ∧ a % 64 = 0 ∧ a < stackBytes ∧ bs.length = 64 ∧ accHas tgRegion (regionOf k a) m bitWrite s = true ∧ (stackOf k s).state = 1 ∧ regionFailed k a s = false ∧ mustWait (stackOf k s) (bankOf (stackOf k s) a) m (nowNs s) = false) ∧
    (∃ (m k a : Nat) (s : State), m < 210 ∧ k < 8 ∧ a % 64 = 0 ∧ a < stackBytes ∧ accHas tgRegion (regionOf k a) m bitRead s = true ∧ (stackOf k s).state = 1 ∧ regionFailed k a s = false ∧ mustWait (stackOf k s) (bankOf (stackOf k s) a) m (nowNs s) = false ∧ (stackOf k s).poison.contains a = false) ∧
    (∃ (m k a : Nat) (bs : List Byte) (s : State), m < 210 ∧ k < 8 ∧ a % 64 = 0 ∧ a < stackBytes ∧ bs.length = 64 ∧ accHas tgRegion (regionOf k a) m bitWrite s = false) ∧
    (∃ (m k a : Nat) (s : State), m < 210 ∧ k < 8 ∧ a % 64 = 0 ∧ a < stackBytes ∧ accHas tgRegion (regionOf k a) m bitRead s = false) :=
  ⟨⟨64, 7, stackBytes - 64, List.replicate 64 1, { State.reset with  dramStacks := State.reset.dramStacks.set 7 { state := 1 } }, (by and_intros <;> first | with_reducible rfl | decide +kernel | rfl)⟩,
    ⟨64, 7, stackBytes - 64, { State.reset with  dramStacks := State.reset.dramStacks.set 7 { state := 1 } }, (by and_intros <;> first | with_reducible rfl | decide +kernel | rfl)⟩,
    ⟨128, 0, 0, List.replicate 64 1, State.reset, (by and_intros <;> first | with_reducible rfl | decide +kernel | rfl)⟩,
    ⟨128, 0, 0, State.reset, (by and_intros <;> first | with_reducible rfl | decide +kernel | rfl)⟩⟩

theorem witness_stack_control :
    (∃ (who k : Nat) (s : State), k < 8 ∧ mayWrite who (memOff k 8) s ∧ (stackOf k s).state = 0 ∧ (stackOf k s).park = false) ∧
    (∃ (who k : Nat) (s : State), k < 8 ∧ mayWrite who (memOff k 8) s ∧ (stackOf k s).state = 1 ∧ (stackOf k s).park = false ∧ s.body.hold = false) ∧
    (∃ (who k i : Nat) (bank : Bool) (v : BitVec 64) (s : State), k < 8 ∧ i < 6 ∧ (mayWrite who (memOff k ((if bank then 0x70 else 0x40) + i * 8)) s) ∧ (stackOf k s).state = 0 ∧ (maskValid (if bank then 16 + i else 10 + i) (fld v 35 0) = true)) ∧
    (∃ (who k i : Nat) (bank : Bool) (v : BitVec 64) (s : State), k < 8 ∧ i < 6 ∧ (mayWrite who (memOff k ((if bank then 0x70 else 0x40) + i * 8)) s) ∧ ((stackOf k s).state ≠ 0 ∨ maskValid (if bank then 16 + i else 10 + i) (fld v 35 0) = false)) ∧
    (∃ (k : Nat) (s : State), k < 8 ∧ (stackOf k s).windowStart + 32000000 ≤ nowNs s) ∧
    (∃ (k : Nat) (s : State), k < 8 ∧ (stackOf k s).state = 1 ∧ (stackOf k s).lastRequest + 1000000 ≤ nowNs s) :=
  ⟨⟨64, 0, State.reset, (by and_intros <;> first | with_reducible rfl | decide +kernel | rfl)⟩,
    ⟨64, 7, { State.reset with  dramStacks := State.reset.dramStacks.set 7 { state := 1 } }, (by and_intros <;> first | with_reducible rfl | decide +kernel | rfl)⟩,
    ⟨64, 7, 5, true, 2 ^ 21, State.reset, (by and_intros <;> first | with_reducible rfl | decide +kernel | rfl)⟩,
    ⟨64, 0, 0, false, 0, State.reset, (by and_intros <;> first | with_reducible rfl | decide +kernel | rfl)⟩,
    ⟨0, { State.reset with  res := 5000000 }, (by and_intros <;> first | with_reducible rfl | decide +kernel | rfl)⟩,
    ⟨7, { State.reset with  dramStacks := State.reset.dramStacks.set 7 { state := 1 }, res := 156250 }, (by and_intros <;> first | with_reducible rfl | decide +kernel | rfl)⟩⟩

theorem witness_access_table_writes :
    (∃ (who : Nat) (v : BitVec 64) (s : State), who < 128 ∧ (who == 0 || isCore who) = true ∧ accHas tgPage 0x800 who bitWrite s = true ∧ fld v 59 44 < targetCount (fld v 63 60) ∧ fld v 43 36 < 210 ∧ accHas (fld v 63 60) (fld v 59 44) (fld v 43 36) bitLock s = false ∧ ((fld v 63 60 = tgRegion → breaksCocoon (fld v 59 44) { s with acc := { s.acc with
      entries := s.acc.entries.set (entryKey (fld v 63 60) (fld v 59 44) (fld v 43 36)) (fld v 35 32) } } = false))) ∧
    (∃ (who : Nat) (v : BitVec 64) (s : State), who < 128 ∧ (who == 0 || isCore who) = true ∧ accHas tgPage 0x800 who bitWrite s = true ∧ fld v 59 44 < targetCount (fld v 63 60) ∧ fld v 43 36 < 210 ∧ accHas (fld v 63 60) (fld v 59 44) (fld v 43 36) bitLock s = true) ∧
    (∃ (who : Nat) (v : BitVec 64) (s : State), who < 128 ∧ accHas tgPage 0x800 who bitWrite s = true) :=
  ⟨⟨64, BitVec.ofNat 64 (tgRegion * 2 ^ 60 + 32767 * 2 ^ 44 + 209 * 2 ^ 36 + 3 * 2 ^ 32), State.reset, (by and_intros <;> first | with_reducible rfl | decide +kernel | rfl)⟩,
    ⟨64, BitVec.ofNat 64 (tgRecorder * 2 ^ 60 + 3 * 2 ^ 32), { State.reset with  acc.entries := ⟨[(entryKey tgRecorder 0 0, 8)]⟩ }, (by and_intros <;> first | with_reducible rfl | decide +kernel | rfl)⟩,
    ⟨64, 0, State.reset, (by and_intros <;> first | with_reducible rfl | decide +kernel | rfl)⟩⟩

theorem witness_undefined_opcode_refused :
    (∃ (src : CmdSrc) (s s1 : State) (r : Req) (tail : Bool), src.wf = true ∧ fetched src s = some (r, tail, s1) ∧ commonClear r.w0 = true ∧ tail = true ∧ opcodeDefined (fld r.w0 7 0) = false) :=
  ⟨.port 63 3 0 0 0, State.reset, _, _, _, rfl, rfl, by decide +kernel, rfl, by decide +kernel⟩

theorem witness_common_checks_of_commands :
    (∃ c ∈ commandRows, ∃ (src : CmdSrc) (s s1 : State) (r : Req) (tail : Bool), src.wf = true ∧ fetched src s = some (r, tail, s1) ∧ fld r.w0 7 0 = c.2) :=
  ⟨(.nop, 0), by simp [commandRows], .port 0 0 0 0 0, State.reset, _, _, _, rfl, rfl, rfl⟩

theorem witness_completions_are_written :
    (∃ (t : Ticket) (r : Reply) (s : State) (b : Taken), t.fw = false ∧ (queueOf t.queue s).busy = some b ∧ b.op = t.op ∧ t.queue ≠ cqOf t.queue s) ∧
    (∃ (t : Ticket) (r : Reply) (s : State), t.fw = true ∧ s.fwOps.contains t.op = true) :=
  ⟨⟨{ queue := 128, op := 5 }, ⟨1, 100, 0⟩, { State.reset with  hq := ⟨[(128, { cq := 1, busy := some { op := 5 } })]⟩ }, { op := 5 }, (by and_intros <;> first | with_reducible rfl | decide +kernel | rfl)⟩,
    ⟨{ fw := true, op := 5 }, ⟨1, 100, 0⟩, { State.reset with  fwOps := [5] }, (by and_intros <;> first | with_reducible rfl | decide +kernel | rfl)⟩⟩

theorem witness_queue_pushes_build_packets :
    (∃ (who q : Nat) (hi : BitVec 64) (s : State), mayPush who q s ∧ tagOf (pushedWord who q hi s) = tagData ∧ (queueOf q s).opened = none) ∧
    (∃ (who q : Nat) (hi : BitVec 64) (s : State) (o : OpenPacket), mayPush who q s ∧ tagOf (pushedWord who q hi s) = tagData ∧ (queueOf q s).opened = some o) ∧
    (∃ (who q : Nat) (hi : BitVec 64) (s : State) (o : OpenPacket), mayPush who q s ∧ tagOf (pushedWord who q hi s) = tagLength ∧ (queueOf q s).opened = some o ∧ (queueOf q s).flushPending = false ∧ o.broken = false ∧ fld (pushedWord who q hi s) 119 108 = (queueOf q s).qgen ∧ fld (pushedWord who q hi s) 15 0 = o.words.length ∧ o.words.length ≤ 1024) ∧
    (∃ (who q : Nat) (hi : BitVec 64) (s : State) (o : OpenPacket), mayPush who q s ∧ tagOf (pushedWord who q hi s) = tagLength ∧ (queueOf q s).opened = some o ∧ (queueOf q s).flushPending = false ∧ fld (pushedWord who q hi s) 119 108 ≠ (queueOf q s).qgen) ∧
    (∃ (who q : Nat) (hi : BitVec 64) (s : State) (o : OpenPacket), mayPush who q s ∧ tagOf (pushedWord who q hi s) = tagLength ∧ (queueOf q s).opened = some o ∧ (queueOf q s).flushPending = false ∧ fld (pushedWord who q hi s) 119 108 = (queueOf q s).qgen ∧ (o.broken = true ∨ fld (pushedWord who q hi s) 15 0 ≠ o.words.length ∨ 1024 < o.words.length)) ∧
    (∃ (who q : Nat) (hi : BitVec 64) (s : State), q < 8192 ∧ mayWrite who (hqOff q 0x20) s ∧ (accHas tgQueue q who bitWrite s = false ∨ ((queueOf q s).kind = 1 ∧ who = q / 128) ∨ (queueOf q s).enable = false ∨
      (tagOf (pushedWord who q hi s) ≠ tagData ∧ tagOf (pushedWord who q hi s) ≠ tagLength))) :=
  ⟨⟨64, 7, 2 ^ 56, { State.reset with  hq := ⟨[(7, { enable := true })]⟩ }, (by and_intros <;> first | with_reducible rfl | decide +kernel | rfl)⟩,
    ⟨64, 7, 2 ^ 56, { State.reset with  hq := ⟨[(7, { enable := true, opened := some {} })]⟩ }, {}, (by and_intros <;> first | with_reducible rfl | decide +kernel | rfl)⟩,
    ⟨64, 7, 2 ^ 57, { State.reset with  hq := ⟨[(7, { enable := true, opened := some {} })]⟩ }, {}, (by and_intros <;> first | with_reducible rfl | decide +kernel | rfl)⟩,
    ⟨64, 7, 2 ^ 57, { State.reset with  hq := ⟨[(7, { enable := true, qgen := 1, opened := some {} })]⟩ }, {}, (by and_intros <;> first | with_reducible rfl | decide +kernel | rfl)⟩,
    ⟨64, 7, 2 ^ 57, { State.reset with  hq := ⟨[(7, { enable := true, opened := some { words := [0] } })]⟩ }, { words := [0] }, (by and_intros <;> first | with_reducible rfl | decide +kernel | rfl)⟩,
    ⟨64, 7, 0, State.reset, (by and_intros <;> first | with_reducible rfl | decide +kernel | rfl)⟩⟩

theorem witness_queue_pops_return_words :
    (∃ (who q : Nat) (s : State) (p : Packet) (rest : List Packet), mayPop who q s ∧ (queueOf q s).begun = [] ∧ (queueOf q s).visible = p :: rest) ∧
    (∃ (who q : Nat) (s : State) (w : Word128) (rest : List Word128), mayPop who q s ∧ (queueOf q s).begun = w :: rest) ∧
    (∃ (who q : Nat) (s : State), mayPop who q s ∧ (queueOf q s).begun = [] ∧ (queueOf q s).visible = []) ∧
    (∃ (who q : Nat) (s : State), q < 8192 ∧ who < 128 ∧ (who = 0 ∨ 64 ≤ who ∨ who = q / 128) ∧ accHas tgPage (hqOff q 0x30 / 4096) who bitRead s = true ∧ accHas tgQueue q who bitRead s = false) :=
  ⟨⟨64, 7, { State.reset with  hq := ⟨[(7, { enable := true, kind := 1, visible := [⟨[1], 0⟩] })]⟩ }, ⟨[1], 0⟩, [], (by and_intros <;> first | with_reducible rfl | decide +kernel | rfl)⟩,
    ⟨64, 7, { State.reset with  hq := ⟨[(7, { enable := true, kind := 1, begun := [1, 2] })]⟩ }, 1, [2], (by and_intros <;> first | with_reducible rfl | decide +kernel | rfl)⟩,
    ⟨64, 7, { State.reset with  hq := ⟨[(7, { enable := true, kind := 1 })]⟩ }, (by and_intros <;> first | with_reducible rfl | decide +kernel | rfl)⟩,
    ⟨64, 7, { State.reset with  acc.entries := ⟨[(entryKey tgQueue 7 64, 0)]⟩ }, (by and_intros <;> first | with_reducible rfl | decide +kernel | rfl)⟩⟩

theorem witness_queue_configuration :
    (∃ (who q : Nat) (v : BitVec 64) (s : State), mayControl who q 0 s ∧ (queueOf q s).enable = true ∧ bitOf v 0 = false ∧ (queueOf q s).words = 0 ∧ (queueOf q s).busy = none ∧ (((queueOf q s).kind = 1 → namedAsCq q s = false))) ∧
    (∃ (who q : Nat) (v : BitVec 64) (s : State), mayControl who q 0 s ∧ (queueOf q s).enable = true ∧ (bitOf v 0 = true ∨ 0 < (queueOf q s).words ∨ (queueOf q s).busy.isSome = true)) ∧
    (∃ (who q : Nat) (v : BitVec 64) (s : State), mayControl who q 0 s ∧ (queueOf q s).enable = false ∧ bitOf v 0 = true ∧ 4 ≤ fld v 19 16 ∧ fld v 19 16 ≤ 16 ∧ fld v 2 1 < 2 ∧ (queueOf q s).quarUntil ≤ nowNs s ∧ poolUsed s + 2 ^ fld v 19 16 ≤ 2097152) ∧
    (∃ (who q : Nat) (v : BitVec 64) (s : State), mayControl who q 0 s ∧ (queueOf q s).enable = false ∧ bitOf v 0 = false ∧ 4 ≤ fld v 19 16 ∧ fld v 19 16 ≤ 16 ∧ fld v 2 1 < 2) ∧
    (∃ (who q : Nat) (v : BitVec 64) (s : State), mayControl who q 0 s ∧ (queueOf q s).enable = false ∧ (fld v 19 16 < 4 ∨ 16 < fld v 19 16 ∨ 2 ≤ fld v 2 1)) :=
  ⟨⟨64, 7, 0, { State.reset with  hq := ⟨[(7, { enable := true })]⟩ }, (by and_intros <;> first | with_reducible rfl | decide +kernel | rfl)⟩,
    ⟨64, 7, 1, { State.reset with  hq := ⟨[(7, { enable := true })]⟩ }, (by and_intros <;> first | with_reducible rfl | decide +kernel | rfl)⟩,
    ⟨64, 7, 1 + 15 * 2 ^ 16, State.reset, (by and_intros <;> first | with_reducible rfl | decide +kernel | rfl)⟩,
    ⟨64, 7, 4 * 2 ^ 16, State.reset, (by and_intros <;> first | with_reducible rfl | decide +kernel | rfl)⟩,
    ⟨64, 7, 3 * 2 ^ 16, State.reset, (by and_intros <;> first | with_reducible rfl | decide +kernel | rfl)⟩⟩

theorem witness_queue_flush_and_resume :
    (∃ (who q ms : Nat) (s : State), mayControl who q 0x10 s ∧ ms < 65536 ∧ (queueOf q s).opened.isSome = true) ∧
    (∃ (who q ms : Nat) (s : State), mayControl who q 0x10 s ∧ ms < 65536 ∧ (queueOf q s).opened = none) ∧
    (∃ (who q ms : Nat) (s : State), mayControl who q 0x10 s ∧ ms < 65536 ∧ (queueOf q s).opened = none ∧ (queueOf q s).kind = 1 ∧ (queueOf q s).owed = [] ∧ ((∀ c ∈ s.hq.toList, c.2.kind = 0 → c.2.owed = []))) ∧
    (∃ (q at_ : Nat) (s : State), q < 8192 ∧ (queueOf q s).opened.isSome = true ∧ (queueOf q s).hardAt = some at_ ∧ (queueOf q s).flushPending = true ∧ at_ ≤ nowNs s ∧ qgenMayChange (queueOf q s) s = true ∧ (queueOf q s).kind = 1 ∧ (queueOf q s).owed = [] ∧ ((∀ c ∈ s.hq.toList, c.2.kind = 0 → c.2.owed = []))) ∧
    (∃ (who q : Nat) (s : State), mayControl who q 0x10 s ∧ (queueOf q s).halted = true ∧ eraseRuns (queueOf q s) s = false ∧ (s.body.hold = false ∨ q / 128 = 0)) :=
  ⟨⟨64, 7, 0, { State.reset with  hq := ⟨[(7, { opened := some {} })]⟩ }, (by and_intros <;> first | with_reducible rfl | decide +kernel | rfl)⟩,
    ⟨64, 7, 0, { State.reset with  hq := ⟨[(7, { kind := 1 })]⟩ }, (by and_intros <;> first | with_reducible rfl | decide +kernel | rfl)⟩,
    ⟨64, 7, 100, { State.reset with  hq := ⟨[(7, { kind := 1 })]⟩ }, (by and_intros <;> first | with_reducible rfl | decide +kernel | rfl)⟩,
    ⟨7, 0, { State.reset with  hq := ⟨[(7, { kind := 1, opened := some {}, hardAt := some 0, flushPending := true })]⟩ }, (by and_intros <;> first | with_reducible rfl | decide +kernel | rfl)⟩,
    ⟨64, 7, { State.reset with  hq := ⟨[(7, { halted := true })]⟩ }, (by and_intros <;> first | with_reducible rfl | decide +kernel | rfl)⟩⟩

theorem witness_queue_interrupts_and_mirror :
    (∃ (q : Nat) (s : State), q < 8192 ∧ (queueOf q s).irqEn = true ∧ (queueOf q s).armed = true ∧ (queueOf q s).irqDue (nowNs s) = true) ∧
    (∃ (who q : Nat) (s : State), mayControl who q 0x10 s) ∧
    (∃ (q : Nat) (s : State) (p : Packet) (rest : List Packet), q < 8192 ∧ (queueOf q s).visible = p :: rest ∧ (queueOf q s).enable = true ∧ (queueOf q s).kind = 1 ∧ (queueOf q s).mirror = true ∧ (queueOf q s).produced + p.words.length + 1 ≤ (queueOf q s).consumed + 2 ^ (queueOf q s).ringLog2) ∧
    (∃ (q : Nat) (s : State) (p : Packet) (rest : List Packet), q < 8192 ∧ (queueOf q s).visible = p :: rest ∧ (queueOf q s).consumed + 2 ^ (queueOf q s).ringLog2 < (queueOf q s).produced + (p.words.length + 1)) ∧
    (∃ (who q : Nat) (v : BitVec 64) (s : State), mayControl who q 0x58 s) :=
  ⟨⟨7, { State.reset with  hq := ⟨[(7, { irqEn := true, armed := true, visible := [⟨[1], 0⟩] })]⟩ }, (by and_intros <;> first | with_reducible rfl | decide +kernel | rfl)⟩,
    ⟨64, 8191, State.reset, (by and_intros <;> first | with_reducible rfl | decide +kernel | rfl)⟩,
    ⟨7, { State.reset with  hq := ⟨[(7, { enable := true, kind := 1, mirror := true, visible := [⟨[1], 0⟩] })]⟩ }, ⟨[1], 0⟩, [], (by and_intros <;> first | with_reducible rfl | decide +kernel | rfl)⟩,
    ⟨7, { State.reset with  hq := ⟨[(7, { enable := true, kind := 1, mirror := true, produced := 2047, visible := [⟨[1], 0⟩] })]⟩ }, ⟨[1], 0⟩, [], (by and_intros <;> first | with_reducible rfl | decide +kernel | rfl)⟩,
    ⟨64, 7, 5, State.reset, (by and_intros <;> first | with_reducible rfl | decide +kernel | rfl)⟩⟩

theorem witness_posting_and_cancelling :
    (Shown 0x00 (fun _ _ => True)) ∧
    (Shown 0x01 (fun r s => 0x20 ≤ fld r.w1 7 0 ∧ fld r.w1 7 0 ≤ 0x3F ∧ 4 ≤ fld r.w1 11 8 ∧ readyCount s < 262144 ∧ (lowestFree .work 1 1048576 s).isSome)) ∧
    (Shown 0x01 (fun r s => 0x20 ≤ fld r.w1 7 0 ∧ fld r.w1 7 0 ≤ 0x3F ∧ 4 ≤ fld r.w1 11 8 ∧ 262144 ≤ readyCount s)) ∧
    (Shown 0x01 (fun r _ => fld r.w1 7 0 < 0x20 ∨ 0x3F < fld r.w1 7 0 ∨ fld r.w1 11 8 < 4)) ∧
    (Shown 0x02 (fun r s => handleKind (handleIn (fld r.w1 63 0)) = 5 ∧ 0 < handleIdx (handleIn (fld r.w1 63 0)) ∧ handleIdx (handleIn (fld r.w1 63 0)) < 1048576 ∧
      s.disp.ended.find? (handleIdx (handleIn (fld r.w1 63 0))) = none ∧
      handleGen (handleIn (fld r.w1 63 0)) = (identOf .work (handleIdx (handleIn (fld r.w1 63 0))) s).gen ∧
      ∃ w, s.disp.ready.find? (fun w => w.handle == handleIn (fld r.w1 63 0)) = some w ∧ mayCancel r w = true)) ∧
    (Shown 0x02 (fun r s => handleKind (handleIn (fld r.w1 63 0)) = 5 ∧ 0 < handleIdx (handleIn (fld r.w1 63 0)) ∧ handleIdx (handleIn (fld r.w1 63 0)) < 1048576 ∧
      s.disp.ended.find? (handleIdx (handleIn (fld r.w1 63 0))) = none ∧
      handleGen (handleIn (fld r.w1 63 0)) = (identOf .work (handleIdx (handleIn (fld r.w1 63 0))) s).gen ∧
      s.disp.ready.find? (fun w => w.handle == handleIn (fld r.w1 63 0)) = none ∧ ∃ w, runningItem (handleIn (fld r.w1 63 0)) s = some w ∧ mayCancel r w = true)) ∧
    (Shown 0x02 (fun r _ => handleKind (handleIn (fld r.w1 63 0)) = 5 ∧ handleIdx (handleIn (fld r.w1 63 0)) = 0)) ∧
    (Shown 0x02 (fun r s => handleKind (handleIn (fld r.w1 63 0)) = 5 ∧ 0 < handleIdx (handleIn (fld r.w1 63 0)) ∧ handleIdx (handleIn (fld r.w1 63 0)) < 1048576 ∧
      s.disp.ended.find? (handleIdx (handleIn (fld r.w1 63 0))) = none ∧
      handleGen (handleIn (fld r.w1 63 0)) ≠ (identOf .work (handleIdx (handleIn (fld r.w1 63 0))) s).gen)) :=
  ⟨shown (0) (0) (0) (State.reset) (by decide) rfl (by and_intros <;> first | with_reducible rfl | decide +kernel | rfl),
    shown (0x3F + 15 * 2 ^ 8) (0) (0) (State.reset) (by decide) rfl (by and_intros <;> first | with_reducible rfl | decide +kernel | rfl),
    shown (0x20 + 4 * 2 ^ 8) (0) (0) ({ State.reset with disp.ready := List.replicate 262144 { handle := 1 } }) (by decide) rfl (⟨by decide, by decide, by decide, Nat.le_of_eq (ready_full 262144 State.reset).symm⟩),
    shown (0x1F + 15 * 2 ^ 8) (0) (0) (State.reset) (by decide) rfl (by and_intros <;> first | with_reducible rfl | decide +kernel | rfl),
    shown (5 * 2 ^ 56 + 1) (0) (0) ({ State.reset with disp.ready := [{ handle := 5 * 2 ^ 56 + 1, host := true }] }) (by decide) rfl (by and_intros <;> first | with_reducible rfl | decide +kernel | exact ⟨{ handle := 5 * 2 ^ 56 + 1, host := true }, by decide +kernel, by decide +kernel⟩),
    shown (5 * 2 ^ 56 + 1) (0) (0) ({ State.reset with disp.cores := ⟨[(3, { running := some { handle := 5 * 2 ^ 56 + 1, host := true } })]⟩ }) (by decide) rfl (by and_intros <;> first | with_reducible rfl | decide +kernel | exact ⟨{ handle := 5 * 2 ^ 56 + 1, host := true }, by decide +kernel, by decide +kernel⟩),
    shown (5 * 2 ^ 56) (0) (0) (State.reset) (by decide) rfl (by and_intros <;> first | with_reducible rfl | decide +kernel | rfl),
    shown (5 * 2 ^ 56 + 1 + 2 ^ 32) (0) (0) (State.reset) (by decide) rfl (by and_intros <;> first | with_reducible rfl | decide +kernel | rfl)⟩

theorem witness_dispatch_runs_most_urgent :
    (∃ (c : Nat) (s : State), c < 64 ∧ (coreOf c s).running = none ∧ s.disp.ready ≠ [] ∧ coresRun s = true) ∧
    (∃ (c : Nat) (s : State) (w : WorkItem), c < 64 ∧ (coreOf c s).running = some w ∧ handleIdx w.handle ≠ 0) ∧
    (∃ (c : Nat) (s : State) (w : WorkItem), c < 64 ∧ (coreOf c s).running = some w ∧ handleIdx w.handle = 0) ∧
    (∃ (c : Nat) (s : State) (w : WorkItem), c < 64 ∧ (coreOf c s).running = some w ∧ (coreOf c s).startNs + s.disp.watchdogMs * 1000000 < nowNs s) ∧
    (∃ (at_ : Nat) (s : State), s.disp.hbDue = some at_ ∧ at_ ≤ nowNs s) :=
  ⟨⟨63, { State.reset with  disp.ready := [{ handle := 1 }], body.booted := true }, (by and_intros <;> first | with_reducible rfl | decide +kernel | rfl)⟩,
    ⟨63, { State.reset with  disp.cores := ⟨[(63, { running := some { handle := 1 } })]⟩ }, { handle := 1 }, (by and_intros <;> first | with_reducible rfl | decide +kernel | rfl)⟩,
    ⟨63, { State.reset with  disp.cores := ⟨[(63, { running := some {} })]⟩ }, {}, (by and_intros <;> first | with_reducible rfl | decide +kernel | rfl)⟩,
    ⟨63, { State.reset with  disp.cores := ⟨[(63, { running := some { handle := 1 } })]⟩, res := 15625001 }, { handle := 1 }, (by and_intros <;> first | with_reducible rfl | decide +kernel | rfl)⟩,
    ⟨0, { State.reset with  disp.hbDue := some 0 }, (by and_intros <;> first | with_reducible rfl | decide +kernel | rfl)⟩⟩

theorem witness_fatal_error_halts_queues :
    (∃ (at_ : Nat) (s : State), s.disp.hbWatch = some at_ ∧ at_ + 100000000 ≤ nowNs s) :=
  ⟨0, { State.reset with  disp.hbWatch := some 0, res := 15625000 }, (by and_intros <;> first | with_reducible rfl | decide +kernel | rfl)⟩

theorem witness_fabric_store_and_enrol :
    (Shown 0xB0 (fun r s => r.owner = true ∧ s.fab.load = none ∧ fld r.w1 95 64 ≤ 16777216)) ∧
    (Shown 0xB0 (fun r _ => r.owner = false)) ∧
    (Shown 0xB0 (fun r s => r.owner = true ∧ s.fab.load.isSome = true)) ∧
    (Shown 0xB4 (fun r _ => r.owner = true)) ∧
    (Shown 0xB4 (fun r _ => r.owner = false)) :=
  ⟨shown (16777216 * 2 ^ 64) (0) (0) (State.reset) (by decide) rfl (by and_intros <;> first | with_reducible rfl | decide +kernel | rfl),
    shownBy (.queue 128) { State.reset with hq := vfQueues 0xB0 (0) (0) (0) } rfl (by decide +kernel) (by and_intros <;> first | with_reducible rfl | decide +kernel | rfl),
    shown (0) (0) (0) ({ State.reset with fab.load := some ⟨2, 0, false, 0, [], 0, {}⟩ }) (by decide) rfl (by and_intros <;> first | with_reducible rfl | decide +kernel | rfl),
    shown (0) (0) (0) (State.reset) (by decide) rfl (by and_intros <;> first | with_reducible rfl | decide +kernel | rfl),
    shownBy (.queue 128) { State.reset with hq := vfQueues 0xB4 (0) (0) (0) } rfl (by decide +kernel) (by and_intros <;> first | with_reducible rfl | decide +kernel | rfl)⟩

theorem witness_fabric_loads_drain_first :
    (∃ (src : CmdSrc) (s s1 : State) (r : Req) (img : List Byte), src.wf = true ∧ presented 0xB1 src s = some (r, s1) ∧ r.owner = true ∧ s1.fab.load = none ∧ readSlot (fld r.w1 2 0) s1 = .inr img) ∧
    (∃ (src : CmdSrc) (s s1 : State) (r : Req) (img : List Byte), src.wf = true ∧ presented 0xB2 src s = some (r, s1) ∧ (r.owner = true ∨ (∃ v, partOf? (fld r.w1 21 16) s1 = some v ∧ v.owner = r.fn ∧ v.tenantReload = true ∧
      accHas tgPartition (fld r.w1 21 16) r.master bitControl s1 = true)) ∧ s1.fab.load = none ∧ readSlot (fld r.w1 2 0) s1 = .inr img) ∧
    (Shown 0xB1 (fun r s => r.owner = true ∧ s.fab.load = none ∧ s.fab.store.find? (fld r.w1 2 0) = none)) ∧
    (Shown 0xB1 (fun r s => r.owner = true ∧ s.fab.load = none ∧ s.fab.readBad.contains (fld r.w1 2 0) = true ∧
      (s.fab.store.find? (fld r.w1 2 0)).isSome = true)) ∧
    (Shown 0xB1 (fun r s => r.owner = true ∧ s.fab.load.isSome = true)) ∧
    (Shown 0xB2 (fun r s => r.owner = false ∧ ∀ v, partOf? (fld r.w1 21 16) s = some v → v.owner ≠ r.fn ∨ v.tenantReload = false)) :=
  ⟨⟨.port 0 (BitVec.ofNat 128 0xB1) (7) (0) (0), { State.reset with fab.store := ⟨[(7, [])]⟩ }, _, _, [], rfl, rfl, (by and_intros <;> first | with_reducible rfl | decide +kernel | rfl)⟩,
    ⟨.port 0 (BitVec.ofNat 128 0xB2) 0 0 0, { State.reset with fab.store := ⟨[(0, [])]⟩ }, _, _, [], rfl, rfl, Or.inl (by decide +kernel), by decide +kernel, by decide +kernel⟩,
    shown (0) (0) (0) (State.reset) (by decide) rfl (by and_intros <;> first | with_reducible rfl | decide +kernel | rfl),
    shown (0) (0) (0) ({ State.reset with fab.store := ⟨[(0, [])]⟩, fab.readBad := [0] }) (by decide) rfl (by and_intros <;> first | with_reducible rfl | decide +kernel | rfl),
    shown (0) (0) (0) ({ State.reset with fab.load := some ⟨2, 0, false, 0, [], 0, {}⟩ }) (by decide) rfl (by and_intros <;> first | with_reducible rfl | decide +kernel | rfl),
    shownBy (.queue 128) { State.reset with hq := vfQueues 0xB2 0 0 0 } rfl (by decide +kernel) ⟨by decide +kernel, by intro v hv; have h : _ = true := congrArg Option.isSome hv; exact absurd h (by decide +kernel)⟩⟩

theorem witness_fabric_drain_ends :
    (∃ (bad : List Nat) (s : State) (l : FabLoad), s.fab.load = some l ∧ drained l s = true) ∧
    (∃ (bad : List Nat) (s : State) (l : FabLoad), s.fab.load = some l ∧ drained l s = false ∧ l.deadline ≤ nowNs s ∧ l.force = false) ∧
    (∃ (bad : List Nat) (s : State) (l : FabLoad), s.fab.load = some l ∧ drained l s = false ∧ l.deadline ≤ nowNs s ∧ l.force = true) ∧
    (∃ (l : FabLoad) (s : State) (p : Nat) (v : Partition) (g : Nat), partOf? p s = some v ∧ loadPicks l p = true ∧ g < 64 ∧ v.tgMask.testBit g = true ∧ (groupOf g s).state ≠ 3) ∧
    (∃ (src : CmdSrc) (s s1 : State) (r : Req) (l : FabLoad), src.wf = true ∧ presented 0xB3 src s = some (r, s1) ∧ s1.fab.load = some l ∧ r.owner = true) ∧
    (Shown 0xB3 (fun _ s => s.fab.load = none)) :=
  ⟨⟨[], { State.reset with  fab.load := some ⟨2, 0, false, 0, [], 0, {}⟩ }, ⟨2, 0, false, 0, [], 0, {}⟩, (by and_intros <;> first | with_reducible rfl | decide +kernel | rfl)⟩,
    ⟨[], { State.reset with  fab.load := some ⟨2, 0, false, 0, [], 0, {}⟩, power.committed := ⟨[(0, 1)]⟩, fab.parts := ⟨[(0, {})]⟩ }, ⟨2, 0, false, 0, [], 0, {}⟩, (by and_intros <;> first | with_reducible rfl | decide +kernel | rfl)⟩,
    ⟨[], { State.reset with  fab.load := some ⟨2, 0, true, 0, [], 0, {}⟩, power.committed := ⟨[(0, 1)]⟩, fab.parts := ⟨[(0, {})]⟩ }, ⟨2, 0, true, 0, [], 0, {}⟩, (by and_intros <;> first | with_reducible rfl | decide +kernel | rfl)⟩,
    ⟨⟨2, 0, false, 0, [], 0, {}⟩, { State.reset with fab.parts := ⟨[(0, { tgMask := 1 })]⟩ }, 0, { tgMask := 1 }, 0, by and_intros <;> decide +kernel⟩,
    ⟨.port 0 (BitVec.ofNat 128 0xB3) (0) (0) (0), { State.reset with fab.load := some ⟨2, 0, false, 0, [], 0, {}⟩ }, _, _, ⟨2, 0, false, 0, [], 0, {}⟩, rfl, rfl, (by and_intros <;> first | with_reducible rfl | decide +kernel | rfl)⟩,
    shown (0) (0) (0) (State.reset) (by decide) rfl (by and_intros <;> first | with_reducible rfl | decide +kernel | rfl)⟩

theorem witness_source_creation :
    (Shown 0x20 (fun r s =>
      let v : Source := { fn := reqFn r, w1 := r.w1, w2 := r.w2, w3 := r.w3, wPol := defaultPolice }
      reservedZero ([(127, 0)], [(126, 0)], [(107, 98), (93, 0)]) r = true ∧ createFine v s = true ∧
      (v.kind = 0 → keyRefusal r (fld r.w3 63 0) 0x06 s = none ∧ ownsLaddr r v.wing (fld r.w2 103 96) s = true ∧
        ((pinned v.wing s).contains v.slot = true ∨ (pinned v.wing s).length < 49152)) ∧
      (v.kind = 1 → ownsStream r v.wing v.ssrc s = true) ∧ holdsRoom (reqFn r) v.room s = true ∧
      (∀ c ∈ sourceList s, sameMatch v c.2 = false) ∧ (lowestFree .source 0 131072 s).isSome)) ∧
    (Shown 0x20 (fun r s =>
      let v : Source := { fn := reqFn r, w1 := r.w1, w2 := r.w2, w3 := r.w3, wPol := defaultPolice }
      createFine v s = true ∧ (v.kind = 0 → keyRefusal r (fld r.w3 63 0) 0x06 s = none ∧ ownsLaddr r v.wing (fld r.w2 103 96) s = true) ∧
      (v.kind = 1 → ownsStream r v.wing v.ssrc s = true) ∧ holdsRoom (reqFn r) v.room s = true ∧
      ∃ c ∈ sourceList s, sameMatch v c.2 = true)) ∧
    (Shown 0x20 (fun r s =>
      let v : Source := { fn := reqFn r, w1 := r.w1, w2 := r.w2, w3 := r.w3, wPol := defaultPolice }
      createFine v s = true ∧ v.kind = 0 ∧ resolve .slot (fld r.w3 63 0) s = .stale)) :=
  ⟨shown (0) (2 ^ 118) (0) ({ State.reset with lanes.groups := ⟨[(0, { personality := 2 })]⟩, media.rooms := ⟨[(0, { held := true })]⟩ }) (by decide) rfl (by and_intros <;> first | with_reducible rfl | decide +kernel | rfl),
    shown (0) (2 ^ 118) (0) ({ State.reset with lanes.groups := ⟨[(0, { personality := 2 })]⟩, media.rooms := ⟨[(0, { held := true })]⟩, ids := inUse [(.source, 0)], media.sources := ⟨[(0, { w2 := 2 ^ 118 })]⟩ }) (by decide) rfl (by and_intros <;> first | with_reducible rfl | decide +kernel | rfl),
    shown (0) (0) (4 * 2 ^ 56 + 2 ^ 32) ({ State.reset with lanes.groups := ⟨[(0, { personality := 2 })]⟩ }) (by decide) rfl (by and_intros <;> first | with_reducible rfl | decide +kernel | rfl)⟩

theorem witness_source_commands :
    (Shown 0x21 (fun r s => sourceNamed r s ∧ reservedZero ([(63, 0)], [(95, 0)], []) r = true ∧ policeFine r.w2 = true)) ∧
    (Shown 0x22 (fun r s => sourceNamed r s ∧ reservedZero ([(63, 0)], [(3, 0)], []) r = true ∧ (sourceAt ((handleIdx (fld r.w1 63 0))) s).isGroup = false ∧
      (fld r.w2 3 0 = 0 ∨ (6 ≤ fld r.w2 3 0 ∧ fld r.w2 3 0 ≤ 13 ∧ poolFits (sourceAt ((handleIdx (fld r.w1 63 0))) s).wing (ringBytes (fld r.w2 3 0)) s = true)))) ∧
    (Shown 0x23 (fun r s => sourceNamed r s ∧ reservedZero ([(63, 0)], [(41, 0)], []) r = true ∧ jitterFine r.w2 = true ∧ (sourceAt ((handleIdx (fld r.w1 63 0))) s).isGroup = false ∧
      (sourceAt ((handleIdx (fld r.w1 63 0))) s).forwardOnly = false ∧
      (bitOf r.w2 41 = true → (sourceAt ((handleIdx (fld r.w1 63 0))) s).jit = none → poolFits (sourceAt ((handleIdx (fld r.w1 63 0))) s).wing jitBytes s = true))) ∧
    (Shown 0x24 (fun r s => sourceNamed r s ∧ reservedZero ([(63, 0)], [(63, 0)], []) r = true)) ∧
    (Shown 0x25 (fun r s => sourceNamed r s ∧ reservedZero ([(63, 0)], [(63, 0)], [(0, 0)]) r = true)) ∧
    (Shown 0x26 (fun r s => sourceNamed r s ∧ reservedZero ([(63, 0)], [], []) r = true ∧ (sourceAt ((handleIdx (fld r.w1 63 0))) s).isLocal = false ∧
      (sourceAt ((handleIdx (fld r.w1 63 0))) s).readers = 0 ∧ stitchReads (handleFor .source ((handleIdx (fld r.w1 63 0))) s) s = false)) :=
  ⟨shown (2 * 2 ^ 56) (1 + 2 ^ 24 + 2048 * 2 ^ 48 + 2048 * 2 ^ 72) (0) ({ State.reset with ids := inUse [(.source, 0)], media.sources := ⟨[(0, {  })]⟩ }) (by decide) rfl (by and_intros <;> first | with_reducible rfl | decide +kernel | rfl),
    shown (2 * 2 ^ 56) (13) (0) ({ State.reset with ids := inUse [(.source, 0)], media.sources := ⟨[(0, {  })]⟩ }) (by decide) rfl (by and_intros <;> first | with_reducible rfl | decide +kernel | rfl),
    shown (2 * 2 ^ 56) (500000 + 500000 * 2 ^ 20 + 2 ^ 41) (0) ({ State.reset with ids := inUse [(.source, 0)], media.sources := ⟨[(0, {  })]⟩ }) (by decide) rfl (by and_intros <;> first | with_reducible rfl | decide +kernel | rfl),
    shown (2 * 2 ^ 56) (0) (0) ({ State.reset with ids := inUse [(.source, 0)], media.sources := ⟨[(0, {  })]⟩ }) (by decide) rfl (by and_intros <;> first | with_reducible rfl | decide +kernel | rfl),
    shown (2 * 2 ^ 56) (0) (1) ({ State.reset with ids := inUse [(.source, 0)], media.sources := ⟨[(0, {  })]⟩ }) (by decide) rfl (by and_intros <;> first | with_reducible rfl | decide +kernel | rfl),
    shown (2 * 2 ^ 56) (0) (0) ({ State.reset with ids := inUse [(.source, 0)], media.sources := ⟨[(0, {  })]⟩ }) (by decide) rfl (by and_intros <;> first | with_reducible rfl | decide +kernel | rfl)⟩

theorem witness_ethernet_frames_sorted :
    (∃ (lane : Nat) (f : List Byte) (s : State), lane < 128 ∧ isEth (portOf lane s) s = true ∧ portUp (portOf lane s) s = true ∧ s.body.hold = false) ∧
    (∃ (lane : Nat) (f : List Byte) (s : State), lane < 128 ∧ s.body.hold = true) :=
  ⟨⟨7, [], { State.reset with  lanes.groups := ⟨[(0, { personality := 1, width := 3 })]⟩, lanes.lanes := ⟨[(0, { state := 3 })]⟩ }, (by and_intros <;> first | with_reducible rfl | decide +kernel | rfl)⟩,
    ⟨127, [], { State.reset with  body.hold := true }, (by and_intros <;> first | with_reducible rfl | decide +kernel | rfl)⟩⟩

theorem witness_policing_and_playout :
    (∃ (i len a : Nat) (s : State), fld (sourceAt i s).wPol 23 0 = 0) ∧
    (∃ (i len a : Nat) (s : State) (c p : Nat), fld (sourceAt i s).wPol 23 0 ≠ 0 ∧ c = min ((sourceAt i s).bucketC + fld (sourceAt i s).wPol 23 0 * (cmpDiff a (sourceAt i s).bucketT).toNat * 65536 / 8000000)
      (fld (sourceAt i s).wPol 71 48 * 65536) ∧ p = min ((sourceAt i s).bucketP + fld (sourceAt i s).wPol 47 24 * (cmpDiff a (sourceAt i s).bucketT).toNat * 65536 / 8000000)
      (fld (sourceAt i s).wPol 95 72 * 65536)) ∧
    (∃ (op : Nat) (s : State) (o : RxOp), s.rxOps.find? (fun o => o.id == op && o.started && decide (o.hashAt ≤ nowPs s)) = some o ∧ s.body.hold = false) ∧
    (∃ (i : Nat) (s : State), i < 131072 ∧ (identOf .source i s).used = true ∧ s.body.hold = false) ∧
    (∃ (i n : Nat) (s : State) (j : Jitter) (u : AccessUnit) (us : List AccessUnit), (sourceAt i s).jit = some j ∧ j.units = u :: us ∧ (sourceAt i s).isAudio = false ∧ (∃ x ∈ j.units, cmpReached (cmpNow s) x.deadline = true)) ∧
    (∃ (i : Nat) (s : State) (j : Jitter), (sourceAt i s).jit = some j ∧ (∀ x ∈ j.units, cmpReached (cmpNow s) x.deadline = false) ∧ (∀ u us, j.units = u :: us → unitComplete u = false) ∧ (sourceAt i s).isAudio = false) ∧
    (∃ (i : Nat) (s : State), i < 131072 ∧ s.body.hold = true) :=
  ⟨⟨0, 100, 0, State.reset, (by and_intros <;> first | with_reducible rfl | decide +kernel | rfl)⟩,
    ⟨0, 100, 0, { State.reset with  ids := inUse [(.source, 0)], media.sources := ⟨[(0, { wPol := 1000 })]⟩ }, _, _, (by and_intros <;> first | with_reducible rfl | decide +kernel | rfl)⟩,
    ⟨0, { State.reset with  rxOps := [{ (default : RxOp) with started := true }] }, { (default : RxOp) with started := true }, (by and_intros <;> first | with_reducible rfl | decide +kernel | rfl)⟩,
    ⟨131071, { State.reset with  ids := inUse [(.source, 131071)] }, (by and_intros <;> first | with_reducible rfl | decide +kernel | rfl)⟩,
    ⟨0, 1, { State.reset with  ids := inUse [(.source, 0)], media.sources := ⟨[(0, { jit := some { units := [{}] } })]⟩ }, { units := [{}] }, {}, [], (by and_intros <;> first | with_reducible rfl | decide +kernel | rfl)⟩,
    ⟨0, { State.reset with ids := inUse [(.source, 0)], media.sources := ⟨[(0, { jit := some {} })]⟩ }, {}, by decide +kernel, by decide +kernel, (by intro u us h; cases h), by decide +kernel⟩,
    ⟨0, { State.reset with  body.hold := true }, (by and_intros <;> first | with_reducible rfl | decide +kernel | rfl)⟩⟩

theorem witness_rooms_and_legs :
    (Shown 0x40 (fun r s => reservedZero ([(12, 0), (63, 16), (79, 64), (85, 80)], [], []) r = true ∧ fld r.w1 31 16 ≠ 0 ∧ 100 ≤ fld r.w1 79 64 ∧
      fld r.w1 79 64 ≤ 10000 ∧ (r.owner = true ∨ fld r.w1 85 80 = r.fn) ∧ (roomAt (fld r.w1 12 0) s).held = false)) ∧
    (Shown 0x40 (fun r s => fld r.w1 31 16 ≠ 0 ∧ 100 ≤ fld r.w1 79 64 ∧ fld r.w1 79 64 ≤ 10000 ∧ (r.owner = true ∨ fld r.w1 85 80 = r.fn) ∧
      (roomAt (fld r.w1 12 0) s).held = true)) ∧
    (Shown 0x41 (fun r s => reservedZero ([(12, 0)], [], []) r = true ∧ (roomAt (fld r.w1 12 0) s).held = true ∧
      (r.owner = true ∨ (roomAt (fld r.w1 12 0) s).owner = r.fn) ∧ roomNamed (fld r.w1 12 0) s = false)) ∧
    (Shown 0x41 (fun r s => (roomAt (fld r.w1 12 0) s).held = true ∧ (r.owner = true ∨ (roomAt (fld r.w1 12 0) s).owner = r.fn) ∧
      roomNamed (fld r.w1 12 0) s = true)) ∧
    (Shown 0x42 (fun r s =>
      let v : Leg := { fn := reqFn r, w1 := r.w1, w2 := r.w2, w3 := r.w3, wBounds := defaultBounds, wEst := defaultEst,
                       wShape := defaultShape, est := 1000, fbTimer := nowNs s, lastReport := nowNs s }
      reservedZero ([(127, 0)], [(126, 118), (116, 50), (47, 0)], [(127, 113), (111, 96), (63, 0)]) r = true ∧ legFine v s = true ∧
      (v.kind = 0 → keyRefusal r (fld r.w3 63 0) 0x05 s = none ∧ ownsLaddr r v.wing v.laddr s = true) ∧
      holdsRoom (reqFn r) v.room s = true ∧ (∀ c ∈ legList s, sameLeg v c.2 = false) ∧ (lowestFree .leg 0 1048576 s).isSome)) ∧
    (Shown 0x42 (fun r s => legFine { fn := reqFn r, w1 := r.w1, w2 := r.w2, w3 := r.w3 } s = true ∧ fld r.w2 119 118 = 0 ∧ resolve .slot (fld r.w3 63 0) s = .stale)) :=
  ⟨shown (1 * 2 ^ 16 + 100 * 2 ^ 64) (0) (0) (State.reset) (by decide) rfl (by and_intros <;> first | with_reducible rfl | decide +kernel | rfl),
    shown (1 * 2 ^ 16 + 10000 * 2 ^ 64) (0) (0) ({ State.reset with media.rooms := ⟨[(0, { held := true })]⟩ }) (by decide) rfl (by and_intros <;> first | with_reducible rfl | decide +kernel | rfl),
    shown (0) (0) (0) ({ State.reset with media.rooms := ⟨[(0, { held := true })]⟩ }) (by decide) rfl (by and_intros <;> first | with_reducible rfl | decide +kernel | rfl),
    shown (0) (0) (0) ({ State.reset with media.rooms := ⟨[(0, { held := true })]⟩, ids := inUse [(.source, 0)], media.sources := ⟨[(0, {  })]⟩ }) (by decide) rfl (by and_intros <;> first | with_reducible rfl | decide +kernel | rfl),
    shown (0) (2 ^ 118) (2 ^ 96) ({ State.reset with lanes.groups := ⟨[(0, { personality := 2 })]⟩, media.rooms := ⟨[(0, { held := true })]⟩ }) (by decide) rfl (by and_intros <;> first | with_reducible rfl | decide +kernel | rfl),
    shown (0) (0) (4 * 2 ^ 56 + 2 ^ 32 + 2 ^ 96) ({ State.reset with lanes.groups := ⟨[(0, { personality := 2 })]⟩ }) (by decide) rfl (by and_intros <;> first | with_reducible rfl | decide +kernel | rfl)⟩

theorem witness_leg_commands :
    (Shown 0x43 (fun r s => legNamed r s ∧ reservedZero ([(63, 0)], [(127, 120), (118, 0)], []) r = true ∧ boundsFine r.w2 = true)) ∧
    (Shown 0x43 (fun r s => legNamed r s ∧ boundsFine r.w2 = false)) ∧
    (Shown 0x44 (fun r s => legNamed r s ∧ reservedZero ([(63, 0)], [(52, 0)], []) r = true ∧ shapeFine r.w2 = true)) ∧
    (Shown 0x45 (fun r s => legNamed r s ∧ reservedZero ([(63, 0)], [(119, 0)], []) r = true ∧ estFine r.w2 = true)) ∧
    (Shown 0x46 (fun r s => legNamed r s ∧ reservedZero ([(63, 0)], [(63, 0)], []) r = true)) ∧
    (Shown 0x47 (fun r s => legNamed r s ∧ reservedZero ([(63, 0)], [(63, 0)], [(0, 0)]) r = true)) ∧
    (Shown 0x48 (fun r s => legNamed r s ∧ reservedZero ([(63, 0)], [], []) r = true)) :=
  ⟨shown (2 ^ 56) (8 + 8 * 2 ^ 24 + 8 * 2 ^ 48 + 8 * 2 ^ 72) (0) ({ State.reset with ids := inUse [(.leg, 0)], media.legs := ⟨[(0, {  })]⟩ }) (by decide) rfl (by and_intros <;> first | with_reducible rfl | decide +kernel | rfl),
    shown (2 ^ 56) (0) (0) ({ State.reset with ids := inUse [(.leg, 0)], media.legs := ⟨[(0, {  })]⟩ }) (by decide) rfl (by and_intros <;> first | with_reducible rfl | decide +kernel | rfl),
    shown (2 ^ 56) (10 * 2 ^ 42 + 4096 * 2 ^ 22 + 2 ^ 12 + 1000) (0) ({ State.reset with ids := inUse [(.leg, 0)], media.legs := ⟨[(0, {  })]⟩ }) (by decide) rfl (by and_intros <;> first | with_reducible rfl | decide +kernel | rfl),
    shown (2 ^ 56) (10 * 2 ^ 112 + 10 * 2 ^ 94 + 10 * 2 ^ 85 + 500 * 2 ^ 75 + 1000 * 2 ^ 39 + 2 ^ 30 + 2 ^ 27 + 500 * 2 ^ 13 + 100) (0) ({ State.reset with ids := inUse [(.leg, 0)], media.legs := ⟨[(0, {  })]⟩ }) (by decide) rfl (by and_intros <;> first | with_reducible rfl | decide +kernel | rfl),
    shown (2 ^ 56) (0) (0) ({ State.reset with ids := inUse [(.leg, 0)], media.legs := ⟨[(0, {  })]⟩ }) (by decide) rfl (by and_intros <;> first | with_reducible rfl | decide +kernel | rfl),
    shown (2 ^ 56) (0) (1) ({ State.reset with ids := inUse [(.leg, 0)], media.legs := ⟨[(0, {  })]⟩ }) (by decide) rfl (by and_intros <;> first | with_reducible rfl | decide +kernel | rfl),
    shown (2 ^ 56) (0) (0) ({ State.reset with ids := inUse [(.leg, 0)], media.legs := ⟨[(0, {  })]⟩ }) (by decide) rfl (by and_intros <;> first | with_reducible rfl | decide +kernel | rfl)⟩

theorem witness_subscription_commands :
    (Shown 0x49 (fun r s =>
      let v : Sub := { fn := reqFn r, w1 := r.w1, w2 := r.w2, w3 := r.w3 }
      let k := handleIdx (fld r.w1 127 64)
      legNamed r s ∧ reservedZero ([(127, 0)], [(98, 80), (78, 0)], [(21, 0)]) r = true ∧ resolve .source (fld r.w1 127 64) s = .ok k ∧
      (r.owner = true ∨ (sourceAt k s).fn = r.fn) ∧ minsFine r.w2 = true ∧ fld r.w3 21 18 ≤ 14 ∧ fld r.w3 17 14 ≤ 14 ∧
      ((legAt ((handleIdx (fld r.w1 63 0))) s).kind = 1 → v.ssrc < 2 ^ 20 ∧ ownsStream r (legAt ((handleIdx (fld r.w1 63 0))) s).wing v.ssrc s = true) ∧
      (∀ c ∈ legSubs ((handleIdx (fld r.w1 63 0))) s, ∀ x ∈ c.2.ssrcs, v.ssrcs.contains x = false) ∧ (legSubs ((handleIdx (fld r.w1 63 0))) s).length < 64 ∧
      (lowestFree .sub 0 4194304 s).isSome)) ∧
    (Shown 0x4A (fun r s => subNamed r s ∧ reservedZero ([(63, 0)], [(98, 80)], []) r = true ∧ minsFine r.w2 = true)) ∧
    (Shown 0x4B (fun r s => subNamed r s ∧ reservedZero ([(63, 0)], [(63, 0)], []) r = true)) ∧
    (Shown 0x4C (fun r s => subNamed r s ∧ reservedZero ([(63, 0)], [], []) r = true ∧ (subAt ((handleIdx (fld r.w1 63 0))) s).inFrame = false)) ∧
    (Shown 0x4C (fun r s => subNamed r s ∧ reservedZero ([(63, 0)], [], []) r = true ∧ (subAt ((handleIdx (fld r.w1 63 0))) s).inFrame = true ∧ (subAt ((handleIdx (fld r.w1 63 0))) s).releasing = none)) :=
  ⟨shown (2 ^ 56 + 2 ^ 64 * (2 * 2 ^ 56)) (0) (0) ({ State.reset with ids := inUse [(.leg, 0), (.source, 0)], media.legs := ⟨[(0, {})]⟩, media.sources := ⟨[(0, {})]⟩ }) (by decide) rfl (by and_intros <;> first | with_reducible rfl | decide +kernel | rfl),
    shown (3 * 2 ^ 56) (0) (0) ({ State.reset with ids := inUse [(.sub, 0)], media.subs := ⟨[(0, {  })]⟩ }) (by decide) rfl (by and_intros <;> first | with_reducible rfl | decide +kernel | rfl),
    shown (3 * 2 ^ 56) (0) (0) ({ State.reset with ids := inUse [(.sub, 0)], media.subs := ⟨[(0, {  })]⟩ }) (by decide) rfl (by and_intros <;> first | with_reducible rfl | decide +kernel | rfl),
    shown (3 * 2 ^ 56) (0) (0) ({ State.reset with ids := inUse [(.sub, 0)], media.subs := ⟨[(0, {  })]⟩ }) (by decide) rfl (by and_intros <;> first | with_reducible rfl | decide +kernel | rfl),
    shown (3 * 2 ^ 56) (0) (0) ({ State.reset with ids := inUse [(.sub, 0)], media.subs := ⟨[(0, { inFrame := true })]⟩ }) (by decide) rfl (by and_intros <;> first | with_reducible rfl | decide +kernel | rfl)⟩

theorem witness_keyframe_requests :
    (Shown 0x4D (fun r s => reservedZero ([(63, 0)], [], []) r = true ∧ resolve .source (fld r.w1 63 0) s = .ok (handleIdx (fld r.w1 63 0)) ∧
      (r.owner = true ∨ (sourceAt (handleIdx (fld r.w1 63 0)) s).fn = r.fn))) ∧
    (∃ (i : Nat) (fir : Bool) (s : State), nowNs s < (sourceAt i s).kfHoldUntil) ∧
    (∃ (i : Nat) (s : State), i < 131072 ∧ (identOf .source i s).used = true ∧ (sourceAt i s).kfPending = true ∧ (sourceAt i s).kfHoldUntil ≤ nowNs s ∧ (sourceAt i s).isLocal = false) ∧
    (∃ (i at_ : Nat) (s : State), i < 131072 ∧ (identOf .source i s).used = true ∧ (sourceAt i s).kfFirst = some at_ ∧ (sourceAt i s).kfPosted = false ∧ at_ + 3 * (roomAt (sourceAt i s).room s).kfHoldMs * 1000000 ≤ nowNs s) ∧
    (∃ (i at_ : Nat) (s : State), i < 131072 ∧ (sourceAt i s).kfFirst = some at_ ∧ nowNs s < at_ + 3 * (roomAt (sourceAt i s).room s).kfHoldMs * 1000000) :=
  ⟨shown (2 * 2 ^ 56) (0) (0) ({ State.reset with ids := inUse [(.source, 0)], media.sources := ⟨[(0, {  })]⟩ }) (by decide) rfl (by and_intros <;> first | with_reducible rfl | decide +kernel | rfl),
    ⟨0, true, { State.reset with  ids := inUse [(.source, 0)], media.sources := ⟨[(0, { kfHoldUntil := 1 })]⟩ }, (by and_intros <;> first | with_reducible rfl | decide +kernel | rfl)⟩,
    ⟨0, { State.reset with  ids := inUse [(.source, 0)], media.sources := ⟨[(0, { kfPending := true })]⟩ }, (by and_intros <;> first | with_reducible rfl | decide +kernel | rfl)⟩,
    ⟨0, 0, { State.reset with  ids := inUse [(.source, 0)], media.sources := ⟨[(0, { kfFirst := some 0 })]⟩, res := 46875000 }, (by and_intros <;> first | with_reducible rfl | decide +kernel | rfl)⟩,
    ⟨0, 0, { State.reset with  ids := inUse [(.source, 0)], media.sources := ⟨[(0, { kfFirst := some 0 })]⟩ }, (by and_intros <;> first | with_reducible rfl | decide +kernel | rfl)⟩⟩

theorem witness_layer_selection_fits_budget :
    (∃ (l : Nat) (s : State), l < 1048576 ∧ (identOf .leg l s).used = true ∧ (legAt l s).selAt + 50000000 ≤ nowNs s) ∧
    (∃ (l : Nat) (s : State), l < 1048576 ∧ (identOf .leg l s).used = true ∧ nowNs s < (legAt l s).selAt + 50000000 ∧ (legAt l s).selDue = true) ∧
    (∃ (l : Nat) (s : State), l < 1048576 ∧ nowNs s < (legAt l s).selAt + 50000000 ∧ (legAt l s).selDue = false) ∧
    (∃ (ps : List Pick) (budget : Nat), ps ≠ [] ∧ ∀ p ∈ ps, p.target = none) ∧
    (∃ (l : Nat) (s : State), l < 1048576 ∧ (identOf .leg l s).used = true ∧ (legAt l s).fbTimer + fld (legAt l s).wEst 12 0 * 1000000 ≤ nowNs s) :=
  ⟨⟨1048575, { State.reset with  ids := inUse [(.leg, 1048575)], res := 7812500 }, (by and_intros <;> first | with_reducible rfl | decide +kernel | rfl)⟩,
    ⟨0, { State.reset with  ids := inUse [(.leg, 0)], media.legs := ⟨[(0, {  })]⟩ }, (by and_intros <;> first | with_reducible rfl | decide +kernel | rfl)⟩,
    ⟨0, { State.reset with  ids := inUse [(.leg, 0)], media.legs := ⟨[(0, { selDue := false })]⟩ }, (by and_intros <;> first | with_reducible rfl | decide +kernel | rfl)⟩,
    ⟨[⟨0, [], none, default, default, none⟩], 0, by simp, by decide +kernel⟩,
    ⟨0, { State.reset with  ids := inUse [(.leg, 0)], media.legs := ⟨[(0, { wEst := 100 })]⟩, res := 15625000 }, (by and_intros <;> first | with_reducible rfl | decide +kernel | rfl)⟩⟩

theorem witness_egress_schedule :
    (∃ (p : Nat) (s : State), p < 128 ∧ isPort p s = true ∧ s.body.hold = false ∧ (∀ l ∈ portLegs p s, eligible l s = false)) ∧
    (∃ (p l : Nat) (s s1 : State) (elig : List Nat), p < 128 ∧ isPort p s = true ∧ s.body.hold = false ∧ elig = (portLegs p s).filter (fun l => eligible l s) ∧ pickLeg p elig (elig.foldl (fun s l => wakeLeg p l s) (settleNodes p elig s)) = some (l, s1) ∧ l ∈ elig) ∧
    (∃ (p : Nat) (s : State), p < 128 ∧ s.body.hold = true) ∧
    (∃ (p l : Nat) (s : State) (c : Copy) (rest : List Copy), (legAt l s).queue = c :: rest ∧ s.media.buffers.find? c.buffer = none ∧ resolve .sub c.sub s ≠ .ok (handleIdx c.sub)) ∧
    (∃ (p : Nat) (s : State) (g : GateList), p < 128 ∧ (egressAt p s).nextGate = some g ∧ cmpReached (cmpNow s) g.start = true) ∧
    (∃ (p : Nat) (s : State) (g : GateList), p < 128 ∧ (egressAt p s).nextGate = none ∧ (egressAt p s).restart = none ∧ (egressAt p s).gate = some g) ∧
    (Shown 0x4E (fun r s =>
      let es := gateEntries (hostBytes (fld r.w1 127 64) (8 * fld r.w2 104 96) s) (fld r.w2 104 96)
      reservedZero ([(6, 0), (127, 64)], [(104, 96), (93, 0)], []) r = true ∧ isPort (fld r.w1 6 0) s = true ∧ 1 ≤ fld r.w2 104 96 ∧
      fld r.w2 104 96 ≤ 256 ∧ 1000 ≤ fld r.w2 93 64 ∧ fld r.w2 93 64 ≤ 1000000000 ∧ (∀ e ∈ es, 1000 ≤ e.1 ∧ e.2 < 16) ∧
      (es.map (·.1)).sum = fld r.w2 93 64)) ∧
    (Shown 0x4E (fun r s => reservedZero ([(6, 0), (127, 64)], [(104, 96), (93, 0)], []) r = true ∧ isPort (fld r.w1 6 0) s = true ∧ fld r.w2 104 96 = 0)) :=
  ⟨⟨0, { State.reset with  lanes.groups := ⟨[(0, { personality := 2 })]⟩ }, (by and_intros <;> first | with_reducible rfl | decide +kernel | rfl)⟩,
    pick_shown,
    ⟨127, { State.reset with  body.hold := true }, (by and_intros <;> first | with_reducible rfl | decide +kernel | rfl)⟩,
    ⟨0, 0, { State.reset with  ids := inUse [(.leg, 0)], media.legs := ⟨[(0, { queue := [{ sub := 0, leg := 0, packet := [], ssrc := 0, ext := 0, buffer := 0, len := 0 }] })]⟩ }, { sub := 0, leg := 0, packet := [], ssrc := 0, ext := 0, buffer := 0, len := 0 }, [], (by and_intros <;> first | with_reducible rfl | decide +kernel | rfl)⟩,
    ⟨7, { State.reset with  media.egress := ⟨[(7, { nextGate := some ⟨0, 1, [(1000, 1)]⟩ })]⟩ }, ⟨0, 1, [(1000, 1)]⟩, (by and_intros <;> first | with_reducible rfl | decide +kernel | rfl)⟩,
    ⟨7, { State.reset with  media.egress := ⟨[(7, { gate := some ⟨0, 1, [(1000, 1)]⟩ })]⟩ }, ⟨0, 1, [(1000, 1)]⟩, (by and_intros <;> first | with_reducible rfl | decide +kernel | rfl)⟩,
    shown (0) (2 ^ 96 + 1000 * 2 ^ 64) (0) ({ State.reset with lanes.groups := ⟨[(0, { personality := 2 })]⟩, hostMem := [(0, 0xE8), (1, 3)] }) (by decide) rfl (by and_intros <;> first | with_reducible rfl | decide +kernel | rfl),
    shown (0) (0) (0) ({ State.reset with lanes.groups := ⟨[(0, { personality := 2 })]⟩ }) (by decide) rfl (by and_intros <;> first | with_reducible rfl | decide +kernel | rfl)⟩

theorem witness_key_lifecycle :
    (Shown 0x60 (fun r s => r.owner = true ∧ s.keys.life = 0 ∧ reservedZero ([(127, 0)], [(127, 0)], [(63, 0)]) r = true)) ∧
    (Shown 0x60 (fun r s => r.owner = true ∧ s.keys.life ≠ 0)) ∧
    (Shown 0x61 (fun r s => tokPurpose (hostBytes (fld r.w1 63 0) (fld r.w1 79 64) s) = 4 ∧ s.keys.life ≠ 0 ∧ s.keys.life ≠ 3 ∧
      reservedZero ([(79, 0)], [], []) r = true)) ∧
    (Shown 0x61 (fun r s => tokPurpose (hostBytes (fld r.w1 63 0) (fld r.w1 79 64) s) = 1 ∧ s.keys.life = 1 ∧ reservedZero ([(79, 0)], [], []) r = true ∧
      ∀ c ∈ s.keys.slots.toList, c.2.state = 0)) ∧
    (∃ (src : CmdSrc) (s s1 : State) (r : Req), src.wf = true ∧ presented 0x61 src s = some (r, s1) ∧ tokPurpose (hostBytes (fld r.w1 63 0) (fld r.w1 79 64) s1) = 1 ∧ s1.keys.life = 1 ∧ reservedZero ([(79, 0)], [], []) r = true ∧ (∃ c ∈ s1.keys.slots.toList, c.2.state ≠ 0)) ∧
    (Shown 0x6B (fun r s => s.keys.life ≠ 0 ∧ reservedZero ([], [], []) r = true)) ∧
    (∃ c ∈ ([(.keyToken, 0x61), (.keyKekInstall, 0x62), (.keyKekErase, 0x63), (.keySlotAlloc, 0x64), (.keySlotLoad, 0x65), (.keySlotErase, 0x66),
      (.keySlotRelease, 0x67), (.keyCtxSave, 0x68), (.keyCtxRestore, 0x69), (.keyTokenRetireCheck, 0x6B)] : List ((CmdSrc → Instr) × Nat)), Shown c.2 (fun _ s => s.keys.life = 0)) ∧
    (∃ key : List Byte, Shown 0x62 (fun r s => r.owner = true ∧ s.keys.life ≠ 0 ∧ reservedZero ([(63, 0)], [], []) r = true ∧ headerFine 1 (hostBytes (fld r.w1 63 0) 16 s) = true ∧
      wrapKey (hostBytes (fld r.w1 63 0) 16 s) s = some key)) ∧
    (Shown 0x63 (fun r s => r.owner = true ∧ s.keys.life ≠ 0 ∧ reservedZero ([(5, 0), (9, 8)], [], []) r = true)) :=
  ⟨shown (0) (0) (0) (State.reset) (by decide) rfl (by and_intros <;> first | with_reducible rfl | decide +kernel | rfl),
    shown (0) (0) (0) ({ State.reset with keys.life := 1 }) (by decide) rfl (by and_intros <;> first | with_reducible rfl | decide +kernel | rfl),
    shown (16 * 2 ^ 64) (0) (0) ({ State.reset with keys.life := 1, hostMem := [(4, 4)] }) (by decide) rfl (by and_intros <;> first | with_reducible rfl | decide +kernel | rfl),
    shown (16 * 2 ^ 64) (0) (0) ({ State.reset with keys.life := 1, hostMem := [(4, 1)] }) (by decide) rfl (by and_intros <;> first | with_reducible rfl | decide +kernel | rfl),
    ⟨.port 0 (BitVec.ofNat 128 0x61) (16 * 2 ^ 64) 0 0, { State.reset with keys.life := 1, keys.slots := ⟨[(0, { state := 1 })]⟩, hostMem := [(4, 1)] }, _, _, rfl, rfl, (by and_intros <;> first | with_reducible rfl | decide +kernel)⟩,
    shown (0) (0) (0) ({ State.reset with keys.life := 1 }) (by decide) rfl (by and_intros <;> first | with_reducible rfl | decide +kernel | rfl),
    ⟨(.keyTokenRetireCheck, 0x6B), by simp, shown 0 0 0 State.reset (by decide) rfl rfl⟩,
    ⟨[], shown 0 0 0 { State.reset with keys.life := 1, hostMem := [(0, 0x57), (1, 0x4B), (2, 1), (3, 1), (4, 0xFF), (8, 88)] } (by decide) rfl (by and_intros <;> first | with_reducible rfl | decide +kernel)⟩,
    shown (0) (0) (0) ({ State.reset with keys.life := 1 }) (by decide) rfl (by and_intros <;> first | with_reducible rfl | decide +kernel | rfl)⟩

theorem witness_key_slot_life :
    (∃ k : Nat, Shown 0x64 (fun r s => s.keys.life ≠ 0 ∧ reservedZero ([(63, 0)], [(5, 0), (31, 16)], []) r = true ∧ fld r.w2 31 16 ≤ 10000 ∧ fld r.w1 63 0 = 0 ∧
      freeSlot r s = some k)) ∧
    (∃ (k : Nat) (key p : List Byte), Shown 0x64 (fun r s => s.keys.life ≠ 0 ∧ reservedZero ([(63, 0)], [(5, 0), (31, 16)], []) r = true ∧ fld r.w2 31 16 ≤ 10000 ∧ fld r.w1 63 0 ≠ 0 ∧
      freeSlot r s = some k ∧ headerFine 2 (hostBytes (fld r.w1 63 0) 16 s) = true ∧ byteAt (hostBytes (fld r.w1 63 0) 16 s) 6 = fld r.w2 5 0 ∧
      wrapKey (hostBytes (fld r.w1 63 0) 16 s) s = some key ∧ unwrapBlob (hostBytes (fld r.w1 63 0) 152 s) key s = some p ∧ sessionFine p = true)) ∧
    (∃ (r : Req) (s : State) (k : Nat), freeSlot r s = some k) ∧
    (∃ key p : List Byte, Shown 0x65 (fun r s => slotNamed r s ∧ s.keys.life ≠ 0 ∧ reservedZero ([(63, 0)], [(63, 0)], [(15, 0)]) r = true ∧
      ((slotAt ((handleIdx (fld r.w1 63 0))) s).state = 1 ∨ (slotAt ((handleIdx (fld r.w1 63 0))) s).state = 2) ∧ fld r.w3 15 0 ≤ 10000 ∧
      headerFine 2 (hostBytes (fld r.w2 63 0) 16 s) = true ∧ byteAt (hostBytes (fld r.w2 63 0) 16 s) 6 = (slotAt ((handleIdx (fld r.w1 63 0))) s).owner ∧
      wrapKey (hostBytes (fld r.w2 63 0) 16 s) s = some key ∧ unwrapBlob (hostBytes (fld r.w2 63 0) 152 s) key s = some p ∧ sessionFine p = true ∧
      ((slotAt ((handleIdx (fld r.w1 63 0))) s).state = 2 → byteAt p 0x12 = 3 ∨ leAt p 0x10 2 = (slotAt ((handleIdx (fld r.w1 63 0))) s).profile))) ∧
    (∃ key : List Byte, Shown 0x65 (fun r s => slotNamed r s ∧ s.keys.life ≠ 0 ∧ ((slotAt ((handleIdx (fld r.w1 63 0))) s).state = 1 ∨ (slotAt ((handleIdx (fld r.w1 63 0))) s).state = 2) ∧ fld r.w3 15 0 ≤ 10000 ∧
      headerFine 2 (hostBytes (fld r.w2 63 0) 16 s) = true ∧ byteAt (hostBytes (fld r.w2 63 0) 16 s) 6 = (slotAt ((handleIdx (fld r.w1 63 0))) s).owner ∧
      wrapKey (hostBytes (fld r.w2 63 0) 16 s) s = some key ∧ unwrapBlob (hostBytes (fld r.w2 63 0) 152 s) key s = none)) ∧
    (∃ (src : CmdSrc) (s s1 : State) (r : Req), src.wf = true ∧ presented 0x66 src s = some (r, s1) ∧ slotNamed r s1 ∧ s1.keys.life ≠ 0 ∧ reservedZero ([(63, 0)], [], []) r = true ∧ ((slotAt ((handleIdx (fld r.w1 63 0))) s1).state = 1 ∨ (slotAt ((handleIdx (fld r.w1 63 0))) s1).state = 2)) ∧
    (∃ (k : Nat) (s : State), k < 2097152 ∧ (slotAt k s).state = 3 ∧ opsOn k s = 0 ∧ (slotAt k s).releasing = false) ∧
    (∃ (k : Nat) (s : State), k < 2097152 ∧ (slotAt k s).state = 3 ∧ opsOn k s = 0 ∧ (slotAt k s).releasing = true) ∧
    (Shown 0x67 (fun r s => slotNamed r s ∧ s.keys.life ≠ 0 ∧ reservedZero ([(63, 0)], [], []) r = true ∧ binds ((handleIdx (fld r.w1 63 0))) s = 0 ∧ (slotAt ((handleIdx (fld r.w1 63 0))) s).state = 1)) ∧
    (Shown 0x67 (fun r s => slotNamed r s ∧ s.keys.life ≠ 0 ∧ reservedZero ([(63, 0)], [], []) r = true ∧ binds ((handleIdx (fld r.w1 63 0))) s = 0 ∧ (slotAt ((handleIdx (fld r.w1 63 0))) s).state = 2)) ∧
    (Shown 0x67 (fun r s => slotNamed r s ∧ s.keys.life ≠ 0 ∧ 0 < binds ((handleIdx (fld r.w1 63 0))) s)) ∧
    (Shown 0x6A (fun r s => slotNamed r s ∧ reservedZero ([(63, 0)], [(63, 0)], [(0, 0)]) r = true)) ∧
    (∃ (k : Nat) (s : State) (p : RxKeys × Nat), k < 2097152 ∧ (slotAt k s).prev = some p) :=
  ⟨⟨0, shown 0 (10000 * 2 ^ 16) 0 { State.reset with keys.life := 1 } (by decide) rfl (by and_intros <;> first | with_reducible rfl | decide +kernel)⟩,
    ⟨0, zeroKey, sessionText, shown 4096 (10000 * 2 ^ 16) 0 { State.reset with keys := { State.reset.keys with life := 1, keks := keksZero }, hostMem := cellsAt 4096 sessionBlob } (by decide) rfl ⟨(by decide +kernel), (by decide +kernel), (by decide +kernel), (by decide +kernel), (by decide +kernel), (by decide +kernel), (by decide +kernel), (by decide +kernel), session_unwraps (by decide +kernel) rfl (by decide +kernel), (by decide +kernel)⟩⟩,
    ⟨portReq 0x64 0 0 0 State.reset, State.reset, 0, by decide +kernel⟩,
    ⟨zeroKey, sessionText, shown (4 * 2 ^ 56) 4096 10000 { State.reset with keys := { State.reset.keys with life := 1, keks := keksZero, slots := ⟨[(0, { state := 1 })]⟩ }, ids := inUse [(.slot, 0)], hostMem := cellsAt 4096 sessionBlob } (by decide) rfl ⟨⟨(by decide +kernel), (by decide +kernel)⟩, (by decide +kernel), (by decide +kernel), (by decide +kernel), (by decide +kernel), (by decide +kernel), (by decide +kernel), (by decide +kernel), session_unwraps (by decide +kernel) rfl (by decide +kernel), (by decide +kernel), fun h => absurd h (by decide +kernel)⟩⟩,
    ⟨zeroKey, shown (4 * 2 ^ 56) 4096 10000 { State.reset with keys := { State.reset.keys with life := 3, keks := keksZero, slots := ⟨[(0, { state := 1 })]⟩ }, ids := inUse [(.slot, 0)], hostMem := cellsAt 4096 sessionBlob } (by decide) rfl (by and_intros <;> first | with_reducible rfl | decide +kernel)⟩,
    ⟨.port 0 (BitVec.ofNat 128 0x66) (4 * 2 ^ 56) (0) (0), { State.reset with ids := inUse [(.slot, 0)], keys.slots := ⟨[(0, { state := 2 })]⟩, keys.life := 1 }, _, _, rfl, rfl, (by and_intros <;> first | with_reducible rfl | decide +kernel | rfl)⟩,
    ⟨0, { State.reset with  ids := inUse [(.slot, 0)], keys.slots := ⟨[(0, { state := 3 })]⟩, keys.life := 1 }, (by and_intros <;> first | with_reducible rfl | decide +kernel | rfl)⟩,
    ⟨0, { State.reset with  ids := inUse [(.slot, 0)], keys.slots := ⟨[(0, { state := 3, releasing := true })]⟩, keys.life := 1 }, (by and_intros <;> first | with_reducible rfl | decide +kernel | rfl)⟩,
    shown (4 * 2 ^ 56) (0) (0) ({ State.reset with ids := inUse [(.slot, 0)], keys.slots := ⟨[(0, { state := 1 })]⟩, keys.life := 1 }) (by decide) rfl (by and_intros <;> first | with_reducible rfl | decide +kernel | rfl),
    shown (4 * 2 ^ 56) (0) (0) ({ State.reset with ids := inUse [(.slot, 0)], keys.slots := ⟨[(0, { state := 2 })]⟩, keys.life := 1 }) (by decide) rfl (by and_intros <;> first | with_reducible rfl | decide +kernel | rfl),
    shown (4 * 2 ^ 56) (0) (0) ({ State.reset with ids := inUse [(.slot, 0), (.source, 0)], keys.slots := ⟨[(0, { state := 2 })]⟩, media.sources := ⟨[(0, { w3 := 4 * 2 ^ 56 })]⟩, keys.life := 1 }) (by decide) rfl (by and_intros <;> first | with_reducible rfl | decide +kernel | rfl),
    shown (4 * 2 ^ 56) (0) (0) ({ State.reset with ids := inUse [(.slot, 0)], keys.slots := ⟨[(0, {  })]⟩, keys.life := 1 }) (by decide) rfl (by and_intros <;> first | with_reducible rfl | decide +kernel | rfl),
    ⟨0, { State.reset with  ids := inUse [(.slot, 0)], keys.slots := ⟨[(0, { prev := some (⟨0, 0, [], []⟩, 0) })]⟩, keys.life := 1 }, (⟨0, 0, [], []⟩, 0), (by and_intros <;> first | with_reducible rfl | decide +kernel | rfl)⟩⟩

theorem witness_key_contexts :
    (Shown 0x68 (fun r s => slotNamed r s ∧ s.keys.life ≠ 0 ∧ reservedZero ([(63, 0)], [(95, 0)], [(1, 0), (9, 8)]) r = true ∧
      (bitOf r.w3 0 = true → r.owner = true ∧ s.keys.life = 2) ∧ saveRefusal ((handleIdx (fld r.w1 63 0))) (((⟨r.tk, fld r.w2 63 0, fld r.w2 95 64, bitOf r.w3 0, fld r.w3 9 8⟩ : SaveReq))) s = none ∧ bitOf r.w3 1 = false)) ∧
    (Shown 0x68 (fun r s => slotNamed r s ∧ s.keys.life ≠ 0 ∧ reservedZero ([(63, 0)], [(95, 0)], [(1, 0), (9, 8)]) r = true ∧
      (bitOf r.w3 0 = true → r.owner = true ∧ s.keys.life = 2) ∧ saveRefusal ((handleIdx (fld r.w1 63 0))) (((⟨r.tk, fld r.w2 63 0, fld r.w2 95 64, bitOf r.w3 0, fld r.w3 9 8⟩ : SaveReq))) s = none ∧ bitOf r.w3 1 = true ∧
      (slotAt ((handleIdx (fld r.w1 63 0))) s).save = none)) ∧
    (Shown 0x68 (fun r s => slotNamed r s ∧ s.keys.life ≠ 0 ∧ bitOf r.w3 0 = true ∧ (r.owner = false ∨ s.keys.life ≠ 2))) ∧
    (∃ (k : Nat) (s : State) (q : SaveReq), k < 2097152 ∧ (slotAt k s).save = some q ∧ opsOn k s = 0 ∧ (slotAt k s).state ≠ 3 ∧ saveRefusal k q (setSlot k { slotAt k s with save := none } s) = none) ∧
    (∃ (k : Nat) (q : SaveReq) (s : State), q.clear = false) ∧
    (∃ k : Nat, Shown 0x69 (fun r s => reservedZero ([(95, 0)], [(0, 0), (13, 8)], []) r = true ∧ bitOf r.w2 0 = true ∧ r.owner = true ∧ s.keys.life = 2 ∧ leAt ((hostBytes (fld r.w1 63 0) (fld r.w1 95 64) s).take 32) 0 2 = 0x4B57 ∧ byteAt ((hostBytes (fld r.w1 63 0) (fld r.w1 95 64) s).take 32) 2 = 1 ∧ byteAt ((hostBytes (fld r.w1 63 0) (fld r.w1 95 64) s).take 32) 3 = 4 ∧ byteAt ((hostBytes (fld r.w1 63 0) (fld r.w1 95 64) s).take 32) 4 ≤ 63 ∧ byteAt ((hostBytes (fld r.w1 63 0) (fld r.w1 95 64) s).take 32) 5 ≤ 3 ∧ leAt ((hostBytes (fld r.w1 63 0) (fld r.w1 95 64) s).take 32) 8 4 = 272 + 32 * ((leAt ((hostBytes (fld r.w1 63 0) (fld r.w1 95 64) s).take 32) 8 4 - 272) / 32) ∧ ((leAt ((hostBytes (fld r.w1 63 0) (fld r.w1 95 64) s).take 32) 8 4 - 272) / 32) ≤ 160 ∧ fld r.w1 95 64 = leAt ((hostBytes (fld r.w1 63 0) (fld r.w1 95 64) s).take 32) 8 4 ∧ byteAt ((hostBytes (fld r.w1 63 0) (fld r.w1 95 64) s).take 32) 6 = fld r.w2 13 8 ∧ freeSlot r s = some k)) ∧
    (∃ (k : Nat) (body : List Byte), Shown 0x69 (fun r s => reservedZero ([(95, 0)], [(0, 0), (13, 8)], []) r = true ∧ bitOf r.w2 0 = false ∧ (s.keys.life = 1 ∨ s.keys.life = 2) ∧ leAt ((hostBytes (fld r.w1 63 0) (fld r.w1 95 64) s).take 32) 0 2 = 0x4B57 ∧ byteAt ((hostBytes (fld r.w1 63 0) (fld r.w1 95 64) s).take 32) 2 = 1 ∧ byteAt ((hostBytes (fld r.w1 63 0) (fld r.w1 95 64) s).take 32) 3 = 3 ∧ byteAt ((hostBytes (fld r.w1 63 0) (fld r.w1 95 64) s).take 32) 4 ≤ 63 ∧ byteAt ((hostBytes (fld r.w1 63 0) (fld r.w1 95 64) s).take 32) 5 ≤ 3 ∧ leAt ((hostBytes (fld r.w1 63 0) (fld r.w1 95 64) s).take 32) 8 4 = 272 + 32 * ((leAt ((hostBytes (fld r.w1 63 0) (fld r.w1 95 64) s).take 32) 8 4 - 272) / 32) ∧ ((leAt ((hostBytes (fld r.w1 63 0) (fld r.w1 95 64) s).take 32) 8 4 - 272) / 32) ≤ 160 ∧ fld r.w1 95 64 = leAt ((hostBytes (fld r.w1 63 0) (fld r.w1 95 64) s).take 32) 8 4 ∧ byteAt ((hostBytes (fld r.w1 63 0) (fld r.w1 95 64) s).take 32) 6 = fld r.w2 13 8 ∧ (kekOf (byteAt (hostBytes (fld r.w1 63 0) (fld r.w1 95 64) s) 4) (byteAt (hostBytes (fld r.w1 63 0) (fld r.w1 95 64) s) 5) s).valid = true ∧ gcmOpen (contextKey (kekOf (byteAt ((hostBytes (fld r.w1 63 0) (fld r.w1 95 64) s).take 32) 4) (byteAt ((hostBytes (fld r.w1 63 0) (fld r.w1 95 64) s).take 32) 5) s).key (leAt ((hostBytes (fld r.w1 63 0) (fld r.w1 95 64) s).take 32) 16 8)) (ctxNonce (leAt ((hostBytes (fld r.w1 63 0) (fld r.w1 95 64) s).take 32) 24 8)) (((hostBytes (fld r.w1 63 0) (fld r.w1 95 64) s).take 32).take 16) ((hostBytes (fld r.w1 63 0) (fld r.w1 95 64) s).drop 32) = some body ∧ freeSlot r s = some k)) ∧
    (Shown 0x69 (fun r s => bitOf r.w2 0 = false ∧ (s.keys.life = 1 ∨ s.keys.life = 2) ∧ leAt ((hostBytes (fld r.w1 63 0) (fld r.w1 95 64) s).take 32) 0 2 = 0x4B57 ∧ byteAt ((hostBytes (fld r.w1 63 0) (fld r.w1 95 64) s).take 32) 2 = 1 ∧ byteAt ((hostBytes (fld r.w1 63 0) (fld r.w1 95 64) s).take 32) 3 = 3 ∧ byteAt ((hostBytes (fld r.w1 63 0) (fld r.w1 95 64) s).take 32) 4 ≤ 63 ∧ byteAt ((hostBytes (fld r.w1 63 0) (fld r.w1 95 64) s).take 32) 5 ≤ 3 ∧ leAt ((hostBytes (fld r.w1 63 0) (fld r.w1 95 64) s).take 32) 8 4 = 272 + 32 * ((leAt ((hostBytes (fld r.w1 63 0) (fld r.w1 95 64) s).take 32) 8 4 - 272) / 32) ∧ ((leAt ((hostBytes (fld r.w1 63 0) (fld r.w1 95 64) s).take 32) 8 4 - 272) / 32) ≤ 160 ∧ fld r.w1 95 64 = leAt ((hostBytes (fld r.w1 63 0) (fld r.w1 95 64) s).take 32) 8 4 ∧ byteAt ((hostBytes (fld r.w1 63 0) (fld r.w1 95 64) s).take 32) 6 = fld r.w2 13 8 ∧ (kekOf (byteAt (hostBytes (fld r.w1 63 0) (fld r.w1 95 64) s) 4) (byteAt (hostBytes (fld r.w1 63 0) (fld r.w1 95 64) s) 5) s).valid = true ∧ gcmOpen (contextKey (kekOf (byteAt ((hostBytes (fld r.w1 63 0) (fld r.w1 95 64) s).take 32) 4) (byteAt ((hostBytes (fld r.w1 63 0) (fld r.w1 95 64) s).take 32) 5) s).key (leAt ((hostBytes (fld r.w1 63 0) (fld r.w1 95 64) s).take 32) 16 8)) (ctxNonce (leAt ((hostBytes (fld r.w1 63 0) (fld r.w1 95 64) s).take 32) 24 8)) (((hostBytes (fld r.w1 63 0) (fld r.w1 95 64) s).take 32).take 16) ((hostBytes (fld r.w1 63 0) (fld r.w1 95 64) s).drop 32) = none)) ∧
    (∃ (k : Nat) (s : State), k < 2097152) :=
  ⟨shown (4 * 2 ^ 56) (100000 * 2 ^ 64) (0) ({ State.reset with ids := inUse [(.slot, 0)], keys.slots := ⟨[(0, { state := 2 })]⟩, keys.life := 1, keys.keks := ⟨[(kekKey 0 0, { valid := true })]⟩ }) (by decide) rfl (by and_intros <;> first | with_reducible rfl | decide +kernel | rfl),
    shown (4 * 2 ^ 56) (100000 * 2 ^ 64) (2) ({ State.reset with ids := inUse [(.slot, 0)], keys.slots := ⟨[(0, { state := 2 })]⟩, keys.life := 1, keys.keks := ⟨[(kekKey 0 0, { valid := true })]⟩ }) (by decide) rfl (by and_intros <;> first | with_reducible rfl | decide +kernel | rfl),
    shown (4 * 2 ^ 56) (0) (1) ({ State.reset with ids := inUse [(.slot, 0)], keys.slots := ⟨[(0, { state := 2 })]⟩, keys.life := 1 }) (by decide) rfl (by and_intros <;> first | with_reducible rfl | decide +kernel | rfl),
    ⟨0, { State.reset with  ids := inUse [(.slot, 0)], keys.slots := ⟨[(0, { state := 2, save := some ⟨{}, 0, 100000, false, 0⟩ })]⟩, keys.life := 1, keys.keks := ⟨[(kekKey 0 0, { valid := true })]⟩ }, ⟨{}, 0, 100000, false, 0⟩, (by and_intros <;> first | with_reducible rfl | decide +kernel | rfl)⟩,
    ⟨0, ⟨{}, 0, 0, false, 0⟩, State.reset, (by and_intros <;> first | with_reducible rfl | decide +kernel | rfl)⟩,
    ⟨0, shown (4096 + 272 * 2 ^ 64) 1 0 { State.reset with keys := { State.reset.keys with life := 2, keks := keksZero }, hostMem := [(4096, 0x57), (4097, 0x4B), (4098, 1), (4099, 4), (4104, 0x10), (4105, 1)] } (by decide) rfl (by and_intros <;> first | with_reducible rfl | decide +kernel)⟩,
    ⟨0, List.replicate 224 0, shown (4096 + 272 * 2 ^ 64) 0 0 { State.reset with keys := { State.reset.keys with life := 1, keks := keksZero }, hostMem := cellsAt 4096 (contextHead ++ contextSealed) } (by decide) rfl ⟨(by decide +kernel), (by decide +kernel), (by decide +kernel), (by decide +kernel), (by decide +kernel), (by decide +kernel), (by decide +kernel), (by decide +kernel), (by decide +kernel), (by decide +kernel), (by decide +kernel), (by decide +kernel), (by decide +kernel), context_opens (by decide +kernel) (by decide +kernel) (by decide +kernel) (by decide +kernel) (by decide +kernel) (by decide +kernel) rfl, (by decide +kernel)⟩⟩,
    shown (4096 + 272 * 2 ^ 64) 0 0 { State.reset with keys := { State.reset.keys with life := 1, keks := keksZero }, hostMem := cellsAt 4096 (contextHead ++ contextBad) } (by decide) rfl ⟨(by decide +kernel), (by decide +kernel), (by decide +kernel), (by decide +kernel), (by decide +kernel), (by decide +kernel), (by decide +kernel), (by decide +kernel), (by decide +kernel), (by decide +kernel), (by decide +kernel), (by decide +kernel), context_spoiled (by decide +kernel) (by decide +kernel) (by decide +kernel) (by decide +kernel) (by decide +kernel) (by decide +kernel) rfl⟩,
    ⟨2097151, State.reset, (by and_intros <;> first | with_reducible rfl | decide +kernel | rfl)⟩⟩

theorem witness_video_pools_and_decode_contexts :
    (Shown 0x70 (fun r _ => reservedZero (([(1, 0), (13, 8), (29, 16), (38, 32), (46, 40), (48, 48), (63, 63)], [], [])) r = true ∧ (r.owner = true ∨ fld r.w1 13 8 = r.fn) ∧ bitOf r.w1 63 = true)) ∧
    (Shown 0x70 (fun r s => reservedZero (([(1, 0), (13, 8), (29, 16), (38, 32), (46, 40), (48, 48), (63, 63)], [], [])) r = true ∧ (r.owner = true ∨ fld r.w1 13 8 = r.fn) ∧ bitOf r.w1 63 = false ∧ 1 ≤ fld r.w1 29 16 ∧
      1 ≤ fld r.w1 38 32 ∧ fld r.w1 38 32 ≤ 64 ∧ 1 ≤ fld r.w1 46 40 ∧ fld r.w1 46 40 ≤ 36 ∧
      (poolAt ((poolKey (fld r.w1 1 0) (fld r.w1 13 8))) s).was = [] ∧
      (((poolAt ((poolKey (fld r.w1 1 0) (fld r.w1 13 8))) s).held = [] ∧ (poolAt ((poolKey (fld r.w1 1 0) (fld r.w1 13 8))) s).regions = [] ∧ poolInUse ((poolKey (fld r.w1 1 0) (fld r.w1 13 8))) s = false) ∨
        ((poolAt ((poolKey (fld r.w1 1 0) (fld r.w1 13 8))) s).bufW = ((({ want := fld r.w1 29 16, bufW := fld r.w1 38 32 * 64, bufH := fld r.w1 46 40 * 64, deep := bitOf r.w1 48 } : Pool))).bufW ∧ (poolAt ((poolKey (fld r.w1 1 0) (fld r.w1 13 8))) s).bufH = ((({ want := fld r.w1 29 16, bufW := fld r.w1 38 32 * 64, bufH := fld r.w1 46 40 * 64, deep := bitOf r.w1 48 } : Pool))).bufH ∧
          (poolAt ((poolKey (fld r.w1 1 0) (fld r.w1 13 8))) s).deep = ((({ want := fld r.w1 29 16, bufW := fld r.w1 38 32 * 64, bufH := fld r.w1 46 40 * 64, deep := bitOf r.w1 48 } : Pool))).deep ∧ (poolAt ((poolKey (fld r.w1 1 0) (fld r.w1 13 8))) s).held.length ≤ ((({ want := fld r.w1 29 16, bufW := fld r.w1 38 32 * 64, bufH := fld r.w1 46 40 * 64, deep := bitOf r.w1 48 } : Pool))).want)) ∧
      regionsFor { (({ want := fld r.w1 29 16, bufW := fld r.w1 38 32 * 64, bufH := fld r.w1 46 40 * 64, deep := bitOf r.w1 48 } : Pool)) with held := ((poolAt ((poolKey (fld r.w1 1 0) (fld r.w1 13 8))) s).held ++ newIndexes (poolAt ((poolKey (fld r.w1 1 0) (fld r.w1 13 8))) s).held (((({ want := fld r.w1 29 16, bufW := fld r.w1 38 32 * 64, bufH := fld r.w1 46 40 * 64, deep := bitOf r.w1 48 } : Pool))).want - (poolAt ((poolKey (fld r.w1 1 0) (fld r.w1 13 8))) s).held.length)) } ≤ (poolAt ((poolKey (fld r.w1 1 0) (fld r.w1 13 8))) s).regions.length + (freeRegions ((poolKey (fld r.w1 1 0) (fld r.w1 13 8)) / 64) s).length)) ∧
    (Shown 0x71 (fun r s =>
      let v := decAsked r
      let i := handleIdx v.source
      reservedZero ([(69, 0), (75, 72)], [(49, 48), (46, 0)], [(63, 0)]) r = true ∧ decFine v.codec v = true ∧
      resolve .source v.source s = .ok i ∧ (r.owner = true ∨ (sourceAt i s).fn = r.fn) ∧ accHas tgPartition v.part r.master bitControl s = true ∧
      recordQueueRefusal r v.mode v.recQueue s = none ∧ formatOf v.codec (sourceAt i s).format = true ∧ (sourceAt i s).forwardOnly = false ∧
      (sourceAt i s).jit.isSome = true ∧ poolHolds (poolAt (poolKey v.wing v.fn) s) v.maxW v.maxH v.deep = true ∧ fits v.part 0 v.load s = true ∧
      ((decList s).filter (fun c => c.2.part == v.part)).length < ((partOf? v.part s).map (·.decCtx)).getD 0 ∧
      (lowestFree .decCtx 0 (declaredDec s) s).isSome = true ∧ (decTile v.part v.wing v.load s).isSome = true)) ∧
    (Shown 0x72 (fun r s => decNamed r s ∧ reservedZero ([(14, 0)], [], []) r = true)) ∧
    (Shown 0x73 (fun r s => decNamed r s ∧ reservedZero ([(14, 0)], [(63, 0)], [(0, 0)]) r = true)) ∧
    (Shown 0x74 (fun r s => decNamed r s ∧ reservedZero ([(14, 0)], [], []) r = true ∧ (decAt (fld r.w1 14 0) s).releasing = none ∧
      (decAt (fld r.w1 14 0) s).work.isSome = true)) ∧
    (Shown 0x74 (fun r s => decNamed r s ∧ reservedZero ([(14, 0)], [], []) r = true ∧ (decAt (fld r.w1 14 0) s).releasing = none ∧
      (decAt (fld r.w1 14 0) s).work = none)) :=
  ⟨shown (2 ^ 63) (0) (0) (State.reset) (by decide) rfl (by and_intros <;> first | with_reducible rfl | decide +kernel | rfl),
    shown (2 ^ 16 + 2 ^ 32 + 2 ^ 40) (0) (0) ({ State.reset with video := { State.reset.video with pools := ⟨[(0, { want := 1, bufW := 64, bufH := 64, held := [0], regions := [5] })]⟩ } }) (by decide) rfl (by and_intros <;> first | with_reducible rfl | (with_reducible refine Nat.le_trans ?_ (Nat.le_add_right _ _); decide +kernel) | decide +kernel),
    shown (2 * 2 ^ 56) (64 + 64 * 2 ^ 13 + 30 * 2 ^ 25 + 10 * 2 ^ 34) (0) ({ lab with  ids := inUse [(.source, 0)], media := { lab.media with sources := ⟨[(0, { jit := some {} })]⟩ }, video := { lab.video with pools := ⟨[(0, { want := 8, bufW := 64, bufH := 64, held := List.range 8 })]⟩ } }) (by decide) rfl (by and_intros <;> first | with_reducible rfl | decide +kernel | rfl),
    shown (0) (0) (0) ({ State.reset with ids := inUse [(.decCtx, 0)], video := { State.reset.video with decs := ⟨[(0, {  })]⟩ } }) (by decide) rfl (by and_intros <;> first | with_reducible rfl | decide +kernel | rfl),
    shown (0) (0) (0) ({ State.reset with ids := inUse [(.decCtx, 0)], video := { State.reset.video with decs := ⟨[(0, {  })]⟩ } }) (by decide) rfl (by and_intros <;> first | with_reducible rfl | decide +kernel | rfl),
    shown (0) (0) (0) ({ State.reset with ids := inUse [(.decCtx, 0)], video := { State.reset.video with decs := ⟨[(0, { work := some { unit := ⟨0, {}⟩, buf := 0, info := default, content := 1 } })]⟩ } }) (by decide) rfl (by and_intros <;> first | with_reducible rfl | decide +kernel | rfl),
    shown (0) (0) (0) ({ State.reset with ids := inUse [(.decCtx, 0)], video := { State.reset.video with decs := ⟨[(0, {  })]⟩ } }) (by decide) rfl (by and_intros <;> first | with_reducible rfl | decide +kernel | rfl)⟩

theorem witness_pictures_decode :
    (∃ (c : Nat) (u : DecUnit) (rest : List DecUnit) (s : State), c < 65536 ∧ (identOf .decCtx c s).used = true ∧ s.body.hold = false ∧ tileBusy (decAt c s).tile s = false ∧ (decAt c s).repair = none ∧ (decAt c s).waiting = u :: rest) ∧
    (∃ (c : Nat) (w : DecWork) (s : State), c < 65536 ∧ (identOf .decCtx c s).used = true ∧ s.body.hold = false ∧ (decAt c s).work = some w ∧ bandMode (decAt c s).codec w.info = true ∧ (bufAt w.buf s).published.length < bandsOf (bufAt w.buf s).height) ∧
    (∃ (c : Nat) (w : DecWork) (s : State), c < 65536 ∧ (identOf .decCtx c s).used = true ∧ s.body.hold = false ∧ (decAt c s).work = some w ∧ (decAt c s).releasing = none) ∧
    (∃ (c i : Nat) (w : DecWork) (s : State), c < 65536 ∧ (identOf .decCtx c s).used = true ∧ s.body.hold = false ∧ (decAt c s).repair = some w ∧ unitComplete (withLates w.unit.unit (decAt c s).lates) = true ∧ tileBusy (decAt c s).tile s = false ∧ w.buf ∈ keptOf c s ∧ (freeBufs (poolKey (decAt c s).wing (decAt c s).fn) s).head? = some i) :=
  ⟨⟨0, (⟨0, {}⟩ : DecUnit), [], { State.reset with  ids := inUse [(.decCtx, 0)], video := { State.reset.video with decs := ⟨[(0, { waiting := [(⟨0, {}⟩ : DecUnit)] })]⟩ } }, (by and_intros <;> first | with_reducible rfl | decide +kernel | rfl)⟩,
    ⟨0, ({ unit := ⟨0, {}⟩, buf := 0, info := default, content := 1 } : DecWork), { State.reset with  ids := inUse [(.decCtx, 0)], video := { State.reset.video with decs := ⟨[(0, { work := some ({ unit := ⟨0, {}⟩, buf := 0, info := default, content := 1 } : DecWork) })]⟩, bufs := ⟨[(0, { height := 64 })]⟩ } }, (by and_intros <;> first | with_reducible rfl | decide +kernel | rfl)⟩,
    ⟨0, ({ unit := ⟨0, {}⟩, buf := 0, info := default, content := 1 } : DecWork), { State.reset with  ids := inUse [(.decCtx, 0)], video := { State.reset.video with decs := ⟨[(0, { work := some ({ unit := ⟨0, {}⟩, buf := 0, info := default, content := 1 } : DecWork) })]⟩ } }, (by and_intros <;> first | with_reducible rfl | decide +kernel | rfl)⟩,
    ⟨0, 1, ({ unit := ⟨0, { pkts := [{ ext := 0, layer := { first := true, last := true } }] }⟩, buf := 0, info := default, content := 1 } : DecWork), { State.reset with  ids := inUse [(.decCtx, 0)], video := { State.reset.video with decs := ⟨[(0, { repair := some ({ unit := ⟨0, { pkts := [{ ext := 0, layer := { first := true, last := true } }] }⟩, buf := 0, info := default, content := 1 } : DecWork), kept := [0] })]⟩, bufs := ⟨[(0, { ctx := some 0, shortRef := true })]⟩, pools := ⟨[(0, { want := 8, bufW := 64, bufH := 64, held := List.range 8 })]⟩ } }, (by and_intros <;> first | with_reducible rfl | decide +kernel | rfl)⟩⟩

theorem witness_outputs_compose_and_stitch :
    (Shown 0x75 (fun r s =>
      let v := outAsked r
      reservedZero ([(5, 0), (55, 8), (127, 64)], [(49, 0)], [(65, 0)]) r = true ∧ outFine v = true ∧
      (v.stitched = true → holdsRoom (reqFn r) v.room s = true ∧ (lowestFree .source 0 131072 s).isSome = true) ∧
      accHas tgPartition v.part r.master bitControl s = true ∧ recordQueueRefusal r v.mode v.recQueue s = none ∧
      fits v.part v.role v.load s = true ∧ (lowestFree .output 0 8192 s).isSome = true ∧ (outTile v s).isSome = true)) ∧
    (Shown 0x76 (fun r s => outNamed r s ∧ reservedZero (layerLayout r s) r = true ∧ (r.owner = true ∨ ((fld r.w1 22 16) ≠ 64 ∧ isCocoonCell (outputAt ((fld r.w1 12 0)) s) ((fld r.w1 22 16)) = false)) ∧
      layerRefusal (outputAt ((fld r.w1 12 0)) s) ((fld r.w1 22 16)) (({ (outputAt (fld r.w1 12 0) s).shadow.get (fld r.w1 22 16) {} with typ := fld r.w1 25 24, w2 := r.w2, w3 := r.w3, born := if (outputAt (fld r.w1 12 0) s).stitched = false ∧ fld r.w1 25 24 = 1 then (decAt (fld r.w2 14 0) s).born else 0 })) s = none)) ∧
    (Shown 0x76 (fun r s => r.owner = false ∧ ((fld r.w1 22 16) = 64 ∨ ((identOf .output ((fld r.w1 12 0)) s).used = true ∧ isCocoonCell (outputAt ((fld r.w1 12 0)) s) ((fld r.w1 22 16)) = true)))) ∧
    (Shown 0x77 (fun r s => outNamed r s ∧ reservedZero ([(12, 0), (22, 16)], [(127, 0)], [(75, 0)]) r = true ∧ (outputAt ((fld r.w1 12 0)) s).stitched = false ∧ (fld r.w1 22 16) ≤ 63)) ∧
    (Shown 0x77 (fun r _ => r.owner = false ∧ (fld r.w1 22 16) = 64)) ∧
    (Shown 0x78 (fun r s =>
      let next := if bitOf r.w1 16 = true then ((outputAt ((fld r.w1 12 0)) s).pending.getD (outputAt ((fld r.w1 12 0)) s).active).set 64 ((outputAt ((fld r.w1 12 0)) s).shadow.get 64 {})
        else (outputAt ((fld r.w1 12 0)) s).shadow
      outNamed r s ∧ reservedZero ([(12, 0), (16, 16)], [], []) r = true ∧ (bitOf r.w1 16 = true → r.owner = true) ∧
      (if (outputAt ((fld r.w1 12 0)) s).stitched = true then altsReady (outputAt ((fld r.w1 12 0)) s) next s = true
       else depthOf (outputAt ((fld r.w1 12 0)) s) next ≤ (outputAt ((fld r.w1 12 0)) s).maxDepth))) ∧
    (Shown 0x78 (fun r _ => r.owner = false ∧ bitOf r.w1 16 = true)) ∧
    (Shown 0x78 (fun r s => outNamed r s ∧ bitOf r.w1 16 = false ∧ (outputAt ((fld r.w1 12 0)) s).stitched = false ∧
      (outputAt ((fld r.w1 12 0)) s).maxDepth < depthOf (outputAt ((fld r.w1 12 0)) s) (outputAt ((fld r.w1 12 0)) s).shadow)) ∧
    (Shown 0x78 (fun r s => outNamed r s ∧ bitOf r.w1 16 = false ∧ (outputAt ((fld r.w1 12 0)) s).stitched = true ∧
      altsReady (outputAt ((fld r.w1 12 0)) s) (outputAt ((fld r.w1 12 0)) s).shadow s = false)) ∧
    (Shown 0x79 (fun r s => outNamed r s ∧ reservedZero ([(12, 0)], [(63, 0)], [(0, 0)]) r = true)) ∧
    (Shown 0x7A (fun r s => outNamed r s ∧ reservedZero ([(12, 0)], [], []) r = true ∧ (outputAt ((fld r.w1 12 0)) s).releasing = none ∧
      ((outputAt ((fld r.w1 12 0)) s).stitched = false ∨ (sourceAt (handleIdx (outputAt ((fld r.w1 12 0)) s).source) s).readers = 0))) ∧
    (∃ (o : Nat) (s : State), o < 8192 ∧ (identOf .output o s).used = true ∧ s.body.hold = false ∧ (outputAt o s).releasing = none ∧ (outputAt o s).staged = none ∧ (outputAt o s).emit = none ∧ cmpReached (cmpNow s) (boundaryOf (outputAt o (settleNext o s)) (outputAt o (settleNext o s)).next) = true) ∧
    (∃ (o : Nat) (f : FrameWork) (s : State), o < 8192 ∧ (identOf .output o s).used = true ∧ s.body.hold = false ∧ (outputAt o s).work = some f ∧ unready (outputAt o s) f f.band s = [] ∧ f.band + 1 < bandsOf (outputAt o s).height) ∧
    (∃ (o l : Nat) (f : FrameWork) (s : State), o < 8192 ∧ l < 65 ∧ (identOf .output o s).used = true ∧ (outputAt o s).work = some f ∧ cmpReached (cmpNow s) (cmpAdd f.boundary (if (outputAt o s).wait = 0 then (outputAt o s).periodNs / 2 else (outputAt o s).wait * 1000)) = true ∧ (List.range (bandsOf (outputAt o s).height)).filter (fun b => decide (f.band ≤ b) && (unready (outputAt o s) f b s).contains l) ≠ []) ∧
    (∃ (o : Nat) (s : State), o < 8192 ∧ (identOf .output o s).used = true ∧ s.body.hold = false ∧ (outputAt o s).emit.isSome = true ∧ (outputAt o s).releasing = none) ∧
    (∃ (o at_ : Nat) (s : State), o < 8192 ∧ (identOf .output o s).used = true ∧ s.body.hold = false ∧ (outputAt o s).releasing = none ∧ (outputAt o s).window = some at_ ∧ at_ ≤ nowNs s) ∧
    (∃ (o c : Nat) (s : State), o < 8192 ∧ c < 64 ∧ (identOf .output o s).used = true ∧ (outputAt o s).stitched = true ∧ (cellAt o c s).broken = true ∧ (cellAt o c s).greyDone = false) :=
  ⟨shown (64 * 2 ^ 16 + 64 * 2 ^ 29 + 30 * 2 ^ 41 + 2 ^ 49) (0) (0) (lab) (by decide) rfl (by and_intros <;> first | with_reducible rfl | decide +kernel | rfl),
    shown (2 ^ 24) (1024 * 2 ^ 18) (64 * 2 ^ 28 + 64 * 2 ^ 41) ({ lab with  ids := inUse [(.output, 0), (.decCtx, 0)], video := { lab.video with outs := ⟨[(0, { w1 := 64 * 2 ^ 16 + 128 * 2 ^ 29 + 30 * 2 ^ 41 + 2 ^ 49, tile := 16 })]⟩, decs := ⟨[(0, {})]⟩ } }) (by decide) rfl (by and_intros <;> first | with_reducible rfl | decide +kernel | rfl),
    shownBy (.queue 128) { State.reset with hq := vfQueues 0x76 (64 * 2 ^ 16) (0) (0), ids := inUse [(.output, 0)], video := { State.reset.video with outs := ⟨[(0, {  })]⟩ } } rfl (by decide +kernel) (by and_intros <;> first | with_reducible rfl | decide +kernel | rfl),
    shown (0) (0) (0) ({ State.reset with ids := inUse [(.output, 0)], video := { State.reset.video with outs := ⟨[(0, { w1 := 64 * 2 ^ 16 + 128 * 2 ^ 29 + 30 * 2 ^ 41 + 2 ^ 49 })]⟩ } }) (by decide) rfl (by and_intros <;> first | with_reducible rfl | decide +kernel | rfl),
    shownBy (.queue 128) { State.reset with hq := vfQueues 0x77 (64 * 2 ^ 16) (0) (0) } rfl (by decide +kernel) (by and_intros <;> first | with_reducible rfl | decide +kernel | rfl),
    shown (0) (0) (0) ({ State.reset with ids := inUse [(.output, 0)], video := { State.reset.video with outs := ⟨[(0, { w1 := 64 * 2 ^ 16 + 128 * 2 ^ 29 + 30 * 2 ^ 41 + 2 ^ 49 })]⟩ } }) (by decide) rfl (by and_intros <;> first | with_reducible rfl | decide +kernel | rfl),
    shownBy (.queue 128) { State.reset with hq := vfQueues 0x78 (2 ^ 16) (0) (0) } rfl (by decide +kernel) (by and_intros <;> first | with_reducible rfl | decide +kernel | rfl),
    shown (0) (0) (0) ({ State.reset with ids := inUse [(.output, 0)], video := { State.reset.video with outs := ⟨[(0, { w1 := 64 * 2 ^ 16 + 128 * 2 ^ 29 + 30 * 2 ^ 41 + 2 ^ 49, shadow := ⟨[(0, { typ := 2, w3 := 64 * 2 ^ 28 + 64 * 2 ^ 41 }), (1, { typ := 2, w3 := 64 * 2 ^ 28 + 64 * 2 ^ 41 })]⟩ })]⟩ } }) (by decide) rfl (by and_intros <;> first | with_reducible rfl | decide +kernel | rfl),
    shown (0) (0) (0) ({ State.reset with ids := inUse [(.output, 0)], video := { State.reset.video with outs := ⟨[(0, { w1 := 2 ^ 10, shadow := ⟨[(0, { typ := 1, w2 := 2 ^ 64 })]⟩ })]⟩ } }) (by decide) rfl (by and_intros <;> first | with_reducible rfl | decide +kernel | rfl),
    shown (0) (0) (0) ({ State.reset with ids := inUse [(.output, 0)], video := { State.reset.video with outs := ⟨[(0, {  })]⟩ } }) (by decide) rfl (by and_intros <;> first | with_reducible rfl | decide +kernel | rfl),
    shown (0) (0) (0) ({ State.reset with ids := inUse [(.output, 0)], video := { State.reset.video with outs := ⟨[(0, {  })]⟩ } }) (by decide) rfl (by and_intros <;> first | with_reducible rfl | decide +kernel | rfl),
    ⟨0, { State.reset with ids := inUse [(.output, 0)], video := { State.reset.video with outs := ⟨[(0, { w1 := 64 * 2 ^ 16 + 128 * 2 ^ 29 + 30 * 2 ^ 41 + 2 ^ 49 })]⟩ } }, (by and_intros <;> decide +kernel)⟩,
    ⟨0, ({ n := 0, boundary := 2 ^ 32 * 10 ^ 9 - 10 ^ 9, startNs := 0, layers := ⟨[]⟩, latched := [] } : FrameWork), { State.reset with  ids := inUse [(.output, 0)], video := { State.reset.video with outs := ⟨[(0, { w1 := 64 * 2 ^ 16 + 128 * 2 ^ 29 + 30 * 2 ^ 41 + 2 ^ 49, work := some ({ n := 0, boundary := 2 ^ 32 * 10 ^ 9 - 10 ^ 9, startNs := 0, layers := ⟨[]⟩, latched := [] } : FrameWork) })]⟩ } }, (by and_intros <;> first | with_reducible rfl | decide +kernel | rfl)⟩,
    ⟨0, 5, ({ n := 0, boundary := 2 ^ 32 * 10 ^ 9 - 10 ^ 9, startNs := 0, layers := ⟨[(5, { typ := 1, w3 := 64 * 2 ^ 28 + 64 * 2 ^ 41 })]⟩, latched := [(5, 0)] } : FrameWork), { State.reset with ids := inUse [(.output, 0)], video := { State.reset.video with outs := ⟨[(0, { w1 := 64 * 2 ^ 16 + 128 * 2 ^ 29 + 30 * 2 ^ 41 + 2 ^ 49, work := some ({ n := 0, boundary := 2 ^ 32 * 10 ^ 9 - 10 ^ 9, startNs := 0, layers := ⟨[(5, { typ := 1, w3 := 64 * 2 ^ 28 + 64 * 2 ^ 41 })]⟩, latched := [(5, 0)] } : FrameWork) })]⟩, bufs := ⟨[(0, { width := 64, height := 64 })]⟩ }, res := 15625000 * 2 }, (by and_intros <;> decide +kernel)⟩,
    ⟨0, { State.reset with  ids := inUse [(.output, 0)], video := { State.reset.video with outs := ⟨[(0, { emit := some (0, [], false, false) })]⟩ } }, (by and_intros <;> first | with_reducible rfl | decide +kernel | rfl)⟩,
    ⟨0, 0, { State.reset with  ids := inUse [(.output, 0)], video := { State.reset.video with outs := ⟨[(0, { window := some 0 })]⟩ } }, (by and_intros <;> first | with_reducible rfl | decide +kernel | rfl)⟩,
    ⟨0, 3, { State.reset with  ids := inUse [(.output, 0)], video := { State.reset.video with outs := ⟨[(0, { w1 := 2 ^ 10, cells := ⟨[(3, { broken := true })]⟩ })]⟩ } }, (by and_intros <;> first | with_reducible rfl | decide +kernel | rfl)⟩⟩

theorem witness_video_encodes :
    (Shown 0x7B (fun r s =>
      let v := encAsked r
      let o := outputAt v.output s
      let k := poolKey o.wing v.fn
      reservedZero ([(12, 0), (21, 16), (57, 24)], [(127, 0)], [(116, 0)]) r = true ∧ encFine v = true ∧
      (identOf .output v.output s).used = true ∧ (r.owner = true ∨ o.fn = r.fn) ∧ holdsRoom (reqFn r) v.room s = true ∧
      accHas tgPartition v.part r.master bitControl s = true ∧ recordQueueRefusal r v.mode v.recQueue s = none ∧
      o.stitched = false ∧ (v.codec ≠ 0 ∨ v.deep = false) ∧ encRouted v.part o.tile s = true ∧ 3 * v.spatial ≤ (freeBufs k s).length ∧
      poolHolds (poolAt k s) (encW v o (v.spatial - 1)) (encH v o (v.spatial - 1)) v.deep = true ∧ fits v.part 1 (encLoad v o) s = true ∧
      ((encList s).filter (fun c => c.2.part == v.part)).length < ((partOf? v.part s).map (·.encCtx)).getD 0 ∧
      (lowestFree .encCtx 0 (declaredEnc s) s).isSome = true ∧ (lowestFree .source 0 131072 s).isSome = true ∧
      (encTile v.part o.tile (encLoad v o) s).isSome = true)) ∧
    (Shown 0x7C (fun r s => encNamed r s ∧ reservedZero ([(11, 0)], [(127, 0)], []) r = true ∧
      rateFine (encAt ((fld r.w1 11 0)) s).codec (encAt ((fld r.w1 11 0)) s).spatial r.w2 = true)) ∧
    (Shown 0x7C (fun r s => encNamed r s ∧ rateFine (encAt ((fld r.w1 11 0)) s).codec (encAt ((fld r.w1 11 0)) s).spatial r.w2 = false)) ∧
    (Shown 0x7D (fun r s => encNamed r s ∧ reservedZero ([(11, 0)], [], []) r = true)) ∧
    (Shown 0x7E (fun r s => encNamed r s ∧ reservedZero ([(11, 0)], [(63, 0)], [(0, 0)]) r = true)) ∧
    (Shown 0x7F (fun r s => encNamed r s ∧ reservedZero ([(11, 0)], [], []) r = true ∧ (encAt ((fld r.w1 11 0)) s).releasing = none ∧ (encAt ((fld r.w1 11 0)) s).queue = [] ∧
      (sourceAt (handleIdx (encAt ((fld r.w1 11 0)) s).source) s).readers = 0 ∧ stitchReads (encAt ((fld r.w1 11 0)) s).source s = false)) ∧
    (∃ (c : Nat) (s : State), c < 65536 ∧ (identOf .encCtx c s).used = true ∧ (encAt c s).kfInterval ≠ 0) ∧
    (∃ (c : Nat) (w : EncWork) (fed : PxBand) (x : EncLayer) (s : State), c < 65536 ∧ (identOf .encCtx c s).used = true ∧ s.body.hold = false ∧ (encAt c s).work = some w ∧ w.inputs.find? (fun b => b.band == lastFeed (encAt c s) (outputAt (encAt c s).output s) (placeIn (layerBands (encAt c s) (outputAt (encAt c s).output s)) 0 w.coded).1 (placeIn (layerBands (encAt c s) (outputAt (encAt c s).output s)) 0 w.coded).2) = some fed ∧ w.layers[(placeIn (layerBands (encAt c s) (outputAt (encAt c s).output s)) 0 w.coded).1]? = some x ∧ lastFeed (encAt c s) (outputAt (encAt c s).output s) (placeIn (layerBands (encAt c s) (outputAt (encAt c s).output s)) 0 w.coded).1 (placeIn (layerBands (encAt c s) (outputAt (encAt c s).output s)) 0 w.coded).2 < w.inputs.length) :=
  ⟨shown (2 ^ 27 + 2 ^ 29) (51 * 2 ^ 107 + 4000 * 2 ^ 85 + 2000 * 2 ^ 72 + 1000) (500 * 2 ^ 66) ({ lab with  ids := inUse [(.output, 0)], video := { lab.video with outs := ⟨[(0, { w1 := 64 * 2 ^ 16 + 128 * 2 ^ 29 + 30 * 2 ^ 41 + 2 ^ 49, tile := 16 })]⟩, pools := ⟨[(0, { want := 8, bufW := 64, bufH := 128, held := List.range 8 })]⟩ }, media := { lab.media with rooms := ⟨[(0, { held := true })]⟩ } }) (by decide) rfl (by and_intros <;> first | with_reducible rfl | decide +kernel | rfl),
    shown (0) (51 * 2 ^ 107 + 4000 * 2 ^ 85 + 2000 * 2 ^ 72 + 1000) (0) ({ State.reset with ids := inUse [(.encCtx, 0)], video := { State.reset.video with encs := ⟨[(0, { w1 := 2 ^ 27 + 2 ^ 29 })]⟩ } }) (by decide) rfl (by and_intros <;> first | with_reducible rfl | decide +kernel | rfl),
    shown (0) (0) (0) ({ State.reset with ids := inUse [(.encCtx, 0)], video := { State.reset.video with encs := ⟨[(0, { w1 := 2 ^ 27 + 2 ^ 29 })]⟩ } }) (by decide) rfl (by and_intros <;> first | with_reducible rfl | decide +kernel | rfl),
    shown (0) (0) (0) ({ State.reset with ids := inUse [(.encCtx, 0)], video := { State.reset.video with encs := ⟨[(0, {  })]⟩ } }) (by decide) rfl (by and_intros <;> first | with_reducible rfl | decide +kernel | rfl),
    shown (0) (0) (0) ({ State.reset with ids := inUse [(.encCtx, 0)], video := { State.reset.video with encs := ⟨[(0, {  })]⟩ } }) (by decide) rfl (by and_intros <;> first | with_reducible rfl | decide +kernel | rfl),
    shown (0) (0) (0) ({ State.reset with ids := inUse [(.encCtx, 0)], video := { State.reset.video with encs := ⟨[(0, {  })]⟩ } }) (by decide) rfl (by and_intros <;> first | with_reducible rfl | decide +kernel | rfl),
    ⟨0, { State.reset with  ids := inUse [(.encCtx, 0)], video := { State.reset.video with encs := ⟨[(0, { rate := 100 * 2 ^ 115 })]⟩ } }, (by and_intros <;> first | with_reducible rfl | decide +kernel | rfl)⟩,
    ⟨0, ({ frame := 0, key := false, t := 0, inputs := [({ frame := 0, band := 0 } : PxBand), ({ frame := 0, band := 1 } : PxBand)], layers := [({ target := 0, cap := 0, allot := 0, p := 0 } : EncLayer)] } : EncWork), ({ frame := 0, band := 0 } : PxBand), ({ target := 0, cap := 0, allot := 0, p := 0 } : EncLayer), { State.reset with ids := inUse [(.encCtx, 0)], video := { State.reset.video with outs := ⟨[(0, { w1 := 64 * 2 ^ 16 + 128 * 2 ^ 29 + 30 * 2 ^ 41 + 2 ^ 49 })]⟩, encs := ⟨[(0, { w1 := 2 ^ 27 + 2 ^ 29, work := some ({ frame := 0, key := false, t := 0, inputs := [({ frame := 0, band := 0 } : PxBand), ({ frame := 0, band := 1 } : PxBand)], layers := [({ target := 0, cap := 0, allot := 0, p := 0 } : EncLayer)] } : EncWork) })]⟩ } }, (by and_intros <;> first | with_reducible rfl | decide +kernel)⟩⟩

theorem witness_audio_commands :
    (Shown 0x80 (fun r s => reservedZero ([(12, 0), (21, 16), (25, 24), (45, 40)], [(20, 0), (52, 32), (84, 64), (116, 96)], [(39, 0)]) r = true ∧
      1 ≤ fld r.w1 45 40 ∧ fld r.w1 45 40 ≤ 32 ∧ (∀ p, p < 4 → profFine r.w2 p = true) ∧ roomCfgFine r.w3 = true ∧ mixes ((fld r.w1 12 0)) s = false ∧
      mayRoom r ((fld r.w1 12 0)) s = true ∧ (leastLoaded (fun t => roomsOn t s)
        ((roleTiles (fld r.w1 21 16) 3 (wingTiles (fld r.w1 25 24)) s).filter (fun t => decide (roomsOn t s < 64)))).isSome = true)) ∧
    (Shown 0x81 (fun r s =>
      let v := audRoom ((fld r.w1 12 0)) s
      let es := (if bitOf r.w1 22 = true then [(0, r.w3.toNat)] else []) ++ (if bitOf r.w1 21 = true then [(fld r.w1 20 16, fld r.w2 15 0)] else [])
      mixerNamed ((fld r.w1 12 0)) r s ∧ reservedZero ([(12, 0), (22, 16)], [(15, 0)], [(39, 0)]) r = true ∧
      (bitOf r.w1 21 = true → 1 ≤ fld r.w1 20 16 ∧ fld r.w1 20 16 < v.channels) ∧
      (bitOf r.w1 22 = true → roomCfgFine r.w3 = true ∧ (cfgK (shadowRoom v) ≤ cfgK r.w3.toNat ∨ pinsShadow ((fld r.w1 12 0)) s ≤ cfgK r.w3.toNat)) ∧
      (es.foldl (fun (t : Tab Nat) e => t.set e.1 e.2) v.shadow).size ≤ 4096)) ∧
    (Shown 0x84 (fun r s =>
      let x := audIn ((fld r.w1 15 0)) s
      let v := audRoom x.room s
      let cfg := r.w2.toNat
      inputNamed r s ∧ reservedZero ([(15, 0)], [(25, 0)], []) r = true ∧ inChannel cfg < v.channels ∧
      (inFeed cfg = true → feedsShadow x.room (inChannel cfg) ((fld r.w1 15 0)) s < 4) ∧
      (inPin cfg = true → inPin (shadowIn v ((fld r.w1 15 0)) x) = true ∨ pinsShadow x.room s < cfgK (shadowRoom v)) ∧
      (v.shadow.set (64 + (fld r.w1 15 0)) cfg).size ≤ 4096)) ∧
    (Shown 0x86 (fun r s => mixerNamed ((fld r.w1 12 0)) r s ∧ reservedZero ([(12, 0)], [], []) r = true)) ∧
    (Shown 0x8E (fun r s => mixerNamed ((fld r.w1 12 0)) r s ∧ reservedZero ([(13, 0)], [], []) r = true)) ∧
    (Shown 0x8B (fun r s => mixerNamed ((fld r.w1 12 0)) r s ∧ reservedZero ([(12, 0)], [], []) r = true ∧ roomInputs ((fld r.w1 12 0)) s = [] ∧ roomGroups ((fld r.w1 12 0)) s = [])) ∧
    (Shown 0x8B (fun r s => mixerNamed ((fld r.w1 12 0)) r s ∧ (roomInputs ((fld r.w1 12 0)) s ≠ [] ∨ roomGroups ((fld r.w1 12 0)) s ≠ []))) ∧
    (Shown 0x88 (fun r s => mixerNamed ((fld r.w1 12 0)) r s ∧ reservedZero ([(12, 0)], [(63, 0)], [(0, 0)]) r = true)) ∧
    (Shown 0x83 (fun r s =>
      let room := fld r.w1 76 64
      let i := handleIdx (fld r.w1 63 0)
      reservedZero ([(76, 0), (80, 80), (85, 81)], [(25, 0)], []) r = true ∧ bitOf r.w1 80 = false ∧
      resolve .source (fld r.w1 63 0) s = .ok i ∧ mayRoom r room s = true ∧ (r.owner = true ∨ (sourceAt i s).fn = r.fn) ∧
      (sourceAt i s).room = room ∧ attachFine room r s ∧ accHas tgPartition (audRoom room s).part r.master bitControl s = true ∧
      (sourceAt i s).isAudio = true ∧ (sourceAt i s).isGroup = false ∧ (sourceAt i s).forwardOnly = false ∧ (sourceAt i s).jit.isSome = true ∧
      fits (audRoom room s).part 3 1 s = true ∧ (inTile (audRoom room s).part (audRoom room s).tile s).isSome = true ∧
      (lowestFree .audioIn 0 65536 s).isSome = true)) ∧
    (Shown 0x83 (fun r s =>
      let room := fld r.w1 76 64
      reservedZero ([(76, 0), (80, 80), (85, 81)], [(25, 0)], []) r = true ∧ bitOf r.w1 80 = true ∧ fld r.w1 63 0 = 0 ∧ r.owner = true ∧
      (roomAt room s).held = true ∧ attachFine room r s ∧ accHas tgPartition (audRoom room s).part r.master bitControl s = true ∧
      hasRoute 0x200 ((audRoom room s).tile / 8) s = true ∧ (lowestFree .audioIn 0 65536 s).isSome = true)) ∧
    (Shown 0x87 (fun r s => inputNamed r s ∧ reservedZero ([(15, 0)], [(63, 0)], [(0, 0)]) r = true)) ∧
    (Shown 0x89 (fun r s => inputNamed r s ∧ reservedZero ([(15, 0)], [], []) r = true)) ∧
    (Shown 0x82 (fun r s =>
      let m := audRoom ((fld r.w1 12 0)) s
      mixerNamed ((fld r.w1 12 0)) r s ∧ reservedZero ([(12, 0), (20, 16), (30, 24)], [(31, 0)], []) r = true ∧ fld r.w1 20 16 < m.channels ∧
      profCodec m.profiles (fld r.w1 25 24) ≠ 0 ∧ fld r.w1 30 26 ≤ 20 ∧ fits m.part 4 (1 + fld r.w1 30 26) s = true ∧
      (groupTile m.part m.tile (1 + fld r.w1 30 26) s).isSome = true ∧ (lowestFree .source 0 131072 s).isSome = true)) ∧
    (Shown 0x8A (fun r s =>
      let i := handleIdx (fld r.w1 63 0)
      reservedZero ([(63, 0)], [], []) r = true ∧ resolve .source (fld r.w1 63 0) s = .ok i ∧ (s.audio.groups.find? i).isSome = true ∧
      mayRoom r (audGroup i s).room s = true ∧ sourceSubs i s = [])) ∧
    (Shown 0x85 (fun r s =>
      let j := handleIdx (fld r.w1 63 0)
      let k := handleIdx (subAt j s).source
      subNamed r s ∧ reservedZero ([(80, 0)], [], []) r = true ∧ resolve .source (subAt j s).source s = .ok k ∧
      (s.audio.groups.find? k).isSome = true ∧ mayRoom r (audGroup k s).room s = true ∧
      (bitOf r.w1 80 = false → (identOf .audioIn (fld r.w1 79 64) s).used = true ∧ (audIn (fld r.w1 79 64) s).room = (audGroup k s).room ∧
        (contributes (audRoom (audGroup k s).room s) (audIn (fld r.w1 79 64) s) (fld r.w1 79 64) (audGroup k s).chan = false ∨
          hasVar (audGroup k s) (fld r.w1 79 64) = true ∨ (audGroup k s).vars.length < (audGroup k s).slots)))) ∧
    (Shown 0x8C (fun r s => r.owner = true ∧ reservedZero ([(3, 0)], [(34, 0), (98, 64)], [(23, 0), (127, 64)]) r = true ∧ fld r.w3 15 0 ≤ 60000 ∧
      40 ≤ fld r.w3 22 16 ∧ fld r.w3 22 16 ≤ 120 ∧ fld r.w3 63 24 = 0 ∧ fld r.w2 63 35 = 0 ∧ fld r.w2 127 99 = 0 ∧
      (∀ k, k < 2 → subOn r.w2 k = true → mixes (subRoom r.w2 k) s = true ∧ subChan r.w2 k < (audRoom (subRoom r.w2 k) s).channels ∧
        hasRoute ((audRoom (subRoom r.w2 k) s).tile / 8) 0x200 s = true) ∧
      (bitOf r.w3 23 = true → recordQueueRefusal r 1 (fld r.w3 127 64) s = none))) ∧
    (Shown 0x8D (fun r _ => reservedZero ([(3, 0)], [(63, 0)], [(0, 0)]) r = true)) :=
  ⟨shown (2 ^ 40) (0) (8 + 10 * 2 ^ 5 + 40 * 2 ^ 10 + 10 * 2 ^ 17 + 100 * 2 ^ 24 + 5 * 2 ^ 35) ({ lab with  media := { lab.media with rooms := ⟨[(0, { held := true })]⟩ } }) (by decide) rfl (by and_intros <;> first | with_reducible rfl | decide +kernel | rfl),
    shown (2 ^ 22 + 2 ^ 21 + 2 ^ 16) (0) (8 + 10 * 2 ^ 5 + 40 * 2 ^ 10 + 10 * 2 ^ 17 + 100 * 2 ^ 24 + 5 * 2 ^ 35) ({ State.reset with media := { State.reset.media with rooms := ⟨[(0, { held := true })]⟩ }, audio := { State.reset.audio with rooms := ⟨[(0, { channels := 2 })]⟩ } }) (by decide) rfl (by and_intros <;> first | with_reducible rfl | decide +kernel | rfl),
    shown (0) (2 ^ 25 + 2 ^ 19) (0) ({ State.reset with ids := inUse [(.audioIn, 0)], media := { State.reset.media with rooms := ⟨[(0, { held := true })]⟩ }, audio := { State.reset.audio with rooms := ⟨[(0, { cfg := 8 + 10 * 2 ^ 5 + 40 * 2 ^ 10 + 10 * 2 ^ 17 + 100 * 2 ^ 24 + 5 * 2 ^ 35 })]⟩, ins := ⟨[(0, {})]⟩ } }) (by decide) rfl (by and_intros <;> first | with_reducible rfl | decide +kernel | rfl),
    shown (0) (0) (0) ({ State.reset with media := { State.reset.media with rooms := ⟨[(0, { held := true })]⟩ }, audio := { State.reset.audio with rooms := ⟨[(0, { cfg := 8 + 10 * 2 ^ 5 + 40 * 2 ^ 10 + 10 * 2 ^ 17 + 100 * 2 ^ 24 + 5 * 2 ^ 35 })]⟩ } }) (by decide) rfl (by and_intros <;> first | with_reducible rfl | decide +kernel | rfl),
    shown (0) (0) (0) ({ State.reset with media := { State.reset.media with rooms := ⟨[(0, { held := true })]⟩ }, audio := { State.reset.audio with rooms := ⟨[(0, { cfg := 8 + 10 * 2 ^ 5 + 40 * 2 ^ 10 + 10 * 2 ^ 17 + 100 * 2 ^ 24 + 5 * 2 ^ 35 })]⟩ } }) (by decide) rfl (by and_intros <;> first | with_reducible rfl | decide +kernel | rfl),
    shown (0) (0) (0) ({ State.reset with media := { State.reset.media with rooms := ⟨[(0, { held := true })]⟩ }, audio := { State.reset.audio with rooms := ⟨[(0, { cfg := 8 + 10 * 2 ^ 5 + 40 * 2 ^ 10 + 10 * 2 ^ 17 + 100 * 2 ^ 24 + 5 * 2 ^ 35 })]⟩ } }) (by decide) rfl (by and_intros <;> first | with_reducible rfl | decide +kernel | rfl),
    shown (0) (0) (0) ({ State.reset with media := { State.reset.media with rooms := ⟨[(0, { held := true })]⟩ }, audio := { State.reset.audio with rooms := ⟨[(0, { cfg := 8 + 10 * 2 ^ 5 + 40 * 2 ^ 10 + 10 * 2 ^ 17 + 100 * 2 ^ 24 + 5 * 2 ^ 35 })]⟩, ins := ⟨[(0, {})]⟩ } }) (by decide) rfl (by and_intros <;> first | with_reducible rfl | decide +kernel | rfl),
    shown (0) (0) (0) ({ State.reset with media := { State.reset.media with rooms := ⟨[(0, { held := true })]⟩ }, audio := { State.reset.audio with rooms := ⟨[(0, { cfg := 8 + 10 * 2 ^ 5 + 40 * 2 ^ 10 + 10 * 2 ^ 17 + 100 * 2 ^ 24 + 5 * 2 ^ 35 })]⟩ } }) (by decide) rfl (by and_intros <;> first | with_reducible rfl | decide +kernel | rfl),
    shown (2 * 2 ^ 56) (2 ^ 25 + 2 ^ 19) (0) ({ lab with  ids := inUse [(.source, 0)], media := { lab.media with rooms := ⟨[(0, { held := true })]⟩, sources := ⟨[(0, { w3 := 4 * 2 ^ 77, jit := some {} })]⟩ }, audio := { lab.audio with rooms := ⟨[(0, { tile := 24, cfg := 8 + 10 * 2 ^ 5 + 40 * 2 ^ 10 + 10 * 2 ^ 17 + 100 * 2 ^ 24 + 5 * 2 ^ 35 })]⟩ } }) (by decide) rfl (by and_intros <;> first | with_reducible rfl | decide +kernel | rfl),
    shown (2 ^ 80) (2 ^ 25) (0) ({ lab with  media := { lab.media with rooms := ⟨[(0, { held := true })]⟩ }, audio := { lab.audio with rooms := ⟨[(0, { tile := 24, cfg := 8 + 10 * 2 ^ 5 + 40 * 2 ^ 10 + 10 * 2 ^ 17 + 100 * 2 ^ 24 + 5 * 2 ^ 35 })]⟩ } }) (by decide) rfl (by and_intros <;> first | with_reducible rfl | decide +kernel | rfl),
    shown (0) (0) (0) ({ State.reset with ids := inUse [(.audioIn, 0)], media := { State.reset.media with rooms := ⟨[(0, { held := true })]⟩ }, audio := { State.reset.audio with rooms := ⟨[(0, { cfg := 8 + 10 * 2 ^ 5 + 40 * 2 ^ 10 + 10 * 2 ^ 17 + 100 * 2 ^ 24 + 5 * 2 ^ 35 })]⟩, ins := ⟨[(0, {})]⟩ } }) (by decide) rfl (by and_intros <;> first | with_reducible rfl | decide +kernel | rfl),
    shown (0) (0) (0) ({ State.reset with ids := inUse [(.audioIn, 0)], media := { State.reset.media with rooms := ⟨[(0, { held := true })]⟩ }, audio := { State.reset.audio with rooms := ⟨[(0, { cfg := 8 + 10 * 2 ^ 5 + 40 * 2 ^ 10 + 10 * 2 ^ 17 + 100 * 2 ^ 24 + 5 * 2 ^ 35 })]⟩, ins := ⟨[(0, {})]⟩ } }) (by decide) rfl (by and_intros <;> first | with_reducible rfl | decide +kernel | rfl),
    shown (2 * 2 ^ 26) (0) (0) ({ lab with  media := { lab.media with rooms := ⟨[(0, { held := true })]⟩ }, audio := { lab.audio with rooms := ⟨[(0, { tile := 24, profiles := 1 })]⟩ } }) (by decide) rfl (by and_intros <;> first | with_reducible rfl | decide +kernel | rfl),
    shown (2 * 2 ^ 56) (0) (0) ({ State.reset with ids := inUse [(.source, 0)], media := { State.reset.media with rooms := ⟨[(0, { held := true })]⟩ }, audio := { State.reset.audio with rooms := ⟨[(0, { cfg := 8 + 10 * 2 ^ 5 + 40 * 2 ^ 10 + 10 * 2 ^ 17 + 100 * 2 ^ 24 + 5 * 2 ^ 35 })]⟩, groups := ⟨[(0, {})]⟩ } }) (by decide) rfl (by and_intros <;> first | with_reducible rfl | decide +kernel | rfl),
    shown (3 * 2 ^ 56) (0) (0) ({ State.reset with ids := inUse [(.source, 0), (.sub, 0), (.audioIn, 0)], media := { State.reset.media with rooms := ⟨[(0, { held := true })]⟩, subs := ⟨[(0, { source := 2 * 2 ^ 56 })]⟩ }, audio := { State.reset.audio with rooms := ⟨[(0, { cfg := 8 + 10 * 2 ^ 5 + 40 * 2 ^ 10 + 10 * 2 ^ 17 + 100 * 2 ^ 24 + 5 * 2 ^ 35 })]⟩, groups := ⟨[(0, {})]⟩, ins := ⟨[(0, {})]⟩ } }) (by decide) rfl (by and_intros <;> first | with_reducible rfl | decide +kernel | rfl),
    shown (0) (2 ^ 34) (40 * 2 ^ 16) ({ lab with  media := { lab.media with rooms := ⟨[(0, { held := true })]⟩ }, audio := { lab.audio with rooms := ⟨[(0, { tile := 24 })]⟩ } }) (by decide) rfl (by and_intros <;> first | with_reducible rfl | decide +kernel | rfl),
    shown (0) (0) (0) (State.reset) (by decide) rfl (by and_intros <;> first | with_reducible rfl | decide +kernel | rfl)⟩

theorem witness_audio_blocks :
    (∃ (i k : Nat) (u : AudUnit) (rest : List AudUnit) (s : State), i < 65536 ∧ (identOf .audioIn i s).used = true ∧ s.body.hold = false ∧ (audIn i s).units = u :: rest ∧ resolve .source (audIn i s).source s = .ok k) ∧
    (∃ s : State, s.audio.last = some (cmpNow s / 1000000)) ∧
    (∃ s : State, s.audio.last ≠ some (cmpNow s / 1000000) ∧ s.body.hold = false) ∧
    (∃ s : State, s.audio.last ≠ some (cmpNow s / 1000000) ∧ s.body.hold = true) ∧
    (∃ (b : Nat) (s : State), b < 16 ∧ s.body.hold = false ∧ (audBus b s).parked = false ∧ (audBus b s).parkMs ≠ 0 ∧ (audBus b s).parkMs ≤ (audBus b s).silent) ∧
    (∃ (b : Nat) (s : State), b < 16 ∧ (audBus b s).silent < (audBus b s).parkMs) ∧
    (∃ (i : Nat) (g : AudGroup) (x : AudFrame) (rest : List AudFrame) (s : State), i < 131072 ∧ s.audio.groups.find? i = some g ∧ g.done = x :: rest ∧ s.body.hold = false) :=
  ⟨⟨0, 0, (⟨none, none⟩ : AudUnit), [], { State.reset with  ids := inUse [(.audioIn, 0), (.source, 0)], audio := { State.reset.audio with ins := ⟨[(0, { source := 2 * 2 ^ 56, units := [(⟨none, none⟩ : AudUnit)] })]⟩ } }, (by and_intros <;> first | with_reducible rfl | decide +kernel | rfl)⟩,
    ⟨{ State.reset with  audio := { State.reset.audio with last := some 0 } }, (by and_intros <;> first | with_reducible rfl | decide +kernel | rfl)⟩,
    ⟨State.reset, (by and_intros <;> first | with_reducible rfl | decide +kernel | rfl)⟩,
    ⟨{ State.reset with  body := { State.reset.body with hold := true } }, (by and_intros <;> first | with_reducible rfl | decide +kernel | rfl)⟩,
    ⟨15, { State.reset with  audio := { State.reset.audio with buses := ⟨[(15, { parkMs := 5, silent := 5 })]⟩ } }, (by and_intros <;> first | with_reducible rfl | decide +kernel | rfl)⟩,
    ⟨15, { State.reset with  audio := { State.reset.audio with buses := ⟨[(15, { parkMs := 5, silent := 4 })]⟩ } }, (by and_intros <;> first | with_reducible rfl | decide +kernel | rfl)⟩,
    ⟨131071, { done := [({ first := 0 } : AudFrame)] }, ({ first := 0 } : AudFrame), [], { State.reset with  audio := { State.reset.audio with groups := ⟨[(131071, { done := [({ first := 0 } : AudFrame)] })]⟩ } }, (by and_intros <;> first | with_reducible rfl | decide +kernel | rfl)⟩⟩

theorem witness_layers_blend :
    (∃ (alpha : Nat) (s v : Int), alpha ≤ 1024) ∧
    (∃ (o : Output) (n : Nat) (a b : LayerCfg) (t : List (Nat × LayerCfg)), a.typ = b.typ ∧ a.w3 = b.w3 ∧ ((∀ j : Nat, j < 18 ∨ 28 < j → a.w2.getLsbD j = b.w2.getLsbD j))) :=
  ⟨⟨1024, 0, 0, (by and_intros <;> first | with_reducible rfl | decide +kernel | rfl)⟩,
    ⟨({} : Output), 0, { w2 := BitVec.twoPow 128 18 }, { w2 := BitVec.twoPow 128 19 }, [], ⟨rfl, rfl, by intro j hj; simp only [BitVec.getLsbD_twoPow]; grind⟩⟩⟩

theorem witness_aes3_ports :
    (∃ (p z : Nat) (leg : Bool) (s : State), p < 32 ∧ (measureLine (senseOf p s) z (lineClass z leg)).agree < 3) ∧
    (∃ (p z : Nat) (leg : Bool) (s : State), p < 32 ∧ 3 ≤ (measureLine (senseOf p s) z (lineClass z leg)).agree) ∧
    (∃ (o : Nat) (short : Bool) (s : State), o < 16 ∧ (aesOut o s).state = 3 ∧ (aesOut o s).tripAt + 100000000 ≤ nowNs s) ∧
    (∃ (i rate : Nat) (inv al : Bool) (s : State), i < 16 ∧ (aesIn i s).enable = true ∧ (aesIn i s).locked = false ∧ ((aesIn i s).sense.line = 1 ∨ (aesIn i s).sense.line = 2) ∧ rate ≤ 2 ∧ ((aesIn i s).autoRate = true ∨ rate = (aesIn i s).rate)) ∧
    (∃ (i rate : Nat) (inv al : Bool) (s : State), i < 16 ∧ (aesIn i s).enable = true ∧ (aesIn i s).locked = false ∧ ((aesIn i s).sense.line = 1 ∨ (aesIn i s).sense.line = 2) ∧ (aesIn i s).autoRate = false ∧ rate ≠ (aesIn i s).rate) ∧
    (∃ (i rate : Nat) (inv al : Bool) (s : State), i < 16 ∧ (aesIn i s).enable = true ∧ (aesIn i s).locked = true ∧ ((aesIn i s).sense.line = 1 ∨ (aesIn i s).sense.line = 2)) ∧
    (∃ (i : Nat) (s : State), i < 16 ∧ (aesIn i s).locked = true) ∧
    (∃ (i : Nat) (a b : AesSub) (s : State), i < 16 ∧ (aesIn i s).enable = true ∧ (aesIn i s).locked = true) ∧
    (∃ (i : Nat) (bs : List Byte) (s : State), i < 16 ∧ bs.length = 24 ∧ (aesIn i s).enable = true ∧ (aesIn i s).locked = true) ∧
    (∃ (o : Nat) (x : Int × Int) (xs : List (Int × Int)) (s : State), o < 16 ∧ ((aesOut o s).state = 1 ∨ (aesOut o s).state = 3) ∧ (aesOut o s).buf = x :: xs ∧ s.body.hold = false) ∧
    (∃ (o : Nat) (s : State), o < 16 ∧ ((aesOut o s).state = 1 ∨ (aesOut o s).state = 3) ∧ (aesOut o s).buf = [] ∧ s.body.hold = false) ∧
    (∃ (p : Nat) (s : State), 16 ≤ p ∧ p < 32 ∧ (aesOut (p - 16) s).state = 1 ∧ (aesOut (p - 16) s).frame = 0) ∧
    (∃ (p : Nat) (s : State), p < 16 ∧ (aesIn p s).locked = true) ∧
    (∃ (rate : Nat) (cs : List Byte), cs.length = 24) ∧
    (∃ (who g : Nat) (v : BitVec 64) (s : State), g < 8 ∧ mayWrite who (aesGroupOff g 8) s) ∧
    (∃ (who o n : Nat) (v : BitVec 64) (s : State), o < 16 ∧ n < 3 ∧ mayWrite who (aesOutOff o (0x10 + n * 8)) s) :=
  ⟨⟨31, 10, false, State.reset, (by and_intros <;> first | with_reducible rfl | decide +kernel | rfl)⟩,
    ⟨15, 10, false, { State.reset with  aes := { State.reset.aes with ins := ⟨[(15, { sense := { cand := 3, agree := 2 } })]⟩ } }, (by and_intros <;> first | with_reducible rfl | decide +kernel | rfl)⟩,
    ⟨15, true, { State.reset with  aes := { State.reset.aes with outs := ⟨[(15, { state := 3 })]⟩ }, res := 15625000 }, (by and_intros <;> first | with_reducible rfl | decide +kernel | rfl)⟩,
    ⟨15, 2, true, false, { State.reset with  aes := { State.reset.aes with ins := ⟨[(15, { enable := true, sense := { line := 1 } })]⟩ } }, (by and_intros <;> first | with_reducible rfl | decide +kernel | rfl)⟩,
    ⟨15, 2, true, false, { State.reset with  aes := { State.reset.aes with ins := ⟨[(15, { enable := true, autoRate := false, sense := { line := 2 } })]⟩ } }, (by and_intros <;> first | with_reducible rfl | decide +kernel | rfl)⟩,
    ⟨15, 2, true, false, { State.reset with  aes := { State.reset.aes with ins := ⟨[(15, { enable := true, locked := true, sense := { line := 1 } })]⟩ } }, (by and_intros <;> first | with_reducible rfl | decide +kernel | rfl)⟩,
    ⟨0, { State.reset with  aes := { State.reset.aes with ins := ⟨[(0, { locked := true })]⟩ } }, (by and_intros <;> first | with_reducible rfl | decide +kernel | rfl)⟩,
    ⟨0, ⟨5, false, false, true, true⟩, ⟨6, false, false, false, true⟩, { State.reset with  aes := { State.reset.aes with ins := ⟨[(0, { enable := true, locked := true })]⟩ } }, (by and_intros <;> first | with_reducible rfl | decide +kernel | rfl)⟩,
    ⟨15, List.replicate 24 0, { State.reset with  aes := { State.reset.aes with ins := ⟨[(15, { enable := true, locked := true })]⟩ } }, (by and_intros <;> first | with_reducible rfl | decide +kernel | rfl)⟩,
    ⟨0, (1, 2), [], { State.reset with  aes := { State.reset.aes with outs := ⟨[(0, { state := 3, buf := [(1, 2)] })]⟩ } }, (by and_intros <;> first | with_reducible rfl | decide +kernel | rfl)⟩,
    ⟨15, { State.reset with  aes := { State.reset.aes with outs := ⟨[(15, { state := 1 })]⟩ } }, (by and_intros <;> first | with_reducible rfl | decide +kernel | rfl)⟩,
    ⟨31, { State.reset with  aes := { State.reset.aes with outs := ⟨[(15, { state := 1 })]⟩ } }, (by and_intros <;> first | with_reducible rfl | decide +kernel | rfl)⟩,
    ⟨15, { State.reset with  aes := { State.reset.aes with ins := ⟨[(15, { locked := true })]⟩ } }, (by and_intros <;> first | with_reducible rfl | decide +kernel | rfl)⟩,
    ⟨0, List.replicate 24 0, (by and_intros <;> first | with_reducible rfl | decide +kernel | rfl)⟩,
    ⟨64, 7, 0, State.reset, (by and_intros <;> first | with_reducible rfl | decide +kernel | rfl)⟩,
    ⟨64, 15, 2, 0, State.reset, (by and_intros <;> first | with_reducible rfl | decide +kernel)⟩⟩

theorem witness_lane_service :
    (∃ (who g : Nat) (w : BitVec 64) (s : State), g < 16 ∧ mayWrite who (laneGroupOff g 0) s ∧ fld w 1 0 = 3) ∧
    (∃ (who g : Nat) (w : BitVec 64) (s : State), g < 16 ∧ mayWrite who (laneGroupOff g 0) s ∧ fld w 1 0 ≠ 3 ∧ laneGroupWord (groupCfg g s) ≠ pack64 [(8, 1, fld w 8 8), (4, 2, fld w 5 4), (0, 2, fld w 1 0)] ∧ groupNamed g s = true) ∧
    (∃ (who g : Nat) (w : BitVec 64) (s : State), g < 16 ∧ mayWrite who (laneGroupOff g 0) s ∧ fld w 1 0 ≠ 3 ∧ laneGroupWord (groupCfg g s) ≠ pack64 [(8, 1, fld w 8 8), (4, 2, fld w 5 4), (0, 2, fld w 1 0)] ∧ groupNamed g s = false) ∧
    (∃ (l : Nat) (s : State), l < 128 ∧ (laneGroup l s).personality ≠ 0) ∧
    (∃ (l : Nat) (s : State), l < 128 ∧ (laneGroup l s).personality ≠ 0) ∧
    (∃ (l : Nat) (s : State), l < 128 ∧ (laneGroup l s).personality ≠ 0) ∧
    (∃ (l : Nat) (s : State), l < 128 ∧ (laneGroup l s).personality ≠ 0) ∧
    (∃ (l : Nat) (s : State), ((isTremund l s = true ∨ isEth l s = true)) ∧ (laneGroup l s).width ≤ 3 ∧ (laneOf l s).state = 3 ∧ mayTrain l s = true) ∧
    (∃ (l : Nat) (s : State), (laneGroup l s).personality = 0 ∧ l < 128) ∧
    (∃ (g : Nat) (s : State), g < 16 ∧ (groupCfg g s).personality ≠ 0 ∧ (groupCfg g s).pllLock = false) ∧
    (∃ (p inv : Nat) (s : State), p < 128 ∧ inv < 256 ∧ isPort p s = true ∧ isEth p s = true ∧ (laneGroup p s).pllLock = true ∧ (∀ l ∈ portLanes p s, mayTrain l s = true ∧ (laneOf l s).los = false ∧ laneUp l s = false)) ∧
    (∃ (l : Nat) (s : State), l < 128 ∧ ((isTremund l s = true ∨ isEth l s = true)) ∧ (laneOf l s).short = false) ∧
    (∃ (l : Nat) (short : Bool) (s : State), l < 128 ∧ (laneOf l s).short = true ∧ (laneOf l s).shortAt + 100000000 ≤ nowNs s) ∧
    (∃ (who l : Nat) (s : State), l < 128 ∧ mayWrite who (laneOff l 0x10) s ∧ mayTrain l s = true ∧ ((isTremund l s = true ∨ isEth l s = true))) ∧
    (∃ (who l : Nat) (s : State), l < 128 ∧ mayWrite who (laneOff l 0x10) s ∧ ((isTremund l s = true ∨ isEth l s = true)) ∧ (laneOf l s).holdDown = false ∧ (laneOf l s).short = false ∧ (laneOf l s).loop = 0) ∧
    (∃ (who l : Nat) (s : State), l < 128 ∧ mayWrite who (laneOff l 0x10) s ∧ (laneOf l s).holdDown = true) ∧
    (∃ (who l : Nat) (w : BitVec 64) (s : State), l < 128 ∧ mayWrite who (laneOff l 0x18) s ∧ (3 < fld w 2 0 ∨ fld w 5 4 = 3)) ∧
    (∃ (who l : Nat) (w : BitVec 64) (s : State), l < 128 ∧ mayWrite who (laneOff l 0x18) s ∧ ((isTremund l s = true ∨ isEth l s = true)) ∧ 1 ≤ fld w 2 0 ∧ fld w 2 0 ≤ 3 ∧ fld w 5 4 ≠ 3 ∧ (laneOf l s).loop = 0 ∧ (laneOf l s).short = false) :=
  ⟨⟨64, 15, 3, State.reset, (by and_intros <;> first | with_reducible rfl | decide +kernel | rfl)⟩,
    ⟨64, 15, 1, { State.reset with  ids := inUse [(.leg, 0)], media := { State.reset.media with legs := ⟨[(0, { w2 := 120 * 2 ^ 120 })]⟩ } }, (by and_intros <;> first | with_reducible rfl | decide +kernel | rfl)⟩,
    ⟨64, 15, 1, State.reset, (by and_intros <;> first | with_reducible rfl | decide +kernel | rfl)⟩,
    ⟨127, { State.reset with  lanes := { State.reset.lanes with groups := ⟨[(15, { personality := 2 })]⟩, lanes := ⟨[(127, {  })]⟩ } }, (by and_intros <;> first | with_reducible rfl | decide +kernel | rfl)⟩,
    ⟨0, { State.reset with  lanes := { State.reset.lanes with groups := ⟨[(0, { personality := 2 })]⟩, lanes := ⟨[(0, {  })]⟩ } }, (by and_intros <;> first | with_reducible rfl | decide +kernel | rfl)⟩,
    ⟨0, { State.reset with  lanes := { State.reset.lanes with groups := ⟨[(0, { personality := 2 })]⟩, lanes := ⟨[(0, {  })]⟩ } }, (by and_intros <;> first | with_reducible rfl | decide +kernel | rfl)⟩,
    ⟨0, { State.reset with  lanes := { State.reset.lanes with groups := ⟨[(0, { personality := 2 })]⟩, lanes := ⟨[(0, {  })]⟩ } }, (by and_intros <;> first | with_reducible rfl | decide +kernel | rfl)⟩,
    ⟨127, { State.reset with  lanes := { State.reset.lanes with groups := ⟨[(15, { personality := 2 })]⟩, lanes := ⟨[(127, { state := 3 })]⟩ } }, (by and_intros <;> first | with_reducible rfl | decide +kernel | rfl)⟩,
    ⟨127, State.reset, (by and_intros <;> first | with_reducible rfl | decide +kernel | rfl)⟩,
    ⟨15, { State.reset with  lanes := { State.reset.lanes with groups := ⟨[(15, { personality := 2 })]⟩, lanes := ⟨[(127, {  })]⟩ } }, (by and_intros <;> first | with_reducible rfl | decide +kernel | rfl)⟩,
    ⟨127, 255, { State.reset with  lanes := { State.reset.lanes with groups := ⟨[(15, { personality := 1, pllLock := true })]⟩, lanes := ⟨[(127, { los := false })]⟩ } }, (by and_intros <;> first | with_reducible rfl | decide +kernel | rfl)⟩,
    ⟨127, { State.reset with  lanes := { State.reset.lanes with groups := ⟨[(15, { personality := 2 })]⟩, lanes := ⟨[(127, {  })]⟩ } }, (by and_intros <;> first | with_reducible rfl | decide +kernel | rfl)⟩,
    ⟨127, false, { State.reset with  lanes := { State.reset.lanes with groups := ⟨[(15, { personality := 2 })]⟩, lanes := ⟨[(127, { short := true })]⟩ }, res := 15625000 }, (by and_intros <;> first | with_reducible rfl | decide +kernel | rfl)⟩,
    ⟨64, 127, { State.reset with  lanes := { State.reset.lanes with groups := ⟨[(15, { personality := 2 })]⟩, lanes := ⟨[(127, {  })]⟩ } }, (by and_intros <;> first | with_reducible rfl | decide +kernel | rfl)⟩,
    ⟨64, 127, { State.reset with  lanes := { State.reset.lanes with groups := ⟨[(15, { personality := 2 })]⟩, lanes := ⟨[(127, {  })]⟩ } }, (by and_intros <;> first | with_reducible rfl | decide +kernel | rfl)⟩,
    ⟨64, 127, { State.reset with  lanes := { State.reset.lanes with groups := ⟨[(15, { personality := 2 })]⟩, lanes := ⟨[(127, { holdDown := true })]⟩ } }, (by and_intros <;> first | with_reducible rfl | decide +kernel | rfl)⟩,
    ⟨64, 127, 4, State.reset, (by and_intros <;> first | with_reducible rfl | decide +kernel | rfl)⟩,
    ⟨64, 127, 3, { State.reset with  lanes := { State.reset.lanes with groups := ⟨[(15, { personality := 2 })]⟩, lanes := ⟨[(127, {  })]⟩ } }, (by and_intros <;> first | with_reducible rfl | decide +kernel | rfl)⟩⟩

theorem witness_tremund_lanes :
    (∃ (l : Nat) (h : BitVec 128) (inv : Bool) (s : State), l < 128 ∧ isTremund l s = true ∧ (laneGroup l s).pllLock = true ∧ mayTrain l s = true ∧ (laneOf l s).los = false ∧ (laneOf l s).waitUntil = none ∧ headerOk h = true ∧ ((laneOf l s).state = 1 ∨ (laneOf l s).state = 2)) ∧
    (∃ (l : Nat) (s : State), l < 128 ∧ isTremund l s = true ∧ (laneGroup l s).pllLock = true ∧ ((laneOf l s).state = 1 ∨ (laneOf l s).state = 2) ∧ (laneOf l s).los = false ∧ (laneOf l s).waitUntil = none ∧ (laneOf l s).stepAt + stepBound (laneOf l s).step ≤ nowNs s) ∧
    (∃ (l at_ : Nat) (s : State), l < 128 ∧ (laneOf l s).waitUntil = some at_) ∧
    (∃ (l : Nat) (h : BitVec 128) (ws : List (BitVec 128)) (crc : BitVec 32) (s : State), l < 128 ∧ ws.length = 64 ∧ isTremund l s = true ∧ s.body.hold = false ∧ ((laneOf l s).state = 2 ∨ (laneOf l s).state = 3) ∧ fld h 127 112 = 0x7E5A) ∧
    (∃ (l : Nat) (h : BitVec 128) (ws : List (BitVec 128)) (crc : BitVec 32) (s : State), l < 128 ∧ ws.length = 64 ∧ isTremund l s = true ∧ s.body.hold = false ∧ ((laneOf l s).state = 2 ∨ (laneOf l s).state = 3) ∧ fld h 127 112 ≠ 0x7E5A ∧ 3 ≤ (laneOf l s).rx.badSync ∧ mayTrain l s = true) ∧
    (∃ (l : Nat) (s : State), (laneOf l s).rx.fails + 1 < 8 ∧ (laneOf l s).tx.power = 0) ∧
    (∃ (l : Nat) (h : Word128) (ws : List Word128) (s : State), fld h 107 96 ≠ (laneOf l s).rx.next ∧ seqFrom (fld h 107 96) (laneOf l s).rx.next = false) ∧
    (∃ (l : Nat) (s : State), l < 128 ∧ isTremund l s = true ∧ ((laneOf l s).state = 2 ∨ (laneOf l s).state = 3) ∧ (laneOf l s).rx.discarding = true ∧ (laneOf l s).rx.nakAt + 1000 ≤ nowNs s) ∧
    (∃ (l : Nat) (s : State), l < 128 ∧ isTremund l s = true ∧ (laneOf l s).state = 3 ∧ (laneOf l s).tx.power = 0 ∧ (laneGroup l s).sleep = true ∧ (laneOf l s).tx.queue = [] ∧ (laneOf l s).tx.lastFrame + (laneGroup l s).dozeUs * 1000 ≤ nowNs s) ∧
    (∃ (l : Nat) (s : State), l < 128 ∧ isTremund l s = true ∧ (laneOf l s).state = 3 ∧ (laneOf l s).tx.power = 1 ∧ (laneGroup l s).sleep = true ∧ (laneGroup l s).idleMs ≠ 0 ∧ (laneOf l s).tx.dozeAt + (laneGroup l s).idleMs * 1000000 ≤ nowNs s) ∧
    (∃ (l : Nat) (s : State), l < 128 ∧ isTremund l s = true ∧ (laneOf l s).state = 3 ∧ (laneOf l s).tx.power ≠ 0 ∧ ((laneOf l s).tx.wakeDue = true ∨ (laneOf l s).tx.queue ≠ [])) ∧
    (∃ (l : Nat) (s : State), l < 128 ∧ isTremund l s = true ∧ (laneOf l s).state = 3 ∧ (laneOf l s).tx.power = 1 ∧ (laneOf l s).tx.refreshAt + 1000 ≤ nowNs s) ∧
    (∃ (p stream l : Nat) (s : State), p < 128 ∧ stream < 1048576 ∧ isTremund p s = true ∧ laneForStream p stream s = some l) :=
  ⟨⟨127, 0x7E5A1000000000000000000000000000, false, { State.reset with  lanes := { State.reset.lanes with groups := ⟨[(15, { personality := 2, pllLock := true })]⟩, lanes := ⟨[(127, { state := 1, los := false })]⟩ } }, (by and_intros <;> first | with_reducible rfl | decide +kernel | rfl)⟩,
    ⟨127, { State.reset with  lanes := { State.reset.lanes with groups := ⟨[(15, { personality := 2, pllLock := true })]⟩, lanes := ⟨[(127, { state := 2, los := false })]⟩ }, res := 1562500 }, (by and_intros <;> first | with_reducible rfl | decide +kernel | rfl)⟩,
    ⟨127, 5, { State.reset with  lanes := { State.reset.lanes with groups := ⟨[(15, { personality := 2 })]⟩, lanes := ⟨[(127, { waitUntil := some 5 })]⟩ } }, (by and_intros <;> first | with_reducible rfl | decide +kernel | rfl)⟩,
    ⟨127, 0x7E5A1000000000000000000000000000, List.replicate 64 0, 0, { State.reset with  lanes := { State.reset.lanes with groups := ⟨[(15, { personality := 2 })]⟩, lanes := ⟨[(127, { state := 3 })]⟩ } }, (by and_intros <;> first | with_reducible rfl | decide +kernel | rfl)⟩,
    ⟨127, 0, List.replicate 64 0, 0, { State.reset with  lanes := { State.reset.lanes with groups := ⟨[(15, { personality := 2 })]⟩, lanes := ⟨[(127, { state := 3, rx := { badSync := 3 } })]⟩ } }, (by and_intros <;> first | with_reducible rfl | decide +kernel | rfl)⟩,
    ⟨127, { State.reset with  lanes := { State.reset.lanes with groups := ⟨[(15, { personality := 2 })]⟩, lanes := ⟨[(127, { rx := { fails := 6 } })]⟩ } }, (by and_intros <;> first | with_reducible rfl | decide +kernel | rfl)⟩,
    ⟨127, 0xFFF000000000000000000000000, [], State.reset, (by and_intros <;> first | with_reducible rfl | decide +kernel | rfl)⟩,
    ⟨127, { State.reset with  lanes := { State.reset.lanes with groups := ⟨[(15, { personality := 2 })]⟩, lanes := ⟨[(127, { state := 3, rx := { discarding := true } })]⟩ }, res := 157 }, (by and_intros <;> first | with_reducible rfl | decide +kernel | rfl)⟩,
    ⟨127, { State.reset with  lanes := { State.reset.lanes with groups := ⟨[(15, { personality := 2 })]⟩, lanes := ⟨[(127, { state := 3 })]⟩ }, res := 3125 }, (by and_intros <;> first | with_reducible rfl | decide +kernel | rfl)⟩,
    ⟨127, { State.reset with  lanes := { State.reset.lanes with groups := ⟨[(15, { personality := 2 })]⟩, lanes := ⟨[(127, { state := 3, tx := { power := 1 } })]⟩ }, res := 1562500 }, (by and_intros <;> first | with_reducible rfl | decide +kernel | rfl)⟩,
    ⟨127, { State.reset with  lanes := { State.reset.lanes with groups := ⟨[(15, { personality := 2 })]⟩, lanes := ⟨[(127, { state := 3, tx := { power := 2, wakeDue := true } })]⟩ } }, (by and_intros <;> first | with_reducible rfl | decide +kernel | rfl)⟩,
    ⟨127, { State.reset with  lanes := { State.reset.lanes with groups := ⟨[(15, { personality := 2 })]⟩, lanes := ⟨[(127, { state := 3, tx := { power := 1 } })]⟩ }, res := 157 }, (by and_intros <;> first | with_reducible rfl | decide +kernel | rfl)⟩,
    ⟨127, 1048575, 127, { State.reset with  lanes := { State.reset.lanes with groups := ⟨[(15, { personality := 2 })]⟩, lanes := ⟨[(127, { state := 3 })]⟩ } }, (by and_intros <;> first | with_reducible rfl | decide +kernel | rfl)⟩⟩

theorem witness_domain_membership :
    (∃ (p : Nat) (s : State), p < 128 ∧ domRuns s = true ∧ (domPorts s).contains p = true ∧ s.dom.helloAt.find? p = none) ∧
    (∃ (p at_ : Nat) (s : State), p < 128 ∧ s.dom.helloAt.find? p = some at_ ∧ nowNs s < at_ + 1000000) ∧
    (∃ (p : Nat) (m : List Byte) (s : State), p < 128 ∧ domRuns s = true ∧ 0x16 ≤ m.length ∧ msgType m = 1 ∧ (domPorts s).contains p = true ∧ msgDomain m ≠ s.dom.domainId) ∧
    (∃ (p : Nat) (m : List Byte) (s : State), p < 128 ∧ domRuns s = true ∧ 0x16 ≤ m.length ∧ msgType m = 1 ∧ (domPorts s).contains p = true ∧ msgDomain m = s.dom.domainId) ∧
    (∃ (p : Nat) (v : Neighbour) (s : State), p < 128 ∧ domRuns s = true ∧ s.dom.neighbours.find? p = some v ∧ (v.at_ + 300000000 ≤ nowNs s ∨ (domPorts s).contains p = false)) ∧
    (∃ s : State, domRuns s = true ∧ (s.dom.dirty = true ∨ s.dom.sentAt + 100000000 ≤ nowNs s)) ∧
    (∃ (p : Nat) (m : List Byte) (s : State), p < 128 ∧ mine 2 1 m s = true ∧ 0x15 + 8 * byteAt m 0x14 ≤ m.length ∧ s.dom.seen.contains (msgSerial m, msgSeq m) = true) ∧
    (∃ (p : Nat) (m : List Byte) (s : State), p < 128 ∧ mine 2 1 m s = true ∧ 0x15 + 8 * byteAt m 0x14 ≤ m.length ∧ s.dom.seen.contains (msgSerial m, msgSeq m) = false ∧ s.dom.table.find? (fun e => e.serial == msgSerial m) = none) ∧
    (∃ (n : Nat) (e : LinkEntry) (s : State), domRuns s = true ∧ s.dom.table.find? (fun x => x.serial == n) = some e ∧ (e.at_ + 300000000 ≤ nowNs s ∨ laneTo n s = none)) ∧
    (∃ (p : Nat) (m : List Byte) (s : State), p < 128 ∧ mine 5 0 m s = true ∧ s.dom.seen.contains (msgSerial m, msgSeq m) = false) ∧
    (∃ (at_ : Nat) (s : State), domRuns s = true ∧ s.dom.step ≠ 2 ∧ s.dom.changed = some at_ ∧ at_ + 20000000 ≤ nowNs s) ∧
    (∃ s : State, s.dom.changed = none) ∧
    (∃ (ns : Int) (s : State), follows s = true) ∧
    (∃ (at_ : Nat) (s : State), s.dom.state = 2 ∧ s.dom.badSince = some at_ ∧ at_ + 1000000000 ≤ nowNs s) ∧
    (∃ (p : Nat) (m : List Byte) (s : State), p < 128 ∧ mine 3 20 m s = true ∧ s.dom.coordSerial = some Config.serial) ∧
    (∃ (p q c : Nat) (m : List Byte) (s : State), p < 128 ∧ mine 3 20 m s = true ∧ s.dom.coordSerial = some c ∧ c ≠ Config.serial ∧ laneTo c s = some q ∧ q ≠ p) ∧
    (∃ (p : Nat) (m : List Byte) (s : State), p < 128 ∧ mine 4 7 m s = true ∧ s.dom.seen.contains (msgSerial m, msgSeq m) = false ∧ s.dom.coordSerial = some (msgSerial m) ∧ leAt m 0x14 6 = Config.serial ∧ s.dom.state = 1 ∧ 5 ≤ s.dom.step) ∧
    (∃ s : State, domRuns s = true ∧ s.dom.step = 2 ∧ s.dom.stepAt + domBound s ≤ nowNs s) ∧
    (∃ s : State, domRuns s = true ∧ s.dom.step = 4 ∧ s.dom.stepAt + domBound s ≤ nowNs s) ∧
    (∃ s : State, s.dom.step ≠ 0 ∧ nowNs s < s.dom.stepAt + domBound s) ∧
    (∃ (who : Nat) (v : BitVec 64) (s : State), mayWrite who 0x2000 s ∧ s.dom.enable = false ∧ bitOf v 0 = true ∧ fld v 63 32 ≠ 0) ∧
    (∃ (who : Nat) (v : BitVec 64) (s : State), mayWrite who 0x2000 s ∧ s.dom.enable = false ∧ (bitOf v 0 = false ∨ fld v 63 32 = 0)) ∧
    (∃ (who : Nat) (v : BitVec 64) (s : State), mayWrite who 0x2000 s ∧ s.dom.enable = true ∧ bitOf v 0 = false) :=
  ⟨⟨127, { State.reset with  dom := { State.reset.dom with enable := true, state := 0 }, body := { State.reset.body with booted := true }, lanes := { State.reset.lanes with groups := ⟨[(15, { personality := 2 })]⟩, lanes := ⟨[(127, { state := 3 })]⟩ } }, (by and_intros <;> first | with_reducible rfl | decide +kernel | rfl)⟩,
    ⟨127, 0, { State.reset with  dom := { State.reset.dom with enable := true, helloAt := ⟨[(127, 0)]⟩ }, body := { State.reset.body with booted := true } }, (by and_intros <;> first | with_reducible rfl | decide +kernel | rfl)⟩,
    ⟨127, leBytes 2 1 ++ leBytes 2 0 ++ leBytes 4 7 ++ leBytes 6 0 ++ leBytes 6 0 ++ List.replicate 40 0, { State.reset with  dom := { State.reset.dom with enable := true, domainId := 0 }, body := { State.reset.body with booted := true }, lanes := { State.reset.lanes with groups := ⟨[(15, { personality := 2 })]⟩, lanes := ⟨[(127, { state := 3 })]⟩ } }, (by and_intros <;> first | with_reducible rfl | decide +kernel | rfl)⟩,
    ⟨127, leBytes 2 1 ++ leBytes 2 0 ++ leBytes 4 7 ++ leBytes 6 0 ++ leBytes 6 0 ++ List.replicate 40 0, { State.reset with  dom := { State.reset.dom with enable := true, domainId := 7 }, body := { State.reset.body with booted := true }, lanes := { State.reset.lanes with groups := ⟨[(15, { personality := 2 })]⟩, lanes := ⟨[(127, { state := 3 })]⟩ } }, (by and_intros <;> first | with_reducible rfl | decide +kernel | rfl)⟩,
    ⟨127, ⟨0, 0, 0, 0⟩, { State.reset with  dom := { State.reset.dom with enable := true, neighbours := ⟨[(127, ⟨0, 0, 0, 0⟩)]⟩ }, body := { State.reset.body with booted := true } }, (by and_intros <;> first | with_reducible rfl | decide +kernel | rfl)⟩,
    ⟨{ State.reset with  dom := { State.reset.dom with enable := true, dirty := true }, body := { State.reset.body with booted := true } }, (by and_intros <;> first | with_reducible rfl | decide +kernel | rfl)⟩,
    ⟨127, leBytes 2 2 ++ leBytes 2 0 ++ leBytes 4 0 ++ leBytes 6 0 ++ leBytes 6 0 ++ List.replicate 40 0, { State.reset with  dom := { State.reset.dom with enable := true, seen := [(0, 0)] }, body := { State.reset.body with booted := true } }, (by and_intros <;> first | exact mine_of (by decide +kernel) rfl | exact serial_read rfl | with_reducible rfl | decide +kernel)⟩,
    ⟨127, leBytes 2 2 ++ leBytes 2 0 ++ leBytes 4 0 ++ leBytes 6 0 ++ leBytes 6 0 ++ List.replicate 40 0, { State.reset with  dom := { State.reset.dom with enable := true, seen := [] }, body := { State.reset.body with booted := true } }, (by and_intros <;> first | exact mine_of (by decide +kernel) rfl | exact serial_read rfl | with_reducible rfl | decide +kernel)⟩,
    ⟨0, ⟨0, 0, 0, 0, 0, []⟩, { State.reset with  dom := { State.reset.dom with enable := true, table := [⟨0, 0, 0, 0, 0, []⟩] }, body := { State.reset.body with booted := true }, res := 46875000 }, (by and_intros <;> first | with_reducible rfl | decide +kernel | rfl)⟩,
    ⟨127, leBytes 2 5 ++ leBytes 2 0 ++ leBytes 4 0 ++ leBytes 6 0 ++ leBytes 6 0 ++ List.replicate 40 0, { State.reset with  dom := { State.reset.dom with enable := true, seen := [] }, body := { State.reset.body with booted := true } }, (by and_intros <;> first | exact mine_of (by decide +kernel) rfl | exact serial_read rfl | with_reducible rfl | decide +kernel)⟩,
    ⟨0, { State.reset with  dom := { State.reset.dom with enable := true, changed := some 0 }, body := { State.reset.body with booted := true }, res := 3125000 }, (by and_intros <;> first | with_reducible rfl | decide +kernel | rfl)⟩,
    ⟨State.reset, (by and_intros <;> first | with_reducible rfl | decide +kernel | rfl)⟩,
    ⟨-5, { State.reset with  dom := { State.reset.dom with enable := true, coordSerial := some 0 }, body := { State.reset.body with booted := true } }, follows_of (by decide +kernel) rfl⟩,
    ⟨0, { State.reset with  dom := { State.reset.dom with enable := true, state := 2, badSince := some 0 }, body := { State.reset.body with booted := true }, res := 156250000 }, (by and_intros <;> first | with_reducible rfl | decide +kernel | rfl)⟩,
    ⟨127, leBytes 2 3 ++ leBytes 2 0 ++ leBytes 4 0 ++ leBytes 6 0 ++ leBytes 6 0 ++ List.replicate 40 0, { State.reset with  dom := { State.reset.dom with enable := true, coordSerial := some Config.serial }, body := { State.reset.body with booted := true } }, (by and_intros <;> first | exact mine_of (by decide +kernel) rfl | exact serial_read rfl | with_reducible rfl | decide +kernel)⟩,
    ⟨127, 126, 0, leBytes 2 3 ++ leBytes 2 0 ++ leBytes 4 0 ++ leBytes 6 0 ++ leBytes 6 0 ++ List.replicate 40 0, { State.reset with  dom := { State.reset.dom with enable := true, coordSerial := some 0, neighbours := ⟨[(126, ⟨0, 0, 0, 0⟩)]⟩ }, body := { State.reset.body with booted := true } }, ⟨by decide, mine_of (by decide +kernel) rfl, rfl, zero_ne_serial, by simp [laneTo, reach, putReach, expand, neighboursOf, serial_ne_zero, zero_ne_serial, Tab.toList, State.reset], by decide⟩⟩,
    ⟨127, leBytes 2 4 ++ leBytes 2 0 ++ leBytes 4 0 ++ leBytes 6 0 ++ leBytes 6 0 ++ leBytes 6 Config.serial ++ List.replicate 40 0, { State.reset with  dom := { State.reset.dom with enable := true, coordSerial := some 0, state := 1, step := 5 }, body := { State.reset.body with booted := true } }, (by and_intros <;> first | exact mine_of (by decide +kernel) rfl | exact serial_read rfl | with_reducible rfl | decide +kernel)⟩,
    ⟨{ State.reset with  dom := { State.reset.dom with enable := true, step := 2 }, body := { State.reset.body with booted := true }, res := 156250000 }, (by and_intros <;> first | with_reducible rfl | decide +kernel | rfl)⟩,
    ⟨{ State.reset with  dom := { State.reset.dom with enable := true, step := 4 }, body := { State.reset.body with booted := true }, res := 312500000 }, (by and_intros <;> first | with_reducible rfl | decide +kernel | rfl)⟩,
    ⟨{ State.reset with  dom := { State.reset.dom with enable := true, step := 2 }, body := { State.reset.body with booted := true } }, (by and_intros <;> first | with_reducible rfl | decide +kernel | rfl)⟩,
    ⟨64, 2 ^ 32 + 1, State.reset, (by and_intros <;> first | with_reducible rfl | decide +kernel | rfl)⟩,
    ⟨64, 2 ^ 32, State.reset, (by and_intros <;> first | with_reducible rfl | decide +kernel | rfl)⟩,
    ⟨64, 0, { State.reset with  dom := { State.reset.dom with enable := true, state := 0 }, body := { State.reset.body with booted := true } }, (by and_intros <;> first | with_reducible rfl | decide +kernel | rfl)⟩⟩

theorem witness_recorder_and_dumps :
    (Shown 0xD0 (fun r s => accHas tgRecorder 0 r.master bitRead s = true ∧ reservedZero ([(44, 0), (63, 63)], [(63, 0)], []) r = true ∧
      (bitOf r.w1 63 = true ∨ (1 ≤ fld r.w1 44 32 ∧ fld r.w1 44 32 ≤ 4096)))) ∧
    (Shown 0xD0 (fun r s => accHas tgRecorder 0 r.master bitRead s = true ∧ bitOf r.w1 63 = false ∧ (fld r.w1 44 32 = 0 ∨ 4096 < fld r.w1 44 32))) ∧
    (Shown 0xD1 (fun r s => accHas tgRecorder 0 r.master bitWrite s = true ∧ reservedZero ([(15, 0), (63, 32)], [(127, 0)], [(127, 0)]) r = true ∧
      (if r.fw = true then 0x8000 ≤ fld r.w1 15 0 ∧ fld r.w1 15 0 ≤ 0xBFFF else 0xC000 ≤ fld r.w1 15 0) ∧
      (crc32c (leBytes 2 (fld r.w1 15 0) ++ (leBytes 16 r.w2.toNat ++ leBytes 16 r.w3.toNat))).toNat = fld r.w1 63 32 ∧ s.evr.failed = false)) ∧
    (Shown 0xD2 (fun r s => accHas tgRecorder 0 r.master bitControl s = true ∧ reservedZero ([(79, 0)], [], []) r = true)) ∧
    (∃ (reason : Nat) (s : State), s.evr.failed = false) ∧
    (∃ (code origin master slot : Nat) (pl : List Byte) (s : State), 256 ≤ code ∧ s.evr.phase ≠ 1 ∧ s.evr.last = some (slot, code, origin)) ∧
    (Shown 0xD3 (fun r s =>
      let flash := bitOf r.w3 0
      r.owner = true ∧ reservedZero ([(63, 0)], [(63, 0)], [(0, 0)]) r = true ∧ fld r.w2 31 0 % 4096 = 0 ∧ 2 ≤ placeState flash s ∧
      fld r.w2 31 0 + fld r.w2 63 32 ≤ dumpExtent flash (if flash = true then s.dump.flashWriter else s.dump.writer))) ∧
    (Shown 0xD3 (fun r s => r.owner = true ∧ fld r.w2 31 0 % 4096 = 0 ∧ placeState (bitOf r.w3 0) s = 1)) ∧
    (Shown 0xD4 (fun r s => r.owner = true ∧ reservedZero ([(1, 0)], [], []) r = true ∧ (bitOf r.w1 0 = true → 2 ≤ s.dump.dramState) ∧
      (bitOf r.w1 1 = true → 2 ≤ s.dump.flashState))) ∧
    (∃ (who : Nat) (v : BitVec 64) (s : State), mayWrite who 0x400008 s ∧ (fld v 1 0 = 1 ∨ fld v 1 0 = 2)) ∧
    (∃ (who : Nat) (v : BitVec 64) (s : State), mayWrite who 0x400008 s ∧ (fld v 1 0 = 0 ∨ fld v 1 0 = 3)) ∧
    (∃ (who : Nat) (v : BitVec 64) (s : State), mayWrite who 0x400800 s) ∧
    (∃ s : State, s.dump.dramState = 1) ∧
    (∃ s : State, s.dump.flashState = 1) :=
  ⟨shown (2 ^ 32) (0) (0) (State.reset) (by decide) rfl (by and_intros <;> first | with_reducible rfl | decide +kernel | rfl),
    shown (4097 * 2 ^ 32) (0) (0) (State.reset) (by decide) rfl (by and_intros <;> first | with_reducible rfl | decide +kernel | rfl),
    shown (0x8000 + 1159719594 * 2 ^ 32) (0) (0) (State.reset) (by decide) rfl (by and_intros <;> first | with_reducible rfl | decide +kernel | rfl),
    shown (5) (0) (0) (State.reset) (by decide) rfl (by and_intros <;> first | with_reducible rfl | decide +kernel | rfl),
    ⟨3, State.reset, (by and_intros <;> first | with_reducible rfl | decide +kernel | rfl)⟩,
    ⟨0x101, 0, 0, 4096, [], { State.reset with  evr := { State.reset.evr with last := some (4096, 0x101, 0) } }, (by and_intros <;> first | with_reducible rfl | decide +kernel | rfl)⟩,
    shown (0) (4096 * 2 ^ 32) (0) ({ State.reset with dump := { State.reset.dump with dramState := 2 } }) (by decide) rfl (by and_intros <;> first | with_reducible rfl | decide +kernel | rfl),
    shown (0) (4096) (0) ({ State.reset with dump := { State.reset.dump with dramState := 1 } }) (by decide) rfl (by and_intros <;> first | with_reducible rfl | decide +kernel | rfl),
    shown (1) (0) (0) ({ State.reset with dump := { State.reset.dump with dramState := 2 } }) (by decide) rfl (by and_intros <;> first | with_reducible rfl | decide +kernel | rfl),
    ⟨64, 2, State.reset, (by and_intros <;> first | with_reducible rfl | decide +kernel | rfl)⟩,
    ⟨64, 3, State.reset, (by and_intros <;> first | with_reducible rfl | decide +kernel | rfl)⟩,
    ⟨64, 0, State.reset, (by and_intros <;> first | with_reducible rfl | decide +kernel | rfl)⟩,
    ⟨{ State.reset with  dump := { State.reset.dump with dramState := 1 } }, (by and_intros <;> first | with_reducible rfl | decide +kernel | rfl)⟩,
    ⟨{ State.reset with  dump := { State.reset.dump with flashState := 1 } }, (by and_intros <;> first | with_reducible rfl | decide +kernel | rfl)⟩⟩

theorem witness_firmware_update :
    (Shown 0xC0 (fun r s => r.owner = true ∧ reservedZero ([(95, 0)], [], []) r = true ∧ updBusy s = false ∧ fld r.w1 95 64 ≤ 67108864 ∧ s.upd.flashBad = false)) ∧
    (Shown 0xC0 (fun r s => r.owner = true ∧ reservedZero ([(95, 0)], [], []) r = true ∧ updBusy s = true)) ∧
    (Shown 0xC1 (fun r s => r.owner = true ∧ reservedZero ([], [], []) r = true ∧ updBusy s = false ∧ s.upd.staging ≠ [] ∧ s.upd.flashBad = false)) ∧
    (Shown 0xC2 (fun r s => r.owner = true ∧ reservedZero ([(63, 0)], [(32, 0)], []) r = true ∧ 10 ≤ fld r.w2 15 0 ∧
      fld r.w2 15 0 + 10 ≤ fld r.w2 31 16 ∧ s.upd.pending = false ∧ (inactiveBank s).state = 2 ∧ 1000000000 ≤ cmpDiff (fld r.w1 63 0) (cmpNow s))) ∧
    (Shown 0xC3 (fun r s => r.owner = true ∧ reservedZero ([], [], []) r = true ∧ s.upd.pending = true ∧ cmpReached (cmpNow s) s.upd.activateAt = false)) ∧
    (Shown 0xC3 (fun r s => r.owner = true ∧ reservedZero ([], [], []) r = true ∧ s.upd.pending = true ∧ cmpReached (cmpNow s) s.upd.activateAt = true)) ∧
    (Shown 0xC4 (fun r s => r.owner = true ∧ reservedZero ([], [], []) r = true ∧ trialRunning s = true ∧ fallBackDue s = false ∧ s.upd.unreadable = false ∧
      trialHealthy s = true)) ∧
    (Shown 0xC4 (fun r s => r.owner = true ∧ reservedZero ([], [], []) r = true ∧ trialRunning s = false)) ∧
    (∃ s : State, trialRunning s = true ∧ fallBackDue s = false ∧ s.upd.commitMode = false ∧ s.upd.unreadable = false ∧ trialHealthy s = true) ∧
    (∃ s : State, (trialRunning s = false ∨ s.upd.commitMode = true)) ∧
    (Shown 0xC5 (fun r s => r.owner = true ∧ reservedZero ([(63, 0)], [], []) r = true ∧ trialRunning s = true ∧ fld r.w1 63 0 = 0)) ∧
    (Shown 0xC5 (fun r s => r.owner = true ∧ reservedZero ([(63, 0)], [], []) r = true ∧ trialRunning s = true ∧ fld r.w1 63 0 ≠ 0)) ∧
    (∃ s : State, s.upd.pending = true ∧ cmpReached (cmpNow s) s.upd.activateAt = true) ∧
    (∃ s : State, (s.upd.pending = false ∨ cmpReached (cmpNow s) s.upd.activateAt = false)) :=
  ⟨shown (67108864 * 2 ^ 64) (0) (0) (State.reset) (by decide) rfl (by and_intros <;> first | with_reducible rfl | decide +kernel | rfl),
    shown (0) (0) (0) ({ State.reset with upd := { State.reset.upd with pending := true } }) (by decide) rfl (by and_intros <;> first | with_reducible rfl | decide +kernel | rfl),
    shown (0) (0) (0) ({ State.reset with upd := { State.reset.upd with staging := [1] } }) (by decide) rfl (by and_intros <;> first | with_reducible rfl | decide +kernel | rfl),
    shown (1000000000) (10 + 20 * 2 ^ 16) (0) ({ State.reset with upd := { State.reset.upd with bankB := { state := 2 } } }) (by decide) rfl (by and_intros <;> first | with_reducible rfl | decide +kernel | rfl),
    shown (0) (0) (0) ({ State.reset with upd := { State.reset.upd with pending := true, activateAt := 1 } }) (by decide) rfl (by and_intros <;> first | with_reducible rfl | decide +kernel | rfl),
    shown (0) (0) (0) ({ State.reset with upd := { State.reset.upd with pending := true } }) (by decide) rfl (by and_intros <;> first | with_reducible rfl | decide +kernel | rfl),
    shown (0) (0) (0) ({ State.reset with upd := { State.reset.upd with bankA := { state := 3 } } }) (by decide) rfl (by and_intros <;> first | with_reducible rfl | decide +kernel | rfl),
    shown (0) (0) (0) ({ State.reset with upd := { State.reset.upd with bankA := { state := 4 } } }) (by decide) rfl (by and_intros <;> first | with_reducible rfl | decide +kernel | rfl),
    ⟨{ State.reset with  upd := { State.reset.upd with bankA := { state := 3 } } }, (by and_intros <;> first | with_reducible rfl | decide +kernel | rfl)⟩,
    ⟨{ State.reset with  upd := { State.reset.upd with bankA := { state := 3 }, commitMode := true } }, (by and_intros <;> first | with_reducible rfl | decide +kernel | rfl)⟩,
    shown (0) (0) (0) ({ State.reset with upd := { State.reset.upd with bankA := { state := 3 } } }) (by decide) rfl (by and_intros <;> first | with_reducible rfl | decide +kernel | rfl),
    shown (5) (0) (0) ({ State.reset with upd := { State.reset.upd with bankA := { state := 3 } } }) (by decide) rfl (by and_intros <;> first | with_reducible rfl | decide +kernel | rfl),
    ⟨{ State.reset with  upd := { State.reset.upd with pending := true } }, (by and_intros <;> first | with_reducible rfl | decide +kernel | rfl)⟩,
    ⟨{ State.reset with  upd := { State.reset.upd with pending := true, activateAt := 1 } }, (by and_intros <;> first | with_reducible rfl | decide +kernel | rfl)⟩⟩

theorem witness_supply_and_safe_hold :
    (∃ (cv : Nat) (s : State), s.body.powered = true ∧ 3300 ≤ cv ∧ bandOf cv ≠ 0) ∧
    (∃ (cv : Nat) (s : State), s.body.powered = true ∧ 3300 ≤ cv ∧ bandOf cv = 0) ∧
    (∃ (cv : Nat) (s : State), s.body.powered = true ∧ cv < 3300) ∧
    (∃ s : State, s.body.powered = true) ∧
    (∃ (at_ : Nat) (s : State), s.body.powered = true ∧ s.body.outSince = some at_ ∧ s.body.rideDone = false ∧ at_ + 10000000 ≤ nowNs s) ∧
    (∃ s : State, s.body.outSince = none) ∧
    (∃ (c : Int) (s : State), s.body.powered = true ∧ 105 < c) ∧
    (∃ (c : Int) (s : State), s.body.powered = true ∧ 115 < c) ∧
    (∃ (c : Int) (s : State), c ≤ 105) ∧
    (∃ s : State, s.body.powered = true) ∧
    (∃ (cause : Nat) (s : State), s.body.hold = true) ∧
    (∃ (cause : Nat) (s : State), s.body.hold = false) ∧
    (∃ (n : Nat) (s : State), n < 16 ∧ s.body.powered = true ∧ cblOn n s = true ∧ s.body.cblFault.testBit n = false) ∧
    (∃ (n : Nat) (exceeds : Bool) (s : State), n < 16 ∧ s.body.cblFault.testBit n = true ∧ s.body.cblTrip.get n 0 + 100000000 ≤ nowNs s) ∧
    (∃ (n : Nat) (on : Bool) (s : State), n < 16) ∧
    (∃ s : State, mayWrite 0 0x3018 s ∧ s.body.hold = true ∧ exitAllowed s = true) ∧
    (∃ (who : Nat) (s : State), mayWrite who 0x3018 s ∧ (who ≠ 0 ∨ s.body.hold = false ∨ exitAllowed s = false)) :=
  ⟨⟨3300, { State.reset with  body := { State.reset.body with powered := true } }, (by and_intros <;> first | with_reducible rfl | decide +kernel | rfl)⟩,
    ⟨6000, { State.reset with  body := { State.reset.body with powered := true } }, (by and_intros <;> first | with_reducible rfl | decide +kernel | rfl)⟩,
    ⟨3299, { State.reset with  body := { State.reset.body with powered := true } }, (by and_intros <;> first | with_reducible rfl | decide +kernel | rfl)⟩,
    ⟨{ State.reset with  body := { State.reset.body with powered := true } }, (by and_intros <;> first | with_reducible rfl | decide +kernel | rfl)⟩,
    ⟨0, { State.reset with  body := { State.reset.body with powered := true, outSince := some 0 }, res := 1562500 }, (by and_intros <;> first | with_reducible rfl | decide +kernel | rfl)⟩,
    ⟨State.reset, (by and_intros <;> first | with_reducible rfl | decide +kernel | rfl)⟩,
    ⟨106, { State.reset with  body := { State.reset.body with powered := true } }, (by and_intros <;> first | with_reducible rfl | decide +kernel | rfl)⟩,
    ⟨116, { State.reset with  body := { State.reset.body with powered := true } }, (by and_intros <;> first | with_reducible rfl | decide +kernel | rfl)⟩,
    ⟨105, State.reset, (by and_intros <;> first | with_reducible rfl | decide +kernel | rfl)⟩,
    ⟨{ State.reset with  body := { State.reset.body with powered := true } }, (by and_intros <;> first | with_reducible rfl | decide +kernel | rfl)⟩,
    ⟨1, { State.reset with  body := { State.reset.body with hold := true } }, (by and_intros <;> first | with_reducible rfl | decide +kernel | rfl)⟩,
    ⟨1, State.reset, (by and_intros <;> first | with_reducible rfl | decide +kernel | rfl)⟩,
    ⟨15, { State.reset with  body := { State.reset.body with powered := true, cblPresent := 65535 } }, (by and_intros <;> first | with_reducible rfl | decide +kernel | rfl)⟩,
    ⟨15, true, { State.reset with  body := { State.reset.body with cblFault := 65535 }, res := 15625000 }, (by and_intros <;> first | with_reducible rfl | decide +kernel | rfl)⟩,
    ⟨15, true, State.reset, (by and_intros <;> first | with_reducible rfl | decide +kernel | rfl)⟩,
    ⟨{ State.reset with  body := { State.reset.body with hold := true, causes := 1 }, res := 156250000 }, (by and_intros <;> first | with_reducible rfl | decide +kernel | rfl)⟩,
    ⟨64, State.reset, (by and_intros <;> first | with_reducible rfl | decide +kernel | rfl)⟩⟩

theorem witness_resets_and_boot :
    (∃ s : State, s.body.powered = true) ∧
    (∃ s : State, s.body.powered = false) ∧
    (∃ s : State, mayWrite 0 0x3020 s ∧ s.body.powered = true) ∧
    (∃ (who : Nat) (s : State), mayWrite who 0x3020 s ∧ who ≠ 0) ∧
    (∃ s : State, mayWrite 0 0x3020 s ∧ s.body.hold = false ∧ s.body.booted = true) ∧
    (∃ s : State, mayWrite 0 0x3020 s ∧ s.body.hold = true) ∧
    (∃ (badTiles badStacks : List Nat) (s : State), s.body.booted = false ∧ s.body.hold = false) ∧
    (∃ (badTiles badStacks : List Nat) (s : State), (s.body.booted = true ∨ s.body.hold = true)) ∧
    (∃ (who : Nat) (v : BitVec 64) (s : State), mayWrite who 0x3038 s ∧ (who ≠ 0 ∨ (takeLow 0x3030 who s).2.body.firstCause ≠ 5)) ∧
    (∃ (v : BitVec 64) (s : State), mayWrite 0 0x3038 s ∧ (takeLow 0x3030 0 s).2.body.firstCause = 5) :=
  ⟨⟨{ State.reset with  body := { State.reset.body with powered := true } }, (by and_intros <;> first | with_reducible rfl | decide +kernel | rfl)⟩,
    ⟨{ State.reset with  body := { State.reset.body with powered := false } }, (by and_intros <;> first | with_reducible rfl | decide +kernel | rfl)⟩,
    ⟨{ State.reset with  body := { State.reset.body with powered := true } }, (by and_intros <;> first | with_reducible rfl | decide +kernel | rfl)⟩,
    ⟨64, State.reset, (by and_intros <;> first | with_reducible rfl | decide +kernel | rfl)⟩,
    ⟨{ State.reset with  body := { State.reset.body with booted := true } }, (by and_intros <;> first | with_reducible rfl | decide +kernel | rfl)⟩,
    ⟨{ State.reset with  body := { State.reset.body with hold := true } }, (by and_intros <;> first | with_reducible rfl | decide +kernel | rfl)⟩,
    ⟨[3], [1], State.reset, (by and_intros <;> first | with_reducible rfl | decide +kernel | rfl)⟩,
    ⟨[3], [1], { State.reset with  body := { State.reset.body with booted := true } }, (by and_intros <;> first | with_reducible rfl | decide +kernel | rfl)⟩,
    ⟨64, 0, State.reset, (by and_intros <;> first | with_reducible rfl | decide +kernel | rfl)⟩,
    ⟨0, { State.reset with  body := { State.reset.body with firstCause := 5 } }, (by and_intros <;> first | with_reducible rfl | decide +kernel | rfl)⟩⟩

theorem witness_dsp_control :
    (Ready 0x00 (fun _ _ _ _ _ => True)) ∧
    (Ready 0x01 (fun _ _ _ _ _ => True)) ∧
    (Ready 0x02 (fun _ _ _ _ _ => True)) ∧
    (Ready 0x03 (fun _ _ _ _ _ => True)) ∧
    (Ready 0x04 (fun _ _ _ _ _ => True)) ∧
    (Ready 0x05 (fun _ _ w c _ => (if bitOf w 25 = true then fld w 24 15 else (c.pr (fld w 24 21)).toNat) = 0)) ∧
    (Ready 0x05 (fun _ _ w c _ => (if bitOf w 25 = true then fld w 24 15 else (c.pr (fld w 24 21)).toNat) ≠ 0 ∧ c.lsp < 4)) ∧
    (Ready 0x05 (fun _ _ w c _ => (if bitOf w 25 = true then fld w 24 15 else (c.pr (fld w 24 21)).toNat) ≠ 0 ∧ 4 ≤ c.lsp)) ∧
    (Ready 0x06 (fun _ _ _ _ _ => True)) ∧
    (Ready 0x07 (fun _ _ _ _ _ => True)) ∧
    (∃ (i v : Nat) (c : DspCore), i < c.p.length) ∧
    (∃ (i v : Nat) (c : DspCore), i < c.v.length) ∧
    (∃ (tile core : Nat) (c : DspCore) (s : State), tile < 512 ∧ core < 4 ∧ dspCore? tile core s = some c ∧ dspLive tile s = true ∧ (c.run = .running ∨ c.run = .waiting) ∧ c.irqReady = true) ∧
    (∃ c : DspCore, c.irqReady = true) ∧
    (∃ (tile core : Nat) (c : DspCore) (s : State), tile < 512 ∧ core < 4 ∧ dspCore? tile core s = some c ∧ c.irqReady = false) ∧
    (∃ (tile core : Nat) (c : DspCore) (s : State), tile < 512 ∧ core < 4 ∧ dspCore? tile core s = some c ∧ dspLive tile s = true) ∧
    (∃ (who tile core : Nat) (v : BitVec 64) (c : DspCore) (s : State), tile < 512 ∧ core < 4 ∧ (who = 0 ∨ 64 ≤ who) ∧ mayWrite who (dspOff tile core 0x10) s ∧ (groupOf (tile / 8) s).role = 4 ∧ dspCore? tile core s = some c) ∧
    (∃ row ∈ dspRows, ∃ (tile core : Nat) (c : DspCore) (s : State), tile < 512 ∧ core < 4 ∧ dspCore? tile core s = some c ∧ dspLive tile s = true ∧ c.run = .running ∧ c.irqReady = false) ∧
    (∃ row ∈ dspRows, ∃ (tile core : Nat) (s : State), tile < 512 ∧ core < 4 ∧ dspCore? tile core s = none) ∧
    (∃ (tile core code : Nat) (c : DspCore) (s : State), dspCore? tile core s = some c) :=
  ⟨ready (0x00 * 2 ^ 26 + 0) { coreA with code := ⟨[(0, 0x00 * 2 ^ 26 + 0)]⟩ } (by decide +kernel) trivial,
    ready (0x01 * 2 ^ 26 + 0) { coreA with code := ⟨[(0, 0x01 * 2 ^ 26 + 0)]⟩ } (by decide +kernel) trivial,
    ready (0x02 * 2 ^ 26 + 0) { coreA with code := ⟨[(0, 0x02 * 2 ^ 26 + 0)]⟩ } (by decide +kernel) trivial,
    ready (0x03 * 2 ^ 26 + 0) { coreA with code := ⟨[(0, 0x03 * 2 ^ 26 + 0)]⟩ } (by decide +kernel) trivial,
    ready (0x04 * 2 ^ 26 + 0) { coreA with code := ⟨[(0, 0x04 * 2 ^ 26 + 0)]⟩ } (by decide +kernel) trivial,
    ready (0x05 * 2 ^ 26 + 5) { coreA with code := ⟨[(0, 0x05 * 2 ^ 26 + 5)]⟩ } (by decide +kernel) (by and_intros <;> first | with_reducible rfl | decide +kernel | rfl),
    ready (0x05 * 2 ^ 26 + 2 ^ 25 + 2 ^ 15 + 5) { coreA with code := ⟨[(0, 0x05 * 2 ^ 26 + 2 ^ 25 + 2 ^ 15 + 5)]⟩ } (by decide +kernel) (by and_intros <;> first | with_reducible rfl | decide +kernel | rfl),
    ready (0x05 * 2 ^ 26 + 2 ^ 25 + 2 ^ 15 + 5) { coreA with code := ⟨[(0, 0x05 * 2 ^ 26 + 2 ^ 25 + 2 ^ 15 + 5)]⟩, lsp := 4 } (by decide +kernel) (by and_intros <;> first | with_reducible rfl | decide +kernel | rfl),
    ready (0x06 * 2 ^ 26 + 0) { coreA with code := ⟨[(0, 0x06 * 2 ^ 26 + 0)]⟩ } (by decide +kernel) trivial,
    ready (0x07 * 2 ^ 26 + 0) { coreA with code := ⟨[(0, 0x07 * 2 ^ 26 + 0)]⟩ } (by decide +kernel) trivial,
    ⟨15, 7, coreA, (by and_intros <;> first | with_reducible rfl | decide +kernel | rfl)⟩,
    ⟨31, 7, coreA, (by and_intros <;> first | with_reducible rfl | decide +kernel | rfl)⟩,
    ⟨24, 0, { coreA with ie := true, ipend := 1, imask := 1 }, onTile { coreA with ie := true, ipend := 1, imask := 1 }, (by and_intros <;> first | with_reducible rfl | decide +kernel | rfl)⟩,
    ⟨{ coreA with ie := true, ipend := 1, imask := 1 }, (by and_intros <;> first | with_reducible rfl | decide +kernel | rfl)⟩,
    ⟨24, 0, coreA, onTile coreA, (by and_intros <;> first | with_reducible rfl | decide +kernel | rfl)⟩,
    ⟨24, 0, coreA, onTile coreA, (by and_intros <;> first | with_reducible rfl | decide +kernel | rfl)⟩,
    ⟨64, 24, 0, 0, coreA, onTile coreA, ⟨by decide, by decide, .inr (by decide), ⟨by decide, by decide +kernel⟩, by decide +kernel, rfl⟩⟩,
    ⟨(.dspNop, 0), by simp [dspRows], 24, 0, coreA, onTile coreA, (by and_intros <;> first | rfl | decide +kernel)⟩,
    ⟨(.dspNop, 0), by simp [dspRows], 24, 2, onTile coreA, (by and_intros <;> first | rfl | decide +kernel)⟩,
    ⟨24, 0, 5, coreA, onTile coreA, (by and_intros <;> first | with_reducible rfl | decide +kernel | rfl)⟩⟩

theorem witness_dsp_data :
    (Ready 0x08 (fun _ _ _ _ _ => True)) ∧
    (Ready 0x09 (fun _ _ _ _ _ => True)) ∧
    (Ready 0x0A (fun _ _ w _ _ => fld w 20 16 < 9)) ∧
    (Ready 0x0A (fun _ _ w _ _ => 9 ≤ fld w 20 16)) ∧
    (Ready 0x0B (fun _ _ w _ _ => fld w 20 16 = 1)) ∧
    (Ready 0x0B (fun _ _ w _ _ => fld w 20 16 < 9 ∧ fld w 20 16 ≠ 1)) ∧
    (Ready 0x0B (fun _ core w c _ => fld w 20 16 = 9 + core ∧ c.mail.length < 4)) ∧
    (∃ (tile core : Nat) (w : BitVec 32) (c d : DspCore) (s : State), dspReady 0x0B tile core w c s ∧ 9 ≤ fld w 20 16 ∧ fld w 20 16 ≠ 9 + core ∧ dspCore? tile (fld w 20 16 - 9) s = some d ∧ d.mail.length < 4) ∧
    (∃ (tile core : Nat) (w : BitVec 32) (c d : DspCore) (s : State), dspReady 0x0B tile core w c s ∧ 9 ≤ fld w 20 16 ∧ dspCore? tile (fld w 20 16 - 9) s = some d ∧ 4 ≤ d.mail.length) ∧
    (Ready 0x18 (fun _ _ _ _ _ => True)) ∧
    (Ready 0x19 (fun _ _ _ _ _ => True)) ∧
    (Ready 0x1A (fun _ _ _ _ _ => True)) ∧
    (Ready 0x20 (fun _ _ _ _ _ => True)) ∧
    (∃ (w : Nat) (xs : List Int) (i : Nat), i < xs.length) ∧
    (∃ (n : Nat) (v : Int), 1 ≤ n) ∧
    (∀ mode, mode < 3 → Ready (0x30 + mode) (fun _ _ _ _ _ => True)) ∧
    (∃ (mode sign : Nat) (w16 : Bool) (a : BitVec 288) (x y : BitVec 128) (i : Nat), i < laneCount w16) ∧
    (Ready 0x33 (fun _ _ w c _ => c.inWindow ((c.pr (fld w 20 17)).toNat / 16 * 16) 16 = true ∧ c.inWindow ((c.pr (fld w 16 13)).toNat / 16 * 16) 16 = true ∧
      c.inWindow ((c.modified (fld w 20 17) 16).toNat / 16 * 16) 16 = true)) ∧
    (Ready 0x33 (fun _ _ w c _ => c.inWindow ((c.pr (fld w 20 17)).toNat / 16 * 16) 16 = false ∨ c.inWindow ((c.pr (fld w 16 13)).toNat / 16 * 16) 16 = false ∨
      c.inWindow ((c.modified (fld w 20 17) 16).toNat / 16 * 16) 16 = false)) ∧
    (Ready 0x38 (fun _ _ _ _ _ => True)) ∧
    (Ready 0x39 (fun _ _ _ _ _ => True)) ∧
    (Ready 0x3A (fun _ _ w _ _ => fld w 18 17 < 3)) ∧
    (Ready 0x3A (fun _ _ w _ _ => fld w 18 17 = 3)) ∧
    (∃ (tile core : Nat) (w : BitVec 32) (c : DspCore) (s : State), dspReady 0x3B tile core w c s) ∧
    (Ready 0x3C (fun _ _ _ _ _ => True)) :=
  ⟨ready (0x08 * 2 ^ 26 + 0) { coreA with code := ⟨[(0, 0x08 * 2 ^ 26 + 0)]⟩ } (by decide +kernel) trivial,
    ready (0x09 * 2 ^ 26 + 0) { coreA with code := ⟨[(0, 0x09 * 2 ^ 26 + 0)]⟩ } (by decide +kernel) trivial,
    ready (0x0A * 2 ^ 26 + 8 * 2 ^ 16) { coreA with code := ⟨[(0, 0x0A * 2 ^ 26 + 8 * 2 ^ 16)]⟩ } (by decide +kernel) (by and_intros <;> first | with_reducible rfl | decide +kernel | rfl),
    ready (0x0A * 2 ^ 26 + 9 * 2 ^ 16) { coreA with code := ⟨[(0, 0x0A * 2 ^ 26 + 9 * 2 ^ 16)]⟩ } (by decide +kernel) (by and_intros <;> first | with_reducible rfl | decide +kernel | rfl),
    ready (0x0B * 2 ^ 26 + 2 ^ 16) { coreA with code := ⟨[(0, 0x0B * 2 ^ 26 + 2 ^ 16)]⟩ } (by decide +kernel) (by and_intros <;> first | with_reducible rfl | decide +kernel | rfl),
    ready (0x0B * 2 ^ 26 + 8 * 2 ^ 16) { coreA with code := ⟨[(0, 0x0B * 2 ^ 26 + 8 * 2 ^ 16)]⟩ } (by decide +kernel) (by and_intros <;> first | with_reducible rfl | decide +kernel | rfl),
    ready (0x0B * 2 ^ 26 + 9 * 2 ^ 16) { coreA with code := ⟨[(0, 0x0B * 2 ^ 26 + 9 * 2 ^ 16)]⟩, mail := [1, 2, 3] } (by decide +kernel) (by and_intros <;> first | with_reducible rfl | decide +kernel | rfl),
    ⟨24, 0, 0x0B * 2 ^ 26 + 10 * 2 ^ 16, { coreA with code := ⟨[(0, 0x0B * 2 ^ 26 + 10 * 2 ^ 16)]⟩ }, { mail := [1, 2, 3] }, { lab with dsp := { lab.dsp with cores := ⟨[(96, { coreA with code := ⟨[(0, 0x0B * 2 ^ 26 + 10 * 2 ^ 16)]⟩ }), (97, { mail := [1, 2, 3] })]⟩ } }, ⟨⟨by decide, by decide, rfl, by decide +kernel, rfl, by decide +kernel, rfl, by decide +kernel, by decide +kernel⟩, by decide +kernel, by decide +kernel, rfl, by decide⟩⟩,
    ⟨24, 0, 0x0B * 2 ^ 26 + 10 * 2 ^ 16, { coreA with code := ⟨[(0, 0x0B * 2 ^ 26 + 10 * 2 ^ 16)]⟩ }, { mail := [1, 2, 3, 4] }, { lab with dsp := { lab.dsp with cores := ⟨[(96, { coreA with code := ⟨[(0, 0x0B * 2 ^ 26 + 10 * 2 ^ 16)]⟩ }), (97, { mail := [1, 2, 3, 4] })]⟩ } }, ⟨⟨by decide, by decide, rfl, by decide +kernel, rfl, by decide +kernel, rfl, by decide +kernel, by decide +kernel⟩, by decide +kernel, rfl, by decide⟩⟩,
    ready (0x18 * 2 ^ 26 + 0) { coreA with code := ⟨[(0, 0x18 * 2 ^ 26 + 0)]⟩ } (by decide +kernel) trivial,
    ready (0x19 * 2 ^ 26 + 0) { coreA with code := ⟨[(0, 0x19 * 2 ^ 26 + 0)]⟩ } (by decide +kernel) trivial,
    ready (0x1A * 2 ^ 26 + 0) { coreA with code := ⟨[(0, 0x1A * 2 ^ 26 + 0)]⟩ } (by decide +kernel) trivial,
    ready (0x20 * 2 ^ 26 + 0) { coreA with code := ⟨[(0, 0x20 * 2 ^ 26 + 0)]⟩ } (by decide +kernel) trivial,
    ⟨16, [1, -1], 1, (by and_intros <;> first | with_reducible rfl | decide +kernel | rfl)⟩,
    ⟨1, -5, (by and_intros <;> first | with_reducible rfl | decide +kernel | rfl)⟩,
    fun m h => match m, h with
    | 0, _ => ready (0x30 * 2 ^ 26) { coreA with code := ⟨[(0, 0x30 * 2 ^ 26)]⟩ } (by decide +kernel) trivial
    | 1, _ => ready (0x31 * 2 ^ 26) { coreA with code := ⟨[(0, 0x31 * 2 ^ 26)]⟩ } (by decide +kernel) trivial
    | 2, _ => ready (0x32 * 2 ^ 26) { coreA with code := ⟨[(0, 0x32 * 2 ^ 26)]⟩ } (by decide +kernel) trivial,
    ⟨1, 2, true, 5, 6, 7, 7, (by and_intros <;> first | with_reducible rfl | decide +kernel | rfl)⟩,
    ready (0x33 * 2 ^ 26 + 0) { coreA with code := ⟨[(0, 0x33 * 2 ^ 26 + 0)]⟩ } (by decide +kernel) (by and_intros <;> first | with_reducible rfl | decide +kernel | rfl),
    ready (0x33 * 2 ^ 26 + 0) { coreA with code := ⟨[(0, 0x33 * 2 ^ 26 + 0)]⟩, size := 8 } (by decide +kernel) (.inl (by decide +kernel)),
    ready (0x38 * 2 ^ 26 + 0) { coreA with code := ⟨[(0, 0x38 * 2 ^ 26 + 0)]⟩ } (by decide +kernel) trivial,
    ready (0x39 * 2 ^ 26 + 0) { coreA with code := ⟨[(0, 0x39 * 2 ^ 26 + 0)]⟩ } (by decide +kernel) trivial,
    ready (0x3A * 2 ^ 26 + 2 * 2 ^ 17) { coreA with code := ⟨[(0, 0x3A * 2 ^ 26 + 2 * 2 ^ 17)]⟩ } (by decide +kernel) (by and_intros <;> first | with_reducible rfl | decide +kernel | rfl),
    ready (0x3A * 2 ^ 26 + 3 * 2 ^ 17) { coreA with code := ⟨[(0, 0x3A * 2 ^ 26 + 3 * 2 ^ 17)]⟩ } (by decide +kernel) (by and_intros <;> first | with_reducible rfl | decide +kernel | rfl),
    ⟨24, 0, 0x3B * 2 ^ 26 + 0, { coreA with code := ⟨[(0, 0x3B * 2 ^ 26 + 0)]⟩ }, onTile { coreA with code := ⟨[(0, 0x3B * 2 ^ 26 + 0)]⟩ }, ⟨by decide, by decide, rfl, by decide +kernel, rfl, by decide +kernel, rfl, by decide +kernel, by decide +kernel⟩⟩,
    ready (0x3C * 2 ^ 26 + 0) { coreA with code := ⟨[(0, 0x3C * 2 ^ 26 + 0)]⟩ } (by decide +kernel) trivial⟩

theorem witness_dsp_memory_accesses :
    (Ready 0x10 (fun _ _ w c _ => c.inWindow ((c.pr (fld w 20 17)).toNat / 16 * 16) 16 = true)) ∧
    (Ready 0x11 (fun _ _ w c _ => c.inWindow ((c.pr (fld w 20 17)).toNat / 16 * 16) 16 = true)) ∧
    (Ready 0x12 (fun _ _ w c _ => c.inWindow ((c.pr (fld w 20 17)).toNat / 4 * 4) 4 = true)) ∧
    (Ready 0x10 (fun _ _ w c _ => c.inWindow ((c.pr (fld w 20 17)).toNat / 16 * 16) 16 = false)) ∧
    (Ready 0x11 (fun _ _ w c _ => c.inWindow ((c.pr (fld w 20 17)).toNat / 16 * 16) 16 = false)) ∧
    (Ready 0x12 (fun _ _ w c _ => c.inWindow ((c.pr (fld w 20 17)).toNat / 4 * 4) 4 = false)) ∧
    (∃ (n : Nat) (m : Int) (c : DspCore), (8 ≤ n ∨ c.l.getD n 0 = 0)) ∧
    (∃ (n : Nat) (m : Int) (c : DspCore), n < 8 ∧ c.l.getD n 0 ≠ 0) ∧
    (∃ (n : Nat) (m : Int) (c : DspCore), n < 8 ∧ c.l.getD n 0 ≠ 0 ∧ (c.b.getD n 0).toNat + (c.l.getD n 0).toNat ≤ 2 ^ 32 ∧ (c.b.getD n 0).toNat ≤ (c.pr n).toNat ∧ (c.pr n).toNat < (c.b.getD n 0).toNat + (c.l.getD n 0).toNat ∧ -((c.l.getD n 0).toNat : Int) ≤ m ∧ m ≤ (c.l.getD n 0).toNat) ∧
    (∃ (c : DspCore), c.pr 1 = 0x32F0 ∧ c.b.getD 1 0 = 0x3000 ∧ c.l.getD 1 0 = 768) :=
  ⟨ready (0x10 * 2 ^ 26 + 0) { coreA with code := ⟨[(0, 0x10 * 2 ^ 26 + 0)]⟩ } (by decide +kernel) (by and_intros <;> first | with_reducible rfl | decide +kernel | rfl),
    ready (0x11 * 2 ^ 26 + 0) { coreA with code := ⟨[(0, 0x11 * 2 ^ 26 + 0)]⟩ } (by decide +kernel) (by and_intros <;> first | with_reducible rfl | decide +kernel | rfl),
    ready (0x12 * 2 ^ 26 + 0) { coreA with code := ⟨[(0, 0x12 * 2 ^ 26 + 0)]⟩ } (by decide +kernel) (by and_intros <;> first | with_reducible rfl | decide +kernel | rfl),
    ready (0x10 * 2 ^ 26 + 0) { coreA with code := ⟨[(0, 0x10 * 2 ^ 26 + 0)]⟩, base := 16 } (by decide +kernel) (by and_intros <;> first | with_reducible rfl | decide +kernel | rfl),
    ready (0x11 * 2 ^ 26 + 0) { coreA with code := ⟨[(0, 0x11 * 2 ^ 26 + 0)]⟩, base := 16 } (by decide +kernel) (by and_intros <;> first | with_reducible rfl | decide +kernel | rfl),
    ready (0x12 * 2 ^ 26 + 0) { coreA with code := ⟨[(0, 0x12 * 2 ^ 26 + 0)]⟩, base := 16 } (by decide +kernel) (by and_intros <;> first | with_reducible rfl | decide +kernel | rfl),
    ⟨0, 16, coreA, (by and_intros <;> first | with_reducible rfl | decide +kernel | rfl)⟩,
    ⟨7, 16, { coreA with l := List.replicate 8 32 }, (by and_intros <;> first | with_reducible rfl | decide +kernel | rfl)⟩,
    ⟨7, 32, { coreA with l := List.replicate 8 32 }, (by and_intros <;> first | with_reducible rfl | decide +kernel | rfl)⟩,
    ⟨{ coreA with p := [0, 0x32F0], b := [0, 0x3000], l := [0, 768] }, (by and_intros <;> first | with_reducible rfl | decide +kernel | rfl)⟩⟩

theorem witness_memory_form_kept :
    (∃ s t : State, s.memOk ∧ step s = .next t) :=
  ⟨{ State.reset with hostMem := [(5, 1)], dram := [(0, 2), (9, 3)] }, _, ⟨⟨by decide +kernel, by decide +kernel⟩, rfl⟩⟩

/-! An ill-formed term for each check of WellFormed, which the check refuses. -/

theorem test_wf_sources : (commandRows.all (fun row => !(row.1 (.queue 8192)).wf && !(row.1 (.port 64 0 0 0 0)).wf)) = true := by decide +kernel

theorem test_wf_undefined_opcode : (Instr.undefinedOpcode (.queue 8192)).wf = false := by decide

theorem test_wf_dsp : (dspRows.all (fun row => !(row.1 512 0).wf && !(row.1 0 4).wf)) = true := by decide +kernel

theorem test_wf_dsp_events : ([.pipe 512 0, .pipe 0 4, .interruptEntry 512 0, .interruptEntry 0 4] : List Instr).all (fun i => !i.wf) = true := by decide +kernel

theorem test_wf_1 : ([.registerWrite 128 0 0,
    .registerWrite 0 134217728 0,
    .wideLowWrite 128 0 0,
    .wideLowWrite 0 134217728 0,
    .wideLowRead 128 0,
    .wideLowRead 0 134217728,
    .rcCounterRead 128 0,
    .rcCounterRead 0 134217728,
    .quarantineEnd .leg 1048576,
    .dlBlockRx 10 0 (List.replicate 16 0) (List.replicate 16 0) 0 0,
    .dlBlockRx 0 2 (List.replicate 16 0) (List.replicate 16 0) 0 0,
    .dlBlockRx 0 0 (List.replicate 16 0) (List.replicate 16 0) 1024 0,
    .dlBlockRx 0 0 [] (List.replicate 16 0) 0 0,
    .dlBlockRx 0 0 (List.replicate 16 0) [] 0 0,
    .dlReplayRequest 10 0 0,
    .dlReplayRequest 0 2 0,
    .dlReplayRequest 0 0 1024,
    .dlRetrainEnd 10 false,
    .retrain 128 0,
    .retrain 0 10] : List Instr).all (fun i => !i.wf) = true := by decide +kernel

theorem test_wf_2 : ([.holdDown 128 0 false,
    .holdDown 0 10 false,
    .antennaMeasure 96 0 0,
    .posture 128 0,
    .ethFrameRx 128 [],
    .jitterDeadline 131072,
    .kfHoldEnd 131072,
    .keyframeNeeded 131072,
    .fbTimeout 1048576,
    .layerSelection 1048576,
    .scheduleSelect 128,
    .gateEntry 128,
    .eraseZeroingDone 2097152,
    .contextSnapshot 2097152,
    .rxGraceEnd 2097152,
    .restoredRecordDrop 2097152,
    .decodePictureStart 65536,
    .bandPublish 65536,
    .decodePictureEnd 65536,
    .lateRepair 65536] : List Instr).all (fun i => !i.wf) = true := by decide +kernel

theorem test_wf_3 : ([.frameBoundary 8192,
    .pxBandHandoff 8192,
    .inputWaitExpire 8192 0,
    .inputWaitExpire 0 65,
    .stFrameEmit 8192,
    .stitchKfWindowEnd 8192,
    .cellGrey 8192 0,
    .cellGrey 0 64,
    .veBandCoded 65536,
    .kfInterval 65536,
    .audioDecode 65536,
    .groupFrameCoded 131072,
    .busPark 16,
    .lineMeasure 32 0 false,
    .aesLock 16 0 false false,
    .aesUnlock 16,
    .csBlockRx 16 (List.replicate 24 0),
    .csBlockRx 0 [],
    .aesOutFrameDue 16,
    .shortTripRetry 16 false] : List Instr).all (fun i => !i.wf) = true := by decide +kernel

theorem test_wf_4 : ([.aesCsBlockStart 32,
    .aesGroupMask 128 0 0,
    .aesGroupMask 0 8 0,
    .aesOutCs 128 0 0 0,
    .aesOutCs 0 16 0 0,
    .aesOutCs 0 0 3 0,
    .laneGroupCfg 128 0 0,
    .laneGroupCfg 0 16 0,
    .laneLos 128,
    .laneLol 128 false,
    .portState 128 0,
    .portState 0 256,
    .tmBlockRx 128 0 (List.replicate 64 0) 0,
    .tmBlockRx 0 0 [] 0,
    .tmNakRepeat 128,
    .tmBringupStep 128 0 false,
    .tmStepTimeout 128,
    .tmRetryWaitEnd 128,
    .tmDoze 128,
    .tmIdle 128,
    .tmWake 128] : List Instr).all (fun i => !i.wf) = true := by decide +kernel

theorem test_wf_5 : ([.tmRefresh 128,
    .tmStreamHoldEnd 128 0,
    .tmStreamHoldEnd 0 1048576,
    .faultShort 128,
    .faultShortRetry 128 false,
    .laneRetrain 128 0,
    .laneRetrain 0 128,
    .laneHoldDown 128 0 false,
    .laneHoldDown 0 128 false,
    .laneTest 128 0 0,
    .laneTest 0 128 0,
    .ppsShort 2,
    .ppsShortRetry 2 false,
    .dramRequest 210 0 0 none 0,
    .dramRequest 0 8 0 none 0,
    .dramRequest 0 0 68719476736 none 0,
    .dramRequest 0 0 1 none 0,
    .dramRequest 0 0 0 (some []) 0,
    .rhWindowStart 8,
    .selfRefresh 8] : List Instr).all (fun i => !i.wf) = true := by decide +kernel

theorem test_wf_6 : ([.memRun 128 0,
    .memRun 0 8,
    .memPark 128 0 false,
    .memPark 0 8 false,
    .memHash 128 0 false 0 0,
    .memHash 0 8 false 0 0,
    .memHash 0 0 false 6 0,
    .accWrite 128 0,
    .accQuery 128 0,
    .hqPush 128 0 0,
    .hqPush 0 8192 0,
    .hqPop 128 0,
    .hqPop 0 8192,
    .hqCfg 128 0 0,
    .hqCfg 0 8192 0,
    .flush 128 0 0,
    .flush 0 8192 0,
    .flush 0 0 65536,
    .hardFlush 8192,
    .resume 128 0] : List Instr).all (fun i => !i.wf) = true := by decide +kernel

theorem test_wf_7 : ([.resume 0 8192,
    .arm 128 0,
    .arm 0 8192,
    .hqMirrorCons 128 0 0,
    .hqMirrorCons 0 8192 0,
    .mirrorDrain 8192,
    .queueIrqTimeout 8192,
    .workItemDispatch 64,
    .workItemEnd 64,
    .watchdog 64,
    .hello 128,
    .helloRx 128 [],
    .linkState 128 [],
    .compat 128 [],
    .domJoin 128 [],
    .domLeave 128 [],
    .neighbourLost 128,
    .domCfg 128 0,
    .phase 128 0,
    .lastGaspClear 128 0] : List Instr).all (fun i => !i.wf) = true := by decide +kernel

theorem test_wf_8 : ([.exitSafeHold 128,
    .cblPwr 16,
    .cblPwrRetry 16 false,
    .coldWrite 128,
    .warmWrite 128,
    .recoveryLoad 128 0,
    .tileDspDoorbell 128 0 0 0,
    .tileDspDoorbell 0 512 0 0,
    .tileDspDoorbell 0 0 4 0,
    .aesInFrameRx 16 ⟨0, false, false, true, true⟩ ⟨0, false, false, true, true⟩,
    .losCleared 128,
    .pllLock 16,
    .cblPresChange 16 false] : List Instr).all (fun i => !i.wf) = true := by decide +kernel

theorem test_ill_formed_is_refused : exec (.laneLos 128) State.reset = .refused .illFormed := rfl
theorem test_ill_formed_command_is_refused : exec (.vidEncKeyframe (.queue 8192)) State.reset = .refused .illFormed := rfl

/-! Results that the spec works out, or that a standard it names gives. -/

/-- The check value of CRC-32C: the bytes of "123456789". -/
theorem test_crc32c_check_value : crc32c [0x31, 0x32, 0x33, 0x34, 0x35, 0x36, 0x37, 0x38, 0x39] = 0xE3069283 := by decide +kernel

/-- AES3's first example of a CRCC. -/
theorem test_crcc_of_channel_status : crcc ([0x3D, 0x02, 0, 0, 0x02] ++ List.replicate 18 0) = 0x9B := by decide +kernel

/-- R294's example: P1 at the last vector of a ring of 48. -/
theorem test_pointer_wraps_in_ring :
    DspCore.modified { p := [0, 0x32F0], b := [0, 0x3000], l := [0, 768] } 1 16 = 0x3000 := by decide +kernel

/-- Lane 0 and the flags after `n` terms of 32,767 × 32,767, added or subtracted. -/
def terms (mode n : Nat) (a : BitVec 288 × Nat) : BitVec 288 × Nat :=
  n.repeat (fun a => ((macLanes mode 0 true a.1 32767 32767).1, a.2 ||| (macLanes mode 0 true a.1 32767 32767).2)) a

/-- R297's example, after 32 and 33 VMACs, and after 8 VMSUs more. -/
theorem test_lane_after_32_terms : (laneS (terms 0 32 (0, 0)).1 36 0, (terms 0 32 (0, 0)).2) = (34357641248, 0) := by decide +kernel
theorem test_lane_saturates : (laneS (terms 0 33 (0, 0)).1 36 0, (terms 0 33 (0, 0)).2) = (34359738367, 1) := by decide +kernel
theorem test_lane_short_after_saturation : (laneS (terms 1 8 (terms 0 33 (0, 0))).1 36 0, (terms 1 8 (terms 0 33 (0, 0))).2) = (25770328055, 1) := by
  decide +kernel

/-- The LENGTH word of R406's example. -/
theorem test_length_word : lengthWord 7 5 = 0x02007000000000000000000000000005 := by decide +kernel

/-- R406's example: VF5 has queue 642 with the packet of the example, and encode context 0x123. -/
def keyframeState : State :=
  { State.reset with
    ids := ⟨[(idKey .encCtx 0x123, { used := true })]⟩
    video := { State.reset.video with encs := ⟨[(0x123, { fn := 5, pending := false, source := 2 * 2 ^ 56 })]⟩ }
    hq := ⟨[(642, { enable := true, qgen := 7, cq := 3, next := 25, lastDone := 24,
                    visible := [⟨[0x0100000000000000000000000042007D, 0x01000000000000000000000000012300, 0x01000000000000000000000000000000,
                                  0x01000000000000000000000000000000, 0x01000000000000000000000000000000], 0⟩] }),
            (643, { enable := true, kind := 1, qgen := 3 })]⟩ }

def nextOf : Host.Outcome State Fault Refusal → State
  | .next t => t
  | _ => State.reset

/-- KEY_PENDING is set, and queue 643 receives the completion: QGEN 7, QUEUE 642, SEQ 25; OPCODE 0x7D, OK, PROGRESS 1, TAG 0x42. -/
theorem test_keyframe_command : (encAt 0x123 (nextOf (exec (.vidEncKeyframe (.queue 642)) keyframeState))).pending = true := by decide +kernel
theorem test_keyframe_completion : (queueOf 643 (nextOf (exec (.vidEncKeyframe (.queue 642)) keyframeState))).visible =
    [⟨[0x01000000000000000000714100000C80, 0x0100000000000000007D000100000042], 0⟩] := by decide +kernel

/-- The example of FIPS 197 for a key of 256 bits. -/
theorem test_aes_256_example : aesBlock ((List.range 32).map (BitVec.ofNat 8))
    [0x00, 0x11, 0x22, 0x33, 0x44, 0x55, 0x66, 0x77, 0x88, 0x99, 0xAA, 0xBB, 0xCC, 0xDD, 0xEE, 0xFF] =
    [0x8E, 0xA2, 0xB7, 0xCA, 0x51, 0x67, 0x45, 0xBF, 0xEA, 0xFC, 0x49, 0x90, 0x4B, 0x49, 0x60, 0x89] := by decide +kernel
/-- The digests of "abc" in FIPS 180-4. -/
theorem test_sha1_example : sha1 [0x61, 0x62, 0x63] =
    [0xA9, 0x99, 0x3E, 0x36, 0x47, 0x06, 0x81, 0x6A, 0xBA, 0x3E, 0x25, 0x71, 0x78, 0x50, 0xC2, 0x6C, 0x9C, 0xD0, 0xD8, 0x9D] := by decide +kernel
theorem test_sha384_example : (sha384 [0x61, 0x62, 0x63]).take 4 = [0xCB, 0x00, 0x75, 0x3F] := by decide +kernel

end Sys2Proof.Tests
end

section
/-! PROOFS. The statements of the family of the scope: memory form, wide registers, undefined opcodes, queues, the dispatcher, sources,
rooms and legs, key slots, resets. -/

namespace Sys2Proof

open Machine

/-! ## O60: every command, and the cycle of an empty queue, keep the form of the byte memories -/

/-- Each row's own law (`Laws/Kept/`) gives its arm. -/
theorem exec_keeps_memOk (c : Instr) {s : State} (h : s.memOk) : ∀ t, exec c s = .next t → t.memOk :=
  match c with
  | .registerWrite _ _ _ => kept_execRegisterWrite h
  | .wideLowWrite _ _ _ => kept_execWideLowWrite h
  | .wideLowRead _ _ => kept_execWideLowRead h
  | .rcCounterRead _ _ => kept_execRcCounterRead h
  | .undefinedOpcode _ => kept_execUndefinedOpcode h
  | .quarantineEnd _ _ => kept_execQuarantineEnd h
  | .dlBlockRx _ _ _ _ _ _ => kept_execDlBlockRx h
  | .dlReplayRequest _ _ _ => kept_execDlReplayRequest h
  | .dlRetrainEnd _ _ => kept_execDlRetrainEnd h
  | .retrain _ _ => kept_execRetrain h
  | .holdDown _ _ _ => kept_execHoldDown h
  | .antennaMeasure _ _ _ => kept_execAntennaMeasure h
  | .voltageLoopPass _ _ => kept_execVoltageLoopPass h
  | .posture _ _ => kept_execPosture h
  | .fabStoreImage _ => kept_execFabStoreImage h
  | .fabLoadFull _ => kept_execFabLoadFull h
  | .fabReloadPart _ => kept_execFabReloadPart h
  | .fabAbort _ => kept_execFabAbort h
  | .fabEnrollKey _ => kept_execFabEnrollKey h
  | .drainEnd _ => kept_execDrainEnd h
  | .drainTimeout _ => kept_execDrainTimeout h
  | .ethFrameRx _ _ => kept_execEthFrameRx h
  | .rxCipherRelease _ => kept_execRxCipherRelease h
  | .jitterDeadline _ => kept_execJitterDeadline h
  | .kfHoldEnd _ => kept_execKfHoldEnd h
  | .keyframeNeeded _ => kept_execKeyframeNeeded h
  | .fbTimeout _ => kept_execFbTimeout h
  | .layerSelection _ => kept_execLayerSelection h
  | .scheduleSelect _ => kept_execScheduleSelect h
  | .gateEntry _ => kept_execGateEntry h
  | .legRoomClaim _ => kept_execLegRoomClaim h
  | .legRoomFree _ => kept_execLegRoomFree h
  | .legCreate _ => kept_execLegCreate h
  | .legBounds _ => kept_execLegBounds h
  | .legShape _ => kept_execLegShape h
  | .legEstParam _ => kept_execLegEstParam h
  | .legRead _ => kept_execLegRead h
  | .legStats _ => kept_execLegStats h
  | .legRelease _ => kept_execLegRelease h
  | .subCreate _ => kept_execSubCreate h
  | .subBounds _ => kept_execSubBounds h
  | .subRead _ => kept_execSubRead h
  | .subRelease _ => kept_execSubRelease h
  | .legKeyframe _ => kept_execLegKeyframe h
  | .legGateList _ => kept_execLegGateList h
  | .ingSrcCreate _ => kept_execIngSrcCreate h
  | .ingSrcPolice _ => kept_execIngSrcPolice h
  | .ingSrcHistory _ => kept_execIngSrcHistory h
  | .ingSrcJitter _ => kept_execIngSrcJitter h
  | .ingSrcRead _ => kept_execIngSrcRead h
  | .ingSrcStats _ => kept_execIngSrcStats h
  | .ingSrcRelease _ => kept_execIngSrcRelease h
  | .keyProvision _ => kept_execKeyProvision h
  | .keyToken _ => kept_execKeyToken h
  | .keyKekInstall _ => kept_execKeyKekInstall h
  | .keyKekErase _ => kept_execKeyKekErase h
  | .keySlotAlloc _ => kept_execKeySlotAlloc h
  | .keySlotLoad _ => kept_execKeySlotLoad h
  | .keySlotErase _ => kept_execKeySlotErase h
  | .keySlotRelease _ => kept_execKeySlotRelease h
  | .keyCtxSave _ => kept_execKeyCtxSave h
  | .keyCtxRestore _ => kept_execKeyCtxRestore h
  | .keySlotRead _ => kept_execKeySlotRead h
  | .keyTokenRetireCheck _ => kept_execKeyTokenRetireCheck h
  | .eraseZeroingDone _ => kept_execEraseZeroingDone h
  | .contextSnapshot _ => kept_execContextSnapshot h
  | .rxGraceEnd _ => kept_execRxGraceEnd h
  | .restoredRecordDrop _ => kept_execRestoredRecordDrop h
  | .vidPoolSet _ => kept_execVidPoolSet h
  | .vidDecCreate _ => kept_execVidDecCreate h
  | .vidDecReset _ => kept_execVidDecReset h
  | .vidDecRead _ => kept_execVidDecRead h
  | .vidDecRelease _ => kept_execVidDecRelease h
  | .decodePictureStart _ => kept_execDecodePictureStart h
  | .bandPublish _ => kept_execBandPublish h
  | .decodePictureEnd _ => kept_execDecodePictureEnd h
  | .lateRepair _ => kept_execLateRepair h
  | .vidOutCreate _ => kept_execVidOutCreate h
  | .vidOutLayer _ => kept_execVidOutLayer h
  | .vidOutMatrix _ => kept_execVidOutMatrix h
  | .vidOutCommit _ => kept_execVidOutCommit h
  | .vidOutRead _ => kept_execVidOutRead h
  | .vidOutRelease _ => kept_execVidOutRelease h
  | .frameBoundary _ => kept_execFrameBoundary h
  | .pxBandHandoff _ => kept_execPxBandHandoff h
  | .inputWaitExpire _ _ => kept_execInputWaitExpire h
  | .stFrameEmit _ => kept_execStFrameEmit h
  | .stitchKfWindowEnd _ => kept_execStitchKfWindowEnd h
  | .cellGrey _ _ => kept_execCellGrey h
  | .vidEncCreate _ => kept_execVidEncCreate h
  | .vidEncRate _ => kept_execVidEncRate h
  | .vidEncKeyframe _ => kept_execVidEncKeyframe h
  | .vidEncRead _ => kept_execVidEncRead h
  | .vidEncRelease _ => kept_execVidEncRelease h
  | .veBandCoded _ => kept_execVeBandCoded h
  | .kfInterval _ => kept_execKfInterval h
  | .audRoomSetup _ => kept_execAudRoomSetup h
  | .audRoomSet _ => kept_execAudRoomSet h
  | .audGroupCreate _ => kept_execAudGroupCreate h
  | .audInAttach _ => kept_execAudInAttach h
  | .audInSet _ => kept_execAudInSet h
  | .audListen _ => kept_execAudListen h
  | .audSafeload _ => kept_execAudSafeload h
  | .audInRead _ => kept_execAudInRead h
  | .audRoomRead _ => kept_execAudRoomRead h
  | .audInRelease _ => kept_execAudInRelease h
  | .audGroupRelease _ => kept_execAudGroupRelease h
  | .audRoomRelease _ => kept_execAudRoomRelease h
  | .audBusSet _ => kept_execAudBusSet h
  | .audBusRead _ => kept_execAudBusRead h
  | .audRoomNotify _ => kept_execAudRoomNotify h
  | .audioDecode _ => kept_execAudioDecode h
  | .mixBlockStart => kept_execMixBlockStart h
  | .groupFrameCoded _ => kept_execGroupFrameCoded h
  | .busPark _ => kept_execBusPark h
  | .lineMeasure _ _ _ => kept_execLineMeasure h
  | .aesLock _ _ _ _ => kept_execAesLock h
  | .aesUnlock _ => kept_execAesUnlock h
  | .csBlockRx _ _ => kept_execCsBlockRx h
  | .aesOutFrameDue _ => kept_execAesOutFrameDue h
  | .shortTripRetry _ _ => kept_execShortTripRetry h
  | .aesCsBlockStart _ => kept_execAesCsBlockStart h
  | .aesGroupMask _ _ _ => kept_execAesGroupMask h
  | .aesOutCs _ _ _ _ => kept_execAesOutCs h
  | .laneGroupCfg _ _ _ => kept_execLaneGroupCfg h
  | .laneLos _ => kept_execLaneLos h
  | .laneLol _ _ => kept_execLaneLol h
  | .portState _ _ => kept_execPortState h
  | .tmBlockRx _ _ _ _ => kept_execTmBlockRx h
  | .tmNakRepeat _ => kept_execTmNakRepeat h
  | .tmBringupStep _ _ _ => kept_execTmBringupStep h
  | .tmStepTimeout _ => kept_execTmStepTimeout h
  | .tmRetryWaitEnd _ => kept_execTmRetryWaitEnd h
  | .tmDoze _ => kept_execTmDoze h
  | .tmIdle _ => kept_execTmIdle h
  | .tmWake _ => kept_execTmWake h
  | .tmRefresh _ => kept_execTmRefresh h
  | .tmStreamHoldEnd _ _ => kept_execTmStreamHoldEnd h
  | .faultShort _ => kept_execFaultShort h
  | .faultShortRetry _ _ => kept_execFaultShortRetry h
  | .laneRetrain _ _ => kept_execLaneRetrain h
  | .laneHoldDown _ _ _ => kept_execLaneHoldDown h
  | .laneTest _ _ _ => kept_execLaneTest h
  | .timeAdjust _ => kept_execTimeAdjust h
  | .timePtpSend _ => kept_execTimePtpSend h
  | .timePtpBind _ => kept_execTimePtpBind h
  | .slewDone => kept_execSlewDone h
  | .ppsIn _ => kept_execPpsIn h
  | .ppsOut => kept_execPpsOut h
  | .ppsShort _ => kept_execPpsShort h
  | .ppsShortRetry _ _ => kept_execPpsShortRetry h
  | .dramRequest _ _ _ _ _ => kept_execDramRequest h
  | .rhWindowStart _ => kept_execRhWindowStart h
  | .selfRefresh _ => kept_execSelfRefresh h
  | .memRun _ _ => kept_execMemRun h
  | .memPark _ _ _ => kept_execMemPark h
  | .memHash _ _ _ _ _ => kept_execMemHash h
  | .accWrite _ _ => kept_execAccWrite h
  | .accQuery _ _ => kept_execAccQuery h
  | .hqPush _ _ _ => kept_execHqPush h
  | .hqPop _ _ => kept_execHqPop h
  | .hqCfg _ _ _ => kept_execHqCfg h
  | .flush _ _ _ => kept_execFlush h
  | .hardFlush _ => kept_execHardFlush h
  | .resume _ _ => kept_execResume h
  | .arm _ _ => kept_execArm h
  | .hqMirrorCons _ _ _ => kept_execHqMirrorCons h
  | .mirrorDrain _ => kept_execMirrorDrain h
  | .queueIrqTimeout _ => kept_execQueueIrqTimeout h
  | .nop _ => kept_execNop h
  | .dispPost _ => kept_execDispPost h
  | .dispCancel _ => kept_execDispCancel h
  | .workItemDispatch _ => kept_execWorkItemDispatch h
  | .workItemEnd _ => kept_execWorkItemEnd h
  | .watchdog _ => kept_execWatchdog h
  | .heartbeat => kept_execHeartbeat h
  | .coresLost => kept_execCoresLost h
  | .hello _ => kept_execHello h
  | .helloRx _ _ => kept_execHelloRx h
  | .linkState _ _ => kept_execLinkState h
  | .linkStateSend => kept_execLinkStateSend h
  | .compat _ _ => kept_execCompat h
  | .domJoin _ _ => kept_execDomJoin h
  | .domLeave _ _ => kept_execDomLeave h
  | .neighbourLost _ => kept_execNeighbourLost h
  | .memberLost _ => kept_execMemberLost h
  | .election => kept_execElection h
  | .isolatedTime _ => kept_execIsolatedTime h
  | .domainStepTimeout => kept_execDomainStepTimeout h
  | .domCfg _ _ => kept_execDomCfg h
  | .phase _ _ => kept_execPhase h
  | .lastGaspClear _ _ => kept_execLastGaspClear h
  | .evrRead _ => kept_execEvrRead h
  | .evrWrite _ => kept_execEvrWrite h
  | .evrClear _ => kept_execEvrClear h
  | .evrDumpCopy _ => kept_execEvrDumpCopy h
  | .evrDumpRelease _ => kept_execEvrDumpRelease h
  | .fatalError => kept_execFatalError h
  | .dramDumpDone => kept_execDramDumpDone h
  | .flashSummaryDone => kept_execFlashSummaryDone h
  | .updStage _ => kept_execUpdStage h
  | .updApply _ => kept_execUpdApply h
  | .updSchedule _ => kept_execUpdSchedule h
  | .updCancel _ => kept_execUpdCancel h
  | .updCommit _ => kept_execUpdCommit h
  | .updFallback _ => kept_execUpdFallback h
  | .activateAt => kept_execActivateAt h
  | .trialCommit => kept_execTrialCommit h
  | .fallbackInstant => kept_execFallbackInstant h
  | .supplyBand _ => kept_execSupplyBand h
  | .rideThroughEnd => kept_execRideThroughEnd h
  | .powerLoss _ => kept_execPowerLoss h
  | .fuseOpen => kept_execFuseOpen h
  | .caseOver _ => kept_execCaseOver h
  | .caseTemp _ => kept_execCaseTemp h
  | .bodyIntegrity => kept_execBodyIntegrity h
  | .exitSafeHold _ => kept_execExitSafeHold h
  | .cblPwr _ => kept_execCblPwr h
  | .cblPwrRetry _ _ => kept_execCblPwrRetry h
  | .coldBoot _ _ => kept_execColdBoot h
  | .perst => kept_execPerst h
  | .serviceReset => kept_execServiceReset h
  | .coldWrite _ => kept_execColdWrite h
  | .warmWrite _ => kept_execWarmWrite h
  | .recoveryLoad _ _ => kept_execRecoveryLoad h
  | .tileDspDoorbell _ _ _ _ => kept_execTileDspDoorbell h
  | .pipe _ _ => kept_execPipe h
  | .interruptEntry _ _ => kept_execInterruptEntry h
  | .dspNop _ _ => kept_execDspNop h
  | .dspBr _ _ => kept_execDspBr h
  | .dspCall _ _ => kept_execDspCall h
  | .dspRet _ _ => kept_execDspRet h
  | .dspReti _ _ => kept_execDspReti h
  | .dspLoop _ _ => kept_execDspLoop h
  | .dspWait _ _ => kept_execDspWait h
  | .dspHalt _ _ => kept_execDspHalt h
  | .mvls _ _ => kept_execMvls h
  | .mvsl _ _ => kept_execMvsl h
  | .mvsv _ _ => kept_execMvsv h
  | .mvvs _ _ => kept_execMvvs h
  | .vld _ _ => kept_execVld h
  | .vst _ _ => kept_execVst h
  | .vldb _ _ => kept_execVldb h
  | .pset _ _ => kept_execPset h
  | .pseth _ _ => kept_execPseth h
  | .padd _ _ => kept_execPadd h
  | .valu _ _ => kept_execValu h
  | .vmac _ _ => kept_execVmac h
  | .vmsu _ _ => kept_execVmsu h
  | .vmul _ _ => kept_execVmul h
  | .ftap _ _ => kept_execFtap h
  | .accrnd _ _ => kept_execAccrnd h
  | .accclr _ _ => kept_execAccclr h
  | .accsv _ _ => kept_execAccsv h
  | .accld _ _ => kept_execAccld h
  | .acccpy _ _ => kept_execAcccpy h
  | .aesInFrameRx _ _ _ => kept_execAesInFrameRx h
  | .losCleared _ => kept_execLosCleared h
  | .pllLock _ => kept_execPllLock h
  | .cblPresChange _ _ => kept_execCblPresChange h
  | .timeAligned _ => kept_execTimeAligned h

theorem step_keeps_memOk {s t : State} (h : s.memOk) (ht : step s = .next t) : t.memOk := by
  unfold step at ht
  split at ht
  · exact next_mem (kept_tick h) t ht
  · exact exec_keeps_memOk _ (mk_mem h) t ht

/-- Settles O60: a step runs the front command or one cycle, and each keeps the form. -/
theorem memoryFormKept : Obligations.MemoryFormKept := by
  intro s t
  exact step_keeps_memOk
/-! ## Commands and identifiers -/

theorem onWf_of_wf {i : Instr} {t : State} (h : i.wf = true) : onWf i t = .next t := if_pos h

/-- A body whose answer `post` describes makes a command that completes so. -/
theorem completesSo_of {c : CmdSrc → Instr} {op : Nat} {body : Req → State → Answer} {pre : Req → State → Prop}
    {post : Req → State → State → Reply → Prop} (he : ∀ src s, src.wf = true → exec (c src) s = .next (command op body src s))
    (hb : ∀ r s, pre r s → ∃ t rep, body r s = (t, some rep) ∧ post r s t rep) : CompletesSo c op pre post := by
  intro src s s1 r hw hp hq
  obtain ⟨t, rep, hbody, hpost⟩ := hb r s1 hq
  exact ⟨t, rep, by rw [he src s hw, command_presented hp, hbody], hpost⟩

@[simp] theorem identOf_allocId (k : IdKind) (i : Nat) (s : State) :
    identOf k i (allocId k i s) = { identOf k i s with used := true, quarUntil := 0 } := by
  simp [identOf, allocId, Tab.upd]

@[simp] theorem identOf_releaseId (k : IdKind) (i : Nat) (s : State) :
    identOf k i (releaseId k i s) =
      { gen := ((identOf k i s).gen + 1) % 4096, used := false
        quarUntil := nowNs s + s.body.quarantineMs * 1000000, quarMs := s.body.quarantineMs } := by
  simp [identOf, releaseId, Tab.upd]

theorem identOf_congr {s t : State} (h : t.ids = s.ids) (k : IdKind) (i : Nat) : identOf k i t = identOf k i s := by
  simp only [identOf, h]

/-! ## O15: undefined opcodes -/

/-- Check 2 of R402 answers a descriptor whose opcode no chapter defines. -/
theorem commonCheck_undefined {w0 : Word128} {s : State} (hc : commonClear w0 = true) (ho : opcodeDefined (fld w0 7 0) = false) :
    commonCheck w0 true s = some (refuse stRefused 0xF1) := by
  simp [commonCheck, hc, ho]

/-- Settles O15: the descriptor is fetched, and check 2 answers it before any body runs. -/
theorem undefinedOpcodeRefused : Obligations.UndefinedOpcodeRefused := by
  intro src s s1 r tail hw hf hc ht ho
  subst ht
  have hrun := command_checked (mine := fun op => !opcodeDefined op) (body := fun _ s => answer s (refuse stRefused 0xF1)) hf
    (by simp [ho]) (commonCheck_undefined hc ho)
  exact (onWf_of_wf (i := .undefinedOpcode src) hw).trans (congrArg _ hrun)

/-! ## O23: NOP, DISP_POST and DISP_CANCEL -/

theorem exec_nop (src : CmdSrc) (s : State) (h : src.wf = true) : exec (.nop src) s = .next (command 0x00 nopBody src s) :=
  onWf_of_wf (i := .nop src) h

theorem exec_dispPost (src : CmdSrc) (s : State) (h : src.wf = true) :
    exec (.dispPost src) s = .next (command 0x01 dispPostBody src s) := onWf_of_wf (i := .dispPost src) h

theorem exec_dispCancel (src : CmdSrc) (s : State) (h : src.wf = true) :
    exec (.dispCancel src) s = .next (command 0x02 dispCancelBody src s) := onWf_of_wf (i := .dispCancel src) h

/-- What a post under free index `i` does (R409). -/
def posted (i : Nat) (w : WorkItem) (s : State) : State :=
  let t := allocId .work i s
  count dispPostedOff 1 { t with disp := { s.disp with
    ready := s.disp.ready ++ [{ w with handle := handleFor .work i s, posted := cmpNow s }], ended := s.disp.ended.del i } }

theorem posted_ids (i : Nat) (w : WorkItem) (s : State) : (posted i w s).ids = (allocId .work i s).ids := rfl

theorem putItem_free {w : WorkItem} {s : State} {i : Nat} (h : lowestFree .work 1 1048576 s = some i) :
    putItem w s = some (handleFor .work i s, posted i w s) := by
  simp only [putItem, h]; rfl

theorem dispPost_bad {r : Req} {s : State} (h : fld r.w1 7 0 < 0x20 ∨ 0x3F < fld r.w1 7 0 ∨ fld r.w1 11 8 < 4) :
    dispPostBody r s = (s, some (refuse stNotStarted 0x01)) := if_pos h

theorem dispPost_full {r : Req} {s : State} (h : ¬(fld r.w1 7 0 < 0x20 ∨ 0x3F < fld r.w1 7 0 ∨ fld r.w1 11 8 < 4))
    (hf : 262144 ≤ readyCount s) : dispPostBody r s = (s, some ⟨stFull, 0, 0⟩) := by
  simp only [dispPostBody, if_neg h, if_pos hf, answer]

/-- The item that DISP_POST asks for. -/
def itemAsked (r : Req) : WorkItem :=
  { forFn := r.fn, poster := r.master, host := true, prio := fld r.w1 11 8, type := fld r.w1 7 0, w2 := r.w2, w3 := r.w3 }

theorem dispPost_posts {r : Req} {s : State} {i : Nat} (h : ¬(fld r.w1 7 0 < 0x20 ∨ 0x3F < fld r.w1 7 0 ∨ fld r.w1 11 8 < 4))
    (hf : readyCount s < 262144) (hi : lowestFree .work 1 1048576 s = some i) :
    dispPostBody r s = (posted i (itemAsked r) s, some (okWith (handleFor .work i s))) := by
  simp only [dispPostBody, if_neg h, if_neg (Nat.not_le.mpr hf), putItem_free hi, answer, itemAsked]

/-- Word 1 carries a work handle whose index the dispatcher has and no ended item holds. -/
structure CancelNames (r : Req) (s : State) : Prop where
  kind : handleKind (handleIn (fld r.w1 63 0)) = 5
  pos : 0 < handleIdx (handleIn (fld r.w1 63 0))
  lt : handleIdx (handleIn (fld r.w1 63 0)) < 1048576
  ended : s.disp.ended.find? (handleIdx (handleIn (fld r.w1 63 0))) = none

/-- A ready item leaves the lists and its handle is released (R411). -/
def cancelled (h : Nat) (s : State) : State :=
  count dispCancelledOff 1 (releaseId .work (handleIdx h)
    { s with disp := { s.disp with ready := s.disp.ready.filter (fun w => w.handle != h) } })

theorem cancelled_ids (h : Nat) (s : State) : (cancelled h s).ids = (releaseId .work (handleIdx h) s).ids := rfl

/-- With a handle that names an index, the generation decides first, then where the item stands (R8, R411). -/
theorem dispCancel_named {r : Req} {s : State} (h : CancelNames r s) :
    dispCancelBody r s =
      let x := handleIn (fld r.w1 63 0)
      if handleGen x ≠ (identOf .work (handleIdx x) s).gen then (count dispStaleOff 1 s, some ⟨stStale, 0, 0⟩)
      else match s.disp.ready.find? (fun w => w.handle == x) with
        | some w =>
          if mayCancel r w then (cancelled x s, some ⟨stCancelled, 1, 0⟩) else (s, some (refuse stRefused 0x02))
        | none => match runningItem x s with
          | some w => (s, some (if mayCancel r w then ⟨stTooLate, 0, 0⟩ else refuse stRefused 0x02))
          | none => (s, some (refuse stRefused 0)) := by
  obtain ⟨hk, hp, hl, he⟩ := h
  have hin : ¬(handleKind (handleIn (fld r.w1 63 0)) ≠ 5 ∨ 1048576 ≤ handleIdx (handleIn (fld r.w1 63 0))) := by omega
  simp only [dispCancelBody, if_neg hin, if_neg (Nat.pos_iff_ne_zero.mp hp), he, answer]
  rfl

/-- Index 0 is nobody's (R411). -/
theorem dispCancel_zero {r : Req} {s : State} (hk : handleKind (handleIn (fld r.w1 63 0)) = 5)
    (h0 : handleIdx (handleIn (fld r.w1 63 0)) = 0) : dispCancelBody r s = (s, some (refuse stRefused 0x02)) := by
  simp [dispCancelBody, hk, h0, answer]

/-- Settles O23: each command by the equation of its body in the case named. -/
theorem postingAndCancelling : Obligations.PostingAndCancelling := by
  refine ⟨completes_of exec_nop fun _ _ _ => rfl, completesSo_of exec_dispPost ?_, completes_of exec_dispPost ?_,
    completes_of exec_dispPost fun _ _ => dispPost_bad, completesSo_of exec_dispCancel ?_, completes_of exec_dispCancel ?_,
    completes_of exec_dispCancel fun _ _ h => dispCancel_zero h.1 h.2, completes_of exec_dispCancel ?_⟩
  case refine_1 =>
    rintro r s ⟨hlo, hhi, hprio, hroom, hfree⟩
    obtain ⟨i, hi⟩ := Option.isSome_iff_exists.mp hfree
    refine ⟨_, _, dispPost_posts (by omega) hroom hi, i, hi, rfl, ?_, rfl, ?_, rfl, rfl, rfl⟩
    · rw [identOf_congr (posted_ids i _ s), identOf_allocId]
    · exact ctrGet_count dispPostedOff 1 _
  case refine_2 =>
    rintro r s ⟨hlo, hhi, hprio, hfull⟩
    exact dispPost_full (by omega) hfull
  case refine_3 =>
    rintro r s ⟨hk, hp, hl, he, hg, w, hw, hmay⟩
    refine ⟨cancelled (handleIn (fld r.w1 63 0)) s, _, ?_, rfl, rfl, ?_, rfl, rfl, rfl, rfl⟩
    · rw [dispCancel_named ⟨hk, hp, hl, he⟩]
      simp only [hg, ne_eq, not_true_eq_false, if_false, hw, hmay, if_true]
    · rw [identOf_congr (cancelled_ids _ s), identOf_releaseId]
  case refine_4 =>
    rintro r s ⟨hk, hp, hl, he, hg, hnone, w, hw, hmay⟩
    rw [dispCancel_named ⟨hk, hp, hl, he⟩]
    simp only [hg, ne_eq, not_true_eq_false, if_false, hnone, hw, hmay, if_true]
  case refine_5 =>
    rintro r s ⟨hk, hp, hl, he, hg⟩
    rw [dispCancel_named ⟨hk, hp, hl, he⟩]
    simp only [if_pos hg]

/-! ## O4: wide registers -/

/-- An offset within entry `i` of an array of registers lies in that entry. -/
theorem entryAt_of {base stride n i r : Nat} (hi : i < n) (hr : r < stride) : entryAt (base + i * stride + r) base stride n = some (i, r) := by
  have hle : stride * (i + 1) ≤ stride * n := Nat.mul_le_mul_left _ hi
  have hsub : base + i * stride + r - base = r + stride * i := by rw [Nat.mul_comm i]; omega
  rw [entryAt, if_pos ⟨by omega, by rw [Nat.mul_comm i]; rw [Nat.mul_succ] at hle; omega⟩, hsub,
    Nat.add_mul_div_left _ _ (by omega), Nat.add_mul_mod_self_left, Nat.div_eq_of_lt hr, Nat.mod_eq_of_lt hr, Nat.zero_add]

theorem entryAt_hqOff {q r : Nat} (hq : q < 8192) (hr : r < 0x80) : entryAt (hqOff q r) 0x200000 0x80 8192 = some (q, r) :=
  entryAt_of hq hr

/-- A write to the low half of `HQ_PUSH` that the table lets through is held (R17, R415). -/
theorem writeHq_pushLow {who q : Nat} (v : Word64) {s : State} (h : mayWrite who (hqOff q 0x20) s) :
    writeHq who q 0x20 v s = holdLow (hqOff q 0x20) who v s := gated_granted (f := holdLow (hqOff q 0x20) who v) h

theorem ownerWrite_pushLow {who q : Nat} (v : Word64) {s : State} (hq : q < 8192) (h : mayWrite who (hqOff q 0x20) s) :
    ownerWriteDo who (hqOff q 0x20) v s = holdLow (hqOff q 0x20) who v s := by
  have hoff : ¬(hqOff q 0x20 % 8 ≠ 0 ∨ 0x5000000 ≤ hqOff q 0x20) := by simp only [hqOff]; omega
  simp only [ownerWriteDo, if_neg hoff, entryAt_hqOff hq (show 0x20 < 0x80 by decide)]
  exact writeHq_pushLow v h

theorem tenantWrite_pushLow {who k : Nat} (v : Word64) {s : State} (hk : k < 128) (h : mayWrite who (hqOff (who * 128 + k) 0x20) s) :
    tenantWriteDo who (0x8020 + k * 0x80) v s = holdLow (hqOff (who * 128 + k) 0x20) who v s := by
  have hat : entryAt (0x8020 + k * 0x80) 0x8000 0x80 128 = some (k, 0x20) := by
    rw [show 0x8020 + k * 0x80 = 0x8000 + k * 0x80 + 0x20 by omega]
    exact entryAt_of hk (by decide)
  have hoff : ¬((0x8020 + k * 0x80) % 8 ≠ 0) := by omega
  simp only [tenantWriteDo, if_neg hoff, hat]
  exact writeHq_pushLow v h

theorem registerWriteDo_owner {who off : Nat} {v : Word64} {s : State} (h : who = 0 ∨ 64 ≤ who) :
    registerWriteDo who off v s = ownerWriteDo who off v s := if_pos (by simpa using h)

theorem registerWriteDo_tenant {who off : Nat} {v : Word64} {s : State} (h : 0 < who) (h' : who < 64) :
    registerWriteDo who off v s = tenantWriteDo who off v s := if_neg (by simp; omega)

theorem exec_wideLowWrite {who off : Nat} (v : Word64) (s : State) (hw : who < 128) (ho : off < 134217728) :
    exec (.wideLowWrite who off v) s = .next (registerWriteDo who off v s) :=
  onWf_of_wf (i := .wideLowWrite who off v) (by simp [Instr.wf, hw, ho])

/-- Nanoseconds over the fraction's 16 bits: the image of a timestamp's low half, as a number. -/
theorem stampLow_eq (t : Stamp) : stampLow t = t.ns % 2 ^ 30 * 65536 + t.frac % 65536 := by
  have h := Nat.shiftLeft_add_eq_or_of_lt (show t.frac % 2 ^ 16 < 2 ^ 16 from Nat.mod_lt _ (by decide)) (t.ns % 2 ^ 30)
  simp only [stampLow, img, packNat, Nat.shiftLeft_zero, Nat.or_zero]
  have hs : (t.ns % 2 ^ 30) <<< 16 = t.ns % 2 ^ 30 * 65536 := Nat.shiftLeft_eq _ _
  exact h.symm.trans (congrArg (· + t.frac % 65536) hs)

/-- A read of `TIME_NOW` that the table lets through: its value is returned and the seconds are latched for the reader (R17). -/
theorem ownerRead_timeNow {who : Nat} {s : State} (h : accHas tgPage 0x600 who bitRead s = true) :
    ownerReadDo who 0x600000 s = setRead (peek who 0x600000 s)
      { s with latch := s.latch.set (0x600000 * 256 + who) s.time.sec, ctr := s.ctr.del 0x600000 } := by
  have hg : readGate who 0x600000 s = (true, s) := accCheck_granted h
  have hp : popAt 0x600000 = none := rfl
  rw [ownerReadDo, if_neg (by decide), hp]
  simp only [hg]
  rfl

theorem peek_timeNow {who : Nat} {s : State} (h : s.ctr.find? 0x600000 = none) :
    peek who 0x600000 s = s.time.ns % 2 ^ 30 * 65536 + s.time.sub / 2 ^ 32 % 65536 := by
  have hp : peek who 0x600000 s = stampLow (stampNow s) := by
    rw [peek, if_neg (by decide), if_neg (by decide), if_neg (by decide), h]; rfl
  rw [hp, stampLow_eq]; rfl

/-- The high half of `TIME_NOW` reads what the reader's last low-half read latched. -/
theorem peek_timeNowHigh (who : Nat) (s : State) : peek who 0x600008 s = s.latch.get (0x600000 * 256 + who) 0 := by
  rw [peek, if_neg (by decide), if_pos (by decide)]

theorem exec_wideLowRead {who off : Nat} (s : State) (hw : who < 128) (ho : off < 134217728) :
    exec (.wideLowRead who off) s = .next (registerReadDo who off s) :=
  onWf_of_wf (i := .wideLowRead who off) (by simp [Instr.wf, hw, ho])

/-- Settles O4: the two views reach the same holding of the low half, and a low-half read latches. -/
theorem wideRegisterHalves : Obligations.WideRegisterHalves := by
  refine ⟨?_, ?_, ?_⟩
  · intro who q v s hwho hq h
    rw [exec_wideLowWrite v s h.1 (by simp only [hqOff]; omega), registerWriteDo_owner hwho, ownerWrite_pushLow v hq h]
    rfl
  · intro who k v s hpos hlt hk h
    rw [exec_wideLowWrite v s h.1 (by omega), registerWriteDo_tenant hpos hlt, tenantWrite_pushLow v hk h]
    rfl
  · intro who s hwho hlt hacc hlow _
    refine ⟨ownerReadDo who 0x600000 s, ?_, ?_⟩
    · rw [exec_wideLowRead s hlt (by decide), registerReadDo, if_pos (by simpa using hwho)]
    · rw [ownerRead_timeNow hacc]
      exact ⟨peek_timeNow hlow, rfl, (peek_timeNowHigh _ _).trans (Tab.get_set_same _ _ _ _), rfl⟩

/-! ## O19: pops -/

theorem queueOf_congr {s t : State} (h : t.hq = s.hq) (q : Nat) : queueOf q t = queueOf q s := by simp only [queueOf, h]

theorem ctrGet_congr {s t : State} (h : t.ctr = s.ctr) (p : Nat) : ctrGet p t = ctrGet p s := by simp only [ctrGet, h]

@[simp] theorem queueOf_count (q off n : Nat) (s : State) : queueOf q (count off n s) = queueOf q s := rfl

@[simp] theorem queueOf_emit (q : Nat) (o : Out) (s : State) : queueOf q (emit o s) = queueOf q s := rfl

@[simp] theorem queueOf_lowTaken (p who q : Nat) (s : State) : queueOf p (lowTaken who q s) = queueOf p s := rfl

@[simp] theorem ctrGet_popResult (p who q : Nat) (w : Word128) (s : State) : ctrGet p (popResult who q w s) = ctrGet p s := rfl

@[simp] theorem ctrGet_lowTaken (p who q : Nat) (s : State) : ctrGet p (lowTaken who q s) = ctrGet p s := rfl

/-- A refusal counts at its own kind and in the recorder's counters alone. -/
theorem ctrGet_accRefuse {kind p : Nat} (idx master : Nat) (s : State) (hp : p ≠ accRefusedOff kind)
    (hr : p < 0x400200 ∨ 0x400228 ≤ p) : ctrGet p (accRefuse kind idx master s) = ctrGet p s := by
  unfold accRefuse
  extract_lets key r due r' a t
  have ht : ctrGet p t = ctrGet p s := ctrGet_count_ne _ _ _ _ hp
  split
  · rw [(logOnly_memRecord _ _ _ _).ctr p hr, ht]
  · exact ht

theorem ctrGet_hqRefused_accRefuse {q : Nat} (master : Nat) (s : State) (hq : q < 8192) :
    ctrGet (hqRefusedOff q) (accRefuse tgQueue q master s) = ctrGet (hqRefusedOff q) s :=
  ctrGet_accRefuse q master s (by simp only [hqRefusedOff, accRefusedOff, tgQueue]; omega) (by simp only [hqRefusedOff]; omega)

/-- The master reaches `HQ_POP` of the queue: in the owner view, or in the window of the owner, and the page's table lets it read. -/
theorem hqPopDo_reached {who q : Nat} {s : State} (hr : who = 0 ∨ 64 ≤ who ∨ who = q / 128)
    (hp : accHas tgPage (hqOff q 0x30 / 4096) who bitRead s = true) :
    hqPopDo who q s =
      if accHas tgQueue q who bitRead s = true then
        if (queueOf q s).kind = 0 ∧ who = q / 128 then popResult who q 0 (hqRefuse q s)
        else if (queueOf q s).mirror = true ∧ (queueOf q s).kind = 1 then popResult who q 0 s
        else roomFreed q (popResult who q (popQueue (queueOf q s)).1 (setQueue q (popQueue (queueOf q s)).2 s))
      else popResult who q 0 (hqRefuse q (accRefuse tgQueue q who s)) := by
  have hreach : (!(who == 0 || decide (64 ≤ who) || who == q / 128)) = false := by
    rcases hr with h | h | h <;> simp [h]
  have hg : readGate who (hqOff q 0x30) s = (true, s) := accCheck_granted hp
  simp only [hqPopDo, hreach, hg]
  cases hq : accHas tgQueue q who bitRead s with
  | false => simp [accCheck_denied hq]
  | true => simp [accCheck_granted hq]

/-- A pop that the tables let through frees what it took (R391). -/
theorem hqPopDo_granted {who q : Nat} {s : State} (h : mayPop who q s) :
    hqPopDo who q s = roomFreed q (popResult who q (popQueue (queueOf q s)).1 (setQueue q (popQueue (queueOf q s)).2 s)) := by
  obtain ⟨_, _, hr, hp, hacc, hown, hmir⟩ := h
  rw [hqPopDo_reached hr hp, if_pos hacc, if_neg hown, if_neg hmir]

theorem exec_hqPop {who q : Nat} (s : State) (hw : who < 128) (hq : q < 8192) : exec (.hqPop who q) s = .next (hqPopDo who q s) :=
  onWf_of_wf (i := .hqPop who q) (by simp [Instr.wf, hw, hq])

theorem exec_hqPop_granted {who q : Nat} {s : State} (h : mayPop who q s) :
    exec (.hqPop who q) s =
      .next (roomFreed q (popResult who q (popQueue (queueOf q s)).1 (setQueue q (popQueue (queueOf q s)).2 s))) := by
  rw [exec_hqPop s h.2.1 h.1, hqPopDo_granted h]

theorem popQueue_begins {u : Queue} {p : Packet} {rest : List Packet} (hb : u.begun = []) (hv : u.visible = p :: rest) :
    popQueue u = (lengthWord u.qgen p.words.length, { u with visible := rest, begun := p.words }) := by
  simp only [popQueue, hb, hv]

theorem popQueue_continues {u : Queue} {w : Word128} {rest : List Word128} (hb : u.begun = w :: rest) :
    popQueue u = (w, { u with begun := rest }) := by
  simp only [popQueue, hb]

theorem popQueue_empty {u : Queue} (hb : u.begun = []) (hv : u.visible = []) : popQueue u = (0, u) := by
  simp only [popQueue, hb, hv]

/-- Settles O19: a granted pop returns what `popQueue` takes, a refused one returns NOT_VALID and counts. -/
theorem queuePopsReturnWords : Obligations.QueuePopsReturnWords := by
  refine ⟨?_, ?_, ?_, ?_, ?_⟩
  · intro who q s p rest h hb hv
    rw [exec_hqPop_granted h, popQueue_begins hb hv]; rfl
  · intro who q s w rest h hb
    rw [exec_hqPop_granted h, popQueue_continues hb]; rfl
  · intro who q s h hb hv
    rw [exec_hqPop_granted h, popQueue_empty hb hv]; simp [popResult]
  · intro q s
    simp
  · intro who q s hq hw hr hp hacc
    refine ⟨popResult who q 0 (hqRefuse q (accRefuse tgQueue q who s)), ?_, rfl, ?_, ?_⟩
    · rw [exec_hqPop s hw hq, hqPopDo_reached hr hp, if_neg (by simp [hacc])]
    · simp [popResult, hqRefuse]
    · rw [ctrGet_popResult, hqRefuse, ctrGet_count, ctrGet_hqRefused_accRefuse who s hq]

/-! ## O18: pushes -/

theorem queueIrq_cases (q : Nat) (s : State) :
    queueIrq q s = s ∨ queueIrq q s = emit (.msix (q / 128) (queueOf q s).vector) (setQueue q { queueOf q s with armed := false } s) := by
  simp only [queueIrq]
  split
  · exact .inr rfl
  · exact .inl rfl

/-- The vector of a queue changes ARMED alone. -/
theorem queueOf_queueIrq (q : Nat) (s : State) :
    (queueOf q (queueIrq q s)).visible = (queueOf q s).visible ∧ (queueOf q (queueIrq q s)).opened = (queueOf q s).opened := by
  rcases queueIrq_cases q s with h | h <;> rw [h]
  · exact ⟨rfl, rfl⟩
  · rw [queueOf_emit, queueOf_setQueue]; exact ⟨rfl, rfl⟩

theorem queueOf_queueIrq_ne {p q : Nat} (s : State) (h : p ≠ q) : queueOf p (queueIrq q s) = queueOf p s := by
  rcases queueIrq_cases q s with e | e <;> rw [e]
  exact queueOf_setQueue_ne _ _ _ _ h

@[simp] theorem accHas_lowTaken (kind idx m bit who q : Nat) (s : State) :
    accHas kind idx m bit (lowTaken who q s) = accHas kind idx m bit s := rfl

/-- With the page's table for it, a push takes the low half and passes the queue's table (R17, R393). -/
theorem hqPushDo_reached {who q : Nat} (hi : Word64) {s : State} (h : mayWrite who (hqOff q 0x20) s) :
    hqPushDo who q hi s =
      if accHas tgQueue q who bitWrite s = true then pushWord who q (pushedWord who q hi s) (lowTaken who q s)
      else hqRefuse q (accRefuse tgQueue q who (lowTaken who q s)) := by
  rw [hqPushDo, writeGate_granted h]
  change (let c := accCheck tgQueue q who bitWrite (lowTaken who q s)
    if c.1 then pushWord who q (pushedWord who q hi s) c.2 else hqRefuse q c.2) = _
  cases hq : accHas tgQueue q who bitWrite s with
  | true => simp [accCheck, hq]
  | false => simp [accCheck, hq]

theorem exec_hqPush {who q : Nat} (hi : Word64) (s : State) (hw : who < 128) (hq : q < 8192) :
    exec (.hqPush who q hi) s = .next (hqPushDo who q hi s) :=
  onWf_of_wf (i := .hqPush who q hi) (by simp [Instr.wf, hw, hq])

/-- What a word pushed to a queue that takes it does, by its tag (R390). -/
theorem pushWord_taken {who q : Nat} {w : Word128} {s : State} (hk : ¬((queueOf q s).kind = 1 ∧ who = q / 128))
    (he : (queueOf q s).enable = true) (ht : tagOf w = tagData ∨ tagOf w = tagLength) :
    pushWord who q w s = if tagOf w = tagData then pushData q w s else pushLength q w s := by
  have ht' : ¬(tagOf w ≠ tagData ∧ tagOf w ≠ tagLength) := fun h => ht.elim h.1 h.2
  simp only [pushWord, if_neg ht', he]
  simp [hk]

/-- Every word that the queue does not take is counted as refused (R390, R393). -/
theorem pushWord_refused {who q : Nat} {w : Word128} {s : State}
    (h : ((queueOf q s).kind = 1 ∧ who = q / 128) ∨ (queueOf q s).enable = false ∨ (tagOf w ≠ tagData ∧ tagOf w ≠ tagLength)) :
    pushWord who q w s = hqRefuse q s := by
  simp only [pushWord, Bool.and_eq_true, beq_iff_eq, Bool.not_eq_true']
  by_cases hk : (queueOf q s).kind = 1 ∧ who = q / 128
  · rw [if_pos hk]
  · by_cases ht : tagOf w ≠ tagData ∧ tagOf w ≠ tagLength
    · rw [if_neg hk, if_pos ht]
    · rw [if_neg hk, if_neg ht, if_pos ((h.resolve_left hk).resolve_right ht)]

theorem exec_hqPush_taken {who q : Nat} {hi : Word64} {s : State} (h : mayPush who q s)
    (ht : tagOf (pushedWord who q hi s) = tagData ∨ tagOf (pushedWord who q hi s) = tagLength) :
    exec (.hqPush who q hi) s = .next (if tagOf (pushedWord who q hi s) = tagData
      then pushData q (pushedWord who q hi s) (lowTaken who q s) else pushLength q (pushedWord who q hi s) (lowTaken who q s)) := by
  obtain ⟨hq, hw, hacc, he, hk⟩ := h
  rw [exec_hqPush hi s hw.1 hq, hqPushDo_reached hi hw, if_pos hacc, pushWord_taken (s := lowTaken who q s) hk he ht]

theorem exec_hqPush_data {who q : Nat} {hi : Word64} {s : State} (h : mayPush who q s) (ht : tagOf (pushedWord who q hi s) = tagData) :
    exec (.hqPush who q hi) s = .next (pushData q (pushedWord who q hi s) (lowTaken who q s)) := by
  rw [exec_hqPush_taken h (.inl ht), if_pos ht]

theorem exec_hqPush_length {who q : Nat} {hi : Word64} {s : State} (h : mayPush who q s) (ht : tagOf (pushedWord who q hi s) = tagLength) :
    exec (.hqPush who q hi) s = .next (pushLength q (pushedWord who q hi s) (lowTaken who q s)) := by
  rw [exec_hqPush_taken h (.inr ht), if_neg (by rw [ht]; decide)]

/-- The queue with its open packet closed. -/
def closed (q : Nat) (s : State) : State := setQueue q { queueOf q s with opened := none } s

@[simp] theorem queueOf_closed (q : Nat) (s : State) : queueOf q (closed q s) = { queueOf q s with opened := none } :=
  queueOf_setQueue _ _ _

theorem packetClosed_quiet {q : Nat} {s : State} (h : (queueOf q s).flushPending = false) : packetClosed q s = queueIrq q s := by
  simp [packetClosed, h]

/-- A LENGTH word of another generation drops the open packet as stale. -/
theorem pushLength_stale {q : Nat} {w : Word128} {s : State} {o : OpenPacket} (ho : (queueOf q s).opened = some o)
    (hf : (queueOf q s).flushPending = false) (hg : fld w 119 108 ≠ (queueOf q s).qgen) :
    pushLength q w s = queueIrq q (count (hqStaleOff q) (o.words.length + 1) (closed q s)) := by
  rw [← packetClosed_quiet (by simp [hf])]
  simp [pushLength, ho, hg, closed]

/-- A LENGTH word that does not fit the open packet discards it. -/
theorem pushLength_wrong {q : Nat} {w : Word128} {s : State} {o : OpenPacket} (ho : (queueOf q s).opened = some o)
    (hf : (queueOf q s).flushPending = false) (hg : fld w 119 108 = (queueOf q s).qgen)
    (hb : o.broken = true ∨ fld w 15 0 ≠ o.words.length ∨ 1024 < o.words.length) :
    pushLength q w s = queueIrq q (count (hqDiscardedOff q) (o.words.length + 1) (closed q s)) := by
  rw [← packetClosed_quiet (by simp [hf])]
  have hb' : (o.broken || fld w 15 0 != o.words.length || decide (1024 < o.words.length)) = true := by simpa [or_assoc] using hb
  simp [pushLength, ho, hg, closed, hb']

/-- A LENGTH word that fits the open packet makes it visible. -/
theorem pushLength_fits {q : Nat} {w : Word128} {s : State} {o : OpenPacket} (ho : (queueOf q s).opened = some o)
    (hf : (queueOf q s).flushPending = false) (hg : fld w 119 108 = (queueOf q s).qgen) (hb : o.broken = false)
    (hn : fld w 15 0 = o.words.length) (hl : o.words.length ≤ 1024) :
    pushLength q w s = queueIrq q (updQueue q (fun u => { u with visible := u.visible ++ [⟨o.words, nowNs s⟩] }) (closed q s)) := by
  rw [← packetClosed_quiet (by simp [hf])]
  simp [pushLength, ho, hg, closed, hb, hn, Nat.not_lt.mpr hl]
  rfl

/-- What closing a packet with `n` words counted at `off` leaves. -/
theorem dropped_packet (q off n : Nat) (s : State) :
    (queueOf q (queueIrq q (count off n (closed q s)))).visible = (queueOf q s).visible ∧
    (queueOf q (queueIrq q (count off n (closed q s)))).opened = none ∧
    ctrGet off (queueIrq q (count off n (closed q s))) = satAdd 64 (ctrGet off s) n ∧
    (queueIrq q (count off n (closed q s))).hostMem = s.hostMem ∧ (queueIrq q (count off n (closed q s))).dram = s.dram := by
  obtain ⟨hv, ho⟩ := queueOf_queueIrq q (count off n (closed q s))
  refine ⟨by simp [hv], by simp [ho], ?_, by simp [closed], by simp [closed]⟩
  rw [ctrGet_congr (s := count off n (closed q s)) (by simp), ctrGet_count]; rfl

/-- Settles O18: each clause is one equation of `pushData` or `pushLength`, or a refusal. -/
theorem queuePushesBuildPackets : Obligations.QueuePushesBuildPackets := by
  refine ⟨?_, ?_, ?_, ?_, ?_, ?_⟩
  · intro who q hi s h ht ho
    rw [exec_hqPush_data h ht, pushData, queueOf_lowTaken, ho]; rfl
  · intro who q hi s o h ht ho
    rw [exec_hqPush_data h ht, pushData, queueOf_lowTaken, ho]; rfl
  · intro who q hi s o h ht ho hf hb hg hn hl
    refine ⟨_, (exec_hqPush_length h ht).trans (congrArg _ (pushLength_fits (s := lowTaken who q s) ho hf hg hb hn hl)), ?_, ?_, ?_,
      by simp [closed, lowTaken, takeLow], by simp [closed, lowTaken, takeLow], by simp [closed, lowTaken, takeLow]⟩
    · rw [(queueOf_queueIrq q _).1, queueOf_updQueue, queueOf_closed]; rfl
    · rw [(queueOf_queueIrq q _).2, queueOf_updQueue, queueOf_closed]
    · intro p hp
      rw [queueOf_queueIrq_ne _ hp, queueOf_updQueue_ne _ _ _ _ hp, closed, queueOf_setQueue_ne _ _ _ _ hp, queueOf_lowTaken]
  · intro who q hi s o h ht ho hf hg
    exact ⟨_, (exec_hqPush_length h ht).trans (congrArg _ (pushLength_stale (s := lowTaken who q s) ho hf hg)),
      dropped_packet q _ _ (lowTaken who q s)⟩
  · intro who q hi s o h ht ho hf hg hb
    exact ⟨_, (exec_hqPush_length h ht).trans (congrArg _ (pushLength_wrong (s := lowTaken who q s) ho hf hg hb)),
      dropped_packet q _ _ (lowTaken who q s)⟩
  · intro who q hi s hq hw hbad
    rw [exec_hqPush hi s hw.1 hq, hqPushDo_reached hi hw]
    by_cases hacc : accHas tgQueue q who bitWrite s = true
    · have hrest := hbad.resolve_left (by simp [hacc])
      rw [if_pos hacc, pushWord_refused (s := lowTaken who q s) hrest]
      exact ⟨_, rfl, rfl, rfl, rfl, rfl, ctrGet_count _ _ _⟩
    · rw [if_neg hacc]
      have hhq : (hqRefuse q (accRefuse tgQueue q who (lowTaken who q s))).hq = s.hq := by simp [hqRefuse, lowTaken, takeLow]
      refine ⟨_, rfl, queueOf_congr hhq q, hhq, by simp [hqRefuse, lowTaken, takeLow], by simp [hqRefuse, lowTaken, takeLow], ?_⟩
      rw [hqRefuse, ctrGet_count, ctrGet_hqRefused_accRefuse who _ hq, ctrGet_lowTaken]

/-! ## O29: a new source whose slot's record lies in a stack that is asleep -/

/-- The DRAM after a step that gave a next state. -/
def dramAfter : Outcome → Mem
  | .next t => t.dram
  | _ => []

/-- Key slot 0 is in use and ERASING, for PF0, which holds room 0; lane 0 is an Ethernet port; stack 0 is PARKED, has given up segment 0, and
byte 0 of that segment is still listed as 1. -/
def sleepingState : State :=
  { State.reset with
    ids := ⟨[(idKey .slot 0, { used := true })]⟩
    keys := { State.reset.keys with slots := ⟨[(0, { state := 3 })]⟩ }
    lanes := { State.reset.lanes with groups := ⟨[(0, { personality := 1 })]⟩ }
    media := { State.reset.media with rooms := ⟨[(0, { held := true })]⟩ }
    dramStacks := ⟨[(0, { state := 3, lost := 1 })]⟩
    dram := [(0, 1)] }

/-- ING_SRC_CREATE at the port of core 0: lane 0, SRTP, room 0, key slot 0. -/
def createAsleep : CmdSrc := .port 0 0x20 0 0 (BitVec.ofNat 128 (handleOf .slot 0 0))

/-- The request that the core's port brings. -/
def createReq : Req :=
  ⟨0, true, 64, 0x20, 0, 0, BitVec.ofNat 128 (handleOf .slot 0 0),
    { op := sleepingState.nextOp, fw := true, core := 0, opcode := 0x20, tag := 0, quiet := false }⟩

/-- The state once the command has been taken. -/
def createTaken : State :=
  { sleepingState with nextOp := sleepingState.nextOp + 1, fwOps := sleepingState.nextOp :: sleepingState.fwOps }

theorem createAsleep_presented : presented 0x20 createAsleep sleepingState = some (createReq, createTaken) := by decide +kernel

/-- The fetch of the slot's record wakes stack 0, which fills the segment that it gave up with zeros (R162, R380). -/
theorem createAsleep_dram : dramAfter (exec (.ingSrcCreate createAsleep) sleepingState) = [] := by decide +kernel

/-- Refutes O29: its first clause keeps every byte of DRAM, but pinning the new source's slot can wake a stack that has given up a
segment, whose bytes then read 0. -/
theorem not_sourceCreation : ¬ Obligations.SourceCreation := by
  rintro ⟨hcreate, -, -⟩
  obtain ⟨t, rep, he, i, -, -, -, -, -, -, hdram, -⟩ :=
    hcreate createAsleep sleepingState createTaken createReq rfl createAsleep_presented (by decide +kernel)
  have hend : (complete createReq.tk rep t).dram = t.dram := by simp
  have hgone : t.dram = [] := by rw [← hend, ← createAsleep_dram, he]; rfl
  rw [hgone] at hdram
  exact absurd hdram (by decide)

/-! ## O33: rooms and legs -/

/-- A strict chapter leaves a refusal of progress 0 as it is (log entry 119). -/
theorem strictly_refused {l : Layout} {body : Req → State → Answer} {r : Req} {s t : State} {x : Reply} (h : body r s = (t, some x))
    (hx : x.prog = 0) : strictly l body r s = (t, some x) := by
  simp [strictly, h, hx]

/-- A key handle of another generation refuses a create command, and is counted (R7, R176). -/
theorem keyRefused_stale {r : Req} {h reason : Nat} {s : State} (hr : resolve .slot h s = .stale) :
    keyRefusal r h reason s = some ⟨stStale, 0, 0⟩ ∧ keyRefused ⟨stStale, 0, 0⟩ s = (count keyStaleOff 1 s, some ⟨stStale, 0, 0⟩) := by
  exact ⟨by simp only [keyRefusal, hr], rfl⟩

theorem exec_legRoomClaim (src : CmdSrc) (s : State) (h : src.wf = true) : exec (.legRoomClaim src) s =
    .next (command 0x40 (strictly ([(12, 0), (63, 16), (79, 64), (85, 80)], [], []) roomClaimBody) src s) :=
  onWf_of_wf (i := .legRoomClaim src) h

theorem exec_legRoomFree (src : CmdSrc) (s : State) (h : src.wf = true) : exec (.legRoomFree src) s =
    .next (command 0x41 (strictly ([(12, 0)], [], []) roomFreeBody) src s) := onWf_of_wf (i := .legRoomFree src) h

theorem exec_legCreate (src : CmdSrc) (s : State) (h : src.wf = true) : exec (.legCreate src) s =
    .next (command 0x42 (strictly ([(127, 0)], [(126, 118), (116, 50), (47, 0)], [(127, 113), (111, 96), (63, 0)]) legCreateBody) src s) :=
  onWf_of_wf (i := .legCreate src) h

/-- The room as LEG_ROOM_CLAIM gives it to its function (R117). -/
def claimedRoom (r : Req) : Room := ⟨true, fld r.w1 85 80, fld r.w1 31 16, fld r.w1 63 32, fld r.w1 79 64⟩

theorem roomClaim_fine {r : Req} {s : State} (hw : fld r.w1 31 16 ≠ 0) (hlo : 100 ≤ fld r.w1 79 64) (hhi : fld r.w1 79 64 ≤ 10000)
    (hf : r.owner = true ∨ fld r.w1 85 80 = r.fn) :
    roomClaimBody r s =
      if (roomAt (fld r.w1 12 0) s).held = true then (s, some (refuse stNotStarted 0x03))
      else ({ s with media := { s.media with rooms := s.media.rooms.set (fld r.w1 12 0) (claimedRoom r) } }, some (okWith 0)) := by
  have hrange : ¬(fld r.w1 31 16 = 0 ∨ fld r.w1 79 64 < 100 ∨ 10000 < fld r.w1 79 64) := by omega
  have hown : (!r.owner && fld r.w1 85 80 != r.fn) = false := by rcases hf with h | h <;> simp [h]
  simp only [roomClaimBody, if_neg hrange, hown, answer]
  rfl

theorem roomFree_held {r : Req} {s : State} (hh : (roomAt (fld r.w1 12 0) s).held = true)
    (hf : r.owner = true ∨ (roomAt (fld r.w1 12 0) s).owner = r.fn) :
    roomFreeBody r s =
      if roomNamed (fld r.w1 12 0) s = true then (s, some (refuse stNotStarted 0x06))
      else ({ s with media := { s.media with rooms := s.media.rooms.del (fld r.w1 12 0) } }, some (okWith 0)) := by
  have hown : (!(roomAt (fld r.w1 12 0) s).held || (!r.owner && (roomAt (fld r.w1 12 0) s).owner != r.fn)) = false := by
    rcases hf with h | h <;> simp [hh, h]
  simp only [roomFreeBody, hown, answer]
  rfl

/-- The leg that LEG_CREATE asks for (R120). -/
def legAsked (r : Req) (s : State) : Leg :=
  { fn := reqFn r, w1 := r.w1, w2 := r.w2, w3 := r.w3, wBounds := defaultBounds, wEst := defaultEst, wShape := defaultShape, est := 1000,
    fbTimer := nowNs s, lastReport := nowNs s }

/-- A leg is put into use with full buckets (R120, R140). -/
def newLeg (i : Nat) (v : Leg) (s : State) : State := writeHeld 2 i 0 (setLeg i (fillShaper v (cmpNow s)) (allocId .leg i s))

theorem identOf_newLeg (i : Nat) (v : Leg) (s : State) : (identOf .leg i (newLeg i v s)).used = true := by
  rw [identOf_congr (s := allocId .leg i s) (by simp [newLeg]), identOf_allocId]

theorem legAt_newLeg (i : Nat) (v : Leg) (s : State) : legAt i (newLeg i v s) = fillShaper v (cmpNow s) :=
  legAt_setLeg i (fillShaper v (cmpNow s)) (allocId .leg i s)

theorem legAt_newLeg_ne {i j : Nat} (v : Leg) (s : State) (h : j ≠ i) : legAt j (newLeg i v s) = legAt j s :=
  legAt_setLeg_ne i j (fillShaper v (cmpNow s)) (allocId .leg i s) h

theorem legCreate_new {r : Req} {s : State} {i : Nat} (hfine : legFine (legAsked r s) s = true)
    (hkey : (legAsked r s).kind = 0 → keyRefusal r (fld r.w3 63 0) 0x05 s = none ∧
      ownsLaddr r (legAsked r s).wing (legAsked r s).laddr s = true)
    (hroom : holdsRoom (reqFn r) (legAsked r s).room s = true) (hnew : ∀ c ∈ legList s, sameLeg (legAsked r s) c.2 = false)
    (hi : lowestFree .leg 0 1048576 s = some i) :
    legCreateBody r s = (newLeg i (legAsked r s) s, some (okVia (legAsked r s).wing (handleFor .leg i s) s)) := by
  unfold legCreateBody
  extract_lets v
  have hkeyless : (if v.kind = 0 then keyRefusal r (fld v.w3 63 0) 0x05 s else none) = none := by
    split
    · exact (hkey ‹_›).1
    · rfl
  have howned : (!(holdsRoom (reqFn r) v.room s) || (v.kind == 0 && !ownsLaddr r v.wing v.laddr s)) = false := by
    by_cases hk : v.kind = 0
    · simp [hk, show holdsRoom (reqFn r) v.room s = true from hroom, show ownsLaddr r v.wing v.laddr s = true from (hkey hk).2]
    · simp [hk, show holdsRoom (reqFn r) v.room s = true from hroom]
  have hany : (legList s).any (fun c => sameLeg v c.2) = false := List.any_eq_false.mpr fun c hc => by
    simp [show sameLeg v c.2 = false from hnew c hc]
  rw [hkeyless, show legFine v s = true from hfine]
  simp only [howned, hany, hi]
  rfl

theorem legCreate_staleKey {r : Req} {s : State} (hfine : legFine (legAsked r s) s = true) (hk : (legAsked r s).kind = 0)
    (hr : resolve .slot (fld r.w3 63 0) s = .stale) : legCreateBody r s = (count keyStaleOff 1 s, some ⟨stStale, 0, 0⟩) := by
  obtain ⟨href, hans⟩ := keyRefused_stale (r := r) (reason := 0x05) hr
  unfold legCreateBody
  extract_lets v
  rw [show legFine v s = true from hfine, if_pos (show v.kind = 0 from hk), show keyRefusal r (fld v.w3 63 0) 0x05 s = _ from href]
  exact hans

/-- Settles O33: each command by the equation of its body, under the reserved-bit rule of its chapter. -/
theorem roomsAndLegs : Obligations.RoomsAndLegs := by
  refine ⟨completes_of exec_legRoomClaim ?_, completes_of exec_legRoomClaim ?_, completes_of exec_legRoomFree ?_,
    completes_of exec_legRoomFree ?_, completesSo_of exec_legCreate ?_, completes_of exec_legCreate ?_⟩
  case refine_1 =>
    rintro r s ⟨hz, hw, hlo, hhi, hf, hfree⟩
    rw [strictly_clear hz, roomClaim_fine hw hlo hhi hf, if_neg (by simp [hfree])]; rfl
  case refine_2 =>
    rintro r s ⟨hw, hlo, hhi, hf, hheld⟩
    exact strictly_refused (by rw [roomClaim_fine hw hlo hhi hf, if_pos hheld]) rfl
  case refine_3 =>
    rintro r s ⟨hz, hh, hf, hfree⟩
    rw [strictly_clear hz, roomFree_held hh hf, if_neg (by simp [hfree])]
  case refine_4 =>
    rintro r s ⟨hh, hf, hnamed⟩
    exact strictly_refused (by rw [roomFree_held hh hf, if_pos hnamed]) rfl
  case refine_5 =>
    rintro r s ⟨hz, hfine, hkey, hroom, hnew, hfree⟩
    obtain ⟨i, hi⟩ := Option.isSome_iff_exists.mp hfree
    exact ⟨_, _, (strictly_clear hz).trans (legCreate_new hfine hkey hroom hnew hi), i, hi, rfl, identOf_newLeg _ _ _,
      legAt_newLeg _ _ _, fun j hj => legAt_newLeg_ne _ _ hj, rfl, rfl, rfl⟩
  case refine_6 =>
    rintro r s ⟨hfine, hk, hr⟩
    exact strictly_refused (legCreate_staleKey hfine hk hr) rfl

/-! ## O40: key slots -/

theorem notBlank_of {body : Req → State → Answer} {r : Req} {s : State} (h : s.keys.life ≠ 0) : notBlank body r s = body r s := if_neg h

/-- A slot that the requester may name is the one that the command works on. -/
theorem withSlot_named {r : Req} {s : State} (h : slotNamed r s) (f : Nat → Answer) :
    withSlot (fld r.w1 63 0) r s f = f (handleIdx (fld r.w1 63 0)) := by
  obtain ⟨hr, hown⟩ := h
  simp only [withSlot, hr]
  rw [if_pos (by rcases hown with h | h <;> simp [h])]

/-- A fold keeps what each of its steps keeps. -/
theorem foldl_keeps {α β : Type} (p : State → β) {f : State → α → State} (hf : ∀ s x, p (f s x) = p s) (l : List α) (s : State) :
    p (l.foldl f s) = p s := by
  induction l generalizing s with
  | nil => rfl
  | cons x r ih => rw [List.foldl_cons, ih, hf]

/-! ### The lowest free number -/

theorem firstFree_spec {busy : Nat → Bool} {cap fuel n k : Nat} (h : firstFree busy cap fuel n = some k) :
    n ≤ k ∧ k < cap ∧ busy k = false ∧ ∀ j, n ≤ j → j < k → busy j = true := by
  induction fuel generalizing n with
  | zero => cases h
  | succ fuel ih =>
    rw [firstFree] at h
    split at h
    · cases h
    · split at h
      next hbusy =>
        obtain ⟨hle, hlt, hfree, hbelow⟩ := ih h
        refine ⟨by omega, hlt, hfree, fun j hj hjk => ?_⟩
        rcases Nat.eq_or_lt_of_le hj with rfl | hj
        · exact hbusy
        · exact hbelow j hj hjk
      next hcap hfree =>
        cases h
        exact ⟨Nat.le_refl _, by omega, by simpa using hfree, fun j hj hjk => absurd hjk (by omega)⟩

/-- The free slot lies in a bank that the requester controls, and every lower slot of the bank is busy (R159). -/
theorem freeSlot_spec {r : Req} {s : State} {k : Nat} (h : freeSlot r s = some k) :
    accHas tgKeyBank (k / 4096) r.master bitControl s = true ∧ idBusy .slot k s = false ∧
      ∀ j, k / 4096 * 4096 ≤ j → j < k → idBusy .slot j s = true := by
  obtain ⟨b, -, hb⟩ := List.exists_of_findSome?_eq_some h
  split at hb
  next hacc =>
    obtain ⟨hlo, hhi, hfree, hbelow⟩ := firstFree_spec hb
    obtain rfl : k / 4096 = b := by omega
    exact ⟨hacc, hfree, hbelow⟩
  next => cases hb

/-! ### Records of slots -/

/-- What a write of a slot's record leaves as it is. -/
theorem writeRecord_keeps (k : Nat) (s : State) :
    (writeRecord k s).ids = s.ids ∧ (writeRecord k s).hq = s.hq ∧ (writeRecord k s).media = s.media ∧
    (writeRecord k s).hostMem = s.hostMem ∧ (writeRecord k s).keys.debugWait = s.keys.debugWait := by
  obtain ⟨d, u, e, c, o, h⟩ := writeRecord_only k s
  rw [h]; and_intros <;> rfl

@[simp] theorem writeRecord_ids (k : Nat) (s : State) : (writeRecord k s).ids = s.ids := (writeRecord_keeps k s).1
@[simp] theorem writeRecord_hq (k : Nat) (s : State) : (writeRecord k s).hq = s.hq := (writeRecord_keeps k s).2.1
@[simp] theorem writeRecord_media (k : Nat) (s : State) : (writeRecord k s).media = s.media := (writeRecord_keeps k s).2.2.1
@[simp] theorem writeRecord_hostMem (k : Nat) (s : State) : (writeRecord k s).hostMem = s.hostMem := (writeRecord_keeps k s).2.2.2.1
@[simp] theorem writeRecord_debugWait (k : Nat) (s : State) : (writeRecord k s).keys.debugWait = s.keys.debugWait :=
  (writeRecord_keeps k s).2.2.2.2

/-- A slot taken for function `f` (R159). -/
theorem takeSlot_facts (k f : Nat) (s : State) :
    slotAt k (takeSlot k f s) = { state := 1, owner := f, writes := ((slotAt k s).writes + 1) % 2 ^ 32 } ∧
    (identOf .slot k (takeSlot k f s)).used = true ∧ (∀ j, j ≠ k → slotAt j (takeSlot k f s) = slotAt j s) ∧
    (takeSlot k f s).hq = s.hq ∧ (takeSlot k f s).hostMem = s.hostMem := by
  refine ⟨by simp [takeSlot], ?_, fun j hj => ?_, by simp [takeSlot], by simp [takeSlot]⟩
  · rw [identOf_congr (s := allocId .slot k s) (by simp [takeSlot]), identOf_allocId]
  · rw [takeSlot, slotAt_writeRecord_ne _ hj, slotAt_setSlot_ne _ _ _ _ hj]; rfl

/-- What a load makes of a slot (R163). -/
theorem loadSession_facts (k graceMs : Nat) (p : List Byte) (s : State) :
    (slotAt k (loadSession k p graceMs s)).state = 2 ∧
    (slotAt k (loadSession k p graceMs s)).profile = leAt p 0x10 2 ∧ (slotAt k (loadSession k p graceMs s)).owner = (slotAt k s).owner ∧
    (slotAt k (loadSession k p graceMs s)).rxKeys = (if byteAt p 0x12 % 2 = 1 then masterKeys (leAt p 0x10 2) (slice p 0x20 48) else (slotAt k s).rxKeys) ∧
    (slotAt k (loadSession k p graceMs s)).txKeys = (if 2 ≤ byteAt p 0x12 then masterKeys (leAt p 0x10 2) (slice p 0x50 48) else (slotAt k s).txKeys) ∧
    (byteAt p 0x12 % 2 = 1 → (slotAt k s).rxKeys ≠ [] → graceMs ≠ 0 → (slotAt k (loadSession k p graceMs s)).prev
      = some (⟨(slotAt k s).rxGen, (slotAt k s).profile, (slotAt k s).rxKeys, (slotAt k s).rxMaster⟩, nowNs s + graceMs * 1000000)) ∧
    (∀ j, j ≠ k → slotAt j (loadSession k p graceMs s) = slotAt j s) ∧ (loadSession k p graceMs s).ids = s.ids ∧
    (loadSession k p graceMs s).hq = s.hq ∧ (loadSession k p graceMs s).hostMem = s.hostMem := by
  refine ⟨by simp [loadSession], by simp [loadSession], by simp [loadSession], ?_, ?_, fun hrx hkeys hgrace => ?_, fun j hj => ?_,
    by simp [loadSession], by simp [loadSession], by simp [loadSession]⟩
  · by_cases h : byteAt p 0x12 % 2 = 1 <;> simp [loadSession, sessionRx, h]
  · by_cases h : 2 ≤ byteAt p 0x12 <;> simp [loadSession, sessionTx, h]
  · simp [loadSession, hrx, hkeys, hgrace]
  · rw [loadSession, slotAt_writeRecord_ne _ hj, slotAt_setSlot_ne _ _ _ _ hj]; rfl

/-- A slot that leaves use is FREE, and its handle is in quarantine (R9, R160). -/
theorem freeSlotNow_facts (k : Nat) (s : State) : slotAt k (freeSlotNow k s) = { writes := (slotAt k s).writes } ∧
    identOf .slot k (freeSlotNow k s) = { gen := ((identOf .slot k s).gen + 1) % 4096, used := false,
                                          quarUntil := nowNs s + s.body.quarantineMs * 1000000, quarMs := s.body.quarantineMs } := by
  refine ⟨?_, ?_⟩
  · exact slotAt_setSlot k { writes := (slotAt k s).writes } s
  · rw [freeSlotNow, identOf_releaseId]; rfl

theorem slotAt_freeSlotNow_ne {j k : Nat} (s : State) (h : j ≠ k) : slotAt j (freeSlotNow k s) = slotAt j s :=
  slotAt_setSlot_ne k j { writes := (slotAt k s).writes } s h

/-! ### Erasing -/

/-- An EMPTY or ACTIVE slot becomes ERASING (R164). -/
theorem setErasing_live {k : Nat} {s : State} (h : (slotAt k s).state = 1 ∨ (slotAt k s).state = 2) :
    setErasing k s = setSlot k { slotAt k s with state := 3 } s := by
  rw [setErasing, updSlot, if_pos h]

theorem slotAt_setErasing_ne {j k : Nat} (s : State) (h : j ≠ k) : slotAt j (setErasing k s) = slotAt j s :=
  slotAt_updSlot_ne _ _ _ _ h

theorem slotAt_foldl_setErasing {k : Nat} {l : List Nat} (s : State) (h : k ∉ l) :
    slotAt k (l.foldl (fun s j => setErasing j s) s) = slotAt k s := by
  induction l generalizing s with
  | nil => rfl
  | cons x r ih =>
    rw [List.foldl_cons, ih _ (List.not_mem_of_not_mem_cons h), slotAt_setErasing_ne _ (List.ne_of_not_mem_cons h)]

/-- Completions change no slot, handle or host memory. -/
theorem foldl_complete_keeps (rep : Reply) (ts : List Ticket) {s t : State} (hi : t.ids = s.ids) (hm : t.hostMem = s.hostMem)
    (hk : t.keys.slots = s.keys.slots) :
    (ts.foldl (fun s x => complete x rep s) t).ids = s.ids ∧ (ts.foldl (fun s x => complete x rep s) t).hostMem = s.hostMem ∧
      ∀ k, slotAt k (ts.foldl (fun s x => complete x rep s) t) = slotAt k s := by
  refine ⟨(foldl_keeps State.ids (by simp) ts t).trans hi, (foldl_keeps State.hostMem (by simp) ts t).trans hm, fun k => ?_⟩
  rw [slotAt_congr (foldl_keeps State.keys (by simp) ts t), slotAt, hk]; rfl

/-- A DEBUG_ENABLE that waits touches no slot but the ACTIVE ones, and no handle. -/
theorem settleDebug_keeps (s : State) : (settleDebug s).ids = s.ids ∧ (settleDebug s).hostMem = s.hostMem ∧
    ∀ k, (slotAt k s).state ≠ 2 → slotAt k (settleDebug s) = slotAt k s := by
  unfold settleDebug
  extract_lets ts are emptied done
  split
  · exact ⟨rfl, rfl, fun _ _ => rfl⟩
  · split
    · refine And.imp_right (And.imp_right fun h k _ => h k) (foldl_complete_keeps _ _ ?_ ?_ ?_) <;> rfl
    · split
      · refine ⟨foldl_keeps State.ids (by simp [setErasing]) _ _, foldl_keeps State.hostMem (by simp [setErasing]) _ _, fun k hk => ?_⟩
        exact slotAt_foldl_setErasing _ fun hmem => hk (by simpa [are] using (List.mem_filter.mp hmem).2)
      · refine And.imp_right (And.imp_right fun h k _ => h k) (foldl_complete_keeps _ _ ?_ ?_ ?_) <;> rfl

theorem settleDebug_idle {s : State} (h : s.keys.debugWait = []) : settleDebug s = s := by
  simp [settleDebug, h]

/-- The save that an erase has interrupted completes with KEY_ERASED (log entry 69). -/
def saveEnded (save : Option SaveReq) (u : State) : State :=
  match save with
  | some q => complete q.ticket ⟨stKeyErased, 0, 0⟩ u
  | none => u

theorem saveEnded_keeps (save : Option SaveReq) (u : State) :
    (saveEnded save u).ids = u.ids ∧ (saveEnded save u).hostMem = u.hostMem ∧ (saveEnded save u).keys = u.keys := by
  cases save <;> simp [saveEnded]

/-- After a zeroing the commands that wait complete, and then a DEBUG_ENABLE that waits goes on. -/
def zeroingEnds (save : Option SaveReq) (erasers : List Ticket) (u : State) : State :=
  settleDebug (erasers.foldl (fun s t => complete t (okWith 0) s) (saveEnded save u))

theorem zeroingEnds_keeps (save : Option SaveReq) (erasers : List Ticket) {u : State} {k : Nat} (hk : (slotAt k u).state ≠ 2) :
    slotAt k (zeroingEnds save erasers u) = slotAt k u ∧ identOf .slot k (zeroingEnds save erasers u) = identOf .slot k u ∧
    (u.keys.debugWait = [] → ∀ j, slotAt j (zeroingEnds save erasers u) = slotAt j u) ∧
    (zeroingEnds save erasers u).hostMem = u.hostMem := by
  obtain ⟨hi, hm, hs⟩ := saveEnded_keeps save u
  have hkeys := (foldl_keeps State.keys (f := fun s t => complete t (okWith 0) s) (by simp) erasers (saveEnded save u)).trans hs
  have hids := (foldl_keeps State.ids (f := fun s t => complete t (okWith 0) s) (by simp) erasers (saveEnded save u)).trans hi
  have hmem := (foldl_keeps State.hostMem (f := fun s t => complete t (okWith 0) s) (by simp) erasers (saveEnded save u)).trans hm
  obtain ⟨gi, gm, gs⟩ := settleDebug_keeps (erasers.foldl (fun s t => complete t (okWith 0) s) (saveEnded save u))
  refine ⟨(gs k (by rwa [slotAt_congr hkeys])).trans (slotAt_congr hkeys k), identOf_congr (gi.trans hids) _ _, fun hd j => ?_, gm.trans hmem⟩
  rw [zeroingEnds, settleDebug_idle (by rw [hkeys, hd]), slotAt_congr hkeys]

/-- The slot EMPTY again, its record written anew: no keys, no index records, no PREVIOUS (R164). -/
def zeroed (k : Nat) (s : State) : State :=
  writeRecord k (setSlot k
    { state := 1, owner := (slotAt k s).owner, authFail := (slotAt k s).authFail, replay := (slotAt k s).replay
      nonceEx := (slotAt k s).nonceEx, keyErased := (slotAt k s).keyErased, lastLoad := (slotAt k s).lastLoad
      writes := (slotAt k s).writes } s)

theorem slotAt_zeroed_ne {j k : Nat} (s : State) (h : j ≠ k) : slotAt j (zeroed k s) = slotAt j s := by
  rw [zeroed, slotAt_writeRecord_ne _ h, slotAt_setSlot_ne _ _ _ _ h]

theorem zeroed_debugWait (k : Nat) (s : State) : (zeroed k s).keys.debugWait = s.keys.debugWait := by
  rw [zeroed, writeRecord_debugWait]
  rfl

theorem zeroed_hostMem (k : Nat) (s : State) : (zeroed k s).hostMem = s.hostMem := by
  rw [zeroed, writeRecord_hostMem]
  rfl

theorem slotAt_zeroed (k : Nat) (s : State) : slotAt k (zeroed k s) =
    { state := 1, owner := (slotAt k s).owner, authFail := (slotAt k s).authFail, replay := (slotAt k s).replay
      nonceEx := (slotAt k s).nonceEx, keyErased := (slotAt k s).keyErased, lastLoad := (slotAt k s).lastLoad
      writes := ((slotAt k s).writes + 1) % 2 ^ 32 } := by
  rw [zeroed, slotAt_writeRecord, slotAt_setSlot]

theorem freeSlotNow_debugWait (k : Nat) (s : State) : (freeSlotNow k s).keys.debugWait = s.keys.debugWait := rfl

theorem freeSlotNow_hostMem (k : Nat) (s : State) : (freeSlotNow k s).hostMem = s.hostMem := rfl

theorem zeroingDo_zeroes {k : Nat} {s : State} (h : (slotAt k s).state = 3) (ho : opsOn k s = 0) :
    zeroingDo k s = zeroingEnds (slotAt k s).save (slotAt k s).erasers
      (if (slotAt k s).releasing then freeSlotNow k (zeroed k s) else zeroed k s) := by
  unfold zeroingDo
  rw [if_pos ⟨h, ho⟩]; rfl

theorem zeroingDo_keeps {k : Nat} {s : State} (h : (slotAt k s).state = 3) (ho : opsOn k s = 0) (hr : (slotAt k s).releasing = false) :
    zeroingDo k s = zeroingEnds (slotAt k s).save (slotAt k s).erasers (zeroed k s) := by
  rw [zeroingDo_zeroes h ho, hr, if_neg Bool.false_ne_true]

theorem zeroingDo_frees {k : Nat} {s : State} (h : (slotAt k s).state = 3) (ho : opsOn k s = 0) (hr : (slotAt k s).releasing = true) :
    zeroingDo k s = zeroingEnds (slotAt k s).save (slotAt k s).erasers (freeSlotNow k (zeroed k s)) := by
  rw [zeroingDo_zeroes h ho, hr, if_pos rfl]

/-- The zeroing of a slot that stays in use (R164). -/
theorem zeroing_kept (k : Nat) (s : State) :
    let t := zeroingEnds (slotAt k s).save (slotAt k s).erasers (zeroed k s)
    slotAt k t = slotAt k (zeroed k s) ∧ (s.keys.debugWait = [] → ∀ j, j ≠ k → slotAt j t = slotAt j s) ∧ t.hostMem = s.hostMem := by
  obtain ⟨hslot, -, hothers, hmem⟩ :=
    zeroingEnds_keeps (slotAt k s).save (slotAt k s).erasers (u := zeroed k s) (k := k) (by simp [slotAt_zeroed])
  exact ⟨hslot, fun hd j hj => (hothers ((zeroed_debugWait k s).trans hd) j).trans (slotAt_zeroed_ne s hj), hmem.trans (zeroed_hostMem k s)⟩

/-- The zeroing of a slot whose release waits for it (R160, R164). -/
theorem zeroing_released (k : Nat) (s : State) :
    let t := zeroingEnds (slotAt k s).save (slotAt k s).erasers (freeSlotNow k (zeroed k s))
    slotAt k t = { writes := ((slotAt k s).writes + 1) % 2 ^ 32 } ∧ (identOf .slot k t).used = false ∧
      (s.keys.debugWait = [] → ∀ j, j ≠ k → slotAt j t = slotAt j s) ∧ t.hostMem = s.hostMem := by
  obtain ⟨hfree, hid⟩ := freeSlotNow_facts k (zeroed k s)
  obtain ⟨hslot, hident, hothers, hmem⟩ :=
    zeroingEnds_keeps (slotAt k s).save (slotAt k s).erasers (u := freeSlotNow k (zeroed k s)) (k := k) (by simp [hfree])
  refine ⟨by rw [hslot, hfree, slotAt_zeroed], by rw [hident, hid], fun hd j hj => ?_, ?_⟩
  · rw [hothers (by rw [freeSlotNow_debugWait, zeroed_debugWait, hd]) j, slotAt_freeSlotNow_ne _ hj, slotAt_zeroed_ne s hj]
  · rw [hmem, freeSlotNow_hostMem, zeroed_hostMem]

theorem exec_eraseZeroingDone {k : Nat} (s : State) (h : k < 2097152) : exec (.eraseZeroingDone k) s = .next (zeroingDo k s) :=
  onWf_of_wf (i := .eraseZeroingDone k) (decide_eq_true h)

theorem exec_rxGraceEnd {k : Nat} (s : State) (h : k < 2097152) : exec (.rxGraceEnd k) s = .next (graceEndDo k s) :=
  onWf_of_wf (i := .rxGraceEnd k) (decide_eq_true h)

/-! ### The commands -/

theorem exec_keySlotAlloc (src : CmdSrc) (s : State) (h : src.wf = true) : exec (.keySlotAlloc src) s =
    .next (command 0x64 (notBlank (strictly ([(63, 0)], [(5, 0), (31, 16)], []) slotAllocBody)) src s) :=
  onWf_of_wf (i := .keySlotAlloc src) h

theorem exec_keySlotLoad (src : CmdSrc) (s : State) (h : src.wf = true) : exec (.keySlotLoad src) s =
    .next (command 0x65 (notBlank (strictly ([(63, 0)], [(63, 0)], [(15, 0)]) slotLoadBody)) src s) :=
  onWf_of_wf (i := .keySlotLoad src) h

theorem exec_keySlotErase (src : CmdSrc) (s : State) (h : src.wf = true) : exec (.keySlotErase src) s =
    .next (command 0x66 (notBlank (strictly ([(63, 0)], [], []) slotEraseBody)) src s) := onWf_of_wf (i := .keySlotErase src) h

theorem exec_keySlotRelease (src : CmdSrc) (s : State) (h : src.wf = true) : exec (.keySlotRelease src) s =
    .next (command 0x67 (notBlank (strictly ([(63, 0)], [], []) slotReleaseBody)) src s) := onWf_of_wf (i := .keySlotRelease src) h

theorem exec_keySlotRead (src : CmdSrc) (s : State) (h : src.wf = true) : exec (.keySlotRead src) s =
    .next (command 0x6A (strictly ([(63, 0)], [(63, 0)], [(0, 0)]) slotReadBody) src s) := onWf_of_wf (i := .keySlotRead src) h

/-- With its header in order, its owner right and its key there, a blob unwraps or is refused (R157, R158). -/
theorem readSession_unwraps {r : Req} {a f : Nat} {s : State} {key : List Byte} (k : List Byte → Answer)
    (hh : headerFine 2 (hostBytes a 16 s) = true) (hf : byteAt (hostBytes a 16 s) 6 = f) (hk : wrapKey (hostBytes a 16 s) s = some key) :
    readSession r a f s k = match unwrapBlob (hostBytes a 152 s) key s with
      | none => unwrapFail r (hostBytes a 16 s) s
      | some p => if sessionFine p then k p else answer s (refuse stNotStarted 0x01) := by
  unfold readSession
  extract_lets h
  rw [show headerFine 2 h = true from hh, show wrapKey h s = some key from hk, if_neg (show ¬byteAt h 6 ≠ f from fun hne => hne hf)]
  rfl

theorem readSession_fine {r : Req} {a f : Nat} {s : State} {key p : List Byte} (k : List Byte → Answer)
    (hh : headerFine 2 (hostBytes a 16 s) = true) (hf : byteAt (hostBytes a 16 s) 6 = f) (hk : wrapKey (hostBytes a 16 s) s = some key)
    (hu : unwrapBlob (hostBytes a 152 s) key s = some p) (hp : sessionFine p = true) : readSession r a f s k = k p := by
  rw [readSession_unwraps k hh hf hk, hu]
  exact if_pos hp

theorem readSession_fails {r : Req} {a f : Nat} {s : State} {key : List Byte} (k : List Byte → Answer)
    (hh : headerFine 2 (hostBytes a 16 s) = true) (hf : byteAt (hostBytes a 16 s) 6 = f) (hk : wrapKey (hostBytes a 16 s) s = some key)
    (hu : unwrapBlob (hostBytes a 152 s) key s = none) : readSession r a f s k = unwrapFail r (hostBytes a 16 s) s := by
  rw [readSession_unwraps k hh hf hk, hu]

/-- Outside BLANK and with no reserved bit set, the chapter's body decides. -/
theorem keyBody_clear {l : Layout} {body : Req → State → Answer} {r : Req} {s : State} (hl : s.keys.life ≠ 0) (hz : reservedZero l r = true) :
    notBlank (strictly l body) r s = body r s := by
  rw [notBlank_of hl, strictly_clear hz]

theorem slotAlloc_empty {r : Req} {s : State} {k : Nat} (hg : fld r.w2 31 16 ≤ 10000) (ha : fld r.w1 63 0 = 0) (hk : freeSlot r s = some k) :
    slotAllocBody r s = (takeSlot k (fld r.w2 5 0) s, some (okWith (handleFor .slot k s))) := by
  simp only [slotAllocBody, if_neg (Nat.not_lt.mpr hg), if_pos ha, hk, answer]

theorem slotAlloc_loaded {r : Req} {s : State} {k : Nat} {key p : List Byte} (hg : fld r.w2 31 16 ≤ 10000) (ha : fld r.w1 63 0 ≠ 0)
    (hk : freeSlot r s = some k) (hh : headerFine 2 (hostBytes (fld r.w1 63 0) 16 s) = true)
    (hf : byteAt (hostBytes (fld r.w1 63 0) 16 s) 6 = fld r.w2 5 0) (hw : wrapKey (hostBytes (fld r.w1 63 0) 16 s) s = some key)
    (hu : unwrapBlob (hostBytes (fld r.w1 63 0) 152 s) key s = some p) (hp : sessionFine p = true) :
    slotAllocBody r s =
      (loadSession k p (fld r.w2 31 16) (takeSlot k (fld r.w2 5 0) s), some (okWith (handleFor .slot k s))) := by
  simp only [slotAllocBody, if_neg (Nat.not_lt.mpr hg), if_neg ha, readSession_fine _ hh hf hw hu hp, hk, answer]

/-- A load of a slot that can be loaded reads the blob for the slot's owner (R160). -/
theorem slotLoad_reads {r : Req} {s : State} (hn : slotNamed r s)
    (hst : (slotAt (handleIdx (fld r.w1 63 0)) s).state = 1 ∨ (slotAt (handleIdx (fld r.w1 63 0)) s).state = 2)
    (hg : fld r.w3 15 0 ≤ 10000) :
    slotLoadBody r s = readSession r (fld r.w2 63 0) (slotAt (handleIdx (fld r.w1 63 0)) s).owner s (fun p =>
      if (slotAt (handleIdx (fld r.w1 63 0)) s).state = 2 ∧ byteAt p 0x12 ≠ 3 ∧
          leAt p 0x10 2 ≠ (slotAt (handleIdx (fld r.w1 63 0)) s).profile then answer s (refuse stNotStarted 0x01)
      else answer (loadSession (handleIdx (fld r.w1 63 0)) p (fld r.w3 15 0) s) (okWith 0)) := by
  have hst' : ¬((slotAt (handleIdx (fld r.w1 63 0)) s).state ≠ 1 ∧ (slotAt (handleIdx (fld r.w1 63 0)) s).state ≠ 2) := by omega
  rw [slotLoadBody, withSlot_named hn]
  simp only [if_neg hst', if_neg (Nat.not_lt.mpr hg)]

@[simp] theorem slotAt_setProgress (k p : Nat) (tk : Ticket) (s : State) : slotAt k (setProgress tk p s) = slotAt k s :=
  slotAt_congr (by simp) k

/-- KEY_SLOT_ERASE has begun: the slot is ERASING and the command waits (R164). -/
def erasing (tk : Ticket) (k : Nat) (s : State) : State :=
  setProgress tk 1 (updSlot k (fun v => { v with erasers := v.erasers ++ [tk] }) (setErasing k s))

theorem slotErase_begins {r : Req} {s : State} (hn : slotNamed r s) :
    slotEraseBody r s = (erasing r.tk (handleIdx (fld r.w1 63 0)) s, none) := by
  rw [slotEraseBody, withSlot_named hn]
  rfl

theorem slotAt_erasing {tk : Ticket} {k : Nat} {s : State} (h : (slotAt k s).state = 1 ∨ (slotAt k s).state = 2) :
    slotAt k (erasing tk k s) = { slotAt k s with state := 3, erasers := (slotAt k s).erasers ++ [tk] } := by
  rw [erasing, slotAt_setProgress, slotAt_updSlot, setErasing_live h, slotAt_setSlot]

theorem erasing_keeps (tk : Ticket) (k : Nat) (s : State) : (∀ j, j ≠ k → slotAt j (erasing tk k s) = slotAt j s) ∧
    (erasing tk k s).ids = s.ids ∧ (erasing tk k s).dram = s.dram ∧ (erasing tk k s).hostMem = s.hostMem := by
  refine ⟨fun j hj => ?_, by simp [erasing, setErasing], by simp [erasing, setErasing], by simp [erasing, setErasing]⟩
  rw [erasing, slotAt_setProgress, slotAt_updSlot_ne _ _ _ _ hj, slotAt_setErasing_ne _ hj]

theorem slotRelease_named {r : Req} {s : State} (hn : slotNamed r s) :
    slotReleaseBody r s =
      if 0 < binds (handleIdx (fld r.w1 63 0)) s then (s, some (refuse stNotStarted 0x0B))
      else if (slotAt (handleIdx (fld r.w1 63 0)) s).state = 1 then (freeSlotNow (handleIdx (fld r.w1 63 0)) s, some (okWith 0))
      else (updSlot (handleIdx (fld r.w1 63 0)) (fun v => { v with erasers := v.erasers ++ [r.tk], releasing := true })
        (setErasing (handleIdx (fld r.w1 63 0)) s), none) := by
  rw [slotReleaseBody, withSlot_named hn]
  rfl

@[simp] theorem slotAt_hostPut (k a : Nat) (bs : List Byte) (s : State) : slotAt k (hostPut a bs s) = slotAt k s := rfl

theorem slotRead_named {r : Req} {s : State} (hn : slotNamed r s) :
    slotReadBody r s =
      let k := handleIdx (fld r.w1 63 0)
      let t := hostPut (fld r.w2 63 0) (bytesOfWords (slotImage k s)) s
      (if bitOf r.w3 0 = true then setSlot k { slotAt k s with authFail := 0, replay := 0, nonceEx := 0, keyErased := 0 } t else t,
        some (okWith 0)) := by
  rw [slotReadBody, withSlot_named hn]
  simp only [updSlot, slotAt_hostPut, answer]

/-- Settles O40: the commands by the equations of their bodies, the slot's changes by the laws of its record. -/
theorem keySlotLife : Obligations.KeySlotLife := by
  refine ⟨fun k => completes_of exec_keySlotAlloc ?_, fun k key p => completes_of exec_keySlotAlloc ?_, fun r s k => freeSlot_spec,
    takeSlot_facts, fun key p => completes_of exec_keySlotLoad ?_, fun key => completes_of exec_keySlotLoad ?_, loadSession_facts, ?erase,
    ?zeroing, ?zeroingReleased, completes_of exec_keySlotRelease ?_, freeSlotNow_facts, begins_of exec_keySlotRelease ?_,
    completes_of exec_keySlotRelease ?_, completes_of exec_keySlotRead ?_, ?graceEnd, ?record⟩
  case refine_1 =>
    rintro r s ⟨hl, hz, hg, ha, hk⟩
    rw [keyBody_clear hl hz, slotAlloc_empty hg ha hk]
  case refine_2 =>
    rintro r s ⟨hl, hz, hg, ha, hk, hh, hf, hw, hu, hp⟩
    rw [keyBody_clear hl hz, slotAlloc_loaded hg ha hk hh hf hw hu hp]
  case refine_3 =>
    rintro r s ⟨hn, hl, hz, hst, hg, hh, hf, hw, hu, hp, hprof⟩
    rw [keyBody_clear hl hz, slotLoad_reads hn hst hg, readSession_fine _ hh hf hw hu hp, if_neg fun hbad => (hprof hbad.1).elim hbad.2.1 hbad.2.2, answer]
  case refine_4 =>
    rintro r s ⟨hn, hl, hst, hg, hh, hf, hw, hu⟩
    rw [notBlank_of hl]
    exact strictly_refused ((slotLoad_reads hn hst hg).trans (readSession_fails _ hh hf hw hu)) rfl
  case erase =>
    intro src s s1 r hwf hp hn hl hz hst
    have hrun : exec (.keySlotErase src) s = .next (erasing r.tk (handleIdx (fld r.w1 63 0)) s1) := by
      rw [exec_keySlotErase src s hwf, command_presented hp, keyBody_clear hl hz, slotErase_begins hn]
    exact ⟨_, hrun, by rw [slotAt_erasing hst], by rw [slotAt_erasing hst], erasing_keeps r.tk _ s1⟩
  case zeroing =>
    intro k s hk hst ho hrel
    obtain ⟨hslot, hothers, hmem⟩ := zeroing_kept k s
    refine ⟨_, (exec_eraseZeroingDone s hk).trans (congrArg _ (zeroingDo_keeps hst ho hrel)), ?_⟩
    rw [hslot, slotAt_zeroed]
    exact ⟨rfl, rfl, rfl, rfl, rfl, rfl, rfl, rfl, rfl, hothers, hmem⟩
  case zeroingReleased =>
    intro k s hk hst ho hrel
    exact ⟨_, (exec_eraseZeroingDone s hk).trans (congrArg _ (zeroingDo_frees hst ho hrel)), zeroing_released k s⟩
  case refine_5 =>
    rintro r s ⟨hn, hl, hz, hb, hst⟩
    rw [keyBody_clear hl hz, slotRelease_named hn, if_neg (Nat.not_lt_of_le (Nat.le_of_eq hb)), if_pos hst]
  case refine_6 =>
    rintro r s ⟨hn, hl, hz, hb, hst⟩
    rw [keyBody_clear hl hz, slotRelease_named hn, if_neg (Nat.not_lt_of_le (Nat.le_of_eq hb)),
      if_neg (fun hone => absurd (hst.symm.trans hone) (by decide)), setErasing_live (.inr hst), updSlot, slotAt_setSlot]
  case refine_7 =>
    rintro r s ⟨hn, hl, hb⟩
    rw [notBlank_of hl]
    exact strictly_refused (by rw [slotRelease_named hn, if_pos hb]) rfl
  case refine_8 =>
    rintro r s ⟨hn, hz⟩
    rw [strictly_clear hz, slotRead_named hn]
  case graceEnd =>
    intro k s p hk hp
    rw [exec_rxGraceEnd s hk, graceEndDo, hp]
    rfl
  case record =>
    intro k s
    exact ⟨slotAt_writeRecord k s, fun j hj => slotAt_writeRecord_ne s hj, writeRecord_ids k s, writeRecord_hq k s, writeRecord_media k s,
      writeRecord_hostMem k s, fun hw hl x hx => writeRecord_other hw hl hx⟩

/-! ## O56: resets and boot -/

/-- Stopping the dump writer leaves its marks in DRAM and in the dump's own state. -/
structure OnlyDumps (s t : State) : Prop where
  pending : t.pending = s.pending
  hostMem : t.hostMem = s.hostMem
  evr : t.evr = s.evr
  keys : t.keys = s.keys
  body : t.body = s.body

theorem onlyDumps_noteDump (s : State) : OnlyDumps s (noteDump s) := by
  unfold noteDump
  split <;> exact ⟨rfl, rfl, rfl, rfl, rfl⟩

theorem OnlyDumps.trans {s t u : State} (h : OnlyDumps s t) (g : OnlyDumps t u) : OnlyDumps s u :=
  ⟨g.pending.trans h.pending, g.hostMem.trans h.hostMem, g.evr.trans h.evr, g.keys.trans h.keys, g.body.trans h.body⟩

/-- A reset that stops the writer touches neither the recorder nor the world outside (R445, R454). -/
theorem onlyDumps_stopDumps (s : State) : OnlyDumps s (stopDumps s) := by
  unfold stopDumps
  refine OnlyDumps.trans ?_ (onlyDumps_noteDump _)
  dsimp only
  split <;> split <;> exact ⟨rfl, rfl, rfl, rfl, rfl⟩

theorem exec_perst (s : State) : exec .perst s = .next (doIf s.body.powered (coldReset 4 true) s) := onWf_of_wf (i := .perst) rfl

theorem exec_serviceReset (s : State) : exec .serviceReset s = .next (doIf s.body.powered (coldReset 6 true) s) :=
  onWf_of_wf (i := .serviceReset) rfl

theorem exec_coldWrite {who : Nat} {s : State} (h : mayWrite who 0x3020 s) : exec (.coldWrite who) s = .next (coldDo who s) :=
  (onWf_of_wf (i := .coldWrite who) (decide_eq_true h.1)).trans (congrArg _ (gated_granted h))

theorem exec_warmWrite {who : Nat} {s : State} (h : mayWrite who 0x3020 s) : exec (.warmWrite who) s = .next (warmDo who s) :=
  (onWf_of_wf (i := .warmWrite who) (decide_eq_true h.1)).trans (congrArg _ (gated_granted h))

theorem exec_coldBoot (badTiles badStacks : List Nat) (s : State) :
    exec (.coldBoot badTiles badStacks) s = .next (coldBootDo badTiles badStacks s) := onWf_of_wf (i := .coldBoot badTiles badStacks) rfl

theorem exec_recoveryLoad {who : Nat} {v : Word64} {s : State} (h : mayWrite who 0x3038 s) :
    exec (.recoveryLoad who v) s = .next (recoveryDo who v s) :=
  (onWf_of_wf (i := .recoveryLoad who v) (decide_eq_true h.1)).trans (congrArg _ (gated_granted h))

theorem warmCore_lastWarm (last : Nat) (h : Bool) (s : State) : (warmCore last h s).body.lastWarm = last := rfl

/-- Settles O56: each reset and boot command by the branch that its condition takes. -/
theorem resetsAndBoot : Obligations.ResetsAndBoot := by
  refine ⟨⟨rfl, ⟨rfl, rfl⟩, rfl, rfl, rfl, rfl, rfl, rfl, rfl, rfl, rfl, rfl, rfl, rfl, rfl, rfl, rfl, rfl, fun _ => ⟨rfl, rfl⟩⟩,
    ?perst, ?unpowered, ?coldReset, ?cold, ?others, ?warm, ?warmHeld, warmCore_lastWarm, ?boot, ?noBoot, ?supply, ?noRecovery, ?recovery⟩
  case perst =>
    intro s hp
    rw [exec_perst, exec_serviceReset, hp]
    exact ⟨rfl, rfl⟩
  case unpowered =>
    intro s hp
    rw [exec_perst, exec_serviceReset, hp]
    exact ⟨rfl, rfl⟩
  case coldReset =>
    intro cause kept s
    have h := onlyDumps_stopDumps s
    have hpow : (stopDumps s).body.powered = s.body.powered := by rw [h.body]
    have hn : (stopDumps s).evr.n = s.evr.n := by rw [h.evr]
    have hslots : (stopDumps s).evr.slots = s.evr.slots := by rw [h.evr]
    have hroot : (stopDumps s).keys.rootKey = s.keys.rootKey := by rw [h.keys]
    exact ⟨rfl, rfl, rfl, hpow, rfl, rfl, rfl, rfl, rfl, rfl, rfl, h.pending, h.hostMem, hn, hslots, hroot,
      fun hk => if_neg (by simp [hk])⟩
  case cold =>
    intro s hw hp
    rw [exec_coldWrite hw, coldDo, if_pos ⟨rfl, hp⟩]
  case others =>
    intro who s hw hn
    rw [exec_coldWrite hw, exec_warmWrite hw, coldDo, warmDo, if_neg fun h => hn h.1, if_neg fun h => hn h.1]
    exact ⟨rfl, rfl⟩
  case warm =>
    intro s hw hh hb
    rw [exec_warmWrite hw, warmDo, if_pos (by simp [hh, hb])]
  case warmHeld =>
    intro s hw hh
    rw [exec_warmWrite hw, warmDo, if_neg (by simp [hh])]
  case boot =>
    intro badTiles badStacks s hb hh
    rw [exec_coldBoot, coldBootDo, if_neg (by simp [hb, hh])]
  case noBoot =>
    intro badTiles badStacks s h
    rw [exec_coldBoot, coldBootDo, if_pos (by simpa using h)]
  case supply => exact fun s => ⟨rfl, Nat.le_max_right _ _, rfl⟩
  case noRecovery =>
    intro who v s hw h
    rw [exec_recoveryLoad hw, recoveryDo, if_pos h]
  case recovery =>
    intro v s hw h
    exact (exec_recoveryLoad hw).trans (congrArg _ (if_neg fun hother => hother.elim (· rfl) (· h)))

end Sys2Proof
end

section
/-! PROOFS. The statement of the supply: the antenna monitors, the loop pass and the posture (R44-R59). -/

namespace Sys2Proof

open Machine

/-! ## O8: what the loop pass puts in force, and what it leaves -/

theorem exec_antennaMeasure {i : Nat} (loopPs : Nat) (tempC : Int) (s : State) (h : i < 96) :
    exec (.antennaMeasure i loopPs tempC) s = .next (antennaDo i loopPs tempC s) :=
  onWf_of_wf (i := .antennaMeasure i loopPs tempC) (decide_eq_true h)

theorem exec_voltageLoopPass (inputW : Nat) (caseC : Int) (s : State) :
    exec (.voltageLoopPass inputW caseC) s = .next (loopPassDo inputW caseC s) :=
  onWf_of_wf (i := .voltageLoopPass inputW caseC) rfl

theorem exec_posture {who : Nat} (v : Word64) {s : State} (h : mayWrite who 0x8000 s) :
    exec (.posture who v) s = .next (postureDo v s) :=
  (onWf_of_wf (i := .posture who v) (decide_eq_true h.1)).trans (congrArg _ (gated_granted h))

/-- What every stage of a pass leaves as it is; the pass itself sets the posture in force, its inputs and its grid. Islands, factors
and events, which the stages move, are not among the fields. -/
structure PassView where
  posture : Nat
  active : Nat
  inputW : Nat
  caseC : Int
  loopFrom : Option Nat
  nextPass : Nat
  dram : Mem
  hostMem : Mem
  hq : Tab Queue
  keys : Keys

def passView (s : State) : PassView :=
  ⟨s.power.posture, s.power.active, s.power.inputW, s.power.caseC, s.power.loopFrom, s.power.nextPass, s.dram, s.hostMem, s.hq, s.keys⟩

@[simp] theorem passView_setIsland (i : Nat) (v : Island) (s : State) : passView (setIsland i v s) = passView s := rfl

@[simp] theorem passView_pfVector (v : Nat) (s : State) : passView (pfVector v s) = passView s := rfl

@[simp] theorem passView_record (code : Nat) (items : List (Nat × Nat)) (s : State) : passView (record code items s) = passView s := by
  simp [passView]

@[simp] theorem passView_enginePost (type poster forFn param : Nat) (w2 w3 : Word128) (s : State) :
    passView (enginePost type poster forFn param w2 w3 s) = passView s := by
  simp [passView]

@[simp] theorem passView_testWork (mask : Nat) (s : State) : passView (testWork mask s) = passView s :=
  foldl_keeps passView (fun s g => by split <;> simp) _ s

@[simp] theorem passView_islandPass (i : Nat) (s : State) : passView (islandPass i s) = passView s := by
  simp only [islandPass, passView_setIsland]

/-- The view read field by field, in the order in which O8 names them. -/
theorem fields_of_passView {t : State} {v : PassView} (h : passView t = v) :
    t.power.active = v.active ∧ t.power.posture = v.posture ∧ t.power.inputW = v.inputW ∧ t.power.caseC = v.caseC ∧
      t.power.loopFrom = v.loopFrom ∧ t.power.nextPass = v.nextPass ∧ t.dram = v.dram ∧ t.hostMem = v.hostMem ∧ t.hq = v.hq ∧
      t.keys = v.keys := by
  subst h
  and_intros <;> rfl

/-- A choice between two states of one view has that view. -/
theorem passView_ite {c : Prop} [Decidable c] {s t u : State} (ht : passView t = passView s) (hu : passView u = passView s) :
    passView (if c then t else u) = passView s := by
  split
  · exact ht
  · exact hu

/-! The events that a pass sets are outside the view. -/

theorem passView_evSlack (s : State) : passView { s with power := { s.power with evSlack := true } } = passView s := rfl

theorem passView_evLimitBind (s : State) : passView { s with power := { s.power with evLimitBind := true } } = passView s := rfl

theorem passView_limitUnmet (b : Bool) (s : State) : passView { s with power := { s.power with limitUnmet := b } } = passView s := rfl

@[simp] theorem passView_islandWatch (i : Nat) (s : State) : passView (islandWatch i s) = passView s := by
  simp only [islandWatch, passView_setIsland]
  have hhot := fun (c : Prop) [Decidable c] (items : List (Nat × Nat)) =>
    passView_ite (c := c) (passView_record 0x0202 items s) (rfl : passView s = passView s)
  refine passView_ite ?_ (hhot _ _)
  rw [passView_record, passView_pfVector, passView_evSlack]
  exact hhot _ _

theorem passView_ceilingPass (exceeds : Bool) (most : Option Int) (i : Nat) (s : State) :
    passView (ceilingPass exceeds most i s) = passView s :=
  passView_setIsland i _ s

theorem passView_ceilings (exceeds : Bool) (most : Option Int) (s : State) :
    passView ((List.range 64).foldl (fun t i => ceilingPass exceeds most i t) s) = passView s :=
  foldl_keeps passView (fun t i => passView_ceilingPass exceeds most i t) _ s

@[simp] theorem passView_limitPass (s : State) : passView (limitPass s) = passView s := by
  simp only [limitPass]
  have hlowered := passView_ceilings (decide (s.power.limitW < s.power.inputW)) (mostSlack s) s
  -- What follows holds of any state that the fold over the ceilings leaves.
  generalize (List.range 64).foldl _ s = lowered at hlowered ⊢
  have hbound (c : Prop) [Decidable c] :
      passView (if c then pfVector 2 { lowered with power := { lowered.power with evLimitBind := true } } else lowered) = passView s :=
    passView_ite ((passView_evLimitBind lowered).trans hlowered) hlowered
  refine passView_ite (passView_ite (passView_ite (hbound _) ?_) (hbound _)) (passView_ite ?_ hlowered)
  · rw [passView_pfVector, passView_limitUnmet]
    exact hbound _
  · exact (passView_limitUnmet false lowered).trans hlowered

theorem passView_settleOver (p : Nat) (s : State) : passView (settleOver p s) = passView s :=
  passView_ite rfl rfl

@[simp] theorem passView_updateFactors (cut : Nat → Bool) (p : Nat) (s : State) : passView (updateFactors cut p s) = passView s := by
  simp only [updateFactors]
  refine passView_ite ((passView_settleOver _ _).trans rfl) (passView_ite rfl ?_)
  rw [passView_enginePost, passView_pfVector]
  rfl

/-! Each stage over all islands, or all partitions, keeps the view. -/

theorem passView_watchIslands (is : List Nat) (s : State) : passView (is.foldl (fun t i => islandWatch i t) s) = passView s :=
  foldl_keeps passView (fun t i => passView_islandWatch i t) is s

theorem passView_passIslands (is : List Nat) (s : State) : passView (is.foldl (fun t i => islandPass i t) s) = passView s :=
  foldl_keeps passView (fun t i => passView_islandPass i t) is s

theorem passView_updateParts (cut : Nat → Bool) (ps : List Nat) (s : State) :
    passView (ps.foldl (fun t p => updateFactors cut p t) s) = passView s :=
  foldl_keeps passView (fun t p => passView_updateFactors cut p t) ps s

/-- The free values that a pass draws and the arbitrations that it counts are outside the view (R41). -/
theorem passView_closing (k free : Nat) (s : State) : passView (count 0x8020 k { s with free := free }) = passView s := rfl

/-- A pass puts the written posture in force and keeps its measured inputs (R47, R49, R53, R54). -/
theorem passView_loopPass (inputW : Nat) (caseC : Int) (s : State) :
    passView (loopPass inputW caseC s) =
      { passView s with active := (passView s).posture, inputW := inputW % 65536, caseC := caseC } := by
  simp only [loopPass]
  rw [passView_closing, passView_updateParts, passView_passIslands, passView_limitPass, passView_watchIslands]
  rfl

theorem beginLoop_first {s : State} (h : s.power.loopFrom = none) :
    beginLoop s = testWork (2 ^ 64 - 1) { s with power := { s.power with loopFrom := some (nowNs s), nextPass := nowNs s + 50000 } } := by
  rw [beginLoop, h]

theorem beginLoop_later {s : State} {t : Nat} (h : s.power.loopFrom = some t) :
    beginLoop s = { s with power := { s.power with nextPass := t + ((nowNs s - t) / 50000 + 1) * 50000 } } := by
  rw [beginLoop, h]

theorem passView_nextPass {s : State} {t : Nat} (h : s.power.loopFrom = some t) (n : Nat) :
    passView { s with power := { s.power with nextPass := n } } = { passView s with loopFrom := some t, nextPass := n } := by
  simp only [passView, h]

/-- The first pass begins the grid, and each pass names the grid's next point (R47, R49). -/
theorem passView_beginLoop (s : State) :
    passView (beginLoop s) =
      { passView s with
        loopFrom := some (s.power.loopFrom.getD (nowNs s))
        nextPass := s.power.loopFrom.getD (nowNs s) + ((nowNs s - s.power.loopFrom.getD (nowNs s)) / 50000 + 1) * 50000 } := by
  cases h : s.power.loopFrom with
  | none =>
    rw [beginLoop_first h, passView_testWork]
    simp only [passView, Option.getD_none, Nat.sub_self, Nat.zero_div, Nat.zero_add, Nat.one_mul]
  | some t =>
    rw [beginLoop_later h, passView_nextPass h, Option.getD_some]

/-- When a pass is due: at the first measurement of the last monitor, and at each point of the grid (R47, R49, R50). -/
theorem passDue_iff (s : State) : passDue s = true ↔
    (s.power.loopFrom = none ∧ ∀ i, i < 96 → (islandOf i s).seen = true) ∨ (s.power.loopFrom ≠ none ∧ s.power.nextPass ≤ nowNs s) := by
  unfold passDue
  split
  next h => simp [h]
  next t h => simp [h]

/-- A pass is not due while a monitor has yet to measure, nor between two points of the grid (R49, R50). -/
theorem passDue_false_of {s : State}
    (h : (s.power.loopFrom = none ∧ ∃ i, i < 96 ∧ (islandOf i s).seen = false) ∨ (s.power.loopFrom ≠ none ∧ nowNs s < s.power.nextPass)) :
    ¬passDue s = true := by
  rw [passDue_iff]
  rintro (⟨hnone, hall⟩ | ⟨hsome, hle⟩)
  · obtain ⟨_, i, hi, hseen⟩ | ⟨hsome, _⟩ := h
    · exact Bool.false_ne_true (hseen.symm.trans (hall i hi))
    · exact hsome hnone
  · obtain ⟨hnone, _⟩ | ⟨_, hlt⟩ := h
    · exact hsome hnone
    · exact Nat.not_lt_of_le hle hlt

/-- Settles O8: the measurement and the write by their definitions, the pass by the view that each of its stages keeps. -/
theorem powerPostureAndLoop : Obligations.PowerPostureAndLoop := by
  refine ⟨?measure, ?pass, ?notDue, ?posture⟩
  case measure =>
    intro i loopPs tempC s hi
    rw [exec_antennaMeasure loopPs tempC s hi]
    simp [antennaDo, slackPm]
  case pass =>
    intro inputW caseC s hdue
    have hview := passView_loopPass inputW caseC (beginLoop s)
    rw [passView_beginLoop] at hview
    refine ⟨_, (exec_voltageLoopPass inputW caseC s).trans (congrArg _ (if_pos ((passDue_iff s).mpr hdue))), ?_⟩
    exact fields_of_passView hview
  case notDue =>
    intro inputW caseC s h
    exact (exec_voltageLoopPass inputW caseC s).trans (congrArg _ (if_neg (passDue_false_of h)))
  case posture => exact fun who v s h => exec_posture v h

end Sys2Proof
end

section
/-! PROOFS. The statements of the Fabric Image: the store and the owner keys, loads up to their drain, and the end of the drain
(R60-R86). -/

namespace Sys2Proof

open Machine

/-! ## What a table lists after a map over its values -/

theorem cellsFind_mapVals {α β : Type} (f : Nat → α → β) (l : List (Nat × α)) (k : Nat) :
    cellsFind (l.map (fun c => (c.1, f c.1 c.2))) k = (cellsFind l k).map (f k) := by
  induction l with
  | nil => rfl
  | cons c r ih =>
    simp only [List.map_cons, cellsFind]
    split
    next h => rw [h]; rfl
    next => exact ih

@[simp] theorem Tab.find_mapVals {α β : Type} (t : Tab α) (f : Nat → α → β) (k : Nat) :
    (t.mapVals f).find? k = (t.find? k).map (f k) :=
  cellsFind_mapVals f t.cells k

/-! ## O26: the image store and the owner keys -/

theorem exec_fabStoreImage (src : CmdSrc) (s : State) (h : src.wf = true) :
    exec (.fabStoreImage src) s = .next (command 0xB0 fabStoreBody src s) := onWf_of_wf (i := .fabStoreImage src) h

theorem exec_fabEnrollKey (src : CmdSrc) (s : State) (h : src.wf = true) :
    exec (.fabEnrollKey src) s = .next (command 0xB4 enrolBody src s) := onWf_of_wf (i := .fabEnrollKey src) h

/-- Another function's store is refused without a reason (R79, log entry 16). -/
theorem fabStore_denied {r : Req} {s : State} (ho : r.owner = false) : fabStoreBody r s = answer s (refuse stRefused 0) :=
  if_pos (by simp [ho])

theorem fabStore_busy {r : Req} {s : State} (ho : r.owner = true) (hl : s.fab.load.isSome = true) :
    fabStoreBody r s = fabRefuse stNotStarted fabBusy 0xB0 (fld r.w2 2 0) 0xFF s :=
  (if_neg (by simp [ho])).trans (if_pos hl)

/-- The image that FAB_STORE_IMAGE reads from host memory (R71). -/
def imageAsked (r : Req) (s : State) : List Byte := hostBytes (fld r.w1 63 0) (fld r.w1 95 64) s

section
variable {r : Req} {s : State} (ho : r.owner = true) (hl : s.fab.load = none) (hlen : fld r.w1 95 64 ≤ 16777216)
include ho hl hlen

theorem fabStore_refuses {reason : Nat} (h : headerCheck (imageAsked r s) s = some reason) :
    fabStoreBody r s = fabRefuse stNotStarted reason 0xB0 (fld r.w2 2 0) 0xFF s := by
  refine (if_neg (by simp [ho])).trans ((if_neg (by simp [hl])).trans ((if_neg (Nat.not_lt_of_le hlen)).trans ?_))
  dsimp only
  rw [← imageAsked, h]

theorem fabStore_stores (h : headerCheck (imageAsked r s) s = none) :
    fabStoreBody r s =
      answer { s with fab := { s.fab with store := s.fab.store.set (fld r.w2 2 0) (imageAsked r s) } } (okWith 0) := by
  refine (if_neg (by simp [ho])).trans ((if_neg (by simp [hl])).trans ((if_neg (Nat.not_lt_of_le hlen)).trans ?_))
  dsimp only
  rw [← imageAsked, h]

end

/-- The token that FAB_ENROLL_KEY reads from host memory (R70). -/
def tokenAsked (r : Req) (s : State) : List Byte := hostBytes (fld r.w1 63 0) (fld r.w1 95 80) s

/-- An accepted enrolment: KEY_HASH is fused in the slot, the challenge is consumed and a record written (R70, R156). -/
def enrolled (slot : Nat) (hash : List Byte) (s : State) : State :=
  (evrWrite Config.enrolCode 0 208 (Config.enrolPayload slot)
    (consumeToken { s with fab := { s.fab with ownerKeys := s.fab.ownerKeys.set slot hash } })).1

/-! The table of R70 row by row; a token of another PURPOSE is TOKEN_INVALID (log entry 54). -/

section
variable {r : Req} {s : State} (ho : r.owner = true)
include ho

theorem fabEnroll_badToken (ht : tokenOk (tokenAsked r s) s = false ∨ tokPurpose (tokenAsked r s) ≠ 3) :
    enrolBody r s = fabRefuse stRefused fabTokenInvalid 0xB4 (fld r.w1 66 64) 0xFF s :=
  (if_neg (by simp [ho])).trans (if_pos (by simpa [tokenAsked] using ht))

variable (ht : ¬(tokenOk (tokenAsked r s) s = false ∨ tokPurpose (tokenAsked r s) ≠ 3))
include ht

theorem fabEnroll_badForm (hf : enrolFine (tokenAsked r s) (fld r.w1 66 64) = false) :
    enrolBody r s = fabRefuse stNotStarted fabFormat 0xB4 (fld r.w1 66 64) 0xFF s :=
  (if_neg (by simp [ho])).trans ((if_neg (by simpa [tokenAsked] using ht)).trans (if_pos (by simpa [tokenAsked] using hf)))

variable (hf : ¬enrolFine (tokenAsked r s) (fld r.w1 66 64) = false)
include hf

theorem fabEnroll_slotUsed (hu : (s.fab.ownerKeys.find? (fld r.w1 66 64)).isSome = true) :
    enrolBody r s = fabRefuse stRefused fabSlotUsed 0xB4 (fld r.w1 66 64) 0xFF s :=
  (if_neg (by simp [ho])).trans ((if_neg (by simpa [tokenAsked] using ht)).trans
    ((if_neg (by simpa [tokenAsked] using hf)).trans (if_pos hu)))

theorem fabEnroll_enrols (hu : ¬(s.fab.ownerKeys.find? (fld r.w1 66 64)).isSome = true) :
    enrolBody r s = answer (enrolled (fld r.w1 66 64) (slice (tokPayload (tokenAsked r s)) 4 48) s) (okWith 0) :=
  (if_neg (by simp [ho])).trans ((if_neg (by simpa [tokenAsked] using ht)).trans
    ((if_neg (by simpa [tokenAsked] using hf)).trans (if_neg hu)))

end

/-- Settles O26: the store by the outcome of the header's check, the enrolment by the rows of R70's table in their order. -/
theorem fabricStoreAndEnrol : Obligations.FabricStoreAndEnrol := by
  refine ⟨completes_of exec_fabStoreImage ?checked, completes_of exec_fabStoreImage fun _ _ ho => fabStore_denied ho,
    completes_of exec_fabStoreImage fun _ _ ⟨ho, hl⟩ => fabStore_busy ho hl, completes_of exec_fabEnrollKey ?enrol,
    completes_of exec_fabEnrollKey fun _ _ ho => if_pos (by simp [ho])⟩
  case checked =>
    rintro r s ⟨ho, hl, hlen⟩
    cases h : headerCheck (hostBytes (fld r.w1 63 0) (fld r.w1 95 64) s) s with
    | some reason => exact fabStore_refuses ho hl hlen h
    | none => exact fabStore_stores ho hl hlen h
  case enrol =>
    intro r s ho
    dsimp only
    by_cases ht : tokenOk (tokenAsked r s) s = false ∨ tokPurpose (tokenAsked r s) ≠ 3
    · rw [← tokenAsked, if_pos ht]
      exact fabEnroll_badToken ho ht
    rw [← tokenAsked, if_neg ht]
    by_cases hf : enrolFine (tokenAsked r s) (fld r.w1 66 64) = false
    · rw [if_pos hf]
      exact fabEnroll_badForm ho ht hf
    rw [if_neg hf]
    by_cases hu : (s.fab.ownerKeys.find? (fld r.w1 66 64)).isSome = true
    · rw [if_pos hu]
      exact fabEnroll_slotUsed ho ht hf hu
    · rw [if_neg hu]
      exact fabEnroll_enrols ho ht hf hu

/-! ## Admission and live capacity -/

theorem partOf_congr {s t : State} (h : t.fab.parts = s.fab.parts) (p : Nat) : partOf? p t = partOf? p s := by
  simp only [partOf?, h]

theorem liveOf_unlisted {p q : Nat} {s : State} (h : partOf? p s = none) : liveOf p q s = 0 := by
  rw [liveOf, h]

theorem liveOf_listed {p q : Nat} {s : State} {v : Partition} (h : partOf? p s = some v) :
    liveOf p q s = if v.closed = true then 0 else factorLive p q s := by
  rw [liveOf, h]

/-- Live capacity follows the declaration and the factors (R55). -/
theorem factorLive_listed {p q : Nat} {s : State} {v : Partition} (h : partOf? p s = some v) :
    factorLive p q s = v.declared.getD q 0 * (s.power.factors.get p []).getD (factorIdx q) 0 / 1000 := by
  rw [factorLive, h]

/-- Every tile group of the partition is FAILED. -/
def groupsFailed (v : Partition) (s : State) : Bool :=
  (List.range 64).all (fun g => !v.tgMask.testBit g || (groupOf g s).state == 3)

theorem groupsFailed_of_live {v : Partition} {s : State} {g : Nat} (hg : g < 64) (hm : v.tgMask.testBit g = true)
    (hs : (groupOf g s).state ≠ 3) : groupsFailed v s = false := by
  simp only [groupsFailed, List.all_eq_false, List.mem_range]
  exact ⟨g, hg, by simp [hm, hs]⟩

/-- A partition whose admission closes or opens again (R80 step 2, R81, R82). -/
def admission (on : Bool) (s : State) (v : Partition) : Partition :=
  if on then { v with closed := true, state := 2 }
  else { v with closed := groupsFailed v s, state := if groupsFailed v s then 3 else 1 }

theorem partOf_closeParts (pick : Nat → Bool) (on : Bool) (p : Nat) (s : State) :
    partOf? p (closeParts pick on s) = (partOf? p s).map (fun v => if pick p then admission on s v else v) := by
  simp only [partOf?, closeParts, Tab.find_mapVals]
  cases pick p <;> cases on <;> rfl

/-! ## O27: loads up to their drain -/

theorem exec_fabLoadFull (src : CmdSrc) (s : State) (h : src.wf = true) :
    exec (.fabLoadFull src) s = .next (command 0xB1 fabLoadFullBody src s) := onWf_of_wf (i := .fabLoadFull src) h

theorem exec_fabReloadPart (src : CmdSrc) (s : State) (h : src.wf = true) :
    exec (.fabReloadPart src) s = .next (command 0xB2 fabReloadBody src s) := onWf_of_wf (i := .fabReloadPart src) h

/-- The load that begins to drain (R80 step 3). -/
def loadBegun (op slot : Nat) (force : Bool) (part : Nat) (img : List Byte) (tk : Ticket) (s : State) : FabLoad :=
  ⟨op, slot, force, part, img, nowNs s + s.fab.drainMs * 1000000, tk⟩

/-- The state in which load `l` drains: admission is closed in its partitions, and the configuration of `s` runs on (R80). -/
structure Draining (l : FabLoad) (s t : State) : Prop where
  load : t.fab.load = some l
  opStep : t.fab.opStep = 3
  closed : ∀ p q, loadPicks l p = true → liveOf p q t = 0
  others : ∀ p, loadPicks l p = false → partOf? p t = partOf? p s
  routes : t.fab.routes = s.fab.routes
  activeSlot : t.fab.activeSlot = s.fab.activeSlot
  store : t.fab.store = s.fab.store
  dram : t.dram = s.dram
  hostMem : t.hostMem = s.hostMem

theorem partOf_beginDrain (op slot : Nat) (force : Bool) (part : Nat) (img : List Byte) (tk : Ticket) (p : Nat) (s : State) :
    partOf? p (beginDrain op slot force part img tk s).1 =
      (partOf? p s).map (fun v => if loadPicks (loadBegun op slot force part img tk s) p then admission true s v else v) := by
  rw [← partOf_closeParts]
  exact partOf_congr (by simp [beginDrain, loadBegun, closeGroups]) p

theorem draining_beginDrain (op slot : Nat) (force : Bool) (part : Nat) (img : List Byte) (tk : Ticket) (s : State) :
    Draining (loadBegun op slot force part img tk s) s (beginDrain op slot force part img tk s).1 where
  load := by simp [beginDrain, loadBegun]
  opStep := by simp [beginDrain]
  closed p q hp := by
    have hpart := partOf_beginDrain op slot force part img tk p s
    rw [hp] at hpart
    cases hv : partOf? p s with
    | none => exact liveOf_unlisted (by rw [hpart, hv]; rfl)
    | some v =>
      rw [hv] at hpart
      rw [liveOf_listed hpart]
      rfl
  others p hp := by
    rw [partOf_beginDrain, hp]
    exact Option.map_id_apply
  routes := by simp [beginDrain, closeGroups, closeParts]
  activeSlot := by simp [beginDrain, closeGroups, closeParts]
  store := by simp [beginDrain, closeGroups, closeParts]
  dram := by simp [beginDrain, closeGroups, closeParts]
  hostMem := by simp [beginDrain, closeGroups, closeParts]

theorem beginDrain_waits (op slot : Nat) (force : Bool) (part : Nat) (img : List Byte) (tk : Ticket) (s : State) :
    (beginDrain op slot force part img tk s).2 = none := rfl

theorem readSlot_empty {slot : Nat} {s : State} (h : s.fab.store.find? slot = none) : readSlot slot s = .inl fabSlotEmpty := by
  rw [readSlot, h]

theorem readSlot_fails {slot : Nat} {s : State} (h : (s.fab.store.find? slot).isSome = true) (hb : s.fab.readBad.contains slot = true) :
    readSlot slot s = .inl fabFlashRead := by
  obtain ⟨img, hi⟩ := Option.isSome_iff_exists.mp h
  rw [readSlot, hi]
  exact if_pos hb

theorem fabLoadFull_busy {r : Req} {s : State} (ho : r.owner = true) (hl : s.fab.load.isSome = true) :
    fabLoadFullBody r s = fabRefuse stNotStarted fabBusy 0xB1 (fld r.w1 2 0) 0xFF s :=
  (if_neg (by simp [ho])).trans (if_pos hl)

section
variable {r : Req} {s : State} (ho : r.owner = true) (hl : s.fab.load = none)
include ho hl

theorem fabLoadFull_unread {reason : Nat} (hs : readSlot (fld r.w1 2 0) s = .inl reason) :
    fabLoadFullBody r s = fabRefuse stNotStarted reason 0xB1 (fld r.w1 2 0) 0xFF s := by
  refine (if_neg (by simp [ho])).trans ((if_neg (by simp [hl])).trans ?_)
  rw [hs]

theorem fabLoadFull_refuses {img : List Byte} {reason : Nat} (hs : readSlot (fld r.w1 2 0) s = .inr img)
    (hc : fullCheck img s = some reason) :
    fabLoadFullBody r s = fabRefuse stNotStarted reason 0xB1 (fld r.w1 2 0) 0xFF s := by
  refine (if_neg (by simp [ho])).trans ((if_neg (by simp [hl])).trans ?_)
  rw [hs]
  dsimp only
  rw [hc]

theorem fabLoadFull_begins {img : List Byte} (hs : readSlot (fld r.w1 2 0) s = .inr img) (hc : fullCheck img s = none) :
    fabLoadFullBody r s = beginDrain 2 (fld r.w1 2 0) (bitOf r.w1 8) 0xFF img r.tk s := by
  refine (if_neg (by simp [ho])).trans ((if_neg (by simp [hl])).trans ?_)
  rw [hs]
  dsimp only
  rw [hc]

end

/-- Who may reload partition `p` (R79). -/
def reloader (r : Req) (p : Nat) (s : State) : Prop :=
  r.owner = true ∨ ∃ v, partOf? p s = some v ∧ v.owner = r.fn ∧ v.tenantReload = true ∧ accHas tgPartition p r.master bitControl s = true

theorem mayReload_granted {r : Req} {p : Nat} {s : State} (h : reloader r p s) : mayReload r p s = (true, s) := by
  by_cases ho : r.owner = true
  · exact if_pos ho
  obtain ⟨v, hv, hfn, htr, hacc⟩ := h.resolve_left ho
  refine (if_neg ho).trans ?_
  rw [hv]
  exact (if_pos (by simp [hfn, htr])).trans (accCheck_granted hacc)

/-- Any other function is refused before the access tables are asked (R79, log entry 16). -/
theorem mayReload_denied {r : Req} {p : Nat} {s : State} (ho : r.owner = false)
    (h : ∀ v, partOf? p s = some v → v.owner ≠ r.fn ∨ v.tenantReload = false) : mayReload r p s = (false, s) := by
  refine (if_neg (by simp [ho])).trans ?_
  cases hv : partOf? p s with
  | none => rfl
  | some v =>
    have hnot : ¬(v.owner == r.fn && v.tenantReload) = true := by
      rw [Bool.and_eq_true, beq_iff_eq]
      rintro ⟨hfn, htr⟩
      obtain hother | hclosed := h v hv
      · exact hother hfn
      · exact Bool.false_ne_true (hclosed.symm.trans htr)
    exact if_neg hnot

theorem fabReload_denied {r : Req} {s : State} (h : mayReload r (fld r.w1 21 16) s = (false, s)) :
    fabReloadBody r s = answer s (refuse stRefused 0) := by
  simp only [fabReloadBody, h]
  rfl

section
variable {r : Req} {s : State} {img : List Byte} (hm : mayReload r (fld r.w1 21 16) s = (true, s)) (hl : s.fab.load = none)
  (hs : readSlot (fld r.w1 2 0) s = .inr img)
include hm hl hs

theorem fabReload_refuses {reason : Nat} (hc : partCheck img (fld r.w1 21 16) s = some reason) :
    fabReloadBody r s = fabRefuse stNotStarted reason 0xB2 (fld r.w1 2 0) (fld r.w1 21 16) s := by
  simp only [fabReloadBody, hm, hl, hs, hc]
  rfl

theorem fabReload_begins (hc : partCheck img (fld r.w1 21 16) s = none) :
    fabReloadBody r s = beginDrain 3 (fld r.w1 2 0) (bitOf r.w1 8) (fld r.w1 21 16) img r.tk s := by
  simp only [fabReloadBody, hm, hl, hs, hc]
  rfl

end

/-- A presented command whose body refuses completes with the refusal, counted and recorded (R84). -/
theorem command_fabRefuse {op : Nat} {body : Req → State → Answer} {src : CmdSrc} {s s1 : State} {r : Req} {st reason opcode slot part : Nat}
    (hp : presented op src s = some (r, s1)) (hb : body r s1 = fabRefuse st reason opcode slot part s1) :
    command op body src s = complete r.tk (refuse st reason) (fabRefused reason opcode slot part s1) := by
  rw [command_presented hp, hb]
  rfl

/-- A presented command whose body begins a drain stays in progress (R80). -/
theorem command_beginDrain {op : Nat} {body : Req → State → Answer} {src : CmdSrc} {s s1 : State} {r : Req} {o slot part : Nat} {force : Bool}
    {img : List Byte} (hp : presented op src s = some (r, s1)) (hb : body r s1 = beginDrain o slot force part img r.tk s1) :
    command op body src s = (beginDrain o slot force part img r.tk s1).1 := by
  rw [command_presented hp, hb, beginDrain_waits]

/-- Settles O27: each command by the outcome of its checks; what passes leaves the state of a load that drains. -/
theorem fabricLoadsDrainFirst : Obligations.FabricLoadsDrainFirst := by
  refine ⟨?full, ?part, completes_of exec_fabLoadFull fun _ _ ⟨ho, hl, he⟩ => fabLoadFull_unread ho hl (readSlot_empty he),
    completes_of exec_fabLoadFull fun _ _ ⟨ho, hl, hb, he⟩ => fabLoadFull_unread ho hl (readSlot_fails he hb),
    completes_of exec_fabLoadFull fun _ _ ⟨ho, hl⟩ => fabLoadFull_busy ho hl,
    completes_of exec_fabReloadPart fun _ _ ⟨ho, h⟩ => fabReload_denied (mayReload_denied ho h)⟩
  case full =>
    intro src s s1 r img hw hp ho hl hs
    refine ⟨_, exec_fabLoadFull src s hw, fun reason hc => command_fabRefuse hp (fabLoadFull_refuses ho hl hs hc), fun hc => ?_⟩
    rw [command_beginDrain hp (fabLoadFull_begins ho hl hs hc)]
    have h := draining_beginDrain 2 (fld r.w1 2 0) (bitOf r.w1 8) 0xFF img r.tk s1
    exact ⟨h.load, h.opStep, fun p q => h.closed p q rfl, h.routes, h.activeSlot, h.store, h.dram, h.hostMem⟩
  case part =>
    intro src s s1 r img hw hp hr hl hs
    have hm := mayReload_granted hr
    refine ⟨_, exec_fabReloadPart src s hw, fun reason hc => command_fabRefuse hp (fabReload_refuses hm hl hs hc), fun hc => ?_⟩
    rw [command_beginDrain hp (fabReload_begins hm hl hs hc)]
    have h := draining_beginDrain 3 (fld r.w1 2 0) (bitOf r.w1 8) (fld r.w1 21 16) img r.tk s1
    exact ⟨h.load, h.opStep, fun q => h.closed _ q (by simp [loadPicks, loadBegun]),
      fun p hne => h.others p (by simp [loadPicks, loadBegun, hne.symm]), h.routes, h.dram, h.hostMem⟩

/-! ## O28: what a load leaves of the Fabric Image's state -/

theorem exec_drainEnd (bad : List Nat) (s : State) : exec (.drainEnd bad) s = .next (drainEndDo bad s) :=
  onWf_of_wf (i := .drainEnd bad) rfl

theorem exec_drainTimeout (bad : List Nat) (s : State) : exec (.drainTimeout bad) s = .next (drainTimeoutDo bad s) :=
  onWf_of_wf (i := .drainTimeout bad) rfl

theorem exec_fabAbort (src : CmdSrc) (s : State) (h : src.wf = true) :
    exec (.fabAbort src) s = .next (command 0xB3 fabAbortBody src s) := onWf_of_wf (i := .fabAbort src) h

/-! The cores, the access entries and the capacity factors that a plan sets are outside the Fabric Image's own state. -/

theorem ite_fab {c : Prop} [Decidable c] {s t u : State} (ht : c → t.fab = s.fab) (hu : ¬c → u.fab = s.fab) :
    (if c then t else u).fab = s.fab := by
  split
  next h => exact ht h
  next h => exact hu h

@[simp] theorem clearTileCounters_fab (mask : Nat) (roles : List Nat) (s : State) : (clearTileCounters mask roles s).fab = s.fab := rfl

theorem setSram_fab (t : Nat) (m : Mem) (s : State) : (setSram t m s).fab = s.fab := rfl

theorem setDspCore_fab (t c : Nat) (v : DspCore) (s : State) : (setDspCore t c v s).fab = s.fab := rfl

@[simp] theorem loadCores_fab (mask : Nat) (roles : List Nat) (streams : Nat → List Byte) (s : State) :
    (loadCores mask roles streams s).fab = s.fab := by
  unfold loadCores
  extract_lets keep cleared
  have hstart : ∀ (t : Nat) (u : State), ((List.range 4).foldl (fun s c => setDspCore t c (freshCore (streams (t / 8)) (t % 8) c) s) u).fab = u.fab :=
    fun t u => foldl_keeps State.fab (fun s c => setDspCore_fab t c _ s) _ u
  exact (foldl_keeps State.fab (fun s t => (hstart t _).trans (setSram_fab t _ s)) _ cleared).trans rfl

@[simp] theorem putEntry_fab (kind idx master bits : Nat) (s : State) : (putEntry kind idx master bits s).fab = s.fab := by
  unfold putEntry
  split <;> rfl

@[simp] theorem dropPartEntries_fab (p mask : Nat) (s : State) : (dropPartEntries p mask s).fab = s.fab := rfl

@[simp] theorem grantPart_fab (p : Nat) (v : Partition) (routes : List (Nat × Nat × Nat)) (s : State) :
    (grantPart p v routes s).fab = s.fab := by
  unfold grantPart
  extract_lets dropped own groups
  have hown : own.fab = s.fab := by simp only [own, putEntry_fab, dropped, dropPartEntries_fab]
  have hgroups : groups.fab = s.fab := (foldl_keeps State.fab (fun s g => putEntry_fab tgPartition p (128 + g) _ s) _ own).trans hown
  split
  · exact hgroups
  · exact (foldl_keeps State.fab (fun s t => putEntry_fab tgPage (tilePage t) v.owner _ s) _ groups).trans hgroups

@[simp] theorem testWork_fab (mask : Nat) (s : State) : (testWork mask s).fab = s.fab :=
  foldl_keeps State.fab (fun s g => by split <;> simp) _ s

@[simp] theorem settleOver_fab (p : Nat) (s : State) : (settleOver p s).fab = s.fab := by
  unfold settleOver
  split <;> rfl

@[simp] theorem updateFactors_fab (cut : Nat → Bool) (p : Nat) (s : State) : (updateFactors cut p s).fab = s.fab := by
  simp only [updateFactors]
  split
  · simp
  · split <;> simp

/-- A plan changes the groups, the partitions and the routes, and nothing else of the Fabric Image's state (R73, R80). -/
theorem applyPlan_fab (pl : FabPlan) (mask : Nat) (ps : List Nat) (pipes : List (Nat × List Byte)) (bad : List Nat) (s : State) :
    ∃ groups parts, (applyPlan pl mask ps pipes bad s).fab = { s.fab with groups := groups, parts := parts, routes := pl.routes } := by
  unfold applyPlan
  extract_lets cleared loaded groups parts fab planned granted
  have hloaded : loaded.fab = s.fab := (loadCores_fab mask pl.roles _ cleared).trans (clearTileCounters_fab mask pl.roles s)
  have hplanned : planned.fab = { s.fab with groups := groups, parts := parts, routes := pl.routes } := by
    simp only [planned, fab, hloaded]
  have hgrant : ∀ (u : State) (p : Nat × Partition), (if ps.contains p.1 = true then grantPart p.1 p.2 pl.routes u else u).fab = u.fab :=
    fun u p => ite_fab (fun _ => grantPart_fab p.1 p.2 pl.routes u) fun _ => rfl
  have hgranted : granted.fab = planned.fab := foldl_keeps State.fab hgrant pl.parts planned
  refine ⟨groups, parts, ?_⟩
  rw [foldl_keeps State.fab (fun s p => updateFactors_fab _ p s), testWork_fab, hgranted, hplanned]

/-- What the end of a load leaves of the Fabric Image's state besides the groups and the partitions. -/
theorem applyFull_fab (img : List Byte) (slot : Nat) (bad : List Nat) (s : State) :
    (applyFull img slot bad s).fab.activeSlot = slot ∧ (applyFull img slot bad s).fab.noImage = false ∧
      (applyFull img slot bad s).fab.routes = imgRoutes img ∧ (applyFull img slot bad s).fab.store = s.fab.store := by
  unfold applyFull
  extract_lets pl dropped fab named
  have hdropped : dropped.fab = s.fab := foldl_keeps State.fab (fun s c => dropPartEntries_fab c.1 c.2.tgMask s) s.fab.parts.toList s
  obtain ⟨groups, parts, hplan⟩ :=
    applyPlan_fab pl (2 ^ 64 - 1) (pl.parts.map (·.1)) ((imgPipelines img).getD []) bad named
  rw [hplan]
  have hstore : dropped.fab.store = s.fab.store := by rw [hdropped]
  exact ⟨rfl, rfl, rfl, hstore⟩

/-- The end of a load: it is over, a FULL image runs, and the store keeps its images (R73, R80, R83). -/
theorem finishLoad_fab (l : FabLoad) (bad : List Nat) (s : State) :
    (finishLoad l bad s).fab.load = none ∧ (finishLoad l bad s).fab.opStep = 0 ∧
      (l.op = 2 → (finishLoad l bad s).fab.activeSlot = l.slot ∧ (finishLoad l bad s).fab.noImage = false ∧
        (finishLoad l bad s).fab.routes = imgRoutes l.image) ∧ (finishLoad l bad s).fab.store = s.fab.store := by
  unfold finishLoad
  extract_lets pl mask applied dead rep fab
  simp only [complete_frame, true_and]
  by_cases hop : l.op = 2
  · have happlied : fab = (applyFull l.image l.slot bad s).fab := congrArg State.fab (if_pos hop)
    obtain ⟨hslot, himage, hroutes, hstore⟩ := applyFull_fab l.image l.slot bad s
    rw [happlied]
    exact ⟨fun _ => ⟨hslot, himage, hroutes⟩, hstore⟩
  · have happlied : fab = (applyPlan pl mask [l.part] ((imgPipelines l.image).getD []) bad s).fab := congrArg State.fab (if_neg hop)
    obtain ⟨groups, parts, hplan⟩ := applyPlan_fab pl mask [l.part] ((imgPipelines l.image).getD []) bad s
    rw [happlied, hplan]
    exact ⟨fun h => absurd h hop, rfl⟩

/-! ## O28: the end of the drain -/

theorem stopLoad_fab (l : FabLoad) (rep : Reply) (s : State) : (stopLoad l rep s).fab.load = none ∧ (stopLoad l rep s).fab.opStep = 0 ∧
    (stopLoad l rep s).fab.routes = s.fab.routes := by
  simp [stopLoad, closeGroups, closeParts]

theorem stopLoad_power (l : FabLoad) (rep : Reply) (s : State) : (stopLoad l rep s).power = s.power := by
  simp [stopLoad, closeGroups, closeParts]

/-- A stopped load opens the admission of its partitions again (R81, R82). -/
theorem partOf_stopLoad (l : FabLoad) (rep : Reply) (p : Nat) (s : State) :
    partOf? p (stopLoad l rep s) = (partOf? p s).map (fun v => if loadPicks l p then admission false s v else v) := by
  rw [← partOf_closeParts]
  exact partOf_congr (by simp [stopLoad, closeGroups]) p

/-- A partition of a stopped load with a group that has not failed has its live capacity back (R81, R82). -/
theorem liveOf_stopLoad {l : FabLoad} {p g : Nat} {v : Partition} {s : State} (rep : Reply) (q : Nat) (hv : partOf? p s = some v)
    (hp : loadPicks l p = true) (hg : g < 64) (hm : v.tgMask.testBit g = true) (hs : (groupOf g s).state ≠ 3) :
    liveOf p q (stopLoad l rep s) = factorLive p q s := by
  have hpart : partOf? p (stopLoad l rep s) = some (admission false s v) := by
    rw [partOf_stopLoad, hv, hp]
    rfl
  have hopen : (admission false s v).closed = false := groupsFailed_of_live hg hm hs
  rw [liveOf_listed hpart, hopen, factorLive_listed hpart, factorLive_listed hv, stopLoad_power]
  rfl

theorem drainEndDo_drained {bad : List Nat} {s : State} {l : FabLoad} (hl : s.fab.load = some l) (hd : drained l s = true) :
    drainEndDo bad s = finishLoad l bad s := by
  rw [drainEndDo, hl]
  exact if_pos hd

/-- At the deadline of a load that has not drained, FORCE decides (R81). -/
theorem drainTimeoutDo_late {bad : List Nat} {s : State} {l : FabLoad} (hl : s.fab.load = some l) (hd : drained l s = false)
    (ht : l.deadline ≤ nowNs s) :
    drainTimeoutDo bad s = if l.force = true then finishLoad l bad (abandonLoad l s)
      else stopLoad l ⟨stTimeout, 2, fabDrainTimeout⟩
        (fabRefused fabDrainTimeout (if l.op = 2 then 0xB1 else 0xB2) l.slot (if l.op = 2 then 0xFF else l.part) s) := by
  rw [drainTimeoutDo, hl]
  exact if_neg (by simp [hd, ht])

theorem fabAbort_stops {r : Req} {s : State} {l : FabLoad} (hl : s.fab.load = some l) (ho : r.owner = true) :
    fabAbortBody r s = answer (stopLoad l ⟨stCancelled, 2, 0⟩ s) (okWith 0) := by
  rw [fabAbortBody, hl]
  exact if_pos (by simp [ho])

/-- With no load there is nothing to abort (R82, log entry 51). -/
theorem fabAbort_late {r : Req} {s : State} (hl : s.fab.load = none) : fabAbortBody r s = answer s ⟨stTooLate, 0, 0⟩ := by
  rw [fabAbortBody, hl]

/-- Settles O28: each end of the drain by its condition, with what steps 4 to 7 or a stop leave of the Fabric Image's state. -/
theorem fabricDrainEnds : Obligations.FabricDrainEnds := by
  refine ⟨?drainEnd, ?stops, ?forced, ?stopped, ?abort, completes_of exec_fabAbort fun _ _ hl => fabAbort_late hl⟩
  case drainEnd =>
    intro bad s l hl hd
    exact ⟨_, (exec_drainEnd bad s).trans (congrArg _ (drainEndDo_drained hl hd)), rfl, finishLoad_fab l bad s⟩
  case stops =>
    intro bad s l hl hd ht hf
    rw [exec_drainTimeout, drainTimeoutDo_late hl hd ht, if_neg (by simp [hf])]
  case forced =>
    intro bad s l hl hd ht hf
    rw [exec_drainTimeout, drainTimeoutDo_late hl hd ht, if_pos hf]
  case stopped =>
    intro l rep s
    obtain ⟨hload, hstep, hroutes⟩ := stopLoad_fab l rep s
    exact ⟨hload, hstep, hroutes, fun p v g q hv hp hg hm hs => liveOf_stopLoad rep q hv hp hg hm hs⟩
  case abort =>
    intro src s s1 r l hw hp hl ho
    rw [exec_fabAbort src s hw, command_presented hp, fabAbort_stops hl ho]
    rfl

end Sys2Proof
end

section
/-! PROOFS. The statements of ingress and sources: the sorting of Ethernet frames, the policer, released packets and the jitter buffer's
deadlines (R87-R116, R165, R328, R329). -/

namespace Sys2Proof

open Machine

/-! ## O31: Ethernet frames -/

theorem exec_ethFrameRx {lane : Nat} (f : List Byte) (s : State) (h : lane < 128) :
    exec (.ethFrameRx lane f) s = .next (ethFrameDo lane f s) :=
  onWf_of_wf (i := .ethFrameRx lane f) (decide_eq_true h)

/-- In Safe Hold no frame is taken (R487). -/
theorem ethFrameDo_held {lane : Nat} {f : List Byte} {s : State} (h : s.body.hold = true) : ethFrameDo lane f s = s :=
  if_pos (by simp [h])

/-- Where a frame with its FCS, from port `p`, goes by its parse (R88-R90). -/
def sortedTo (p lane : Nat) (f : List Byte) (s : State) : Parsed → State
  | .drop c => count (ingCtr (p / 32) c) 1 s
  | .firmware cls => exceptionPath (p / 32) p cls f (cmpNow s) s
  | .time tr hdr => ptpMessage lane tr hdr f s
  | .rtcp t body => rtcpArrives t f body s
  | .rtp t body => rtpArrives t f body s

/-- A frame's FCS is the CRC of the bytes before it (R329). -/
def fcsMatches (f : List Byte) : Prop := leAt f (f.length - 4) 4 = (crc32 (f.take (f.length - 4))).toNat

section
variable {lane : Nat} {f : List Byte} {s : State} (heth : isEth (portOf lane s) s = true) (hup : portUp (portOf lane s) s = true)
  (hhold : s.body.hold = false)
include heth hup hhold

theorem ethFrameDo_runt (hlen : f.length < 64) : ethFrameDo lane f s = count (laneCtr (portOf lane s) 2) 1 s :=
  (if_neg (by simp [heth, hup, hhold])).trans (if_pos hlen)

theorem ethFrameDo_badFcs (hlen : 64 ≤ f.length) (hfcs : ¬ fcsMatches f) :
    ethFrameDo lane f s = count (laneCtr (portOf lane s) 1) 1 s :=
  (if_neg (by simp [heth, hup, hhold])).trans ((if_neg (Nat.not_lt_of_le hlen)).trans (if_pos hfcs))

/-- A frame with its FCS is a MAC control frame by its EtherType (log entry 64), or is counted and sorted. -/
theorem ethFrameDo_whole (hlen : 64 ≤ f.length) (hfcs : fcsMatches f) :
    ethFrameDo lane f s =
      if beAt f 12 2 = 0x8808 then count (laneCtr (portOf lane s) 3) 1 s
      else sortedTo (portOf lane s) lane f (count (ingCtr (portOf lane s / 32) 0) 1 s)
        (parseFrame (portOf lane s) f (count (ingCtr (portOf lane s / 32) 0) 1 s)) := by
  refine (if_neg (by simp [heth, hup, hhold])).trans ((if_neg (Nat.not_lt_of_le hlen)).trans ((if_neg (not_not_intro hfcs)).trans ?_))
  by_cases hmac : beAt f 12 2 = 0x8808
  · exact (if_pos hmac).trans (if_pos hmac).symm
  · refine (if_neg hmac).trans (Eq.trans ?_ (if_neg hmac).symm)
    dsimp only
    cases parseFrame (portOf lane s) f (count (ingCtr (portOf lane s / 32) 0) 1 s) <;> rfl

end

section
variable {t : Transport} {frame body : List Byte} {s : State} (hlen : 12 ≤ body.length)
include hlen

/-- RTP whose match key no source holds goes to firmware as an unknown SSRC (R93). -/
theorem rtpArrives_unmatched (hm : matchSource t (leAt body 8 4) s = none) :
    rtpArrives t frame body s = exceptionPath (t.port / 32) t.port 7 frame (cmpNow s) (count (ingCtr (t.port / 32) 5) 1 s) := by
  simp only [rtpArrives, if_neg (Nat.not_lt_of_le hlen), hm]

/-- RTP of a source meets the policer, and enters the cipher under the source's slot once let through (R93, R102). -/
theorem rtpArrives_matched {i : Nat} (hm : matchSource t (leAt body 8 4) s = some i) :
    rtpArrives t frame body s =
      if (police i frame.length (cmpNow s) s).1 = true then enterCipher {
          id := 0, wing := t.port / 32, slot := (sourceAt i s).slot, rtcp := false
          source := handleFor .source i s, transport := t, mac := leAt frame 6 6, bytes := body, frameLen := frame.length, arrival := cmpNow s }
          (police i frame.length (cmpNow s) s).2
      else (police i frame.length (cmpNow s) s).2 := by
  simp only [rtpArrives, if_neg (Nat.not_lt_of_le hlen), hm]
  cases (police i frame.length (cmpNow s) s).1 <;> rfl

end

/-- Settles O31: the frame's length, FCS and EtherType in that order, then each way of the parse; RTP by its match and the policer. -/
theorem ethernetFramesSorted : Obligations.EthernetFramesSorted := by
  refine ⟨?_, fun lane f s h hhold => (exec_ethFrameRx f s h).trans (congrArg _ (ethFrameDo_held hhold))⟩
  intro lane f s h heth hup hhold
  simp only [exec_ethFrameRx f s h]
  refine ⟨fun hlen => congrArg _ (ethFrameDo_runt heth hup hhold hlen),
    fun hlen hfcs => congrArg _ (ethFrameDo_badFcs heth hup hhold hlen hfcs),
    fun hlen hfcs hmac => congrArg _ ((ethFrameDo_whole heth hup hhold hlen hfcs).trans (if_pos hmac)), ?_⟩
  rintro hlen hfcs hmac s1 rfl
  rw [ethFrameDo_whole heth hup hhold hlen hfcs, if_neg hmac]
  refine ⟨?drop, ?firmware, ?time, ?passed, ?policed, ?unmatched⟩
  case drop => intro c hp; rw [hp, sortedTo]
  case firmware => intro cls hp; rw [hp, sortedTo]
  case time => intro tr hdr hp; rw [hp, sortedTo]
  case passed => intro t body i hp hbody hm hpol; rw [hp, sortedTo, rtpArrives_matched hbody hm, if_pos hpol]
  case policed => intro t body i hp hbody hm hpol; rw [hp, sortedTo, rtpArrives_matched hbody hm, if_neg (by simp [hpol])]
  case unmatched => intro t body hp hbody hm; rw [hp, sortedTo, rtpArrives_unmatched hbody hm]

/-! ## O32: the policer -/

@[simp] theorem sourceAt_count (i off k : Nat) (s : State) : sourceAt i (count off k s) = sourceAt i s := rfl

/-- The committed bucket of a source, refilled up to arrival compare word `a` (R102). -/
def committedAt (i a : Nat) (s : State) : Nat :=
  refill (sourceAt i s).bucketC (fld (sourceAt i s).wPol 23 0) (dtOf a (sourceAt i s).bucketT) (fld (sourceAt i s).wPol 71 48)

/-- The peak bucket of a source, refilled up to arrival compare word `a` (R102). -/
def peakAt (i a : Nat) (s : State) : Nat :=
  refill (sourceAt i s).bucketP (fld (sourceAt i s).wPol 47 24) (dtOf a (sourceAt i s).bucketT) (fld (sourceAt i s).wPol 95 72)

theorem police_unlimited {i len a : Nat} {s : State} (h : fld (sourceAt i s).wPol 23 0 = 0) : police i len a s = (true, s) := if_pos h

section
variable {i len a : Nat} {s : State} (hrate : fld (sourceAt i s).wPol 23 0 ≠ 0)
include hrate

theorem police_fits (hc : len * 65536 ≤ committedAt i a s) (hp : len * 65536 ≤ peakAt i a s) :
    police i len a s = (true, setSource i { sourceAt i s with
      bucketC := committedAt i a s - len * 65536, bucketP := peakAt i a s - len * 65536, bucketT := a } s) :=
  (if_neg hrate).trans (if_pos ⟨hc, hp⟩)

/-- A packet that one bucket does not hold is counted, and the buckets keep what they were refilled to. -/
theorem police_drops (h : committedAt i a s < len * 65536 ∨ peakAt i a s < len * 65536) :
    police i len a s = (false, count (ingCtr (sourceAt i s).wing 10) 1 (srcCount i 2 1 (setSource i { sourceAt i s with
      bucketC := committedAt i a s, bucketP := peakAt i a s, bucketT := a } s))) :=
  (if_neg hrate).trans (if_neg fun hfit => h.elim (Nat.not_lt_of_le hfit.1) (Nat.not_lt_of_le hfit.2))

end

/-! ## O32: released packets -/

theorem exec_rxCipherRelease (op : Nat) (s : State) : exec (.rxCipherRelease op) s = .next (cipherReleaseDo op s) :=
  onWf_of_wf (i := .rxCipherRelease op) rfl

section
variable {op : Nat} {s : State} {o : RxOp}
  (ho : s.rxOps.find? (fun o => o.id == op && o.started && decide (o.hashAt ≤ nowPs s)) = some o)
include ho

theorem cipherReleaseDo_dropped (h : (endOp o s).1 = none) : cipherReleaseDo op s = (endOp o s).2 := by
  simp only [cipherReleaseDo, ho, h]

theorem cipherReleaseDo_accepted {idx : Nat} {p : List Byte} (hhold : s.body.hold = false) (h : (endOp o s).1 = some (idx, p)) :
    cipherReleaseDo op s = if o.rtcp then rtcpReleased o p (endOp o s).2 else rtpReleased o idx p (endOp o s).2 := by
  simp [cipherReleaseDo, ho, h, hhold]

end

/-! ## O32: the jitter buffer's deadlines -/

theorem exec_jitterDeadline {i : Nat} (s : State) (h : i < 131072) : exec (.jitterDeadline i) s = .next (jitterDeadlineDo i s) :=
  onWf_of_wf (i := .jitterDeadline i) (decide_eq_true h)

/-- The deadline of a unit that the buffer holds has come (R114). -/
def someDue (j : Jitter) (s : State) : Prop := ∃ x ∈ j.units, cmpReached (cmpNow s) x.deadline = true

section
variable {i : Nat} {s : State} {j : Jitter} (hjit : (sourceAt i s).jit = some j) (hvideo : (sourceAt i s).isAudio = false)
include hjit hvideo

/-- The head of a video buffer leaves once some held unit's deadline has come. -/
theorem releasePass_due {u : AccessUnit} {us : List AccessUnit} (n : Nat) (hunits : j.units = u :: us) (hdue : someDue j s) :
    releasePass true i (n + 1) s = releasePass true i n (releaseHead i j u us s) := by
  have hany : (u :: us).any (fun x => cmpReached (cmpNow s) x.deadline) = true := by
    rw [← hunits]; exact List.any_eq_true.mpr hdue
  simp only [releasePass, hjit, hunits, hvideo, Bool.true_and, hany]
  simp

/-- With no deadline come and an incomplete head, a video buffer keeps its units. -/
theorem releasePass_waits (n : Nat) (hdue : ¬ someDue j s) (hhead : ∀ u us, j.units = u :: us → unitComplete u = false) :
    releasePass true i n s = s := by
  cases n with
  | zero => rfl
  | succ n =>
    match hunits : j.units with
    | [] => simp [releasePass, hjit, hunits]
    | u :: us =>
      have hany : (u :: us).any (fun x => cmpReached (cmpNow s) x.deadline) = false := by
        rw [← hunits]; exact Bool.eq_false_iff.mpr fun h => hdue (List.any_eq_true.mp h)
      simp only [releasePass, hjit, hunits, hvideo, Bool.true_and, hany, hhead u us hunits]
      simp

end

/-- Settles O32: the policer by its three answers, a release by how the operation ends, and one turn of the deadline's pass. -/
theorem policingAndPlayout : Obligations.PolicingAndPlayout := by
  refine ⟨fun i len a s h => police_unlimited h, ?policed, ?released, ?deadline, ?leaves, ?waits, ?held⟩
  case policed =>
    rintro i len a s _ _ hrate rfl rfl
    refine ⟨fun hc hp => police_fits hrate hc hp, fun h => ?_⟩
    rw [police_drops hrate h, sourceAt_count, srcCount, sourceAt_updSource, sourceAt_setSource]
    exact ⟨rfl, rfl, rfl⟩
  case released =>
    intro op s o ho hhold
    rw [exec_rxCipherRelease]
    exact ⟨fun h => congrArg _ (cipherReleaseDo_dropped ho h), fun idx p h => congrArg _ (cipherReleaseDo_accepted ho hhold h)⟩
  case deadline =>
    intro i s hi hused hhold
    exact (exec_jitterDeadline s hi).trans (congrArg _ (if_pos (by simp [hused, hhold])))
  case leaves => exact fun i n s j u us hjit hunits hvideo hdue => releasePass_due hjit hvideo n hunits hdue
  case waits =>
    intro i n s j hjit hnone hhead hvideo
    refine releasePass_waits hjit hvideo n ?_ hhead
    rintro ⟨x, hx, hreached⟩
    exact absurd hreached (by simp [hnone x hx])
  case held =>
    intro i s hi hhold
    exact (exec_jitterDeadline s hi).trans (congrArg _ (if_neg (by simp [hhold])))

end Sys2Proof
end

section
/-! PROOFS. The statements of legs and egress: keyframe requests (R137) and layer selection (R129-R135). -/

namespace Sys2Proof

open Machine

/-! ## O36: a source whose slot's record lies in a stack that is asleep -/

theorem exec_kfHoldEnd {i : Nat} (s : State) (h : i < 131072) : exec (.kfHoldEnd i) s = .next (kfHoldEndDo i s) :=
  onWf_of_wf (i := .kfHoldEnd i) (decide_eq_true h)

/-- The sleeping state of O29 with source 0 in use: SRTP on lane 0 under key slot 0, with a keyframe request waiting after its hold. No
Wing's cache holds the slot. -/
def waitingAsleep : State :=
  { sleepingState with
    ids := ⟨[(idKey .source 0, { used := true }), (idKey .slot 0, { used := true })]⟩
    media := { sleepingState.media with sources := ⟨[(0, { kfPending := true })]⟩ } }

/-- The request goes out under the source's slot, whose record is fetched; the fetch wakes stack 0, which fills the segment that it gave
up with zeros (R136, R162, R380). -/
theorem waitingAsleep_dram : (kfHoldEndDo 0 waitingAsleep).dram = [] := by decide +kernel

/-- Refutes O36: its third clause keeps every byte of DRAM in every state, but sending the request looks up the source's slot. The clause
does not ask that the slot is pinned in the Wing's cache (R162); where it is not, the fetch of its record can wake a stack that has given
up a segment, whose bytes then read 0. -/
theorem not_keyframeRequests : ¬ Obligations.KeyframeRequests := by
  rintro ⟨-, -, hholdEnd, -, -⟩
  obtain ⟨t, he, -, -, -, -, -, hdram, -⟩ :=
    hholdEnd 0 waitingAsleep (by decide) (by decide +kernel) rfl (by decide +kernel) rfl
  obtain rfl : kfHoldEndDo 0 waitingAsleep = t := Host.Outcome.next.inj ((exec_kfHoldEnd waitingAsleep (by decide)).symm.trans he)
  rw [waitingAsleep_dram] at hdram
  exact absurd hdram (by decide)

/-! ## O37: when a selection runs, and the feedback timer -/

theorem exec_layerSelection {l : Nat} (s : State) (h : l < 1048576) : exec (.layerSelection l) s = .next (layerSelectionDo l s) :=
  onWf_of_wf (i := .layerSelection l) (decide_eq_true h)

theorem exec_fbTimeout {l : Nat} (s : State) (h : l < 1048576) : exec (.fbTimeout l) s = .next (fbTimeoutDo l s) :=
  onWf_of_wf (i := .fbTimeout l) (decide_eq_true h)

theorem layerSelectionDo_onGrid {l : Nat} {s : State} (hused : (identOf .leg l s).used = true)
    (hdue : (legAt l s).selAt + 50000000 ≤ nowNs s) :
    layerSelectionDo l s =
      selectLayers l (if (portLegs (legAt l s).lane s).head? = some l then pressurePass (legAt l s).lane s else s) :=
  (if_neg (by simp [hused])).trans (if_pos hdue)

theorem layerSelectionDo_outOfTurn {l : Nat} {s : State} (hused : (identOf .leg l s).used = true)
    (hearly : nowNs s < (legAt l s).selAt + 50000000) (hdue : (legAt l s).selDue = true) :
    layerSelectionDo l s = updLeg l (fun v => { v with selAt := (legAt l s).selAt }) (selectLayers l s) :=
  (if_neg (by simp [hused])).trans ((if_neg (Nat.not_le_of_lt hearly)).trans (if_pos hdue))

theorem layerSelectionDo_notDue {l : Nat} {s : State} (hearly : nowNs s < (legAt l s).selAt + 50000000)
    (hdue : (legAt l s).selDue = false) : layerSelectionDo l s = s := by
  by_cases hused : (identOf .leg l s).used = true
  · exact (if_neg (by simp [hused])).trans ((if_neg (Nat.not_le_of_lt hearly)).trans (if_neg (by simp [hdue])))
  · exact if_pos (by simp [hused])

@[simp] theorem setEst_frame (l new : Nat) (s : State) :
    (setEst l new s).hq = s.hq ∧ (setEst l new s).dram = s.dram ∧ (setEst l new s).hostMem = s.hostMem := by
  simp [setEst]

theorem legAt_setEst_ne {l j : Nat} (new : Nat) (s : State) (h : j ≠ l) : legAt j (setEst l new s) = legAt j s :=
  legAt_updLeg_ne l j _ s h

/-- A new estimate moves EST, and beside it only whether a selection is due (R132). -/
theorem legAt_setEst (l new : Nat) (s : State) : ∃ due, legAt l (setEst l new s) = { legAt l s with est := new, selDue := due } :=
  ⟨_, legAt_updLeg l _ s⟩

theorem fbTimeoutDo_expired {l : Nat} {s : State} (hused : (identOf .leg l s).used = true)
    (hout : (legAt l s).fbTimer + fld (legAt l s).wEst 12 0 * 1000000 ≤ nowNs s) :
    fbTimeoutDo l s = setEst l (max ((legAt l s).est / 2) (legAt l s).minKbps)
      (setLeg l { legAt l s with estState := 3, timedOut := true, fbTimer := nowNs s } s) :=
  if_pos (by simp [hused, hout])

/-! ## O37: the rungs chosen -/

/-- The rate of a subscription's rung; OFF takes none. -/
def rungRate : Option (Nat × Choice) → Nat
  | none => 0
  | some c => c.1

/-- The rates of the rungs chosen, summed. -/
def chosenRate (ps : List Pick) : Nat := ((ps.filterMap (·.target)).map (·.1)).sum

@[simp] theorem chosenRate_cons (p : Pick) (ps : List Pick) : chosenRate (p :: ps) = rungRate p.target + chosenRate ps := by
  unfold chosenRate
  cases h : p.target <;> simp [h, rungRate]

/-- The rung chosen, if any, lies within the subscription's bounds. -/
def pickFits (p : Pick) : Prop := ∀ c, p.target = some c → inBounds p c.2 = true

theorem pickFits_off {p : Pick} (h : p.target = none) : pickFits p := by simp [pickFits, h]

/-- A subscription's minimum is within its bounds, and leaves the budget smaller by its rate; OFF takes nothing (R132). -/
theorem pickMin_spends {p : Pick} (b : Nat) (h : p.target = none) :
    rungRate (pickMin p b).1.target + (pickMin p b).2 = b ∧ pickFits (pickMin p b).1 := by
  unfold pickMin
  split
  case h_1 => exact ⟨by simp [h, rungRate], pickFits_off h⟩
  case h_2 r hr =>
    split
    case isTrue hfits =>
      refine ⟨Nat.add_sub_cancel' hfits, fun c hc => ?_⟩
      obtain rfl := Option.some.inj hc
      have hin := List.find?_some hr
      exact hin
    case isFalse => exact ⟨by simp [h, rungRate], pickFits_off h⟩

theorem pickMins_spends (ps : List Pick) (b : Nat) (h : ∀ p ∈ ps, p.target = none) :
    chosenRate (pickMins ps b).1 + (pickMins ps b).2 = b ∧ ∀ p ∈ (pickMins ps b).1, pickFits p := by
  induction ps generalizing b with
  | nil => simp [pickMins, chosenRate]
  | cons p ps ih =>
    obtain ⟨hp, hps⟩ := List.forall_mem_cons.mp h
    obtain ⟨hone, hfits⟩ := pickMin_spends b hp
    obtain ⟨hrest, hall⟩ := ih (pickMin p b).2 hps
    refine ⟨?_, List.forall_mem_cons.mpr ⟨hfits, hall⟩⟩
    simp only [pickMins, chosenRate_cons]
    omega

/-- A rung that follows is taken when the budget holds its check, which is at least what it adds: 1.1 times as much above the present
rung (R132). -/
theorem raise_cons (c : Nat × Choice) (cs : List (Nat × Choice)) (cur : Option (Nat × Choice)) (t : Nat × Choice) (b : Nat) :
    ∃ check, c.1 - t.1 ≤ check ∧ raise (c :: cs) cur t b = if b < check then (t, b) else raise cs cur c (b - (c.1 - t.1)) := by
  refine ⟨if aboveCur cur c then (c.1 - t.1) * 1100 / 1000 else c.1 - t.1, ?_, rfl⟩
  split <;> omega

/-- A raise takes from the budget at least what it adds to the rung's rate, and ends on a rung that it was given. -/
theorem raise_spends (cs : List (Nat × Choice)) (cur : Option (Nat × Choice)) (t : Nat × Choice) (b : Nat) :
    (raise cs cur t b).1.1 + (raise cs cur t b).2 ≤ t.1 + b ∧ (raise cs cur t b).1 ∈ t :: cs := by
  induction cs generalizing t b with
  | nil => simp [raise]
  | cons c cs ih =>
    obtain ⟨check, hextra, heq⟩ := raise_cons c cs cur t b
    rw [heq]
    by_cases hroom : b < check
    · simp [hroom]
    · obtain ⟨hstep, hmem⟩ := ih c (b - (c.1 - t.1))
      rw [if_neg hroom]
      exact ⟨by omega, List.mem_cons_of_mem t hmem⟩

theorem pickRaise_spends {p : Pick} (b : Nat) (h : pickFits p) :
    rungRate (pickRaise p b).1.target + (pickRaise p b).2 ≤ rungRate p.target + b ∧ pickFits (pickRaise p b).1 := by
  unfold pickRaise
  split
  case h_1 => exact ⟨Nat.le_refl _, h⟩
  case h_2 t ht =>
    obtain ⟨hspent, hmem⟩ :=
      raise_spends ((p.rungs.drop (p.rungs.idxOf t + 1)).filter (fun r => inBounds p r.2)) p.cur t b
    refine ⟨by rw [ht]; exact hspent, fun c hc => ?_⟩
    obtain rfl := Option.some.inj hc
    rcases List.mem_cons.mp hmem with hkept | habove
    · rw [hkept]; exact h t ht
    · exact (List.mem_filter.mp habove).2

theorem pickRaises_spends (ps : List Pick) (b : Nat) (h : ∀ p ∈ ps, pickFits p) :
    chosenRate (pickRaises ps b).1 + (pickRaises ps b).2 ≤ chosenRate ps + b ∧ ∀ p ∈ (pickRaises ps b).1, pickFits p := by
  induction ps generalizing b with
  | nil => simp [pickRaises]
  | cons p ps ih =>
    obtain ⟨hp, hps⟩ := List.forall_mem_cons.mp h
    obtain ⟨hone, hfits⟩ := pickRaise_spends b hp
    obtain ⟨hrest, hall⟩ := ih (pickRaise p b).2 hps
    refine ⟨?_, List.forall_mem_cons.mpr ⟨hfits, hall⟩⟩
    simp only [pickRaises, chosenRate_cons]
    omega

/-- Settles O37: the grid and the timer by their conditions, the budget by what each stage spends. -/
theorem layerSelectionFitsBudget : Obligations.LayerSelectionFitsBudget := by
  refine ⟨?onGrid, ?outOfTurn, ?notDue, ?budget, ?timer⟩
  case onGrid =>
    intro l s hl hused hdue
    rw [exec_layerSelection s hl, layerSelectionDo_onGrid hused hdue]
  case outOfTurn =>
    intro l s hl hused hearly hdue
    rw [exec_layerSelection s hl, layerSelectionDo_outOfTurn hused hearly hdue]
  case notDue =>
    intro l s hl hearly hdue
    rw [exec_layerSelection s hl, layerSelectionDo_notDue hearly hdue]
  case budget =>
    intro ps budget hoff
    obtain ⟨hmins, hminsFit⟩ := pickMins_spends ps budget hoff
    obtain ⟨hraises, hfit⟩ := pickRaises_spends (pickMins ps budget).1 (pickMins ps budget).2 hminsFit
    have hsum : chosenRate (pickRaises (pickMins ps budget).1 (pickMins ps budget).2).1 ≤ budget := by omega
    exact ⟨hsum, hfit⟩
  case timer =>
    intro l s hl hused hout
    refine ⟨_, exec_fbTimeout s hl, ?_⟩
    rw [fbTimeoutDo_expired hused hout]
    obtain ⟨due, hleg⟩ := legAt_setEst l (max ((legAt l s).est / 2) (legAt l s).minKbps)
      (setLeg l { legAt l s with estState := 3, timedOut := true, fbTimer := nowNs s } s)
    rw [hleg, legAt_setLeg]
    exact ⟨rfl, rfl, rfl, fun j hj => (legAt_setEst_ne _ _ hj).trans (legAt_setLeg_ne l j _ s hj), by simp, by simp, by simp⟩

end Sys2Proof
end

section
/-! PROOFS. The statements of the keys: the lifecycle with its tokens and KEKs (R155-R158, R173, R174), and the contexts of slots
(R168-R172). -/

namespace Sys2Proof

open Machine

/-! ## O39: the lifecycle -/

theorem exec_keyProvision (src : CmdSrc) (s : State) (h : src.wf = true) : exec (.keyProvision src) s =
    .next (command 0x60 (strictly ([(127, 0)], [(127, 0)], [(63, 0)]) keyProvisionBody) src s) := onWf_of_wf (i := .keyProvision src) h

theorem exec_keyToken (src : CmdSrc) (s : State) (h : src.wf = true) : exec (.keyToken src) s =
    .next (command 0x61 (notBlank (strictly ([(79, 0)], [], []) keyTokenBody)) src s) := onWf_of_wf (i := .keyToken src) h

theorem exec_keyTokenRetireCheck (src : CmdSrc) (s : State) (h : src.wf = true) : exec (.keyTokenRetireCheck src) s =
    .next (command 0x6B (notBlank (strictly ([], [], []) retireCheckBody)) src s) := onWf_of_wf (i := .keyTokenRetireCheck src) h

theorem exec_keyKekInstall (src : CmdSrc) (s : State) (h : src.wf = true) : exec (.keyKekInstall src) s =
    .next (command 0x62 (notBlank (strictly ([(63, 0)], [], []) kekInstallBody)) src s) := onWf_of_wf (i := .keyKekInstall src) h

theorem exec_keyKekErase (src : CmdSrc) (s : State) (h : src.wf = true) : exec (.keyKekErase src) s =
    .next (command 0x63 (notBlank (strictly ([(5, 0), (9, 8)], [], []) kekEraseBody)) src s) := onWf_of_wf (i := .keyKekErase src) h

theorem exec_keyCtxSave (src : CmdSrc) (s : State) (h : src.wf = true) : exec (.keyCtxSave src) s =
    .next (command 0x68 (notBlank (strictly ([(63, 0)], [(95, 0)], [(1, 0), (9, 8)]) ctxSaveBody)) src s) :=
  onWf_of_wf (i := .keyCtxSave src) h

theorem exec_keyCtxRestore (src : CmdSrc) (s : State) (h : src.wf = true) : exec (.keyCtxRestore src) s =
    .next (command 0x69 (notBlank (strictly ([(95, 0)], [(0, 0), (13, 8)], []) ctxRestoreBody)) src s) :=
  onWf_of_wf (i := .keyCtxRestore src) h

/-- In BLANK a command is refused before its chapter's own checks (R155, log entry 68). -/
theorem completes_blank {c : CmdSrc → Instr} {op : Nat} {body : Req → State → Answer}
    (he : ∀ src s, src.wf = true → exec (c src) s = .next (command op (notBlank body) src s)) :
    Completes c op (fun _ s => s.keys.life = 0) (fun _ s => (s, refuse stNotStarted 0x04)) :=
  completes_of he fun _ _ hblank => if_pos hblank

theorem keyProvision_blank {r : Req} {s : State} (ho : r.owner = true) (hl : s.keys.life = 0) :
    keyProvisionBody r s = ({ s with keys := { s.keys with
      life := 1, rootKey := bytesOf128 r.w1 ++ bytesOf128 r.w2, ownerHash := hostBytes (fld r.w3 63 0) 48 s } }, some (okWith 0)) := by
  rw [keyProvisionBody, ho, if_neg (by simp), if_neg (by simp [hl]), answer]

theorem keyProvision_again {r : Req} {s : State} (ho : r.owner = true) (hl : s.keys.life ≠ 0) :
    keyProvisionBody r s = (s, some (refuse stNotStarted 0x04)) := by
  rw [keyProvisionBody, ho, if_neg (by simp), if_pos hl, wrongState, answer]

/-! ### Tokens -/

/-- The slots that are in use when a DEBUG_ENABLE token is accepted (R155). -/
def slotsInUse (s : State) : List Nat := (s.keys.slots.toList.filter (fun c => c.2.state != 0)).map (·.1)

/-- Every slot in use is ERASING, and the token `tk` waits for the erases (R155, R164). -/
def debugAwaits (tk : Ticket) (s : State) : State :=
  let t := (slotsInUse s).foldl (fun s k => setErasing k s) s
  { t with keys := { t.keys with debugWait := t.keys.debugWait ++ [tk] } }

/-- A RETIRE token outside RETIRED is decided by the checks of R156. -/
theorem keyToken_retire {r : Req} {s : State} (hp : tokPurpose (hostBytes (fld r.w1 63 0) (fld r.w1 79 64) s) = 4) (hl : s.keys.life ≠ 3) :
    keyTokenBody r s =
      if tokenOk (hostBytes (fld r.w1 63 0) (fld r.w1 79 64) s) s = true then
        ({ consumeToken s with keys := { (consumeToken s).keys with life := 3, rootKey := List.replicate 32 0xFF } }, some (okWith 0))
      else (s, some (refuse stRefused 0x0A)) := by
  unfold keyTokenBody
  extract_lets t p
  rw [if_neg (by simp [show p = 4 from hp]), if_neg (by simp [show p = 4 from hp, hl])]
  cases hok : tokenOk t s
  · rfl
  · rw [if_neg (by simp), if_pos (show p = 4 from hp), if_pos rfl, answer]

/-- A DEBUG_ENABLE token in DEPLOYED is decided by the checks of R156; it waits while a slot is in use. -/
theorem keyToken_debug {r : Req} {s : State} (hp : tokPurpose (hostBytes (fld r.w1 63 0) (fld r.w1 79 64) s) = 1) (hl : s.keys.life = 1) :
    keyTokenBody r s =
      if tokenOk (hostBytes (fld r.w1 63 0) (fld r.w1 79 64) s) s = true then
        if slotsInUse s = [] then
          ({ consumeToken s with keys := { (consumeToken s).keys with life := 2, keks := Tab.empty } }, some (okWith 0))
        else (debugAwaits r.tk (consumeToken s), none)
      else (s, some (refuse stRefused 0x0A)) := by
  unfold keyTokenBody
  extract_lets t p
  rw [if_neg (by simp [show p = 1 from hp]), if_neg (by simp [show p = 1 from hp, hl])]
  cases hok : tokenOk t s
  · rfl
  · rw [if_neg (by simp), if_neg (by simp [show p = 1 from hp]), if_pos rfl]
    exact ite_congr (propext List.isEmpty_iff) (fun _ => rfl) (fun _ => rfl)

theorem slotsInUse_eq_nil {s : State} : slotsInUse s = [] ↔ ∀ c ∈ s.keys.slots.toList, c.2.state = 0 := by
  simp [slotsInUse, List.filter_eq_nil_iff]

theorem mem_of_cellsFind {α : Type} {l : List (Nat × α)} {k : Nat} {v : α} (h : cellsFind l k = some v) : (k, v) ∈ l := by
  induction l with
  | nil => cases h
  | cons c r ih =>
    rw [cellsFind] at h
    split at h
    next hk =>
      obtain rfl := hk
      exact List.mem_cons.mpr (.inl (by rw [← Option.some.inj h]))
    next => exact List.mem_cons_of_mem _ (ih h)

theorem mem_slotsInUse {s : State} {k : Nat} {v : Slot} (h : s.keys.slots.find? k = some v) (hv : v.state ≠ 0) : k ∈ slotsInUse s :=
  List.mem_map.mpr ⟨(k, v), List.mem_filter.mpr ⟨mem_of_cellsFind h, by simpa using hv⟩, rfl⟩

/-- The state that ERASING leaves of a slot's state: EMPTY and ACTIVE slots are erased (R164). -/
def erasedState (n : Nat) : Nat := if n = 1 ∨ n = 2 then 3 else n

theorem erasedState_idem (n : Nat) : erasedState (erasedState n) = erasedState n := by
  unfold erasedState
  split <;> simp_all

theorem state_setErasing (k : Nat) (s : State) : (slotAt k (setErasing k s)).state = erasedState (slotAt k s).state := by
  rw [setErasing, slotAt_updSlot, erasedState]
  split <;> rfl

/-- However often a slot is named, it is ERASING once. -/
theorem state_foldl_setErasing {k : Nat} {l : List Nat} (s : State) (h : k ∈ l) :
    (slotAt k (l.foldl (fun s j => setErasing j s) s)).state = erasedState (slotAt k s).state := by
  induction l generalizing s with
  | nil => cases h
  | cons x r ih =>
    rw [List.foldl_cons]
    by_cases hr : k ∈ r
    · rw [ih _ hr]
      by_cases hx : k = x
      · rw [hx, state_setErasing, erasedState_idem]
      · rw [slotAt_setErasing_ne _ hx]
    · obtain rfl := (List.mem_cons.mp h).resolve_right hr
      rw [slotAt_foldl_setErasing _ hr, state_setErasing]

theorem foldl_setErasing_keeps {β : Type} (p : State → β) (hp : ∀ s k, p (setErasing k s) = p s) (l : List Nat) (s : State) :
    p (l.foldl (fun s k => setErasing k s) s) = p s := foldl_keeps p hp l s

/-- What a DEBUG_ENABLE token that waits changes and leaves (R155). -/
theorem debugAwaits_facts (tk : Ticket) (s : State) :
    (debugAwaits tk s).keys.debugWait = s.keys.debugWait ++ [tk] ∧ (debugAwaits tk s).keys.challenges = s.keys.challenges ∧
    (debugAwaits tk s).keys.life = s.keys.life ∧ (debugAwaits tk s).hq = s.hq ∧ (debugAwaits tk s).dram = s.dram ∧
    (debugAwaits tk s).hostMem = s.hostMem :=
  ⟨congrArg (· ++ [tk]) (foldl_setErasing_keeps (·.keys.debugWait) (fun _ _ => rfl) _ s),
    foldl_setErasing_keeps (·.keys.challenges) (fun _ _ => rfl) _ s, foldl_setErasing_keeps (·.keys.life) (fun _ _ => rfl) _ s,
    foldl_setErasing_keeps (·.hq) (fun _ _ => rfl) _ s, foldl_setErasing_keeps (·.dram) (fun _ _ => rfl) _ s,
    foldl_setErasing_keeps (·.hostMem) (fun _ _ => rfl) _ s⟩

theorem state_debugAwaits {tk : Ticket} {k : Nat} {v : Slot} {s : State} (h : s.keys.slots.find? k = some v) (hv : v.state ≠ 0) :
    (slotAt k (debugAwaits tk s)).state = erasedState v.state := by
  have hslot : slotAt k s = v := by rw [slotAt, Tab.get, h, Option.getD_some]
  rw [← hslot]
  exact state_foldl_setErasing s (mem_slotsInUse h hv)

/-! ### KEKs -/

/-- An unwrapped KEK is installed when its reserved bytes are 0 and its EPOCH is higher (R157, R173). -/
def kekUnwrapped (h p : List Byte) (s : State) : Answer :=
  if (slice p 48 16).all (· == 0) = false then answer s (refuse stNotStarted 0x01)
  else if leAt h 12 4 ≤ (kekOf (byteAt h 6) (byteAt h 7) s).epoch then answer s (refuse stNotStarted 0x06)
  else answer { s with keys := { s.keys with
    keks := s.keys.keks.set (kekKey (byteAt h 6) (byteAt h 7)) ⟨true, leAt h 12 4, slice p 16 32⟩ } } (okWith 0)

/-- With its header in order and its key there, a blob unwraps or is refused (R157, R158). -/
theorem kekInstall_fails {r : Req} {s : State} {key : List Byte} (ho : r.owner = true)
    (hh : headerFine 1 (hostBytes (fld r.w1 63 0) 16 s) = true) (hk : wrapKey (hostBytes (fld r.w1 63 0) 16 s) s = some key)
    (hu : unwrapBlob (hostBytes (fld r.w1 63 0) 88 s) key s = none) :
    kekInstallBody r s = unwrapFail r (hostBytes (fld r.w1 63 0) 16 s) s := by
  simp [kekInstallBody, ho, hh, hk, hu]

theorem kekInstall_unwraps {r : Req} {s : State} {key p : List Byte} (ho : r.owner = true)
    (hh : headerFine 1 (hostBytes (fld r.w1 63 0) 16 s) = true) (hk : wrapKey (hostBytes (fld r.w1 63 0) 16 s) s = some key)
    (hu : unwrapBlob (hostBytes (fld r.w1 63 0) 88 s) key s = some p) :
    kekInstallBody r s = kekUnwrapped (hostBytes (fld r.w1 63 0) 16 s) p s := by
  simp only [kekInstallBody, ho, hh, hk, hu, kekUnwrapped, Bool.not_eq_true', Bool.not_true, Bool.false_eq_true, if_false]

theorem kekErase_owned {r : Req} {s : State} (ho : r.owner = true) : kekEraseBody r s =
    ({ s with keys := { s.keys with keks := s.keys.keks.set (kekKey (fld r.w1 5 0) (fld r.w1 9 8)) {} } }, some (okWith 0)) := by
  rw [kekEraseBody, ho, if_neg (by simp), answer]

/-- Settles O39: each command by the equation of its body, under the check of BLANK and the reserved bits. -/
theorem keyLifecycle : Obligations.KeyLifecycle := by
  refine ⟨completes_of exec_keyProvision ?provision, completes_of exec_keyProvision ?provisionAgain, completes_of exec_keyToken ?retire,
    completes_of exec_keyToken ?debug, ?debugWaits, completes_of exec_keyTokenRetireCheck ?retireCheck, ?blank,
    fun key => completes_of exec_keyKekInstall ?kekInstall, completes_of exec_keyKekErase ?kekErase⟩
  case provision =>
    rintro r s ⟨ho, hl, hz⟩
    rw [strictly_clear hz, keyProvision_blank ho hl]
  case provisionAgain =>
    rintro r s ⟨ho, hl⟩
    exact strictly_refused (keyProvision_again ho hl) rfl
  case retire =>
    rintro r s ⟨hp, hl, hl3, hz⟩
    rw [keyBody_clear hl hz, keyToken_retire hp hl3]
    split <;> rfl
  case debug =>
    rintro r s ⟨hp, hl, hz, hfree⟩
    rw [keyBody_clear (by simp [hl]) hz, keyToken_debug hp hl, if_pos (slotsInUse_eq_nil.mpr hfree)]
    split <;> rfl
  case debugWaits =>
    intro src s s1 r hwf hpres hp hl hz hbusy
    have hused : slotsInUse s1 ≠ [] := fun hnil =>
      let ⟨c, hc, hstate⟩ := hbusy
      hstate (slotsInUse_eq_nil.mp hnil c hc)
    have hrun : exec (.keyToken src) s = _ := (exec_keyToken src s hwf).trans (congrArg _ (command_presented hpres))
    rw [keyBody_clear (by simp [hl]) hz, keyToken_debug hp hl, if_neg hused] at hrun
    refine ⟨fun hbad => ?_, fun hok => ?_⟩
    · rw [hrun, if_neg (by simp [hbad])]
    · rw [if_pos hok] at hrun
      obtain ⟨hwait, hchal, hlife, hhq, hdram, hmem⟩ := debugAwaits_facts r.tk (consumeToken s1)
      exact ⟨_, hrun, hwait, hchal, fun k v hfind hv => state_debugAwaits (s := consumeToken s1) hfind hv, hlife.trans hl, hhq, hdram, hmem⟩
  case retireCheck =>
    rintro r s ⟨hl, hz⟩
    rw [keyBody_clear hl hz, retireCheckBody, answer]
  case blank =>
    simp only [List.forall_mem_cons]
    exact ⟨completes_blank exec_keyToken, completes_blank exec_keyKekInstall, completes_blank exec_keyKekErase,
      completes_blank exec_keySlotAlloc, completes_blank exec_keySlotLoad, completes_blank exec_keySlotErase,
      completes_blank exec_keySlotRelease, completes_blank exec_keyCtxSave, completes_blank exec_keyCtxRestore,
      completes_blank exec_keyTokenRetireCheck, fun _ h => absurd h List.not_mem_nil⟩
  case kekInstall =>
    rintro r s ⟨ho, hl, hz, hh, hk⟩
    rw [keyBody_clear hl hz]
    cases hu : unwrapBlob (hostBytes (fld r.w1 63 0) 88 s) key s with
    | none => exact kekInstall_fails ho hh hk hu
    | some p =>
      rw [kekInstall_unwraps ho hh hk hu, kekUnwrapped]
      dsimp only
      split
      · rfl
      · split <;> rfl
  case kekErase =>
    rintro r s ⟨ho, hl, hz⟩
    rw [keyBody_clear hl hz, kekErase_owned ho]

/-! ## O41: contexts -/

/-! ### Saves -/

/-- What KEY_CTX_SAVE asks for (R168). -/
def saveAsked (r : Req) : SaveReq := ⟨r.tk, fld r.w2 63 0, fld r.w2 95 64, bitOf r.w3 0, fld r.w3 9 8⟩

/-- A clear save is for PF0 and firmware in DEBUG_ENABLED alone (R171). -/
def clearDenied (r : Req) (s : State) : Bool := bitOf r.w3 0 && !(r.owner && s.keys.life == 2)

theorem clearDenied_eq_false {r : Req} {s : State} (h : bitOf r.w3 0 = true → r.owner = true ∧ s.keys.life = 2) :
    clearDenied r s = false := by
  cases hc : bitOf r.w3 0
  · simp [clearDenied, hc]
  · simp [clearDenied, h hc]

theorem clearDenied_eq_true {r : Req} {s : State} (hc : bitOf r.w3 0 = true) (h : r.owner = false ∨ s.keys.life ≠ 2) :
    clearDenied r s = true := by
  rcases h with h | h <;> simp [clearDenied, hc, h]

/-- A save of a slot that the requester may name: the clear form's right first, then the slot and the buffer (R168, R171). -/
theorem ctxSave_named {r : Req} {s : State} (hn : slotNamed r s) : ctxSaveBody r s =
    if clearDenied r s then (s, some (refuse stRefused 0x04))
    else match saveRefusal (handleIdx (fld r.w1 63 0)) (saveAsked r) s with
      | some x => (s, some x)
      | none =>
        if bitOf r.w3 1 then
          match (slotAt (handleIdx (fld r.w1 63 0)) s).save with
          | some _ => wrongState s
          | none => (updSlot (handleIdx (fld r.w1 63 0)) (fun v => { v with frozen := true, save := some (saveAsked r) }) s, none)
        else (writeSnapshot (handleIdx (fld r.w1 63 0)) (saveAsked r) s, some (okWith 0)) := by
  rw [ctxSaveBody, withSlot_named hn]
  rfl

/-- What the slot and the buffer of a save must be (R169, R172). -/
theorem saveRefusal_eq_none {k : Nat} {q : SaveReq} {s : State} : saveRefusal k q s = none ↔ (slotAt k s).state = 2 ∧
    ctxLen (slotAt k s) ≤ q.len ∧ (q.clear = false → (kekOf (slotAt k s).owner q.kek s).valid = true ∧ s.keys.ctxNext < 2 ^ 64) := by
  unfold saveRefusal
  extract_lets v
  split
  next hst => exact iff_of_false nofun fun h => hst h.1
  next hst =>
    split
    next hkek =>
      simp only [Bool.and_eq_true, Bool.not_eq_true'] at hkek
      exact iff_of_false nofun fun h => absurd (h.2.2 hkek.1).1 (by simp [hkek.2, v])
    next hkek =>
      split
      next hctr =>
        simp only [Bool.and_eq_true, Bool.not_eq_true', decide_eq_true_eq] at hctr
        exact iff_of_false nofun fun h => absurd (h.2.2 hctr.1).2 (by omega)
      next hctr =>
        split
        next hlen => exact iff_of_false nofun fun h => absurd h.2.1 (by simpa using hlen)
        next hlen =>
          simp only [Bool.and_eq_true, Bool.not_eq_true', decide_eq_true_eq, not_and, Bool.not_eq_false, Nat.not_le] at hkek hctr
          exact iff_of_true rfl ⟨Decidable.not_not.mp hst, Nat.not_lt.mp hlen, fun hc => ⟨hkek hc, hctr hc⟩⟩

theorem snapshotDo_saves {k : Nat} {q : SaveReq} {s : State} (hq : (slotAt k s).save = some q) (ho : opsOn k s = 0)
    (hst : (slotAt k s).state ≠ 3) (hs : saveRefusal k q (setSlot k { slotAt k s with save := none } s) = none) :
    snapshotDo k s = complete q.ticket (okWith 0) (writeSnapshot k q (setSlot k { slotAt k s with save := none } s)) := by
  unfold snapshotDo
  rw [hq]
  dsimp only
  rw [if_neg (by simp [ho, hst]), updSlot, hs]

/-- A sealed snapshot takes one value of the context counter, which is reserved by then (R172). -/
theorem writeSnapshot_sealed {k : Nat} {q : SaveReq} {s : State} (hc : q.clear = false) :
    (writeSnapshot k q s).keys = (takeCounter s).2.keys ∧ (writeSnapshot k q s).dram = s.dram := by
  simp only [writeSnapshot, hc]
  exact ⟨rfl, rfl⟩

theorem takeCounter_reserved (s : State) :
    (takeCounter s).2.keys.ctxNext = s.keys.ctxNext + 1 ∧ (takeCounter s).2.keys.ctxNext ≤ (takeCounter s).2.keys.ctxReserved ∧
    (takeCounter s).2.keys.slots = s.keys.slots := by
  refine ⟨rfl, ?_, rfl⟩
  show s.keys.ctxNext + 1 ≤ if s.keys.ctxNext < s.keys.ctxReserved then s.keys.ctxReserved else s.keys.ctxNext + 4096
  split <;> omega

/-! ### Restores -/

/-- The context that KEY_CTX_RESTORE names, its clear header, and the number of its index records (R169). -/
def ctxBytes (r : Req) (s : State) : List Byte := hostBytes (fld r.w1 63 0) (fld r.w1 95 64) s
def ctxHead (r : Req) (s : State) : List Byte := (ctxBytes r s).take 32
def ctxCount (r : Req) (s : State) : Nat := (leAt (ctxHead r s) 8 4 - 272) / 32

/-- A context of the kind, whole, and of the function that it is restored for (R169, R170). -/
def ctxFine (kind : Nat) (r : Req) (s : State) : Prop :=
  leAt (ctxHead r s) 0 2 = 0x4B57 ∧ byteAt (ctxHead r s) 2 = 1 ∧ byteAt (ctxHead r s) 3 = kind ∧ byteAt (ctxHead r s) 4 ≤ 63 ∧
    byteAt (ctxHead r s) 5 ≤ 3 ∧ leAt (ctxHead r s) 8 4 = 272 + 32 * ctxCount r s ∧ ctxCount r s ≤ 160 ∧
    fld r.w1 95 64 = leAt (ctxHead r s) 8 4 ∧ byteAt (ctxHead r s) 6 = fld r.w2 13 8

/-- The body of a sealed context as its KEK opens it. -/
def ctxOpened (r : Req) (s : State) : Option (List Byte) :=
  gcmOpen (contextKey (kekOf (byteAt (ctxHead r s) 4) (byteAt (ctxHead r s) 5) s).key (leAt (ctxHead r s) 16 8))
    (ctxNonce (leAt (ctxHead r s) 24 8)) ((ctxHead r s).take 16) ((ctxBytes r s).drop 32)

/-- A context with its body in the clear goes into the free slot found for it, if there is one (R159, R170). -/
def ctxPut (slot : Option Nat) (r : Req) (body : List Byte) (s : State) : Answer :=
  match slot with
  | none => answer s (refuse stCapacity 0x07)
  | some k => answer (restoreInto k (fld r.w2 13 8) body (ctxCount r s) s) (okWith (handleFor .slot k s))

theorem ctxRestore_fine {r : Req} {s : State} {slot : Option Nat} (hslot : freeSlot r s = slot)
    (hc : bitOf r.w2 0 = true → r.owner = true ∧ s.keys.life = 2)
    (hf : ctxFine (if bitOf r.w2 0 then 4 else 3) r s) : ctxRestoreBody r s =
      if bitOf r.w2 0 then ctxPut slot r (slice (ctxBytes r s) 32 (224 + 32 * ctxCount r s)) s
      else if !(kekOf (byteAt (ctxHead r s) 4) (byteAt (ctxHead r s) 5) s).valid then answer s (refuse stNotStarted 0x03)
      else if s.keys.life = 3 then unwrapFail r (ctxHead r s) s
      else match ctxOpened r s with
        | none => unwrapFail r (ctxHead r s) s
        | some body => ctxPut slot r body s := by
  obtain ⟨hmagic, hver, hkind, hfn, hkek, hlen, hcount, hwhole, hown⟩ := hf
  unfold ctxRestoreBody
  rw [hslot]
  extract_lets a len f clear bs hd n fine put
  have hfine : fine = true := by
    simp only [fine, Bool.and_eq_true, beq_iff_eq, decide_eq_true_eq, and_assoc]
    have hlong : len = 272 + 32 * ctxCount r s := hwhole.trans hlen
    exact ⟨hmagic, hver, hkind, hfn, hkek, hlen, hcount, hwhole, by omega⟩
  have hright : (clear && !(r.owner && s.keys.life == 2)) = false := by
    cases hclear : clear
    · rfl
    · simp [hc hclear]
  have hput : put = fun body => ctxPut slot r body s := rfl
  rw [hright, hfine, if_neg Bool.false_ne_true, if_neg (by simp), if_neg (show ¬byteAt hd 6 ≠ f from fun h => h hown), hput]
  rfl

theorem byteAt_take {bs : List Byte} {n o : Nat} (h : o < n) : byteAt (bs.take n) o = byteAt bs o := by
  simp [byteAt, List.getD, List.getElem?_take_of_lt h]

/-- No deadline moves when the records of RTCP-only SSRCs are taken (R170). -/
theorem deadline_takeRtcpOnly {rs : List IdxRec} {d : Nat} (h : ∀ x ∈ rs, x.deadline = d) : ∀ x ∈ takeRtcpOnly rs, x.deadline = d := by
  intro x hx
  obtain ⟨y, hy, rfl⟩ := List.mem_map.mp hx
  split <;> exact h y hy

/-- What a restore makes of a free slot (R170). -/
theorem restoreInto_facts (k f n : Nat) (body : List Byte) (s : State) : (slotAt k (restoreInto k f body n s)).state = 2 ∧
    (slotAt k (restoreInto k f body n s)).owner = f ∧ (slotAt k (restoreInto k f body n s)).profile = byteAt body 0 ∧
    (slotAt k (restoreInto k f body n s)).recs.length = n ∧
    (∀ x ∈ (slotAt k (restoreInto k f body n s)).recs, x.held = true → x.deadline = nowNs s + s.body.quarantineMs * 1000000) ∧
    (identOf .slot k (restoreInto k f body n s)).used = true ∧ (∀ j, j ≠ k → slotAt j (restoreInto k f body n s) = slotAt j s) ∧
    (restoreInto k f body n s).hq = s.hq ∧ (restoreInto k f body n s).hostMem = s.hostMem := by
  refine ⟨by simp [restoreInto], by simp [restoreInto], by simp [restoreInto], by simp [restoreInto, takeRtcpOnly], ?_, ?_, fun j hj => ?_,
    by simp [restoreInto], by simp [restoreInto]⟩
  · simp only [restoreInto, slotAt_writeRecord, slotAt_setSlot]
    refine fun x hx _ => deadline_takeRtcpOnly (fun y hy => ?_) x hx
    obtain ⟨i, -, rfl⟩ := List.mem_map.mp hy
    rfl
  · rw [identOf_congr (s := allocId .slot k s) (by simp [restoreInto]), identOf_allocId]
  · rw [restoreInto, slotAt_writeRecord_ne _ hj, slotAt_setSlot_ne _ _ _ _ hj]; rfl

theorem exec_contextSnapshot {k : Nat} (s : State) (h : k < 2097152) : exec (.contextSnapshot k) s = .next (snapshotDo k s) :=
  onWf_of_wf (i := .contextSnapshot k) (decide_eq_true h)

theorem exec_restoredRecordDrop {k : Nat} (s : State) (h : k < 2097152) : exec (.restoredRecordDrop k) s = .next (restoredDropDo k s) :=
  onWf_of_wf (i := .restoredRecordDrop k) (decide_eq_true h)

theorem ctxRestore_clear {r : Req} {s : State} {k : Nat} (hb : bitOf r.w2 0 = true) (ho : r.owner = true) (hl : s.keys.life = 2)
    (hf : ctxFine 4 r s) (hk : freeSlot r s = some k) : ctxRestoreBody r s =
      (restoreInto k (fld r.w2 13 8) (slice (ctxBytes r s) 32 (224 + 32 * ctxCount r s)) (ctxCount r s) s,
        some (okWith (handleFor .slot k s))) := by
  rw [ctxRestore_fine hk (fun _ => ⟨ho, hl⟩) (by rwa [if_pos hb]), if_pos hb]
  rfl

/-- A sealed context of a KEK that is there, outside RETIRED: the opening decides (R158, R170). -/
theorem ctxRestore_sealed {r : Req} {s : State} {slot : Option Nat} (hslot : freeSlot r s = slot) (hb : bitOf r.w2 0 = false)
    (hl : s.keys.life = 1 ∨ s.keys.life = 2) (hf : ctxFine 3 r s)
    (hv : (kekOf (byteAt (ctxBytes r s) 4) (byteAt (ctxBytes r s) 5) s).valid = true) : ctxRestoreBody r s =
      match ctxOpened r s with
      | none => unwrapFail r (ctxHead r s) s
      | some body => ctxPut slot r body s := by
  have hkek : (kekOf (byteAt (ctxHead r s) 4) (byteAt (ctxHead r s) 5) s).valid = true := by
    rwa [ctxHead, byteAt_take (by decide), byteAt_take (by decide)]
  rw [ctxRestore_fine hslot (fun hclear => by simp [hb] at hclear) (by simpa [hb] using hf), if_neg (by simp [hb]), if_neg (by simp [hkek]),
    if_neg (by omega)]

/-- Settles O41: the commands by the equations of their bodies, the snapshot and the restored slot by what each makes of the state. -/
theorem keyContexts : Obligations.KeyContexts := by
  refine ⟨completes_of exec_keyCtxSave ?save, begins_of exec_keyCtxSave ?freeze, fun k q s => saveRefusal_eq_none,
    completes_of exec_keyCtxSave ?clearDenied, ?snapshot, ?counter, fun k => completes_of exec_keyCtxRestore ?restoreClear,
    fun k body => completes_of exec_keyCtxRestore ?restoreSealed, completes_of exec_keyCtxRestore ?restoreFails, restoreInto_facts, ?drop⟩
  case save =>
    rintro r s ⟨hn, hl, hz, hc, hs, hb⟩
    rw [keyBody_clear hl hz, ctxSave_named hn, clearDenied_eq_false hc, if_neg Bool.false_ne_true,
      show saveRefusal _ (saveAsked r) s = none from hs, hb]
    rfl
  case freeze =>
    rintro r s ⟨hn, hl, hz, hc, hs, hb, hsv⟩
    rw [keyBody_clear hl hz, ctxSave_named hn, clearDenied_eq_false hc, if_neg Bool.false_ne_true,
      show saveRefusal _ (saveAsked r) s = none from hs, hb, hsv]
    rfl
  case clearDenied =>
    rintro r s ⟨hn, hl, hc, hdenied⟩
    rw [notBlank_of hl]
    exact strictly_refused (by rw [ctxSave_named hn, if_pos (clearDenied_eq_true hc hdenied)]) rfl
  case snapshot =>
    intro k s q hk hq ho hst hs
    rw [exec_contextSnapshot s hk, snapshotDo_saves hq ho hst hs]
  case counter =>
    intro k q s hc
    obtain ⟨hkeys, hdram⟩ := writeSnapshot_sealed (k := k) (s := s) hc
    obtain ⟨hnext, hreserved, hslots⟩ := takeCounter_reserved s
    rw [hkeys]
    exact ⟨hnext, hreserved, hslots, hdram⟩
  case restoreClear =>
    rintro r s ⟨hz, hb, ho, hl, hf, hk⟩
    rw [keyBody_clear (by simp [hl]) hz, ctxRestore_clear hb ho hl hf hk]
    dsimp only [ctxCount, ctxHead, ctxBytes]
  case restoreSealed =>
    rintro r s ⟨hz, hb, hl, hf, hv, hopen, hk⟩
    rw [keyBody_clear (by omega) hz, ctxRestore_sealed hk hb hl hf hv, show ctxOpened r s = some body from hopen]
    dsimp only [ctxPut, ctxCount, ctxHead, ctxBytes, answer]
  case restoreFails =>
    rintro r s ⟨hb, hl, hf, hv, hopen⟩
    rw [notBlank_of (by omega)]
    refine strictly_refused ?_ rfl
    rw [ctxRestore_sealed rfl hb hl hf hv, show ctxOpened r s = none from hopen]
    rfl
  case drop =>
    intro k s hk
    rw [exec_restoredRecordDrop s hk, restoredDropDo, updSlot]

end Sys2Proof
end

section
/-! PROOFS. The statement of the family of video decode: how a picture starts, is published band by band, ends and is repaired late. -/

namespace Sys2Proof

open Machine

/-! ## O43: pictures -/

/-! ### A keyframe request leaves buffers and contexts -/

@[simp] theorem sendTm_video (l kind seq ptr plan : Nat) (ws : List Word128) (s : State) : (sendTm l kind seq ptr plan ws s).video = s.video := by
  simp only [sendTm, emit_frame]
  split <;> simp

theorem sendDataBlock_video (l plan : Nat) (stream : Option Nat) (b : Nat × List Word128) (s : State) :
    (sendDataBlock l plan stream b s).video = s.video := by
  simp [sendDataBlock]

theorem pumpFrames_video (n l : Nat) (fs : List TmFrame) (s : State) : (pumpFrames n l fs s).video = s.video := by
  induction n generalizing fs s with
  | zero => rfl
  | succ n ih =>
    cases fs with
    | nil => rfl
    | cons f fs =>
      simp only [pumpFrames]
      split
      · rfl
      · split
        · rw [ih, foldl_keeps State.video (fun t b => sendDataBlock_video l 0 _ b t)]
          simp
        · rw [ih]

@[simp] theorem sendFrame_video (p : Nat) (f : TmFrame) (s : State) : (sendFrame p f s).video = s.video := by
  simp only [sendFrame]
  split
  · simp only [queueFrame, pump]
    split
    · simp [pumpFrames_video]
    · simp
  · simp

theorem wake_video (k : Nat) (s : State) : (wake k s).video = s.video := by
  obtain ⟨_, _, _, _, _, h⟩ := wake_only k s
  rw [h]

theorem fetchSlot_video (w k : Nat) (s : State) : (fetchSlot w k s).video = s.video := by
  simp only [fetchSlot, breakSlot]
  split <;> split <;> simp [wake_video]

theorem lookupSlot_video (w k : Nat) (s : State) : (lookupSlot w k s).video = s.video := by
  simp only [lookupSlot]
  split
  · simp
  · simp [fetchSlot_video]

theorem takeHash_video (profile c len : Nat) (s : State) : (takeHash profile c len s).2.video = s.video := by
  simp only [takeHash]
  split
  · rfl
  · split <;> rfl

theorem indexThresholds_video (w k ssrc : Nat) (rtcp : Bool) (old : Option Nat) (idx : Nat) (s : State) :
    (indexThresholds w k ssrc rtcp old idx s).video = s.video := by
  simp [indexThresholds, apply_ite State.video]

@[simp] theorem protect_video (w k ssrc : Nat) (rtcp : Bool) (seq : Nat) (packet : List Byte) (s : State) :
    (protect w k ssrc rtcp seq packet s).2.video = s.video := by
  simp only [protect]
  split
  · simp [lookupSlot_video]
  · split
    · simp [lookupSlot_video]
    · split
      · simp [lookupSlot_video]
      · split
        · simp [lookupSlot_video]
        · simp [takeHash_video, indexThresholds_video, lookupSlot_video]

@[simp] theorem sendEth_video (p : Nat) (frame : List Byte) (s : State) : (sendEth p frame s).video = s.video := by
  simp only [sendEth]
  split
  · rfl
  · split <;> simp

theorem sendUpstream_video (i : Nat) (pkt : List Byte) (s : State) : (sendUpstream i pkt s).video = s.video := by
  simp only [sendUpstream]
  split
  · rfl
  · split
    · simp
    · split <;> simp

/-- The frame buffers and the decode contexts. -/
def picturesOf (s : State) : Tab FrameBuf × Tab DecCtx := (s.video.bufs, s.video.decs)

theorem picturesOf_congr {s t : State} (h : t.video = s.video) : picturesOf t = picturesOf s := by simp only [picturesOf, h]

theorem sendKeyframeWith_pictures {ask : Nat → State → State} (hask : ∀ k s, picturesOf (ask k s) = picturesOf s) (i : Nat) (s : State) :
    picturesOf (sendKeyframeWith ask i s) = picturesOf s := by
  simp only [sendKeyframeWith]
  split
  · split
    · rfl
    · exact foldl_keeps picturesOf (fun t k => hask k t) _ _
  · exact picturesOf_congr (sendUpstream_video _ _ _)

/-- A request reaches, through stitched outputs, the sources behind them; at each it touches media and outputs alone (R137, R231). -/
theorem kfRequestN_pictures (n i : Nat) (fir : Bool) (s : State) : picturesOf (kfRequestN n i fir s) = picturesOf s := by
  induction n generalizing i fir s with
  | zero => rfl
  | succ n ih =>
    simp only [kfRequestN]
    split
    · exact sendKeyframeWith_pictures (fun k t => ih k false t) i _
    · rfl

/-! ### What an update of the one leaves of the other -/

theorem bufAt_congr {s t : State} (h : t.video.bufs = s.video.bufs) (b : Nat) : bufAt b t = bufAt b s := by simp only [bufAt, h]

theorem decAt_congr {s t : State} (h : t.video.decs = s.video.decs) (c : Nat) : decAt c t = decAt c s := by simp only [decAt, h]

@[simp] theorem bufAt_updDec (b c : Nat) (f : DecCtx → DecCtx) (s : State) : bufAt b (updDec c f s) = bufAt b s := rfl
@[simp] theorem decAt_updBuf (c b : Nat) (f : FrameBuf → FrameBuf) (s : State) : decAt c (updBuf b f s) = decAt c s := rfl
@[simp] theorem decAt_publishBands (c b n : Nat) (s : State) : decAt c (publishBands b n s) = decAt c s := rfl

theorem bufAt_publishBands (b n : Nat) (s : State) : bufAt b (publishBands b n s) = { bufAt b s with
    published := (bufAt b s).published ++ List.replicate (min n (bandsOf (bufAt b s).height - (bufAt b s).published.length)) (nowNs s) } :=
  bufAt_updBuf _ _ _

theorem bufAt_publishBands_ne {b x : Nat} (n : Nat) (s : State) (h : x ≠ b) : bufAt x (publishBands b n s) = bufAt x s :=
  bufAt_updBuf_ne _ _ _ _ h

theorem keptOf_congr {c : Nat} {s t : State} (hb : t.video.bufs = s.video.bufs) (hk : (decAt c t).kept = (decAt c s).kept) :
    keptOf c t = keptOf c s := by
  simp only [keptOf, hk, bufAt_congr hb]

theorem freeBufs_congr {s t : State} (hb : t.video.bufs = s.video.bufs) (hp : t.video.pools = s.video.pools) (k : Nat) :
    freeBufs k t = freeBufs k s := by
  simp only [freeBufs, poolAt, hp, bufAt_congr hb]

/-! ### Writing bands changes the stacks' bytes alone -/

theorem writeSample_only (b k x y v : Nat) (s : State) : ∃ d, writeSample b k x y v s = { s with dram := d } := by
  simp only [writeSample]
  split <;> exact ⟨_, rfl⟩

theorem foldl_dram_only {α : Type} {f : State → α → State} (hf : ∀ s x, ∃ d, f s x = { s with dram := d }) (l : List α) (s : State) :
    ∃ d, l.foldl f s = { s with dram := d } := by
  induction l generalizing s with
  | nil => exact ⟨_, rfl⟩
  | cons x r ih =>
    obtain ⟨d, h⟩ := hf s x
    obtain ⟨d', h'⟩ := ih { s with dram := d }
    rw [List.foldl_cons, h, h']
    exact ⟨_, rfl⟩

theorem writeBand_only (b j : Nat) (sample : Nat → Nat → Nat → Nat) (s : State) : ∃ d, writeBand b j sample s = { s with dram := d } :=
  foldl_dram_only (fun _ _ => writeSample_only _ _ _ _ _ _) _ s

theorem writeBands_only (w : DecWork) (cut n : Nat) (s : State) : ∃ d, writeBands w cut n s = { s with dram := d } :=
  foldl_dram_only (fun _ _ => writeBand_only _ _ _ _) _ s

theorem writeBands_video (w : DecWork) (cut n : Nat) (s : State) : (writeBands w cut n s).video = s.video := by
  obtain ⟨d, h⟩ := writeBands_only w cut n s
  rw [h]

/-- In band mode one band is written, the first that is not yet published. -/
theorem writeBands_one {w : DecWork} {s : State} (cut : Nat) (h : (bufAt w.buf s).published.length < bandsOf (bufAt w.buf s).height) :
    writeBands w cut 1 s = writeBand w.buf (bufAt w.buf s).published.length (pictureSample w cut s) s := by
  have hone : min 1 (bandsOf (bufAt w.buf s).height - (bufAt w.buf s).published.length) = 1 := by omega
  simp [writeBands, hone]

/-! ### The pool is trimmed: a free buffer may be freed, and no other changes -/

theorem bufAt_foldl_clear (k x : Nat) (l : List Nat) (s : State) :
    bufAt x (l.foldl (fun s i => setBuf (bufKey k i) {} s) s) = bufAt x s ∨
      (∃ i ∈ l, x = bufKey k i) ∧ bufAt x (l.foldl (fun s i => setBuf (bufKey k i) {} s) s) = {} := by
  induction l generalizing s with
  | nil => exact .inl rfl
  | cons i r ih =>
    rw [List.foldl_cons]
    rcases ih (setBuf (bufKey k i) {} s) with h | ⟨⟨j, hj, hx⟩, h⟩
    · by_cases hx : x = bufKey k i
      · exact .inr ⟨⟨i, List.mem_cons_self, hx⟩, by rw [h, hx, bufAt_setBuf]⟩
      · exact .inl (by rw [h, bufAt_setBuf_ne _ _ _ _ hx])
    · exact .inr ⟨⟨j, List.mem_cons_of_mem _ hj, hx⟩, h⟩

/-- Only buffers on the free list leave a pool (R186). -/
theorem bufAt_trimPool (k x : Nat) (s : State) :
    bufAt x (trimPool k s) = bufAt x s ∨ (bufAt x s).isFree = true ∧ bufAt x (trimPool k s) = {} := by
  rcases bufAt_foldl_clear k x _ _ with h | ⟨⟨i, hi, rfl⟩, h⟩
  · exact .inl h
  · refine .inr ⟨?_, h⟩
    rcases List.mem_append.mp hi with hgone | hwas
    · exact (List.mem_filter.mp (List.mem_reverse.mp (List.mem_of_mem_take hgone))).2
    · exact (List.mem_filter.mp hwas).2

@[simp] theorem decAt_trimPool (c k : Nat) (s : State) : decAt c (trimPool k s) = decAt c s :=
  foldl_keeps (decAt c) (f := fun t i => setBuf (bufKey k i) {} t) (fun _ _ => rfl) _ _

/-- The marks of a free buffer (R188). -/
theorem isFree_marks {f : FrameBuf} (h : f.isFree = true) :
    f.decoding = false ∧ f.shortRef = false ∧ f.longRef = false ∧ f.outputPending = false ∧ f.awaits = false := by
  simp only [FrameBuf.isFree, Bool.and_eq_true, Bool.not_eq_true'] at h
  obtain ⟨⟨⟨⟨⟨⟨⟨hdec, hshort⟩, hlong⟩, hout⟩, -⟩, -⟩, hawaits⟩, -⟩ := h
  exact ⟨hdec, hshort, hlong, hout, hawaits⟩

/-- A trim keeps the marks of every buffer: those of a buffer that it frees were clear. -/
theorem marks_trimPool (k x : Nat) (s : State) :
    (bufAt x (trimPool k s)).decoding = (bufAt x s).decoding ∧ (bufAt x (trimPool k s)).shortRef = (bufAt x s).shortRef ∧
      (bufAt x (trimPool k s)).longRef = (bufAt x s).longRef ∧ (bufAt x (trimPool k s)).outputPending = (bufAt x s).outputPending ∧
      (bufAt x (trimPool k s)).awaits = (bufAt x s).awaits := by
  rcases bufAt_trimPool k x s with h | ⟨hfree, h⟩
  · simp only [h, and_self]
  · obtain ⟨hd, hs, hl, ho, ha⟩ := isFree_marks hfree
    rw [h, hd, hs, hl, ho, ha]
    and_intros <;> rfl

/-- A buffer that is in use after a trim is as it was before it. -/
theorem bufAt_trimPool_used {k x : Nat} {s : State} (h : (bufAt x (trimPool k s)).isFree = false) :
    bufAt x (trimPool k s) = bufAt x s := by
  rcases bufAt_trimPool k x s with hsame | ⟨-, hclear⟩
  · exact hsame
  · rw [hclear] at h
    cases h

/-! ### Records and requests: only the counters and the request flag of the context move -/

/-- From `s` to `t` no buffer and no other context changes, and context `c` in its counters and its request flag alone. -/
def AccountsOnly (c : Nat) (s t : State) : Prop :=
  t.video.bufs = s.video.bufs ∧ (∃ n a, decAt c t = { decAt c s with ctrs := n, asked := a }) ∧ ∀ d, d ≠ c → decAt d t = decAt d s

theorem AccountsOnly.refl (c : Nat) (s : State) : AccountsOnly c s s := ⟨rfl, ⟨_, _, rfl⟩, fun _ _ => rfl⟩

theorem AccountsOnly.trans {c : Nat} {s t u : State} (h : AccountsOnly c s t) (g : AccountsOnly c t u) : AccountsOnly c s u := by
  obtain ⟨hbufs, ⟨n, a, hc⟩, hd⟩ := h
  obtain ⟨gbufs, ⟨m, b, gc⟩, gd⟩ := g
  exact ⟨gbufs.trans hbufs, ⟨m, b, by rw [gc, hc]⟩, fun d hne => (gd d hne).trans (hd d hne)⟩

theorem accountsOnly_of_pictures {c : Nat} {s t : State} (h : picturesOf t = picturesOf s) : AccountsOnly c s t := by
  obtain ⟨hbufs, hdecs⟩ := Prod.mk.inj h
  exact ⟨hbufs, ⟨_, _, decAt_congr hdecs c⟩, fun d _ => decAt_congr hdecs d⟩

theorem accountsOnly_of_video {c : Nat} {s t : State} (h : t.video = s.video) : AccountsOnly c s t :=
  accountsOnly_of_pictures (picturesOf_congr h)

theorem AccountsOnly.ite {c : Nat} {p : Prop} [Decidable p] {s t u : State} (ht : AccountsOnly c s t) (hu : AccountsOnly c s u) :
    AccountsOnly c s (if p then t else u) := by
  split
  · exact ht
  · exact hu

theorem accountsOnly_updDec {c : Nat} {f : DecCtx → DecCtx} (s : State)
    (hf : ∃ n a, f (decAt c s) = { decAt c s with ctrs := n, asked := a }) : AccountsOnly c s (updDec c f s) :=
  ⟨rfl, by rw [decAt_updDec]; exact hf, fun _ hd => decAt_updDec_ne _ _ _ _ hd⟩

theorem decCount_accounts (c k : Nat) (s : State) : AccountsOnly c s (decCount c k s) :=
  accountsOnly_updDec s ⟨_, _, rfl⟩

theorem endPicture_accounts (c : Nat) (p : PicRecord) (s : State) : AccountsOnly c s (endPicture c p s) := by
  unfold endPicture
  extract_lets v s1 s2 s3 w0 r
  have h3 : AccountsOnly c s s3 := by
    refine (decCount_accounts c (decCounter p) s).trans (accountsOnly_of_video ?_)
    simp [s3, s2, s1, apply_ite State.video]
  have hpush : AccountsOnly c s r.2 := h3.trans (accountsOnly_of_video (by simp [r]))
  exact .ite (.ite hpush (hpush.trans (decCount_accounts c 7 _))) h3

theorem decRequest_accounts (c reason : Nat) (s : State) : AccountsOnly c s (decRequest c reason s) := by
  unfold decRequest
  extract_lets v s1
  have hasked : AccountsOnly c s (updDec c (fun v => { v with asked := true }) s) := accountsOnly_updDec s ⟨_, _, rfl⟩
  have h1 : AccountsOnly c s s1 := .ite (.refl c s) (hasked.trans (accountsOnly_of_video (by simp)))
  split
  · exact h1.trans (accountsOnly_of_pictures (kfRequestN_pictures _ _ _ _))
  · exact h1

/-- A unit that is not decoded taints its context, and touches no buffer (R198, R200). -/
theorem notDecoded_facts (c : Nat) (u : DecUnit) (status reason : Nat) (ask : Bool) (s : State) :
    (notDecoded c u status reason ask s).video.bufs = s.video.bufs ∧
    (∃ n a, decAt c (notDecoded c u status reason ask s) = { decAt c s with ctrs := n, asked := a, tainted := true }) ∧
    ∀ d, d ≠ c → decAt d (notDecoded c u status reason ask s) = decAt d s := by
  obtain ⟨hbufs, ⟨n, a, hc⟩, hd⟩ := endPicture_accounts c { seq := u.seq, status := status, reason := reason, ts := u.unit.ts } s
  obtain ⟨gbufs, ⟨m, b, gc⟩, gd⟩ := AccountsOnly.ite (p := ask = true) (decRequest_accounts c reason _)
    (.refl c (updDec c (fun v => { v with tainted := true })
      (endPicture c { seq := u.seq, status := status, reason := reason, ts := u.unit.ts } s)))
  refine ⟨gbufs.trans hbufs, ⟨m, b, ?_⟩, fun d hne => ?_⟩
  · rw [notDecoded, gc, decAt_updDec, hc]
  · rw [notDecoded, gd d hne, decAt_updDec_ne _ _ _ _ hne, hd d hne]

/-! ### Output: what a buffer's marks of reference and its picture are stays -/

/-- From `s` to `t` only the marks of output, the bands published and the current picture of context `c` change. -/
def OutputsOnly (c : Nat) (s t : State) : Prop :=
  (∀ b, ∃ p l a n, bufAt b t = { bufAt b s with outputPending := p, lingers := l, awaits := a, published := n }) ∧
  (∃ o n, decAt c t = { decAt c s with current := o, superseded := n }) ∧ ∀ d, d ≠ c → decAt d t = decAt d s

theorem OutputsOnly.refl (c : Nat) (s : State) : OutputsOnly c s s := ⟨fun _ => ⟨_, _, _, _, rfl⟩, ⟨_, _, rfl⟩, fun _ _ => rfl⟩

theorem OutputsOnly.trans {c : Nat} {s t u : State} (h : OutputsOnly c s t) (g : OutputsOnly c t u) : OutputsOnly c s u := by
  obtain ⟨hb, ⟨o, n, hc⟩, hd⟩ := h
  obtain ⟨gb, ⟨q, m, gc⟩, gd⟩ := g
  refine ⟨fun b => ?_, ⟨q, m, by rw [gc, hc]⟩, fun d hne => (gd d hne).trans (hd d hne)⟩
  obtain ⟨p, l, a, k, hb⟩ := hb b
  obtain ⟨p', l', a', k', gb⟩ := gb b
  exact ⟨p', l', a', k', by rw [gb, hb]⟩

theorem OutputsOnly.ite {c : Nat} {p : Prop} [Decidable p] {s t u : State} (ht : OutputsOnly c s t) (hu : OutputsOnly c s u) :
    OutputsOnly c s (if p then t else u) := by
  split
  · exact ht
  · exact hu

theorem outputsOnly_updBuf (c b : Nat) {f : FrameBuf → FrameBuf} (s : State)
    (hf : ∃ p l a n, f (bufAt b s) = { bufAt b s with outputPending := p, lingers := l, awaits := a, published := n }) :
    OutputsOnly c s (updBuf b f s) := by
  refine ⟨fun x => ?_, ⟨_, _, rfl⟩, fun _ _ => rfl⟩
  by_cases hx : x = b
  · rw [hx, bufAt_updBuf]
    exact hf
  · exact ⟨_, _, _, _, bufAt_updBuf_ne _ _ _ _ hx⟩

theorem outputsOnly_updDec {c : Nat} {f : DecCtx → DecCtx} (s : State)
    (hf : ∃ o n, f (decAt c s) = { decAt c s with current := o, superseded := n }) : OutputsOnly c s (updDec c f s) :=
  ⟨fun _ => ⟨_, _, _, _, rfl⟩, by rw [decAt_updDec]; exact hf, fun _ hd => decAt_updDec_ne _ _ _ _ hd⟩

theorem publishBands_outputs (c b n : Nat) (s : State) : OutputsOnly c s (publishBands b n s) :=
  outputsOnly_updBuf c b s ⟨_, _, _, _, rfl⟩

/-- The output of `b` first supersedes an older picture `o` that is still the context's (R188). -/
def supersede (c b : Nat) (s : State) : State :=
  match (decAt c s).current with
  | some o =>
    if o = b ∨ (bufAt o s).ctx ≠ some c then s
    else updDec c (fun v => { v with superseded := v.superseded + b2n (bufAt o s).outputPending })
      (updBuf o (fun v => { v with outputPending := false, lingers := [] }) s)
  | none => s

theorem outputPicture_eq (c b : Nat) (s : State) : outputPicture c b s =
    updBuf b (fun v => { v with outputPending := true, awaits := false }) (updDec c (fun v => { v with current := some b }) (supersede c b s)) :=
  rfl

theorem supersede_outputs (c b : Nat) (s : State) : OutputsOnly c s (supersede c b s) := by
  simp only [supersede]
  split
  · exact .ite (.refl c s) ((outputsOnly_updBuf c _ s ⟨_, _, _, _, rfl⟩).trans (outputsOnly_updDec _ ⟨_, _, rfl⟩))
  · exact .refl c s

theorem supersede_keeps (c b : Nat) (s : State) : (∀ x, (bufAt x (supersede c b s)).published = (bufAt x s).published) ∧
    (supersede c b s).dram = s.dram ∧ (supersede c b s).hq = s.hq := by
  simp only [supersede]
  split
  next o _ =>
    split
    · exact ⟨fun _ => rfl, rfl, rfl⟩
    · refine ⟨fun x => ?_, rfl, rfl⟩
      by_cases hx : x = o
      · rw [hx, bufAt_updDec, bufAt_updBuf]
      · rw [bufAt_updDec, bufAt_updBuf_ne _ _ _ _ hx]
  · exact ⟨fun _ => rfl, rfl, rfl⟩

theorem outputPicture_outputs (c b : Nat) (s : State) : OutputsOnly c s (outputPicture c b s) := by
  rw [outputPicture_eq]
  exact (supersede_outputs c b s).trans ((outputsOnly_updDec _ ⟨_, _, rfl⟩).trans (outputsOnly_updBuf c b _ ⟨_, _, _, _, rfl⟩))

@[simp] theorem outputPicture_current (c b : Nat) (s : State) : (decAt c (outputPicture c b s)).current = some b := by
  rw [outputPicture_eq, decAt_updBuf, decAt_updDec]

@[simp] theorem outputPicture_pending (c b : Nat) (s : State) : (bufAt b (outputPicture c b s)).outputPending = true := by
  rw [outputPicture_eq, bufAt_updBuf]

/-- Output publishes no band and writes no sample. -/
theorem outputPicture_keeps (c b : Nat) (s : State) : (∀ x, (bufAt x (outputPicture c b s)).published = (bufAt x s).published) ∧
    (outputPicture c b s).dram = s.dram ∧ (outputPicture c b s).hq = s.hq := by
  obtain ⟨hpub, hdram, hhq⟩ := supersede_keeps c b s
  rw [outputPicture_eq]
  refine ⟨fun x => ?_, hdram, hhq⟩
  rw [← hpub x]
  by_cases hx : x = b
  · rw [hx, bufAt_updBuf, bufAt_updDec]
  · rw [bufAt_updBuf_ne _ _ _ _ hx, bufAt_updDec]

theorem bumpOut_outputs (c : Nat) (bs : List Nat) (s : State) : OutputsOnly c s (bumpOut c bs s) := by
  induction bs generalizing s with
  | nil => exact .refl c s
  | cons b r ih => exact ((publishBands_outputs c b _ s).trans (outputPicture_outputs c b _)).trans (ih _)

/-! ### DECODE_PICTURE_START -/

theorem exec_decodePictureStart {c : Nat} (s : State) (h : c < 65536) :
    exec (.decodePictureStart c) s = .next (pictureStartDo c s) :=
  onWf_of_wf (i := .decodePictureStart c) (decide_eq_true h)

/-- In `t` context `c` has taken the unit that waited first: `rest` wait on, no repair is due, and `k` says whether it waits for a key frame. -/
structure UnitTaken (c : Nat) (rest : List DecUnit) (k : Bool) (s t : State) : Prop where
  bufs : t.video.bufs = s.video.bufs
  pools : t.video.pools = s.video.pools
  content : t.video.nextContent = s.video.nextContent
  others : ∀ d, d ≠ c → decAt d t = decAt d s
  ctx : ∃ l, decAt c t = { decAt c s with waiting := rest, repair := none, lates := l, waitKey := k }

theorem unitTaken_setDec (c : Nat) (rest : List DecUnit) (l : List MediaPkt) (s : State) : UnitTaken c rest (decAt c s).waitKey s
    (setDec c { decAt c s with waiting := rest, repair := none, lates := l } s) where
  bufs := rfl
  pools := rfl
  content := rfl
  others _ hd := decAt_setDec_ne _ _ _ _ hd
  ctx := ⟨l, decAt_setDec _ _ _⟩

theorem UnitTaken.keyed {c : Nat} {rest : List DecUnit} {k : Bool} {s t : State} (h : UnitTaken c rest k s t) :
    UnitTaken c rest false s (updDec c (fun v => { v with waitKey := false }) t) where
  bufs := h.bufs
  pools := h.pools
  content := h.content
  others d hd := by rw [decAt_updDec_ne _ _ _ _ hd, h.others d hd]
  ctx := by
    obtain ⟨l, hl⟩ := h.ctx
    exact ⟨l, by rw [decAt_updDec, hl]⟩

section
variable {c : Nat} {rest : List DecUnit} {k : Bool} {s t : State} (h : UnitTaken c rest k s t)
include h

theorem UnitTaken.picInfo (a : AccessUnit) : picInfo (decAt c t) (decAt c t).memory a = picInfo (decAt c s) (decAt c s).memory a := by
  obtain ⟨l, hl⟩ := h.ctx
  rw [hl]; rfl

theorem UnitTaken.sizeFault (i : Config.PicInfo) : sizeFault (decAt c t) i = sizeFault (decAt c s) i := by
  obtain ⟨l, hl⟩ := h.ctx
  rw [hl]; rfl

theorem UnitTaken.keptOf : keptOf c t = keptOf c s := by
  obtain ⟨l, hl⟩ := h.ctx
  exact keptOf_congr h.bufs (by rw [hl])

theorem UnitTaken.namedRefs (i : Config.PicInfo) : namedRefs c i t = namedRefs c i s := by
  obtain ⟨l, hl⟩ := h.ctx
  simp only [Machine.namedRefs, h.keptOf, hl]

theorem UnitTaken.pictureSize (i : Config.PicInfo) : pictureSize c i t = pictureSize c i s := by
  obtain ⟨l, hl⟩ := h.ctx
  simp only [Machine.pictureSize, h.keptOf, bufAt_congr h.bufs, hl]
  rfl

theorem UnitTaken.freeBufs : freeBufs (poolKey (decAt c t).wing (decAt c t).fn) t = freeBufs (poolKey (decAt c s).wing (decAt c s).fn) s := by
  obtain ⟨l, hl⟩ := h.ctx
  rw [hl, freeBufs_congr h.bufs h.pools]

/-- A unit that is not decoded leaves the picture in work, and every buffer. -/
theorem UnitTaken.notDecoded (u : DecUnit) (status reason : Nat) (ask : Bool) {r : State} (hr : r = notDecoded c u status reason ask t) :
    (decAt c r).waiting = rest ∧ (decAt c r).repair = none ∧ (∀ d, d ≠ c → decAt d r = decAt d s) ∧ (decAt c r).work = (decAt c s).work ∧
      (decAt c r).tainted = true ∧ r.video.bufs = s.video.bufs := by
  subst hr
  obtain ⟨l, hl⟩ := h.ctx
  obtain ⟨hbufs, ⟨n, a, hc⟩, hd⟩ := notDecoded_facts c u status reason ask t
  refine ⟨?_, ?_, fun d hne => (hd d hne).trans (h.others d hne), ?_, ?_, hbufs.trans h.bufs⟩ <;> rw [hc] <;> simp only [hl]

end

theorem nearestRef_congr {s t : State} (hb : t.video.bufs = s.video.bufs) (kept : List Nat) (w h order : Nat) :
    nearestRef kept w h order t = nearestRef kept w h order s := by
  simp only [nearestRef, bufAt_congr hb]

/-- A picture begins in buffer `b`: the buffer is `f` and clean, the context is `v`, and a content number is spent. -/
def begunIn (c b : Nat) (f : FrameBuf) (v : DecCtx) (s : State) : State :=
  cleanBuf b (setDec c v (setBuf b f { s with video := { s.video with nextContent := s.video.nextContent + 1 } }))

theorem begunIn_facts (c b : Nat) (f : FrameBuf) (v : DecCtx) (s : State) : bufAt b (begunIn c b f v s) = f ∧
    (∀ x, x ≠ b → bufAt x (begunIn c b f v s) = bufAt x s) ∧ decAt c (begunIn c b f v s) = v ∧
    ∀ d, d ≠ c → decAt d (begunIn c b f v s) = decAt d s :=
  ⟨bufAt_setBuf b f _, fun x hx => bufAt_setBuf_ne b x f _ hx, decAt_setDec c v _, fun d hd => decAt_setDec_ne c d v _ hd⟩

/-- A unit starts into the lowest free buffer `i` of the context's pool (R188, R193, R197). -/
theorem startPicture_begins {c i : Nat} {info : Config.PicInfo} {s : State} (u : DecUnit)
    (hfree : (freeBufs (poolKey (decAt c s).wing (decAt c s).fn) s).head? = some i) :
    ∃ w f, startPicture c u info s = begunIn c (bufKey (poolKey (decAt c s).wing (decAt c s).fn) i) f
        { decAt c s with
          work := some w, memory := info.memory,
          kept := bufKey (poolKey (decAt c s).wing (decAt c s).fn) i ::
            (keptOf c s).filter (· != bufKey (poolKey (decAt c s).wing (decAt c s).fn) i) } s ∧
      (w.unit = u ∧ w.buf = bufKey (poolKey (decAt c s).wing (decAt c s).fn) i ∧ w.content = s.video.nextContent ∧
        w.memory = (decAt c s).memory ∧
        w.fill = nearestRef (keptOf c s) (pictureSize c info s).1 (pictureSize c info s).2 info.order s) ∧
      f.decoding = true ∧ f.published = [] ∧ f.ctx = some c ∧ f.width = (pictureSize c info s).1 ∧ f.height = (pictureSize c info s).2 := by
  simp only [startPicture, hfree]
  exact ⟨_, _, rfl, ⟨rfl, rfl, rfl, rfl, rfl⟩, rfl, rfl, rfl, rfl, rfl⟩

theorem startPicture_full {c : Nat} {info : Config.PicInfo} {s : State} (u : DecUnit)
    (hfree : (freeBufs (poolKey (decAt c s).wing (decAt c s).fn) s).head? = none) :
    startPicture c u info s = notDecoded c u stFull 0x0A (isRef (decAt c s).codec info) s := by
  simp only [startPicture, hfree]
  rfl

/-! #### An AV1 unit that shows a frame in a slot -/

/-- The frames in slots that a unit shows, where that is all it does. -/
def shownFrames (c : Nat) (info : Config.PicInfo) (s : State) : List (Option Nat) :=
  if info.headers && info.existing then namedRefs c { info with refs := info.outputs.take 1 } s else []

theorem markSlots_keeps (c : Nat) (s : State) :
    (∀ b, ∃ r, bufAt b (markSlots c s) = { bufAt b s with shortRef := r }) ∧ ∀ d, decAt d (markSlots c s) = decAt d s := by
  simp only [markSlots]
  generalize keptOf c s = l
  induction l generalizing s with
  | nil => exact ⟨fun _ => ⟨_, rfl⟩, fun _ => rfl⟩
  | cons x r ih =>
    rw [List.foldl_cons]
    obtain ⟨hb, hd⟩ := ih (updBuf x (fun f => { f with shortRef := (decAt c s).slots.contains (some x) }) s)
    refine ⟨fun b => ?_, hd⟩
    obtain ⟨m, hm⟩ := hb b
    rw [hm]
    by_cases hx : b = x
    · subst hx
      exact ⟨m, by rw [bufAt_updBuf]⟩
    · exact ⟨m, by rw [bufAt_updBuf_ne _ _ _ _ hx]⟩

theorem refreshSlots_keeps (c b refresh : Nat) (s : State) : (∀ x, bufAt x (refreshSlots c b refresh s) = bufAt x s) ∧
    (∃ l, decAt c (refreshSlots c b refresh s) = { decAt c s with slots := l }) ∧
    ∀ d, d ≠ c → decAt d (refreshSlots c b refresh s) = decAt d s :=
  ⟨fun _ => rfl, ⟨_, decAt_updDec _ _ _⟩, fun _ hd => decAt_updDec_ne _ _ _ _ hd⟩

/-- The shown frame is output whole. -/
def shownOut (c b : Nat) (info : Config.PicInfo) (s : State) : State :=
  outputPicture c b (publishBands b (bandsOf (bufAt b s).height) (updDec c (fun v => { v with memory := info.memory }) s))

theorem shownOut_facts (c b : Nat) (info : Config.PicInfo) (s : State) : (bufAt b (shownOut c b info s)).outputPending = true ∧
    (∃ n, decAt c (shownOut c b info s) = { decAt c s with memory := info.memory, current := some b, superseded := n }) ∧
    ∀ d, d ≠ c → decAt d (shownOut c b info s) = decAt d s := by
  have hcur : (decAt c (shownOut c b info s)).current = some b := outputPicture_current _ _ _
  obtain ⟨-, ⟨o, n, hctx⟩, hothers⟩ := outputPicture_outputs c b
    (publishBands b (bandsOf (bufAt b s).height) (updDec c (fun v => { v with memory := info.memory }) s))
  rw [← shownOut] at hctx hothers
  rw [decAt_publishBands, decAt_updDec] at hctx
  obtain rfl : o = some b := by rw [← hcur, hctx]
  refine ⟨outputPicture_pending _ _ _, ⟨n, hctx⟩, fun d hd => ?_⟩
  rw [hothers d hd, decAt_publishBands, decAt_updDec_ne _ _ _ _ hd]

/-- A key frame that is shown refreshes every slot. -/
def shownMarks (c b : Nat) (info : Config.PicInfo) (s : State) : State := if info.key then markSlots c (refreshSlots c b 255 s) else s

theorem shownMarks_keeps (c b : Nat) (info : Config.PicInfo) (s : State) :
    (∀ x, ∃ r, bufAt x (shownMarks c b info s) = { bufAt x s with shortRef := r }) ∧
    (∃ l, decAt c (shownMarks c b info s) = { decAt c s with slots := l }) ∧
    ∀ d, d ≠ c → decAt d (shownMarks c b info s) = decAt d s := by
  simp only [shownMarks]
  split
  · obtain ⟨hx, ⟨l, hl⟩, hd⟩ := refreshSlots_keeps c b 255 s
    obtain ⟨gx, gd⟩ := markSlots_keeps c (refreshSlots c b 255 s)
    exact ⟨fun x => by simpa only [hx] using gx x, ⟨l, by rw [gd, hl]⟩, fun d hne => by rw [gd, hd d hne]⟩
  · exact ⟨fun _ => ⟨_, rfl⟩, ⟨_, rfl⟩, fun _ _ => rfl⟩

theorem showExisting_eq (c b : Nat) (u : DecUnit) (info : Config.PicInfo) (s : State) :
    ∃ p k f, showExisting c u info b s = endPicture c p (trimPool k (updDec c f (shownMarks c b info (shownOut c b info s)))) ∧
      ∀ v, ∃ ta a, f v = { v with tainted := ta, asked := a } :=
  ⟨_, _, _, rfl, fun _ => ⟨_, _, rfl⟩⟩

/-- The shown frame becomes the context's current picture and waits to be composed; the work of the tile stays as it is. -/
theorem showExisting_facts (c b : Nat) (u : DecUnit) (info : Config.PicInfo) (s : State) :
    (bufAt b (showExisting c u info b s)).outputPending = true ∧
    (∃ n l ta a cs, decAt c (showExisting c u info b s) = { decAt c s with
      memory := info.memory, current := some b, superseded := n, slots := l, tainted := ta, asked := a, ctrs := cs }) ∧
    ∀ d, d ≠ c → decAt d (showExisting c u info b s) = decAt d s := by
  obtain ⟨hpending, ⟨n, hout⟩, houtd⟩ := shownOut_facts c b info s
  obtain ⟨hmarks, ⟨l, hslots⟩, hmarksd⟩ := shownMarks_keeps c b info (shownOut c b info s)
  obtain ⟨p, k, f, heq, hf⟩ := showExisting_eq c b u info s
  obtain ⟨hbufs, ⟨cs, a', hend⟩, hendd⟩ := endPicture_accounts c p (trimPool k (updDec c f (shownMarks c b info (shownOut c b info s))))
  rw [heq]
  refine ⟨?_, ?_, fun d hd => ?_⟩
  · obtain ⟨-, -, -, hout, -⟩ := marks_trimPool k b (updDec c f (shownMarks c b info (shownOut c b info s)))
    obtain ⟨r, hr⟩ := hmarks b
    rw [bufAt_congr hbufs, hout, bufAt_updDec, hr, hpending]
  · obtain ⟨ta, a, hta⟩ := hf (decAt c (shownMarks c b info (shownOut c b info s)))
    exact ⟨n, l, ta, a', cs, by rw [hend, decAt_trimPool, decAt_updDec, hta, hslots, hout]⟩
  · rw [hendd d hd, decAt_trimPool, decAt_updDec_ne _ _ _ _ hd, hmarksd d hd, houtd d hd]

section
variable {c : Nat} {rest : List DecUnit} {k : Bool} {s t : State} (h : UnitTaken c rest k s t)
include h

/-- A unit that shows a frame leaves the picture in work. -/
theorem UnitTaken.shows (u : DecUnit) (info : Config.PicInfo) (b : Nat) :
    let r := showExisting c u info b t
    (decAt c r).waiting = rest ∧ (decAt c r).repair = none ∧ (∀ d, d ≠ c → decAt d r = decAt d s) ∧
      (decAt c r).work = (decAt c s).work ∧ (decAt c r).current = some b ∧ (bufAt b r).outputPending = true ∧
      (decAt c r).memory = info.memory := by
  intro r
  obtain ⟨l, hl⟩ := h.ctx
  obtain ⟨hpending, ⟨n, sl, ta, a, cs, hctx⟩, hd⟩ := showExisting_facts c b u info t
  refine ⟨?_, ?_, fun d hne => (hd d hne).trans (h.others d hne), ?_, ?_, hpending, ?_⟩ <;> rw [hctx] <;> simp only [hl]

/-- The picture that starts is that of the unit, in the buffer found for it. -/
theorem UnitTaken.starts {i : Nat} (u : DecUnit) (info : Config.PicInfo)
    (hfree : (Machine.freeBufs (poolKey (decAt c s).wing (decAt c s).fn) s).head? = some i) :
    let b := bufKey (poolKey (decAt c s).wing (decAt c s).fn) i
    let size := Machine.pictureSize c info s
    let r := startPicture c u info t
    (decAt c r).waiting = rest ∧ (decAt c r).repair = none ∧ (∀ d, d ≠ c → decAt d r = decAt d s) ∧
      (∃ w, (decAt c r).work = some w ∧ w.unit = u ∧ w.buf = b ∧ w.content = s.video.nextContent ∧ w.memory = (decAt c s).memory ∧
        w.fill = nearestRef (Machine.keptOf c s) size.1 size.2 info.order s) ∧
      (decAt c r).memory = info.memory ∧ (decAt c r).waitKey = k ∧
      (decAt c r).kept = b :: (Machine.keptOf c s).filter (· != b) ∧
      (bufAt b r).decoding = true ∧ (bufAt b r).published = [] ∧ (bufAt b r).ctx = some c ∧
      (bufAt b r).width = size.1 ∧ (bufAt b r).height = size.2 ∧ ∀ x, x ≠ b → bufAt x r = bufAt x s := by
  intro b size r
  obtain ⟨l, hl⟩ := h.ctx
  have hpool : poolKey (decAt c t).wing (decAt c t).fn = poolKey (decAt c s).wing (decAt c s).fn := by rw [hl]
  have hmemory : (decAt c t).memory = (decAt c s).memory := by rw [hl]
  obtain ⟨w, f, hbegun, hw, hf⟩ := startPicture_begins (info := info) u (by rw [h.freeBufs]; exact hfree)
  rw [hpool, h.keptOf, h.pictureSize, hmemory, h.content, nearestRef_congr h.bufs] at hw
  rw [hpool, h.keptOf] at hbegun
  rw [h.pictureSize] at hf
  obtain ⟨hbuf, hothers, hctx, hd⟩ := begunIn_facts c b f
    { decAt c t with work := some w, memory := info.memory, kept := b :: (Machine.keptOf c s).filter (· != b) } t
  rw [← hbegun] at hbuf hothers hctx hd
  refine ⟨?_, ?_, fun d hne => (hd d hne).trans (h.others d hne), ⟨w, ?_, hw⟩, ?_, ?_, ?_, ?_⟩
  · rw [hctx, hl]
  · rw [hctx, hl]
  · rw [hctx]
  · rw [hctx]
  · rw [hctx, hl]
  · rw [hctx]
  · rw [hbuf]
    obtain ⟨hdec, hpub, hown, hwidth, hheight⟩ := hf
    exact ⟨hdec, hpub, hown, hwidth, hheight, fun x hx => (hothers x hx).trans (bufAt_congr h.bufs x)⟩

end

/-! #### The unit that waits first -/

/-- The unit is not decoded: it is no key frame where one is waited for, or it does not fit (R179, R180, R204). -/
def unitRefused (v : DecCtx) (info : Config.PicInfo) : Prop :=
  (v.waitKey = true ∧ info.key = false) ∨ (info.headers = true ∧ info.existing = false ∧ (sizeFault v info).isSome = true)

theorem pictureStartDo_takes {c : Nat} {u : DecUnit} {rest : List DecUnit} {s : State} (hused : (identOf .decCtx c s).used = true)
    (hhold : s.body.hold = false) (htile : tileBusy (decAt c s).tile s = false) (hrepair : (decAt c s).repair = none)
    (hwaiting : (decAt c s).waiting = u :: rest) :
    ∃ t, UnitTaken c rest (decAt c s).waitKey s t ∧ pictureStartDo c s = beginUnit c u t := by
  have hlate : lateRepairDo c s = s := by simp only [lateRepairDo, hrepair]
  have htaken : ∃ l, pictureStartDo c s = beginUnit c u (setDec c { decAt c s with waiting := rest, repair := none, lates := l } s) := by
    simp only [pictureStartDo, hused, hhold, htile, hlate, hwaiting]
    exact ⟨_, rfl⟩
  obtain ⟨l, hl⟩ := htaken
  exact ⟨_, unitTaken_setDec c rest l s, hl⟩

section
variable {c : Nat} {u : DecUnit} {rest : List DecUnit} {s t : State} (h : UnitTaken c rest (decAt c s).waitKey s t)
include h

theorem beginUnit_refused (hno : unitRefused (decAt c s) (picInfo (decAt c s) (decAt c s).memory u.unit)) :
    ∃ k r status reason, UnitTaken c rest k s r ∧ beginUnit c u t = notDecoded c u status reason false r := by
  obtain ⟨l, hl⟩ := h.ctx
  have hk : (decAt c t).waitKey = (decAt c s).waitKey := by rw [hl]
  simp only [beginUnit, h.picInfo, hk]
  split
  next => exact ⟨_, t, _, _, h, rfl⟩
  next hw =>
    rcases hno with ⟨hwait, hkey⟩ | ⟨hheaders, hexisting, hfault⟩
    · simp [hwait, hkey] at hw
    · obtain ⟨reason, hreason⟩ := Option.isSome_iff_exists.mp hfault
      refine ⟨_, _, stDamaged, reason, h.keyed, ?_⟩
      simp [hheaders, hexisting, h.sizeFault, hreason]

theorem beginUnit_shows {b : Nat} (hyes : ¬unitRefused (decAt c s) (picInfo (decAt c s) (decAt c s).memory u.unit))
    (hshown : shownFrames c (picInfo (decAt c s) (decAt c s).memory u.unit) s = [some b]) :
    ∃ r, UnitTaken c rest false s r ∧ beginUnit c u t = showExisting c u (picInfo (decAt c s) (decAt c s).memory u.unit) b r := by
  obtain ⟨l, hl⟩ := h.ctx
  have hk : (decAt c t).waitKey = (decAt c s).waitKey := by rw [hl]
  refine ⟨_, h.keyed, ?_⟩
  generalize hinfo : picInfo (decAt c s) (decAt c s).memory u.unit = info at *
  have hwait : ¬((decAt c s).waitKey && !info.key) = true := fun hw => hyes (.inl (by simpa using hw))
  simp only [shownFrames] at hshown
  split at hshown
  next hboth =>
    obtain ⟨hheaders, hexisting⟩ := Bool.and_eq_true_iff.mp hboth
    simp only [beginUnit, h.picInfo, hk, hinfo, if_neg hwait, h.keyed.namedRefs, hshown]
    rw [if_neg (by simp [hheaders]), hexisting]
  next => cases hshown

/-- Any other unit starts, whatever its references are read as. -/
theorem beginUnit_starts (hyes : ¬unitRefused (decAt c s) (picInfo (decAt c s) (decAt c s).memory u.unit))
    (hnot : ∀ b, shownFrames c (picInfo (decAt c s) (decAt c s).memory u.unit) s ≠ [some b]) :
    ∃ r refs, UnitTaken c rest false s r ∧
      beginUnit c u t = startPicture c u { picInfo (decAt c s) (decAt c s).memory u.unit with refs := refs } r := by
  obtain ⟨l, hl⟩ := h.ctx
  have hk : (decAt c t).waitKey = (decAt c s).waitKey := by rw [hl]
  generalize hinfo : picInfo (decAt c s) (decAt c s).memory u.unit = info at *
  have hwait : ¬((decAt c s).waitKey && !info.key) = true := fun hw => hyes (.inl (by simpa using hw))
  refine ⟨updDec c (fun v => { v with waitKey := false }) t, ?_⟩
  simp only [beginUnit, h.picInfo, hk, hinfo, if_neg hwait, h.keyed.namedRefs]
  split
  next => exact ⟨info.refs, h.keyed, rfl⟩
  next hheaders =>
    simp only [Bool.not_eq_true', Bool.not_eq_false] at hheaders
    split
    next b hexisting hshown => exact absurd (by rw [shownFrames, if_pos (by simp [hheaders, hexisting]), hshown]) (hnot b)
    next => exact ⟨_, h.keyed, rfl⟩
    next hexisting =>
      rw [h.sizeFault]
      split
      next reason hfault => exact absurd (.inr ⟨hheaders, hexisting, by rw [hfault]; rfl⟩) hyes
      next => exact ⟨info.refs, h.keyed, rfl⟩

end

/-! ### BAND_PUBLISH -/

theorem exec_bandPublish {c : Nat} (s : State) (h : c < 65536) : exec (.bandPublish c) s = .next (bandPublishDo c s) :=
  onWf_of_wf (i := .bandPublish c) (decide_eq_true h)

/-- The next band of a picture in work is written and published. -/
def nextBand (c : Nat) (w : DecWork) (s : State) : State := publishBands w.buf 1 (writeBands w (cutOf (decAt c s) w) 1 s)

theorem nextBand_facts {c : Nat} {w : DecWork} {s : State} (hmore : (bufAt w.buf s).published.length < bandsOf (bufAt w.buf s).height) :
    (bufAt w.buf (nextBand c w s)).published = (bufAt w.buf s).published ++ [nowNs s] ∧
    (nextBand c w s).dram = (writeBand w.buf (bufAt w.buf s).published.length (pictureSample w (cutOf (decAt c s) w) s) s).dram ∧
    (∀ b, b ≠ w.buf → bufAt b (nextBand c w s) = bufAt b s) ∧ (∀ d, decAt d (nextBand c w s) = decAt d s) ∧
    (nextBand c w s).hq = s.hq := by
  have hone : min 1 (bandsOf (bufAt w.buf s).height - (bufAt w.buf s).published.length) = 1 := by omega
  obtain ⟨d, hd⟩ := writeBands_only w (cutOf (decAt c s) w) 1 s
  refine ⟨?_, ?_, fun b hb => ?_, ?_, ?_⟩
  · rw [nextBand, bufAt_publishBands, hd]
    change _ ++ List.replicate (min 1 (bandsOf (bufAt w.buf s).height - (bufAt w.buf s).published.length)) _ = _
    rw [hone]
    rfl
  · rw [← writeBands_one _ hmore]
    rfl
  · rw [nextBand, bufAt_publishBands_ne _ _ hb, hd]
    rfl
  · rw [nextBand, hd]
    exact fun _ => rfl
  · rw [nextBand, hd]
    rfl

/-- The first band makes the picture current (R191). -/
theorem bandPublishDo_eq {c : Nat} {w : DecWork} {s : State} (hused : (identOf .decCtx c s).used = true) (hhold : s.body.hold = false)
    (hwork : (decAt c s).work = some w) (hmode : bandMode (decAt c s).codec w.info = true)
    (hmore : (bufAt w.buf s).published.length < bandsOf (bufAt w.buf s).height) :
    bandPublishDo c s = if w.output then nextBand c w s
      else outputPicture c w.buf (updDec c (fun v => { v with work := some { w with output := true } }) (nextBand c w s)) := by
  have hbands : ¬bandsOf (bufAt w.buf s).height ≤ (bufAt w.buf s).published.length := by omega
  simp only [bandPublishDo, hwork, hused, hhold, hmode, hbands]
  rfl

/-- The first band of a picture is output before any other. -/
theorem firstBand_facts (c : Nat) (w : DecWork) (s : State) :
    let t := outputPicture c w.buf (updDec c (fun v => { v with work := some { w with output := true } }) s)
    (∀ b, (bufAt b t).published = (bufAt b s).published) ∧ t.dram = s.dram ∧ t.hq = s.hq ∧ (decAt c t).current = some w.buf ∧
      (decAt c t).work = some { w with output := true } ∧ ∀ d, d ≠ c → decAt d t = decAt d s := by
  intro t
  obtain ⟨hpub, hdram, hhq⟩ := outputPicture_keeps c w.buf (updDec c (fun v => { v with work := some { w with output := true } }) s)
  obtain ⟨-, ⟨o, n, hctx⟩, hd⟩ := outputPicture_outputs c w.buf (updDec c (fun v => { v with work := some { w with output := true } }) s)
  refine ⟨hpub, hdram, hhq, outputPicture_current _ _ _, ?_, fun d hne => ?_⟩
  · rw [hctx, decAt_updDec]
  · rw [hd d hne, decAt_updDec_ne _ _ _ _ hne]

/-! ### DECODE_PICTURE_END -/

theorem exec_decodePictureEnd {c : Nat} (s : State) (h : c < 65536) : exec (.decodePictureEnd c) s = .next (pictureEndDo c s) :=
  onWf_of_wf (i := .decodePictureEnd c) (decide_eq_true h)

theorem countLostRefs_video (w : DecWork) (s : State) : (countLostRefs w s).video = s.video := by
  refine foldl_keeps State.video (fun t r => ?_) _ _
  split
  · simp only [readBuf]
    split <;> simp
  · rfl

theorem markOthers_decAt (info : Config.PicInfo) (others : List Nat) (d : Nat) (s : State) : decAt d (markOthers info others s) = decAt d s :=
  foldl_keeps (decAt d) (f := fun t (x : Nat × Nat) => updBuf x.1 (fun v =>
    { v with shortRef := v.shortRef && (!info.key && info.keep.contains x.2) && !info.longs.contains x.2,
             longRef := (!info.key && info.keep.contains x.2) && (v.longRef || (v.shortRef && info.longs.contains x.2)) }) t)
    (fun _ _ => rfl) _ _

/-- What a picture leaves on the context's earlier buffers changes no context but in its slots. -/
theorem markPicture_contexts (c : Nat) (w : DecWork) (others : List Nat) (s : State) :
    (∃ l, decAt c (markPicture c w others s) = { decAt c s with slots := l }) ∧
    ∀ d, d ≠ c → decAt d (markPicture c w others s) = decAt d s := by
  simp only [markPicture]
  split
  · obtain ⟨-, ⟨l, hl⟩, hd⟩ := refreshSlots_keeps c w.buf (w.info.refresh % 256) s
    obtain ⟨-, hm⟩ := markSlots_keeps c (refreshSlots c w.buf (w.info.refresh % 256) s)
    exact ⟨⟨l, by rw [hm, hl]⟩, fun d hne => by rw [hm, hd d hne]⟩
  · exact ⟨⟨_, markOthers_decAt _ _ _ _⟩, fun d _ => markOthers_decAt _ _ _ _⟩

/-- The picture's own buffer and the contexts after its end, phase by phase: the last bands, the marks, what is output, the context, the
record and the request, the trim (R188, R196, R204). -/
theorem pictureEndDo_facts {c : Nat} {w : DecWork} {s : State} (hused : (identOf .decCtx c s).used = true) (hhold : s.body.hold = false)
    (hwork : (decAt c s).work = some w) (hrel : (decAt c s).releasing = none) :
    (decAt c (pictureEndDo c s)).work = none ∧ (bufAt w.buf (pictureEndDo c s)).decoding = false ∧
      (bufAt w.buf (pictureEndDo c s)).shortRef = (isRef (decAt c s).codec w.info && !isLong (decAt c s).codec w.info) ∧
      (bufAt w.buf (pictureEndDo c s)).longRef = isLong (decAt c s).codec w.info ∧
      ((bufAt w.buf (pictureEndDo c s)).isFree = false →
        ((bufAt w.buf (pictureEndDo c s)).concealed = true ↔ (pictureEnd (decAt c s) w s).1 ≠ stOk)) ∧
      ∀ d, d ≠ c → decAt d (pictureEndDo c s) = decAt d s := by
  generalize ht : pictureEndDo c s = t
  unfold pictureEndDo at ht
  extract_lets v at ht
  split at ht
  next hnone => exact absurd (hwork.symm.trans hnone) (Option.some_ne_none _)
  next w' hw' =>
    obtain rfl : w' = w := Option.some.inj (hw'.symm.trans hwork)
    rw [if_neg (by simp [hused, hhold])] at ht
    extract_lets others r bad now coded outs marked bumped whole out clean closed ended ask asked trimmed at ht
    have hcoded : coded.video = s.video := (countLostRefs_video _ _).trans (writeBands_video _ _ _ _)
    obtain ⟨⟨l, hslots⟩, hmarkd⟩ := markPicture_contexts c w' others coded
    have hout : OutputsOnly c marked out := by
      have hbumped : OutputsOnly c marked bumped := bumpOut_outputs c outs marked
      have hwhole : OutputsOnly c marked whole := hbumped.trans (publishBands_outputs c w'.buf _ bumped)
      exact .ite (.ite hwhole (hwhole.trans (outputPicture_outputs c w'.buf whole))) hbumped
    obtain ⟨hbuf, ⟨o, n, hctx⟩, houtd⟩ := hout
    have hended : AccountsOnly c closed ended := endPicture_accounts c _ closed
    obtain ⟨haskb, ⟨m, a, haskc⟩, haskd⟩ : AccountsOnly c closed asked := .ite (hended.trans (decRequest_accounts c _ ended)) hended
    have htrimmed : t = trimmed := by
      rw [← ht, if_neg]
      simp [trimmed, haskc, closed, hctx, marked, hslots, decAt_congr (congrArg Video.decs hcoded), hrel]
    obtain ⟨p, li, aw, pub, hown⟩ : ∃ p l a n, bufAt w'.buf asked =
        { bufAt w'.buf marked with outputPending := p, lingers := l, awaits := a, published := n } := by
      rw [bufAt_congr haskb]
      exact hbuf w'.buf
    simp only [marked, bufAt_updBuf] at hown
    obtain ⟨hdec, hshort, hlong, -, -⟩ := marks_trimPool (poolKey v.wing v.fn) w'.buf asked
    subst htrimmed
    refine ⟨?_, ?_, ?_, ?_, fun hin => ?_, fun d hd => ?_⟩
    · simp [trimmed, haskc, closed]
    · simp [trimmed, hdec, hown]
    · simp [trimmed, hshort, hown, v]
    · simp [trimmed, hlong, hown, v]
    · rw [show bufAt w'.buf trimmed = bufAt w'.buf asked from bufAt_trimPool_used hin, hown]
      simp [bad, r, v]
    · simp only [trimmed, decAt_trimPool]
      rw [haskd d hd, decAt_updDec_ne _ _ _ _ hd, houtd d hd, decAt_updBuf, hmarkd d hd, decAt_congr (congrArg Video.decs hcoded)]

/-! ### LATE_REPAIR -/

theorem exec_lateRepair {c : Nat} (s : State) (h : c < 65536) : exec (.lateRepair c) s = .next (lateRepairDo c s) :=
  onWf_of_wf (i := .lateRepair c) (decide_eq_true h)

theorem isFree_of_keptOf {c b : Nat} {s : State} (h : b ∈ keptOf c s) : (bufAt b s).isFree = false := by
  have hkept := (List.mem_filter.mp h).2
  simp only [Bool.and_eq_true, Bool.not_eq_true'] at hkept
  exact hkept.2

theorem isFree_of_freeBufs {k i : Nat} {s : State} (h : (freeBufs k s).head? = some i) : (bufAt (bufKey k i) s).isFree = true :=
  (List.mem_filter.mp (List.mem_of_mem_head? h)).2

/-- A fresh buffer as a repair of the picture in `f` takes it: the marks of reference and of waiting, and nothing published yet. -/
def repairBuf (c : Nat) (f : FrameBuf) : FrameBuf :=
  { f with decoding := false, outputPending := false, holders := [], lingers := [], ctx := some c, concealed := false, published := [] }

/-- The damaged buffer is a reference no longer, and waits for no output. -/
def unmarkBuf (f : FrameBuf) : FrameBuf := { f with shortRef := false, longRef := false, awaits := false }

/-- The context has no repair left to make, and a content number is spent. -/
def repairTaken (c : Nat) (l : List MediaPkt) (s : State) : State :=
  let t := setDec c { decAt c s with repair := none, lates := l } s
  { t with video := { t.video with nextContent := t.video.nextContent + 1 } }

theorem repairTaken_repair (c : Nat) (l : List MediaPkt) (s : State) : (decAt c (repairTaken c l s)).repair = none :=
  congrArg DecCtx.repair (decAt_setDec c { decAt c s with repair := none, lates := l } s)

theorem decAt_repairTaken_ne {c d : Nat} (l : List MediaPkt) (s : State) (h : d ≠ c) : decAt d (repairTaken c l s) = decAt d s :=
  decAt_setDec_ne _ _ _ _ h

/-- The picture in buffer `old` is decoded again into `b`, whole, and its marks move there. -/
def repairedInto (c b old : Nat) (again : DecWork) (s : State) : State :=
  let n := bandsOf (bufAt old s).height
  updBuf old unmarkBuf (publishBands b n (writeBands again n n (cleanBuf b (setBuf b (repairBuf c (bufAt old s)) s))))

theorem repairedInto_facts {c b old : Nat} (again : DecWork) (s : State) (hne : b ≠ old) :
    bufAt b (repairedInto c b old again s) =
      { repairBuf c (bufAt old s) with published := List.replicate (bandsOf (bufAt old s).height) (nowNs s) } ∧
    bufAt old (repairedInto c b old again s) = unmarkBuf (bufAt old s) ∧
    (∀ x, x ≠ b → x ≠ old → bufAt x (repairedInto c b old again s) = bufAt x s) ∧
    ∀ d, decAt d (repairedInto c b old again s) = decAt d s := by
  simp only [repairedInto]
  obtain ⟨m, hm⟩ := writeBands_only again (bandsOf (bufAt old s).height) (bandsOf (bufAt old s).height)
    (cleanBuf b (setBuf b (repairBuf c (bufAt old s)) s))
  rw [hm]
  have hwritten : ∀ x, bufAt x { cleanBuf b (setBuf b (repairBuf c (bufAt old s)) s) with dram := m } =
      bufAt x (setBuf b (repairBuf c (bufAt old s)) s) := fun _ => rfl
  refine ⟨?_, ?_, fun x hb hold => ?_, fun d => ?_⟩
  · rw [bufAt_updBuf_ne _ _ _ _ hne, bufAt_publishBands, hwritten, bufAt_setBuf]
    simp only [repairBuf, List.length_nil, Nat.sub_zero, Nat.min_self, List.nil_append]
    rfl
  · rw [bufAt_updBuf, bufAt_publishBands_ne _ _ hne.symm, hwritten, bufAt_setBuf_ne _ _ _ _ hne.symm]
  · rw [bufAt_updBuf_ne _ _ _ _ hold, bufAt_publishBands_ne _ _ hb, hwritten, bufAt_setBuf_ne _ _ _ _ hb]
  · rfl

section
variable {c i : Nat} {w : DecWork} {s : State} (hused : (identOf .decCtx c s).used = true) (hhold : s.body.hold = false)
  (hrepair : (decAt c s).repair = some w) (hwhole : unitComplete (withLates w.unit.unit (decAt c s).lates) = true)
  (htile : tileBusy (decAt c s).tile s = false) (hkept : w.buf ∈ keptOf c s)
  (hfree : (freeBufs (poolKey (decAt c s).wing (decAt c s).fn) s).head? = some i)
include hused hhold hrepair hwhole htile hkept hfree

/-- A repair that can be made: the context has none left, the marks move to the fresh buffer, the context's lists follow (`f`), a record
`p` is written. -/
theorem lateRepairDo_repairs : ∃ l again f p,
    lateRepairDo c s = endPicture c p (trimPool (poolKey (decAt c s).wing (decAt c s).fn) (updDec c f
      (repairedInto c (bufKey (poolKey (decAt c s).wing (decAt c s).fn) i) w.buf again (repairTaken c l s)))) ∧
    ∀ v, (f v).repair = v.repair := by
  have hcan : (!(identOf .decCtx c s).used || s.body.hold || !unitComplete (withLates w.unit.unit (decAt c s).lates)
      || tileBusy (decAt c s).tile s || !(keptOf c s).contains w.buf) = false := by simp [hused, hhold, hwhole, htile, hkept]
  have hsame : ∀ l, freeBufs (poolKey (decAt c s).wing (decAt c s).fn) (setDec c { decAt c s with repair := none, lates := l } s) =
      freeBufs (poolKey (decAt c s).wing (decAt c s).fn) s := fun _ => rfl
  simp only [lateRepairDo, hrepair, hcan, hsame, hfree, Bool.false_eq_true, if_false]
  exact ⟨_, _, _, _, rfl, fun _ => rfl⟩

/-- The fresh buffer takes the marks of the damaged one, which loses them; no other buffer's marks move (R199). -/
theorem lateRepairDo_facts :
    let b := bufKey (poolKey (decAt c s).wing (decAt c s).fn) i
    let t := lateRepairDo c s
    (decAt c t).repair = none ∧ (bufAt b t).shortRef = (bufAt w.buf s).shortRef ∧
      (bufAt b t).longRef = (bufAt w.buf s).longRef ∧ (bufAt b t).awaits = (bufAt w.buf s).awaits ∧ (bufAt b t).concealed = false ∧
      (bufAt b t).outputPending = false ∧ (bufAt w.buf t).shortRef = false ∧ (bufAt w.buf t).longRef = false ∧ (bufAt w.buf t).awaits = false ∧
      ((bufAt b t).isFree = false → (bufAt b t).published = List.replicate (bandsOf (bufAt w.buf s).height) (nowNs s)) ∧
      (∀ x, x ≠ b → x ≠ w.buf → (bufAt x t).shortRef = (bufAt x s).shortRef ∧ (bufAt x t).longRef = (bufAt x s).longRef ∧
        (bufAt x t).outputPending = (bufAt x s).outputPending) ∧ ∀ d, d ≠ c → decAt d t = decAt d s := by
  intro b t
  have hne : b ≠ w.buf := fun h => by
    have hinUse := isFree_of_keptOf hkept
    rw [← h, isFree_of_freeBufs hfree] at hinUse
    cases hinUse
  obtain ⟨l, again, f, p, ht, hf⟩ := lateRepairDo_repairs hused hhold hrepair hwhole htile hkept hfree
  obtain ⟨hb, hold, hrest, hctx⟩ := repairedInto_facts (c := c) again (repairTaken c l s) hne
  generalize repairedInto c b w.buf again (repairTaken c l s) = r at *
  generalize poolKey (decAt c s).wing (decAt c s).fn = k at *
  obtain ⟨hbufs, ⟨n, a, hend⟩, hothers⟩ := endPicture_accounts c p (trimPool k (updDec c f r))
  rw [← ht] at hbufs hend hothers
  have hbuf : ∀ x, bufAt x t = bufAt x (trimPool k (updDec c f r)) := bufAt_congr hbufs
  obtain ⟨-, hbShort, hbLong, hbOut, hbAwaits⟩ := marks_trimPool k b (updDec c f r)
  obtain ⟨-, hoShort, hoLong, -, hoAwaits⟩ := marks_trimPool k w.buf (updDec c f r)
  simp only [bufAt_updDec, hb, hold, ← hbuf] at hbShort hbLong hbOut hbAwaits hoShort hoLong hoAwaits
  refine ⟨?_, hbShort, hbLong, hbAwaits, ?_, hbOut, hoShort, hoLong, hoAwaits, fun hin => ?_, fun x hx hx' => ?_, fun d hd => ?_⟩
  · rw [hend, decAt_trimPool, decAt_updDec, hf, hctx, repairTaken_repair]
  · rcases bufAt_trimPool k b (updDec c f r) with h | ⟨-, h⟩
    · rw [hbuf, h, bufAt_updDec, hb]
      rfl
    · rw [hbuf, h]
  · rw [hbuf] at hin ⊢
    rw [bufAt_trimPool_used hin, bufAt_updDec, hb]
    rfl
  · obtain ⟨-, hShort, hLong, hOut, -⟩ := marks_trimPool k x (updDec c f r)
    rw [hbuf, hShort, hLong, hOut, bufAt_updDec, hrest x hx hx']
    exact ⟨rfl, rfl, rfl⟩
  · rw [hothers d hd, decAt_trimPool, decAt_updDec_ne _ _ _ _ hd, hctx, decAt_repairTaken_ne _ _ hd]

end

/-- Settles O43: each row by what its phases make of the picture's buffer and of its context. -/
theorem picturesDecode : Obligations.PicturesDecode := by
  refine ⟨?start, ?band, ?finish, ?repair⟩
  case start =>
    intro c u rest s hc hused hhold htile hrepair hwaiting v k info size
    obtain ⟨t, htaken, hstart⟩ := pictureStartDo_takes hused hhold htile hrepair hwaiting
    refine ⟨_, exec_decodePictureStart s hc, ?_⟩
    rw [hstart]
    split
    next hno =>
      obtain ⟨_, r, status, reason, hr, heq⟩ := beginUnit_refused htaken hno
      rw [heq]
      exact hr.notDecoded u status reason false rfl
    next hyes =>
      split
      next b hshown =>
        obtain ⟨r, hr, heq⟩ := beginUnit_shows htaken hyes hshown
        rw [heq]
        exact hr.shows u info b
      next hnot =>
        obtain ⟨r, refs, hr, heq⟩ := beginUnit_starts htaken hyes hnot
        rw [heq]
        split
        next hfull =>
          rw [startPicture_full u (by rw [hr.freeBufs]; exact hfull)]
          exact hr.notDecoded u stFull 0x0A _ rfl
        next i hfree => exact hr.starts u { info with refs := refs } hfree
  case band =>
    intro c w s hc hused hhold hwork hmode hmore
    obtain ⟨hpub, hdram, hothers, hdecs, hhq⟩ := nextBand_facts (c := c) hmore
    refine ⟨_, exec_bandPublish s hc, ?_⟩
    rw [bandPublishDo_eq hused hhold hwork hmode hmore]
    cases hout : w.output with
    | true =>
      have hw : { w with output := true } = w := by rw [← hout]
      refine ⟨hpub, hdram, fun b hb => by rw [if_pos rfl, hothers b hb], hdecs c ▸ rfl, ?_, fun d _ => hdecs d, hhq⟩
      rw [hw, if_pos rfl, hdecs, hwork]
    | false =>
      obtain ⟨gpub, gdram, ghq, gcur, gwork, gd⟩ := firstBand_facts c w (nextBand c w s)
      exact ⟨(gpub w.buf).trans hpub, gdram.trans hdram, fun b hb => by rw [if_neg Bool.false_ne_true, gpub, hothers b hb], gcur, gwork,
        fun d hd => (gd d hd).trans (hdecs d), ghq.trans hhq⟩
  case finish =>
    intro c w s hc hused hhold hwork hrel
    exact ⟨_, exec_decodePictureEnd s hc, pictureEndDo_facts hused hhold hwork hrel⟩
  case repair =>
    intro c i w s hc hused hhold hrepair hwhole htile hkept hfree
    exact ⟨_, exec_lateRepair s hc, lateRepairDo_facts hused hhold hrepair hwhole htile hkept hfree⟩

end Sys2Proof
end

section
/-! PROOFS. The statements of composition and stitching: how layers blend and count toward depth (R216), and what the commands and events of
outputs make of them (R208-R236). -/

namespace Sys2Proof

open Machine

/-! ## O48: layers blend -/

theorem blend_eq (alpha : Nat) (top below : Int) : blend alpha top below = ((alpha : Int) * top + (1024 - alpha) * below + 512) / 2 ^ 10 :=
  Int.fdiv_eq_ediv_of_nonneg _ (by decide)

theorem blend_opaque (top below : Int) : blend 1024 top below = top := by
  rw [blend_eq]
  omega

theorem blend_invisible (top below : Int) : blend 0 top below = below := by
  rw [blend_eq]
  omega

/-- The layer on top is blended last (R216). -/
theorem composedSample_append (o : Output) (ls : List (LayerCfg × Nat)) (l : LayerCfg × Nat) (x y : Int) (k : Nat) (s : State) :
    composedSample o (ls ++ [l]) x y k s =
      if covers o l.1 x y = true then blend l.1.alpha (layerSample o l.1 l.2 x y k s) (composedSample o ls x y k s)
      else composedSample o ls x y k s := by
  simp only [composedSample, List.foldl_append, List.foldl_cons, List.foldl_nil]

/-- Where a layer draws is told by word 3 alone. -/
theorem destination_congr {a b : LayerCfg} (h : a.w3 = b.w3) (o : Output) : a.dstX = b.dstX ∧ a.dstY = b.dstY ∧ covers o a = covers o b := by
  cases a
  cases b
  cases h
  and_intros <;> rfl

/-- Depth counts the layers in use by their destinations; word 2, where ALPHA stands, has no part in it (R212, R216). -/
theorem depthOf_congr {a b : LayerCfg} (htyp : a.typ = b.typ) (hw3 : a.w3 = b.w3) (o : Output) (n : Nat) (t : List (Nat × LayerCfg)) :
    depthOf o ⟨(n, a) :: t⟩ = depthOf o ⟨(n, b) :: t⟩ := by
  obtain ⟨hx, hy, hcov⟩ := destination_congr hw3 o
  by_cases hin : n < 64 ∧ b.typ ≠ 0
  · simp [depthOf, Tab.toList, List.filter_cons, htyp, hin, hx, hy, hcov, apply_ite List.length]
  · simp [depthOf, Tab.toList, htyp, hin]

/-- Settles O48: the blend by its formula, the layer on top by the fold's last step, the depth by what it reads of a layer. -/
theorem layersBlend : Obligations.LayersBlend :=
  ⟨fun alpha s v _ => blend_eq alpha s v, blend_opaque, blend_invisible, composedSample_append,
    fun o n _ _ t htyp hw3 _ => depthOf_congr htyp hw3 o n t⟩

/-! ## O44: outputs -/

/-! ### Commands that name an output -/

theorem exec_vidOutLayer (src : CmdSrc) (s : State) (h : src.wf = true) : exec (.vidOutLayer src) s =
    .next (command 0x76 (fun r s => strictly (layerLayout r s) outLayerBody r s) src s) := onWf_of_wf (i := .vidOutLayer src) h

theorem exec_vidOutMatrix (src : CmdSrc) (s : State) (h : src.wf = true) : exec (.vidOutMatrix src) s =
    .next (command 0x77 (strictly ([(12, 0), (22, 16)], [(127, 0)], [(75, 0)]) outMatrixBody) src s) := onWf_of_wf (i := .vidOutMatrix src) h

theorem exec_vidOutCommit (src : CmdSrc) (s : State) (h : src.wf = true) : exec (.vidOutCommit src) s =
    .next (command 0x78 (strictly ([(12, 0), (16, 16)], [], []) outCommitBody) src s) := onWf_of_wf (i := .vidOutCommit src) h

theorem exec_vidOutRead (src : CmdSrc) (s : State) (h : src.wf = true) : exec (.vidOutRead src) s =
    .next (command 0x79 (strictly ([(12, 0)], [(63, 0)], [(0, 0)]) outReadBody) src s) := onWf_of_wf (i := .vidOutRead src) h

theorem exec_vidOutRelease (src : CmdSrc) (s : State) (h : src.wf = true) : exec (.vidOutRelease src) s =
    .next (command 0x7A (strictly ([(12, 0)], [], []) outReleaseBody) src s) := onWf_of_wf (i := .vidOutRelease src) h

/-- The output that word 1 names (R208). -/
abbrev namedOut (r : Req) (s : State) : Output := outputAt (fld r.w1 12 0) s

theorem withOut_named {r : Req} {s : State} (h : outNamed r s) (f : Nat → Answer) :
    withOut (fld r.w1 12 0) r s f = viaWing (namedOut r s).wing (f (fld r.w1 12 0)) := by
  obtain ⟨hused, hown⟩ := h
  simp only [withOut, hused, Bool.true_and]
  exact if_pos (by simpa using hown)

/-- An OK over a Wing is DEGRADED while its traffic is rerouted (R31). -/
theorem viaWing_ok (w : Nat) (t : State) : viaWing w (answer t (okWith 0)) = ((doneVia w t).1, some (doneVia w t).2) := by
  cases h : wingRerouted w t <;> simp [viaWing, answer, okWith, okVia, doneVia, h]

theorem viaWing_refused (w : Nat) (t : State) {x : Reply} (h : x.st ≠ stOk) : viaWing w (answer t x) = (t, some x) := by
  simp [viaWing, answer, h]

/-- The settings that VID_OUT_LAYER writes to a layer of an output (R211, R213). -/
def layerAsked (r : Req) (v : Output) (s : State) : LayerCfg :=
  { v.shadow.get (fld r.w1 22 16) {} with
    typ := fld r.w1 25 24, w2 := r.w2, w3 := r.w3
    born := if v.stitched = false ∧ fld r.w1 25 24 = 1 then (decAt (fld r.w2 14 0) s).born else 0 }

section
variable {r : Req} {s : State}

theorem outLayer_writes (hn : outNamed r s) (hown : r.owner = true ∨ fld r.w1 22 16 ≠ 64 ∧
      isCocoonCell (namedOut r s) (fld r.w1 22 16) = false)
    (hfine : layerRefusal (namedOut r s) (fld r.w1 22 16) (layerAsked r (namedOut r s) s) s = none) :
    outLayerBody r s = viaWing (namedOut r s).wing (answer (setOutput (fld r.w1 12 0) { namedOut r s with
      shadow := (namedOut r s).shadow.set (fld r.w1 22 16) (layerAsked r (namedOut r s) s) } s) (okWith 0)) := by
  have hfree : (!r.owner && (fld r.w1 22 16 == 64 || ((identOf .output (fld r.w1 12 0) s).used &&
      isCocoonCell (namedOut r s) (fld r.w1 22 16)))) = false := by
    rcases hown with h | ⟨hl, hc⟩
    · simp [h]
    · simp [hl, hc]
  have hborn : (!(namedOut r s).stitched && fld r.w1 25 24 == 1) =
      decide ((namedOut r s).stitched = false ∧ fld r.w1 25 24 = 1) := by
    rw [Bool.eq_iff_iff, Bool.and_eq_true, Bool.not_eq_true', beq_iff_eq, decide_eq_true_eq]
  simp only [outLayerBody, hfree, Bool.false_eq_true, if_false, withOut_named hn, hborn, decide_eq_true_eq]
  simp only [layerAsked, LayerCfg.ctx] at hfine ⊢
  rw [hfine]

theorem outLayer_cocoon (ho : r.owner = false) (hc : fld r.w1 22 16 = 64 ∨ (identOf .output (fld r.w1 12 0) s).used = true ∧
      isCocoonCell (namedOut r s) (fld r.w1 22 16) = true) :
    outLayerBody r s = cocoonRefused (fld r.w1 12 0) r s := by
  refine if_pos ?_
  rcases hc with h | ⟨hu, hc⟩
  · simp [ho, h]
  · simp [ho, hu, hc]

theorem outMatrix_writes (hn : outNamed r s) (hst : (namedOut r s).stitched = false) (hl : fld r.w1 22 16 ≤ 63) :
    outMatrixBody r s = viaWing (namedOut r s).wing (answer (setOutput (fld r.w1 12 0) { namedOut r s with
      shadow := (namedOut r s).shadow.set (fld r.w1 22 16)
        { (namedOut r s).shadow.get (fld r.w1 22 16) {} with m2 := r.w2, m3 := r.w3 } } s) (okWith 0)) := by
  have hfree : (!r.owner && fld r.w1 22 16 == 64) = false := by rw [beq_false_of_ne (by omega), Bool.and_false]
  have hrange : ((namedOut r s).stitched || decide (63 < fld r.w1 22 16)) = false := by
    rw [hst, Bool.false_or]
    exact decide_eq_false (Nat.not_lt.mpr hl)
  simp only [outMatrixBody, hfree, Bool.false_eq_true, if_false, withOut_named hn, hrange]

theorem outMatrix_cocoon (ho : r.owner = false) (hl : fld r.w1 22 16 = 64) : outMatrixBody r s = cocoonRefused (fld r.w1 12 0) r s :=
  if_pos (by simp [ho, hl])

/-- The settings that VID_OUT_COMMIT makes pending: the shadow, or with bit 16 what is pending or active with the shadow's layer 64 (R211). -/
def commitAsked (r : Req) (v : Output) : Tab LayerCfg :=
  if bitOf r.w1 16 = true then (v.pending.getD v.active).set 64 (v.shadow.get 64 {}) else v.shadow

theorem outCommit_deep (hn : outNamed r s) (hb : bitOf r.w1 16 = false) (hst : (namedOut r s).stitched = false)
    (hd : (namedOut r s).maxDepth < depthOf (namedOut r s) (namedOut r s).shadow) :
    outCommitBody r s = (s, some (refuse stNotStarted 0x0D)) := by
  simp only [outCommitBody, hb, Bool.false_and, Bool.false_eq_true, if_false, withOut_named hn, hst, Bool.not_false, Bool.true_and, hd,
    decide_true, if_true]
  exact viaWing_refused _ _ (by decide)

theorem outCommit_altMissing (hn : outNamed r s) (hb : bitOf r.w1 16 = false) (hst : (namedOut r s).stitched = true)
    (ha : altsReady (namedOut r s) (namedOut r s).shadow s = false) : outCommitBody r s = (s, some (refuse stNotStarted 0x01)) := by
  simp only [outCommitBody, hb, Bool.false_and, Bool.false_eq_true, if_false, withOut_named hn, hst, Bool.not_true, ha, Bool.not_false,
    Bool.and_self, if_true]
  exact viaWing_refused _ _ (by decide)

theorem outCommit_begins (hn : outNamed r s) (ho : bitOf r.w1 16 = true → r.owner = true)
    (hfine : if (namedOut r s).stitched = true then altsReady (namedOut r s) (commitAsked r (namedOut r s)) s = true
      else depthOf (namedOut r s) (commitAsked r (namedOut r s)) ≤ (namedOut r s).maxDepth) :
    outCommitBody r s = (setOutput (fld r.w1 12 0) { namedOut r s with
      pending := some (commitAsked r (namedOut r s)), whole := (namedOut r s).whole || !bitOf r.w1 16
      commits := (namedOut r s).commits ++ [r.tk] } s, none) := by
  have hfree : ¬(bitOf r.w1 16 && !r.owner) = true := by
    cases hb : bitOf r.w1 16 with
    | false => simp
    | true => simp [ho hb]
  rw [outCommitBody, if_neg hfree, withOut_named hn]
  extract_lets v next
  have hdepth : (!v.stitched && decide (v.maxDepth < depthOf v next)) = false := by
    cases hst : v.stitched with
    | true => rfl
    | false =>
      rw [show (namedOut r s).stitched = false from hst, if_neg Bool.false_ne_true] at hfine
      exact decide_eq_false (Nat.not_lt.mpr hfine)
  have halts : (v.stitched && !altsReady v next s) = false := by
    cases hst : v.stitched with
    | false => rfl
    | true =>
      rw [show (namedOut r s).stitched = true from hst, if_pos rfl] at hfine
      rw [show altsReady v next s = true from hfine]
      rfl
  rw [hdepth, halts]
  rfl

theorem outCommit_cocoon (ho : r.owner = false) (hb : bitOf r.w1 16 = true) : outCommitBody r s = cocoonRefused (fld r.w1 12 0) r s :=
  if_pos (by simp [ho, hb])

theorem outRead_named (hn : outNamed r s) : outReadBody r s =
    let t := hostPut (fld r.w2 63 0) (outImage (namedOut r s) r.owner) s
    viaWing (namedOut r s).wing
      (answer (if bitOf r.w3 0 = true then updOutput (fld r.w1 12 0) (fun v => { v with ctrs := List.replicate 7 0 }) t else t) (okWith 0)) :=
  withOut_named hn _

theorem outRelease_named (hn : outNamed r s) (hr : (namedOut r s).releasing = none)
    (hs : (namedOut r s).stitched = false ∨ (sourceAt (handleIdx (namedOut r s).source) s).readers = 0) :
    outReleaseBody r s =
      let t := setOutput (fld r.w1 12 0) { namedOut r s with releasing := some r.tk, staged := none } s
      (if (namedOut r s).work.isSome || (namedOut r s).emit.isSome then t else finishOutRelease (fld r.w1 12 0) t,
        none) := by
  have hunread : ((namedOut r s).stitched &&
      decide (0 < (sourceAt (handleIdx (namedOut r s).source) s).readers)) = false := by
    rcases hs with h | h <;> simp [h]
  simp only [outReleaseBody, withOut_named hn, hr, hunread, Option.isSome_none, Bool.false_eq_true, if_false]
  split <;> rfl

end

/-! ### Creation -/

theorem exec_vidOutCreate (src : CmdSrc) (s : State) (h : src.wf = true) : exec (.vidOutCreate src) s =
    .next (command 0x75 (strictly ([(5, 0), (55, 8), (127, 64)], [(49, 0)], [(65, 0)]) outCreateBody) src s) :=
  onWf_of_wf (i := .vidOutCreate src) h

theorem outputAt_congr {s t : State} (h : t.video.outs = s.video.outs) (o : Nat) : outputAt o t = outputAt o s := by simp only [outputAt, h]

theorem okVia_congr {s t : State} (h : t.links = s.links) (w det : Nat) : okVia w det t = okVia w det s := by
  rw [okVia, wingRerouted, linkRerouted, h]
  rfl

/-- An allocation takes no other identifier out of use, and raises no generation (R6). -/
theorem identOf_allocId_keeps (k k' : IdKind) (i j : Nat) (s : State) : (identOf k j (allocId k' i s)).gen = (identOf k j s).gen ∧
    ((identOf k j s).used = true → (identOf k j (allocId k' i s)).used = true) := by
  by_cases h : idKey k j = idKey k' i
  · simp [identOf, allocId, Tab.upd, h]
  · simp [identOf, allocId, Tab.upd, Tab.get_set_other _ _ _ _ _ h]

/-- The state in which a local source `v` has taken number `i` (R97). -/
def localAdded (i : Nat) (v : Source) (s : State) : State := writeHeld 1 i 0 (setSource i (fillBuckets v (cmpNow s)) (allocId .source i s))

theorem localAdded_facts {v : Source} (h : v.isLocal = true) (i : Nat) (s : State) :
    (identOf .source i (localAdded i v s)).used = true ∧ (sourceAt i (localAdded i v s)).isLocal = true ∧
      (localAdded i v s).video = s.video ∧ (localAdded i v s).time = s.time ∧ (localAdded i v s).links = s.links := by
  refine ⟨?_, ?_, rfl, rfl, rfl⟩
  · rw [identOf_congr (s := allocId .source i s) (by simp [localAdded]), identOf_allocId]
  · exact (congrArg Source.isLocal (sourceAt_setSource i (fillBuckets v (cmpNow s)) (allocId .source i s))).trans h

/-- Output `v` on a tile, with its local source, from now on (R208, R210). -/
def placedOut (v : Output) (tile source : Nat) (s : State) : Output :=
  { v with tile := tile, next := firstFrame v (cmpNow s), stepSeen := s.time.steps, source := source }

/-- The state in which output `v` has taken number `o`. -/
def outTaken (v : Output) (o tile source : Nat) (s : State) : State :=
  addWork tile (addLoad v.part v.role v.load (setOutput o (placedOut v tile source s) (allocId .output o s)))

theorem outTaken_facts (v : Output) (o tile source : Nat) (s : State) :
    outputAt o (outTaken v o tile source s) = placedOut v tile source s ∧
      (∀ d, d ≠ o → outputAt d (outTaken v o tile source s) = outputAt d s) ∧
      (outTaken v o tile source s).ids = (allocId .output o s).ids ∧ (outTaken v o tile source s).media = s.media ∧
      (outTaken v o tile source s).links = s.links :=
  ⟨outputAt_setOutput o _ (allocId .output o s), fun d hd => outputAt_setOutput_ne o d _ (allocId .output o s) hd, rfl, rfl, rfl⟩

/-- The local source of a stitched output (R208). -/
def stitchSource (v : Output) : Source := localSource v.fn v.wing v.room (if v.codec = 0 then 2 else 3) 0 0

theorem outAdd_stitched (v : Output) (o tile i : Nat) (s : State) : outAdd v o tile (some i) s =
    outTaken v o tile (handleFor .source i (localAdded i (stitchSource v) s)) (localAdded i (stitchSource v) s) := rfl

/-- What VID_OUT_CREATE makes of the state (R208, R209). -/
structure OutCreated (v : Output) (o tile : Nat) (s t : State) : Prop where
  used : (identOf .output o t).used = true
  output : ∃ source, outputAt o t = placedOut v tile source s
  others : ∀ d, d ≠ o → outputAt d t = outputAt d s
  links : t.links = s.links

theorem outCreated_outTaken (v : Output) (o tile source : Nat) (s : State) : OutCreated v o tile s (outTaken v o tile source s) := by
  obtain ⟨hout, hothers, hids, -, hlinks⟩ := outTaken_facts v o tile source s
  exact ⟨by rw [identOf_congr hids, identOf_allocId], ⟨_, hout⟩, hothers, hlinks⟩

theorem outCreated_stitched (v : Output) (o tile i : Nat) (s : State) : OutCreated v o tile s (outAdd v o tile (some i) s) := by
  obtain ⟨-, -, hvideo, htime, hlinks⟩ := localAdded_facts (v := stitchSource v) rfl i s
  obtain ⟨hused, hout, hothers, hl⟩ := outCreated_outTaken v o tile (handleFor .source i (localAdded i (stitchSource v) s))
    (localAdded i (stitchSource v) s)
  have hplaced (h : Nat) : placedOut v tile h (localAdded i (stitchSource v) s) = placedOut v tile h s := by simp only [placedOut, cmpNow, htime]
  exact ⟨hused, hout.imp fun h => (·.trans (hplaced h)),
    fun d hd => (hothers d hd).trans (outputAt_congr (congrArg Video.outs hvideo) d), hl.trans hlinks⟩

theorem outAdd_source (v : Output) (o tile i : Nat) (s : State) :
    let t := outAdd v o tile (some i) s
    (outputAt o t).source = handleFor .source i t ∧ (identOf .source i t).used = true ∧ (sourceAt i t).isLocal = true := by
  obtain ⟨hused, hlocal, -⟩ := localAdded_facts (v := stitchSource v) rfl i s
  obtain ⟨hgen, hstays⟩ := identOf_allocId_keeps .source .output o i (localAdded i (stitchSource v) s)
  rw [outAdd_stitched]
  generalize hh : handleFor .source i (localAdded i (stitchSource v) s) = h
  obtain ⟨hout, -, hids, hmedia, -⟩ := outTaken_facts v o tile h (localAdded i (stitchSource v) s)
  refine ⟨?_, ?_, ?_⟩
  · rw [hout]
    exact hh.symm.trans (by simp only [handleFor, identOf_congr hids, hgen])
  · rw [identOf_congr hids]
    exact hstays hused
  · simpa only [sourceAt, hmedia] using hlocal

section
variable {r : Req} {s : State}

theorem partControl_granted {p : Nat} (h : accHas tgPartition p r.master bitControl s = true) : partControl r p s = (true, s) := by
  simp only [partControl, accCheck_granted h, ite_self]

theorem outCreate_admits (hfine : outFine (outAsked r) = true)
    (hroom : (outAsked r).stitched = true → holdsRoom (reqFn r) (outAsked r).room s = true)
    (hctl : accHas tgPartition (outAsked r).part r.master bitControl s = true)
    (hq : recordQueueRefusal r (outAsked r).mode (outAsked r).recQueue s = none) : outCreateBody r s = outAdmit (outAsked r) s := by
  unfold outCreateBody
  extract_lets v0 v ctl
  have hheld : (v.stitched && !holdsRoom (reqFn r) v.room s) = false := by
    cases hst : v.stitched with
    | false => rfl
    | true => rw [show holdsRoom (reqFn r) v.room s = true from hroom hst]; rfl
  rw [show outFine v = true from hfine, hheld, show ctl = (true, s) from partControl_granted hctl,
    show recordQueueRefusal r v.mode v.recQueue s = none from hq]
  rfl

end

theorem outAdmit_takes {v : Output} {o tile : Nat} {s : State} (hfits : fits v.part v.role v.load s = true)
    (ho : lowestFree .output 0 8192 s = some o) (hsrc : v.stitched = true → (lowestFree .source 0 131072 s).isSome = true)
    (htile : outTile v s = some tile) : outAdmit v s =
      (outAdd v o tile (if v.stitched then lowestFree .source 0 131072 s else none) s,
        some (okVia v.wing (packNat [(8, 32, liveOf v.part v.role s), (40, 13, o), (53, 9, tile)]) s)) := by
  have hnumber : (v.stitched && (lowestFree .source 0 131072 s).isNone) = false := by
    cases hst : v.stitched with
    | false => rfl
    | true => simpa using hsrc hst
  simp only [outAdmit, hfits, ho, hnumber, htile]
  rfl

theorem outAdd_creates {v : Output} (o tile : Nat) {s : State} (hsrc : v.stitched = true → (lowestFree .source 0 131072 s).isSome = true) :
    let t := outAdd v o tile (if v.stitched then lowestFree .source 0 131072 s else none) s
    OutCreated v o tile s t ∧ (v.stitched = true → ∃ i, lowestFree .source 0 131072 s = some i ∧
      (outputAt o t).source = handleFor .source i t ∧ (identOf .source i t).used = true ∧ (sourceAt i t).isLocal = true) := by
  cases hst : v.stitched with
  | false => exact ⟨outCreated_outTaken v o tile 0 s, fun h => absurd h Bool.false_ne_true⟩
  | true =>
    obtain ⟨i, hi⟩ := Option.isSome_iff_exists.mp (hsrc hst)
    rw [hi]
    exact ⟨outCreated_stitched v o tile i s, fun _ => ⟨i, rfl, outAdd_source v o tile i s⟩⟩

/-! ### The boundary of a frame -/

theorem exec_frameBoundary {o : Nat} (s : State) (h : o < 8192) : exec (.frameBoundary o) s = .next (frameBoundaryDo o s) :=
  onWf_of_wf (i := .frameBoundary o) (decide_eq_true h)

theorem settleNext_facts (o : Nat) (s : State) :
    (∃ n k, outputAt o (settleNext o s) = { outputAt o s with next := n, stepSeen := k }) ∧
      ∀ d, d ≠ o → outputAt d (settleNext o s) = outputAt d s := by
  simp only [settleNext]
  split
  · exact ⟨⟨_, _, rfl⟩, fun _ _ => rfl⟩
  · exact ⟨⟨_, _, outputAt_setOutput _ _ _⟩, fun _ hd => outputAt_setOutput_ne _ _ _ _ hd⟩

/-- Pending becomes active, and its commits are owed to the frame that begins (R211). -/
theorem applyPending_facts (v : Output) : ∃ w owed cells, applyPending v = { v with
    active := v.pending.getD v.active, pending := none, commits := if v.pending.isSome = true then [] else v.commits
    whole := w, owedCommits := owed, cells := cells } := by
  unfold applyPending
  split
  next h => exact ⟨v.whole, v.owedCommits, v.cells, by cases v; subst h; rfl⟩
  next t h => exact ⟨_, _, _, by rw [h]; rfl⟩

/-- The commits that a frame carries complete; of the outputs, only what it owes and counts changes (R211). -/
theorem completeCommits_facts (o n : Nat) (s : State) :
    (∃ cs, outputAt o (completeCommits o n s) = { outputAt o s with owedCommits := [], ctrs := cs }) ∧
      ∀ d, d ≠ o → outputAt d (completeCommits o n s) = outputAt d s := by
  unfold completeCommits
  extract_lets v s1 far
  have hkept (d : Nat) := outputAt_congr (o := d) (congrArg Video.outs (foldl_keeps State.video (f := fun s t =>
    complete t (if far then { okVia v.wing (n % 2 ^ 32 * 256) s with st := stDegraded } else okVia v.wing (n % 2 ^ 32 * 256) s) s)
    (fun s t => (by simp)) v.owedCommits s1))
  refine ⟨⟨_, (hkept o).trans (outputAt_setOutput _ _ _)⟩, fun d hd => (hkept d).trans (outputAt_setOutput_ne _ _ _ _ hd)⟩

/-- A frame as it begins: it bears COMMIT when it carries commits (R236). -/
def begunFrame (o : Nat) (f : FrameWork) (s : State) : FrameWork :=
  { f with handedNs := nowNs s, flags := if (outputAt o s).owedCommits.isEmpty then f.flags else f.flags + 16 }

theorem beginFrame_facts (o : Nat) (f : FrameWork) (s : State) :
    (∃ cs, outputAt o (beginFrame o f s) = { outputAt o s with work := some (begunFrame o f s), owedCommits := [], ctrs := cs }) ∧
      ∀ d, d ≠ o → outputAt d (beginFrame o f s) = outputAt d s := by
  obtain ⟨⟨cs, hc⟩, hd⟩ := completeCommits_facts o f.n (updOutput o (fun v => { v with work := some (begunFrame o f s) }) s)
  rw [outputAt_updOutput] at hc
  exact ⟨⟨cs, hc⟩, fun d hne => (hd d hne).trans (outputAt_updOutput_ne _ _ _ _ hne)⟩

theorem latchLayers_outs (o : Nat) (v : Output) (t : Tab LayerCfg) (s : State) : (latchLayers o v t s).2.video.outs = s.video.outs := by
  unfold latchLayers
  generalize t.toList.filter _ = l
  generalize ({} : Latch) = a
  induction l generalizing a s with
  | nil => rfl
  | cons c l ih =>
    rw [List.foldl_cons]
    split
    · exact ih _ _
    · exact ih _ _

theorem trimPool_outs (k : Nat) (s : State) : (trimPool k s).video.outs = s.video.outs :=
  foldl_keeps (fun s => s.video.outs) (f := fun t i => setBuf (bufKey k i) {} t) (fun _ _ => rfl) _ _

theorem endLingers_outs (o : Nat) (s : State) : (endLingers o s).video.outs = s.video.outs := by
  refine foldl_keeps (fun s => s.video.outs) (fun t c => ?_) _ s
  rw [trimPool_outs]
  rfl

/-- An output past the boundary of its frame `n` (R210, R211). -/
def pastBoundary (v : Output) (n : Nat) : Output := { applyPending v with next := n + 1 }

/-- `w` is output `v` past the boundary of its next frame: pending is active, and frames go on from the next (R210, R211). -/
structure PastBoundary (v w : Output) : Prop where
  next : w.next = v.next + 1
  pending : w.pending = none
  active : w.active = v.pending.getD v.active
  commits : w.commits = if v.pending.isSome = true then [] else v.commits

theorem pastBoundary_facts (v : Output) : PastBoundary v (pastBoundary v v.next) ∧ (pastBoundary v v.next).work = v.work := by
  obtain ⟨w, owed, cells, h⟩ := applyPending_facts v
  rw [pastBoundary, h]
  exact ⟨⟨rfl, rfl, rfl, rfl⟩, rfl⟩

/-- With no frame waiting, a boundary latches a frame, which waits for the one in work or begins (R214, R220). -/
theorem composedBoundary_idle {o : Nat} {s : State} (n : Nat) (hstaged : (outputAt o s).staged = none) :
    ∃ f u, f.n = n ∧ outputAt o u = pastBoundary (outputAt o s) n ∧ (∀ d, d ≠ o → outputAt d u = outputAt d s) ∧
      composedBoundary o n s = if (outputAt o u).work.isSome = true
        then updOutput o (fun v => { v with staged := some f }) u else beginFrame o f u := by
  unfold composedBoundary
  extract_lets inWork s1 s2 v r at_ f s3
  have h1 : s1 = s := by simp only [s1, hstaged]
  have hpassed (d : Nat) : outputAt d s3 = outputAt d (updOutput o (fun v => { v with next := n + 1 }) r.2) := outputAt_congr (endLingers_outs _ _) d
  have hlatched (d : Nat) : outputAt d r.2 = outputAt d s2 := outputAt_congr (latchLayers_outs _ _ _ _) d
  have hout : outputAt o s3 = pastBoundary (outputAt o s) n := by
    rw [hpassed, outputAt_updOutput, hlatched, outputAt_updOutput, h1]
    rfl
  have hothers (d : Nat) (hd : d ≠ o) : outputAt d s3 = outputAt d s := by
    rw [hpassed, outputAt_updOutput_ne _ _ _ _ hd, hlatched, outputAt_updOutput_ne _ _ _ _ hd, h1]
  have hwork : (outputAt o s3).work = v.work := by
    rw [hout, show v = applyPending (outputAt o s) by rw [← h1]; exact outputAt_updOutput _ _ _]
    rfl
  exact ⟨f, s3, rfl, hout, hothers, by rw [hwork]⟩

theorem composedBoundary_facts {o : Nat} {s : State} (hstaged : (outputAt o s).staged = none) :
    let v := outputAt o s
    let t := composedBoundary o v.next s
    PastBoundary v (outputAt o t) ∧ (∀ d, d ≠ o → outputAt d t = outputAt d s) ∧
      (v.work = none → (outputAt o t).work.map (·.n) = some v.next ∧ (outputAt o t).owedCommits = []) ∧
      (v.work.isSome = true → (outputAt o t).work = v.work ∧ (outputAt o t).staged.map (·.n) = some v.next) := by
  extract_lets v t
  obtain ⟨f, u, hn, hu, hothers, ht⟩ := composedBoundary_idle v.next hstaged
  obtain ⟨⟨hnext, hpending, hactive, hcommits⟩, hwork⟩ := pastBoundary_facts v
  cases hw : v.work with
  | none =>
    have ht : t = beginFrame o f u := ht.trans (if_neg (by rw [hu, hwork, hw]; exact Bool.false_ne_true))
    obtain ⟨⟨cs, hbegun⟩, hd⟩ := beginFrame_facts o f u
    rw [hu] at hbegun
    rw [ht, hbegun]
    exact ⟨⟨hnext, hpending, hactive, hcommits⟩, fun d hne => (hd d hne).trans (hothers d hne), fun _ => ⟨congrArg some hn, rfl⟩,
      fun h => absurd h Bool.false_ne_true⟩
  | some g =>
    have ht : t = updOutput o (fun v => { v with staged := some f }) u := ht.trans (if_pos (by rw [hu, hwork, hw]; rfl))
    rw [ht, outputAt_updOutput, hu]
    exact ⟨⟨hnext, hpending, hactive, hcommits⟩, fun d hne => (outputAt_updOutput_ne _ _ _ _ hne).trans (hothers d hne),
      nofun, fun _ => ⟨hwork.trans hw, congrArg some hn⟩⟩

/-- The cells are filled in the output alone (R230). -/
theorem fillCells_facts (o : Nat) (f : Cell → CellContent × Cell) (cs : List Nat) (s : State) :
    (∃ k, outputAt o (fillCells o f cs s).2 = { outputAt o s with cells := k }) ∧
      ∀ d, d ≠ o → outputAt d (fillCells o f cs s).2 = outputAt d s := by
  induction cs generalizing s with
  | nil => exact ⟨⟨_, rfl⟩, fun _ _ => rfl⟩
  | cons c cs ih =>
    rw [fillCells]
    split
    · exact ih s
    · obtain ⟨⟨k, hk⟩, hd⟩ := ih (setCell o c (f (cellAt o c s)).2 s)
      exact ⟨⟨k, hk.trans (by rw [setCell, outputAt_updOutput])⟩, fun d hne => (hd d hne).trans (outputAt_updOutput_ne _ _ _ _ hne)⟩

theorem stitchedBoundary_facts (o : Nat) (s : State) :
    let v := outputAt o s
    let t := stitchedBoundary o v.next s
    PastBoundary v (outputAt o t) ∧ (∀ d, d ≠ o → outputAt d t = outputAt d s) ∧
      (outputAt o t).emit.map (·.1) = some v.next ∧ (outputAt o t).owedCommits = [] := by
  unfold stitchedBoundary
  extract_lets v s1 v1 commit switch r t
  obtain ⟨⟨-, hpending, hactive, hcommits⟩, -⟩ := pastBoundary_facts v
  obtain ⟨⟨k, hfilled⟩, hrest⟩ := fillCells_facts o (if switch then switchContent else cellContent v1.window.isSome)
    (List.range v1.cellCount) s1
  obtain ⟨⟨cs, hdone⟩, hd⟩ := completeCommits_facts o v.next (updOutput o (fun w =>
    { w with next := v.next + 1, emit := some (v.next, r.1, switch, commit), window := if switch then none else w.window }) r.2)
  rw [outputAt_updOutput, hfilled, outputAt_updOutput] at hdone
  rw [hdone]
  exact ⟨⟨rfl, hpending, hactive, hcommits⟩, fun d hne => (hd d hne).trans ((outputAt_updOutput_ne _ _ _ _ hne).trans
    ((hrest d hne).trans (outputAt_updOutput_ne _ _ _ _ hne))), rfl, rfl⟩

theorem emitFrame_idle {o : Nat} {s : State} (h : (outputAt o s).emit = none) : emitFrame o s = s := by
  simp only [emitFrame, h]

section
variable {o : Nat} {s : State} (hused : (identOf .output o s).used = true) (hhold : s.body.hold = false)
  (hrel : (outputAt o s).releasing = none)
include hused hhold hrel

theorem frameBoundaryDo_due (hdue : cmpReached (cmpNow s) (boundaryOf (outputAt o (settleNext o s)) (outputAt o (settleNext o s)).next) = true) :
    frameBoundaryDo o s = if (outputAt o (settleNext o s)).stitched = true
      then stitchedBoundary o (outputAt o (settleNext o s)).next (emitFrame o (settleNext o s))
      else composedBoundary o (outputAt o (settleNext o s)).next (settleNext o s) := by
  obtain ⟨⟨n, k, hset⟩, -⟩ := settleNext_facts o s
  have hrel : (outputAt o (settleNext o s)).releasing = none := by rw [hset]; exact hrel
  simp only [frameBoundaryDo, hused, hhold, hrel, hdue]
  rfl

/-- FRAME_BOUNDARY of an output with no frame waiting and none to emit (R210, R211, R220, R230). -/
theorem frameBoundaryDo_facts (hstaged : (outputAt o s).staged = none) (hemit : (outputAt o s).emit = none)
    (hdue : cmpReached (cmpNow s) (boundaryOf (outputAt o (settleNext o s)) (outputAt o (settleNext o s)).next) = true) :
    let v := outputAt o (settleNext o s)
    let t := frameBoundaryDo o s
    PastBoundary v (outputAt o t) ∧
      (v.stitched = true → ((outputAt o t).emit.map (·.1)) = some v.next ∧ (outputAt o t).owedCommits = []) ∧
      (v.stitched = false → v.work = none → (outputAt o t).work.map (·.n) = some v.next ∧ (outputAt o t).owedCommits = []) ∧
      (v.stitched = false → v.work.isSome = true → (outputAt o t).work = v.work ∧ (outputAt o t).staged.map (·.n) = some v.next) ∧
      (∀ d, d ≠ o → outputAt d t = outputAt d s) := by
  obtain ⟨⟨n, k, hset⟩, hothers⟩ := settleNext_facts o s
  extract_lets v t
  have ht : t = _ := frameBoundaryDo_due hused hhold hrel hdue
  cases hst : v.stitched with
  | true =>
    have ht : t = stitchedBoundary o v.next (settleNext o s) := by
      rw [ht, if_pos hst, emitFrame_idle (by rw [hset]; exact hemit)]
    obtain ⟨hpast, hd, hframe⟩ := stitchedBoundary_facts o (settleNext o s)
    rw [ht]
    exact ⟨hpast, fun _ => hframe, nofun, nofun, fun d hne => (hd d hne).trans (hothers d hne)⟩
  | false =>
    have ht : t = composedBoundary o v.next (settleNext o s) := ht.trans (if_neg (by rw [hst]; exact Bool.false_ne_true))
    obtain ⟨hpast, hd, hbegins, hwaits⟩ := composedBoundary_facts (o := o) (s := settleNext o s) (by rw [hset]; exact hstaged)
    rw [ht]
    exact ⟨hpast, nofun, fun _ => hbegins, fun _ => hwaits, fun d hne => (hd d hne).trans (hothers d hne)⟩

end

/-! ### Bands, waits and releases -/

theorem exec_pxBandHandoff {o : Nat} (s : State) (h : o < 8192) : exec (.pxBandHandoff o) s = .next (bandHandoffDo o s) :=
  onWf_of_wf (i := .pxBandHandoff o) (decide_eq_true h)

theorem exec_inputWaitExpire {o l : Nat} (s : State) (h : o < 8192) (hl : l < 65) : exec (.inputWaitExpire o l) s = .next (waitExpireDo o l s) :=
  onWf_of_wf (i := .inputWaitExpire o l) (Bool.and_eq_true_iff.mpr ⟨decide_eq_true h, decide_eq_true hl⟩)

theorem encRecord_res (c : Nat) (p : EncRecord) (s : State) : (encRecord c p s).res = s.res := by
  simp only [encRecord, encCount, apply_ite State.res, devicePush_frame, updEnc_frame, ite_self]

theorem startEnc_res (c frame : Nat) (s : State) : (startEnc c frame s).res = s.res := by
  unfold startEnc
  extract_lets v o i key t ls flags s1 ref ls w s2 s3 s4
  have h2 : s2.res = s1.res := foldl_keeps State.res (fun t l => by simp) _ s1
  have h3 : s3.res = s2.res := by simp [s3, encCount, apply_ite State.res]
  have h4 : s4.res = s3.res := foldl_keeps State.res (fun t k => by simp) _ s3
  exact h4.trans (h3.trans h2)

theorem nextEnc_res (c : Nat) (s : State) : (nextEnc c s).res = s.res := by
  unfold nextEnc
  extract_lets v
  split
  · split
    · exact startEnc_res _ _ _
    · rfl
  · rfl

/-- A band that arrives at an encode context takes no time of the module's. -/
theorem veArrive_res (c : Nat) (b : PxBand) (s : State) : (veArrive c b s).res = s.res := by
  unfold veArrive
  extract_lets v inWork old s1
  have h1 : s1.res = s.res := by
    clear_value old
    cases old with
    | some x => exact encRecord_res _ _ _
    | none => rfl
  split
  · rfl
  · split
    · rfl
    · split
      · rfl
      · exact (nextEnc_res _ _).trans h1

/-- How long an output waits for its inputs, in ns (R219). -/
def waitNs (v : Output) : Nat := if v.wait = 0 then v.periodNs / 2 else v.wait * 1000

/-- The bands of a frame, from the one in work on, that lack their input from a layer (R219). -/
def bandsLacking (v : Output) (f : FrameWork) (l : Nat) (s : State) : List Nat :=
  (List.range (bandsOf v.height)).filter (fun b => decide (f.band ≤ b) && (unready v f b s).contains l)

section
variable {o : Nat} {f : FrameWork} {s : State} (hused : (identOf .output o s).used = true) (hhold : s.body.hold = false)
  (hwork : (outputAt o s).work = some f)
include hused hwork

include hhold in
/-- A band that is not the last leaves the frame in work at the next one (R218, R222). -/
theorem bandHandoffDo_next (hready : unready (outputAt o s) f f.band s = []) (hmore : f.band + 1 < bandsOf (outputAt o s).height) :
    ∃ g, g.band = f.band + 1 ∧ g.handedNs = nowNs s ∧ (outputAt o (bandHandoffDo o s)).work = some g := by
  unfold bandHandoffDo
  extract_lets v s1
  have hgo : ¬(!(identOf .output o s).used || s.body.hold || !(unready v f f.band s).isEmpty) = true := by
    rw [hused, hhold, show unready v f f.band s = [] from hready]
    exact Bool.false_ne_true
  rw [show v.work = some f from hwork]
  dsimp -zeta only
  rw [if_neg hgo]
  extract_lets draws f1 late band s2 s3 s4 f2
  have h3 : s3.res = s.res := by simp [s3, s2, s1, apply_ite State.res]
  have h4 : s4.res = s.res := (foldl_keeps State.res (fun t c => veArrive_res c band t) _ s3).trans h3
  rw [if_neg (Nat.not_le.mpr hmore), outputAt_updOutput]
  exact ⟨f2, rfl, by simp only [f2, nowNs, h4], rfl⟩

/-- At the end of the wait the layer is left out of the bands that lack it (R219). -/
theorem waitExpireDo_leaves {l : Nat} (hdue : cmpReached (cmpNow s) (cmpAdd f.boundary (waitNs (outputAt o s))) = true)
    (hlack : bandsLacking (outputAt o s) f l s ≠ []) :
    waitExpireDo o l s = count (tileCtr (outputAt o s).tile 2) (bandsLacking (outputAt o s) f l s).length (setOutput o { outputAt o s with
      work := some { f with left := f.left ++ (bandsLacking (outputAt o s) f l s).map (fun b => (l, b)), flags := f.flags ||| 1 } } s) := by
  simp only [waitNs, bandsLacking] at hdue hlack
  simp only [waitExpireDo, hwork, hused, hdue, List.isEmpty_iff, hlack]
  rfl

end

/-! ### Composite frames -/

theorem exec_stFrameEmit {o : Nat} (s : State) (h : o < 8192) : exec (.stFrameEmit o) s = .next (frameEmitDo o s) :=
  onWf_of_wf (i := .stFrameEmit o) (decide_eq_true h)

theorem exec_stitchKfWindowEnd {o : Nat} (s : State) (h : o < 8192) : exec (.stitchKfWindowEnd o) s = .next (windowEndDo o s) :=
  onWf_of_wf (i := .stitchKfWindowEnd o) (decide_eq_true h)

theorem exec_cellGrey {o c : Nat} (s : State) (h : o < 8192) (hc : c < 64) : exec (.cellGrey o c) s = .next (cellGreyDo o c s) :=
  onWf_of_wf (i := .cellGrey o c) (Bool.and_eq_true_iff.mpr ⟨decide_eq_true h, decide_eq_true hc⟩)

theorem emitFrame_emits {o : Nat} {s : State} (h : (outputAt o s).emit.isSome = true) :
    (outputAt o (emitFrame o s)).emit = none ∧ (outputAt o (emitFrame o s)).refused = [] := by
  obtain ⟨⟨n, cells, switch, commit⟩, he⟩ := Option.isSome_iff_exists.mp h
  simp only [emitFrame, he, outputAt_updOutput, and_self]

theorem frameEmitDo_emits {o : Nat} {s : State} (hused : (identOf .output o s).used = true) (hhold : s.body.hold = false)
    (hemit : (outputAt o s).emit.isSome = true) (hrel : (outputAt o s).releasing = none) : frameEmitDo o s = emitFrame o s := by
  simp [frameEmitDo, hused, hhold, hemit, hrel, ← Option.not_isSome]

theorem windowEndDo_ends {o at_ : Nat} {s : State} (hused : (identOf .output o s).used = true) (hhold : s.body.hold = false)
    (hrel : (outputAt o s).releasing = none) (hw : (outputAt o s).window = some at_) (hnow : at_ ≤ nowNs s) :
    let u := settleNext o (emitFrame o s)
    let r := fillCells o switchContent (List.range (outputAt o s).cellCount) u
    windowEndDo o s = emitFrame o (setOutput o { outputAt o r.2 with
      next := (outputAt o u).next + 1, emit := some ((outputAt o u).next, r.1, true, false), window := none } r.2) := by
  simp only [windowEndDo, hw, hused, hhold, hrel, Nat.not_lt.mpr hnow]
  rfl

theorem cellGreyDo_broken {o c : Nat} {s : State} (hused : (identOf .output o s).used = true) (hst : (outputAt o s).stitched = true)
    (hb : (cellAt o c s).broken = true) (hg : (cellAt o c s).greyDone = false) : cellGreyDo o c s =
      if (cellAt o c s).brokenAt + 3 * (roomAt (outputAt o s).room s).kfHoldMs * 1000000 ≤ nowNs s
        then setCell o c { cellAt o c s with greyDue := true } s else s := by
  simp only [cellGreyDo, hused, hst, hb, hg, Bool.not_false, Bool.and_self, Bool.true_and, decide_eq_true_eq]

/-! ### The end of an output -/

theorem finishOutRelease_ends (o : Nat) (s : State) :
    (identOf .output o (finishOutRelease o s)).used = false ∧ outputAt o (finishOutRelease o s) = {} := by
  unfold finishOutRelease
  extract_lets v s1 s2 s3 s4 s5
  have hused : (identOf .output o s5).used = false := by rw [identOf_releaseId]
  have hout : outputAt o s5 = {} := (outputAt_congr rfl o).trans (outputAt_setOutput o {} s4)
  split
  · exact ⟨(congrArg Ident.used (identOf_congr (by simp) _ _)).trans hused, (outputAt_congr (by simp) o).trans hout⟩
  · exact ⟨hused, hout⟩

/-- Settles O44: the commands by the equations of their bodies in the case named, the events by what each makes of its output. -/
theorem outputsComposeAndStitch : Obligations.OutputsComposeAndStitch := by
  refine ⟨completesSo_of exec_vidOutCreate ?create, completes_of exec_vidOutLayer ?layer, completes_of exec_vidOutLayer ?layerCocoon,
    completes_of exec_vidOutMatrix ?matrix, completes_of exec_vidOutMatrix ?matrixCocoon, begins_of exec_vidOutCommit ?commit,
    completes_of exec_vidOutCommit ?commitCocoon, completes_of exec_vidOutCommit ?commitDeep, completes_of exec_vidOutCommit ?commitAlt,
    completes_of exec_vidOutRead ?read, begins_of exec_vidOutRelease ?release, finishOutRelease_ends, ?boundary, ?band, ?wait, ?emit,
    ?window, ?grey⟩
  case create =>
    rintro r s ⟨hz, hfine, hst, hctl, hq, hfits, ho, htile⟩
    obtain ⟨o, ho⟩ := Option.isSome_iff_exists.mp ho
    obtain ⟨tile, htile⟩ := Option.isSome_iff_exists.mp htile
    obtain ⟨⟨hused, ⟨h, hout⟩, hothers, hlinks⟩, hsource⟩ := outAdd_creates o tile (fun h => (hst h).2)
    refine ⟨_, _, (strictly_clear hz).trans ((outCreate_admits hfine (fun h => (hst h).1) hctl hq).trans
      (outAdmit_takes hfits ho (fun h => (hst h).2) htile)), o, tile, ho, htile, (okVia_congr hlinks _ _).symm, hused, ?_⟩
    rw [hout]
    exact ⟨rfl, rfl, rfl, rfl, rfl, rfl, rfl, rfl, rfl, by simpa only [hout] using hsource, hothers⟩
  case layer =>
    rintro r s ⟨hn, hz, hown, hfine⟩
    exact (strictly_clear hz).trans ((outLayer_writes hn hown hfine).trans (viaWing_ok _ _))
  case layerCocoon =>
    rintro r s ⟨ho, hc⟩
    exact strictly_refused (outLayer_cocoon ho hc) rfl
  case matrix =>
    rintro r s ⟨hn, hz, hst, hl⟩
    exact (strictly_clear hz).trans ((outMatrix_writes hn hst hl).trans (viaWing_ok _ _))
  case matrixCocoon =>
    rintro r s ⟨ho, hl⟩
    exact strictly_refused (outMatrix_cocoon ho hl) rfl
  case commit =>
    rintro r s ⟨hn, hz, ho, hfine⟩
    exact (strictly_clear hz).trans (outCommit_begins hn ho hfine)
  case commitCocoon =>
    rintro r s ⟨ho, hb⟩
    exact strictly_refused (outCommit_cocoon ho hb) rfl
  case commitDeep =>
    rintro r s ⟨hn, hb, hst, hd⟩
    exact strictly_refused (outCommit_deep hn hb hst hd) rfl
  case commitAlt =>
    rintro r s ⟨hn, hb, hst, ha⟩
    exact strictly_refused (outCommit_altMissing hn hb hst ha) rfl
  case read =>
    rintro r s ⟨hn, hz⟩
    exact (strictly_clear hz).trans ((outRead_named hn).trans (viaWing_ok _ _))
  case release =>
    rintro r s ⟨hn, hz, hr, hs⟩
    exact (strictly_clear hz).trans (outRelease_named hn hr hs)
  case boundary =>
    intro o s ho hused hhold hrel hstaged hemit v hdue
    obtain ⟨⟨hnext, hpending, hactive, hcommits⟩, hframe⟩ := frameBoundaryDo_facts hused hhold hrel hstaged hemit hdue
    exact ⟨_, exec_frameBoundary s ho, hnext, hpending, hactive, hcommits, hframe⟩
  case band =>
    intro o f s ho hused hhold hwork hready hmore
    obtain ⟨g, hband, hhanded, hg⟩ := bandHandoffDo_next hused hhold hwork hready hmore
    refine ⟨_, exec_pxBandHandoff s ho, ?_⟩
    rw [hg]
    exact ⟨congrArg some hband, congrArg some hhanded⟩
  case wait =>
    intro o l f s ho hl hused hwork hdue bs hlack
    exact (exec_inputWaitExpire s ho hl).trans (congrArg Host.Outcome.next (waitExpireDo_leaves hused hwork hdue hlack))
  case emit =>
    intro o s ho hused hhold hemit hrel
    refine ⟨_, exec_stFrameEmit s ho, ?_⟩
    rw [frameEmitDo_emits hused hhold hemit hrel]
    exact emitFrame_emits hemit
  case window =>
    intro o at_ s ho hused hhold hrel hw hnow
    exact (exec_stitchKfWindowEnd s ho).trans (congrArg Host.Outcome.next (windowEndDo_ends hused hhold hrel hw hnow))
  case grey =>
    intro o c s ho hc hused hst hb hg
    exact (exec_cellGrey s ho hc).trans (congrArg Host.Outcome.next (cellGreyDo_broken hused hst hb hg))

end Sys2Proof
end

section
/-! PROOFS. The statement of video encode: what the commands and events of encode contexts make of them (R238-R259). -/

namespace Sys2Proof

open Machine

/-! ## O45: encode contexts -/

theorem encAt_congr {s t : State} (h : t.video.encs = s.video.encs) (c : Nat) : encAt c t = encAt c s := by simp only [encAt, h]

/-! ### Commands that name a context -/

theorem exec_vidEncRate (src : CmdSrc) (s : State) (h : src.wf = true) : exec (.vidEncRate src) s =
    .next (command 0x7C (strictly ([(11, 0)], [(127, 0)], []) encRateBody) src s) := onWf_of_wf (i := .vidEncRate src) h

theorem exec_vidEncKeyframe (src : CmdSrc) (s : State) (h : src.wf = true) : exec (.vidEncKeyframe src) s =
    .next (command 0x7D (strictly ([(11, 0)], [], []) encKeyBody) src s) := onWf_of_wf (i := .vidEncKeyframe src) h

theorem exec_vidEncRead (src : CmdSrc) (s : State) (h : src.wf = true) : exec (.vidEncRead src) s =
    .next (command 0x7E (strictly ([(11, 0)], [(63, 0)], [(0, 0)]) encReadBody) src s) := onWf_of_wf (i := .vidEncRead src) h

theorem exec_vidEncRelease (src : CmdSrc) (s : State) (h : src.wf = true) : exec (.vidEncRelease src) s =
    .next (command 0x7F (strictly ([(11, 0)], [], []) encReleaseBody) src s) := onWf_of_wf (i := .vidEncRelease src) h

/-- The encode context that word 1 names (R259). -/
abbrev namedEnc (r : Req) (s : State) : EncCtx := encAt (fld r.w1 11 0) s

theorem withEnc_named {r : Req} {s : State} (h : encNamed r s) (f : Nat → Answer) :
    withEnc (fld r.w1 11 0) r s f = viaWing ((namedEnc r s).tile / 128) (f (fld r.w1 11 0)) := by
  obtain ⟨hused, hown⟩ := h
  simp only [withEnc, hused, Bool.true_and]
  exact if_pos (by simpa using hown)

section
variable {r : Req} {s : State} (hn : encNamed r s)
include hn

/-- The command is not answered yet: the next picture to start completes it (R252). -/
theorem encRate_fine (hfine : rateFine (namedEnc r s).codec (namedEnc r s).spatial r.w2 = true) :
    encRateBody r s = (updEnc (fld r.w1 11 0) (fun v =>
      if v.work.isSome then { v with nextRate := some r.w2, rateWait := v.rateWait ++ [r.tk] }
      else { v with rate := r.w2, debts := [0, 0, 0], rateWait := v.rateWait ++ [r.tk] }) s, none) := by
  rw [encRateBody, withEnc_named hn, if_pos hfine]
  rfl

theorem encRate_outOfRange (hfine : rateFine (namedEnc r s).codec (namedEnc r s).spatial r.w2 = false) :
    encRateBody r s = (s, some (refuse stNotStarted 0x01)) := by
  rw [encRateBody, withEnc_named hn, if_neg (by rw [hfine]; exact Bool.false_ne_true)]
  exact viaWing_refused _ _ (by decide)

/-- A context that nothing reads and no frame waits for ends, at once or with its picture in work (R259). -/
theorem encRelease_idle (hr : (namedEnc r s).releasing = none) (hq : (namedEnc r s).queue = [])
    (hread : (sourceAt (handleIdx (namedEnc r s).source) s).readers = 0) (hst : stitchReads (namedEnc r s).source s = false) :
    encReleaseBody r s =
      let t := setEnc (fld r.w1 11 0) { namedEnc r s with queue := [], releasing := some r.tk } s
      (if (namedEnc r s).work.isSome then t else finishEncRelease (fld r.w1 11 0) t, none) := by
  have hunread : (decide (0 < (sourceAt (handleIdx (namedEnc r s).source) s).readers) || stitchReads (namedEnc r s).source s) = false := by
    rw [hread, hst]
    rfl
  simp only [encReleaseBody, withEnc_named hn, hr, hq, hunread, Option.isSome_none, Bool.false_eq_true, if_false]
  split <;> rfl

end

/-! ### Creation -/

theorem exec_vidEncCreate (src : CmdSrc) (s : State) (h : src.wf = true) : exec (.vidEncCreate src) s =
    .next (command 0x7B (strictly ([(12, 0), (21, 16), (57, 24)], [(127, 0)], [(116, 0)]) encCreateBody) src s) :=
  onWf_of_wf (i := .vidEncCreate src) h

/-- The format stands in bits 79:77 of word 3, which no other field of a local source meets (R97). -/
theorem localSource_format (fn wing room pt dd : Nat) {format : Nat} (h : format < 8) :
    (localSource fn wing room format pt dd).format = format := by
  have hbits (i : Nat) : Nat.testBit (localSource fn wing room format pt dd).format i = (decide (i < 3) && Nat.testBit format i) := by
    simp only [Source.format, localSource, fld, pack128, packNat, BitVec.toNat_ofNat, Nat.testBit_mod_two_pow, Nat.testBit_shiftRight,
      Nat.testBit_shiftLeft, Nat.testBit_or]
    by_cases hi : i < 3
    · have hdd : ¬77 + i ≥ 98 := by omega
      have hpt : ¬77 + i ≥ 80 := by omega
      have hroom : ¬77 + i - 64 < 13 := by omega
      have hword : 77 + i < 128 := by omega
      simp [hi, hdd, hpt, hroom, hword]
    · simp [hi]
  exact Nat.eq_of_testBit_eq fun i => by rw [hbits, ← Nat.testBit_mod_two_pow, Nat.mod_eq_of_lt h]

theorem encFormat_lt (codec : Nat) : encFormat codec < 8 := by
  unfold encFormat
  split_ifs <;> decide

/-- The local source of an encode context (R239). -/
def encoderSource (v : EncCtx) (o : Output) : Source :=
  localSource v.fn o.wing v.room (encFormat v.codec) v.pt (if v.codec = 2 then v.ddId else 0)

theorem encoderSource_format (v : EncCtx) (o : Output) : (encoderSource v o).format = encFormat v.codec :=
  localSource_format _ _ _ _ _ (encFormat_lt v.codec)

/-- Buffers of a pool are marked for the encoder (R238). -/
def markEncoder (k : Nat) (g : Pool) (bs : List Nat) (s : State) : State :=
  bs.foldl (fun s b => setBuf (bufKey k b) { encoder := true, bufW := g.bufW, bufH := g.bufH, deep := g.deep } s) s

theorem markEncoder_keeps (k : Nat) (g : Pool) (bs : List Nat) (s : State) : (markEncoder k g bs s).ids = s.ids ∧
    (markEncoder k g bs s).media = s.media ∧ (markEncoder k g bs s).video.encs = s.video.encs ∧ (markEncoder k g bs s).links = s.links ∧
    (markEncoder k g bs s).hq = s.hq ∧ (markEncoder k g bs s).dram = s.dram ∧ (markEncoder k g bs s).hostMem = s.hostMem := by
  induction bs generalizing s with
  | nil => exact ⟨rfl, rfl, rfl, rfl, rfl, rfl, rfl⟩
  | cons b bs ih => exact ih _

theorem markEncoder_stays {k x : Nat} {g : Pool} {s : State} (bs : List Nat) (h : (bufAt x s).encoder = true) :
    (bufAt x (markEncoder k g bs s)).encoder = true := by
  induction bs generalizing s with
  | nil => exact h
  | cons b bs ih =>
    refine ih ?_
    by_cases hx : x = bufKey k b
    · rw [hx, bufAt_setBuf]
    · rw [bufAt_setBuf_ne _ _ _ _ hx, h]

theorem markEncoder_marks {k : Nat} {g : Pool} {bs : List Nat} (s : State) :
    ∀ b ∈ bs, (bufAt (bufKey k b) (markEncoder k g bs s)).encoder = true := by
  induction bs generalizing s with
  | nil => exact fun _ hb => nomatch hb
  | cons b bs ih =>
    intro x hx
    rcases List.mem_cons.mp hx with rfl | hx
    · exact markEncoder_stays bs (congrArg FrameBuf.encoder (bufAt_setBuf _ _ _))
    · exact ih _ x hx

/-- The 3 buffers per layer that a new context takes (R238). -/
def encBufs (v : EncCtx) (o : Output) (s : State) : List Nat := (freeBufs (poolKey o.wing v.fn) s).take (3 * v.spatial)

/-- Context `v` on a tile, with its local source and its buffers, from now on (R238). -/
def placedEnc (v : EncCtx) (o : Output) (tile source : Nat) (s : State) : EncCtx :=
  { v with tile := tile, load := encLoad v o, source := source, pool := poolKey o.wing v.fn, bufs := encBufs v o s, lastKey := nowNs s }

/-- The state in which context `w` has taken number `c` (R238). -/
def encTaken (w : EncCtx) (c : Nat) (s : State) : State := addWork w.tile (addLoad w.part 1 w.load (setEnc c w (allocId .encCtx c s)))

theorem encTaken_facts (w : EncCtx) (c : Nat) (s : State) :
    encAt c (encTaken w c s) = w ∧ (∀ d, d ≠ c → encAt d (encTaken w c s) = encAt d s) ∧ (encTaken w c s).ids = (allocId .encCtx c s).ids ∧
      (encTaken w c s).media = s.media ∧ (encTaken w c s).video.bufs = s.video.bufs ∧ (encTaken w c s).links = s.links ∧
      (encTaken w c s).hq = s.hq ∧ (encTaken w c s).dram = s.dram ∧ (encTaken w c s).hostMem = s.hostMem :=
  ⟨encAt_setEnc c w (allocId .encCtx c s), fun d hd => encAt_setEnc_ne c d w (allocId .encCtx c s) hd, rfl, rfl, rfl, rfl, rfl, rfl, rfl⟩

/-- The local source `i` and the buffers of a context are taken (R238, R239). -/
def encSupplied (v : EncCtx) (o : Output) (i : Nat) (s : State) : State :=
  markEncoder (poolKey o.wing v.fn) (poolAt (poolKey o.wing v.fn) s) (encBufs v o s) (localAdded i (encoderSource v o) s)

/-- The state in which context `v` has taken number `c`, with all that it needs (R238). -/
def encAdded (v : EncCtx) (o : Output) (c i tile : Nat) (s : State) : State :=
  encTaken (placedEnc v o tile (handleFor .source i (localAdded i (encoderSource v o) s)) s) c (encSupplied v o i s)

theorem handleFor_localAdded (i : Nat) (v : Source) (s : State) : handleFor .source i (localAdded i v s) = handleFor .source i s := by
  rw [handleFor, identOf_congr (s := allocId .source i s) (by simp [localAdded]), identOf_allocId]
  rfl

theorem sourceAt_localAdded (i : Nat) (v : Source) (s : State) : sourceAt i (localAdded i v s) = fillBuckets v (cmpNow s) :=
  sourceAt_setSource i (fillBuckets v (cmpNow s)) (allocId .source i s)

theorem encSupplied_facts (v : EncCtx) (o : Output) (i : Nat) (s : State) :
    (identOf .source i (encSupplied v o i s)).used = true ∧
      sourceAt i (encSupplied v o i s) = fillBuckets (encoderSource v o) (cmpNow s) ∧
      (∀ b ∈ encBufs v o s, (bufAt (bufKey (poolKey o.wing v.fn) b) (encSupplied v o i s)).encoder = true) ∧
      (∀ d, encAt d (encSupplied v o i s) = encAt d s) ∧ (encSupplied v o i s).links = s.links ∧
      (encSupplied v o i s).hq = s.hq ∧ (encSupplied v o i s).dram = s.dram ∧ (encSupplied v o i s).hostMem = s.hostMem := by
  rw [encSupplied]
  obtain ⟨hids, hmedia, hencs, hlinks, hhq, hdram, hhost⟩ := markEncoder_keeps (poolKey o.wing v.fn) (poolAt (poolKey o.wing v.fn) s)
    (encBufs v o s) (localAdded i (encoderSource v o) s)
  obtain ⟨hused, -⟩ := localAdded_facts (v := encoderSource v o) rfl i s
  refine ⟨?_, ?_, markEncoder_marks _, fun d => encAt_congr hencs d, hlinks, hhq, hdram, hhost⟩
  · rw [identOf_congr hids, hused]
  · simp only [sourceAt, hmedia]
    exact sourceAt_localAdded i (encoderSource v o) s

/-- What VID_ENC_CREATE makes of the state (R238, R239). -/
structure EncCreated (v : EncCtx) (o : Output) (c i tile : Nat) (s t : State) : Prop where
  used : (identOf .encCtx c t).used = true
  ctx : encAt c t = placedEnc v o tile (handleFor .source i s) s
  sourceUsed : (identOf .source i t).used = true
  source : sourceAt i t = fillBuckets (encoderSource v o) (cmpNow s)
  marked : ∀ b ∈ encBufs v o s, (bufAt (bufKey (poolKey o.wing v.fn) b) t).encoder = true
  others : ∀ d, d ≠ c → encAt d t = encAt d s
  links : t.links = s.links
  frame : t.hq = s.hq ∧ t.dram = s.dram ∧ t.hostMem = s.hostMem

theorem encAdded_creates (v : EncCtx) (o : Output) (c i tile : Nat) (s : State) : EncCreated v o c i tile s (encAdded v o c i tile s) := by
  obtain ⟨hused, hsource, hmarked, hencs, hlinks, hhq, hdram, hhost⟩ := encSupplied_facts v o i s
  rw [encAdded, handleFor_localAdded]
  generalize encSupplied v o i s = u at *
  obtain ⟨hctx, hothers, hids, hmedia, hbufs, hl, hq, hd, hh⟩ := encTaken_facts (placedEnc v o tile (handleFor .source i s) s) c u
  refine ⟨?_, hctx, ?_, ?_, fun b hb => ?_, fun d hd => (hothers d hd).trans (hencs d), hl.trans hlinks,
    hq.trans hhq, hd.trans hdram, hh.trans hhost⟩
  · rw [identOf_congr hids, identOf_allocId]
  · rw [identOf_congr hids]
    exact (identOf_allocId_keeps .source .encCtx c i u).2 hused
  · simpa only [sourceAt, hmedia] using hsource
  · rw [bufAt_congr hbufs, hmarked b hb]

section
variable {v : EncCtx} {o : Output} {s : State}

/-- The checks of R238 that follow those of fields, owners and queue. -/
structure EncAdmitted (v : EncCtx) (o : Output) (s : State) : Prop where
  composed : o.stitched = false
  depth : v.codec ≠ 0 ∨ v.deep = false
  routed : encRouted v.part o.tile s = true
  bufs : 3 * v.spatial ≤ (freeBufs (poolKey o.wing v.fn) s).length
  geometry : poolHolds (poolAt (poolKey o.wing v.fn) s) (encW v o (v.spatial - 1)) (encH v o (v.spatial - 1)) v.deep = true
  load : fits v.part 1 (encLoad v o) s = true
  room : ((encList s).filter (fun c => c.2.part == v.part)).length < ((partOf? v.part s).map (·.encCtx)).getD 0

theorem encAdmit_takes {c i tile : Nat} (h : EncAdmitted v o s) (hc : lowestFree .encCtx 0 (declaredEnc s) s = some c)
    (hi : lowestFree .source 0 131072 s = some i) (htile : encTile v.part o.tile (encLoad v o) s = some tile) : encAdmit v o s =
      (encAdded v o c i tile s, some (okVia (tile / 128) (packNat [(8, 32, liveOf v.part 1 s), (40, 12, c), (52, 9, tile)]) s)) := by
  obtain ⟨hst, hdepth, hroute, hbufs, hgeo, hload, hroom⟩ := h
  have hfit : (o.stitched || (v.codec == 0 && v.deep)) = false := by
    rcases hdepth with h | h <;> simp [hst, h]
  have hshort : (decide ((freeBufs (poolKey o.wing v.fn) s).length < 3 * v.spatial) || !poolHolds (poolAt (poolKey o.wing v.fn) s)
      (encW v o (v.spatial - 1)) (encH v o (v.spatial - 1)) v.deep) = false := by
    rw [decide_eq_false (Nat.not_lt.mpr hbufs), hgeo]
    rfl
  obtain ⟨-, -, -, -, hlinks, -⟩ := encSupplied_facts v o i s
  simp only [encAdmit, hfit, hroute, hshort, hload, Nat.not_le.mpr hroom, hc, hi, htile]
  exact congrArg (Prod.mk (encAdded v o c i tile s)) (congrArg some (okVia_congr hlinks _ _))

theorem encCreate_admits {r : Req} (hfine : encFine (encAsked r) = true)
    (hout : (identOf .output (encAsked r).output s).used = true) (hown : r.owner = true ∨ (outputAt (encAsked r).output s).fn = r.fn)
    (hroom : holdsRoom (reqFn r) (encAsked r).room s = true)
    (hctl : accHas tgPartition (encAsked r).part r.master bitControl s = true)
    (hq : recordQueueRefusal r (encAsked r).mode (encAsked r).recQueue s = none) :
    encCreateBody r s = encAdmit (encAsked r) (outputAt (encAsked r).output s) s := by
  unfold encCreateBody
  extract_lets v o ctl
  have hheld : (!((identOf .output v.output s).used && (r.owner || o.fn == r.fn)) || !holdsRoom (reqFn r) v.room s) = false := by
    have hown : r.owner = true ∨ o.fn = r.fn := hown
    have hnamed : (r.owner || o.fn == r.fn) = true := by simpa using hown
    rw [show (identOf .output v.output s).used = true from hout, hnamed, show holdsRoom (reqFn r) v.room s = true from hroom]
    rfl
  rw [show encFine v = true from hfine, hheld, show ctl = (true, s) from partControl_granted hctl,
    show recordQueueRefusal r v.mode v.recQueue s = none from hq]
  simp only [Bool.not_true, Bool.false_eq_true, if_false]
  rfl

end

/-! ### The end of a context -/

theorem trimPool_encs (k : Nat) (s : State) : (trimPool k s).video.encs = s.video.encs :=
  foldl_keeps (fun s => s.video.encs) (f := fun t i => setBuf (bufKey k i) {} t) (fun _ _ => rfl) _ _

theorem dropLoad_video (p r load : Nat) (s : State) : (dropLoad p r load s).video = s.video := by
  simp only [dropLoad, settleOver]
  split <;> rfl

theorem removeSource_video (i : Nat) (s : State) : (removeSource i s).video = s.video := by
  unfold removeSource
  extract_lets v t
  have ht : t.video = s.video := by
    simp only [t]
    split
    · rfl
    · simp
  exact ht

theorem finishEncRelease_ends (c : Nat) (s : State) :
    (identOf .encCtx c (finishEncRelease c s)).used = false ∧ encAt c (finishEncRelease c s) = {} ∧
      ∀ d, d ≠ c → encAt d (finishEncRelease c s) = encAt d s := by
  unfold finishEncRelease
  extract_lets v s1 s2 s3 s4
  have h1 : s1.video.encs = s.video.encs := foldl_keeps (fun s => s.video.encs)
    (f := fun s b => updBuf (bufKey v.pool b) (fun f => { f with encoder := false }) s) (fun _ _ => rfl) _ _
  have h2 : s2.video.encs = s1.video.encs := by
    simp only [s2, removeSource_video, trimPool_encs, dropLoad_video]
    rfl
  have h3 : s3.video.encs = s2.video.encs := foldl_keeps (fun s => s.video.encs) (fun _ _ => by simp) _ _
  have hused : (identOf .encCtx c s4).used = false := by rw [identOf_releaseId]
  have hctx : encAt c s4 = {} := encAt_setEnc c {} s3
  have hothers (d : Nat) (hd : d ≠ c) : encAt d s4 = encAt d s :=
    (encAt_setEnc_ne c d {} s3 hd).trans (encAt_congr (h3.trans (h2.trans h1)) d)
  split
  · refine ⟨(congrArg Ident.used (identOf_congr (by simp) _ _)).trans hused, (encAt_congr (by simp) c).trans hctx,
      fun d hd => (encAt_congr (by simp) d).trans (hothers d hd)⟩
  · exact ⟨hused, hctx, hothers⟩

/-! ### Keyframes by time, and coded bands -/

theorem exec_kfInterval {c : Nat} (s : State) (h : c < 65536) : exec (.kfInterval c) s = .next (kfIntervalDo c s) :=
  onWf_of_wf (i := .kfInterval c) (decide_eq_true h)

theorem kfIntervalDo_due {c : Nat} {s : State} (hused : (identOf .encCtx c s).used = true) (hk : (encAt c s).kfInterval ≠ 0) :
    kfIntervalDo c s = if (encAt c s).lastKey + (encAt c s).kfInterval * 100000000 ≤ nowNs s
      then setEnc c { encAt c s with pending := true } s else s := by
  have hset : ((encAt c s).kfInterval != 0) = true := bne_iff_ne.mpr hk
  simp only [kfIntervalDo, hused, hset, Bool.true_and, decide_eq_true_eq]

theorem exec_veBandCoded {c : Nat} (s : State) (h : c < 65536) : exec (.veBandCoded c) s = .next (bandCodedDo c s) :=
  onWf_of_wf (i := .veBandCoded c) (decide_eq_true h)

/-- The picture in work `w` after its next band, the band `p.2` of layer `p.1`, was fed by `fed` and coded from `x` (R246, R249). -/
def codedWork (v : EncCtx) (o : Output) (w : EncWork) (p : Nat × Nat) (fed : PxBand) (x : EncLayer) (s : State) : EncWork :=
  let y := (codeBand v o w p.1 p.2 s.free x s).2
  { w with
    coded := w.coded + 1, layers := w.layers.set p.1 y, boundNs := bandBound v o p.1 p.2 w.boundNs fed.at_ s
    capBand := if w.capBand = 63 ∧ y.capped ∧ !x.capped then p.2 else w.capBand }

/-- The state in which that band is counted, written and sent (R246, R255). -/
def bandSent (c : Nat) (w : EncWork) (p : Nat × Nat) (fed : PxBand) (x : EncLayer) (s : State) : State :=
  let v := encAt c s
  let o := outputAt v.output s
  let w' := codedWork v o w p fed x s
  let s1 := setEnc c { v with work := some w' } { s with free := s.free + 1 }
  let s2 := if w'.boundNs < nowNs s then count (tileCtr v.tile 2) 1 s1 else s1
  bandPackets c w' p.1 p.2 (encBands v o p.1) (codeBand v o w p.1 p.2 s.free x s).1 s.free (writeRecon v p.1 w.cur p.2 s.free s2)

theorem bandCodedDo_codes {c : Nat} {w : EncWork} {fed : PxBand} {x : EncLayer} {s : State} (hused : (identOf .encCtx c s).used = true)
    (hhold : s.body.hold = false) (hwork : (encAt c s).work = some w) :
    let v := encAt c s
    let o := outputAt v.output s
    let p := placeIn (layerBands v o) 0 w.coded
    w.inputs.find? (fun b => b.band == lastFeed v o p.1 p.2) = some fed → w.layers[p.1]? = some x →
    lastFeed v o p.1 p.2 < w.inputs.length →
    bandCodedDo c s = if (layerBands v o).sum ≤ w.coded + 1
      then endEncPicture c (codedWork v o w p fed x s) (bandSent c w p fed x s) else bandSent c w p fed x s := by
  intro v o p hfed hx hin
  unfold bandCodedDo
  extract_lets seed
  rw [show v.work = some w from hwork]
  dsimp -zeta only
  extract_lets l b
  rw [show w.inputs.find? (fun x => x.band == lastFeed v o l b) = some fed from hfed, show w.layers[l]? = some x from hx]
  dsimp -zeta only
  have hgo : ¬(!(identOf .encCtx c s).used || s.body.hold || decide (w.inputs.length ≤ lastFeed v o l b)) = true := by
    rw [hused, hhold, decide_eq_false (Nat.not_le.mpr hin)]
    exact Bool.false_ne_true
  rw [if_neg hgo]
  rfl

/-- Settles O45: the commands by the equations of their bodies in the case named, the events by what each makes of its context. -/
theorem videoEncodes : Obligations.VideoEncodes := by
  refine ⟨completesSo_of exec_vidEncCreate ?create, begins_of exec_vidEncRate ?rate, completes_of exec_vidEncRate ?rateRefused,
    completes_of exec_vidEncKeyframe ?keyframe, completes_of exec_vidEncRead ?read, begins_of exec_vidEncRelease ?release,
    finishEncRelease_ends, ?interval, ?band⟩
  case create =>
    rintro r s ⟨hz, hfine, hout, hown, hroom, hctl, hq, hst, hdepth, hroute, hbufs, hgeo, hload, hmore, hc, hi, htile⟩
    obtain ⟨c, hc⟩ := Option.isSome_iff_exists.mp hc
    obtain ⟨i, hi⟩ := Option.isSome_iff_exists.mp hi
    obtain ⟨tile, htile⟩ := Option.isSome_iff_exists.mp htile
    obtain ⟨hused, hctx, hsourceUsed, hsource, hmarked, hothers, hlinks, hframe⟩ :=
      encAdded_creates (encAsked r) (outputAt (encAsked r).output s) c i tile s
    refine ⟨_, _, (strictly_clear hz).trans ((encCreate_admits hfine hout hown hroom hctl hq).trans
      (encAdmit_takes ⟨hst, hdepth, hroute, hbufs, hgeo, hload, hmore⟩ hc hi htile)), c, i, tile, hc, hi, htile,
      (okVia_congr hlinks _ _).symm, hused, hctx, ?_, hsourceUsed, ?_, ?_, hmarked, hothers, hframe⟩
    · rw [hctx]; rfl
    · rw [hsource]; rfl
    · rw [hsource]; exact encoderSource_format (encAsked r) (outputAt (encAsked r).output s)
  case rate =>
    rintro r s ⟨hn, hz, hfine⟩
    exact (strictly_clear hz).trans (encRate_fine hn hfine)
  case rateRefused =>
    rintro r s ⟨hn, hfine⟩
    exact strictly_refused (encRate_outOfRange hn hfine) rfl
  case keyframe =>
    rintro r s ⟨hn, hz⟩
    exact (strictly_clear hz).trans ((withEnc_named hn _).trans (viaWing_ok _ _))
  case read =>
    rintro r s ⟨hn, hz⟩
    exact (strictly_clear hz).trans ((withEnc_named hn _).trans (viaWing_ok _ _))
  case release =>
    rintro r s ⟨hn, hz, hr, hq, hread, hst⟩
    exact (strictly_clear hz).trans (encRelease_idle hn hr hq hread hst)
  case interval =>
    intro c s hc hused hk
    exact (exec_kfInterval s hc).trans (congrArg Host.Outcome.next (kfIntervalDo_due hused hk))
  case band =>
    intro c w fed x s hc hused hhold hwork v o p hfed hx hin
    exact (exec_veBandCoded s hc).trans (congrArg Host.Outcome.next (bandCodedDo_codes hused hhold hwork hfed hx hin))

end Sys2Proof
end

section
/-! PROOFS. The statements of audio mixing: what the commands of rooms, inputs, groups and buses make of them, and what units, mix blocks and
group frames do (R263-R284). -/

namespace Sys2Proof

open Machine

/-! ## O46: the audio commands -/

theorem exec_audRoomSetup (src : CmdSrc) (s : State) (h : src.wf = true) : exec (.audRoomSetup src) s =
    .next (command 0x80 (strictly ([(12, 0), (21, 16), (25, 24), (45, 40)], [(20, 0), (52, 32), (84, 64), (116, 96)], [(39, 0)])
      roomSetupBody) src s) :=
  onWf_of_wf (i := .audRoomSetup src) h

theorem exec_audRoomSet (src : CmdSrc) (s : State) (h : src.wf = true) : exec (.audRoomSet src) s =
    .next (command 0x81 (strictly ([(12, 0), (22, 16)], [(15, 0)], [(39, 0)]) roomSetBody) src s) := onWf_of_wf (i := .audRoomSet src) h

theorem exec_audGroupCreate (src : CmdSrc) (s : State) (h : src.wf = true) : exec (.audGroupCreate src) s =
    .next (command 0x82 (strictly ([(12, 0), (20, 16), (30, 24)], [(31, 0)], []) groupCreateBody) src s) :=
  onWf_of_wf (i := .audGroupCreate src) h

theorem exec_audInAttach (src : CmdSrc) (s : State) (h : src.wf = true) : exec (.audInAttach src) s =
    .next (command 0x83 (strictly ([(76, 0), (80, 80), (85, 81)], [(25, 0)], []) inAttachBody) src s) :=
  onWf_of_wf (i := .audInAttach src) h

theorem exec_audInSet (src : CmdSrc) (s : State) (h : src.wf = true) : exec (.audInSet src) s =
    .next (command 0x84 (strictly ([(15, 0)], [(25, 0)], []) inSetBody) src s) := onWf_of_wf (i := .audInSet src) h

theorem exec_audListen (src : CmdSrc) (s : State) (h : src.wf = true) : exec (.audListen src) s =
    .next (command 0x85 (strictly ([(80, 0)], [], []) listenBody) src s) := onWf_of_wf (i := .audListen src) h

theorem exec_audSafeload (src : CmdSrc) (s : State) (h : src.wf = true) : exec (.audSafeload src) s =
    .next (command 0x86 (strictly ([(12, 0)], [], []) safeloadBody) src s) := onWf_of_wf (i := .audSafeload src) h

theorem exec_audInRead (src : CmdSrc) (s : State) (h : src.wf = true) : exec (.audInRead src) s =
    .next (command 0x87 (strictly ([(15, 0)], [(63, 0)], [(0, 0)]) inReadBody) src s) := onWf_of_wf (i := .audInRead src) h

theorem exec_audRoomRead (src : CmdSrc) (s : State) (h : src.wf = true) : exec (.audRoomRead src) s =
    .next (command 0x88 (strictly ([(12, 0)], [(63, 0)], [(0, 0)]) roomReadBody) src s) := onWf_of_wf (i := .audRoomRead src) h

theorem exec_audInRelease (src : CmdSrc) (s : State) (h : src.wf = true) : exec (.audInRelease src) s =
    .next (command 0x89 (strictly ([(15, 0)], [], []) inReleaseBody) src s) := onWf_of_wf (i := .audInRelease src) h

theorem exec_audGroupRelease (src : CmdSrc) (s : State) (h : src.wf = true) : exec (.audGroupRelease src) s =
    .next (command 0x8A (strictly ([(63, 0)], [], []) groupReleaseBody) src s) := onWf_of_wf (i := .audGroupRelease src) h

theorem exec_audRoomRelease (src : CmdSrc) (s : State) (h : src.wf = true) : exec (.audRoomRelease src) s =
    .next (command 0x8B (strictly ([(12, 0)], [], []) roomReleaseBody) src s) := onWf_of_wf (i := .audRoomRelease src) h

theorem exec_audBusSet (src : CmdSrc) (s : State) (h : src.wf = true) : exec (.audBusSet src) s =
    .next (command 0x8C (strictly ([(3, 0)], [(34, 0), (98, 64)], [(23, 0), (127, 64)]) busSetBody) src s) :=
  onWf_of_wf (i := .audBusSet src) h

theorem exec_audBusRead (src : CmdSrc) (s : State) (h : src.wf = true) : exec (.audBusRead src) s =
    .next (command 0x8D (strictly ([(3, 0)], [(63, 0)], [(0, 0)]) busReadBody) src s) := onWf_of_wf (i := .audBusRead src) h

theorem exec_audRoomNotify (src : CmdSrc) (s : State) (h : src.wf = true) : exec (.audRoomNotify src) s =
    .next (command 0x8E (strictly ([(13, 0)], [], []) roomNotifyBody) src s) := onWf_of_wf (i := .audRoomNotify src) h

theorem audIn_congr {s t : State} (h : t.audio.ins = s.audio.ins) (i : Nat) : audIn i t = audIn i s := by simp only [audIn, h]

/-- A group in the table is the one that its number reads. -/
theorem audGroup_listed {k : Nat} {s : State} (h : (s.audio.groups.find? k).isSome = true) : s.audio.groups.find? k = some (audGroup k s) := by
  obtain ⟨g, hg⟩ := Option.isSome_iff_exists.mp h
  simp only [audGroup, Tab.get, hg, Option.getD_some]

/-! ### Handles from outside -/

/-- The reserved bits of a handle name nothing (R6). -/
theorem handleIn_parts (h : Nat) :
    handleKind (handleIn h) = handleKind h ∧ handleGen (handleIn h) = handleGen h ∧ handleIdx (handleIn h) = handleIdx h := by
  simp only [handleIn, handleKind, handleGen, handleIdx, Nat.reducePow]
  refine ⟨?_, ?_, ?_⟩ <;> omega

theorem resolve_handleIn (k : IdKind) (h : Nat) (s : State) : resolve k (handleIn h) s = resolve k h s := by
  obtain ⟨hkind, hgen, hidx⟩ := handleIn_parts h
  simp only [resolve, hkind, hgen, hidx]

/-! ### Commands that name a mixer, an input, a subscription -/

theorem withMixer_named {room : Nat} {r : Req} {s : State} (h : mixerNamed room r s) (f : Answer) :
    withMixer room r s f = viaWing ((audRoom room s).tile / 128) f := by
  obtain ⟨hmay, hmix⟩ := h
  simp only [withMixer, hmay, hmix, Bool.not_true, Bool.false_eq_true, if_false]

/-- The input that word 1 names (R284). -/
abbrev namedIn (r : Req) (s : State) : AudIn := audIn (fld r.w1 15 0) s

theorem withInput_named {r : Req} {s : State} (h : inputNamed r s) (f : Answer) :
    withInput (fld r.w1 15 0) r s f = viaWing ((namedIn r s).tile / 128) f := by
  obtain ⟨hused, hmay⟩ := h
  simp only [withInput, hused, hmay, Bool.and_self, if_true]

/-- The number of the subscription that word 1 names (R7). -/
abbrev subNumber (r : Req) : Nat := handleIdx (fld r.w1 63 0)

theorem viaEntry_clean {kind idx : Nat} {s : State} (h : lostIn kind idx 0 s = none) (w handle : Nat) (a : Answer) :
    viaEntry kind idx w handle s a = a := by
  simp only [viaEntry, h]

/-- A subscription that the requester may name, whose entry no poison has taken (R7, R378). -/
theorem withSub_resolved {h j : Nat} {r : Req} {s : State} (hr : resolve .sub h s = .ok j)
    (hmay : (r.owner || (legAt (subAt j s).leg s).fn == r.fn) = true) (hlost : lostIn 3 j 0 s = none) (f : Nat → Answer) :
    withSub h r s f = viaWing (legAt (subAt j s).leg s).wing (f j) := by
  simp only [withSub, hr, hmay, if_true, viaEntry_clean hlost]

theorem withSub_named {r : Req} {s : State} (h : subNamed r s) (f : Nat → Answer) :
    withSub (handleIn (fld r.w1 63 0)) r s f = viaWing (legAt (subAt (subNumber r) s).leg s).wing (f (subNumber r)) := by
  obtain ⟨hr, hown, hlost⟩ := h
  exact withSub_resolved ((resolve_handleIn _ _ _).trans hr) (by simpa using hown) hlost f

/-! ### Settings through the shadow -/

/-- A mixer that the changes of the shadow `es` wait in (R280). -/
def shadowed (es : List (Nat × Nat)) (v : AudRoom) : AudRoom := { v with shadow := es.foldl (fun t e => t.set e.1 e.2) v.shadow }

theorem writeShadow_fits {room : Nat} {es : List (Nat × Nat)} {s : State} (h : (shadowed es (audRoom room s)).shadow.size ≤ 4096) :
    writeShadow room es s = answer (setAudRoom room (shadowed es (audRoom room s)) s) (okWith 0) := if_neg (Nat.not_lt.mpr h)

/-- The changes that AUD_ROOM_SET asks for (R284). -/
def roomChanges (r : Req) : List (Nat × Nat) :=
  (if bitOf r.w1 22 = true then [(0, r.w3.toNat)] else []) ++ (if bitOf r.w1 21 = true then [(fld r.w1 20 16, fld r.w2 15 0)] else [])

/-- The room that word 1 names (R284). -/
abbrev namedRoom (r : Req) (s : State) : AudRoom := audRoom (fld r.w1 12 0) s

theorem roomSet_writes {r : Req} {s : State} (hn : mixerNamed (fld r.w1 12 0) r s)
    (hgain : bitOf r.w1 21 = true → 1 ≤ fld r.w1 20 16 ∧ fld r.w1 20 16 < (namedRoom r s).channels)
    (hcfg : bitOf r.w1 22 = true → roomCfgFine r.w3 = true ∧
      (cfgK (shadowRoom (namedRoom r s)) ≤ cfgK r.w3.toNat ∨ pinsShadow (fld r.w1 12 0) s ≤ cfgK r.w3.toNat))
    (hsize : (shadowed (roomChanges r) (namedRoom r s)).shadow.size ≤ 4096) :
    roomSetBody r s = viaWing ((namedRoom r s).tile / 128)
      (answer (setAudRoom (fld r.w1 12 0) (shadowed (roomChanges r) (namedRoom r s)) s) (okWith 0)) := by
  have hrange : ¬((bitOf r.w1 21 && !(decide (1 ≤ fld r.w1 20 16) && decide (fld r.w1 20 16 < (namedRoom r s).channels))) ||
      (bitOf r.w1 22 && !roomCfgFine r.w3)) = true := by
    rw [Bool.or_eq_true, Bool.and_eq_true, Bool.and_eq_true]
    rintro (⟨hbit, hout⟩ | ⟨hbit, hout⟩)
    · simp [hgain hbit] at hout
    · simp [hcfg hbit] at hout
  have hpins : ¬(bitOf r.w1 22 = true ∧ cfgK r.w3.toNat < cfgK (shadowRoom (namedRoom r s)) ∧
      cfgK r.w3.toNat < pinsShadow (fld r.w1 12 0) s) := by
    rintro ⟨hbit, hk, hpin⟩
    have := (hcfg hbit).2
    omega
  exact (withMixer_named hn _).trans (congrArg (viaWing _) ((if_neg hrange).trans ((if_neg hpins).trans (writeShadow_fits hsize))))

/-- Word 2 holds bits 25 to 0 alone, the settings of an input (R284). -/
theorem inputSettings_lt {l1 l3 : List (Nat × Nat)} {r : Req} (h : reservedZero (l1, [(25, 0)], l3) r = true) : r.w2.toNat < 2 ^ 26 := by
  simp only [reservedZero, onlyFields, Bool.and_eq_true, beq_iff_eq] at h
  obtain ⟨⟨-, hw2⟩, -⟩ := h
  have hle : r.w2.toNat ≤ fieldMask [(25, 0)] := hw2.symm.le.trans Nat.and_le_right
  exact Nat.lt_of_le_of_lt hle (by decide)

theorem inSet_writes {r : Req} {s : State} (hn : inputNamed r s) (hlt : r.w2.toNat < 2 ^ 26)
    (hchan : inChannel r.w2.toNat < (audRoom (namedIn r s).room s).channels)
    (hfeed : inFeed r.w2.toNat = true → feedsShadow (namedIn r s).room (inChannel r.w2.toNat) (fld r.w1 15 0) s < 4)
    (hpin : inPin r.w2.toNat = true → inPin (shadowIn (audRoom (namedIn r s).room s) (fld r.w1 15 0) (namedIn r s)) = true ∨
      pinsShadow (namedIn r s).room s < cfgK (shadowRoom (audRoom (namedIn r s).room s)))
    (hsize : (shadowed [(64 + fld r.w1 15 0, r.w2.toNat)] (audRoom (namedIn r s).room s)).shadow.size ≤ 4096) :
    inSetBody r s = viaWing ((namedIn r s).tile / 128) (answer (setAudRoom (namedIn r s).room
      (shadowed [(64 + fld r.w1 15 0, r.w2.toNat)] (audRoom (namedIn r s).room s)) s) (okWith 0)) := by
  have hrange : ¬(2 ^ 26 ≤ r.w2.toNat ∨ (audRoom (namedIn r s).room s).channels ≤ inChannel r.w2.toNat ∨
      (inFeed r.w2.toNat = true ∧ 4 ≤ feedsShadow (namedIn r s).room (inChannel r.w2.toNat) (fld r.w1 15 0) s)) := by
    rintro (h | h | ⟨hbit, h⟩)
    · omega
    · omega
    · have := hfeed hbit; omega
  have hpinned : ¬(inPin r.w2.toNat && !inPin (shadowIn (audRoom (namedIn r s).room s) (fld r.w1 15 0) (namedIn r s)) &&
      decide (cfgK (shadowRoom (audRoom (namedIn r s).room s)) ≤ pinsShadow (namedIn r s).room s)) = true := by
    simp only [Bool.and_eq_true, decide_eq_true_eq]
    rintro ⟨⟨hbit, hnew⟩, hfull⟩
    rcases hpin hbit with h | h
    · simp [h] at hnew
    · omega
  exact (withInput_named hn _).trans (congrArg (viaWing _) ((if_neg hrange).trans ((if_neg hpinned).trans (writeShadow_fits hsize))))

/-! ### Rooms -/

/-- The mixer that AUD_ROOM_SETUP asks for, on a tile (R271). -/
def mixerAsked (r : Req) (tile : Nat) : AudRoom :=
  { part := fld r.w1 21 16, tile := tile, channels := fld r.w1 45 40, profiles := r.w2, cfg := r.w3.toNat
    gains := 4096 :: List.replicate 31 410, gainsWas := 4096 :: List.replicate 31 410 }

/-- The tile of the partition with the fewest rooms, of those in the Wings named (R271). -/
def roomTile (r : Req) (s : State) : Option Nat :=
  leastLoaded (fun t => roomsOn t s)
    ((roleTiles (fld r.w1 21 16) 3 (wingTiles (fld r.w1 25 24)) s).filter (fun t => decide (roomsOn t s < 64)))

theorem roomSetup_creates {r : Req} {s : State} {tile : Nat} (hlo : 1 ≤ fld r.w1 45 40) (hhi : fld r.w1 45 40 ≤ 32)
    (hprof : ∀ p, p < 4 → profFine r.w2 p = true) (hcfg : roomCfgFine r.w3 = true) (hnew : mixes (fld r.w1 12 0) s = false)
    (hmay : mayRoom r (fld r.w1 12 0) s = true) (htile : roomTile r s = some tile) :
    roomSetupBody r s = answer (addWork tile (setAudRoom (fld r.w1 12 0) (mixerAsked r tile) s)) (okVia (tile / 128) (tile * 256) s) := by
  have hprofs : (List.range 4).all (profFine r.w2) = true := List.all_eq_true.mpr fun p hp => hprof p (List.mem_range.mp hp)
  unfold roomTile at htile
  simp only [roomSetupBody, hlo, hhi, hprofs, hcfg, hnew, hmay, htile]
  rfl

theorem roomRelease_refused {r : Req} {s : State} (hn : mixerNamed (fld r.w1 12 0) r s)
    (h : roomInputs (fld r.w1 12 0) s ≠ [] ∨ roomGroups (fld r.w1 12 0) s ≠ []) :
    roomReleaseBody r s = (s, some (refuse stNotStarted 0x0B)) := by
  have hbusy : (!(roomInputs (fld r.w1 12 0) s).isEmpty || !(roomGroups (fld r.w1 12 0) s).isEmpty) = true := by simpa using h
  exact (withMixer_named hn _).trans ((congrArg (viaWing _) (if_pos hbusy)).trans (viaWing_refused _ _ (by decide)))

theorem roomRelease_unused {r : Req} {s : State} (hn : mixerNamed (fld r.w1 12 0) r s) (hins : roomInputs (fld r.w1 12 0) s = [])
    (hgroups : roomGroups (fld r.w1 12 0) s = []) :
    roomReleaseBody r s = viaWing ((namedRoom r s).tile / 128) (answer (removeMixer (fld r.w1 12 0) s) (okWith 0)) := by
  have hfree : ¬(!(roomInputs (fld r.w1 12 0) s).isEmpty || !(roomGroups (fld r.w1 12 0) s).isEmpty) = true := by simp [hins, hgroups]
  exact (withMixer_named hn _).trans (congrArg (viaWing _) (if_neg hfree))

/-! ### Attaching inputs -/

theorem committedOf_addLoad (p q load : Nat) (s : State) : committedOf p q (addLoad p q load s) = committedOf p q s + load := by
  simp [committedOf, addLoad, Tab.upd]

/-- The load of an input is committed (R265). -/
def inputLoaded (v : AudIn) (s : State) : State := if v.load = 0 then s else addLoad v.part 3 v.load s

theorem inputLoaded_keeps (v : AudIn) (s : State) : (inputLoaded v s).audio = s.audio ∧ (inputLoaded v s).media = s.media ∧
    (inputLoaded v s).hq = s.hq ∧ (inputLoaded v s).dram = s.dram := by
  unfold inputLoaded
  split <;> exact ⟨rfl, rfl, rfl, rfl⟩

theorem committedOf_inputLoaded (v : AudIn) (s : State) :
    committedOf v.part 3 (inputLoaded v s) = committedOf v.part 3 s + v.load := by
  unfold inputLoaded
  split
  next h => rw [h, Nat.add_zero]
  next => exact committedOf_addLoad _ _ _ _

/-- The state in which input `v` has taken number `n` (R265). -/
def inputAttached (v : AudIn) (n : Nat) (s : State) : State := addWork v.tile (setAudIn n v (allocId .audioIn n (inputLoaded v s)))

theorem attachInput_takes (v : AudIn) {n : Nat} {s : State} (hn : lowestFree .audioIn 0 65536 s = some n) :
    attachInput v s = answer (inputAttached v n s)
      (okVia (v.tile / 128) (packNat [(8, 24, liveOf v.part 3 s), (32, 16, n), (48, 9, v.tile)]) (inputAttached v n s)) := by
  simp only [attachInput, hn]
  rfl

/-- What a new input `v` under number `n` makes of the state (R265, R284). -/
structure InputTaken (v : AudIn) (n : Nat) (s t : State) : Prop where
  used : (identOf .audioIn n t).used = true
  input : audIn n t = v
  others : ∀ d, d ≠ n → audIn d t = audIn d s
  committed : committedOf v.part 3 t = committedOf v.part 3 s + v.load
  media : t.media = s.media
  frame : t.hq = s.hq ∧ t.dram = s.dram

theorem inputAttached_takes (v : AudIn) (n : Nat) (s : State) : InputTaken v n s (inputAttached v n s) := by
  obtain ⟨haudio, hmedia, hhq, hdram⟩ := inputLoaded_keeps v s
  refine ⟨?_, audIn_setAudIn n v (allocId .audioIn n (inputLoaded v s)), fun d hd => ?_, ?_, hmedia, hhq, hdram⟩
  · exact congrArg Ident.used (identOf_allocId .audioIn n (inputLoaded v s))
  · exact (audIn_setAudIn_ne n d v (allocId .audioIn n (inputLoaded v s)) hd).trans (audIn_congr (congrArg Audio.ins haudio) d)
  · exact committedOf_inputLoaded v s

section
variable {r : Req} {s : State} {room : Nat} (hfine : attachFine room r s)
include hfine

/-- The settings of an attachment pass; `aes` is whether it names an AES3 subframe, and then no source (R265). -/
theorem attachFine_inRange {aes : Bool} {source : Nat} (hs : (aes && source != 0) = false) :
    ¬(!mixes room s || decide (2 ^ 26 ≤ r.w2.toNat) || decide ((audRoom room s).channels ≤ inChannel r.w2.toNat) || (aes && source != 0)
      || (inFeed r.w2.toNat && (decide (4 ≤ feedsShadow room (inChannel r.w2.toNat) 65536 s) ||
        decide (4 ≤ feedsActive room (inChannel r.w2.toNat) s)))) = true := by
  obtain ⟨hmix, hlt, hchan, hfeed, -⟩ := hfine
  simp only [hmix, hs, Bool.not_true, Bool.false_or, Bool.or_false, Bool.or_eq_true, Bool.and_eq_true, decide_eq_true_eq]
  rintro ((h | h) | ⟨hbit, h⟩)
  · omega
  · omega
  · have := hfeed hbit
    omega

theorem attachFine_pinFits : ¬(inPin r.w2.toNat && (decide (cfgK (shadowRoom (audRoom room s)) ≤ pinsShadow room s) ||
    decide (cfgK (audRoom room s).cfg ≤ pinsActive room s))) = true := by
  obtain ⟨-, -, -, -, hpin⟩ := hfine
  simp only [Bool.and_eq_true, Bool.or_eq_true, decide_eq_true_eq]
  rintro ⟨hbit, h⟩
  have := hpin hbit
  omega

end

/-- The input that AUD_IN_ATTACH asks for, but for its tile and load (R265). -/
def inputAsked (r : Req) (s : State) : AudIn :=
  { room := fld r.w1 76 64, source := handleIn (fld r.w1 63 0)
    aes := if bitOf r.w1 80 then some (fld r.w1 84 81, fld r.w1 85 85) else none
    part := (audRoom (fld r.w1 76 64) s).part, tile := (audRoom (fld r.w1 76 64) s).tile, cfg := r.w2.toNat }

section
variable {r : Req} {s : State} (hfine : attachFine (fld r.w1 76 64) r s)
  (hctl : accHas tgPartition (audRoom (fld r.w1 76 64) s).part r.master bitControl s = true)
include hfine hctl

theorem inAttach_aes (haes : bitOf r.w1 80 = true) (hsource : fld r.w1 63 0 = 0) (hown : r.owner = true)
    (hheld : (roomAt (fld r.w1 76 64) s).held = true) (hroute : hasRoute 0x200 ((audRoom (fld r.w1 76 64) s).tile / 8) s = true) :
    inAttachBody r s = attachInput (inputAsked r s) s := by
  have hnone : (bitOf r.w1 80 && (inputAsked r s).source != 0) = false := by
    simp [inputAsked, hsource, handleIn, handleKind, handleGen, handleIdx]
  have hheldBy : (!(r.owner && (roomAt (fld r.w1 76 64) s).held)) = false := by rw [hown, hheld]; rfl
  unfold inAttachBody
  extract_lets room aes v cfg ctl x begin_
  have hbegin (f : Answer) : begin_ f = f := (if_neg (attachFine_inRange hfine hnone)).trans (if_neg (attachFine_pinFits hfine))
  rw [if_pos (show aes = true from haes), show (!(r.owner && (roomAt room s).held)) = false from hheldBy, hbegin,
    show ctl = (true, s) from partControl_granted hctl, show hasRoute 0x200 (v.tile / 8) s = true from hroute]
  rfl

theorem inAttach_source {i : Nat} (haes : bitOf r.w1 80 = false) (hr : resolve .source (fld r.w1 63 0) s = .ok i)
    (hmay : mayRoom r (fld r.w1 76 64) s = true) (hown : r.owner = true ∨ (sourceAt i s).fn = r.fn)
    (hroom : (sourceAt i s).room = fld r.w1 76 64) : inAttachBody r s = inAdmit (inputAsked r s) i s := by
  have hnone : (bitOf r.w1 80 && (inputAsked r s).source != 0) = false := by rw [haes]; rfl
  have hmine : (!mayRoom r (fld r.w1 76 64) s || !(r.owner || (sourceAt i s).fn == r.fn) || (sourceAt i s).room != fld r.w1 76 64) = false := by
    have hnamed : (r.owner || (sourceAt i s).fn == r.fn) = true := by simpa using hown
    rw [hmay, hnamed, hroom, bne_self_eq_false]
    rfl
  unfold inAttachBody
  extract_lets room aes v cfg ctl x begin_
  have hbegin (f : Answer) : begin_ f = f := (if_neg (attachFine_inRange hfine hnone)).trans (if_neg (attachFine_pinFits hfine))
  rw [if_neg (show ¬aes = true by rw [show aes = false from haes]; exact Bool.false_ne_true),
    show resolve .source x.source s = .ok i from (resolve_handleIn _ _ _).trans hr]
  have hgranted : ctl = (true, s) := partControl_granted hctl
  clear_value ctl
  dsimp -zeta only
  rw [if_neg (Bool.eq_false_iff.mp hmine), hbegin, hgranted]
  exact if_neg Bool.false_ne_true

end

/-- One more reader of source `i` (R265). -/
def sourceRead (i : Nat) (s : State) : State := updSource i (fun x => { x with readers := x.readers + 1 }) s

/-- The checks of a source and of the partition's decodes (R265, checks 2 to 4). -/
structure InputAdmitted (v : AudIn) (i : Nat) (s : State) : Prop where
  audio : (sourceAt i s).isAudio = true
  noGroup : (sourceAt i s).isGroup = false
  decodes : (sourceAt i s).forwardOnly = false
  jitter : (sourceAt i s).jit.isSome = true
  load : fits v.part 3 1 s = true

/-- The OK of work that joins two Wings, done on one of them, is DEGRADED while the traffic of either is rerouted (R31). -/
theorem viaPair_okVia (x y w det : Nat) (t : State) : viaPair x y (answer t (okVia w det t)) =
    (t, some (if pairRerouted x y t = true then ⟨stDegraded, 1, det⟩ else okVia w det t)) := by
  cases hp : pairRerouted x y t <;> cases hw : wingRerouted w t <;> simp [viaPair, degradedIf, answer, okVia, okWith, hp, hw]

/-- Input `v` on a tile, with the load of one decode (R265). -/
def inputOn (v : AudIn) (tile : Nat) : AudIn := { v with tile := tile, load := 1 }

/-- The state in which input `v` of source `i` has taken number `n` on a tile (R265). -/
def inputJoined (v : AudIn) (i n tile : Nat) (s : State) : State := inputAttached (inputOn v tile) n (sourceRead i s)

theorem inputJoined_takes (v : AudIn) (i n tile : Nat) (s : State) :
    InputTaken (inputOn v tile) n (sourceRead i s) (inputJoined v i n tile s) := inputAttached_takes _ _ _

/-- The input counts among the source's readers (R265). -/
theorem inputJoined_readers (v : AudIn) (i n tile : Nat) (s : State) :
    (sourceAt i (inputJoined v i n tile s)).readers = (sourceAt i s).readers + 1 := by
  have hread : sourceAt i (sourceRead i s) = { sourceAt i s with readers := (sourceAt i s).readers + 1 } := sourceAt_updSource i _ s
  rw [sourceAt, (inputJoined_takes v i n tile s).media]
  exact congrArg Source.readers hread

theorem inAdmit_takes {v : AudIn} {i n tile : Nat} {s : State} (h : InputAdmitted v i s)
    (htile : inTile v.part (audRoom v.room s).tile s = some tile) (hn : lowestFree .audioIn 0 65536 s = some n) :
    let t := inputJoined v i n tile s
    let det := packNat [(8, 24, liveOf v.part 3 s), (32, 16, n), (48, 9, tile)]
    inAdmit v i s = (t, some (if pairRerouted (sourceAt i s).wing (tile / 128) t = true then ⟨stDegraded, 1, det⟩
      else okVia (tile / 128) det t)) := by
  obtain ⟨haudio, hgroup, hdec, hjit, hload⟩ := h
  have hnone : (sourceAt i s).jit.isNone = false := by rw [← Option.not_isSome, hjit]; rfl
  intro t det
  refine Eq.trans ?_ (viaPair_okVia _ _ _ _ _)
  rw [← show attachInput (inputOn v tile) (sourceRead i s) = answer t (okVia (tile / 128) det t) from attachInput_takes _ hn]
  simp only [inAdmit, haudio, hgroup, hdec, hnone, hload, htile]
  rfl

/-! ### Groups and subscriptions -/

/-- The local source of a mix group (R275). -/
def groupSource (r : Req) (s : State) : Source :=
  localSource (roomAt (fld r.w1 12 0) s).owner ((namedRoom r s).tile / 128) (fld r.w1 12 0)
    (profFormat (profCodec (namedRoom r s).profiles (fld r.w1 25 24))) (profPt (namedRoom r s).profiles (fld r.w1 25 24)) 0

/-- The group that AUD_GROUP_CREATE asks for, on a tile (R275). -/
def groupAsked (r : Req) (tile : Nat) (s : State) : AudGroup :=
  { room := fld r.w1 12 0, chan := fld r.w1 20 16, profile := fld r.w1 25 24, slots := fld r.w1 30 26, part := (namedRoom r s).part
    tile := tile, load := 1 + fld r.w1 30 26, ts0 := fld r.w2 31 0, created := mixBlockNow s }

/-- The state in which group `g` has its local source `v` under number `i` (R275). -/
def groupAdded (g : AudGroup) (v : Source) (i : Nat) (s : State) : State :=
  addWork g.tile (addLoad g.part 4 g.load (setAudGroup i g (localAdded i v s)))

theorem groupCreate_adds {r : Req} {s : State} {i tile : Nat} (hn : mixerNamed (fld r.w1 12 0) r s)
    (hchan : fld r.w1 20 16 < (namedRoom r s).channels) (hcodec : profCodec (namedRoom r s).profiles (fld r.w1 25 24) ≠ 0)
    (hslots : fld r.w1 30 26 ≤ 20) (hload : fits (namedRoom r s).part 4 (1 + fld r.w1 30 26) s = true)
    (htile : groupTile (namedRoom r s).part (namedRoom r s).tile (1 + fld r.w1 30 26) s = some tile)
    (hi : lowestFree .source 0 131072 s = some i) :
    groupCreateBody r s = viaWing ((namedRoom r s).tile / 128) (answer (groupAdded (groupAsked r tile s) (groupSource r s) i s)
      (okWith (handleFor .source i (groupAdded (groupAsked r tile s) (groupSource r s) i s)))) := by
  have hrange : ¬((namedRoom r s).channels ≤ fld r.w1 20 16 ∨ profCodec (namedRoom r s).profiles (fld r.w1 25 24) = 0 ∨
      20 < fld r.w1 30 26) := by omega
  refine (withMixer_named hn _).trans (congrArg (viaWing _) ?_)
  dsimp only
  rw [if_neg hrange, if_neg (by rw [hload]; exact Bool.false_ne_true), htile, hi]
  rfl

/-- An OK over a Wing with a detail (R31, R404). -/
theorem viaWing_okWith (w det : Nat) (t : State) : viaWing w (answer t (okWith det)) = (t, some (okVia w det t)) := by
  cases h : wingRerouted w t <;> simp [viaWing, answer, okWith, okVia, h]

theorem groupAdded_facts (g : AudGroup) {v : Source} (hv : v.isLocal = true) (i : Nat) (s : State) :
    (identOf .source i (groupAdded g v i s)).used = true ∧ (sourceAt i (groupAdded g v i s)).isLocal = true ∧
      (groupAdded g v i s).audio.groups.find? i = some g ∧
      (∀ d, d ≠ i → (groupAdded g v i s).audio.groups.find? d = s.audio.groups.find? d) ∧
      handleFor .source i (groupAdded g v i s) = handleFor .source i s ∧
      (groupAdded g v i s).hq = s.hq ∧ (groupAdded g v i s).dram = s.dram := by
  obtain ⟨hused, hlocal, -⟩ := localAdded_facts hv i s
  have hids : (groupAdded g v i s).ids = (localAdded i v s).ids := rfl
  have hmedia : (groupAdded g v i s).media = (localAdded i v s).media := rfl
  have hgroups : (groupAdded g v i s).audio.groups = s.audio.groups.set i g := rfl
  refine ⟨?_, ?_, ?_, fun d hd => ?_, ?_, ?_, ?_⟩
  · rw [identOf_congr hids, hused]
  · simpa only [sourceAt, hmedia] using hlocal
  · rw [hgroups, Tab.find_set_same]
  · rw [hgroups, Tab.find_set_other _ _ _ _ hd]
  · rw [handleFor, identOf_congr hids]
    exact handleFor_localAdded i v s
  · simp [groupAdded, localAdded]
  · simp [groupAdded, localAdded]

theorem groupRelease_unread {r : Req} {s : State} {i : Nat} (hr : resolve .source (fld r.w1 63 0) s = .ok i)
    (hg : (s.audio.groups.find? i).isSome = true) (hmay : mayRoom r (audGroup i s).room s = true) (hsubs : sourceSubs i s = []) :
    groupReleaseBody r s = viaWing ((audGroup i s).tile / 128) (answer (removeGroup i s) (okWith 0)) := by
  simp only [groupReleaseBody, withGroup, hr, audGroup_listed hg, hmay, hsubs, List.isEmpty_nil, if_true]

/-- The number of the group that the subscription named is of (R276). -/
abbrev groupNumber (r : Req) (s : State) : Nat := handleIdx (subAt (subNumber r) s).source

/-- Group `g` with handle `h` no longer bound (R276). -/
def unbound (h : Nat) (g : AudGroup) : AudGroup := { g with binds := g.binds.filter (fun b => b.1 != h) }

/-- Group `g` with handle `h` bound to input `i`, which takes a variant where it `needs` one (R276). -/
def boundTo (h i : Nat) (needs : Bool) (g : AudGroup) : AudGroup :=
  { g with binds := g.binds.filter (fun b => b.1 != h) ++ [(h, i)], vars := if needs then g.vars ++ [{ input := i }] else g.vars }

/-- A subscription bound to input `i` needs a variant of its own (R276). -/
def needsOwn (g : AudGroup) (i : Nat) (s : State) : Bool := contributes (audRoom g.room s) (audIn i s) i g.chan && !hasVar g i

section
variable {r : Req} {s : State} (hn : subNamed r s) (hr : resolve .source (subAt (subNumber r) s).source s = .ok (groupNumber r s))
  (hg : (s.audio.groups.find? (groupNumber r s)).isSome = true) (hmay : mayRoom r (audGroup (groupNumber r s) s).room s = true)
include hn hr hg hmay

theorem listen_unbinds (hbit : bitOf r.w1 80 = true) :
    listenBody r s = viaWing (legAt (subAt (subNumber r) s).leg s).wing (answer (setAudGroup (groupNumber r s)
      (unbound (handleIn (fld r.w1 63 0)) (audGroup (groupNumber r s) s)) s) (okWith 0)) := by
  refine (withSub_named hn _).trans (congrArg (viaWing _) ?_)
  simp only [hr, audGroup_listed hg, hmay, hbit, Bool.not_true, Bool.false_eq_true, if_false, if_true]
  rfl

theorem listen_binds (hbit : bitOf r.w1 80 = false) (hused : (identOf .audioIn (fld r.w1 79 64) s).used = true)
    (hroom : (audIn (fld r.w1 79 64) s).room = (audGroup (groupNumber r s) s).room)
    (hslot : contributes (audRoom (audGroup (groupNumber r s) s).room s) (audIn (fld r.w1 79 64) s) (fld r.w1 79 64)
        (audGroup (groupNumber r s) s).chan = false ∨ hasVar (audGroup (groupNumber r s) s) (fld r.w1 79 64) = true ∨
      (audGroup (groupNumber r s) s).vars.length < (audGroup (groupNumber r s) s).slots) :
    listenBody r s = viaWing (legAt (subAt (subNumber r) s).leg s).wing (answer (setAudGroup (groupNumber r s)
      (boundTo (handleIn (fld r.w1 63 0)) (fld r.w1 79 64) (needsOwn (audGroup (groupNumber r s) s) (fld r.w1 79 64) s)
        (audGroup (groupNumber r s) s)) s) (okWith 0)) := by
  have hfull : ¬(needsOwn (audGroup (groupNumber r s) s) (fld r.w1 79 64) s &&
      decide ((audGroup (groupNumber r s) s).slots ≤ (audGroup (groupNumber r s) s).vars.length)) = true := by
    rw [Bool.and_eq_true, decide_eq_true_eq]
    rintro ⟨hneeds, hle⟩
    rcases hslot with h | h | h
    · simp [needsOwn, h] at hneeds
    · simp [needsOwn, h] at hneeds
    · omega
  refine (withSub_named hn _).trans (congrArg (viaWing _) ?_)
  simp only [hr, audGroup_listed hg, hmay, hbit, hused, hroom, Bool.not_true, Bool.false_eq_true, if_false, beq_self_eq_true, Bool.and_self]
  exact if_neg hfull

end

/-! ### Buses -/

/-- The OK of work is DEGRADED where `c` says so (R31). -/
theorem degradedIf_ok (c : Bool) (t : State) :
    degradedIf c (answer t (okWith 0)) = (t, some { okWith 0 with st := if c = true then stDegraded else stOk }) := by
  cases c <;> rfl

/-- The sub-buses that a setting names have a mixer, a channel and a route to the Body (R281). -/
def subsFine (w : Word128) (s : State) : Prop :=
  ∀ k, k < 2 → subOn w k = true → mixes (subRoom w k) s = true ∧ subChan w k < (audRoom (subRoom w k) s).channels ∧
    hasRoute ((audRoom (subRoom w k) s).tile / 8) 0x200 s = true

theorem subsFine_none {w : Word128} {s : State} (h : subsFine w s) {p : Nat → Bool}
    (hp : ∀ k, mixes (subRoom w k) s = true → subChan w k < (audRoom (subRoom w k) s).channels →
      hasRoute ((audRoom (subRoom w k) s).tile / 8) 0x200 s = true → p k = false) :
    ([0, 1].filter (subOn w)).any p = false := by
  rw [List.any_eq_false]
  intro k hk
  obtain ⟨hmem, hon⟩ := List.mem_filter.mp hk
  have hlt : k < 2 := by simp at hmem; omega
  obtain ⟨hmix, hchan, hroute⟩ := h k hlt hon
  simp [hp k hmix hchan hroute]

theorem busSet_holds {r : Req} {s : State} (hown : r.owner = true) (hpark : fld r.w3 15 0 ≤ 60000) (hlo : 40 ≤ fld r.w3 22 16)
    (hhi : fld r.w3 22 16 ≤ 120) (hzero : fld r.w3 63 24 = 0 ∧ fld r.w2 63 35 = 0 ∧ fld r.w2 127 99 = 0) (hsubs : subsFine r.w2 s)
    (htap : bitOf r.w3 23 = true → recordQueueRefusal r 1 (fld r.w3 127 64) s = none) :
    busSetBody r s = degradedIf (busRerouted r.w2 s)
      (answer (updAudBus (fld r.w1 3 0) (fun v => { v with set := some (r.w2, r.w3) }) s) (okWith 0)) := by
  have hmixed : ([0, 1].filter (subOn r.w2)).any (fun k => !mixes (subRoom r.w2 k) s ||
      decide ((audRoom (subRoom r.w2 k) s).channels ≤ subChan r.w2 k)) = false :=
    subsFine_none hsubs fun k hmix hchan _ => by simp [hmix, hchan]
  have hrouted : ([0, 1].filter (subOn r.w2)).any (fun k => !hasRoute ((audRoom (subRoom r.w2 k) s).tile / 8) 0x200 s) = false :=
    subsFine_none hsubs fun k _ _ hroute => by simp [hroute]
  have hqueue : (if bitOf r.w3 23 then recordQueueRefusal r 1 (fld r.w3 127 64) s else none) = none := by
    split
    next h => exact htap h
    next => rfl
  have hrange : ¬(60000 < fld r.w3 15 0 ∨ fld r.w3 22 16 < 40 ∨ 120 < fld r.w3 22 16 ∨ fld r.w3 63 24 ≠ 0 ∨ fld r.w2 63 35 ≠ 0 ∨
      fld r.w2 127 99 ≠ 0 ∨ ([0, 1].filter (subOn r.w2)).any (fun k => !mixes (subRoom r.w2 k) s ||
        decide ((audRoom (subRoom r.w2 k) s).channels ≤ subChan r.w2 k)) = true) := by
    rw [hmixed]
    simp only [Bool.false_eq_true, or_false]
    omega
  unfold busSetBody
  extract_lets b park sil subs qr
  rw [if_neg (by rw [hown]; exact Bool.false_ne_true), if_neg hrange, if_neg (by rw [show subs.any _ = false from hrouted]; exact Bool.false_ne_true),
    show qr = none from hqueue]

/-! ### What releases end -/

theorem removeMixer_ends (n : Nat) (s : State) : mixes n (removeMixer n s) = false := by
  simp [removeMixer, mixes]

theorem removeInput_ends (n : Nat) (s : State) :
    (identOf .audioIn n (removeInput n s)).used = false ∧ (removeInput n s).audio.ins.find? n = none := by
  refine ⟨?_, ?_⟩
  · rw [removeInput, identOf_releaseId]
  · simp [removeInput]

theorem removeSource_audio (i : Nat) (s : State) : (removeSource i s).audio = s.audio := by
  unfold removeSource
  extract_lets v t
  have ht : t.audio = s.audio := by
    simp only [t]
    split
    · rfl
    · simp
  exact ht

theorem removeGroup_ends (n : Nat) (s : State) :
    (identOf .source n (removeGroup n s)).used = false ∧ (removeGroup n s).audio.groups.find? n = none := by
  refine ⟨?_, ?_⟩
  · rw [removeGroup, removeSource, identOf_releaseId]
  · simp [removeGroup, removeSource_audio]

/-- Settles O46: each command by the equation of its body in the case named, the releases by what they take out of the tables. -/
theorem audioCommands : Obligations.AudioCommands := by
  refine ⟨completesSo_of exec_audRoomSetup ?setup, completes_of exec_audRoomSet ?roomSet, completes_of exec_audInSet ?inSet,
    begins_of exec_audSafeload ?safeload, completes_of exec_audRoomNotify ?notify, completes_of exec_audRoomRelease ?roomRelease,
    completes_of exec_audRoomRelease ?roomInUse, completes_of exec_audRoomRead ?roomRead, completesSo_of exec_audInAttach ?attachSource,
    completesSo_of exec_audInAttach ?attachAes, completes_of exec_audInRead ?inRead, completes_of exec_audInRelease ?inRelease,
    completesSo_of exec_audGroupCreate ?groupCreate, completes_of exec_audGroupRelease ?groupRelease, completes_of exec_audListen ?listen,
    completes_of exec_audBusSet ?busSet, completes_of exec_audBusRead ?busRead, ?ends⟩
  case setup =>
    rintro r s ⟨hz, hlo, hhi, hprof, hcfg, hnew, hmay, htile⟩
    obtain ⟨tile, htile⟩ := Option.isSome_iff_exists.mp htile
    refine ⟨_, _, (strictly_clear hz).trans (roomSetup_creates hlo hhi hprof hcfg hnew hmay htile), tile, htile, rfl, ?_,
      audRoom_setAudRoom _ _ _, fun k hk => audRoom_setAudRoom_ne _ _ _ _ hk, rfl, rfl, rfl⟩
    exact congrArg Option.isSome (Tab.find_set_same s.audio.rooms (fld r.w1 12 0) (mixerAsked r tile))
  case roomSet =>
    rintro r s ⟨hn, hz, hgain, hcfg, hsize⟩
    exact (strictly_clear hz).trans ((roomSet_writes hn hgain hcfg hsize).trans (viaWing_ok _ _))
  case inSet =>
    rintro r s ⟨hn, hz, hchan, hfeed, hpin, hsize⟩
    exact (strictly_clear hz).trans ((inSet_writes hn (inputSettings_lt hz) hchan hfeed hpin hsize).trans (viaWing_ok _ _))
  case safeload =>
    rintro r s ⟨hn, hz⟩
    exact (strictly_clear hz).trans (withMixer_named hn _)
  case notify =>
    rintro r s ⟨hn, hz⟩
    exact (strictly_clear hz).trans ((withMixer_named hn _).trans (viaWing_ok _ _))
  case roomRelease =>
    rintro r s ⟨hn, hz, hins, hgroups⟩
    exact (strictly_clear hz).trans ((roomRelease_unused hn hins hgroups).trans (viaWing_ok _ _))
  case roomInUse =>
    rintro r s ⟨hn, hused⟩
    exact strictly_refused (roomRelease_refused hn hused) rfl
  case roomRead =>
    rintro r s ⟨hn, hz⟩
    exact (strictly_clear hz).trans ((withMixer_named hn _).trans (viaWing_ok _ _))
  case attachSource =>
    rintro r s ⟨hz, haes, hr, hmay, hown, hroom, hfine, hctl, haudio, hgroup, hfwd, hjit, hload, htile, hn⟩
    obtain ⟨n, hn⟩ := Option.isSome_iff_exists.mp hn
    obtain ⟨tile, htile⟩ := Option.isSome_iff_exists.mp htile
    obtain ⟨hused, hinput, hothers, hcommitted, -, hframe⟩ := inputJoined_takes (inputAsked r s) (handleIdx (fld r.w1 63 0)) n tile s
    refine ⟨_, _, (strictly_clear hz).trans ((inAttach_source hfine hctl haes hr hmay hown hroom).trans
      (inAdmit_takes ⟨haudio, hgroup, hfwd, hjit, hload⟩ htile hn)), n, tile, hn, htile, rfl, hused,
      inputJoined_readers _ _ _ _ _, ?_, hcommitted, hothers, hframe⟩
    rw [hinput]
    simp only [inputOn, inputAsked, haes]
    rfl
  case attachAes =>
    rintro r s ⟨hz, haes, hsource, hown, hheld, hfine, hctl, hroute, hn⟩
    obtain ⟨n, hn⟩ := Option.isSome_iff_exists.mp hn
    obtain ⟨hused, hinput, hothers, -, -, hframe⟩ := inputAttached_takes (inputAsked r s) n s
    refine ⟨_, _, (strictly_clear hz).trans ((inAttach_aes hfine hctl haes hsource hown hheld hroute).trans (attachInput_takes _ hn)),
      n, hn, rfl, hused, ?_, hothers, hframe⟩
    rw [hinput]
    simp only [inputAsked, haes, hsource]
    rfl
  case inRead =>
    rintro r s ⟨hn, hz⟩
    exact (strictly_clear hz).trans ((withInput_named hn _).trans (viaWing_ok _ _))
  case inRelease =>
    rintro r s ⟨hn, hz⟩
    exact (strictly_clear hz).trans ((withInput_named hn _).trans (viaWing_ok _ _))
  case groupCreate =>
    rintro r s ⟨hn, hz, hchan, hcodec, hslots, hload, htile, hi⟩
    obtain ⟨i, hi⟩ := Option.isSome_iff_exists.mp hi
    obtain ⟨tile, htile⟩ := Option.isSome_iff_exists.mp htile
    obtain ⟨hused, hlocal, hgroup, hothers, hhandle, hframe⟩ := groupAdded_facts (groupAsked r tile s) (v := groupSource r s) rfl i s
    refine ⟨_, _, (strictly_clear hz).trans ((groupCreate_adds hn hchan hcodec hslots hload htile hi).trans (viaWing_okWith _ _ _)),
      i, tile, hi, htile, ?_, hused, hlocal, hgroup, hothers, hframe⟩
    rw [hhandle]
  case groupRelease =>
    rintro r s ⟨hz, hr, hg, hmay, hsubs⟩
    exact (strictly_clear hz).trans ((groupRelease_unread hr hg hmay hsubs).trans (viaWing_ok _ _))
  case listen =>
    rintro r s ⟨hn, hz, hr, hg, hmay, hbinds⟩
    refine (strictly_clear hz).trans ?_
    cases hbit : bitOf r.w1 80 with
    | true => exact (listen_unbinds hn hr hg hmay hbit).trans (viaWing_ok _ _)
    | false =>
      obtain ⟨hused, hroom, hslot⟩ := hbinds hbit
      exact (listen_binds hn hr hg hmay hbit hused hroom hslot).trans (viaWing_ok _ _)
  case busSet =>
    rintro r s ⟨hown, hz, hpark, hlo, hhi, hw3, hw2, hw2', hsubs, htap⟩
    exact (strictly_clear hz).trans ((busSet_holds hown hpark hlo hhi ⟨hw3, hw2, hw2'⟩ hsubs htap).trans (degradedIf_ok _ _))
  case busRead =>
    intro r s hz
    exact (strictly_clear hz).trans (degradedIf_ok _ _)
  case ends =>
    intro n s
    obtain ⟨hinput, hins⟩ := removeInput_ends n s
    exact ⟨removeMixer_ends n s, hinput, hins, removeGroup_ends n s⟩

/-! ## O47: units, mix blocks and group frames -/

theorem exec_audioDecode {i : Nat} (s : State) (h : i < 65536) : exec (.audioDecode i) s = .next (audioDecodeDo i s) :=
  onWf_of_wf (i := .audioDecode i) (decide_eq_true h)

theorem exec_mixBlockStart (s : State) : exec .mixBlockStart s = .next (mixStartDo s) := onWf_of_wf (i := .mixBlockStart) rfl

theorem exec_busPark {b : Nat} (s : State) (h : b < 16) : exec (.busPark b) s = .next (busParkDo b s) :=
  onWf_of_wf (i := .busPark b) (decide_eq_true h)

theorem exec_groupFrameCoded {i : Nat} (s : State) (h : i < 131072) : exec (.groupFrameCoded i) s = .next (groupFrameDo i s) :=
  onWf_of_wf (i := .groupFrameCoded i) (decide_eq_true h)

/-! ### Counting: an input or a bus moves by its counters alone -/

/-- From `s` to `t` nothing of the inputs moved but counters of input `i`. -/
structure InputCounted (i : Nat) (s t : State) : Prop where
  input : ∃ c, audIn i t = { audIn i s with ctrs := c }
  others : ∀ d, d ≠ i → audIn d t = audIn d s
  rooms : t.audio.rooms = s.audio.rooms
  frame : t.hq = s.hq ∧ t.dram = s.dram ∧ t.hostMem = s.hostMem

theorem InputCounted.refl (i : Nat) (s : State) : InputCounted i s s := ⟨⟨(audIn i s).ctrs, rfl⟩, fun _ _ => rfl, rfl, rfl, rfl, rfl⟩

theorem InputCounted.trans {i : Nat} {s t u : State} (h : InputCounted i s t) (h' : InputCounted i t u) : InputCounted i s u := by
  obtain ⟨⟨c, hc⟩, ho, hr, hq, hd, hm⟩ := h
  obtain ⟨⟨c', hc'⟩, ho', hr', hq', hd', hm'⟩ := h'
  exact ⟨⟨c', by rw [hc', hc]⟩, fun d hne => (ho' d hne).trans (ho d hne), hr'.trans hr, hq'.trans hq, hd'.trans hd, hm'.trans hm⟩

theorem inputCounted_inCount (i k n : Nat) (s : State) : InputCounted i s (inCount i k n s) := by
  unfold inCount
  split
  · exact .refl i s
  · exact ⟨⟨_, audIn_updAudIn _ _ _⟩, fun d hd => audIn_updAudIn_ne _ _ _ _ hd, rfl, rfl, rfl, rfl⟩

theorem inputCounted_tileCount (i tile c n : Nat) (s : State) : InputCounted i s (tileCount tile c n s) := by
  unfold tileCount
  split
  · exact .refl i s
  · exact ⟨⟨_, rfl⟩, fun _ _ => rfl, rfl, rfl, rfl, rfl⟩

/-- From `s` to `t` nothing of the buses moved but counters of bus `b`. -/
structure BusCounted (b : Nat) (s t : State) : Prop where
  bus : ∃ c, audBus b t = { audBus b s with ctrs := c }
  others : ∀ d, d ≠ b → audBus d t = audBus d s
  rooms : t.audio.rooms = s.audio.rooms

theorem busCounted_of_audio {s t : State} (h : t.audio = s.audio) (b : Nat) : BusCounted b s t := by
  have hbus (d : Nat) : audBus d t = audBus d s := by simp only [audBus, h]
  exact ⟨⟨_, hbus b⟩, fun d _ => hbus d, congrArg Audio.rooms h⟩

theorem BusCounted.trans {b : Nat} {s t u : State} (h : BusCounted b s t) (h' : BusCounted b t u) : BusCounted b s u := by
  obtain ⟨⟨c, hc⟩, ho, hr⟩ := h
  obtain ⟨⟨c', hc'⟩, ho', hr'⟩ := h'
  exact ⟨⟨c', by rw [hc', hc]⟩, fun d hne => (ho' d hne).trans (ho d hne), hr'.trans hr⟩

theorem busCounted_busCount (b k n : Nat) (s : State) : BusCounted b s (busCount b k n s) := by
  unfold busCount
  split
  · exact busCounted_of_audio rfl b
  · exact ⟨⟨_, audBus_updAudBus _ _ _⟩, fun d hd => audBus_updAudBus_ne _ _ _ _ hd, rfl⟩

/-! ### Decoding -/

theorem decodeUnit_keeps (format pt : Nat) (v : AudIn) (pl : List Byte) : (decodeUnit format pt v pl).2.units = v.units ∧
    (decodeUnit format pt v pl).2.cfg = v.cfg ∧ (decodeUnit format pt v pl).2.active = v.active := by
  unfold decodeUnit
  split_ifs <;> exact ⟨rfl, rfl, rfl⟩

theorem concealUnit_keeps (format : Nat) (v : AudIn) (next : Option (List Byte)) : (concealUnit format v next).2.1.units = v.units ∧
    (concealUnit format v next).2.1.cfg = v.cfg ∧ (concealUnit format v next).2.1.active = v.active := by
  unfold concealUnit
  split
  · cases next with
    | none => exact ⟨rfl, rfl, rfl⟩
    | some pl =>
      dsimp only
      split <;> exact ⟨rfl, rfl, rfl⟩
  · exact ⟨rfl, rfl, rfl⟩

/-- Input `w` whose samples wait in `carry` and `fifo` (R268). -/
def holding (w : AudIn) (carry : List Int) (fifo : List (List Int)) : AudIn := { w with carry := carry, fifo := fifo }

theorem pushSamples_holds (i : Nat) (xs : List Int) (s : State) : ∃ carry fifo, fifo.length ≤ 64 ∧
    InputCounted i (setAudIn i (holding (audIn i s) carry fifo) s) (pushSamples i xs s) := by
  unfold pushSamples
  extract_lets v ys r fifo exceeds
  refine ⟨r.2, fifo.drop exceeds, ?_, inputCounted_inCount i 3 exceeds _⟩
  rw [List.length_drop]
  omega

/-- What AUDIO_DECODE of input `i` leaves: the input `w` with its samples in the FIFO, counters, and nothing else (R267, R268). -/
theorem pushSamples_after {i : Nat} {w : AudIn} {s u : State} (xs : List Int) (h : InputCounted i (setAudIn i w s) u) :
    let t := pushSamples i xs u
    (audIn i t).units = w.units ∧ (audIn i t).lastExt = w.lastExt ∧ (audIn i t).fifo.length ≤ 64 ∧ (audIn i t).cfg = w.cfg ∧
      (audIn i t).active = w.active ∧ (∀ d, d ≠ i → audIn d t = audIn d s) ∧ t.audio.rooms = s.audio.rooms ∧
      t.hq = s.hq ∧ t.dram = s.dram ∧ t.hostMem = s.hostMem := by
  obtain ⟨carry, fifo, hlen, ⟨c, hin⟩, ho, hr, hq, hd, hm⟩ := pushSamples_holds i xs u
  obtain ⟨⟨c', hin'⟩, ho', hr', hq', hd', hm'⟩ := h
  rw [audIn_setAudIn] at hin hin'
  rw [hin'] at hin
  intro t
  rw [show audIn i t = _ from hin]
  refine ⟨rfl, rfl, hlen, rfl, rfl, fun d hne => ?_, hr.trans hr', hq.trans hq', hd.trans hd', hm.trans hm'⟩
  rw [ho d hne, audIn_setAudIn_ne _ _ _ _ hne, ho' d hne, audIn_setAudIn_ne _ _ _ _ hne]

/-- The unit at the front is decoded or concealed into samples, which the FIFO takes; the decoder `w` after it continues from the unit's
packet, or from none (R267, R268). -/
theorem audioDecodeDo_pushes {i k : Nat} {u : AudUnit} {rest : List AudUnit} {s : State} (hused : (identOf .audioIn i s).used = true)
    (hhold : s.body.hold = false) (hunits : (audIn i s).units = u :: rest) (hr : resolve .source (audIn i s).source s = .ok k) :
    ∃ xs w v, audioDecodeDo i s = pushSamples i xs v ∧ InputCounted i (setAudIn i w s) v ∧ w.units = rest ∧
      w.lastExt = u.pkt.map (·.ext) ∧ w.cfg = (audIn i s).cfg ∧ w.active = (audIn i s).active := by
  have hgo : ¬(!(identOf .audioIn i s).used || s.body.hold) = true := by simp [hused, hhold]
  obtain ⟨pkt, next⟩ := u
  unfold audioDecodeDo
  extract_lets v
  rw [show v.units = ⟨pkt, next⟩ :: rest from hunits, show resolve .source v.source s = .ok k from hr]
  dsimp -zeta only
  rw [if_neg hgo]
  extract_lets +onlyGivenNames x v1
  cases pkt with
  | some p =>
    dsimp -zeta only
    extract_lets gap r ys w v2
    obtain ⟨hunits, hcfg, hactive⟩ := decodeUnit_keeps x.format x.pt v1 (rtpPayload p.bytes)
    refine ⟨_, v2, _, rfl, ?_, hunits, rfl, hcfg, hactive⟩
    exact (inputCounted_tileCount _ _ _ _ _).trans (inputCounted_inCount _ _ _ _)
  | none =>
    dsimp -zeta only
    extract_lets r ys w v2
    obtain ⟨hunits, hcfg, hactive⟩ := concealUnit_keeps x.format v1 next
    refine ⟨_, v2, _, rfl, ?_, hunits, rfl, hcfg, hactive⟩
    exact (inputCounted_inCount _ _ _ _).trans ((inputCounted_tileCount _ _ _ _ _).trans (inputCounted_inCount _ _ _ _))

/-! ### Mix blocks -/

/-- The number of the mix block in which the state lies (R263). -/
abbrev blockNow (s : State) : Nat := cmpNow s / 1000000

theorem mixDue_taken {s : State} (h : s.audio.last = some (blockNow s)) : mixDue s = none := if_pos h

theorem mixDue_due {s : State} (h : s.audio.last ≠ some (blockNow s)) : mixDue s = some (blockNow s) := if_neg h

theorem mixStartDo_taken {s : State} (h : s.audio.last = some (blockNow s)) : mixStartDo s = s := by
  rw [mixStartDo, mixDue_taken h]

/-- Block `k` is taken (R263). -/
def blockTaken (k : Nat) (s : State) : State := { s with audio := { s.audio with last := some k } }

theorem mixStartDo_held {s : State} (h : s.audio.last ≠ some (blockNow s)) (hhold : s.body.hold = true) :
    mixStartDo s = blockTaken (blockNow s) s := by
  rw [mixStartDo, mixDue_due h]
  exact if_pos hhold

/-- Every core of a live tile hears of the block (R303). -/
def blockHeard (s : State) : State :=
  { s with dsp := { s.dsp with cores := s.dsp.cores.mapVals (fun t c => if dspLive (t / 4) s then raiseBlock c else c) } }

theorem blockHeard_keeps (s : State) : (blockHeard s).audio = s.audio ∧ (blockHeard s).aes = s.aes := ⟨rfl, rfl⟩

theorem mixStartDo_due {s : State} (h : s.audio.last ≠ some (blockNow s)) (hhold : s.body.hold = false) :
    mixStartDo s = blockHeard (mixBlock (blockNow s) (blockTaken (blockNow s) s)) := by
  have hgo : ¬s.body.hold = true := by rw [hhold]; exact Bool.false_ne_true
  rw [mixStartDo, mixDue_due h]
  exact if_neg hgo

theorem clamp24_range (x : Int) : -8388608 ≤ clamp24 x ∧ clamp24 x ≤ 8388607 := by
  unfold clamp24 clampInt
  split_ifs <;> omega

theorem commonMix_length (v : AudRoom) (ms : List MixIn) (c : Nat) : (commonMix v ms c).1.length = 48 := by
  rw [commonMix, sat24, List.length_map, List.length_map, List.length_range]

theorem commonMix_range (v : AudRoom) (ms : List MixIn) (c : Nat) : ∀ x ∈ (commonMix v ms c).1, -8388608 ≤ x ∧ x ≤ 8388607 := by
  intro x hx
  obtain ⟨y, -, rfl⟩ := List.mem_map.mp hx
  exact clamp24_range y

/-- The accumulator of no inputs is 0, and 0 rounds to 0 (R272). -/
theorem commonMix_silent (v : AudRoom) (c : Nat) : (commonMix v [] c).1 = List.replicate 48 0 := by
  have hzero (n : Nat) : mixRound (accAt [] c (floorAt v c n) n) = 0 := by rw [show accAt [] c (floorAt v c n) n = 0 from rfl]; decide
  simp only [commonMix, hzero]
  decide

/-! ### Parking buses -/

theorem parkOut_audio (o : Nat) (s : State) : (parkOut o s).audio = s.audio := by
  unfold parkOut
  split <;> rfl

theorem busCounted_tapPush (b k : Nat) (xs : List (Int × Int)) (parked : Bool) (s : State) : BusCounted b s (tapPush b k xs parked s) := by
  unfold tapPush
  extract_lets v flat words w0 r
  have hpushed : BusCounted b s r.2 := busCounted_of_audio (by simp [r]) b
  split
  · exact busCounted_of_audio rfl b
  · split
    · exact hpushed
    · exact hpushed.trans (busCounted_busCount b 3 1 r.2)

/-- A bus that has just parked (R282). -/
def busParked (b : Nat) (s : State) : State := setAudBus b { audBus b s with parked := true } s

theorem busParkDo_parks {b : Nat} {s : State} (hhold : s.body.hold = false) (hpark : (audBus b s).parked = false)
    (hms : (audBus b s).parkMs ≠ 0) (hsil : (audBus b s).parkMs ≤ (audBus b s).silent) :
    BusCounted b (busParked b s) (busParkDo b s) := by
  have hgo : ¬(s.body.hold || (audBus b s).parked || (audBus b s).parkMs == 0 || decide ((audBus b s).silent < (audBus b s).parkMs)) = true := by
    simp [hhold, hpark, hms, hsil]
  rw [busParkDo, if_neg hgo]
  exact ((busCounted_busCount _ _ _ _).trans (busCounted_tapPush _ _ _ _ _)).trans (busCounted_of_audio (parkOut_audio _ _) b)

theorem busParkDo_sounding {b : Nat} {s : State} (h : (audBus b s).silent < (audBus b s).parkMs) : busParkDo b s = s :=
  if_pos (by simp [h])

/-- Settles O47: a unit by what its decoding pushes, a block start by whether its block is due, a mix by its 48 saturated sums, a bus by
what parking leaves, a group frame by the operation's own equation. -/
theorem audioBlocks : Obligations.AudioBlocks := by
  refine ⟨?decode, ?taken, ?due, ?held, fun v ms c => ⟨commonMix_length v ms c, commonMix_range v ms c, ?silent⟩, ?parks, ?sounding, ?frame⟩
  case decode =>
    intro i k u rest s hi hused hhold hunits hr
    obtain ⟨xs, w, v, hdo, hcounted, hrest, hext, hcfg, hactive⟩ := audioDecodeDo_pushes hused hhold hunits hr
    refine ⟨_, exec_audioDecode s hi, ?_⟩
    rw [hdo, ← hrest, ← hext, ← hcfg, ← hactive]
    exact pushSamples_after xs hcounted
  case taken =>
    intro s h
    rw [exec_mixBlockStart, mixStartDo_taken h]
  case due =>
    intro s h hhold k
    refine ⟨_, exec_mixBlockStart s, ?_⟩
    rw [mixStartDo_due h hhold]
    exact blockHeard_keeps _
  case held =>
    intro s h hhold
    rw [exec_mixBlockStart, mixStartDo_held h hhold]
    rfl
  case silent =>
    rintro rfl
    exact commonMix_silent v c
  case parks =>
    intro b s hb hhold hpark hms hsil
    obtain ⟨⟨c, hbus⟩, hothers, hrooms⟩ := busParkDo_parks hhold hpark hms hsil
    rw [busParked, audBus_setAudBus] at hbus
    refine ⟨_, exec_busPark s hb, ?_, ?_, ?_, fun d hd => (hothers d hd).trans (audBus_setAudBus_ne _ _ _ _ hd), hrooms⟩ <;> rw [hbus]
  case sounding =>
    intro b s hb h
    rw [exec_busPark s hb, busParkDo_sounding h]
  case frame =>
    intro i g x rest s hi hg hdone hhold
    rw [exec_groupFrameCoded s hi, groupFrameDo, hg]
    dsimp -zeta only
    rw [hdone]
    dsimp -zeta only
    rw [if_neg (by rw [hhold]; exact Bool.false_ne_true)]
    rfl

end Sys2Proof
end

section
/-! PROOFS. The statements of the DSP core: memory accesses, data instructions and control (R287-R308). -/

namespace Sys2Proof

open Machine

/-! ## The rows of the DSP instructions -/

/-- The rows with their opcodes and bodies (R301). -/
def dspMeanings : List ((Nat → Nat → Instr) × Nat × (Nat → Nat → DspBody)) :=
  [(.dspNop, 0x00, fun _ _ => dspNopI), (.dspBr, 0x01, fun _ _ => dspBrI), (.dspCall, 0x02, fun _ _ => dspCallI),
   (.dspRet, 0x03, fun _ _ => dspRetI), (.dspReti, 0x04, fun _ _ => dspRetiI), (.dspLoop, 0x05, fun _ _ => dspLoopI),
   (.dspWait, 0x06, fun _ _ => dspWaitI), (.dspHalt, 0x07, fun _ _ => dspHaltI), (.mvls, 0x08, fun _ _ => dspMvlsI),
   (.mvsl, 0x09, fun _ _ => dspMvslI), (.mvsv, 0x0A, dspMvsvI), (.mvvs, 0x0B, dspMvvsI), (.vld, 0x10, fun t _ => dspVldI t),
   (.vst, 0x11, fun t _ => dspVstI t), (.vldb, 0x12, fun t _ => dspVldbI t), (.pset, 0x18, fun _ _ => dspPsetI),
   (.pseth, 0x19, fun _ _ => dspPsethI), (.padd, 0x1A, fun _ _ => dspPaddI), (.valu, 0x20, fun _ _ => dspValuI),
   (.vmac, 0x30, fun _ _ => dspMac 0), (.vmsu, 0x31, fun _ _ => dspMac 1), (.vmul, 0x32, fun _ _ => dspMac 2),
   (.ftap, 0x33, fun t _ => dspFtapI t), (.accrnd, 0x38, fun _ _ => dspAccrndI), (.accclr, 0x39, fun _ _ => dspAccclrI),
   (.accsv, 0x3A, fun _ _ => dspAccsvI), (.accld, 0x3B, fun _ _ => dspAccldI), (.acccpy, 0x3C, fun _ _ => dspAcccpyI)]

theorem dspMeanings_rows : dspMeanings.map (fun m => (m.1, m.2.1)) = dspRows := rfl

theorem dspMeanings_opcodes : dspMeanings.map (fun m => m.2.1) = dspOpcodes := rfl

/-- Each row is the issue of its body. -/
theorem exec_dsp {m : (Nat → Nat → Instr) × Nat × (Nat → Nat → DspBody)} (hm : m ∈ dspMeanings) {t c : Nat} (s : State) (ht : t < 512)
    (hc : c < 4) : exec (m.1 t c) s = .next (dspIssue m.2.1 (m.2.2 t c) t c s) := by
  have hwf : (decide (t < 512) && decide (c < 4)) = true := by simp [ht, hc]
  simp only [dspMeanings, List.mem_cons, List.not_mem_nil, or_false] at hm
  rcases hm with rfl | rfl | rfl | rfl | rfl | rfl | rfl | rfl | rfl | rfl | rfl | rfl | rfl | rfl | rfl | rfl | rfl | rfl | rfl | rfl | rfl |
    rfl | rfl | rfl | rfl | rfl | rfl | rfl <;> exact if_pos hwf

theorem opcode_listed {m : (Nat → Nat → Instr) × Nat × (Nat → Nat → DspBody)} (hm : m ∈ dspMeanings) : dspOpcodes.contains m.2.1 = true := by
  rw [← dspMeanings_opcodes, List.contains_iff_mem]
  exact List.mem_map_of_mem hm

section
variable {i : Nat → Nat → Instr} {op : Nat} {body : Nat → Nat → DspBody} {pre : Nat → Nat → BitVec 32 → DspCore → State → Prop}

/-- A row whose body is done issues with what the body gave. -/
theorem issues_row {post : Nat → Nat → BitVec 32 → DspCore → State → State × DspCore × DspFlow}
    (hb : ∀ tile core w c s, pre tile core w c s →
      body tile core w c s = ((post tile core w c s).1, .done (post tile core w c s).2.1 (post tile core w c s).2.2))
    (hm : (i, op, body) ∈ dspMeanings := by simp [dspMeanings]) : Issues i op pre post :=
  issues_of body (fun _ _ s => exec_dsp hm s) (opcode_listed hm) (fun tile core w c s _ => hb tile core w c s)

/-- A row whose body faults has no effect but the fault. -/
theorem faults_row {code : Nat} (hb : ∀ tile core w c s, pre tile core w c s → body tile core w c s = (s, .fault code))
    (hm : (i, op, body) ∈ dspMeanings := by simp [dspMeanings]) : Faults i op pre code :=
  faults_of body (fun _ _ s => exec_dsp hm s) (opcode_listed hm) (fun tile core w c s _ => hb tile core w c s)

end

/-! ## O59: memory accesses -/

theorem inWindow_iff (a n : Nat) (c : DspCore) : c.inWindow a n = true ↔ c.base ≤ a ∧ a + n ≤ c.base + c.size := by
  simp [DspCore.inWindow]

theorem modified_straight {n : Nat} {c : DspCore} (m : Int) (h : 8 ≤ n ∨ c.l.getD n 0 = 0) :
    c.modified n m = c.pr n + BitVec.ofInt 32 m := by
  have hflat : ¬(n < 8 ∧ c.l.getD n 0 ≠ 0) := fun ⟨hn, hl⟩ => h.elim (fun hge => absurd hn (by omega)) hl
  rw [DspCore.modified, if_neg hflat, BitVec.ofInt_add, BitVec.ofInt_natCast, BitVec.ofNat_toNat, BitVec.setWidth_eq]

theorem modified_ring {n : Nat} {c : DspCore} (m : Int) (hn : n < 8) (hl : c.l.getD n 0 ≠ 0) :
    c.modified n m = BitVec.ofInt 32 (
      if ((c.b.getD n 0).toNat : Int) + (c.l.getD n 0).toNat ≤ (c.pr n).toNat + m then (c.pr n).toNat + m - (c.l.getD n 0).toNat
      else if ((c.pr n).toNat : Int) + m < (c.b.getD n 0).toNat then (c.pr n).toNat + m + (c.l.getD n 0).toNat
      else (c.pr n).toNat + m) := if_pos ⟨hn, hl⟩

/-- An address of 32 bits is kept as it is. -/
theorem toNat_ofInt_of_range {x : Int} (h0 : 0 ≤ x) (h1 : x < 2 ^ 32) : ((BitVec.ofInt 32 x).toNat : Int) = x := by
  rw [BitVec.toNat_ofInt, Int.toNat_of_nonneg (Int.emod_nonneg _ (by decide))]
  exact Int.emod_eq_of_lt h0 (by simpa using h1)

theorem modified_inside {n : Nat} {m : Int} {c : DspCore} (hn : n < 8) (hl : c.l.getD n 0 ≠ 0)
    (hfit : (c.b.getD n 0).toNat + (c.l.getD n 0).toNat ≤ 2 ^ 32) (hlo : (c.b.getD n 0).toNat ≤ (c.pr n).toNat)
    (hhi : (c.pr n).toNat < (c.b.getD n 0).toNat + (c.l.getD n 0).toNat) (hm : -((c.l.getD n 0).toNat : Int) ≤ m)
    (hm' : m ≤ (c.l.getD n 0).toNat) :
    (c.b.getD n 0).toNat ≤ (c.modified n m).toNat ∧ (c.modified n m).toNat < (c.b.getD n 0).toNat + (c.l.getD n 0).toNat := by
  rw [modified_ring m hn hl]
  generalize c.pr n = p at *
  generalize c.b.getD n 0 = b at *
  generalize c.l.getD n 0 = l at *
  have hkept := @toNat_ofInt_of_range
  split_ifs with hover hunder
  · have := hkept (x := p.toNat + m - l.toNat) (by omega) (by omega)
    omega
  · have := hkept (x := p.toNat + m + l.toNat) (by omega) (by omega)
    omega
  · have := hkept (x := p.toNat + m) (by omega) (by omega)
    omega

section
variable {tile : Nat} {w : BitVec 32} {c : DspCore}

theorem dspVld_inside (s : State) (h : c.inWindow (vecAddr (c.pr (fld w 20 17))) 16 = true) :
    dspVldI tile w c s = (s, .done ((c.send 2 (.v (fld w 25 21)) (leNat ((sramOf tile s).readBytes (vecAddr (c.pr (fld w 20 17))) 16))).send 1
      (.p (fld w 20 17)) (c.modified (fld w 20 17) (dspMod w)).toNat) .seq) := if_neg (by simp [h])

theorem dspVld_outside (s : State) (h : c.inWindow (vecAddr (c.pr (fld w 20 17))) 16 = false) : dspVldI tile w c s = (s, .fault faultWindow) :=
  if_pos (by simp [h])

theorem dspVst_inside (s : State) (h : c.inWindow (vecAddr (c.pr (fld w 20 17))) 16 = true) :
    dspVstI tile w c s = (setSram tile ((sramOf tile s).writeBytes (vecAddr (c.pr (fld w 20 17))) (bytesOf128 (c.vr (fld w 25 21)))) s,
      .done (c.send 1 (.p (fld w 20 17)) (c.modified (fld w 20 17) (dspMod w)).toNat) .seq) := if_neg (by simp [h])

theorem dspVst_outside (s : State) (h : c.inWindow (vecAddr (c.pr (fld w 20 17))) 16 = false) : dspVstI tile w c s = (s, .fault faultWindow) :=
  if_pos (by simp [h])

theorem dspVldb_inside (s : State) (h : c.inWindow (wordAddr (c.pr (fld w 20 17))) 4 = true) :
    dspVldbI tile w c s = (s, .done ((c.send 2 (.v (fld w 25 21))
      (leNat ((sramOf tile s).readBytes (wordAddr (c.pr (fld w 20 17))) 4) * (1 + 2 ^ 32 + 2 ^ 64 + 2 ^ 96))).send 1
      (.p (fld w 20 17)) (c.modified (fld w 20 17) (dspMod w)).toNat) .seq) := if_neg (by simp [h])

theorem dspVldb_outside (s : State) (h : c.inWindow (wordAddr (c.pr (fld w 20 17))) 4 = false) : dspVldbI tile w c s = (s, .fault faultWindow) :=
  if_pos (by simp [h])

end

/-- Settles O59: each access by whether its bytes lie in the window, the new pointer by whether it runs in a ring. -/
theorem dspMemoryAccesses : Obligations.DspMemoryAccesses := by
  refine ⟨issues_row (body := fun t _ => dspVldI t) fun _ _ _ _ s h => dspVld_inside s h,
    issues_row (body := fun t _ => dspVstI t) fun _ _ _ _ s h => dspVst_inside s h,
    issues_row (body := fun t _ => dspVldbI t) fun _ _ _ _ s h => dspVldb_inside s h,
    faults_row (body := fun t _ => dspVldI t) fun _ _ _ _ s h => dspVld_outside s h,
    faults_row (body := fun t _ => dspVstI t) fun _ _ _ _ s h => dspVst_outside s h,
    faults_row (body := fun t _ => dspVldbI t) fun _ _ _ _ s h => dspVldb_outside s h,
    inWindow_iff, fun n m c h => modified_straight m h, fun n m c hn hl => modified_ring m hn hl,
    fun n m c hn hl hfit hlo hhi hm hm' => modified_inside hn hl hfit hlo hhi hm hm', ?example_⟩
  intro c hp hb hl
  have hring : c.l.getD 1 0 ≠ 0 := by rw [hl]; decide
  rw [modified_ring 16 (by decide) hring, hp, hb, hl]
  decide

end Sys2Proof
end

section
/-! PROOFS. The moves and the pointer, vector and accumulator instructions of a DSP core (R289-R303). -/

namespace Sys2Proof

open Machine

/-! ## O58: what an issue whose word is known does -/

theorem dspIssue_done {op tile core : Nat} {body : DspBody} {w : BitVec 32} {c d : DspCore} {f : DspFlow} {s t : State}
    (hr : dspReady op tile core w c s) (hop : dspOpcodes.contains op = true) (hb : body w c s = (t, .done d f)) :
    dspIssue op body tile core s = setDspCore tile core (afterIssue c.pc d f) t := by
  obtain ⟨-, -, hcore, hlive, hrun, hirq, rfl, rfl, hlegal⟩ := hr
  simp only [dspIssue, hcore, hlive, hrun, hirq, hlegal, hb, hop]
  simp

theorem dspIssue_stall {op tile core : Nat} {body : DspBody} {w : BitVec 32} {c : DspCore} {s t : State}
    (hr : dspReady op tile core w c s) (hop : dspOpcodes.contains op = true) (hb : body w c s = (t, .stall)) :
    dspIssue op body tile core s = s := by
  obtain ⟨-, -, hcore, hlive, hrun, hirq, rfl, rfl, hlegal⟩ := hr
  simp only [dspIssue, hcore, hlive, hrun, hirq, hlegal, hb, hop]
  simp

/-! ### Special registers and mailboxes -/

theorem ofNat_mod_word (x : Nat) : BitVec.ofNat 32 (x % 2 ^ 32) = BitVec.ofNat 32 x :=
  BitVec.eq_of_toNat_eq (by simp)

theorem specialRead_readable {i : Nat} (tile core : Nat) (c : DspCore) (s : State) (h : i < 9) : specialRead tile core i c s =
    some ([c.status.toNat, c.ovf.toNat, c.ipc.toNat, c.istat.toNat, tile + core * 512, s.audio.last.getD 0 % 2 ^ 32,
      (c.mail.headD 0).toNat, c.lsp, c.ipend.toNat].getD i 0) := by
  interval_cases i <;> rfl

theorem specialRead_writeOnly {i : Nat} (tile core : Nat) (c : DspCore) (s : State) (h : 9 ≤ i) : specialRead tile core i c s = none := by
  unfold specialRead
  iterate 9 rw [if_neg (by omega)]

theorem dspMvsv_reads (tile core : Nat) {w : BitVec 32} (c : DspCore) (s : State) (h : fld w 20 16 < 9) :
    dspMvsvI tile core w c s = (s, .done ({ c with mail := if fld w 20 16 = 6 then c.mail.drop 1 else c.mail }.send 1 (.v (fld w 25 21))
      ([c.status.toNat, c.ovf.toNat, c.ipc.toNat, c.istat.toNat, tile + core * 512, s.audio.last.getD 0 % 2 ^ 32,
        (c.mail.headD 0).toNat, c.lsp, c.ipend.toNat].getD (fld w 20 16) 0)) .seq) := by
  simp only [dspMvsvI, specialRead_readable tile core c s h]
  split_ifs <;> rfl

theorem dspMvsv_free (tile core : Nat) {w : BitVec 32} (c : DspCore) (s : State) (h : 9 ≤ fld w 20 16) :
    dspMvsvI tile core w c s = ((fresh s).2, .done (c.send 1 (.v (fld w 25 21)) (Config.free (fresh s).1 % 2 ^ 32)) .seq) := by
  have hpop : fld w 20 16 ≠ 6 := by omega
  simp only [dspMvsvI, specialRead_writeOnly tile core c s h, if_neg hpop]

theorem dspMvvs_flags (tile core : Nat) {w : BitVec 32} (c : DspCore) (s : State) (h : fld w 20 16 = 1) :
    dspMvvsI tile core w c s = (s, .done ({ c with ovfNow := c.ovfNow &&& ~~~ BitVec.ofNat 32 (c.vr (fld w 25 21)).toNat }.send 2 .ovf
      (c.ovfNow &&& ~~~ BitVec.ofNat 32 (c.vr (fld w 25 21)).toNat).toNat) .seq) := by
  simp only [dspMvvsI, if_pos h, ofNat_mod_word]

theorem dspMvvs_special (tile core : Nat) {w : BitVec 32} (c : DspCore) (s : State) (h : fld w 20 16 < 9) (h1 : fld w 20 16 ≠ 1) :
    dspMvvsI tile core w c s = (s, .done (c.send 2 (.special (fld w 20 16)) ((c.vr (fld w 25 21)).toNat % 2 ^ 32)) .seq) := by
  have hbox : ¬9 ≤ fld w 20 16 := by omega
  simp only [dspMvvsI, if_neg h1, if_neg hbox]

section
variable {tile core : Nat} {w : BitVec 32} {c d : DspCore} {s : State}

theorem dspMvvs_own (h : fld w 20 16 = 9 + core) (hroom : c.mail.length < 4) :
    dspMvvsI tile core w c s = (s, .done (pushMail (BitVec.ofNat 32 (c.vr (fld w 25 21)).toNat) c) .seq) := by
  have hflags : fld w 20 16 ≠ 1 := by omega
  have hbox : 9 ≤ fld w 20 16 := by omega
  have hmine : fld w 20 16 - 9 = core := by omega
  simp only [dspMvvsI, if_neg hflags, if_pos hbox, hmine, if_true, if_neg (Nat.not_le.mpr hroom), ofNat_mod_word]

theorem dspMvvs_other (h : 9 ≤ fld w 20 16) (hother : fld w 20 16 ≠ 9 + core) (hd : dspCore? tile (fld w 20 16 - 9) s = some d)
    (hroom : d.mail.length < 4) : dspMvvsI tile core w c s =
      (setDspCore tile (fld w 20 16 - 9) (pushMail (BitVec.ofNat 32 (c.vr (fld w 25 21)).toNat) d) s, .done c .seq) := by
  have hflags : fld w 20 16 ≠ 1 := by omega
  have hmine : fld w 20 16 - 9 ≠ core := by omega
  simp only [dspMvvsI, if_neg hflags, if_pos h, if_neg hmine, hd, if_neg (Nat.not_le.mpr hroom), ofNat_mod_word]

/-- A full mailbox holds the core, its own mailbox too. -/
theorem dspMvvs_full (h : 9 ≤ fld w 20 16) (hc : dspCore? tile core s = some c) (hd : dspCore? tile (fld w 20 16 - 9) s = some d)
    (hfull : 4 ≤ d.mail.length) : dspMvvsI tile core w c s = (s, .stall) := by
  have hflags : fld w 20 16 ≠ 1 := by omega
  simp only [dspMvvsI, if_neg hflags, if_pos h]
  by_cases hmine : fld w 20 16 - 9 = core
  · have hsame : d = c := by rw [hmine, hc] at hd; exact (Option.some.inj hd).symm
    rw [hsame] at hfull
    simp only [if_pos hmine, if_pos hfull]
  · simp only [if_neg hmine, hd, if_pos hfull]

end

/-! ### Lanes -/

theorem laneU_eq {n : Nat} (v : BitVec n) (w i : Nat) : laneU v w i = v.toNat / 2 ^ (w * i) % 2 ^ w := by
  rw [laneU, Nat.shiftRight_eq_div_pow]

theorem toTwos_lt (n : Nat) (v : Int) : toTwos n v < 2 ^ n := by
  have h := Int.emod_lt_of_pos v (b := ((2 ^ n : Nat) : Int)) (by positivity)
  have h0 := Int.emod_nonneg v (b := ((2 ^ n : Nat) : Int)) (by positivity)
  rw [toTwos]
  omega

theorem fromLanes_lt (w : Nat) (xs : List Int) : fromLanes w xs < 2 ^ (w * xs.length) := by
  induction xs with
  | nil => simp [fromLanes]
  | cons x r ih =>
    have hx := toTwos_lt w x
    calc toTwos w x + 2 ^ w * fromLanes w r < 2 ^ w + 2 ^ w * fromLanes w r := by omega
      _ = 2 ^ w * (fromLanes w r + 1) := by ring
      _ ≤ 2 ^ w * 2 ^ (w * r.length) := Nat.mul_le_mul_left _ ih
      _ = 2 ^ (w * (r.length + 1)) := by rw [← pow_add]; ring_nf

theorem fromLanes_lane (w : Nat) (xs : List Int) (i : Nat) (h : i < xs.length) : fromLanes w xs / 2 ^ (w * i) % 2 ^ w = toTwos w (xs.getD i 0) := by
  induction xs generalizing i with
  | nil => exact absurd h (Nat.not_lt_zero _)
  | cons x r ih =>
    cases i with
    | zero => simp [fromLanes, Nat.mod_eq_of_lt (toTwos_lt w x)]
    | succ j =>
      have hstep : fromLanes w (x :: r) / 2 ^ w = fromLanes w r := by
        rw [fromLanes, Nat.add_mul_div_left _ _ (Nat.two_pow_pos w), Nat.div_eq_of_lt (toTwos_lt w x), Nat.zero_add]
      rw [show w * (j + 1) = w + w * j by ring, pow_add, ← Nat.div_div_eq_div_mul, hstep]
      exact ih j (Nat.lt_of_succ_lt_succ h)

/-- A value of `n` signed bits keeps its sign through the register. -/
theorem ofTwos_toTwos {n : Nat} {v : Int} (hn : 1 ≤ n) (hlo : -(2 ^ (n - 1) : Int) ≤ v) (hhi : v < (2 ^ (n - 1) : Int)) :
    ofTwos n (toTwos n v) = v := by
  obtain ⟨m, rfl⟩ : ∃ m, n = m + 1 := ⟨n - 1, by omega⟩
  rw [Nat.add_sub_cancel] at hlo hhi
  have hpow : (2 : Nat) ^ (m + 1) = 2 ^ m + 2 ^ m := by ring
  have hcast : ((2 ^ m : Nat) : Int) = 2 ^ m := by push_cast; rfl
  rw [ofTwos, Nat.mod_eq_of_lt (toTwos_lt _ _), toTwos, Nat.add_sub_cancel]
  rcases lt_or_ge v 0 with hneg | hpos
  · have hmod : v % ((2 ^ (m + 1) : Nat) : Int) = v + ((2 ^ (m + 1) : Nat) : Int) := by
      rw [← Int.add_emod_right, Int.emod_eq_of_lt (by omega) (by omega)]
    rw [hmod, if_neg (by omega)]
    omega
  · rw [Int.emod_eq_of_lt hpos (by omega), if_pos (by omega)]
    omega

theorem satBits_range {n : Nat} (v : Int) (_hn : 1 ≤ n) : -(2 ^ (n - 1) : Int) ≤ (satBits n v).1 ∧ (satBits n v).1 < (2 ^ (n - 1) : Int) ∧
    ((satBits n v).2 = false ↔ (satBits n v).1 = v) := by
  have hpos : (0 : Int) < 2 ^ (n - 1) := by positivity
  simp only [satBits, clampInt, Bool.or_eq_false_iff, decide_eq_false_iff_not]
  split_ifs <;> omega

section
variable {w : BitVec 32}

theorem laneBits_eq (b : Bool) : laneBits b = if b = true then 16 else 32 := rfl

theorem laneCount_eq (b : Bool) : 128 / laneBits b = laneCount b := by cases b <;> rfl

/-- The functions of VALU in the order of FN (R301). -/
theorem valuLane_listed {fn sh bits x y : Nat} (h : fn ≤ 11) : valuLane fn sh bits x y =
    ([(ofTwos bits x + ofTwos bits y, false), (ofTwos bits x - ofTwos bits y, false), satBits bits (ofTwos bits x + ofTwos bits y),
      satBits bits (ofTwos bits x - ofTwos bits y), (min (ofTwos bits x) (ofTwos bits y), false),
      (max (ofTwos bits x) (ofTwos bits y), false), (((x &&& y : Nat) : Int), false), (((x ||| y : Nat) : Int), false),
      (((x ^^^ y : Nat) : Int), false), (((x * 2 ^ sh : Nat) : Int), false), (ofTwos bits x / (2 ^ sh : Nat), false),
      ((x : Int), false)] : List (Int × Bool)).getD fn (0, false) := by
  interval_cases fn <;> rfl

theorem dspIllegal_valu (hop : fld w 31 26 = 0x20) (h : dspIllegal w = false) : fld w 10 7 ≤ 11 := by
  simpa [dspIllegal, hop] using h

theorem dspIllegal_accrnd (hop : fld w 31 26 = 0x38) (h : dspIllegal w = false) : fld w 18 17 ≠ 3 := by
  intro h3
  simp [dspIllegal, hop, h3] at h

end

/-! ### Multiplying -/

/-- The lanes of an accumulator fill it. -/
theorem laneS_fromLanes {b : Bool} {xs : List Int} (hxs : xs.length = laneCount b) {i : Nat} (hi : i < laneCount b) :
    laneS (BitVec.ofNat 288 (fromLanes (accBitsOf b) xs)) (accBitsOf b) i = ofTwos (accBitsOf b) (toTwos (accBitsOf b) (xs.getD i 0)) := by
  have hfull : accBitsOf b * xs.length = 288 := by rw [hxs]; cases b <;> rfl
  have hfit := fromLanes_lt (accBitsOf b) xs
  rw [hfull] at hfit
  rw [laneS, laneU_eq, BitVec.toNat_ofNat, Nat.mod_eq_of_lt hfit, fromLanes_lane _ _ _ (by rw [hxs]; exact hi)]

theorem macLanes_lane (mode sign : Nat) (b : Bool) (a : BitVec 288) (x y : Word128) {i : Nat} (hi : i < laneCount b) :
    laneS (macLanes mode sign b a x y).1 (accBitsOf b) i = (satBits (accBitsOf b)
      (if mode = 0 then laneS a (accBitsOf b) i + laneProduct sign b x y i
       else if mode = 1 then laneS a (accBitsOf b) i - laneProduct sign b x y i else laneProduct sign b x y i)).1 := by
  have hbits : 1 ≤ accBitsOf b := by cases b <;> decide
  have hlen : i < (List.range (laneCount b)).length := by rw [List.length_range]; exact hi
  rw [macLanes, laneS_fromLanes (by simp) hi]
  simp only [List.getD_eq_getElem?_getD, List.getElem?_map, List.getElem?_eq_getElem hlen, List.getElem_range, Option.map_some, Option.getD_some]
  obtain ⟨hlo, hhi, -⟩ := satBits_range (n := accBitsOf b) (if mode = 0 then laneS a (accBitsOf b) i + laneProduct sign b x y i
    else if mode = 1 then laneS a (accBitsOf b) i - laneProduct sign b x y i else laneProduct sign b x y i) hbits
  exact ofTwos_toTwos hbits hlo hhi

theorem bytesOf128_read (m : Mem) (a : Nat) : bytesOf128 (BitVec.ofNat 128 (leNat (m.readBytes a 16))) = m.readBytes a 16 := by
  have hlen : (m.readBytes a 16).length = 16 := Mem.length_readBytes m a 16
  have hlt := leNat_lt (m.readBytes a 16)
  have hback := leBytes_leNat (m.readBytes a 16)
  rw [hlen] at hlt hback
  rw [bytesOf128, BitVec.toNat_ofNat, Nat.mod_eq_of_lt (lt_of_lt_of_le hlt (by decide)), hback]

section
variable {tile : Nat} {w : BitVec 32} {c : DspCore} {s : State}

/-- The three addresses of FTAP lie in the window (R300, R307). -/
def ftapInside (w : BitVec 32) (c : DspCore) : Prop :=
  c.inWindow (vecAddr (c.pr (fld w 20 17))) 16 = true ∧ c.inWindow (vecAddr (c.pr (fld w 16 13))) 16 = true ∧
    c.inWindow (vecAddr (c.modified (fld w 20 17) 16)) 16 = true

theorem dspFtap_inside (h : ftapInside w c) :
    let r := macLanes 0 (fld w 22 21) (bitOf w 23) (c.accNow.getD (fld w 25 24) 0)
      (BitVec.ofNat 128 (leNat ((sramOf tile s).readBytes (vecAddr (c.pr (fld w 20 17))) 16)))
      (BitVec.ofNat 128 (leNat ((sramOf tile s).readBytes (vecAddr (c.pr (fld w 16 13))) 16)))
    dspFtapI tile w c s =
      (setSram tile ((sramOf tile s).writeBytes (vecAddr (c.modified (fld w 20 17) 16))
        ((sramOf tile s).readBytes (vecAddr (c.pr (fld w 20 17))) 16)) s,
      .done ((((c.setAcc (fld w 25 24) r.1).addFlags (fld w 25 24) r.2).send 1 (.p (fld w 20 17)) (c.modified (fld w 20 17) (-16)).toNat).send 1
        (.p (fld w 16 13)) (c.modified (fld w 16 13) 16).toNat) .seq) := by
  obtain ⟨hdata, hcoef, hdst⟩ := h
  simp only [dspFtapI, hdata, hcoef, hdst, bytesOf128_read]
  rfl

theorem dspFtap_outside (h : ¬ftapInside w c) : dspFtapI tile w c s = (s, .fault faultWindow) := by
  refine if_pos ?_
  rw [Bool.not_eq_true', ← Bool.not_eq_true, Bool.and_eq_true, Bool.and_eq_true, and_assoc]
  exact h

end

/-! ### Parts of an accumulator -/

/-- Part `k` of a number replaced by `z`. -/
theorem testBit_replacePart {z : Nat} (x k i : Nat) (hz : z < 2 ^ 128) :
    (x - x / 2 ^ (128 * k) % 2 ^ 128 * 2 ^ (128 * k) + z * 2 ^ (128 * k)).testBit i = if i / 128 = k then z.testBit (i % 128) else x.testBit i := by
  have hsplit : x - x / 2 ^ (128 * k) % 2 ^ 128 * 2 ^ (128 * k) + z * 2 ^ (128 * k) =
      2 ^ (128 * k) * (2 ^ 128 * (x / 2 ^ (128 * k) / 2 ^ 128) + z) + x % 2 ^ (128 * k) := by
    have hx : 2 ^ (128 * k) * (2 ^ 128 * (x / 2 ^ (128 * k) / 2 ^ 128) + x / 2 ^ (128 * k) % 2 ^ 128) + x % 2 ^ (128 * k) = x := by
      rw [Nat.div_add_mod, Nat.div_add_mod]
    generalize x / 2 ^ (128 * k) / 2 ^ 128 = h at *
    generalize x / 2 ^ (128 * k) % 2 ^ 128 = m at *
    generalize x % 2 ^ (128 * k) = r at *
    generalize 2 ^ (128 * k) = p at *
    have hpart : p * (2 ^ 128 * h + m) + r = p * (2 ^ 128 * h) + r + m * p := by ring
    rw [← hx, hpart, Nat.add_sub_cancel]
    ring
  rw [hsplit, Nat.testBit_two_pow_mul_add _ (Nat.mod_lt _ (Nat.two_pow_pos _)), Nat.testBit_two_pow_mul_add _ hz, Nat.testBit_mod_two_pow,
    Nat.testBit_div_two_pow, Nat.testBit_div_two_pow]
  split_ifs with hlow hpart hmid hpart' hpart''
  · omega
  · simp [hlow]
  · rw [show i - 128 * k = i % 128 by omega]
  · omega
  · omega
  · congr 1
    omega

/-- The accumulator with part `k` taken from a vector register (R298). -/
def partLoaded (k : Nat) (x : BitVec 288) (y : Word128) : BitVec 288 :=
  BitVec.ofNat 288 (if k < 3 then x.toNat - x.toNat >>> (128 * k) % 2 ^ 128 * 2 ^ (128 * k) + y.toNat % 2 ^ (if k = 2 then 32 else 128) * 2 ^ (128 * k)
    else x.toNat)

theorem getLsbD_partLoaded {k i : Nat} (x : BitVec 288) (y : Word128) (hi : i < 288) :
    (partLoaded k x y).getLsbD i = if i / 128 = k then y.getLsbD (i % 128) else x.getLsbD i := by
  rw [partLoaded, BitVec.getLsbD_ofNat, decide_eq_true hi, Bool.true_and]
  by_cases hk : k < 3
  · have hcut : y.toNat % 2 ^ (if k = 2 then 32 else 128) < 2 ^ 128 := lt_of_le_of_lt (Nat.mod_le _ _) y.isLt
    rw [if_pos hk, Nat.shiftRight_eq_div_pow, testBit_replacePart _ _ _ hcut, Nat.testBit_mod_two_pow]
    by_cases hpart : i / 128 = k
    · have hin : i % 128 < if k = 2 then 32 else 128 := by split_ifs <;> omega
      rw [if_pos hpart, if_pos hpart, decide_eq_true hin, Bool.true_and]
      rfl
    · rw [if_neg hpart, if_neg hpart]
      rfl
  · rw [if_neg hk, if_neg (by omega)]
    rfl

/-! ### The rows -/

theorem dspValu_lanes {w : BitVec 32} (c : DspCore) (s : State) (h : fld w 10 7 ≤ 11) :
    let n := if bitOf w 6 = true then 16 else 32
    let lane := fun (i : Nat) =>
      let x := (c.vr (fld w 20 16)).toNat / 2 ^ (n * i) % 2 ^ n
      let y := (c.vr (fld w 15 11)).toNat / 2 ^ (n * i) % 2 ^ n
      let a := ofTwos n x
      let b := ofTwos n y
      ([(a + b, false), (a - b, false), satBits n (a + b), satBits n (a - b), (min a b, false), (max a b, false), (((x &&& y : Nat) : Int), false),
        (((x ||| y : Nat) : Int), false), (((x ^^^ y : Nat) : Int), false), (((x * 2 ^ fld w 5 0 : Nat) : Int), false),
        (a / (2 ^ fld w 5 0 : Nat), false), ((x : Int), false)] : List (Int × Bool)).getD (fld w 10 7) (0, false)
    let rs := (List.range (128 / n)).map lane
    let d := c.send 1 (.v (fld w 25 21)) (fromLanes n (rs.map (·.1)))
    dspValuI w c s = (s, .done (if rs.any (·.2) = true then d.send 1 .sat 1 else d) .seq) := by
  simp only [← laneBits_eq, laneCount_eq, dspValuI, valuLane_listed h, laneU_eq]

theorem dspAccrnd_lanes {w : BitVec 32} (c : DspCore) (s : State) (h : fld w 18 17 ≠ 3) :
    let bits := [32, 24, 16].getD (fld w 18 17) 16
    let n := if bitOf w 16 = true then 36 else 72
    let sh := fld w 15 10
    let rs := (List.range (288 / n)).map (fun i =>
      satBits bits ((laneS (c.acc.getD (fld w 20 19) 0) n i + (if sh = 0 then 0 else (2 ^ (sh - 1) : Nat))) / (2 ^ sh : Nat)))
    let d := c.send 2 (.v (fld w 25 21)) (fromLanes (if bitOf w 16 = true then 16 else 32) (rs.map (·.1)))
    dspAccrndI w c s = (s, .done (if rs.any (·.2) = true then d.send 2 .sat 1 else d) .seq) := by
  have hbits : (if fld w 18 17 = 0 then 32 else if fld w 18 17 = 1 then 24 else 16) = [32, 24, 16].getD (fld w 18 17) 16 := by
    have hlt : fld w 18 17 < 4 := Nat.mod_lt _ (by decide)
    generalize fld w 18 17 = k at *
    interval_cases k <;> rfl
  have hcount : 288 / accBitsOf (bitOf w 16) = laneCount (bitOf w 16) := by cases bitOf w 16 <;> rfl
  simp only [dspAccrndI, hbits, rndLane, ← hcount]
  rfl

/-- Settles O58: each row by the equation of its body in the case named; lanes by what a register holds of each. -/
theorem dspData : Obligations.DspData := by
  refine ⟨?mvls, ?mvsl, ?mvsv, ?mvsvFree, ?flags, ?special, ?own, ?other, ?full, ?pset, ?pseth, ?padd, fun _ _ => rfl, ?valu, fromLanes_lane,
    fun n v hn => satBits_range v hn, ?mac, ?macLane, fun _ _ _ => ⟨rfl, rfl, rfl⟩, ?ftap, ?ftapFault, ?accrnd, ?accclr, ?accsv, ?accsvFree,
    ?accld, ?acccpy⟩
  case mvls => exact issues_row (body := fun _ _ => dspMvlsI) fun _ _ _ _ _ _ => rfl
  case mvsl => exact issues_row (body := fun _ _ => dspMvslI) fun _ _ _ _ _ _ => rfl
  case mvsv => exact issues_row (body := dspMvsvI) fun t k _ c s h => dspMvsv_reads t k c s h
  case mvsvFree => exact issues_row (body := dspMvsvI) fun t k _ c s h => dspMvsv_free t k c s h
  case flags => exact issues_row (body := dspMvvsI) fun t k _ c s h => dspMvvs_flags t k c s h
  case special => exact issues_row (body := dspMvvsI) fun t k _ c s h => dspMvvs_special t k c s h.1 h.2
  case own => exact issues_row (body := dspMvvsI) fun _ _ _ _ _ h => dspMvvs_own h.1 h.2
  case other =>
    intro tile core w c d s hr h hother hd hroom
    rw [exec_dsp (m := (.mvvs, 0x0B, dspMvvsI)) (by simp [dspMeanings]) s hr.1 hr.2.1, dspIssue_done hr (by decide) (dspMvvs_other h hother hd hroom)]
    rfl
  case full =>
    intro tile core w c d s hr h hd hfull
    rw [exec_dsp (m := (.mvvs, 0x0B, dspMvvsI)) (by simp [dspMeanings]) s hr.1 hr.2.1, dspIssue_stall hr (by decide) (dspMvvs_full h hr.2.2.1 hd hfull)]
  case pset => exact issues_row (body := fun _ _ => dspPsetI) fun _ _ _ _ _ _ => rfl
  case pseth => exact issues_row (body := fun _ _ => dspPsethI) fun _ _ _ _ _ _ => rfl
  case padd => exact issues_row (body := fun _ _ => dspPaddI) fun _ _ _ _ _ _ => rfl
  case valu =>
    refine issues_of (fun _ _ => dspValuI) (fun _ _ s => exec_dsp (m := (.valu, 0x20, fun _ _ => dspValuI)) (by simp [dspMeanings]) s) (by decide) ?_
    rintro tile core w c s ⟨-, -, -, -, -, -, -, hop, hlegal⟩ -
    exact dspValu_lanes c s (dspIllegal_valu hop hlegal)
  case mac =>
    intro mode hmode
    interval_cases mode
    · exact issues_row (body := fun _ _ => dspMac 0) fun _ _ _ _ _ _ => rfl
    · exact issues_row (body := fun _ _ => dspMac 1) fun _ _ _ _ _ _ => rfl
    · exact issues_row (body := fun _ _ => dspMac 2) fun _ _ _ _ _ _ => rfl
  case macLane =>
    intro mode sign b a x y i hi
    exact macLanes_lane mode sign b a x y hi
  case ftap => exact issues_row (body := fun t _ => dspFtapI t) fun _ _ _ _ _ h => dspFtap_inside h
  case ftapFault =>
    refine faults_row (body := fun t _ => dspFtapI t) fun tile core w c s h => dspFtap_outside ?_
    rintro ⟨hdata, hcoef, hdst⟩
    simp only [vecAddr] at hdata hcoef hdst
    simp [hdata, hcoef, hdst] at h
  case accrnd =>
    refine issues_of (fun _ _ => dspAccrndI) (fun _ _ s => exec_dsp (m := (.accrnd, 0x38, fun _ _ => dspAccrndI)) (by simp [dspMeanings]) s)
      (by decide) ?_
    rintro tile core w c s ⟨-, -, -, -, -, -, -, hop, hlegal⟩ -
    exact dspAccrnd_lanes c s (dspIllegal_accrnd hop hlegal)
  case accclr => exact issues_row (body := fun _ _ => dspAccclrI) fun _ _ _ _ _ _ => rfl
  case accsv =>
    refine issues_row (body := fun _ _ => dspAccsvI) fun tile core w c s h => ?_
    rw [dspAccsvI, if_pos h, Nat.shiftRight_eq_div_pow]
  case accsvFree =>
    exact issues_row (body := fun _ _ => dspAccsvI) fun _ _ _ _ _ h => if_neg (by rw [h]; decide)
  case accld =>
    intro tile core w c s hr
    refine ⟨partLoaded (fld w 18 17) (c.accNow.getD (fld w 20 19) 0) (c.vr (fld w 25 21)), ?_, fun i hi => getLsbD_partLoaded _ _ hi⟩
    rw [exec_dsp (m := (.accld, 0x3B, fun _ _ => dspAccldI)) (by simp [dspMeanings]) s hr.1 hr.2.1, dspIssue_done hr (by decide) rfl]
    rfl
  case acccpy => exact issues_row (body := fun _ _ => dspAcccpyI) fun _ _ _ _ _ _ => rfl

end Sys2Proof
end

section
/-! PROOFS. The control of a DSP core: branches, loops, slots, interrupts, faults and the doorbell (R288-R308). -/

namespace Sys2Proof

open Machine

/-! ## O57: branches, loops and WAIT -/

section
variable {w : BitVec 32} (c : DspCore)

theorem dspIllegal_br (hop : fld w 31 26 = 0x01) (h : dspIllegal w = false) : fld w 25 23 ≠ 7 := by
  intro h7
  simp [dspIllegal, hop, h7] at h

/-- The conditions of BR in the order of COND. -/
theorem brTaken_listed (h : fld w 25 23 ≠ 7) : brTaken w c =
    [true, c.pr (fld w 22 19) == 0, c.pr (fld w 22 19) != 0, (c.pr (fld w 22 19)).msb, !(c.pr (fld w 22 19)).msb, c.sat,
      decide (c.ovf.toNat / 256 ^ fld w 20 19 % 256 ≠ 0)].getD (fld w 25 23) false := by
  have hlt : fld w 25 23 < 8 := Nat.mod_lt _ (by decide)
  have hflags (x : Nat) : decide (x ≠ 0) = (x != 0) := by rw [bne, decide_not]; rfl
  rw [brTaken, hflags]
  generalize fld w 25 23 = k at *
  have hle : k ≤ 6 := by omega
  clear hlt h
  interval_cases k <;> rfl

/-- COUNT of LOOP: its immediate, or a pointer. -/
def loopCount (w : BitVec 32) (c : DspCore) : Nat := if bitOf w 25 = true then fld w 24 15 else (c.pr (fld w 24 21)).toNat

theorem dspLoop_skips (s : State) (h : loopCount w c = 0) :
    dspLoopI w c s = (s, .done c (.skip (c.pc + BitVec.ofNat 14 (fld w 14 0) + 1))) := if_pos h

theorem dspLoop_pushes (s : State) (h : loopCount w c ≠ 0) (hroom : c.lsp < 4) :
    dspLoopI w c s = (s, .done { c with
      ls := c.ls.set c.lsp { start := c.pc + 1, end_ := c.pc + BitVec.ofNat 14 (fld w 14 0), count := BitVec.ofNat 32 (loopCount w c) }
      lsp := c.lsp + 1 } .seq) := (if_neg h).trans (if_neg (Nat.not_le.mpr hroom))

theorem dspLoop_faults (s : State) (h : loopCount w c ≠ 0) (hfull : 4 ≤ c.lsp) : dspLoopI w c s = (s, .fault faultLoop) :=
  (if_neg h).trans (if_pos hfull)

theorem dspWait_waits (s : State) :
    dspWaitI w c s = (s, .done { c with run := if c.ipend &&& c.imask = 0 then .waiting else c.run } .seq) := by
  rw [dspWaitI]
  split_ifs <;> rfl

end

section
variable (c : DspCore) (pc : BitVec 14)

theorem wakeCore_eq : wakeCore c = { c with run := if c.run = .waiting ∧ c.ie = false ∧ c.ipend &&& c.imask ≠ 0 then .running else c.run } := by
  simp only [wakeCore, Bool.not_eq_true']
  split_ifs <;> rfl

/-- The innermost loop ends at `pc` (R299). -/
def loopEnds : Prop := 0 < c.lsp ∧ (c.ls.getD (c.lsp - 1) {}).end_ = pc

theorem loopBack_within (h : loopEnds c pc) : loopBack c pc =
    if 1 < (c.ls.getD (c.lsp - 1) {}).count.toNat then { c with
      pc := (c.ls.getD (c.lsp - 1) {}).start
      ls := c.ls.set (c.lsp - 1) { c.ls.getD (c.lsp - 1) {} with count := (c.ls.getD (c.lsp - 1) {}).count - 1 } }
    else { c with pc := pc + 1, lsp := c.lsp - 1 } := by
  obtain ⟨hpos, rfl⟩ := h
  exact if_pos ⟨hpos, rfl⟩

theorem loopBack_outside (h : ¬loopEnds c pc) : loopBack c pc = { c with pc := pc + 1 } := if_neg h

end

/-! ### Results in flight -/

/-- A result lands whatever slot it is and whatever else is in flight. -/
theorem landOne_flight (c : DspCore) (f : DspFlight) (n : Nat) (fs : List DspFlight) :
    landOne { c with slot := n, flight := fs } f = { landOne c f with slot := n, flight := fs } := by
  unfold landOne
  split <;> try rfl
  split_ifs <;> rfl

theorem landAll_flight (l : List DspFlight) (c : DspCore) (n : Nat) (fs : List DspFlight) :
    l.foldl landOne { c with slot := n, flight := fs } = { l.foldl landOne c with slot := n, flight := fs } := by
  induction l generalizing c with
  | nil => rfl
  | cons f r ih => rw [List.foldl_cons, List.foldl_cons, landOne_flight, ih]

/-- The results due at the next slot, in the order of their issue, and those that stay in flight. -/
def dueNext (c : DspCore) : List DspFlight := c.flight.filter (fun f => decide (f.due ≤ c.slot + 1))

def stillAloft (c : DspCore) : List DspFlight := c.flight.filter (fun f => decide (c.slot + 1 < f.due))

theorem nextSlot_eq (c : DspCore) : nextSlot c = { (dueNext c).foldl landOne c with slot := c.slot + 1, flight := stillAloft c } :=
  landAll_flight _ _ _ _

theorem dueNext_send (c : DspCore) (n v : Nat) (d : DspDest) :
    dueNext (c.send n d v) = dueNext c ++ if n ≤ 1 then [⟨c.slot + n, d, v⟩] else [] := by
  refine (List.filter_append _ _).trans (congrArg (dueNext c ++ ·) ?_)
  simp [List.filter_cons, DspCore.send]

theorem stillAloft_send (c : DspCore) (n v : Nat) (d : DspDest) :
    stillAloft (c.send n d v) = stillAloft c ++ if 1 < n then [⟨c.slot + n, d, v⟩] else [] := by
  refine (List.filter_append _ _).trans (congrArg (stillAloft c ++ ·) ?_)
  simp [List.filter_cons, DspCore.send]

/-- What is sent changes no register yet. -/
theorem nextSlot_sent (c : DspCore) (n v : Nat) (d : DspDest) : nextSlot (c.send n d v) =
    { (dueNext (c.send n d v)).foldl landOne c with slot := c.slot + 1, flight := stillAloft (c.send n d v) } :=
  landAll_flight _ c _ _

theorem nextSlot_send_later (c : DspCore) (n v : Nat) (d : DspDest) : nextSlot (c.send (n + 2) d v) = (nextSlot c).send (n + 1) d v := by
  have hdue : c.slot + (n + 2) = c.slot + 1 + (n + 1) := by omega
  rw [nextSlot_sent, dueNext_send, stillAloft_send, if_neg (by omega), if_pos (by omega), List.append_nil, nextSlot_eq, hdue]
  rfl

theorem landOne_lengths (c : DspCore) (f : DspFlight) : (landOne c f).p.length = c.p.length ∧ (landOne c f).v.length = c.v.length := by
  unfold landOne
  split <;> try exact ⟨rfl, rfl⟩
  · exact ⟨rfl, List.length_set⟩
  · exact ⟨List.length_set, rfl⟩
  · split_ifs <;> exact ⟨rfl, rfl⟩

theorem landAll_lengths (l : List DspFlight) (c : DspCore) :
    (l.foldl landOne c).p.length = c.p.length ∧ (l.foldl landOne c).v.length = c.v.length := by
  induction l generalizing c with
  | nil => exact ⟨rfl, rfl⟩
  | cons f r ih =>
    obtain ⟨hp, hv⟩ := landOne_lengths c f
    obtain ⟨hp', hv'⟩ := ih (landOne c f)
    exact ⟨hp'.trans hp, hv'.trans hv⟩

theorem nextSlot_send_pointer {i : Nat} {c : DspCore} (v : Nat) (h : i < c.p.length) :
    (nextSlot (c.send 1 (.p i) v)).pr i = BitVec.ofNat 32 v := by
  have hlen := (landAll_lengths (dueNext c) c).1
  rw [nextSlot_sent, dueNext_send, if_pos le_rfl, List.foldl_append]
  simp [DspCore.pr, landOne, hlen, h]

theorem nextSlot_send_vector {i : Nat} {c : DspCore} (v : Nat) (h : i < c.v.length) :
    (nextSlot (c.send 1 (.v i) v)).vr i = BitVec.ofNat 128 v := by
  have hlen := (landAll_lengths (dueNext c) c).2
  rw [nextSlot_sent, dueNext_send, if_pos le_rfl, List.foldl_append]
  simp [DspCore.vr, landOne, hlen, h]

/-! ### Interrupts, sources and the doorbell -/

theorem exec_interruptEntry {t c : Nat} (s : State) (ht : t < 512) (hc : c < 4) : exec (.interruptEntry t c) s = .next (interruptDo t c s) :=
  onWf_of_wf (i := .interruptEntry t c) (by simp [Instr.wf, ht, hc])

theorem exec_pipe {t c : Nat} (s : State) (ht : t < 512) (hc : c < 4) : exec (.pipe t c) s = .next (pipeDo t c s) :=
  onWf_of_wf (i := .pipe t c) (by simp [Instr.wf, ht, hc])

theorem irqReady_enabled {c : DspCore} (h : c.irqReady = true) : c.ie = true ∧ c.ipend &&& c.imask ≠ 0 := by
  simp only [DspCore.irqReady, Bool.and_eq_true, bne_iff_ne] at h
  exact h.1

theorem interruptDo_takes {t k : Nat} {c : DspCore} {s : State} (hcore : dspCore? t k s = some c) (hlive : dspLive t s = true)
    (hrun : c.run = .running ∨ c.run = .waiting) (hirq : c.irqReady = true) :
    let i := if (c.ipend &&& c.imask).getLsbD 0 = true then 0 else if (c.ipend &&& c.imask).getLsbD 1 = true then 1 else 2
    let d := slots 8 c
    interruptDo t k s = setDspCore t k { d with
      ipc := d.pc
      istat := d.status
      ie := false
      run := .running
      pc := BitVec.ofNat 14 (4 + 4 * i)
      ipend := d.ipend &&& ~~~ BitVec.ofNat 3 (2 ^ i) } s := by
  have hrun' : (c.run == .running || c.run == .waiting) = true := by simpa using hrun
  simp only [interruptDo, hcore, hlive, hrun', hirq]
  rfl

theorem interruptDo_waits {t k : Nat} {c : DspCore} {s : State} (hcore : dspCore? t k s = some c) (hirq : c.irqReady = false) :
    interruptDo t k s = s := by
  simp [interruptDo, hcore, hirq]

theorem updDspCore_listed {t k : Nat} {c : DspCore} {s : State} (f : DspCore → DspCore) (h : dspCore? t k s = some c) :
    updDspCore t k f s = setDspCore t k (f c) s := by
  rw [updDspCore, h]

theorem exec_doorbell {who t k : Nat} {v : Word64} {s : State} (ht : t < 512) (hk : k < 4) (hw : who = 0 ∨ 64 ≤ who)
    (hgate : mayWrite who (dspOff t k 0x10) s) : exec (.tileDspDoorbell who t k v) s = .next (doorbellDo t k v s) := by
  have howner : (who == 0 || decide (64 ≤ who)) = true := by simpa using hw
  have hrun : exec (.tileDspDoorbell who t k v) s = .next (doorbellGated who t k (doorbellDo t k v) s) :=
    onWf_of_wf (i := .tileDspDoorbell who t k v) (by simp [Instr.wf, ht, hk, hgate.1])
  rw [hrun, doorbellGated, if_pos howner, gated_granted hgate]

theorem doorbellDo_rings {t k : Nat} {v : Word64} {c : DspCore} {s : State} (hrole : (groupOf (t / 8) s).role = 4) (hc : dspCore? t k s = some c) :
    doorbellDo t k v s = setDspCore t k (if 4 ≤ c.mail.length then { c with mailDrop := satAdd 32 c.mailDrop 1 }
      else pushMail (BitVec.ofNat 32 v.toNat) c) s := by
  have hau : ¬((groupOf (t / 8) s).role != 4) = true := by simp [hrole]
  rw [doorbellDo, if_neg hau, updDspCore_listed _ hc]

/-! ### Rows that are not the next instruction's -/

/-- The row of a rows' list is a row of the meanings. -/
theorem meaning_of_row {row : (Nat → Nat → Instr) × Nat} (h : row ∈ dspRows) : ∃ body, (row.1, row.2, body) ∈ dspMeanings := by
  rw [← dspMeanings_rows] at h
  obtain ⟨m, hm, rfl⟩ := List.mem_map.mp h
  exact ⟨m.2.2, hm⟩

theorem dspRows_opcodes : dspRows.map (·.2) = dspOpcodes := rfl

section
variable {op t k : Nat} {body : DspBody} {c : DspCore} {s : State}

theorem dspIssue_absent (h : dspCore? t k s = none) : dspIssue op body t k s = s := by rw [dspIssue, h]

variable (hcore : dspCore? t k s = some c) (hlive : dspLive t s = true) (hrun : c.run = .running) (hirq : c.irqReady = false)
include hcore hlive hrun hirq

theorem dspIssue_unlisted (h : fld (c.code.get c.pc.toNat 0) 31 26 ∉ dspOpcodes) : dspIssue op body t k s = dspFault t k 0x01 s := by
  have hno : dspOpcodes.contains (fld (c.code.get c.pc.toNat 0) 31 26) = false := by simpa using h
  simp only [dspIssue, hcore, hlive, hrun, hirq, hno]
  simp [faultIllegal]

theorem dspIssue_illegal (hop : fld (c.code.get c.pc.toNat 0) 31 26 = op) (hlisted : dspOpcodes.contains op = true)
    (h : dspIllegal (c.code.get c.pc.toNat 0) = true) : dspIssue op body t k s = dspFault t k 0x01 s := by
  simp only [dspIssue, hcore, hlive, hrun, hirq, hop, hlisted, h]
  simp [faultIllegal]

theorem dspIssue_otherRow (hlisted : fld (c.code.get c.pc.toNat 0) 31 26 ∈ dspOpcodes) (h : fld (c.code.get c.pc.toNat 0) 31 26 ≠ op) :
    dspIssue op body t k s = s := by
  have hyes : dspOpcodes.contains (fld (c.code.get c.pc.toNat 0) 31 26) = true := by simpa using hlisted
  have hother : (fld (c.code.get c.pc.toNat 0) 31 26 != op) = true := by simpa using h
  simp only [dspIssue, hcore, hlive, hrun, hirq, hyes, hother]
  simp

end

/-! ### What the end of work leaves of the DSP cores, the tile groups and the host's memory -/

/-- The DSP cores, the Fabric Image's state and host memory. -/
def tileView (s : State) : Dsp × Fab × Mem := (s.dsp, s.fab, s.hostMem)

@[simp] theorem tileView_complete (t : Ticket) (r : Reply) (s : State) : tileView (complete t r s) = tileView s := by simp [tileView]

@[simp] theorem tileView_releaseId (k : IdKind) (i : Nat) (s : State) : tileView (releaseId k i s) = tileView s := rfl

@[simp] theorem tileView_setDec (c : Nat) (v : DecCtx) (s : State) : tileView (setDec c v s) = tileView s := rfl

@[simp] theorem tileView_audio (a : Audio) (s : State) : tileView { s with audio := a } = tileView s := rfl

@[simp] theorem tileView_updBuf (b : Nat) (f : FrameBuf → FrameBuf) (s : State) : tileView (updBuf b f s) = tileView s := rfl

@[simp] theorem tileView_dropWork (t : Nat) (s : State) : tileView (dropWork t s) = tileView s := rfl

@[simp] theorem tileView_settleOver (p : Nat) (s : State) : tileView (settleOver p s) = tileView s := by
  unfold settleOver
  split <;> rfl

@[simp] theorem tileView_dropLoad (p r load : Nat) (s : State) : tileView (dropLoad p r load s) = tileView s :=
  (tileView_settleOver _ _).trans rfl

@[simp] theorem tileView_trimPool (k : Nat) (s : State) : tileView (trimPool k s) = tileView s :=
  foldl_keeps tileView (f := fun t i => setBuf (bufKey k i) {} t) (fun _ _ => rfl) _ _

@[simp] theorem tileView_updSource (i : Nat) (f : Source → Source) (s : State) : tileView (updSource i f s) = tileView s := rfl

@[simp] theorem tileView_removeSource (i : Nat) (s : State) : tileView (removeSource i s) = tileView s := by
  unfold removeSource
  extract_lets v t
  have ht : tileView t = tileView s := by
    simp only [t]
    split <;> rfl
  exact ht

theorem tileView_completeAll (rep : Reply) (ts : List Ticket) (s : State) : tileView (ts.foldl (fun s t => complete t rep s) s) = tileView s :=
  foldl_keeps tileView (fun _ _ => tileView_complete _ _ _) _ _

@[simp] theorem tileView_finishEncRelease (c : Nat) (s : State) : tileView (finishEncRelease c s) = tileView s := by
  unfold finishEncRelease
  extract_lets v s1 s2 s3 s4
  have h1 : tileView s1 = tileView s :=
    foldl_keeps tileView (f := fun s b => updBuf (bufKey v.pool b) (fun f => { f with encoder := false }) s) (fun _ _ => rfl) _ _
  have h2 : tileView s2 = tileView s1 := by simp [s2]
  have h3 : tileView s3 = tileView s2 := tileView_completeAll _ _ _
  have h4 : tileView s4 = tileView s3 := rfl
  split
  · rw [tileView_complete, h4, h3, h2, h1]
  · rw [h4, h3, h2, h1]

theorem tileView_encRecord (c : Nat) (p : EncRecord) (s : State) : tileView (encRecord c p s) = tileView s := by
  unfold encRecord
  extract_lets v w0 r
  have hpushed : tileView r.2 = tileView s := by simp [tileView, r]
  split
  · split
    · exact hpushed
    · exact Eq.trans rfl hpushed
  · rfl

@[simp] theorem tileView_endEnc (reason c : Nat) (s : State) : tileView (endEnc reason c s) = tileView s := by
  rw [endEnc, tileView_finishEncRelease]
  split
  · rfl
  · exact (tileView_encRecord _ _ _).trans rfl

@[simp] theorem tileView_finishDecRelease (c : Nat) (s : State) : tileView (finishDecRelease c s) = tileView s := by
  unfold finishDecRelease
  extract_lets v s1 s2 s3 s4
  have h1 : tileView s1 = tileView s := by
    refine foldl_keeps tileView (fun t b => ?_) _ _
    exact tileView_updBuf _ _ _
  have h2 : tileView s2 = tileView s1 := by simp [s2]
  have h3 : tileView s3 = tileView s2 := by
    simp only [s3]
    split
    · exact tileView_updSource _ _ _
    · rfl
  have h4 : tileView s4 = tileView s3 := (tileView_releaseId _ _ _).trans (tileView_setDec _ _ _)
  split
  · rw [tileView_complete, h4, h3, h2, h1]
  · rw [h4, h3, h2, h1]

@[simp] theorem tileView_unhold (o b : Nat) (s : State) : tileView (unhold o b s) = tileView s := by
  rw [unhold, tileView_trimPool, tileView_updBuf]

theorem tileView_endLingers (o : Nat) (s : State) : tileView (endLingers o s) = tileView s := by
  refine foldl_keeps tileView (fun t c => ?_) _ _
  rw [tileView_trimPool, tileView_updBuf]

@[simp] theorem tileView_finishOutRelease (o : Nat) (s : State) : tileView (finishOutRelease o s) = tileView s := by
  unfold finishOutRelease
  extract_lets v s1 s2 s3 s4 s5
  have h1 : tileView s1 = tileView s := by
    refine (tileView_endLingers _ _).trans (foldl_keeps tileView (fun t c => ?_) _ _)
    exact tileView_unhold _ _ _
  have h2 : tileView s2 = tileView s1 := by simp [s2]
  have h3 : tileView s3 = tileView s2 := by
    simp only [s3]
    split
    · exact tileView_removeSource _ _
    · rfl
  have h4 : tileView s4 = tileView s3 := tileView_completeAll _ _ _
  have h5 : tileView s5 = tileView s4 := rfl
  split
  · rw [tileView_complete, h5, h4, h3, h2, h1]
  · rw [h5, h4, h3, h2, h1]

@[simp] theorem tileView_removeInput (i : Nat) (s : State) : tileView (removeInput i s) = tileView s := by
  unfold removeInput
  extract_lets v s1 s2 s3
  have h2 : tileView s2 = tileView s1 := by
    simp only [s2]
    split
    · rfl
    · exact tileView_dropLoad _ _ _ _
  have h3 : tileView s3 = tileView s2 := by
    simp only [s3]
    split <;> rfl
  exact h3.trans (h2.trans rfl)

@[simp] theorem tileView_removeGroup (g : Nat) (s : State) : tileView (removeGroup g s) = tileView s := by
  unfold removeGroup
  extract_lets v t
  have ht : tileView t = tileView s := by simp [t]
  exact (tileView_removeSource _ _).trans (Eq.trans rfl ht)

theorem tileView_endMixer (room : Nat) (s : State) : tileView (endMixer room s) = tileView s := by
  unfold endMixer
  extract_lets s1 s2
  have h1 : tileView s1 = tileView s := foldl_keeps tileView (fun _ _ => tileView_removeInput _ _) _ _
  have h2 : tileView s2 = tileView s1 := foldl_keeps tileView (fun _ _ => tileView_removeGroup _ _) _ _
  rw [removeMixer, tileView_dropWork, tileView_audio, tileView_completeAll, h2, h1]

/-- Work that ends leaves the cores, the groups and host memory alone. -/
theorem tileView_endWork (pEnc : EncCtx → Bool) (pDec : DecCtx → Bool) (pOut : Output → Bool) (pIn : AudIn → Bool) (pGrp : AudGroup → Bool)
    (pRoom : AudRoom → Bool) (s : State) : tileView (endWork pEnc pDec pOut pIn pGrp pRoom s) = tileView s := by
  unfold endWork
  extract_lets s1 s2 s3 s4 s5
  have h1 : tileView s1 = tileView s := foldl_keeps tileView (fun _ _ => tileView_endEnc _ _ _) _ _
  have h2 : tileView s2 = tileView s1 := foldl_keeps tileView (fun _ _ => tileView_finishDecRelease _ _) _ _
  have h3 : tileView s3 = tileView s2 := foldl_keeps tileView (fun _ _ => tileView_finishOutRelease _ _) _ _
  have h4 : tileView s4 = tileView s3 := foldl_keeps tileView (fun _ _ => tileView_removeInput _ _) _ _
  have h5 : tileView s5 = tileView s4 := foldl_keeps tileView (fun _ _ => tileView_removeGroup _ _) _ _
  rw [foldl_keeps tileView (fun _ _ => tileView_endMixer _ _), h5, h4, h3, h2, h1]

/-! ### Faults -/

/-- The group once its tile is fenced (R307). -/
def tileFenced (t : Nat) (g : TileGroup) : TileGroup :=
  { g with fenced := g.fenced ||| 2 ^ (t % 8), state := if g.fenced ||| 2 ^ (t % 8) = 255 then 3 else g.state }

theorem settledParts_facts (q : Nat) (ps : Tab Machine.Partition) (s : State) :
    let u := settleOver q { s with fab := { s.fab with parts := ps } }
    u.dsp = s.dsp ∧ u.hostMem = s.hostMem ∧ u.fab.groups = s.fab.groups := by
  simp only [settleOver]
  split <;> exact ⟨rfl, rfl, rfl⟩

theorem fenceTile_facts (t : Nat) (s : State) : (fenceTile t s).dsp = s.dsp ∧ (fenceTile t s).hostMem = s.hostMem ∧
    groupOf (t / 8) (fenceTile t s) = tileFenced t (groupOf (t / 8) s) := by
  unfold fenceTile
  extract_lets g fenced src s1 s2
  have hview : tileView s2 = tileView s1 := tileView_endWork _ _ _ _ _ _ _
  obtain ⟨hdsp, hfab, hmem⟩ : s2.dsp = s1.dsp ∧ s2.fab = s1.fab ∧ s2.hostMem = s1.hostMem := by simpa [tileView] using hview
  have hgroup : s2.fab.groups.get (t / 8) {} = tileFenced t g := by
    rw [hfab]
    exact Tab.get_set_same _ _ _ _
  clear_value s2
  split
  · exact ⟨hdsp, hmem, hgroup⟩
  · next v hv =>
    let less := fun (ds : List Nat) (r : Nat) => ds.set r (ds.getD r 0 - ceilingOf r)
    obtain ⟨hdsp', hmem', hgroups⟩ :=
      settledParts_facts g.partition (s2.fab.parts.set g.partition { v with declared := less (less v.declared 3) 4 }) s2
    refine ⟨hdsp'.trans hdsp, hmem'.trans hmem, ?_⟩
    exact (congrArg (fun gs => gs.get (t / 8) {}) hgroups).trans hgroup

theorem dspFault_facts {t k : Nat} (code : Nat) {c : DspCore} {s : State} (h : dspCore? t k s = some c) :
    dspCore? t k (dspFault t k code s) = some { c with run := .faulted, fault := code } ∧
      (groupOf (t / 8) (dspFault t k code s)).fenced.testBit (t % 8) = true ∧ (dspFault t k code s).hostMem = s.hostMem := by
  unfold dspFault
  extract_lets pc
  obtain ⟨hdsp, hmem, hgroup⟩ := fenceTile_facts t (record 0x0303 [(2, t), (1, k), (1, code), (2, pc)]
    (updDspCore t k (fun c => { c with run := .faulted, fault := code }) s))
  rw [updDspCore_listed _ h] at *
  refine ⟨?_, ?_, ?_⟩
  · rw [dspCore?, hdsp]
    simp [setDspCore]
  · rw [hgroup]
    simp [tileFenced, Nat.testBit_two_pow_self]
  · rw [hmem]
    simp

/-- Settles O57: the control rows by the equations of their bodies, the slots by what lands at each, an issue by which row's instruction is next. -/
theorem dspControl : Obligations.DspControl := by
  refine ⟨?nop, ?br, ?call, ?ret, ?reti, ?loopSkips, ?loopPushes, ?loopFaults, ?wait, ?halt,
    fun pc c => ⟨fun h => ?loopEnd, fun h => ?loopOn, wakeCore_eq c⟩, fun _ _ _ => ⟨rfl, rfl⟩, fun n v d c => nextSlot_send_later c n v d,
    fun i v c h => nextSlot_send_pointer v h, fun i v c h => nextSlot_send_vector v h, ?entry, fun c h => irqReady_enabled h, ?noEntry,
    ?raise, ?pipe, ?doorbell, ?rows, ?absent, fun tile core code c s h => dspFault_facts code h⟩
  case nop => exact issues_row (body := fun _ _ => dspNopI) fun _ _ _ _ _ _ => rfl
  case br =>
    refine issues_of (fun _ _ => dspBrI) (fun _ _ s => exec_dsp (m := (.dspBr, 0x01, fun _ _ => dspBrI)) (by simp [dspMeanings]) s) (by decide) ?_
    rintro tile core w c s ⟨-, -, -, -, -, -, -, hop, hlegal⟩ -
    rw [dspBrI, brTaken_listed c (dspIllegal_br hop hlegal)]
    rfl
  case call => exact issues_row (body := fun _ _ => dspCallI) fun _ _ _ _ _ _ => rfl
  case ret => exact issues_row (body := fun _ _ => dspRetI) fun _ _ _ _ _ _ => rfl
  case reti => exact issues_row (body := fun _ _ => dspRetiI) fun _ _ _ _ _ _ => rfl
  case loopSkips => exact issues_row (body := fun _ _ => dspLoopI) fun _ _ _ c s h => dspLoop_skips c s h
  case loopPushes => exact issues_row (body := fun _ _ => dspLoopI) fun _ _ _ c s h => dspLoop_pushes c s h.1 h.2
  case loopFaults => exact faults_row (body := fun _ _ => dspLoopI) fun _ _ _ c s h => dspLoop_faults c s h.1 h.2
  case wait => exact issues_row (body := fun _ _ => dspWaitI) fun _ _ _ c s _ => dspWait_waits c s
  case halt => exact issues_row (body := fun _ _ => dspHaltI) fun _ _ _ _ _ _ => rfl
  case loopEnd => rw [afterIssue, loopBack_within c pc h]
  case loopOn => rw [afterIssue, loopBack_outside c pc h]
  case entry =>
    intro tile core c s ht hk hcore hlive hrun hirq
    exact (exec_interruptEntry s ht hk).trans (congrArg _ (interruptDo_takes hcore hlive hrun hirq))
  case noEntry =>
    intro tile core c s ht hk hcore hirq
    rw [exec_interruptEntry s ht hk, interruptDo_waits hcore hirq]
  case raise =>
    intro k c
    rw [raiseSource, wakeCore_eq]
    exact ⟨rfl, rfl⟩
  case pipe =>
    intro tile core c s ht hk hcore hlive
    rw [exec_pipe s ht hk, pipeDo, if_pos hlive, updDspCore_listed _ hcore]
  case doorbell =>
    intro who tile core v c s ht hk hw hgate hrole hcore
    rw [exec_doorbell ht hk hw hgate, doorbellDo_rings hrole hcore]
    rfl
  case rows =>
    intro row hrow tile core c s ht hk hcore hlive hrun hirq
    obtain ⟨body, hm⟩ := meaning_of_row hrow
    rw [exec_dsp hm s ht hk, dspRows_opcodes]
    exact ⟨fun h => congrArg _ (dspIssue_unlisted hcore hlive hrun hirq h),
      fun hop h => congrArg _ (dspIssue_illegal hcore hlive hrun hirq hop (opcode_listed hm) h),
      fun hlisted h => congrArg _ (dspIssue_otherRow hcore hlive hrun hirq hlisted h)⟩
  case absent =>
    intro row hrow tile core s ht hk h
    obtain ⟨body, hm⟩ := meaning_of_row hrow
    rw [exec_dsp hm s ht hk, dspIssue_absent h]

end Sys2Proof
end

section
/-! PROOFS. What has left the module stays in `State.out`: a record only adds to it. -/

namespace Sys2Proof

open Machine

/-! ## Records add to the output -/

@[simp] theorem out_lastGaspRecord (r : Record) (s : State) : (lastGaspRecord r s).out = s.out := by
  simp only [lastGaspRecord]
  split <;> rfl

theorem out_storeRecord (code origin master : Nat) (pl : List Byte) (s : State) : s.out <:+ (storeRecord code origin master pl s).out := by
  simp only [storeRecord]
  split
  · rw [out_lastGaspRecord]
  · split
    · refine List.IsSuffix.trans (l₂ := (lastGaspRecord _ _).out) ?_ (List.suffix_cons _ _)
      rw [out_lastGaspRecord]
      exact List.suffix_rfl
    · exact List.suffix_rfl

theorem out_storeRecord_of {s t : State} (h : t.out = s.out) (code origin master : Nat) (pl : List Byte) :
    s.out <:+ (storeRecord code origin master pl t).out := h ▸ out_storeRecord _ _ _ _ _

theorem out_foldInto (slot : Nat) (s : State) : (foldInto slot s).out = s.out := by
  simp only [foldInto]
  split <;> rfl

theorem out_evrWrite (code origin master : Nat) (pl : List Byte) (s : State) : s.out <:+ (evrWrite code origin master pl s).1.out := by
  simp only [evrWrite]
  split
  · exact out_storeRecord _ _ _ _ _
  · split
    · split
      · exact List.suffix_rfl
      · refine List.IsSuffix.trans ?_ (out_storeRecord _ _ _ _ _)
        split
        · exact List.suffix_rfl
        · exact out_storeRecord_of (by rfl) _ _ _ _
    · split
      · split
        · exact (out_foldInto _ s) ▸ List.suffix_rfl
        · exact out_storeRecord _ _ _ _ _
      · exact out_storeRecord _ _ _ _ _

theorem out_record (code : Nat) (items : List (Nat × Nat)) (s : State) : s.out <:+ (record code items s).out := out_evrWrite _ _ _ _ _

/-- What had been sent before a record has still been sent. -/
theorem mem_out_record {o : Out} {s : State} (code : Nat) (items : List (Nat × Nat)) (h : o ∈ s.out) : o ∈ (record code items s).out :=
  (out_record code items s).mem h

end Sys2Proof
end

section
/-! PROOFS. The statements of the time base: its cycle, its commands, and the timing connector (R353-R366). -/

namespace Sys2Proof

open Machine

/-! ## O2: the cycle of an empty queue -/

/-- The value of the time base in units of 2^-48 ns (R353). -/
def timeValue (t : TimeBase) : Nat := (t.sec * 1000000000 + t.ns) * 2 ^ 48 + t.sub

theorem timeValue_addSub (n : Nat) (t : TimeBase) :
    timeValue (addSub n t) = (timeValue t + n) % (2 ^ 48 * 1000000000 * 2 ^ 48) := by
  simp only [timeValue, addSub]
  omega

/-- A cycle changes the elapsed time, the time base and the output, and nothing else. -/
theorem ppsFall_keeps (s : State) : ∃ d o, ppsFall s = { s with time := { s.time with ppsHigh := d }, out := o } := by
  unfold ppsFall
  split
  · exact ⟨_, _, rfl⟩
  · split <;> exact ⟨_, _, rfl⟩

/-- The state once the resonator has counted a cycle and the time base has advanced (R354, R355). -/
def cycled (s : State) : State :=
  { s with res := s.res + 1, time := { addSub (increment s.time) s.time with rem := s.time.rem - appliedCorr s.time } }

theorem tick_eq (s : State) :
    tick s = ppsFall (if slewEnds s.time = true then timeEvent (fun t => { t with evSlewDone := true }) (cycled s) else cycled s) := rfl

/-- The time base after the next cycle, but for the end of the pulse on 1PPS out (R354, R355). -/
def timeNext (t : TimeBase) : TimeBase :=
  { addSub (increment t) t with rem := t.rem - appliedCorr t, evSlewDone := t.evSlewDone || slewEnds t }

theorem tick_advances (s : State) : ∃ d o, tick s = { s with res := s.res + 1, time := { timeNext s.time with ppsHigh := d }, out := o } := by
  rw [tick_eq]
  split
  · next h =>
    obtain ⟨d, o, hfall⟩ := ppsFall_keeps (timeEvent (fun t => { t with evSlewDone := true }) (cycled s))
    refine ⟨d, o, hfall.trans ?_⟩
    simp [timeEvent, pfVector, emit, cycled, timeNext, h]
  · next h =>
    obtain ⟨d, o, hfall⟩ := ppsFall_keeps (cycled s)
    refine ⟨d, o, hfall.trans ?_⟩
    simp [cycled, timeNext, h, addSub]

theorem increment_nominal {b : TimeBase} (hf : b.freqPpb = 0) (hr : b.rem = 0) : increment b = (64 * 2 ^ 48 + 5) / 10 := by
  have hfreq : freqPart b = 0 := by
    simp only [freqPart, clampInt, slewBound, hf]
    split_ifs <;> omega
  have hcorr : appliedCorr b = 0 := by simp [appliedCorr, slewEnds, cycleCorr, ratePpb, hr]
  rw [increment, hfreq, hcorr]
  decide

/-- Settles O2: a step on an empty queue is one cycle, and a cycle adds the increment to the value of the time base. -/
theorem emptyQueueTakesOneCycle : Obligations.EmptyQueueTakesOneCycle := by
  refine ⟨fun s hp _ _ => ?_, fun b hf hr => increment_nominal hf hr⟩
  obtain ⟨d, o, htick⟩ := tick_advances s
  refine ⟨tick s, by rw [step, hp], ?_⟩
  rw [htick]
  exact ⟨rfl, hp, timeValue_addSub (increment s.time) s.time, rfl, rfl, rfl, rfl, rfl, rfl, rfl⟩

/-! ## O9: the commands of the time base -/

theorem exec_timeAdjust (src : CmdSrc) (s : State) (h : src.wf = true) :
    exec (.timeAdjust src) s = .next (command 0xA0 timeAdjustBody src s) := onWf_of_wf (i := .timeAdjust src) h

theorem exec_timePtpBind (src : CmdSrc) (s : State) (h : src.wf = true) :
    exec (.timePtpBind src) s = .next (command 0xA2 ptpBindBody src s) := onWf_of_wf (i := .timePtpBind src) h

section
variable {r : Req} {s : State}

theorem timeAdjust_slews (ho : r.owner = true) (hm : fld r.w1 1 0 = 0) (hj : (offsetOf r.w2).natAbs ≤ s.time.jumpUs * 1000) :
    timeAdjustBody r s = answer { s with time := { s.time with rem := offsetOf r.w2 * 10000000000 } } (okWith 0) := by
  simp [timeAdjustBody, ho, hm, hj]

/-- The seconds and nanoseconds that a step by `off` ns reaches. -/
def steppedNs (off : Int) (t : TimeBase) : Nat :=
  ((((t.sec * 1000000000 + t.ns : Nat) : Int) + off) % ((2 ^ 48 * 1000000000 : Nat) : Int)).toNat

theorem timeAdjust_steps (ho : r.owner = true) (hm : fld r.w1 1 0 = 1) : timeAdjustBody r s =
    answer (stepTo (steppedNs (offsetOf r.w2) s.time / 1000000000) (steppedNs (offsetOf r.w2) s.time % 1000000000) s.time.sub s) (okWith 0) := by
  simp only [timeAdjustBody, ho, hm]
  rfl

theorem timeAdjust_sets (ho : r.owner = true) (hm : fld r.w1 1 0 = 2) (hns : fld r.w2 77 48 < 1000000000) : timeAdjustBody r s =
    answer (stepTo (fld r.w2 47 0) (fld r.w2 77 48) (fld r.w2 93 78 * 2 ^ 32) { s with time := { s.time with isSet := true } }) (okWith 0) := by
  simp only [timeAdjustBody, ho, hm, df, Nat.not_le.mpr hns]
  rfl

theorem timeAdjust_denied (ho : r.owner = false) : timeAdjustBody r s = answer s (refuse stRefused 0) := if_pos (by rw [ho]; rfl)

/-- The binding that TIME_PTP_BIND asks for (R362). -/
def ptpBound (r : Req) (s : State) : State :=
  { s with time := { s.time with ptpQueue := fld r.w1 63 0, ptpDomain := fld r.w1 71 64, ptpEnable := bitOf r.w1 72 } }

theorem ptpBind_binds (ho : r.owner = true) (he : bitOf r.w1 72 = true) (hq : resolveQueue r (fld r.w1 63 0) s = .ok) :
    ptpBindBody r s = answer (ptpBound r s) (okWith 0) := by
  simp only [ptpBindBody, ho, he, df, hq, ptpBound]
  rfl

theorem ptpBind_ends (ho : r.owner = true) (he : bitOf r.w1 72 = false) : ptpBindBody r s = answer (ptpBound r s) (okWith 0) := by
  simp only [ptpBindBody, ho, he, ptpBound]
  rfl

end

/-- Settles O9: each command by the equation of its body in the case named. -/
theorem timeBaseCommands : Obligations.TimeBaseCommands := by
  refine ⟨completes_of exec_timeAdjust fun r s h => timeAdjust_slews h.1 h.2.1 h.2.2,
    completes_of exec_timeAdjust fun r s h => timeAdjust_steps h.1 h.2,
    completes_of exec_timeAdjust fun r s h => timeAdjust_sets h.1 h.2.1 h.2.2,
    completes_of exec_timeAdjust fun r s h => timeAdjust_denied h,
    completes_of exec_timePtpBind fun r s h => ?_, completes_of exec_timePtpBind fun r s h => ?_⟩
  · obtain ⟨ho, he, hq⟩ := h
    rw [ptpBind_binds ho he hq, ptpBound, he]
    rfl
  · obtain ⟨ho, he⟩ := h
    rw [ptpBind_ends ho he, ptpBound, he]
    rfl

/-! ## O11: the timing connector -/

theorem exec_slewDone {s : State} (h : slewEnds s.time = true) : exec .slewDone s = .next (tick s) :=
  (onWf_of_wf (i := .slewDone) rfl).trans (congrArg _ (if_pos h))

theorem exec_ppsIn (falling : Bool) (s : State) : exec (.ppsIn falling) s = .next (ppsInDo falling s) := onWf_of_wf (i := .ppsIn falling) rfl

theorem exec_ppsOut (s : State) : exec .ppsOut s = .next (ppsOutDo s) := onWf_of_wf (i := .ppsOut) rfl

theorem exec_ppsShort {line : Nat} (s : State) (h : line < 2) : exec (.ppsShort line) s = .next (ppsShortDo line s) :=
  onWf_of_wf (i := .ppsShort line) (by simp [Instr.wf, h])

theorem exec_ppsShortRetry {line : Nat} (short : Bool) (s : State) (h : line < 2) :
    exec (.ppsShortRetry line short) s = .next (ppsRetryDo line short s) :=
  onWf_of_wf (i := .ppsShortRetry line short) (by simp [Instr.wf, h])

/-- The cycle that ends a slew raises PF0 vector 5 (R355, R366). -/
theorem tick_slewEnds_out {s : State} (h : slewEnds s.time = true) : Out.msix 0 5 ∈ (tick s).out := by
  have hraised : Out.msix 0 5 ∈ (timeEvent (fun t => { t with evSlewDone := true }) (cycled s)).out := List.mem_cons_self
  rw [tick_eq, if_pos h, ppsFall]
  split
  · exact hraised
  · split
    · exact List.mem_cons_of_mem _ hraised
    · exact hraised

theorem ppsInDo_eq (falling : Bool) (s : State) : ppsInDo falling s = if s.time.inEn = true ∧ s.time.inEdge = falling then
    { s with time := { s.time with ppsInTs := ⟨s.time.sec, s.time.ns, s.time.sub / 2 ^ 32⟩, evPpsIn := true }, out := .msix 0 5 :: s.out }
    else s := by
  simp only [ppsInDo, Bool.and_eq_true, beq_iff_eq]
  rfl

theorem ppsOutDo_rises {s : State} (he : s.time.outEn = true) (ha : atSecond s = true) (hl : s.time.ppsHigh = none) : ppsOutDo s =
    { s with time := { s.time with ppsHigh := some (cmpAdd (cmpNow s) (s.time.widthMs * 1000000)) }, out := .pps true :: s.out } :=
  if_pos (by simp [he, ha, hl])

theorem ppsRetryDo_due {line at_ : Nat} {short : Bool} {s : State} (hs : s.time.shorts.find? line = some at_) (hd : at_ + 100000000 ≤ nowNs s) :
    ppsRetryDo line short s = { s with time := { s.time with
      shorts := if short then s.time.shorts.set line (nowNs s) else s.time.shorts.del line } } := by
  rw [ppsRetryDo, hs]
  exact if_pos hd

/-- Settles O11: each event by its own operation where its condition holds; a short's record leaves the rest of the state. -/
theorem timingConnectorEvents : Obligations.TimingConnectorEvents := by
  refine ⟨fun s h => ⟨tick s, exec_slewDone h, ?_⟩, fun falling s => ?_, fun s he ha hl => ?_, fun line s hline => ⟨_, exec_ppsShort s hline, ?_⟩,
    fun line at_ short s hline hs hd => ?_⟩
  · have hout := tick_slewEnds_out h
    obtain ⟨d, o, htick⟩ := tick_advances s
    rw [htick] at hout ⊢
    refine ⟨?_, ?_, hout, rfl, rfl, rfl, rfl⟩
    · simp [timeNext, appliedCorr, h]
    · simp [timeNext, h]
  · rw [exec_ppsIn, ppsInDo_eq]
  · rw [exec_ppsOut, ppsOutDo_rises he ha hl]
  · refine ⟨by simp [ppsShortDo, timeEvent], mem_out_record _ _ List.mem_cons_self, ?_⟩
    simp [ppsShortDo, timeEvent]
  · rw [exec_ppsShortRetry short s hline, ppsRetryDo_due hs hd]

end Sys2Proof
end

section
/-! PROOFS. The statements of the command checks, completions and host queues (R389-R405). -/

namespace Sys2Proof

open Machine

/-! ## O16: the common checks -/

/-- A row of the opcode table runs as a command of its opcode. -/
def RunsAsCommand (c : (CmdSrc → Instr) × Nat) : Prop :=
  ∀ (src : CmdSrc) (s : State), src.wf = true → ∃ body, exec (c.1 src) s = .next (command c.2 body src s)

theorem commandRows_run : ∀ c ∈ commandRows, RunsAsCommand c := by
  simp only [commandRows, List.forall_mem_cons, List.not_mem_nil, false_imp_iff, implies_true, and_true]
  and_intros <;> exact fun _ _ h => ⟨_, onWf_of_wf h⟩

theorem commandRows_defined : ∀ c ∈ commandRows, opcodeDefined c.2 = true := by decide

theorem commonCheck_badCommon {w0 : Word128} {tail : Bool} {s : State} (h : commonClear w0 = false ∨ tail = false) :
    commonCheck w0 tail s = some ⟨0x02, 0, 0xF0⟩ := by
  rcases h with h | h <;> simp [commonCheck, h, refuse, stNotStarted]

theorem commonCheck_safeHold {w0 : Word128} {s : State} (hc : commonClear w0 = true) (hd : opcodeDefined (fld w0 7 0) = true)
    (hh : s.body.hold = true) (h0 : fld w0 7 0 ≠ 0) (hD : fld w0 7 0 < 0xD0) :
    commonCheck w0 true s = some ⟨0x02, 0, 0xF3⟩ := by
  have hrec : ¬ 0xD0 ≤ fld w0 7 0 := by omega
  simp [commonCheck, hc, hd, hh, h0, hrec, refuse, stNotStarted]

/-- Settles O16: each row is a command of its opcode, and the common checks answer it before its body. -/
theorem commonChecksOfCommands : Obligations.CommonChecksOfCommands := by
  intro c hc src s s1 r tail hw hf hop
  obtain ⟨body, hrun⟩ := commandRows_run c hc src s hw
  have hmine : (fld r.w0 7 0 == c.2) = true := by simp [hop]
  refine ⟨fun hbad => ?_, fun hclear htail hhold h0 hD => ?_⟩
  · rw [hrun, command, command_checked hf hmine (commonCheck_badCommon hbad)]
  · subst htail
    rw [← hop] at h0 hD
    rw [hrun, command, command_checked hf hmine
      (commonCheck_safeHold hclear (hop ▸ commandRows_defined c hc) hhold h0 hD)]

/-! ## O17: completions -/

/-- The command queue of `t` once its command has ended (R402, R405). -/
def commandEnded (t : Ticket) (s : State) : State := updQueue t.queue (fun u => { u with busy := none }.markDone t.seq) s

theorem complete_inProgress {t : Ticket} {s : State} {b : Taken} (r : Reply) (hfw : t.fw = false)
    (hb : (queueOf t.queue s).busy = some b) (hop : b.op = t.op) :
    complete t r s = if r.st = stOk ∧ t.quiet = true then commandEnded t s
      else writeCompletion ⟨t.queue, t.qgen, t.seq, t.opcode, r.st, r.prog, r.det, t.tag⟩ (commandEnded t s) := by
  simp [complete, hfw, hb, hop, commandEnded]

@[simp] theorem queueOf_commandEnded (t : Ticket) (s : State) :
    queueOf t.queue (commandEnded t s) = { queueOf t.queue s with busy := none }.markDone t.seq :=
  queueOf_setQueue _ _ _

theorem queueOf_commandEnded_ne {t : Ticket} {q : Nat} (s : State) (h : q ≠ t.queue) : queueOf q (commandEnded t s) = queueOf q s :=
  queueOf_setQueue_ne _ _ _ _ h

theorem cqOf_commandEnded (t : Ticket) (s : State) : cqOf t.queue (commandEnded t s) = cqOf t.queue s := by
  rw [cqOf, queueOf_commandEnded]; rfl

/-- A packet that the device stores stands behind those that are visible (R391). -/
theorem storePacket_visible (q : Nat) (words : List Word128) (s : State) :
    (queueOf q (storePacket q words s)).visible = (queueOf q s).visible ++ [⟨words, nowNs s⟩] := by
  rw [storePacket, (queueOf_queueIrq _ _).1, updQueue, queueOf_setQueue]

theorem queueOf_storePacket_ne {p q : Nat} (words : List Word128) (s : State) (h : p ≠ q) :
    queueOf p (storePacket q words s) = queueOf p s := by
  rw [storePacket, queueOf_queueIrq_ne _ h, updQueue, queueOf_setQueue_ne _ _ _ _ h]

/-- Settles O17: the command's queue takes the end, and the completion queue the packet. -/
theorem completionsAreWritten : Obligations.CompletionsAreWritten := by
  refine ⟨fun t r s b hfw hb hop hne => ?_, fun t r s hfw hop => by simp only [complete, hfw, hop, if_true]⟩
  rw [complete_inProgress r hfw hb hop]
  by_cases hq : r.st = stOk ∧ t.quiet = true
  · rw [if_pos hq]
    exact ⟨by rw [queueOf_commandEnded]; rfl, fun _ q hne => queueOf_commandEnded_ne s hne, fun h => absurd hq h⟩
  · rw [if_neg hq]
    refine ⟨?_, fun h => absurd h hq, fun _ => ?_⟩
    · rw [writeCompletion, queueOf_storePacket_ne _ _ (by rw [cqOf_commandEnded]; exact hne), queueOf_commandEnded]; rfl
    · rw [writeCompletion, cqOf_commandEnded, storePacket_visible, queueOf_commandEnded_ne s (Ne.symm hne)]; rfl

/-! ## O20: the configuration of a queue -/

theorem exec_hqCfg {who q : Nat} {s : State} (v : BitVec 64) (h : mayControl who q 0 s) :
    exec (.hqCfg who q v) s = .next (if (queueOf q s).enable = true then cfgEnabled q v s else cfgDisabled q v s) := by
  refine (onWf_of_wf (i := .hqCfg who q v) (by simp [Instr.wf, h.1, h.2.1.1])).trans ?_
  rw [controlled_granted h, hqCfgDo]

theorem cfgDisabled_invalid {q : Nat} {v : Word64} {s : State} (h : fld v 19 16 < 4 ∨ 16 < fld v 19 16 ∨ 2 ≤ fld v 2 1) :
    cfgDisabled q v s = cfgError q s := by
  rw [cfgDisabled, if_pos (by simpa [or_assoc] using h)]

/-- The fields that a write to `HQ_CFG` sets (R396). -/
def configured (u : Queue) (v : Word64) : Queue :=
  { u with cq := fld v 31 24, depthLog2 := fld v 19 16, mirror := bitOf v 3, kind := fld v 2 1 }

theorem cfgDisabled_valid {q : Nat} {v : Word64} {s : State} (h4 : 4 ≤ fld v 19 16) (h16 : fld v 19 16 ≤ 16) (hk : fld v 2 1 < 2)
    (hq : bitOf v 0 = true → (queueOf q s).quarUntil ≤ nowNs s ∧ poolUsed s + 2 ^ fld v 19 16 ≤ 2097152) :
    cfgDisabled q v s = setQueue q (if bitOf v 0 = true then enableQueue (configured (queueOf q s) v) s
      else configured (queueOf q s) v) s := by
  have hvalid : (decide (fld v 19 16 < 4) || decide (16 < fld v 19 16) || decide (2 ≤ fld v 2 1)) = false := by
    simp only [Bool.or_eq_false_iff, decide_eq_false_iff_not]; omega
  rw [cfgDisabled]
  simp only [hvalid, Bool.false_eq_true, if_false]
  cases hb : bitOf v 0 with
  | false => rfl
  | true =>
    obtain ⟨hquar, hpool⟩ := hq hb
    have hnow : ¬ nowNs s < (queueOf q s).quarUntil := by omega
    simp [hnow, hpool, configured]

/-- Settles O20: an enabled queue takes only its release, a disabled one a valid configuration. -/
theorem queueConfiguration : Obligations.QueueConfiguration := by
  refine ⟨?_, ?_, ?_, ?_, ?_⟩
  · intro who q v s h hen hb hw hbusy hnamed
    have hfree : ((queueOf q s).kind == 1 && namedAsCq q s) = false := by
      by_cases hk : (queueOf q s).kind = 1 <;> simp [hk, hnamed]
    rw [exec_hqCfg v h, if_pos hen, cfgEnabled]
    simp [hb, hw, hbusy, hfree]
  · intro who q v s h hen hbad
    rw [exec_hqCfg v h, if_pos hen, cfgEnabled]
    rcases hbad with hb | hw | hbusy
    · simp [hb, cfgError, updQueue]
    · simp [hw, cfgError, updQueue]
    · simp [hbusy, cfgError, updQueue]
  · intro who q v s h hen hb h4 h16 hk hquar hpool
    refine ⟨setQueue q (enableQueue (configured (queueOf q s) v) s) s, ?_, ?_⟩
    · rw [exec_hqCfg v h, if_neg (by simp [hen]), cfgDisabled_valid h4 h16 hk (fun _ => ⟨hquar, hpool⟩), if_pos hb]
    · rw [queueOf_setQueue]
      exact ⟨rfl, rfl, rfl, rfl, rfl, rfl, rfl, rfl, rfl, rfl, fun p hp => queueOf_setQueue_ne _ _ _ _ hp, rfl, rfl, rfl⟩
  · intro who q v s h hen hb h4 h16 hk
    rw [exec_hqCfg v h, if_neg (by simp [hen]), cfgDisabled_valid h4 h16 hk (fun ht => by simp [hb] at ht), if_neg (by simp [hb])]
    rfl
  · intro who q v s h hen hbad
    rw [exec_hqCfg v h, if_neg (by simp [hen]), cfgDisabled_invalid hbad]
    rfl

/-! ## O21: flush and resume -/

theorem exec_flush {who q ms : Nat} {s : State} (h : mayControl who q 0x10 s) (hms : ms < 65536) :
    exec (.flush who q ms) s = .next (flushDo q ms s) := by
  refine (onWf_of_wf (i := .flush who q ms) (by simp [Instr.wf, h.1, h.2.1.1, hms])).trans ?_
  rw [controlled_granted h]

theorem exec_hardFlush {q : Nat} (s : State) (h : q < 8192) : exec (.hardFlush q) s = .next (hardFlushDo q s) :=
  onWf_of_wf (i := .hardFlush q) (by simp [Instr.wf, h])

theorem exec_resume {who q : Nat} {s : State} (h : mayControl who q 0x10 s) : exec (.resume who q) s = .next (resumeDo q s) := by
  refine (onWf_of_wf (i := .resume who q) (by simp [Instr.wf, h.1, h.2.1.1])).trans ?_
  rw [controlled_granted h]

theorem mem_cellsSet {α : Type} {l : List (Nat × α)} {k : Nat} {v : α} {c : Nat × α} (h : c ∈ cellsSet l k v) : c = (k, v) ∨ c ∈ l := by
  induction l with
  | nil => simpa [cellsSet] using h
  | cons a r ih =>
    simp only [cellsSet] at h
    split at h
    · simpa using h
    · split at h
      · simp only [List.mem_cons] at h ⊢; tauto
      · simp only [List.mem_cons] at h ⊢; tauto

/-- No command queue owes a FLUSHED completion (R394). -/
def NothingOwed (s : State) : Prop := ∀ c ∈ s.hq.toList, c.2.kind = 0 → c.2.owed = []

theorem NothingOwed.setQueue {s : State} (h : NothingOwed s) (q : Nat) {u : Queue} (hu : u.owed = []) : NothingOwed (setQueue q u s) := by
  intro c hc _
  rcases mem_cellsSet hc with rfl | hc
  · exact hu
  · exact h c hc ‹_›

theorem roomFreed_nothingOwed {s : State} (h : NothingOwed s) (r : Nat) : roomFreed r s = s := by
  have hnone : s.hq.toList.filter (fun c => c.1 / 128 == r / 128 && c.2.kind == 0 && c.2.cq == r % 128 && !c.2.owed.isEmpty) = [] := by
    refine List.filter_eq_nil_iff.mpr fun c hc => ?_
    by_cases hk : c.2.kind = 0
    · simp [h c hc hk]
    · simp [hk]
  rw [roomFreed, hnone]; rfl

/-- Where nothing is owed, no FLUSHED completion is written. -/
theorem owing_none {q : Nat} {s : State} (h : NothingOwed s) (ho : (queueOf q s).owed = []) :
    roomFreed q (writeOwed (queueOf q s).owed.length q s) = s := by
  rw [ho]
  exact roomFreed_nothingOwed h q

/-- The words that a flush discards (R394). -/
def flushedWords (u : Queue) : Nat := (u.visible.map (fun p => p.words.length + 1)).sum

/-- A record queue after its flush: what was begun stays (R394). -/
def recordFlushed (u : Queue) : Queue := { u with visible := [], flushPending := false, hardAt := none }

theorem flushNow_record {q : Nat} {s : State} (hk : (queueOf q s).kind = 1) (ho : (queueOf q s).owed = []) (h : NothingOwed s) :
    flushNow q s = if flushedWords (queueOf q s) = 0 then setQueue q (recordFlushed (queueOf q s)) s
      else count (hqDiscardedOff q) (flushedWords (queueOf q s)) (setQueue q (recordFlushed (queueOf q s)) s) := by
  have howes : ((queueOf q s).kind == 0 && (queueOf q s).enable && cqValid q s) = false := by simp [hk]
  have hset : NothingOwed (setQueue q (recordFlushed (queueOf q s)) s) := h.setQueue q ho
  simp only [flushNow, howes, Bool.false_eq_true, if_false, List.append_nil]
  change (let t := if flushedWords (queueOf q s) = 0 then setQueue q (recordFlushed (queueOf q s)) s
      else count (hqDiscardedOff q) (flushedWords (queueOf q s)) (setQueue q (recordFlushed (queueOf q s)) s)
    roomFreed q (writeOwed (queueOf q t).owed.length q t)) = _
  refine owing_none ?_ ?_
  · split <;> exact hset
  · split
    · rw [queueOf_setQueue]; exact ho
    · rw [queueOf_count, queueOf_setQueue]; exact ho

theorem flushNow_record_facts {q : Nat} {s : State} (hk : (queueOf q s).kind = 1) (ho : (queueOf q s).owed = []) (h : NothingOwed s) :
    queueOf q (flushNow q s) = recordFlushed (queueOf q s) ∧ (∀ p, p ≠ q → queueOf p (flushNow q s) = queueOf p s) ∧
      (flushNow q s).hostMem = s.hostMem ∧ (flushNow q s).dram = s.dram ∧ nowNs (flushNow q s) = nowNs s := by
  rw [flushNow_record hk ho h]
  split
  · exact ⟨queueOf_setQueue _ _ _, fun p hp => queueOf_setQueue_ne _ _ _ _ hp, rfl, rfl, rfl⟩
  · simp only [queueOf_count]
    exact ⟨queueOf_setQueue _ _ _, fun p hp => queueOf_setQueue_ne _ _ _ _ hp, rfl, rfl, rfl⟩

theorem flushedWords_pos {u : Queue} (h : u.visible ≠ []) : flushedWords u ≠ 0 := by
  cases hv : u.visible with
  | nil => exact absurd hv h
  | cons p r => simp [flushedWords, hv]

theorem flushDo_closed {q : Nat} {s : State} (ms : Nat) (h : (queueOf q s).opened = none) : flushDo q ms s = flushNow q s := by
  simp only [flushDo, h]

/-- The state of a hard flush whose open packet has been discarded and counted (R395). -/
def openDiscarded (q : Nat) (o : OpenPacket) (s : State) : State :=
  count (hqDiscardedOff q) o.words.length (setQueue q { queueOf q s with opened := none } s)

theorem hardFlushDo_due {q at_ : Nat} {s : State} {o : OpenPacket} (ho : (queueOf q s).opened = some o) (ha : (queueOf q s).hardAt = some at_)
    (hp : (queueOf q s).flushPending = true) (hat : at_ ≤ nowNs s) (hg : qgenMayChange (queueOf q s) s = true) :
    hardFlushDo q s = updQueue q (fun u => { u with qgen := (u.qgen + 1) % 4096, qgenAt := some (nowNs (flushNow q (openDiscarded q o s))) })
      (flushNow q (openDiscarded q o s)) := by
  simp only [hardFlushDo, ho, ha, hp, hat, hg, decide_true, Bool.and_self, if_true, openDiscarded]

theorem nowNs_openDiscarded (q : Nat) (o : OpenPacket) (s : State) : nowNs (openDiscarded q o s) = nowNs s := rfl

theorem markDone_keeps (u : Queue) (seq : Nat) :
    (u.markDone seq).halted = u.halted ∧ (u.markDone seq).part = u.part ∧ (u.markDone seq).next = u.next ∧
      (u.markDone seq).visible = u.visible := ⟨rfl, rfl, rfl, rfl⟩

theorem resumed_facts (u : Queue) : u.resumed.halted = false ∧ u.resumed.part = none ∧ u.resumed.next = u.next ∧ u.resumed.visible = u.visible := by
  unfold Queue.resumed
  cases u.part with
  | none => exact ⟨rfl, rfl, rfl, rfl⟩
  | some b => exact markDone_keeps _ _

/-- Settles O21: the flush waits for the packet boundary, the hard flush makes one, and RESUME undoes the halt. -/
theorem queueFlushAndResume : Obligations.QueueFlushAndResume := by
  refine ⟨?_, ?_, ?_, ?_, ?_⟩
  · intro who q ms s h hms hopen
    obtain ⟨o, ho⟩ := Option.isSome_iff_exists.mp hopen
    rw [exec_flush h hms]
    simp only [flushDo, ho]
  · intro who q ms s h hms hopen
    rw [exec_flush h hms, flushDo_closed ms hopen]
  · intro who q ms s h hms hopen hk howed hnone
    obtain ⟨hq, hother, hhost, hdram, _⟩ := flushNow_record_facts hk howed hnone
    refine ⟨flushNow q s, by rw [exec_flush h hms, flushDo_closed ms hopen], ?_⟩
    rw [hq]
    refine ⟨rfl, rfl, rfl, fun hv => ?_, hother, hhost, hdram⟩
    rw [flushNow_record hk howed hnone, if_neg (flushedWords_pos hv), ctrGet_count]
    rfl
  · intro q at_ s hq hopen ha hp hat hg hk howed hnone
    obtain ⟨o, ho⟩ := Option.isSome_iff_exists.mp hopen
    have hqueue : queueOf q (openDiscarded q o s) = { queueOf q s with opened := none } := queueOf_setQueue _ _ _
    obtain ⟨hflush, hother, hhost, hdram, hnow⟩ := flushNow_record_facts (q := q) (s := openDiscarded q o s)
      (by rw [hqueue]; exact hk) (by rw [hqueue]; exact howed)
      (NothingOwed.setQueue hnone q (u := { queueOf q s with opened := none }) howed)
    refine ⟨_, exec_hardFlush s hq, ?_⟩
    rw [hardFlushDo_due ho ha hp hat hg, updQueue]
    generalize flushNow q (openDiscarded q o s) = t at hflush hother hhost hdram hnow ⊢
    rw [queueOf_setQueue, hflush, hqueue, hnow, nowNs_openDiscarded]
    refine ⟨rfl, rfl, rfl, rfl, rfl, fun p hp => ?_, hhost, hdram⟩
    rw [queueOf_setQueue_ne _ _ _ _ hp, hother p hp]
    exact queueOf_setQueue_ne _ _ _ _ hp
  · intro who q s h hh he hhold
    have hnot : (s.body.hold && q / 128 != 0) = false := by rcases hhold with h | h <;> simp [h]
    refine ⟨setQueue q (queueOf q s).resumed s, ?_, ?_⟩
    · rw [exec_resume h, resumeDo]
      simp [hh, he, hnot]
    · obtain ⟨hhalt, hpart, hnext, hvis⟩ := resumed_facts (queueOf q s)
      rw [queueOf_setQueue]
      exact ⟨hhalt, hpart, hnext, hvis, fun p hp => queueOf_setQueue_ne _ _ _ _ hp, rfl, rfl, rfl⟩

/-! ## O22: vectors and the mirror -/

theorem queueIrq_due {q : Nat} {s : State} (h : ((queueOf q s).irqEn && (queueOf q s).armed && (queueOf q s).irqDue (nowNs s)) = true) :
    queueIrq q s = emit (.msix (q / 128) (queueOf q s).vector) (setQueue q { queueOf q s with armed := false } s) := by
  simp only [queueIrq, h, if_true]

theorem queueIrq_notDue {q : Nat} {s : State} (h : ((queueOf q s).irqEn && (queueOf q s).armed && (queueOf q s).irqDue (nowNs s)) = false) :
    queueIrq q s = s := by
  simp only [queueIrq, h]; rfl

theorem exec_queueIrqTimeout {q : Nat} (s : State) (h : q < 8192) : exec (.queueIrqTimeout q) s = .next (queueIrq q s) :=
  onWf_of_wf (i := .queueIrqTimeout q) (by simp [Instr.wf, h])

theorem exec_arm {who q : Nat} {s : State} (h : mayControl who q 0x10 s) : exec (.arm who q) s = .next (armDo q s) := by
  refine (onWf_of_wf (i := .arm who q) (by simp [Instr.wf, h.1, h.2.1.1])).trans ?_
  rw [controlled_granted h]

theorem exec_mirrorDrain {q : Nat} (s : State) (h : q < 8192) : exec (.mirrorDrain q) s = .next (mirrorDrainDo q s) :=
  onWf_of_wf (i := .mirrorDrain q) (by simp [Instr.wf, h])

theorem exec_hqMirrorCons {who q : Nat} {s : State} (v : BitVec 64) (h : mayControl who q 0x58 s) :
    exec (.hqMirrorCons who q v) s = .next (mirrorConsDo q v s) := by
  refine (onWf_of_wf (i := .hqMirrorCons who q v) (by simp [Instr.wf, h.1, h.2.1.1])).trans ?_
  rw [controlled_granted h]

/-- A queue that ARM has armed (R400). -/
def nowArmed (q : Nat) (s : State) : State := setQueue q { queueOf q s with armed := true } s

theorem queueOf_nowArmed (q : Nat) (s : State) : queueOf q (nowArmed q s) = { queueOf q s with armed := true } := queueOf_setQueue _ _ _

theorem irqDue_nowArmed (q : Nat) (s : State) :
    ((queueOf q (nowArmed q s)).irqEn && (queueOf q (nowArmed q s)).armed && (queueOf q (nowArmed q s)).irqDue (nowNs (nowArmed q s)))
      = ((queueOf q s).irqEn && (queueOf q s).irqDue (nowNs s)) := by
  rw [queueOf_nowArmed]
  simp only [Bool.and_true]
  rfl

/-- Settles O22: an armed queue whose condition holds sends its vector once, and the mirror writes packets to the ring. -/
theorem queueInterruptsAndMirror : Obligations.QueueInterruptsAndMirror := by
  refine ⟨?_, ?_, ?_, ?_, ?_⟩
  · intro q s hq hen harm hdue
    rw [exec_queueIrqTimeout s hq, queueIrq_due (by simp [hen, harm, hdue])]
  · intro who q s h
    have hother : ∀ p, p ≠ q → queueOf p (nowArmed q s) = queueOf p s := fun p hp => queueOf_setQueue_ne _ _ _ _ hp
    refine ⟨queueIrq q (nowArmed q s), exec_arm h, ?_⟩
    refine ⟨?_, ?_, fun p hp => by rw [queueOf_queueIrq_ne _ hp, hother p hp], by simp [nowArmed], by simp [nowArmed]⟩
    · cases hdue : (queueOf q s).irqEn && (queueOf q s).irqDue (nowNs s) with
      | false => rw [queueIrq_notDue ((irqDue_nowArmed q s).trans hdue), queueOf_nowArmed]; rfl
      | true => rw [queueIrq_due ((irqDue_nowArmed q s).trans hdue), queueOf_emit, queueOf_setQueue]; rfl
    · cases hdue : (queueOf q s).irqEn && (queueOf q s).irqDue (nowNs s) with
      | false => rw [queueIrq_notDue ((irqDue_nowArmed q s).trans hdue)]; rfl
      | true => rw [queueIrq_due ((irqDue_nowArmed q s).trans hdue), queueOf_nowArmed]; rfl
  · intro q s p rest hq hv hen hk hm hroom
    refine ⟨_, exec_mirrorDrain s hq, ?_⟩
    have hfits : (queueOf q s).produced + (p.words.length + 1) ≤ (queueOf q s).consumed + 2 ^ (queueOf q s).ringLog2 := hroom
    simp [mirrorDrainDo, hv, hen, hk, hm, hfits]
  · intro q s p rest hq hv hfull
    have hnot : ¬ (queueOf q s).produced + (p.words.length + 1) ≤ (queueOf q s).consumed + 2 ^ (queueOf q s).ringLog2 := by omega
    rw [exec_mirrorDrain s hq]
    simp [mirrorDrainDo, hv, hnot]
  · intro who q v s h
    refine ⟨mirrorConsDo q v s, exec_hqMirrorCons v h, ?_⟩
    rw [mirrorConsDo, updQueue, queueOf_setQueue]
    exact ⟨rfl, rfl, rfl, fun p hp => queueOf_setQueue_ne _ _ _ _ hp, rfl, rfl⟩

end Sys2Proof
end

section
/-! PROOFS. The statements of the dispatcher and of fatal errors (R408-R412, R444-R447). -/

namespace Sys2Proof

open Machine

/-! ## O24: the dispatcher -/

theorem exec_workItemDispatch {c : Nat} (s : State) (h : c < 64) : exec (.workItemDispatch c) s = .next (workDispatchDo c s) :=
  onWf_of_wf (i := .workItemDispatch c) (by simp [Instr.wf, h])

theorem exec_workItemEnd {c : Nat} (s : State) (h : c < 64) : exec (.workItemEnd c) s = .next (workItemEndDo c s) :=
  onWf_of_wf (i := .workItemEnd c) (by simp [Instr.wf, h])

theorem exec_watchdog {c : Nat} (s : State) (h : c < 64) : exec (.watchdog c) s = .next (watchdogDo c s) :=
  onWf_of_wf (i := .watchdog c) (by simp [Instr.wf, h])

theorem exec_heartbeat (s : State) : exec .heartbeat s = .next (heartbeatDo s) := onWf_of_wf (i := .heartbeat) rfl

/-- `w` is the first item of the most urgent level of `l` (R410). -/
structure HeadOf (w : WorkItem) (pre rest l : List WorkItem) : Prop where
  split : l = pre ++ w :: rest
  least : ∀ v ∈ l, w.prio ≤ v.prio
  first : ∀ v ∈ pre, w.prio < v.prio

theorem headItem_spec (l : List WorkItem) (hl : l ≠ []) : ∃ w pre rest, headItem l = some w ∧ HeadOf w pre rest l := by
  induction l with
  | nil => exact absurd rfl hl
  | cons a r ih =>
    by_cases hr : r = []
    · subst hr
      exact ⟨a, [], [], rfl, rfl, by simp, by simp⟩
    · obtain ⟨v, pre, rest, hv, hsplit, hleast, hfirst⟩ := ih hr
      by_cases hlt : v.prio < a.prio
      · refine ⟨v, a :: pre, rest, by simp [headItem, hv, hlt], by rw [hsplit]; rfl, ?_, ?_⟩
        · exact List.forall_mem_cons.mpr ⟨hlt.le, hleast⟩
        · exact List.forall_mem_cons.mpr ⟨hlt, hfirst⟩
      · refine ⟨a, [], r, by simp [headItem, hv, hlt], rfl, ?_, by simp⟩
        exact List.forall_mem_cons.mpr ⟨le_rfl, fun x hx => (not_lt.mp hlt).trans (hleast x hx)⟩

/-- Taking the head item leaves the others in their order. -/
theorem HeadOf.erase {w : WorkItem} {pre rest l : List WorkItem} (h : HeadOf w pre rest l) : l.erase w = pre ++ rest := by
  have hnot : w ∉ pre := fun hw => lt_irrefl _ (h.first w hw)
  rw [h.split, List.erase_append_right _ hnot, List.erase_cons_head]

theorem workDispatchDo_takes {c : Nat} {s : State} {w : WorkItem} (hfree : (coreOf c s).running = none)
    (hw : headItem s.disp.ready = some w) (hrun : coresRun s = true) :
    workDispatchDo c s = setCore c ⟨some w, nowNs s, w.handle, cmpNow s⟩ { s with disp := { s.disp with ready := s.disp.ready.erase w } } := by
  simp only [workDispatchDo, hfree, hw, hrun, if_true]
  rfl

theorem coreOf_congr {s t : State} (h : t.disp.cores = s.disp.cores) (c : Nat) : coreOf c t = coreOf c s := by simp only [coreOf, h]

theorem workItemEndDo_running {c : Nat} {s : State} {w : WorkItem} (h : (coreOf c s).running = some w) :
    workItemEndDo c s = itemEnded w (setCore c { coreOf c s with running := none } s) := by
  simp only [workItemEndDo, h]

theorem itemEnded_heartbeat {w : WorkItem} (s : State) (h : handleIdx w.handle = 0) :
    itemEnded w s = { s with disp := { s.disp with hbDue := some (nowNs s + 20000000), hbWatch := some (nowNs s) } } := if_pos h

theorem itemEnded_released {w : WorkItem} (s : State) (h : handleIdx w.handle ≠ 0) :
    itemEnded w s = { releaseId .work (handleIdx w.handle) s with disp := { s.disp with ended := s.disp.ended.set (handleIdx w.handle) w } } :=
  if_neg h

/-- What the end of an item leaves: the cores, the ready items, the queues, the memories and the counters. -/
theorem itemEnded_keeps (w : WorkItem) (s : State) :
    (itemEnded w s).disp.cores = s.disp.cores ∧ (itemEnded w s).disp.ready = s.disp.ready ∧ (itemEnded w s).hq = s.hq ∧
      (itemEnded w s).dram = s.dram ∧ (itemEnded w s).hostMem = s.hostMem ∧ (itemEnded w s).ctr = s.ctr ∧ (itemEnded w s).upd = s.upd := by
  unfold itemEnded
  split <;> exact ⟨rfl, rfl, rfl, rfl, rfl, rfl, rfl⟩

/-- The core is free and its item, but for a HEARTBEAT, has ended (R408, R412). -/
def stoppedItem (c : Nat) (w : WorkItem) (s : State) : State :=
  if handleIdx w.handle = 0 then setCore c { coreOf c s with running := none } s
  else itemEnded w (setCore c { coreOf c s with running := none } s)

theorem stoppedItem_keeps (c : Nat) (w : WorkItem) (s : State) :
    (coreOf c (stoppedItem c w s)).running = none ∧ (stoppedItem c w s).hq = s.hq ∧ (stoppedItem c w s).dram = s.dram ∧
      (stoppedItem c w s).hostMem = s.hostMem ∧ (stoppedItem c w s).ctr = s.ctr ∧ (stoppedItem c w s).upd = s.upd := by
  unfold stoppedItem
  split
  · exact ⟨by rw [coreOf_setCore], rfl, rfl, rfl, rfl, rfl⟩
  · obtain ⟨hcores, _, hhq, hdram, hhost, hctr, hupd⟩ := itemEnded_keeps w (setCore c { coreOf c s with running := none } s)
    exact ⟨by rw [coreOf_congr hcores, coreOf_setCore], hhq, hdram, hhost, hctr, hupd⟩

/-- A stopped item's record, the count and the event of R412. -/
def watchdogNoted (c : Nat) (w : WorkItem) (s : State) : State :=
  let t := record 0x0D01 [(1, c), (8, w.handle), (1, w.type)] (stoppedItem c w s)
  count dispWatchdogOff 1 { t with disp := { t.disp with evWatchdog := true } }

theorem watchdogDo_late {c : Nat} {s : State} {w : WorkItem} (h : (coreOf c s).running = some w)
    (hlate : (coreOf c s).startNs + s.disp.watchdogMs * 1000000 < nowNs s) :
    watchdogDo c s = endTrial (pfVector 7 (watchdogNoted c w s)) := by
  simp only [watchdogDo, h, hlate, if_true]
  rfl

theorem trialRunning_congr {s t : State} (h : t.upd = s.upd) : trialRunning t = trialRunning s := by simp only [trialRunning, h]

theorem endTrial_only (s : State) : ∃ u, endTrial s = { s with upd := u } := by
  unfold endTrial
  split <;> exact ⟨_, rfl⟩

theorem endTrial_over {s : State} (h : trialRunning s = true) : (endTrial s).upd.trialOver = true := by
  rw [endTrial, if_pos h]

/-- What `watchdogNoted` sets and what it leaves. -/
theorem watchdogNoted_facts (c : Nat) (w : WorkItem) (s : State) :
    (coreOf c (watchdogNoted c w s)).running = none ∧ (watchdogNoted c w s).disp.evWatchdog = true ∧
      ctrGet dispWatchdogOff (watchdogNoted c w s) = satAdd 64 (ctrGet dispWatchdogOff s) 1 ∧
      (watchdogNoted c w s).hq = s.hq ∧ (watchdogNoted c w s).dram = s.dram ∧ (watchdogNoted c w s).hostMem = s.hostMem ∧
      (watchdogNoted c w s).upd = s.upd := by
  obtain ⟨hcore, hhq, hdram, hhost, hctr, hupd⟩ := stoppedItem_keeps c w s
  have hlog := (logOnly_record 0x0D01 [(1, c), (8, w.handle), (1, w.type)] (stoppedItem c w s)).ctr dispWatchdogOff (by decide)
  have hframe := record_frame 0x0D01 [(1, c), (8, w.handle), (1, w.type)] (stoppedItem c w s)
  rw [ctrGet_congr hctr] at hlog
  unfold watchdogNoted
  generalize hr : record 0x0D01 [(1, c), (8, w.handle), (1, w.type)] (stoppedItem c w s) = r at hlog
  have hd : r.disp = (stoppedItem c w s).disp := by rw [← hr]; simp
  refine ⟨?_, rfl, ?_, ?_, ?_, ?_, ?_⟩
  · rw [coreOf_congr (s := stoppedItem c w s) (by change r.disp.cores = _; rw [hd])]
    exact hcore
  · dsimp only
    rw [ctrGet_count, ← hlog]
    rfl
  · exact (by rw [← hr]; simp : r.hq = (stoppedItem c w s).hq).trans hhq
  · exact (by rw [← hr]; simp : r.dram = (stoppedItem c w s).dram).trans hdram
  · exact (by rw [← hr]; simp : r.hostMem = (stoppedItem c w s).hostMem).trans hhost
  · exact (by rw [← hr]; simp : r.upd = (stoppedItem c w s).upd).trans hupd

/-- Settles O24: the head item is dispatched, its end frees the core, the watchdog stops it, and HEARTBEAT is posted when due. -/
theorem dispatchRunsMostUrgent : Obligations.DispatchRunsMostUrgent := by
  refine ⟨?_, ?_, ?_, ?_, ?_⟩
  · intro c s hc hfree hready hrun
    obtain ⟨w, pre, rest, hw, hhead⟩ := headItem_spec s.disp.ready hready
    refine ⟨_, w, pre, rest, exec_workItemDispatch s hc, hhead.split, hhead.least, hhead.first, ?_⟩
    rw [workDispatchDo_takes hfree hw hrun]
    exact ⟨hhead.erase, coreOf_setCore _ _ _, fun d hd => coreOf_setCore_ne _ _ _ _ hd, rfl, rfl, rfl⟩
  · intro c s w hc hrunning hidx
    refine ⟨_, exec_workItemEnd s hc, ?_⟩
    rw [workItemEndDo_running hrunning, itemEnded_released _ hidx]
    refine ⟨?_, ?_, Tab.find_set_same _ _ _, rfl, fun d hd => ?_⟩
    · rw [coreOf_congr (s := setCore c { coreOf c s with running := none } s) (by rfl), coreOf_setCore]
    · rw [identOf_congr (s := releaseId .work (handleIdx w.handle) (setCore c { coreOf c s with running := none } s)) (by rfl),
        identOf_releaseId]
    · rw [coreOf_congr (s := setCore c { coreOf c s with running := none } s) (by rfl), coreOf_setCore_ne _ _ _ _ hd]
  · intro c s w hc hrunning hidx
    refine ⟨_, exec_workItemEnd s hc, ?_⟩
    rw [workItemEndDo_running hrunning, itemEnded_heartbeat _ hidx]
    refine ⟨?_, rfl, rfl, rfl, rfl⟩
    rw [coreOf_congr (s := setCore c { coreOf c s with running := none } s) (by rfl), coreOf_setCore]
  · intro c s w hc hrunning hlate
    refine ⟨_, exec_watchdog s hc, ?_⟩
    rw [watchdogDo_late hrunning hlate]
    obtain ⟨hcore, hev, hctr, hhq, hdram, hhost, hupd⟩ := watchdogNoted_facts c w s
    generalize watchdogNoted c w s = r at hcore hev hctr hhq hdram hhost hupd
    have htrial : trialRunning s = true → (endTrial (pfVector 7 r)).upd.trialOver = true :=
      fun h => endTrial_over ((trialRunning_congr (t := pfVector 7 r) hupd).trans h)
    obtain ⟨u, hu⟩ := endTrial_only (pfVector 7 r)
    rw [hu] at htrial ⊢
    exact ⟨hcore, hev, hctr, htrial, List.mem_cons_self, hhq, hdram, hhost⟩
  · intro at_ s hdue hle
    refine ⟨postHeartbeat s, ?_, ⟨_, rfl, ?_, ?_, ?_, rfl, rfl⟩, rfl, ctrGet_count _ _ _, rfl, rfl⟩
    · rw [exec_heartbeat, heartbeatDo, hdue]
      simp only [hle, if_true]
    · exact (by decide : handleKind (handleOf .work 0 0) = 5)
    · exact (by decide : handleGen (handleOf .work 0 0) = 0)
    · exact (by decide : handleIdx (handleOf .work 0 0) = 0)

/-! ## O25: fatal errors -/

theorem exec_fatalError (s : State) : exec .fatalError s = .next (fatalError 2 s) := onWf_of_wf (i := .fatalError) rfl

theorem exec_coresLost (s : State) : exec .coresLost s = .next (coresLostDo s) := onWf_of_wf (i := .coresLost) rfl

/-- A halted command queue: the command in progress may have run in part (R405). -/
def stoppedQueue (u : Queue) : Queue :=
  { u with halted := true, busy := none, part := match u.busy with | some b => some b | none => u.part }

/-- What a halt makes of a queue (R405). -/
def haltedQueue (u : Queue) : Queue := if u.enable = true ∧ u.kind = 0 then stoppedQueue u else u

theorem haltedQueue_idem (u : Queue) : haltedQueue (haltedQueue u) = haltedQueue u := by
  by_cases h : u.enable = true ∧ u.kind = 0
  · have hs : haltedQueue u = stoppedQueue u := if_pos h
    rw [hs]
    exact if_pos h
  · have hs : haltedQueue u = u := if_neg h
    rw [hs, hs]

theorem hq_haltQueue (q : Nat) (s : State) :
    (haltQueue q s).hq = if (queueOf q s).enable = true ∧ (queueOf q s).kind = 0 then s.hq.set q (stoppedQueue (queueOf q s)) else s.hq := by
  unfold haltQueue
  extract_lets u
  simp only [Bool.and_eq_true, beq_iff_eq]
  split
  · next part t _ =>
    have ht : t.hq = s.hq.set q (stoppedQueue (queueOf q s)) := rfl
    clear_value t
    cases part with
    | none => exact ht
    | some b => simpa using ht
  · rfl

theorem queueOf_haltQueue (q : Nat) (s : State) : queueOf q (haltQueue q s) = haltedQueue (queueOf q s) := by
  rw [queueOf, hq_haltQueue, haltedQueue]
  split
  · exact Tab.get_set_same _ _ _ _
  · rfl

theorem queueOf_haltQueue_ne {p q : Nat} (s : State) (h : p ≠ q) : queueOf p (haltQueue q s) = queueOf p s := by
  rw [queueOf, hq_haltQueue]
  split
  · exact Tab.get_set_other _ _ _ _ _ h
  · rfl

theorem queueOf_foldl_haltQueue (q : Nat) (l : List Nat) (s : State) :
    queueOf q (l.foldl (fun s q => haltQueue q s) s) = if q ∈ l then haltedQueue (queueOf q s) else queueOf q s := by
  induction l generalizing s with
  | nil => rfl
  | cons p r ih =>
    rw [List.foldl_cons, ih]
    by_cases hp : q = p
    · subst hp
      simp [queueOf_haltQueue, haltedQueue_idem]
    · simp [queueOf_haltQueue_ne s hp, hp]

/-- Every listed queue halts. -/
theorem queueOf_haltQueues {q : Nat} {u : Queue} {s : State} (h : s.hq.find? q = some u) : queueOf q (haltQueues s) = haltedQueue u := by
  have hmem : q ∈ s.hq.toList.map (·.1) := List.mem_map.mpr ⟨(q, u), mem_of_cellsFind h, rfl⟩
  have hu : queueOf q s = u := by simp [queueOf, Tab.get, h]
  rw [haltQueues, queueOf_foldl_haltQueue, if_pos hmem, hu]

/-! ### The phase -/

theorem phase_lastGaspRecord (r : Record) (s : State) : (lastGaspRecord r s).evr.phase = s.evr.phase := by
  simp only [lastGaspRecord]
  split <;> rfl

theorem phase_storeRecord (code origin master : Nat) (pl : List Byte) (s : State) :
    (storeRecord code origin master pl s).evr.phase = s.evr.phase := by
  simp only [storeRecord]
  split
  · rw [phase_lastGaspRecord]
  · split
    · refine (phase_lastGaspRecord _ _).trans ?_
      rfl
    · rfl

theorem phase_lgChanged (s : State) (lg : List Record) : ({ s with evr := { s.evr with lg := lg } } : State).evr.phase = s.evr.phase := rfl

theorem phase_foldInto (slot : Nat) (s : State) : (foldInto slot s).evr.phase = s.evr.phase := by
  unfold foldInto
  split
  · rfl
  · exact phase_lgChanged s _

theorem phase_evrWrite (code origin master : Nat) (pl : List Byte) (s : State) :
    (evrWrite code origin master pl s).1.evr.phase = s.evr.phase := by
  simp only [evrWrite]
  split
  · exact phase_storeRecord _ _ _ _ _
  · split
    · split
      · rfl
      · rw [phase_storeRecord]
        split
        · rfl
        · exact phase_storeRecord _ _ _ _ _
    · split
      · split
        · exact phase_foldInto _ s
        · exact phase_storeRecord _ _ _ _ _
      · exact phase_storeRecord _ _ _ _ _

theorem phase_record (code : Nat) (items : List (Nat × Nat)) (s : State) : (record code items s).evr.phase = s.evr.phase :=
  phase_evrWrite _ _ _ _ _

theorem phase_setPhase (p : Nat) (s : State) : (setPhase p s).evr.phase = p := by
  simp only [setPhase]
  split
  · assumption
  · exact phase_record _ _ _

/-! ### The dump -/

/-- The state of a fatal error before its dump starts (R444). -/
def fatalHalted (cause : Nat) (s : State) : State := endTrial (setPhase 3 (haltQueues (record 3 [(1, cause)] s)))

theorem fatalError_eq (cause : Nat) (s : State) : fatalError cause s = startDump cause s.evr.nextSeq (fatalHalted cause s) := rfl

theorem startDump_phase (cause seq : Nat) (s : State) : (startDump cause seq s).evr.phase = s.evr.phase := by
  unfold startDump
  extract_lets writer skipD skipF keptD keptF d0 s1 d1 s2 e d2 s3 s4
  have h3 : s3.evr = s.evr := by simp only [s3, s2, s1]; split <;> split <;> rfl
  have h4 : s4.evr.phase = s.evr.phase := by
    simp only [s4]
    split
    · rw [phase_record, h3]
    · rw [h3]
  split
  · rw [phase_record, h4]
  · exact h4

theorem startDump_free (cause seq : Nat) {s : State} (h : s.dump.dramState = 0) :
    (startDump cause seq s).dump.dramState = 1 ∧ (startDump cause seq s).dump.cause = cause := by
  unfold startDump
  extract_lets writer skipD skipF keptD keptF d0 s1 d1 s2 e d2 s3 s4
  have hD : skipD = false := by simp [skipD, h]
  have h1 : s1.dump.dramState = 1 ∧ s1.dump.cause = cause := by
    simp only [s1, hD]
    exact ⟨rfl, rfl⟩
  have h2 : s2.dump.dramState = s1.dump.dramState ∧ s2.dump.cause = s1.dump.cause := by
    simp only [s2]
    split <;> exact ⟨rfl, rfl⟩
  have h3 : s3.dump.dramState = 1 ∧ s3.dump.cause = cause := ⟨h2.1.trans h1.1, h2.2.trans h1.2⟩
  have h4 : s4 = s3 := by simp only [s4, hD]; rfl
  rw [h4]
  split
  · rw [(by simp : ∀ items, (record 8 items s3).dump = s3.dump) _]
    exact h3
  · exact h3

theorem fatalHalted_frame (cause : Nat) (s : State) :
    (fatalHalted cause s).hq = (haltQueues (record 3 [(1, cause)] s)).hq ∧ (fatalHalted cause s).dump = s.dump ∧
      (fatalHalted cause s).evr.phase = 3 := by
  have hphase := phase_setPhase 3 (haltQueues (record 3 [(1, cause)] s))
  have hhq : (setPhase 3 (haltQueues (record 3 [(1, cause)] s))).hq = (haltQueues (record 3 [(1, cause)] s)).hq := by simp
  have hdump : (setPhase 3 (haltQueues (record 3 [(1, cause)] s))).dump = s.dump := by simp
  obtain ⟨u, hu⟩ := endTrial_only (setPhase 3 (haltQueues (record 3 [(1, cause)] s)))
  rw [fatalHalted, hu]
  exact ⟨hhq, hdump, hphase⟩

/-- Every listed queue halts in a fatal error. -/
theorem queueOf_fatalError {cause q : Nat} {u : Queue} {s : State} (h : s.hq.find? q = some u) :
    queueOf q (fatalError cause s) = haltedQueue u := by
  rw [fatalError_eq, queueOf_congr (s := fatalHalted cause s) (by simp), queueOf_congr (fatalHalted_frame cause s).1]
  exact queueOf_haltQueues (by simpa using h)

theorem fatalError_trial {cause : Nat} {s : State} (h : trialRunning s = true) : (fatalError cause s).upd.trialOver = true := by
  have hupd : (setPhase 3 (haltQueues (record 3 [(1, cause)] s))).upd = s.upd := by simp
  have hover : (fatalHalted cause s).upd.trialOver = true := endTrial_over ((trialRunning_congr hupd).trans h)
  obtain ⟨d, e, c, o, hdump⟩ := startDump_only cause s.evr.nextSeq (fatalHalted cause s)
  rw [fatalError_eq, hdump]
  exact hover

/-- Settles O25: a fatal error halts the command queues, enters RECOVERY, starts the dump and ends a trial. -/
theorem fatalErrorHaltsQueues : Obligations.FatalErrorHaltsQueues := by
  refine ⟨fun s => ⟨fatalError 2 s, exec_fatalError s, ?_, ?_, ?_, ?_, fatalError_trial, ?_, ?_, ?_⟩, ?_⟩
  · rw [fatalError_eq, startDump_phase]
    exact (fatalHalted_frame 2 s).2.2
  · intro q u hu hen hk
    have hstop : haltedQueue u = stoppedQueue u := if_pos ⟨hen, hk⟩
    rw [queueOf_fatalError hu, hstop]
    exact ⟨rfl, rfl, fun b hb => by simp only [stoppedQueue, hb]⟩
  · intro q u hu hk
    rw [queueOf_fatalError hu]
    exact if_neg (by simp [hk])
  · intro h
    rw [fatalError_eq]
    exact startDump_free 2 _ (by rw [(fatalHalted_frame 2 s).2.1]; exact h)
  · simp
  · simp
  · simp
  · intro at_ s hwatch hlate
    rw [exec_coresLost, coresLostDo, hwatch]
    simp only [hlate, if_true]

end Sys2Proof
end

section
/-! PROOFS. The statements of the stacked memory and of the access tables (R367-R388). -/

namespace Sys2Proof

open Machine

/-! ## O13: the control of a stack -/

theorem exec_memRun {who k : Nat} {s : State} (hk : k < 8) (h : mayWrite who (memOff k 8) s) : exec (.memRun who k) s = .next (runDo k s) := by
  refine (onWf_of_wf (i := .memRun who k) (by simp [Instr.wf, h.1, hk])).trans ?_
  rw [gated_granted h]

theorem exec_memPark {who k : Nat} {s : State} (on : Bool) (hk : k < 8) (h : mayWrite who (memOff k 8) s) :
    exec (.memPark who k on) s = .next (parkDo k on s) := by
  refine (onWf_of_wf (i := .memPark who k on) (by simp [Instr.wf, h.1, hk])).trans ?_
  rw [gated_granted h]

theorem exec_memHash {who k i : Nat} {bank : Bool} {s : State} (v : BitVec 64) (hk : k < 8) (hi : i < 6)
    (h : mayWrite who (memOff k ((if bank then 0x70 else 0x40) + i * 8)) s) :
    exec (.memHash who k bank i v) s = .next (memHashDo k bank i v s) := by
  refine (onWf_of_wf (i := .memHash who k bank i v) (by simp [Instr.wf, h.1, hk, hi])).trans ?_
  rw [gated_granted h]

theorem exec_rhWindowStart {k : Nat} (s : State) (hk : k < 8) : exec (.rhWindowStart k) s = .next (rhWindowDo k s) :=
  onWf_of_wf (i := .rhWindowStart k) (by simp [Instr.wf, hk])

theorem exec_selfRefresh {k : Nat} (s : State) (hk : k < 8) : exec (.selfRefresh k) s = .next (selfRefreshDo k s) :=
  onWf_of_wf (i := .selfRefresh k) (by simp [Instr.wf, hk])

/-- A running stack parks (R380). -/
theorem parkNow_running {k : Nat} {s : State} (h : (stackOf k s).state = 1) (hh : s.body.hold = false) :
    parkNow k s = setStack k { stackOf k s with state := 3, lost := (stackOf k s).lost ||| notKept (stackOf k s) } s := by
  simp [parkNow, updStack, h, hh]

/-- A stack whose PARK bit has been set (R380). -/
def parkAsked (k : Nat) (s : State) : State := setStack k { stackOf k s with park := true } s

theorem stackOf_parkAsked (k : Nat) (s : State) : stackOf k (parkAsked k s) = { stackOf k s with park := true } := stackOf_setStack _ _ _

/-- Settles O13: each write or event acts in the state of the stack that the rules name. -/
theorem stackControl : Obligations.StackControl := by
  refine ⟨?_, ?_, ?_, ?_, ?_, ?_⟩
  · intro who k s hk h hinit hpark
    rw [exec_memRun hk h, runDo, if_pos hinit, updStack, repark, stackOf_setStack]
    simp [hpark]
  · intro who k s hk h hrun hpark hhold
    refine ⟨parkNow k (parkAsked k s), ?_, ?_⟩
    · rw [exec_memPark true hk h, parkDo, if_neg (by simp [hpark]), if_pos rfl]
      rfl
    · rw [parkNow_running (s := parkAsked k s) (by rw [stackOf_parkAsked]; exact hrun) hhold]
      refine ⟨?_, fun j hj => ?_, rfl, rfl⟩
      · rw [stackOf_setStack, stackOf_parkAsked]; rfl
      · rw [stackOf_setStack_ne _ _ _ _ hj]
        exact stackOf_setStack_ne _ _ _ _ hj
  · intro who k i bank v s hk hi h hinit hvalid
    rw [exec_memHash v hk hi h]
    simp [memHashDo, updStack, hinit, hvalid]
  · intro who k i bank v s hk hi h hbad
    rw [exec_memHash v hk hi h, memHashDo]
    rcases hbad with hbad | hbad <;> simp [updStack, hbad]
  · intro k s hk hlate
    refine ⟨_, exec_rhWindowStart s hk, ?_⟩
    rw [rhWindowDo, if_pos hlate, stackOf_setStack]
    refine ⟨rfl, rfl, rfl, fun x hx => ?_, fun j hj => stackOf_setStack_ne _ _ _ _ hj, rfl⟩
    simpa using hx
  · intro k s hk hrun hidle
    rw [exec_selfRefresh s hk, selfRefreshDo, if_pos ⟨hrun, hidle⟩]

/-! ## O14: the access tables -/

theorem exec_accWrite {who : Nat} {s : State} (v : BitVec 64) (hw : who < 128) (h : accHas tgPage 0x800 who bitWrite s = true) :
    exec (.accWrite who v) s = .next (accWriteDo who v s) := by
  refine (onWf_of_wf (i := .accWrite who v) (by simp [Instr.wf, hw])).trans ?_
  simp [pageGated, accCheck_granted h]

theorem exec_accQuery {who : Nat} {s : State} (v : BitVec 64) (hw : who < 128) (h : accHas tgPage 0x800 who bitWrite s = true) :
    exec (.accQuery who v) s = .next (accQueryDo who v s) := by
  refine (onWf_of_wf (i := .accQuery who v) (by simp [Instr.wf, hw])).trans ?_
  simp [pageGated, accCheck_granted h]

/-- The tables with the entry that `v` names set (R386). -/
def entryWritten (v : Word64) (s : State) : State :=
  { s with acc := { s.acc with entries := s.acc.entries.set (entryKey (fld v 63 60) (fld v 59 44) (fld v 43 36)) (fld v 35 32) } }

theorem accWriteResult_ok {who : Nat} {v : Word64} {s : State} (hm : (who == 0 || isCore who) = true)
    (ht : fld v 59 44 < targetCount (fld v 63 60)) (h210 : fld v 43 36 < 210)
    (hl : accHas (fld v 63 60) (fld v 59 44) (fld v 43 36) bitLock s = false)
    (hc : fld v 63 60 = tgRegion → breaksCocoon (fld v 59 44) (entryWritten v s) = false) :
    accWriteResult who v s = (stOk, 0, entryWritten v s) := by
  have hcocoon : (fld v 63 60 == tgRegion && breaksCocoon (fld v 59 44) (entryWritten v s)) = false := by
    by_cases hr : fld v 63 60 = tgRegion <;> simp [hr, hc]
  have h210' : ¬ 210 ≤ fld v 43 36 := by omega
  simp only [accWriteResult, targetExists, hm, ht, h210', hl]
  rw [if_neg (by simp), if_neg (by simp), if_neg (by simp), if_neg (by exact Bool.not_eq_true _ ▸ hcocoon)]
  rfl

theorem accWriteResult_locked {who : Nat} {v : Word64} {s : State} (hm : (who == 0 || isCore who) = true)
    (ht : fld v 59 44 < targetCount (fld v 63 60)) (h210 : fld v 43 36 < 210)
    (hl : accHas (fld v 63 60) (fld v 59 44) (fld v 43 36) bitLock s = true) :
    accWriteResult who v s = (stRefused, 0x02, s) := by
  have h210' : ¬ 210 ≤ fld v 43 36 := by omega
  simp only [accWriteResult, targetExists, hm, ht, h210', hl]
  rw [if_neg (by simp), if_neg (by simp), if_pos trivial]

/-- Settles O14: the result of R386 decides what the write leaves. -/
theorem accessTableWrites : Obligations.AccessTableWrites := by
  refine ⟨?_, ?_, ?_⟩
  · intro who v s hw hm hpage ht h210 hl hc
    refine ⟨_, exec_accWrite v hw hpage, ?_⟩
    rw [accWriteDo, accWriteResult_ok hm ht h210 hl hc]
    refine ⟨Tab.get_set_same _ _ _ _, ?_, fun e he => Tab.find_set_other _ _ _ _ he, rfl, rfl, rfl, rfl, rfl⟩
    dsimp only
    rw [Tab.get_set_same, stOk]
  · intro who v s hw hm hpage ht h210 hl
    rw [exec_accWrite v hw hpage, accWriteDo, accWriteResult_locked hm ht h210 hl]
    rfl
  · intro who v s hw hpage
    rw [exec_accQuery v hw hpage, accQueryDo]

/-! ## O12: requests to the stacked memory -/

theorem exec_dramRead {m k a : Nat} (s : State) (hm : m < 210) (hk : k < 8) (hal : a % 64 = 0) (ha : a < stackBytes) :
    exec (.dramRequest m k a none 0) s = .next (dramRowDo m k a none 0 s) := by
  have h36 : a < 2 ^ 36 := by simp only [stackBytes] at ha; omega
  exact onWf_of_wf (i := .dramRequest m k a none 0) (by simp [Instr.wf, hm, hk, hal]; omega)

theorem exec_dramWrite {m k a : Nat} {bs : List Byte} (s : State) (hm : m < 210) (hk : k < 8) (hal : a % 64 = 0) (ha : a < stackBytes)
    (hlen : bs.length = 64) : exec (.dramRequest m k a (some bs) 0) s = .next (dramRowDo m k a (some bs) 0 s) := by
  have h36 : a < 2 ^ 36 := by simp only [stackBytes] at ha; omega
  exact onWf_of_wf (i := .dramRequest m k a (some bs) 0) (by simp [Instr.wf, hm, hk, hal, hlen]; omega)

/-- What opening a row for a request on stack `k` leaves. -/
structure RowOpened (k : Nat) (s t : State) : Prop where
  dram : t.dram = s.dram
  hostMem : t.hostMem = s.hostMem
  hq : t.hq = s.hq
  keys : t.keys = s.keys
  media : t.media = s.media
  state : (stackOf k t).state = (stackOf k s).state
  failed : (stackOf k t).failedRegions = (stackOf k s).failedRegions
  poison : (stackOf k t).poison = (stackOf k s).poison

theorem RowOpened.refl (k : Nat) (s : State) : RowOpened k s s := ⟨rfl, rfl, rfl, rfl, rfl, rfl, rfl, rfl⟩

theorem RowOpened.trans {k : Nat} {s t u : State} (h : RowOpened k s t) (g : RowOpened k t u) : RowOpened k s u :=
  ⟨g.dram.trans h.dram, g.hostMem.trans h.hostMem, g.hq.trans h.hq, g.keys.trans h.keys, g.media.trans h.media,
    g.state.trans h.state, g.failed.trans h.failed, g.poison.trans h.poison⟩

theorem stackOf_congr {s t : State} (h : t.dramStacks = s.dramStacks) (k : Nat) : stackOf k t = stackOf k s := by simp only [stackOf, h]

theorem rowOpened_count (k off n : Nat) (s : State) : RowOpened k s (count off n s) := ⟨rfl, rfl, rfl, rfl, rfl, rfl, rfl, rfl⟩

theorem rowOpened_memRecord (k master code : Nat) (items : List (Nat × Nat)) (s : State) : RowOpened k s (memRecord master code items s) := by
  have hstack : stackOf k (memRecord master code items s) = stackOf k s := stackOf_congr (by simp) k
  exact ⟨by simp, by simp, by simp, by simp, by simp, by rw [hstack], by rw [hstack], by rw [hstack]⟩

theorem rowOpened_setStack (k : Nat) {u : Stack} {s : State} (h1 : u.state = (stackOf k s).state)
    (h2 : u.failedRegions = (stackOf k s).failedRegions) (h3 : u.poison = (stackOf k s).poison) : RowOpened k s (setStack k u s) :=
  ⟨rfl, rfl, rfl, rfl, rfl, by rw [stackOf_setStack, h1], by rw [stackOf_setStack, h2], by rw [stackOf_setStack, h3]⟩

theorem rowOpened_crossing (k bank group cand : Nat) (s : State) : RowOpened k s (crossing k bank group cand s) := by
  unfold crossing
  extract_lets t u first v w
  have hv : RowOpened k s v := (rowOpened_count k _ _ s).trans (rowOpened_setStack k (by rfl) (by rfl) (by rfl))
  have hw : RowOpened k s w := by
    simp only [w]
    split
    · exact hv
    · exact hv.trans (rowOpened_count k _ _ v)
  split
  · exact hw.trans (rowOpened_memRecord k _ _ _ w)
  · exact hv

theorem rowOpened_activate (k a m : Nat) (s : State) : RowOpened k s (activate k a m s) := by
  unfold activate
  extract_lets u bank row group c t
  have ht : RowOpened k s t := rowOpened_setStack k (by rfl) (by rfl) (by rfl)
  split
  · exact .refl k s
  · split
    · exact ht.trans (rowOpened_crossing k _ _ _ t)
    · exact ht

theorem RowOpened.regionFailed {k a : Nat} {s t : State} (h : RowOpened k s t) : regionFailed k a t = regionFailed k a s := by
  simp only [Machine.regionFailed, h.state, h.failed]

/-- The burst of a request crosses the channel without a failed transfer (R375). -/
def carried (m k a : Nat) (s : State) : State := count (memOff k 0x100) 1 (activate k a m s)

theorem rowOpened_carried (m k a : Nat) (s : State) : RowOpened k s (carried m k a s) :=
  (rowOpened_activate k a m s).trans (rowOpened_count k _ _ _)

/-- What follows a served request: its instant, and park entry where PARK is set (R379, R380). -/
def requestEnds (k : Nat) (s : State) : State := repark k (updStack k (fun u => { u with lastRequest := nowNs s }) s)

theorem requestEnds_only (k : Nat) (s : State) : ∃ d, requestEnds k s = { s with dramStacks := d } := by
  unfold requestEnds repark
  split <;> exact ⟨_, rfl⟩

/-- A running stack that no throttle and no failed region holds back serves the request (R372). -/
theorem requestDo_serves {m k a : Nat} {w : Option (List Byte)} {s : State} (hrun : (stackOf k s).state = 1)
    (hfailed : regionFailed k a s = false) (hwait : mustWait (stackOf k s) (bankOf (stackOf k s) a) m (nowNs s) = false) :
    requestDo m k a w 0 s = requestEnds k (serveBurst k a w (carried m k a s)) := by
  have hwake : wake k s = s := by simp [wake, hrun]
  simp only [requestDo, hrun, hfailed, hwait, hwake]
  rfl

theorem serveBurst_write {k a : Nat} {bs : List Byte} {s : State} (h : regionFailed k a s = false) :
    serveBurst k a (some bs) s
      = { setStack k { stackOf k s with poison := (stackOf k s).poison.erase a } s with dram := Mem.writeBytes s.dram (dramAt k a) bs } := by
  simp only [serveBurst, h]
  rfl

theorem serveBurst_read {k a : Nat} {s : State} (h : regionFailed k a s = false) (hp : (stackOf k s).poison.contains a = false) :
    serveBurst k a none s = { s with burst := Mem.readBytes s.dram (dramAt k a) 64, burstPoison := false } := by
  simp only [serveBurst, h, hp]
  rfl

/-- The state in which a request finds the module: a read clears the poison of the burst before it. -/
def requested (w : Option (List Byte)) (s : State) : State := { s with burstPoison := s.burstPoison && w.isSome }

theorem dramRowDo_granted {m k a : Nat} {w : Option (List Byte)} {s : State} (ha : a < stackBytes)
    (h : accHas tgRegion (regionOf k a) m (if w.isNone then bitRead else bitWrite) s = true) :
    dramRowDo m k a w 0 s = if w.isNone then poisonItems m k a (requestDo m k a w 0 (requested w s)) else requestDo m k a w 0 (requested w s) := by
  have hc : accCheck tgRegion (regionOf k a) m (if w.isNone then bitRead else bitWrite) (requested w s) = (true, requested w s) :=
    accCheck_granted h
  have hd : dramRequestDo m k a w 0 (requested w s) = requestDo m k a w 0 (requested w s) := by
    rw [dramRequestDo, if_neg (by omega), hc]; rfl
  change (if w.isNone then poisonItems m k a (dramRequestDo m k a w 0 (requested w s)) else dramRequestDo m k a w 0 (requested w s)) = _
  rw [hd]

theorem dramRowDo_refused {m k a : Nat} {w : Option (List Byte)} {s : State} (ha : a < stackBytes)
    (h : accHas tgRegion (regionOf k a) m (if w.isNone then bitRead else bitWrite) s = false) :
    dramRowDo m k a w 0 s = if w.isNone then poisonItems m k a (lostBurst (accRefuse tgRegion (regionOf k a) m (requested w s)))
      else accRefuse tgRegion (regionOf k a) m (requested w s) := by
  have hc : accCheck tgRegion (regionOf k a) m (if w.isNone then bitRead else bitWrite) (requested w s)
      = (false, accRefuse tgRegion (regionOf k a) m (requested w s)) := accCheck_denied h
  have hd : dramRequestDo m k a w 0 (requested w s) = if w.isNone then lostBurst (accRefuse tgRegion (regionOf k a) m (requested w s))
      else accRefuse tgRegion (regionOf k a) m (requested w s) := by
    rw [dramRequestDo, if_neg (by omega), hc]; rfl
  change (if w.isNone then poisonItems m k a (dramRequestDo m k a w 0 (requested w s)) else dramRequestDo m k a w 0 (requested w s)) = _
  rw [hd]
  cases w <;> rfl

/-- A refusal is counted at its kind (R385, R388). -/
theorem ctrGet_accRefuse_kind (kind idx master : Nat) (s : State) (h : kind < 16) :
    ctrGet (accRefusedOff kind) (accRefuse kind idx master s) = satAdd 64 (ctrGet (accRefusedOff kind) s) 1 := by
  unfold accRefuse
  extract_lets key r due r' a t
  have ht : ctrGet (accRefusedOff kind) t = satAdd 64 (ctrGet (accRefusedOff kind) s) 1 := ctrGet_count _ _ _
  split
  · rw [(logOnly_memRecord _ _ _ _).ctr _ (by simp only [accRefusedOff]; omega), ht]
  · exact ht

theorem poisonItems_clean {m k a : Nat} {s : State} (h : s.burstPoison = false) : poisonItems m k a s = s := by
  simp [poisonItems, h]

/-- The work items of a poisoned read leave the memory and the burst. -/
theorem poisonItems_keeps (m k a : Nat) (s : State) :
    (poisonItems m k a s).dram = s.dram ∧ (poisonItems m k a s).burst = s.burst ∧ (poisonItems m k a s).burstPoison = s.burstPoison := by
  unfold poisonItems
  split
  · refine ⟨?_, ?_, ?_⟩
    · exact foldl_keeps (·.dram) (fun t x => by simp) _ _
    · exact foldl_keeps (·.burst) (fun t x => by simp) _ _
    · exact foldl_keeps (·.burstPoison) (fun t x => by simp) _ _
  · exact ⟨rfl, rfl, rfl⟩

/-- Settles O12: a granted request opens its row and serves its burst, a refused one is counted. -/
theorem dramWritesAndReads : Obligations.DramWritesAndReads := by
  refine ⟨?_, ?_, ?_, ?_⟩
  · intro m k a bs s hmem hm hk hal ha hlen hacc hrun hfailed hwait
    have hopen := rowOpened_carried m k a (requested (some bs) s)
    have hnot : regionFailed k a (carried m k a (requested (some bs) s)) = false := hopen.regionFailed.trans hfailed
    obtain ⟨d, hend⟩ := requestEnds_only k (serveBurst k a (some bs) (carried m k a (requested (some bs) s)))
    refine ⟨_, exec_dramWrite s hm hk hal ha hlen, ?_⟩
    rw [dramRowDo_granted ha (w := some bs) hacc, if_neg (by simp), requestDo_serves (s := requested (some bs) s) hrun hfailed hwait, hend,
      serveBurst_write hnot]
    have hbytes : Mem.writeBytes (carried m k a (requested (some bs) s)).dram (dramAt k a) bs = Mem.writeBytes s.dram (dramAt k a) bs := by
      rw [hopen.dram]; rfl
    refine ⟨hbytes, ?_, fun x hx => ?_, hopen.hostMem, hopen.hq, hopen.keys, hopen.media⟩
    · dsimp only
      rw [hbytes, ← hlen]
      exact Mem.readBytes_writeBytes hmem
    · dsimp only
      rw [hbytes]
      exact Mem.read_writeBytes_other hmem (by omega)
  · intro m k a s hm hk hal ha hacc hrun hfailed hwait hpoison
    have hopen := rowOpened_carried m k a (requested none s)
    have hnot : regionFailed k a (carried m k a (requested none s)) = false := hopen.regionFailed.trans hfailed
    have hclean : (stackOf k (carried m k a (requested none s))).poison.contains a = false := by rw [hopen.poison]; exact hpoison
    obtain ⟨d, hend⟩ := requestEnds_only k (serveBurst k a none (carried m k a (requested none s)))
    refine ⟨_, exec_dramRead s hm hk hal ha, ?_⟩
    rw [dramRowDo_granted ha (w := none) hacc, if_pos Option.isNone_none, requestDo_serves (s := requested none s) hrun hfailed hwait, hend,
      serveBurst_read hnot hclean, poisonItems_clean (by rfl)]
    exact ⟨by dsimp only; rw [hopen.dram]; rfl, rfl, hopen.dram, hopen.hostMem⟩
  · intro m k a bs s hm hk hal ha hlen hacc
    refine ⟨_, exec_dramWrite s hm hk hal ha hlen, ?_⟩
    rw [dramRowDo_refused ha (w := some bs) hacc, if_neg (by simp)]
    exact ⟨by simp [requested], by simp [requested], ctrGet_accRefuse_kind _ _ _ _ (by decide), by simp [requested]⟩
  · intro m k a s hm hk hal ha hacc
    refine ⟨_, exec_dramRead s hm hk hal ha, ?_⟩
    rw [dramRowDo_refused ha (w := none) hacc, if_pos Option.isNone_none]
    obtain ⟨hdram, hburst, hpois⟩ := poisonItems_keeps m k a (lostBurst (accRefuse tgRegion (regionOf k a) m (requested none s)))
    exact ⟨by rw [hdram]; simp [lostBurst, requested], hburst, hpois⟩

end Sys2Proof
end

section
/-! PROOFS. The supply, heat, the cable supplies and Safe Hold (R473-R489). -/

namespace Sys2Proof

open Machine

/-! ## What entry to Safe Hold leaves of the Body -/

theorem body_setLaneState (l st : Nat) (s : State) : (setLaneState l st s).body = s.body := by
  unfold setLaneState
  split <;> rfl

theorem body_quietLane (l : Nat) (s : State) : (quietLane l s).body = s.body := by
  unfold quietLane
  extract_lets v n t t'
  have ht : t.body = s.body := by
    simp only [t]
    split <;> rfl
  split
  · rfl
  · split
    · exact ht
    · rw [body_setLaneState]
      exact ht

theorem body_tremundChanged (p : Nat) (s : State) : (tremundChanged p s).body = s.body := by
  unfold tremundChanged
  extract_lets m
  split
  · simp
  · split <;> simp

theorem body_portLost (s : State) (p : Nat) : (portLost s p).body = s.body := by
  unfold portLost
  split
  · simp [ethChanged]
  · exact body_tremundChanged p s

theorem body_withPower (s : State) (p : Power) : ({ s with power := p } : State).body = s.body := rfl

theorem body_withAes (s : State) (a : Aes) : ({ s with aes := a } : State).body = s.body := rfl

theorem body_stopOutputs (s : State) : (stopOutputs s).body = s.body := by
  unfold stopOutputs
  extract_lets ports t a u p v
  have ht : t.body = s.body := foldl_keeps (·.body) (fun t l => body_quietLane l t) _ _
  have hu : u.body = s.body := (body_withAes t a).trans ht
  have hv : v.body = s.body := (body_withPower u p).trans hu
  exact (foldl_keeps (·.body) (fun t p => body_portLost t p) _ _).trans hv

theorem settlePark_body (s : State) : ∃ b, (settlePark s).body = { s.body with parkDue := b } := by
  unfold settlePark
  split
  · refine ⟨false, ?_⟩
    rw [parkAll, foldl_keeps (·.body) (fun t k => ?_) _ _]
    rfl
  · exact ⟨_, rfl⟩

theorem haltQueues_body (s : State) : (haltQueues s).body = s.body := by simp

theorem enterSafeHold_body {cause : Nat} {s : State} (h : s.body.hold = false) : ∃ b, (enterSafeHold cause s).body
    = { s.body with hold := true, causes := s.body.causes ||| 2 ^ (cause - 1), firstCause := cause, parkDue := b } := by
  unfold enterSafeHold
  extract_lets causes b t u
  have hu : u.body = t.body := body_stopOutputs t
  clear_value u
  rw [if_neg (by simp [h])]
  split
  · exact ⟨_, (haltQueues_body u).trans hu⟩
  · obtain ⟨parked, hp⟩ := settlePark_body (fatalError 1 (record 0x1002 [(1, cause), (1, causes)] u))
    refine ⟨parked, hp.trans ?_⟩
    simp [hu, t, b, causes]

/-! ## O55 -/

theorem exec_supplyBand (cv : Nat) (s : State) : exec (.supplyBand cv) s = .next (supplyBandDo cv s) := onWf_of_wf (i := .supplyBand cv) rfl

theorem exec_powerLoss (cv : Nat) (s : State) : exec (.powerLoss cv) s = .next (powerLossDo cv s) := onWf_of_wf (i := .powerLoss cv) rfl

theorem exec_fuseOpen (s : State) : exec .fuseOpen s = .next (doIf s.body.powered (stopPower 3 s.body.inputCv) s) :=
  onWf_of_wf (i := .fuseOpen) rfl

theorem exec_rideThroughEnd (s : State) : exec .rideThroughEnd s = .next (rideThroughEndDo s) := onWf_of_wf (i := .rideThroughEnd) rfl

theorem exec_caseOver (c : Int) (s : State) : exec (.caseOver c) s = .next (caseOverDo c s) := onWf_of_wf (i := .caseOver c) rfl

theorem exec_caseTemp (c : Int) (s : State) : exec (.caseTemp c) s = .next (caseTempDo c s) := onWf_of_wf (i := .caseTemp c) rfl

theorem exec_bodyIntegrity (s : State) : exec .bodyIntegrity s = .next (doIf s.body.powered (enterSafeHold 4) s) :=
  onWf_of_wf (i := .bodyIntegrity) rfl

theorem exec_cblPwr {n : Nat} (s : State) (h : n < 16) : exec (.cblPwr n) s = .next (cblPwrDo n s) :=
  onWf_of_wf (i := .cblPwr n) (by simp [Instr.wf, h])

theorem exec_cblPwrRetry {n : Nat} (exceeds : Bool) (s : State) (h : n < 16) :
    exec (.cblPwrRetry n exceeds) s = .next (cblRetryDo n exceeds s) := onWf_of_wf (i := .cblPwrRetry n exceeds) (by simp [Instr.wf, h])

theorem exec_cblPresChange {n : Nat} (on : Bool) (s : State) (h : n < 16) : exec (.cblPresChange n on) s = .next (cblPresDo n on s) :=
  onWf_of_wf (i := .cblPresChange n on) (by simp [Instr.wf, h])

theorem exec_exitSafeHold {who : Nat} {s : State} (h : mayWrite who 0x3018 s) : exec (.exitSafeHold who) s = .next (exitDo who s) := by
  refine (onWf_of_wf (i := .exitSafeHold who) (by simp [Instr.wf, h.1])).trans ?_
  rw [gated_granted h]

/-- The input of a powered module, at 33 V or more, has taken its value (R473). -/
def inputTaken (cv : Nat) (s : State) : State := { s with body := { s.body with inputCv := cv, band := bandOf cv } }

theorem supplyBandDo_powered {cv : Nat} {s : State} (hp : s.body.powered = true) (hcv : 3300 ≤ cv) :
    supplyBandDo cv s = if bandOf cv = 0 then backInRange (inputTaken cv s) else outOfRange cv (inputTaken cv s) := by
  rw [supplyBandDo, if_neg (by simp [hp]), if_neg (by omega)]
  rfl

/-- What a stay out of range notes (R485). -/
theorem outOfRange_facts (cv : Nat) (s : State) :
    (outOfRange cv s).body.inputCv = s.body.inputCv ∧ (outOfRange cv s).body.band = s.body.band ∧
      (outOfRange cv s).body.outSince = some (s.body.outSince.getD (nowNs s)) ∧ (outOfRange cv s).dram = s.dram ∧ (outOfRange cv s).hq = s.hq := by
  unfold outOfRange
  cases h : s.body.outSince with
  | none => exact ⟨rfl, rfl, rfl, rfl, rfl⟩
  | some t =>
    dsimp only
    split
    · exact ⟨rfl, rfl, h, rfl, rfl⟩
    · exact ⟨rfl, rfl, h, rfl, rfl⟩

/-- What the way back into range notes (R485). -/
theorem backInRange_facts (s : State) :
    (backInRange s).body.inputCv = s.body.inputCv ∧ (backInRange s).body.band = s.body.band ∧ (backInRange s).body.outSince = none ∧
      (backInRange s).body.faultDip = (s.body.faultDip || (s.body.outSince.isSome && !s.body.rideDone)) ∧
      (backInRange s).dram = s.dram ∧ (backInRange s).hq = s.hq := by
  unfold backInRange
  cases h : s.body.outSince with
  | none => exact ⟨rfl, rfl, h, by simp, rfl, rfl⟩
  | some t =>
    cases hd : s.body.rideDone with
    | true => exact ⟨rfl, rfl, rfl, by simp, rfl, rfl⟩
    | false => simp [bodyFault, pfVector, emit]

theorem stopPower_facts (cause cv : Nat) (s : State) :
    (stopPower cause cv s).body.powered = false ∧ (stopPower cause cv s).body.coldCause = cause ∧ (stopPower cause cv s).body.booted = false ∧
      (stopPower cause cv s).body.hold = false ∧ (stopPower cause cv s).dram = [] := ⟨rfl, rfl, rfl, rfl, rfl⟩

/-- A bit that is set or cleared where it differs reads as asked. -/
theorem testBit_presence (m n : Nat) (on : Bool) :
    (if m.testBit n = on then m else if on then m + 2 ^ n else m - 2 ^ n).testBit n = on := by
  by_cases h : m.testBit n = on
  · rw [if_pos h, h]
  · rw [if_neg h]
    cases on with
    | true =>
      have hbit : m.testBit n = false := by simpa using h
      rw [if_pos rfl, Nat.add_comm, Nat.testBit_two_pow_add_eq, hbit]; rfl
    | false =>
      have hbit : m.testBit n = true := by simpa using h
      have hm : 2 ^ n + (m - 2 ^ n) = m := by have := Nat.ge_two_pow_of_testBit hbit; omega
      have hflip := Nat.testBit_two_pow_add_eq (m - 2 ^ n) n
      rw [hm, hbit] at hflip
      simpa using hflip.symm

theorem exitDo_refused {who : Nat} {s : State} (h : who ≠ 0 ∨ s.body.hold = false ∨ exitAllowed s = false) : exitDo who s = s := by
  refine if_neg fun ⟨hw, hh, he⟩ => ?_
  rcases h with h | h | h
  · exact h hw
  · rw [h] at hh; cases hh
  · rw [h] at he; cases he

/-- Settles O55: each event of the supply, of heat and of the cable outputs, and the way into and out of Safe Hold. -/
theorem supplyAndSafeHold : Obligations.SupplyAndSafeHold := by
  refine ⟨fun cv => rfl, ?_, ?_, ?_, ?_, stopPower_facts, ?_, ?_, ?_, ?_, ?_, ?_, ?_, ?_, ?_, ?_, ?_, ?_, ?_⟩
  · intro cv s hp hcv hband
    refine ⟨_, exec_supplyBand cv s, ?_⟩
    rw [supplyBandDo_powered hp hcv, if_neg hband]
    exact outOfRange_facts cv (inputTaken cv s)
  · intro cv s hp hcv hband
    refine ⟨_, exec_supplyBand cv s, ?_⟩
    rw [supplyBandDo_powered hp hcv, if_pos hband]
    obtain ⟨hin, hb, hsince, hdip, hdram, hhq⟩ := backInRange_facts (inputTaken cv s)
    exact ⟨hin, hb.trans hband, hsince, hdip, hdram, hhq⟩
  · intro cv s hp hcv
    have hloss : powerLossDo cv s = stopPower 2 cv { s with body := { s.body with inputCv := cv } } := if_pos ⟨hp, hcv⟩
    refine ⟨?_, by rw [exec_powerLoss, hloss]⟩
    rw [exec_supplyBand, exec_powerLoss, supplyBandDo, hp]
    simp only [Bool.not_true, Bool.false_eq_true, if_false, hcv, if_true]
  · intro s hp
    rw [exec_fuseOpen, doIf, if_pos hp]
  · intro at_ s hp hsince hride hlate
    rw [exec_rideThroughEnd, rideThroughEndDo, hsince]
    simp [hp, hride, hlate]
  · intro s hsince
    rw [exec_rideThroughEnd, rideThroughEndDo, hsince]
  · intro c s hp hc
    refine ⟨_, exec_caseOver c s, ?_⟩
    rw [caseOverDo, if_pos ⟨hp, hc⟩]
    simp [bodyFault, setCase, pfVector, emit]
  · intro c s hp hc
    rw [exec_caseTemp, caseTempDo, if_pos ⟨hp, hc⟩, setCase]
  · intro c s hc
    have h105 : ¬ (105 < c) := by omega
    have h115 : ¬ (115 < c) := by omega
    rw [exec_caseOver, exec_caseTemp, caseOverDo, caseTempDo, if_neg (fun h => h105 h.2), if_neg (fun h => h115 h.2)]
    exact ⟨rfl, rfl⟩
  · intro s hp
    rw [exec_bodyIntegrity, doIf, if_pos hp]
  · intro cause s hh
    simp only [enterSafeHold, hh, if_true]
  · intro cause s hh
    obtain ⟨b, hb⟩ := enterSafeHold_body (cause := cause) hh
    rw [hb]
    exact ⟨rfl, rfl, rfl⟩
  · intro n s hn hp hon hfault
    refine ⟨_, exec_cblPwr s hn, ?_⟩
    rw [cblPwrDo, if_pos (by simp [hp, hon, hfault])]
    simp [bodyFault, pfVector, emit]
  · intro n exceeds s hn hfault hlate
    rw [exec_cblPwrRetry exceeds s hn, cblRetryDo, if_pos (by simp [hfault, hlate])]
  · intro n on s hn
    exact ⟨_, exec_cblPresChange on s hn, testBit_presence _ _ _, rfl, rfl⟩
  · intro s h hh he
    rw [exec_exitSafeHold h, exitDo, if_pos ⟨rfl, by simpa using hh, he⟩]
  · intro who s h hno
    rw [exec_exitSafeHold h, exitDo_refused hno]

end Sys2Proof
end

section
/-! PROOFS. The recorder's commands and the dumps (R433-R454). -/

namespace Sys2Proof

open Machine

/-! ## Commands of the recorder -/

theorem exec_evrRead (src : CmdSrc) (s : State) (h : src.wf = true) : exec (.evrRead src) s =
    .next (command 0xD0 (evrNeeds bitRead (strictly ([(44, 0), (63, 63)], [(63, 0)], []) evrReadBody)) src s) :=
  onWf_of_wf (i := .evrRead src) h

theorem exec_evrWrite (src : CmdSrc) (s : State) (h : src.wf = true) : exec (.evrWrite src) s =
    .next (command 0xD1 (evrNeeds bitWrite (strictly ([(15, 0), (63, 32)], [(127, 0)], [(127, 0)]) evrWriteBody)) src s) :=
  onWf_of_wf (i := .evrWrite src) h

theorem exec_evrClear (src : CmdSrc) (s : State) (h : src.wf = true) : exec (.evrClear src) s =
    .next (command 0xD2 (evrNeeds bitControl (strictly ([(79, 0)], [], []) evrClearBody)) src s) := onWf_of_wf (i := .evrClear src) h

theorem exec_evrDumpCopy (src : CmdSrc) (s : State) (h : src.wf = true) : exec (.evrDumpCopy src) s =
    .next (command 0xD3 (ownerOnly (strictly ([(63, 0)], [(63, 0)], [(0, 0)]) dumpCopyBody)) src s) :=
  onWf_of_wf (i := .evrDumpCopy src) h

theorem exec_evrDumpRelease (src : CmdSrc) (s : State) (h : src.wf = true) : exec (.evrDumpRelease src) s =
    .next (command 0xD4 (ownerOnly (strictly ([(1, 0)], [], []) dumpReleaseBody)) src s) := onWf_of_wf (i := .evrDumpRelease src) h

theorem exec_phase {who : Nat} {s : State} (v : BitVec 64) (h : mayWrite who 0x400008 s) : exec (.phase who v) s = .next (phaseDo v s) := by
  refine (onWf_of_wf (i := .phase who v) (by simp [Instr.wf, h.1])).trans ?_
  rw [gated_granted h]

theorem exec_lastGaspClear {who : Nat} {s : State} (v : BitVec 64) (h : mayWrite who 0x400800 s) :
    exec (.lastGaspClear who v) s = .next (lastGaspClearDo v s) := by
  refine (onWf_of_wf (i := .lastGaspClear who v) (by simp [Instr.wf, h.1])).trans ?_
  rw [gated_granted h]

theorem exec_dramDumpDone (s : State) : exec .dramDumpDone s = .next (dramDoneDo s) := onWf_of_wf (i := .dramDumpDone) rfl

theorem exec_flashSummaryDone (s : State) : exec .flashSummaryDone s = .next (flashDoneDo s) := onWf_of_wf (i := .flashSummaryDone) rfl

theorem evrNeeds_granted {bit : Nat} {body : Req → State → Answer} {r : Req} {s : State} (h : accHas tgRecorder 0 r.master bit s = true) :
    evrNeeds bit body r s = body r s := by
  simp only [evrNeeds, accCheck_granted h, if_true]

theorem ownerOnly_granted {body : Req → State → Answer} {r : Req} {s : State} (h : r.owner = true) : ownerOnly body r s = body r s := if_pos h

/-! ## Records -/

theorem clearSeq_lastGaspRecord (r : Record) (s : State) :
    (lastGaspRecord r s).evr.n = s.evr.n ∧ (lastGaspRecord r s).evr.clearSeq = s.evr.clearSeq := by
  simp only [lastGaspRecord]
  split <;> exact ⟨rfl, rfl⟩

/-- A record that is stored takes the next place of the epoch (R437). -/
theorem storeRecord_counts (code origin master : Nat) (pl : List Byte) {s : State} (h : s.evr.failed = false) :
    (storeRecord code origin master pl s).evr.n = s.evr.n + 1 ∧ (storeRecord code origin master pl s).evr.clearSeq = s.evr.clearSeq := by
  simp only [storeRecord, h, Bool.false_eq_true, if_false]
  split
  · exact clearSeq_lastGaspRecord _ _
  · exact ⟨rfl, rfl⟩

/-- After a clear of a recorder that has not failed, the CLEARED record is the only one counted (R441). -/
theorem clearRecorder_counts (reason : Nat) {s : State} (h : s.evr.failed = false) :
    (clearRecorder reason s).evr.n = 1 ∧ (clearRecorder reason s).evr.clearSeq = s.evr.nextSeq := by
  have hstore : clearRecorder reason s = storeRecord 1 0 208 (payload [(4, s.evr.clearSeq), (4, (s.evr.nextSeq + 2 ^ 32 - 1) % 2 ^ 32),
      (8, s.evr.n), (4, reason)]) { s with evr := { s.evr with clearSeq := s.evr.nextSeq, n := 0 } } := rfl
  rw [hstore]
  exact storeRecord_counts _ _ _ _ (s := { s with evr := { s.evr with clearSeq := s.evr.nextSeq, n := 0 } }) h

theorem evr_lgChanged (s : State) (lg : List Record) :
    ({ s with evr := { s.evr with lg := lg } } : State).evr.nextSeq = s.evr.nextSeq ∧
      ({ s with evr := { s.evr with lg := lg } } : State).evr.n = s.evr.n := ⟨rfl, rfl⟩

theorem foldInto_takesNoSeq (slot : Nat) (s : State) :
    (foldInto slot s).evr.nextSeq = s.evr.nextSeq ∧ (foldInto slot s).evr.n = s.evr.n := by
  unfold foldInto
  split
  · exact ⟨rfl, rfl⟩
  · exact evr_lgChanged s _

/-- A repeat outside SERVICE is folded (R439). -/
theorem evrWrite_folds {code origin slot : Nat} (master : Nat) (pl : List Byte) {s : State} (hc : 256 ≤ code) (hp : s.evr.phase ≠ 1)
    (hl : s.evr.last = some (slot, code, origin)) : evrWrite code origin master pl s = (count evrFoldedOff 1 (foldInto slot s), none) := by
  rw [evrWrite, if_neg (by omega), if_neg hp, hl]
  simp

/-! ## Dumps -/

theorem noteDump_only (s : State) : ∃ x, noteDump s = { s with dump := { s.dump with index := x } } := by
  unfold noteDump
  split <;> exact ⟨_, rfl⟩

theorem mirrorBank_only (writer : Nat) (s : State) : ∃ m, mirrorBank writer s = { s with evr := { s.evr with lgMirror := m } } := by
  unfold mirrorBank
  split <;> exact ⟨_, rfl⟩

theorem mirrorBank_copies {s : State} (hl : s.evr.lg ≠ []) (hb : s.evr.mirrorBad = false) : (mirrorBank 0 s).evr.lgMirror = s.evr.lg := by
  rw [mirrorBank, if_pos (by simp [hl, hb])]

theorem parkAll_only (s : State) : ∃ d, parkAll s = { s with dramStacks := d } := by
  have hfold : ∀ (l : List Nat) (t : State), ∃ d, l.foldl (fun s k => parkNow k s) t = { t with dramStacks := d } := by
    intro l
    induction l with
    | nil => exact fun t => ⟨_, rfl⟩
    | cons k r ih =>
      intro t
      obtain ⟨d, hd⟩ := ih (parkNow k t)
      exact ⟨d, hd⟩
  exact hfold _ s

theorem settlePark_only (s : State) : ∃ b d, settlePark s = { s with body := b, dramStacks := d } := by
  unfold settlePark
  split
  · obtain ⟨d, hd⟩ := parkAll_only { s with body := { s.body with parkDue := false } }
    exact ⟨_, d, hd⟩
  · exact ⟨_, _, rfl⟩

/-- The places that EVR_DUMP_RELEASE names (R453). -/
def releaseNames (r : Req) : List Bool := (if bitOf r.w1 0 then [false] else []) ++ (if bitOf r.w1 1 then [true] else [])

/-- The dump's state once the named places are empty. -/
def dumpReleased (r : Req) (s : State) : Dump :=
  let d := if (releaseNames r).contains false then { s.dump with dramState := 0, seq := 0, cause := 0, writer := 0 } else s.dump
  if (releaseNames r).contains true then { d with flashState := 0, flash := [] } else d

theorem mem_releaseNames (r : Req) : (false ∈ releaseNames r ↔ bitOf r.w1 0 = true) ∧ (true ∈ releaseNames r ↔ bitOf r.w1 1 = true) := by
  unfold releaseNames
  cases bitOf r.w1 0 <;> cases bitOf r.w1 1 <;> decide

theorem dumpRelease_empties {r : Req} {s : State} (hd : bitOf r.w1 0 = true → 2 ≤ s.dump.dramState)
    (hf : bitOf r.w1 1 = true → 2 ≤ s.dump.flashState) :
    dumpReleaseBody r s = (noteDump { s with dump := dumpReleased r s }, some (okWith 0)) := by
  have hstate : ∀ f ∈ releaseNames r, 2 ≤ placeState f s := by
    intro f hm
    cases f with
    | false => exact hd ((mem_releaseNames r).1.mp hm)
    | true => exact hf ((mem_releaseNames r).2.mp hm)
  have h1 : (releaseNames r).any (fun f => placeState f s == 1) = false := by
    refine List.any_eq_false.mpr fun f hm => ?_
    have := hstate f hm
    simp only [beq_iff_eq]
    omega
  have h0 : (releaseNames r).any (fun f => placeState f s == 0) = false := by
    refine List.any_eq_false.mpr fun f hm => ?_
    have := hstate f hm
    simp only [beq_iff_eq]
    omega
  unfold dumpReleaseBody
  change (if (releaseNames r).any (fun f => placeState f s == 1) = true then _
    else if (releaseNames r).any (fun f => placeState f s == 0) = true then _ else _) = _
  rw [h1, h0, if_neg (by simp), if_neg (by simp)]
  rfl

theorem dumpReleased_facts (r : Req) (s : State) :
    (dumpReleased r s).dramState = (if bitOf r.w1 0 = true then 0 else s.dump.dramState) ∧
      (dumpReleased r s).flashState = (if bitOf r.w1 1 = true then 0 else s.dump.flashState) ∧
      (bitOf r.w1 1 = true → (dumpReleased r s).flash = []) ∧ (bitOf r.w1 1 = false → (dumpReleased r s).flash = s.dump.flash) := by
  unfold dumpReleased releaseNames
  cases bitOf r.w1 0 <;> cases bitOf r.w1 1 <;> simp

/-- The DRAM dump is whole (R445, step 3). -/
theorem dramDoneDo_writing {s : State} (h : s.dump.dramState = 1) : ∃ m free, dramDoneDo s =
    settlePark (pfVector 0 (noteDump (mirrorBank s.dump.writer { s with free := free, dram := m, dump := { s.dump with
      dramState := 2, flashState := if s.dump.summaryDue then 1 else s.dump.flashState, summaryDue := false } }))) := by
  unfold dramDoneDo
  extract_lets d f ps m m' t
  rw [if_neg (by simp [d, h])]
  exact ⟨m', s.free + 1, rfl⟩

/-- What the end of a summary leaves: the dump, and where nothing else tells PF0 of the dump the mirror and the vector (R445, step 4). -/
def summaryTold (live : Bool) (writer : Nat) (s : State) : State := if live then pfVector 0 (mirrorBank writer s) else s

theorem flashDoneDo_writing {s : State} (h : s.dump.flashState = 1) : ∃ m free, flashDoneDo s = settlePark (summaryTold s.dump.liveSummary
    s.dump.flashWriter (noteDump { s with free := free, dump := { s.dump with flashState := 2, flash := m, liveSummary := false } })) := by
  unfold flashDoneDo
  extract_lets d f ps m m' t
  rw [if_neg (by simp [d, h])]
  exact ⟨m', s.free + 1, rfl⟩

theorem summaryTold_only (live : Bool) (writer : Nat) (s : State) : ∃ e o, summaryTold live writer s = { s with evr := e, out := o } := by
  unfold summaryTold
  split
  · obtain ⟨m, hm⟩ := mirrorBank_only writer s
    rw [hm]
    exact ⟨_, _, rfl⟩
  · exact ⟨_, _, rfl⟩

/-! ## O53 -/

theorem evrRead_counted {r : Req} (h : bitOf r.w1 63 = true ∨ (1 ≤ fld r.w1 44 32 ∧ fld r.w1 44 32 ≤ 4096)) :
    (!bitOf r.w1 63 && (fld r.w1 44 32 == 0 || decide (4096 < fld r.w1 44 32))) = false := by
  rcases h with h | ⟨h1, h2⟩
  · simp [h]
  · have h0 : fld r.w1 44 32 ≠ 0 := by omega
    have hmax : ¬ 4096 < fld r.w1 44 32 := by omega
    simp [h0, hmax]

theorem evrWrite_fine {r : Req} (h : if r.fw = true then 0x8000 ≤ fld r.w1 15 0 ∧ fld r.w1 15 0 ≤ 0xBFFF else 0xC000 ≤ fld r.w1 15 0) :
    (if r.fw then decide (0x8000 ≤ fld r.w1 15 0) && decide (fld r.w1 15 0 ≤ 0xBFFF) else decide (0xC000 ≤ fld r.w1 15 0)) = true := by
  cases hf : r.fw <;> simpa [hf] using h

/-- Settles O53: the recorder's commands with their bits, the records that a clear and a repeat make, and the ends of the dumps. -/
theorem recorderAndDumps : Obligations.RecorderAndDumps := by
  refine ⟨?_, ?_, ?_, ?_, ?_, ?_, ?_, ?_, ?_, ?_, ?_, ?_, ?_, ?_, ?_⟩
  · refine completes_of exec_evrRead fun r s ⟨hacc, hclear, hn⟩ => ?_
    rw [evrNeeds_granted hacc, strictly_clear hclear, evrReadBody]
    simp only [df, evrRead_counted hn, Bool.false_eq_true, if_false]
    rfl
  · refine completes_of exec_evrRead fun r s ⟨hacc, hm, hn⟩ => ?_
    rw [evrNeeds_granted hacc]
    refine strictly_refused ?_ rfl
    have hbad : (!bitOf r.w1 63 && (fld r.w1 44 32 == 0 || decide (4096 < fld r.w1 44 32))) = true := by simpa [hm] using hn
    rw [evrReadBody]
    simp only [df, hbad, if_true]
    rfl
  · refine completes_of exec_evrWrite fun r s ⟨hacc, hclear, hcode, hcrc, hok⟩ => ?_
    rw [evrNeeds_granted hacc, strictly_clear hclear, evrWriteBody]
    simp only [df, evrWrite_fine hcode, hcrc, hok, Bool.not_true, Bool.false_eq_true, if_false, ne_eq, not_true_eq_false]
    rfl
  · refine completes_of exec_evrClear fun r s ⟨hacc, hclear⟩ => ?_
    rw [evrNeeds_granted hacc, strictly_clear hclear, evrClearBody]
    by_cases htok : tokPurpose (hostBytes (fld r.w1 63 0) (fld r.w1 79 64) s) = 2 ∧
        tokPayloadLen (hostBytes (fld r.w1 63 0) (fld r.w1 79 64) s) = 4 ∧ tokenOk (hostBytes (fld r.w1 63 0) (fld r.w1 79 64) s) s = true
    · obtain ⟨hp, hl, ho⟩ := htok
      cases hf : s.evr.failed <;> simp [hp, hl, ho, answer]
    · have hno : (tokPurpose (hostBytes (fld r.w1 63 0) (fld r.w1 79 64) s) == 2 &&
          tokPayloadLen (hostBytes (fld r.w1 63 0) (fld r.w1 79 64) s) == 4 && tokenOk (hostBytes (fld r.w1 63 0) (fld r.w1 79 64) s) s) = false := by
        refine Bool.eq_false_iff.mpr fun hall => htok ?_
        simpa only [Bool.and_eq_true, beq_iff_eq, and_assoc] using hall
      simp only [df, htok, hno, if_false]
      rfl
  · exact fun reason s h => clearRecorder_counts reason h
  · intro code origin master slot pl s hc hp hl
    rw [evrWrite_folds master pl hc hp hl]
    exact ⟨rfl, foldInto_takesNoSeq slot s⟩
  · refine completes_of exec_evrDumpCopy fun r s ⟨hown, hclear, hal, hplace, hlen⟩ => ?_
    rw [ownerOnly_granted hown, strictly_clear hclear, dumpCopyBody]
    have h1 : placeState (bitOf r.w3 0) s ≠ 1 := by omega
    have h0 : ¬ (placeState (bitOf r.w3 0) s = 0 ∨ dumpExtent (bitOf r.w3 0) (if bitOf r.w3 0 = true then s.dump.flashWriter else s.dump.writer)
        < fld r.w2 31 0 + fld r.w2 63 32) := by omega
    simp only [df, hal, h1, h0, ne_eq, not_true_eq_false, if_false]
    rfl
  · refine completes_of exec_evrDumpCopy fun r s ⟨hown, hal, hplace⟩ => ?_
    rw [ownerOnly_granted hown]
    refine strictly_refused ?_ rfl
    rw [dumpCopyBody]
    simp [hal, hplace, answer]
  · refine completesSo_of exec_evrDumpRelease fun r s ⟨hown, hclear, hd, hf⟩ => ?_
    obtain ⟨x, hx⟩ := noteDump_only { s with dump := dumpReleased r s }
    obtain ⟨hdram, hflash, hempty, hkeep⟩ := dumpReleased_facts r s
    refine ⟨noteDump { s with dump := dumpReleased r s }, okWith 0, ?_, rfl, ?_⟩
    · rw [ownerOnly_granted hown, strictly_clear hclear, dumpRelease_empties hd hf]
    · rw [hx]
      exact ⟨hdram, hflash, hempty, hkeep, rfl, rfl, rfl, rfl⟩
  · intro who v s h hv
    exact ⟨setPhase (fld v 1 0) s, by rw [exec_phase v h, phaseDo, if_pos hv], rfl, phase_setPhase _ _, by simp, by simp⟩
  · intro who v s h hv
    rw [exec_phase v h, phaseDo, if_neg (by omega)]
  · intro who v s h
    rw [exec_lastGaspClear v h, lastGaspClearDo]
  · intro s h
    obtain ⟨m, free, hdone⟩ := dramDoneDo_writing h
    refine ⟨_, exec_dramDumpDone s, ?_⟩
    rw [hdone]
    clear hdone
    obtain ⟨u, hu⟩ : ∃ u : State, u = { s with free := free, dram := m, dump := { s.dump with
      dramState := 2, flashState := if s.dump.summaryDue then 1 else s.dump.flashState, summaryDue := false } } := ⟨_, rfl⟩
    rw [← hu]
    have hmirror : s.dump.writer = 0 → s.evr.lg ≠ [] → s.evr.mirrorBad = false → (mirrorBank s.dump.writer u).evr.lgMirror = s.evr.lg := by
      intro hw hl hb
      rw [hw, hu]
      exact mirrorBank_copies hl hb
    obtain ⟨lgm, hm⟩ := mirrorBank_only s.dump.writer u
    rw [hm] at hmirror ⊢
    obtain ⟨x, hx⟩ := noteDump_only { u with evr := { u.evr with lgMirror := lgm } }
    rw [hx]
    obtain ⟨b, d, hp⟩ := settlePark_only (pfVector 0 { u with evr := { u.evr with lgMirror := lgm }, dump := { u.dump with index := x } })
    rw [hp]
    subst hu
    exact ⟨rfl, rfl, rfl, rfl, hmirror⟩
  · intro s h
    obtain ⟨m, free, hdone⟩ := flashDoneDo_writing h
    refine ⟨_, exec_flashSummaryDone s, ?_⟩
    rw [hdone]
    obtain ⟨x, hx⟩ := noteDump_only { s with free := free, dump := { s.dump with flashState := 2, flash := m, liveSummary := false } }
    rw [hx]
    obtain ⟨e, o, ho⟩ := summaryTold_only s.dump.liveSummary s.dump.flashWriter
      { s with free := free, dump := { s.dump with flashState := 2, flash := m, liveSummary := false, index := x } }
    rw [ho]
    obtain ⟨b, d, hp⟩ := settlePark_only
      { s with free := free, dump := { s.dump with flashState := 2, flash := m, liveSummary := false, index := x }, evr := e, out := o }
    rw [hp]
    exact ⟨rfl, rfl, rfl, rfl⟩
  · intro s
    refine ⟨fun h => ?_, fun h => ?_⟩
    · rw [exec_dramDumpDone, dramDoneDo, if_pos h]
    · rw [exec_flashSummaryDone, flashDoneDo, if_pos h]

end Sys2Proof
end

section
/-! PROOFS. What the lanes' shared operations can change: blocks, frames, and lanes that leave service (R332-R350). -/

namespace Sys2Proof

open Machine

/-! ## Blocks on one lane -/

theorem groupCfg_congr {s t : State} (h : t.lanes.groups = s.lanes.groups) (g : Nat) : groupCfg g t = groupCfg g s := by simp only [groupCfg, h]

theorem laneOf_congr {s t : State} (h : t.lanes.lanes = s.lanes.lanes) (l : Nat) : laneOf l t = laneOf l s := by simp only [laneOf, h]

/-- A lane but for what sending blocks changes: the position of its transmitter and its receiver. -/
def laneCore (v : Lane) : Lane := { v with tx := { power := v.tx.power, wakeDue := v.tx.wakeDue, dozeAt := v.tx.dozeAt }, rx := {} }

/-- Sending blocks on lane `l` can change that lane's transmitter and receiver, the counters and the output. -/
structure BlocksOnly (l : Nat) (s t : State) : Prop where
  rest : ∃ x c o, t = { s with lanes := { s.lanes with lanes := x }, ctr := c, out := o }
  core : laneCore (laneOf l t) = laneCore (laneOf l s)
  other : ∀ d, d ≠ l → laneOf d t = laneOf d s

theorem BlocksOnly.refl (l : Nat) (s : State) : BlocksOnly l s s := ⟨⟨_, _, _, rfl⟩, rfl, fun _ _ => rfl⟩

theorem BlocksOnly.trans {l : Nat} {s t u : State} (h : BlocksOnly l s t) (g : BlocksOnly l t u) : BlocksOnly l s u := by
  obtain ⟨⟨_, _, _, rfl⟩, hc, ho⟩ := h
  obtain ⟨⟨_, _, _, rfl⟩, gc, go⟩ := g
  exact ⟨⟨_, _, _, rfl⟩, gc.trans hc, fun d hd => (go d hd).trans (ho d hd)⟩

theorem blocksOnly_setLane (l : Nat) {v : Lane} {s : State} (h : laneCore v = laneCore (laneOf l s)) : BlocksOnly l s (setLane l v s) :=
  ⟨⟨_, _, _, rfl⟩, by rw [laneOf_setLane, h], fun d hd => laneOf_setLane_ne l d v s hd⟩

theorem blocksOnly_updLane (l : Nat) (f : Lane → Lane) (s : State) (h : laneCore (f (laneOf l s)) = laneCore (laneOf l s)) :
    BlocksOnly l s (updLane l f s) := blocksOnly_setLane l h

/-- The transmitter after another position on the line (R332, R333). -/
def onLine (scr runSym runLen : Nat) (t : LaneTx) : LaneTx := { t with scr := scr, runSym := runSym, runLen := runLen }

theorem linePairs_onLine (n d : Nat) (t : LaneTx) (k : Nat) : ∃ a b c, (linePairs n d t k).1 = onLine a b c t := by
  induction n generalizing d t k with
  | zero => exact ⟨_, _, _, rfl⟩
  | succ n ih =>
    rw [linePairs]
    obtain ⟨a, b, c, h⟩ := ih (d / 4) _ _
    exact ⟨a, b, c, h⟩

theorem lineBlock_onLine (h : Word128) (ws : List Word128) (t : LaneTx) : ∃ a b c, (lineBlock h ws t).1 = onLine a b c t := by
  have hfold : ∀ (l : List Word128) (p : LaneTx × Nat),
      ∃ a b c, (l.foldl (fun (p : LaneTx × Nat) w => linePairs 64 w.toNat p.1 p.2) p).1 = onLine a b c p.1 := by
    intro l
    induction l with
    | nil => exact fun p => ⟨_, _, _, rfl⟩
    | cons w r ih =>
      intro p
      obtain ⟨a, b, c, hr⟩ := ih (linePairs 64 w.toNat p.1 p.2)
      obtain ⟨a', b', c', hw⟩ := linePairs_onLine 64 w.toNat p.1 p.2
      exact ⟨a, b, c, by rw [List.foldl_cons, hr, hw]; rfl⟩
  obtain ⟨a, b, c, hf⟩ := hfold (h :: ws) (t, 0)
  obtain ⟨a', b', c', hl⟩ := linePairs_onLine 16 (tmCrc h ws).toNat
    ((h :: ws).foldl (fun (p : LaneTx × Nat) w => linePairs 64 w.toNat p.1 p.2) (t, 0)).1
    ((h :: ws).foldl (fun (p : LaneTx × Nat) w => linePairs 64 w.toNat p.1 p.2) (t, 0)).2
  exact ⟨a', b', c', hl.trans (by rw [hf]; rfl)⟩

/-- A sent block moves its lane's position on the line, and takes the NAK that is due with it (R336, R341). -/
theorem laneOf_sendTm (l kind seq ptr plan : Nat) (ws : List Word128) (s : State) :
    ∃ a b c n, laneOf l (sendTm l kind seq ptr plan ws s) = { laneOf l s with
      tx := onLine a b c (laneOf l s).tx, rx := { (laneOf l s).rx with nakDue := false, nakAt := n } } := by
  unfold sendTm
  extract_lets h r t u
  obtain ⟨a, b, c, hr⟩ := lineBlock_onLine h ws (laneOf l s).tx
  have hu : laneOf l u = laneOf l t := by
    simp only [u]
    split <;> rfl
  refine ⟨a, b, c, if (laneOf l s).rx.nakDue then nowNs s else (laneOf l s).rx.nakAt, ?_⟩
  rw [laneOf_congr (s := u) (by rfl), hu]
  simp only [t, laneOf_updLane, r, hr]
  rfl

theorem blocksOnly_sendTm (l kind seq ptr plan : Nat) (ws : List Word128) (s : State) : BlocksOnly l s (sendTm l kind seq ptr plan ws s) := by
  obtain ⟨a, b, c, n, hl⟩ := laneOf_sendTm l kind seq ptr plan ws s
  refine ⟨?_, by rw [hl]; rfl, fun d hd => ?_⟩
  · unfold sendTm
    extract_lets h r t u
    simp only [u]
    split <;> exact ⟨_, _, _, rfl⟩
  · unfold sendTm
    extract_lets h r t u
    have hu : laneOf d u = laneOf d t := by
      simp only [u]
      split <;> rfl
    rw [laneOf_congr (s := u) (by rfl), hu]
    exact laneOf_updLane_ne _ _ _ _ hd

theorem blocksOnly_sendIdleBlock (l kind plan : Nat) (s : State) : BlocksOnly l s (sendIdleBlock l kind plan s) := by
  unfold sendIdleBlock
  refine (blocksOnly_updLane l _ s ?_).trans (blocksOnly_sendTm _ _ _ _ _ _ _)
  rfl

theorem blocksOnly_sendDataBlock (l plan : Nat) (stream : Option Nat) (b : Nat × List Word128) (s : State) :
    BlocksOnly l s (sendDataBlock l plan stream b s) := by
  unfold sendDataBlock
  refine (blocksOnly_updLane l _ s ?_).trans (blocksOnly_sendTm _ _ _ _ _ _ _)
  rfl

theorem blocksOnly_sendFill (l plan : Nat) (s : State) : BlocksOnly l s (sendFill l plan s) := by
  unfold sendFill
  split
  · exact blocksOnly_sendDataBlock _ _ _ _ _
  · exact blocksOnly_sendIdleBlock _ _ _ _

theorem blocksOnly_foldl {β : Type} {l : Nat} {f : State → β → State} (hf : ∀ t x, BlocksOnly l t (f t x)) (xs : List β) (s : State) :
    BlocksOnly l s (xs.foldl f s) := by
  induction xs generalizing s with
  | nil => exact .refl l s
  | cons x r ih => exact (hf s x).trans (ih _)

theorem blocksOnly_pumpFrames (n l : Nat) (fs : List TmFrame) (s : State) : BlocksOnly l s (pumpFrames n l fs s) := by
  induction n generalizing fs s with
  | zero => exact .refl l s
  | succ n ih =>
    cases fs with
    | nil => exact .refl l s
    | cons f fs =>
      simp only [pumpFrames]
      split
      · exact .refl l s
      · split
        · refine BlocksOnly.trans ?_ (ih _ _)
          refine (blocksOnly_updLane l _ s ?_).trans (blocksOnly_foldl (fun t b => blocksOnly_sendDataBlock l 0 (carries f) b t) _ _)
          rfl
        · exact ih _ _

theorem blocksOnly_pump (l : Nat) (s : State) : BlocksOnly l s (pump l s) := by
  unfold pump
  extract_lets v
  split
  · exact blocksOnly_pumpFrames _ _ _ _
  · exact .refl l s

/-! ## Lanes that leave service -/

/-- A lane but for what frames and a loss of service change: STATE, the bring-up step, its transmitter and its receiver. -/
def laneFixed (v : Lane) : Lane := { v with state := 0, step := 0, stepAt := 0, tx := {}, rx := {} }

/-- A lane that leaves service can change the lanes' STATE, step, transmitters and receivers, the recorder, the counters, the output and
the work items. -/
structure ServiceOnly (s t : State) : Prop where
  rest : ∃ x e c o i d, t = { s with lanes := x, evr := e, ctr := c, out := o, ids := i, disp := d }
  groups : t.lanes.groups = s.lanes.groups
  fixed : ∀ d, laneFixed (laneOf d t) = laneFixed (laneOf d s)

theorem laneFixed_of_core {v w : Lane} (h : laneCore v = laneCore w) : laneFixed v = laneFixed w := by
  have hfixed : ∀ x : Lane, laneFixed x = laneFixed (laneCore x) := fun _ => rfl
  rw [hfixed v, h, ← hfixed w]

theorem state_of_core {v w : Lane} (h : laneCore v = laneCore w) : v.state = w.state := by
  have hstate : ∀ x : Lane, x.state = (laneCore x).state := fun _ => rfl
  rw [hstate v, h, ← hstate w]

theorem ServiceOnly.refl (s : State) : ServiceOnly s s := ⟨⟨_, _, _, _, _, _, rfl⟩, rfl, fun _ => rfl⟩

theorem ServiceOnly.trans {s t u : State} (h : ServiceOnly s t) (g : ServiceOnly t u) : ServiceOnly s u := by
  obtain ⟨⟨_, _, _, _, _, _, rfl⟩, hg, hf⟩ := h
  obtain ⟨⟨_, _, _, _, _, _, rfl⟩, gg, gf⟩ := g
  exact ⟨⟨_, _, _, _, _, _, rfl⟩, gg.trans hg, fun d => (gf d).trans (hf d)⟩

theorem ServiceOnly.dom {s t : State} (h : ServiceOnly s t) : t.dom = s.dom := by
  obtain ⟨⟨_, _, _, _, _, _, rfl⟩, _, _⟩ := h
  rfl

theorem ServiceOnly.upd {s t : State} (h : ServiceOnly s t) : t.upd = s.upd := by
  obtain ⟨⟨_, _, _, _, _, _, rfl⟩, _, _⟩ := h
  rfl

theorem ServiceOnly.foldl {β : Type} {f : State → β → State} (hf : ∀ t x, ServiceOnly t (f t x)) (xs : List β) (s : State) :
    ServiceOnly s (xs.foldl f s) := by
  induction xs generalizing s with
  | nil => exact .refl s
  | cons x r ih => exact (hf s x).trans (ih _)

theorem serviceOnly_setLane (l : Nat) {v : Lane} {s : State} (h : laneFixed v = laneFixed (laneOf l s)) : ServiceOnly s (setLane l v s) := by
  refine ⟨⟨_, _, _, _, _, _, rfl⟩, rfl, fun d => ?_⟩
  by_cases hd : d = l
  · rw [hd, laneOf_setLane, h]
  · rw [laneOf_setLane_ne _ _ _ _ hd]

theorem serviceOnly_count (off n : Nat) (s : State) : ServiceOnly s (count off n s) := ⟨⟨_, _, _, _, _, _, rfl⟩, rfl, fun _ => rfl⟩

theorem serviceOnly_record (code : Nat) (items : List (Nat × Nat)) (s : State) : ServiceOnly s (record code items s) := by
  obtain ⟨e, c, o, h, _⟩ := logOnly_record code items s
  rw [h]
  exact ⟨⟨_, _, _, _, _, _, rfl⟩, rfl, fun _ => rfl⟩

theorem serviceOnly_enginePost (type poster forFn param : Nat) (w2 w3 : Word128) (s : State) :
    ServiceOnly s (enginePost type poster forFn param w2 w3 s) := by
  obtain ⟨i, d, c, o, h⟩ := enginePost_only type poster forFn param w2 w3 s
  rw [h]
  exact ⟨⟨_, _, _, _, _, _, rfl⟩, rfl, fun _ => rfl⟩

theorem BlocksOnly.service {l : Nat} {s t : State} (h : BlocksOnly l s t) : ServiceOnly s t := by
  obtain ⟨⟨x, c, o, rfl⟩, hc, ho⟩ := h
  refine ⟨⟨_, _, _, _, _, _, rfl⟩, rfl, fun d => ?_⟩
  by_cases hd : d = l
  · subst hd
    exact laneFixed_of_core hc
  · rw [ho d hd]

theorem laneState_setLaneState (l st : Nat) (s : State) : laneOf l (setLaneState l st s) = { laneOf l s with state := st } := by
  unfold setLaneState
  split
  · next h => rw [← h]
  · extract_lets t
    rw [laneOf_congr (s := t) (by rfl)]
    exact laneOf_updLane _ _ _

theorem laneOf_setLaneState_ne {l d : Nat} (st : Nat) (s : State) (h : d ≠ l) : laneOf d (setLaneState l st s) = laneOf d s := by
  unfold setLaneState
  split
  · rfl
  · extract_lets t
    rw [laneOf_congr (s := t) (by rfl)]
    exact laneOf_updLane_ne _ _ _ _ h

theorem serviceOnly_setLaneState (l st : Nat) (s : State) : ServiceOnly s (setLaneState l st s) := by
  refine ⟨?_, ?_, fun d => ?_⟩
  · unfold setLaneState
    split <;> exact ⟨_, _, _, _, _, _, rfl⟩
  · unfold setLaneState
    split <;> rfl
  · by_cases hd : d = l
    · rw [hd, laneState_setLaneState]; rfl
    · rw [laneOf_setLaneState_ne _ _ hd]

/-! ## Frames -/

/-- Frames go out on lanes that are UP: they change no STATE, and no lane that is not UP. -/
structure FramesOnly (s t : State) : Prop where
  service : ServiceOnly s t
  evr : t.evr = s.evr
  disp : t.disp = s.disp
  ids : t.ids = s.ids
  state : ∀ d, (laneOf d t).state = (laneOf d s).state
  idle : ∀ d, laneUp d s = false → laneOf d t = laneOf d s

theorem FramesOnly.refl (s : State) : FramesOnly s s := ⟨.refl s, rfl, rfl, rfl, fun _ => rfl, fun _ _ => rfl⟩

theorem FramesOnly.trans {s t u : State} (h : FramesOnly s t) (g : FramesOnly t u) : FramesOnly s u := by
  refine ⟨h.service.trans g.service, g.evr.trans h.evr, g.disp.trans h.disp, g.ids.trans h.ids, fun d => (g.state d).trans (h.state d),
    fun d hd => (g.idle d ?_).trans (h.idle d hd)⟩
  rw [laneUp, h.state d]
  exact hd

theorem FramesOnly.foldl {β : Type} {f : State → β → State} (hf : ∀ t x, FramesOnly t (f t x)) (xs : List β) (s : State) :
    FramesOnly s (xs.foldl f s) := by
  induction xs generalizing s with
  | nil => exact .refl s
  | cons x r ih => exact (hf s x).trans (ih _)

theorem BlocksOnly.frames {l : Nat} {s t : State} (h : BlocksOnly l s t) (hup : laneUp l s = true) : FramesOnly s t := by
  have hservice := h.service
  obtain ⟨⟨x, c, o, rfl⟩, hc, ho⟩ := h
  refine ⟨hservice, rfl, rfl, rfl, fun d => ?_, fun d hd => ?_⟩
  · by_cases hdl : d = l
    · subst hdl
      exact state_of_core hc
    · rw [ho d hdl]
  · refine ho d fun hdl => ?_
    rw [hdl, hup] at hd
    cases hd

theorem framesOnly_pump (l : Nat) (s : State) : FramesOnly s (pump l s) := by
  by_cases hup : laneUp l s = true
  · exact (blocksOnly_pump l s).frames hup
  · have hidle : pump l s = s := by
      refine if_neg fun h => hup ?_
      simp [laneUp, h.1]
    rw [hidle]
    exact .refl s

theorem framesOnly_queueFrame {l : Nat} (f : TmFrame) {s : State} (hup : laneUp l s = true) : FramesOnly s (queueFrame l f s) := by
  refine FramesOnly.trans ⟨serviceOnly_setLane l (by rfl), rfl, rfl, rfl, fun d => ?_, fun d hd => ?_⟩ (framesOnly_pump _ _)
  · by_cases hd : d = l
    · rw [hd, laneOf_setLane]
    · rw [laneOf_setLane_ne _ _ _ _ hd]
  · refine laneOf_setLane_ne _ _ _ _ fun hdl => ?_
    rw [hdl, hup] at hd
    cases hd

theorem laneUp_of_laneForFrame {p l : Nat} {f : TmFrame} {s : State} (h : laneForFrame p f s = some l) : laneUp l s = true := by
  unfold laneForFrame at h
  split at h
  · rw [laneForStream] at h
    exact List.find?_some (p := fun l => laneUp l s) h
  · have hm : l ∈ upLanes p s := List.mem_of_mem_head? h
    exact (List.mem_filter.mp hm).2

theorem framesOnly_count (off n : Nat) (s : State) : FramesOnly s (count off n s) :=
  ⟨serviceOnly_count off n s, rfl, rfl, rfl, fun _ => rfl, fun _ _ => rfl⟩

theorem framesOnly_sendFrame (p : Nat) (f : TmFrame) (s : State) : FramesOnly s (sendFrame p f s) := by
  unfold sendFrame
  split
  · next l h =>
    split at h
    · exact framesOnly_queueFrame f (laneUp_of_laneForFrame h)
    · cases h
  · exact framesOnly_count _ _ s

/-! ## Loss of service -/

theorem serviceOnly_tremundChanged (p : Nat) (s : State) : ServiceOnly s (tremundChanged p s) := by
  unfold tremundChanged
  extract_lets m
  split
  · exact serviceOnly_enginePost _ _ _ _ _ _ _
  · split
    · exact serviceOnly_enginePost _ _ _ _ _ _ _
    · exact .refl s

theorem lanes_tremundChanged (p : Nat) (s : State) : (tremundChanged p s).lanes = s.lanes := by
  unfold tremundChanged
  extract_lets m
  split
  · simp
  · split <;> simp

theorem lanes_ethChanged (p : Nat) (up : Bool) (s : State) : (ethChanged p up s).lanes = s.lanes := by simp [ethChanged]

theorem serviceOnly_ethChanged (p : Nat) (up : Bool) (s : State) : ServiceOnly s (ethChanged p up s) :=
  (serviceOnly_enginePost _ _ _ _ _ _ _).trans (serviceOnly_record _ _ _)

/-- A lane whose blocks and frames have been taken away (R342, R349). -/
def laneCleared (now : Nat) (v : Lane) : Lane :=
  { v with tx := { v.tx with buffer := [], queue := [], next := 0, power := 0, wakeDue := false }, rx := {}, step := 1, stepAt := now }

/-- A lane's blocks are counted as dropped, and the lane is cleared. -/
def blocksDropped (l : Nat) (s : State) : State :=
  setLane l (laneCleared (nowNs s) (laneOf l s))
    (if (laneOf l s).tx.buffer.length = 0 then s else count (laneCtr l 3) (laneOf l s).tx.buffer.length s)

theorem clearLane_eq (l : Nat) (s : State) :
    clearLane l s = (laneOf l s).tx.queue.foldl (fun s f => sendFrame (portOf l s) f s) (blocksDropped l s) := by
  unfold clearLane blocksDropped
  extract_lets v n t u
  have hnow : nowNs t = nowNs s := by
    simp only [t]
    split <;> rfl
  rw [← hnow]
  rfl

theorem serviceOnly_blocksDropped (l : Nat) (s : State) : ServiceOnly s (blocksDropped l s) := by
  unfold blocksDropped
  split
  · exact serviceOnly_setLane l rfl
  · exact (serviceOnly_count _ _ _).trans (serviceOnly_setLane l rfl)

theorem laneOf_blocksDropped (l : Nat) (s : State) : laneOf l (blocksDropped l s) = laneCleared (nowNs s) (laneOf l s) := laneOf_setLane _ _ _

theorem framesOnly_handedOver (l : Nat) (fs : List TmFrame) (s : State) :
    FramesOnly s (fs.foldl (fun s f => sendFrame (portOf l s) f s) s) :=
  FramesOnly.foldl (fun t f => framesOnly_sendFrame _ f t) _ _

theorem serviceOnly_clearLane (l : Nat) (s : State) : ServiceOnly s (clearLane l s) := by
  rw [clearLane_eq]
  exact (serviceOnly_blocksDropped l s).trans (framesOnly_handedOver l _ _).service

/-- A lane that is not UP is cleared, and gets none of the frames that it hands over. -/
theorem laneOf_clearLane {l : Nat} {s : State} (h : laneUp l s = false) : laneOf l (clearLane l s) = laneCleared (nowNs s) (laneOf l s) := by
  have hdown : laneUp l (blocksDropped l s) = false := by rw [laneUp, laneOf_blocksDropped]; exact h
  rw [clearLane_eq, (framesOnly_handedOver l _ _).idle l hdown, laneOf_blocksDropped]

theorem nowNs_of_rest {s t : State} (h : t.res = s.res) : nowNs t = nowNs s := by simp only [nowNs, h]

theorem ServiceOnly.now {s t : State} (h : ServiceOnly s t) : nowNs t = nowNs s := by
  obtain ⟨⟨_, _, _, _, _, _, rfl⟩, _, _⟩ := h
  rfl

/-- A Tremund lane that leaves service reads `st`, and is cleared. -/
theorem laneOf_tremundLeave {l st : Nat} (s : State) (h : st ≠ 3) :
    laneOf l (tremundLeave l st s) = laneCleared (nowNs s) { laneOf l s with state := st } := by
  unfold tremundLeave
  extract_lets was t
  have hdown : laneUp l (setLaneState l st s) = false := by simp [laneUp, laneState_setLaneState, h]
  have ht : laneOf l t = laneCleared (nowNs s) { laneOf l s with state := st } := by
    simp only [t]
    rw [laneOf_clearLane hdown, laneState_setLaneState, (serviceOnly_setLaneState l st s).now]
  split
  · rw [laneOf_congr (congrArg Lanes.lanes (lanes_tremundChanged _ _)), ht]
  · exact ht

theorem serviceOnly_tremundLeave (l st : Nat) (s : State) : ServiceOnly s (tremundLeave l st s) := by
  unfold tremundLeave
  extract_lets was t
  have ht : ServiceOnly s t := (serviceOnly_setLaneState l st s).trans (serviceOnly_clearLane _ _)
  split
  · exact ht.trans (serviceOnly_tremundChanged _ _)
  · exact ht

theorem serviceOnly_ethDown (p : Nat) (s : State) : ServiceOnly s (ethDown p s) := by
  unfold ethDown
  extract_lets was t
  have ht : ServiceOnly s t := by
    refine ServiceOnly.foldl (fun u l => ?_) _ _
    split
    · exact serviceOnly_setLaneState _ _ _
    · exact .refl u
  split
  · exact ht.trans (serviceOnly_ethChanged _ _ _)
  · exact ht

theorem serviceOnly_leaveService (l st : Nat) (s : State) : ServiceOnly s (leaveService l st s) := by
  unfold leaveService
  split
  · exact serviceOnly_tremundLeave _ _ _
  · split
    · exact (serviceOnly_ethDown _ _).trans (serviceOnly_setLaneState _ _ _)
    · exact .refl s

theorem serviceOnly_loseLane (l : Nat) (s : State) : ServiceOnly s (loseLane l s) := by
  unfold loseLane
  split
  · exact .refl s
  · split
    · exact serviceOnly_tremundLeave _ _ _
    · split
      · exact serviceOnly_ethDown _ _
      · exact .refl s

theorem state_leaveService {l st : Nat} {s : State} (h : isTremund l s = true ∨ isEth l s = true) (hst : st ≠ 3) :
    (laneOf l (leaveService l st s)).state = st := by
  unfold leaveService
  split
  · rw [laneOf_tremundLeave s hst]; rfl
  · next ht =>
    rw [if_pos (h.resolve_left ht), laneState_setLaneState]

/-! ## A group's configuration -/

/-- A lane starts afresh under its group's configuration (R326). -/
def freshen (off dark : Bool) (s : State) (l : Nat) : State :=
  setLane l (freshLane (laneOf l s) off dark (nowNs s)) (setLaneState l (freshLane (laneOf l s) off dark (nowNs s)).state s)

/-- The lanes of a group. -/
def groupLanes (g : Nat) : List Nat := (List.range 8).map (g * 8 + ·)

/-- A group whose lanes have left service, with its new configuration (R326). -/
def reconfigured (g : Nat) (w : Word64) (s : State) : State :=
  setGroupCfg g { groupCfg g s with personality := fld w 1 0, width := fld w 5 4, medium := fld w 8 8, pllLock := false }
    ((groupLanes g).foldl (fun s l => leaveService l 4 s) s)

theorem applyGroup_eq (g : Nat) (w : Word64) (s : State) : applyGroup g w s =
    (groupLanes g).foldl (freshen (fld w 1 0 == 0) (fld w 1 0 == 0 || (groupCfg g s).personality == 0)) (reconfigured g w s) := rfl

theorem upd_setGroupCfg (g : Nat) (c : LaneGroup) (s : State) : (setGroupCfg g c s).upd = s.upd := rfl

theorem freshen_keeps (off dark : Bool) (s : State) (l : Nat) :
    (freshen off dark s l).lanes.groups = s.lanes.groups ∧ (freshen off dark s l).upd = s.upd := by
  have h := serviceOnly_setLaneState l (freshLane (laneOf l s) off dark (nowNs s)).state s
  exact ⟨h.groups, h.upd⟩

theorem applyGroup_keeps (g : Nat) (w : Word64) (s : State) : (applyGroup g w s).lanes.groups = (reconfigured g w s).lanes.groups ∧
    (applyGroup g w s).upd = s.upd := by
  have hleave : ServiceOnly s ((groupLanes g).foldl (fun s l => leaveService l 4 s) s) :=
    ServiceOnly.foldl (fun x l => serviceOnly_leaveService l 4 x) _ s
  have hupd : (reconfigured g w s).upd = s.upd := by
    rw [reconfigured, upd_setGroupCfg]
    exact hleave.upd
  rw [applyGroup_eq]
  generalize reconfigured g w s = u at hupd ⊢
  generalize groupLanes g = ls
  rw [← hupd]
  exact ⟨foldl_keeps (fun x => x.lanes.groups) (fun x l => (freshen_keeps _ _ x l).1) _ u,
    foldl_keeps (fun x => x.upd) (fun x l => (freshen_keeps _ _ x l).2) _ u⟩

end Sys2Proof
end

section
/-! PROOFS. Domain membership: messages, neighbours, the link-state table, the election, alignment and joining (R417-R430). -/

namespace Sys2Proof

open Machine

/-! ## What a step of membership can change -/

/-- The domain after another STATE, REASON, step, and another show of the members. -/
def membership (st r step at_ hops : Nat) (ms : Tab Member) (d : Domain) : Domain :=
  { d with state := st, reason := r, step := step, stepAt := at_, members := ms, hops := hops }

/-- The membership steps: they change the membership's fields and the recorder only. -/
def StepsOnly (s t : State) : Prop :=
  ∃ st r step at_ hops ms e c o, t = { s with dom := membership st r step at_ hops ms s.dom, evr := e, ctr := c, out := o }

theorem StepsOnly.refl (s : State) : StepsOnly s s := ⟨_, _, _, _, _, _, _, _, _, rfl⟩

theorem StepsOnly.trans {s t u : State} (h : StepsOnly s t) (g : StepsOnly t u) : StepsOnly s u := by
  obtain ⟨_, _, _, _, _, _, _, _, _, rfl⟩ := h
  obtain ⟨_, _, _, _, _, _, _, _, _, rfl⟩ := g
  exact ⟨_, _, _, _, _, _, _, _, _, rfl⟩

/-- What the membership steps keep of the domain, and of the rest of the device. -/
theorem StepsOnly.keeps {s t : State} (h : StepsOnly s t) : t.dom.neighbours = s.dom.neighbours ∧ t.dom.table = s.dom.table ∧
    t.dom.seen = s.dom.seen ∧ t.dom.peerDomain = s.dom.peerDomain ∧ t.dom.changed = s.dom.changed ∧ t.dom.dirty = s.dom.dirty ∧
    t.dom.coordSerial = s.dom.coordSerial ∧ t.dom.coordIndex = s.dom.coordIndex := by
  obtain ⟨_, _, _, _, _, _, _, _, _, rfl⟩ := h
  exact ⟨rfl, rfl, rfl, rfl, rfl, rfl, rfl, rfl⟩

theorem StepsOnly.identity {s t : State} (h : StepsOnly s t) : t.dom.enable = s.dom.enable ∧ t.dom.domainId = s.dom.domainId ∧
    t.dom.prio = s.dom.prio ∧ t.dom.index = s.dom.index := by
  obtain ⟨_, _, _, _, _, _, _, _, _, rfl⟩ := h
  exact ⟨rfl, rfl, rfl, rfl⟩

theorem StepsOnly.others {s t : State} (h : StepsOnly s t) : t.lanes = s.lanes ∧ t.hq = s.hq := by
  obtain ⟨_, _, _, _, _, _, _, _, _, rfl⟩ := h
  exact ⟨rfl, rfl⟩

theorem StepsOnly.upd {s t : State} (h : StepsOnly s t) : t.upd = s.upd := by
  obtain ⟨_, _, _, _, _, _, _, _, _, rfl⟩ := h
  rfl

theorem stepsOnly_showMembers (s : State) : StepsOnly s (showMembers s) := by
  unfold showMembers
  split <;> exact ⟨_, _, _, _, _, _, _, _, _, rfl⟩

theorem stepsOnly_domStep (n : Nat) (s : State) : StepsOnly s (domStep n s) := ⟨_, _, _, _, _, _, _, _, _, rfl⟩

theorem stepsOnly_domSetState (st r : Nat) (s : State) : StepsOnly s (domSetState st r s) := by
  unfold domSetState
  split
  · exact ⟨_, _, _, _, _, _, _, _, _, rfl⟩
  · obtain ⟨e, c, o, h, _⟩ := logOnly_record 0x0E01 [(1, s.dom.state), (1, st), (1, r), (1, s.dom.coordIndex)]
      { s with dom := { s.dom with state := st, reason := r } }
    exact ⟨st, r, _, _, _, _, e, c, o, h⟩

theorem dom_domSetState (st r : Nat) (s : State) : (domSetState st r s).dom = { s.dom with state := st, reason := r } := by
  unfold domSetState
  split
  · next h => rw [← h]
  · simp

theorem stepsOnly_domEnd (st r : Nat) (s : State) : StepsOnly s (domEnd st r s) :=
  ((stepsOnly_domSetState st r s).trans (stepsOnly_domStep 0 _)).trans (stepsOnly_showMembers _)

/-- Showing the members keeps STATE, REASON and the step. -/
theorem state_showMembers (s : State) : (showMembers s).dom.state = s.dom.state ∧ (showMembers s).dom.reason = s.dom.reason ∧
    (showMembers s).dom.step = s.dom.step := by
  unfold showMembers
  split <;> exact ⟨rfl, rfl, rfl⟩

theorem state_domEnd (st r : Nat) (s : State) : (domEnd st r s).dom.state = st ∧ (domEnd st r s).dom.reason = r ∧
    (domEnd st r s).dom.step = 0 := by
  obtain ⟨hstate, hreason, hstep⟩ := state_showMembers (domStep 0 (domSetState st r s))
  refine ⟨hstate.trans ?_, hreason.trans ?_, hstep.trans rfl⟩ <;> simp [domStep, updDom, dom_domSetState]

/-- A changed table is noted with its instant, and membership follows it (R425, R428). -/
theorem stepsOnly_tableChanged (s : State) :
    StepsOnly (updDom (fun d => { d with changed := some (nowNs s) }) s) (tableChanged s) := by
  unfold tableChanged
  extract_lets t lost u
  have hu : StepsOnly t u := by
    simp only [u]
    split
    · exact stepsOnly_domStep 3 t
    · exact .refl t
  refine hu.trans ?_
  split
  · exact stepsOnly_domEnd 5 2 u
  · exact stepsOnly_showMembers u

/-! ## Messages -/

theorem framesOnly_sendDomain (msg : List Byte) (ps : List Nat) (s : State) : FramesOnly s (sendDomain msg ps s) :=
  FramesOnly.foldl (fun t p => framesOnly_sendFrame p _ t) ps s

/-- A message of this device takes the next sequence number and is remembered (R422). -/
def numbered (d : Domain) : Domain :=
  { d with seq := (d.seq + 1) % 2 ^ 32, seen := ((Config.serial, d.seq) :: d.seen).take 256 }

theorem framesOnly_originate (type : Nat) (pay : List Byte) (ps : List Nat) (s : State) :
    FramesOnly { s with dom := numbered s.dom } (originate type pay ps s) := framesOnly_sendDomain _ _ _

theorem dom_originate (type : Nat) (pay : List Byte) (ps : List Nat) (s : State) : (originate type pay ps s).dom = numbered s.dom :=
  (framesOnly_originate type pay ps s).service.dom

theorem upd_originate (type : Nat) (pay : List Byte) (ps : List Nat) (s : State) : (originate type pay ps s).upd = s.upd :=
  (framesOnly_originate type pay ps s).service.upd

/-- A message met before is dropped (R422). -/
theorem flood_seen {p : Nat} {m : List Byte} {s : State} (h : s.dom.seen.contains (msgSerial m, msgSeq m) = true) :
    flood p m s = (s, false) := by
  simp only [flood, h, if_true]

/-- A message met for the first time is flooded, and remembered (R422). -/
theorem flood_new {p : Nat} {m : List Byte} {s : State} (h : s.dom.seen.contains (msgSerial m, msgSeq m) = false) :
    ∃ t, flood p m s = (t, true) ∧ FramesOnly (noteSeen (msgSerial m) (msgSeq m) s) t ∧
      t.dom = { s.dom with seen := ((msgSerial m, msgSeq m) :: s.dom.seen).take 256 } ∧ nowNs t = nowNs s := by
  have hf := framesOnly_sendDomain m ((floodPorts s).filter (· != p)) (noteSeen (msgSerial m) (msgSeq m) s)
  refine ⟨_, ?_, hf, hf.service.dom, hf.service.now⟩
  simp only [flood, h, Bool.false_eq_true, if_false]

theorem contains_seen (x : Nat × Nat) (l : List (Nat × Nat)) : ((x :: l).take 256).contains x = true := by simp [List.take]

/-! ## The rows of the domain -/

section
variable {p : Nat} (hp : p < 128)
include hp

theorem exec_hello (s : State) : exec (.hello p) s = .next (helloDo p s) := onWf_of_wf (i := .hello p) (by simp [Instr.wf, hp])

theorem exec_helloRx (m : List Byte) (s : State) : exec (.helloRx p m) s = .next (helloRxDo p m s) :=
  onWf_of_wf (i := .helloRx p m) (by simp [Instr.wf, hp])

theorem exec_neighbourLost (s : State) : exec (.neighbourLost p) s = .next (neighbourLostDo p s) :=
  onWf_of_wf (i := .neighbourLost p) (by simp [Instr.wf, hp])

theorem exec_linkState (m : List Byte) (s : State) : exec (.linkState p m) s = .next (linkStateDo p m s) :=
  onWf_of_wf (i := .linkState p m) (by simp [Instr.wf, hp])

theorem exec_domLeave (m : List Byte) (s : State) : exec (.domLeave p m) s = .next (leaveDo p m s) :=
  onWf_of_wf (i := .domLeave p m) (by simp [Instr.wf, hp])

theorem exec_compat (m : List Byte) (s : State) : exec (.compat p m) s = .next (compatDo p m s) :=
  onWf_of_wf (i := .compat p m) (by simp [Instr.wf, hp])

theorem exec_domJoin (m : List Byte) (s : State) : exec (.domJoin p m) s = .next (joinDo p m s) :=
  onWf_of_wf (i := .domJoin p m) (by simp [Instr.wf, hp])

end

theorem exec_linkStateSend (s : State) : exec .linkStateSend s = .next (linkSendDo s) := onWf_of_wf (i := .linkStateSend) rfl
theorem exec_memberLost (n : Nat) (s : State) : exec (.memberLost n) s = .next (memberLostDo n s) := onWf_of_wf (i := .memberLost n) rfl
theorem exec_election (s : State) : exec .election s = .next (electionDo s) := onWf_of_wf (i := .election) rfl
theorem exec_timeAligned (ns : Int) (s : State) : exec (.timeAligned ns) s = .next (timeAlignedDo ns s) :=
  onWf_of_wf (i := .timeAligned ns) rfl
theorem exec_isolatedTime (ns : Int) (s : State) : exec (.isolatedTime ns) s = .next (isolatedTimeDo ns s) :=
  onWf_of_wf (i := .isolatedTime ns) rfl
theorem exec_domainStepTimeout (s : State) : exec .domainStepTimeout s = .next (domTimeoutDo s) :=
  onWf_of_wf (i := .domainStepTimeout) rfl

theorem exec_domCfg {who : Nat} {s : State} (v : BitVec 64) (h : mayWrite who 0x2000 s) : exec (.domCfg who v) s = .next (domCfgDo v s) := by
  refine (onWf_of_wf (i := .domCfg who v) (by simp [Instr.wf, h.1])).trans ?_
  rw [gated_granted h]

/-! ## Neighbours -/

theorem helloDo_first {p : Nat} {s : State} (hr : domRuns s = true) (hp : (domPorts s).contains p = true)
    (h : s.dom.helloAt.find? p = none) : helloDo p s = originate 1 (leBytes 1 p ++ leBytes 1 (portWidth p s)) [p]
      { s with dom := { s.dom with helloAt := s.dom.helloAt.set p (nowNs s) } } := by
  unfold helloDo
  simp only [hr, hp, h, Bool.and_true, if_true]
  rfl

theorem helloDo_early {p at_ : Nat} {s : State} (h : s.dom.helloAt.find? p = some at_) (hn : nowNs s < at_ + 1000000) : helloDo p s = s := by
  have hearly : ∀ every, 1000000 ≤ every → decide (at_ + every ≤ nowNs s) = false := fun every he => decide_eq_false (by omega)
  unfold helloDo
  simp only [h]
  split
  · rw [hearly _ (by omega), Bool.and_false, if_neg Bool.false_ne_true]
  · rw [hearly _ (by omega), Bool.and_false, if_neg Bool.false_ne_true]

/-- The domain after a HELLO of this domain on a port: the sender is the port's neighbour (R422). -/
def greeted (p : Nat) (m : List Byte) (now : Nat) (dirty : Bool) (changed : Option Nat) (d : Domain) : Domain :=
  { d with
    peerDomain := d.peerDomain.set p (msgDomain m)
    neighbours := d.neighbours.set p ⟨msgSerial m, msgIndex m, msgPrio m, now⟩
    dirty := dirty
    changed := changed }

section
variable {p : Nat} {m : List Byte} {s : State} (hr : domRuns s = true) (hl : 0x16 ≤ m.length) (ht : msgType m = 1)
  (hp : (domPorts s).contains p = true)
include hr hl ht hp

theorem helloRxDo_mismatch (hd : msgDomain m ≠ s.dom.domainId) :
    helloRxDo p m s = { s with dom := { s.dom with peerDomain := s.dom.peerDomain.set p (msgDomain m), reason := 1 } } := by
  unfold helloRxDo
  rw [hr, ht, hp, decide_eq_true hl, if_neg (by decide)]
  exact if_pos hd

/-- A HELLO of this domain makes its sender the port's neighbour, and membership steps follow (R422, R424). -/
theorem helloRxDo_neighbour (hd : msgDomain m = s.dom.domainId) : ∃ dirty changed,
    StepsOnly (updDom (greeted p m (nowNs s) dirty changed) s) (helloRxDo p m s) := by
  unfold helloRxDo
  rw [hr, ht, hp, decide_eq_true hl, if_neg (by decide)]
  extract_lets t v same u w
  have hv : v = ⟨msgSerial m, msgIndex m, msgPrio m, nowNs s⟩ := congrArg (Neighbour.mk _ _ _) (nowNs_of_rest (s := s) (t := t) rfl)
  have hu : ∀ (dirty : Bool) (changed : Option Nat), updDom (fun d => { d with dirty := dirty, changed := changed }) u =
      updDom (greeted p m (nowNs s) dirty changed) s := by
    intro dirty changed
    simp only [u, hv]
    rfl
  have hsame : u = updDom (fun d => { d with dirty := s.dom.dirty, changed := s.dom.changed }) u := rfl
  have hnow : nowNs u = nowNs s := nowNs_of_rest rfl
  have hw : ∃ dirty changed, StepsOnly (updDom (greeted p m (nowNs s) dirty changed) s) w := by
    simp only [w]
    split
    · exact ⟨s.dom.dirty, s.dom.changed, by rw [← hu, ← hsame]; exact .refl u⟩
    · refine ⟨true, some (nowNs s), ?_⟩
      rw [← hu, ← hnow]
      exact stepsOnly_tableChanged (updDom (fun d => { d with dirty := true }) u)
  rw [if_neg (by exact not_not_intro hd)]
  obtain ⟨dirty, changed, hw⟩ := hw
  refine ⟨dirty, changed, ?_⟩
  split
  · exact hw.trans (stepsOnly_domStep 3 w)
  · exact hw

end

theorem neighbourLostDo_lost {p : Nat} {v : Neighbour} {s : State} (hr : domRuns s = true) (hv : s.dom.neighbours.find? p = some v)
    (h : v.at_ + 300000000 ≤ nowNs s ∨ (domPorts s).contains p = false) : neighbourLostDo p s =
      tableChanged { s with dom := { s.dom with neighbours := s.dom.neighbours.del p, dirty := true } } := by
  have hdue : (decide (v.at_ + 300000000 ≤ nowNs s) || !(domPorts s).contains p) = true := by
    cases h with
    | inl h => rw [decide_eq_true h, Bool.true_or]
    | inr h => rw [h, Bool.not_false, Bool.or_true]
  unfold neighbourLostDo
  simp only [hv, hr, hdue, Bool.and_self, if_true]
  rfl

/-! ## The link-state table -/

theorem linkSendDo_due {s : State} (hr : domRuns s = true) (h : s.dom.dirty = true ∨ s.dom.sentAt + 100000000 ≤ nowNs s) :
    linkSendDo s = originate 2 (linkStatePayload s) (floodPorts s) { s with dom := { s.dom with dirty := false, sentAt := nowNs s } } := by
  have hdue : (s.dom.dirty || decide (s.dom.sentAt + 100000000 ≤ nowNs s)) = true := by
    cases h with
    | inl h => rw [h, Bool.true_or]
    | inr h => rw [decide_eq_true h, Bool.or_true]
  unfold linkSendDo
  rw [if_pos (by rw [hr, hdue]; rfl)]
  rfl

section
variable {p : Nat} {m : List Byte} {s : State} (hm : mine 2 1 m s = true) (hl : 0x15 + 8 * byteAt m 0x14 ≤ m.length)
include hm hl

theorem linkStateDo_seen (h : s.dom.seen.contains (msgSerial m, msgSeq m) = true) : linkStateDo p m s = s := by
  unfold linkStateDo
  rw [if_neg (by simp [hm, hl])]
  simp only [flood_seen h, Bool.not_false, Bool.true_or, if_true]

/-- The first LINK_STATE of a member enters the table (R423). -/
theorem linkStateDo_new (h : s.dom.seen.contains (msgSerial m, msgSeq m) = false)
    (hn : s.dom.table.find? (fun e => e.serial == msgSerial m) = none) :
    (linkStateDo p m s).dom.table.find? (fun e => e.serial == msgSerial m) =
        some ⟨msgSerial m, msgIndex m, msgPrio m, msgSeq m, nowNs s, linkNeighbours (msgBody m)⟩ ∧
      (linkStateDo p m s).dom.seen.contains (msgSerial m, msgSeq m) = true ∧ (linkStateDo p m s).dom.changed = some (nowNs s) := by
  obtain ⟨t, hf, _, hdom, hnow⟩ := flood_new (p := p) h
  unfold linkStateDo
  rw [if_neg (by simp [hm, hl])]
  simp only [hf, hdom, hn, hnow, Bool.not_true, Bool.or_self, Bool.false_eq_true, if_false]
  obtain ⟨_, htable, hseen, _, hchanged, _⟩ := (stepsOnly_tableChanged (updDom (fun d => { d with
    table := ⟨msgSerial m, msgIndex m, msgPrio m, msgSeq m, nowNs s, linkNeighbours (msgBody m)⟩ ::
      d.table.filter (fun x => x.serial != msgSerial m) }) t)).keeps
  refine ⟨?_, ?_, hchanged.trans (congrArg some hnow)⟩
  · rw [htable]
    exact List.find?_cons_of_pos (by simp)
  · rw [hseen]
    simp only [updDom, hdom]
    exact contains_seen _ _

end

theorem memberLostDo_lost {n : Nat} {e : LinkEntry} {s : State} (hr : domRuns s = true)
    (he : s.dom.table.find? (fun x => x.serial == n) = some e) (h : e.at_ + 300000000 ≤ nowNs s ∨ laneTo n s = none) :
    memberLostDo n s = dropMember n s := by
  have hdue : (decide (e.at_ + 300000000 ≤ nowNs s) || (laneTo n s).isNone) = true := by
    cases h with
    | inl h => rw [decide_eq_true h, Bool.true_or]
    | inr h => rw [h, Option.isNone_none, Bool.or_true]
  unfold memberLostDo
  simp only [he, hr, hdue, Bool.and_self, if_true]

/-- A member that is dropped leaves the table (R423, R428). -/
theorem dom_dropMember (n : Nat) (s : State) : (dropMember n s).dom.table = s.dom.table.filter (fun e => e.serial != n) ∧
    (dropMember n s).dom.changed = some (nowNs s) ∧ (dropMember n s).dom.seen = s.dom.seen := by
  obtain ⟨_, htable, hseen, _, hchanged, _⟩ := (stepsOnly_tableChanged (updDom (fun d => { d with
    table := d.table.filter (fun e => e.serial != n), joined := d.joined.erase n, refused := d.refused.erase n }) s)).keeps
  exact ⟨htable, hchanged, hseen⟩

theorem leaveDo_new {p : Nat} {m : List Byte} {s : State} (hm : mine 5 0 m s = true)
    (h : s.dom.seen.contains (msgSerial m, msgSeq m) = false) :
    (leaveDo p m s).dom.table.all (fun e => e.serial != msgSerial m) = true ∧
      (leaveDo p m s).dom.seen.contains (msgSerial m, msgSeq m) = true := by
  obtain ⟨t, hf, _, hdom, _⟩ := flood_new (p := p) h
  unfold leaveDo
  simp only [hm, hf, Bool.not_true, Bool.false_eq_true, if_false]
  refine ⟨?_, ?_⟩
  · rw [(dom_dropMember _ _).1]
    simp
  · rw [(dom_dropMember _ _).2.2]
    simp only [updDom, hdom]
    exact contains_seen _ _

/-! ## The election -/

section
variable {s t : State} (hn : t.dom.neighbours = s.dom.neighbours) (ht : t.dom.table = s.dom.table)
include hn ht

theorem neighboursOf_congr (x : Nat) : neighboursOf x t = neighboursOf x s := by simp only [neighboursOf, hn, ht]

theorem expand_congr (n h : Nat) (known : List (Nat × Nat × Nat)) (front : List (Nat × Nat)) :
    expand t n h known front = expand s n h known front := by
  induction n generalizing h known front with
  | zero => rfl
  | succ n ih =>
    cases front with
    | nil => rfl
    | cons f fs => simp only [expand, neighboursOf_congr hn ht, ih]

theorem reach_congr : reach t = reach s := by simp only [reach, hn, expand_congr hn ht]

theorem hopsTo_congr (x : Nat) : hopsTo x t = hopsTo x s := by simp only [hopsTo, reach_congr hn ht]

theorem conflicted_congr (hi : t.dom.index = s.dom.index) (hq : t.dom.prio = s.dom.prio) (x : Nat) : conflicted x t = conflicted x s := by
  have hid : ∀ y, identityOf y t = identityOf y s := fun y => by simp only [identityOf, hn, ht, hi, hq]
  simp only [conflicted, allMembers, reach_congr hn ht, hid]

end

/-- An election that is due notes its result, and the member stays, is refused, leads or aligns (R425). -/
theorem electionDo_due {at_ : Nat} {s : State} (hr : domRuns s = true) (hs : s.dom.step ≠ 2) (hc : s.dom.changed = some at_)
    (hd : at_ + 20000000 ≤ nowNs s) : ∃ u, StepsOnly u (electionDo s) ∧ u.dom.coordSerial = some (elected s) ∧
      u.dom.coordIndex = (identityOf (elected s) s).1 ∧ u.dom.changed = none ∧
      (conflicted Config.serial s = true → electionDo s = domEnd 5 2 u) ∧
      (conflicted Config.serial s = false → hopsTo (elected s) s ≤ 6 → s.dom.state ≠ 4 → elected s = Config.serial →
        electionDo s = domEnd 2 0 u) := by
  unfold electionDo
  simp -zeta only [hc]
  rw [if_neg (by simp [hr, hs, hd])]
  extract_lets c old moved u
  have hconf : conflicted Config.serial u = conflicted Config.serial s := conflicted_congr (by rfl) (by rfl) (by rfl) (by rfl) _
  have hhops : hopsTo c u = hopsTo c s := hopsTo_congr (by rfl) (by rfl) _
  have hstate : u.dom.state = s.dom.state := rfl
  refine ⟨u, ?_, rfl, rfl, rfl, fun h => ?_, fun h hfar hiso hlead => ?_⟩
  · split
    · exact stepsOnly_domEnd _ _ u
    · split
      · exact stepsOnly_domEnd _ _ u
      · split
        · exact stepsOnly_showMembers u
        · split
          · exact stepsOnly_domEnd _ _ u
          · split
            · exact ((stepsOnly_domSetState _ _ u).trans (stepsOnly_domStep _ _)).trans (stepsOnly_showMembers _)
            · exact stepsOnly_showMembers u
  · rw [if_pos (hconf.trans h)]
  · rw [if_neg (by rw [hconf, h]; exact Bool.false_ne_true), if_neg (by rw [hhops]; exact Nat.not_lt.mpr hfar), if_neg (by rw [hstate]; exact hiso),
      if_pos hlead]

/-! ## Alignment, compatibility and joining -/

theorem offsetActs_late {at_ : Nat} {s : State} (hs : s.dom.state = 2) (hb : s.dom.badSince = some at_)
    (hd : at_ + 1000000000 ≤ nowNs s) : offsetActs s = domEnd 4 6 s := by
  unfold offsetActs
  extract_lets d isolated late good
  have hlate : late = true := by simp only [late, d, hs, hb, decide_eq_true hd, beq_self_eq_true, Bool.and_self]
  rw [hlate, Bool.or_true, if_pos rfl]

theorem compatDo_coordinator {p : Nat} {m : List Byte} {s : State} (hm : mine 3 20 m s = true)
    (hc : s.dom.coordSerial = some Config.serial) : compatDo p m s = noteAnswer (msgSerial m) (compatResult m s)
      (originate 4 (leBytes 6 (msgSerial m) ++ leBytes 1 (compatResult m s)) (floodPorts s) s) := by
  unfold compatDo
  rw [hm, if_neg (by decide), if_pos hc]

theorem compatDo_onWay {p q c : Nat} {m : List Byte} {s : State} (hm : mine 3 20 m s = true) (hc : s.dom.coordSerial = some c)
    (hne : c ≠ Config.serial) (hl : laneTo c s = some q) (hq : q ≠ p) : compatDo p m s = sendDomain m [q] s := by
  unfold compatDo
  rw [hm, if_neg (by decide), if_neg (by rw [hc]; exact fun h => hne (Option.some.inj h)), hc]
  simp only [Option.bind_some, hl, if_neg hq]

theorem state_noteAnswer (n r : Nat) (s : State) :
    (noteAnswer n r s).dom.state = s.dom.state ∧ (noteAnswer n r s).dom.step = s.dom.step := by
  obtain ⟨hstate, _, hstep⟩ := state_showMembers (updDom (fun d => { d with
    joined := if r = 0 then n :: d.joined.erase n else d.joined.erase n,
    refused := if r = 0 then d.refused.erase n else n :: d.refused.erase n }) s)
  exact ⟨hstate, hstep⟩

/-- The coordinator's JOIN makes this member JOINED or refused (R427). -/
theorem joinDo_own {p : Nat} {m : List Byte} {s : State} (hm : mine 4 7 m s = true)
    (h : s.dom.seen.contains (msgSerial m, msgSeq m) = false) (hc : s.dom.coordSerial = some (msgSerial m))
    (ht : leAt m 0x14 6 = Config.serial) (hs : s.dom.state = 1) (hstep : 5 ≤ s.dom.step) : ∃ t,
      joinDo p m s = noteAnswer (msgSerial m) 0 (domEnd (if byteAt m 0x1A = 0 then 2 else if byteAt m 0x1A = 3 ∨ byteAt m 0x1A = 5 then 3 else 5)
        (byteAt m 0x1A) t) := by
  obtain ⟨t, hf, _, hdom, _⟩ := flood_new (p := p) h
  refine ⟨t, ?_⟩
  unfold joinDo
  simp only [hm, hf, hdom, hc, ht, hs, hstep, Bool.not_true, Bool.false_eq_true, if_false, bne_self_eq_false, Bool.or_self, ne_eq,
    not_true_eq_false, and_self, if_true]

/-! ## BODY_DOM_CFG -/

theorem saveSettings_only (s : State) : ∃ u, saveSettings s = { s with upd := u } := by
  have hcopy : ∀ (n : Nat) (c : SettingsCopy) (t : State), ∃ u, setCopy n c t = { t with upd := u } := by
    intro n c t
    unfold setCopy
    split <;> exact ⟨_, rfl⟩
  have hbank : ∀ (n : Nat) (b : Bank) (t : State), ∃ u, setBank n b t = { t with upd := u } := by
    intro n b t
    unfold setBank
    split <;> exact ⟨_, rfl⟩
  unfold saveSettings
  split
  · exact ⟨_, rfl⟩
  · extract_lets b own c
    split
    · exact hcopy own c s
    · obtain ⟨u, hu⟩ := hcopy (1 - own) c s
      obtain ⟨x, hx⟩ := hbank s.upd.active { b with ownsCopy := 1 - own } (setCopy (1 - own) c s)
      exact ⟨x, by rw [hx, hu]⟩

theorem dom_saving (f : State → State) (s : State) : (saving f s).dom = (f s).dom := by
  unfold saving
  extract_lets t
  split
  · rfl
  · obtain ⟨u, h⟩ := saveSettings_only t
    rw [h]

/-- Membership begins FORMING, in step 2, with nothing known (R424). -/
theorem dom_domStart (s : State) : (domStart s).dom.state = 1 ∧ (domStart s).dom.step = 2 ∧ (domStart s).dom.table = [] := by
  unfold domStart
  extract_lets t
  obtain ⟨hstate, _, hstep⟩ := state_showMembers (domStep 2 (domSetState 1 0 t))
  obtain ⟨_, htable, _⟩ := (((stepsOnly_domSetState 1 0 t).trans (stepsOnly_domStep 2 _)).trans (stepsOnly_showMembers _)).keeps
  refine ⟨hstate.trans ?_, hstep, htable⟩
  simp only [domStep, updDom, dom_domSetState]

theorem identity_domStart (s : State) : (domStart s).dom.enable = s.dom.enable ∧ (domStart s).dom.domainId = s.dom.domainId ∧
    (domStart s).dom.prio = s.dom.prio ∧ (domStart s).dom.index = s.dom.index := by
  unfold domStart
  extract_lets t
  exact (((stepsOnly_domSetState 1 0 t).trans (stepsOnly_domStep 2 _)).trans (stepsOnly_showMembers _)).identity

/-- The orderly end leaves STATE OFF and nothing known (R422, R430). -/
theorem dom_domStop (s : State) : (domStop s).dom.state = 0 ∧ (domStop s).dom.neighbours.cells = [] ∧ (domStop s).dom.table = [] := by
  unfold domStop
  extract_lets t u
  have hu : u.dom.state = 0 := by simp only [u, domStep, updDom, dom_domSetState]
  clear_value u
  have hshow : ∀ v : State, (showMembers v).dom.state = v.dom.state ∧ (showMembers v).dom.neighbours = v.dom.neighbours ∧
      (showMembers v).dom.table = v.dom.table := fun v =>
    ⟨(state_showMembers v).1, (stepsOnly_showMembers v).keeps.1, (stepsOnly_showMembers v).keeps.2.1⟩
  obtain ⟨hstate, hneighbours, htable⟩ := hshow _
  exact ⟨hstate.trans hu, congrArg Tab.cells hneighbours, htable⟩

theorem domCfgSet_start {v : Word64} {s : State} (he : s.dom.enable = false) (hv : bitOf v 0 = true) (hid : fld v 63 32 ≠ 0) :
    domCfgSet v s = domStart (setDomCfg v s) := by
  have hon : (setDomCfg v s).dom.enable = true := by
    simp only [setDomCfg, updDom, hv, Bool.true_and]
    exact bne_iff_ne.mpr hid
  unfold domCfgSet
  rw [if_neg (by rw [he]; exact Bool.false_ne_true)]
  exact if_pos hon

theorem enable_setDomCfg_off {v : Word64} (s : State) (hv : bitOf v 0 = false ∨ fld v 63 32 = 0) : (setDomCfg v s).dom.enable = false := by
  cases hv with
  | inl h => simp only [setDomCfg, updDom, h, Bool.false_and]
  | inr h => simp [setDomCfg, updDom, h]

theorem domCfgSet_identity {v : Word64} {s : State} (he : s.dom.enable = false) (hv : bitOf v 0 = false ∨ fld v 63 32 = 0) :
    domCfgSet v s = setDomCfg v s := by
  unfold domCfgSet
  rw [if_neg (by rw [he]; exact Bool.false_ne_true)]
  exact if_neg (by rw [enable_setDomCfg_off s hv]; exact Bool.false_ne_true)

theorem domCfgSet_stop {v : Word64} {s : State} (he : s.dom.enable = true) (hv : bitOf v 0 = false) :
    domCfgSet v s = setDomCfg v (domStop s) := by
  unfold domCfgSet
  rw [if_pos he, if_neg (by rw [hv]; exact Bool.false_ne_true)]

/-! ## Time-outs of the steps -/

theorem domTimeoutDo_early {s : State} (h : nowNs s < s.dom.stepAt + domBound s) : domTimeoutDo s = s := by
  unfold domTimeoutDo
  rw [decide_eq_true h, Bool.or_true, if_pos rfl]

section
variable {s : State} (hr : domRuns s = true) (hd : s.dom.stepAt + domBound s ≤ nowNs s)
include hr hd

theorem domTimeoutDo_step2 (hs : s.dom.step = 2) : domTimeoutDo s = { s with dom := { s.dom with step := 3, stepAt := nowNs s } } := by
  unfold domTimeoutDo
  rw [if_neg (by simp [hr, hd, hs]), if_pos hs]
  rfl

theorem domTimeoutDo_step4 (hs : s.dom.step = 4) : domTimeoutDo s = domEnd 4 6 s := by
  unfold domTimeoutDo
  rw [if_neg (by simp [hr, hd, hs]), if_neg (by omega), if_pos hs]

end

/-! ## The statement -/

/-- Settles O52, each message and instant by what it does to the domain; the steps of membership change nothing else. -/
theorem domainMembership : Obligations.DomainMembership := by
  unfold Obligations.DomainMembership
  refine ⟨?_, ?_, ?_, ?_, ?_, ?_, ?_, ?_, ?_, ?_, ?_, ?_, ?_, ?_, ?_, ?_, ?_, ?_, ?_, ?_, ?_, ?_, ?_, ?_, ?_⟩
  · intro p s hp hr hport hfirst
    rw [exec_hello hp, helloDo_first hr hport hfirst]
  · intro type pay ps s
    rw [dom_originate]
    exact ⟨rfl, rfl, rfl⟩
  · intro p at_ s hp h hn
    rw [exec_hello hp, helloDo_early h hn]
  · intro p m s hp hr hl ht hport hd
    rw [exec_helloRx hp, helloRxDo_mismatch hr hl ht hport hd]
  · intro p m s hp hr hl ht hport hd
    obtain ⟨dirty, changed, h⟩ := helloRxDo_neighbour hr hl ht hport hd
    obtain ⟨hneighbours, htable, _, hpeer, _⟩ := h.keeps
    obtain ⟨hlanes, hhq⟩ := h.others
    exact ⟨_, exec_helloRx hp m s, hneighbours, by rw [hpeer]; exact Tab.find_set_same _ _ _, htable, hlanes, hhq⟩
  · intro p v s hp hr hv h
    refine ⟨_, exec_neighbourLost hp s, ?_⟩
    rw [neighbourLostDo_lost hr hv h]
    obtain ⟨hneighbours, htable, _, _, hchanged, hdirty, _⟩ :=
      (stepsOnly_tableChanged { s with dom := { s.dom with neighbours := s.dom.neighbours.del p, dirty := true } }).keeps
    exact ⟨hneighbours, hdirty, hchanged, htable⟩
  · intro s hr h
    rw [exec_linkStateSend, linkSendDo_due hr h]
  · intro p m s hp hm hl h
    rw [exec_linkState hp, linkStateDo_seen hm hl h]
  · intro p m s hp hm hl h hn
    exact ⟨_, exec_linkState hp m s, linkStateDo_new hm hl h hn⟩
  · intro n e s hr he h
    rw [exec_memberLost, memberLostDo_lost hr he h]
  · exact fun n s => ⟨(dom_dropMember n s).1, (dom_dropMember n s).2.1⟩
  · intro p m s hp hm h
    exact ⟨_, exec_domLeave hp m s, leaveDo_new hm h⟩
  · intro at_ s hr hs hc hd
    obtain ⟨u, hsteps, hserial, hindex, hchanged, hconflict, hlead⟩ := electionDo_due hr hs hc hd
    obtain ⟨_, _, _, _, kchanged, _, kserial, kindex⟩ := hsteps.keeps
    refine ⟨_, exec_election s, kserial.trans hserial, kindex.trans hindex, kchanged.trans hchanged, fun h => ?_, fun h h6 h4 he => ?_⟩
    · rw [hconflict h]
      exact ⟨(state_domEnd 5 2 u).1, (state_domEnd 5 2 u).2.1⟩
    · rw [hlead h h6 h4 he]
      exact (state_domEnd 2 0 u).1
  · intro s h
    rw [exec_election]
    simp only [electionDo, h]
  · intro ns s h
    refine ⟨_, ?_, ?_, rfl, rfl, ?_⟩
    · rw [exec_timeAligned, timeAlignedDo, if_pos h]
    · rw [exec_isolatedTime, isolatedTimeDo, if_pos h]
    · simp only [measureOffset, updDom]
      split
      · next hin => exact ⟨fun _ => hin, fun _ => rfl⟩
      · next hout => exact ⟨fun hnone => (by cases hnone), fun hin => absurd hin hout⟩
  · intro at_ s hs hb hd
    rw [offsetActs_late hs hb hd]
    exact ⟨(state_domEnd 4 6 s).1, (state_domEnd 4 6 s).2.1⟩
  · intro p m s hp hm hc
    rw [exec_compat hp, compatDo_coordinator hm hc]
  · intro p q c m s hp hm hc hne hl hq
    rw [exec_compat hp, compatDo_onWay hm hc hne hl hq]
  · intro p m s hp hm h hc ht hs hstep
    obtain ⟨t, hj⟩ := joinDo_own (p := p) hm h hc ht hs hstep
    refine ⟨_, exec_domJoin hp m s, ?_⟩
    rw [hj, (state_noteAnswer _ _ _).1, (state_noteAnswer _ _ _).2]
    exact ⟨(state_domEnd _ _ t).2.2, (state_domEnd _ _ t).1⟩
  · intro s hr hs hd
    rw [exec_domainStepTimeout, domTimeoutDo_step2 hr hd hs]
  · intro s hr hs hd
    refine ⟨_, exec_domainStepTimeout s, ?_⟩
    rw [domTimeoutDo_step4 hr hd hs]
    exact state_domEnd 4 6 s
  · intro s _ h
    rw [exec_domainStepTimeout, domTimeoutDo_early h]
  · intro who v s hw he hv hid
    refine ⟨_, exec_domCfg v hw, ?_⟩
    rw [domCfgDo, dom_saving, domCfgSet_start he hv hid]
    obtain ⟨henable, hdomain, hprio, hindex⟩ := identity_domStart (setDomCfg v s)
    obtain ⟨hstate, hstep, htable⟩ := dom_domStart (setDomCfg v s)
    refine ⟨henable.trans ?_, hdomain, hprio, hindex, hstate, hstep, htable⟩
    simp [setDomCfg, updDom, hv, hid]
  · intro who v s hw he hv
    refine ⟨_, exec_domCfg v hw, ?_⟩
    rw [domCfgDo, dom_saving, domCfgSet_identity he hv]
    exact ⟨enable_setDomCfg_off s hv, rfl, rfl⟩
  · intro who v s hw he hv
    refine ⟨_, exec_domCfg v hw, ?_⟩
    rw [domCfgDo, dom_saving, domCfgSet_stop he hv]
    obtain ⟨hstate, hneighbours, htable⟩ := dom_domStop s
    exact ⟨enable_setDomCfg_off _ (.inl hv), hstate, hneighbours, htable⟩

end Sys2Proof
end

section
/-! PROOFS. The firmware update: staging, applying, scheduling, the trial, its commit and the ways back (R455-R471). -/

namespace Sys2Proof

open Machine

/-! ## The commands of the update -/

theorem exec_updStage (src : CmdSrc) (s : State) (h : src.wf = true) : exec (.updStage src) s = .next (command 0xC0 updStageBody src s) :=
  onWf_of_wf (i := .updStage src) h

theorem exec_updApply (src : CmdSrc) (s : State) (h : src.wf = true) : exec (.updApply src) s = .next (command 0xC1 updApplyBody src s) :=
  onWf_of_wf (i := .updApply src) h

theorem exec_updSchedule (src : CmdSrc) (s : State) (h : src.wf = true) :
    exec (.updSchedule src) s = .next (command 0xC2 updScheduleBody src s) := onWf_of_wf (i := .updSchedule src) h

theorem exec_updCancel (src : CmdSrc) (s : State) (h : src.wf = true) :
    exec (.updCancel src) s = .next (command 0xC3 updCancelBody src s) := onWf_of_wf (i := .updCancel src) h

theorem exec_updCommit (src : CmdSrc) (s : State) (h : src.wf = true) :
    exec (.updCommit src) s = .next (command 0xC4 updCommitBody src s) := onWf_of_wf (i := .updCommit src) h

theorem exec_updFallback (src : CmdSrc) (s : State) (h : src.wf = true) :
    exec (.updFallback src) s = .next (command 0xC5 updFallbackBody src s) := onWf_of_wf (i := .updFallback src) h

theorem exec_trialCommit (s : State) : exec .trialCommit s = .next (trialCommitDo s) := onWf_of_wf (i := .trialCommit) rfl
theorem exec_activateAt (s : State) : exec .activateAt s = .next (activateDo s) := onWf_of_wf (i := .activateAt) rfl
theorem exec_fallbackInstant (s : State) : exec .fallbackInstant s = .next (fallbackInstantDo s) := onWf_of_wf (i := .fallbackInstant) rfl

theorem updReserved_clear {l : Layout} {r : Req} (h : reservedZero l r = true) : updReserved l r = false := by rw [updReserved, h]; rfl

section
variable {r : Req} {s : State} (ho : r.owner = true)
include ho

theorem updStageBody_busy (hz : reservedZero ([(95, 0)], [], []) r = true) (hb : updBusy s = true) :
    updStageBody r s = (s, some (refuse stNotStarted 0x07)) := by
  simp only [updStageBody, ho, updReserved_clear hz, hb, Bool.not_true, Bool.false_eq_true, if_false, if_true, answer]

/-- A bank that is staged is given up before a Moult is staged (R459). -/
def stageCleared (s : State) : State :=
  if (inactiveBank s).state = 1 then setBank (inactive s) { inactiveBank s with state := 0, bytes := [] } s else s

/-- A Moult that passes its checks is kept; another empties the staging area (R459). -/
def stageAnswer (m : List Byte) (u : State) : State × Reply :=
  match moultCheck m u with
  | some reason => ({ u with upd := { u.upd with staging := [] } }, refuse stNotStarted reason)
  | none => ({ u with upd := { u.upd with staging := m } }, okWith 0)

theorem updStageBody_checked (hz : reservedZero ([(95, 0)], [], []) r = true) (hb : updBusy s = false)
    (hl : fld r.w1 95 64 ≤ 67108864) (hf : s.upd.flashBad = false) :
    updStageBody r s = ((stageAnswer (hostBytes (fld r.w1 63 0) (fld r.w1 95 64) s) (stageCleared s)).1,
      some (stageAnswer (hostBytes (fld r.w1 63 0) (fld r.w1 95 64) s) (stageCleared s)).2) := by
  simp only [updStageBody, df, ho, updReserved_clear hz, hb, hf, Nat.not_lt.mpr hl, Bool.not_true, Bool.false_eq_true, if_false, stageAnswer,
    stageCleared]
  split
  · next h =>
    simp only [h]
    rfl
  · next h =>
    simp only [h]
    rfl

theorem updApplyBody_builds (hz : reservedZero ([], [], []) r = true) (hb : updBusy s = false) (hs : s.upd.staging ≠ [])
    (hf : s.upd.flashBad = false) :
    let bytes := (moultTarget s.upd.staging s).getD []
    let owns := (inactiveBank s).ownsCopy
    updApplyBody r s = if sha384 bytes ≠ slice s.upd.staging 0x40 48 then
        answer (setBank (inactive s) { ownsCopy := owns } s) (refuse stNotStarted 0x06)
      else if byteAt bytes 0xC < s.upd.floor then answer (setBank (inactive s) { ownsCopy := owns } s) (refuse stNotStarted 0x05)
      else answer (setBank (inactive s) (bankWith 2 bytes owns) s) ⟨stOk, 100, 0⟩ := by
  intro bytes owns
  have hne : s.upd.staging.isEmpty = false := List.isEmpty_eq_false_iff.mpr hs
  simp only [updApplyBody, ho, updReserved_clear hz, hb, hf, hne, Bool.not_true, Bool.false_eq_true, if_false]
  rfl

theorem updScheduleBody_pending (hz : reservedZero ([(63, 0)], [(32, 0)], []) r = true) (hh : 10 ≤ fld r.w2 15 0)
    (hfall : fld r.w2 15 0 + 10 ≤ fld r.w2 31 16) (hp : s.upd.pending = false) (hst : (inactiveBank s).state = 2)
    (ht : 1000000000 ≤ cmpDiff (fld r.w1 63 0) (cmpNow s)) : updScheduleBody r s = answer { s with upd := { s.upd with
      pending := true
      activateAt := fld r.w1 63 0
      healthEnd := cmpAdd (fld r.w1 63 0) (fld r.w2 15 0 * 1000000000)
      fallbackAt := cmpAdd (fld r.w1 63 0) (fld r.w2 31 16 * 1000000000)
      commitMode := bitOf r.w2 32
      ownerFall := false } } (okWith 0) := by
  have hbounds : ¬(fld r.w2 15 0 < 10 ∨ fld r.w2 31 16 < fld r.w2 15 0 + 10) := by omega
  simp only [updScheduleBody, df, ho, updReserved_clear hz, hbounds, hp, hst, Int.not_lt.mpr ht, Bool.not_true, Bool.false_eq_true,
    ne_eq, not_true_eq_false, if_false]

theorem updCancelBody_pending (hz : reservedZero ([], [], []) r = true) (hp : s.upd.pending = true) :
    updCancelBody r s = if cmpReached (cmpNow s) s.upd.activateAt = true then answer s ⟨stTooLate, 0, 0⟩
      else answer { s with upd := { s.upd with pending := false, activateAt := 0, fallbackAt := 0, healthEnd := 0 } } (okWith 0) := by
  simp only [updCancelBody, ho, updReserved_clear hz, hp, Bool.not_true, Bool.false_eq_true, Bool.true_and, if_false, if_true]

theorem updCommitBody_noTrial (hz : reservedZero ([], [], []) r = true) (ht : trialRunning s = false) :
    updCommitBody r s = answer s (refuse stNotStarted 0x0A) := by
  simp only [updCommitBody, ho, updReserved_clear hz, ht, Bool.not_true, Bool.not_false, Bool.false_eq_true, if_false, if_true]

theorem updCommitBody_healthy (hz : reservedZero ([], [], []) r = true) (ht : trialRunning s = true) (hd : fallBackDue s = false)
    (hu : s.upd.unreadable = false) (hh : trialHealthy s = true) : updCommitBody r s = answer (commitTrial s) (okWith 0) := by
  simp only [updCommitBody, ho, updReserved_clear hz, ht, hd, hu, hh, Bool.not_true, Bool.false_eq_true, if_false, if_true]

theorem updFallbackBody_trial (hz : reservedZero ([(63, 0)], [], []) r = true) (ht : trialRunning s = true) :
    updFallbackBody r s = if fld r.w1 63 0 = 0 then (fallBackNow (complete r.tk (okWith 0) { s with upd := { s.upd with ownerFall := true } }), none)
      else answer { s with upd := { s.upd with ownerFall := true, fallbackAt := fld r.w1 63 0 } } (okWith 0) := by
  simp only [updFallbackBody, df, ho, updReserved_clear hz, ht, Bool.not_true, Bool.false_eq_true, if_false]

end

/-! ## Banks -/

theorem upd_record (code : Nat) (items : List (Nat × Nat)) (s : State) : (record code items s).upd = s.upd := by simp

/-- What a bank is depends on the update's state only. -/
theorem bankOfIdx_congr {s t : State} (h : t.upd = s.upd) (b : Nat) : bankOfIdx b t = bankOfIdx b s := by simp only [bankOfIdx, h]

theorem activeBank_congr {s t : State} (h : t.upd = s.upd) : activeBank t = activeBank s := by
  rw [activeBank, activeBank, bankOfIdx_congr h, h]

theorem active_setBank (b : Nat) (v : Bank) (s : State) : (setBank b v s).upd.active = s.upd.active := by
  unfold setBank
  split <;> rfl

@[simp] theorem bankOfIdx_setBank (b : Nat) (v : Bank) (s : State) : bankOfIdx b (setBank b v s) = v := by
  by_cases h : b = 0 <;> simp [bankOfIdx, setBank, h]

theorem activeBank_setBank (v : Bank) (s : State) : activeBank (setBank s.upd.active v s) = v := by
  rw [activeBank, active_setBank, bankOfIdx_setBank]

/-- The active bank and the inactive one are two. -/
theorem activeBank_setBank_inactive (v : Bank) (s : State) : activeBank (setBank (inactive s) v s) = activeBank s := by
  rw [activeBank, active_setBank]
  by_cases h : s.upd.active = 0
  · simp [activeBank, inactive, bankOfIdx, setBank, h]
  · have hi : 1 - s.upd.active = 0 := by omega
    simp [activeBank, inactive, bankOfIdx, setBank, h, hi]

/-! ## The commit -/

theorem upd_commitTrial (s : State) : ∃ u : State, (commitTrial s).upd = { u.upd with
    floor := min 127 (max s.upd.floor (fwFloorStep (activeBank s))), fallbackAt := 0, activateAt := 0, healthEnd := 0 } ∧
    (activeBank u).state = 4 ∧ (inactiveBank u).state = 6 ∧ u.upd.active = s.upd.active := by
  let t := setBank s.upd.active { activeBank s with state := 4 } s
  refine ⟨setBank (inactive t) { inactiveBank t with state := 6 } t, ?_, ?_, ?_, ?_⟩
  · unfold commitTrial
    rw [upd_record]
  · rw [activeBank_setBank_inactive, activeBank_setBank]
  · rw [inactiveBank, inactive, active_setBank]
    exact congrArg Bank.state (bankOfIdx_setBank (inactive t) _ t)
  · rw [active_setBank, active_setBank]

/-- The commit: the bank COMMITTED, the other PREVIOUS, and the floor never lowered (R465, R456). -/
theorem commitTrial_settles (s : State) : (activeBank (commitTrial s)).state = 4 ∧ (inactiveBank (commitTrial s)).state = 6 ∧
    (commitTrial s).upd.floor = min 127 (max s.upd.floor (fwFloorStep (activeBank s))) ∧ (commitTrial s).upd.active = s.upd.active ∧
    (s.upd.floor ≤ 127 → s.upd.floor ≤ (commitTrial s).upd.floor) := by
  obtain ⟨u, hu, hactive, hinactive, hsame⟩ := upd_commitTrial s
  have hfloor : (commitTrial s).upd.floor = min 127 (max s.upd.floor (fwFloorStep (activeBank s))) := by rw [hu]
  have hbank : ∀ b, bankOfIdx b (commitTrial s) = bankOfIdx b u := fun b => by simp only [bankOfIdx, hu]
  have hact : (commitTrial s).upd.active = u.upd.active := by rw [hu]
  refine ⟨?_, ?_, hfloor, hact.trans hsame, fun h => by rw [hfloor]; omega⟩
  · rw [activeBank, hbank, hact]
    exact hactive
  · rw [inactiveBank, hbank, inactive, hact]
    exact hinactive

theorem trialCommitDo_healthy {s : State} (ht : trialRunning s = true) (hd : fallBackDue s = false) (hm : s.upd.commitMode = false)
    (hu : s.upd.unreadable = false) (hh : trialHealthy s = true) : trialCommitDo s = commitTrial s := by
  unfold trialCommitDo
  rw [ht, hd, hm, hu, hh]
  rfl

theorem trialCommitDo_none {s : State} (h : trialRunning s = false ∨ s.upd.commitMode = true) : trialCommitDo s = s := by
  unfold trialCommitDo
  refine if_neg fun hall => ?_
  simp only [Bool.and_eq_true, Bool.not_eq_true'] at hall
  obtain ⟨⟨⟨⟨ht, _⟩, hm⟩, _⟩, _⟩ := hall
  cases h with
  | inl h => rw [h] at ht; cases ht
  | inr h => rw [h] at hm; cases hm

/-! ## Settings applied at a start keep the banks -/

theorem upd_domStop (s : State) : (domStop s).upd = s.upd := by
  unfold domStop
  extract_lets t u
  have hu : StepsOnly t u := (stepsOnly_domSetState 0 0 t).trans (stepsOnly_domStep 0 _)
  refine (stepsOnly_showMembers _).upd.trans ?_
  exact hu.upd.trans (upd_originate _ _ _ _)

theorem upd_domStart (s : State) : (domStart s).upd = s.upd := by
  unfold domStart
  extract_lets t
  exact (((stepsOnly_domSetState 1 0 t).trans (stepsOnly_domStep 2 _)).trans (stepsOnly_showMembers _)).upd

theorem upd_domCfgSet (v : Word64) (s : State) : (domCfgSet v s).upd = s.upd := by
  unfold domCfgSet
  split
  · split
    · rfl
    · exact upd_domStop s
  · extract_lets t
    split
    · exact upd_domStart t
    · rfl

theorem upd_applyLaneGroup (b : SettingsBody) (s : State) (g : Nat) : (applyLaneGroup b s g).upd = s.upd := by
  unfold applyLaneGroup
  extract_lets w t
  split
  · rfl
  · split
    · rfl
    · exact (applyGroup_keeps g w.1 t).2

theorem upd_applySettings (b : SettingsBody) (s : State) : (applySettings b s).upd = s.upd := by
  unfold applySettings
  rw [upd_domCfgSet]
  exact foldl_keeps (fun x => x.upd) (upd_applyLaneGroup b) _ _

/-! ## Activation and the ways back -/

/-- The new firmware's migration keeps its bank TRIAL (R468, R469). -/
theorem migrateSettings_keeps (prev : Bank) (s : State) : (activeBank (migrateSettings prev s)).state = (activeBank s).state ∧
    (migrateSettings prev s).upd.trialOver = s.upd.trialOver := by
  have hcopy : ∀ (n : Nat) (c : SettingsCopy) (t : State), (setCopy n c t).upd.active = t.upd.active ∧
      (setCopy n c t).upd.trialOver = t.upd.trialOver := by
    intro n c t
    unfold setCopy
    split <;> exact ⟨rfl, rfl⟩
  have hover : ∀ (n : Nat) (b : Bank) (t : State), (setBank n b t).upd.trialOver = t.upd.trialOver := by
    intro n b t
    unfold setBank
    split <;> rfl
  unfold migrateSettings
  extract_lets b c copy t
  split
  · have hactive : t.upd.active = s.upd.active := (hcopy _ _ s).1
    rw [activeBank_congr (upd_record _ _ _), upd_record, hover, activeBank_setBank]
    exact ⟨rfl, (hcopy _ _ s).2⟩
  · rw [activeBank_congr (upd_record _ _ _), upd_record]
    exact ⟨rfl, rfl⟩

/-- The new bank starts on trial (R463). -/
theorem startTrial_trial (prev : Bank) (s : State) :
    (activeBank (startTrial prev s)).state = 3 ∧ (startTrial prev s).upd.trialOver = false := by
  unfold startTrial
  extract_lets b t w u v
  obtain ⟨hstate, hover⟩ := migrateSettings_keeps prev { t with upd := { t.upd with trialOver := false, ownerFall := false, unreadable := false } }
  have hv : v.upd = u.upd := by
    simp only [v]
    split
    · exact upd_applySettings {} u
    · rfl
  rw [activeBank_congr ((upd_record _ _ v).trans hv), (upd_record _ _ v).trans hv]
  refine ⟨hstate.trans ?_, hover⟩
  exact congrArg Bank.state (activeBank_setBank _ s)

/-- A bank that the boot ROM rejects stays inactive (R456, R463). -/
theorem rejectNew_rejects (check : Nat) (s : State) : (bankOfIdx (inactive s) (rejectNew (inactive s) check s)).state = 5 ∧
    (rejectNew (inactive s) check s).upd.active = s.upd.active := by
  unfold rejectNew
  extract_lets b t
  have ht : t.upd = (setBank (inactive s) { bankOfIdx (inactive s) s with state := 5 } s).upd := upd_record _ _ _
  have hbank : bankOfIdx (inactive s) t = { bankOfIdx (inactive s) s with state := 5 } :=
    (bankOfIdx_congr ht _).trans (bankOfIdx_setBank _ _ s)
  rw [bankOfIdx_congr (upd_record _ _ _), upd_record]
  exact ⟨congrArg Bank.state hbank, (congrArg Upd.active ht).trans (active_setBank _ _ s)⟩

theorem activateDo_early {s : State} (h : s.upd.pending = false ∨ cmpReached (cmpNow s) s.upd.activateAt = false) : activateDo s = s := by
  unfold activateDo
  refine if_neg fun hall => ?_
  rw [Bool.and_eq_true] at hall
  cases h with
  | inl h => rw [h] at hall; cases hall.1
  | inr h => rw [h] at hall; cases hall.2

/-! ## The statement -/

/-- Settles O54, command by command and instant by instant; settings applied at a start leave the banks alone. -/
theorem firmwareUpdate : Obligations.FirmwareUpdate := by
  unfold Obligations.FirmwareUpdate
  refine ⟨?_, ?_, ?_, ?_, ?_, ?_, ?_, ?_, commitTrial_settles, ?_, ?_, ?_, ?_, ?_, startTrial_trial, rejectNew_rejects, ?_, ?_⟩
  · refine completes_of exec_updStage fun r s ⟨ho, hz, hb, hl, hf⟩ => ?_
    exact updStageBody_checked ho hz hb hl hf
  · refine completes_of exec_updStage fun r s ⟨ho, hz, hb⟩ => updStageBody_busy ho hz hb
  · refine completes_of exec_updApply fun r s ⟨ho, hz, hb, hs, hf⟩ => ?_
    rw [updApplyBody_builds ho hz hb hs hf]
    extract_lets bytes owns
    split
    · rfl
    · split <;> rfl
  · exact completes_of exec_updSchedule fun r s ⟨ho, hz, hh, hfall, hp, hst, ht⟩ => updScheduleBody_pending ho hz hh hfall hp hst ht
  · refine completes_of exec_updCancel fun r s ⟨ho, hz, hp, hn⟩ => ?_
    rw [updCancelBody_pending ho hz hp, if_neg (by rw [hn]; exact Bool.false_ne_true)]
    rfl
  · refine completes_of exec_updCancel fun r s ⟨ho, hz, hp, hn⟩ => ?_
    rw [updCancelBody_pending ho hz hp, if_pos hn]
    rfl
  · exact completes_of exec_updCommit fun r s ⟨ho, hz, ht, hd, hu, hh⟩ => updCommitBody_healthy ho hz ht hd hu hh
  · exact completes_of exec_updCommit fun r s ⟨ho, hz, ht⟩ => updCommitBody_noTrial ho hz ht
  · intro s ht hd hm hu hh
    rw [exec_trialCommit, trialCommitDo_healthy ht hd hm hu hh]
  · intro s h
    rw [exec_trialCommit, trialCommitDo_none h]
  · refine begins_of exec_updFallback fun r s ⟨ho, hz, ht, h0⟩ => ?_
    rw [updFallbackBody_trial ho hz ht, if_pos h0]
  · refine completes_of exec_updFallback fun r s ⟨ho, hz, ht, h0⟩ => ?_
    rw [updFallbackBody_trial ho hz ht, if_neg h0]
    rfl
  · intro s hp hr
    have hdue : (s.upd.pending && cmpReached (cmpNow s) s.upd.activateAt) = true := by rw [hp, hr]; rfl
    exact (exec_activateAt s).trans (congrArg Host.Outcome.next (if_pos hdue))
  · intro s h
    rw [exec_activateAt, activateDo_early h]
  · intro s
    rw [exec_fallbackInstant, fallbackInstantDo, fallBackDue]
    simp only [Bool.and_eq_true, bne_iff_ne, ne_eq, and_assoc]

end Sys2Proof
end

section
/-! PROOFS. A Tremund lane: its bring-up, its blocks and its power states (R332-R345). -/

namespace Sys2Proof

open Machine

/-! ## Writes to one lane -/

theorem cellsSet_cellsSet {α : Type} (l : List (Nat × α)) (k : Nat) (v w : α) : cellsSet (cellsSet l k v) k w = cellsSet l k w := by
  induction l with
  | nil => simp [cellsSet]
  | cons c r ih =>
    obtain ⟨a, b⟩ := c
    simp only [cellsSet]
    split
    · simp [cellsSet]
    · split
      · simp [cellsSet]
      · next hlt hne => simp only [cellsSet, if_neg hlt, if_neg hne, ih]

/-- Of two writes to one lane the later stays. -/
theorem setLane_setLane (l : Nat) (v w : Lane) (s : State) : setLane l w (setLane l v s) = setLane l w s := by
  have h : (s.lanes.lanes.set l v).set l w = s.lanes.lanes.set l w := congrArg Tab.mk (cellsSet_cellsSet _ _ _ _)
  unfold setLane
  rw [h]

/-- What blocks sent on a lane leave as it is. -/
theorem core_fields {v w : Lane} (h : laneCore v = laneCore w) : (v.state = w.state ∧ v.step = w.step ∧ v.attempts = w.attempts ∧
    v.upAt = w.upAt) ∧ (v.inverted = w.inverted ∧ v.peerSerial = w.peerSerial ∧ v.peerLane = w.peerLane) ∧
    v.tx.power = w.tx.power ∧ v.tx.wakeDue = w.tx.wakeDue ∧ v.tx.dozeAt = w.tx.dozeAt := by
  simp only [laneCore, Lane.mk.injEq, LaneTx.mk.injEq] at h
  simp only [h, and_self]

/-- A block of a direction that sleeps notes its instant and moves the lane's position on the line (R345). -/
theorem laneOf_sendIdleBlock (l kind plan : Nat) (s : State) : ∃ a b c n, laneOf l (sendIdleBlock l kind plan s) = { laneOf l s with
    tx := onLine a b c { (laneOf l s).tx with refreshAt := nowNs s }, rx := { (laneOf l s).rx with nakDue := false, nakAt := n } } := by
  unfold sendIdleBlock
  extract_lets t
  obtain ⟨a, b, c, n, h⟩ := laneOf_sendTm l kind 0 0 plan (padBlock []) t
  refine ⟨a, b, c, n, ?_⟩
  rw [h]
  simp only [t, laneOf_updLane]
  rfl

/-- A DATA block of fill frames enters an empty replay buffer (R341). -/
theorem buffer_sendFill {l plan : Nat} {s : State} (h : (laneOf l s).tx.buffer = []) :
    (laneOf l (sendFill l plan s)).tx.buffer.length = 1 := by
  unfold sendFill
  rw [if_pos (by rw [h]; decide)]
  unfold sendDataBlock
  extract_lets v t
  obtain ⟨a, b, c, n, hl⟩ := laneOf_sendTm l 1 v.next 0 plan (padBlock []) t
  rw [hl]
  simp [t, laneOf_updLane, onLine, h]

/-! ## The lane rows of the table -/

section
variable {l : Nat} (hl : l < 128) (s : State)
include hl

theorem exec_tmBringupStep (h : BitVec 128) (inv : Bool) : exec (.tmBringupStep l h inv) s = .next (bringupDo l h inv s) :=
  onWf_of_wf (i := .tmBringupStep l h inv) (by simp [Instr.wf, hl])

theorem exec_tmStepTimeout : exec (.tmStepTimeout l) s = .next (stepTimeoutDo l s) :=
  onWf_of_wf (i := .tmStepTimeout l) (by simp [Instr.wf, hl])

theorem exec_tmRetryWaitEnd : exec (.tmRetryWaitEnd l) s = .next (retryWaitDo l s) :=
  onWf_of_wf (i := .tmRetryWaitEnd l) (by simp [Instr.wf, hl])

theorem exec_tmBlockRx (h : BitVec 128) {ws : List (BitVec 128)} (crc : BitVec 32) (hw : ws.length = 64) :
    exec (.tmBlockRx l h ws crc) s = .next (tmBlockDo l h ws crc s) :=
  onWf_of_wf (i := .tmBlockRx l h ws crc) (by simp [Instr.wf, hl, hw])

theorem exec_tmNakRepeat : exec (.tmNakRepeat l) s = .next (nakRepeatDo l s) :=
  onWf_of_wf (i := .tmNakRepeat l) (by simp [Instr.wf, hl])

theorem exec_tmDoze : exec (.tmDoze l) s = .next (dozeDo l s) := onWf_of_wf (i := .tmDoze l) (by simp [Instr.wf, hl])

theorem exec_tmIdle : exec (.tmIdle l) s = .next (idleDo l s) := onWf_of_wf (i := .tmIdle l) (by simp [Instr.wf, hl])

theorem exec_tmWake : exec (.tmWake l) s = .next (wakeDo l s) := onWf_of_wf (i := .tmWake l) (by simp [Instr.wf, hl])

theorem exec_tmRefresh : exec (.tmRefresh l) s = .next (refreshDo l s) := onWf_of_wf (i := .tmRefresh l) (by simp [Instr.wf, hl])

theorem exec_tmStreamHoldEnd {x : Nat} (hx : x < 1048576) : exec (.tmStreamHoldEnd l x) s = .next (streamHoldDo l x s) :=
  onWf_of_wf (i := .tmStreamHoldEnd l x) (by simp [Instr.wf, hl, hx])

end

/-! ## Bring-up -/

/-- A lane with the far end's identity of a header, and its pair's reversal (R344, R347). -/
def peerNoted (h : Word128) (inv : Bool) (v : Lane) : Lane :=
  { v with inverted := inv, peerPos := fld h 57 55, peerLane := fld h 54 48, peerSerial := fld h 47 0, peerWidth := fld h 60 58 }

/-- Only lane `l` differs, in other fields than STATE. -/
structure LaneNoted (l : Nat) (s t : State) : Prop where
  groups : t.lanes.groups = s.lanes.groups
  now : nowNs t = nowNs s
  state : (laneOf l t).state = (laneOf l s).state
  other : ∀ d, d ≠ l → laneOf d t = laneOf d s

theorem laneOf_count (d off n : Nat) (s : State) : laneOf d (count off n s) = laneOf d s := laneOf_congr rfl d

theorem laneOf_record (d code : Nat) (items : List (Nat × Nat)) (s : State) : laneOf d (record code items s) = laneOf d s :=
  laneOf_congr (by simp) d

theorem LaneNoted.upLanes {l : Nat} {s t : State} (h : LaneNoted l s t) (p : Nat) : upLanes p t = upLanes p s := by
  have hup : ∀ k, laneUp k t = laneUp k s := by
    intro k
    by_cases hk : k = l
    · rw [laneUp, hk, h.state, laneUp]
    · rw [laneUp, h.other k hk, laneUp]
  have hports : portLanes p t = portLanes p s := by simp only [portLanes, portWidth, laneGroup, groupCfg_congr h.groups]
  simp only [Machine.upLanes, hports, hup]

/-- Whether a lane is miswired depends on the port's other lanes only. -/
theorem LaneNoted.miswired {l : Nat} {s t : State} (h : LaneNoted l s t) (hd : Word128) : miswired l hd t = miswired l hd s := by
  have hport : portOf l t = portOf l s := by simp only [portOf, portWidth, laneGroup, groupCfg_congr h.groups]
  unfold Machine.miswired
  rw [hport, h.upLanes]
  refine congrArg (List.any _) (funext fun k => ?_)
  by_cases hk : k = l
  · simp [hk]
  · rw [h.other k hk]

theorem laneNoted_updLane {l : Nat} {f : Lane → Lane} {s : State} (h : (f (laneOf l s)).state = (laneOf l s).state) :
    LaneNoted l s (updLane l f s) :=
  ⟨rfl, rfl, by rw [laneOf_updLane, h], fun d hd => laneOf_updLane_ne _ _ _ _ hd⟩

theorem LaneNoted.record {l : Nat} {s t : State} (h : LaneNoted l s t) (code : Nat) (items : List (Nat × Nat)) :
    LaneNoted l s (record code items t) := by
  refine ⟨?_, ?_, ?_, fun d hd => ?_⟩
  · rw [(by simp : (Machine.record code items t).lanes = t.lanes), h.groups]
  · rw [nowNs_of_rest (s := t) (by simp), h.now]
  · rw [laneOf_record, h.state]
  · rw [laneOf_record, h.other d hd]

theorem laneNoted_noteReversed (l : Nat) (inv : Bool) (s : State) : LaneNoted l s (noteReversed l inv s) := by
  unfold noteReversed
  extract_lets t
  have ht : LaneNoted l s t := laneNoted_updLane rfl
  split
  · exact ht.record _ _
  · exact ht

theorem laneOf_noteReversed (l : Nat) (inv : Bool) (s : State) : laneOf l (noteReversed l inv s) = { laneOf l s with inverted := inv } := by
  unfold noteReversed
  extract_lets t
  have ht : laneOf l t = { laneOf l s with inverted := inv } := laneOf_updLane _ _ _
  split
  · rw [laneOf_record, ht]
  · exact ht

theorem LaneNoted.trans {l : Nat} {s t u : State} (h : LaneNoted l s t) (g : LaneNoted l t u) : LaneNoted l s u :=
  ⟨g.groups.trans h.groups, g.now.trans h.now, g.state.trans h.state, fun d hd => (g.other d hd).trans (h.other d hd)⟩

theorem laneNoted_notePeer (l : Nat) (h : Word128) (s : State) : LaneNoted l s (notePeer l h s) := laneNoted_updLane rfl

/-- A lane that is held MISWIRED is cleared (R344). -/
theorem laneOf_holdMiswired (l : Nat) (h : Word128) (s : State) :
    laneOf l (holdMiswired l h s) = laneCleared (nowNs s) { laneOf l s with state := 7 } := by
  have hdown : laneUp l (setLaneState l 7 s) = false := by rw [laneUp, laneState_setLaneState]; rfl
  rw [holdMiswired, laneOf_record, laneOf_clearLane hdown, laneState_setLaneState, (serviceOnly_setLaneState l 7 s).now]

/-- The premise that every step of bring-up has (R343). -/
def trains (l : Nat) (h : Word128) (s : State) : Prop :=
  isTremund l s = true ∧ (laneGroup l s).pllLock = true ∧ mayTrain l s = true ∧ (laneOf l s).los = false ∧ (laneOf l s).waitUntil = none ∧
    headerOk h = true ∧ ((laneOf l s).state = 1 ∨ (laneOf l s).state = 2)

section
variable {l : Nat} {h : Word128} {s : State} (ht : trains l h s) (inv : Bool)
include ht

/-- A lane that trains runs the step that it is in (R343). -/
theorem bringupDo_trains : bringupDo l h inv s =
    if (laneOf l s).step = 1 then nextStep l (updLane l (fun v => { v with lol := false }) s)
    else if (laneOf l s).step = 2 then
      let t := notePeer l h (noteReversed l inv s)
      if miswired l h s then holdMiswired l h t
      else sendFill l 0 (nextStep l (setLaneState l 2 (updLane l (fun v => { v with rx := {}, tx := { v.tx with next := 0, buffer := [] } }) t)))
    else if (laneOf l s).step = 3 then (if fld h 111 108 = 1 then nextStep l s else s)
    else if miswired l h s then holdMiswired l h (notePeer l h s) else goUp l (notePeer l h s) := by
  obtain ⟨htm, hpll, hmay, hlos, hwait, hok, hstate⟩ := ht
  have hst : ((laneOf l s).state == 1 || (laneOf l s).state == 2) = true := by
    cases hstate with
    | inl h => rw [h]; rfl
    | inr h => rw [h]; rfl
  have hgate : (isTremund l s && (laneGroup l s).pllLock && mayTrain l s && !(laneOf l s).los && (laneOf l s).waitUntil.isNone
      && headerOk h && ((laneOf l s).state == 1 || (laneOf l s).state == 2)) = true := by
    rw [htm, hpll, hmay, hlos, hwait, hok, hst]
    rfl
  have h2 := ((laneNoted_noteReversed l inv s).trans (laneNoted_notePeer l h _)).miswired h
  have h4 := (laneNoted_notePeer l h s).miswired h
  unfold bringupDo
  extract_lets v t w u
  rw [if_neg (by rw [hgate]; decide), show miswired l h t = miswired l h s from h2, show miswired l h u = miswired l h s from h4]

theorem bringupDo_step1 (h1 : (laneOf l s).step = 1) :
    bringupDo l h inv s = setLane l { laneOf l s with lol := false, step := 2, stepAt := nowNs s } s := by
  rw [bringupDo_trains ht, if_pos h1]
  unfold nextStep updLane
  rw [setLane_setLane, laneOf_setLane]
  simp only [h1]
  rfl

/-- Step 2: the lane is LOCKED, knows its far end, and has one block in flight (R343, R344). -/
theorem bringupDo_step2 (h2 : (laneOf l s).step = 2) (hm : miswired l h s = false) :
    (laneOf l (bringupDo l h inv s)).state = 2 ∧ (laneOf l (bringupDo l h inv s)).step = 3 ∧
    (laneOf l (bringupDo l h inv s)).inverted = inv ∧ (laneOf l (bringupDo l h inv s)).peerSerial = fld h 47 0 ∧
    (laneOf l (bringupDo l h inv s)).peerLane = fld h 54 48 ∧ (laneOf l (bringupDo l h inv s)).tx.buffer.length = 1 := by
  rw [bringupDo_trains ht, if_neg (by omega), if_pos h2]
  extract_lets t
  rw [if_neg (by rw [hm]; exact Bool.false_ne_true)]
  generalize hu : nextStep l _ = u
  have ht : laneOf l t = peerNoted h inv (laneOf l s) := by
    simp only [t, notePeer, laneOf_updLane, laneOf_noteReversed]
    rfl
  have hlane : ((laneOf l u).state = 2 ∧ (laneOf l u).step = 3) ∧ ((laneOf l u).inverted = inv ∧ (laneOf l u).peerSerial = fld h 47 0 ∧
      (laneOf l u).peerLane = fld h 54 48) ∧ (laneOf l u).tx.buffer = [] := by
    rw [← hu, nextStep, laneOf_updLane, laneState_setLaneState, laneOf_updLane, ht]
    exact ⟨⟨rfl, congrArg (· + 1) h2⟩, ⟨rfl, rfl, rfl⟩, rfl⟩
  obtain ⟨⟨ustate, ustep⟩, ⟨uinv, userial, upeer⟩, ubuffer⟩ := hlane
  obtain ⟨⟨hstate, hstep, _, _⟩, ⟨hinv, hserial, hpeer⟩, _⟩ := core_fields (blocksOnly_sendFill l 0 u).core
  exact ⟨hstate.trans ustate, hstep.trans ustep, hinv.trans uinv, hserial.trans userial, hpeer.trans upeer, buffer_sendFill ubuffer⟩

theorem bringupDo_step3 (h3 : (laneOf l s).step = 3) : bringupDo l h inv s = if fld h 111 108 = 1 then
    setLane l { laneOf l s with step := 4, stepAt := nowNs s } s else s := by
  rw [bringupDo_trains ht, if_neg (by omega), if_neg (by omega), if_pos h3, nextStep, updLane, h3]

/-- Step 4: the lane is UP (R343, R349). -/
theorem bringupDo_step4 (h4 : 4 ≤ (laneOf l s).step) (hm : miswired l h s = false) :
    (laneOf l (bringupDo l h inv s)).state = 3 ∧ (laneOf l (bringupDo l h inv s)).attempts = 0 ∧
    (laneOf l (bringupDo l h inv s)).upAt = nowNs s ∧ (laneOf l (bringupDo l h inv s)).peerSerial = fld h 47 0 := by
  rw [bringupDo_trains ht, if_neg (by omega), if_neg (by omega), if_neg (by omega), if_neg (by rw [hm]; exact Bool.false_ne_true)]
  unfold goUp
  extract_lets t u
  have ht : (laneOf l t).state = 3 ∧ (laneOf l t).attempts = 0 ∧ (laneOf l t).upAt = nowNs s ∧ (laneOf l t).peerSerial = fld h 47 0 := by
    simp only [t, laneOf_updLane, laneState_setLaneState]
    refine ⟨trivial, trivial, ?_, ?_⟩
    · exact nowNs_of_rest rfl
    · rw [notePeer, laneOf_updLane]
  have hu : laneOf l u = laneOf l t := by
    simp only [u]
    split
    · exact laneOf_congr (congrArg Lanes.lanes (lanes_tremundChanged _ _)) l
    · rfl
  obtain ⟨⟨hstate, _, hattempts, hup⟩, ⟨_, hserial, _⟩, _⟩ := core_fields (blocksOnly_pump l u).core
  rw [hstate, hattempts, hup, hserial, hu]
  exact ht

theorem bringupDo_miswired (hstep : (laneOf l s).step = 2 ∨ 4 ≤ (laneOf l s).step) (hm : miswired l h s = true) :
    (laneOf l (bringupDo l h inv s)).state = 7 ∧ (laneOf l (bringupDo l h inv s)).tx.buffer = [] := by
  rw [bringupDo_trains ht, if_neg (by omega)]
  cases hstep with
  | inl h2 =>
    rw [if_pos h2]
    extract_lets t
    rw [if_pos hm, laneOf_holdMiswired]
    exact ⟨rfl, rfl⟩
  | inr h4 =>
    rw [if_neg (by omega), if_neg (by omega), if_pos hm, laneOf_holdMiswired]
    exact ⟨rfl, rfl⟩

end

/-- A step that misses its bound returns the lane to step 1, after three failures with a wait (R343). -/
theorem stepTimeoutDo_late {l : Nat} {s : State} (htm : isTremund l s = true) (hpll : (laneGroup l s).pllLock = true)
    (hstate : (laneOf l s).state = 1 ∨ (laneOf l s).state = 2) (hlos : (laneOf l s).los = false) (hwait : (laneOf l s).waitUntil = none)
    (hlate : (laneOf l s).stepAt + stepBound (laneOf l s).step ≤ nowNs s) :
    (laneOf l (stepTimeoutDo l s)).state = 1 ∧ (laneOf l (stepTimeoutDo l s)).step = 1 ∧
    (laneOf l (stepTimeoutDo l s)).attempts = (laneOf l s).attempts + 1 ∧
    (laneOf l (stepTimeoutDo l s)).waitUntil = (if 3 ≤ (laneOf l s).attempts + 1 then some (nowNs s + 100000000) else none) := by
  have hst : ((laneOf l s).state == 1 || (laneOf l s).state == 2) = true := by
    cases hstate with
    | inl h => rw [h]; rfl
    | inr h => rw [h]; rfl
  unfold stepTimeoutDo
  extract_lets v n t u
  rw [if_pos (by rw [htm, hpll, hst, hlos, hwait, decide_eq_true hlate]; rfl)]
  have hnow : nowNs u = nowNs s := by
    rw [((serviceOnly_setLaneState l 1 t).trans (serviceOnly_clearLane l _)).now]
    exact nowNs_of_rest (by simp [t])
  have hdown : laneUp l (setLaneState l 1 t) = false := by rw [laneUp, laneState_setLaneState]; rfl
  have hu : (laneOf l u).state = 1 ∧ (laneOf l u).step = 1 := by
    simp only [u]
    rw [laneOf_clearLane hdown, laneState_setLaneState]
    exact ⟨rfl, rfl⟩
  rw [laneOf_updLane, hnow]
  exact ⟨hu.1, hu.2, rfl, rfl⟩

/-! ## Blocks -/

section
variable {l : Nat} {h : Word128} {ws : List Word128} {crc : BitVec 32} {s : State} (htm : isTremund l s = true) (hh : s.body.hold = false)
  (hstate : (laneOf l s).state = 2 ∨ (laneOf l s).state = 3)
include htm hh hstate

/-- A block at a lane that is LOCKED or UP, by its SYNC and its check (R335, R341, R346). -/
theorem tmBlockDo_live : tmBlockDo l h ws crc s =
    let t := if fld h 127 112 == 0x7E5A then updLane l (fun v => { v with rx := { v.rx with badSync := 0 } }) s else badSyncBlock l s
    if !((laneOf l t).state == 2 || (laneOf l t).state == 3) then t
    else if headerOk h && crc == tmCrc h ws && ws.length == 64 then
      (if fld h 111 108 = 1 then dataBlock l h ws (headerActs l h t) else headerActs l h t)
    else if fld h 111 108 = 2 ∨ fld h 111 108 = 3 ∨ ((laneOf l s).rx.discarding ∧ fld h 107 96 ≠ (laneOf l s).rx.next) then t
    else blockFailed l t := by
  have hst : ((laneOf l s).state == 2 || (laneOf l s).state == 3) = true := by
    cases hstate with
    | inl h => rw [h]; rfl
    | inr h => rw [h]; rfl
  unfold tmBlockDo
  extract_lets v sync good kind t u
  rw [if_neg (by rw [htm, hh, hst]; decide)]

/-- A block with a valid SYNC: one that checks acts, one that fails and was expected asks for a replay (R341, R342). -/
theorem tmBlockDo_sync (hsync : fld h 127 112 = 0x7E5A) : tmBlockDo l h ws crc s =
    let u := updLane l (fun v => { v with rx := { v.rx with badSync := 0 } }) s
    if headerOk h && crc == tmCrc h ws && ws.length == 64 then
      (if fld h 111 108 = 1 then dataBlock l h ws (headerActs l h u) else headerActs l h u)
    else if fld h 111 108 = 2 ∨ fld h 111 108 = 3 ∨ ((laneOf l s).rx.discarding ∧ fld h 107 96 ≠ (laneOf l s).rx.next) then u
    else blockFailed l u := by
  rw [tmBlockDo_live htm hh hstate]
  extract_lets t u
  have hu : t = u := if_pos (beq_iff_eq.mpr hsync)
  have hst : (laneOf l u).state = (laneOf l s).state := by simp only [u, laneOf_updLane]
  rw [hu, if_neg]
  rw [hst]
  cases hstate with
  | inl h => rw [h]; decide
  | inr h => rw [h]; decide

/-- The fourth block in a row with an invalid SYNC loses the lane's lock (R346). -/
theorem tmBlockDo_lockLost (hsync : fld h 127 112 ≠ 0x7E5A) (hbad : 3 ≤ (laneOf l s).rx.badSync) (hmay : mayTrain l s = true) :
    (laneOf l (tmBlockDo l h ws crc s)).state = 1 ∧ (laneOf l (tmBlockDo l h ws crc s)).lol = true := by
  let b := updLane l (fun v => { v with rx := { v.rx with badSync := v.rx.badSync + 1 } }) s
  let c := updLane l (fun v => { v with lol := true }) b
  have hc : laneOf l c = { laneOf l s with rx := { (laneOf l s).rx with badSync := (laneOf l s).rx.badSync + 1 }, lol := true } := by
    simp only [c, b, laneOf_updLane]
  have hmayc : mayTrain l c = true := by
    simp only [mayTrain, hc]
    exact hmay
  have hlost : badSyncBlock l s = tremundLeave l 1 c := by
    have hcount : 4 ≤ (laneOf l b).rx.badSync := by
      simp only [b, laneOf_updLane]
      omega
    unfold badSyncBlock loseLock loseLane
    extract_lets t
    rw [if_pos (by exact hcount), if_neg (by rw [show mayTrain l _ = true from hmayc]; decide)]
    exact if_pos htm
  have hlane := laneOf_tremundLeave (l := l) (st := 1) c (by decide)
  rw [tmBlockDo_live htm hh hstate]
  extract_lets t
  have ht : t = tremundLeave l 1 c := by rw [← hlost]; exact if_neg (by simpa using hsync)
  rw [ht, if_pos (by rw [hlane]; rfl), hlane, hc]
  exact ⟨rfl, rfl⟩

end

/-- A failing block that was expected asks for a replay (R341). -/
theorem blockFailed_asks {l : Nat} {s : State} (hf : (laneOf l s).rx.fails + 1 < 8) (hp : (laneOf l s).tx.power = 0) :
    blockFailed l s = count (laneCtr l 1) 1 (updLane l (fun v => { v with
      rx := { v.rx with discarding := true, nakDue := true, fails := v.rx.fails + 1 } }) s) := by
  unfold blockFailed
  extract_lets t v
  have ht : laneOf l t = laneOf l (updLane l (fun v => { v with
      rx := { v.rx with discarding := true, nakDue := true, fails := v.rx.fails + 1 } }) s) := laneOf_congr rfl l
  have hv : v.rx.fails = (laneOf l s).rx.fails + 1 ∧ v.tx.power = (laneOf l s).tx.power := by
    simp only [v]
    rw [ht, laneOf_updLane]
    exact ⟨rfl, rfl⟩
  rw [if_neg (by rw [hv.1]; exact Nat.not_le.mpr hf), if_neg (by rw [hv.2, hp]; decide)]

theorem dataBlock_before {l : Nat} {h : Word128} (ws : List Word128) {s : State} (hne : fld h 107 96 ≠ (laneOf l s).rx.next)
    (hb : seqFrom (fld h 107 96) (laneOf l s).rx.next = false) : dataBlock l h ws s = count (laneCtr l 2) 1 s := by
  unfold dataBlock
  extract_lets v seq
  rw [if_neg (by exact hne)]
  exact if_pos (by rw [show seqFrom seq v.rx.next = false from hb]; rfl)

theorem nakRepeatDo_late {l : Nat} {s : State} (htm : isTremund l s = true) (hstate : (laneOf l s).state = 2 ∨ (laneOf l s).state = 3)
    (hd : (laneOf l s).rx.discarding = true) (hlate : (laneOf l s).rx.nakAt + 1000 ≤ nowNs s) :
    nakRepeatDo l s =
      let u := updLane l (fun v => { v with rx := { v.rx with nakDue := true } }) s
      if (laneOf l s).tx.power = 0 then sendFill l 0 u else if (laneOf l s).tx.power = 1 then sendIdleBlock l 2 1 u else u := by
  have hst : ((laneOf l s).state == 2 || (laneOf l s).state == 3) = true := by
    cases hstate with
    | inl h => rw [h]; rfl
    | inr h => rw [h]; rfl
  have hgate : (isTremund l s && ((laneOf l s).state == 2 || (laneOf l s).state == 3) && (laneOf l s).rx.discarding
      && decide ((laneOf l s).rx.nakAt + 1000 ≤ nowNs s)) = true := by
    rw [htm, hst, hd, decide_eq_true hlate]
    rfl
  exact if_pos hgate

/-! ## Power states (R345) -/

section
variable {l : Nat} {s : State} (htm : isTremund l s = true) (hup : (laneOf l s).state = 3)
include htm hup

theorem dozeDo_due (hp : (laneOf l s).tx.power = 0) (hs : (laneGroup l s).sleep = true) (hq : (laneOf l s).tx.queue = [])
    (hlate : (laneOf l s).tx.lastFrame + (laneGroup l s).dozeUs * 1000 ≤ nowNs s) :
    (laneOf l (dozeDo l s)).tx.power = 1 ∧ (laneOf l (dozeDo l s)).tx.dozeAt = nowNs s ∧ (laneOf l (dozeDo l s)).state = 3 := by
  obtain ⟨⟨hstate, _⟩, _⟩ := core_fields (blocksOnly_sendFill l 1 s).core
  have hnow := (blocksOnly_sendFill l 1 s).service.now
  unfold dozeDo
  extract_lets v g t
  rw [if_pos (by rw [htm, hs, decide_eq_true hlate]; simp [v, hup, hp, hq])]
  rw [laneOf_updLane]
  exact ⟨rfl, hnow, hstate.trans hup⟩

theorem idleDo_due (hp : (laneOf l s).tx.power = 1) (hs : (laneGroup l s).sleep = true) (hi : (laneGroup l s).idleMs ≠ 0)
    (hlate : (laneOf l s).tx.dozeAt + (laneGroup l s).idleMs * 1000000 ≤ nowNs s) :
    (laneOf l (idleDo l s)).tx.power = 2 ∧ (laneOf l (idleDo l s)).tx.buffer = (laneOf l s).tx.buffer := by
  obtain ⟨a, b, c, n, h⟩ := laneOf_sendIdleBlock l 2 2 s
  have hgate : (isTremund l s && (laneOf l s).state == 3 && (laneOf l s).tx.power == 1 && (laneGroup l s).sleep
      && (laneGroup l s).idleMs != 0 && decide ((laneOf l s).tx.dozeAt + (laneGroup l s).idleMs * 1000000 ≤ nowNs s)) = true := by
    rw [htm, hs, decide_eq_true hlate, hup, hp, bne_iff_ne.mpr hi]
    rfl
  have hidle : idleDo l s = updLane l (fun v => { v with tx := { v.tx with power := 2 } }) (sendIdleBlock l 2 2 s) := if_pos hgate
  rw [hidle, laneOf_updLane, h]
  exact ⟨rfl, rfl⟩

theorem refreshDo_due (hp : (laneOf l s).tx.power = 1) (hlate : (laneOf l s).tx.refreshAt + 1000 ≤ nowNs s) :
    (laneOf l (refreshDo l s)).tx.refreshAt = nowNs s ∧ (laneOf l (refreshDo l s)).tx.power = 1 ∧
    (laneOf l (refreshDo l s)).tx.buffer = (laneOf l s).tx.buffer := by
  obtain ⟨a, b, c, n, h⟩ := laneOf_sendIdleBlock l 2 1 s
  unfold refreshDo
  extract_lets v
  rw [if_pos (by rw [htm, decide_eq_true hlate]; simp [v, hup, hp]), h]
  exact ⟨rfl, hp, rfl⟩

/-- A direction that wakes is ACTIVE again, and sends what waits (R345). -/
theorem wakeDo_due (hp : (laneOf l s).tx.power ≠ 0) (hw : (laneOf l s).tx.wakeDue = true ∨ (laneOf l s).tx.queue ≠ []) :
    (laneOf l (wakeDo l s)).tx.power = 0 ∧ (laneOf l (wakeDo l s)).tx.wakeDue = false ∧ (laneOf l (wakeDo l s)).state = 3 := by
  have hdue : ((laneOf l s).tx.wakeDue || !(laneOf l s).tx.queue.isEmpty) = true := by
    cases hw with
    | inl h => rw [h, Bool.true_or]
    | inr h => rw [List.isEmpty_eq_false_iff.mpr h, Bool.not_false, Bool.or_true]
  unfold wakeDo
  extract_lets v
  rw [if_pos (by rw [htm, show (v.tx.wakeDue || !v.tx.queue.isEmpty) = true from hdue]; simp [v, hup, hp])]
  unfold wakeLane
  extract_lets t u
  have ht : (laneOf l t).state = 3 := by
    simp only [t]
    split
    · obtain ⟨⟨hstate, _⟩, _⟩ := core_fields (blocksOnly_sendIdleBlock l 3 0 (count (laneCtr l 6) 1 s)).core
      exact hstate.trans hup
    · exact hup
  have hu : (laneOf l u).tx.power = 0 ∧ (laneOf l u).tx.wakeDue = false ∧ (laneOf l u).state = 3 := by
    simp only [u, laneOf_updLane]
    exact ⟨trivial, trivial, ht⟩
  split
  · obtain ⟨⟨hstate, _⟩, _, hpower, hwake, _⟩ := core_fields (blocksOnly_sendFill l 0 u).core
    rw [hstate, hpower, hwake]
    exact hu
  · obtain ⟨⟨hstate, _⟩, _, hpower, hwake, _⟩ := core_fields (blocksOnly_pump l u).core
    rw [hstate, hpower, hwake]
    exact hu

end

/-! ## The statement -/

/-- Settles O51, event by event: what blocks leave of a lane, and that a lane which is not UP gets no frame, are the facts behind it. -/
theorem tremundLanes : Obligations.TremundLanes := by
  unfold Obligations.TremundLanes
  refine ⟨?_, ?_, ?_, ?_, ?_, ?_, ?_, ?_, ?_, ?_, ?_, ?_, ?_⟩
  · intro l h inv s hl htm hpll hmay hlos hwait hok hstate
    have ht : trains l h s := ⟨htm, hpll, hmay, hlos, hwait, hok, hstate⟩
    have hexec := exec_tmBringupStep hl s h inv
    refine ⟨fun h1 => ?_, fun h2 hm => ⟨_, hexec, bringupDo_step2 ht inv h2 hm⟩, fun h3 => ?_,
      fun h4 hm => ⟨_, hexec, bringupDo_step4 ht inv h4 hm⟩, fun hstep hm => ⟨_, hexec, bringupDo_miswired ht inv hstep hm⟩⟩
    · rw [hexec, bringupDo_step1 ht inv h1]
    · rw [hexec, bringupDo_step3 ht inv h3]
  · intro l s hl htm hpll hstate hlos hwait hlate
    exact ⟨_, exec_tmStepTimeout hl s, stepTimeoutDo_late htm hpll hstate hlos hwait hlate⟩
  · intro l at_ s hl hw
    rw [exec_tmRetryWaitEnd hl, retryWaitDo, hw]
    rfl
  · intro l h ws crc s hl hw htm hh hstate hsync u
    have hexec := exec_tmBlockRx hl s h crc hw
    rw [tmBlockDo_sync htm hh hstate hsync] at hexec
    refine ⟨fun hok hcrc hkind => ?_, fun hok hcrc hkind => ?_, fun hcrc hkind hexpected => ?_, fun hcrc hkind => ?_⟩
    · rw [hexec]
      simp only [hok, hcrc, hw, hkind, beq_self_eq_true, Bool.and_self, if_true]
      rfl
    · rw [hexec]
      simp only [hok, hcrc, hw, hkind, beq_self_eq_true, Bool.and_self, if_true, if_false]
      rfl
    · have hnot : ¬((laneOf l s).rx.discarding = true ∧ fld h 107 96 ≠ (laneOf l s).rx.next) := by
        rintro ⟨hd, hne⟩
        cases hexpected with
        | inl h => rw [h] at hd; cases hd
        | inr h => exact hne h
      rw [hexec]
      simp only [beq_eq_false_iff_ne.mpr hcrc, Bool.and_false, Bool.false_and, Bool.false_eq_true, if_false, hkind, hnot]
      rfl
    · rw [hexec]
      simp only [beq_eq_false_iff_ne.mpr hcrc, Bool.and_false, Bool.false_and, Bool.false_eq_true, if_false]
      rw [if_pos (by omega)]
      rfl
  · intro l h ws crc s hl hw htm hh hstate hsync hbad hmay
    exact ⟨_, exec_tmBlockRx hl s h crc hw, tmBlockDo_lockLost htm hh hstate hsync hbad hmay⟩
  · intro l s hf hp
    rw [blockFailed_asks hf hp]
    refine ⟨?_, ?_, ?_, ctrGet_count _ _ _⟩ <;> rw [laneOf_count, laneOf_updLane]
  · exact fun l h ws s hne hb => dataBlock_before ws hne hb
  · intro l s hl htm hstate hd hlate u
    rw [exec_tmNakRepeat hl, nakRepeatDo_late htm hstate hd hlate]
    rfl
  · intro l s hl htm hup hp hs hq hlate
    exact ⟨_, exec_tmDoze hl s, dozeDo_due htm hup hp hs hq hlate⟩
  · intro l s hl htm hup hp hs hi hlate
    exact ⟨_, exec_tmIdle hl s, idleDo_due htm hup hp hs hi hlate⟩
  · intro l s hl htm hup hp hw
    exact ⟨_, exec_tmWake hl s, wakeDo_due htm hup hp hw⟩
  · intro l s hl htm hup hp hlate
    exact ⟨_, exec_tmRefresh hl s, refreshDo_due htm hup hp hlate⟩
  · intro p stream l s hp hx htm hlane
    rw [exec_tmStreamHoldEnd hp s hx, streamHoldDo, if_pos htm, hlane]

end Sys2Proof
end

section
/-! PROOFS. Lane groups, and lanes that leave service and come back (R325-R330, R343-R352). -/

namespace Sys2Proof

open Machine

/-! ## The rows of the table -/

section
variable {l : Nat} (hl : l < 128) (s : State)
include hl

theorem exec_laneLos : exec (.laneLos l) s = .next (losDo l s) := onWf_of_wf (i := .laneLos l) (by simp [Instr.wf, hl])

theorem exec_losCleared : exec (.losCleared l) s = .next (losClearedDo l s) := onWf_of_wf (i := .losCleared l) (by simp [Instr.wf, hl])

theorem exec_laneLol (pll : Bool) : exec (.laneLol l pll) s = .next (lolDo l pll s) :=
  onWf_of_wf (i := .laneLol l pll) (by simp [Instr.wf, hl])

theorem exec_faultShort : exec (.faultShort l) s = .next (faultShortDo l s) := onWf_of_wf (i := .faultShort l) (by simp [Instr.wf, hl])

theorem exec_faultShortRetry (short : Bool) : exec (.faultShortRetry l short) s = .next (shortRetryDo l short s) :=
  onWf_of_wf (i := .faultShortRetry l short) (by simp [Instr.wf, hl])

theorem exec_portState {inv : Nat} (hi : inv < 256) : exec (.portState l inv) s = .next (portStateDo l inv s) :=
  onWf_of_wf (i := .portState l inv) (by simp [Instr.wf, hl, hi])

variable {who : Nat} {s}

theorem exec_laneRetrain (h : mayWrite who (laneOff l 0x10) s) : exec (.laneRetrain who l) s = .next (laneRetrainDo l s) := by
  refine (onWf_of_wf (i := .laneRetrain who l) (by simp [Instr.wf, hl, h.1])).trans ?_
  rw [gated_granted h]

theorem exec_laneHoldDown (h : mayWrite who (laneOff l 0x10) s) (on : Bool) :
    exec (.laneHoldDown who l on) s = .next (laneHoldDo l on s) := by
  refine (onWf_of_wf (i := .laneHoldDown who l on) (by simp [Instr.wf, hl, h.1])).trans ?_
  rw [gated_granted h]

theorem exec_laneTest (h : mayWrite who (laneOff l 0x18) s) (w : BitVec 64) :
    exec (.laneTest who l w) s = .next (laneTestDo l w s) := by
  refine (onWf_of_wf (i := .laneTest who l w) (by simp [Instr.wf, hl, h.1])).trans ?_
  rw [gated_granted h]

end

theorem exec_pllLock {g : Nat} (hg : g < 16) (s : State) : exec (.pllLock g) s = .next (pllLockDo g s) :=
  onWf_of_wf (i := .pllLock g) (by simp [Instr.wf, hg])

theorem exec_laneGroupCfg {who g : Nat} {s : State} (hg : g < 16) (h : mayWrite who (laneGroupOff g 0) s) (w : BitVec 64) :
    exec (.laneGroupCfg who g w) s = .next (laneGroupDo g w s) := by
  refine (onWf_of_wf (i := .laneGroupCfg who g w) (by simp [Instr.wf, hg, h.1])).trans ?_
  rw [gated_granted h]

/-! ## Groups -/

section
variable {g : Nat} {w : Word64} {s : State}

theorem laneGroupDo_reserved (h : fld w 1 0 = 3) : laneGroupDo g w s = s := if_pos (.inl h)

variable (hp : fld w 1 0 ≠ 3) (hc : laneGroupWord (groupCfg g s) ≠ pack64 [(8, 1, fld w 8 8), (4, 2, fld w 5 4), (0, 2, fld w 1 0)])
include hp hc

theorem laneGroupDo_named (hn : groupNamed g s = true) :
    laneGroupDo g w s = pfVector 4 { s with lanes := { s.lanes with cfgErr := s.lanes.cfgErr.set (g / 4) 1 } } :=
  (if_neg (not_or.mpr ⟨hp, hc⟩)).trans (if_pos hn)

theorem laneGroupDo_free (hn : groupNamed g s = false) : laneGroupDo g w s = saveSettings (applyGroup g w s) :=
  (if_neg (not_or.mpr ⟨hp, hc⟩)).trans (if_neg (by rw [hn]; exact Bool.false_ne_true))

end

theorem groupCfg_saveSettings (g : Nat) (s : State) : groupCfg g (saveSettings s) = groupCfg g s := by
  obtain ⟨u, h⟩ := saveSettings_only s
  rw [h]
  rfl

/-- The configuration of a group that takes effect (R326): the other groups keep theirs. -/
theorem groupCfg_applyGroup (g : Nat) (w : Word64) (s : State) : groupCfg g (applyGroup g w s) = { groupCfg g s with
      personality := fld w 1 0, width := fld w 5 4, medium := fld w 8 8, pllLock := false } ∧
    ∀ d, d ≠ g → groupCfg d (applyGroup g w s) = groupCfg d s := by
  have happly := (applyGroup_keeps g w s).1
  have hleave : ServiceOnly s ((groupLanes g).foldl (fun s l => leaveService l 4 s) s) :=
    ServiceOnly.foldl (fun x l => serviceOnly_leaveService l 4 x) _ s
  refine ⟨?_, fun d hd => ?_⟩
  · rw [groupCfg_congr happly, reconfigured, groupCfg_setGroupCfg]
  · rw [groupCfg_congr happly, reconfigured, groupCfg_setGroupCfg_ne _ _ _ _ hd, groupCfg_congr hleave.groups]

/-! ## One lane at a time -/

/-- Work on lane `l` leaves the other lanes, the groups, the Body and the time as they are. -/
structure OneLane (l : Nat) (s t : State) : Prop where
  groups : t.lanes.groups = s.lanes.groups
  body : t.body = s.body
  other : ∀ d, d ≠ l → laneOf d t = laneOf d s

theorem OneLane.refl (l : Nat) (s : State) : OneLane l s s := ⟨rfl, rfl, fun _ _ => rfl⟩

theorem OneLane.trans {l : Nat} {s t u : State} (h : OneLane l s t) (g : OneLane l t u) : OneLane l s u :=
  ⟨g.groups.trans h.groups, g.body.trans h.body, fun d hd => (g.other d hd).trans (h.other d hd)⟩

theorem oneLane_updLane (l : Nat) (f : Lane → Lane) (s : State) : OneLane l s (updLane l f s) :=
  ⟨rfl, rfl, fun d hd => laneOf_updLane_ne l d f s hd⟩

theorem ServiceOnly.body {s t : State} (h : ServiceOnly s t) : t.body = s.body := by
  obtain ⟨⟨_, _, _, _, _, _, rfl⟩, _, _⟩ := h
  rfl

theorem oneLane_setLaneState (l st : Nat) (s : State) : OneLane l s (setLaneState l st s) :=
  ⟨(serviceOnly_setLaneState l st s).groups, (serviceOnly_setLaneState l st s).body, fun _ hd => laneOf_setLaneState_ne st s hd⟩

/-- What a pass over distinct lanes makes of a lane is what its own step makes of it, in a state where it is still as before. -/
theorem foldl_oneLane {f : State → Nat → State} (hf : ∀ t l, OneLane l t (f t l)) {ls : List Nat} (hn : ls.Nodup) (s : State) :
    (ls.foldl f s).lanes.groups = s.lanes.groups ∧ (ls.foldl f s).body = s.body ∧
    (∀ d, d ∉ ls → laneOf d (ls.foldl f s) = laneOf d s) ∧
    ∀ l ∈ ls, ∃ t, t.lanes.groups = s.lanes.groups ∧ t.body = s.body ∧ laneOf l t = laneOf l s ∧
      laneOf l (ls.foldl f s) = laneOf l (f t l) := by
  induction ls generalizing s with
  | nil => exact ⟨rfl, rfl, fun _ _ => rfl, fun l hl => by cases hl⟩
  | cons a r ih =>
    obtain ⟨ha, hr⟩ := List.nodup_cons.mp hn
    obtain ⟨hgroups, hbody, hother, hown⟩ := ih hr (f s a)
    have hstep := hf s a
    refine ⟨hgroups.trans hstep.groups, hbody.trans hstep.body, fun d hd => ?_, fun l hl => ?_⟩
    · rw [List.mem_cons, not_or] at hd
      exact (hother d hd.2).trans (hstep.other d hd.1)
    · cases List.mem_cons.mp hl with
      | inl h =>
        subst h
        exact ⟨s, rfl, rfl, rfl, hother l ha⟩
      | inr h =>
        obtain ⟨t, tgroups, tbody, tlane, tfold⟩ := hown l h
        have hla : l ≠ a := fun he => ha (he ▸ h)
        exact ⟨t, tgroups.trans hstep.groups, tbody.trans hstep.body, tlane.trans (hstep.other l hla), tfold⟩

theorem nodup_portLanes (p : Nat) (s : State) : (portLanes p s).Nodup :=
  List.nodup_range.map fun _ _ h => Nat.add_left_cancel h

/-- A lane is one of its own port's (R325). -/
theorem mem_portLanes {l : Nat} {s : State} (hw : (laneGroup l s).width ≤ 3) : l ∈ portLanes (portOf l s) s := by
  have hpos : 0 < portWidth l s := Nat.two_pow_pos _
  have hgroup : portOf l s / 8 = l / 8 := by
    obtain ⟨k, hk⟩ : ∃ k, 8 = portWidth l s * k := by
      refine ⟨2 ^ (3 - (laneGroup l s).width), ?_⟩
      rw [portWidth, ← Nat.pow_add, Nat.add_sub_cancel' hw]
    rw [portOf, hk, ← Nat.div_div_eq_div_mul, ← Nat.div_div_eq_div_mul, Nat.mul_div_cancel _ hpos]
  have hwidth : portWidth (portOf l s) s = portWidth l s := by simp only [portWidth, laneGroup, hgroup]
  have hmod : portOf l s + l % portWidth l s = l := by rw [portOf, Nat.mul_comm]; exact Nat.div_add_mod l _
  rw [portLanes, hwidth]
  exact List.mem_map.mpr ⟨l % portWidth l s, List.mem_range.mpr (Nat.mod_lt _ hpos), hmod⟩

/-! ## Loss of service -/

theorem oneLane_ethDown_step (s : State) (l : Nat) :
    OneLane l s (if laneUp l s || (laneOf l s).state == 1 then setLaneState l 4 s else s) := by
  split
  · exact oneLane_setLaneState l 4 s
  · exact .refl l s

/-- No lane of an Ethernet port that goes DOWN stays UP (R330, R346). -/
theorem state_ethDown {l p : Nat} {s : State} (h : l ∈ portLanes p s) : (laneOf l (ethDown p s)).state ≠ 3 := by
  unfold ethDown
  extract_lets was t
  have ht : (laneOf l t).state ≠ 3 := by
    obtain ⟨_, _, _, hown⟩ := foldl_oneLane oneLane_ethDown_step (nodup_portLanes p s) s
    obtain ⟨u, _, _, _, hfold⟩ := hown l h
    simp only [t, hfold]
    split
    · rw [laneState_setLaneState]
      exact (by decide : (4 : Nat) ≠ 3)
    · next hno => exact fun h3 => hno (by rw [laneUp, h3]; rfl)
  split
  · rw [laneOf_congr (congrArg Lanes.lanes (lanes_ethChanged _ _ _))]
    exact ht
  · exact ht

theorem state_loseLane {l : Nat} {s : State} (h : isTremund l s = true ∨ isEth l s = true) (hw : (laneGroup l s).width ≤ 3)
    (hm : mayTrain l s = true) : (laneOf l (loseLane l s)).state ≠ 3 := by
  unfold loseLane
  rw [if_neg (by rw [hm]; decide)]
  split
  · rw [laneOf_tremundLeave s (by decide)]
    exact (by decide : (1 : Nat) ≠ 3)
  · next ht =>
    rw [if_pos (h.resolve_left ht)]
    exact state_ethDown (mem_portLanes hw)

theorem mayTrain_congr {l : Nat} {s t : State} (hs : (laneOf l t).short = (laneOf l s).short)
    (hd : (laneOf l t).holdDown = (laneOf l s).holdDown) (hl : (laneOf l t).loop = (laneOf l s).loop) (hb : t.body = s.body) :
    mayTrain l t = mayTrain l s := by simp only [mayTrain, hs, hd, hl, hb]

/-- What leaving service keeps of a lane. -/
theorem ServiceOnly.lane {s t : State} (h : ServiceOnly s t) (l : Nat) : (laneOf l t).short = (laneOf l s).short ∧
    (laneOf l t).holdDown = (laneOf l s).holdDown ∧ (laneOf l t).loop = (laneOf l s).loop := by
  have hl := h.fixed l
  simp only [laneFixed, Lane.mk.injEq] at hl
  simp only [hl, and_self]

theorem ServiceOnly.mayTrain {s t : State} (h : ServiceOnly s t) (l : Nat) : mayTrain l t = mayTrain l s :=
  mayTrain_congr (h.lane l).1 (h.lane l).2.1 (h.lane l).2.2 h.body

theorem laneGroup_congr {s t : State} (h : t.lanes.groups = s.lanes.groups) (l : Nat) : laneGroup l t = laneGroup l s := groupCfg_congr h _

theorem personality_of_kind {l : Nat} {s : State} (h : isTremund l s = true ∨ isEth l s = true) : (laneGroup l s).personality ≠ 0 := by
  simp only [isTremund, isEth, beq_iff_eq] at h
  omega

theorem groups_loseLock (l : Nat) (s : State) : (loseLock l s).lanes.groups = s.lanes.groups := (serviceOnly_loseLane l _).groups

/-- The PLL of a group has lost lock (R346). -/
theorem lolDo_pll {l : Nat} {s : State} (h : (laneGroup l s).personality ≠ 0) :
    laneGroup l (lolDo l true s) = { laneGroup l s with pllLock := false } := by
  have hfold : (lolDo l true s).lanes.groups = (setGroupCfg (l / 8) { laneGroup l s with pllLock := false } s).lanes.groups := by
    simp only [lolDo, h, if_false, if_true]
    generalize List.range 8 = ls
    exact foldl_keeps (fun x => x.lanes.groups) (fun x k => groups_loseLock _ x) ls _
  rw [laneGroup_congr hfold]
  exact groupCfg_setGroupCfg _ _ _

/-! ## Bring-up begins -/

theorem oneLane_beginTraining (l : Nat) (s : State) : OneLane l s (beginTraining l s) := by
  unfold beginTraining
  split
  · exact (oneLane_setLaneState l 1 s).trans (oneLane_updLane l _ _)
  · exact .refl l s

/-- A lane that may train begins bring-up in step 1 (R343). -/
theorem laneOf_beginTraining {l : Nat} {s : State} (hm : mayTrain l s = true) (hp : (laneGroup l s).personality ≠ 0) :
    laneOf l (beginTraining l s) = { laneOf l s with state := 1, step := 1, stepAt := nowNs s, waitUntil := none } := by
  unfold beginTraining
  rw [if_pos (by rw [hm, Bool.true_and]; exact bne_iff_ne.mpr hp), laneOf_updLane, laneState_setLaneState]

theorem lol_beginTraining (l : Nat) (s : State) : (laneOf l (beginTraining l s)).lol = (laneOf l s).lol := by
  unfold beginTraining
  split
  · rw [laneOf_updLane, laneState_setLaneState]
  · rfl

/-- PLL_LOCK's work on one lane: LOL clears, and bring-up starts. -/
def relocked (s : State) (l : Nat) : State := beginTraining l (updLane l (fun v => { v with lol := false }) s)

theorem oneLane_relocked (s : State) (l : Nat) : OneLane l s (relocked s l) := (oneLane_updLane l _ s).trans (oneLane_beginTraining l _)

theorem lol_relocked (s : State) (l : Nat) : (laneOf l (relocked s l)).lol = false := by
  rw [relocked, lol_beginTraining, laneOf_updLane]

theorem laneOf_relocked {l : Nat} {s : State} (hm : mayTrain l s = true) (hp : (laneGroup l s).personality ≠ 0) :
    (laneOf l (relocked s l)).state = 1 ∧ (laneOf l (relocked s l)).step = 1 ∧ (laneOf l (relocked s l)).waitUntil = none := by
  have hmay : mayTrain l (updLane l (fun v => { v with lol := false }) s) = true := by
    rw [← hm]
    refine mayTrain_congr ?_ ?_ ?_ rfl <;> rw [laneOf_updLane]
  rw [relocked, laneOf_beginTraining hmay (by exact hp)]
  exact ⟨rfl, rfl, rfl⟩

theorem nodup_groupLanes (g : Nat) : (groupLanes g).Nodup := List.nodup_range.map fun _ _ h => Nat.add_left_cancel h

theorem mem_groupLanes {g l : Nat} : l ∈ groupLanes g ↔ ∃ k, k < 8 ∧ g * 8 + k = l := by
  simp only [groupLanes, List.mem_map, List.mem_range]

/-- PLL_LOCK is a pass over the lanes of the group (R343). -/
theorem pllLockDo_eq {g : Nat} {s : State} (hp : (groupCfg g s).personality ≠ 0) (hl : (groupCfg g s).pllLock = false) :
    pllLockDo g s = (groupLanes g).foldl relocked (setGroupCfg g { groupCfg g s with pllLock := true } s) := by
  have hgate : ¬((groupCfg g s).personality = 0 ∨ (groupCfg g s).pllLock = true) := by
    rw [hl]
    exact fun h => h.elim hp Bool.false_ne_true
  rw [groupLanes, List.foldl_map]
  exact if_neg hgate

theorem pllLockDo_locks {g : Nat} {s : State} (hp : (groupCfg g s).personality ≠ 0) (hl : (groupCfg g s).pllLock = false) :
    (groupCfg g (pllLockDo g s)).pllLock = true ∧
    (∀ k, k < 8 → (laneOf (g * 8 + k) (pllLockDo g s)).lol = false ∧ (mayTrain (g * 8 + k) s = true →
      (laneOf (g * 8 + k) (pllLockDo g s)).state = 1 ∧ (laneOf (g * 8 + k) (pllLockDo g s)).step = 1 ∧
      (laneOf (g * 8 + k) (pllLockDo g s)).waitUntil = none)) ∧
    ∀ d, d / 8 ≠ g → laneOf d (pllLockDo g s) = laneOf d s := by
  obtain ⟨hgroups, _, hother, hown⟩ := foldl_oneLane oneLane_relocked (nodup_groupLanes g)
    (setGroupCfg g { groupCfg g s with pllLock := true } s)
  rw [pllLockDo_eq hp hl]
  generalize hu : setGroupCfg g { groupCfg g s with pllLock := true } s = u at hgroups hother hown ⊢
  have hcfg : groupCfg g u = { groupCfg g s with pllLock := true } := by rw [← hu, groupCfg_setGroupCfg]
  have hlane : ∀ d, laneOf d u = laneOf d s := fun d => by rw [← hu]; exact laneOf_congr rfl d
  have hbody : u.body = s.body := by rw [← hu]; rfl
  refine ⟨by rw [groupCfg_congr hgroups, hcfg], fun k hk => ?_, fun d hd => ?_⟩
  · obtain ⟨t, tgroups, tbody, tlane, tfold⟩ := hown (g * 8 + k) (mem_groupLanes.mpr ⟨k, hk, rfl⟩)
    have hown8 : (g * 8 + k) / 8 = g := by omega
    have hpers : (laneGroup (g * 8 + k) t).personality ≠ 0 := by
      rw [laneGroup_congr tgroups, laneGroup, hown8, hcfg]
      exact hp
    have hmay : mayTrain (g * 8 + k) t = mayTrain (g * 8 + k) s := by
      have hsame := tlane.trans (hlane _)
      exact mayTrain_congr (by rw [hsame]) (by rw [hsame]) (by rw [hsame]) (tbody.trans hbody)
    rw [tfold]
    exact ⟨lol_relocked t _, fun h => laneOf_relocked (hmay.trans h) hpers⟩
  · refine (hother d fun hd8 => hd ?_).trans (hlane d)
    obtain ⟨k, hk, rfl⟩ := mem_groupLanes.mp hd8
    omega

/-! ## An Ethernet port goes UP -/

/-- One lane of the port is UP, with its lock. -/
def ethLaneUp (s : State) (l : Nat) : State := setLaneState l 3 (updLane l (fun v => { v with lol := false }) s)

theorem oneLane_ethLaneUp (s : State) (l : Nat) : OneLane l s (ethLaneUp s l) := (oneLane_updLane l _ s).trans (oneLane_setLaneState l 3 _)

theorem laneOf_ethLaneUp (s : State) (l : Nat) : laneOf l (ethLaneUp s l) = { laneOf l s with lol := false, state := 3 } := by
  rw [ethLaneUp, laneState_setLaneState, laneOf_updLane]

theorem oneLane_noteReversed (l : Nat) (inv : Bool) (s : State) : OneLane l s (noteReversed l inv s) := by
  have hnoted := laneNoted_noteReversed l inv s
  refine ⟨hnoted.groups, ?_, hnoted.other⟩
  unfold noteReversed
  extract_lets t
  split
  · exact (serviceOnly_record _ _ t).body
  · rfl

/-- A ready port goes UP: every lane of it, each with its reversal (R330, R347). -/
theorem portStateDo_up {p inv : Nat} {s : State} (hp : isPort p s = true) (he : isEth p s = true) (hl : (laneGroup p s).pllLock = true)
    (hr : ∀ l ∈ portLanes p s, mayTrain l s = true ∧ (laneOf l s).los = false ∧ laneUp l s = false) :
    (∀ l ∈ portLanes p s, laneOf l (portStateDo p inv s) = { laneOf l s with lol := false, state := 3, inverted := inv.testBit (l - p) }) ∧
    ∀ d, d ∉ portLanes p s → laneOf d (portStateDo p inv s) = laneOf d s := by
  have hready : (portLanes p s).all (fun l => mayTrain l s && !(laneOf l s).los && !laneUp l s) = true := by
    refine List.all_eq_true.mpr fun l hl => ?_
    obtain ⟨hm, hlos, hup⟩ := hr l hl
    rw [hm, hlos, hup]
    rfl
  obtain ⟨ugroups, _, uother, uown⟩ := foldl_oneLane oneLane_ethLaneUp (nodup_portLanes p s) s
  generalize hu : (portLanes p s).foldl ethLaneUp s = u at ugroups uother uown
  have hports : portLanes p u = portLanes p s := by simp only [portLanes, portWidth, laneGroup, groupCfg_congr ugroups]
  have hdo : portStateDo p inv s = ethChanged p true ((portLanes p s).foldl (fun s l => noteReversed l (inv.testBit (l - p)) s) u) := by
    rw [← hports, ← hu]
    exact if_pos (by rw [hp, he, hl, hready]; rfl)
  obtain ⟨_, _, tother, town⟩ := foldl_oneLane (fun t l => oneLane_noteReversed l (inv.testBit (l - p)) t) (nodup_portLanes p s) u
  refine ⟨fun l hl => ?_, fun d hd => ?_⟩
  · obtain ⟨x, _, _, xlane, xfold⟩ := uown l hl
    obtain ⟨y, _, _, ylane, yfold⟩ := town l hl
    rw [hdo, laneOf_congr (congrArg Lanes.lanes (lanes_ethChanged _ _ _)), yfold, laneOf_noteReversed, ylane, xfold, laneOf_ethLaneUp, xlane]
  · rw [hdo, laneOf_congr (congrArg Lanes.lanes (lanes_ethChanged _ _ _)), tother d hd, uother d hd]

/-! ## Shorts, hold and test -/

section
variable {l : Nat} {s : State} (h : isTremund l s = true ∨ isEth l s = true)
include h

theorem faultShortDo_shorts (hs : (laneOf l s).short = false) : (laneOf l (faultShortDo l s)).short = true ∧
    (laneOf l (faultShortDo l s)).shortAt = nowNs s ∧ (laneOf l (faultShortDo l s)).state = 5 := by
  have hgate : ¬((laneGroup l s).personality = 0 ∨ (laneOf l s).short = true) := by
    rw [hs]
    exact fun ho => ho.elim (personality_of_kind h) Bool.false_ne_true
  unfold faultShortDo
  extract_lets t
  have hnow : nowNs t = nowNs s := (serviceOnly_leaveService l 5 s).now
  have hstate : (laneOf l t).state = 5 := state_leaveService h (by decide)
  rw [if_neg hgate, laneOf_record, laneOf_updLane]
  exact ⟨rfl, hnow, hstate⟩

/-- RETRAIN takes the lane out of service and begins its bring-up (R352). -/
theorem laneRetrainDo_restarts (hm : mayTrain l s = true) : (laneOf l (laneRetrainDo l s)).state = 1 ∧
    (laneOf l (laneRetrainDo l s)).step = 1 ∧ (laneOf l (laneRetrainDo l s)).waitUntil = none := by
  have hleave := serviceOnly_leaveService l 1 s
  have hpers : (laneGroup l (leaveService l 1 s)).personality ≠ 0 := by
    rw [laneGroup_congr hleave.groups]
    exact personality_of_kind h
  rw [laneRetrainDo, if_pos hm, laneOf_beginTraining ((hleave.mayTrain l).trans hm) hpers]
  exact ⟨rfl, rfl, rfl⟩

theorem laneHoldDo_holds (hd : (laneOf l s).holdDown = false) (hs : (laneOf l s).short = false) (hl : (laneOf l s).loop = 0) :
    (laneOf l (laneHoldDo l true s)).holdDown = true ∧ (laneOf l (laneHoldDo l true s)).state = 4 := by
  have hdo : laneHoldDo l true s = updLane l (fun v => { v with holdDown := true }) (leaveService l 4 s) := by
    simp only [laneHoldDo, hd, hs, hl, Bool.false_eq_true, if_false, if_true, bne_self_eq_false, Bool.or_self]
  rw [hdo, laneOf_updLane]
  exact ⟨rfl, state_leaveService h (by decide)⟩

/-- A loop takes the lane out of service, into TEST (R350). -/
theorem laneTestDo_loops {w : Word64} (h1 : 1 ≤ fld w 2 0) (h3 : fld w 2 0 ≤ 3) (hp : fld w 5 4 ≠ 3) (hl : (laneOf l s).loop = 0)
    (hs : (laneOf l s).short = false) : (laneOf l (laneTestDo l w s)).loop = fld w 2 0 ∧ (laneOf l (laneTestDo l w s)).check = bitOf w 3 ∧
    (laneOf l (laneTestDo l w s)).pattern = fld w 5 4 ∧ (laneOf l (laneTestDo l w s)).state = 6 := by
  have hnz : fld w 2 0 ≠ 0 := by omega
  have hdo : laneTestDo l w s = updLane l (fun v => { v with loop := fld w 2 0, check := bitOf w 3, pattern := fld w 5 4 })
      (leaveService l 6 s) := by
    simp only [laneTestDo, hl, hs, hp, hnz, Nat.not_lt.mpr h3, or_self, if_false, ne_eq, not_false_eq_true, Bool.not_false, and_self,
      if_true, false_and]
  rw [hdo, laneOf_updLane]
  exact ⟨rfl, rfl, rfl, state_leaveService h (by decide)⟩

end

theorem laneHoldDo_releases {l : Nat} {s : State} (hd : (laneOf l s).holdDown = true) :
    laneHoldDo l false s = beginTraining l (setLane l { laneOf l s with holdDown := false } s) := by
  simp only [laneHoldDo, hd, Bool.true_eq_false, Bool.false_eq_true, if_false]

theorem shortRetryDo_due {l : Nat} {s : State} (short : Bool) (hs : (laneOf l s).short = true)
    (hd : (laneOf l s).shortAt + 100000000 ≤ nowNs s) : shortRetryDo l short s =
      if short = true then setLane l { laneOf l s with shortAt := nowNs s } s
      else
        let t := setLane l { laneOf l s with short := false } s
        if (laneOf l s).loop ≠ 0 then setLaneState l 6 t else if (laneOf l s).holdDown = true then setLaneState l 4 t else beginTraining l t := by
  have hgate : ((laneOf l s).short && decide ((laneOf l s).shortAt + 100000000 ≤ nowNs s)) = true := by
    rw [hs, decide_eq_true hd]
    rfl
  exact if_pos hgate

theorem losDo_marks {l : Nat} {s : State} (h : (laneGroup l s).personality ≠ 0) : losDo l s =
    if isTremund l s = true ∧ (laneOf l s).rx.power = 2 then setLane l { laneOf l s with los := true } s
    else loseLane l (setLane l { laneOf l s with los := true } s) := by
  unfold losDo
  extract_lets expected t
  rw [if_neg h]
  refine if_congr ?_ rfl rfl
  simp only [expected, Bool.and_eq_true, beq_iff_eq]

/-! ## The statement -/

/-- Settles O50, control by control and event by event; passes over the lanes of a group or port touch each of them once. -/
theorem laneService : Obligations.LaneService := by
  unfold Obligations.LaneService
  refine ⟨?_, ?_, ?_, ?_, ?_, ?_, ?_, ?_, ?_, ?_, ?_, ?_, ?_, ?_, ?_, ?_, ?_, ?_⟩
  · intro who g w s hg hw h
    rw [exec_laneGroupCfg hg hw, laneGroupDo_reserved h]
  · intro who g w s hg hw hp hc hn
    rw [exec_laneGroupCfg hg hw, laneGroupDo_named hp hc hn]
  · intro who g w s hg hw hp hc hn
    obtain ⟨hown, hother⟩ := groupCfg_applyGroup g w s
    have hwidth : fld w 5 4 ≤ 3 := Nat.le_of_lt_succ (Nat.mod_lt _ (by decide))
    refine ⟨saveSettings (applyGroup g w s), by rw [exec_laneGroupCfg hg hw, laneGroupDo_free hp hc hn], rfl, ?_⟩
    rw [groupCfg_saveSettings, hown]
    exact ⟨rfl, rfl, hwidth, rfl, rfl, fun d hd => by rw [groupCfg_saveSettings, hother d hd]⟩
  · intro l s hl h
    rw [exec_laneLos hl, losDo_marks h]
  · intro l s hl h
    rw [exec_losCleared hl, losClearedDo, if_neg h]
    rfl
  · intro l s hl h
    rw [exec_laneLol hl, lolDo, if_neg h]
    rfl
  · intro l s hl h
    refine ⟨_, exec_laneLol hl s true, ?_⟩
    rw [lolDo_pll h]
    exact ⟨rfl, rfl⟩
  · exact fun l s h hw _ hm => state_loseLane h hw hm
  · intro l s h hl
    rw [exec_laneLos hl, exec_losCleared hl, exec_faultShort hl, losDo, losClearedDo, faultShortDo, if_pos h, if_pos h, if_pos (.inl h)]
    exact ⟨rfl, rfl, rfl⟩
  · exact fun g s hg hp hl => ⟨_, exec_pllLock hg s, pllLockDo_locks hp hl⟩
  · intro p inv s hp hi hport he hl hr
    obtain ⟨hlanes, hother⟩ := portStateDo_up (inv := inv) hport he hl hr
    refine ⟨_, exec_portState hp s hi, fun l hl => ?_, fun l hl => ?_, hother⟩
    · rw [hlanes l hl]
      exact ⟨rfl, rfl⟩
    · rw [hlanes l hl]
  · exact fun l s hl h hs => ⟨_, exec_faultShort hl s, faultShortDo_shorts h hs⟩
  · intro l short s hl hs hd
    rw [exec_faultShortRetry hl, shortRetryDo_due short hs hd]
  · exact fun who l s hl hw hm h => ⟨_, exec_laneRetrain hl hw, laneRetrainDo_restarts h hm⟩
  · exact fun who l s hl hw h hd hs hloop => ⟨_, exec_laneHoldDown hl hw true, laneHoldDo_holds h hd hs hloop⟩
  · intro who l s hl hw hd
    rw [exec_laneHoldDown hl hw, laneHoldDo_releases hd]
  · intro who l w s hl hw h
    rw [exec_laneTest hl hw, laneTestDo, if_pos h]
  · exact fun who l w s hl hw h h1 h3 hp hloop hs => ⟨_, exec_laneTest hl hw w, laneTestDo_loops h h1 h3 hp hloop hs⟩

end Sys2Proof
end

section
/-! PROOFS. The AES3 ports: their lines, inputs, outputs and groups (R309-R324). -/

namespace Sys2Proof

open Machine

/-! ## What the ports' accessors read -/

theorem aesIn_congr {s t : State} (h : t.aes.ins = s.aes.ins) (i : Nat) : aesIn i t = aesIn i s := by simp only [aesIn, h]

theorem aesOut_congr {s t : State} (h : t.aes.outs = s.aes.outs) (o : Nat) : aesOut o t = aesOut o s := by simp only [aesOut, h]

theorem aesGroup_congr {s t : State} (h : t.aes.groups = s.aes.groups) (g : Nat) : aesGroup g t = aesGroup g s := by simp only [aesGroup, h]

theorem groupOfPort_congr {s t : State} (h : t.aes.groups = s.aes.groups) (out : Bool) (p : Nat) :
    groupOfPort out p t = groupOfPort out p s := by simp only [groupOfPort, aesGroup_congr h]

theorem groupPorts_congr {s t : State} (h : t.aes.groups = s.aes.groups) (g : Nat) : groupPorts g t = groupPorts g s := by
  simp only [groupPorts, aesGroup_congr h]

theorem aes_emit (o : Out) (s : State) : (emit o s).aes.outs = s.aes.outs := rfl

theorem aes_record (code : Nat) (items : List (Nat × Nat)) (s : State) : (record code items s).aes = s.aes := by simp

/-! ## The rows of the table -/

section
variable {p : Nat} (s : State)

theorem exec_lineMeasure (hp : p < 32) (z : Nat) (leg : Bool) : exec (.lineMeasure p z leg) s = .next (lineMeasureDo p z leg s) :=
  onWf_of_wf (i := .lineMeasure p z leg) (by simp [Instr.wf, hp])

theorem exec_aesCsBlockStart (hp : p < 32) : exec (.aesCsBlockStart p) s = .next (csStartDo p s) :=
  onWf_of_wf (i := .aesCsBlockStart p) (by simp [Instr.wf, hp])

theorem exec_shortTripRetry (hp : p < 16) (short : Bool) : exec (.shortTripRetry p short) s = .next (shortTripDo p short s) :=
  onWf_of_wf (i := .shortTripRetry p short) (by simp [Instr.wf, hp])

theorem exec_aesLock (hp : p < 16) (rate : Nat) (inv al : Bool) : exec (.aesLock p rate inv al) s = .next (aesLockDo p rate inv al s) :=
  onWf_of_wf (i := .aesLock p rate inv al) (by simp [Instr.wf, hp])

theorem exec_aesUnlock (hp : p < 16) : exec (.aesUnlock p) s = .next (aesUnlockDo p s) :=
  onWf_of_wf (i := .aesUnlock p) (by simp [Instr.wf, hp])

theorem exec_aesInFrameRx (hp : p < 16) (a b : AesSub) : exec (.aesInFrameRx p a b) s = .next (aesFrameDo p a b s) :=
  onWf_of_wf (i := .aesInFrameRx p a b) (by simp [Instr.wf, hp])

theorem exec_csBlockRx (hp : p < 16) {bs : List Byte} (hb : bs.length = 24) : exec (.csBlockRx p bs) s = .next (csBlockDo p bs s) :=
  onWf_of_wf (i := .csBlockRx p bs) (by simp [Instr.wf, hp, hb])

theorem exec_aesOutFrameDue (hp : p < 16) : exec (.aesOutFrameDue p) s = .next (frameDueDo p s) :=
  onWf_of_wf (i := .aesOutFrameDue p) (by simp [Instr.wf, hp])

variable {s} {who : Nat}

theorem exec_aesGroupMask (hp : p < 8) (h : mayWrite who (aesGroupOff p 8) s) (v : BitVec 64) :
    exec (.aesGroupMask who p v) s = .next (aesMaskDo p v s) := by
  refine (onWf_of_wf (i := .aesGroupMask who p v) (by simp [Instr.wf, hp, h.1])).trans ?_
  rw [gated_granted h]

theorem exec_aesOutCs {n : Nat} (hp : p < 16) (hn : n < 3) (h : mayWrite who (aesOutOff p (0x10 + n * 8)) s) (v : BitVec 64) :
    exec (.aesOutCs who p n v) s = .next (aesOutCsDo p n v s) := by
  refine (onWf_of_wf (i := .aesOutCs who p n v) (by simp [Instr.wf, hp, hn, h.1])).trans ?_
  rw [gated_granted h]

end

/-! ## Lines -/

/-- A measurement keeps LINE, and its ohms are held to the field. -/
theorem measureLine_keeps (v : AesLine) (z cls : Nat) : (measureLine v z cls).line = v.line ∧ (measureLine v z cls).ohms = min z 4095 := by
  unfold measureLine
  extract_lets w
  split
  · exact ⟨rfl, rfl⟩
  · split <;> exact ⟨rfl, rfl⟩

/-- The class that three measurements agree on is the last one's (R311). -/
theorem measureLine_cand {v : AesLine} {z cls : Nat} (h : 3 ≤ (measureLine v z cls).agree) : (measureLine v z cls).cand = cls := by
  unfold measureLine at h ⊢
  extract_lets at h ⊢
  split at h
  · exact absurd h (by simp)
  · next hl =>
    rw [if_neg hl]
    split at h
    · next hc =>
      rw [if_pos hc]
      exact hc.1.symm
    · exact absurd h (by simp)

/-- A port whose LINE has changed: its sense, its bit of `AES_EVENT`, and the record (R311, R324). -/
def lineNoted (p old : Nat) (l : AesLine) (s : State) : State :=
  record 0x0901 [(1, p), (1, old), (1, l.line)] (aesEvent (fun a => if p < 16 then { a with inLine := a.inLine ||| 2 ^ p }
    else { a with outLine := a.outLine ||| 2 ^ (p - 16) }) (setSense p l s))

/-- What a changed LINE does to an input and to an output (R312). -/
def lineActs (p : Nat) (l : AesLine) (s : State) : State :=
  if p < 16 then (if l.line = 0 ∨ l.line = 3 then updAesIn p dropLock s else s)
  else if l.line = 3 ∧ (aesOut (p - 16) s).state = 1 then tripOut (p - 16) s else s

theorem lineMeasureDo_moves {p z : Nat} {leg : Bool} {s : State} (h : 3 ≤ (measureLine (senseOf p s) z (lineClass z leg)).agree) :
    ∃ l, lineMeasureDo p z leg s = lineActs p l (lineNoted p (measureLine (senseOf p s) z (lineClass z leg)).line l s) ∧
      l.line = lineClass z leg ∧ l.agree = 0 ∧ l.ohms = min z 4095 := by
  refine ⟨moveLine (measureLine (senseOf p s) z (lineClass z leg)), ?_, measureLine_cand h, rfl, (measureLine_keeps _ _ _).2⟩
  exact if_pos (decide_eq_true h)

theorem lineMeasureDo_waits {p z : Nat} {leg : Bool} {s : State} (h : (measureLine (senseOf p s) z (lineClass z leg)).agree < 3) :
    lineMeasureDo p z leg s = setSense p (measureLine (senseOf p s) z (lineClass z leg)) s :=
  if_neg (by rw [lineMoves, decide_eq_false (Nat.not_le.mpr h)]; exact Bool.false_ne_true)

theorem testBit_or_two_pow (a p : Nat) : (a ||| 2 ^ p).testBit p = true := by rw [Nat.testBit_or, Nat.testBit_two_pow_self, Bool.or_true]

theorem aes_lineNoted_in {p : Nat} (hp : p < 16) (old : Nat) (l : AesLine) (s : State) :
    (lineNoted p old l s).aes = { (setSense p l s).aes with inLine := (setSense p l s).aes.inLine ||| 2 ^ p } :=
  (aes_record _ _ _).trans (if_pos hp)

theorem aes_lineNoted_out {p : Nat} (hp : ¬p < 16) (old : Nat) (l : AesLine) (s : State) :
    (lineNoted p old l s).aes = { (setSense p l s).aes with outLine := (setSense p l s).aes.outLine ||| 2 ^ (p - 16) } :=
  (aes_record _ _ _).trans (if_neg hp)

/-- An input whose LINE changes: without a line it has no lock (R312). -/
theorem lineActs_in {p old : Nat} (hp : p < 16) (l : AesLine) (s : State) :
    (aesIn p (lineActs p l (lineNoted p old l s))).sense = l ∧ (lineActs p l (lineNoted p old l s)).aes.inLine.testBit p = true ∧
    (l.line = 0 ∨ l.line = 3 → (aesIn p (lineActs p l (lineNoted p old l s))).locked = false) := by
  have haes := aes_lineNoted_in hp old l s
  generalize lineNoted p old l s = u at haes
  have hsense : (aesIn p u).sense = l := by
    rw [aesIn_congr (s := setSense p l s) (by rw [haes])]
    simp [setSense, hp]
  have hline : u.aes.inLine.testBit p = true := by rw [haes]; exact testBit_or_two_pow _ _
  have hdrop : ∀ v : AesIn, (dropLock v).sense = v.sense ∧ (dropLock v).locked = false := by
    intro v
    unfold dropLock
    split
    · exact ⟨rfl, rfl⟩
    · next h => exact ⟨rfl, Bool.eq_false_of_not_eq_true h⟩
  rw [lineActs, if_pos hp]
  split
  · rw [aesIn_updAesIn]
    exact ⟨(hdrop _).1.trans hsense, hline, fun _ => (hdrop _).2⟩
  · next h => exact ⟨hsense, hline, fun h' => absurd h' h⟩

theorem aesOut_tripOut (o : Nat) (s : State) : aesOut o (tripOut o s) = { aesOut o s with state := 3, tripAt := nowNs s } :=
  (aesOut_congr (s := updAesOut o (fun v => { v with state := 3, tripAt := nowNs s }) s) rfl o).trans (aesOut_updAesOut _ _ _)

/-- An output whose LINE changes: a short trips it when it runs (R312). -/
theorem lineActs_out {p old : Nat} (hp : ¬p < 16) (l : AesLine) (s : State) :
    (aesOut (p - 16) (lineActs p l (lineNoted p old l s))).sense = l ∧
    (lineActs p l (lineNoted p old l s)).aes.outLine.testBit (p - 16) = true ∧
    (l.line = 3 → (aesOut (p - 16) s).state = 1 → (aesOut (p - 16) (lineActs p l (lineNoted p old l s))).state = 3) ∧
    (l.line ≠ 3 → (aesOut (p - 16) (lineActs p l (lineNoted p old l s))).state = (aesOut (p - 16) s).state) := by
  have haes := aes_lineNoted_out hp old l s
  generalize lineNoted p old l s = u at haes
  have hout : aesOut (p - 16) u = { aesOut (p - 16) s with sense := l } := by
    rw [aesOut_congr (s := setSense p l s) (by rw [haes])]
    simp [setSense, hp]
  have hline : u.aes.outLine.testBit (p - 16) = true := by rw [haes]; exact testBit_or_two_pow _ _
  rw [lineActs, if_neg hp, hout]
  split
  · next h =>
    rw [aesOut_tripOut, hout]
    exact ⟨rfl, hline, fun _ _ => rfl, fun h3 => absurd h.1 h3⟩
  · next h =>
    rw [hout]
    exact ⟨rfl, hline, fun h3 h1 => absurd ⟨h3, h1⟩ h, fun _ => rfl⟩

theorem shortTripDo_due {o : Nat} {s : State} (short : Bool) (h3 : (aesOut o s).state = 3) (hd : (aesOut o s).tripAt + 100000000 ≤ nowNs s) :
    shortTripDo o short s = if short = true then tripOut o s else setAesOut o { aesOut o s with state := 1 } s := if_pos ⟨h3, hd⟩

/-! ## Inputs -/

/-- Alignment can change a member's phase and converter buffer only (R320, R322). -/
theorem alignIn_only (i : Nat) (al : Bool) (s : State) : ∃ m ph pad buf,
    (alignIn i al s).aes.outs = s.aes.outs ∧ (alignIn i al s).aes.groups = s.aes.groups ∧ (alignIn i al s).dram = s.dram ∧
    (∀ d, d ≠ i → aesIn d (alignIn i al s) = aesIn d s) ∧
    aesIn i (alignIn i al s) = { aesIn i s with misaligned := m, phase := ph, pad := pad, buf := buf } ∧
    (al = false ∨ groupOfPort false i s = none → ph = (aesIn i s).phase ∧ buf = (aesIn i s).buf) := by
  unfold alignIn
  extract_lets v
  split
  · exact ⟨_, _, _, _, rfl, rfl, rfl, fun _ _ => rfl, rfl, fun _ => ⟨rfl, rfl⟩⟩
  · next r hr =>
    split
    · exact ⟨_, _, _, _, rfl, rfl, rfl, fun d hd => aesIn_setAesIn_ne _ _ _ _ hd, aesIn_setAesIn _ _ _, fun _ => ⟨rfl, rfl⟩⟩
    · split
      · exact ⟨_, _, _, _, rfl, rfl, rfl, fun d hd => aesIn_setAesIn_ne _ _ _ _ hd, aesIn_setAesIn _ _ _, fun _ => ⟨rfl, rfl⟩⟩
      · next hal =>
        refine ⟨_, _, _, _, rfl, rfl, rfl, fun d hd => aesIn_setAesIn_ne _ _ _ _ hd, aesIn_setAesIn _ _ _, fun h => ?_⟩
        cases h with
        | inl h => rw [h] at hal; exact absurd rfl hal
        | inr h => rw [h] at hr; cases hr

/-- An input that locks starts afresh at its rate (R313). -/
def lockedIn (rate : Nat) (inv : Bool) (v : AesIn) : AesIn :=
  { v with rateErr := false, locked := true, rateDet := rate + 1, reversed := inv, badFrames := 0, hist := [], phase := 0, buf := [], pad := 0,
           underSince := none, mute := 3, owed := 0, filled := 0, dropped := 0, misaligned := false }

section
variable {i : Nat} {s : State} (he : (aesIn i s).enable = true) (hl : (aesIn i s).sense.line = 1 ∨ (aesIn i s).sense.line = 2)
include he hl

/-- An enabled input with a line (R312, R313). -/
theorem aesLockDo_live (rate : Nat) (inv al : Bool) : aesLockDo i rate inv al s =
    if (aesIn i s).locked then (if (aesIn i s).misaligned == al then alignIn i al s else s)
    else if !(aesIn i s).autoRate && rate != (aesIn i s).rate then setAesIn i { aesIn i s with rateErr := true } s
    else if 2 < rate then s
    else alignIn i al (setAesIn i (lockedIn rate inv (aesIn i s)) s) := by
  have hgate : (!(aesIn i s).enable || (aesIn i s).sense.line == 0 || (aesIn i s).sense.line == 3) = false := by
    rw [he]
    cases hl with
    | inl h => rw [h]; rfl
    | inr h => rw [h]; rfl
  exact if_neg (by rw [hgate]; exact Bool.false_ne_true)

theorem aesLockDo_rateErr {rate : Nat} (inv al : Bool) (hk : (aesIn i s).locked = false) (ha : (aesIn i s).autoRate = false)
    (hr : rate ≠ (aesIn i s).rate) : aesLockDo i rate inv al s = setAesIn i { aesIn i s with rateErr := true } s := by
  rw [aesLockDo_live he hl, if_neg (by rw [hk]; exact Bool.false_ne_true), if_pos]
  rw [ha, bne_iff_ne.mpr hr]
  rfl

theorem aesLockDo_locks {rate : Nat} (inv al : Bool) (hk : (aesIn i s).locked = false) (hr : rate ≤ 2)
    (ha : (aesIn i s).autoRate = true ∨ rate = (aesIn i s).rate) :
    aesLockDo i rate inv al s = alignIn i al (setAesIn i (lockedIn rate inv (aesIn i s)) s) := by
  have hrate : (!(aesIn i s).autoRate && rate != (aesIn i s).rate) = false := by
    cases ha with
    | inl h => rw [h]; rfl
    | inr h => rw [h, bne_self_eq_false, Bool.and_false]
  rw [aesLockDo_live he hl, if_neg (by rw [hk]; exact Bool.false_ne_true), if_neg (by rw [hrate]; exact Bool.false_ne_true),
    if_neg (Nat.not_lt.mpr hr)]

end

theorem aesUnlockDo_locked {i : Nat} {s : State} (hk : (aesIn i s).locked = true) : aesUnlockDo i s =
    if 8 ≤ (aesIn i s).badFrames then
      count (aesInCtr i 4) 1 (setAesIn i { aesIn i s with locked := false, rateDet := 0, badFrames := 0 } s)
    else s := by
  unfold aesUnlockDo
  refine if_congr ?_ rfl rfl
  rw [hk, Bool.true_and, decide_eq_true_iff]

/-- Converted samples enter the converter's buffer, which holds 192 (R315). -/
theorem convertPush_keeps (n : Nat) (v : AesIn) (lost : Nat) : (convertPush n v lost).1.last = v.last ∧
    (convertPush n v lost).1.badFrames = v.badFrames ∧ (convertPush n v lost).1.locked = v.locked ∧
    (v.buf.length ≤ 192 → (convertPush n v lost).1.buf.length ≤ 192) := by
  induction n generalizing v lost with
  | zero => exact ⟨rfl, rfl, rfl, id⟩
  | succ n ih =>
    rw [convertPush]
    split
    · next h =>
      refine ⟨(ih _ lost).1, (ih _ lost).2.1, (ih _ lost).2.2.1, fun _ => (ih _ lost).2.2.2 ?_⟩
      rw [List.length_append]
      exact h
    · exact ih v (lost + 1)

theorem counted_if (p : Prop) [Decidable p] (off n : Nat) (s : State) : ∃ c, (if p then s else count off n s) = { s with ctr := c } := by
  split <;> exact ⟨_, rfl⟩

theorem if_counted (p : Prop) [Decidable p] (off n : Nat) (s : State) : ∃ c, (if p then count off n s else s) = { s with ctr := c } := by
  split <;> exact ⟨_, rfl⟩

/-- A received frame of an enabled, locked input (R313-R315). -/
theorem aesFrameDo_live {i : Nat} (a b : AesSub) {s : State} (he : (aesIn i s).enable = true) (hk : (aesIn i s).locked = true) :
    ∃ n hist ph c, aesFrameDo i a b s = { setAesIn i (convertPush n { aesIn i s with
      last := (subSample a (aesIn i s).last.1, subSample b (aesIn i s).last.2), hist := hist, phase := ph,
      badFrames := if a.preambleOk || b.preambleOk then 0 else (aesIn i s).badFrames + 1 } 0).1 s with ctr := c } := by
  unfold aesFrameDo
  extract_lets v t u x ph hz w r z
  rw [if_neg (by simp [v, he, hk])]
  obtain ⟨c, hc⟩ := counted_if (a.parityOk && b.parityOk) (aesInCtr i 2) 1 s
  obtain ⟨c', hc'⟩ := if_counted (a.validity || b.validity) (aesInCtr i 3) 1 t
  obtain ⟨c'', hc''⟩ := counted_if (r.2 = 0) (aesInCtr i 1) r.2 z
  refine ⟨ph / hz, w.hist, ph % hz, c'', hc''.trans ?_⟩
  have hu : u = { s with ctr := c' } := by rw [show u = _ from hc', show t = _ from hc]
  simp only [z, hu]
  rfl

theorem csBlockDo_live {i : Nat} (bs : List Byte) {s : State} (he : (aesIn i s).enable = true) (hk : (aesIn i s).locked = true) :
    csBlockDo i bs s = if (bs.getD 0 0).toNat % 2 = 1 ∧ crcc (bs.take 23) ≠ bs.getD 23 0 then count (aesInCtr i 5) 1 s
      else setAesIn i { aesIn i s with
        cs := bs, consumer := (bs.getD 0 0).toNat % 2 != 1, nonAudio := (bs.getD 0 0).toNat / 2 % 2 == 1 } s := by
  unfold csBlockDo
  extract_lets v pro
  rw [if_neg (by simp [v, he, hk])]
  refine if_congr ?_ rfl rfl
  simp only [pro, byteAt, Bool.and_eq_true, beq_iff_eq, bne_iff_ne]

/-! ## Outputs -/

/-- A frame that is sent takes the next place of the channel-status block (R317, R318). -/
theorem sendAes_sends (o : Nat) (x : Int × Int) (invalid : Bool) {s : State} (hh : s.body.hold = false) : ∃ a b,
    sendAes o x invalid s = emit (.aes o (aesOut o s).frame a b) (setAesOut o { aesOut o s with
      frame := ((aesOut o s).frame + 1) % 192 } s) := ⟨_, _, if_neg (by rw [hh]; exact Bool.false_ne_true)⟩

section
variable {o : Nat} {s : State} (hs : (aesOut o s).state = 1 ∨ (aesOut o s).state = 3)
include hs

theorem frameDueDo_buffered {x : Int × Int} {xs : List (Int × Int)} (hb : (aesOut o s).buf = x :: xs) :
    frameDueDo o s = sendAes o x false (setAesOut o { aesOut o s with buf := xs, last := x } s) := by
  unfold frameDueDo
  extract_lets v
  rw [if_neg (by simp only [v]; omega)]
  simp only [v, hb]

theorem frameDueDo_fill (hb : (aesOut o s).buf = []) : ∃ since x long,
    frameDueDo o s = sendAes o x long (count (aesOutCtr o 0) 1 (setAesOut o { aesOut o s with
      underSince := since, owed := (aesOut o s).owed + 1, filled := (aesOut o s).filled + 1 } s)) := by
  refine ⟨some ((aesOut o s).underSince.getD (nowNs s)),
    if decide ((aesOut o s).underSince.getD (nowNs s) + 10000000 ≤ nowNs s) then (0, 0) else (aesOut o s).last,
    decide ((aesOut o s).underSince.getD (nowNs s) + 10000000 ≤ nowNs s), ?_⟩
  unfold frameDueDo
  extract_lets v
  rw [if_neg (by simp only [v]; omega)]
  split
  · next x xs h => exact absurd (hb.symm.trans h) (by simp)
  · rfl

end

/-! ## Channel status and groups -/

/-- The group of a port takes its mask when the port is the group's reference (R321). -/
def groupStarts (out : Bool) (p : Nat) (s : State) : State :=
  match groupOfPort out p s with
  | none => s
  | some g => if (if out then outReference g s else inReference g s) = some p then groupBlockStart g s else s

theorem groupStarts_keeps (out : Bool) (p : Nat) (s : State) : (groupStarts out p s).aes.ins = s.aes.ins ∧
    (groupStarts out p s).aes.outs = s.aes.outs := by
  unfold groupStarts
  split
  · exact ⟨rfl, rfl⟩
  · next g _ =>
    by_cases hr : (if out then outReference g s else inReference g s) = some p
    · rw [if_pos hr]
      exact ⟨rfl, rfl⟩
    · rw [if_neg hr]
      exact ⟨rfl, rfl⟩

theorem groupStarts_reference {out : Bool} {p g : Nat} {s : State} (hg : groupOfPort out p s = some g)
    (hr : (if out then outReference g s else inReference g s) = some p) :
    (aesGroup g (groupStarts out p s)).active = (aesGroup g s).mask ∧
    (aesGroup g (groupStarts out p s)).blocks = ((aesGroup g s).blocks + 1) % 2 ^ 32 := by
  have hstarts : groupStarts out p s = groupBlockStart g s := by
    unfold groupStarts
    simp only [hg]
    rw [if_pos hr]
  rw [hstarts, groupBlockStart, aesGroup_setAesGroup]
  exact ⟨rfl, rfl⟩

theorem csStartDo_out {p : Nat} {s : State} (hp : 16 ≤ p) (h1 : (aesOut (p - 16) s).state = 1) (hf : (aesOut (p - 16) s).frame = 0) :
    csStartDo p s = groupStarts true (p - 16) (updAesOut (p - 16) (fun v => { v with csa := csSent v.rate v.cs }) s) := by
  unfold csStartDo
  extract_lets o out p' goes t
  have hout : out = true := decide_eq_true hp
  have hgoes : goes = true := by simp [goes, hout, o, h1, hf]
  have ht : t = updAesOut (p - 16) (fun v => { v with csa := csSent v.rate v.cs }) s := if_pos hout
  have hp' : p' = p - 16 := if_pos hout
  rw [if_neg (by rw [hgoes]; decide), ht, hp', hout]
  rfl

theorem csStartDo_in {p : Nat} {s : State} (hp : p < 16) (hk : (aesIn p s).locked = true) : csStartDo p s = groupStarts false p s := by
  unfold csStartDo
  extract_lets o out p' goes t
  have hout : out = false := decide_eq_false (Nat.not_le.mpr hp)
  have hno : ¬out = true := by rw [hout]; exact Bool.false_ne_true
  have hgoes : goes = true := by rw [show goes = (aesIn p s).locked from if_neg hno, hk]
  have ht : t = s := if_neg hno
  have hp' : p' = p := if_neg hno
  rw [if_neg (by rw [hgoes]; decide), ht, hp', hout]
  rfl

/-- What runs in a group does not change with an output's channel status. -/
theorem outReference_csa (o g : Nat) (s : State) (f : AesOut → AesOut) (hf : ∀ v, (f v).state = v.state) :
    outReference g (updAesOut o f s) = outReference g s := by
  have hstate : ∀ p, (aesOut p (updAesOut o f s)).state = (aesOut p s).state := by
    intro p
    by_cases hp : p = o
    · rw [hp, aesOut_updAesOut, hf]
    · rw [aesOut_updAesOut_ne _ _ _ _ hp]
  simp only [outReference, groupPorts_congr (s := s) (t := updAesOut o f s) rfl, hstate]

/-- The bytes that a block sends are 24 and end in their CRCC (R317). -/
theorem csSent_crcc {rate : Nat} {cs : List Byte} (h : cs.length = 24) :
    (csSent rate cs).length = 24 ∧ (csSent rate cs).getD 23 0 = crcc ((csSent rate cs).take 23) := by
  unfold csSent
  extract_lets b0 b2 b4 bs
  have hbs : bs.length = 23 := by simp [bs, h]
  refine ⟨by rw [List.length_append, hbs]; rfl, ?_⟩
  rw [← hbs, List.take_left, List.getD_append_right _ _ _ _ (Nat.le_refl _), Nat.sub_self]
  rfl

/-- A write of `AES_OUT_CS` reaches the bits of its eight bytes that the hardware does not set (R317). -/
def csWritten (n rate : Nat) (v : Word64) (b : Byte × Nat) : Byte :=
  if 8 * n ≤ b.2 ∧ b.2 < 8 * n + 8 then (b.1 &&& ~~~ csOpen rate b.2) ||| ((bytesOf64 v).getD (b.2 - 8 * n) 0 &&& csOpen rate b.2) else b.1

theorem cs_aesOutCsDo (o n : Nat) (v : Word64) (s : State) :
    (aesOut o (aesOutCsDo o n v s)).cs = (aesOut o s).cs.zipIdx.map (csWritten n (aesOut o s).rate v) := by
  rw [aesOutCsDo, aesOut_updAesOut]
  rfl

theorem getD_zipIdx_map {β : Type} (f : β × Nat → β) (l : List β) (d : β) {k : Nat} (h : k < l.length) :
    (l.zipIdx.map f).getD k d = f (l.getD k d, k) := by
  simp [List.getD, h]

/-! ## The statement -/

/-- Settles O49, port event by port event. -/
theorem aes3Ports : Obligations.Aes3Ports := by
  unfold Obligations.Aes3Ports
  refine ⟨fun _ _ => rfl, ?_, ?_, ?_, ?_, ?_, ?_, ?_, ?_, ?_, ?_, ?_, ?_, ?_, fun rate cs h => csSent_crcc h, ?_, ?_⟩
  · intro p z leg s hp h
    exact ⟨by rw [exec_lineMeasure s hp, lineMeasureDo_waits h], (measureLine_keeps _ _ _).1⟩
  · intro p z leg s hp h
    obtain ⟨l, hdo, hline, hagree, hohms⟩ := lineMeasureDo_moves h
    refine ⟨_, exec_lineMeasure s hp z leg, ?_⟩
    rw [hdo]
    generalize (measureLine (senseOf p s) z (lineClass z leg)).line = old
    rw [← hline, ← hohms]
    by_cases h16 : p < 16
    · obtain ⟨hsense, hbit, hlock⟩ := lineActs_in (old := old) h16 l s
      have hport : senseOf p (lineActs p l (lineNoted p old l s)) = l := (if_pos h16).trans hsense
      rw [hport]
      exact ⟨rfl, hagree, rfl, fun _ => hbit, fun h => absurd h16 (Nat.not_lt.mpr h), fun _ => hlock,
        fun h => absurd h16 (Nat.not_lt.mpr h), fun h => absurd h16 (Nat.not_lt.mpr h)⟩
    · obtain ⟨hsense, hbit, htrip, hkeep⟩ := lineActs_out (old := old) h16 l s
      have hport : senseOf p (lineActs p l (lineNoted p old l s)) = l := (if_neg h16).trans hsense
      rw [hport]
      exact ⟨rfl, hagree, rfl, fun h => absurd h h16, fun _ => hbit, fun h => absurd h h16, fun _ => htrip, fun _ => hkeep⟩
  · intro o short s ho h3 hd
    rw [exec_shortTripRetry s ho, shortTripDo_due short h3 hd]
  · intro i rate inv al s hi he hk hl hr ha
    obtain ⟨m, ph, pad, buf, houts, hgroups, hdram, hother, hown, hfresh⟩ :=
      alignIn_only i al (setAesIn i (lockedIn rate inv (aesIn i s)) s)
    refine ⟨_, exec_aesLock s hi rate inv al, ?_⟩
    rw [aesLockDo_locks he hl inv al hk hr ha, hown]
    rw [aesIn_setAesIn] at hfresh ⊢
    refine ⟨rfl, rfl, rfl, rfl, rfl, rfl, fun h => ?_, fun d hd => (hother d hd).trans (aesIn_setAesIn_ne _ _ _ _ hd), houts, hgroups, hdram⟩
    obtain ⟨hph, hbuf⟩ := hfresh h
    exact ⟨hbuf, hph⟩
  · intro i rate inv al s hi he hk hl ha hr
    rw [exec_aesLock s hi, aesLockDo_rateErr he hl inv al hk ha hr]
  · intro i rate inv al s hi he hk hl
    rw [exec_aesLock s hi, aesLockDo_live he hl, if_pos hk]
    simp only [beq_iff_eq]
  · intro i s hi hk
    rw [exec_aesUnlock s hi, aesUnlockDo_locked hk]
  · intro i a b s hi he hk
    obtain ⟨n, hist, ph, c, hdo⟩ := aesFrameDo_live a b he hk
    refine ⟨_, exec_aesInFrameRx s hi a b, ?_⟩
    rw [hdo]
    generalize hv : ({ aesIn i s with
      last := (subSample a (aesIn i s).last.1, subSample b (aesIn i s).last.2), hist := hist, phase := ph,
      badFrames := if a.preambleOk || b.preambleOk then 0 else (aesIn i s).badFrames + 1 } : AesIn) = v
    obtain ⟨hlast, hbad, hlocked, hbuf⟩ := convertPush_keeps n v 0
    have hin : ∀ d, aesIn d { setAesIn i (convertPush n v 0).1 s with ctr := c } = aesIn d (setAesIn i (convertPush n v 0).1 s) :=
      fun d => aesIn_congr rfl d
    rw [hin i, aesIn_setAesIn, hlast, hbad, hlocked]
    refine ⟨?_, ?_, fun h => hbuf ?_, ?_, fun d hd => (hin d).trans (aesIn_setAesIn_ne _ _ _ _ hd), rfl, rfl, rfl⟩
    · rw [← hv]
      simp only [subSample, Bool.and_eq_true]
    · rw [← hv]
      simp only [Bool.or_eq_true]
    · rw [← hv]
      exact h
    · rw [← hv]
      exact hk
  · intro i bs s hi hb he hk
    rw [exec_csBlockRx s hi hb, csBlockDo_live bs he hk]
  · intro o x xs s ho hs hb hh
    obtain ⟨a, b, hsend⟩ := sendAes_sends o x false (s := setAesOut o { aesOut o s with buf := xs, last := x } s) hh
    refine ⟨_, a, b, exec_aesOutFrameDue s ho, ?_⟩
    rw [frameDueDo_buffered hs hb, hsend]
    generalize hv : ({ aesOut o s with buf := xs, last := x } : AesOut) = v
    have hframe : v.frame = (aesOut o s).frame := by rw [← hv]
    rw [aesOut_setAesOut, hframe, aesOut_congr (aes_emit _ _), aesOut_setAesOut]
    exact ⟨by rw [← hv], by rw [← hv], rfl, rfl, rfl⟩
  · intro o s ho hs hb hh
    obtain ⟨since, x, long, hdo⟩ := frameDueDo_fill hs hb
    generalize hv : ({ aesOut o s with underSince := since, owed := (aesOut o s).owed + 1, filled := (aesOut o s).filled + 1 } : AesOut) = v at hdo
    obtain ⟨a, b, hsend⟩ := sendAes_sends o x long (s := count (aesOutCtr o 0) 1 (setAesOut o v s)) hh
    have hout : aesOut o (count (aesOutCtr o 0) 1 (setAesOut o v s)) = v := (aesOut_congr rfl o).trans (aesOut_setAesOut o v s)
    have hframe : v.frame = (aesOut o s).frame := by rw [← hv]
    refine ⟨_, a, b, exec_aesOutFrameDue s ho, ?_⟩
    rw [hdo, hsend, hout, hframe, aesOut_congr (aes_emit _ _), aesOut_setAesOut]
    refine ⟨by rw [← hv], rfl, by rw [← hv]; exact hb, rfl, ?_⟩
    exact ctrGet_count _ _ _
  · intro p s h16 hp h1 hf
    refine ⟨_, exec_aesCsBlockStart s hp, ?_⟩
    have hgroups : (updAesOut (p - 16) (fun v => { v with csa := csSent v.rate v.cs }) s).aes.groups = s.aes.groups := rfl
    have hrefs : ∀ g, outReference g (updAesOut (p - 16) (fun v => { v with csa := csSent v.rate v.cs }) s) = outReference g s :=
      fun g => outReference_csa _ g s _ fun _ => rfl
    have hins : (updAesOut (p - 16) (fun v => { v with csa := csSent v.rate v.cs }) s).aes.ins = s.aes.ins := rfl
    have hcsa := aesOut_updAesOut (p - 16) (fun v => { v with csa := csSent v.rate v.cs }) s
    rw [csStartDo_out h16 h1 hf]
    generalize updAesOut (p - 16) (fun v => { v with csa := csSent v.rate v.cs }) s = u at hgroups hrefs hins hcsa
    obtain ⟨kins, kouts⟩ := groupStarts_keeps true (p - 16) u
    refine ⟨?_, fun g hg hr => ?_, kins.trans hins⟩
    · rw [aesOut_congr kouts, hcsa]
    · have hport : groupOfPort true (p - 16) u = some g := (groupOfPort_congr hgroups _ _).trans hg
      rw [← aesGroup_congr hgroups]
      exact groupStarts_reference hport ((if_pos rfl).trans ((hrefs g).trans hr))
  · intro p s hp hk
    refine ⟨_, exec_aesCsBlockStart s (Nat.lt_trans hp (by decide)), ?_⟩
    rw [csStartDo_in hp hk]
    exact ⟨(groupStarts_keeps _ _ _).1, (groupStarts_keeps _ _ _).2, fun g hg hr => (groupStarts_reference hg hr).1⟩
  · intro who g v s hg hw
    rw [exec_aesGroupMask hg hw]
    rfl
  · intro who o n v s ho hn hw
    refine ⟨_, exec_aesOutCs ho hn hw v, ?_, ?_, fun k hk => ?_⟩
    · rw [cs_aesOutCsDo]
      rfl
    · rw [cs_aesOutCsDo, List.length_map, List.length_zipIdx]
    · rw [cs_aesOutCsDo, getD_zipIdx_map _ _ _ hk]
      rfl

end Sys2Proof
end

section
/-! PROOFS. The statements on a step and on the die links: what a retrain and the two controls make of a link, and what a block and a
replay request make of one direction of it. -/

namespace Sys2Proof

open Machine

/-! ## O1: a step -/

theorem step_front {c : Instr} {rest : List Instr} {s : State} (h : s.pending = c :: rest) : step s = exec c { s with pending := rest } := by
  simp only [step, h]

/-- Settles O1: the command at the front leaves the queue, and its meaning acts on the rest. -/
theorem stepRunsFrontCommand : Obligations.StepRunsFrontCommand :=
  ⟨fun c s => step_front (s := { s with pending := c :: s.pending }) rfl, fun _ _ _ h => step_front h⟩

/-! ## O7: retraining -/

theorem exec_dlRetrainEnd {link : Nat} (ok : Bool) (s : State) (h : link < 10) :
    exec (.dlRetrainEnd link ok) s = .next (dlRetrainEndDo link ok s) :=
  onWf_of_wf (i := .dlRetrainEnd link ok) (decide_eq_true h)

theorem exec_retrain {who link : Nat} {s : State} (h : link < 10) (hw : mayWrite who (0x1008 + link * 0x80) s) :
    exec (.retrain who link) s = .next (retrainDo link s) := by
  rw [← gated_granted (f := retrainDo link) hw]
  exact onWf_of_wf (i := .retrain who link) (by simp only [Instr.wf, hw.1, h, decide_true, Bool.and_self])

theorem exec_holdDown {who link : Nat} {s : State} (on : Bool) (h : link < 10) (hw : mayWrite who (0x1008 + link * 0x80) s) :
    exec (.holdDown who link on) s = .next (holdDownDo link on s) := by
  rw [← gated_granted (f := holdDownDo link on) hw]
  exact onWf_of_wf (i := .holdDown who link on) (by simp only [Instr.wf, hw.1, h, decide_true, Bool.and_self])

section
variable {n : Nat} {s : State}

theorem retrainEnd_up (h : (linkOf n s).state = 3) :
    dlRetrainEndDo n true s = reroute (setLink n { linkOf n s with state := 2, retrainFails := 0 } s) := by
  rw [dlRetrainEndDo, if_neg (not_not_intro h), if_pos rfl]

/-- A failed retrain is counted; the third in a row leaves the link DOWN (R30). -/
theorem retrainEnd_failed (h : (linkOf n s).state = 3) :
    dlRetrainEndDo n false s =
      let t := setLink n { linkOf n s with retrainFails := (linkOf n s).retrainFails + 1 } s
      if 3 ≤ (linkOf n s).retrainFails + 1 then linkDown n t else retrain n (linkOf n s).cause t := by
  rw [dlRetrainEndDo, if_neg (not_not_intro h), if_neg Bool.false_ne_true]

theorem retrainDo_free (h : (linkOf n s).holdDown = false) :
    retrainDo n s = retrain n 255 (setLink n { linkOf n s with retrainFails := 0 } s) := by
  rw [retrainDo, linkOf_updLink, h, if_neg Bool.false_ne_true, updLink]

/-- Outside DEBUG_ENABLED the bit changes nothing (R34). -/
theorem holdDownDo_ignored (on : Bool) (h : s.keys.life ≠ 2) : holdDownDo n on s = s := if_pos (.inl h)

theorem holdDownDo_holds (hl : s.keys.life = 2) (h : (linkOf n s).holdDown = false) :
    holdDownDo n true s = if (linkOf n s).state = 0 then setLink n { linkOf n s with holdDown := true } s
      else linkDown n (setLink n { linkOf n s with holdDown := true } s) := by
  rw [holdDownDo, if_neg (by simp [hl, h]), if_pos rfl, updLink]
  simp only [linkOf_setLink]

theorem holdDownDo_letsGo (hl : s.keys.life = 2) (h : (linkOf n s).holdDown = true) :
    holdDownDo n false s = if 3 ≤ (linkOf n s).retrainFails then setLink n { linkOf n s with holdDown := false } s
      else retrain n 255 (setLink n { linkOf n s with holdDown := false } s) := by
  rw [holdDownDo, if_neg (by simp [hl, h]), if_neg Bool.false_ne_true, letGo, linkOf_updLink, updLink]

end

/-- Settles O7: the end of a retrain by its outcome, each control by whether the link is held and the module in DEBUG_ENABLED. -/
theorem dieLinkRetraining : Obligations.DieLinkRetraining := by
  refine ⟨?_, ?_, ?_, ?_, ?_, ?_, ?_⟩
  · intro link s hl h3
    rw [exec_dlRetrainEnd _ s hl, retrainEnd_up h3]
  · intro link s hl h3 hf
    rw [exec_dlRetrainEnd _ s hl, retrainEnd_failed h3]
    exact congrArg _ (if_pos (by omega))
  · intro link s hl h3 hf
    rw [exec_dlRetrainEnd _ s hl, retrainEnd_failed h3]
    exact congrArg _ (if_neg (by omega))
  · intro who link s hl hw hd
    rw [exec_retrain hl hw, retrainDo_free hd]
  · intro who link s hl hw hlife hd
    rw [exec_holdDown _ hl hw, holdDownDo_holds hlife hd]
  · intro who link s hl hw hlife hd
    rw [exec_holdDown _ hl hw, holdDownDo_letsGo hlife hd]
  · intro who link on s hl hw hlife
    rw [exec_holdDown _ hl hw, holdDownDo_ignored on hlife]

/-! ## O6: blocks -/

theorem exec_dlBlockRx {link dir seq : Nat} {sent got : List Word128} (crc : BitVec 32) (s : State) (hl : link < 10) (hd : dir < 2)
    (hq : seq < 1024) (hs : sent.length = 16) (hg : got.length = 16) :
    exec (.dlBlockRx link dir sent got seq crc) s = .next (dlBlockDo link dir sent got seq crc s) :=
  onWf_of_wf (i := .dlBlockRx link dir sent got seq crc) (by simp only [Instr.wf, hl, hd, hq, hs, hg, decide_true, Bool.and_self])

theorem exec_dlReplayRequest {link dir seq : Nat} (s : State) (hl : link < 10) (hd : dir < 2) (hq : seq < 1024) :
    exec (.dlReplayRequest link dir seq) s = .next (dlReplayDo link dir seq s) :=
  onWf_of_wf (i := .dlReplayRequest link dir seq) (by simp only [Instr.wf, hl, hd, hq, decide_true, Bool.and_self])

@[simp] theorem side_setSide (l : DlLink) (d : Nat) (v : DlDir) : (l.setSide d v).side d = v := by
  by_cases h : d = 0 <;> simp [DlLink.side, DlLink.setSide, h]

/-- Direction `d` of link `n` becomes `v`. -/
def putSide (n d : Nat) (v : DlDir) (s : State) : State := updLink n (fun l => l.setSide d v) s

@[simp] theorem linkOf_putSide (n d : Nat) (v : DlDir) (s : State) : linkOf n (putSide n d v s) = (linkOf n s).setSide d v := linkOf_updLink _ _ _

theorem linkOf_putSide_ne {n m : Nat} (d : Nat) (v : DlDir) (s : State) (h : m ≠ n) : linkOf m (putSide n d v s) = linkOf m s :=
  linkOf_updLink_ne _ _ _ _ h

@[simp] theorem putSide_frame (n d : Nat) (v : DlDir) (s : State) : (putSide n d v s).out = s.out ∧
    (putSide n d v s).dram = s.dram ∧ (putSide n d v s).hostMem = s.hostMem := ⟨rfl, rfl, rfl⟩

@[simp] theorem ctrGet_putSide (p n d : Nat) (v : DlDir) (s : State) : ctrGet p (putSide n d v s) = ctrGet p s := rfl

theorem linkOf_congr {s t : State} (h : t.links = s.links) (n : Nat) : linkOf n t = linkOf n s := by simp only [linkOf, h]

@[simp] theorem linkOf_count (n off k : Nat) (s : State) : linkOf n (count off k s) = linkOf n s := rfl

@[simp] theorem linkOf_emit (n : Nat) (o : Out) (s : State) : linkOf n (emit o s) = linkOf n s := rfl

theorem side_received (n d : Nat) (v : DlDir) (o : Out) (off : Nat) (s : State) :
    (linkOf n (emit o (count off 1 (putSide n d v s)))).side d = v := by
  rw [linkOf_emit, linkOf_count, linkOf_putSide, side_setSide]

@[simp] theorem ctrGet_emit (p : Nat) (o : Out) (s : State) : ctrGet p (emit o s) = ctrGet p s := rfl

/-- What the receiver looks at is no part of what the transmitter's replay buffer takes (R28). -/
theorem sendBlock_receiver (v : DlDir) (sent : List Word128) (seq : Nat) :
    (sendBlock v sent seq).rxNext = v.rxNext ∧ (sendBlock v sent seq).resent = v.resent ∧ (sendBlock v sent seq).fails = v.fails ∧
      ∀ q, released (sendBlock v sent seq) q = released v q := by
  simp only [sendBlock]
  split <;> exact ⟨rfl, rfl, rfl, fun _ => rfl⟩

/-- A number that was released before is not the awaited one (R32). -/
theorem ne_rxNext_of_released {v : DlDir} {seq : Nat} (h : released v seq = true) : seq ≠ v.rxNext := by
  simp only [released, Bool.and_eq_true, decide_eq_true_eq] at h
  omega

/-- The receiver has released the awaited block. -/
def releasedOne (v : DlDir) (seq : Nat) : DlDir :=
  { v with rxNext := (seq + 1) % 1024, discarding := false, wanted := none, fails := 0, resent := v.resent.filter (fun b => b != seq),
           buffer := v.buffer.filter (fun b => b.1 != seq) }

section
variable {n d seq : Nat} {sent got : List Word128} {crc : BitVec 32} {s : State}

theorem dlBlockDo_awaited (hu : linkUp n s = true) (hc : blockCrc got seq = crc) (hq : seq = ((linkOf n s).side d).rxNext) :
    dlBlockDo n d sent got seq crc s = emit (.dlRelease n d seq) (count (dlCtr n d 0) 1
      (putSide n d (releasedOne (sendBlock ((linkOf n s).side d) sent seq) seq)
        (if 2 ≤ ((linkOf n s).side d).resent.count seq then count (dlCtr n d 3) 1 s else s))) := by
  obtain ⟨hrx, hre, -, -⟩ := sendBlock_receiver ((linkOf n s).side d) sent seq
  simp only [dlBlockDo, hu, hc, hrx, hre, Bool.not_true, Bool.false_eq_true, bne_self_eq_false, if_false]
  rw [if_pos hq, releasedOne, hre]
  rfl

/-- The block that the receiver awaits fails its CRC, short of the eighth time in a row (R28, R30). -/
theorem dlBlockDo_failed (hu : linkUp n s = true) (hc : blockCrc got seq ≠ crc) (hq : seq = ((linkOf n s).side d).rxNext)
    (hf : ((linkOf n s).side d).fails < 7) :
    dlBlockDo n d sent got seq crc s = emit (.dlRequest n d seq) (count (dlCtr n d 1) 1
      (putSide n d (awaitReplay (sendBlock ((linkOf n s).side d) sent seq)) s)) := by
  obtain ⟨hrx, -, hfails, -⟩ := sendBlock_receiver ((linkOf n s).side d) sent seq
  have hseq : (seq != (sendBlock ((linkOf n s).side d) sent seq).rxNext) = false := by rw [hrx, ← hq, bne_self_eq_false]
  have hshort : (awaitReplay (sendBlock ((linkOf n s).side d) sent seq)).fails ≠ 8 := by simp only [awaitReplay, hfails]; omega
  simp only [dlBlockDo, hu, hseq, bne_iff_ne.mpr hc, Bool.not_true, Bool.and_false, Bool.false_eq_true, if_false, if_true]
  rw [if_neg hshort, show (awaitReplay (sendBlock ((linkOf n s).side d) sent seq)).rxNext = seq from hrx.trans hq.symm]
  rfl

theorem dlBlockDo_duplicate (hu : linkUp n s = true) (hc : blockCrc got seq = crc)
    (hr : released ((linkOf n s).side d) seq = true) :
    dlBlockDo n d sent got seq crc s = count (dlCtr n d 2) 1 (putSide n d (sendBlock ((linkOf n s).side d) sent seq) s) := by
  obtain ⟨hrx, -, -, hrel⟩ := sendBlock_receiver ((linkOf n s).side d) sent seq
  simp only [dlBlockDo, hu, hc, hrx, hrel, hr, Bool.not_true, Bool.false_eq_true, bne_self_eq_false, if_false, if_true]
  rw [if_neg (ne_rxNext_of_released hr)]
  rfl

/-- The transmitter has served the replay request: it resends what its buffer holds from block `seq` on (R28). -/
def replayServed (v : DlDir) (seq : Nat) : DlDir :=
  { v with wanted := none, resent := v.resent ++ (v.buffer.dropWhile (fun b => b.1 != seq)).map (·.1) }

theorem dlReplayDo_serves (hu : linkUp n s = true) (hw : ((linkOf n s).side d).wanted = some seq)
    (hb : ((linkOf n s).side d).buffer.any (fun b => b.1 == seq) = true) :
    dlReplayDo n d seq s = count (dlCtr n d 2) 1 (putSide n d (replayServed ((linkOf n s).side d) seq)
      ((((linkOf n s).side d).buffer.dropWhile (fun b => b.1 != seq)).foldl (fun s b => emit (.dlResend n d b.1) s) s)) := by
  simp only [dlReplayDo, hu, hw, hb, BEq.rfl, Bool.and_self, if_true]
  rfl

end

/-- A counter that rises where `p` holds. -/
theorem countedIf_facts (p : Prop) [Decidable p] (off : Nat) (s : State) :
    (if p then count off 1 s else s).out = s.out ∧ (if p then count off 1 s else s).links = s.links ∧
      (if p then count off 1 s else s).dram = s.dram ∧ (if p then count off 1 s else s).hostMem = s.hostMem ∧
      ctrGet off (if p then count off 1 s else s) = (if p then satAdd 64 (ctrGet off s) 1 else ctrGet off s) ∧
      ∀ q, q ≠ off → ctrGet q (if p then count off 1 s else s) = ctrGet q s := by
  split
  · exact ⟨rfl, rfl, rfl, rfl, ctrGet_count _ _ _, fun q h => ctrGet_count_ne _ _ _ _ h⟩
  · exact ⟨rfl, rfl, rfl, rfl, rfl, fun _ _ => rfl⟩

/-- The four counters of a direction lie apart (R34). -/
theorem dlCtr_ne (n d : Nat) {a b : Nat} (h : a ≠ b) : dlCtr n d a ≠ dlCtr n d b := by
  simp only [dlCtr]
  omega

/-- What is emitted in turn stands newest first before what had left already. -/
theorem foldl_emit {α : Type} (f : α → Out) (l : List α) (s : State) :
    l.foldl (fun s x => emit (f x) s) s = { s with out := (l.map f).reverse ++ s.out } := by
  induction l generalizing s with
  | nil => rfl
  | cons x r ih =>
    rw [List.foldl_cons, ih, List.map_cons, List.reverse_cons, List.append_assoc]
    rfl

/-- Settles O6: a block by its CRC and its number against the awaited one, a replay request by the blocks that it brings again. -/
theorem dieLinkBlocks : Obligations.DieLinkBlocks := by
  refine ⟨?_, ?_, ?_, ?_⟩
  · intro link dir sent got seq crc s hl hd hq hs hg hu hc hnext
    refine ⟨_, (exec_dlBlockRx crc s hl hd hq hs hg).trans (congrArg _ (dlBlockDo_awaited hu hc hnext)), ?_⟩
    obtain ⟨hout, hlinks, hdram, hhost, hover, hctr⟩ :=
      countedIf_facts (2 ≤ ((linkOf link s).side dir).resent.count seq) (dlCtr link dir 3) s
    refine ⟨congrArg (Out.dlRelease link dir seq :: ·) hout, ?_, ?_, ?_, ?_, fun n hn => ?_, by simpa using hdram, by simpa using hhost⟩
    · rw [ctrGet_emit, ctrGet_count, ctrGet_putSide, hctr _ (dlCtr_ne link dir (by decide))]
    · rw [side_received]
      rfl
    · rw [side_received]
      rfl
    · rw [ctrGet_emit, ctrGet_count_ne _ _ _ _ (dlCtr_ne link dir (by decide)), ctrGet_putSide, hover]
    · rw [linkOf_emit, linkOf_count, linkOf_putSide_ne _ _ _ hn, linkOf_congr hlinks]
  · intro link dir sent got seq crc s hl hd hq hs hg hu hc hnext hf
    obtain ⟨hrx, -, hfails, -⟩ := sendBlock_receiver ((linkOf link s).side dir) sent seq
    refine ⟨_, (exec_dlBlockRx crc s hl hd hq hs hg).trans (congrArg _ (dlBlockDo_failed hu hc hnext hf)), rfl, ?_, ?_⟩
    · rw [ctrGet_emit, ctrGet_count, ctrGet_putSide]
    · rw [side_received]
      exact ⟨hrx, rfl, congrArg some (hrx.trans hnext.symm), congrArg (· + 1) hfails, rfl, rfl⟩
  · intro link dir sent got seq crc s hl hd hq hs hg hu hc hr
    refine ⟨_, (exec_dlBlockRx crc s hl hd hq hs hg).trans (congrArg _ (dlBlockDo_duplicate hu hc hr)), by simp, by simp, ?_, by simp, by simp⟩
    rw [linkOf_count, linkOf_putSide, side_setSide]
    exact (sendBlock_receiver _ _ _).1
  · intro link dir seq s hl hd hq hu hw hb
    refine ⟨_, (exec_dlReplayRequest s hl hd hq).trans (congrArg _ (dlReplayDo_serves hu hw hb)), ?_⟩
    rw [foldl_emit]
    refine ⟨rfl, ctrGet_count _ _ _, ?_, ?_, rfl, rfl⟩
    · rw [linkOf_count, linkOf_putSide, side_setSide]
      rfl
    · rw [linkOf_count, linkOf_putSide, side_setSide]
      rfl

end Sys2Proof
end

section
/-! PROOFS. The statement on TIME_PTP_SEND: which frame leaves, and where its transmit timestamp goes. -/

namespace Sys2Proof

open Machine

/-! ## O10: sending PTP frames -/

theorem exec_timePtpSend (src : CmdSrc) (s : State) (h : src.wf = true) : exec (.timePtpSend src) s = .next (command 0xA1 ptpSendBody src s) :=
  onWf_of_wf (i := .timePtpSend src) h

/-- The frame that word 1 names, as it lies in host memory (R365). -/
abbrev ptpFrame (r : Req) (s : State) : List Byte := hostBytes (fld r.w1 63 0) (fld r.w1 75 64) s

/-- The requester may send the frame, which holds its header, on a lane that sends PTP frames (R361, R365). -/
structure PtpSendable (r : Req) (s : State) : Prop where
  owner : r.owner = true
  long : 60 ≤ fld r.w1 75 64
  short : fld r.w1 75 64 ≤ 2044
  header : fld r.w1 95 84 + 34 ≤ fld r.w1 75 64
  lane : ((isTremund (fld r.w1 82 76) s && decide (fld r.w1 75 64 - fld r.w1 95 84 ≤ 2032)) ||
    (isEth (fld r.w1 82 76) s && isPort (fld r.w1 82 76) s)) = true

/-- The one-step insertion of the frame, which none is made for where bit 83 is 0 (R361). -/
def ptpInserted (r : Req) (s : State) : Option (List Byte) :=
  if bitOf r.w1 83 = true then
    oneStep (ptpFrame r s) (fld r.w1 95 84) (txStamp (fld r.w1 82 76) s) (fld r.w3 63 0) (fld r.w3 79 64)
  else some (ptpFrame r s)

section
variable {r : Req} {s : State}

/-- A frame that takes its insertion leaves; without one-step its timestamp goes to the address given (R361, R365). -/
theorem ptpSend_sends {g : List Byte} (h : PtpSendable r s) (hg : ptpInserted r s = some g) : ptpSendBody r s =
    let t := ptpTransmit (fld r.w1 82 76) (fld r.w1 95 84) (if bitOf r.w1 83 = true then fixUdp g else g) s
    viaWing (fld r.w1 82 76 / 32) (answer (if (!bitOf r.w1 83 && fld r.w2 63 0 != 0) = true
      then hostPut (fld r.w2 63 0) (stampBytes (txStamp (fld r.w1 82 76) s) (fld r.w1 82 76)) t else t) (okWith 0)) := by
  obtain ⟨ho, hlong, hshort, hheader, hlane⟩ := h
  have hfine : ¬(fld r.w1 75 64 < 60 ∨ 2044 < fld r.w1 75 64 ∨ fld r.w1 75 64 < fld r.w1 95 84 + 34 ∨
      (!((isTremund (fld r.w1 82 76) s && decide (fld r.w1 75 64 - fld r.w1 95 84 ≤ 2032)) ||
        (isEth (fld r.w1 82 76) s && isPort (fld r.w1 82 76) s))) = true) := by
    rw [hlane]
    simp only [Bool.not_true, Bool.false_eq_true, or_false]
    omega
  unfold ptpSendBody
  extract_lets addr len lane one off bad f t
  rw [ho, if_neg (by decide), if_neg hfine, show (if one = true then oneStep f off t (df r.w3 63 0) (df r.w3 79 64) else some f) = some g from hg]

theorem ptpSend_plain (h : PtpSendable r s) (hone : bitOf r.w1 83 = false) : ptpSendBody r s =
    let t := ptpTransmit (fld r.w1 82 76) (fld r.w1 95 84) (ptpFrame r s) s
    viaWing (fld r.w1 82 76 / 32) (answer (if fld r.w2 63 0 = 0 then t
      else hostPut (fld r.w2 63 0) (stampBytes (txStamp (fld r.w1 82 76) s) (fld r.w1 82 76)) t) (okWith 0)) := by
  rw [ptpSend_sends h (if_neg (by simp [hone]))]
  by_cases ha : fld r.w2 63 0 = 0 <;> simp [hone, ha]

theorem ptpSend_oneStep {g : List Byte} (h : PtpSendable r s) (hone : bitOf r.w1 83 = true)
    (hg : oneStep (ptpFrame r s) (fld r.w1 95 84) (txStamp (fld r.w1 82 76) s) (fld r.w3 63 0) (fld r.w3 79 64) = some g) :
    ptpSendBody r s = viaWing (fld r.w1 82 76 / 32)
      (answer (ptpTransmit (fld r.w1 82 76) (fld r.w1 95 84) (fixUdp g) s) (okWith 0)) := by
  rw [ptpSend_sends h ((if_pos hone).trans hg)]
  simp [hone]

end

/-- A Sync message takes the timestamp as its originTimestamp, and the fraction in its correctionField (R361). -/
theorem oneStep_sync {f : List Byte} {off : Nat} (t : Stamp) (refCmp refFrac : Nat) (ht : byteAt f off % 16 = 0) (hl : off + 44 ≤ f.length) :
    oneStep f off t refCmp refFrac = some (addCorrection (patch f (off + 34) (beBytes 6 t.sec ++ beBytes 4 t.ns)) off t.frac) := by
  simp only [oneStep, ht, Nat.not_lt.mpr hl, if_true, if_false]

/-- A Pdelay_Resp message takes the time since REF in its correctionField (R361). -/
theorem oneStep_pdelayResp {f : List Byte} {off : Nat} (t : Stamp) (refCmp refFrac : Nat) (ht : byteAt f off % 16 = 3) :
    oneStep f off t refCmp refFrac = some (addCorrection f off
      (cmpDiff (t.sec % 2 ^ 32 * 1000000000 + t.ns) refCmp * 65536 + t.frac - refFrac)) := by
  simp only [oneStep, ht]
  rfl

/-- Settles O10: the frame as it lies or with its insertion, by the one-step bit and the type of its message. -/
theorem timePtpSendInserts : Obligations.TimePtpSendInserts := by
  refine ⟨completes_of exec_timePtpSend ?plain, completes_of exec_timePtpSend ?sync, completes_of exec_timePtpSend ?pdelayResp⟩
  case plain =>
    rintro r s ⟨ho, hlong, hshort, hheader, hlane, hone⟩
    exact (ptpSend_plain ⟨ho, hlong, hshort, hheader, hlane⟩ hone).trans (viaWing_ok _ _)
  case sync =>
    rintro r s ⟨ho, hlong, hshort, hheader, hlane, hone, hroom, htyp⟩
    have hl : fld r.w1 95 84 + 44 ≤ (ptpFrame r s).length := by rwa [ptpFrame, hostBytes, Mem.length_readBytes]
    exact (ptpSend_oneStep ⟨ho, hlong, hshort, hheader, hlane⟩ hone (oneStep_sync _ _ _ htyp hl)).trans (viaWing_ok _ _)
  case pdelayResp =>
    rintro r s ⟨ho, hlong, hshort, hheader, hlane, hone, htyp⟩
    exact (ptpSend_oneStep ⟨ho, hlong, hshort, hheader, hlane⟩ hone (oneStep_pdelayResp _ _ _ htyp)).trans (viaWing_ok _ _)

end Sys2Proof
end

section
/-! PROOFS. The statement on the commands of a named source. -/

namespace Sys2Proof

open Machine

/-! ## O30: the commands of a source -/

theorem exec_ingSrcPolice (src : CmdSrc) (s : State) (h : src.wf = true) : exec (.ingSrcPolice src) s =
    .next (command 0x21 (strictly ([(63, 0)], [(95, 0)], []) srcPoliceBody) src s) := onWf_of_wf (i := .ingSrcPolice src) h

theorem exec_ingSrcHistory (src : CmdSrc) (s : State) (h : src.wf = true) : exec (.ingSrcHistory src) s =
    .next (command 0x22 (strictly ([(63, 0)], [(3, 0)], []) srcHistoryBody) src s) := onWf_of_wf (i := .ingSrcHistory src) h

theorem exec_ingSrcJitter (src : CmdSrc) (s : State) (h : src.wf = true) : exec (.ingSrcJitter src) s =
    .next (command 0x23 (strictly ([(63, 0)], [(41, 0)], []) srcJitterBody) src s) := onWf_of_wf (i := .ingSrcJitter src) h

theorem exec_ingSrcRead (src : CmdSrc) (s : State) (h : src.wf = true) : exec (.ingSrcRead src) s =
    .next (command 0x24 (strictly ([(63, 0)], [(63, 0)], []) srcReadBody) src s) := onWf_of_wf (i := .ingSrcRead src) h

theorem exec_ingSrcStats (src : CmdSrc) (s : State) (h : src.wf = true) : exec (.ingSrcStats src) s =
    .next (command 0x25 (strictly ([(63, 0)], [(63, 0)], [(0, 0)]) srcStatsBody) src s) := onWf_of_wf (i := .ingSrcStats src) h

theorem exec_ingSrcRelease (src : CmdSrc) (s : State) (h : src.wf = true) : exec (.ingSrcRelease src) s =
    .next (command 0x26 (strictly ([(63, 0)], [], []) srcReleaseBody) src s) := onWf_of_wf (i := .ingSrcRelease src) h

/-- The number of the source that word 1 names (R7). -/
abbrev sourceNumber (r : Req) : Nat := handleIdx (fld r.w1 63 0)

/-- The source that word 1 names. -/
abbrev namedSource (r : Req) (s : State) : Source := sourceAt (sourceNumber r) s

/-- A source that the requester may name, whose entry no poison has taken (R94, R378). -/
theorem withSource_named {r : Req} {s : State} (h : sourceNamed r s) (f : Nat → Answer) :
    withSource (fld r.w1 63 0) r s f = viaWing (namedSource r s).wing (f (sourceNumber r)) := by
  obtain ⟨hr, hown, hlost⟩ := h
  have hmay : (r.owner || (namedSource r s).fn == r.fn) = true := by simpa using hown
  simp only [withSource, hr, hmay, if_true, viaEntry_clean hlost]

section
variable {r : Req} {s : State}

theorem srcPolice_sets (hn : sourceNamed r s) (hf : policeFine r.w2 = true) : srcPoliceBody r s = viaWing (namedSource r s).wing
    (answer (setSource (sourceNumber r) (fillBuckets { namedSource r s with wPol := r.w2 } (cmpNow s)) s) (okWith 0)) := by
  rw [srcPoliceBody, withSource_named hn, if_pos hf, updSource]

theorem srcHistory_sets (hn : sourceNamed r s) (hg : (namedSource r s).isGroup = false)
    (hf : fld r.w2 3 0 = 0 ∨ (6 ≤ fld r.w2 3 0 ∧ fld r.w2 3 0 ≤ 13 ∧ poolFits (namedSource r s).wing (ringBytes (fld r.w2 3 0)) s = true)) :
    srcHistoryBody r s = viaWing (namedSource r s).wing
      (answer (setSource (sourceNumber r) { namedSource r s with log2Slots := fld r.w2 3 0, ring := Tab.empty } s) (okWith 0)) := by
  have hsize : ¬(fld r.w2 3 0 ≠ 0 ∧ (fld r.w2 3 0 < 6 ∨ 13 < fld r.w2 3 0)) := by omega
  have hroom : ¬(fld r.w2 3 0 ≠ 0 ∧ (!poolFits (namedSource r s).wing (ringBytes (fld r.w2 3 0)) s) = true) := by
    rcases hf with h0 | ⟨-, -, hfits⟩
    · exact fun h => h.1 h0
    · simp [hfits]
  refine (withSource_named hn _).trans (congrArg (viaWing _) ?_)
  dsimp only
  rw [hg, if_neg Bool.false_ne_true, if_neg hsize, if_neg hroom, updSource]

/-- The buffer as ING_SRC_JITTER leaves it: a new one, one with a new target, or none (R111). -/
def jitterAsked (r : Req) (v : Source) : Source :=
  { v with wJit := r.w2, jit := if bitOf r.w2 41 = true then some { v.jit.getD {} with targetUs := fld r.w2 19 0 } else none }

theorem srcJitter_sets (hn : sourceNamed r s) (hj : jitterFine r.w2 = true) (hg : (namedSource r s).isGroup = false)
    (hfwd : (namedSource r s).forwardOnly = false)
    (hfits : bitOf r.w2 41 = true → (namedSource r s).jit = none → poolFits (namedSource r s).wing jitBytes s = true) :
    srcJitterBody r s = viaWing (namedSource r s).wing
      (answer (setSource (sourceNumber r) (jitterAsked r (namedSource r s)) s) (okWith 0)) := by
  refine (withSource_named hn _).trans (congrArg (viaWing _) ?_)
  dsimp only
  rw [hj, hg, hfwd, jitterAsked]
  cases hon : bitOf r.w2 41 with
  | false => rfl
  | true =>
    cases hjit : (namedSource r s).jit with
    | some j => rfl
    | none =>
      rw [hfits hon hjit]
      rfl

theorem srcRelease_removes (hn : sourceNamed r s) (hl : (namedSource r s).isLocal = false) (hr : (namedSource r s).readers = 0)
    (hs : stitchReads (handleFor .source (sourceNumber r) s) s = false) :
    srcReleaseBody r s = viaWing (namedSource r s).wing (answer (removeSource (sourceNumber r) s) (okWith 0)) := by
  refine (withSource_named hn _).trans (congrArg (viaWing _) ?_)
  rw [hl, hr, hs]
  rfl

end

/-- A source that leaves use (R115): no ring and no buffer, and its number in quarantine. -/
theorem removeSource_facts (i : Nat) (s : State) :
    (identOf .source i (removeSource i s)).used = false ∧ (sourceAt i (removeSource i s)).jit = none ∧
      (sourceAt i (removeSource i s)).log2Slots = 0 ∧ (∀ j, j ≠ i → sourceAt j (removeSource i s) = sourceAt j s) ∧
      (removeSource i s).dram = s.dram ∧ (removeSource i s).hostMem = s.hostMem := by
  unfold removeSource
  extract_lets v t
  have ht : t.media = s.media ∧ t.dram = s.dram ∧ t.hostMem = s.hostMem := by
    simp only [t]
    split <;> exact ⟨rfl, rfl, rfl⟩
  obtain ⟨hmedia, hdram, hhost⟩ := ht
  generalize hu : setSource i { v with ring := Tab.empty, log2Slots := 0, jit := none } t = u
  have hsource : sourceAt i u = { v with ring := Tab.empty, log2Slots := 0, jit := none } := by rw [← hu, sourceAt_setSource]
  have hreleased : ∀ j, sourceAt j (releaseId .source i u) = sourceAt j u := fun _ => rfl
  refine ⟨by rw [identOf_releaseId], by rw [hreleased, hsource], by rw [hreleased, hsource], fun j hj => ?_, ?_, ?_⟩
  · rw [hreleased, ← hu, sourceAt_setSource_ne _ _ _ _ hj, sourceAt, hmedia]
    rfl
  · rw [← hu]
    exact hdram
  · rw [← hu]
    exact hhost

/-- Settles O30: each command by the equation of its body in the case named, the release by what it leaves of the source. -/
theorem sourceCommands : Obligations.SourceCommands := by
  refine ⟨completes_of exec_ingSrcPolice ?police, completes_of exec_ingSrcHistory ?history, completes_of exec_ingSrcJitter ?jitter,
    completes_of exec_ingSrcRead ?read, completes_of exec_ingSrcStats ?stats, completes_of exec_ingSrcRelease ?release, removeSource_facts⟩
  case police =>
    rintro r s ⟨hn, hz, hf⟩
    exact (strictly_clear hz).trans ((srcPolice_sets hn hf).trans (viaWing_ok _ _))
  case history =>
    rintro r s ⟨hn, hz, hg, hf⟩
    exact (strictly_clear hz).trans ((srcHistory_sets hn hg hf).trans (viaWing_ok _ _))
  case jitter =>
    rintro r s ⟨hn, hz, hj, hg, hfwd, hfits⟩
    exact (strictly_clear hz).trans ((srcJitter_sets hn hj hg hfwd hfits).trans (viaWing_ok _ _))
  case read =>
    rintro r s ⟨hn, hz⟩
    exact (strictly_clear hz).trans ((withSource_named hn _).trans (viaWing_ok _ _))
  case stats =>
    rintro r s ⟨hn, hz⟩
    exact (strictly_clear hz).trans ((withSource_named hn _).trans (viaWing_ok _ _))
  case release =>
    rintro r s ⟨hn, hz, hl, hr, hs⟩
    exact (strictly_clear hz).trans ((srcRelease_removes hn hl hr hs).trans (viaWing_ok _ _))

end Sys2Proof
end

section
/-! PROOFS. The statements on the commands of a named leg and of subscriptions. -/

namespace Sys2Proof

open Machine

/-! ## O34: the commands of a leg -/

theorem exec_legBounds (src : CmdSrc) (s : State) (h : src.wf = true) : exec (.legBounds src) s =
    .next (command 0x43 (strictly ([(63, 0)], [(127, 120), (118, 0)], []) legBoundsBody) src s) := onWf_of_wf (i := .legBounds src) h

theorem exec_legShape (src : CmdSrc) (s : State) (h : src.wf = true) : exec (.legShape src) s =
    .next (command 0x44 (strictly ([(63, 0)], [(52, 0)], []) legShapeBody) src s) := onWf_of_wf (i := .legShape src) h

theorem exec_legEstParam (src : CmdSrc) (s : State) (h : src.wf = true) : exec (.legEstParam src) s =
    .next (command 0x45 (strictly ([(63, 0)], [(119, 0)], []) legEstBody) src s) := onWf_of_wf (i := .legEstParam src) h

theorem exec_legRead (src : CmdSrc) (s : State) (h : src.wf = true) : exec (.legRead src) s =
    .next (command 0x46 (strictly ([(63, 0)], [(63, 0)], []) legReadBody) src s) := onWf_of_wf (i := .legRead src) h

theorem exec_legStats (src : CmdSrc) (s : State) (h : src.wf = true) : exec (.legStats src) s =
    .next (command 0x47 (strictly ([(63, 0)], [(63, 0)], [(0, 0)]) legStatsBody) src s) := onWf_of_wf (i := .legStats src) h

theorem exec_legRelease (src : CmdSrc) (s : State) (h : src.wf = true) : exec (.legRelease src) s =
    .next (command 0x48 (strictly ([(63, 0)], [], []) legReleaseBody) src s) := onWf_of_wf (i := .legRelease src) h

/-- The number of the leg that word 1 names (R7). -/
abbrev legNumber (r : Req) : Nat := handleIdx (fld r.w1 63 0)

/-- The leg that word 1 names. -/
abbrev namedLeg (r : Req) (s : State) : Leg := legAt (legNumber r) s

section
variable {r : Req} {s : State}

/-- A leg that the requester may name, whose entry no poison has taken (R124, R378). -/
theorem withLeg_named (h : legNamed r s) (f : Nat → Answer) :
    withLeg (fld r.w1 63 0) r s f = viaWing (namedLeg r s).wing (f (legNumber r)) := by
  obtain ⟨hr, hown, hlost⟩ := h
  have hmay : (r.owner || (namedLeg r s).fn == r.fn) = true := by simpa using hown
  simp only [withLeg, hr, hmay, if_true, viaEntry_clean hlost]

theorem legBounds_sets (hn : legNamed r s) (hf : boundsFine r.w2 = true) : legBoundsBody r s = viaWing (namedLeg r s).wing
    (answer (setLeg (legNumber r) { namedLeg r s with
      wBounds := r.w2, selDue := true
      est := if (namedLeg r s).fbMode = 0 then fld r.w2 71 48 else (namedLeg r s).est } s) (okWith 0)) := by
  rw [legBoundsBody, withLeg_named hn, if_pos hf, updLeg]

theorem legBounds_refused (hn : legNamed r s) (hf : boundsFine r.w2 = false) :
    legBoundsBody r s = (s, some (refuse stNotStarted 0x01)) := by
  rw [legBoundsBody, withLeg_named hn, hf]
  exact viaWing_refused _ _ (by decide)

theorem legShape_sets (hn : legNamed r s) (hf : shapeFine r.w2 = true) : legShapeBody r s = viaWing (namedLeg r s).wing
    (answer (setLeg (legNumber r) { namedLeg r s with wShape := r.w2 } s) (okWith 0)) := by
  rw [legShapeBody, withLeg_named hn, if_pos hf, updLeg]

theorem legEst_sets (hn : legNamed r s) (hf : estFine r.w2 = true) : legEstBody r s = viaWing (namedLeg r s).wing
    (answer (setLeg (legNumber r) { namedLeg r s with wEst := r.w2 } s) (okWith 0)) := by
  rw [legEstBody, withLeg_named hn, if_pos hf, updLeg]

end

/-! ### What leaves with a subscription and with a leg -/

theorem legAt_congr {s t : State} (h : t.media.legs = s.media.legs) (l : Nat) : legAt l t = legAt l s := by simp only [legAt, h]

@[simp] theorem legAt_count (l off k : Nat) (s : State) : legAt l (count off k s) = legAt l s := rfl

@[simp] theorem legAt_releaseId (l : Nat) (k : IdKind) (i : Nat) (s : State) : legAt l (releaseId k i s) = legAt l s := rfl

theorem complete_media (t : Ticket) (r : Reply) (s : State) : (complete t r s).media = s.media := by simp

/-- A packet buffer that loses a copy is all that changes (R143). -/
theorem dropRef_only (b : Nat) (s : State) : ∃ bs, dropRef b s = { s with media := { s.media with buffers := bs } } := by
  simp only [dropRef]
  split
  · exact ⟨_, rfl⟩
  · split <;> exact ⟨_, rfl⟩

/-- What a copy's end leaves as it is. -/
def copiesView (s : State) : Tab Leg × Tab Ident × Mem × Mem := (s.media.legs, s.ids, s.dram, s.hostMem)

theorem copiesView_dropRef (b : Nat) (s : State) : copiesView (dropRef b s) = copiesView s := by
  obtain ⟨bs, h⟩ := dropRef_only b s
  rw [h]
  rfl

/-- The copies named leave the leg's queue, and no other copy does (R125). -/
theorem dropCopies_facts (l : Nat) (bad : Copy → Bool) (s : State) :
    (legAt l (dropCopies l bad s)).queue = (legAt l s).queue.filter (fun c => !bad c) ∧ (dropCopies l bad s).ids = s.ids ∧
      (dropCopies l bad s).dram = s.dram ∧ (dropCopies l bad s).hostMem = s.hostMem := by
  unfold dropCopies
  extract_lets g gone s1 s2
  have h2 : (legAt l s2).queue = (legAt l s).queue.filter (fun c => !bad c) ∧ s2.ids = s.ids ∧ s2.dram = s.dram ∧ s2.hostMem = s.hostMem := by
    simp only [s2]
    split
    · exact ⟨by rw [legAt_setLeg], rfl, rfl, rfl⟩
    · refine ⟨?_, rfl, rfl, rfl⟩
      rw [legAt_count, legCount, legAt_updLeg, legAt_setLeg]
  obtain ⟨hq, hids, hdram, hhost⟩ := h2
  obtain ⟨glegs, gids, gdram, ghost⟩ : _ ∧ _ ∧ _ ∧ _ := by
    simpa only [copiesView, Prod.mk.injEq] using foldl_keeps copiesView (fun t c => copiesView_dropRef (Copy.buffer c) t) gone s2
  exact ⟨by rw [legAt_congr glegs, hq], gids.trans hids, gdram.trans hdram, ghost.trans hhost⟩

/-- A subscription that leaves use (R125): its number is in quarantine, and none of its copies is queued. -/
theorem closeSub_facts (j : Nat) (s : State) : (identOf .sub j (closeSub j s)).used = false ∧ (closeSub j s).dram = s.dram ∧
    (closeSub j s).hostMem = s.hostMem ∧ ∀ c ∈ (legAt (subAt j s).leg (closeSub j s)).queue, c.sub ≠ handleFor .sub j s := by
  obtain ⟨hq, -, hdram, hhost⟩ := dropCopies_facts (subAt j s).leg (fun c => c.sub == handleFor .sub j s) s
  unfold closeSub
  extract_lets v h g s1 others s2 s3
  have h2 : s2.media = s1.media ∧ s2.dram = s1.dram ∧ s2.hostMem = s1.hostMem := by
    simp only [s2]
    split <;> exact ⟨rfl, rfl, rfl⟩
  obtain ⟨hmedia, h2dram, h2host⟩ := h2
  have hqueue : ∀ t : State, t.media.legs = s3.media.legs → ∀ c ∈ (legAt v.leg t).queue, c.sub ≠ h := by
    intro t ht c hc
    rw [legAt_congr (ht.trans (congrArg Media.legs hmedia)), hq] at hc
    simpa using (List.mem_filter.mp hc).2
  split
  · next t _ =>
    refine ⟨?_, ?_, ?_, hqueue _ (by rw [complete_media]; rfl)⟩
    · rw [identOf_congr (s := s3) (by simp), identOf_releaseId]
    · simpa [s3] using h2dram.trans hdram
    · simpa [s3] using h2host.trans hhost
  · exact ⟨by rw [identOf_releaseId], h2dram.trans hdram, h2host.trans hhost, hqueue _ rfl⟩

theorem closeSub_memories (j : Nat) (s : State) : (closeSub j s).dram = s.dram ∧ (closeSub j s).hostMem = s.hostMem := by
  obtain ⟨-, hdram, hhost, -⟩ := closeSub_facts j s
  exact ⟨hdram, hhost⟩

/-- A leg that leaves use (R125): its number is in quarantine, it holds no copy, and no node serves it. -/
theorem closeLeg_facts (l : Nat) (s : State) : (identOf .leg l (closeLeg l s)).used = false ∧ (legAt l (closeLeg l s)).queue = [] ∧
    (legAt l (closeLeg l s)).active = false ∧ (closeLeg l s).dram = s.dram ∧ (closeLeg l s).hostMem = s.hostMem := by
  unfold closeLeg
  extract_lets s1
  have hdram : s1.dram = s.dram := foldl_keeps State.dram (fun t j => (closeSub_memories j t).1) _ _
  have hhost : s1.hostMem = s.hostMem := foldl_keeps State.hostMem (fun t j => (closeSub_memories j t).2) _ _
  obtain ⟨hq, -, gdram, ghost⟩ := dropCopies_facts l (fun _ => true) s1
  generalize dropCopies l (fun _ => true) s1 = s2 at hq gdram ghost
  have hleg : legAt l (releaseId .leg l (updLeg l (fun v => { v with active := false }) s2)) = { legAt l s2 with active := false } := by
    rw [legAt_releaseId, legAt_updLeg]
  refine ⟨by rw [identOf_releaseId], ?_, by rw [hleg], gdram.trans hdram, ghost.trans hhost⟩
  rw [hleg, hq]
  exact List.filter_eq_nil_iff.mpr fun _ _ => Bool.false_ne_true

/-- Settles O34: each command by the equation of its body in the case named, the release by what it leaves of the leg. -/
theorem legCommands : Obligations.LegCommands := by
  refine ⟨completes_of exec_legBounds ?bounds, completes_of exec_legBounds ?boundsRefused, completes_of exec_legShape ?shape,
    completes_of exec_legEstParam ?est, completes_of exec_legRead ?read, completes_of exec_legStats ?stats,
    completes_of exec_legRelease ?release, closeLeg_facts⟩
  case bounds =>
    rintro r s ⟨hn, hz, hf⟩
    exact (strictly_clear hz).trans ((legBounds_sets hn hf).trans (viaWing_ok _ _))
  case boundsRefused =>
    rintro r s ⟨hn, hf⟩
    exact strictly_refused (legBounds_refused hn hf) rfl
  case shape =>
    rintro r s ⟨hn, hz, hf⟩
    exact (strictly_clear hz).trans ((legShape_sets hn hf).trans (viaWing_ok _ _))
  case est =>
    rintro r s ⟨hn, hz, hf⟩
    exact (strictly_clear hz).trans ((legEst_sets hn hf).trans (viaWing_ok _ _))
  case read =>
    rintro r s ⟨hn, hz⟩
    exact (strictly_clear hz).trans ((withLeg_named hn _).trans (viaWing_ok _ _))
  case stats =>
    rintro r s ⟨hn, hz⟩
    exact (strictly_clear hz).trans ((withLeg_named hn _).trans (viaWing_ok _ _))
  case release =>
    rintro r s ⟨hn, hz⟩
    exact (strictly_clear hz).trans ((withLeg_named hn _).trans (viaWing_ok _ _))

/-! ## O35: subscriptions -/

theorem exec_subCreate (src : CmdSrc) (s : State) (h : src.wf = true) : exec (.subCreate src) s =
    .next (command 0x49 (strictly ([(127, 0)], [(98, 80), (78, 0)], [(21, 0)]) subCreateBody) src s) := onWf_of_wf (i := .subCreate src) h

theorem exec_subBounds (src : CmdSrc) (s : State) (h : src.wf = true) : exec (.subBounds src) s =
    .next (command 0x4A (strictly ([(63, 0)], [(98, 80)], []) subBoundsBody) src s) := onWf_of_wf (i := .subBounds src) h

theorem exec_subRead (src : CmdSrc) (s : State) (h : src.wf = true) : exec (.subRead src) s =
    .next (command 0x4B (strictly ([(63, 0)], [(63, 0)], []) subReadBody) src s) := onWf_of_wf (i := .subRead src) h

theorem exec_subRelease (src : CmdSrc) (s : State) (h : src.wf = true) : exec (.subRelease src) s =
    .next (command 0x4C (strictly ([(63, 0)], [], []) subReleaseBody) src s) := onWf_of_wf (i := .subRelease src) h

/-- An OK of work that joins two Wings: DEGRADED while the traffic between them, or that of the work's own Wing, is rerouted (R31). -/
theorem viaWing_viaPair (w x y det : Nat) (t : State) : viaWing w (viaPair x y (answer t (okWith det))) =
    (t, some (if pairRerouted x y t = true then ⟨stDegraded, 1, det⟩ else okVia w det t)) := by
  cases hp : pairRerouted x y t with
  | true => simp [viaPair, degradedIf, viaWing, answer, okWith, hp, stDegraded, stOk]
  | false => simpa [viaPair, degradedIf, answer, hp] using viaWing_okWith w det t

/-! ### A subscription opens -/

/-- The subscription that SUB_CREATE asks for (R123). -/
def subAsked (r : Req) : Machine.Sub := { fn := reqFn r, w1 := r.w1, w2 := r.w2, w3 := r.w3 }

theorem subAt_congr {s t : State} (h : t.media.subs = s.media.subs) (j : Nat) : subAt j t = subAt j s := by simp only [subAt, h]

/-- What a new subscription leaves as it is, once it stands in its table and its leg has a selection due (R119, R132). -/
theorem openSub_facts (i l k : Nat) (v : Machine.Sub) (s : State) :
    (identOf .sub i (openSub i l k v s)).used = true ∧
      (∃ n q, subAt i (openSub i l k v s) = { v with leg := l, source := handleFor .source k s, startAt := n, rtxSeq := q }) ∧
      (∀ j, j ≠ i → subAt j (openSub i l k v s) = subAt j s) ∧ (legAt l (openSub i l k v s)).selDue = true ∧
      (openSub i l k v s).hq = s.hq ∧ (openSub i l k v s).dram = s.dram ∧ (openSub i l k v s).hostMem = s.hostMem := by
  unfold openSub
  extract_lets slot next s1 s2
  have hend : ∀ t, t = (if (legAt l s2).kind = 1 then s2 else takeRecords (legAt l s2).slot true v.ssrcs s2) →
      t.ids = s2.ids ∧ t.media = s2.media ∧ t.hq = s.hq ∧ t.dram = s.dram ∧ t.hostMem = s.hostMem := by
    rintro t rfl
    split <;> exact ⟨rfl, rfl, rfl, rfl, rfl⟩
  generalize (if (legAt l s2).kind = 1 then s2 else takeRecords (legAt l s2).slot true v.ssrcs s2) = t at hend
  obtain ⟨hids, hmedia, hhq, hdram, hhost⟩ := hend t rfl
  have hsub : ∀ j, subAt j t = subAt j s1 := fun j =>
    subAt_congr (s := s1) (congrArg Media.subs hmedia : t.media.subs = s2.media.subs) j
  refine ⟨?_, ⟨_, _, (hsub i).trans (subAt_setSub _ _ _)⟩, fun j hj => (hsub j).trans (subAt_setSub_ne _ _ _ _ hj), ?_, hhq, hdram, hhost⟩
  · rw [identOf_congr hids, identOf_congr (s := allocId .sub i s) (t := s2) rfl, identOf_allocId]
  · rw [legAt_congr (congrArg Media.legs hmedia), legAt_updLeg]

section
variable {r : Req} {s : State}

/-- SUB_CREATE once every check has passed (R95, R119, R123, R124). -/
theorem subCreate_opens {i k : Nat} (hn : legNamed r s) (hk : resolve .source (fld r.w1 127 64) s = .ok k)
    (hown : r.owner = true ∨ (sourceAt k s).fn = r.fn) (hmins : minsFine r.w2 = true) (hlevel : fld r.w3 21 18 ≤ 14) (hdd : fld r.w3 17 14 ≤ 14)
    (htm : (namedLeg r s).kind = 1 → (subAsked r).ssrc < 2 ^ 20 ∧ ownsStream r (namedLeg r s).wing (subAsked r).ssrc s = true)
    (hnew : ∀ c ∈ legSubs (legNumber r) s, ∀ x ∈ c.2.ssrcs, (subAsked r).ssrcs.contains x = false)
    (hroom : (legSubs (legNumber r) s).length < 64) (hi : lowestFree .sub 0 4194304 s = some i) :
    subCreateBody r s = viaWing (namedLeg r s).wing (viaPair (sourceAt k s).wing (namedLeg r s).wing
      (answer (openSub i (legNumber r) k (subAsked r) s) (okWith (handleFor .sub i s)))) := by
  refine (withLeg_named hn _).trans (congrArg (viaWing _) ?_)
  have hmay : ¬(!(r.owner || (sourceAt k s).fn == r.fn)) = true := by rcases hown with h | h <;> simp [h]
  have hfine : ¬(!minsFine r.w2 || decide (14 < fld r.w3 21 18) || decide (14 < fld r.w3 17 14) ||
      ((namedLeg r s).kind == 1 && decide (2 ^ 20 ≤ (subAsked r).ssrc))) = true := by
    simp only [hmins, Nat.not_lt.mpr hlevel, Nat.not_lt.mpr hdd, Bool.not_true, decide_false, Bool.false_or, Bool.and_eq_true, beq_iff_eq,
      decide_eq_true_eq, not_and, Nat.not_le]
    exact fun h => (htm h).1
  have hstream : ¬((namedLeg r s).kind = 1 ∧ (!ownsStream r (namedLeg r s).wing (subAsked r).ssrc s) = true) := by
    rintro ⟨h1, h⟩
    simp [(htm h1).2] at h
  have hunused : ¬(legSubs (legNumber r) s).any (fun c => c.2.ssrcs.any (fun x => (subAsked r).ssrcs.contains x)) = true := by
    simpa using hnew
  simp only [hk]
  refine (if_neg hmay).trans ((if_neg hfine).trans ((if_neg hstream).trans ((if_neg hunused).trans
    ((if_neg (Nat.not_le.mpr hroom)).trans ?_))))
  rw [hi]
  rfl

/-- The layer bounds, the minimums and the pause that SUB_BOUNDS replaces, bits 99:80 (R123). -/
def boundsReplaced (r : Req) (v : Machine.Sub) : Machine.Sub :=
  { v with w2 := pack128 [(100, 28, fld v.w2 127 100), (80, 20, fld r.w2 99 80), (0, 80, fld v.w2 79 0)] }

/-- A subscription changes, and a selection of its leg is due (R132). -/
theorem changedSub_facts (i l : Nat) (v : Machine.Sub) (s : State) :
    let t := updLeg l (fun g => { g with selDue := true }) (setSub i v s)
    subAt i t = v ∧ (∀ j, j ≠ i → subAt j t = subAt j s) ∧ (legAt l t).selDue = true :=
  ⟨subAt_setSub i v s, fun j hj => subAt_setSub_ne i j v s hj, by rw [legAt_updLeg]⟩

/-- A subscription that the requester may name. -/
theorem withSub_subNamed (h : subNamed r s) (f : Nat → Answer) :
    withSub (fld r.w1 63 0) r s f = viaWing (legAt (subAt (subNumber r) s).leg s).wing (f (subNumber r)) := by
  obtain ⟨hr, hown, hlost⟩ := h
  exact withSub_resolved hr (by simpa using hown) hlost f

theorem subBounds_replaces (hn : subNamed r s) (hf : minsFine r.w2 = true) :
    subBoundsBody r s = viaWing (legAt (subAt (subNumber r) s).leg s).wing
      (answer (updLeg (subAt (subNumber r) s).leg (fun v => { v with selDue := true })
        (setSub (subNumber r) (boundsReplaced r (subAt (subNumber r) s)) s)) (okWith 0)) := by
  refine (withSub_subNamed hn _).trans (congrArg (viaWing _) ((if_pos hf).trans ?_))
  dsimp only
  rw [subAt_updSub]
  rfl

theorem subRelease_closes (hn : subNamed r s) (hf : (subAt (subNumber r) s).inFrame = false) :
    subReleaseBody r s = viaWing (legAt (subAt (subNumber r) s).leg s).wing (answer (closeSub (subNumber r) s) (okWith 0)) := by
  rw [subReleaseBody, withSub_subNamed hn, hf, if_neg Bool.false_ne_true]

theorem subRelease_waits (hn : subNamed r s) (hf : (subAt (subNumber r) s).inFrame = true) (hr : (subAt (subNumber r) s).releasing = none) :
    subReleaseBody r s = (setSub (subNumber r) { subAt (subNumber r) s with releasing := some r.tk } s, none) := by
  rw [subReleaseBody, withSub_subNamed hn, hf, if_pos rfl, hr]
  rfl

end

/-- Settles O35: the creation by what opens, the other commands by the equations of their bodies, the release by what closes. -/
theorem subscriptionCommands : Obligations.SubscriptionCommands := by
  refine ⟨completesSo_of exec_subCreate ?create, completesSo_of exec_subBounds ?bounds, completes_of exec_subRead ?read,
    completes_of exec_subRelease ?release, begins_of exec_subRelease ?waits, closeSub_facts⟩
  case create =>
    rintro r s ⟨hn, hz, hk, hown, hmins, hlevel, hdd, htm, hnew, hroom, hfree⟩
    obtain ⟨i, hi⟩ := Option.isSome_iff_exists.mp hfree
    obtain ⟨hused, ⟨n, q, hsub⟩, hothers, hdue, hhq, hdram, hhost⟩ :=
      openSub_facts i (legNumber r) (handleIdx (fld r.w1 127 64)) (subAsked r) s
    refine ⟨_, _, (strictly_clear hz).trans ((subCreate_opens hn hk hown hmins hlevel hdd htm hnew hroom hi).trans
      (viaWing_viaPair _ _ _ _ _)), i, hi, rfl, hused, ?_⟩
    rw [hsub]
    exact ⟨rfl, rfl, rfl, rfl, rfl, hdue, hothers, hhq, hdram, hhost⟩
  case bounds =>
    rintro r s ⟨hn, hz, hf⟩
    obtain ⟨hsub, hothers, hdue⟩ :=
      changedSub_facts (subNumber r) (subAt (subNumber r) s).leg (boundsReplaced r (subAt (subNumber r) s)) s
    exact ⟨_, _, (strictly_clear hz).trans ((subBounds_replaces hn hf).trans (viaWing_ok _ _)), rfl, congrArg Machine.Sub.w2 hsub, hdue,
      hothers, rfl, rfl, rfl, rfl⟩
  case read =>
    rintro r s ⟨hn, hz⟩
    exact (strictly_clear hz).trans ((withSub_subNamed hn _).trans (viaWing_ok _ _))
  case release =>
    rintro r s ⟨hn, hz, hf⟩
    exact (strictly_clear hz).trans ((subRelease_closes hn hf).trans (viaWing_ok _ _))
  case waits =>
    rintro r s ⟨hn, hz, hf, hr⟩
    exact (strictly_clear hz).trans (subRelease_waits hn hf hr)

end Sys2Proof
end

section
/-! PROOFS. The statement on the scheduler of a port and on its gate lists. -/

namespace Sys2Proof

open Machine

/-! ## O38: the scheduler -/

theorem exec_scheduleSelect {p : Nat} (s : State) (h : p < 128) : exec (.scheduleSelect p) s = .next (selectDo p s) :=
  onWf_of_wf (i := .scheduleSelect p) (decide_eq_true h)

theorem exec_gateEntry {p : Nat} (s : State) (h : p < 128) : exec (.gateEntry p) s = .next (gateEntryDo p s) :=
  onWf_of_wf (i := .gateEntry p) (decide_eq_true h)

theorem exec_legGateList (src : CmdSrc) (s : State) (h : src.wf = true) : exec (.legGateList src) s =
    .next (command 0x4E (strictly ([(6, 0), (127, 64)], [(104, 96), (93, 0)], []) gateListBody) src s) := onWf_of_wf (i := .legGateList src) h

/-! ### The leg that the tree yields is one of those offered -/

theorem smallestTag_mem {l : List (Nat × Nat)} {x : Nat × Nat} (h : smallestTag l = some x) : x ∈ l := by
  induction l generalizing x with
  | nil => cases h
  | cons y r ih =>
    simp only [smallestTag] at h
    split at h
    · cases h
      exact List.mem_cons_self
    · next z hz =>
      split at h
      · cases h
        exact List.mem_cons_of_mem _ (ih hz)
      · cases h
        exact List.mem_cons_self

theorem pickLeg_mem {p l : Nat} {elig : List Nat} {s s1 : State} (h : pickLeg p elig s = some (l, s1)) : l ∈ elig := by
  simp only [pickLeg] at h
  split at h
  · cases h
  · split at h
    · cases h
    · split at h
      · cases h
      · next hleg =>
        cases h
        obtain ⟨l, hl, heq⟩ := List.mem_map.mp (smallestTag_mem hleg)
        cases heq
        exact (List.mem_filter.mp (List.mem_filter.mp hl).1).1

theorem pickLeg_nil (p : Nat) (s : State) : pickLeg p [] s = none := by
  simp [pickLeg, smallestTag]

section
variable {p : Nat} {s : State}

theorem selectDo_held (h : s.body.hold = true) : selectDo p s = s := if_pos (by rw [h, Bool.or_true])

theorem selects_of_port (hp : isPort p s = true) (hh : s.body.hold = false) : ¬(!isPort p s || s.body.hold) = true := by
  simp [hp, hh]

theorem selectDo_idle (hp : isPort p s = true) (hh : s.body.hold = false) (hnone : ∀ l ∈ portLegs p s, eligible l s = false) :
    selectDo p s = settleNodes p [] s := by
  have helig : (portLegs p s).filter (fun l => eligible l s) = [] := List.filter_eq_nil_iff.mpr fun l hl => by
    simp [hnone l hl]
  rw [selectDo, if_neg (selects_of_port hp hh), helig]
  simp only [List.foldl_nil, pickLeg_nil]

theorem selectDo_serves {l : Nat} {s1 : State} {elig : List Nat} (hp : isPort p s = true) (hh : s.body.hold = false)
    (he : elig = (portLegs p s).filter (fun l => eligible l s))
    (hpick : pickLeg p elig (elig.foldl (fun s l => wakeLeg p l s) (settleNodes p elig s)) = some (l, s1)) :
    selectDo p s =
      let t := spillAll (p / 32) (sendHead p l s1)
      notePort p (settleNodes p ((portLegs p t).filter (fun l => eligible l t)) t) := by
  rw [selectDo, if_neg (selects_of_port hp hh), ← he]
  simp only [hpick]

end

/-! ### A stale head copy -/

theorem readBack_absent {w b : Nat} {s : State} (h : s.media.buffers.find? b = none) : readBack w b s = (false, s) := by
  simp only [readBack, h]

theorem dropRef_absent {b : Nat} {s : State} (h : s.media.buffers.find? b = none) : dropRef b s = s := by
  simp only [dropRef, h]

/-- A copy whose subscription has left use is discarded and counted, and nothing is sent (R125). -/
theorem sendHead_stale {p l : Nat} {s : State} {c : Copy} {rest : List Copy} (hq : (legAt l s).queue = c :: rest)
    (hb : s.media.buffers.find? c.buffer = none) (hr : resolve .sub c.sub s ≠ .ok (handleIdx c.sub)) :
    sendHead p l s = count (legCtr (legAt l s).wing 11) 1 (setLeg l { shaperNow (legAt l s) s with queue := rest } s) := by
  have hstays : (resolve .sub c.sub s == .ok (handleIdx c.sub) && portUp p s) = false := by
    rw [beq_false_of_ne hr, Bool.false_and]
  have hgone : dropRef c.buffer (setLeg l { shaperNow (legAt l s) s with queue := rest } s) =
      setLeg l { shaperNow (legAt l s) s with queue := rest } s := dropRef_absent hb
  simp only [sendHead, shaperNow, hq, readBack_absent hb, hstays, Bool.false_eq_true, if_false]
  simp only [shaperNow] at hgone
  rw [hgone]
  exact if_pos hr

/-! ### Gate lists -/

section
variable {p : Nat} {s : State} {g : GateList}

theorem gateEntryDo_starts (hn : (egressAt p s).nextGate = some g) (hd : cmpReached (cmpNow s) g.start = true) :
    gateEntryDo p s = setEgress p { egressAt p s with
      gate := some g, nextGate := none, entry := 0, entryAt := g.start, nLast := g.n, restart := none } s := by
  simp only [gateEntryDo, hn, hd, if_true]

theorem gateEntryDo_follows (hn : (egressAt p s).nextGate = none) (hr : (egressAt p s).restart = none) (hg : (egressAt p s).gate = some g) :
    gateEntryDo p s =
      let due := cmpAdd (egressAt p s).entryAt (g.entries.getD (egressAt p s).entry (0, 0)).1
      if cmpReached (cmpNow s) due = true
      then setEgress p { egressAt p s with entry := ((egressAt p s).entry + 1) % g.entries.length, entryAt := due } s else s := by
  simp only [gateEntryDo, hn, hr, hg, Bool.false_eq_true, if_false]

end

section
variable {r : Req} {s : State}

/-- The entries that LEG_GATE_LIST names in host memory (R144). -/
abbrev gatesAsked (r : Req) (s : State) : List (Nat × Nat) :=
  gateEntries (hostBytes (fld r.w1 127 64) (8 * fld r.w2 104 96) s) (fld r.w2 104 96)

/-- The cycles from BASE that have begun already (R145). -/
abbrev cyclesPast (r : Req) (s : State) : Nat := ceilDiv (cmpDiff (cmpNow s) (fld r.w2 63 0)).toNat (fld r.w2 93 64)

/-- The list waits for its start: BASE, or the first cycle from it not yet past (R145). -/
def gateInstalled (r : Req) (s : State) : State :=
  setEgress (fld r.w1 6 0) { egressAt (fld r.w1 6 0) s with
    nextGate := some ⟨cmpAdd (fld r.w2 63 0) (cyclesPast r s * fld r.w2 93 64), cyclesPast r s, gatesAsked r s⟩ } s

theorem gateList_removes (hp : isPort (fld r.w1 6 0) s = true) (hn : fld r.w2 104 96 = 0) : gateListBody r s =
    viaWing (fld r.w1 6 0 / 32) (answer
      (setEgress (fld r.w1 6 0) { egressAt (fld r.w1 6 0) s with gate := none, nextGate := none, entry := 0, restart := none } s)
      (okWith 0)) := by
  simp only [gateListBody, hp, hn]
  rfl

theorem gateList_installs (hp : isPort (fld r.w1 6 0) s = true) (hlo : 1 ≤ fld r.w2 104 96) (hhi : fld r.w2 104 96 ≤ 256)
    (hshort : 1000 ≤ fld r.w2 93 64) (hlong : fld r.w2 93 64 ≤ 1000000000) (hes : ∀ e ∈ gatesAsked r s, 1000 ≤ e.1 ∧ e.2 < 16)
    (hsum : ((gatesAsked r s).map (·.1)).sum = fld r.w2 93 64) : gateListBody r s =
      (gateInstalled r s, some (if cyclesPast r s = 0 then okVia (fld r.w1 6 0 / 32) 0 s else ⟨stStartedLate, 1, cyclesPast r s % 2 ^ 32⟩)) := by
  have hport : ¬(!isPort (fld r.w1 6 0) s || decide (256 < fld r.w2 104 96)) = true := by simp [hp, hhi]
  have hcycle : ¬(fld r.w2 93 64 < 1000 ∨ 1000000000 < fld r.w2 93 64) := by omega
  have hlist : ¬(!((gatesAsked r s).all (fun e => decide (1000 ≤ e.1) && decide (e.2 < 16)) &&
      ((gatesAsked r s).map (·.1)).sum == fld r.w2 93 64)) = true := by
    simpa [hsum] using hes
  have hreply : viaWing (fld r.w1 6 0 / 32) (answer (gateInstalled r s)
      (if cyclesPast r s = 0 then okWith 0 else ⟨stStartedLate, 1, cyclesPast r s % 2 ^ 32⟩)) =
      (gateInstalled r s, some (if cyclesPast r s = 0 then okVia (fld r.w1 6 0 / 32) 0 s else ⟨stStartedLate, 1, cyclesPast r s % 2 ^ 32⟩)) := by
    split
    · exact viaWing_okWith _ _ _
    · exact viaWing_refused _ _ (show stStartedLate ≠ stOk by decide)
  exact (if_neg hport).trans ((if_neg (Nat.ne_of_gt hlo)).trans ((if_neg hcycle).trans ((if_neg hlist).trans hreply)))

end

/-- Settles O38: a selection by what is eligible, a gate entry by the list in force, LEG_GATE_LIST by its list. -/
theorem egressSchedule : Obligations.EgressSchedule := by
  refine ⟨?_, ?_, ?_, ?_, ?_, ?_, completes_of exec_legGateList ?install, completes_of exec_legGateList ?remove⟩
  · intro p s hp hport hh hnone
    rw [exec_scheduleSelect s hp, selectDo_idle hport hh hnone]
  · intro p l s s1 elig hp hport hh he hpick
    refine ⟨pickLeg_mem hpick, fun t ht => ?_⟩
    rw [exec_scheduleSelect s hp, selectDo_serves hport hh he hpick, ht]
  · intro p s hp hh
    rw [exec_scheduleSelect s hp, selectDo_held hh]
  · intro p l s c rest hq hb hr
    exact sendHead_stale hq hb hr
  · intro p s g hp hn hd
    rw [exec_gateEntry s hp, gateEntryDo_starts hn hd]
  · intro p s g hp hn hr hg
    rw [exec_gateEntry s hp, gateEntryDo_follows hn hr hg]
  case install =>
    rintro r s ⟨hz, hp, hlo, hhi, hshort, hlong, hes, hsum⟩
    exact (strictly_clear hz).trans (gateList_installs hp hlo hhi hshort hlong hes hsum)
  case remove =>
    rintro r s ⟨hz, hp, hn⟩
    exact (strictly_clear hz).trans ((gateList_removes hp hn).trans (viaWing_ok _ _))

end Sys2Proof
end

section
/-! PROOFS. The statement on frame pools and decode contexts: how a pool takes buffers and regions, and what each command makes of a
context. -/

namespace Sys2Proof

open Machine

/-! ## O42: frame pools -/

theorem exec_vidPoolSet (src : CmdSrc) (s : State) (h : src.wf = true) : exec (.vidPoolSet src) s =
    .next (command 0x70 (strictly ([(1, 0), (13, 8), (29, 16), (38, 32), (46, 40), (48, 48), (63, 63)], [], []) poolSetBody) src s) :=
  onWf_of_wf (i := .vidPoolSet src) h

@[simp] theorem poolAt_setPool (k : Nat) (v : Pool) (s : State) : poolAt k (setPool k v s) = v := by simp [poolAt, setPool]

theorem poolAt_setPool_ne {j k : Nat} (v : Pool) (s : State) (h : j ≠ k) : poolAt j (setPool k v s) = poolAt j s := by
  simp [poolAt, setPool, Tab.get_set_other _ _ _ _ _ h]

theorem poolAt_congr {s t : State} (h : t.video.pools = s.video.pools) (k : Nat) : poolAt k t = poolAt k s := by simp only [poolAt, h]

/-! ### Which regions are free: those in which no pool lies -/

/-- The pool lies in the region, or buffers of its earlier geometries do (R186). -/
def poolHas (v : Pool) (r : Nat) : Bool := v.regions.contains r || v.was.any (fun w => w.2.contains r)

/-- What holds of the entry that a table finds, holds of one that it lists, where it fails of the default. -/
theorem any_of_cellsFind {α : Type} (p : α → Bool) {d : α} (hd : p d = false) (l : List (Nat × α)) (k : Nat)
    (h : p ((cellsFind l k).getD d) = true) : l.any (fun c => p c.2) = true := by
  induction l with
  | nil => simp [cellsFind, hd] at h
  | cons c r ih =>
    simp only [cellsFind] at h
    rw [List.any_cons, Bool.or_eq_true]
    split at h
    · exact .inl h
    · exact .inr (ih h)

/-- An entry is set to one of which `p` holds as it does of the present one: `p` holds of as many entries as before. -/
theorem any_cellsSet {α : Type} (p : α → Bool) {d v : α} (hd : p d = false) (l : List (Nat × α)) (k : Nat)
    (h : p v = p ((cellsFind l k).getD d)) : (cellsSet l k v).any (fun c => p c.2) = l.any (fun c => p c.2) := by
  induction l with
  | nil => simp [cellsSet, cellsFind, hd] at h ⊢; exact h
  | cons c r ih =>
    simp only [cellsSet]
    split
    · rw [List.any_cons]
      cases hv : p v with
      | false => rw [Bool.false_or]
      | true => rw [any_of_cellsFind p hd (c :: r) k (h.symm.trans hv), Bool.true_or]
    · simp only [cellsFind] at h
      split at h
      · next hk =>
        rw [if_pos hk, List.any_cons, List.any_cons, h]
        rfl
      · next hk => rw [if_neg hk, List.any_cons, List.any_cons, ih h]

theorem poolOfRegion_isNone (r : Nat) (s : State) : (poolOfRegion r s).isNone = !(s.video.pools.toList.any (fun c => poolHas c.2 r)) := by
  rw [poolOfRegion, Option.isNone_map, Bool.eq_iff_iff, Bool.not_eq_true', List.any_eq_false, Option.isNone_iff_eq_none,
    List.find?_eq_none]
  rfl

/-- A pool that keeps its regions leaves the free ones free, and takes none of them. -/
theorem freeRegions_setPool {k : Nat} {v : Pool} {s : State} (h : ∀ r, poolHas v r = poolHas (poolAt k s) r) (w : Nat) :
    freeRegions w (setPool k v s) = freeRegions w s := by
  refine List.filter_congr fun r _ => ?_
  rw [poolOfRegion_isNone, poolOfRegion_isNone]
  exact congrArg (!·) (any_cellsSet (fun u => poolHas u r) (d := {}) rfl s.video.pools.cells k (h r))

/-! ### A pool is trimmed: nothing leaves where it holds no more than it wants -/

theorem clearRegions_only (rs : List Nat) (s : State) : ∃ a, rs.foldl (fun s r => clearRegion r s) s = { s with acc := a } := by
  induction rs generalizing s with
  | nil => exact ⟨_, rfl⟩
  | cons r rs ih =>
    obtain ⟨a, h⟩ := ih (clearRegion r s)
    exact ⟨a, h⟩

theorem trimPool_settled {k : Nat} {s : State} (hheld : (poolAt k s).held.length ≤ (poolAt k s).want)
    (hwas : ∀ w ∈ (poolAt k s).was, w.1 = []) : trimPool k s = setPool k { poolAt k s with
      regions := (poolAt k s).regions.take (regionsFor (poolAt k s)), was := [] } s := by
  unfold trimPool
  extract_lets v gone was dead u
  have hgone : gone = [] := by
    simp only [gone, v, Nat.sub_eq_zero_of_le hheld, List.take_zero]
  have hnone : was.filter (fun w => !w.1.isEmpty) = [] := List.filter_eq_nil_iff.mpr fun w hw => by
    obtain ⟨x, hx, rfl⟩ := List.mem_map.mp hw
    simp [hwas x hx]
  have hdead : dead = [] := by
    simp only [dead, hgone, List.flatMap_eq_nil_iff.mpr hwas, v, List.filter_nil, List.append_nil]
  have hu : u = { v with was := [] } := by
    have hall : v.held.filter (fun i => !gone.contains i) = v.held := List.filter_eq_self.mpr fun i _ => by rw [hgone]; rfl
    simp only [u, hall, hnone]
  rw [hdead, hu]
  rfl

/-! ### A pool takes what it lacks -/

/-- From `s` to `t` only pool `k` and the access tables change. -/
def PoolOnly (k : Nat) (s t : State) : Prop :=
  (∃ ps a, t = { s with video := { s.video with pools := ps }, acc := a }) ∧ ∀ j, j ≠ k → poolAt j t = poolAt j s

theorem poolOnly_setPool (k : Nat) (v : Pool) (s : State) : PoolOnly k s (setPool k v s) :=
  ⟨⟨_, _, rfl⟩, fun _ h => poolAt_setPool_ne v s h⟩

theorem PoolOnly.refl (k : Nat) (s : State) : PoolOnly k s s := ⟨⟨_, _, rfl⟩, fun _ _ => rfl⟩

theorem PoolOnly.trans {k : Nat} {s t u : State} (h : PoolOnly k s t) (g : PoolOnly k t u) : PoolOnly k s u := by
  obtain ⟨⟨ps, a, rfl⟩, hj⟩ := h
  obtain ⟨⟨qs, b, rfl⟩, gj⟩ := g
  exact ⟨⟨_, _, rfl⟩, fun j hne => (gj j hne).trans (hj j hne)⟩

/-- A pool `g` in place of one with the same regions takes those that its buffers lack, and keeps none beyond them (R186). -/
theorem takeTrim_facts {k : Nat} {g : Pool} {s : State} (hheld : g.held.length ≤ g.want) (hwas : g.was = [])
    (hhas : ∀ r, poolHas g r = poolHas (poolAt k s) r)
    (hroom : regionsFor g ≤ g.regions.length + (freeRegions (k / 64) s).length) :
    ∃ rs, poolAt k (trimPool k (takeRegions k (setPool k g s))) = { g with regions := rs } ∧ rs.length = regionsFor g ∧
      PoolOnly k s (trimPool k (takeRegions k (setPool k g s))) := by
  have htaken : ∃ rs, regionsFor g ≤ rs.length ∧ poolAt k (takeRegions k (setPool k g s)) = { g with regions := rs } ∧
      PoolOnly k s (takeRegions k (setPool k g s)) := by
    unfold takeRegions
    extract_lets v more
    obtain ⟨a, ha⟩ := clearRegions_only more (setPool k g s)
    have hv : v = g := poolAt_setPool _ _ _
    rw [ha, hv]
    have hcleared : PoolOnly k (setPool k g s) { setPool k g s with acc := a } := ⟨⟨_, _, rfl⟩, fun _ _ => rfl⟩
    refine ⟨_, ?_, poolAt_setPool _ _ _, ((poolOnly_setPool k g s).trans hcleared).trans (poolOnly_setPool _ _ _)⟩
    simp only [more, hv, freeRegions_setPool hhas, List.length_append, List.length_take]
    omega
  obtain ⟨rs, hlen, hpool, honly⟩ := htaken
  rw [trimPool_settled (by rw [hpool]; exact hheld) (by rw [hpool]; simp [hwas]), hpool]
  refine ⟨rs.take (regionsFor g), ?_, by rw [List.length_take]; exact Nat.min_eq_left hlen, honly.trans (poolOnly_setPool _ _ _)⟩
  rw [poolAt_setPool, ← hwas]
  rfl

theorem newIndexes_length_le (held : List Nat) (n : Nat) : (newIndexes held n).length ≤ n := List.length_take_le _ _

/-- A pool that no earlier geometry clings to grows by the lowest indexes that it lacks (R186). -/
theorem grownPool_unretired {g u : Pool} (hwant : g.want ≠ 0) (hwas : u.was = []) :
    grownPool g u = { g with held := u.held ++ newIndexes u.held (g.want - u.held.length), regions := u.regions, was := [] } := by
  simp only [grownPool, if_neg hwant, hwas, List.flatMap_nil, List.append_nil]

/-- An empty pool without contexts begins anew as it was, but for what it wants (R186). -/
theorem retireGeometry_empty {k : Nat} {s : State} (hheld : (poolAt k s).held = []) (hregions : (poolAt k s).regions = [])
    (hwas : (poolAt k s).was = []) :
    poolAt k (retireGeometry k s) = { poolAt k s with want := 0 } ∧ PoolOnly k s (retireGeometry k s) ∧
      freeRegions (k / 64) (retireGeometry k s) = freeRegions (k / 64) s := by
  have heq : retireGeometry k s = setPool k { poolAt k s with want := 0 } (setPool k { poolAt k s with
      want := 0, held := [], regions := [], was := [([], [])] } s) := by
    unfold retireGeometry
    extract_lets v
    rw [show v.was ++ [(v.held, v.regions)] = [([], [])] by simp only [v, hheld, hregions, hwas, List.nil_append],
      trimPool_settled (by simp) (by simp), poolAt_setPool]
    congr 1
    change ({ v with want := 0, held := [], regions := List.take _ [], was := [] } : Pool) = _
    simp only [List.take_nil, v, hheld, hregions, hwas]
  rw [heq]
  refine ⟨poolAt_setPool _ _ _, (poolOnly_setPool _ _ _).trans (poolOnly_setPool _ _ _), ?_⟩
  have hstarts (r : Nat) : poolHas { poolAt k s with want := 0, held := [], regions := [], was := [([], [])] } r = poolHas (poolAt k s) r := by
    simp [poolHas, hregions, hwas]
  have hends (r : Nat) : poolHas { poolAt k s with want := 0 } r = poolHas (poolAt k s) r := rfl
  rw [freeRegions_setPool, freeRegions_setPool hstarts]
  intro r
  rw [hends, poolAt_setPool, hstarts]

/-- Pool `k` takes the settings `g` over the buffers that `u` has (R186). -/
def poolGrown (g u : Pool) : Pool := { g with held := u.held ++ newIndexes u.held (g.want - u.held.length) }

/-- What VID_POOL_SET makes of a pool: the buffers it wants, and the regions for them; nothing of another pool moves (R186). -/
theorem fillPool_fills {k : Nat} {g : Pool} {s0 s : State} (hwant : g.want ≠ 0) (hwas : (poolAt k s0).was = [])
    (hlen : (poolAt k s0).held.length ≤ g.want)
    (hroom : regionsFor (poolGrown g (poolAt k s0)) ≤ (poolAt k s0).regions.length + (freeRegions (k / 64) s0).length) :
    ∃ t rs, fillPool k (grownPool g (poolAt k s0)) s0 s = answer t (okVia (k / 64) (poolDetail k t) t) ∧
      poolAt k t = { poolGrown g (poolAt k s0) with regions := rs, was := [] } ∧
      rs.length = regionsFor (poolGrown g (poolAt k s0)) ∧ PoolOnly k s0 t := by
  rw [grownPool_unretired hwant hwas]
  obtain ⟨rs, hpool, hrs, honly⟩ := takeTrim_facts (k := k) (s := s0)
    (g := { poolGrown g (poolAt k s0) with regions := (poolAt k s0).regions, was := [] })
    (by
      have := newIndexes_length_le (poolAt k s0).held (g.want - (poolAt k s0).held.length)
      simp only [poolGrown, List.length_append]
      omega)
    rfl (fun r => by simp [poolHas, hwas]) hroom
  refine ⟨_, rs, if_neg (Nat.not_lt.mpr (Nat.sub_le_iff_le_add'.mpr hroom)), hpool, hrs, honly⟩

/-- The key of the pool that VID_POOL_SET names, and the settings that it asks for (R186, R203). -/
def poolNamed (r : Req) : Nat := poolKey (fld r.w1 1 0) (fld r.w1 13 8)

def poolAsked (r : Req) : Pool :=
  { want := fld r.w1 29 16, bufW := fld r.w1 38 32 * 64, bufH := fld r.w1 46 40 * 64, deep := bitOf r.w1 48 }

/-- The settings of a pool are those that the command asks for. -/
def sameSettings (g u : Pool) : Bool := u.bufW == g.bufW && u.bufH == g.bufH && u.deep == g.deep

section
variable {r : Req} {s : State} (hown : r.owner = true ∨ fld r.w1 13 8 = r.fn)
include hown

/-- PF0 may set every pool, another function its own (R203). -/
theorem poolSet_allowed : ¬(!r.owner && fld r.w1 13 8 != r.fn) = true := by
  rcases hown with h | h <;> simp [h]

theorem poolSet_figures (h : bitOf r.w1 63 = true) : poolSetBody r s =
    (s, some (okVia (poolNamed r / 64) (poolDetail (poolNamed r) s) s)) := by
  exact (if_neg (poolSet_allowed hown)).trans (if_pos h)

/-- VID_POOL_SET with settings in range, of a pool that may take them (R186). -/
theorem poolSet_fills (h : bitOf r.w1 63 = false) (hn : 1 ≤ fld r.w1 29 16) (hw : 1 ≤ fld r.w1 38 32 ∧ fld r.w1 38 32 ≤ 64)
    (hh : 1 ≤ fld r.w1 46 40 ∧ fld r.w1 46 40 ≤ 36)
    (huse : poolInUse (poolNamed r) s = false ∨ sameSettings (poolAsked r) (poolAt (poolNamed r) s) = true) :
    poolSetBody r s =
      let s0 := if sameSettings (poolAsked r) (poolAt (poolNamed r) s) = true then s else retireGeometry (poolNamed r) s
      fillPool (poolNamed r) (grownPool (poolAsked r) (poolAt (poolNamed r) s0)) s0 s := by
  have hn0 : fld r.w1 29 16 ≠ 0 := Nat.one_le_iff_ne_zero.mp hn
  have hrange : ¬(fld r.w1 29 16 ≠ 0 ∧ (fld r.w1 38 32 < 1 ∨ 64 < fld r.w1 38 32 ∨ fld r.w1 46 40 < 1 ∨ 36 < fld r.w1 46 40)) := by omega
  have hidle : ¬(poolInUse (poolNamed r) s && (fld r.w1 29 16 == 0 || !sameSettings (poolAsked r) (poolAt (poolNamed r) s))) = true := by
    rcases huse with h | h <;> simp [h, hn0]
  refine (if_neg (poolSet_allowed hown)).trans ((if_neg (by simp [h])).trans ((if_neg hrange).trans ((if_neg hidle).trans ?_)))
  simp only [hn0, decide_false, Bool.or_false]
  rfl

end

/-- What VID_POOL_SET grows from: the pool as it is, or begun anew where it is empty and its settings change (R186). -/
theorem poolSet_base {g : Pool} {k : Nat} {s s0 : State} (hs0 : s0 = if sameSettings g (poolAt k s) = true then s else retireGeometry k s)
    (hwas : (poolAt k s).was = [])
    (hcase : ((poolAt k s).held = [] ∧ (poolAt k s).regions = []) ∨ sameSettings g (poolAt k s) = true) :
    (poolAt k s0).held = (poolAt k s).held ∧ (poolAt k s0).regions = (poolAt k s).regions ∧ (poolAt k s0).was = [] ∧
      freeRegions (k / 64) s0 = freeRegions (k / 64) s ∧ PoolOnly k s s0 := by
  by_cases hsame : sameSettings g (poolAt k s) = true
  · rw [hs0, if_pos hsame]
    exact ⟨rfl, rfl, hwas, rfl, .refl k s⟩
  · obtain ⟨hheld, hregions⟩ := hcase.resolve_right hsame
    obtain ⟨hpool, honly, hfree⟩ := retireGeometry_empty hheld hregions hwas
    rw [hs0, if_neg hsame, hpool]
    exact ⟨rfl, rfl, hwas, hfree, honly⟩

theorem regions_of_pool {u g : Pool} {rs : List Nat} (h : u = { g with regions := rs }) : u = { g with regions := u.regions } := by rw [h]

/-- VID_POOL_SET on a pool that is empty and without contexts, or that grows under the settings that it has (R186). -/
theorem poolSet_grows {r : Req} {s : State} (hown : r.owner = true ∨ fld r.w1 13 8 = r.fn) (h : bitOf r.w1 63 = false)
    (hn : 1 ≤ fld r.w1 29 16) (hw : 1 ≤ fld r.w1 38 32 ∧ fld r.w1 38 32 ≤ 64) (hh : 1 ≤ fld r.w1 46 40 ∧ fld r.w1 46 40 ≤ 36)
    (hwas : (poolAt (poolNamed r) s).was = [])
    (hcase : ((poolAt (poolNamed r) s).held = [] ∧ (poolAt (poolNamed r) s).regions = [] ∧ poolInUse (poolNamed r) s = false) ∨
      (sameSettings (poolAsked r) (poolAt (poolNamed r) s) = true ∧ (poolAt (poolNamed r) s).held.length ≤ (poolAsked r).want))
    (hroom : regionsFor (poolGrown (poolAsked r) (poolAt (poolNamed r) s)) ≤
      (poolAt (poolNamed r) s).regions.length + (freeRegions (poolNamed r / 64) s).length) :
    ∃ t rs, poolSetBody r s = answer t (okVia (poolNamed r / 64) (poolDetail (poolNamed r) t) t) ∧
      poolAt (poolNamed r) t = { poolGrown (poolAsked r) (poolAt (poolNamed r) s) with regions := rs } ∧
      rs.length = regionsFor (poolGrown (poolAsked r) (poolAt (poolNamed r) s)) ∧ PoolOnly (poolNamed r) s t := by
  rw [poolSet_fills hown h hn hw hh (hcase.imp (·.2.2) (·.1))]
  extract_lets s0
  obtain ⟨hheld, hregions, hwas0, hfree, honly⟩ := poolSet_base (s0 := s0) rfl hwas (hcase.imp (fun h => ⟨h.1, h.2.1⟩) (·.1))
  have hgrown : poolGrown (poolAsked r) (poolAt (poolNamed r) s0) = poolGrown (poolAsked r) (poolAt (poolNamed r) s) := by
    simp only [poolGrown, hheld]
  have hlen : (poolAt (poolNamed r) s).held.length ≤ (poolAsked r).want := by
    rcases hcase with ⟨h, -⟩ | ⟨-, h⟩
    · simp [h]
    · exact h
  obtain ⟨t, rs, hbody, hpool, hrs, hfill⟩ := fillPool_fills (k := poolNamed r) (g := poolAsked r) (s0 := s0) (s := s)
    (Nat.one_le_iff_ne_zero.mp hn) hwas0 (hheld ▸ hlen) (by rw [hgrown, hregions, hfree]; exact hroom)
  exact ⟨t, rs, hbody, by rw [hpool, hgrown]; rfl, by rw [hrs, hgrown], honly.trans hfill⟩

/-! ## O42: decode contexts -/

theorem exec_vidDecCreate (src : CmdSrc) (s : State) (h : src.wf = true) : exec (.vidDecCreate src) s =
    .next (command 0x71 (strictly ([(69, 0), (75, 72)], [(49, 48), (46, 0)], [(63, 0)]) decCreateBody) src s) :=
  onWf_of_wf (i := .vidDecCreate src) h

theorem exec_vidDecReset (src : CmdSrc) (s : State) (h : src.wf = true) : exec (.vidDecReset src) s =
    .next (command 0x72 (strictly ([(14, 0)], [], []) decResetBody) src s) := onWf_of_wf (i := .vidDecReset src) h

theorem exec_vidDecRead (src : CmdSrc) (s : State) (h : src.wf = true) : exec (.vidDecRead src) s =
    .next (command 0x73 (strictly ([(14, 0)], [(63, 0)], [(0, 0)]) decReadBody) src s) := onWf_of_wf (i := .vidDecRead src) h

theorem exec_vidDecRelease (src : CmdSrc) (s : State) (h : src.wf = true) : exec (.vidDecRelease src) s =
    .next (command 0x74 (strictly ([(14, 0)], [], []) decReleaseBody) src s) := onWf_of_wf (i := .vidDecRelease src) h

/-! ### A context is created -/

/-- Context `v` on its tile, for source `i`, from now on (R182, R183). -/
def placedDec (v : DecCtx) (tile i : Nat) (s : State) : DecCtx :=
  { v with tile := tile, format := (sourceAt i s).format, born := s.video.nextBorn,
           bucket := 2 * v.maxW * v.maxH * 1000000000, bucketAt := nowNs s }

/-- The state in which context `v` has taken number `c` on a tile (R182). -/
def decTaken (v : DecCtx) (c tile i : Nat) (s : State) : State :=
  addWork tile (addLoad v.part 0 v.load (setDec c (placedDec v tile i s)
    (allocId .decCtx c { s with video := { s.video with nextBorn := s.video.nextBorn + 1 } })))

/-- The state in which the source of that context has one more reader too (R182). -/
def decAdded (v : DecCtx) (c tile i : Nat) (s : State) : State :=
  updSource i (fun x => { x with readers := x.readers + 1 }) (decTaken v c tile i s)

theorem decAdded_facts (v : DecCtx) (c tile i : Nat) (s : State) :
    (identOf .decCtx c (decAdded v c tile i s)).used = true ∧ decAt c (decAdded v c tile i s) = placedDec v tile i s ∧
      (sourceAt i (decAdded v c tile i s)).readers = (sourceAt i s).readers + 1 ∧
      committedOf v.part 0 (decAdded v c tile i s) = committedOf v.part 0 s + v.load ∧
      (∀ d, d ≠ c → decAt d (decAdded v c tile i s) = decAt d s) := by
  unfold decAdded decTaken
  generalize hu : ({ s with video := { s.video with nextBorn := s.video.nextBorn + 1 } } : State) = u
  have hdecs : ∀ d, decAt d u = decAt d s := fun d => by rw [← hu]; rfl
  have hsource : sourceAt i u = sourceAt i s := by rw [← hu]; rfl
  have hload : committedOf v.part 0 u = committedOf v.part 0 s := by rw [← hu]; rfl
  refine ⟨?_, decAt_setDec c (placedDec v tile i s) (allocId .decCtx c u), ?_, ?_, fun d hd => ?_⟩
  · exact congrArg Ident.used (identOf_allocId .decCtx c u)
  · rw [sourceAt_updSource]
    exact congrArg (Source.readers · + 1) hsource
  · exact (committedOf_addLoad v.part 0 v.load (setDec c (placedDec v tile i s) (allocId .decCtx c u))).trans (congrArg (· + v.load) hload)
  · exact (decAt_setDec_ne c d (placedDec v tile i s) (allocId .decCtx c u) hd).trans (hdecs d)

theorem decAdded_frame (v : DecCtx) (c tile i : Nat) (s : State) : (decAdded v c tile i s).hq = s.hq ∧
    (decAdded v c tile i s).dram = s.dram ∧ (decAdded v c tile i s).hostMem = s.hostMem := by
  simp [decAdded, decTaken, setDec]

section
variable {v : DecCtx} {i : Nat} {s : State}

/-- The checks of R182 that follow those of fields, owners and queue. -/
structure DecAdmitted (v : DecCtx) (i : Nat) (s : State) : Prop where
  format : formatOf v.codec (sourceAt i s).format = true
  read : (sourceAt i s).forwardOnly = false
  jitter : (sourceAt i s).jit.isSome = true
  geometry : poolHolds (poolAt (poolKey v.wing v.fn) s) v.maxW v.maxH v.deep = true
  load : fits v.part 0 v.load s = true
  room : ((decList s).filter (fun c => c.2.part == v.part)).length < ((partOf? v.part s).map (·.decCtx)).getD 0

/-- The figures of VID_DEC_CREATE's reply (R203). -/
def decDetail (v : DecCtx) (c tile : Nat) (s : State) : Nat := packNat [(8, 32, liveOf v.part 0 s), (40, 15, c), (55, 9, tile)]

theorem decAdmit_takes {c tile : Nat} (h : DecAdmitted v i s) (hc : lowestFree .decCtx 0 (declaredDec s) s = some c)
    (htile : decTile v.part v.wing v.load s = some tile) : decAdmit v i s =
      viaPair (sourceAt i s).wing v.wing (answer (decAdded v c tile i s) (okVia v.wing (decDetail v c tile s) (decAdded v c tile i s))) := by
  obtain ⟨hformat, hread, hjit, hgeo, hload, hroom⟩ := h
  have hreply := okVia_congr (s := decTaken v c tile i s) (t := decAdded v c tile i s) rfl v.wing (decDetail v c tile s)
  rw [hreply]
  simp only [decAdmit, hformat, hread, Option.isNone_iff_eq_none, Option.isSome_iff_ne_none.mp hjit, hgeo, hload, Nat.not_le.mpr hroom, hc,
    htile]
  rfl

theorem decCreate_admits {r : Req} (hfine : decFine (decAsked r).codec (decAsked r) = true)
    (hsource : resolve .source (decAsked r).source s = .ok i) (hown : r.owner = true ∨ (sourceAt i s).fn = r.fn)
    (hctl : accHas tgPartition (decAsked r).part r.master bitControl s = true)
    (hq : recordQueueRefusal r (decAsked r).mode (decAsked r).recQueue s = none) :
    decCreateBody r s = decAdmit (decAsked r) i s := by
  have hmay : ¬(!(r.owner || (sourceAt i s).fn == r.fn)) = true := by rcases hown with h | h <;> simp [h]
  have hctl' : ¬(!(partControl r (decAsked r).part s).1) = true := by rw [partControl_granted hctl]; simp
  refine (if_neg (c := (!decFine (decAsked r).codec (decAsked r)) = true) (by simp [hfine])).trans ?_
  split
  next h => exact nomatch hsource.symm.trans h
  next h => exact nomatch hsource.symm.trans h
  next j h =>
    obtain rfl : i = j := Named.ok.inj (hsource.symm.trans h)
    refine (if_neg hmay).trans ((if_neg hctl').trans ?_)
    split
    next x h => exact nomatch hq.symm.trans h
    next => rfl

end

/-! ### A context is named, reset and released -/

theorem withDec_named {r : Req} {s : State} (h : decNamed r s) (f : Nat → Answer) :
    withDec (fld r.w1 14 0) r s f = viaWing (decAt (fld r.w1 14 0) s).wing (f (fld r.w1 14 0)) := by
  obtain ⟨hused, hown⟩ := h
  simp only [withDec, hused, Bool.true_and]
  exact if_pos (by simpa using hown)

/-- A buffer that a decoder no longer refers to, and that is not to be output (R204). -/
def unmarked (f : FrameBuf) : FrameBuf :=
  { f with shortRef := false, longRef := false, outputPending := false, awaits := false, lingers := [] }

/-- The buffers `bs` lose their marks. -/
def unmarkAll (bs : List Nat) (s : State) : State := bs.foldl (fun s b => updBuf b unmarked s) s

theorem bufAt_unmarkAll (bs : List Nat) (b : Nat) (s : State) :
    bufAt b (unmarkAll bs s) = if b ∈ bs then unmarked (bufAt b s) else bufAt b s := by
  induction bs generalizing s with
  | nil => simp [unmarkAll]
  | cons x bs ih =>
    rw [unmarkAll, List.foldl_cons, ← unmarkAll, ih]
    by_cases hx : b = x
    · subst hx
      rw [bufAt_updBuf, if_pos List.mem_cons_self, show unmarked (unmarked (bufAt b s)) = unmarked (bufAt b s) from rfl, ite_self]
    · rw [bufAt_updBuf_ne _ _ _ _ hx]
      simp only [List.mem_cons, hx, false_or]

theorem decAt_unmarkAll (bs : List Nat) (d : Nat) (s : State) : decAt d (unmarkAll bs s) = decAt d s :=
  foldl_keeps (decAt d) (f := fun s b => updBuf b unmarked s) (fun _ _ => rfl) bs s

/-- A context asks once it has requested a key picture, unless the request was there before (R200). -/
theorem decRequest_asks (c reason : Nat) (s : State) : (decAt c (decRequest c reason s)).asked = true := by
  unfold decRequest
  extract_lets v s1
  have h1 : (decAt c s1).asked = true := by
    simp only [s1]
    split
    next h => exact h
    next => rw [decAt_congr (s := updDec c (fun v => { v with asked := true }) s) (by simp), decAt_updDec]
  split
  · exact (congrArg DecCtx.asked (decAt_congr (congrArg Prod.snd (kfRequestN_pictures _ _ _ _)) c)).trans h1
  · exact h1

/-- The pool of a context (R186). -/
def poolOfDec (v : DecCtx) : Nat := poolKey v.wing v.fn

/-- A context whose references are gone and that waits for a key picture, with the buffers that it still keeps (R204). -/
def resetCtx (kept : List Nat) (v : DecCtx) : DecCtx :=
  { v with waitKey := true, current := none, repair := none, slots := List.replicate 8 none, kept := kept }

/-- The state of a reset before its request for a key picture (R204). -/
def decCleared (c : Nat) (s : State) : State :=
  trimPool (poolOfDec (decAt c s)) (updDec c (resetCtx (keptOf c (unmarkAll (keptOf c s) s))) (unmarkAll (keptOf c s) s))

theorem decCleared_ctx (c : Nat) (s : State) : (∃ ks, decAt c (decCleared c s) = resetCtx ks (decAt c s)) ∧
    ∀ d, d ≠ c → decAt d (decCleared c s) = decAt d s := by
  unfold decCleared
  refine ⟨⟨keptOf c (unmarkAll (keptOf c s) s), ?_⟩, fun d hd => ?_⟩
  · rw [decAt_trimPool, decAt_updDec, decAt_unmarkAll]
  · rw [decAt_trimPool, decAt_updDec_ne _ _ _ _ hd, decAt_unmarkAll]

/-- The marks of R204 after a reset: clear in the context's own buffers, as they were in the others. -/
theorem decCleared_marks (c b : Nat) (s : State) :
    let f := if b ∈ keptOf c s then unmarked (bufAt b s) else bufAt b s
    (bufAt b (decCleared c s)).shortRef = f.shortRef ∧ (bufAt b (decCleared c s)).longRef = f.longRef ∧
      (bufAt b (decCleared c s)).outputPending = f.outputPending := by
  obtain ⟨-, hshort, hlong, hout, -⟩ := marks_trimPool (poolOfDec (decAt c s)) b
    (updDec c (resetCtx (keptOf c (unmarkAll (keptOf c s) s))) (unmarkAll (keptOf c s) s))
  rw [bufAt_updDec, bufAt_unmarkAll] at hshort hlong hout
  exact ⟨hshort, hlong, hout⟩

/-- The state that VID_DEC_RESET leaves (R204). -/
def decReset (c : Nat) (s : State) : State := decRequest c 0x0D (decCleared c s)

theorem decReset_ctx (c : Nat) (s : State) :
    (∃ n ks, decAt c (decReset c s) = { resetCtx ks (decAt c s) with ctrs := n, asked := true }) ∧
      ∀ d, d ≠ c → decAt d (decReset c s) = decAt d s := by
  obtain ⟨⟨ks, hctx⟩, hothers⟩ := decCleared_ctx c s
  obtain ⟨-, ⟨n, a, hc⟩, hkeeps⟩ := decRequest_accounts c 0x0D (decCleared c s)
  have hasked := decRequest_asks c 0x0D (decCleared c s)
  rw [hc] at hasked
  obtain rfl : a = true := hasked
  exact ⟨⟨n, ks, hc.trans (by rw [hctx])⟩, fun d hd => (hkeeps d hd).trans (hothers d hd)⟩

theorem bufAt_decReset (c b : Nat) (s : State) : bufAt b (decReset c s) = bufAt b (decCleared c s) := by
  obtain ⟨hbufs, -⟩ := decRequest_accounts c 0x0D (decCleared c s)
  exact bufAt_congr hbufs b

theorem decReset_resets {r : Req} {s : State} (hn : decNamed r s) : decResetBody r s =
    viaWing (decAt (fld r.w1 14 0) s).wing (answer (decReset (fld r.w1 14 0) s) (okWith 0)) := withDec_named hn _

theorem decRead_writes {r : Req} {s : State} (hn : decNamed r s) : decReadBody r s =
    viaWing (decAt (fld r.w1 14 0) s).wing (answer
      (let t := hostPut (fld r.w2 63 0) ((decAt (fld r.w1 14 0) s).ctrs.flatMap (leBytes 8)) s
       if bitOf r.w3 0 = true then updDec (fld r.w1 14 0) (fun v => { v with ctrs := List.replicate 8 0 }) t else t) (okWith 0)) :=
  withDec_named hn _

/-- A context being released: its waiting units are discarded, and the ticket waits (R205). -/
def decReleasing (r : Req) (s : State) : State :=
  let v := decAt (fld r.w1 14 0) s
  setDec (fld r.w1 14 0) { v with waiting := [], discarded := v.waiting.length, releasing := some r.tk } s

theorem decRelease_begins {r : Req} {s : State} (hn : decNamed r s) (hr : (decAt (fld r.w1 14 0) s).releasing = none) : decReleaseBody r s =
    if (decAt (fld r.w1 14 0) s).work.isSome then (decReleasing r s, none)
    else (finishDecRelease (fld r.w1 14 0) (decReleasing r s), none) := by
  refine (withDec_named hn _).trans ((congrArg (viaWing _) (if_neg (by simp [hr]))).trans ?_)
  split <;> rfl

/-! ### The end of a context -/

theorem finishDecRelease_ends (c : Nat) (s : State) : (identOf .decCtx c (finishDecRelease c s)).used = false ∧
    decAt c (finishDecRelease c s) = {} ∧ ∀ d, d ≠ c → decAt d (finishDecRelease c s) = decAt d s := by
  unfold finishDecRelease
  extract_lets v s1 s2 s3 s4
  have h1 (d : Nat) : decAt d s1 = decAt d s := by
    simp only [s1]
    exact foldl_keeps (decAt d) (fun t b => decAt_updBuf d b _ t) _ _
  have h2 (d : Nat) : decAt d s2 = decAt d s := by
    simp only [s2, decAt_trimPool]
    exact (decAt_congr (congrArg Video.decs (dropLoad_video _ _ _ _)) d).trans (h1 d)
  have h3 (d : Nat) : decAt d s3 = decAt d s := by
    simp only [s3]
    split
    · exact (decAt_congr (by simp) d).trans (h2 d)
    · exact h2 d
  have hused : (identOf .decCtx c s4).used = false := by rw [identOf_releaseId]
  have hctx : decAt c s4 = {} := decAt_setDec c {} s3
  have hothers (d : Nat) (hd : d ≠ c) : decAt d s4 = decAt d s := (decAt_setDec_ne c d {} s3 hd).trans (h3 d)
  split
  · refine ⟨(congrArg Ident.used (identOf_congr (by simp) _ _)).trans hused, (decAt_congr (by simp) c).trans hctx,
      fun d hd => (decAt_congr (by simp) d).trans (hothers d hd)⟩
  · exact ⟨hused, hctx, hothers⟩

/-- Settles O42: the pool by what it takes, the creation by what the context takes, the reset by its marks, the release by its end. -/
theorem videoPoolsAndDecodeContexts : Obligations.VideoPoolsAndDecodeContexts := by
  refine ⟨completes_of exec_vidPoolSet ?figures, completesSo_of exec_vidPoolSet ?grows, completesSo_of exec_vidDecCreate ?create,
    completesSo_of exec_vidDecReset ?reset, completes_of exec_vidDecRead ?read, begins_of exec_vidDecRelease ?waits,
    begins_of exec_vidDecRelease ?ends, finishDecRelease_ends⟩
  case figures =>
    rintro r s ⟨hz, hown, h63⟩
    exact (strictly_clear hz).trans (poolSet_figures hown h63)
  case grows =>
    rintro r s ⟨hz, hown, h63, hn, hw1, hw2, hh1, hh2, hwas, hcase, hroom⟩
    obtain ⟨t, rs, hbody, hpool, hrs, honly⟩ := poolSet_grows hown h63 hn ⟨hw1, hw2⟩ ⟨hh1, hh2⟩ hwas
      (hcase.imp_right fun ⟨hw, hh, hd, hlen⟩ => ⟨by simpa [sameSettings] using ⟨⟨hw, hh⟩, hd⟩, hlen⟩) hroom
    obtain ⟨⟨ps, a, rfl⟩, hothers⟩ := honly
    refine ⟨_, _, (strictly_clear hz).trans hbody, rfl, ?_, ?_, hothers, rfl, rfl, rfl, rfl, rfl, rfl⟩
    · exact regions_of_pool hpool
    · exact (congrArg (fun u => u.regions.length) hpool).trans hrs
  case create =>
    rintro r s ⟨hz, hfine, hsource, hown, hctl, hq, hformat, hread, hjit, hgeo, hload, hroom, hfree, htile⟩
    obtain ⟨c, hc⟩ := Option.isSome_iff_exists.mp hfree
    obtain ⟨tile, htile⟩ := Option.isSome_iff_exists.mp htile
    obtain ⟨hused, hctx, hreaders, hcommitted, hothers⟩ := decAdded_facts (decAsked r) c tile (handleIdx (decAsked r).source) s
    have hbody := (decCreate_admits hfine hsource hown hctl hq).trans
      ((decAdmit_takes ⟨hformat, hread, hjit, hgeo, hload, hroom⟩ hc htile).trans (viaPair_okVia _ _ _ _ _))
    refine ⟨_, _, (strictly_clear hz).trans hbody, c, tile, hc, htile, ?_, ?_, ?_, ?_, ?_, ?_, ?_⟩
    · rfl
    · exact hused
    · rw [hctx, placedDec]
    · exact hreaders
    · exact hcommitted
    · exact hothers
    · exact decAdded_frame _ _ _ _ _
  case reset =>
    rintro r s ⟨hn, hz⟩
    obtain ⟨⟨n, ks, hctx⟩, hothers⟩ := decReset_ctx (fld r.w1 14 0) s
    refine ⟨_, _, (strictly_clear hz).trans ((decReset_resets hn).trans (viaWing_okWith _ _ _)), rfl, ?_⟩
    rw [hctx]
    refine ⟨rfl, rfl, rfl, rfl, rfl, rfl, hothers, rfl, fun b hb => ?_, fun b hb => ?_⟩
    all_goals
      have hmarks := decCleared_marks (fld r.w1 14 0) b s
      simp only [hb, if_true, if_false] at hmarks
      rw [bufAt_decReset]
      exact hmarks
  case read =>
    rintro r s ⟨hn, hz⟩
    exact (strictly_clear hz).trans ((decRead_writes hn).trans (viaWing_ok _ _))
  case waits =>
    rintro r s ⟨hn, hz, hr, hw⟩
    exact (strictly_clear hz).trans ((decRelease_begins hn hr).trans (if_pos hw))
  case ends =>
    rintro r s ⟨hn, hz, hr, hw⟩
    exact (strictly_clear hz).trans ((decRelease_begins hn hr).trans (if_neg (by simp [hw])))

end Sys2Proof
end
